-- ==== Sys2Proof/Word.lean ====
section
/-! DEFINITION. The word types of the model (R15, R17, R139). -/

namespace Sys2Proof

/-- A byte of memory. -/
abbrev Byte := BitVec 8
/-- A 32-bit word: an instruction word or an accumulator word. -/
abbrev W32 := BitVec 32
/-- A 64-bit word: a scalar register, a control register or a command word. -/
abbrev W64 := BitVec 64
/-- A vector register or a 128 B line (R139). -/
abbrev V1024 := BitVec 1024
/-- A predicate register or a tile descriptor (R139, R142). -/
abbrev V128 := BitVec 128
/-- One byte of memory at an address, as the host's Host.Cell is. -/
abbrev MemCell := Nat × BitVec 8

end Sys2Proof
end

