-- ==== Sys2Proof/Syntax.lean ====
section
/-! DEFINITION. The commands: one constructor per row of spec/opcode_table.json, in the table's order, and the data
their operands carry. An instruction row carries its core, its scalar processor and the instruction word of R145 to
R166; a register row carries the value written; an event row names the unit in which the event falls and what the
environment supplies (a packet, a reading, a message). -/

namespace Sys2Proof

/-- A word whose check bits decode as correctable when it is next read (R302): its address in the space the row
reads (byte address of the 8 B word, or of the 4 B accumulator word) and its syndrome. -/
structure Upset where
  addr : Nat
  syn : Nat
  deriving DecidableEq, Repr

/-- A tensor fabric packet: the header fields of R405, its payload and its E2ECRC. `again` says that it is a retransmission, which R355
tells apart and R405's header has no bit for (DESIGN CHOICE, log entry 81). -/
structure Packet where
  typ : Nat
  vc : Nat
  ce : Bool
  ece : Bool
  hops : Nat
  comb : Bool
  det : Bool
  ord : Bool
  dst : Nat
  src : Nat
  srcid : Nat
  atype : Nat
  len : Nat
  epoch : Nat
  seq : Nat
  addr : Nat
  aux : Nat
  resv : Nat
  payload : List Byte
  crc : Nat
  again : Bool
  deriving DecidableEq, Repr

/-- A RoCEv2 request as it reaches a port: queue pair, packet sequence number, whether the packet is the first and
the last of its message, ECN mark, remote key, address or length of R412, and data. -/
structure RoceReq where
  qp : Nat
  psn : Nat
  first : Bool
  last : Bool
  ecn : Bool
  rkey : Nat
  addr : Nat
  len : Nat
  data : List Byte
  deriving DecidableEq, Repr

/-- The capability block a die sends (R499, R507). -/
structure CapBlock where
  vendor : Nat
  guest : Bool
  stack : Nat
  rev : Nat
  jdp : Nat
  svcE : Bool
  svcCopy : Bool
  svcEvt : Bool
  therm : Bool
  epwin : Nat
  deriving DecidableEq, Repr

/-- What a boot step met (R581, R582): the step finished, or a fatal cause stopped it: the flash's table cannot be read, a base die
does not come up, or a stack fails training. -/
inductive BootOutcome where
  | ok | flash | baseDie | hbm
  deriving DecidableEq, Repr

/-- A sensor reading in units of 0.125 degC as it stands raw; `none` where the sensor cannot be read. -/
abbrev Reading := Option Int

/-- What comes of a frame on a new path (R475): it is not aligned, it is aligned and differs from the old path's or fails to decode, or both
decode and compare equal. -/
inductive FrameCmp where
  | lost | differs | equal
  deriving DecidableEq, Repr

/-- A new path of R475: the mirror of fibre `fibre` (`path` 0), a lane that moves to its transmit (1) or receive (2) spare line, or what the
other end moves to its receive side (3). -/
structure NewPath where
  fibre : Nat
  path : Nat
  deriving DecidableEq, Repr

/-- Frames that the new path `path` of `fibre` (as in NewPath) has delivered, in order (R475). Of path 3: what the other end's control frame
said before them, if it begins a move: the fibre that it mirrors on this one, or, on the fibre itself, the lane that it moves to the spare line;
and whether the old path has failed. -/
structure PathFrames where
  fibre : Nat
  path : Nat
  frames : List FrameCmp
  told : Option (Nat × Nat) := none
  failed : Bool := false
  deriving DecidableEq, Repr

/-- What the board does at a power-on reset: its straps, and the sources that were exchanged while the power was off, with the 256 bytes of
the one that is fitted now, or none where there is none (R28). -/
structure PowerOn where
  straps : BitVec 16
  sources : List (Nat × Option (List Byte)) := []
  deriving DecidableEq, Repr

/-- What befalls frames on the halter link (R264): a frame comes in, `came` holding its bytes and its CRC-32C; or, where `came` is none, the
acknowledgement of frame `frame` arrives, or its time runs out. -/
structure FrameNews where
  frame : Nat
  acked : Bool
  came : Option (List Byte × W32) := none
  deriving DecidableEq, Repr

/-- What a guest asks for (R500): the space (2 is E-space), and whether it is an atomic operation or a write. -/
structure GuestAsk where
  space : Nat
  atomic : Bool
  wr : Bool
  deriving DecidableEq, Repr

/-- A droop detector, and the local supply that it sees, in mV (R517). -/
structure DroopSense where
  det : Nat
  mv : Nat
  deriving DecidableEq, Repr

/-- Cycles of a 10 us sample window: those stretched (R518), those in which a pair issued in scalar processor 0 alone, in 1 alone and in
both, those in which nothing issued, and those in which the gleaner was busy (R185); and the place of its first cycle in a window of 64
(R523). -/
structure WindowCounts where
  stretched : Nat
  pair0 : Nat
  pair1 : Nat
  pairs : Nat
  idle : Nat
  busy : Nat
  place : Nat
  deriving DecidableEq, Repr

/-- The I3C common commands of R597. -/
inductive I3cCcc where
  | entdaa (addr : Nat) | setdasa (addr : Nat) | setnewda (addr : Nat) | rstdaa | getAddr
  deriving DecidableEq, Repr

/-- The instructions of the module test port (R504). -/
inductive TapIr where
  | bypass | sample | preload | extest | clamp | privateWrapper (code : Nat) | other (code : Nat)
  deriving DecidableEq, Repr

/-- The commands of the block, one constructor per row of the opcode table. -/
inductive Instr where
  -- scalar instructions (R149)
  | scalarRegOp (c p : Nat) (w : W32)
  | scalarImmOp (c p : Nat) (w : W32)
  | shiftImm (c p : Nat) (w : W32)
  | lui (c p : Nat) (w : W32)
  | branch (c p : Nat) (w : W32)
  | jal (c p : Nat) (w : W32)
  | jalr (c p : Nat) (w : W32)
  | tdWlo (c p : Nat) (w : W32)
  | tdWhi (c p : Nat) (w : W32)
  | tdRlo (c p : Nat) (w : W32)
  | tdRhi (c p : Nat) (w : W32)
  | ldS (c p : Nat) (w : W32) (ups : List Upset)
  | stS (c p : Nat) (w : W32)
  | ldL (c p : Nat) (w : W32) (ups : List Upset)
  | stL (c p : Nat) (w : W32)
  | atomS (c p : Nat) (w : W32)
  | atomL (c p : Nat) (w : W32)
  | atomE (c p : Nat) (w : W32) (ups : List Upset)
  | loadDataReturn (c p : Nat)
  | fenceL (c p : Nat) (w : W32)
  | acq (c p : Nat) (w : W32)
  | evtWait (c p : Nat) (w : W32)
  | evtSig (c p : Nat) (w : W32)
  | fenceR (c p : Nat) (w : W32)
  | phase (c p : Nat) (w : W32)
  | endInstr (c p : Nat) (w : W32)
  | eret (c p : Nat) (w : W32)
  | supcall (c p : Nat) (w : W32)
  | brk (c p : Nat) (w : W32)
  | csrRd (c p : Nat) (w : W32)
  | csrWr (c p : Nat) (w : W32)
  | cntRd (c p : Nat) (w : W32)
  | timeRd (c p : Nat) (w : W32)
  | traceMarkInstr (c p : Nat) (w : W32)
  | fps (c p : Nat) (w : W32)
  | ici (c p : Nat) (w : W32)
  | coreId (c p : Nat) (w : W32)
  | instructionFetchMiss (c p : Nat)
  | instructionLineArrival (c p : Nat)
  -- vector instructions (R151 to R154)
  | vadd (c p : Nat) (w : W32)
  | vsub (c p : Nat) (w : W32)
  | vmul (c p : Nat) (w : W32)
  | vfma (c p : Nat) (w : W32)
  | vmac (c p : Nat) (w : W32)
  | vdiv (c p : Nat) (w : W32)
  | vsqrt (c p : Nat) (w : W32)
  | vexp2 (c p : Nat) (w : W32)
  | vlog2 (c p : Nat) (w : W32)
  | vmax (c p : Nat) (w : W32)
  | vmin (c p : Nat) (w : W32)
  | vabs (c p : Nat) (w : W32)
  | vneg (c p : Nat) (w : W32)
  | vadds (c p : Nat) (w : W32)
  | vsubs (c p : Nat) (w : W32)
  | vand (c p : Nat) (w : W32)
  | vor (c p : Nat) (w : W32)
  | vxor (c p : Nat) (w : W32)
  | vshl (c p : Nat) (w : W32)
  | vshra (c p : Nat) (w : W32)
  | vshrl (c p : Nat) (w : W32)
  | vdot (c p : Nat) (w : W32)
  | vcmp (c p : Nat) (w : W32)
  | vrsum (c p : Nat) (w : W32)
  | vrmax (c p : Nat) (w : W32)
  | vrmin (c p : Nat) (w : W32)
  | vperm (c p : Nat) (w : W32)
  | vsel (c p : Nat) (w : W32)
  | vbcast (c p : Nat) (w : W32)
  | vext (c p : Nat) (w : W32)
  | vins (c p : Nat) (w : W32)
  | pand (c p : Nat) (w : W32)
  | porPredicate (c p : Nat) (w : W32)
  | pxor (c p : Nat) (w : W32)
  | pnot (c p : Nat) (w : W32)
  | pfirst (c p : Nat) (w : W32)
  | pcount (c p : Nat) (w : W32)
  | vcvt (c p : Nat) (w : W32)
  | vld (c p : Nat) (w : W32) (ups : List Upset)
  | vst (c p : Nat) (w : W32)
  | vgather (c p : Nat) (w : W32)
  | vscatter (c p : Nat) (w : W32)
  -- tile, gleaner, stook and remote instructions (R155 to R162)
  | matLoadb (c p : Nat) (w : W64)
  | matPass (c p : Nat) (w : W64)
  | matOpen (c p : Nat) (w : W64)
  | matClose (c p : Nat) (w : W64)
  | tileMove (c p : Nat) (w : W64)
  | tileMoveComplete (c : Nat)
  | glnGather (c p : Nat) (w : W64)
  | glnSegred (c p : Nat) (w : W64)
  | glnScatadd (c p : Nat) (w : W64)
  | glnMerge (c p : Nat) (w : W64)
  | glnIsect (c p : Nat) (w : W64)
  | glnSort (c p : Nat) (w : W64)
  | glnProbe (c p : Nat) (w : W64)
  | glnDrain (c p : Nat) (w : W64)
  | stookPut (c p : Nat) (w : W64)
  | rld (c p : Nat) (w : W64)
  | rst (c p : Nat) (w : W64)
  | radd (c p : Nat) (w : W64)
  | rstf (c p : Nat) (w : W64)
  | rstfSend (id : Nat)
  | impreciseExceptionTaken (c p : Nat)
  | kernelEnd (c : Nat)
  -- array and accumulator events (R75 to R91, R115 to R137)
  | tileQueueHeadCheck (c a : Nat)
  | passStart (c a : Nat)
  | passRowEntry (c a : Nat)
  | passComplete (c a g : Nat) (ups : List Upset)
  | loadbStart (c a : Nat)
  | loadbComplete (c a : Nat)
  | groupStateEffect (c a g : Nat)
  | arrSlotClr (c a : Nat) (v : W64)
  | slotClearEffect (c a t : Nat)
  | accAccessRelease (c p : Nat)
  | accSatWrite (c a g : Nat) (v : W64)
  -- the stook (R92 to R114)
  | stookSubmit (q : Nat)
  | stookDeadlineSeal (c : Nat)
  | stookDispatch (c : Nat)
  | stookPassComplete (c h : Nat)
  | stookScatterComplete (c h : Nat)
  | stookFlush (c : Nat) (v : W64)
  | stookAbort (c : Nat) (v : W64)
  | stookCtlWrite (c : Nat) (v : W64)
  | stookBufWrite (c : Nat) (v : W64)
  | stookKeyBind (c n : Nat) (v : W64)
  | stookKeyUnbind (c n : Nat) (v : W64)
  | stookKeyDescWrite (c n k : Nat) (v : W64)
  -- gleaner events (R189 to R217)
  | gleanOpStart (c : Nat) (perr : List Nat)
  | gleanStreamRowPlace (c : Nat)
  | gleanOpComplete (c : Nat) (ups : List Upset)
  | gleanOpFail (c : Nat)
  | gleanStallTimeout (c : Nat)
  | rcFlush (c : Nat) (v : W64)
  -- queue commands (R237 to R249): the head of queue q, dispatched
  | nop (q : Nat)
  | launch (q : Nat)
  | launchComplete (id : Nat)
  | copy (q : Nat)
  | copyComplete (b e : Nat) (ups : List Upset)
  | sow (q : Nat)
  | glean (q : Nat)
  | rs (q : Nat)
  | ag (q : Nat)
  | barrier (q : Nat)
  | waitCmd (q : Nat)
  | signal (q : Nat)
  | fenceRemote (q : Nat)
  | hintPhase (q : Nat)
  | timestamp (q : Nat)
  | traceMark (q : Nat)
  | teardownAck (q : Nat)
  -- queue events and registers (R231 to R280)
  | ringPoll (q : Nat)
  | queueHeadCheck (q : Nat)
  | queueDispatch
  | commandComplete
  | queueEnable (q : Nat) (v : W64)
  | queueBaseWrite (q : Nat) (v : W64)
  | queueAbort (q : Nat)
  | queueResume (q : Nat)
  | queEvtWrite (e : Nat) (v : W64)
  | pushMessage (hdr : V128) (cmds : List (List W64))
  | quePush (c p : Nat) (v : W64)
  | regrd (msg : V128)
  | regwr (msg : BitVec 192)
  | ldrd (hdr : V128) (ups : List Upset)
  | ldwr (hdr : V128) (data : List Byte)
  | reject (msg : Byte)
  | halterFrameResend (f : FrameNews)
  | registerWrite (addr : Nat) (v : W64)
  -- memory and bay cache (R289 to R316), uncorrectable errors (R541)
  | bayFlush (t : Nat)
  | bayWbinv (t : Nat)
  | bayFlushDone (t : Nat)
  | bayCfgWrite (t : Nat) (v : W64)
  | memCfgWrite (t : Nat) (v : W64)
  | stackTempSample (t : Nat) (r : Reading)
  | refreshBandChange (t : Nat)
  | uncorrectableError (block agent unit syn addr : Nat)
  -- the rack window (R341 to R385)
  | windowWalkStart (b page : Nat)
  | windowWalkComplete (b page ce : Nat)
  | remoteArrival (pkt : Packet)
  | remoteApply (src srcid : Nat)
  | remoteResponseArrival (pkt : Packet)
  | remoteRetransmit (id : Nat)
  | remoteOpTimeout (id : Nat)
  | skipArrival (pkt : Packet)
  | combineWindowClose (b i : Nat)
  | combineEntryTimeout (b i : Nat)
  | foldApply (b i : Nat)
  | teardownMessage (msg : V128)
  | vc3Teardown (pkt : Packet)
  | winTdThaw (v : W64)
  | winCacheInv (b : Nat) (v : W64)
  | changeRequest (bytes : List Byte)
  | changeVerified
  | manifestApply
  -- the tensor fabric and the ordinary network (R386 to R424)
  | packetForward (link : Nat) (pkt : Packet) (corr : Bool)
  | packetDiscardStuck (link i : Nat)
  | creditReturn (link vc : Nat) (shared : Bool)
  | creditRefresh (link : Nat) (free : List Nat)
  | hopFrameReceive (link : Nat) (errs : List Nat) (lead : Nat) (hops : List (List Byte × Bool)) (fibres : List (Nat × Nat × Nat × Nat))
  | linkTraining (link peer peerVariant peerLink : Nat)
  | linkDozeEntry (link lowUs : Nat)
  | linkDozeWake (link : Nat) (peerQueued : Nat)
  | fabQuiesce (v : W64)
  | fabPoolWrite (v : W64)
  | roceWrite (port : Nat) (r : RoceReq)
  | roceRead (port : Nat) (r : RoceReq)
  | roceSend (port : Nat) (r : RoceReq)
  | qpTransportTimeout (port qp : Nat)
  | ethCfgWrite (port : Nat) (v : W64)
  -- collectives (R425 to R461)
  | collectiveContextTake (q : Nat)
  | contextFullTimeout (q : Nat)
  | sheafReadyArrival (pkt : Packet)
  | sheafDataArrival (pkt : Packet)
  | sheafTrailerArrival (pkt : Packet)
  | sheafResendArrival (pkt : Packet)
  | sheafReduce (ctx block off : Nat) (laneFails : Nat)
  | collectiveStageComplete (ctx : Nat)
  | collectiveAbortArrival (pkt : Packet)
  | collectiveIdleTimeout (ctx : Nat)
  | collectiveEnd (ctx : Nat)
  | colAbort (v : W64)
  | colScrWrite (b : Nat) (v : W64)
  -- photonics (R462 to R491)
  | fadeSample (currents : List Nat)
  | mirrorReady (fibre : PathFrames)
  | pathSwitch (fibre : NewPath)
  | trackingUpdate (fibre ring : Nat) (rx : Bool) (errMHz : Nat) (lock : Bool)
  | ringRetuneDone (fibre ring : Nat) (rx : Bool)
  | feedForwardUpdate (b : Nat)
  | brokerPlan (demand : List Nat)
  | channelMoveComplete (ch : Nat)
  | receiveFibreLight (fibre : Nat)
  | photonicTuning (fibre : Nat) (rx : Bool) (verify : Bool) (power : List (List (Option Nat)))
  -- die interfaces (R492 to R510)
  | dportDrst (d : Nat)
  | dieLockLoss (d : Nat)
  | dieBringup (d : Nat) (trained : Bool) (cap : Option CapBlock)
  | dportHoldWrite (d : Nat) (v : W64)
  | dportLoopWrite (d : Nat) (v : W64) (errs : Nat)
  | flitReplay (d n : Nat)
  | marginUpdate (d : Nat)
  | guestTempReport (d : Nat) (r : Int)
  | guestReportTimeout (d : Nat)
  | guestSig (d e : Nat) (v : W32)
  | guestRegisterWait (d e : Nat) (t : W32)
  | guestWaitAnswer (d e : Nat) (t : W32)
  | guestEAccess (d : Nat) (ask : GuestAsk) (addr len hint : Nat) (data : List Byte)
  -- power, droop and heat (R511 to R537)
  | inputVoltageChange (mv : Nat)
  | pwrInReport (mv da watts : Nat)
  | converterFail (k : Nat)
  | uofsWrite (i : Nat) (v : W64)
  | ptWrite (i : Nat) (v : W64)
  | droopTrip (i : Nat) (det : DroopSense)
  | droopRelease (i det : Nat)
  | reactWindow (i cycles : Nat) (counts : WindowCounts)
  | regulatorUpdate (i : Nat)
  | hintLapse (i : Nat)
  | thermalSample (readings : List Reading)
  | sensorSelfCheck (x : Nat) (devMilli : Nat)
  -- faults, the roll call, winnow and observation (R538 to R578)
  | mrst
  | fltCtlMrst (v : W64)
  | watchdogKick (v : W64)
  | watchdogExpiry
  | glbEpochSet (v : W64)
  | heartbeatSend
  | heartbeat (node : Nat)
  | rollTick
  | vote (node suspect : Nat)
  | clear (node suspect : Nat)
  | voteExpiry
  | verdict (pkt : Packet) (link : Nat)
  | domainAlarm (k : Nat)
  | domain (pkt : Packet) (link : Nat)
  | join (pkt : Packet) (link : Nat)
  | admitMsg (pkt : Packet)
  | admitTimeout
  | fenceSelf
  | selfFenceTimeout
  | fenceMrst
  | winnowSchedule (d : Nat)
  | winnowKernelEnd (c : Nat) (crc : W64)
  | traceRecord (u : Nat) (typ sub : Nat) (payload : W64)
  | traceSample (u : Nat)
  | traceDatagramSend (u : Nat)
  | timebaseCheck
  -- boot, reset and low-power states (R579 to R605)
  | por (board : PowerOn)
  | bootStepComplete (o : BootOutcome) (straps : BitVec 16)
  | bootStepTimeout
  | ready
  | returnPassEnd (c : Nat)
  | bootFlupdGo (v : W64)
  | bootUcalSave (v : W64)
  | attestationRequest (msg : List Byte)
  | certificateRequest (msg : W64)
  | crst (i : Nat) (v : W64)
  | coreGate (i : Nat) (v : W64)
  | dieFallow (i : Nat) (v : W64)
  | coreWake (q : Nat)
  | standbyEnter (v : W64)
  | wake
  | status
  | i3cReservedCommand (code : Byte)
  | illegalInstruction (c p : Nat) (w : W32)
  | i3cCommonCommand (k : I3cCcc)
  | tapInstruction (ir : TapIr)
  deriving DecidableEq, Repr

end Sys2Proof
end

