-- ==== Sys2Proof/Decode.lean ====
section
/-! DEFINITION. Commands reach the block as the messages and events of its ports, and the opcode table gives no row any
bits: no word spells a command. -/

namespace Sys2Proof

/-- The command that a word of `nbits` bits spells: none, since the opcode table gives its rows no bits. -/
def decodeTableWord (_nbits _w : Nat) : Option Instr := none

end Sys2Proof
end

