-- ==== Sys2Proof/Machine/Bits.lean ====
section
/-! DEFINITION. Bit fields, sign extension, lanes and little-endian bytes (R15, R17, R44). Values under computation are
natural numbers; they are narrowed where a register or a byte is written. -/

namespace Sys2Proof.Machine

/-- Bits [hi:lo] of `x` (R15). -/
def bits (x hi lo : Nat) : Nat := (x >>> lo) % 2 ^ (hi + 1 - lo)

/-- Bit `i` of `x`, as a number. -/
def bitN (x i : Nat) : Nat := (x >>> i) % 2

/-- Is bit `i` of `x` 1? -/
def bitB (x i : Nat) : Bool := bitN x i == 1

/-- `x` with bits [hi:lo] replaced by the low bits of `v`. -/
def setBits (x hi lo v : Nat) : Nat :=
  (x >>> (hi + 1)) <<< (hi + 1) + (v % 2 ^ (hi + 1 - lo)) <<< lo + x % 2 ^ lo

/-- A truth value as a bit. -/
def b2n (b : Bool) : Nat := if b then 1 else 0

/-- The signed value of the low `n` bits of `x`. -/
def sext (n x : Nat) : Int :=
  if (x % 2 ^ n) * 2 < 2 ^ n then ((x % 2 ^ n : Nat) : Int) else ((x % 2 ^ n : Nat) : Int) - (2 ^ n : Nat)

/-- The low `n` bits of an integer in two's complement. -/
def wrapN (n : Nat) (i : Int) : Nat := (i % ((2 ^ n : Nat) : Int)).toNat

/-- An integer clamped to [lo, hi]. -/
def clampI (lo hi i : Int) : Int := if i < lo then lo else if hi < i then hi else i

/-- The least and the greatest `n`-bit signed values. -/
def iMin (n : Nat) : Int := -((2 ^ (n - 1) : Nat) : Int)
/-- See `iMin`. -/
def iMax (n : Nat) : Int := ((2 ^ (n - 1) : Nat) : Int) - 1

/-- The `i`-th lane of width `w` bits. -/
def lane (w x i : Nat) : Nat := (x >>> (w * i)) % 2 ^ w

/-- The lanes 0 to n−1 of width `w` bits. -/
def lanes (w n x : Nat) : List Nat := (List.range n).map (lane w x)

/-- Lanes packed from the least significant end (R44). -/
def packLanes (w : Nat) : List Nat → Nat
  | [] => 0
  | v :: r => v % 2 ^ w + (packLanes w r) <<< w

/-- `n` bytes of `x`, least significant first (R44). -/
def leBytes : Nat → Nat → List Byte
  | 0, _ => []
  | n + 1, x => BitVec.ofNat 8 x :: leBytes n (x >>> 8)

/-- The number that little-endian bytes spell. -/
def ofLe : List Byte → Nat
  | [] => 0
  | b :: r => b.toNat + (ofLe r) <<< 8

/-- A number as a 64-bit word. -/
abbrev w64 (n : Nat) : W64 := BitVec.ofNat 64 n

/-- Number of 1 bits among the low `n`. -/
def popN (n x : Nat) : Nat := ((List.range n).map (bitN x)).sum

/-- Position of the lowest 1 among the low `n` bits. -/
def lowBit (n x : Nat) : Option Nat := (List.range n).find? (bitB x)

/-- `n / d` rounded up. -/
def ceilDiv (n d : Nat) : Nat := (n + d - 1) / d

/-- The entry of a list, with a default. -/
def nth {α : Type} (l : List α) (d : α) (i : Nat) : α := (l[i]?).getD d

/-- The list with entry `i` replaced. -/
def setNth {α : Type} (l : List α) (i : Nat) (v : α) : List α := l.set i v

/-- The list without the entries that a test accepts first. -/
def dropFirst {α : Type} (f : α → Bool) : List α → List α
  | [] => []
  | a :: r => if f a then r else a :: dropFirst f r

/-- Entries changed where a test accepts them. -/
def mapIf {α : Type} (f : α → Bool) (g : α → α) (l : List α) : List α := l.map (fun a => if f a then g a else a)

end Sys2Proof.Machine
end

