-- ==== Sys2Proof/Machine/Flags.lean ====
section
/-! DEFINITION. The fifteen number formats, rounding, conversion and the four floating-point status flags (R44 to R59).
A finite value is held exactly, as sign, integer significand and binary exponent; every result is rounded once. -/

namespace Sys2Proof.Machine

/-- A value of a format: NaN, an infinity, or (−1)^neg · m · 2^e. A zero keeps its sign (R46). -/
inductive Val where
  | nan
  | inf (neg : Bool)
  | fin (neg : Bool) (m : Nat) (e : Int)
  deriving DecidableEq, Repr

/-- The four sticky flags of R57 as a set of bits: NV 1, OF 2, UF 4, NX 8 (the places of CORE_FPSTAT, R177). -/
abbrev FpFlags := Nat

/-- NV. -/
def fNV : FpFlags := 1
/-- OF. -/
def fOF : FpFlags := 2
/-- UF. -/
def fUF : FpFlags := 4
/-- NX. -/
def fNX : FpFlags := 8

/-- A result with the flags it sets. -/
abbrev Fr := Nat × FpFlags

/-- The parameters of a floating format (R45): exponent bits, mantissa bits, bias, the code of the largest finite
magnitude, whether it has infinities, and its canonical NaN. -/
structure FFmt where
  ew : Nat
  mw : Nat
  bias : Nat
  maxc : Nat
  hasInf : Bool
  nan : Option Nat
  deriving DecidableEq, Repr

/-- The floating formats 7 to 14 (R45). Other numbers give FP32. -/
def fpFmt (f : Nat) : FFmt :=
  match f with
  | 7 => ⟨2, 1, 1, 0x7, false, none⟩
  | 8 => ⟨2, 3, 1, 0x1F, false, none⟩
  | 9 => ⟨3, 2, 3, 0x1F, false, none⟩
  | 10 => ⟨4, 3, 7, 0x7E, false, some 0x7F⟩
  | 11 => ⟨5, 2, 15, 0x7B, true, some 0x7E⟩
  | 12 => ⟨8, 7, 127, 0x7F7F, true, some 0x7FC0⟩
  | 13 => ⟨5, 10, 15, 0x7BFF, true, some 0x7E00⟩
  | _ => ⟨8, 23, 127, 0x7F7FFFFF, true, some 0x7FC00000⟩

/-- Bits of an element of format `f` (R44, R45, R47). -/
def fmtBits (f : Nat) : Nat :=
  match f with
  | 1 => 1 | 2 => 2 | 3 => 4 | 4 => 8 | 5 => 16 | 6 => 32 | 7 => 4 | 8 => 6 | 9 => 6
  | 10 => 8 | 11 => 8 | 12 => 16 | 13 => 16 | 14 => 32 | 15 => 8 | _ => 0

/-- Is the format an integer format (R44)? -/
def fmtInt (f : Nat) : Bool := 1 ≤ f && f ≤ 6
/-- Is the format a floating format of R45? -/
def fmtFp (f : Nat) : Bool := 7 ≤ f && f ≤ 14

/-- The integer an element of an integer format encodes (R44). -/
def intVal (f x : Nat) : Int := if f = 1 then (if bitB x 0 then 1 else -1) else sext (fmtBits f) x

/-- The value a code of a floating format encodes (R45, R46). -/
def fpVal (f x : Nat) : Val :=
  let t := fpFmt f
  let neg := bitB x (t.ew + t.mw)
  let c := x % 2 ^ (t.ew + t.mw)
  let E := c >>> t.mw
  let M := c % 2 ^ t.mw
  if t.maxc < c ∧ t.nan.isSome then
    if t.hasInf ∧ M = 0 then .inf neg else .nan
  else if E = 0 then .fin neg M (1 - (t.bias : Int) - t.mw)
  else .fin neg (M + 2 ^ t.mw) ((E : Int) - t.bias - t.mw)

/-- The value of an element of any format, E8M0 among them (R44 to R47). -/
def anyVal (f x : Nat) : Val :=
  if f = 15 then (if x % 256 = 255 then .nan else .fin false 1 ((x % 256 : Nat) - 127 : Int))
  else if fmtInt f then .fin (decide (intVal f x < 0)) (intVal f x).natAbs 0
  else fpVal f x

/-- Rounds m · 2^e to a multiple of 2^q (R51): the multiple and whether it is inexact. `rm` is 0 RNE, 1 RTZ, 2 RDN,
3 RUP. -/
def roundAt (rm : Nat) (neg : Bool) (m : Nat) (e q : Int) : Nat × Bool :=
  if q ≤ e then (m <<< (e - q).toNat, false)
  else
    let k := (q - e).toNat
    let fl := m >>> k
    let r := m % 2 ^ k
    let up := match rm with
      | 0 => decide (2 ^ k < 2 * r) || (decide (2 * r = 2 ^ k) && bitB fl 0)
      | 1 => false
      | 2 => neg && decide (r ≠ 0)
      | _ => !neg && decide (r ≠ 0)
    (if up then fl + 1 else fl, decide (r ≠ 0))

/-- rne of R62 and R64: an exact m · 2^e to the nearest integer, ties to even. -/
def rneInt (neg : Bool) (m : Nat) (e : Int) : Int :=
  let r := ((roundAt 0 neg m e 0).1 : Int)
  if neg then -r else r

/-- Does overflow give an infinity under IEEE 754-2019 (R53)? -/
def ovfInf (rm : Nat) (neg : Bool) : Bool :=
  match rm with
  | 0 => true | 1 => false | 2 => neg | _ => !neg

/-- The code of an infinity of format `t`, without sign. -/
def FFmt.infCode (t : FFmt) : Nat := (2 ^ t.ew - 1) <<< t.mw

/-- A code with its sign bit. -/
def FFmt.withSign (t : FFmt) (neg : Bool) (c : Nat) : Nat := if neg then c + 2 ^ (t.ew + t.mw) else c

/-- Rounds an exact finite value into a floating format, with the overflow of R53 and the flags of R57. -/
def roundFp (f rm : Nat) (sat neg : Bool) (m : Nat) (e : Int) : Fr :=
  let t := fpFmt f
  let qmin : Int := 1 - (t.bias : Int) - t.mw
  if m = 0 then (t.withSign neg 0, 0)
  else
    let ex : Int := e + Nat.log2 m
    let q := max (ex - t.mw) qmin
    let (m', inx) := roundAt rm neg m e q
    let c := (q - qmin).toNat * 2 ^ t.mw + m'
    if t.maxc < c then
      let toMax := sat || t.nan.isNone || !ovfInf rm neg
      let r := if toMax then t.withSign neg t.maxc
        else if t.hasInf then t.withSign neg t.infCode else t.nan.getD 0
      (r, fOF + fNX)
    else
      (t.withSign neg c, (if inx then fNX else 0) + (if inx && decide (ex < 1 - (t.bias : Int)) then fUF else 0))

/-- The canonical NaN of a floating format; +0 where it has none (R46, R53). -/
def nanCode (f : Nat) : Nat := (fpFmt f).nan.getD 0

/-- Rounds a value into a floating format as an arithmetic result (R46, R58): SAT 0. -/
def encFp (f rm : Nat) (v : Val) : Fr :=
  match v with
  | .nan => (nanCode f, 0)
  | .inf n => ((fpFmt f).withSign n (fpFmt f).infCode, 0)
  | .fin n m e => roundFp f rm false n m e

/-! ### Exact arithmetic (R58) -/

/-- The exact sum of two finite values as sign, significand and exponent; an exact zero is −0 only where both addends
are −0 zeros, or under RDN where their signs differ (IEEE 754-2019). -/
def addFin (rm : Nat) (n1 : Bool) (m1 : Nat) (e1 : Int) (n2 : Bool) (m2 : Nat) (e2 : Int) : Val :=
  let e := min e1 e2
  let a : Int := (m1 <<< (e1 - e).toNat : Nat)
  let b : Int := (m2 <<< (e2 - e).toNat : Nat)
  let t := (if n1 then -a else a) + (if n2 then -b else b)
  if t = 0 then .fin (if n1 = n2 then n1 else decide (rm = 2)) 0 e
  else .fin (decide (t < 0)) t.natAbs e

/-- Sum of two values, and whether the operation is invalid. -/
def addVal (rm : Nat) (a b : Val) : Val × Bool :=
  match a, b with
  | .nan, _ => (.nan, false)
  | _, .nan => (.nan, false)
  | .inf n, .inf n' => if n = n' then (.inf n, false) else (.nan, true)
  | .inf n, .fin _ _ _ => (.inf n, false)
  | .fin _ _ _, .inf n => (.inf n, false)
  | .fin n1 m1 e1, .fin n2 m2 e2 => (addFin rm n1 m1 e1 n2 m2 e2, false)

/-- The value with its sign changed. -/
def negVal (a : Val) : Val :=
  match a with
  | .nan => .nan
  | .inf n => .inf (!n)
  | .fin n m e => .fin (!n) m e

/-- Product of two values, exact, and whether the operation is invalid. -/
def mulVal (a b : Val) : Val × Bool :=
  match a, b with
  | .nan, _ => (.nan, false)
  | _, .nan => (.nan, false)
  | .inf n, .inf n' => (.inf (n != n'), false)
  | .inf n, .fin n' m _ => if m = 0 then (.nan, true) else (.inf (n != n'), false)
  | .fin n' m _, .inf n => if m = 0 then (.nan, true) else (.inf (n != n'), false)
  | .fin n m e, .fin n' m' e' => (.fin (n != n') (m * m') (e + e'), false)

/-- Fused multiply-add: NV only where no operand is NaN (R57). -/
def fmaVal (rm : Nat) (a b c : Val) : Val × Bool :=
  let (p, iv) := mulVal a b
  match iv, c with
  | true, .nan => (.nan, false)
  | true, _ => (.nan, true)
  | false, _ => addVal rm p c

/-- Quotient carried to `bits` bits with a sticky bit, so that one rounding is exact. -/
def divFin (m m' : Nat) : Nat × Int :=
  let k := Nat.log2 m' + 64
  let n := m <<< k
  (2 * (n / m') + (if n % m' = 0 then 0 else 1), -((k : Int) + 1))

/-- Quotient of two values and whether the operation is invalid. A finite dividend over zero is an infinity. -/
def divVal (a b : Val) : Val × Bool :=
  match a, b with
  | .nan, _ => (.nan, false)
  | _, .nan => (.nan, false)
  | .inf _, .inf _ => (.nan, true)
  | .inf n, .fin n' _ _ => (.inf (n != n'), false)
  | .fin n _ _, .inf n' => (.fin (n != n') 0 0, false)
  | .fin n m e, .fin n' m' e' =>
    if m' = 0 then (if m = 0 then (.nan, true) else (.inf (n != n'), false))
    else if m = 0 then (.fin (n != n') 0 0, false)
    else
      let (q, k) := divFin m m'
      (.fin (n != n') q (e - e' + k), false)

/-- Integer square root by bits: the largest r + t < r + 2^i with (r + t)^2 ≤ n. -/
def isqrtGo : Nat → Nat → Nat → Nat
  | 0, _, r => r
  | i + 1, n, r => isqrtGo i n (if (r + 2 ^ i) * (r + 2 ^ i) ≤ n then r + 2 ^ i else r)

/-- Floor of the square root. -/
def isqrt (n : Nat) : Nat := isqrtGo (Nat.log2 n / 2 + 1) n 0

/-- Square root of a value, carried with a sticky bit, and whether the operation is invalid. -/
def sqrtVal (a : Val) : Val × Bool :=
  match a with
  | .nan => (.nan, false)
  | .inf n => if n then (.nan, true) else (.inf false, false)
  | .fin n m e =>
    if m = 0 then (.fin n 0 0, false)
    else if n then (.nan, true)
    else
      let k : Nat := if (e % 2 : Int) = 0 then 128 else 129
      let x := m <<< k
      let r := isqrt x
      (.fin false (2 * r + (if r * r = x then 0 else 1)) ((e - k) / 2 - 1), false)

/-! ### Powers and logarithms of two, correctly rounded (R151) -/

/-- Working bits of the interval arithmetic below. -/
def ivP : Nat := 256

/-- Product of two intervals of scale 2^−ivP, rounded outward. -/
def ivMul (a b : Nat × Nat) : Nat × Nat := ((a.1 * b.1) >>> ivP, ceilDiv (a.2 * b.2) (2 ^ ivP))

/-- Square root of an interval, rounded outward. -/
def ivSqrt (a : Nat × Nat) : Nat × Nat := (isqrt (a.1 <<< ivP), isqrt (a.2 <<< ivP) + 1)

/-- An interval around 2^f for the binary fraction whose bits are listed from weight 1/2 down: `c` encloses the root of
two of the current weight. -/
def exp2Iv (c acc : Nat × Nat) : List Bool → Nat × Nat
  | [] => acc
  | b :: r => let c' := ivSqrt c; exp2Iv c' (if b then ivMul acc c' else acc) r

/-- The bits of a / 2^b below the point, from the top. -/
def fracBits (a b : Nat) : List Bool := (List.range b).map (fun i => bitB a (b - 1 - i))

/-- Largest N below `r + 2^i` with N^(2^b) ≤ 2^t: the exact floor, by bits. -/
def rootGo (b t : Nat) : Nat → Nat → Nat
  | 0, r => r
  | i + 1, r => rootGo b t i (if (r + 2 ^ i) ^ (2 ^ b) ≤ 2 ^ t then r + 2 ^ i else r)

/-- ⌊2^(a / 2^b) · 2^k⌋ for a < 2^b: from the interval where it decides, else from the exact inequality
N^(2^b) ≤ 2^(a + k·2^b). -/
def exp2Floor (a b k : Nat) : Nat :=
  let iv := exp2Iv (2 * 2 ^ ivP, 2 * 2 ^ ivP) (2 ^ ivP, 2 ^ ivP) (fracBits a b)
  if iv.1 >>> (ivP - k) = iv.2 >>> (ivP - k) then iv.1 >>> (ivP - k)
  else rootGo b (a + k * 2 ^ b) (k + 1) 0

/-- 2 to the power of a value, carried with a sticky bit. A magnitude past every format's range is cut to 2^20, where
the result overflows or vanishes in the same way. -/
def exp2Val (a : Val) : Val :=
  match a with
  | .nan => .nan
  | .inf n => if n then .fin false 0 0 else .inf false
  | .fin n m e =>
    if m = 0 then .fin false 1 0
    else if 20 < e + Nat.log2 m then (if n then .fin false 1 (-1048576) else .fin false 1 1048576)
    else if 0 ≤ e then
      .fin false 1 (let k : Int := (m <<< e.toNat : Nat); if n then -k else k)
    else
      let b := (-e).toNat
      let v : Int := if n then -(m : Int) else m
      let i := v / ((2 ^ b : Nat) : Int)
      let f := (v % ((2 ^ b : Nat) : Int)).toNat
      if f = 0 then .fin false 1 i
      else .fin false (2 * exp2Floor f b 40 + 1) (i - 41)

/-- Bits of log2 of an interval in [1, 2), by squaring: each bit is 1 where the square reaches 2. `none` where the
interval straddles 2. -/
def log2Bits : Nat → Nat × Nat → Option Nat
  | 0, _ => some 0
  | i + 1, y =>
    let z := ivMul y y
    if 2 * 2 ^ ivP ≤ z.1 then (log2Bits i (z.1 / 2, (z.2 + 1) / 2)).map (· + 2 ^ i)
    else if z.2 < 2 * 2 ^ ivP then log2Bits i z
    else none

/-- Largest N below `r + 2^i` with 2^N ≤ (m / 2^l)^(2^k): the exact floor of 2^k · log2(m / 2^l), by bits. -/
def log2Go (m l k : Nat) : Nat → Nat → Nat
  | 0, r => r
  | i + 1, r => log2Go m l k i (if 2 ^ ((r + 2 ^ i) + l * 2 ^ k) ≤ m ^ (2 ^ k) then r + 2 ^ i else r)

/-- ⌊2^k · log2(m / 2^l)⌋ for 2^l ≤ m < 2^(l+1). -/
def log2Floor (m l k : Nat) : Nat :=
  let y := (m <<< ivP) >>> l
  match log2Bits k (y, if m % 2 ^ l = 0 ∨ l ≤ ivP then y else y + 1) with
  | some r => r
  | none => log2Go m l k k 0

/-- Logarithm base 2 of a value, carried with a sticky bit, and whether the operation is invalid. -/
def log2Val (a : Val) : Val × Bool :=
  match a with
  | .nan => (.nan, false)
  | .inf n => if n then (.nan, true) else (.inf false, false)
  | .fin n m e =>
    if m = 0 then (.inf true, false)
    else if n then (.nan, true)
    else
      let l := Nat.log2 m
      let k := 80
      if m = 2 ^ l then
        let r : Int := e + l
        (.fin (decide (r < 0)) r.natAbs 0, false)
      else
        let v : Int := (e + l) * ((2 ^ k : Nat) : Int) + (log2Floor m l k : Nat)
        if v < 0 then (.fin true (2 * (-(v + 1)).toNat + 1) (-(k : Int) - 1), false)
        else (.fin false (2 * v.toNat + 1) (-(k : Int) - 1), false)

/-! ### Comparison, maximum and minimum -/

/-- a < b for values that are not NaN. -/
def ltVal (a b : Val) : Bool :=
  match a, b with
  | .inf n, .inf n' => n && !n'
  | .inf n, .fin _ _ _ => n
  | .fin _ _ _, .inf n => !n
  | .fin n1 m1 e1, .fin n2 m2 e2 =>
    let e := min e1 e2
    let x : Int := (m1 <<< (e1 - e).toNat : Nat)
    let y : Int := (m2 <<< (e2 - e).toNat : Nat)
    decide ((if n1 then -x else x) < (if n2 then -y else y))
  | _, _ => false

/-- Neither less than the other, and neither NaN. -/
def eqVal (a b : Val) : Bool :=
  match a, b with
  | .nan, _ => false
  | _, .nan => false
  | _, _ => !ltVal a b && !ltVal b a

/-- The sign of a value; a NaN has none. -/
def signVal (a : Val) : Bool :=
  match a with
  | .nan => false
  | .inf n => n
  | .fin n _ _ => n

/-! ### Conversion (R51 to R57) -/

/-- Conversion to INT1 (R54, R55). -/
def toInt1 (v : Val) : Fr :=
  match v with
  | .nan => (1, fNV)
  | .inf n => (if n then 0 else 1, fNV)
  | .fin n m e =>
    let one := (if 0 ≤ e then decide (m <<< e.toNat = 1) else decide (m = 2 ^ (-e).toNat))
    (if n && decide (m ≠ 0) then 0 else 1, if one then 0 else fNX)

/-- Conversion to a two's-complement format of `n` bits (R54, R55). A source of -0 gives 0 and sets no flag: the 0 of such a format has no
sign to differ in (R57; DEDUCED, unsafe, log entry 108). -/
def toIntN (n rm : Nat) (v : Val) : Fr :=
  match v with
  | .nan => (0, fNV)
  | .inf s => (wrapN n (if s then iMin n else iMax n), fNV)
  | .fin s m e =>
    let (r, inx) := roundAt rm s m e 0
    let i : Int := if s then -(r : Int) else r
    if i < iMin n then (wrapN n (iMin n), fOF + fNX)
    else if iMax n < i then (wrapN n (iMax n), fOF + fNX)
    else (wrapN n i, if inx then fNX else 0)

/-- Conversion to E8M0 (R56). -/
def toE8M0 (v : Val) : Fr :=
  match v with
  | .nan => (0xFF, 0)
  | .inf _ => (0xFF, fNV)
  | .fin s m e =>
    if m = 0 then (0, fNX)
    else
      let x : Int := e + Nat.log2 m + 127
      if x < 0 then (0, fUF + fNX)
      else if 254 < x then (254, fOF + fNX)
      else (x.toNat, if s || decide (m ≠ 2 ^ Nat.log2 m) then fNX else 0)

/-- Conversion to a floating format (R52, R53). -/
def toFp (f rm : Nat) (sat : Bool) (v : Val) : Fr :=
  let t := fpFmt f
  match v with
  | .nan => (nanCode f, if t.nan.isNone then fNV else 0)
  | .inf n =>
    if t.hasInf then (t.withSign n (if sat then t.maxc else t.infCode), 0)
    else if t.nan.isSome && !sat then (nanCode f, fNV)
    else (t.withSign n t.maxc, fNV)
  | .fin n m e => roundFp f rm sat n m e

/-- One element converted between any two of the fifteen formats. R54 to R56 speak of floating sources and destinations, and R153 allows any
pair: between E8M0 and an integer format, the value of the one is rounded into the other by the same rules (DEDUCED, unsafe, log entry
86). -/
def convert (src dst rm : Nat) (sat : Bool) (x : Nat) : Fr :=
  let v := anyVal src x
  if dst = 15 then toE8M0 v
  else if dst = 1 then toInt1 v
  else if fmtInt dst then toIntN (fmtBits dst) rm v
  else toFp dst rm sat v

/-- An FP32 sum under RNE, as the engines add (R58, R59). -/
def fp32Add (x y : Nat) : Nat := (encFp 14 0 (addVal 0 (fpVal 14 x) (fpVal 14 y)).1).1

end Sys2Proof.Machine
end

