-- ==== Sys2Proof/Machine/RegDefs.lean ====
section
/-! DEFINITION. The control registers: one constructor of `Reg` and one namespace of fields per register table of the
spec (bits, access code of R18, reset value and reset kinds of R20). The tables are the spec's, field for field;
reserved fields have no entry, so they read 0 and ignore writes (R19). -/

namespace Sys2Proof.Machine

/-- Access codes (R18). -/
inductive Acc where
  | ro | rw | wo | w1c | rc | seal | otp
  deriving DecidableEq, Repr

/-- The control registers, under the manual's names. -/
inductive Reg where
  | GLB_ID
  | GLB_VERSION
  | GLB_DIEMAP
  | GLB_TIME
  | ARR_CTL
  | ARR_STAT
  | ARR_ERR
  | STOOK_CTL
  | STOOK_BUF
  | STOOK_STAT
  | STOOK_ERRLOG
  | STOOK_KEY_CFG
  | STOOK_KEY_BLO
  | STOOK_KEY_BHI
  | STOOK_KEY_STAT
  | ACC_GSTAT
  | ACC_SAT
  | ACC_ECC
  | ACC_ECCLOG
  | ACC_CORE_STAT
  | CORE_CTL
  | CORE_VEC
  | CORE_FPSTAT
  | CORE_EXC
  | CORE_EPC
  | CORE_EINFO
  | CNT_CTL
  | CNT_SEL
  | CNT_VAL
  | GLN_CFG
  | GLN_STAT
  | GLN_ERR
  | GLN_CNT
  | GLN_STREAM
  | GLN_RC
  | QUE_CFG
  | QUE_CNT
  | QUE_Q_CFG
  | QUE_Q_BASE
  | QUE_Q_PTR
  | QUE_Q_STAT
  | QUE_Q_CTL
  | QUE_EVT
  | QUE_STAGE
  | QUE_PUSH
  | QUE_PUSH_RES
  | MEM_CFG
  | MEM_STAT
  | MEM_ECC
  | BAY_ECC
  | LOFT_ECC
  | MEM_ECCLOG
  | BAY_ECCLOG
  | LOFT_ECCLOG
  | MEM_CHCNT
  | LOFT_BANKCNT
  | MEM_RD
  | MEM_WR
  | BAY_CFG
  | BAY_CTL
  | BAY_STAT
  | BAY_CNT0
  | BAY_CNT1
  | SPAD_ECC
  | SPAD_ECCLOG
  | SPAD_BANKCNT
  | WIN_CFG
  | WIN_GUARD
  | WIN_TABLE
  | WIN_TD
  | WIN_CHG_STAT
  | WIN_CHG_SEQ
  | WIN_FAULT
  | WIN_RX
  | WIN_CACHE_CTL
  | WIN_CACHE_STAT
  | WIN_COMB
  | FAB_NODE
  | FAB_CFG
  | FAB_CTL
  | FAB_STAT
  | FAB_POOL
  | FAB_ECN
  | FAB_DROP
  | FAB_DROP2
  | FAB_RT
  | FAB_LINK
  | FAB_LCNT0
  | FAB_LCNT1
  | ETH_CFG
  | ETH_TBL
  | ETH_STAT
  | COL_CFG
  | COL_STAT
  | COL_ERR
  | COL_CTL
  | COL_CNT
  | COL_SCR
  | COL_CTX
  | COL_GSEQ
  | COL_GBOX
  | COL_GRP
  | PHO_CFG
  | PHO_STAT
  | PHO_EVT
  | PHO_FF
  | PHO_SRC_STAT
  | PHO_SRC_CAL
  | PHO_FIB_STAT
  | PHO_RING_ASSIGN
  | PHO_EYE
  | PHO_ERR
  | PHO_BRK_STAT
  | PHO_BRK_ALLOC
  | DPORT_CAP
  | DPORT_CTL
  | DPORT_STAT
  | DPORT_ERR
  | PWR_CFG
  | PWR_STAT
  | PWR_IN
  | PWR_DOM_CTL
  | PWR_DOM_STAT
  | PWR_DROOP
  | PWR_VT
  | THM_CFG
  | THM_MOD
  | THM_DIE
  | THM_SENS
  | GLB_EPOCH
  | GLB_EPOCH_SET
  | FLT_CFG
  | FLT_CTL
  | FLT_WDOG
  | FLT_REC0
  | FLT_REC1
  | FLT_CE_SUM
  | ROLL_CFG
  | ROLL_CTL
  | ROLL_STAT
  | ROLL_VERDICT
  | ROLL_JOB
  | ROLL_NODE
  | WNW_CFG
  | WNW_STAT
  | WNW_FENCE
  | WNW_LOG
  | OBS_CFG
  | OBS_DEST
  | OBS_DEST2
  | OBS_STAT
  | OBS_CORE
  | OBS_BASE
  | GLB_STRAP
  | BOOT_STAT
  | BOOT_UCAL
  | BOOT_FLUPD
  | SEC_OTP
  | SEC_IDHASH
  | SEC_MEAS
  | PWR_STBY
  | PWR_DOM_LP
  deriving DecidableEq, Repr

/-- A field of a register: its bits, access code, reset value and the reset kinds that return it to that value
(bit 0 POR, 1 MRST, 2 DRST, 3 CRST, 4 exit from core gate, 5 exit from fallow, 6 exit from standby; R20). -/
structure Fld where
  reg : Reg
  hi : Nat
  lo : Nat
  acc : Acc
  rst : Nat
  kinds : Nat
  deriving DecidableEq, Repr

namespace GLB_ID
def CDIES : Fld := ⟨.GLB_ID, 7, 0, .ro, 0, 0⟩
def STACKS : Fld := ⟨.GLB_ID, 15, 8, .ro, 0, 0⟩
def BDIES : Fld := ⟨.GLB_ID, 19, 16, .ro, 0, 0⟩
def PART : Fld := ⟨.GLB_ID, 39, 24, .ro, 0, 0⟩
def VENDOR : Fld := ⟨.GLB_ID, 55, 40, .ro, 0, 0⟩
end GLB_ID

namespace GLB_VERSION
def CDIE_REV : Fld := ⟨.GLB_VERSION, 7, 0, .ro, 0, 0⟩
def BDIE_REV : Fld := ⟨.GLB_VERSION, 15, 8, .ro, 0, 0⟩
def PHOT_REV : Fld := ⟨.GLB_VERSION, 23, 16, .ro, 0, 0⟩
def ISA_GEN : Fld := ⟨.GLB_VERSION, 31, 24, .ro, 0, 0⟩
def FW_MINOR : Fld := ⟨.GLB_VERSION, 39, 32, .ro, 0, 3⟩
def FW_MAJOR : Fld := ⟨.GLB_VERSION, 47, 40, .ro, 0, 3⟩
end GLB_VERSION

namespace GLB_DIEMAP
def PRESENT : Fld := ⟨.GLB_DIEMAP, 11, 0, .ro, 0, 3⟩
def GUEST : Fld := ⟨.GLB_DIEMAP, 23, 12, .ro, 0, 3⟩
def RELEASED : Fld := ⟨.GLB_DIEMAP, 35, 24, .ro, 0, 3⟩
def BDIE_UP : Fld := ⟨.GLB_DIEMAP, 39, 36, .ro, 0, 3⟩
end GLB_DIEMAP

namespace GLB_TIME
def NS : Fld := ⟨.GLB_TIME, 63, 0, .ro, 0, 3⟩
end GLB_TIME

namespace ARR_CTL
def SLOT_CLR : Fld := ⟨.ARR_CTL, 1, 0, .wo, 0, 127⟩
def CKGATE : Fld := ⟨.ARR_CTL, 2, 2, .rw, 1, 127⟩
end ARR_CTL

namespace ARR_STAT
def SLOT_VALID : Fld := ⟨.ARR_STAT, 1, 0, .ro, 0, 127⟩
def SLOT_LOADING : Fld := ⟨.ARR_STAT, 3, 2, .ro, 0, 127⟩
def INFLIGHT : Fld := ⟨.ARR_STAT, 7, 4, .ro, 0, 127⟩
def QDEPTH : Fld := ⟨.ARR_STAT, 11, 8, .ro, 0, 127⟩
def OWNED : Fld := ⟨.ARR_STAT, 12, 12, .ro, 0, 127⟩
def FMT_S0 : Fld := ⟨.ARR_STAT, 19, 16, .ro, 0, 127⟩
def FMT_S1 : Fld := ⟨.ARR_STAT, 23, 20, .ro, 0, 127⟩
def K_S0 : Fld := ⟨.ARR_STAT, 32, 24, .ro, 0, 127⟩
def K_S1 : Fld := ⟨.ARR_STAT, 41, 33, .ro, 0, 127⟩
def N_S0 : Fld := ⟨.ARR_STAT, 50, 42, .ro, 0, 127⟩
def N_S1 : Fld := ⟨.ARR_STAT, 59, 51, .ro, 0, 127⟩
end ARR_STAT

namespace ARR_ERR
def VALID : Fld := ⟨.ARR_ERR, 0, 0, .w1c, 0, 127⟩
def CAUSE : Fld := ⟨.ARR_ERR, 4, 1, .ro, 0, 127⟩
def GROUP : Fld := ⟨.ARR_ERR, 6, 5, .ro, 0, 127⟩
def SLOT : Fld := ⟨.ARR_ERR, 7, 7, .ro, 0, 127⟩
def SP : Fld := ⟨.ARR_ERR, 8, 8, .ro, 0, 127⟩
def COUNT : Fld := ⟨.ARR_ERR, 23, 16, .ro, 0, 127⟩
end ARR_ERR

namespace STOOK_CTL
def EN : Fld := ⟨.STOOK_CTL, 0, 0, .rw, 0, 127⟩
def ARRAYS : Fld := ⟨.STOOK_CTL, 4, 1, .rw, 0, 127⟩
def FLUSH : Fld := ⟨.STOOK_CTL, 5, 5, .wo, 0, 127⟩
def ABORT : Fld := ⟨.STOOK_CTL, 6, 6, .wo, 0, 127⟩
end STOOK_CTL

namespace STOOK_BUF
def BASE : Fld := ⟨.STOOK_BUF, 22, 18, .rw, 0, 127⟩
end STOOK_BUF

namespace STOOK_STAT
def PENDING : Fld := ⟨.STOOK_STAT, 8, 0, .ro, 0, 127⟩
def KEYS : Fld := ⟨.STOOK_STAT, 15, 9, .ro, 0, 127⟩
def SEALED : Fld := ⟨.STOOK_STAT, 24, 16, .ro, 0, 127⟩
def BUSY : Fld := ⟨.STOOK_STAT, 25, 25, .ro, 0, 127⟩
def CFGERR : Fld := ⟨.STOOK_STAT, 26, 26, .w1c, 0, 127⟩
def BINDERR : Fld := ⟨.STOOK_STAT, 27, 27, .w1c, 0, 127⟩
end STOOK_STAT

namespace STOOK_ERRLOG
def VALID : Fld := ⟨.STOOK_ERRLOG, 0, 0, .w1c, 0, 127⟩
def STATUS : Fld := ⟨.STOOK_ERRLOG, 8, 1, .ro, 0, 127⟩
def KEYIDX : Fld := ⟨.STOOK_ERRLOG, 14, 9, .ro, 0, 127⟩
def SP : Fld := ⟨.STOOK_ERRLOG, 15, 15, .ro, 0, 127⟩
def EVENT : Fld := ⟨.STOOK_ERRLOG, 31, 16, .ro, 0, 127⟩
def COUNT : Fld := ⟨.STOOK_ERRLOG, 47, 32, .ro, 0, 127⟩
end STOOK_ERRLOG

namespace STOOK_KEY_CFG
def KEY : Fld := ⟨.STOOK_KEY_CFG, 31, 0, .rw, 0, 127⟩
def VALID : Fld := ⟨.STOOK_KEY_CFG, 32, 32, .rw, 0, 127⟩
def AFMT : Fld := ⟨.STOOK_KEY_CFG, 36, 33, .rw, 0, 127⟩
def DEADLINE : Fld := ⟨.STOOK_KEY_CFG, 45, 37, .rw, 0, 127⟩
def OFMT : Fld := ⟨.STOOK_KEY_CFG, 49, 46, .rw, 0, 127⟩
end STOOK_KEY_CFG

namespace STOOK_KEY_BLO
def DESC_LO : Fld := ⟨.STOOK_KEY_BLO, 63, 0, .rw, 0, 127⟩
end STOOK_KEY_BLO

namespace STOOK_KEY_BHI
def DESC_HI : Fld := ⟨.STOOK_KEY_BHI, 63, 0, .rw, 0, 127⟩
end STOOK_KEY_BHI

namespace STOOK_KEY_STAT
def STATE : Fld := ⟨.STOOK_KEY_STAT, 1, 0, .ro, 0, 127⟩
def ROWS : Fld := ⟨.STOOK_KEY_STAT, 10, 2, .ro, 0, 127⟩
def REQS : Fld := ⟨.STOOK_KEY_STAT, 19, 11, .ro, 0, 127⟩
def RES_ARRAY : Fld := ⟨.STOOK_KEY_STAT, 21, 20, .ro, 0, 127⟩
def RES_SLOT : Fld := ⟨.STOOK_KEY_STAT, 22, 22, .ro, 0, 127⟩
def RESIDENT : Fld := ⟨.STOOK_KEY_STAT, 23, 23, .ro, 0, 127⟩
end STOOK_KEY_STAT

namespace ACC_GSTAT
def STATE : Fld := ⟨.ACC_GSTAT, 7, 0, .ro, 0, 127⟩
def PEND0 : Fld := ⟨.ACC_GSTAT, 23, 8, .ro, 0, 127⟩
def PEND1 : Fld := ⟨.ACC_GSTAT, 39, 24, .ro, 0, 127⟩
end ACC_GSTAT

namespace ACC_SAT
def SAT : Fld := ⟨.ACC_SAT, 0, 0, .rw, 0, 127⟩
def ROW : Fld := ⟨.ACC_SAT, 8, 1, .rw, 0, 127⟩
def COL : Fld := ⟨.ACC_SAT, 16, 9, .rw, 0, 127⟩
def INF : Fld := ⟨.ACC_SAT, 17, 17, .rw, 0, 127⟩
def NAN : Fld := ⟨.ACC_SAT, 18, 18, .rw, 0, 127⟩
def COUNT : Fld := ⟨.ACC_SAT, 47, 32, .rw, 0, 127⟩
end ACC_SAT

namespace ACC_ECC
def CE_COUNT : Fld := ⟨.ACC_ECC, 15, 0, .rc, 0, 127⟩
def THRESH : Fld := ⟨.ACC_ECC, 31, 16, .rw, 256, 127⟩
def THR_HIT : Fld := ⟨.ACC_ECC, 32, 32, .w1c, 0, 127⟩
def IRQ_EN : Fld := ⟨.ACC_ECC, 33, 33, .rw, 1, 127⟩
end ACC_ECC

namespace ACC_ECCLOG
def VALID : Fld := ⟨.ACC_ECCLOG, 0, 0, .w1c, 0, 127⟩
def GROUP : Fld := ⟨.ACC_ECCLOG, 2, 1, .ro, 0, 127⟩
def ROW : Fld := ⟨.ACC_ECCLOG, 10, 3, .ro, 0, 127⟩
def COL : Fld := ⟨.ACC_ECCLOG, 18, 11, .ro, 0, 127⟩
def SYNDROME : Fld := ⟨.ACC_ECCLOG, 25, 19, .ro, 0, 127⟩
def AGENT : Fld := ⟨.ACC_ECCLOG, 27, 26, .ro, 0, 127⟩
end ACC_ECCLOG

namespace ACC_CORE_STAT
def SAT : Fld := ⟨.ACC_CORE_STAT, 0, 0, .w1c, 0, 127⟩
def CORR : Fld := ⟨.ACC_CORE_STAT, 1, 1, .w1c, 0, 127⟩
def OWNEDACC : Fld := ⟨.ACC_CORE_STAT, 2, 2, .w1c, 0, 127⟩
end ACC_CORE_STAT

namespace CORE_CTL
def RUN : Fld := ⟨.CORE_CTL, 1, 0, .ro, 0, 127⟩
def SUPER : Fld := ⟨.CORE_CTL, 3, 2, .ro, 0, 127⟩
def EXC_EN : Fld := ⟨.CORE_CTL, 4, 4, .rw, 0, 127⟩
end CORE_CTL

namespace CORE_VEC
def ADDR : Fld := ⟨.CORE_VEC, 63, 6, .rw, 0, 127⟩
end CORE_VEC

namespace CORE_FPSTAT
def NV : Fld := ⟨.CORE_FPSTAT, 0, 0, .w1c, 0, 127⟩
def OF : Fld := ⟨.CORE_FPSTAT, 1, 1, .w1c, 0, 127⟩
def UF : Fld := ⟨.CORE_FPSTAT, 2, 2, .w1c, 0, 127⟩
def NX : Fld := ⟨.CORE_FPSTAT, 3, 3, .w1c, 0, 127⟩
end CORE_FPSTAT

namespace CORE_EXC
def CAUSE : Fld := ⟨.CORE_EXC, 7, 0, .ro, 0, 127⟩
def PRECISE : Fld := ⟨.CORE_EXC, 8, 8, .ro, 0, 127⟩
def NESTED : Fld := ⟨.CORE_EXC, 9, 9, .ro, 0, 127⟩
def ARRAY : Fld := ⟨.CORE_EXC, 11, 10, .ro, 0, 127⟩
def STATUS : Fld := ⟨.CORE_EXC, 19, 12, .ro, 0, 127⟩
def HALTED : Fld := ⟨.CORE_EXC, 20, 20, .ro, 0, 127⟩
def PEND : Fld := ⟨.CORE_EXC, 23, 21, .ro, 0, 127⟩
def OVF : Fld := ⟨.CORE_EXC, 24, 24, .w1c, 0, 127⟩
end CORE_EXC

namespace CORE_EPC
def PC : Fld := ⟨.CORE_EPC, 63, 0, .ro, 0, 127⟩
end CORE_EPC

namespace CORE_EINFO
def INFO : Fld := ⟨.CORE_EINFO, 63, 0, .ro, 0, 127⟩
end CORE_EINFO

namespace CNT_CTL
def EN : Fld := ⟨.CNT_CTL, 0, 0, .rw, 0, 127⟩
def FREEZE : Fld := ⟨.CNT_CTL, 1, 1, .rw, 0, 127⟩
def CLEAR : Fld := ⟨.CNT_CTL, 2, 2, .wo, 0, 127⟩
end CNT_CTL

namespace CNT_SEL
def EVENT : Fld := ⟨.CNT_SEL, 7, 0, .rw, 0, 127⟩
def SPMASK : Fld := ⟨.CNT_SEL, 9, 8, .rw, 3, 127⟩
def EN : Fld := ⟨.CNT_SEL, 10, 10, .rw, 0, 127⟩
def OVF : Fld := ⟨.CNT_SEL, 11, 11, .w1c, 0, 127⟩
end CNT_SEL

namespace CNT_VAL
def VALUE : Fld := ⟨.CNT_VAL, 63, 0, .rw, 0, 127⟩
end CNT_VAL

namespace GLN_CFG
def STALL : Fld := ⟨.GLN_CFG, 15, 0, .rw, 1000, 127⟩
def RC_EN : Fld := ⟨.GLN_CFG, 16, 16, .rw, 1, 127⟩
def RC_FLUSH : Fld := ⟨.GLN_CFG, 17, 17, .wo, 0, 127⟩
end GLN_CFG

namespace GLN_STAT
def QDEPTH : Fld := ⟨.GLN_STAT, 4, 0, .ro, 0, 127⟩
def BUSY : Fld := ⟨.GLN_STAT, 5, 5, .ro, 0, 127⟩
def SAT : Fld := ⟨.GLN_STAT, 6, 6, .w1c, 0, 127⟩
def CORR : Fld := ⟨.GLN_STAT, 7, 7, .w1c, 0, 127⟩
def DROPPED : Fld := ⟨.GLN_STAT, 8, 8, .w1c, 0, 127⟩
end GLN_STAT

namespace GLN_ERR
def VALID : Fld := ⟨.GLN_ERR, 0, 0, .w1c, 0, 127⟩
def CAUSE : Fld := ⟨.GLN_ERR, 4, 1, .ro, 0, 127⟩
def SP : Fld := ⟨.GLN_ERR, 5, 5, .ro, 0, 127⟩
def CMD : Fld := ⟨.GLN_ERR, 6, 6, .ro, 0, 127⟩
def STATUS : Fld := ⟨.GLN_ERR, 15, 8, .ro, 0, 127⟩
def COUNT : Fld := ⟨.GLN_ERR, 23, 16, .ro, 0, 127⟩
def POSN : Fld := ⟨.GLN_ERR, 63, 24, .ro, 0, 127⟩
end GLN_ERR

namespace GLN_CNT
def OOR : Fld := ⟨.GLN_CNT, 23, 0, .rc, 0, 127⟩
def EMPTY : Fld := ⟨.GLN_CNT, 47, 24, .rc, 0, 127⟩
def LONG : Fld := ⟨.GLN_CNT, 63, 48, .rc, 0, 127⟩
end GLN_CNT

namespace GLN_STREAM
def BUFFERED : Fld := ⟨.GLN_STREAM, 5, 0, .ro, 0, 127⟩
def FMT : Fld := ⟨.GLN_STREAM, 9, 6, .ro, 0, 127⟩
def COLS : Fld := ⟨.GLN_STREAM, 18, 10, .ro, 0, 127⟩
def UNCLAIMED : Fld := ⟨.GLN_STREAM, 63, 32, .ro, 0, 127⟩
end GLN_STREAM

namespace GLN_RC
def PERR : Fld := ⟨.GLN_RC, 15, 0, .rc, 0, 127⟩
def KEEP : Fld := ⟨.GLN_RC, 27, 16, .ro, 0, 127⟩
end GLN_RC

namespace QUE_CFG
def POLL : Fld := ⟨.QUE_CFG, 15, 0, .rw, 500, 3⟩
end QUE_CFG

namespace QUE_CNT
def VOIDPH : Fld := ⟨.QUE_CNT, 15, 0, .rc, 0, 3⟩
def BADCMD : Fld := ⟨.QUE_CNT, 31, 16, .rc, 0, 3⟩
end QUE_CNT

namespace QUE_Q_CFG
def EN : Fld := ⟨.QUE_Q_CFG, 0, 0, .rw, 0, 3⟩
def MODE : Fld := ⟨.QUE_Q_CFG, 1, 1, .rw, 0, 3⟩
def PRIO : Fld := ⟨.QUE_Q_CFG, 3, 2, .rw, 0, 3⟩
def SPACE : Fld := ⟨.QUE_Q_CFG, 5, 4, .rw, 0, 3⟩
def SIZE : Fld := ⟨.QUE_Q_CFG, 22, 6, .rw, 0, 3⟩
end QUE_Q_CFG

namespace QUE_Q_BASE
def ADDR : Fld := ⟨.QUE_Q_BASE, 63, 6, .rw, 0, 3⟩
end QUE_Q_BASE

namespace QUE_Q_PTR
def HEAD : Fld := ⟨.QUE_Q_PTR, 15, 0, .ro, 0, 3⟩
def TAIL : Fld := ⟨.QUE_Q_PTR, 31, 16, .ro, 0, 3⟩
end QUE_Q_PTR

namespace QUE_Q_STAT
def STATE : Fld := ⟨.QUE_Q_STAT, 2, 0, .ro, 0, 3⟩
def STATUS : Fld := ⟨.QUE_Q_STAT, 10, 3, .ro, 0, 3⟩
def INDEX : Fld := ⟨.QUE_Q_STAT, 26, 11, .ro, 0, 3⟩
def CFGERR : Fld := ⟨.QUE_Q_STAT, 27, 27, .w1c, 0, 3⟩
end QUE_Q_STAT

namespace QUE_Q_CTL
def ABORT : Fld := ⟨.QUE_Q_CTL, 0, 0, .wo, 0, 3⟩
def RESUME : Fld := ⟨.QUE_Q_CTL, 1, 1, .wo, 0, 3⟩
end QUE_Q_CTL

namespace QUE_EVT
def VALUE : Fld := ⟨.QUE_EVT, 31, 0, .rw, 0, 3⟩
end QUE_EVT

namespace QUE_STAGE
def WORD : Fld := ⟨.QUE_STAGE, 63, 0, .rw, 0, 3⟩
end QUE_STAGE

namespace QUE_PUSH
def QUEUE : Fld := ⟨.QUE_PUSH, 5, 0, .wo, 0, 3⟩
end QUE_PUSH

namespace QUE_PUSH_RES
def CODE : Fld := ⟨.QUE_PUSH_RES, 2, 0, .ro, 0, 3⟩
def INDEX : Fld := ⟨.QUE_PUSH_RES, 18, 3, .ro, 0, 3⟩
end QUE_PUSH_RES

namespace MEM_CFG
def PAGE : Fld := ⟨.MEM_CFG, 0, 0, .rw, 1, 3⟩
def REF_MIN : Fld := ⟨.MEM_CFG, 2, 1, .rw, 0, 3⟩
end MEM_CFG

namespace MEM_STAT
def GEN : Fld := ⟨.MEM_STAT, 1, 0, .ro, 0, 3⟩
def TRAINED : Fld := ⟨.MEM_STAT, 2, 2, .ro, 0, 3⟩
def BAND : Fld := ⟨.MEM_STAT, 4, 3, .ro, 0, 3⟩
def TEMP : Fld := ⟨.MEM_STAT, 12, 5, .ro, 0, 3⟩
def SENSBAD : Fld := ⟨.MEM_STAT, 13, 13, .ro, 0, 3⟩
def FILLED : Fld := ⟨.MEM_STAT, 14, 14, .ro, 0, 3⟩
def RATE : Fld := ⟨.MEM_STAT, 39, 32, .ro, 0, 3⟩
end MEM_STAT

namespace MEM_ECC
def CE_COUNT : Fld := ⟨.MEM_ECC, 15, 0, .rc, 0, 3⟩
def THRESH : Fld := ⟨.MEM_ECC, 31, 16, .rw, 256, 3⟩
def THR_HIT : Fld := ⟨.MEM_ECC, 32, 32, .w1c, 0, 3⟩
def IRQ_EN : Fld := ⟨.MEM_ECC, 33, 33, .rw, 1, 3⟩
end MEM_ECC

namespace BAY_ECC
def CE_COUNT : Fld := ⟨.BAY_ECC, 15, 0, .rc, 0, 3⟩
def THRESH : Fld := ⟨.BAY_ECC, 31, 16, .rw, 256, 3⟩
def THR_HIT : Fld := ⟨.BAY_ECC, 32, 32, .w1c, 0, 3⟩
def IRQ_EN : Fld := ⟨.BAY_ECC, 33, 33, .rw, 1, 3⟩
end BAY_ECC

namespace LOFT_ECC
def CE_COUNT : Fld := ⟨.LOFT_ECC, 15, 0, .rc, 0, 3⟩
def THRESH : Fld := ⟨.LOFT_ECC, 31, 16, .rw, 256, 3⟩
def THR_HIT : Fld := ⟨.LOFT_ECC, 32, 32, .w1c, 0, 3⟩
def IRQ_EN : Fld := ⟨.LOFT_ECC, 33, 33, .rw, 1, 3⟩
end LOFT_ECC

namespace MEM_ECCLOG
def VALID : Fld := ⟨.MEM_ECCLOG, 0, 0, .w1c, 0, 3⟩
def SYNDROME : Fld := ⟨.MEM_ECCLOG, 8, 1, .ro, 0, 3⟩
def BANK : Fld := ⟨.MEM_ECCLOG, 15, 9, .ro, 0, 3⟩
def AGENT : Fld := ⟨.MEM_ECCLOG, 19, 16, .ro, 0, 3⟩
def ADDR : Fld := ⟨.MEM_ECCLOG, 60, 20, .ro, 0, 3⟩
end MEM_ECCLOG

namespace BAY_ECCLOG
def VALID : Fld := ⟨.BAY_ECCLOG, 0, 0, .w1c, 0, 3⟩
def SYNDROME : Fld := ⟨.BAY_ECCLOG, 8, 1, .ro, 0, 3⟩
def BANK : Fld := ⟨.BAY_ECCLOG, 15, 9, .ro, 0, 3⟩
def AGENT : Fld := ⟨.BAY_ECCLOG, 19, 16, .ro, 0, 3⟩
def ADDR : Fld := ⟨.BAY_ECCLOG, 60, 20, .ro, 0, 3⟩
end BAY_ECCLOG

namespace LOFT_ECCLOG
def VALID : Fld := ⟨.LOFT_ECCLOG, 0, 0, .w1c, 0, 3⟩
def SYNDROME : Fld := ⟨.LOFT_ECCLOG, 8, 1, .ro, 0, 3⟩
def BANK : Fld := ⟨.LOFT_ECCLOG, 15, 9, .ro, 0, 3⟩
def AGENT : Fld := ⟨.LOFT_ECCLOG, 19, 16, .ro, 0, 3⟩
def ADDR : Fld := ⟨.LOFT_ECCLOG, 60, 20, .ro, 0, 3⟩
end LOFT_ECCLOG

namespace MEM_CHCNT
def COUNT0 : Fld := ⟨.MEM_CHCNT, 7, 0, .rc, 0, 3⟩
def COUNT1 : Fld := ⟨.MEM_CHCNT, 15, 8, .rc, 0, 3⟩
def COUNT2 : Fld := ⟨.MEM_CHCNT, 23, 16, .rc, 0, 3⟩
def COUNT3 : Fld := ⟨.MEM_CHCNT, 31, 24, .rc, 0, 3⟩
def COUNT4 : Fld := ⟨.MEM_CHCNT, 39, 32, .rc, 0, 3⟩
def COUNT5 : Fld := ⟨.MEM_CHCNT, 47, 40, .rc, 0, 3⟩
def COUNT6 : Fld := ⟨.MEM_CHCNT, 55, 48, .rc, 0, 3⟩
def COUNT7 : Fld := ⟨.MEM_CHCNT, 63, 56, .rc, 0, 3⟩
end MEM_CHCNT

namespace LOFT_BANKCNT
def COUNT0 : Fld := ⟨.LOFT_BANKCNT, 7, 0, .rc, 0, 3⟩
def COUNT1 : Fld := ⟨.LOFT_BANKCNT, 15, 8, .rc, 0, 3⟩
def COUNT2 : Fld := ⟨.LOFT_BANKCNT, 23, 16, .rc, 0, 3⟩
def COUNT3 : Fld := ⟨.LOFT_BANKCNT, 31, 24, .rc, 0, 3⟩
def COUNT4 : Fld := ⟨.LOFT_BANKCNT, 39, 32, .rc, 0, 3⟩
def COUNT5 : Fld := ⟨.LOFT_BANKCNT, 47, 40, .rc, 0, 3⟩
def COUNT6 : Fld := ⟨.LOFT_BANKCNT, 55, 48, .rc, 0, 3⟩
def COUNT7 : Fld := ⟨.LOFT_BANKCNT, 63, 56, .rc, 0, 3⟩
end LOFT_BANKCNT

namespace MEM_RD
def BYTES : Fld := ⟨.MEM_RD, 63, 0, .ro, 0, 3⟩
end MEM_RD

namespace MEM_WR
def BYTES : Fld := ⟨.MEM_WR, 63, 0, .ro, 0, 3⟩
end MEM_WR

namespace BAY_CFG
def EN : Fld := ⟨.BAY_CFG, 0, 0, .rw, 1, 3⟩
def KEEPWAYS : Fld := ⟨.BAY_CFG, 5, 1, .rw, 12, 3⟩
end BAY_CFG

namespace BAY_CTL
def FLUSH : Fld := ⟨.BAY_CTL, 0, 0, .wo, 0, 3⟩
def WBINV : Fld := ⟨.BAY_CTL, 1, 1, .wo, 0, 3⟩
end BAY_CTL

namespace BAY_STAT
def BUSY : Fld := ⟨.BAY_STAT, 0, 0, .ro, 0, 3⟩
def DIRTY : Fld := ⟨.BAY_STAT, 17, 1, .ro, 0, 3⟩
def KEEP : Fld := ⟨.BAY_STAT, 34, 18, .ro, 0, 3⟩
end BAY_STAT

namespace BAY_CNT0
def HITS : Fld := ⟨.BAY_CNT0, 31, 0, .ro, 0, 3⟩
def MISSES : Fld := ⟨.BAY_CNT0, 63, 32, .ro, 0, 3⟩
end BAY_CNT0

namespace BAY_CNT1
def DROPS : Fld := ⟨.BAY_CNT1, 31, 0, .ro, 0, 3⟩
def WBACKS : Fld := ⟨.BAY_CNT1, 63, 32, .ro, 0, 3⟩
end BAY_CNT1

namespace SPAD_ECC
def CE_COUNT : Fld := ⟨.SPAD_ECC, 15, 0, .rc, 0, 127⟩
def THRESH : Fld := ⟨.SPAD_ECC, 31, 16, .rw, 256, 127⟩
def THR_HIT : Fld := ⟨.SPAD_ECC, 32, 32, .w1c, 0, 127⟩
def IRQ_EN : Fld := ⟨.SPAD_ECC, 33, 33, .rw, 1, 127⟩
end SPAD_ECC

namespace SPAD_ECCLOG
def VALID : Fld := ⟨.SPAD_ECCLOG, 0, 0, .w1c, 0, 127⟩
def SYNDROME : Fld := ⟨.SPAD_ECCLOG, 8, 1, .ro, 0, 127⟩
def BANK : Fld := ⟨.SPAD_ECCLOG, 13, 9, .ro, 0, 127⟩
def AGENT : Fld := ⟨.SPAD_ECCLOG, 17, 14, .ro, 0, 127⟩
def ADDR : Fld := ⟨.SPAD_ECCLOG, 37, 18, .ro, 0, 127⟩
end SPAD_ECCLOG

namespace SPAD_BANKCNT
def COUNT0 : Fld := ⟨.SPAD_BANKCNT, 7, 0, .rc, 0, 127⟩
def COUNT1 : Fld := ⟨.SPAD_BANKCNT, 15, 8, .rc, 0, 127⟩
def COUNT2 : Fld := ⟨.SPAD_BANKCNT, 23, 16, .rc, 0, 127⟩
def COUNT3 : Fld := ⟨.SPAD_BANKCNT, 31, 24, .rc, 0, 127⟩
def COUNT4 : Fld := ⟨.SPAD_BANKCNT, 39, 32, .rc, 0, 127⟩
def COUNT5 : Fld := ⟨.SPAD_BANKCNT, 47, 40, .rc, 0, 127⟩
def COUNT6 : Fld := ⟨.SPAD_BANKCNT, 55, 48, .rc, 0, 127⟩
def COUNT7 : Fld := ⟨.SPAD_BANKCNT, 63, 56, .rc, 0, 127⟩
end SPAD_BANKCNT

namespace WIN_CFG
def TIMEOUT : Fld := ⟨.WIN_CFG, 9, 0, .rw, 64, 3⟩
end WIN_CFG

namespace WIN_GUARD
def EN : Fld := ⟨.WIN_GUARD, 0, 0, .seal, 0, 3⟩
def RDCOMB : Fld := ⟨.WIN_GUARD, 1, 1, .seal, 0, 3⟩
def FOLD : Fld := ⟨.WIN_GUARD, 2, 2, .seal, 0, 3⟩
end WIN_GUARD

namespace WIN_TABLE
def BASE : Fld := ⟨.WIN_TABLE, 63, 0, .ro, 0, 0⟩
end WIN_TABLE

namespace WIN_TD
def FROZEN : Fld := ⟨.WIN_TD, 0, 0, .ro, 0, 3⟩
def THAW : Fld := ⟨.WIN_TD, 1, 1, .wo, 0, 3⟩
end WIN_TD

namespace WIN_CHG_STAT
def RESULT : Fld := ⟨.WIN_CHG_STAT, 7, 0, .ro, 0, 3⟩
def APPLIED : Fld := ⟨.WIN_CHG_STAT, 31, 8, .ro, 0, 3⟩
def REFUSED : Fld := ⟨.WIN_CHG_STAT, 47, 32, .ro, 0, 3⟩
def SEALWR : Fld := ⟨.WIN_CHG_STAT, 63, 48, .rc, 0, 3⟩
end WIN_CHG_STAT

namespace WIN_CHG_SEQ
def SEQ : Fld := ⟨.WIN_CHG_SEQ, 63, 0, .ro, 0, 3⟩
end WIN_CHG_SEQ

namespace WIN_FAULT
def VALID : Fld := ⟨.WIN_FAULT, 0, 0, .w1c, 0, 3⟩
def REASON : Fld := ⟨.WIN_FAULT, 3, 1, .ro, 0, 3⟩
def OP : Fld := ⟨.WIN_FAULT, 6, 4, .ro, 0, 3⟩
def SOURCE : Fld := ⟨.WIN_FAULT, 14, 7, .ro, 0, 3⟩
def PAGE : Fld := ⟨.WIN_FAULT, 38, 15, .ro, 0, 3⟩
end WIN_FAULT

namespace WIN_RX
def STALE : Fld := ⟨.WIN_RX, 31, 0, .ro, 0, 3⟩
def REFUSED : Fld := ⟨.WIN_RX, 63, 32, .ro, 0, 3⟩
end WIN_RX

namespace WIN_CACHE_CTL
def INV : Fld := ⟨.WIN_CACHE_CTL, 0, 0, .wo, 0, 3⟩
end WIN_CACHE_CTL

namespace WIN_CACHE_STAT
def HITS : Fld := ⟨.WIN_CACHE_STAT, 31, 0, .ro, 0, 3⟩
def MISSES : Fld := ⟨.WIN_CACHE_STAT, 63, 32, .ro, 0, 3⟩
end WIN_CACHE_STAT

namespace WIN_COMB
def COMBINED : Fld := ⟨.WIN_COMB, 31, 0, .ro, 0, 3⟩
def FOLDED : Fld := ⟨.WIN_COMB, 63, 32, .ro, 0, 3⟩
end WIN_COMB

namespace FAB_NODE
def NODE : Fld := ⟨.FAB_NODE, 8, 0, .ro, 0, 3⟩
def ONFAB : Fld := ⟨.FAB_NODE, 9, 9, .ro, 0, 3⟩
def STRAPERR : Fld := ⟨.FAB_NODE, 11, 10, .ro, 0, 3⟩
end FAB_NODE

namespace FAB_CFG
def MAXHOPS : Fld := ⟨.FAB_CFG, 3, 0, .rw, 4, 3⟩
def STUCK : Fld := ⟨.FAB_CFG, 19, 4, .rw, 200, 3⟩
def DOZE : Fld := ⟨.FAB_CFG, 35, 20, .rw, 0, 3⟩
end FAB_CFG

namespace FAB_CTL
def QUIESCE : Fld := ⟨.FAB_CTL, 0, 0, .rw, 0, 3⟩
end FAB_CTL

namespace FAB_STAT
def DRAINED : Fld := ⟨.FAB_STAT, 0, 0, .ro, 0, 3⟩
def CFGERR : Fld := ⟨.FAB_STAT, 1, 1, .w1c, 0, 3⟩
end FAB_STAT

namespace FAB_POOL
def RSV0 : Fld := ⟨.FAB_POOL, 8, 0, .rw, 32, 3⟩
def RSV1 : Fld := ⟨.FAB_POOL, 17, 9, .rw, 32, 3⟩
def RSV2 : Fld := ⟨.FAB_POOL, 26, 18, .rw, 32, 3⟩
def RSV3 : Fld := ⟨.FAB_POOL, 35, 27, .rw, 16, 3⟩
end FAB_POOL

namespace FAB_ECN
def THRESH : Fld := ⟨.FAB_ECN, 9, 0, .rw, 64, 3⟩
def WMIN : Fld := ⟨.FAB_ECN, 18, 10, .rw, 4, 3⟩
def HOLD : Fld := ⟨.FAB_ECN, 34, 19, .rw, 2000, 3⟩
end FAB_ECN

namespace FAB_DROP
def HOPS : Fld := ⟨.FAB_DROP, 15, 0, .rc, 0, 3⟩
def NOROUTE : Fld := ⟨.FAB_DROP, 31, 16, .rc, 0, 3⟩
def STUCK : Fld := ⟨.FAB_DROP, 47, 32, .rc, 0, 3⟩
def BADPKT : Fld := ⟨.FAB_DROP, 63, 48, .rc, 0, 3⟩
end FAB_DROP

namespace FAB_DROP2
def E2ECRC : Fld := ⟨.FAB_DROP2, 15, 0, .rc, 0, 3⟩
def REORDER : Fld := ⟨.FAB_DROP2, 31, 16, .rc, 0, 3⟩
end FAB_DROP2

namespace FAB_RT
def LINK : Fld := ⟨.FAB_RT, 4, 0, .seal, 0, 3⟩
end FAB_RT

namespace FAB_LINK
def STATE : Fld := ⟨.FAB_LINK, 2, 0, .ro, 0, 67⟩
def WIDTH : Fld := ⟨.FAB_LINK, 5, 3, .ro, 0, 67⟩
def PEER : Fld := ⟨.FAB_LINK, 14, 6, .ro, 0, 67⟩
def PEERLINK : Fld := ⟨.FAB_LINK, 18, 15, .ro, 0, 67⟩
end FAB_LINK

namespace FAB_LCNT0
def CORR : Fld := ⟨.FAB_LCNT0, 31, 0, .ro, 0, 3⟩
def UNCORR : Fld := ⟨.FAB_LCNT0, 63, 32, .ro, 0, 3⟩
end FAB_LCNT0

namespace FAB_LCNT1
def HOPCRC : Fld := ⟨.FAB_LCNT1, 31, 0, .ro, 0, 3⟩
def MARKED : Fld := ⟨.FAB_LCNT1, 63, 32, .ro, 0, 3⟩
end FAB_LCNT1

namespace ETH_CFG
def EN : Fld := ⟨.ETH_CFG, 0, 0, .rw, 0, 3⟩
def SPEED : Fld := ⟨.ETH_CFG, 1, 1, .rw, 0, 3⟩
def QPTMO : Fld := ⟨.ETH_CFG, 17, 2, .rw, 100, 3⟩
end ETH_CFG

namespace ETH_TBL
def QPT : Fld := ⟨.ETH_TBL, 31, 0, .rw, 0, 3⟩
def MRT : Fld := ⟨.ETH_TBL, 63, 32, .rw, 0, 3⟩
end ETH_TBL

namespace ETH_STAT
def LINK : Fld := ⟨.ETH_STAT, 0, 0, .ro, 0, 67⟩
def ACCERR : Fld := ⟨.ETH_STAT, 16, 1, .rc, 0, 3⟩
def RNR : Fld := ⟨.ETH_STAT, 32, 17, .rc, 0, 3⟩
def QPERR : Fld := ⟨.ETH_STAT, 48, 33, .rc, 0, 3⟩
end ETH_STAT

namespace COL_CFG
def IDLE : Fld := ⟨.COL_CFG, 15, 0, .rw, 0, 3⟩
end COL_CFG

namespace COL_STAT
def BUSY : Fld := ⟨.COL_STAT, 6, 0, .ro, 0, 3⟩
def CORR : Fld := ⟨.COL_STAT, 7, 7, .w1c, 0, 3⟩
def PEND : Fld := ⟨.COL_STAT, 16, 8, .ro, 0, 3⟩
end COL_STAT

namespace COL_ERR
def VALID : Fld := ⟨.COL_ERR, 0, 0, .w1c, 0, 3⟩
def STATUS : Fld := ⟨.COL_ERR, 8, 1, .ro, 0, 3⟩
def CTX : Fld := ⟨.COL_ERR, 14, 9, .ro, 0, 3⟩
def GROUP : Fld := ⟨.COL_ERR, 26, 15, .ro, 0, 3⟩
def SEQ : Fld := ⟨.COL_ERR, 42, 27, .ro, 0, 3⟩
def REASON : Fld := ⟨.COL_ERR, 46, 43, .ro, 0, 3⟩
def PEER : Fld := ⟨.COL_ERR, 55, 47, .ro, 0, 3⟩
end COL_ERR

namespace COL_CTL
def CTX : Fld := ⟨.COL_CTL, 5, 0, .wo, 0, 3⟩
def ABORT : Fld := ⟨.COL_CTL, 6, 6, .wo, 0, 3⟩
end COL_CTL

namespace COL_CNT
def SHEAVES : Fld := ⟨.COL_CNT, 31, 0, .ro, 0, 3⟩
def RESENDS : Fld := ⟨.COL_CNT, 47, 32, .rc, 0, 3⟩
def LANES : Fld := ⟨.COL_CNT, 63, 48, .rc, 0, 3⟩
end COL_CNT

namespace COL_SCR
def BASE : Fld := ⟨.COL_SCR, 39, 12, .rw, 0, 3⟩
def SLOT : Fld := ⟨.COL_SCR, 63, 40, .rw, 0, 3⟩
end COL_SCR

namespace COL_CTX
def STATE : Fld := ⟨.COL_CTX, 1, 0, .ro, 0, 3⟩
def OP : Fld := ⟨.COL_CTX, 3, 2, .ro, 0, 3⟩
def STAGE : Fld := ⟨.COL_CTX, 6, 4, .ro, 0, 3⟩
def GROUP : Fld := ⟨.COL_CTX, 18, 7, .ro, 0, 3⟩
def SEQ : Fld := ⟨.COL_CTX, 50, 19, .ro, 0, 3⟩
end COL_CTX

namespace COL_GSEQ
def SEQ : Fld := ⟨.COL_GSEQ, 31, 0, .ro, 0, 3⟩
end COL_GSEQ

namespace COL_GBOX
def BOX : Fld := ⟨.COL_GBOX, 63, 0, .ro, 0, 3⟩
end COL_GBOX

namespace COL_GRP
def WORD : Fld := ⟨.COL_GRP, 63, 0, .seal, 0, 3⟩
end COL_GRP

namespace PHO_CFG
def FF_EN : Fld := ⟨.PHO_CFG, 0, 0, .rw, 1, 3⟩
def CMP : Fld := ⟨.PHO_CFG, 7, 1, .rw, 64, 3⟩
def BRK_EN : Fld := ⟨.PHO_CFG, 8, 8, .rw, 1, 3⟩
end PHO_CFG

namespace PHO_STAT
def WARN : Fld := ⟨.PHO_STAT, 7, 0, .ro, 0, 3⟩
def MIRROR : Fld := ⟨.PHO_STAT, 15, 8, .ro, 0, 3⟩
def SWITCHED : Fld := ⟨.PHO_STAT, 23, 16, .ro, 0, 3⟩
def FAILED : Fld := ⟨.PHO_STAT, 31, 24, .ro, 0, 3⟩
def TUNED : Fld := ⟨.PHO_STAT, 32, 32, .ro, 0, 3⟩
end PHO_STAT

namespace PHO_EVT
def VALID : Fld := ⟨.PHO_EVT, 0, 0, .w1c, 0, 3⟩
def KIND : Fld := ⟨.PHO_EVT, 3, 1, .ro, 0, 3⟩
def SRC : Fld := ⟨.PHO_EVT, 6, 4, .ro, 0, 3⟩
def FIBRE : Fld := ⟨.PHO_EVT, 14, 7, .ro, 0, 3⟩
def COUNT : Fld := ⟨.PHO_EVT, 31, 15, .ro, 0, 3⟩
def TIME : Fld := ⟨.PHO_EVT, 63, 32, .ro, 0, 3⟩
end PHO_EVT

namespace PHO_FF
def FF0 : Fld := ⟨.PHO_FF, 15, 0, .rw, 0, 3⟩
def FF1 : Fld := ⟨.PHO_FF, 31, 16, .rw, 0, 3⟩
def FF2 : Fld := ⟨.PHO_FF, 47, 32, .rw, 0, 3⟩
def FF3 : Fld := ⟨.PHO_FF, 63, 48, .rw, 0, 3⟩
end PHO_FF

namespace PHO_SRC_STAT
def PRESENT : Fld := ⟨.PHO_SRC_STAT, 0, 0, .ro, 0, 3⟩
def STAGE : Fld := ⟨.PHO_SRC_STAT, 3, 1, .ro, 0, 3⟩
def FADE : Fld := ⟨.PHO_SRC_STAT, 15, 4, .ro, 0, 3⟩
def MONITOR : Fld := ⟨.PHO_SRC_STAT, 31, 16, .ro, 0, 3⟩
end PHO_SRC_STAT

namespace PHO_SRC_CAL
def CALMON : Fld := ⟨.PHO_SRC_CAL, 15, 0, .ro, 0, 3⟩
def SERIAL : Fld := ⟨.PHO_SRC_CAL, 47, 16, .ro, 0, 3⟩
end PHO_SRC_CAL

namespace PHO_FIB_STAT
def ROLE : Fld := ⟨.PHO_FIB_STAT, 2, 0, .ro, 0, 3⟩
def POS : Fld := ⟨.PHO_FIB_STAT, 5, 3, .ro, 0, 3⟩
def SOURCE : Fld := ⟨.PHO_FIB_STAT, 8, 6, .ro, 0, 3⟩
def TXSPW : Fld := ⟨.PHO_FIB_STAT, 9, 9, .ro, 0, 3⟩
def TXSPL : Fld := ⟨.PHO_FIB_STAT, 12, 10, .ro, 0, 3⟩
def RXSPW : Fld := ⟨.PHO_FIB_STAT, 13, 13, .ro, 0, 3⟩
def RXSPL : Fld := ⟨.PHO_FIB_STAT, 16, 14, .ro, 0, 3⟩
def LOCKLOST : Fld := ⟨.PHO_FIB_STAT, 17, 17, .w1c, 0, 3⟩
end PHO_FIB_STAT

namespace PHO_RING_ASSIGN
def TXSHIFT : Fld := ⟨.PHO_RING_ASSIGN, 3, 0, .ro, 0, 3⟩
def RXSHIFT : Fld := ⟨.PHO_RING_ASSIGN, 7, 4, .ro, 0, 3⟩
def FROMCAL : Fld := ⟨.PHO_RING_ASSIGN, 8, 8, .ro, 0, 3⟩
def TXPOWER : Fld := ⟨.PHO_RING_ASSIGN, 24, 9, .ro, 0, 3⟩
def RXPOWER : Fld := ⟨.PHO_RING_ASSIGN, 40, 25, .ro, 0, 3⟩
end PHO_RING_ASSIGN

namespace PHO_EYE
def RXPWR : Fld := ⟨.PHO_EYE, 15, 0, .ro, 0, 67⟩
def EYE : Fld := ⟨.PHO_EYE, 31, 16, .ro, 0, 67⟩
end PHO_EYE

namespace PHO_ERR
def CORR : Fld := ⟨.PHO_ERR, 31, 0, .ro, 0, 3⟩
def SWITCHES : Fld := ⟨.PHO_ERR, 63, 32, .ro, 0, 3⟩
end PHO_ERR

namespace PHO_BRK_STAT
def POOL : Fld := ⟨.PHO_BRK_STAT, 9, 0, .ro, 0, 3⟩
def FLOORED : Fld := ⟨.PHO_BRK_STAT, 10, 10, .ro, 0, 3⟩
def PLANS : Fld := ⟨.PHO_BRK_STAT, 63, 32, .ro, 0, 3⟩
end PHO_BRK_STAT

namespace PHO_BRK_ALLOC
def CH0 : Fld := ⟨.PHO_BRK_ALLOC, 9, 0, .ro, 0, 3⟩
def CH1 : Fld := ⟨.PHO_BRK_ALLOC, 25, 16, .ro, 0, 3⟩
def CH2 : Fld := ⟨.PHO_BRK_ALLOC, 41, 32, .ro, 0, 3⟩
def CH3 : Fld := ⟨.PHO_BRK_ALLOC, 57, 48, .ro, 0, 3⟩
end PHO_BRK_ALLOC

namespace DPORT_CAP
def VENDOR : Fld := ⟨.DPORT_CAP, 15, 0, .ro, 0, 3⟩
def GUEST : Fld := ⟨.DPORT_CAP, 16, 16, .ro, 0, 3⟩
def STACK : Fld := ⟨.DPORT_CAP, 18, 17, .ro, 0, 3⟩
def REV : Fld := ⟨.DPORT_CAP, 26, 19, .ro, 0, 3⟩
def JDP : Fld := ⟨.DPORT_CAP, 30, 27, .ro, 0, 3⟩
def SVC_E : Fld := ⟨.DPORT_CAP, 32, 32, .ro, 0, 3⟩
def SVC_COPY : Fld := ⟨.DPORT_CAP, 33, 33, .ro, 0, 3⟩
def SVC_EVT : Fld := ⟨.DPORT_CAP, 34, 34, .ro, 0, 3⟩
def THERM : Fld := ⟨.DPORT_CAP, 35, 35, .ro, 0, 3⟩
def EPWIN : Fld := ⟨.DPORT_CAP, 39, 36, .ro, 0, 3⟩
end DPORT_CAP

namespace DPORT_CTL
def DRST : Fld := ⟨.DPORT_CTL, 0, 0, .wo, 0, 3⟩
def HOLD : Fld := ⟨.DPORT_CTL, 1, 1, .rw, 0, 3⟩
def LOOP : Fld := ⟨.DPORT_CTL, 3, 2, .rw, 0, 3⟩
end DPORT_CTL

namespace DPORT_STAT
def STATE : Fld := ⟨.DPORT_STAT, 2, 0, .ro, 0, 7⟩
def BAND : Fld := ⟨.DPORT_STAT, 4, 3, .ro, 0, 3⟩
def NOLOCK : Fld := ⟨.DPORT_STAT, 5, 5, .w1c, 0, 3⟩
def CHANGED : Fld := ⟨.DPORT_STAT, 6, 6, .w1c, 0, 3⟩
def THERMF : Fld := ⟨.DPORT_STAT, 7, 7, .w1c, 0, 3⟩
def CFGERR : Fld := ⟨.DPORT_STAT, 8, 8, .w1c, 0, 3⟩
end DPORT_STAT

namespace DPORT_ERR
def REPLAY : Fld := ⟨.DPORT_ERR, 15, 0, .rc, 0, 3⟩
def REFUSED : Fld := ⟨.DPORT_ERR, 31, 16, .rc, 0, 3⟩
def LBERR : Fld := ⟨.DPORT_ERR, 63, 32, .rc, 0, 3⟩
end DPORT_ERR

namespace PWR_CFG
def HINT_EN : Fld := ⟨.PWR_CFG, 0, 0, .rw, 1, 3⟩
def REACT_EN : Fld := ⟨.PWR_CFG, 1, 1, .rw, 1, 3⟩
def DMARGIN : Fld := ⟨.PWR_CFG, 7, 2, .rw, 30, 3⟩
end PWR_CFG

namespace PWR_STAT
def INLOW : Fld := ⟨.PWR_STAT, 0, 0, .ro, 0, 3⟩
def INHIGH : Fld := ⟨.PWR_STAT, 1, 1, .ro, 0, 3⟩
def CONVFAIL : Fld := ⟨.PWR_STAT, 9, 2, .ro, 0, 3⟩
def TRIP : Fld := ⟨.PWR_STAT, 10, 10, .ro, 0, 1⟩
def TRIPSRC : Fld := ⟨.PWR_STAT, 13, 11, .ro, 0, 1⟩
def CFGERR : Fld := ⟨.PWR_STAT, 14, 14, .w1c, 0, 3⟩
end PWR_STAT

namespace PWR_IN
def VIN : Fld := ⟨.PWR_IN, 15, 0, .ro, 0, 3⟩
def IIN : Fld := ⟨.PWR_IN, 31, 16, .ro, 0, 3⟩
def PIN : Fld := ⟨.PWR_IN, 47, 32, .ro, 0, 3⟩
end PWR_IN

namespace PWR_DOM_CTL
def PT : Fld := ⟨.PWR_DOM_CTL, 2, 0, .rw, 7, 3⟩
def UOFS : Fld := ⟨.PWR_DOM_CTL, 15, 8, .rw, 0, 3⟩
end PWR_DOM_CTL

namespace PWR_DOM_STAT
def STATE : Fld := ⟨.PWR_DOM_STAT, 1, 0, .ro, 0, 3⟩
def PT : Fld := ⟨.PWR_DOM_STAT, 4, 2, .ro, 0, 3⟩
def SETPT : Fld := ⟨.PWR_DOM_STAT, 14, 5, .ro, 0, 3⟩
def LEVEL : Fld := ⟨.PWR_DOM_STAT, 16, 15, .ro, 0, 3⟩
def REACT : Fld := ⟨.PWR_DOM_STAT, 17, 17, .ro, 0, 3⟩
end PWR_DOM_STAT

namespace PWR_DROOP
def TRIPS : Fld := ⟨.PWR_DROOP, 31, 0, .rc, 0, 3⟩
end PWR_DROOP

namespace PWR_VT
def FREQ : Fld := ⟨.PWR_VT, 11, 0, .otp, 0, 0⟩
def VLO : Fld := ⟨.PWR_VT, 21, 12, .otp, 0, 0⟩
def VHI : Fld := ⟨.PWR_VT, 31, 22, .otp, 0, 0⟩
def VMAX : Fld := ⟨.PWR_VT, 41, 32, .otp, 0, 0⟩
end PWR_VT

namespace THM_CFG
def T0 : Fld := ⟨.THM_CFG, 10, 0, .rw, 760, 3⟩
end THM_CFG

namespace THM_MOD
def MAX : Fld := ⟨.THM_MOD, 10, 0, .ro, 0, 3⟩
def DIE : Fld := ⟨.THM_MOD, 14, 11, .ro, 0, 3⟩
def TIME : Fld := ⟨.THM_MOD, 47, 16, .ro, 0, 3⟩
end THM_MOD

namespace THM_DIE
def MAX : Fld := ⟨.THM_DIE, 10, 0, .ro, 0, 3⟩
def BAND : Fld := ⟨.THM_DIE, 12, 11, .ro, 0, 3⟩
def ISSUE : Fld := ⟨.THM_DIE, 19, 13, .ro, 0, 3⟩
def BROKEN : Fld := ⟨.THM_DIE, 25, 20, .ro, 0, 3⟩
def HOT : Fld := ⟨.THM_DIE, 31, 26, .ro, 0, 3⟩
end THM_DIE

namespace THM_SENS
def TEMP : Fld := ⟨.THM_SENS, 10, 0, .ro, 0, 3⟩
def BROKEN : Fld := ⟨.THM_SENS, 11, 11, .ro, 0, 3⟩
def WHY : Fld := ⟨.THM_SENS, 13, 12, .ro, 0, 3⟩
end THM_SENS

namespace GLB_EPOCH
def EPOCH : Fld := ⟨.GLB_EPOCH, 63, 0, .ro, 0, 3⟩
end GLB_EPOCH

namespace GLB_EPOCH_SET
def VALUE : Fld := ⟨.GLB_EPOCH_SET, 63, 0, .wo, 0, 3⟩
end GLB_EPOCH_SET

namespace FLT_CFG
def NOTIFY : Fld := ⟨.FLT_CFG, 0, 0, .rw, 1, 3⟩
end FLT_CFG

namespace FLT_CTL
def MRST : Fld := ⟨.FLT_CTL, 0, 0, .wo, 0, 3⟩
end FLT_CTL

namespace FLT_WDOG
def EN : Fld := ⟨.FLT_WDOG, 0, 0, .rw, 0, 3⟩
def PERIOD : Fld := ⟨.FLT_WDOG, 16, 1, .rw, 1000, 3⟩
def KICK : Fld := ⟨.FLT_WDOG, 17, 17, .wo, 0, 3⟩
end FLT_WDOG

namespace FLT_REC0
def VALID : Fld := ⟨.FLT_REC0, 0, 0, .w1c, 0, 1⟩
def CAUSE : Fld := ⟨.FLT_REC0, 4, 1, .ro, 0, 1⟩
def OVF : Fld := ⟨.FLT_REC0, 5, 5, .w1c, 0, 1⟩
def AGENT : Fld := ⟨.FLT_REC0, 9, 6, .ro, 0, 1⟩
def BLOCK : Fld := ⟨.FLT_REC0, 13, 10, .ro, 0, 1⟩
def SYNDROME : Fld := ⟨.FLT_REC0, 21, 14, .ro, 0, 1⟩
def UNIT : Fld := ⟨.FLT_REC0, 37, 22, .ro, 0, 1⟩
def BOOT : Fld := ⟨.FLT_REC0, 61, 38, .ro, 0, 1⟩
end FLT_REC0

namespace FLT_REC1
def ADDR : Fld := ⟨.FLT_REC1, 63, 0, .ro, 0, 1⟩
end FLT_REC1

namespace FLT_CE_SUM
def ROUTER : Fld := ⟨.FLT_CE_SUM, 15, 0, .rc, 0, 3⟩
def WINCACHE : Fld := ⟨.FLT_CE_SUM, 31, 16, .rc, 0, 3⟩
end FLT_CE_SUM

namespace ROLL_CFG
def HB : Fld := ⟨.ROLL_CFG, 7, 0, .seal, 0, 3⟩
def SUSPECT : Fld := ⟨.ROLL_CFG, 17, 8, .seal, 0, 3⟩
def FALLBACK : Fld := ⟨.ROLL_CFG, 27, 18, .seal, 0, 3⟩
def SELF : Fld := ⟨.ROLL_CFG, 39, 28, .seal, 0, 3⟩
end ROLL_CFG

namespace ROLL_CTL
def EXRST : Fld := ⟨.ROLL_CTL, 0, 0, .rw, 1, 3⟩
end ROLL_CTL

namespace ROLL_STAT
def FENCED : Fld := ⟨.ROLL_STAT, 0, 0, .ro, 0, 3⟩
def SELF : Fld := ⟨.ROLL_STAT, 1, 1, .ro, 0, 3⟩
def ALIVE : Fld := ⟨.ROLL_STAT, 11, 2, .ro, 0, 3⟩
def HEARD : Fld := ⟨.ROLL_STAT, 16, 12, .ro, 0, 3⟩
def SETERR : Fld := ⟨.ROLL_STAT, 17, 17, .w1c, 0, 3⟩
def XRX : Fld := ⟨.ROLL_STAT, 63, 32, .rc, 0, 3⟩
end ROLL_STAT

namespace ROLL_VERDICT
def VALID : Fld := ⟨.ROLL_VERDICT, 0, 0, .w1c, 0, 3⟩
def KIND : Fld := ⟨.ROLL_VERDICT, 2, 1, .ro, 0, 3⟩
def NODE : Fld := ⟨.ROLL_VERDICT, 11, 3, .ro, 0, 3⟩
def DOMID : Fld := ⟨.ROLL_VERDICT, 15, 12, .ro, 0, 3⟩
def ISSUER : Fld := ⟨.ROLL_VERDICT, 24, 16, .ro, 0, 3⟩
def COUNT : Fld := ⟨.ROLL_VERDICT, 31, 25, .ro, 0, 3⟩
def TIME : Fld := ⟨.ROLL_VERDICT, 63, 32, .ro, 0, 3⟩
end ROLL_VERDICT

namespace ROLL_JOB
def MEMBERS : Fld := ⟨.ROLL_JOB, 63, 0, .rw, 0, 3⟩
end ROLL_JOB

namespace ROLL_NODE
def STATE : Fld := ⟨.ROLL_NODE, 1, 0, .ro, 0, 3⟩
def NBR : Fld := ⟨.ROLL_NODE, 2, 2, .ro, 0, 3⟩
def TRAY : Fld := ⟨.ROLL_NODE, 6, 3, .ro, 0, 3⟩
def SHELF : Fld := ⟨.ROLL_NODE, 9, 7, .ro, 0, 3⟩
def LOOP : Fld := ⟨.ROLL_NODE, 12, 10, .ro, 0, 3⟩
def BOOT : Fld := ⟨.ROLL_NODE, 36, 13, .ro, 0, 3⟩
end ROLL_NODE

namespace WNW_CFG
def EN : Fld := ⟨.WNW_CFG, 0, 0, .rw, 1, 3⟩
def IDLEMIN : Fld := ⟨.WNW_CFG, 10, 1, .rw, 20, 3⟩
def STEPEV : Fld := ⟨.WNW_CFG, 26, 11, .rw, 0, 3⟩
def STEPEN : Fld := ⟨.WNW_CFG, 27, 27, .rw, 0, 3⟩
end WNW_CFG

namespace WNW_STAT
def PASSES : Fld := ⟨.WNW_STAT, 31, 0, .ro, 0, 3⟩
def TRANSIENT : Fld := ⟨.WNW_STAT, 47, 32, .rc, 0, 3⟩
def OVERDUE : Fld := ⟨.WNW_STAT, 63, 48, .rc, 0, 3⟩
end WNW_STAT

namespace WNW_FENCE
def CORES : Fld := ⟨.WNW_FENCE, 63, 0, .ro, 0, 3⟩
end WNW_FENCE

namespace WNW_LOG
def VALID : Fld := ⟨.WNW_LOG, 0, 0, .w1c, 0, 3⟩
def CORE : Fld := ⟨.WNW_LOG, 8, 1, .ro, 0, 3⟩
def KERNEL : Fld := ⟨.WNW_LOG, 14, 9, .ro, 0, 3⟩
def FENCED : Fld := ⟨.WNW_LOG, 15, 15, .ro, 0, 3⟩
def TIME : Fld := ⟨.WNW_LOG, 63, 32, .ro, 0, 3⟩
end WNW_LOG

namespace OBS_CFG
def EN : Fld := ⟨.OBS_CFG, 0, 0, .rw, 0, 3⟩
def PORT : Fld := ⟨.OBS_CFG, 1, 1, .rw, 0, 3⟩
def FLUSH : Fld := ⟨.OBS_CFG, 11, 2, .rw, 100, 3⟩
def RATE : Fld := ⟨.OBS_CFG, 19, 12, .rw, 10, 3⟩
end OBS_CFG

namespace OBS_DEST
def ADDR : Fld := ⟨.OBS_DEST, 63, 0, .rw, 0, 3⟩
end OBS_DEST

namespace OBS_DEST2
def UDP : Fld := ⟨.OBS_DEST2, 15, 0, .rw, 0, 3⟩
def IPV6 : Fld := ⟨.OBS_DEST2, 16, 16, .rw, 0, 3⟩
end OBS_DEST2

namespace OBS_STAT
def SENT : Fld := ⟨.OBS_STAT, 31, 0, .ro, 0, 3⟩
def LOST : Fld := ⟨.OBS_STAT, 63, 32, .ro, 0, 3⟩
end OBS_STAT

namespace OBS_CORE
def EN : Fld := ⟨.OBS_CORE, 0, 0, .rw, 0, 3⟩
def EXC : Fld := ⟨.OBS_CORE, 1, 1, .rw, 0, 3⟩
def KERN : Fld := ⟨.OBS_CORE, 2, 2, .rw, 0, 3⟩
def SAMPLE : Fld := ⟨.OBS_CORE, 12, 3, .rw, 0, 3⟩
def FIRST : Fld := ⟨.OBS_CORE, 18, 13, .rw, 0, 3⟩
end OBS_CORE

namespace OBS_BASE
def EN : Fld := ⟨.OBS_BASE, 0, 0, .rw, 0, 3⟩
def EVT : Fld := ⟨.OBS_BASE, 1, 1, .rw, 0, 3⟩
def SAMPLE : Fld := ⟨.OBS_BASE, 11, 2, .rw, 0, 3⟩
end OBS_BASE

namespace GLB_STRAP
def PINS : Fld := ⟨.GLB_STRAP, 15, 0, .ro, 0, 3⟩
def PAROK : Fld := ⟨.GLB_STRAP, 16, 16, .ro, 0, 3⟩
end GLB_STRAP

namespace BOOT_STAT
def STAGE : Fld := ⟨.BOOT_STAT, 3, 0, .ro, 0, 3⟩
def FAILSTEP : Fld := ⟨.BOOT_STAT, 7, 4, .ro, 0, 3⟩
def FAILCODE : Fld := ⟨.BOOT_STAT, 10, 8, .ro, 0, 3⟩
def SLOT : Fld := ⟨.BOOT_STAT, 11, 11, .ro, 0, 3⟩
def UCAL : Fld := ⟨.BOOT_STAT, 12, 12, .ro, 0, 3⟩
def SITEKEY : Fld := ⟨.BOOT_STAT, 13, 13, .ro, 0, 3⟩
def TREADY : Fld := ⟨.BOOT_STAT, 63, 32, .ro, 0, 3⟩
end BOOT_STAT

namespace BOOT_UCAL
def SAVE : Fld := ⟨.BOOT_UCAL, 0, 0, .wo, 0, 3⟩
def BUSY : Fld := ⟨.BOOT_UCAL, 1, 1, .ro, 0, 3⟩
end BOOT_UCAL

namespace BOOT_FLUPD
def ADDR : Fld := ⟨.BOOT_FLUPD, 39, 0, .rw, 0, 3⟩
def SLOT : Fld := ⟨.BOOT_FLUPD, 40, 40, .rw, 0, 3⟩
def GO : Fld := ⟨.BOOT_FLUPD, 41, 41, .wo, 0, 3⟩
def RESULT : Fld := ⟨.BOOT_FLUPD, 43, 42, .ro, 0, 3⟩
end BOOT_FLUPD

namespace SEC_OTP
def SVN : Fld := ⟨.SEC_OTP, 7, 0, .otp, 0, 0⟩
def CUSTKEY_EN : Fld := ⟨.SEC_OTP, 8, 8, .otp, 0, 0⟩
def SERIAL : Fld := ⟨.SEC_OTP, 63, 16, .otp, 0, 0⟩
end SEC_OTP

namespace SEC_IDHASH
def HASH : Fld := ⟨.SEC_IDHASH, 63, 0, .otp, 0, 0⟩
end SEC_IDHASH

namespace SEC_MEAS
def M : Fld := ⟨.SEC_MEAS, 63, 0, .ro, 0, 3⟩
end SEC_MEAS

namespace PWR_STBY
def ENTER : Fld := ⟨.PWR_STBY, 0, 0, .wo, 0, 3⟩
def IN : Fld := ⟨.PWR_STBY, 1, 1, .ro, 0, 3⟩
def REFUSED : Fld := ⟨.PWR_STBY, 4, 2, .ro, 0, 3⟩
end PWR_STBY

namespace PWR_DOM_LP
def GATE : Fld := ⟨.PWR_DOM_LP, 0, 0, .rw, 0, 3⟩
def FALLOW : Fld := ⟨.PWR_DOM_LP, 1, 1, .rw, 0, 3⟩
def CRST : Fld := ⟨.PWR_DOM_LP, 2, 2, .wo, 0, 3⟩
def REFUSED : Fld := ⟨.PWR_DOM_LP, 3, 3, .w1c, 0, 3⟩
end PWR_DOM_LP

/-- The fields of each register, from its table (rule named beside it). -/
def Reg.fields : Reg → List Fld
  | .GLB_ID => [GLB_ID.CDIES, GLB_ID.STACKS, GLB_ID.BDIES, GLB_ID.PART, GLB_ID.VENDOR] -- R23
  | .GLB_VERSION => [GLB_VERSION.CDIE_REV, GLB_VERSION.BDIE_REV, GLB_VERSION.PHOT_REV, GLB_VERSION.ISA_GEN, GLB_VERSION.FW_MINOR, GLB_VERSION.FW_MAJOR] -- R24
  | .GLB_DIEMAP => [GLB_DIEMAP.PRESENT, GLB_DIEMAP.GUEST, GLB_DIEMAP.RELEASED, GLB_DIEMAP.BDIE_UP] -- R34
  | .GLB_TIME => [GLB_TIME.NS] -- R39
  | .ARR_CTL => [ARR_CTL.SLOT_CLR, ARR_CTL.CKGATE] -- R89
  | .ARR_STAT => [ARR_STAT.SLOT_VALID, ARR_STAT.SLOT_LOADING, ARR_STAT.INFLIGHT, ARR_STAT.QDEPTH, ARR_STAT.OWNED, ARR_STAT.FMT_S0, ARR_STAT.FMT_S1, ARR_STAT.K_S0, ARR_STAT.K_S1, ARR_STAT.N_S0, ARR_STAT.N_S1] -- R90
  | .ARR_ERR => [ARR_ERR.VALID, ARR_ERR.CAUSE, ARR_ERR.GROUP, ARR_ERR.SLOT, ARR_ERR.SP, ARR_ERR.COUNT] -- R91
  | .STOOK_CTL => [STOOK_CTL.EN, STOOK_CTL.ARRAYS, STOOK_CTL.FLUSH, STOOK_CTL.ABORT] -- R107
  | .STOOK_BUF => [STOOK_BUF.BASE] -- R108
  | .STOOK_STAT => [STOOK_STAT.PENDING, STOOK_STAT.KEYS, STOOK_STAT.SEALED, STOOK_STAT.BUSY, STOOK_STAT.CFGERR, STOOK_STAT.BINDERR] -- R109
  | .STOOK_ERRLOG => [STOOK_ERRLOG.VALID, STOOK_ERRLOG.STATUS, STOOK_ERRLOG.KEYIDX, STOOK_ERRLOG.SP, STOOK_ERRLOG.EVENT, STOOK_ERRLOG.COUNT] -- R110
  | .STOOK_KEY_CFG => [STOOK_KEY_CFG.KEY, STOOK_KEY_CFG.VALID, STOOK_KEY_CFG.AFMT, STOOK_KEY_CFG.DEADLINE, STOOK_KEY_CFG.OFMT] -- R111
  | .STOOK_KEY_BLO => [STOOK_KEY_BLO.DESC_LO] -- R112
  | .STOOK_KEY_BHI => [STOOK_KEY_BHI.DESC_HI] -- R113
  | .STOOK_KEY_STAT => [STOOK_KEY_STAT.STATE, STOOK_KEY_STAT.ROWS, STOOK_KEY_STAT.REQS, STOOK_KEY_STAT.RES_ARRAY, STOOK_KEY_STAT.RES_SLOT, STOOK_KEY_STAT.RESIDENT] -- R114
  | .ACC_GSTAT => [ACC_GSTAT.STATE, ACC_GSTAT.PEND0, ACC_GSTAT.PEND1] -- R133
  | .ACC_SAT => [ACC_SAT.SAT, ACC_SAT.ROW, ACC_SAT.COL, ACC_SAT.INF, ACC_SAT.NAN, ACC_SAT.COUNT] -- R134
  | .ACC_ECC => [ACC_ECC.CE_COUNT, ACC_ECC.THRESH, ACC_ECC.THR_HIT, ACC_ECC.IRQ_EN] -- R135
  | .ACC_ECCLOG => [ACC_ECCLOG.VALID, ACC_ECCLOG.GROUP, ACC_ECCLOG.ROW, ACC_ECCLOG.COL, ACC_ECCLOG.SYNDROME, ACC_ECCLOG.AGENT] -- R136
  | .ACC_CORE_STAT => [ACC_CORE_STAT.SAT, ACC_CORE_STAT.CORR, ACC_CORE_STAT.OWNEDACC] -- R137
  | .CORE_CTL => [CORE_CTL.RUN, CORE_CTL.SUPER, CORE_CTL.EXC_EN] -- R176
  | .CORE_VEC => [CORE_VEC.ADDR] -- R177
  | .CORE_FPSTAT => [CORE_FPSTAT.NV, CORE_FPSTAT.OF, CORE_FPSTAT.UF, CORE_FPSTAT.NX] -- R178
  | .CORE_EXC => [CORE_EXC.CAUSE, CORE_EXC.PRECISE, CORE_EXC.NESTED, CORE_EXC.ARRAY, CORE_EXC.STATUS, CORE_EXC.HALTED, CORE_EXC.PEND, CORE_EXC.OVF] -- R179
  | .CORE_EPC => [CORE_EPC.PC] -- R180
  | .CORE_EINFO => [CORE_EINFO.INFO] -- R180
  | .CNT_CTL => [CNT_CTL.EN, CNT_CTL.FREEZE, CNT_CTL.CLEAR] -- R182
  | .CNT_SEL => [CNT_SEL.EVENT, CNT_SEL.SPMASK, CNT_SEL.EN, CNT_SEL.OVF] -- R183
  | .CNT_VAL => [CNT_VAL.VALUE] -- R184
  | .GLN_CFG => [GLN_CFG.STALL, GLN_CFG.RC_EN, GLN_CFG.RC_FLUSH] -- R225
  | .GLN_STAT => [GLN_STAT.QDEPTH, GLN_STAT.BUSY, GLN_STAT.SAT, GLN_STAT.CORR, GLN_STAT.DROPPED] -- R226
  | .GLN_ERR => [GLN_ERR.VALID, GLN_ERR.CAUSE, GLN_ERR.SP, GLN_ERR.CMD, GLN_ERR.STATUS, GLN_ERR.COUNT, GLN_ERR.POSN] -- R227
  | .GLN_CNT => [GLN_CNT.OOR, GLN_CNT.EMPTY, GLN_CNT.LONG] -- R228
  | .GLN_STREAM => [GLN_STREAM.BUFFERED, GLN_STREAM.FMT, GLN_STREAM.COLS, GLN_STREAM.UNCLAIMED] -- R229
  | .GLN_RC => [GLN_RC.PERR, GLN_RC.KEEP] -- R230
  | .QUE_CFG => [QUE_CFG.POLL] -- R272
  | .QUE_CNT => [QUE_CNT.VOIDPH, QUE_CNT.BADCMD] -- R273
  | .QUE_Q_CFG => [QUE_Q_CFG.EN, QUE_Q_CFG.MODE, QUE_Q_CFG.PRIO, QUE_Q_CFG.SPACE, QUE_Q_CFG.SIZE] -- R274
  | .QUE_Q_BASE => [QUE_Q_BASE.ADDR] -- R275
  | .QUE_Q_PTR => [QUE_Q_PTR.HEAD, QUE_Q_PTR.TAIL] -- R276
  | .QUE_Q_STAT => [QUE_Q_STAT.STATE, QUE_Q_STAT.STATUS, QUE_Q_STAT.INDEX, QUE_Q_STAT.CFGERR] -- R277
  | .QUE_Q_CTL => [QUE_Q_CTL.ABORT, QUE_Q_CTL.RESUME] -- R278
  | .QUE_EVT => [QUE_EVT.VALUE] -- R279
  | .QUE_STAGE => [QUE_STAGE.WORD] -- R280
  | .QUE_PUSH => [QUE_PUSH.QUEUE] -- R280
  | .QUE_PUSH_RES => [QUE_PUSH_RES.CODE, QUE_PUSH_RES.INDEX] -- R280
  | .MEM_CFG => [MEM_CFG.PAGE, MEM_CFG.REF_MIN] -- R308
  | .MEM_STAT => [MEM_STAT.GEN, MEM_STAT.TRAINED, MEM_STAT.BAND, MEM_STAT.TEMP, MEM_STAT.SENSBAD, MEM_STAT.FILLED, MEM_STAT.RATE] -- R309
  | .MEM_ECC => [MEM_ECC.CE_COUNT, MEM_ECC.THRESH, MEM_ECC.THR_HIT, MEM_ECC.IRQ_EN] -- R310
  | .BAY_ECC => [BAY_ECC.CE_COUNT, BAY_ECC.THRESH, BAY_ECC.THR_HIT, BAY_ECC.IRQ_EN] -- R310
  | .LOFT_ECC => [LOFT_ECC.CE_COUNT, LOFT_ECC.THRESH, LOFT_ECC.THR_HIT, LOFT_ECC.IRQ_EN] -- R310
  | .MEM_ECCLOG => [MEM_ECCLOG.VALID, MEM_ECCLOG.SYNDROME, MEM_ECCLOG.BANK, MEM_ECCLOG.AGENT, MEM_ECCLOG.ADDR] -- R311
  | .BAY_ECCLOG => [BAY_ECCLOG.VALID, BAY_ECCLOG.SYNDROME, BAY_ECCLOG.BANK, BAY_ECCLOG.AGENT, BAY_ECCLOG.ADDR] -- R311
  | .LOFT_ECCLOG => [LOFT_ECCLOG.VALID, LOFT_ECCLOG.SYNDROME, LOFT_ECCLOG.BANK, LOFT_ECCLOG.AGENT, LOFT_ECCLOG.ADDR] -- R311
  | .MEM_CHCNT => [MEM_CHCNT.COUNT0, MEM_CHCNT.COUNT1, MEM_CHCNT.COUNT2, MEM_CHCNT.COUNT3, MEM_CHCNT.COUNT4, MEM_CHCNT.COUNT5, MEM_CHCNT.COUNT6, MEM_CHCNT.COUNT7] -- R312
  | .LOFT_BANKCNT => [LOFT_BANKCNT.COUNT0, LOFT_BANKCNT.COUNT1, LOFT_BANKCNT.COUNT2, LOFT_BANKCNT.COUNT3, LOFT_BANKCNT.COUNT4, LOFT_BANKCNT.COUNT5, LOFT_BANKCNT.COUNT6, LOFT_BANKCNT.COUNT7] -- R312
  | .MEM_RD => [MEM_RD.BYTES] -- R313
  | .MEM_WR => [MEM_WR.BYTES] -- R313
  | .BAY_CFG => [BAY_CFG.EN, BAY_CFG.KEEPWAYS] -- R314
  | .BAY_CTL => [BAY_CTL.FLUSH, BAY_CTL.WBINV] -- R315
  | .BAY_STAT => [BAY_STAT.BUSY, BAY_STAT.DIRTY, BAY_STAT.KEEP] -- R316
  | .BAY_CNT0 => [BAY_CNT0.HITS, BAY_CNT0.MISSES] -- R317
  | .BAY_CNT1 => [BAY_CNT1.DROPS, BAY_CNT1.WBACKS] -- R317
  | .SPAD_ECC => [SPAD_ECC.CE_COUNT, SPAD_ECC.THRESH, SPAD_ECC.THR_HIT, SPAD_ECC.IRQ_EN] -- R318
  | .SPAD_ECCLOG => [SPAD_ECCLOG.VALID, SPAD_ECCLOG.SYNDROME, SPAD_ECCLOG.BANK, SPAD_ECCLOG.AGENT, SPAD_ECCLOG.ADDR] -- R319
  | .SPAD_BANKCNT => [SPAD_BANKCNT.COUNT0, SPAD_BANKCNT.COUNT1, SPAD_BANKCNT.COUNT2, SPAD_BANKCNT.COUNT3, SPAD_BANKCNT.COUNT4, SPAD_BANKCNT.COUNT5, SPAD_BANKCNT.COUNT6, SPAD_BANKCNT.COUNT7] -- R320
  | .WIN_CFG => [WIN_CFG.TIMEOUT] -- R375
  | .WIN_GUARD => [WIN_GUARD.EN, WIN_GUARD.RDCOMB, WIN_GUARD.FOLD] -- R376
  | .WIN_TABLE => [WIN_TABLE.BASE] -- R377
  | .WIN_TD => [WIN_TD.FROZEN, WIN_TD.THAW] -- R378
  | .WIN_CHG_STAT => [WIN_CHG_STAT.RESULT, WIN_CHG_STAT.APPLIED, WIN_CHG_STAT.REFUSED, WIN_CHG_STAT.SEALWR] -- R379
  | .WIN_CHG_SEQ => [WIN_CHG_SEQ.SEQ] -- R380
  | .WIN_FAULT => [WIN_FAULT.VALID, WIN_FAULT.REASON, WIN_FAULT.OP, WIN_FAULT.SOURCE, WIN_FAULT.PAGE] -- R381
  | .WIN_RX => [WIN_RX.STALE, WIN_RX.REFUSED] -- R382
  | .WIN_CACHE_CTL => [WIN_CACHE_CTL.INV] -- R383
  | .WIN_CACHE_STAT => [WIN_CACHE_STAT.HITS, WIN_CACHE_STAT.MISSES] -- R384
  | .WIN_COMB => [WIN_COMB.COMBINED, WIN_COMB.FOLDED] -- R385
  | .FAB_NODE => [FAB_NODE.NODE, FAB_NODE.ONFAB, FAB_NODE.STRAPERR] -- R415
  | .FAB_CFG => [FAB_CFG.MAXHOPS, FAB_CFG.STUCK, FAB_CFG.DOZE] -- R416
  | .FAB_CTL => [FAB_CTL.QUIESCE] -- R417
  | .FAB_STAT => [FAB_STAT.DRAINED, FAB_STAT.CFGERR] -- R417
  | .FAB_POOL => [FAB_POOL.RSV0, FAB_POOL.RSV1, FAB_POOL.RSV2, FAB_POOL.RSV3] -- R418
  | .FAB_ECN => [FAB_ECN.THRESH, FAB_ECN.WMIN, FAB_ECN.HOLD] -- R419
  | .FAB_DROP => [FAB_DROP.HOPS, FAB_DROP.NOROUTE, FAB_DROP.STUCK, FAB_DROP.BADPKT] -- R420
  | .FAB_DROP2 => [FAB_DROP2.E2ECRC, FAB_DROP2.REORDER] -- R420
  | .FAB_RT => [FAB_RT.LINK] -- R421
  | .FAB_LINK => [FAB_LINK.STATE, FAB_LINK.WIDTH, FAB_LINK.PEER, FAB_LINK.PEERLINK] -- R422
  | .FAB_LCNT0 => [FAB_LCNT0.CORR, FAB_LCNT0.UNCORR] -- R423
  | .FAB_LCNT1 => [FAB_LCNT1.HOPCRC, FAB_LCNT1.MARKED] -- R423
  | .ETH_CFG => [ETH_CFG.EN, ETH_CFG.SPEED, ETH_CFG.QPTMO] -- R424
  | .ETH_TBL => [ETH_TBL.QPT, ETH_TBL.MRT] -- R424
  | .ETH_STAT => [ETH_STAT.LINK, ETH_STAT.ACCERR, ETH_STAT.RNR, ETH_STAT.QPERR] -- R424
  | .COL_CFG => [COL_CFG.IDLE] -- R454
  | .COL_STAT => [COL_STAT.BUSY, COL_STAT.CORR, COL_STAT.PEND] -- R455
  | .COL_ERR => [COL_ERR.VALID, COL_ERR.STATUS, COL_ERR.CTX, COL_ERR.GROUP, COL_ERR.SEQ, COL_ERR.REASON, COL_ERR.PEER] -- R456
  | .COL_CTL => [COL_CTL.CTX, COL_CTL.ABORT] -- R457
  | .COL_CNT => [COL_CNT.SHEAVES, COL_CNT.RESENDS, COL_CNT.LANES] -- R458
  | .COL_SCR => [COL_SCR.BASE, COL_SCR.SLOT] -- R459
  | .COL_CTX => [COL_CTX.STATE, COL_CTX.OP, COL_CTX.STAGE, COL_CTX.GROUP, COL_CTX.SEQ] -- R460
  | .COL_GSEQ => [COL_GSEQ.SEQ] -- R461
  | .COL_GBOX => [COL_GBOX.BOX] -- R461
  | .COL_GRP => [COL_GRP.WORD] -- R461
  | .PHO_CFG => [PHO_CFG.FF_EN, PHO_CFG.CMP, PHO_CFG.BRK_EN] -- R484
  | .PHO_STAT => [PHO_STAT.WARN, PHO_STAT.MIRROR, PHO_STAT.SWITCHED, PHO_STAT.FAILED, PHO_STAT.TUNED] -- R485
  | .PHO_EVT => [PHO_EVT.VALID, PHO_EVT.KIND, PHO_EVT.SRC, PHO_EVT.FIBRE, PHO_EVT.COUNT, PHO_EVT.TIME] -- R486
  | .PHO_FF => [PHO_FF.FF0, PHO_FF.FF1, PHO_FF.FF2, PHO_FF.FF3] -- R487
  | .PHO_SRC_STAT => [PHO_SRC_STAT.PRESENT, PHO_SRC_STAT.STAGE, PHO_SRC_STAT.FADE, PHO_SRC_STAT.MONITOR] -- R488
  | .PHO_SRC_CAL => [PHO_SRC_CAL.CALMON, PHO_SRC_CAL.SERIAL] -- R488
  | .PHO_FIB_STAT => [PHO_FIB_STAT.ROLE, PHO_FIB_STAT.POS, PHO_FIB_STAT.SOURCE, PHO_FIB_STAT.TXSPW, PHO_FIB_STAT.TXSPL, PHO_FIB_STAT.RXSPW, PHO_FIB_STAT.RXSPL, PHO_FIB_STAT.LOCKLOST] -- R489
  | .PHO_RING_ASSIGN => [PHO_RING_ASSIGN.TXSHIFT, PHO_RING_ASSIGN.RXSHIFT, PHO_RING_ASSIGN.FROMCAL, PHO_RING_ASSIGN.TXPOWER, PHO_RING_ASSIGN.RXPOWER] -- R489
  | .PHO_EYE => [PHO_EYE.RXPWR, PHO_EYE.EYE] -- R490
  | .PHO_ERR => [PHO_ERR.CORR, PHO_ERR.SWITCHES] -- R490
  | .PHO_BRK_STAT => [PHO_BRK_STAT.POOL, PHO_BRK_STAT.FLOORED, PHO_BRK_STAT.PLANS] -- R491
  | .PHO_BRK_ALLOC => [PHO_BRK_ALLOC.CH0, PHO_BRK_ALLOC.CH1, PHO_BRK_ALLOC.CH2, PHO_BRK_ALLOC.CH3] -- R491
  | .DPORT_CAP => [DPORT_CAP.VENDOR, DPORT_CAP.GUEST, DPORT_CAP.STACK, DPORT_CAP.REV, DPORT_CAP.JDP, DPORT_CAP.SVC_E, DPORT_CAP.SVC_COPY, DPORT_CAP.SVC_EVT, DPORT_CAP.THERM, DPORT_CAP.EPWIN] -- R507
  | .DPORT_CTL => [DPORT_CTL.DRST, DPORT_CTL.HOLD, DPORT_CTL.LOOP] -- R508
  | .DPORT_STAT => [DPORT_STAT.STATE, DPORT_STAT.BAND, DPORT_STAT.NOLOCK, DPORT_STAT.CHANGED, DPORT_STAT.THERMF, DPORT_STAT.CFGERR] -- R509
  | .DPORT_ERR => [DPORT_ERR.REPLAY, DPORT_ERR.REFUSED, DPORT_ERR.LBERR] -- R510
  | .PWR_CFG => [PWR_CFG.HINT_EN, PWR_CFG.REACT_EN, PWR_CFG.DMARGIN] -- R528
  | .PWR_STAT => [PWR_STAT.INLOW, PWR_STAT.INHIGH, PWR_STAT.CONVFAIL, PWR_STAT.TRIP, PWR_STAT.TRIPSRC, PWR_STAT.CFGERR] -- R529
  | .PWR_IN => [PWR_IN.VIN, PWR_IN.IIN, PWR_IN.PIN] -- R530
  | .PWR_DOM_CTL => [PWR_DOM_CTL.PT, PWR_DOM_CTL.UOFS] -- R531
  | .PWR_DOM_STAT => [PWR_DOM_STAT.STATE, PWR_DOM_STAT.PT, PWR_DOM_STAT.SETPT, PWR_DOM_STAT.LEVEL, PWR_DOM_STAT.REACT] -- R532
  | .PWR_DROOP => [PWR_DROOP.TRIPS] -- R533
  | .PWR_VT => [PWR_VT.FREQ, PWR_VT.VLO, PWR_VT.VHI, PWR_VT.VMAX] -- R534
  | .THM_CFG => [THM_CFG.T0] -- R535
  | .THM_MOD => [THM_MOD.MAX, THM_MOD.DIE, THM_MOD.TIME] -- R535
  | .THM_DIE => [THM_DIE.MAX, THM_DIE.BAND, THM_DIE.ISSUE, THM_DIE.BROKEN, THM_DIE.HOT] -- R536
  | .THM_SENS => [THM_SENS.TEMP, THM_SENS.BROKEN, THM_SENS.WHY] -- R537
  | .GLB_EPOCH => [GLB_EPOCH.EPOCH] -- R568
  | .GLB_EPOCH_SET => [GLB_EPOCH_SET.VALUE] -- R568
  | .FLT_CFG => [FLT_CFG.NOTIFY] -- R569
  | .FLT_CTL => [FLT_CTL.MRST] -- R569
  | .FLT_WDOG => [FLT_WDOG.EN, FLT_WDOG.PERIOD, FLT_WDOG.KICK] -- R569
  | .FLT_REC0 => [FLT_REC0.VALID, FLT_REC0.CAUSE, FLT_REC0.OVF, FLT_REC0.AGENT, FLT_REC0.BLOCK, FLT_REC0.SYNDROME, FLT_REC0.UNIT, FLT_REC0.BOOT] -- R570
  | .FLT_REC1 => [FLT_REC1.ADDR] -- R570
  | .FLT_CE_SUM => [FLT_CE_SUM.ROUTER, FLT_CE_SUM.WINCACHE] -- R570
  | .ROLL_CFG => [ROLL_CFG.HB, ROLL_CFG.SUSPECT, ROLL_CFG.FALLBACK, ROLL_CFG.SELF] -- R571
  | .ROLL_CTL => [ROLL_CTL.EXRST] -- R571
  | .ROLL_STAT => [ROLL_STAT.FENCED, ROLL_STAT.SELF, ROLL_STAT.ALIVE, ROLL_STAT.HEARD, ROLL_STAT.SETERR, ROLL_STAT.XRX] -- R572
  | .ROLL_VERDICT => [ROLL_VERDICT.VALID, ROLL_VERDICT.KIND, ROLL_VERDICT.NODE, ROLL_VERDICT.DOMID, ROLL_VERDICT.ISSUER, ROLL_VERDICT.COUNT, ROLL_VERDICT.TIME] -- R573
  | .ROLL_JOB => [ROLL_JOB.MEMBERS] -- R573
  | .ROLL_NODE => [ROLL_NODE.STATE, ROLL_NODE.NBR, ROLL_NODE.TRAY, ROLL_NODE.SHELF, ROLL_NODE.LOOP, ROLL_NODE.BOOT] -- R574
  | .WNW_CFG => [WNW_CFG.EN, WNW_CFG.IDLEMIN, WNW_CFG.STEPEV, WNW_CFG.STEPEN] -- R575
  | .WNW_STAT => [WNW_STAT.PASSES, WNW_STAT.TRANSIENT, WNW_STAT.OVERDUE] -- R575
  | .WNW_FENCE => [WNW_FENCE.CORES] -- R576
  | .WNW_LOG => [WNW_LOG.VALID, WNW_LOG.CORE, WNW_LOG.KERNEL, WNW_LOG.FENCED, WNW_LOG.TIME] -- R576
  | .OBS_CFG => [OBS_CFG.EN, OBS_CFG.PORT, OBS_CFG.FLUSH, OBS_CFG.RATE] -- R577
  | .OBS_DEST => [OBS_DEST.ADDR] -- R577
  | .OBS_DEST2 => [OBS_DEST2.UDP, OBS_DEST2.IPV6] -- R577
  | .OBS_STAT => [OBS_STAT.SENT, OBS_STAT.LOST] -- R577
  | .OBS_CORE => [OBS_CORE.EN, OBS_CORE.EXC, OBS_CORE.KERN, OBS_CORE.SAMPLE, OBS_CORE.FIRST] -- R578
  | .OBS_BASE => [OBS_BASE.EN, OBS_BASE.EVT, OBS_BASE.SAMPLE] -- R578
  | .GLB_STRAP => [GLB_STRAP.PINS, GLB_STRAP.PAROK] -- R601
  | .BOOT_STAT => [BOOT_STAT.STAGE, BOOT_STAT.FAILSTEP, BOOT_STAT.FAILCODE, BOOT_STAT.SLOT, BOOT_STAT.UCAL, BOOT_STAT.SITEKEY, BOOT_STAT.TREADY] -- R602
  | .BOOT_UCAL => [BOOT_UCAL.SAVE, BOOT_UCAL.BUSY] -- R603
  | .BOOT_FLUPD => [BOOT_FLUPD.ADDR, BOOT_FLUPD.SLOT, BOOT_FLUPD.GO, BOOT_FLUPD.RESULT] -- R603
  | .SEC_OTP => [SEC_OTP.SVN, SEC_OTP.CUSTKEY_EN, SEC_OTP.SERIAL] -- R604
  | .SEC_IDHASH => [SEC_IDHASH.HASH] -- R604
  | .SEC_MEAS => [SEC_MEAS.M] -- R604
  | .PWR_STBY => [PWR_STBY.ENTER, PWR_STBY.IN, PWR_STBY.REFUSED] -- R605
  | .PWR_DOM_LP => [PWR_DOM_LP.GATE, PWR_DOM_LP.FALLOW, PWR_DOM_LP.CRST, PWR_DOM_LP.REFUSED] -- R605

/-- How a register's unit index selects its address block (R21, R33 and the chapters' base rules). -/
inductive UnitKind where
  | glob | core | bdie | mem | bay | link | eth | dport | stage | winb | colb | src | dom | domvt | die | sens | obsc | obsb
  deriving DecidableEq, Repr

/-- Where a register lies: its unit kind, its offset from the unit's base, and up to two strides with counts. -/
structure Place where
  unit : UnitKind
  off : Nat
  si : Nat
  ci : Nat
  sj : Nat
  cj : Nat
  deriving DecidableEq, Repr

/-- The place of each register. -/
def Reg.place : Reg → Place
  | .GLB_ID => ⟨.glob, 0x0, 0x0, 1, 0x0, 1⟩
  | .GLB_VERSION => ⟨.glob, 0x8, 0x0, 1, 0x0, 1⟩
  | .GLB_DIEMAP => ⟨.glob, 0x10, 0x0, 1, 0x0, 1⟩
  | .GLB_TIME => ⟨.glob, 0x18, 0x0, 1, 0x0, 1⟩
  | .ARR_CTL => ⟨.core, 0x10000, 0x100, 4, 0x0, 1⟩
  | .ARR_STAT => ⟨.core, 0x10008, 0x100, 4, 0x0, 1⟩
  | .ARR_ERR => ⟨.core, 0x10010, 0x100, 4, 0x0, 1⟩
  | .STOOK_CTL => ⟨.core, 0x18000, 0x0, 1, 0x0, 1⟩
  | .STOOK_BUF => ⟨.core, 0x18008, 0x0, 1, 0x0, 1⟩
  | .STOOK_STAT => ⟨.core, 0x18010, 0x0, 1, 0x0, 1⟩
  | .STOOK_ERRLOG => ⟨.core, 0x18018, 0x0, 1, 0x0, 1⟩
  | .STOOK_KEY_CFG => ⟨.core, 0x18100, 0x20, 64, 0x0, 1⟩
  | .STOOK_KEY_BLO => ⟨.core, 0x18108, 0x20, 64, 0x0, 1⟩
  | .STOOK_KEY_BHI => ⟨.core, 0x18110, 0x20, 64, 0x0, 1⟩
  | .STOOK_KEY_STAT => ⟨.core, 0x18118, 0x20, 64, 0x0, 1⟩
  | .ACC_GSTAT => ⟨.core, 0x10040, 0x100, 4, 0x0, 1⟩
  | .ACC_SAT => ⟨.core, 0x10048, 0x100, 4, 0x8, 4⟩
  | .ACC_ECC => ⟨.core, 0x10068, 0x100, 4, 0x0, 1⟩
  | .ACC_ECCLOG => ⟨.core, 0x10070, 0x100, 4, 0x0, 1⟩
  | .ACC_CORE_STAT => ⟨.core, 0x10400, 0x0, 1, 0x0, 1⟩
  | .CORE_CTL => ⟨.core, 0x0, 0x0, 1, 0x0, 1⟩
  | .CORE_VEC => ⟨.core, 0x8, 0x0, 1, 0x0, 1⟩
  | .CORE_FPSTAT => ⟨.core, 0x10, 0x0, 1, 0x0, 1⟩
  | .CORE_EXC => ⟨.core, 0x40, 0x20, 2, 0x0, 1⟩
  | .CORE_EPC => ⟨.core, 0x48, 0x20, 2, 0x0, 1⟩
  | .CORE_EINFO => ⟨.core, 0x50, 0x20, 2, 0x0, 1⟩
  | .CNT_CTL => ⟨.core, 0x20000, 0x0, 1, 0x0, 1⟩
  | .CNT_SEL => ⟨.core, 0x20100, 0x8, 64, 0x0, 1⟩
  | .CNT_VAL => ⟨.core, 0x20400, 0x8, 64, 0x0, 1⟩
  | .GLN_CFG => ⟨.core, 0x1C000, 0x0, 1, 0x0, 1⟩
  | .GLN_STAT => ⟨.core, 0x1C008, 0x0, 1, 0x0, 1⟩
  | .GLN_ERR => ⟨.core, 0x1C010, 0x0, 1, 0x0, 1⟩
  | .GLN_CNT => ⟨.core, 0x1C018, 0x0, 1, 0x0, 1⟩
  | .GLN_STREAM => ⟨.core, 0x1C020, 0x8, 4, 0x0, 1⟩
  | .GLN_RC => ⟨.core, 0x1C040, 0x0, 1, 0x0, 1⟩
  | .QUE_CFG => ⟨.glob, 0x700000000, 0x0, 1, 0x0, 1⟩
  | .QUE_CNT => ⟨.glob, 0x700000008, 0x0, 1, 0x0, 1⟩
  | .QUE_Q_CFG => ⟨.glob, 0x700001000, 0x40, 64, 0x0, 1⟩
  | .QUE_Q_BASE => ⟨.glob, 0x700001008, 0x40, 64, 0x0, 1⟩
  | .QUE_Q_PTR => ⟨.glob, 0x700001010, 0x40, 64, 0x0, 1⟩
  | .QUE_Q_STAT => ⟨.glob, 0x700001018, 0x40, 64, 0x0, 1⟩
  | .QUE_Q_CTL => ⟨.glob, 0x700001020, 0x40, 64, 0x0, 1⟩
  | .QUE_EVT => ⟨.glob, 0x700100000, 0x8, 65536, 0x0, 1⟩
  | .QUE_STAGE => ⟨.stage, 0x0, 0x8, 8, 0x0, 1⟩
  | .QUE_PUSH => ⟨.stage, 0x40, 0x0, 1, 0x0, 1⟩
  | .QUE_PUSH_RES => ⟨.stage, 0x48, 0x0, 1, 0x0, 1⟩
  | .MEM_CFG => ⟨.mem, 0x0, 0x0, 1, 0x0, 1⟩
  | .MEM_STAT => ⟨.mem, 0x8, 0x0, 1, 0x0, 1⟩
  | .MEM_ECC => ⟨.mem, 0x10, 0x0, 1, 0x0, 1⟩
  | .BAY_ECC => ⟨.bay, 0x18, 0x0, 1, 0x0, 1⟩
  | .LOFT_ECC => ⟨.bdie, 0x200000, 0x0, 1, 0x0, 1⟩
  | .MEM_ECCLOG => ⟨.mem, 0x18, 0x0, 1, 0x0, 1⟩
  | .BAY_ECCLOG => ⟨.bay, 0x20, 0x0, 1, 0x0, 1⟩
  | .LOFT_ECCLOG => ⟨.bdie, 0x200008, 0x0, 1, 0x0, 1⟩
  | .MEM_CHCNT => ⟨.mem, 0x40, 0x8, 4, 0x0, 1⟩
  | .LOFT_BANKCNT => ⟨.bdie, 0x200040, 0x8, 8, 0x0, 1⟩
  | .MEM_RD => ⟨.mem, 0x20, 0x0, 1, 0x0, 1⟩
  | .MEM_WR => ⟨.mem, 0x28, 0x0, 1, 0x0, 1⟩
  | .BAY_CFG => ⟨.bay, 0x0, 0x0, 1, 0x0, 1⟩
  | .BAY_CTL => ⟨.bay, 0x8, 0x0, 1, 0x0, 1⟩
  | .BAY_STAT => ⟨.bay, 0x10, 0x0, 1, 0x0, 1⟩
  | .BAY_CNT0 => ⟨.bay, 0x28, 0x0, 1, 0x0, 1⟩
  | .BAY_CNT1 => ⟨.bay, 0x30, 0x0, 1, 0x0, 1⟩
  | .SPAD_ECC => ⟨.core, 0x30000, 0x0, 1, 0x0, 1⟩
  | .SPAD_ECCLOG => ⟨.core, 0x30008, 0x0, 1, 0x0, 1⟩
  | .SPAD_BANKCNT => ⟨.core, 0x30040, 0x8, 4, 0x0, 1⟩
  | .WIN_CFG => ⟨.glob, 0x300000000, 0x0, 1, 0x0, 1⟩
  | .WIN_GUARD => ⟨.glob, 0x300000008, 0x0, 1, 0x0, 1⟩
  | .WIN_TABLE => ⟨.glob, 0x300000010, 0x0, 1, 0x0, 1⟩
  | .WIN_TD => ⟨.glob, 0x300000018, 0x0, 1, 0x0, 1⟩
  | .WIN_CHG_STAT => ⟨.glob, 0x300000020, 0x0, 1, 0x0, 1⟩
  | .WIN_CHG_SEQ => ⟨.glob, 0x300000040, 0x8, 5, 0x0, 1⟩
  | .WIN_FAULT => ⟨.glob, 0x300000080, 0x0, 1, 0x0, 1⟩
  | .WIN_RX => ⟨.glob, 0x300000088, 0x0, 1, 0x0, 1⟩
  | .WIN_CACHE_CTL => ⟨.winb, 0x0, 0x0, 1, 0x0, 1⟩
  | .WIN_CACHE_STAT => ⟨.winb, 0x8, 0x0, 1, 0x0, 1⟩
  | .WIN_COMB => ⟨.winb, 0x10, 0x0, 1, 0x0, 1⟩
  | .FAB_NODE => ⟨.glob, 0x300010000, 0x0, 1, 0x0, 1⟩
  | .FAB_CFG => ⟨.glob, 0x300010008, 0x0, 1, 0x0, 1⟩
  | .FAB_CTL => ⟨.glob, 0x300010010, 0x0, 1, 0x0, 1⟩
  | .FAB_STAT => ⟨.glob, 0x300010018, 0x0, 1, 0x0, 1⟩
  | .FAB_POOL => ⟨.glob, 0x300010020, 0x0, 1, 0x0, 1⟩
  | .FAB_ECN => ⟨.glob, 0x300010028, 0x0, 1, 0x0, 1⟩
  | .FAB_DROP => ⟨.glob, 0x300010030, 0x0, 1, 0x0, 1⟩
  | .FAB_DROP2 => ⟨.glob, 0x300010038, 0x0, 1, 0x0, 1⟩
  | .FAB_RT => ⟨.glob, 0x300011000, 0x8, 512, 0x0, 1⟩
  | .FAB_LINK => ⟨.link, 0x0, 0x0, 1, 0x0, 1⟩
  | .FAB_LCNT0 => ⟨.link, 0x8, 0x0, 1, 0x0, 1⟩
  | .FAB_LCNT1 => ⟨.link, 0x10, 0x0, 1, 0x0, 1⟩
  | .ETH_CFG => ⟨.eth, 0x0, 0x0, 1, 0x0, 1⟩
  | .ETH_TBL => ⟨.eth, 0x8, 0x0, 1, 0x0, 1⟩
  | .ETH_STAT => ⟨.eth, 0x10, 0x0, 1, 0x0, 1⟩
  | .COL_CFG => ⟨.glob, 0x300200000, 0x0, 1, 0x0, 1⟩
  | .COL_STAT => ⟨.glob, 0x300200008, 0x0, 1, 0x0, 1⟩
  | .COL_ERR => ⟨.glob, 0x300200010, 0x0, 1, 0x0, 1⟩
  | .COL_CTL => ⟨.glob, 0x300200018, 0x0, 1, 0x0, 1⟩
  | .COL_CNT => ⟨.glob, 0x300200020, 0x0, 1, 0x0, 1⟩
  | .COL_SCR => ⟨.colb, 0x0, 0x0, 1, 0x0, 1⟩
  | .COL_CTX => ⟨.glob, 0x300201000, 0x8, 64, 0x0, 1⟩
  | .COL_GSEQ => ⟨.glob, 0x300220000, 0x8, 4096, 0x0, 1⟩
  | .COL_GBOX => ⟨.glob, 0x300230000, 0x8, 64, 0x0, 1⟩
  | .COL_GRP => ⟨.glob, 0x300300000, 0x8, 65536, 0x0, 1⟩
  | .PHO_CFG => ⟨.glob, 0x400000000, 0x0, 1, 0x0, 1⟩
  | .PHO_STAT => ⟨.glob, 0x400000008, 0x0, 1, 0x0, 1⟩
  | .PHO_EVT => ⟨.glob, 0x400000010, 0x0, 1, 0x0, 1⟩
  | .PHO_FF => ⟨.glob, 0x400000018, 0x0, 1, 0x0, 1⟩
  | .PHO_SRC_STAT => ⟨.src, 0x0, 0x0, 1, 0x0, 1⟩
  | .PHO_SRC_CAL => ⟨.src, 0x8, 0x0, 1, 0x0, 1⟩
  | .PHO_FIB_STAT => ⟨.glob, 0x400010000, 0x20, 144, 0x0, 1⟩
  | .PHO_RING_ASSIGN => ⟨.glob, 0x400010008, 0x20, 144, 0x0, 1⟩
  | .PHO_EYE => ⟨.glob, 0x400010010, 0x20, 144, 0x0, 1⟩
  | .PHO_ERR => ⟨.glob, 0x400010018, 0x20, 144, 0x0, 1⟩
  | .PHO_BRK_STAT => ⟨.glob, 0x400030000, 0x0, 1, 0x0, 1⟩
  | .PHO_BRK_ALLOC => ⟨.glob, 0x400030008, 0x8, 4, 0x0, 1⟩
  | .DPORT_CAP => ⟨.dport, 0x0, 0x0, 1, 0x0, 1⟩
  | .DPORT_CTL => ⟨.dport, 0x8, 0x0, 1, 0x0, 1⟩
  | .DPORT_STAT => ⟨.dport, 0x10, 0x0, 1, 0x0, 1⟩
  | .DPORT_ERR => ⟨.dport, 0x18, 0x0, 1, 0x0, 1⟩
  | .PWR_CFG => ⟨.glob, 0x500000000, 0x0, 1, 0x0, 1⟩
  | .PWR_STAT => ⟨.glob, 0x500000008, 0x0, 1, 0x0, 1⟩
  | .PWR_IN => ⟨.glob, 0x500000010, 0x0, 1, 0x0, 1⟩
  | .PWR_DOM_CTL => ⟨.dom, 0x0, 0x0, 1, 0x0, 1⟩
  | .PWR_DOM_STAT => ⟨.dom, 0x8, 0x0, 1, 0x0, 1⟩
  | .PWR_DROOP => ⟨.dom, 0x10, 0x0, 1, 0x0, 1⟩
  | .PWR_VT => ⟨.domvt, 0x0, 0x8, 8, 0x0, 1⟩
  | .THM_CFG => ⟨.glob, 0x500100000, 0x0, 1, 0x0, 1⟩
  | .THM_MOD => ⟨.glob, 0x500100008, 0x0, 1, 0x0, 1⟩
  | .THM_DIE => ⟨.die, 0x0, 0x0, 1, 0x0, 1⟩
  | .THM_SENS => ⟨.sens, 0x0, 0x0, 1, 0x0, 1⟩
  | .GLB_EPOCH => ⟨.glob, 0x28, 0x0, 1, 0x0, 1⟩
  | .GLB_EPOCH_SET => ⟨.glob, 0x30, 0x0, 1, 0x0, 1⟩
  | .FLT_CFG => ⟨.glob, 0x1000, 0x0, 1, 0x0, 1⟩
  | .FLT_CTL => ⟨.glob, 0x1008, 0x0, 1, 0x0, 1⟩
  | .FLT_WDOG => ⟨.glob, 0x1010, 0x0, 1, 0x0, 1⟩
  | .FLT_REC0 => ⟨.glob, 0x1018, 0x0, 1, 0x0, 1⟩
  | .FLT_REC1 => ⟨.glob, 0x1020, 0x0, 1, 0x0, 1⟩
  | .FLT_CE_SUM => ⟨.glob, 0x1028, 0x0, 1, 0x0, 1⟩
  | .ROLL_CFG => ⟨.glob, 0x300400000, 0x0, 1, 0x0, 1⟩
  | .ROLL_CTL => ⟨.glob, 0x300400008, 0x0, 1, 0x0, 1⟩
  | .ROLL_STAT => ⟨.glob, 0x300400010, 0x0, 1, 0x0, 1⟩
  | .ROLL_VERDICT => ⟨.glob, 0x300400018, 0x0, 1, 0x0, 1⟩
  | .ROLL_JOB => ⟨.glob, 0x300400040, 0x8, 8, 0x0, 1⟩
  | .ROLL_NODE => ⟨.glob, 0x300401000, 0x8, 512, 0x0, 1⟩
  | .WNW_CFG => ⟨.glob, 0x2000, 0x0, 1, 0x0, 1⟩
  | .WNW_STAT => ⟨.glob, 0x2008, 0x0, 1, 0x0, 1⟩
  | .WNW_FENCE => ⟨.glob, 0x2010, 0x8, 3, 0x0, 1⟩
  | .WNW_LOG => ⟨.glob, 0x2028, 0x0, 1, 0x0, 1⟩
  | .OBS_CFG => ⟨.glob, 0x800000000, 0x0, 1, 0x0, 1⟩
  | .OBS_DEST => ⟨.glob, 0x800000008, 0x8, 2, 0x0, 1⟩
  | .OBS_DEST2 => ⟨.glob, 0x800000018, 0x0, 1, 0x0, 1⟩
  | .OBS_STAT => ⟨.glob, 0x800000020, 0x0, 1, 0x0, 1⟩
  | .OBS_CORE => ⟨.obsc, 0x0, 0x0, 1, 0x0, 1⟩
  | .OBS_BASE => ⟨.obsb, 0x0, 0x0, 1, 0x0, 1⟩
  | .GLB_STRAP => ⟨.glob, 0x20, 0x0, 1, 0x0, 1⟩
  | .BOOT_STAT => ⟨.glob, 0x600000000, 0x0, 1, 0x0, 1⟩
  | .BOOT_UCAL => ⟨.glob, 0x600000008, 0x0, 1, 0x0, 1⟩
  | .BOOT_FLUPD => ⟨.glob, 0x600000010, 0x0, 1, 0x0, 1⟩
  | .SEC_OTP => ⟨.glob, 0x600001000, 0x0, 1, 0x0, 1⟩
  | .SEC_IDHASH => ⟨.glob, 0x600001008, 0x8, 2, 0x0, 1⟩
  | .SEC_MEAS => ⟨.glob, 0x600001040, 0x8, 8, 0x0, 1⟩
  | .PWR_STBY => ⟨.glob, 0x500000018, 0x0, 1, 0x0, 1⟩
  | .PWR_DOM_LP => ⟨.dom, 0x18, 0x0, 1, 0x0, 1⟩

/-- Registers, part 0. -/
def Reg.part0 : List Reg := [.GLB_ID, .GLB_VERSION, .GLB_DIEMAP, .GLB_TIME, .ARR_CTL, .ARR_STAT, .ARR_ERR, .STOOK_CTL, .STOOK_BUF, .STOOK_STAT, .STOOK_ERRLOG, .STOOK_KEY_CFG]
/-- Registers, part 1. -/
def Reg.part1 : List Reg := [.STOOK_KEY_BLO, .STOOK_KEY_BHI, .STOOK_KEY_STAT, .ACC_GSTAT, .ACC_SAT, .ACC_ECC, .ACC_ECCLOG, .ACC_CORE_STAT, .CORE_CTL, .CORE_VEC, .CORE_FPSTAT, .CORE_EXC]
/-- Registers, part 2. -/
def Reg.part2 : List Reg := [.CORE_EPC, .CORE_EINFO, .CNT_CTL, .CNT_SEL, .CNT_VAL, .GLN_CFG, .GLN_STAT, .GLN_ERR, .GLN_CNT, .GLN_STREAM, .GLN_RC, .QUE_CFG]
/-- Registers, part 3. -/
def Reg.part3 : List Reg := [.QUE_CNT, .QUE_Q_CFG, .QUE_Q_BASE, .QUE_Q_PTR, .QUE_Q_STAT, .QUE_Q_CTL, .QUE_EVT, .QUE_STAGE, .QUE_PUSH, .QUE_PUSH_RES, .MEM_CFG, .MEM_STAT]
/-- Registers, part 4. -/
def Reg.part4 : List Reg := [.MEM_ECC, .BAY_ECC, .LOFT_ECC, .MEM_ECCLOG, .BAY_ECCLOG, .LOFT_ECCLOG, .MEM_CHCNT, .LOFT_BANKCNT, .MEM_RD, .MEM_WR, .BAY_CFG, .BAY_CTL]
/-- Registers, part 5. -/
def Reg.part5 : List Reg := [.BAY_STAT, .BAY_CNT0, .BAY_CNT1, .SPAD_ECC, .SPAD_ECCLOG, .SPAD_BANKCNT, .WIN_CFG, .WIN_GUARD, .WIN_TABLE, .WIN_TD, .WIN_CHG_STAT, .WIN_CHG_SEQ]
/-- Registers, part 6. -/
def Reg.part6 : List Reg := [.WIN_FAULT, .WIN_RX, .WIN_CACHE_CTL, .WIN_CACHE_STAT, .WIN_COMB, .FAB_NODE, .FAB_CFG, .FAB_CTL, .FAB_STAT, .FAB_POOL, .FAB_ECN, .FAB_DROP]
/-- Registers, part 7. -/
def Reg.part7 : List Reg := [.FAB_DROP2, .FAB_RT, .FAB_LINK, .FAB_LCNT0, .FAB_LCNT1, .ETH_CFG, .ETH_TBL, .ETH_STAT, .COL_CFG, .COL_STAT, .COL_ERR, .COL_CTL]
/-- Registers, part 8. -/
def Reg.part8 : List Reg := [.COL_CNT, .COL_SCR, .COL_CTX, .COL_GSEQ, .COL_GBOX, .COL_GRP, .PHO_CFG, .PHO_STAT, .PHO_EVT, .PHO_FF, .PHO_SRC_STAT, .PHO_SRC_CAL]
/-- Registers, part 9. -/
def Reg.part9 : List Reg := [.PHO_FIB_STAT, .PHO_RING_ASSIGN, .PHO_EYE, .PHO_ERR, .PHO_BRK_STAT, .PHO_BRK_ALLOC, .DPORT_CAP, .DPORT_CTL, .DPORT_STAT, .DPORT_ERR, .PWR_CFG, .PWR_STAT]
/-- Registers, part 10. -/
def Reg.part10 : List Reg := [.PWR_IN, .PWR_DOM_CTL, .PWR_DOM_STAT, .PWR_DROOP, .PWR_VT, .THM_CFG, .THM_MOD, .THM_DIE, .THM_SENS, .GLB_EPOCH, .GLB_EPOCH_SET, .FLT_CFG]
/-- Registers, part 11. -/
def Reg.part11 : List Reg := [.FLT_CTL, .FLT_WDOG, .FLT_REC0, .FLT_REC1, .FLT_CE_SUM, .ROLL_CFG, .ROLL_CTL, .ROLL_STAT, .ROLL_VERDICT, .ROLL_JOB, .ROLL_NODE, .WNW_CFG]
/-- Registers, part 12. -/
def Reg.part12 : List Reg := [.WNW_STAT, .WNW_FENCE, .WNW_LOG, .OBS_CFG, .OBS_DEST, .OBS_DEST2, .OBS_STAT, .OBS_CORE, .OBS_BASE, .GLB_STRAP, .BOOT_STAT, .BOOT_UCAL]
/-- Registers, part 13. -/
def Reg.part13 : List Reg := [.BOOT_FLUPD, .SEC_OTP, .SEC_IDHASH, .SEC_MEAS, .PWR_STBY, .PWR_DOM_LP]
/-- Every register, for address decoding. -/
def Reg.all : List Reg := List.flatten [Reg.part0, Reg.part1, Reg.part2, Reg.part3, Reg.part4, Reg.part5, Reg.part6, Reg.part7, Reg.part8, Reg.part9, Reg.part10, Reg.part11, Reg.part12, Reg.part13]

end Sys2Proof.Machine
end

