-- ==== Sys2Proof/Config.lean ====
section
/-! DEFINITION. What the spec fixes for a variant (R6, R13, R27) and what it leaves open. The opaque constants have no
body: nothing can be proved of their values (DESIGN CHOICE, safe, log entries 3 and 10). -/

namespace Sys2Proof

/-- The three variants (R6). -/
inductive Variant where
  | trn0304 | trn0608 | trn1216
  deriving DecidableEq, Repr

/-- Compute dies of a variant (R6). -/
def Variant.cdies : Variant → Nat
  | .trn0304 => 3 | .trn0608 => 6 | .trn1216 => 12
/-- Base dies of a variant (R6). -/
def Variant.bdies : Variant → Nat
  | .trn0304 => 1 | .trn0608 => 2 | .trn1216 => 4
/-- HBM stacks of a variant (R6). -/
def Variant.stacks : Variant → Nat
  | .trn0304 => 4 | .trn0608 => 8 | .trn1216 => 16
/-- Cores of a variant (R6, R13). -/
def Variant.cores (v : Variant) : Nat := 16 * v.cdies
/-- Tensor links of a variant (R6, R27). -/
def Variant.links (v : Variant) : Nat := 4 * v.bdies
/-- Ethernet ports of a variant (R6, R27). -/
def Variant.ethPorts : Variant → Nat
  | .trn0304 => 1 | .trn0608 => 1 | .trn1216 => 2
/-- External laser sources of a variant (R6). -/
def Variant.sources : Variant → Nat
  | .trn0304 => 5 | .trn0608 => 6 | .trn1216 => 8
/-- The part number digits (R23). -/
def Variant.part : Variant → Nat
  | .trn0304 => 0x0304 | .trn0608 => 0x0608 | .trn1216 => 0x1216
/-- First byte past L-space (R283). -/
def Variant.lEnd (v : Variant) : Nat := v.bdies * 0x08000000
/-- First byte past local E-space (R284). -/
def Variant.eEnd (v : Variant) : Nat := v.stacks * 0x1000000000
/-- First byte of the reserved range (R286), which is also WIN_TABLE.BASE (R343). -/
def Variant.resBase (v : Variant) : Nat := v.eEnd - 0x10000000
/-- Largest sizes of the W, X, Y and Z dimensions (R388). -/
def Variant.dims : Variant → Nat × Nat × Nat × Nat
  | .trn0304 => (1, 2, 1, 4) | .trn0608 => (2, 4, 2, 4) | .trn1216 => (8, 4, 4, 4)
/-- Base die of a core (R13). -/
def coreBdie (n : Nat) : Nat := n / 48

/-- A free 64-bit value, one per use (DESIGN CHOICE, safe, log entry 3). -/
opaque Config.freeWord : Nat → W64
/-- A free choice, one per use, wherever the spec allows either outcome (DESIGN CHOICE, safe, log entry 3). -/
opaque Config.freeBool : Nat → Bool
/-- What the check bits of a never-written word of HBM decode as when it is read (R299): 0 no error, 1 correctable,
2 or more uncorrectable (DESIGN CHOICE, safe, log entry 2). -/
opaque Config.unwrittenCheck : Nat → Nat
/-- Bytes that event traffic of a scalar processor takes through its core's base-die port, in and out (R138, R185): no rule states
them (DESIGN CHOICE, safe, log entry 3). -/
opaque Config.evtBytesIn : Nat
/-- See `Config.evtBytesIn`. -/
opaque Config.evtBytesOut : Nat
/-- Gap, in 8 B words, before each measured item as firmware keeps them (R590; DESIGN CHOICE, safe, log entry 53). -/
opaque Config.itemGap : Nat → Nat
/-- ML-DSA-87 verification of a signature over a digest with a public key (FIPS 204; DESIGN CHOICE, safe, log entry 10). -/
opaque Config.mldsaVerify : (pub digest sig : List Byte) → Bool
/-- ML-DSA-87 signature of a digest with the module's identity key (FIPS 204; DESIGN CHOICE, safe, log entry 10). -/
opaque Config.mldsaSign : (digest : List Byte) → List Byte
/-- SHA3-512 (FIPS 202; DESIGN CHOICE, safe, log entry 10). -/
opaque Config.sha3 : List Byte → List Byte

end Sys2Proof
end

