-- ==== Sys2Proof/Machine/State.lean ====
section
/-! DEFINITION. The state of one module: control registers, the cores and their engines, the memories and caches, the
queue engine, the rack window, the fabric, the collectives, the photonic layer, the die ports, power, the roll call,
winnow, trace, boot, and the queue of pending commands. All of it is plain data. -/

namespace Sys2Proof.Machine

/-- A sparse map with natural keys, in one canonical form: keys strictly rising and no entry equal to the default. -/
abbrev SMap (α : Type) := List (Nat × α)

/-- Why a step stops with a fault. No meaning of this model raises one: what the hardware refuses is answered as the
spec says. -/
inductive Fault where
  /-- raised by no command; kept so that the type is not empty. Safe. -/
  | unused
  deriving DecidableEq, Repr

/-- Why a step is refused. -/
inductive Refusal where
  /-- the command has no meaning yet; raised by the dispatch alone. Safe. -/
  | notModelled (mnemonic : String)
  deriving DecidableEq, Repr

/-! ### Cores -/

/-- An outstanding L-space load or atomic of a scalar processor (R287): its register, and the data on their way to it. The
access takes effect at issue, in program order (R323; log entry 70). -/
structure PendLoad where
  rd : Nat
  val : W64
  deriving DecidableEq, Repr

/-- A pending imprecise exception (R172, R173). -/
structure ImpExc where
  cause : Nat
  arr : Nat
  status : Nat
  info : W64
  deriving DecidableEq, Repr

/-- The state of one scalar processor (R139), and what the core keeps for it. -/
structure Sp where
  pc : W64 := 0
  x : SMap W64 := []
  v : SMap V1024 := []
  p : SMap V128 := []
  t : SMap V128 := []
  /-- supervisor mode -/
  super : Bool := false
  /-- started by the running kernel (SPMASK) -/
  started : Bool := false
  /-- issuing (CORE_CTL.RUN) -/
  run : Bool := false
  /-- has executed END in this kernel (R171) -/
  ended : Bool := false
  /-- the instruction line a fetch miss waits for (R140) -/
  fetch : Option Nat := none
  /-- outstanding L- and E-space loads and atomics, oldest first -/
  loads : List PendLoad := []
  /-- pending imprecise exceptions, oldest first, at most four (R173) -/
  pend : List ImpExc := []
  /-- an accumulator access waiting on a pass (R127) -/
  accWait : Option W32 := none
  /-- vector load buffers: lines held, keyed by space × 2^40 + line number; a line of zeros is held like any other (R322) -/
  vbuf : SMap V1024 := []
  /-- lines (keys of `vbuf`) that its gleaner operations have written since it last retired a GLN.DRAIN (R191) -/
  glnLines : List Nat := []
  deriving DecidableEq, Repr

/-- State of an accumulation group (R115). -/
inductive GState where
  | closed | int | float
  deriving DecidableEq, Repr

/-- Where the A rows of a pass come from (R79). -/
inductive PassSrc where
  | tile (desc : V128) (last : Bool)
  | stream (s start : Nat)
  | stook (half : Nat)
  deriving DecidableEq, Repr

/-- A pass as issued (R79, R156). -/
structure PassReq where
  slot : Nat
  grp : Nat
  r0 : Nat
  m : Nat
  fmt : Nat
  ka : Nat
  scaled : Bool
  src : PassSrc
  deriving DecidableEq, Repr

/-- A tile instruction (R155). -/
inductive TileOp where
  | loadb (slot : Nat) (desc : V128) (last : Bool)
  | pass (r : PassReq)
  | opn (g : Nat) (float keep : Bool)
  | cls (g : Nat)
  deriving DecidableEq, Repr

/-- An entry of a tile queue: issuer, order of entry, instruction, and whether it has passed its check at the head. -/
structure TileEntry where
  sp : Nat
  ord : Nat
  op : TileOp
  checked : Bool
  deriving DecidableEq, Repr

/-- A stationary tile in a slot (R75): raw element codes by row, and block scales in the layout of R144. -/
structure Tile where
  fmt : Nat
  k : Nat
  n : Nat
  scaled : Bool
  rows : List (List Nat)
  scales : List Nat
  deriving DecidableEq, Repr

/-- A load on an array's load path (R606); `sp` is 2 for the stook. -/
structure LoadEntry where
  sp : Nat
  ord : Nat
  slot : Nat
  desc : V128
  last : Bool
  started : Bool
  deriving DecidableEq, Repr

/-- A pass in flight (R80): the A rows that have entered, with their scales; `sp` is 2 for the stook. -/
structure Pass where
  sp : Nat
  ord : Nat
  req : PassReq
  rows : List (List Nat)
  scales : List (List Nat)
  deriving DecidableEq, Repr

/-- An open or close that has left the head and is not yet applied (R117). -/
structure GroupEff where
  sp : Nat
  g : Nat
  opn : Bool
  float : Bool
  zero : Bool
  deriving DecidableEq, Repr

/-- A matrix array (R72 to R91) and its groups' checked states (R115, R117). -/
structure Arr where
  queue : List TileEntry := []
  slot0 : Option Tile := none
  slot1 : Option Tile := none
  loads : List LoadEntry := []
  passes : List Pass := []
  g0 : GState := .closed
  g1 : GState := .closed
  g2 : GState := .closed
  g3 : GState := .closed
  effs : List GroupEff := []
  /-- pending slot clears: slot and order of entry at the write (R89) -/
  clears : List (Nat × Nat) := []
  /-- ACC_SAT writes waiting for a pass: group and value (R132) -/
  satWrites : List (Nat × W64) := []
  deriving DecidableEq, Repr

/-- A queued TILE.MOVE (R157). -/
structure MoveEntry where
  sp : Nat
  ord : Nat
  td : V128
  ts : V128
  rm : Nat
  sat : Bool
  last : Bool
  deriving DecidableEq, Repr

/-- An entry of the gleaner queue (R189): the descriptor's copy, where it came from, and how far a stream operation
has got. `cmd` is the command's number for a GLEAN command. -/
structure GlnEntry where
  id : Nat
  op : Nat
  desc : List W64
  space : Nat
  addr : Nat
  sp : Nat
  cmd : Option Nat
  queue : Nat
  running : Bool
  placed : Nat
  fullSince : Option Nat
  /-- remote rows returned (address and bytes), for reads through the rack window -/
  remote : SMap Byte
  /-- the first failed remote operation: its status, and 256 × its row for an add -/
  remStatus : Option Nat
  /-- an output element saturated, and a correctable error was corrected, in the rows that a stream operation has placed or a remote
  scatter-add has sent -/
  sat : Bool
  corr : Bool
  /-- remote reads that failed: address, length, status -/
  failed : List (Nat × Nat × Nat)
  deriving DecidableEq, Repr

/-- A run of rows promised by one operation in a stream (R209): rows placed and not yet taken, and how many were
placed and taken. -/
structure StreamSeg where
  entry : Nat
  fmt : Nat
  cols : Nat
  n : Nat
  rows : List (List Nat)
  placed : Nat
  taken : Nat
  ended : Bool
  deriving DecidableEq, Repr

/-- A gleaner stream (R208, R209): its runs, and counts of rows promised, claimed and taken. -/
structure Stream where
  segs : List StreamSeg := []
  promised : Nat := 0
  claimed : Nat := 0
  taken : Nat := 0
  deriving DecidableEq, Repr

/-- A line of a row cache (R214, R215). -/
structure RcLine where
  line : Nat
  keep : Bool
  data : V1024
  deriving DecidableEq, Repr

/-- The gleaner of a core. -/
structure Gln where
  queue : List GlnEntry := []
  nextId : Nat := 0
  s0 : Stream := {}
  s1 : Stream := {}
  s2 : Stream := {}
  s3 : Stream := {}
  /-- row cache, most recently used first -/
  rc : List RcLine := []
  /-- lines that show a parity error when they are next read (R217) -/
  perr : List Nat := []
  deriving DecidableEq, Repr

/-- A request held by a stook (R96). -/
structure StReq where
  rows : Nat
  aspace : Nat
  aaddr : Nat
  astride : Nat
  dspace : Nat
  daddr : Nat
  dstride : Nat
  cmd : Option Nat
  sp : Nat
  event : Nat
  deriving DecidableEq, Repr

/-- What the stook keeps for a key beside its registers (R94, R99, R114). -/
structure StKey where
  batch : List StReq := []
  expiry : Nat := 0
  unbinding : Bool := false
  /-- array × 2 + slot that holds the key's tile -/
  res : Option Nat := none
  deriving DecidableEq, Repr

/-- A sealed batch (R99). -/
structure StBatch where
  key : Nat
  reqs : List StReq
  deriving DecidableEq, Repr

/-- A batch in dispatch in a buffer half (R101): its order of dispatch; `stage` 1 pass, 2 scatter, 3 pass of an aborted
batch. -/
structure StHalf where
  ord : Nat
  batch : StBatch
  arr : Nat
  slot : Nat
  grp : Nat
  stage : Nat
  /-- rows of the batch in which INT32 saturation occurred -/
  satRows : List Nat
  /-- rows of the batch in whose A rows or tile a correctable error was corrected -/
  corrRows : List Nat
  deriving DecidableEq, Repr

/-- The stook of a core. -/
structure Stook where
  keys : SMap StKey := []
  sealed : List StBatch := []
  h0 : Option StHalf := none
  h1 : Option StHalf := none
  /-- owned slots (array × 2 + slot), most recently named first -/
  slotUse : List Nat := []
  deriving DecidableEq, Repr

/-- The kernel part that a core runs (R242). -/
structure Kernel where
  cmd : Nat
  /-- queue of its LAUNCH, whose FENCE.REMOTE waits for its stores (R247) -/
  queue : Nat
  tag : Nat
  /-- status of an unhandled exception (R174) or of an abort -/
  bad : Option Nat
  deriving DecidableEq, Repr

/-- A line of the instruction cache (R138, R140): its number, and its 64 bytes as they stood when it was filled. -/
structure IcLine where
  line : Nat
  data : BitVec 512
  deriving DecidableEq, Repr

/-- One core. -/
structure Core where
  sp0 : Sp := {}
  sp1 : Sp := {}
  /-- scratchpad bytes (R282); an unlisted byte is 0 -/
  spad : List MemCell := []
  /-- accumulator words, by (address − 0x0080_0000) / 4 (R124); an unlisted word is 0 -/
  acc : SMap W32 := []
  /-- instruction cache lines held, the last filled first (R140) -/
  icache : List IcLine := []
  arr0 : Arr := {}
  arr1 : Arr := {}
  arr2 : Arr := {}
  arr3 : Arr := {}
  mover : List MoveEntry := []
  /-- entries made in the tile queues and the mover so far: gives each entry its order -/
  seq : Nat := 0
  gln : Gln := {}
  stook : Stook := {}
  kernel : Option Kernel := none
  /-- scratchpad and accumulator words that hold a correctable fault: address, and syndrome + 1 (R302) -/
  faults : SMap Nat := []
  deriving DecidableEq, Repr

/-! ### Memories -/

/-- A line of a bay cache (R289, R292): line number within the stack, retained class, word valid and dirty bits,
data. `undef` marks words that only writes of fewer than 8 B have touched, so that they count as never written (R298). -/
structure BayLine where
  line : Nat
  keep : Bool
  valid : BitVec 16
  dirty : BitVec 16
  data : V1024
  undef : BitVec 16 := 0
  deriving DecidableEq, Repr

/-- A stack's controller and bay cache. -/
structure Stack where
  /-- lines present, most recently used first -/
  bay : List BayLine := []
  /-- a FLUSH, WBINV or EN-clear write-back runs (R316) -/
  busy : Bool := false
  /-- refresh band in force, and the band that temperature asks for (R304) -/
  band : Nat := 0
  tband : Nat := 0
  /-- band that takes effect at the next refresh interval -/
  pendBand : Option Nat := none
  /-- last reading and how many samples it has stood unchanged (R305) -/
  last : Option Int := none
  same : Nat := 0
  deriving DecidableEq, Repr

/-- The module-wide memories. -/
structure Mem where
  /-- loft bytes; an unlisted byte is 0 -/
  loft : List MemCell := []
  /-- HBM bytes by E-space address; what an unlisted byte is depends on the variant (R297) -/
  hbm : List MemCell := []
  stks : SMap Stack := []
  /-- words with a correctable fault, keyed by place × 2^40 + address, and syndrome + 1: place 1 loft, 2 HBM, 3 bay
  cache -/
  faults : SMap Nat := []
  deriving DecidableEq, Repr

/-! ### The queue engine -/

/-- One queue (R231, R253). -/
structure Queue where
  /-- STATE of R253 -/
  st : Nat := 0
  head : Nat := 0
  tail : Nat := 0
  /-- commands appended, and commands retired, since the queue was enabled -/
  appended : Nat := 0
  retiredN : Nat := 0
  /-- the head command as read, once it has reached the head -/
  cmd : Option (List W64) := none
  /-- the head passed the check of R240 -/
  checked : Bool := false
  /-- every wait was satisfied (R252) -/
  elig : Bool := false
  /-- timebase when the head became eligible (R440) -/
  eligAt : Nat := 0
  /-- QUEUE_DISPATCH has granted the head and its own row has not yet run -/
  granted : Bool := false
  /-- the place of that grant among all grants: collectives take their contexts in dispatch order (R438) -/
  grantAt : Nat := 0
  /-- timebase at that grant (R248) -/
  grantNow : Nat := 0
  /-- number of the head command in flight, once dispatched and not retired -/
  running : Option Nat := none
  deriving DecidableEq, Repr

/-- A command in flight: dispatched and not yet complete (R256). -/
structure Cmd where
  id : Nat
  queue : Nat
  slot : Nat
  words : List W64
  retired : Bool
  /-- cores whose part has not ended, for LAUNCH -/
  parts : List Nat
  /-- part statuses reported so far -/
  partSts : List Nat
  /-- a remote operation of this command failed with this status, or it was stopped -/
  bad : Option Nat
  /-- a correctable error was corrected in data it read -/
  corr : Bool
  deriving DecidableEq, Repr

/-- A command held by a copy engine (R243): the command's number, the source bytes read ahead (R322), and, for a copy
through the rack window, how many bytes have been asked for or sent. -/
structure CopyJob where
  cmd : Nat
  ahead : Option (List Byte)
  sent : Nat
  /-- bytes that have come through the window and are not yet written, by destination address: those of a word not yet complete (R332),
  or of words that cannot take a write now (R38, R127) -/
  got : SMap Byte
  /-- what the last packet of a copy into the window left of the 8 B source word that it ends in, which is read once (R332) -/
  rest : List Byte
  deriving DecidableEq, Repr

/-- The queue engine. -/
structure Que where
  qs : SMap Queue := []
  nextId : Nat := 0
  cmds : List Cmd := []
  /-- ends reported and not yet written: command and status -/
  done : List (Nat × Nat) := []
  /-- last queue served, per priority (R255) -/
  rr : SMap Nat := []
  /-- copy engines: base die × 4 + engine, commands held in order -/
  copies : SMap (List CopyJob) := []
  /-- grants so far -/
  grants : Nat := 0
  deriving DecidableEq, Repr

/-! ### The rack window and the fabric -/

/-- An outstanding remote operation (R161, R353). `kind` is 0 RLD, 1 RST, 2 RADD, 3 RSTF, 4 gleaner read, 5 copy read,
6 copy write (R381), 8 a collective engine's VC2 packet, whose AUX is in `reg` and whose context is in `sp`. `stage` is 0 in translation, 1 waiting for a walk, 2 held (R335, R397 or window), 3 sent. -/
structure RemOp where
  id : Nat
  srcid : Nat
  kind : Nat
  sp : Nat
  reg : Nat
  addr : W64
  len : Nat
  data : List Byte
  atype : Nat
  det : Bool
  cmd : Option Nat
  gln : Option Nat
  /-- queue of the command that it serves, if any -/
  queue : Option Nat
  /-- local address where read data goes, for a copy read or a gleaner read -/
  dst : Nat
  stage : Nat
  entry : W64
  ord : Bool
  seq : Nat
  issued : Nat
  lastTx : Nat
  tries : Nat
  nak : Bool
  /-- an earlier write of its source failed with this status, for a held RSTF (R335) -/
  failSt : Option Nat
  /-- EPOCH of its packets (R405) -/
  epoch : Nat
  deriving DecidableEq, Repr

/-- A combine entry of a router slice (R356). -/
structure CombEntry where
  node : Nat
  addr : Nat
  len : Nat
  epoch : Nat
  src : Nat
  srcid : Nat
  seq : Nat
  openAt : Nat
  isOpen : Bool
  attached : List Packet
  deriving DecidableEq, Repr

/-- A fold entry of a router slice (R360). -/
structure FoldEntry where
  line : Nat
  atype : Nat
  epoch : Nat
  openAt : Nat
  contribs : List Packet
  deriving DecidableEq, Repr

/-- Sender state of a pair of source and destination node (R402, R404). -/
structure Pair where
  seq : Nat := 0
  w : Nat := 256
  inc : Nat := 0
  last : Option Nat := none
  deriving DecidableEq, Repr

/-- A change request in the security controller (R369). -/
structure Change where
  bytes : List Byte
  /-- the manifest passed its checks and waits to be applied -/
  verified : Bool
  /-- the epoch in force when the request arrived (R545) -/
  epoch : Nat
  deriving DecidableEq, Repr

/-- Window caches, walks, router-slice tables and the security controller's request. -/
structure Win where
  /-- window cache of each base die, most recently used first: page and entry (R345) -/
  cache : SMap (List (Nat × W64)) := []
  /-- walks in progress: base die and page (R346) -/
  walks : List (Nat × Nat) := []
  /-- walks whose result is to be discarded (R370) -/
  stale : List (Nat × Nat) := []
  ops : List RemOp := []
  nextId : Nat := 0
  pairs : SMap Pair := []
  /-- expected sequence number per remote source, keyed by node × 256 + SRCID (R402) -/
  rx : SMap Nat := []
  /-- skipped sequence numbers per source (R338) -/
  skips : List (Nat × Nat) := []
  /-- reorder buffer (R402) -/
  held : List Packet := []
  comb : SMap (List CombEntry) := []
  fold : SMap (List FoldEntry) := []
  change : Option Change := none
  /-- nonces of the attestation requests that wait behind it, oldest first (R591) -/
  attests : List (List Byte) := []
  deriving DecidableEq, Repr

/-- A packet waiting at an output link, the time it arrived, the link it came in on (16 or more: none), and whether the slot that it
holds in that link's receive pool is a shared one (R399). -/
structure Waiting where
  pkt : Packet
  since : Nat
  via : Nat
  shared : Bool
  deriving DecidableEq, Repr

/-- A tensor link beside its FAB_LINK register (R391, R392, R399): its width outside doze, packets queued for it, and the credits of
its sender. -/
structure Link where
  full : Nat := 0
  queue : List Waiting := []
  /-- credits for reserved slots of VC0 to VC3 and for shared slots; none before the first refresh -/
  credits : List Nat := []
  /-- slots of the receive pool that are taken: reserved ones of VC0 to VC3, and shared ones (R399) -/
  used : List Nat := [0, 0, 0, 0, 0]
  /-- training has found the link MISWIRED: it does not train again before a POR or MRST (R391) -/
  miswired : Bool := false
  /-- a codeword that overlaps what is still coming in was uncorrectable (R407) -/
  rxLost : Bool := false
  deriving DecidableEq, Repr

/-- An Ethernet queue pair's volatile state: time of the last packet of an open message, its place, and the time of
the last CNP (R410, R413). -/
structure Qp where
  openAt : Option Nat := none
  openLen : Nat := 0
  openTotal : Nat := 0
  openAddr : Nat := 0
  openSend : Bool := false
  lastCnp : Option Nat := none
  deriving DecidableEq, Repr

/-- What the header of an answer carries from its queue pair's entry (R411): the peer's queue pair and address, its family, the UDP
source port, and the DSCP. -/
structure QpDest where
  rqpn : Nat
  ipv6 : Bool
  raddr : W64 × W64
  sport : Nat
  dscp : Nat
  deriving DecidableEq, Repr

/-- What an Ethernet port answers. -/
inductive EthOut where
  | ack (dest : QpDest) (qp psn : Nat)
  | nakSeq (dest : QpDest) (qp psn : Nat)
  | nakRnr (dest : QpDest) (qp psn : Nat)
  | nakAccess (dest : QpDest) (qp psn : Nat)
  | nakInvalid (dest : QpDest) (qp psn : Nat)
  /-- one packet of a READ's response: at most the path MTU, and whether it is the first and the last of it -/
  | readResp (dest : QpDest) (qp psn : Nat) (data : List Byte) (first last : Bool)
  | cnp (dest : QpDest) (qp : Nat)
  /-- a trace datagram (R565) to the port and address in OBS_DEST -/
  | trace (udp : Nat) (ipv6 : Bool) (lo hi : W64) (data : List Byte)
  deriving DecidableEq, Repr

/-- The tensor fabric and the Ethernet ports. -/
structure Fab where
  links : SMap Link := []
  /-- packets sent on tensor links: link and packet -/
  tx : List (Nat × Packet) := []
  /-- packets this module's own endpoints have handed to its router, not yet forwarded -/
  local_ : List Packet := []
  /-- packets the router has delivered to this module's own receivers and that they have not yet taken -/
  rx : List Packet := []
  /-- time at which FAB_CTL.QUIESCE was set (R397) -/
  quiesceAt : Option Nat := none
  /-- link control frames sent: link and what they say -/
  ctrl : List (Nat × String × List Nat) := []
  /-- how many packets had been sent before each of them -/
  ctrlAt : List Nat := []
  qps : SMap Qp := []
  ethOut : List (Nat × EthOut) := []
  /-- time up to which the trace datagrams sent take up OBS_CFG.RATE (R565) -/
  traceAt : Nat := 0
  deriving DecidableEq, Repr

/-! ### Collectives -/

/-- What a context holds of one peer's sheaf: peer node, stage, offset, bytes received, and the TRAILER's CHECK once
it has arrived and matched. -/
structure SheafIn where
  peer : Nat
  stage : Nat
  off : Nat
  data : List Byte
  ok : Bool
  tries : Nat
  deriving DecidableEq, Repr

/-- The CHECK that a context holds of a sheaf (R446): the stage before which it is held, its block, its offset in the block. An RS holds
those of its scratch, an AG those of the blocks that stand in DST. -/
structure SheafCheck where
  pos : Nat
  block : Nat
  off : Nat
  check : Nat
  deriving DecidableEq, Repr

/-- A collective in a context (R436, R460). `op` is 0 RS, 1 AG, 2 BARRIER. -/
structure Ctx where
  cmd : Nat
  queue : Nat
  op : Nat
  group : Nat
  seq : Nat
  words : List W64
  /-- stages completed -/
  pos : Nat
  started : Bool
  sheaves : List SheafIn
  /-- stages and peers whose digest has arrived and matched -/
  digests : List (Nat × Nat)
  /-- grants: stage, peer, and the offset below which a sheaf may begin -/
  grants : List (Nat × Nat × Nat)
  /-- peers of this stage, and the offset of the next sheaf to send to each -/
  sent : List (Nat × Nat)
  /-- check values of the sheaves that it has written to scratch or to DST -/
  checks : List SheafCheck
  lastArrival : Nat
  /-- how it is to end: status, reason, peer -/
  ended : Option (Nat × Nat × Nat)
  deriving DecidableEq, Repr

/-- A packet kept for a collective that holds no context yet (R449). -/
structure ColPend where
  engine : Nat
  pkt : Packet
  deriving DecidableEq, Repr

/-- The collective engines. -/
structure Col where
  ctxs : SMap Ctx := []
  pend : List ColPend := []
  deriving DecidableEq, Repr

/-! ### Light -/

/-- A laser source (R463, R476): whether it answers on the laser bus, the 256 bytes of its memory (`none`: the valid table with SERIAL
and CALMON 0; DESIGN CHOICE, unsafe, log entry 85), and the last sixteen monitor samples. `dead` says that it had faded beyond −3.0 dB at
tuning, so that it feeds nothing (R471); `mirrorAt` is the number of the sample at which it reached MIRROR (R477). -/
structure Source where
  answers : Bool := true
  memory : Option (List Byte) := none
  samples : List Nat := []
  dead : Bool := false
  mirrorAt : Nat := 0
  deriving DecidableEq, Repr

/-- How far a new path has been compared with the old one (R475): frames in a row that compared equal, and aligned frames that the new path
has delivered. -/
structure Compared where
  eq : Nat := 0
  aligned : Nat := 0
  deriving DecidableEq, Repr

/-- A lane that moves from a ring that is still captured to the spare line, by mirror and switch (R474). -/
structure LaneMove where
  ring : Nat
  cmp : Compared
  ready : Bool
  deriving DecidableEq, Repr

/-- A move that the other end has begun to a receive side (R475): the fibre whose data it mirrors, or the lane that it moves to the spare
line; how far the copies have been compared, and whether the new path is ready. -/
structure PeerMove where
  old : Nat
  lane : Nat
  cmp : Compared
  ready : Bool
  deriving DecidableEq, Repr

/-- A fibre, by its index F (R483), or the rings of base die b at internal waveguide w, as number 256 + 64 b + w, the add rings as its
transmit side and the drop rings as its receive side (R467): whether its sides are tuned, by the verify-only path or not, and light arrives
from outside; the data position it carries outside doze; the fibre whose data it mirrors (R475), how far the copies have been compared,
and whether the mirror is ready; for each side the lane that each ring carries, 8 for the spare ring and 9 for a ring that is retuned, and
the lane in motion (R474); whether it has lost its data position until the next POR or MRST (R479); and the move that the other end has begun
to its receive side, and the fibre from which its receive side has taken over by such a move (R475). -/
structure Fibre where
  txOk : Bool := false
  rxOk : Bool := false
  txCal : Bool := false
  rxCal : Bool := false
  lit : Bool := false
  pos : Option Nat := none
  mirror : Option Nat := none
  cmp : Compared := {}
  ready : Bool := false
  txMove : Option LaneMove := none
  rxMove : Option LaneMove := none
  out : Bool := false
  txMap : List Nat := []
  rxMap : List Nat := []
  peer : Option PeerMove := none
  rxFor : Option Nat := none
  deriving DecidableEq, Repr

/-- A channel between base dies (R467, R480, R481): the ordered pair that holds it, the pair it moves to, failed. -/
structure Channel where
  pair : Option Nat := none
  moving : Option Nat := none
  failed : Bool := false
  deriving DecidableEq, Repr

/-- The photonic layer. -/
structure Pho where
  sources : SMap Source := []
  fibres : SMap Fibre := []
  channels : SMap Channel := []
  /-- mean of each base die's sensors at the last feed-forward update, in degC, and the correction in force, in uW (R473) -/
  ff : SMap (Rat × Rat) := []
  /-- fade samples taken -/
  sampled : Nat := 0
  deriving DecidableEq, Repr

/-! ### Die ports, power, roll call, winnow, trace, boot -/

/-- What a base die answers a guest (R500, R501). -/
inductive GuestOut where
  | read (data : List Byte)
  | written
  | waitMet (e t : Nat)
  | error
  deriving DecidableEq, Repr

/-- A die interface (R496 to R502). Whether its die is present, a guest, released or in fallow stands in GLB_DIEMAP and
PWR_DOM_LP, and how far its bring-up has come in DPORT_STAT.STATE. -/
structure DiePort where
  /-- the capability block read at boot (R498) -/
  boot : Option CapBlock := none
  /-- the die is held in DRST -/
  inDrst : Bool := true
  /-- its training or exchange failed, or its capability block has changed: it stays in DRST until DRST is asked for again (R496, R498) -/
  stays : Bool := false
  /-- a reset that was requested while the die was in fallow (R580) -/
  drstPend : Bool := false
  /-- time at which its bring-up began (R496) -/
  upAt : Nat := 0
  /-- a guest's registered waits: event counter and threshold (R501) -/
  waits : List (Nat × Nat) := []
  /-- time of the guest's last temperature report (R502) -/
  reportAt : Nat := 0
  /-- answers given to the guest, oldest first -/
  out : List GuestOut := []
  deriving DecidableEq, Repr

/-- Per core: a reset that was requested while the core was gated (R580). Whether it is gated stands in PWR_DOM_LP. -/
structure CorePwr where
  crstPend : Bool := false
  deriving DecidableEq, Repr

/-- A switched domain's regulator (R515 to R519). -/
structure Dom where
  setp : Nat := 0
  hint : Option (Nat × Nat) := none
  level : Nat := 0
  since : Nat := 0
  reactUntil : Option Nat := none
  /-- detectors tripped now (R517) -/
  tripped : List Nat := []
  stretched : Bool := false
  /-- the rail is up: the regulator has switched it on (R513) -/
  on : Bool := false
  /-- point in force (R516) -/
  pt : Nat := 0
  /-- the ramp of the pending hint is under way (R519) -/
  ramp : Bool := false
  deriving DecidableEq, Repr

/-- A thermal sensor's history (R521): the last raw reading, and over how many samples what it reads has stood unchanged. -/
structure Sensor where
  last : Int := 0
  same : Nat := 0
  broken : Bool := false
  deriving DecidableEq, Repr

/-- Power and heat. -/
structure Pwr where
  doms : SMap Dom := []
  cores : SMap CorePwr := []
  sensors : SMap Sensor := []
  /-- issue fraction of each compute die as its last sample set it, in 400ths (R523) -/
  frac : SMap Nat := []
  /-- voltage, current and power as last reported to the board over PMBus (R511) -/
  pmbus : Nat × Nat × Nat := (0, 0, 0)
  /-- input voltage in mV, and whether the converters run (R511) -/
  vin : Nat := 56000
  up : Bool := true
  /-- trip output asserted (R524) -/
  trip : Bool := false
  /-- the module reads a whole-module stop: clocks stopped by a trip -/
  stopped : Bool := false
  deriving DecidableEq, Repr

/-- What the roll-call agent keeps of a neighbour (R550): the time from which its silence counts, the time at which its last heartbeat came
(R572), its coordinator, and when the last vote against it was sent. -/
structure RNode where
  last : Nat := 0
  beat : Option Nat := none
  coord : Nat := 0
  sent : Nat := 0
  deriving DecidableEq, Repr

/-- A vote held by a coordinator (R550). -/
structure Vote where
  suspect : Nat
  voter : Nat
  at_ : Nat
  deriving DecidableEq, Repr

/-- The roll-call agent (R548 to R556) and fencing (R553, R554). -/
structure Roll where
  nodes : SMap RNode := []
  votes : List Vote := []
  /-- flooded messages seen: type, source and payload (R549) -/
  seen : List (Nat × Nat × Nat) := []
  /-- DOMAIN messages held: kind, DOMID, sender -/
  domains : List (Nat × Nat × Nat) := []
  /-- a VERDICT named this module (R553) -/
  named : Bool := false
  fencedAt : Option Nat := none
  joinAt : Option Nat := none
  /-- the timings in force, where a change of ROLL_CFG waits for the agent's next tick (R368) -/
  cfg : Option W64 := none
  admitted : Bool := false
  deriving DecidableEq, Repr

/-- Winnow state of a core (R558 to R562). -/
structure Wnw where
  /-- job time, in ns, at which its last pass ended -/
  lastPass : Nat := 0
  /-- next kernel of the pass -/
  next : Nat := 0
  /-- a kernel runs -/
  running : Bool := false
  forced : Bool := false
  /-- a return pass is due or runs (R547) -/
  ret : Bool := false
  /-- reruns left after a mismatch, and mismatches among them -/
  reruns : Nat := 0
  bad : Nat := 0
  /-- time at which the core last became free of work -/
  freeSince : Nat := 0
  /-- steps counted when its last pass ended -/
  stepsAt : Nat := 0
  /-- place of its last pass among all passes that have ended; 0 where none has (R560) -/
  passNo : Nat := 0
  deriving DecidableEq, Repr

/-- A trace unit (R564 to R566). -/
structure TraceUnit where
  buf : List (W64 × W64) := []
  dropped : Nat := 0
  seqNo : Nat := 0
  oldest : Nat := 0
  /-- time of the last counter samples (R578) -/
  sampledAt : Option Nat := none
  deriving DecidableEq, Repr

/-- A fibre's record in user calibration (R470, R594): the serials of the source of its active line and of that of its spare line, shifts and
heater powers. -/
structure FibCal where
  serial : Nat
  spare : Nat
  txShift : Option Nat
  txPow : List Nat
  rxShift : Option Nat
  rxPow : List Nat
  deriving DecidableEq, Repr

/-- An internal channel's record in user calibration (R594): serial of its waveguide's source, and by base die, for the add side and the
drop side, the shift of the ring set, and the heater powers of the channel's ring and of the spare ring. -/
structure ChanCal where
  serial : Nat := 0
  tx : SMap (Option (Nat × Nat × Nat)) := []
  rx : SMap (Option (Nat × Nat × Nat)) := []
  deriving DecidableEq, Repr

/-- User calibration (R594): UOFS by domain, FF0 to FF3, and the records of the fibres and of the internal channels. -/
structure Ucal where
  uofs : SMap Nat := []
  ff : List Nat := []
  fibs : SMap (Option FibCal) := []
  chans : SMap ChanCal := []
  deriving DecidableEq, Repr

/-- One copy of a region that flash holds twice (R585): its generation number, and what it holds where its digest verifies. -/
structure FlashCopy (α : Type) where
  gen : Nat := 0
  val : Option α := none
  deriving DecidableEq, Repr

/-- Both copies of a region of flash (R585). -/
structure Copies (α : Type) where
  a : FlashCopy α := {}
  b : FlashCopy α := {}
  deriving DecidableEq, Repr

/-- Module flash and OTP contents (R585, R593, R604), fixed outside the model's commands except by BOOT_FLUPD and
BOOT_UCAL. -/
structure Flash where
  slot0 : List Byte := []
  slot1 : List Byte := []
  site : List Byte := []
  /-- user calibration (R594) -/
  ucal : Copies Ucal := {}
  cert : List Byte := []
  /-- boot count (R544) -/
  boots : Copies Nat := {}
  /-- CRC-64 of the output of each winnow kernel (R558) -/
  answers : SMap W64 := []
  deriving DecidableEq, Repr

/-- An image update that has been asked for and is not over (R589, R603): its end, the slot and image that it writes, if any, and the result
that it shows then. -/
structure Update where
  doneAt : Nat
  image : Option (Nat × List Byte)
  result : Nat
  deriving DecidableEq, Repr

/-- OTP storage and the boot ROM's constants (R587, R593, R604, R534). -/
structure Otp where
  word : W64 := 0
  custDigest : List Byte := []
  idPub : List Byte := []
  romVersion : W64 := 0
  rootKey : List Byte := []
  /-- PWR_VT words, by domain × 8 + point -/
  vt : SMap W64 := []
  /-- trim of a thermal sensor, in 1/8 degC, by sensor -/
  trims : SMap Int := []
  /-- bias of a ring's modulator, by 16 × fibre + ring -/
  bias : SMap Nat := []
  /-- default FF0 to FF3 -/
  ff : List Nat := []
  /-- factory heater curve of a ring, as pairs of heater power in uW and resonance in MHz, by 32 × fibre + 16 × side + ring (R469) -/
  curves : SMap (List (Nat × Nat)) := []
  /-- steppings of GLB_VERSION, in its bits: compute dies, base dies and photonic layer -/
  revs : Nat := 0
  deriving DecidableEq, Repr

/-- Boot progress (R581, R582), measurement and site key. -/
structure Boot where
  /-- BOOT_STAT.STAGE -/
  stage : Nat := 1
  stepAt : Nat := 0
  slot : Nat := 0
  meas : List Byte := []
  siteKey : Option (List Byte) := none
  flash : Flash := {}
  otp : Otp := {}
  /-- strap pins as the board drives them -/
  pins : BitVec 16 := 0
  /-- results of sweeps before firmware has loaded user calibration, which it stores then (R594): fibre, side, shift and powers -/
  swept : List (Nat × Bool × Nat × List Nat) := []
  /-- the measured items, in order, as firmware keeps them (R590) -/
  items : List (List Byte) := []
  /-- user calibration that is being written to flash, and when that ends (R594, R603) -/
  ucalNew : Option (Nat × Ucal) := none
  /-- image update that runs (R589, R603) -/
  update : Option Update := none
  deriving DecidableEq, Repr

/-- Fault handling in progress (R541): an MRST waits for its row, with its cause. -/
structure Flt where
  mrstCause : Option Nat := none
  /-- egress of tensor links and Ethernet stopped -/
  egressOff : Bool := false
  /-- the halter link has stopped sending -/
  halterOff : Bool := false
  /-- watchdog: last kick -/
  kickAt : Nat := 0
  deriving DecidableEq, Repr

/-- Module standby and the board-management bus (R596, R597), and the link frames that have come in whole on the halter link and been
acknowledged, oldest first (R264). -/
structure Stby where
  inStby : Bool := false
  /-- left standby: off the fabric until MRST -/
  left : Bool := false
  dynAddr : Option Nat := none
  /-- next private read: 8 B -/
  armed : Option W64 := none
  tap : TapIr := .bypass
  frames : List (List Byte) := []
  deriving DecidableEq, Repr

/-- A message from the module on the halter link (R261, R262, R264 to R267, R373, R539, R557, R591). -/
inductive HMsg where
  | regrd (code tag : Nat) (data : W64)
  | regwr (code tag : Nat)
  | ldrd (code tag len : Nat) (data : List Byte)
  | ldwr (code tag : Nat)
  | push (queue accepted code : Nat) (seq : Nat)
  | notify (queue status op tag : Nat) (halt : Bool) (slot time : Nat)
  | fault (cls unit info time : Nat)
  | change (result : Nat) (seq : W64)
  | teardown (stale : Bool)
  | attest (report sig : List Byte)
  | cert (bytes : List Byte)
  | reject (msg : Nat)
  deriving DecidableEq, Repr

/-- A frame that has left the module on the halter link (R264): part `part` of a message, when it was last sent, how often it was sent
again, and whether the other end has acknowledged it. -/
structure HFrame where
  msg : HMsg
  part : Nat
  sentAt : Nat
  resends : Nat
  acked : Bool
  deriving DecidableEq, Repr

/-! ### The module -/

/-- The whole state. -/
structure State where
  variant : Variant
  /-- the module timebase, in ns (R39) -/
  now : Nat
  /-- offset of each die's timebase copy, in ns (R39): base die b under b, compute die d under 16 + d -/
  skew : SMap Int
  /-- counter of free values consumed: the model's own (DESIGN CHOICE, safe, log entry 3) -/
  free : Nat
  /-- commands waiting, first in first out -/
  pending : List Instr
  /-- control registers that differ from their reset values, by control-space address -/
  csr : SMap W64
  cores : SMap Core
  mem : Mem
  que : Que
  win : Win
  fab : Fab
  col : Col
  pho : Pho
  dies : SMap DiePort
  pwr : Pwr
  roll : Roll
  wnw : SMap Wnw
  /-- winnow steps counted so far and job time in ns (R560) -/
  steps : Nat
  jobNs : Nat
  trace : SMap TraceUnit
  boot : Boot
  flt : Flt
  stby : Stby
  /-- frames that have left on the halter link, oldest first -/
  halter : List HFrame
  deriving DecidableEq, Repr

/-- The module right after power-on reset, with boot step 1 in progress (R579, R581): every register at its reset
value, memories with nothing listed, and the TRN-1216's resources (DESIGN CHOICE, unsafe, log entry 1). -/
def State.reset : State where
  variant := .trn1216
  now := 0
  skew := []
  free := 0
  pending := []
  csr := []
  cores := []
  mem := {}
  que := {}
  win := {}
  fab := {}
  col := {}
  pho := {}
  dies := []
  pwr := {}
  roll := {}
  wnw := []
  steps := 0
  jobNs := 0
  trace := []
  boot := {}
  flt := {}
  stby := {}
  halter := []

end Sys2Proof.Machine
end

