-- ==== Sys2Proof/Machine/SMap.lean ====
section
/-! DEFINITION. Sparse maps in canonical form: keys strictly rising, and no entry equal to what an unlisted key reads
as. Memory, registers and every numbered group of units of State is one. -/

namespace Sys2Proof.Machine

variable {α : Type}

/-- The value at key `k`, `d` where nothing is listed. -/
def SMap.get (m : SMap α) (d : α) (k : Nat) : α :=
  match m with
  | [] => d
  | (k', v) :: r => if k' = k then v else SMap.get r d k

/-- The map without key `k`. -/
def SMap.erase (m : SMap α) (k : Nat) : SMap α :=
  match m with
  | [] => []
  | (k', v) :: r => if k' = k then SMap.erase r k else (k', v) :: SMap.erase r k

/-- The map with `v` listed at key `k`, keys kept in order. -/
def SMap.ins (m : SMap α) (k : Nat) (v : α) : SMap α :=
  match m with
  | [] => [(k, v)]
  | (k', v') :: r =>
    if k < k' then (k, v) :: (k', v') :: r
    else if k = k' then (k, v) :: r
    else (k', v') :: SMap.ins r k v

/-- The map with key `k` at `v`, where an unlisted key reads as `d`. -/
def SMap.set [DecidableEq α] (m : SMap α) (d : α) (k : Nat) (v : α) : SMap α :=
  if v = d then SMap.erase m k else SMap.ins m k v

/-- Update of one key. -/
def SMap.upd [DecidableEq α] (m : SMap α) (d : α) (k : Nat) (f : α → α) : SMap α :=
  SMap.set m d k (f (SMap.get m d k))

/-- Is the key listed? -/
def SMap.has (m : SMap α) (k : Nat) : Bool := m.any (fun e => e.1 == k)

/-- The canonical form of a map whose unlisted key `k` reads as `d k`, if as anything: keys rising strictly, and no entry equal to
what its key reads as unlisted. -/
def SMap.wf [DecidableEq α] (m : SMap α) (d : Nat → Option α) : Bool :=
  match m with
  | [] => true
  | (k, v) :: r => decide (some v ≠ d k) && r.all (fun e => decide (k < e.1)) && SMap.wf r d

/-- Keep the entries a test accepts. -/
def SMap.keep (m : SMap α) (f : Nat → α → Bool) : SMap α := m.filter (fun e => f e.1 e.2)

/-- Rewrite every entry, dropping those that come to equal what an unlisted key reads as. -/
def SMap.mapDrop [DecidableEq α] (m : SMap α) (d : Nat → α) (f : Nat → α → α) : SMap α :=
  match m with
  | [] => []
  | (k, v) :: r =>
    let t := SMap.mapDrop r d f
    if f k v = d k then SMap.erase t k else (k, f k v) :: t

/-- `n` values from key `a` on, of a map whose keys are all at or above `a`. -/
def SMap.run (d : α) : Nat → SMap α → Nat → List α
  | 0, _, _ => []
  | n + 1, m, a =>
    match m with
    | [] => d :: SMap.run d n [] (a + 1)
    | (k, v) :: r => if k = a then v :: SMap.run d n r (a + 1) else d :: SMap.run d n ((k, v) :: r) (a + 1)

/-- The values at keys a to a + n − 1. -/
def SMap.range (m : SMap α) (d : α) (a n : Nat) : List α :=
  SMap.run d n (m.dropWhile (fun e => decide (e.1 < a))) a

/-- A list of values with consecutive keys from `a`. -/
def SMap.number (a : Nat) : List α → SMap α
  | [] => []
  | v :: r => (a, v) :: SMap.number (a + 1) r

/-- The map with the values at keys a, a + 1, … replaced; `d k` is what key `k` reads as unlisted, if anything. -/
def SMap.putRange [DecidableEq α] (m : SMap α) (d : Nat → Option α) (a : Nat) (vs : List α) : SMap α :=
  m.takeWhile (fun e => decide (e.1 < a)) ++ (SMap.number a vs).filter (fun e => decide (some e.2 ≠ d e.1)) ++
    m.dropWhile (fun e => decide (e.1 < a + vs.length))

/-- The entries in stretches of consecutive keys: first key, and values. -/
def SMap.runs : SMap α → List (Nat × List α)
  | [] => []
  | (k, v) :: r =>
    match SMap.runs r with
    | (a, l) :: t => if a = k + 1 then (k, v :: l) :: t else (k, [v]) :: (a, l) :: t
    | [] => [(k, [v])]

/-- The map without the keys a to a + n − 1. -/
def SMap.dropRange (m : SMap α) (a n : Nat) : SMap α :=
  m.filter (fun e => decide (e.1 < a) || decide (a + n ≤ e.1))

end Sys2Proof.Machine
end

