-- ==== Sys2Proof/Machine/Registers.lean ====
section
/-! DEFINITION. Control space (R17 to R22): where each register lies, its stored word, its fields, the generic effect of
a write by access code, and the effect of a reset kind. A register that is not listed in `State.csr` holds its reset
word. -/

namespace Sys2Proof.Machine

/-- Base address of unit `n` of a kind (R21, R33 and the chapters' base rules). -/
def UnitKind.base (k : UnitKind) (n : Nat) : Nat :=
  match k with
  | .glob => 0
  | .core => 0x100000000 + n / 16 * 0x1000000 + n % 16 * 0x80000
  | .bdie => 0x200000000 + n * 0x1000000
  | .mem => 0x200000000 + n / 4 * 0x1000000 + n % 4 * 0x40000
  | .bay => 0x200000000 + n / 4 * 0x1000000 + 0x100000 + n % 4 * 0x10000
  | .link => 0x200000000 + n / 4 * 0x1000000 + 0x400000 + n % 4 * 0x100
  | .eth => 0x200000000 + 2 * n * 0x1000000 + 0x408000
  | .dport => 0x200000000 + n / 3 * 0x1000000 + 0x500000 + n % 3 * 0x40000
  | .stage => 0x700200000 + n * 0x80
  | .winb => 0x300001000 + n * 0x100
  | .colb => 0x300200100 + n * 8
  | .src => 0x400000100 + n * 0x10
  | .dom => 0x500001000 + n * 0x20
  | .domvt => 0x500008000 + n * 0x40
  | .die => 0x500100100 + n * 8
  | .sens => 0x500101000 + n * 8
  | .obsc => 0x800001000 + n * 8
  | .obsb => 0x800002000 + n * 8

/-- How many units of a kind a variant has. -/
def UnitKind.count (v : Variant) (k : UnitKind) : Nat :=
  match k with
  | .glob => 1
  | .core => v.cores
  | .bdie => v.bdies
  | .mem => v.stacks
  | .bay => v.stacks
  | .link => v.links
  | .eth => v.ethPorts
  | .dport => v.cdies
  | .stage => 2 * v.cores
  | .winb => v.bdies
  | .colb => v.bdies
  | .src => v.sources
  | .dom => 236
  | .domvt => 236
  | .die => 16
  | .sens => 704
  | .obsc => v.cores
  | .obsb => v.bdies

/-- The unit of a kind whose block an address lies in. -/
def UnitKind.unitAt (k : UnitKind) (a : Nat) : Nat :=
  match k with
  | .glob => 0
  | .core => (a - 0x100000000) / 0x1000000 * 16 + (a - 0x100000000) % 0x1000000 / 0x80000
  | .bdie => (a - 0x200000000) / 0x1000000
  | .mem => (a - 0x200000000) / 0x1000000 * 4 + (a - 0x200000000) % 0x1000000 / 0x40000
  | .bay => (a - 0x200000000) / 0x1000000 * 4 + ((a - 0x200000000) % 0x1000000 - 0x100000) / 0x10000
  | .link => (a - 0x200000000) / 0x1000000 * 4 + ((a - 0x200000000) % 0x1000000 - 0x400000) / 0x100
  | .eth => (a - 0x200000000) / 0x2000000
  | .dport => (a - 0x200000000) / 0x1000000 * 3 + ((a - 0x200000000) % 0x1000000 - 0x500000) / 0x40000
  | .stage => (a - 0x700200000) / 0x80
  | .winb => (a - 0x300001000) / 0x100
  | .colb => (a - 0x300200100) / 8
  | .src => (a - 0x400000100) / 0x10
  | .dom => (a - 0x500001000) / 0x20
  | .domvt => (a - 0x500008000) / 0x40
  | .die => (a - 0x500100100) / 8
  | .sens => (a - 0x500101000) / 8
  | .obsc => (a - 0x800001000) / 8
  | .obsb => (a - 0x800002000) / 8

/-- The address of register `r` of unit `n`, at indexes `i` and `j`. -/
def Reg.addr (r : Reg) (n i j : Nat) : Nat :=
  r.place.unit.base n + r.place.off + i * r.place.si + j * r.place.sj

/-- A register with its unit and indexes. -/
structure RegAt where
  reg : Reg
  n : Nat
  i : Nat
  j : Nat
  deriving DecidableEq, Repr

/-- Does register `r` lie at address `a`? -/
def Reg.at? (v : Variant) (r : Reg) (a : Nat) : Option RegAt :=
  let p := r.place
  let n := p.unit.unitAt a
  let rel := a - (p.unit.base n + p.off)
  let i := if p.si = 0 then 0 else if p.ci = 1 then 0 else min (rel / p.si) (p.ci - 1)
  let j := if p.sj = 0 then 0 else min ((rel - i * p.si) / p.sj) (p.cj - 1)
  if n < p.unit.count v ∧ r.addr n i j = a then some ⟨r, n, i, j⟩ else none

/-- The register at an address; none where the address is unmapped (R22). -/
def regAt (v : Variant) (a : Nat) : Option RegAt := Reg.all.findSome? (fun r => r.at? v a)

/-- A field's value in a word. -/
def Fld.get (f : Fld) (w : W64) : Nat := bits w.toNat f.hi f.lo

/-- A word with a field replaced. -/
def Fld.put (f : Fld) (w : W64) (v : Nat) : W64 := w64 (setBits w.toNat f.hi f.lo v)

/-- The word of a register whose fields all stand at their reset values (R20). -/
def Reg.rst (r : Reg) : W64 := r.fields.foldl (fun w f => f.put w f.rst) 0

/-- The stored word of a register. -/
def State.reg (s : State) (r : Reg) (n i j : Nat) : W64 := s.csr.get r.rst (r.addr n i j)

/-- The state with a register's stored word replaced. -/
def State.setReg (s : State) (r : Reg) (n i j : Nat) (w : W64) : State :=
  { s with csr := s.csr.set r.rst (r.addr n i j) w }

/-- The value of a field of a register. -/
def State.rd (s : State) (f : Fld) (n : Nat := 0) (i : Nat := 0) (j : Nat := 0) : Nat :=
  f.get (s.reg f.reg n i j)

/-- Is a one-bit field 1? -/
def State.rdB (s : State) (f : Fld) (n : Nat := 0) (i : Nat := 0) (j : Nat := 0) : Bool :=
  s.rd f n i j == 1

/-- The state with a field replaced. -/
def State.wr (s : State) (f : Fld) (v : Nat) (n : Nat := 0) (i : Nat := 0) (j : Nat := 0) : State :=
  s.setReg f.reg n i j (f.put (s.reg f.reg n i j) v)

/-- Several fields of one register replaced. -/
def State.wrs (s : State) (r : Reg) (n i j : Nat) (fs : List (Fld × Nat)) : State :=
  s.setReg r n i j (fs.foldl (fun w e => e.1.put w e.2) (s.reg r n i j))

/-- Greatest value of a field. -/
def Fld.top (f : Fld) : Nat := 2 ^ (f.hi + 1 - f.lo) - 1

/-- A field that counts events and stops at its greatest value. -/
def State.incSat (s : State) (f : Fld) (k n : Nat) (i : Nat := 0) (j : Nat := 0) : State :=
  s.wr f (min f.top (s.rd f n i j + k)) n i j

/-- A field that counts events and wraps. -/
def State.incWrap (s : State) (f : Fld) (k n : Nat) (i : Nat := 0) (j : Nat := 0) : State :=
  s.wr f (s.rd f n i j + k) n i j

/-- A field that keeps its highest value. -/
def State.wrMax (s : State) (f : Fld) (v n : Nat) (i : Nat := 0) (j : Nat := 0) : State :=
  s.wr f (max (s.rd f n i j) v) n i j

/-- What a write of `w` makes of one field of the stored word (R18): RW takes the value, W1C clears where 1 is
written, every other code keeps the field (WO acts through its register's own rule). -/
def Fld.written (f : Fld) (old w : W64) : W64 :=
  match f.acc with
  | .rw => f.put old (f.get w)
  | .w1c => w64 (old.toNat - (old.toNat &&& (w.toNat &&& (f.top <<< f.lo))))
  | _ => old

/-- The generic effect of a write on a register's stored word (R18, R19). -/
def State.writeFields (s : State) (r : Reg) (n i j : Nat) (w : W64) : State :=
  s.setReg r n i j (r.fields.foldl (fun o f => f.written o w) (s.reg r n i j))

/-- A stored word after a reset of the kinds in mask `k` (R20): fields that list one of them return to their reset
values. -/
def Reg.afterReset (r : Reg) (k : Nat) (w : W64) : W64 :=
  r.fields.foldl (fun o f => if f.kinds &&& k ≠ 0 then f.put o f.rst else o) w

/-- Reset-kind masks (R20). -/
def kPOR : Nat := 1
/-- MRST. -/
def kMRST : Nat := 2
/-- DRST. -/
def kDRST : Nat := 4
/-- CRST. -/
def kCRST : Nat := 8
/-- Exit from core gate. -/
def kGate : Nat := 16
/-- Exit from fallow. -/
def kFallow : Nat := 32
/-- Exit from module standby. -/
def kStandby : Nat := 64

/-- Reset word of the register at an address; 0 where none is. -/
def csrDefault (a : Nat) : W64 :=
  match regAt .trn1216 a with
  | some r => r.reg.rst
  | none => 0

/-- A reset of the kinds in mask `k` over the registers whose place `scope` accepts (R20). -/
def State.resetRegs (s : State) (k : Nat) (scope : RegAt → Bool) : State :=
  { s with
    csr := s.csr.mapDrop csrDefault (fun a w =>
      match regAt .trn1216 a with
      | some r => if scope r then r.reg.afterReset k w else w
      | none => w) }

/-- Several fields of a word replaced. -/
def puts (w : W64) (l : List (Fld × Nat)) : W64 := l.foldl (fun w e => e.1.put w e.2) w

/-- Registers of core `c` (R21). -/
def scopeCore (c : Nat) (r : RegAt) : Bool :=
  match r.reg.place.unit with
  | .core => r.n == c
  | .obsc => r.n == c
  | _ => false

/-- Registers of compute die `d`: those of its cores, of its port and of its thermal and droop units. -/
def scopeDie (d : Nat) (r : RegAt) : Bool :=
  match r.reg.place.unit with
  | .core => r.n / 16 == d
  | .obsc => r.n / 16 == d
  | .dport => r.n == d
  | .die => r.n == d
  | .sens => r.n / 48 == d
  | _ => false

end Sys2Proof.Machine
end

