-- ==== Sys2Proof/Machine/Wire.lean ====
section
/-! DEFINITION. Bytes on the links: CRC-32C, and a packet's header and bytes (R405, R407). -/

namespace Sys2Proof

open Sys2Proof.Machine

/-! ### CRC-32C -/

/-- One bit of the CRC: the polynomial is 0x1EDC6F41, least significant bit first (PRESUMED, log entry 80). -/
def crc32cBit (c : Nat) : Nat := if c % 2 = 1 then (c / 2) ^^^ 0x82F63B78 else c / 2

/-- CRC-32C of a byte string, as R264, R405, R407 and R463 name it (PRESUMED: initial value and final inversion of all ones, log
entry 80). -/
def crc32c (d : List Byte) : Nat :=
  d.foldl (fun c b => (List.range 8).foldl (fun c _ => crc32cBit c) (c ^^^ b.toNat)) 0xFFFFFFFF ^^^ 0xFFFFFFFF

/-! ### Bit fields side by side -/

/-- Fields of given widths packed from bit 0 up. -/
def packFields : List (Nat × Nat) → Nat
  | [] => 0
  | (w, v) :: r => v % 2 ^ w + packFields r * 2 ^ w

/-- The values of fields of given widths, from bit 0 up. -/
def unpackFields : List Nat → Nat → List Nat
  | [], _ => []
  | w :: r, x => x % 2 ^ w :: unpackFields r (x / 2 ^ w)

/-! ### The packet (R405) -/

/-- Widths of the header's fields, from bit 0 of byte 0 up; E2ECRC, bytes 28 to 31, follows them. -/
def headerWidths : List Nat :=
  [4, 2, 1, 1, 4, 1, 1, 1, 1, 9, 7, 9, 7, 8, 2, 6, 10, 6, 16, 32, 32, 40, 24]

/-- The header's fields before E2ECRC, `hops` and `ce` standing for HOPS and CE. The reserved fields, 43 bits in all, are those of
`resv`. -/
def Packet.fields (p : Packet) (hops : Nat) (ce : Bool) : List Nat :=
  let r := unpackFields [1, 7, 7, 6, 6, 16] p.resv
  [p.typ, p.vc, b2n ce, b2n p.ece, hops, b2n p.comb, b2n p.det, b2n p.ord, nth r 0 0, p.dst, nth r 0 1, p.src, nth r 0 2, p.srcid,
    p.atype, nth r 0 3, p.len, nth r 0 4, nth r 0 5, p.epoch, p.seq, p.addr, p.aux]

/-- Bytes 0 to 27 of the header. -/
def Packet.head (p : Packet) (hops : Nat) (ce : Bool) : List Byte :=
  leBytes 28 (packFields (headerWidths.zip (p.fields hops ce)))

/-- E2ECRC: over header and payload, with HOPS and CE taken as 0 (R405). -/
def Packet.e2e (p : Packet) : Nat := crc32c (p.head 0 false ++ p.payload)

/-- Does the packet's end-to-end CRC hold (R353)? -/
def Packet.crcOk (p : Packet) : Bool := p.crc == p.e2e

/-- The packet with its end-to-end CRC. -/
def Packet.sealed (p : Packet) : Packet := { p with crc := p.e2e }

/-- The packet's bytes: a header of 32 B and the payload. -/
def Packet.bytes (p : Packet) : List Byte := p.head p.hops p.ce ++ leBytes 4 p.crc ++ p.payload

/-- The packet that a string of bytes spells. -/
def packetOf (d : List Byte) : Packet :=
  let f := nth (unpackFields headerWidths (ofLe (d.take 28))) 0
  let r := packFields [(1, f 8), (7, f 10), (7, f 12), (6, f 15), (6, f 17), (16, f 18)]
  ⟨f 0, f 1, f 2 == 1, f 3 == 1, f 4, f 5 == 1, f 6 == 1, f 7 == 1, f 9, f 11, f 13, f 14, f 16, f 19, f 20, f 21, f 22, r,
    d.drop 32, ofLe ((d.drop 28).take 4), false⟩

/-- A packet on a hop: its bytes and the per-hop CRC-32C over them (R407). -/
def Packet.onHop (p : Packet) : List Byte := p.bytes ++ leBytes 4 (crc32c p.bytes)

/-- Does the per-hop CRC at the end of the bytes hold? -/
def hopOk (d : List Byte) : Bool := decide (36 ≤ d.length) && ofLe (d.drop (d.length - 4)) == crc32c (d.take (d.length - 4))

end Sys2Proof
end

