-- ==== Sys2Proof/Machine/Ops.lean ====
section
/-! DEFINITION. Named operations shared by the commands: access to the units, free values, what leaves on the halter
link, trace records, performance counters, correctable and uncorrectable errors. -/

namespace Sys2Proof.Machine

/-! ### Units -/

/-- Core `c`. -/
def State.core (s : State) (c : Nat) : Core := s.cores.get {} c
/-- The state with core `c` replaced. -/
def State.setCore (s : State) (c : Nat) (k : Core) : State := { s with cores := s.cores.set {} c k }
/-- The state with core `c` changed by `f`. -/
def State.modCore (s : State) (c : Nat) (f : Core → Core) : State := s.setCore c (f (s.core c))

/-- Scalar processor `p` of a core. -/
def Core.sp (k : Core) (p : Nat) : Sp := if p = 0 then k.sp0 else k.sp1
/-- The core with a scalar processor replaced. -/
def Core.setSp (k : Core) (p : Nat) (x : Sp) : Core := if p = 0 then { k with sp0 := x } else { k with sp1 := x }
/-- Scalar processor `p` of core `c`. -/
def State.sp (s : State) (c p : Nat) : Sp := (s.core c).sp p
/-- The state with a scalar processor changed by `f`. -/
def State.modSp (s : State) (c p : Nat) (f : Sp → Sp) : State :=
  s.modCore c (fun k => k.setSp p (f (k.sp p)))

/-- Array `a` of a core. -/
def Core.arr (k : Core) (a : Nat) : Arr :=
  match a with
  | 0 => k.arr0 | 1 => k.arr1 | 2 => k.arr2 | _ => k.arr3
/-- The core with an array replaced. -/
def Core.setArr (k : Core) (a : Nat) (x : Arr) : Core :=
  match a with
  | 0 => { k with arr0 := x } | 1 => { k with arr1 := x } | 2 => { k with arr2 := x } | _ => { k with arr3 := x }
/-- Array `a` of core `c`. -/
def State.arr (s : State) (c a : Nat) : Arr := (s.core c).arr a
/-- The state with an array changed by `f`. -/
def State.modArr (s : State) (c a : Nat) (f : Arr → Arr) : State :=
  s.modCore c (fun k => k.setArr a (f (k.arr a)))

/-- The gleaner of core `c`, changed by `f`. -/
def State.modGln (s : State) (c : Nat) (f : Gln → Gln) : State :=
  s.modCore c (fun k => { k with gln := f k.gln })
/-- The stook of core `c`, changed by `f`. -/
def State.modStook (s : State) (c : Nat) (f : Stook → Stook) : State :=
  s.modCore c (fun k => { k with stook := f k.stook })

/-- Queue `q`. -/
def State.queue (s : State) (q : Nat) : Queue := s.que.qs.get {} q
/-- The state with queue `q` changed by `f`. -/
def State.modQueue (s : State) (q : Nat) (f : Queue → Queue) : State :=
  { s with que := { s.que with qs := s.que.qs.upd {} q f } }

/-- Stack `t`. -/
def State.stack (s : State) (t : Nat) : Stack := s.mem.stks.get {} t
/-- The state with stack `t` changed by `f`. -/
def State.modStack (s : State) (t : Nat) (f : Stack → Stack) : State :=
  { s with mem := { s.mem with stks := s.mem.stks.upd {} t f } }

/-- Does compute site `d` hold a die that completed capability exchange (R34)? -/
def State.diePresent (s : State) (d : Nat) : Bool := bitB (s.rd GLB_DIEMAP.PRESENT) d
/-- Is the die at site `d` a guest (R34)? -/
def State.dieGuest (s : State) (d : Nat) : Bool := bitB (s.rd GLB_DIEMAP.GUEST) d
/-- Is die `d` released and running (R34)? -/
def State.dieReleased (s : State) (d : Nat) : Bool := bitB (s.rd GLB_DIEMAP.RELEASED) d
/-- Is core `c` in core gate (R595)? -/
def State.gated (s : State) (c : Nat) : Bool := s.rdB PWR_DOM_LP.GATE c
/-- Is die `d` in fallow (R595)? -/
def State.fallow (s : State) (d : Nat) : Bool := s.rdB PWR_DOM_LP.FALLOW (192 + d)
/-- Winnow state of core `c` changed by `f`. -/
def State.modWnw (s : State) (c : Nat) (f : Wnw → Wnw) : State := { s with wnw := s.wnw.upd {} c f }
/-- Work leaves core `c`: a core free from now on has been so since now (R560). -/
def State.touched (s : State) (c : Nat) : State := s.modWnw c (fun w => { w with freeSince := s.now })
/-- Sets or clears bit `d` of a bit-map field. -/
def State.wrBit (s : State) (f : Fld) (d : Nat) (b : Bool) (n : Nat := 0) (i : Nat := 0) : State :=
  s.wr f (setBits (s.rd f n i) d d (b2n b)) n i

/-- Is the island of core `c` gated or held in reset, so that it accepts no transfer (R38)? -/
def State.coreShut (s : State) (c : Nat) : Bool := s.gated c || s.fallow (c / 16) || !s.dieReleased (c / 16)

/-- Do the module's clocks run: it has power, and no thermal trip has stopped them (R511, R524)? -/
def State.alive (s : State) : Bool := s.pwr.up && !s.pwr.stopped

/-- Has the boot reached READY? -/
def State.isReady (s : State) : Bool := s.boot.stage == 12

/-- Does the module work: the boot has reached READY, its clocks run and it is not in standby (R524, R582, R596)? -/
def State.live (s : State) : Bool := s.isReady && s.alive && !s.stby.inStby

/-- A write of a control register by the control node or by supervisor code. Before READY it is refused (R583), and in a stopped module
or in standby nobody can make one. -/
def State.onWrite (s : State) (f : State → State) : State := if s.live then f s else s

/-- A write of a register of core `c`. One whose island accepts no transfer is held in front of it, and its row comes again once the
island accepts it (R38; DESIGN CHOICE, safe, log entry 103). -/
def State.onCoreWrite (s : State) (c : Nat) (f : State → State) : State := if s.live && !s.coreShut c then f s else s

/-- Is core `c` fenced by winnow (R562)? -/
def State.coreFenced (s : State) (c : Nat) : Bool := bitB (s.rd WNW_FENCE.CORES 0 (c / 64)) (c % 64)

/-- The module epoch (R544). -/
def State.epoch (s : State) : Nat := s.rd GLB_EPOCH.EPOCH

/-- Bits [41:10] of the timebase, as notifications and logs keep it. -/
def State.time32 (s : State) : Nat := bits s.now 41 10

/-! ### Free values -/

/-- A free 64-bit value, and the state with it consumed. -/
def State.free64 (s : State) : W64 × State := (Config.freeWord s.free, { s with free := s.free + 1 })

/-- `n` free 64-bit values, and the state with them consumed. -/
def State.freeWords (s : State) : Nat → List W64 × State
  | 0 => ([], s)
  | n + 1 => let (l, t) := State.freeWords { s with free := s.free + 1 } n; (Config.freeWord s.free :: l, t)

/-- `n` free bytes, and the state with them consumed. -/
def State.freeBytes (s : State) (n : Nat) : List Byte × State :=
  (((List.range (ceilDiv n 8)).map (fun i => leBytes 8 (Config.freeWord (s.free + i)).toNat)).flatten.take n,
    { s with free := s.free + ceilDiv n 8 })

/-- A free choice, and the state with it consumed. -/
def State.freeBit (s : State) : Bool × State := (Config.freeBool s.free, { s with free := s.free + 1 })

/-! ### The timebase (R39) -/

/-- How far a timebase copy stands off the master count: no copy by more than 5 ns, so that no two readings differ by more than 10 ns
(R39). Base die b is die b here, compute die d is die 16 + d. -/
def State.offBy (s : State) (k : Nat) : Int := clampI (-5) 5 (s.skew.get 0 k)

/-- The timebase as die `k` reads it. -/
def State.timeAt (s : State) (k : Nat) : Nat := wrapN 64 ((s.now : Int) + s.offBy k)

/-- The die of a core, as `timeAt` numbers dies. -/
def coreTime (c : Nat) : Nat := 16 + c / 16

/-- The die of a trace unit. -/
def unitTime (u : Nat) : Nat := if u < 256 then coreTime u else u - 256

/-! ### Trace (R564, R566) -/

/-- Records a trace unit holds: 1,024 in a core, 4,096 in a base die (R566). -/
def traceRoom (u : Nat) : Nat := if u < 256 then 1024 else 4096

/-- A trace record enters a unit's buffer, or is dropped and counted where the buffer is full (R564, R566). Unit `u` is
core n, or 0x100 + b for base die b. -/
def State.traceAdd (s : State) (u typ sub : Nat) (payload : W64) : State :=
  let t := s.trace.get {} u
  if t.buf.length < traceRoom u then
    let rec0 : W64 := w64 (typ % 256 + (sub % 256) <<< 8 + (bits (s.timeAt (unitTime u)) 47 0) <<< 16)
    let t' : TraceUnit := { t with
      buf := t.buf ++ [(rec0, payload)]
      oldest := if t.buf.isEmpty then s.now else t.oldest }
    { s with trace := s.trace.set {} u t' }
  else
    State.incWrap { s with trace := s.trace.set {} u { t with dropped := t.dropped + 1 } } OBS_STAT.LOST 1 0

/-! ### Regions that flash holds twice (R585) -/

/-- What a region holds: the copy of the higher generation among those whose digest verifies. -/
def Copies.read {α : Type} (x : Copies α) : Option α :=
  match x.a.val, x.b.val with
  | some u, some v => some (if x.b.gen ≤ x.a.gen then u else v)
  | some u, none => some u
  | none, v => v

/-- A write of a region replaces the older copy, and never the one that is read (DEDUCED, unsafe, log entry 97). -/
def Copies.write {α : Type} (x : Copies α) (v : α) : Copies α :=
  match x.a.val, x.b.val with
  | some _, some _ => if x.b.gen ≤ x.a.gen then { x with b := ⟨x.a.gen + 1, some v⟩ } else { x with a := ⟨x.b.gen + 1, some v⟩ }
  | some _, none => { x with b := ⟨x.a.gen + 1, some v⟩ }
  | none, some _ => { x with a := ⟨x.b.gen + 1, some v⟩ }
  | none, none => { x with a := ⟨1, some v⟩ }

/-- User calibration in force: that of flash (R594). -/
def Flash.userCal (f : Flash) : Option Ucal := f.ucal.read

/-- User calibration as firmware knows it: what it is writing, or what flash holds. -/
def State.userCal (s : State) : Option Ucal :=
  match s.boot.ucalNew with
  | some e => some e.2
  | none => s.boot.flash.userCal

/-- BUSY shows whether flash is being written (R603). -/
def State.showBusy (s : State) : State :=
  s.wr BOOT_UCAL.BUSY (b2n (s.boot.ucalNew.isSome || (match s.boot.update with
    | some u => u.image.isSome
    | none => false)))

/-- The write of user calibration ends: flash holds the new copy. -/
def State.ucalEnd (s : State) : State :=
  match s.boot.ucalNew with
  | none => s
  | some e =>
    State.showBusy { s with boot := { s.boot with ucalNew := none, flash := { s.boot.flash with ucal := s.boot.flash.ucal.write e.2 } } }

/-- Firmware begins to write user calibration; a write that still runs ends first. How long one takes is free (DESIGN CHOICE, safe, log
entry 97). -/
def State.putUcal (s : State) (u : Ucal) : State :=
  let (w, s) := s.ucalEnd.free64
  State.showBusy { s with boot := { s.boot with ucalNew := some (s.now + 1 + w.toNat, u) } }

/-- An image update ends (R589): its slot holds the image, and RESULT shows how it went. -/
def State.updateEnd (s : State) : State :=
  match s.boot.update with
  | none => s
  | some u =>
    let f := match u.image with
      | some (0, d) => { s.boot.flash with slot0 := d }
      | some (_, d) => { s.boot.flash with slot1 := d }
      | none => s.boot.flash
    (State.showBusy { s with boot := { s.boot with update := none, flash := f } }).wr BOOT_FLUPD.RESULT u.result

/-- An image update begins, which reads RESULT 0 until it ends; one that still runs ends first. How long it takes is free (DESIGN CHOICE,
safe, log entry 97). -/
def State.updateStart (s : State) (image : Option (Nat × List Byte)) (result : Nat) : State :=
  let (w, s) := s.updateEnd.free64
  (State.showBusy { s with boot := { s.boot with update := some ⟨s.now + 1 + w.toNat, image, result⟩ } }).wr BOOT_FLUPD.RESULT 0

/-- Writes of flash that are over by now end. -/
def State.flashTick (s : State) : State :=
  let s := match s.boot.ucalNew with
    | some e => if e.1 ≤ s.now then s.ucalEnd else s
    | none => s
  match s.boot.update with
  | some u => if u.doneAt ≤ s.now then s.updateEnd else s
  | none => s

/-- Boots counted so far; none where no copy verifies. -/
def Flash.bootCount (f : Flash) : Nat := f.boots.read.getD 0

/-! ### The halter link -/

/-- Bytes that hold bit fields, each given by its low bit and its value. -/
def fieldBytes (n : Nat) (l : List (Nat × Nat)) : List Byte := leBytes n ((l.map (fun e => e.2 * 2 ^ e.1)).sum)

/-- The bytes of a message (R261, R262, R264 to R267, R539, R557, R591). The rules give no place to what 0xB0 carries, nor a header to
0xD1 (DESIGN CHOICE, unsafe, log entry 84). -/
def HMsg.bytes (m : HMsg) : List Byte :=
  match m with
  | .regrd code tag data => fieldBytes 16 [(0, 0x81), (8, code % 8), (16, tag % 65536), (64, data.toNat)]
  | .regwr code tag => fieldBytes 8 [(0, 0x82), (8, code % 8), (16, tag % 65536)]
  | .ldrd code tag len data => fieldBytes 16 [(0, 0x83), (8, code % 8), (16, tag % 65536), (32, len % 8192)] ++ data
  | .ldwr code tag => fieldBytes 8 [(0, 0x84), (8, code % 8), (16, tag % 65536)]
  | .push queue accepted code seq =>
    fieldBytes 8 [(0, 0xA1), (8, queue % 64), (16, accepted % 32), (21, code % 8), (32, seq % 2 ^ 32)]
  | .notify queue status op tag halt slot time =>
    fieldBytes 16 [(0, 0x22), (8, queue % 64), (16, status % 256), (24, op % 256), (32, tag % 65536), (48, b2n halt),
      (64, slot % 65536), (80, time % 2 ^ 48)]
  | .fault cls unit info time => fieldBytes 16 [(0, 0x23), (8, cls % 256), (16, unit % 2 ^ 24), (64, info % 2 ^ 32), (96, time % 2 ^ 32)]
  | .change result seq => fieldBytes 16 [(0, 0xB0), (8, result % 256), (64, seq.toNat)]
  | .teardown stale => fieldBytes 16 [(0, 0xC0), (8, b2n stale)]
  | .attest report sig => fieldBytes 16 [(0, 0xD0)] ++ report ++ sig
  | .cert d => fieldBytes 16 [(0, 0xD1)] ++ d
  | .reject msg => fieldBytes 8 [(0, 0xFF), (8, msg % 256)]

/-- Bytes of a message that a link frame carries at most (R264). -/
def frameSize : Nat := 1024

/-- The frames of a message as they are first sent. -/
def HMsg.sent (m : HMsg) (now : Nat) : List HFrame :=
  (List.range (max 1 (ceilDiv m.bytes.length frameSize))).map (fun k => ⟨m, k, now, 0, false⟩)

/-- A frame's bytes on the link: its part of the message, and the CRC-32C over it (R264). -/
def HFrame.bytes (x : HFrame) : List Byte :=
  let d := (x.msg.bytes.drop (frameSize * x.part)).take frameSize
  d ++ leBytes 4 (crc32c d)

/-- Is the halter link up: its fibre is tuned on both sides and works (R471)? -/
def State.halterUp (s : State) : Bool := s.rd PHO_FIB_STAT.ROLE 0 128 == 1

/-- A message leaves on the halter link, unless the link has stopped sending (R541, R524), is dark (R596) or is not up (R471). -/
def State.say (s : State) (m : HMsg) : State :=
  if s.flt.halterOff || !s.pwr.up || s.stby.inStby || !s.halterUp then s else { s with halter := s.halter ++ m.sent s.now }

/-- A fault notification of class `cls` with details register `r`, which reads as `w` (R539), and its trace record (R564). -/
def State.noteWith (s : State) (cls : Nat) (r : Reg) (w : W64) (n i : Nat) : State :=
  let info := bits w.toNat 31 0
  let unit := bits (r.addr n i 0) 39 16
  let s' := if s.rdB FLT_CFG.NOTIFY then s.say (.fault cls unit info s.time32) else s
  if s.rdB OBS_BASE.EN && s.rdB OBS_BASE.EVT then s'.traceAdd 256 7 cls (w64 (info + unit <<< 32)) else s'

/-- The same where the details register reads as it is stored. -/
def State.faultNote (s : State) (cls : Nat) (r : Reg) (n : Nat := 0) (i : Nat := 0) : State := s.noteWith cls r (s.reg r n i 0) n i

/-! ### Performance counters (R181 to R185) -/

/-- Does counter `n` of core `c` count event `ev` of scalar processor `p` (`none`: no scalar processor)? -/
def State.counts (s : State) (c ev : Nat) (p : Option Nat) (n : Nat) : Bool :=
  s.rdB CNT_SEL.EN c n && s.rd CNT_SEL.EVENT c n == ev &&
    (match p with | none => true | some q => bitB (s.rd CNT_SEL.SPMASK c n) q)

/-- Adds `k` to counter `n` of core `c`, noting a wrap. -/
def State.cntAdd (s : State) (c k n : Nat) : State :=
  let v := s.rd CNT_VAL.VALUE c n + k
  let s := s.wr CNT_VAL.VALUE v c n
  if v < 2 ^ 64 then s else s.wr CNT_SEL.OVF 1 c n

/-- `k` events `ev` occur in core `c`. -/
def State.count (s : State) (c ev : Nat) (p : Option Nat) (k : Nat) : State :=
  if s.rdB CNT_CTL.EN c && k != 0 then
    (List.range 64).foldl (fun s n => if s.counts c ev p n then s.cntAdd c k n else s) s
  else s

/-! ### Correctable errors (R302, R310, R540) -/

/-- The registers of a memory block that count correctable errors. -/
structure EccRegs where
  cnt : Fld
  thr : Fld
  hit : Fld
  irq : Fld
  n : Nat
  i : Nat
  deriving DecidableEq, Repr

/-- Counts one correctable error in a block, and raises the correctable-error interrupt where THR_HIT rises (R540). -/
def State.ceCount (s : State) (e : EccRegs) : State :=
  let s := s.incSat e.cnt 1 e.n e.i
  let t := s.rd e.thr e.n e.i
  if t = 0 ∨ s.rd e.cnt e.n e.i < t ∨ s.rdB e.hit e.n e.i then s
  else
    let s := s.wr e.hit 1 e.n e.i
    if s.rdB e.irq e.n e.i then s.faultNote 1 e.cnt.reg e.n e.i else s

/-- Who reads a word, for the error logs. -/
inductive Agent where
  | scalar | vector | gleaner | array | stook | mover | copy | coll | walker | arrival | queue | evict | loader | pass
  /-- an Ethernet port or a guest die, for which the logs have no code -/
  | outside
  deriving DecidableEq, Repr

/-- AGENT of SPAD_ECCLOG (R319). -/
def Agent.spad (a : Agent) : Nat :=
  match a with
  | .scalar => 0 | .vector => 1 | .gleaner => 2 | .array => 3 | .pass => 3 | .stook => 4 | .mover => 5 | _ => 6

/-- AGENT of ACC_ECCLOG (R136). -/
def Agent.acc (a : Agent) : Nat :=
  match a with
  | .pass => 0 | .copy => 2 | .stook => 3 | _ => 1

/-- AGENT of MEM_ECCLOG, BAY_ECCLOG and LOFT_ECCLOG (R311). -/
def Agent.shared (a : Agent) : Nat :=
  match a with
  | .scalar => 0 | .vector => 0 | .mover => 0 | .gleaner => 1 | .copy => 2 | .coll => 3 | .walker => 4 | .arrival => 5
  | .queue => 6 | .array => 7 | .pass => 7 | .stook => 7 | .evict => 8 | .loader => 9 | .outside => 10

/-- The code that a log takes for a reader; for a reader that R311 does not name a free one of the codes that are recorded, 0 to 9
(DESIGN CHOICE, safe, log entry 3). -/
def State.agentCode (s : State) (g : Agent) : Nat × State :=
  if g = .outside then ((Config.freeWord s.free).toNat % 10, { s with free := s.free + 1 }) else (g.shared, s)

/-- Count `k` of a register of eight 8-bit counters, by the field for each place. -/
def bankFld (l : List Fld) (d : Fld) (k : Nat) : Fld := nth l d k

/-- A correctable error in scratchpad word `a` of core `c` (R302, R318 to R320). -/
def State.ceSpad (s : State) (c a syn : Nat) (g : Agent) : State :=
  let b := bits a 11 7
  let s := s.incSat (bankFld [SPAD_BANKCNT.COUNT0, SPAD_BANKCNT.COUNT1, SPAD_BANKCNT.COUNT2, SPAD_BANKCNT.COUNT3,
    SPAD_BANKCNT.COUNT4, SPAD_BANKCNT.COUNT5, SPAD_BANKCNT.COUNT6, SPAD_BANKCNT.COUNT7] SPAD_BANKCNT.COUNT0 (b % 8))
    1 c (b / 8)
  let s := if s.rdB SPAD_ECCLOG.VALID c then s else s.wrs .SPAD_ECCLOG c 0 0 [(SPAD_ECCLOG.VALID, 1),
    (SPAD_ECCLOG.SYNDROME, syn), (SPAD_ECCLOG.BANK, b), (SPAD_ECCLOG.AGENT, g.spad), (SPAD_ECCLOG.ADDR, bits a 22 3)]
  s.ceCount ⟨SPAD_ECC.CE_COUNT, SPAD_ECC.THRESH, SPAD_ECC.THR_HIT, SPAD_ECC.IRQ_EN, c, 0⟩

/-- A correctable error in accumulator word `w` (index within the core) of core `c` (R130, R135, R136). -/
def State.ceAcc (s : State) (c w syn : Nat) (g : Agent) : State :=
  let a := w / 0x40000
  let s := s.wr ACC_CORE_STAT.CORR 1 c
  let s := if s.rdB ACC_ECCLOG.VALID c a then s else s.wrs .ACC_ECCLOG c a 0 [(ACC_ECCLOG.VALID, 1),
    (ACC_ECCLOG.GROUP, w / 0x10000), (ACC_ECCLOG.ROW, w / 256), (ACC_ECCLOG.COL, w), (ACC_ECCLOG.SYNDROME, syn),
    (ACC_ECCLOG.AGENT, g.acc)]
  s.ceCount ⟨ACC_ECC.CE_COUNT, ACC_ECC.THRESH, ACC_ECC.THR_HIT, ACC_ECC.IRQ_EN, c, a⟩

/-- A correctable error in L-space word `a` (R302, R310 to R312). -/
def State.ceLoft (s : State) (a syn : Nat) (g : Agent) : State :=
  let b := a / 0x8000000
  let k := bits a 13 8
  let s := s.incSat (bankFld [LOFT_BANKCNT.COUNT0, LOFT_BANKCNT.COUNT1, LOFT_BANKCNT.COUNT2, LOFT_BANKCNT.COUNT3,
    LOFT_BANKCNT.COUNT4, LOFT_BANKCNT.COUNT5, LOFT_BANKCNT.COUNT6, LOFT_BANKCNT.COUNT7] LOFT_BANKCNT.COUNT0 (k % 8))
    1 b (k / 8)
  let (ag, s) := s.agentCode g
  let s := if s.rdB LOFT_ECCLOG.VALID b then s else s.wrs .LOFT_ECCLOG b 0 0 [(LOFT_ECCLOG.VALID, 1),
    (LOFT_ECCLOG.SYNDROME, syn), (LOFT_ECCLOG.BANK, k), (LOFT_ECCLOG.AGENT, ag), (LOFT_ECCLOG.ADDR, a / 8)]
  s.ceCount ⟨LOFT_ECC.CE_COUNT, LOFT_ECC.THRESH, LOFT_ECC.THR_HIT, LOFT_ECC.IRQ_EN, b, 0⟩

/-- A correctable error in HBM word `a` (R302, R310 to R312). -/
def State.ceHbm (s : State) (a syn : Nat) (g : Agent) : State :=
  let t := a / 0x1000000000
  let k := bits a 13 9
  let s := s.incSat (bankFld [MEM_CHCNT.COUNT0, MEM_CHCNT.COUNT1, MEM_CHCNT.COUNT2, MEM_CHCNT.COUNT3,
    MEM_CHCNT.COUNT4, MEM_CHCNT.COUNT5, MEM_CHCNT.COUNT6, MEM_CHCNT.COUNT7] MEM_CHCNT.COUNT0 (k % 8)) 1 t (k / 8)
  let (ag, s) := s.agentCode g
  let s := if s.rdB MEM_ECCLOG.VALID t then s else s.wrs .MEM_ECCLOG t 0 0 [(MEM_ECCLOG.VALID, 1),
    (MEM_ECCLOG.SYNDROME, syn), (MEM_ECCLOG.BANK, k), (MEM_ECCLOG.AGENT, ag), (MEM_ECCLOG.ADDR, a / 8)]
  s.ceCount ⟨MEM_ECC.CE_COUNT, MEM_ECC.THRESH, MEM_ECC.THR_HIT, MEM_ECC.IRQ_EN, t, 0⟩

/-- A correctable error in bay-cache word `a` (R302, R310, R311). Which way holds the line is a free value (log
entry 3). -/
def State.ceBay (s : State) (a syn : Nat) (g : Agent) : State :=
  let t := a / 0x1000000000
  let (w, s) := s.free64
  let (ag, s) := s.agentCode g
  let s := if s.rdB BAY_ECCLOG.VALID t then s else s.wrs .BAY_ECCLOG t 0 0 [(BAY_ECCLOG.VALID, 1),
    (BAY_ECCLOG.SYNDROME, syn), (BAY_ECCLOG.BANK, w.toNat % 16), (BAY_ECCLOG.AGENT, ag),
    (BAY_ECCLOG.ADDR, a / 8)]
  s.ceCount ⟨BAY_ECC.CE_COUNT, BAY_ECC.THRESH, BAY_ECC.THR_HIT, BAY_ECC.IRQ_EN, t, 0⟩

/-! ### Uncorrectable errors and module reset (R541 to R543) -/

/-- The fault record: filled while VALID is 0, otherwise OVF (R542, R570). -/
def State.fltRecord (s : State) (cause agent block syn unit addr : Nat) : State :=
  if s.rdB FLT_REC0.VALID then s.wr FLT_REC0.OVF 1
  else
    let s := s.wrs .FLT_REC0 0 0 0 [(FLT_REC0.VALID, 1), (FLT_REC0.CAUSE, cause), (FLT_REC0.AGENT, agent),
      (FLT_REC0.BLOCK, block), (FLT_REC0.SYNDROME, syn), (FLT_REC0.UNIT, unit), (FLT_REC0.BOOT, bits s.epoch 63 40)]
    s.wr FLT_REC1.ADDR addr

/-- The module is due an MRST of this cause, and the record is written (R541). -/
def State.mrstDue (s : State) (cause agent block syn unit addr : Nat) : State :=
  let s := s.fltRecord cause agent block syn unit addr
  { s with flt := { s.flt with mrstCause := some cause } }

/-- An uncorrectable error, or a die-link flit that still fails (cause 2): egress stops, the record is written, the UE notification
leaves, and then the halter link is silent (R303, R493, R541). -/
def State.ueCause (s : State) (cause agent block syn unit addr : Nat) : State :=
  let s := s.mrstDue cause agent block syn unit addr
  let s := s.faultNote 2 .FLT_REC0
  { s with flt := { s.flt with halterOff := true, egressOff := true } }

/-- An uncorrectable error in a memory. -/
def State.ueFound (s : State) (agent block syn unit addr : Nat) : State := s.ueCause 1 agent block syn unit addr

end Sys2Proof.Machine
end

