-- ==== Sys2Proof/Machine/Memory.lean ====
section
/-! DEFINITION. The three memory spaces (R281 to R286), the bay cache (R289 to R295), and what an access does to check
bits and counters (R298, R299, R302, R303). Every agent reads and writes memory through these operations. -/

namespace Sys2Proof.Machine

/-- What a read delivers: the bytes, whether a correctable error was corrected in them, whether an uncorrectable error
was met (then nothing is delivered, R541), and the state after. -/
structure Rd where
  data : List Byte
  corr : Bool
  ue : Bool
  st : State

/-- A read that met no error. -/
def Rd.ok (d : List Byte) (s : State) : Rd := ⟨d, false, false, s⟩

/-- Reads one after the other, their bytes joined. -/
def foldRd (f : State → Nat → Rd) : List Nat → State → Rd
  | [], s => .ok [] s
  | k :: r, s =>
    let a := f s k
    let b := foldRd f r a.st
    ⟨a.data ++ b.data, a.corr || b.corr, a.ue || b.ue, b.st⟩

/-! ### S-space -/

/-- First address of the accumulator range (R124). -/
def accBase : Nat := 0x800000
/-- First address past S-space (R282). -/
def sEnd : Nat := 0xC00000

/-- Does array `a` of core `c` belong to the stook (R92)? -/
def State.owned (s : State) (c a : Nat) : Bool := bitB (s.rd STOOK_CTL.ARRAYS c) a

/-- Fault marks of `m` in [a, a + n): address and syndrome. -/
def marksIn (m : SMap Nat) (a n : Nat) : List (Nat × Nat) :=
  (m.filter (fun e => decide (a ≤ e.1) && decide (e.1 < a + n))).map (fun e => (e.1, e.2 - 1))

/-- Fault marks of the 8 B words that hold bytes of [a, a + n), the words' marks lying `base` further on. -/
def wordMarks (m : SMap Nat) (base a n : Nat) : List (Nat × Nat) :=
  if n = 0 then [] else marksIn m (base + a / 8 * 8) (a + n - a / 8 * 8)

/-- A read of scratchpad bytes by agent `g`. -/
def State.spadRead (s : State) (c a n : Nat) (g : Agent) : Rd :=
  let k := s.core c
  let ms := wordMarks k.faults 0 a n
  ⟨SMap.range k.spad 0 a n, !ms.isEmpty, false, ms.foldl (fun s m => s.ceSpad c m.1 m.2 g) s⟩

/-- A write of scratchpad bytes. -/
def State.spadWrite (s : State) (c a : Nat) (d : List Byte) : State :=
  s.modCore c (fun k => { k with
    spad := SMap.putRange k.spad (fun _ => some 0) a d
    faults := k.faults.dropRange (a / 8 * 8) (if d.isEmpty then 0 else ceilDiv (a + d.length) 8 * 8 - a / 8 * 8) })

/-- Are the accumulator words of index `w` out of agent `g`'s reach, their array being the stook's (R128)? -/
def State.accBarred (s : State) (c w : Nat) (g : Agent) : Bool :=
  s.owned c (w / 0x40000) && g != .stook && g != .pass

/-- A read of `n` accumulator words from index `w` (R124, R128, R130). -/
def State.accRead (s : State) (c w n : Nat) (g : Agent) : Rd :=
  let k := s.core c
  let vs := (SMap.number w (k.acc.range 0 w n)).map (fun e => if s.accBarred c e.1 g then 0 else e.2)
  let barred := (List.range n).any (fun i => s.accBarred c (w + i) g)
  let ms := (marksIn k.faults (accBase + 4 * w) (4 * n)).filter
    (fun m => !s.accBarred c ((m.1 - accBase) / 4) g)
  let s := ms.foldl (fun s m => s.ceAcc c ((m.1 - accBase) / 4) m.2 g) s
  let s := if barred then s.wr ACC_CORE_STAT.OWNEDACC 1 c else s
  ⟨(vs.map (fun v => leBytes 4 v.toNat)).flatten, !ms.isEmpty, false, s⟩

/-- 32-bit words of a byte list. -/
def words32 : List Byte → List W32
  | a :: b :: c :: d :: r => BitVec.ofNat 32 (ofLe [a, b, c, d]) :: words32 r
  | _ => []

/-- A write of accumulator words from index `w`; words of an owned array keep their value (R128). -/
def State.accWrite (s : State) (c w : Nat) (vs : List W32) (g : Agent) : State :=
  let k := s.core c
  let old := k.acc.range 0 w vs.length
  let new := (SMap.number w (vs.zip old)).map (fun e => if s.accBarred c e.1 g then e.2.2 else e.2.1)
  let barred := (List.range vs.length).any (fun i => s.accBarred c (w + i) g)
  let s := s.modCore c (fun k => { k with
    acc := k.acc.putRange (fun _ => some 0) w new
    faults := k.faults.keep (fun a _ => a < accBase + 4 * w || accBase + 4 * (w + vs.length) ≤ a ||
      s.accBarred c ((a - accBase) / 4) g) })
  if barred then s.wr ACC_CORE_STAT.OWNEDACC 1 c else s

/-- Bytes of an S-space range [a, a + n) that lie in the scratchpad. -/
def spadPart (a n : Nat) : Nat := min n (accBase - a)

/-- A read of S-space by agent `g` for scalar processor `p`, if any: scratchpad, then accumulator words. -/
def State.sRead (s : State) (c a n : Nat) (g : Agent) (p : Option Nat) : Rd :=
  let k := spadPart a n
  let x := s.spadRead c a k g
  let y := x.st.accRead c ((a + k - accBase) / 4) ((n - k) / 4) g
  ⟨x.data ++ y.data, x.corr || y.corr, false, y.st.count c 0x40 p n⟩

/-- A write of S-space. -/
def State.sWrite (s : State) (c a : Nat) (d : List Byte) (g : Agent) (p : Option Nat) : State :=
  let k := spadPart a d.length
  let s := if k = 0 then s else s.spadWrite c a (d.take k)
  let s := if d.length ≤ k then s else s.accWrite c ((a + k - accBase) / 4) (words32 (d.drop k)) g
  s.count c 0x41 p d.length

/-! ### L-space -/

/-- Key of a fault mark outside the cores: place 1 loft, 2 HBM, 3 bay cache. -/
def markKey (place a : Nat) : Nat := place * 0x10000000000 + a

/-- The state with fault marks dropped for the words of [a, a + n). -/
def State.unmark (s : State) (place a n : Nat) : State :=
  { s with mem := { s.mem with
      faults := s.mem.faults.dropRange (markKey place (a / 8 * 8)) (if n = 0 then 0 else ceilDiv (a + n) 8 * 8 - a / 8 * 8) } }

/-- A read of L-space (R283). -/
def State.lRead (s : State) (a n : Nat) (g : Agent) : Rd :=
  let ms := wordMarks s.mem.faults (markKey 1 0) a n
  ⟨SMap.range s.mem.loft 0 a n, !ms.isEmpty, false,
    ms.foldl (fun s m => s.ceLoft (m.1 - markKey 1 0) m.2 g) s⟩

/-- A write of L-space. -/
def State.lWrite (s : State) (a : Nat) (d : List Byte) : State :=
  let s' := { s with mem := { s.mem with loft := SMap.putRange s.mem.loft (fun _ => some 0) a d } }
  s'.unmark 1 a d.length

/-! ### HBM -/

/-- Bytes per stack (R284). -/
def stackSize : Nat := 0x1000000000

/-- What an unlisted byte of HBM is: 0 zero, 1 never written (R298), 2 firmware data of the reserved range (R286),
whose contents the spec does not give. -/
def hbmKind (v : Variant) (a : Nat) : Nat :=
  if v.resBase + 0x8000000 ≤ a then 2
  else if v.resBase ≤ a then 0
  else if v = .trn1216 then 1 else 0

/-- What an unlisted byte of HBM reads as, where it reads as anything. -/
def hbmDefault (v : Variant) (a : Nat) : Option Byte := if hbmKind v a = 0 then some 0 else none

/-- Is the 8 B word at `a` of HBM listed or known to read as zero? -/
def State.hbmDefined (s : State) (a : Nat) : Bool := hbmKind s.variant a == 0 || SMap.has s.mem.hbm a

/-- Has the controller of the stack that holds `a` stopped issuing commands, its trip band being in force (R305) or the module having
tripped (R524)? -/
def State.stackStopped (s : State) (a : Nat) : Bool := s.pwr.stopped || (s.stack (a / stackSize)).band == 3

/-- A read of one 8 B word of HBM: a free value where it was never written, with the outcomes of R299. A stopped stack delivers
nothing. -/
def State.hbmWord (s : State) (a : Nat) (g : Agent) : Rd :=
  if s.stackStopped a then ⟨List.replicate 8 0, false, true, s⟩
  else
  let s := s.incWrap MEM_RD.BYTES 8 (a / stackSize)
  if s.hbmDefined a then
    let ms := marksIn s.mem.faults (markKey 2 a) 8
    ⟨SMap.range s.mem.hbm 0 a 8, !ms.isEmpty, false, ms.foldl (fun s m => s.ceHbm (m.1 - markKey 2 0) m.2 g) s⟩
  else
    let chk := if hbmKind s.variant a = 1 then Config.unwrittenCheck s.free else 0
    let (v, s) := s.free64
    let d := leBytes 8 v.toNat
    if chk = 0 then .ok d s
    else
      let (y, s) := s.free64
      if chk = 1 then ⟨d, true, false, s.ceHbm a (y.toNat % 256) g⟩
      else
        let (ag, s) := s.agentCode g
        ⟨d, false, true, s.ueFound ag 4 (y.toNat % 256) (a / stackSize) a⟩

/-- A write of one 8 B word of HBM; a stopped stack takes none (R305). -/
def State.hbmPut (s : State) (a : Nat) (d : List Byte) : State :=
  if s.stackStopped a then s
  else
    let s := s.incWrap MEM_WR.BYTES d.length (a / stackSize)
    let s := { s with mem := { s.mem with hbm := SMap.putRange s.mem.hbm (hbmDefault s.variant) a d } }
    s.unmark 2 a d.length

/-- Boot firmware writes its data straight to a stack (R286). -/
def State.firmPut (s : State) (a : Nat) (d : List Byte) : State :=
  { s with mem := { s.mem with hbm := SMap.putRange s.mem.hbm (hbmDefault s.variant) a d } }

/-- A write of one 8 B word of HBM whose bytes are not all defined: the stack is written, and the word counts as never written
still (R298, R299). -/
def State.hbmPutUndef (s : State) (a : Nat) : State :=
  if s.stackStopped a then s else (s.incWrap MEM_WR.BYTES 8 (a / stackSize)).unmark 2 a 8

/-! ### The bay cache -/

/-- Line number within its stack, and stack, of an E-space address. -/
def lineOf (a : Nat) : Nat × Nat := (a / stackSize, a % stackSize / 128)

/-- First address of line `ln` of stack `t`. -/
def lineAddr (t ln : Nat) : Nat := t * stackSize + ln * 128

/-- The line, where the bay cache holds it. -/
def State.bayLine (s : State) (t ln : Nat) : Option BayLine := (s.stack t).bay.find? (fun b => b.line == ln)

/-- The line becomes the most recently used one. -/
def State.bayPut (s : State) (t : Nat) (b : BayLine) : State :=
  s.modStack t (fun k => { k with bay := b :: k.bay.filter (fun x => x.line != b.line) })

/-- The line leaves the bay cache without write-back. -/
def State.bayDrop (s : State) (t ln : Nat) : State :=
  (s.modStack t (fun k => { k with bay := k.bay.filter (fun x => x.line != ln) })).unmark 3 (lineAddr t ln) 128

/-- Bytes of word `w` of a line. -/
def BayLine.word (b : BayLine) (w : Nat) : List Byte := leBytes 8 (lane 64 b.data.toNat w)

/-- A line with word `w` replaced. -/
def BayLine.setWord (b : BayLine) (w : Nat) (d : List Byte) : BayLine :=
  { b with data := BitVec.ofNat 1024 (setBits b.data.toNat (64 * w + 63) (64 * w) (ofLe d)) }

/-- Bit map of a list of word numbers. -/
def wordMask (ws : List Nat) : BitVec 16 := BitVec.ofNat 16 ((ws.map (fun w => 2 ^ w)).sum)

/-- Word numbers set in a bit map. -/
def maskWords (m : BitVec 16) : List Nat := (List.range 16).filter (fun w => bitB m.toNat w)

/-- Dirty words of a line are written back to the stack (R292, R295). -/
def State.bayWriteBack (s : State) (t : Nat) (b : BayLine) : State :=
  if b.dirty = 0 then s
  else
    let s := (maskWords b.dirty).foldl (fun s w =>
      let a := lineAddr t b.line + 8 * w
      let s := (marksIn s.mem.faults (markKey 3 a) 8).foldl (fun s m => s.ceBay (m.1 - markKey 3 0) m.2 .evict) s
      if bitB b.undef.toNat w then s.hbmPutUndef a else s.hbmPut a (b.word w)) s
    s.incWrap BAY_CNT1.WBACKS 1 t

/-- A line is evicted (R292). -/
def State.bayEvict (s : State) (t : Nat) (b : BayLine) : State := (s.bayWriteBack t b).bayDrop t b.line

/-- The line that an allocation in the set of line `ln` evicts, if any, and whether the new line is retained (R292). -/
def State.bayVictim (s : State) (t ln : Nat) (keep : Bool) : Option BayLine × Bool :=
  let set := (s.stack t).bay.filter (fun b => b.line % 4096 == ln % 4096)
  let kw := s.rd BAY_CFG.KEEPWAYS t
  let kept := set.filter (·.keep)
  let norm := set.filter (fun b => !b.keep)
  let retain := keep && kw != 0
  if retain && kw ≤ kept.length then (kept.getLast?, true)
  else if set.length < 16 then (none, retain)
  else if norm.isEmpty then (kept.getLast?, retain)
  else (norm.getLast?, retain)

/-- An allocation of a line (R292). -/
def State.bayAlloc (s : State) (t ln : Nat) (keep : Bool) (valid dirty : BitVec 16) (data : V1024) (undef : BitVec 16 := 0) :
    State :=
  let (v, k) := s.bayVictim t ln keep
  let s := match v with
    | some b => s.bayEvict t b
    | none => s
  s.bayPut t ⟨ln, k, valid, dirty, data, undef⟩

/-- Was word `w` of a line never written (R298): in the stack and in the line? -/
def State.lineUndef (s : State) (t : Nat) (b : BayLine) (w : Nat) : Bool :=
  if bitB b.dirty.toNat w then bitB b.undef.toNat w else !s.hbmDefined (lineAddr t b.line + 8 * w)

/-- A word served from a line: undefined while it was never written (R299). -/
def State.bayServe (s : State) (t : Nat) (b : BayLine) (w : Nat) (g : Agent) : Rd :=
  let a := lineAddr t b.line + 8 * w
  if s.lineUndef t b w then
    let (v, s) := s.free64
    .ok (leBytes 8 v.toNat) s
  else
    let ms := marksIn s.mem.faults (markKey 3 a) 8
    ⟨b.word w, !ms.isEmpty, false, ms.foldl (fun s m => s.ceBay (m.1 - markKey 3 0) m.2 g) s⟩

/-- Words of a stack read straight from HBM. -/
def State.stackWords (s : State) (t ln : Nat) (ws : List Nat) (g : Agent) : Rd :=
  foldRd (fun s w => s.hbmWord (lineAddr t ln + 8 * w) g) ws s

/-- A word of the stack that a fill reads under line `b` (R290). The stack's copy of a word that was written and stands in the line alone
is not a word that was never written (R298): its check bits decide nothing (R299). -/
def State.fillWord (s : State) (t : Nat) (b : BayLine) (w : Nat) (g : Agent) : Rd :=
  let a := lineAddr t b.line + 8 * w
  if bitB b.valid.toNat w && !s.lineUndef t b w && !s.hbmDefined a && !s.stackStopped a then
    .ok (List.replicate 8 0) (s.incWrap MEM_RD.BYTES 8 t)
  else s.hbmWord a g

/-- Is E-space frozen (R365)? -/
def State.frozen (s : State) : Bool := s.rdB WIN_TD.FROZEN

/-- A read of words `ws` of a line under a hint (R290): 0 stream, 1 keep, 2 discard-after-last-use. While E-space is frozen the bay
caches keep their contents: a read allocates, fills and drops nothing (R365). -/
def State.lineRead (s : State) (t ln : Nat) (ws : List Nat) (hint0 : Nat) (last : Bool) (g : Agent) : Rd :=
  let hint := if s.frozen then 0 else hint0
  if !s.rdB BAY_CFG.EN t then (s.incWrap BAY_CNT0.MISSES 1 t).stackWords t ln ws g
  else
    let r : Rd := match s.bayLine t ln with
      | some b =>
        if ws.all (fun w => bitB b.valid.toNat w) then
          foldRd (fun s w => s.bayServe t b w g) ws ((s.incWrap BAY_CNT0.HITS 1 t).bayPut t b)
        else if hint = 0 then
          foldRd (fun s w => if bitB b.valid.toNat w then s.bayServe t b w g
            else s.hbmWord (lineAddr t ln + 8 * w) g) ws ((s.incWrap BAY_CNT0.MISSES 1 t).bayPut t b)
        else
          let x := foldRd (fun s w => s.fillWord t b w g) (List.range 16) (s.incWrap BAY_CNT0.MISSES 1 t)
          let f : BayLine := { b with data := BitVec.ofNat 1024 (ofLe x.data), valid := BitVec.ofNat 16 0xFFFF }
          let b' := (maskWords b.valid).foldl (fun f w => f.setWord w (b.word w)) f
          let y := foldRd (fun s w => s.bayServe t b' w g) ws (x.st.bayPut t b')
          ⟨y.data, x.corr || y.corr, x.ue || y.ue, y.st⟩
      | none =>
        let s := s.incWrap BAY_CNT0.MISSES 1 t
        if hint = 0 then s.stackWords t ln ws g
        else
          let x := s.stackWords t ln (List.range 16) g
          let d := BitVec.ofNat 1024 (ofLe x.data)
          let s := x.st.bayAlloc t ln (decide (hint = 1)) (BitVec.ofNat 16 0xFFFF) 0 d
          ⟨(ws.map (fun w => leBytes 8 (lane 64 d.toNat w))).flatten, x.corr, x.ue, s⟩
    if last && hint == 2 then
      match r.st.bayLine t ln with
      | some b =>
        let s := if b.dirty = 0 then r.st else r.st.incWrap BAY_CNT1.DROPS 1 t
        { r with st := s.bayDrop t ln }
      | none => r
    else r

/-- A write of whole words to a line under a hint (R290): first word and bytes. `und` are words whose bytes are not all
defined. -/
def State.lineWrite (s : State) (t ln w0 : Nat) (d : List Byte) (hint : Nat) (und : BitVec 16 := 0) : State :=
  let ws := (List.range (d.length / 8)).map (· + w0)
  let put := fun (b : BayLine) => ws.foldl (fun b w => b.setWord w ((d.drop (8 * (w - w0))).take 8)) b
  let toStack := fun (s : State) =>
    ws.foldl (fun s w => if bitB und.toNat w then s.hbmPutUndef (lineAddr t ln + 8 * w)
      else s.hbmPut (lineAddr t ln + 8 * w) ((d.drop (8 * (w - w0))).take 8)) s
  if !s.rdB BAY_CFG.EN t then toStack (s.incWrap BAY_CNT0.MISSES 1 t)
  else
    match s.bayLine t ln with
    | some b =>
      let b' := put b
      ((s.incWrap BAY_CNT0.HITS 1 t).bayPut t
        { b' with
          valid := b.valid ||| wordMask ws
          dirty := b.dirty ||| wordMask ws
          undef := (b.undef &&& ~~~(wordMask ws)) ||| und }).unmark 3
          (lineAddr t ln + 8 * w0) d.length
    | none =>
      let s := s.incWrap BAY_CNT0.MISSES 1 t
      if hint = 0 then toStack s
      else s.bayAlloc t ln (decide (hint = 1)) (wordMask ws) (wordMask ws) (put ⟨ln, false, 0, 0, 0, 0⟩).data und

/-- The pieces of a byte range that lie in one line each: address and length. -/
def linePieces (a n : Nat) : List (Nat × Nat) :=
  (List.range (if n = 0 then 0 else (a + n - 1) / 128 - a / 128 + 1)).map (fun i =>
    let lo := max a ((a / 128 + i) * 128)
    (lo, min (a + n) ((a / 128 + i + 1) * 128) - lo))

/-- A read of local E-space through the bay cache. -/
def State.eRead (s : State) (a n hint : Nat) (last : Bool) (g : Agent) : Rd :=
  (linePieces a n).foldl (fun r pc =>
    let (t, ln) := lineOf pc.1
    let w0 := pc.1 % 128 / 8
    let w1 := (pc.1 % 128 + pc.2 - 1) / 8
    let x := r.st.lineRead t ln ((List.range (w1 - w0 + 1)).map (· + w0)) hint last g
    ⟨r.data ++ ((x.data.drop (pc.1 % 8)).take pc.2), r.corr || x.corr, r.ue || x.ue, x.st⟩) (.ok [] s)

/-- Was the word at E-space address `a` never written (R298): where the bay cache holds it, else in its stack? -/
def State.wordUndef (s : State) (a : Nat) : Bool :=
  let (t, ln) := lineOf a
  match s.bayLine t ln with
  | some b => if bitB b.valid.toNat (a % 128 / 8) then s.lineUndef t b (a % 128 / 8) else !s.hbmDefined a
  | none => !s.hbmDefined a

/-- A write of one piece of a line: words that it covers in part are read and merged first (R290), which may correct an error in
them (R302), and stay never written where they were (R298). An uncorrectable word stops the write (R541). -/
def State.pieceWrite (s : State) (a : Nat) (d : List Byte) (hint : Nat) (g : Agent) : Rd :=
  let (t, ln) := lineOf a
  let lo := a / 8 * 8
  let hi := ceilDiv (a + d.length) 8 * 8
  let w0 := a % 128 / 8
  let endw := (hi - 1) % 128 / 8
  let split := decide (hi ≠ a + d.length)
  let und := wordMask (((if lo = a then [] else [w0]) ++ (if split then [endw] else [])).dedup.filter (fun w =>
    s.wordUndef (lineAddr t ln + 8 * w)))
  let h : Rd := if lo = a then .ok [] s else s.lineRead t ln [w0] hint false g
  let head := h.data.take (a - lo)
  let z : Rd :=
    if !split then .ok [] h.st
    else if endw = w0 ∧ lo ≠ a then .ok h.data h.st
    else h.st.lineRead t ln [endw] hint false g
  let tail := z.data.drop (8 - (hi - (a + d.length)))
  if h.ue || z.ue then ⟨[], false, true, z.st⟩
  else ⟨[], h.corr || z.corr, false, z.st.lineWrite t ln w0 (head ++ d ++ tail) hint und⟩

/-- A write of local E-space through the bay cache, and what its reads of partial words met; nothing is written while E-space is
frozen (R365). -/
def State.eWriteRd (s : State) (a : Nat) (d : List Byte) (hint : Nat) (g : Agent) : Rd :=
  if s.frozen then .ok [] s
  else (linePieces a d.length).foldl (fun r pc =>
    if r.ue then r
    else
      let x := r.st.pieceWrite pc.1 ((d.drop (pc.1 - a)).take pc.2) hint g
      ⟨[], r.corr || x.corr, x.ue, x.st⟩) (.ok [] s)

/-- A write of local E-space. -/
def State.eWrite (s : State) (a : Nat) (d : List Byte) (hint : Nat) (g : Agent) : State := (s.eWriteRd a d hint g).st

/-! ### Any space -/

/-- A read by an agent of core `c` (or of no core, for L-space and E-space): space 0 S, 1 L, 2 local E. -/
def State.memRead (s : State) (space c a n hint : Nat) (last : Bool) (g : Agent) (p : Option Nat) : Rd :=
  match space with
  | 0 => s.sRead c a n g p
  | 1 => s.lRead a n g
  | _ => s.eRead a n hint last g

/-- A write by an agent, and what its reads of partial words met (R302). -/
def State.memWriteRd (s : State) (space c a : Nat) (d : List Byte) (hint : Nat) (g : Agent) (p : Option Nat) : Rd :=
  match space with
  | 0 => .ok [] (s.sWrite c a d g p)
  | 1 => .ok [] (s.lWrite a d)
  | _ => s.eWriteRd a d hint g

/-- A write by an agent. -/
def State.memWrite (s : State) (space c a : Nat) (d : List Byte) (hint : Nat) (g : Agent) (p : Option Nat) : State :=
  (s.memWriteRd space c a d hint g p).st

/-- A read by core `c`, whose L-space and E-space bytes come in through its base-die port (R185, event 0x42). -/
def State.coreRead (s : State) (space c a n hint : Nat) (last : Bool) (g : Agent) (p : Option Nat) : Rd :=
  let r := s.memRead space c a n hint last g p
  if space = 0 then r else { r with st := r.st.count c 0x42 p n }

/-- A write by core `c`, out through its base-die port where the space is not its own (R185, event 0x43), and what its reads of
partial words met. -/
def State.coreWriteRd (s : State) (space c a : Nat) (d : List Byte) (hint : Nat) (g : Agent) (p : Option Nat) : Rd :=
  let t := s.memWriteRd space c a d hint g p
  if space = 0 then t else { t with st := t.st.count c 0x43 p d.length }

/-- A write by core `c`. -/
def State.coreWrite (s : State) (space c a : Nat) (d : List Byte) (hint : Nat) (g : Agent) (p : Option Nat) : State :=
  (s.coreWriteRd space c a d hint g p).st

/-- Does [a, a + n) lie in L-space (R283)? -/
def inL (v : Variant) (a n : Nat) : Bool := a + n ≤ v.lEnd
/-- Does [a, a + n) lie in local E-space below the reserved range (R284, R286)? -/
def inE (v : Variant) (a n : Nat) : Bool := a + n ≤ v.resBase
/-- Does [a, a + n) lie in the scratchpad? -/
def inSpad (a n : Nat) : Bool := a + n ≤ accBase
/-- Does [a, a + n) lie in S-space (R282)? -/
def inS (a n : Nat) : Bool := a + n ≤ sEnd
/-- Does [a, a + n) touch the accumulator range of S-space (R125)? -/
def touchesAcc (a n : Nat) : Bool := a < sEnd && accBase < a + n

/-- Upsets met by an access: words that hold a correctable fault from now on (R302). -/
def State.markSpad (s : State) (c : Nat) (ups : List Upset) : State :=
  s.modCore c (fun k => { k with faults := ups.foldl (fun m u =>
    SMap.set m 0 (if u.addr < accBase then u.addr / 8 * 8 else u.addr / 4 * 4) (u.syn % 256 + 1)) k.faults })

/-- Upsets in L-space words. -/
def State.markLoft (s : State) (ups : List Upset) : State :=
  { s with mem := { s.mem with faults := ups.foldl (fun m u =>
      SMap.set m 0 (markKey 1 (u.addr / 8 * 8)) (u.syn % 256 + 1)) s.mem.faults } }

/-- Upsets in E-space words: in the bay cache where it holds the word, else in HBM. -/
def State.markE (s : State) (ups : List Upset) : State :=
  { s with mem := { s.mem with faults := ups.foldl (fun m u =>
      let a := u.addr / 8 * 8
      let (t, ln) := lineOf a
      let held := match s.bayLine t ln with
        | some b => bitB b.valid.toNat (a % 128 / 8)
        | none => false
      SMap.set m 0 (markKey (if held then 3 else 2) a) (u.syn % 256 + 1)) s.mem.faults } }

/-- Upsets in a space's words. -/
def State.mark (s : State) (space c : Nat) (ups : List Upset) : State :=
  if ups.isEmpty then s
  else
    match space with
    | 0 => s.markSpad c ups
    | 1 => s.markLoft ups
    | _ => s.markE ups

end Sys2Proof.Machine
end

