-- ==== Sys2Proof/Machine/Operands.lean ====
section
/-! DEFINITION. Operand forms: the fields of the instruction formats (R145, R146), the register files (R139), tile
descriptors (R142 to R144), packed rows (R48), and the fields of queue commands (R236 to R239). -/

namespace Sys2Proof.Machine

/-! ### Instruction fields (R146) -/

/-- MAJ. -/
def iMaj (w : Nat) : Nat := bits w 6 0
/-- rd, vd, vs of stores, rs1 of format B. -/
def iRd (w : Nat) : Nat := bits w 11 7
/-- rs1, vs1. -/
def iRs1 (w : Nat) : Nat := bits w 16 12
/-- rs2, vs2. -/
def iRs2 (w : Nat) : Nat := bits w 21 17
/-- rs3. -/
def iRs3 (w : Nat) : Nat := bits w 26 22
/-- F of format R. -/
def iF (w : Nat) : Nat := bits w 31 27
/-- imm15 of format I. -/
def iImm15 (w : Nat) : Int := sext 15 (bits w 31 17)
/-- imm12 of formats M and B. -/
def iImm12 (w : Nat) : Int := sext 12 (bits w 31 20)
/-- imm20 of format J. -/
def iImm20 (w : Nat) : Int := sext 20 (bits w 31 12)
/-- W of format M. -/
def iW (w : Nat) : Nat := bits w 18 17
/-- SX of format M. -/
def iSx (w : Nat) : Bool := bitB w 19
/-- COND of format B. -/
def iCond (w : Nat) : Nat := bits w 19 17
/-- pg of formats V and VF. -/
def iPg (w : Nat) : Nat := bits w 24 22
/-- T of format V. -/
def iT (w : Nat) : Nat := bits w 27 25
/-- F of format V. -/
def iF4 (w : Nat) : Nat := bits w 31 28
/-- T of format VF. -/
def iTf (w : Nat) : Nat := bits w 26 25
/-- RM of format VF. -/
def iRm (w : Nat) : Nat := bits w 28 27
/-- F of format VF. -/
def iF3 (w : Nat) : Nat := bits w 31 29
/-- SUB of a 64-bit instruction (R155). -/
def iSub (w : Nat) : Nat := bits w 10 7

/-- Sum of a register and a signed offset, modulo 2^64. -/
def addOff (x : W64) (o : Int) : Nat := wrapN 64 ((x.toNat : Int) + o)

/-! ### Register files (R139) -/

/-- Scalar register `r`; x0 reads 0. -/
def Sp.xr (u : Sp) (r : Nat) : W64 := if r = 0 then 0 else u.x.get 0 r
/-- Scalar register `r` written; x0 ignores writes. -/
def Sp.setX (u : Sp) (r : Nat) (v : W64) : Sp := if r = 0 then u else { u with x := u.x.set 0 r v }
/-- Vector register `r`. -/
def Sp.vr (u : Sp) (r : Nat) : V1024 := u.v.get 0 r
/-- Vector register `r` written. -/
def Sp.setV (u : Sp) (r : Nat) (v : V1024) : Sp := { u with v := u.v.set 0 r v }
/-- Predicate register `r`; p0 reads all ones. -/
def Sp.pr (u : Sp) (r : Nat) : V128 := if r = 0 then BitVec.allOnes 128 else u.p.get 0 r
/-- Predicate register `r` written; p0 ignores writes. -/
def Sp.setP (u : Sp) (r : Nat) (v : V128) : Sp := if r = 0 then u else { u with p := u.p.set 0 r v }
/-- Tile descriptor register `r`. -/
def Sp.tr (u : Sp) (r : Nat) : V128 := u.t.get 0 r
/-- Tile descriptor register `r` written. -/
def Sp.setT (u : Sp) (r : Nat) (v : V128) : Sp := { u with t := u.t.set 0 r v }

/-- The two words of a 64-bit instruction, first word first. -/
def firstWord (w : W64) : Nat := w.toNat % 2 ^ 32

/-! ### Packed rows (R48) -/

/-- Packed bytes of a row of `n` elements of format `f`. -/
def rowBytes (f n : Nat) : Nat := ceilDiv (n * fmtBits f) 8

/-- Does a row of `n` elements obey R48? -/
def rowOk (f n : Nat) : Bool :=
  if f = 8 ∨ f = 9 then n % 4 == 0 else (n * fmtBits f) % 8 == 0

/-- The element codes of a packed row. -/
def unpackRow (f n : Nat) (d : List Byte) : List Nat := lanes (fmtBits f) n (ofLe d)

/-- The packed bytes of a row of element codes. -/
def packRow (f : Nat) (l : List Nat) : List Byte := leBytes (rowBytes f l.length) (packLanes (fmtBits f) l)

/-! ### Tile descriptors -/

/-- The fields of a tile descriptor (R142). -/
structure Td where
  space : Nat
  fmt : Nat
  hint : Nat
  scaled : Bool
  rows : Nat
  cols : Nat
  stride : Nat
  base : Nat
  /-- bits [31:27] and [63:56] -/
  resv : Nat
  deriving DecidableEq, Repr

/-- The descriptor that a register holds. -/
def tdOf (d : V128) : Td :=
  let x := d.toNat
  ⟨bits x 1 0, bits x 5 2, bits x 7 6, bitB x 8, bits x 17 9, bits x 26 18, bits x 55 32, bits x 127 64,
    bits x 31 27 + bits x 63 56⟩

/-- Address of the first scale byte (R144). -/
def Td.scaleBase (t : Td) : Nat := t.base + t.rows * t.stride

/-- Bytes of scales of a B tile, or of an A tile (R144). -/
def Td.scaleBytes (t : Td) (bTile : Bool) : Nat :=
  if !t.scaled then 0
  else if bTile then ceilDiv t.rows 32 * t.cols else t.rows * ceilDiv t.cols 32

/-- The byte ranges of a tile: each row, and the scales. -/
def Td.ranges (t : Td) (bTile : Bool) : List (Nat × Nat) :=
  (List.range t.rows).map (fun i => (t.base + i * t.stride, rowBytes t.fmt t.cols)) ++
    (if t.scaleBytes bTile = 0 then [] else [(t.scaleBase, t.scaleBytes bTile)])

/-- Does a byte range lie in a space that tiles may use: S-space, L-space, or local E-space outside the reserved range? -/
def rangeOk (v : Variant) (space : Nat) (r : Nat × Nat) : Bool :=
  if r.2 = 0 then true
  else
    match space with
    | 0 => inS r.1 r.2
    | 1 => inL v r.1 r.2
    | _ => inE v r.1 r.2

/-- Is the tile's base in the rack window? -/
def Td.remote (t : Td) : Bool := t.space == 2 && bitB t.base 63

/-- Does the tile name the accumulator range (R125): does a byte of it lie there? A tile without bytes names none, wherever its base
stands (DEDUCED, unsafe, log entry 100). -/
def Td.inAcc (t : Td) (bTile : Bool) : Bool :=
  t.space == 0 && (t.ranges bTile).any (fun r => r.2 != 0 && touchesAcc r.1 r.2)

/-- Alignment failure of R608. -/
def Td.misaligned (t : Td) : Bool := t.base % 32 != 0 || t.stride % 32 != 0

/-- Failures of R608 that every checked descriptor can have. A COLS that breaks the row rule of R48, which R143 asks for and R608 gives
no exception, takes ACCESS too (DEDUCED, unsafe, log entry 75). -/
def Td.badForm (t : Td) (bTile : Bool) : Bool :=
  decide (t.stride < rowBytes t.fmt t.cols) || t.space == 3 || t.fmt == 0 || t.hint == 3 || t.resv != 0 ||
    !rowOk t.fmt t.cols || (t.inAcc bTile && t.fmt != 6 && t.fmt != 14)

/-- Do the rows and scales of a tile that is not in the rack window leave their space (R608)? -/
def Td.outside (t : Td) (v : Variant) (bTile : Bool) : Bool :=
  !t.remote && (t.ranges bTile).any (fun r => !rangeOk v t.space r)

/-- FP4, FP6 and FP8, which alone carry scales (R50, R144). -/
def scalable (f : Nat) : Bool := 7 ≤ f && f ≤ 11

/-- Array operand formats (R85). -/
def arrayFmt (f : Nat) : Bool := (1 ≤ f && f ≤ 5) || (7 ≤ f && f ≤ 13)

/-! ### Queue commands (R236 to R239) -/

/-- Word `i` of a command. -/
def cw (c : List W64) (i : Nat) : Nat := (nth c 0 i).toNat
/-- OP. -/
def cOp (c : List W64) : Nat := bits (cw c 0) 7 0
/-- FLAGS.SIG. -/
def cSig (c : List W64) : Bool := bitB (cw c 0) 8
/-- FLAGS.SIGALL. -/
def cSigAll (c : List W64) : Bool := bitB (cw c 0) 9
/-- FLAGS.CONT. -/
def cCont (c : List W64) : Bool := bitB (cw c 0) 10
/-- FLAGS.NOTIFY. -/
def cNotify (c : List W64) : Bool := bitB (cw c 0) 11
/-- FLAGS.ASYNC. -/
def cAsync (c : List W64) : Bool := bitB (cw c 0) 12
/-- WMASK. -/
def cWmask (c : List W64) : Nat := bits (cw c 0) 29 26
/-- SIGEV. -/
def cSigev (c : List W64) : Nat := bits (cw c 0) 47 32
/-- TAG. -/
def cTag (c : List W64) : Nat := bits (cw c 0) 63 48
/-- Event counter of wait `i`. -/
def cWev (c : List W64) (i : Nat) : Nat := lane 16 (cw c 1) i
/-- Threshold of wait `i`. -/
def cWth (c : List W64) (i : Nat) : Nat := lane 32 (cw c (2 + i / 2)) (i % 2)

/-- Placement word P (R239). -/
structure Place4 where
  sspace : Nat
  dspace : Nat
  score : Nat
  dcore : Nat
  shint : Nat
  dhint : Nat
  slast : Bool
  deriving DecidableEq, Repr

/-- The placement word that a command word holds. -/
def placeOf (x : Nat) : Place4 :=
  ⟨bits x 1 0, bits x 3 2, bits x 11 4, bits x 19 12, bits x 21 20, bits x 23 22, bitB x 24⟩

end Sys2Proof.Machine
end

