-- ==== Sys2Proof/Machine/ArrayMath.lean ====
section
/-! DEFINITION. The arithmetic of a matrix pass (R60 to R68, R120, R123): alignment of A, folding of B, cell terms, segment
sums, and how an output element takes them. -/

namespace Sys2Proof.Machine

/-- The value of an element under its block's scale (R49); 127 where the operand carries none (R50). -/
def scaledVal (f x sc : Nat) : Val :=
  if sc = 0xFF then .nan
  else
    match fpVal f x with
    | .fin n m e => .fin n m (e + sc - 127)
    | v => v

/-- p of a floating operand format: significand bits with the implicit bit (R45). -/
def fmtP (f : Nat) : Nat := (fpFmt f).mw + 1

/-- Guard bits of an A format (R62). -/
def guardBits (f : Nat) : Nat := if f = 13 then 5 else 8

/-- Is the value a zero? -/
def isZero (v : Val) : Bool :=
  match v with
  | .fin _ m _ => m == 0
  | _ => false

/-- Unbiased exponent of a finite non-zero element of precision `p`. -/
def unbiased (p : Nat) (v : Val) : Option Int :=
  match v with
  | .fin _ m e => if m = 0 then none else some (e + p - 1)
  | _ => none

/-- The largest unbiased exponent of a block (R62, R63). -/
def blockExp (p : Nat) (l : List Val) : Option Int :=
  (l.filterMap (unbiased p)).foldl (fun a e => match a with
    | none => some e
    | some b => some (max b e)) none

/-- The aligned value of an A element in a block of exponent `ea` (R62). -/
def alignA (p g : Nat) (ea : Int) (v : Val) : Int :=
  match v with
  | .fin n m e => rneInt n m (e + (p - 1 + g : Nat) - ea)
  | _ => 0

/-- The cell term of an aligned A value and a B element in a segment of exponent `eb` (R63, R64). -/
def cellTerm (p : Nat) (eb alpha : Int) (b : Val) : Int :=
  match b with
  | .fin n m e =>
    if m = 0 then 0
    else
      let d := min 63 (eb - (e + p - 1))
      rneInt (decide (alpha < 0) != n) (alpha.natAbs * m) (8 - d)
  | _ => 0

/-- What a segment delivers to one output element (R65, R66): `none` leaves it unchanged, else a value to add. -/
def segment (fa fb : Nat) (a b : List Val) : Option Val :=
  let ab := a.zip b
  let isInf := fun (v : Val) => match v with
    | .inf _ => true
    | _ => false
  let special := ab.any (fun e => e.1 == .nan || e.2 == .nan || isInf e.1 || isInf e.2)
  if special then
    if ab.any (fun e => e.1 == .nan || e.2 == .nan || (isInf e.1 && isZero e.2) || (isInf e.2 && isZero e.1)) then
      some .nan
    else
      let prods := ab.filter (fun e => isInf e.1 || isInf e.2)
      let neg := prods.any (fun e => signVal e.1 != signVal e.2)
      let pos := prods.any (fun e => signVal e.1 == signVal e.2)
      some (if neg && pos then .nan else .inf neg)
  else
    match blockExp (fmtP fa) a, blockExp (fmtP fb) b with
    | some ea, some eb =>
      let s := (ab.map (fun e => cellTerm (fmtP fb) eb (alignA (fmtP fa) (guardBits fa) ea e.1) e.2)).foldl (· + ·) 0
      some (.fin (decide (s < 0)) s.natAbs (ea + eb - fmtP fa - guardBits fa - fmtP fb - 6))
    | _, _ => none

/-- One segment's value added to an FP32 word (R65, R123). -/
def addSegment (w : Nat) (v : Option Val) : Nat :=
  match v with
  | none => w
  | some x => (encFp 14 0 (addVal 0 (fpVal 14 w) x).1).1

/-- Elements 32q to 32q + 31 of a list. -/
def seg32 {α : Type} (l : List α) (q : Nat) : List α := (l.drop (32 * q)).take 32

/-- A floating output element after a pass (R65): the word, and whether any segment added to it. -/
def floatElem (fa fb : Nat) (a b : List Val) (w : Nat) : Nat × Bool :=
  (List.range 8).foldl (fun acc q =>
    let v := segment fa fb (seg32 a q) (seg32 b q)
    (addSegment acc.1 v, acc.2 || v.isSome)) (w, false)

/-- An integer output element after a pass (R67, R120): the word, and whether it saturated. -/
def intElem (a b : List Int) (w : Nat) : Nat × Bool :=
  let t := sext 32 w + ((a.zip b).map (fun e => e.1 * e.2)).foldl (· + ·) 0
  (satWord t, decide (t < iMin 32 ∨ iMax 32 < t))
where
  /-- An exact sum as its INT32 word. -/
  satWord (t : Int) : Nat := wrapN 32 (clampI (iMin 32) (iMax 32) t)

/-- Column `j` of a tile as values, with its scales (R144). -/
def Tile.column (t : Tile) (j : Nat) : List Val :=
  (SMap.number 0 t.rows).map (fun e =>
    scaledVal t.fmt (nth e.2 0 j) (if t.scaled then nth t.scales 127 (e.1 / 32 * t.n + j) else 127))

/-- Column `j` of an integer tile. -/
def Tile.intColumn (t : Tile) (j : Nat) : List Int := t.rows.map (fun r => intVal t.fmt (nth r 0 j))

/-- An A row as values, with its scales. -/
def aRow (f : Nat) (row sc : List Nat) : List Val :=
  (SMap.number 0 row).map (fun e => scaledVal f e.2 (nth sc 127 (e.1 / 32)))

/-- The result of one row of a pass: the new words of columns 0 to N − 1, each with what R121 records of it: 0 nothing,
1 saturation, 2 an infinity written, 3 a NaN written. The word that the pass writes decides: an element that overflows at one segment
and becomes NaN at a later one records a NaN alone (R121, R123; DEDUCED, unsafe, log entry 74). -/
def passRow (t : Tile) (fa : Nat) (row sc : List Nat) (old : List Nat) : List (Nat × Nat) :=
  (SMap.number 0 old).map (fun e =>
    if fmtInt fa then
      let r := intElem (row.map (intVal fa)) (t.intColumn e.1) e.2
      (r.1, if r.2 then 1 else 0)
    else
      let r := floatElem fa t.fmt (aRow fa row sc) (t.column e.1) e.2
      (r.1, if !r.2 then 0 else match fpVal 14 r.1 with
        | .nan => 3
        | .inf _ => 2
        | _ => 0))

end Sys2Proof.Machine
end

