-- ==== Sys2Proof/Machine/Events.lean ====
section
/-! DEFINITION. Event counters and waits (R250 to R252), the slots of a ring (R231 to R235), and how a command ends:
retirement, status, signal, notification and halt (R235, R238, R256, R260, R261). -/

namespace Sys2Proof.Machine

/-! ### Event counters -/

/-- Event counter `e`. -/
def State.evt (s : State) (e : Nat) : Nat := s.rd QUE_EVT.VALUE 0 e

/-- Is wait `i` of a command satisfied (R250)? -/
def State.waitMet (s : State) (c : List W64) (i : Nat) : Bool :=
  !bitB (cWmask c) i || decide (cWth c i ≤ s.evt (cWev c i))

/-- Are all waits of a command satisfied in one evaluation (R252)? -/
def State.waitsMet (s : State) (c : List W64) : Bool := (List.range 4).all (s.waitMet c)

/-- The waits of the head of a queue are evaluated: once they are met together the head is eligible for good (R252). -/
def evalHead (s : State) (x : Queue) : Queue :=
  match x.cmd with
  | some c =>
    if x.checked && !x.elig && x.running.isNone && x.st != 5 then
      if s.waitsMet c then { x with elig := true, eligAt := s.now, st := if x.st = 6 then 6 else 3 }
      else { x with st := if x.st = 6 then 6 else 2 }
    else x
  | none => x

/-- Does the head of a queue name counter `e` in a wait in force? -/
def Queue.names (x : Queue) (e : Nat) : Bool :=
  match x.cmd with
  | some c => (List.range 4).any (fun i => bitB (cWmask c) i && cWev c i == e)
  | none => false

/-- Heads that wait on counter `e` are evaluated (R252). -/
def State.evalWaits (s : State) (e : Nat) : State :=
  { s with que := { s.que with
      qs := s.que.qs.mapDrop (fun _ => {}) (fun _ x => if x.names e then evalHead s x else x) } }

/-- Counter `e` is set to `v`. -/
def State.setEvt (s : State) (e v : Nat) : State := (s.wr QUE_EVT.VALUE v 0 e).evalWaits e

/-- `k` is added to counter `e` modulo 2^32 (R250); steps of winnow are counted on their counter (R560). -/
def State.addEvt (s : State) (e k : Nat) : State :=
  let s := if e = s.rd WNW_CFG.STEPEV then { s with steps := s.steps + k } else s
  s.setEvt e ((s.evt e + k) % 2 ^ 32)

/-! ### Rings -/

/-- Slots of queue `q`. -/
def State.qSize (s : State) (q : Nat) : Nat := s.rd QUE_Q_CFG.SIZE 0 q

/-- The slot's space and address, by the queue's registers. -/
def State.slotPos (s : State) (q i : Nat) : Nat × Nat :=
  (s.rd QUE_Q_CFG.SPACE 0 q, s.rd QUE_Q_BASE.ADDR 0 q * 64 + 64 * i)

/-- A read of `n` bytes of slot `i` by the queue engine (R293: stream). -/
def State.slotRead (s : State) (q i n : Nat) : Rd :=
  let (sp, a) := s.slotPos q i
  s.memRead sp 0 a n 0 false .queue none

/-- A write to slot `i` by the queue engine. -/
def State.slotWrite (s : State) (q i : Nat) (d : List Byte) : State :=
  let (sp, a) := s.slotPos q i
  s.memWrite sp 0 a d 0 .queue none

/-- 64-bit words of a byte list. -/
def words64 : Nat → List Byte → List W64
  | 0, _ => []
  | n + 1, d => w64 (ofLe (d.take 8)) :: words64 n (d.drop 8)

/-- Bytes of a list of 64-bit words. -/
def bytes64 (ws : List W64) : List Byte := (ws.map (fun w => leBytes 8 w.toNat)).flatten

/-- Is slot `i` free (R235): not used since the queue was enabled, or VALID = 0 and CDONE = 1 in its word 0? -/
def State.slotFree (s : State) (q i : Nat) : Bool × State :=
  if (s.queue q).appended < s.qSize q then (true, s)
  else
    let r := s.slotRead q i 8
    let w := ofLe r.data
    (!bitB w 25 && bitB w 24, r.st)

/-! ### How a command ends -/

/-- A completion notification leaves (R261). -/
def State.notifyDone (s : State) (q status slot : Nat) (c : List W64) (halt : Bool) : State :=
  s.say (.notify q status (cOp c) (cTag c) halt slot (bits s.now 47 0))

/-- The command at the head of queue `q` leaves it, and the next one reaches the head (R256). In PUSH mode a command
behind it is already in the ring. -/
def State.retireHead (s : State) (q : Nat) : State :=
  let sz := s.qSize q
  let push := s.rdB QUE_Q_CFG.MODE 0 q
  s.modQueue q (fun x =>
    let h := if sz = 0 then 0 else (x.head + 1) % sz
    let more := push && decide (x.retiredN + 1 < x.appended)
    { x with
      head := h
      tail := if push then x.tail else h
      retiredN := x.retiredN + 1
      cmd := none
      checked := false
      elig := false
      granted := false
      running := none
      st := if x.st = 6 then 6 else if more then 2 else 1 })

/-- Word 0 as the engine writes it: STATUS, CDONE and VALID. -/
def word0 (c : List W64) (status : Nat) (cdone valid : Bool) : Nat :=
  setBits (setBits (setBits (cw c 0) 23 16 status) 24 24 (b2n cdone)) 25 25 (b2n valid)

/-- A command of queue `q` at slot `i` ends with a status. `retired` says whether it has left the head already. -/
def State.endCmd (s : State) (q i : Nat) (c : List W64) (retired : Bool) (status : Nat) : State :=
  let fail := decide (0x10 ≤ status)
  let halt := !retired && fail && !cCont c && (s.queue q).st != 6
  let s := s.slotWrite q i (leBytes 8 (word0 c status true halt))
  let s := if status = 0x17 then s.incSat QUE_CNT.BADCMD 1 0 else s
  let s :=
    if halt then
      (s.wrs .QUE_Q_STAT 0 q 0 [(QUE_Q_STAT.STATUS, status), (QUE_Q_STAT.INDEX, i)]).modQueue q
        (fun x => { x with st := 5, running := none, granted := false })
    else if retired then s
    else s.retireHead q
  let s := if cSig c && (cSigAll c || !fail) then s.addEvt (cSigev c) 1 else s
  if cNotify c || halt then s.notifyDone q status i c halt else s

/-- The command in flight of this number. -/
def State.cmdOf (s : State) (id : Nat) : Option Cmd := s.que.cmds.find? (fun c => c.id == id)

/-- A command in flight changed by `f`. -/
def State.modCmd (s : State) (id : Nat) (f : Cmd → Cmd) : State :=
  { s with que := { s.que with cmds := mapIf (fun c => c.id == id) f s.que.cmds } }

/-- A command in flight completes with a status: it is in flight no longer. -/
def State.finishCmd (s : State) (id status : Nat) : State :=
  match s.cmdOf id with
  | some c =>
    let s := { s with que := { s.que with cmds := s.que.cmds.filter (fun x => x.id != id) } }
    s.endCmd c.queue c.slot c.words c.retired status
  | none => s

/-- The end of a command in flight is reported to the engine, which writes it at its next COMMAND_COMPLETE (R235). -/
def State.report (s : State) (id status : Nat) : State :=
  match s.cmdOf id with
  | some _ => { s with que := { s.que with done := s.que.done ++ [(id, status)] } }
  | none => s

end Sys2Proof.Machine
end

