-- ==== Sys2Proof/Machine/Exceptions.lean ====
section
/-! DEFINITION. How an instruction issues (R140, R161, R173), and taking an exception (R172 to R174): one operation for
every cause. -/

namespace Sys2Proof.Machine

/-! ### The end of a core's work -/

/-- EVENT and SIG of a gleaner descriptor (R193). -/
def glnEvent (d : List W64) : Nat := bits (cw d 0) 47 32
/-- SIG of a gleaner descriptor. -/
def glnSig (d : List W64) : Bool := bitB (cw d 0) 48

/-- The scalar processor whose instruction made a gleaner entry; none for a GLEAN command's. -/
def GlnEntry.issuer (e : GlnEntry) : Option Nat := if e.cmd.isNone then some e.sp else none

/-- Event traffic of scalar processor `p`, of the gleaner or of the stook passes the core's base-die port, in and out (R138, R185). How
many bytes it takes is not stated: an opaque constant each way (DESIGN CHOICE, safe, log entry 3). -/
def State.portEvent (s : State) (c : Nat) (p : Option Nat) : State :=
  (s.count c 0x42 p Config.evtBytesIn).count c 0x43 p Config.evtBytesOut

/-- An instruction's gleaner operation of core `c` signals its event, if it asks (R191, R221). -/
def State.glnSignal (s : State) (c : Nat) (e : GlnEntry) : State :=
  if e.cmd.isNone && glnSig e.desc then (s.addEvt (glnEvent e.desc) 1).portEvent c e.issuer else s

/-- Stream rows that an operation has not placed are owed from now on, as zero rows (R211). -/
def Stream.owe (x : Stream) (id : Nat) : Stream :=
  { x with segs := mapIf (fun g => g.entry == id) (fun g => { g with ended := true }) x.segs }

/-- See `Stream.owe`. -/
def Gln.owe (g : Gln) (id : Nat) : Gln :=
  { g with s0 := g.s0.owe id, s1 := g.s1.owe id, s2 := g.s2.owe id, s3 := g.s3.owe id }

/-- Gleaner entries that a test accepts are discarded: instruction entries signal (R221), commands end with ABORTED
(R222). -/
def State.glnDiscard (s : State) (c : Nat) (f : GlnEntry → Bool) : State :=
  let out := (s.core c).gln.queue.filter f
  let s := s.modGln c (fun g => out.foldl (fun g e => g.owe e.id) { g with queue := g.queue.filter (fun e => !f e) })
  let s := if out.isEmpty then s else s.touched c
  out.foldl (fun s e => match e.cmd with
    | some id => s.report id 0x18
    | none => s.glnSignal c e) s

/-- Both scalar processors stop, and the entries their instructions made that have not started are discarded (R174). The
oldest entry of the tile mover counts as started. Loads and atomics on their way are earlier instructions, which the exception leaves
complete (R173): their data are delivered. -/
def State.haltCore (s : State) (c : Nat) : State :=
  let stop := fun (u : Sp) =>
    { u.loads.foldl (fun u l => u.setX l.rd l.val) u with run := false, fetch := none, accWait := none, loads := [] }
  let quiet := fun (a : Arr) =>
    { a with queue := [], loads := a.loads.filter (fun l => l.started || l.sp == 2) }
  let s := s.modCore c (fun k => { k with
    sp0 := stop k.sp0
    sp1 := stop k.sp1
    arr0 := quiet k.arr0
    arr1 := quiet k.arr1
    arr2 := quiet k.arr2
    arr3 := quiet k.arr3
    mover := k.mover.take 1 })
  s.glnDiscard c (fun e => e.cmd.isNone && !e.running)

/-! ### Taking an exception -/

/-- An exception: its cause (R172), whether it is precise, the array and the remote status it records, the address saved
and the information recorded. -/
structure Exc where
  cause : Nat
  precise : Bool
  arr : Nat
  status : Nat
  epc : Nat
  info : Nat
  deriving DecidableEq, Repr

/-- CORE_EXC, CORE_EPC and CORE_EINFO are filled (R174, R179, R180). -/
def State.fillExc (s : State) (c p : Nat) (e : Exc) (nested halted : Bool) : State :=
  let s := s.wrs .CORE_EXC c p 0 [(CORE_EXC.CAUSE, e.cause), (CORE_EXC.PRECISE, b2n e.precise),
    (CORE_EXC.NESTED, b2n nested), (CORE_EXC.ARRAY, e.arr), (CORE_EXC.STATUS, e.status), (CORE_EXC.HALTED, b2n halted)]
  (s.wr CORE_EPC.PC e.epc c p).wr CORE_EINFO.INFO e.info c p

/-- Scalar processor `p` of core `c` takes an exception (R174). It enters the handler in supervisor mode; or, where
exceptions are not enabled, where it is in supervisor mode already, or where its kernel is over (`ended`, R171), the
exception is unhandled and halts the core. -/
def State.takeExc (s : State) (c p : Nat) (e : Exc) (ended : Bool := false) : State :=
  let sup := (s.sp c p).super
  let unhandled := ended || sup || !s.rdB CORE_CTL.EXC_EN c
  let s := s.fillExc c p e sup unhandled
  let s := s.count c 0x70 (some p) 1
  let s := if s.rdB OBS_CORE.EXC c then s.traceAdd c 5 e.cause (w64 e.epc) else s
  if unhandled then
    let s := if s.rdB CNT_CTL.FREEZE c then s.wr CNT_CTL.EN 0 c else s
    let s := s.modCore c (fun k => { k with kernel := k.kernel.map (fun x =>
      { x with bad := some (x.bad.getD (if e.cause = 9 then e.status else 0x18)) }) })
    s.haltCore c
  else
    s.modSp c p (fun u => { u with super := true, pc := w64 (s.rd CORE_VEC.ADDR c * 64) })

/-- A precise exception at the current instruction (R173). -/
def State.precise (s : State) (c p cause info : Nat) : State :=
  s.takeExc c p ⟨cause, true, 0, 0, (s.sp c p).pc.toNat, info⟩

/-- An imprecise exception reaches a scalar processor: it waits its turn, a fifth is lost (R173); after END it is unhandled
(R171). -/
def State.imprecise (s : State) (c p cause arr status info : Nat) : State :=
  let u := s.sp c p
  if u.ended then s.takeExc c p ⟨cause, false, arr, status, u.pc.toNat, info⟩ true
  else if 4 ≤ u.pend.length then s.wr CORE_EXC.OVF 1 c p
  else s.modSp c p (fun u => { u with pend := u.pend ++ [⟨cause, arr, status, w64 info⟩] })

/-! ### Issue -/

/-- The instruction cache's line `l`. -/
def Core.icLine (k : Core) (l : Nat) : Option IcLine := k.icache.find? (fun x => x.line == l)

/-- The first line that a fetch at the processor's pc misses: the line of the pc, or the next one where the instruction there, by the
bytes that the cache holds, has 64 bits and spans both (R140). -/
def State.missLine (s : State) (c p : Nat) : Option Nat :=
  let a := (s.sp c p).pc.toNat
  match (s.core c).icLine (a / 64) with
  | none => some (a / 64)
  | some x =>
    if bits (lane 32 x.data.toNat (a % 64 / 4)) 6 5 == 3 && ((s.core c).icLine ((a + 4) / 64)).isNone then some ((a + 4) / 64)
    else none

/-- May scalar processor `p` of core `c` issue? It runs, the instruction cache holds the lines at its pc (R140), it waits neither for
an instruction line nor for an accumulator access, and it has no imprecise exception to take first (R173). -/
def State.canIssue (s : State) (c p : Nat) : Bool :=
  let u := s.sp c p
  s.alive && u.run && u.fetch.isNone && (s.missLine c p).isNone && u.accWait.isNone && (u.super || u.pend.isEmpty)

/-- Is a scalar or vector register locked by an outstanding load or RLD (R161)? Remote operations of kind 0 are RLDs;
those with data register in the vector file have 128 B. -/
def State.locked (s : State) (c p : Nat) (vec : Bool) (r : Nat) : Bool :=
  (!vec && r != 0 && (s.sp c p).loads.any (fun l => l.rd == r)) ||
    s.win.ops.any (fun o => o.srcid == c && o.sp == p && o.kind == 0 && o.reg == r && (o.len == 128) == vec && (vec || r != 0))

/-- An instruction row runs: where its word is that row's instruction and the processor may issue, it takes ILLEGAL if a
field is not legal (R148), waits while a register it names is locked, and otherwise has its effect. -/
def State.issue (s : State) (c p w : Nat) (row legal : Bool) (xs vs : List Nat) (eff : State → State) : State :=
  if !row || !s.canIssue c p then s
  else if !legal then s.precise c p 1 (w % 2 ^ 32)
  else if xs.any (s.locked c p false) || vs.any (s.locked c p true) then s
  else eff s

/-- Cycles of each window of 64 in which the arrays and vector units of die `d` accept work: ⌈64 f⌉ (R523). -/
def State.issueCycles (s : State) (d : Nat) : Nat := ceilDiv (64 * s.pwr.frac.get 400 d) 400

/-- Is work of an array or a vector unit of core `c` held back in this cycle? The cycle's place in its window is timing, so where some
cycles of a window are closed it is a free value (DESIGN CHOICE, safe, log entry 83). -/
def State.throttled (s : State) (c : Nat) : Bool × State :=
  if 64 ≤ s.issueCycles (c / 16) then (false, s)
  else (decide (s.issueCycles (c / 16) ≤ s.free64.1.toNat % 64), s.free64.2)

/-- The frame of a vector instruction: that of every instruction, in a cycle in which the vector unit issues (R523). -/
def State.issueV (s : State) (c p w : Nat) (row legal : Bool) (xs vs : List Nat) (eff : State → State) : State :=
  s.issue c p w row legal xs vs (fun s => if (s.throttled c).1 then (s.throttled c).2 else eff (s.throttled c).2)

/-- The instruction retires: pc moves on by `n` (R139), and it counts as retired (R185). -/
def State.retire (s : State) (c p n : Nat) : State :=
  (s.modSp c p (fun u => { u with pc := u.pc + w64 n })).count c 0x03 (some p) 1

/-- The instruction retires with its successor at `a`. -/
def State.retireTo (s : State) (c p : Nat) (a : W64) : State :=
  (s.modSp c p (fun u => { u with pc := a })).count c 0x03 (some p) 1

/-- Scalar result and retirement of a 32-bit instruction. -/
def State.retireX (s : State) (c p rd : Nat) (v : W64) : State :=
  (s.modSp c p (fun u => u.setX rd v)).retire c p 4

end Sys2Proof.Machine
end

