-- ==== Sys2Proof/Machine/CoreAccess.lean ====
section
/-! DEFINITION. What the memory accesses of a scalar processor share: the interlock of accumulation groups (R127), the wait
on its own tile moves (R157), vector load buffers (R322), the value of a load, and the fence (R324). -/

namespace Sys2Proof.Machine

/-! ### Tile work in an array -/

/-- The group that a tile instruction works on, if any. -/
def TileOp.grp? (o : TileOp) : Option Nat :=
  match o with
  | .loadb _ _ _ => none
  | .pass r => some r.grp
  | .opn g _ _ => some g
  | .cls g => some g

/-- Passes, opens and closes into group `g` that processor `p` issued and that have not taken effect (R133). -/
def Arr.pendFor (a : Arr) (p g : Nat) : Nat :=
  (a.queue.filter (fun e => e.sp == p && e.op.grp? == some g)).length +
    (a.passes.filter (fun x => x.sp == p && x.req.grp == g)).length +
    (a.effs.filter (fun x => x.sp == p && x.g == g)).length

/-- Is a pass into group `g` in flight (R80)? -/
def Arr.inFlight (a : Arr) (g : Nat) : Bool := a.passes.any (fun x => x.req.grp == g)

/-- Array and group of accumulator word index `w` (R124). -/
def accGroup (w : Nat) : Nat × Nat := (w / 0x40000, w / 0x10000 % 4)

/-- The groups that S-space bytes [a, a + n) touch. -/
def groupsOf (a n : Nat) : List (Nat × Nat) :=
  if touchesAcc a n then
    let lo := (max a accBase - accBase) / 0x40000
    let hi := (min (a + n) sEnd - 1 - accBase) / 0x40000
    (List.range (hi - lo + 1)).map (fun i => ((lo + i) / 4, (lo + i) % 4))
  else []

/-- Must an access by processor `p` (none: a copy engine or the stook) to [a, a + n) wait for a pass (R127, rules 1 and
2)? An array that the stook owns is out of its reach and makes it wait for nothing (R128). -/
def State.accBusy (s : State) (c : Nat) (p : Option Nat) (a n : Nat) : Bool :=
  (groupsOf a n).any (fun e =>
    !s.owned c e.1 && ((s.arr c e.1).inFlight e.2 ||
      (match p with
       | some q => (s.arr c e.1).pendFor q e.2 != 0
       | none => false)))

/-- Do byte ranges overlap? -/
def overlap (a n b m : Nat) : Bool := n != 0 && m != 0 && a < b + m && b < a + n

/-- Does [a, a + n) of a space overlap the source or the destination of a move? -/
def MoveEntry.hits (e : MoveEntry) (space a n : Nat) : Bool :=
  let f := fun (t : Td) => t.space == space && (t.ranges false).any (fun r => overlap a n r.1 r.2)
  f (tdOf e.td) || f (tdOf e.ts)

/-- Must an access by `p` wait for one of its own tile moves (R157)? -/
def State.moveBusy (s : State) (c p space a n : Nat) : Bool :=
  (s.core c).mover.any (fun e => e.sp == p && e.hits space a n)

/-! ### Vector load buffers (R322) -/

/-- Key of a line in the load buffers. -/
def vbKey (space a : Nat) : Nat := space * 0x10000000000 + a / 128

/-- A line with the bytes `d` stored from address `a` on, where they fall into it. -/
def lineStore (line : V1024) (base a : Nat) (d : List Byte) : V1024 :=
  BitVec.ofNat 1024 (packLanes 8 ((List.range 128).map (fun i =>
    if a ≤ base + i ∧ base + i < a + d.length then (nth d 0 (base + i - a)).toNat else lane 8 line.toNat i)))

/-- The processor's own store updates the lines it holds (R322). -/
def Sp.vbStore (u : Sp) (space a : Nat) (d : List Byte) : Sp :=
  { u with vbuf := u.vbuf.map (fun e =>
      if e.1 / 0x10000000000 = space ∧ overlap a d.length (e.1 % 0x10000000000 * 128) 128 then
        (e.1, lineStore e.2 (e.1 % 0x10000000000 * 128) a d)
      else e) }

/-! ### Loads and stores (R323) -/

/-- The value a load delivers. -/
def loadValue (d : List Byte) (sx : Bool) : W64 :=
  if sx then w64 (wrapN 64 (sext (8 * d.length) (ofLe d))) else w64 (ofLe d)

/-- A store by processor `p` to S-space or L-space: the write takes effect, and its own load buffers follow. -/
def State.spStore (s : State) (c p space a : Nat) (d : List Byte) (g : Agent) : State :=
  (s.coreWrite space c a d 0 g (some p)).modSp c p (fun u => u.vbStore space a d)

/-! ### The fence (R324) -/

/-- Has every tile instruction that `p` issued taken effect in this array? -/
def Arr.quiet (a : Arr) (p : Nat) : Bool :=
  a.queue.all (fun e => e.sp != p) && a.passes.all (fun e => e.sp != p) && a.loads.all (fun e => e.sp != p) &&
    a.effs.all (fun e => e.sp != p)

/-- Have all operations that FENCE.L waits for taken effect (R324)? -/
def State.fenced (s : State) (c p : Nat) : Bool :=
  let k := s.core c
  (k.sp p).loads.isEmpty && (List.range 4).all (fun a => (k.arr a).quiet p) && k.mover.all (fun e => e.sp != p)

end Sys2Proof.Machine
end

