-- ==== Sys2Proof/Machine/Scalar.lean ====
section
/-! DEFINITION. The scalar instructions (R149), atomics (R164), synchronisation (R163, R324 to R327), system
instructions (R166) and the instruction cache (R140). -/

namespace Sys2Proof.Machine

open Host (Outcome)

/-! ### Arithmetic (R149) -/

/-- Signed division rounding towards zero. -/
def divS (x y : W64) : W64 :=
  if y = 0 then BitVec.allOnes 64 else w64 (wrapN 64 (Int.tdiv x.toInt y.toInt))

/-- Signed remainder, with the sign of the dividend. -/
def remS (x y : W64) : W64 := if y = 0 then x else w64 (wrapN 64 (Int.tmod x.toInt y.toInt))

/-- Leading zeros. -/
def clz64 (x : Nat) : Nat := if x = 0 then 64 else 63 - Nat.log2 x
/-- Trailing zeros. -/
def ctz64 (x : Nat) : Nat := (lowBit 64 x).getD 64

/-- The operations of MAJ 0x01. -/
def aluOp (f : Nat) (x y : W64) : W64 :=
  match f with
  | 0 => x + y
  | 1 => x - y
  | 2 => x &&& y
  | 3 => x ||| y
  | 4 => x ^^^ y
  | 5 => x <<< (y.toNat % 64)
  | 6 => x >>> (y.toNat % 64)
  | 7 => x.sshiftRight (y.toNat % 64)
  | 8 => if x.toInt < y.toInt then 1 else 0
  | 9 => if x.toNat < y.toNat then 1 else 0
  | 10 => x * y
  | 11 => w64 (wrapN 64 (x.toInt * y.toInt / (2 ^ 64 : Nat)))
  | 12 => w64 (x.toNat * y.toNat / 2 ^ 64)
  | 13 => divS x y
  | 14 => if y = 0 then BitVec.allOnes 64 else w64 (x.toNat / y.toNat)
  | 15 => remS x y
  | 16 => if y = 0 then x else w64 (x.toNat % y.toNat)
  | 17 => if x.toInt < y.toInt then x else y
  | 18 => if x.toInt < y.toInt then y else x
  | 19 => if x.toNat < y.toNat then x else y
  | 20 => if x.toNat < y.toNat then y else x
  | 21 => w64 (popN 64 x.toNat)
  | 22 => w64 (clz64 x.toNat)
  | 23 => w64 (ctz64 x.toNat)
  | _ => w64 (wrapN 64 (sext 32 (x.toNat + y.toNat)))

/-- MAJ 0x01: register arithmetic. -/
def execScalarRegOp (c p : Nat) (w : W32) (s : State) : Outcome State Fault Refusal :=
  let i := w.toNat
  let u := s.sp c p
  let unary := decide (21 ≤ iF i ∧ iF i ≤ 23)
  .next (s.issue c p i (iMaj i == 0x01) (iF i ≤ 24 && iRs3 i == 0 && (!unary || iRs2 i == 0))
    [iRd i, iRs1 i, iRs2 i] [] (fun s => s.retireX c p (iRd i) (aluOp (iF i) (u.xr (iRs1 i)) (u.xr (iRs2 i)))))

/-- The operations of MAJ 0x02 to 0x05 and 0x07 on a sign-extended immediate. -/
def immOp (m : Nat) (x y : W64) : W64 :=
  match m with
  | 0x02 => x + y
  | 0x03 => x &&& y
  | 0x04 => x ||| y
  | 0x05 => x ^^^ y
  | _ => if x.toInt < y.toInt then 1 else 0

/-- ADDI, ANDI, ORI, XORI, SLTI. -/
def execScalarImmOp (c p : Nat) (w : W32) (s : State) : Outcome State Fault Refusal :=
  let i := w.toNat
  let m := iMaj i
  .next (s.issue c p i ((2 ≤ m && m ≤ 5) || m == 7) true [iRd i, iRs1 i] [] (fun s =>
    s.retireX c p (iRd i) (immOp m ((s.sp c p).xr (iRs1 i)) (w64 (wrapN 64 (iImm15 i))))))

/-- MAJ 0x06: shift by an immediate. -/
def execShiftImm (c p : Nat) (w : W32) (s : State) : Outcome State Fault Refusal :=
  let i := w.toNat
  let k := bits i 22 17
  .next (s.issue c p i (iMaj i == 0x06) (bits i 24 23 != 3 && bits i 31 25 == 0) [iRd i, iRs1 i] [] (fun s =>
    let x := (s.sp c p).xr (iRs1 i)
    s.retireX c p (iRd i) (match bits i 24 23 with
      | 0 => x <<< k
      | 1 => x >>> k
      | _ => x.sshiftRight k)))

/-- LUI. -/
def execLui (c p : Nat) (w : W32) (s : State) : Outcome State Fault Refusal :=
  let i := w.toNat
  .next (s.issue c p i (iMaj i == 0x08) true [iRd i] [] (fun s =>
    s.retireX c p (iRd i) (w64 (wrapN 64 (iImm20 i * 4096)))))

/-- The branch conditions. -/
def condHolds (k : Nat) (x y : W64) : Bool :=
  match k with
  | 0 => x == y
  | 1 => x != y
  | 2 => decide (x.toInt < y.toInt)
  | 3 => decide (y.toInt ≤ x.toInt)
  | 4 => decide (x.toNat < y.toNat)
  | _ => decide (y.toNat ≤ x.toNat)

/-- Conditional branch, relative to its own address. -/
def execBranch (c p : Nat) (w : W32) (s : State) : Outcome State Fault Refusal :=
  let i := w.toNat
  .next (s.issue c p i (iMaj i == 0x0A) (iCond i ≤ 5) [iRd i, iRs1 i] [] (fun s =>
    let u := s.sp c p
    if condHolds (iCond i) (u.xr (iRd i)) (u.xr (iRs1 i)) then
      s.retireTo c p (w64 (addOff u.pc (iImm12 i * 4)))
    else s.retire c p 4))

/-- JAL. -/
def execJal (c p : Nat) (w : W32) (s : State) : Outcome State Fault Refusal :=
  let i := w.toNat
  .next (s.issue c p i (iMaj i == 0x0B) true [iRd i] [] (fun s =>
    let u := s.sp c p
    (s.modSp c p (fun u => u.setX (iRd i) (u.pc + 4))).retireTo c p (w64 (addOff u.pc (iImm20 i * 4)))))

/-- JALR. -/
def execJalr (c p : Nat) (w : W32) (s : State) : Outcome State Fault Refusal :=
  let i := w.toNat
  .next (s.issue c p i (iMaj i == 0x0C) true [iRd i, iRs1 i] [] (fun s =>
    let u := s.sp c p
    (s.modSp c p (fun u => u.setX (iRd i) (u.pc + 4))).retireTo c p
      (w64 (addOff (u.xr (iRs1 i)) (iImm15 i) / 4 * 4))))

/-- A write of one half of a tile descriptor register. -/
def tdWrite (f lo : Nat) (c p : Nat) (w : W32) (s : State) : State :=
  let i := w.toNat
  s.issue c p i (iMaj i == 0x0D && iF i == f) (iRd i < 16 && iRs2 i == 0 && iRs3 i == 0) [iRs1 i] [] (fun s =>
    (s.modSp c p (fun u => u.setT (iRd i)
      (BitVec.ofNat 128 (setBits (u.tr (iRd i)).toNat (lo + 63) lo (u.xr (iRs1 i)).toNat)))).retire c p 4)

/-- A read of one half of a tile descriptor register. -/
def tdRead (f lo : Nat) (c p : Nat) (w : W32) (s : State) : State :=
  let i := w.toNat
  s.issue c p i (iMaj i == 0x0D && iF i == f) (iRs1 i < 16 && iRs2 i == 0 && iRs3 i == 0) [iRd i] [] (fun s =>
    s.retireX c p (iRd i) (w64 (bits ((s.sp c p).tr (iRs1 i)).toNat (lo + 63) lo)))

/-- TD.WLO. -/
def execTdWlo (c p : Nat) (w : W32) (s : State) : Outcome State Fault Refusal := .next (tdWrite 0 0 c p w s)
/-- TD.WHI. -/
def execTdWhi (c p : Nat) (w : W32) (s : State) : Outcome State Fault Refusal := .next (tdWrite 1 64 c p w s)
/-- TD.RLO. -/
def execTdRlo (c p : Nat) (w : W32) (s : State) : Outcome State Fault Refusal := .next (tdRead 2 0 c p w s)
/-- TD.RHI. -/
def execTdRhi (c p : Nat) (w : W32) (s : State) : Outcome State Fault Refusal := .next (tdRead 3 64 c p w s)

/-! ### Scalar loads and stores (R149) -/

/-- Address of a format-M access. -/
def mAddr (u : Sp) (i : Nat) : Nat := addOff (u.xr (iRs1 i)) (iImm12 i)
/-- Bytes of a format-M access. -/
def mSize (i : Nat) : Nat := 2 ^ iW i

/-- Does a scalar access of `n` bytes at `a` take ACCESS in S-space (R125, R149)? R125 is read of accesses that begin in the
accumulator range: a misaligned access that begins below it and reaches into it takes ALIGN (DEDUCED, unsafe, log entry 71). -/
def sBarred (a n : Nat) : Bool := !inS a n || (accBase ≤ a && (n < 4 || a % n != 0))

/-- Does a scalar access of `n` bytes at `a` take ACCESS in a space? -/
def scalarBarred (v : Variant) (space a n : Nat) : Bool := if space = 0 then sBarred a n else !inL v a n

/-- An access of processor `p` to S-space or L-space is made: a failing address takes its exception, ACCESS before ALIGN
(R173); an access that overlaps one of its own tile moves waits (R157); one to a group waits on passes (R127) as the
processor's pending access; any other takes effect. -/
def State.access (s : State) (c p i space a n : Nat) (bad : Bool) (align : Nat) (eff : State → State) : State :=
  if bad then s.precise c p 4 a
  else if a % align ≠ 0 then s.precise c p 3 a
  else if s.moveBusy c p space a n then s
  else if space = 0 && s.accBusy c (some p) a n then s.modSp c p (fun u => { u with accWait := some (BitVec.ofNat 32 i) })
  else eff s

/-- LD.S takes effect. -/
def ldSEff (c p i : Nat) (s : State) : State :=
  let r := s.sRead c (mAddr (s.sp c p) i) (mSize i) .scalar (some p)
  r.st.retireX c p (iRd i) (loadValue r.data (iSx i))

/-- LD.S. -/
def execLdS (c p : Nat) (w : W32) (ups : List Upset) (s : State) : Outcome State Fault Refusal :=
  let i := w.toNat
  .next (s.issue c p i (iMaj i == 0x10) true [iRd i, iRs1 i] [] (fun s =>
    let a := mAddr (s.sp c p) i
    (s.mark 0 c ups).access c p i 0 a (mSize i) (sBarred a (mSize i)) (mSize i) (ldSEff c p i)))

/-- ST.S takes effect. -/
def stSEff (c p i : Nat) (s : State) : State :=
  let u := s.sp c p
  (s.spStore c p 0 (mAddr u i) (leBytes (mSize i) (u.xr (iRd i)).toNat) .scalar).retire c p 4

/-- ST.S. -/
def execStS (c p : Nat) (w : W32) (s : State) : Outcome State Fault Refusal :=
  let i := w.toNat
  .next (s.issue c p i (iMaj i == 0x11) true [iRd i, iRs1 i] [] (fun s =>
    let a := mAddr (s.sp c p) i
    s.access c p i 0 a (mSize i) (sBarred a (mSize i)) (mSize i) (stSEff c p i)))

/-- LD.L reads its word as it issues, in program order (R323; DEDUCED, unsafe, log entry 70), and its data returns later
(LOAD_DATA_RETURN). -/
def execLdL (c p : Nat) (w : W32) (ups : List Upset) (s : State) : Outcome State Fault Refusal :=
  let i := w.toNat
  .next (s.issue c p i (iMaj i == 0x12) true [iRd i, iRs1 i] [] (fun s =>
    let a := mAddr (s.sp c p) i
    (s.mark 1 c ups).access c p i 1 a (mSize i) (!inL s.variant a (mSize i)) (mSize i) (fun s =>
      let r := s.coreRead 1 c a (mSize i) 0 false .scalar (some p)
      (r.st.modSp c p (fun u => { u with loads := u.loads ++ [⟨iRd i, loadValue r.data (iSx i)⟩] })).retire c p 4)))

/-- ST.L. -/
def execStL (c p : Nat) (w : W32) (s : State) : Outcome State Fault Refusal :=
  let i := w.toNat
  .next (s.issue c p i (iMaj i == 0x13) true [iRd i, iRs1 i] [] (fun s =>
    let u := s.sp c p
    let a := mAddr u i
    s.access c p i 1 a (mSize i) (!inL s.variant a (mSize i)) (mSize i) (fun s =>
      (s.spStore c p 1 a (leBytes (mSize i) (u.xr (iRd i)).toNat) .scalar).retire c p 4)))

/-- The data of the oldest outstanding load or atomic returns (R287). -/
def execLoadDataReturn (c p : Nat) (s : State) : Outcome State Fault Refusal :=
  if !s.alive then .next s else
  match (s.sp c p).loads with
  | [] => .next s
  | l :: r => .next (s.modSp c p (fun u => { u with loads := r }.setX l.rd l.val))

/-! ### Atomics (R164) -/

/-- OP of an atomic. -/
def aOp (i : Nat) : Nat := bits i 31 28
/-- Bytes of an atomic. -/
def aSize (i : Nat) : Nat := if bitB i 27 then 8 else 4
/-- Are the fields of an atomic legal (R148)? -/
def aLegal (i : Nat) : Bool := aOp i ≤ 6 && (aOp i == 1 || iRs3 i == 0)

/-- What an atomic stores over an old value, at `n` bytes: registers x[rs2] and x[rs3]; none where a CAS fails. -/
def aNew (op n old y z : Nat) : Option Nat :=
  let m := 2 ^ (8 * n)
  let y := y % m
  match op with
  | 0 => some y
  | 1 => if old = y then some (z % m) else none
  | 2 => some ((old + y) % m)
  | 3 => some (if sext (8 * n) old < sext (8 * n) y then y else old)
  | 4 => some (if sext (8 * n) y < sext (8 * n) old then y else old)
  | 5 => some (max old y)
  | _ => some (min old y)

/-- The old value as rd receives it. -/
def aResult (n old : Nat) : W64 := w64 (wrapN 64 (sext (8 * n) old))

/-- ATOM.S: the scratchpad alone. -/
def execAtomS (c p : Nat) (w : W32) (s : State) : Outcome State Fault Refusal :=
  let i := w.toNat
  .next (s.issue c p i (iMaj i == 0x18) (aLegal i) [iRd i, iRs1 i, iRs2 i, iRs3 i] [] (fun s =>
    let u := s.sp c p
    let a := (u.xr (iRs1 i)).toNat
    s.access c p i 0 a (aSize i) (!inSpad a (aSize i)) (aSize i) (fun s =>
      let r := s.sRead c a (aSize i) .scalar (some p)
      let old := ofLe r.data
      let s := match aNew (aOp i) (aSize i) old (u.xr (iRs2 i)).toNat (u.xr (iRs3 i)).toNat with
        | some v => r.st.spStore c p 0 a (leBytes (aSize i) v) .scalar
        | none => r.st
      s.retireX c p (iRd i) (aResult (aSize i) old))))

/-- ATOM.L: the word is changed at issue, and the old value returns later. Its operand's bytes pass the base-die port in, and out where it
writes (DEDUCED, unsafe, log entry 102). -/
def execAtomL (c p : Nat) (w : W32) (s : State) : Outcome State Fault Refusal :=
  let i := w.toNat
  .next (s.issue c p i (iMaj i == 0x19) (aLegal i) [iRd i, iRs1 i, iRs2 i, iRs3 i] [] (fun s =>
    let u := s.sp c p
    let a := (u.xr (iRs1 i)).toNat
    s.access c p i 1 a (aSize i) (!inL s.variant a (aSize i)) (aSize i) (fun s =>
      let r := s.coreRead 1 c a (aSize i) 0 false .scalar (some p)
      let old := ofLe r.data
      let s := match aNew (aOp i) (aSize i) old (u.xr (iRs2 i)).toNat (u.xr (iRs3 i)).toNat with
        | some v => r.st.spStore c p 1 a (leBytes (aSize i) v) .scalar
        | none => r.st
      (s.modSp c p (fun u => { u with
        loads := u.loads ++ [⟨iRd i, aResult (aSize i) old⟩] })).retire c p 4)))

/-- The 8 B word of an E-space atomic with its new value in place. -/
def spliceWord (old : List Byte) (off : Nat) (d : List Byte) : List Byte :=
  old.take off ++ d ++ old.drop (off + d.length)

/-- ATOM.E: a read-modify-write of the 8 B word through the bay cache (R293). An uncorrectable word stops it (R541);
frozen E-space keeps its word (R365). The 8 B word passes the base-die port in, and out where it is written (DEDUCED, unsafe, log entry
102). -/
def execAtomE (c p : Nat) (w : W32) (ups : List Upset) (s : State) : Outcome State Fault Refusal :=
  let i := w.toNat
  .next (s.issue c p i (iMaj i == 0x1A) (aLegal i) [iRd i, iRs1 i, iRs2 i, iRs3 i] [] (fun s =>
    let u := s.sp c p
    let a := (u.xr (iRs1 i)).toNat
    (s.mark 2 c ups).access c p i 2 a (aSize i) (!inE s.variant a (aSize i)) (aSize i) (fun s =>
      let r := s.coreRead 2 c (a / 8 * 8) 8 2 false .scalar (some p)
      if r.ue then r.st
      else
        let old := ofLe ((r.data.drop (a % 8)).take (aSize i))
        let s := match aNew (aOp i) (aSize i) old (u.xr (iRs2 i)).toNat (u.xr (iRs3 i)).toNat with
          | some v => r.st.coreWrite 2 c (a / 8 * 8) (spliceWord r.data (a % 8) (leBytes (aSize i) v)) 2 .scalar (some p)
          | none => r.st
        (s.modSp c p (fun u => { u with
          loads := u.loads ++ [⟨iRd i, aResult (aSize i) old⟩] })).retire c p 4)))

/-! ### Synchronisation (R163) -/

/-- FENCE.L: retires once every operation of R324 has taken effect. -/
def execFenceL (c p : Nat) (w : W32) (s : State) : Outcome State Fault Refusal :=
  let i := w.toNat
  .next (s.issue c p i (iMaj i == 0x1C && iF i == 0) (bits i 26 7 == 0) [] [] (fun s =>
    if s.fenced c p then s.retire c p 4 else s))

/-- Source space of a COPY, for the copies its engine has read ahead. -/
def copySpace (s : State) (id : Nat) : Option Nat := (s.cmdOf id).map (fun x => bits (cw x.words 7) 1 0)

/-- The copy engines of base die `b` drop what they have read ahead in a space (R327). -/
def State.dropAhead (s : State) (b space : Nat) : State :=
  { s with que := { s.que with copies := s.que.copies.mapDrop (fun _ => []) (fun k js =>
      if k / 4 = b then js.map (fun j => if copySpace s j.cmd = some space then { j with ahead := none } else j)
      else js) } }

/-- ACQ drops the copies of R322 for its space (R327). -/
def State.acquire (s : State) (c p space : Nat) : State :=
  let s := if space = 2 then s.modGln c (fun g => { g with rc := [] })
    else s.modSp c p (fun u => { u with vbuf := u.vbuf.filter (fun e => e.1 / 0x10000000000 != space) })
  s.dropAhead (coreBdie c) space

/-- ACQ. -/
def execAcq (c p : Nat) (w : W32) (s : State) : Outcome State Fault Refusal :=
  let i := w.toNat
  .next (s.issue c p i (iMaj i == 0x1C && iF i == 1) (iRd i ≤ 2 && bits i 26 12 == 0) [] [] (fun s =>
    (s.acquire c p (iRd i)).retire c p 4))

/-- EVT.WAIT: retires once the counter is at or above the threshold. -/
def execEvtWait (c p : Nat) (w : W32) (s : State) : Outcome State Fault Refusal :=
  let i := w.toNat
  .next (s.issue c p i (iMaj i == 0x1C && iF i == 2) (iRd i == 0 && iRs3 i == 0) [iRs1 i, iRs2 i] [] (fun s =>
    let u := s.sp c p
    if bits (u.xr (iRs2 i)).toNat 31 0 ≤ s.evt (bits (u.xr (iRs1 i)).toNat 15 0) then (s.portEvent c (some p)).retire c p 4 else s))

/-- EVT.SIG: the whole of FENCE.L, then the add (R325). -/
def execEvtSig (c p : Nat) (w : W32) (s : State) : Outcome State Fault Refusal :=
  let i := w.toNat
  .next (s.issue c p i (iMaj i == 0x1C && iF i == 3) (iRd i == 0 && iRs3 i == 0) [iRs1 i, iRs2 i] [] (fun s =>
    let u := s.sp c p
    if s.fenced c p then
      ((s.addEvt (bits (u.xr (iRs1 i)).toNat 15 0) (bits (u.xr (iRs2 i)).toNat 31 0)).portEvent c (some p)).retire c p 4
    else s))

/-- FENCE.R: retires once no remote operation of the processor is outstanding. -/
def execFenceR (c p : Nat) (w : W32) (s : State) : Outcome State Fault Refusal :=
  let i := w.toNat
  .next (s.issue c p i (iMaj i == 0x1C && iF i == 4) (bits i 26 7 == 0) [] [] (fun s =>
    if s.win.ops.any (fun o => o.srcid == c && o.sp == p && o.kind ≤ 3 && o.gln.isNone) then s else s.retire c p 4))

/-! ### System instructions (R166) -/

/-- Is this word instruction F of MAJ 0x1F? -/
def isSys (i f : Nat) : Bool := iMaj i == 0x1F && iF i == f

/-- END: issue stops. An imprecise exception still pending is unhandled, and the oldest is recorded (R171). -/
def execEndInstr (c p : Nat) (w : W32) (s : State) : Outcome State Fault Refusal :=
  let i := w.toNat
  .next (s.issue c p i (isSys i 0) (bits i 26 7 == 0) [] [] (fun s =>
    let pend := (s.sp c p).pend
    let s := (s.retire c p 4).modSp c p (fun u => { u with run := false, ended := true, pend := [] })
    match pend with
    | [] => s
    | e :: _ => s.takeExc c p ⟨e.cause, false, e.arr, e.status, (s.sp c p).pc.toNat, e.info.toNat⟩ true))

/-- ERET: supervisor mode alone (R167). -/
def execEret (c p : Nat) (w : W32) (s : State) : Outcome State Fault Refusal :=
  let i := w.toNat
  .next (s.issue c p i (isSys i 1) (bits i 26 7 == 0) [] [] (fun s =>
    if (s.sp c p).super then
      (s.modSp c p (fun u => { u with super := false })).retireTo c p (w64 (s.rd CORE_EPC.PC c p))
    else s.precise c p 2 i))

/-- SUPCALL: its exception, with the address of the next instruction saved (R173). It does not count as an instruction retired (R185;
DEDUCED, unsafe, log entry 102). -/
def execSupcall (c p : Nat) (w : W32) (s : State) : Outcome State Fault Refusal :=
  let i := w.toNat
  .next (s.issue c p i (isSys i 2) (bits i 26 7 == 0) [] [] (fun s =>
    s.takeExc c p ⟨0x0A, true, 0, 0, ((s.sp c p).pc + 4).toNat, 0⟩))

/-- BRK: its exception, with the address of the next instruction saved (R173). It does not count as an instruction retired (R185;
DEDUCED, unsafe, log entry 102). -/
def execBrk (c p : Nat) (w : W32) (s : State) : Outcome State Fault Refusal :=
  let i := w.toNat
  .next (s.issue c p i (isSys i 3) (bits i 26 7 == 0) [] [] (fun s =>
    s.takeExc c p ⟨0x0B, true, 0, 0, ((s.sp c p).pc + 4).toNat, 0⟩))

/-- CNT.RD. -/
def execCntRd (c p : Nat) (w : W32) (s : State) : Outcome State Fault Refusal :=
  let i := w.toNat
  .next (s.issue c p i (isSys i 6) (iRs2 i == 0 && iRs3 i == 0) [iRd i, iRs1 i] [] (fun s =>
    s.retireX c p (iRd i) (w64 (s.rd CNT_VAL.VALUE c (((s.sp c p).xr (iRs1 i)).toNat % 64)))))

/-- TIME.RD. -/
def execTimeRd (c p : Nat) (w : W32) (s : State) : Outcome State Fault Refusal :=
  let i := w.toNat
  .next (s.issue c p i (isSys i 7) (bits i 26 12 == 0) [iRd i] [] (fun s =>
    s.retireX c p (iRd i) (w64 (s.timeAt (coreTime c)))))

/-- TRACE.MARK: a mark record in the core's trace, where OBS_CORE.EN is 1 (R564, R578). -/
def execTraceMarkInstr (c p : Nat) (w : W32) (s : State) : Outcome State Fault Refusal :=
  let i := w.toNat
  .next (s.issue c p i (isSys i 8) (iRd i == 0 && iRs2 i == 0 && iRs3 i == 0) [iRs1 i] [] (fun s =>
    let v := bits ((s.sp c p).xr (iRs1 i)).toNat 31 0
    (if s.rdB OBS_CORE.EN c then s.traceAdd c 1 p (w64 v) else s).retire c p 4))

/-- FPS: reads CORE_FPSTAT, then clears the flags named. -/
def execFps (c p : Nat) (w : W32) (s : State) : Outcome State Fault Refusal :=
  let i := w.toNat
  .next (s.issue c p i (isSys i 9) (iRs2 i == 0 && iRs3 i == 0) [iRd i, iRs1 i] [] (fun s =>
    let x := s.reg .CORE_FPSTAT c 0 0
    let m := bits ((s.sp c p).xr (iRs1 i)).toNat 3 0
    (s.setReg .CORE_FPSTAT c 0 0 (x &&& w64 (0xF - m))).retireX c p (iRd i) x))

/-- ICI: the instruction cache is emptied. -/
def execIci (c p : Nat) (w : W32) (s : State) : Outcome State Fault Refusal :=
  let i := w.toNat
  .next (s.issue c p i (isSys i 10) (bits i 26 7 == 0) [] [] (fun s =>
    (s.modCore c (fun k => { k with icache := [] })).retire c p 4))

/-- CORE.ID. -/
def execCoreId (c p : Nat) (w : W32) (s : State) : Outcome State Fault Refusal :=
  let i := w.toNat
  .next (s.issue c p i (isSys i 11) (bits i 26 12 == 0) [iRd i] [] (fun s =>
    s.retireX c p (iRd i) (w64 (2 * c + p))))

/-! ### The instruction cache (R140) -/

/-- A fetch misses the instruction cache and stalls its processor. -/
def execInstructionFetchMiss (c p : Nat) (s : State) : Outcome State Fault Refusal :=
  if !s.alive then .next s else
  let u := s.sp c p
  match s.missLine c p with
  | some l =>
    .next (if u.run && u.fetch.isNone then
        (s.modSp c p (fun u => { u with fetch := some l })).count c 0x07 (some p) 1
      else s)
  | none => .next s

/-- A line enters the 4-way, 128-set cache, in place of the line of its set that was filled longest ago where the set is full. R140
does not say which line it replaces (DESIGN CHOICE, unsafe, log entry 73). -/
def icFill (ic : List IcLine) (x : IcLine) : List IcLine :=
  let ic := ic.filter (fun y => y.line != x.line)
  let set := ic.filter (fun y => y.line % 128 == x.line % 128)
  let ic := if set.length < 4 then ic else match set.getLast? with
    | some v => ic.filter (fun y => y.line != v.line)
    | none => ic
  x :: ic

/-- The missed line arrives through the base-die port, with its bytes as they stand in the loft, and the processor resumes. A pc
outside L-space, for which no rule names an exception, fetches like any other, and its line's bytes are free values (DESIGN CHOICE,
unsafe, log entry 73). -/
def execInstructionLineArrival (c p : Nat) (s : State) : Outcome State Fault Refusal :=
  if !s.alive then .next s else
  match (s.sp c p).fetch with
  | some l =>
    let fill := fun (s : State) (d : BitVec 512) =>
      (s.modCore c (fun k => { k with icache := icFill k.icache ⟨l, d⟩ })).modSp c p (fun u => { u with fetch := none })
    if inL s.variant (64 * l) 64 then
      let r := s.coreRead 1 c (64 * l) 64 0 false .scalar (some p)
      .next (fill r.st (BitVec.ofNat 512 (ofLe r.data)))
    else
      let (ws, s) := s.freeWords 8
      .next (fill s (BitVec.ofNat 512 (packLanes 64 (ws.map (·.toNat)))))
  | none => .next s

/-- An instruction that R147 and R148 give no meaning: a reserved MAJ, or F, SUB or another listed field at a value that
the list does not give. -/
def majKnown (m : Nat) : Bool :=
  (1 ≤ m && m ≤ 8) || (0x0A ≤ m && m ≤ 0x0D) || (0x10 ≤ m && m ≤ 0x13) || (0x18 ≤ m && m ≤ 0x1A) || m == 0x1C ||
    m == 0x1E || m == 0x1F || (0x20 ≤ m && m ≤ 0x2B) || (0x60 ≤ m && m ≤ 0x63)

/-- Does F or SUB of a word with a known MAJ name no instruction (R149, R151, R154, R155, R160, R163, R166, R186)? -/
def selUnknown (i : Nat) : Bool :=
  match iMaj i with
  | 0x01 => 24 < iF i
  | 0x0D => 3 < iF i
  | 0x1C => 4 < iF i
  | 0x1F => 11 < iF i
  | 0x22 => 5 < iF4 i
  | 0x23 => 2 < iF4 i
  | 0x24 => 1 < iF4 i
  | 0x29 => 2 < iF4 i
  | 0x2A => 5 < iF i
  | 0x2B => 3 < iF4 i
  | 0x60 => 4 < iSub i
  | 0x61 => 6 < iSub i && iSub i < 15
  | 0x62 => iSub i != 0
  | 0x63 => 3 < iSub i
  | _ => false

/-- A word that is no instruction takes ILLEGAL (R147, R148). -/
def execIllegalInstruction (c p : Nat) (w : W32) (s : State) : Outcome State Fault Refusal :=
  let i := w.toNat
  .next (s.issue c p i (!majKnown (iMaj i) || selUnknown i) false [] [] id)

end Sys2Proof.Machine
end

