-- ==== Sys2Proof/Machine/Vector.lean ====
section
/-! DEFINITION. The vector instructions (R150 to R154): arithmetic by lane, comparison, reduction, predicates, conversion,
and vector memory accesses. -/

namespace Sys2Proof.Machine

open Host (Outcome)

/-! ### Types and lanes (R141, R146, R150) -/

/-- Format number of type T: 0 FP32, 1 BF16, 2 FP16, 3 INT8, 4 INT16, 5 INT32. -/
def vFmt (t : Nat) : Nat :=
  match t with
  | 0 => 14 | 1 => 12 | 2 => 13 | 3 => 4 | 4 => 5 | _ => 6

/-- Width of type T in bits. -/
def vW (t : Nat) : Nat := fmtBits (vFmt t)
/-- Lanes of type T. -/
def vN (t : Nat) : Nat := 1024 / vW t
/-- Lane `i` of a vector under type T. -/
def vLane (t : Nat) (v : V1024) (i : Nat) : Nat := lane (vW t) v.toNat i
/-- A vector packed from lanes of `w` bits. -/
def vPack (w : Nat) (l : List Nat) : V1024 := BitVec.ofNat 1024 (packLanes w l)

/-- Flags of a list of results, combined by OR (R57). -/
def orFlags (l : List Fr) : FpFlags := l.foldl (fun a r => a ||| r.2) 0

/-- The flags are set in the core's floating-point status (R57, R178). -/
def State.fpFlags (s : State) (c : Nat) (f : FpFlags) : State :=
  if f = 0 then s else s.setReg .CORE_FPSTAT c 0 0 (s.reg .CORE_FPSTAT c 0 0 ||| w64 f)

/-- A lane-wise result: `f i` where the predicate's bit is 1, the old lane otherwise (R141). -/
def lanewise (w n : Nat) (pg : V128) (old : V1024) (f : Nat → Fr) : V1024 × FpFlags :=
  let l := (List.range n).map (fun i => if bitB pg.toNat i then f i else (lane w old.toNat i, 0))
  (vPack w (l.map (·.1)), orFlags l)

/-- A vector instruction retires (R185, event 0x06). -/
def State.retireV (s : State) (c p : Nat) : State := (s.count c 0x06 (some p) 1).retire c p 4

/-- A vector result with its flags, and retirement. -/
def State.putV (s : State) (c p vd : Nat) (r : V1024 × FpFlags) : State :=
  ((s.modSp c p (fun u => u.setV vd r.1)).fpFlags c r.2).retireV c p

/-! ### Floating arithmetic (R151, R58) -/

/-- A value rounded into format `f`, with NV where the operation was invalid (R57). -/
def frOf (f rm : Nat) (r : Val × Bool) : Fr :=
  let e := encFp f rm r.1
  (e.1, e.2 ||| (if r.2 then fNV else 0))

/-- A floating instruction of format VF by lane: `op rm a b d` on vs1, vs2 and vd. -/
def vfOp (sel : Nat) (unary : Bool) (op : Nat → Val → Val → Val → Val × Bool) (c p : Nat) (w : W32) (s : State) : State :=
  let i := w.toNat
  let t := iTf i
  s.issueV c p i (iMaj i == 0x20 && iF3 i == sel) (t ≤ 2 && (!unary || iRs2 i == 0)) [] [iRd i, iRs1 i, iRs2 i] (fun s =>
    let u := s.sp c p
    let a := u.vr (iRs1 i)
    let b := u.vr (iRs2 i)
    let d := u.vr (iRd i)
    let f := vFmt t
    s.putV c p (iRd i) (lanewise (vW t) (vN t) (u.pr (iPg i)) d (fun k =>
      frOf f (iRm i) (op (iRm i) (fpVal f (vLane t a k)) (fpVal f (vLane t b k)) (fpVal f (vLane t d k))))))

/-- vs1 < vs2 with −0 below +0, for values that are not NaN. -/
def ltSigned (a b : Val) : Bool := ltVal a b || (eqVal a b && signVal a && !signVal b)

/-- Maximum of two codes of a floating format (R151). -/
def fpMax (f a b : Nat) : Nat :=
  match fpVal f a, fpVal f b with
  | .nan, _ => nanCode f
  | _, .nan => nanCode f
  | x, y => if ltSigned x y then b else a

/-- Minimum of two codes of a floating format. -/
def fpMin (f a b : Nat) : Nat :=
  match fpVal f a, fpVal f b with
  | .nan, _ => nanCode f
  | _, .nan => nanCode f
  | x, y => if ltSigned y x then b else a

/-- Sign cleared; a NaN gives the canonical NaN. -/
def fpAbs (f a : Nat) : Nat :=
  match fpVal f a with
  | .nan => nanCode f
  | _ => a % 2 ^ (fmtBits f - 1)

/-- Sign inverted; a NaN gives the canonical NaN. -/
def fpNeg (f a : Nat) : Nat :=
  match fpVal f a with
  | .nan => nanCode f
  | _ => a ^^^ 2 ^ (fmtBits f - 1)

/-- An instruction of MAJ 0x2B by lane, which sets no flag. -/
def vmOp (sel : Nat) (unary : Bool) (op : Nat → Nat → Nat → Nat) (c p : Nat) (w : W32) (s : State) : State :=
  let i := w.toNat
  let t := iT i
  s.issueV c p i (iMaj i == 0x2B && iF4 i == sel) (t ≤ 2 && (!unary || iRs2 i == 0)) [] [iRd i, iRs1 i, iRs2 i] (fun s =>
    let u := s.sp c p
    s.putV c p (iRd i) (lanewise (vW t) (vN t) (u.pr (iPg i)) (u.vr (iRd i)) (fun k =>
      (op (vFmt t) (vLane t (u.vr (iRs1 i)) k) (vLane t (u.vr (iRs2 i)) k), 0))))

/-! ### Integer arithmetic (R151) -/

/-- An integer instruction of MAJ 0x21 by lane: `op w a b d` on codes of `w` bits. -/
def viOp (sel : Nat) (unary : Bool) (op : Nat → Nat → Nat → Nat → Nat) (c p : Nat) (w : W32) (s : State) : State :=
  let i := w.toNat
  let t := iT i
  s.issueV c p i (iMaj i == 0x21 && iF4 i == sel) (3 ≤ t && t ≤ 5 && (!unary || iRs2 i == 0)) []
    [iRd i, iRs1 i, iRs2 i] (fun s =>
      let u := s.sp c p
      let d := u.vr (iRd i)
      s.putV c p (iRd i) (lanewise (vW t) (vN t) (u.pr (iPg i)) d (fun k =>
        (op (vW t) (vLane t (u.vr (iRs1 i)) k) (vLane t (u.vr (iRs2 i)) k) (vLane t d k), 0))))

/-- A signed integer saturated to `w` bits. -/
def satN (w : Nat) (x : Int) : Nat := wrapN w (clampI (iMin w) (iMax w) x)

/-- Addition: floating (MAJ 0x20) or integer (MAJ 0x21), by the word's MAJ. -/
def execVadd (c p : Nat) (w : W32) (s : State) : Outcome State Fault Refusal :=
  .next (if iMaj w.toNat = 0x20 then vfOp 0 false (fun rm a b _ => addVal rm a b) c p w s
    else viOp 0 false (fun n a b _ => (a + b) % 2 ^ n) c p w s)

/-- Subtraction: floating or integer. -/
def execVsub (c p : Nat) (w : W32) (s : State) : Outcome State Fault Refusal :=
  .next (if iMaj w.toNat = 0x20 then vfOp 1 false (fun rm a b _ => addVal rm a (negVal b)) c p w s
    else viOp 1 false (fun n a b _ => (a + 2 ^ n - b) % 2 ^ n) c p w s)

/-- Multiplication: floating or integer. -/
def execVmul (c p : Nat) (w : W32) (s : State) : Outcome State Fault Refusal :=
  .next (if iMaj w.toNat = 0x20 then vfOp 2 false (fun _ a b _ => mulVal a b) c p w s
    else viOp 2 false (fun n a b _ => a * b % 2 ^ n) c p w s)

/-- VFMA: vd + vs1 × vs2, rounded once. -/
def execVfma (c p : Nat) (w : W32) (s : State) : Outcome State Fault Refusal :=
  .next (vfOp 3 false (fun rm a b d => fmaVal rm a b d) c p w s)

/-- VMAC: vd + vs1 × vs2 modulo 2^w. -/
def execVmac (c p : Nat) (w : W32) (s : State) : Outcome State Fault Refusal :=
  .next (viOp 3 false (fun n a b d => (d + a * b) % 2 ^ n) c p w s)

/-- VDIV. -/
def execVdiv (c p : Nat) (w : W32) (s : State) : Outcome State Fault Refusal :=
  .next (vfOp 4 false (fun _ a b _ => divVal a b) c p w s)

/-- VSQRT. -/
def execVsqrt (c p : Nat) (w : W32) (s : State) : Outcome State Fault Refusal :=
  .next (vfOp 5 true (fun _ a _ _ => sqrtVal a) c p w s)

/-- VEXP2. -/
def execVexp2 (c p : Nat) (w : W32) (s : State) : Outcome State Fault Refusal :=
  .next (vfOp 6 true (fun _ a _ _ => (exp2Val a, false)) c p w s)

/-- VLOG2. -/
def execVlog2 (c p : Nat) (w : W32) (s : State) : Outcome State Fault Refusal :=
  .next (vfOp 7 true (fun _ a _ _ => log2Val a) c p w s)

/-- VMAX: floating (MAJ 0x2B) or integer (MAJ 0x21, F 6). -/
def execVmax (c p : Nat) (w : W32) (s : State) : Outcome State Fault Refusal :=
  .next (if iMaj w.toNat = 0x2B then vmOp 0 false fpMax c p w s
    else viOp 6 false (fun n a b _ => if sext n a < sext n b then b else a) c p w s)

/-- VMIN: floating or integer. -/
def execVmin (c p : Nat) (w : W32) (s : State) : Outcome State Fault Refusal :=
  .next (if iMaj w.toNat = 0x2B then vmOp 1 false fpMin c p w s
    else viOp 7 false (fun n a b _ => if sext n b < sext n a then b else a) c p w s)

/-- VABS: floating, or integer with the smallest value saturated. -/
def execVabs (c p : Nat) (w : W32) (s : State) : Outcome State Fault Refusal :=
  .next (if iMaj w.toNat = 0x2B then vmOp 2 true (fun f a _ => fpAbs f a) c p w s
    else viOp 8 true (fun n a _ _ => satN n (sext n a).natAbs) c p w s)

/-- VNEG: floating alone. -/
def execVneg (c p : Nat) (w : W32) (s : State) : Outcome State Fault Refusal :=
  .next (vmOp 3 true (fun f a _ => fpNeg f a) c p w s)

/-- VADDS. -/
def execVadds (c p : Nat) (w : W32) (s : State) : Outcome State Fault Refusal :=
  .next (viOp 4 false (fun n a b _ => satN n (sext n a + sext n b)) c p w s)

/-- VSUBS. -/
def execVsubs (c p : Nat) (w : W32) (s : State) : Outcome State Fault Refusal :=
  .next (viOp 5 false (fun n a b _ => satN n (sext n a - sext n b)) c p w s)

/-- VAND. -/
def execVand (c p : Nat) (w : W32) (s : State) : Outcome State Fault Refusal :=
  .next (viOp 9 false (fun _ a b _ => a &&& b) c p w s)

/-- VOR. -/
def execVor (c p : Nat) (w : W32) (s : State) : Outcome State Fault Refusal :=
  .next (viOp 10 false (fun _ a b _ => a ||| b) c p w s)

/-- VXOR. -/
def execVxor (c p : Nat) (w : W32) (s : State) : Outcome State Fault Refusal :=
  .next (viOp 11 false (fun _ a b _ => a ^^^ b) c p w s)

/-- VSHL. -/
def execVshl (c p : Nat) (w : W32) (s : State) : Outcome State Fault Refusal :=
  .next (viOp 12 false (fun n a b _ => a <<< (b % n) % 2 ^ n) c p w s)

/-- VSHRA. -/
def execVshra (c p : Nat) (w : W32) (s : State) : Outcome State Fault Refusal :=
  .next (viOp 13 false (fun n a b _ => wrapN n (sext n a / (2 ^ (b % n) : Nat))) c p w s)

/-- VSHRL. -/
def execVshrl (c p : Nat) (w : W32) (s : State) : Outcome State Fault Refusal :=
  .next (viOp 14 false (fun n a b _ => a >>> (b % n)) c p w s)

/-- Sum of the products of `k` adjacent lanes of `w` bits from lane `i · k` on. -/
def dotSum (w k : Nat) (a b : V1024) (i : Nat) : Int :=
  ((List.range k).map (fun j => sext w (lane w a.toNat (i * k + j)) * sext w (lane w b.toNat (i * k + j)))).foldl (· + ·) 0

/-- VDOT: 32 INT32 lanes, each with the products of 4 INT8 or 2 INT16 lanes. -/
def execVdot (c p : Nat) (w : W32) (s : State) : Outcome State Fault Refusal :=
  let i := w.toNat
  let t := iT i
  .next (s.issueV c p i (iMaj i == 0x21 && iF4 i == 15) (t == 3 || t == 4) [] [iRd i, iRs1 i, iRs2 i] (fun s =>
    let u := s.sp c p
    let d := u.vr (iRd i)
    s.putV c p (iRd i) (lanewise 32 32 (u.pr (iPg i)) d (fun k =>
      (wrapN 32 ((lane 32 d.toNat k : Int) + dotSum (vW t) (32 / vW t) (u.vr (iRs1 i)) (u.vr (iRs2 i)) k), 0)))))

/-! ### Comparison and reduction (R151, R152) -/

/-- The comparison of two codes of type T: 0 EQ, 1 NE, 2 LT, 3 LE, 4 GT, 5 GE; a NaN gives 0, and 1 for NE. -/
def vCompare (t k a b : Nat) : Bool :=
  let x := anyVal (vFmt t) a
  let y := anyVal (vFmt t) b
  if x == .nan || y == .nan then k == 1
  else
    match k with
    | 0 => eqVal x y
    | 1 => !eqVal x y
    | 2 => ltVal x y
    | 3 => !ltVal y x
    | 4 => ltVal y x
    | _ => !ltVal x y

/-- VCMP: bit i of p[vd[2:0]], 0 for an inactive lane. The bits at or above the lane count are a free value: no rule
states them (DESIGN CHOICE, safe, log entry 11). -/
def execVcmp (c p : Nat) (w : W32) (s : State) : Outcome State Fault Refusal :=
  let i := w.toNat
  let t := iT i
  .next (s.issueV c p i (iMaj i == 0x22 && iF4 i ≤ 5) (t ≤ 5 && iRd i < 8) [] [iRs1 i, iRs2 i] (fun s =>
    let u := s.sp c p
    let n := vN t
    let low := ((List.range n).map (fun k =>
      if bitB (u.pr (iPg i)).toNat k && vCompare t (iF4 i) (vLane t (u.vr (iRs1 i)) k) (vLane t (u.vr (iRs2 i)) k)
      then 2 ^ k else 0)).foldl (· + ·) 0
    let (h0, s) := s.free64
    let (h1, s) := s.free64
    let high := (h0.toNat + h1.toNat * 2 ^ 64) >>> n <<< n
    (s.modSp c p (fun u => u.setP (iRd i) (BitVec.ofNat 128 (low + high)))).retireV c p))

/-- One level of the adding tree: adjacent pairs. -/
def pairSums (f : Nat) : List Nat → List Fr
  | a :: b :: r => frOf f 0 (addVal 0 (fpVal f a) (fpVal f b)) :: pairSums f r
  | [a] => [(a, 0)]
  | [] => []

/-- The adding tree of R152, with the flags of its additions. -/
def treeSum (f : Nat) : Nat → List Nat → Fr
  | 0, l => (nth l 0 0, 0)
  | d + 1, l =>
    let p := pairSums f l
    let r := treeSum f d (p.map (·.1))
    (r.1, r.2 ||| orFlags p)

/-- A reduction's lane 0: `op` 0 VRSUM, 1 VRMAX, 2 VRMIN over the active lanes. -/
def vReduce (t op : Nat) (pg : V128) (v : V1024) : Fr :=
  let f := vFmt t
  let act := (List.range (vN t)).filter (fun k => bitB pg.toNat k)
  if t ≤ 2 then
    match op with
    | 0 => treeSum f 6 ((List.range (vN t)).map (fun k => if bitB pg.toNat k then vLane t v k else 0))
    | 1 => (act.foldl (fun m k => fpMax f m (vLane t v k)) ((fpFmt f).withSign true (fpFmt f).infCode), 0)
    | _ => (act.foldl (fun m k => fpMin f m (vLane t v k)) ((fpFmt f).withSign false (fpFmt f).infCode), 0)
  else
    let x := act.map (fun k => sext (vW t) (vLane t v k))
    (wrapN 32 (match op with
      | 0 => x.foldl (· + ·) 0
      | 1 => x.foldl max (iMin 32)
      | _ => x.foldl min (iMax 32)), 0)

/-- A reduction instruction: lane 0 of vd, every other lane 0. -/
def vrOp (op : Nat) (c p : Nat) (w : W32) (s : State) : State :=
  let i := w.toNat
  let t := iT i
  s.issueV c p i (iMaj i == 0x23 && iF4 i == op) (t ≤ 5 && iRs2 i == 0) [] [iRd i, iRs1 i] (fun s =>
    let u := s.sp c p
    let r := vReduce t op (u.pr (iPg i)) (u.vr (iRs1 i))
    s.putV c p (iRd i) (BitVec.ofNat 1024 r.1, r.2))

/-- VRSUM. -/
def execVrsum (c p : Nat) (w : W32) (s : State) : Outcome State Fault Refusal := .next (vrOp 0 c p w s)
/-- VRMAX. -/
def execVrmax (c p : Nat) (w : W32) (s : State) : Outcome State Fault Refusal := .next (vrOp 1 c p w s)
/-- VRMIN. -/
def execVrmin (c p : Nat) (w : W32) (s : State) : Outcome State Fault Refusal := .next (vrOp 2 c p w s)

/-! ### Moves (R151) -/

/-- VPERM: vs1[vs2[i] mod n]. -/
def execVperm (c p : Nat) (w : W32) (s : State) : Outcome State Fault Refusal :=
  let i := w.toNat
  let t := iT i
  .next (s.issueV c p i (iMaj i == 0x24 && iF4 i == 0) (decide (t ≤ 5)) [] [iRd i, iRs1 i, iRs2 i] (fun s =>
    let u := s.sp c p
    s.putV c p (iRd i) (lanewise (vW t) (vN t) (u.pr (iPg i)) (u.vr (iRd i)) (fun k =>
      (vLane t (u.vr (iRs1 i)) (vLane t (u.vr (iRs2 i)) k % vN t), 0)))))

/-- VSEL: every lane written, from vs1 or vs2. -/
def execVsel (c p : Nat) (w : W32) (s : State) : Outcome State Fault Refusal :=
  let i := w.toNat
  let t := iT i
  .next (s.issueV c p i (iMaj i == 0x24 && iF4 i == 1) (decide (t ≤ 5)) [] [iRd i, iRs1 i, iRs2 i] (fun s =>
    let u := s.sp c p
    s.putV c p (iRd i) (lanewise (vW t) (vN t) (u.pr (iPg i)) (u.vr (iRs2 i)) (fun k =>
      (vLane t (u.vr (iRs1 i)) k, 0)))))

/-- VBCAST: x[vs1] truncated to T in each active lane. -/
def execVbcast (c p : Nat) (w : W32) (s : State) : Outcome State Fault Refusal :=
  let i := w.toNat
  let t := iT i
  .next (s.issueV c p i (iMaj i == 0x29 && iF4 i == 0) (t ≤ 5 && iRs2 i == 0) [iRs1 i] [iRd i] (fun s =>
    let u := s.sp c p
    s.putV c p (iRd i) (lanewise (vW t) (vN t) (u.pr (iPg i)) (u.vr (iRd i)) (fun _ =>
      ((u.xr (iRs1 i)).toNat % 2 ^ vW t, 0)))))

/-- VEXT: x[vd] takes lane x[vs2] mod n of vs1, zero-extended. -/
def execVext (c p : Nat) (w : W32) (s : State) : Outcome State Fault Refusal :=
  let i := w.toNat
  let t := iT i
  .next (s.issueV c p i (iMaj i == 0x29 && iF4 i == 1) (t ≤ 5 && iPg i == 0) [iRd i, iRs2 i] [iRs1 i] (fun s =>
    let u := s.sp c p
    (s.modSp c p (fun x => x.setX (iRd i)
      (w64 (vLane t (u.vr (iRs1 i)) ((u.xr (iRs2 i)).toNat % vN t))))).retireV c p))

/-- VINS: lane x[vs2] mod n of vd takes x[vs1]. -/
def execVins (c p : Nat) (w : W32) (s : State) : Outcome State Fault Refusal :=
  let i := w.toNat
  let t := iT i
  .next (s.issueV c p i (iMaj i == 0x29 && iF4 i == 2) (t ≤ 5 && iPg i == 0) [iRs1 i, iRs2 i] [iRd i] (fun s =>
    let u := s.sp c p
    let k := (u.xr (iRs2 i)).toNat % vN t
    s.putV c p (iRd i) (BitVec.ofNat 1024 (setBits (u.vr (iRd i)).toNat (vW t * k + vW t - 1) (vW t * k)
      (u.xr (iRs1 i)).toNat), 0)))

/-! ### Predicates (R151) -/

/-- A predicate operation on two predicates, MAJ 0x2A. -/
def pOp (sel : Nat) (unary : Bool) (op : V128 → V128 → V128) (c p : Nat) (w : W32) (s : State) : State :=
  let i := w.toNat
  s.issueV c p i (iMaj i == 0x2A && iF i == sel)
    (iRd i < 8 && iRs1 i < 8 && (if unary then iRs2 i == 0 else iRs2 i < 8) && iRs3 i == 0) [] [] (fun s =>
      (s.modSp c p (fun u => u.setP (iRd i) (op (u.pr (iRs1 i)) (u.pr (iRs2 i))))).retireV c p)

/-- PAND. -/
def execPand (c p : Nat) (w : W32) (s : State) : Outcome State Fault Refusal :=
  .next (pOp 0 false (fun a b => a &&& b) c p w s)
/-- POR. -/
def execPorPredicate (c p : Nat) (w : W32) (s : State) : Outcome State Fault Refusal :=
  .next (pOp 1 false (fun a b => a ||| b) c p w s)
/-- PXOR. -/
def execPxor (c p : Nat) (w : W32) (s : State) : Outcome State Fault Refusal :=
  .next (pOp 2 false (fun a b => a ^^^ b) c p w s)
/-- PNOT. -/
def execPnot (c p : Nat) (w : W32) (s : State) : Outcome State Fault Refusal :=
  .next (pOp 3 true (fun a _ => ~~~a) c p w s)

/-- PFIRST: bits [x[rs1] − 1 : 0] set. -/
def execPfirst (c p : Nat) (w : W32) (s : State) : Outcome State Fault Refusal :=
  let i := w.toNat
  .next (s.issueV c p i (iMaj i == 0x2A && iF i == 4) (iRd i < 8 && iRs2 i == 0 && iRs3 i == 0) [iRs1 i] [] (fun s =>
    let k := min ((s.sp c p).xr (iRs1 i)).toNat 128
    (s.modSp c p (fun u => u.setP (iRd i) (BitVec.ofNat 128 (2 ^ k - 1)))).retireV c p))

/-- PCOUNT. -/
def execPcount (c p : Nat) (w : W32) (s : State) : Outcome State Fault Refusal :=
  let i := w.toNat
  .next (s.issueV c p i (iMaj i == 0x2A && iF i == 5) (iRs1 i < 8 && iRs2 i == 0 && iRs3 i == 0) [iRd i] [] (fun s =>
    (s.modSp c p (fun u => u.setX (iRd i) (w64 (popN 128 (u.pr (iRs1 i)).toNat)))).retireV c p))

/-! ### Conversion (R153) -/

/-- Source and destination formats, chunk, and element count of a VCVT. -/
def cvtSrc (i : Nat) : Nat := bits i 20 17
/-- See `cvtSrc`. -/
def cvtDst (i : Nat) : Nat := bits i 24 21
/-- See `cvtSrc`. -/
def cvtH (i : Nat) : Nat := bits i 30 28
/-- See `cvtSrc`. -/
def cvtN (i : Nat) : Nat := 1024 / max (max (fmtBits (cvtSrc i)) (fmtBits (cvtDst i))) 8

/-- Width of the narrower side, where there is one. -/
def cvtNarrow (i : Nat) : Nat := min (fmtBits (cvtSrc i)) (fmtBits (cvtDst i))

/-- Are the fields legal? The chunk fits, and H is 0 where neither side is the narrower one, since nothing uses it. -/
def cvtLegal (i : Nat) : Bool :=
  cvtSrc i != 0 && cvtDst i != 0 && bits i 31 31 == 0 &&
    (if fmtBits (cvtSrc i) = fmtBits (cvtDst i) then cvtH i == 0
     else decide ((cvtH i + 1) * cvtN i * cvtNarrow i ≤ 1024))

/-- VCVT. -/
def execVcvt (c p : Nat) (w : W32) (s : State) : Outcome State Fault Refusal :=
  let i := w.toNat
  .next (s.issueV c p i (iMaj i == 0x25) (cvtLegal i) [] [iRd i, iRs1 i] (fun s =>
    let ws := fmtBits (cvtSrc i)
    let wd := fmtBits (cvtDst i)
    let n := cvtN i
    let src := ((s.sp c p).vr (iRs1 i)).toNat
    let x := if ws < wd then src >>> (cvtH i * n * ws) else src
    let l := (lanes ws n x).map (convert (cvtSrc i) (cvtDst i) (bits i 26 25) (bitB i 27))
    let y := packLanes wd (l.map (·.1))
    s.putV c p (iRd i) (BitVec.ofNat 1024 (if wd < ws then y <<< (cvtH i * n * wd) else y), orFlags l)))

/-! ### Vector memory (R154) -/

/-- The bytes at [a, a + 128) as they stand, without effect on the state. -/
def State.peekLine (s : State) (space c a : Nat) : List Byte := (s.memRead space c a 128 0 false .vector none).data

/-- The words of a line that hold an active byte are read (R302): 8 B words, or 4 B words of an accumulator file. -/
def State.readWords (s : State) (c p space a : Nat) (act : Nat → Bool) : State :=
  let acc := space == 0 && accBase ≤ a
  let g := if acc then 4 else 8
  let ws := (List.range (128 / g)).filter (fun k => (List.range g).any (fun b => act (g * k + b)))
  let r := foldRd (fun s k =>
    if acc then s.accRead c ((a - accBase) / 4 + k) 1 .vector
    else if space = 0 then s.spadRead c (a + 8 * k) 8 .vector
    else s.lRead (a + 8 * k) 8 .vector) ws s
  r.st.count c (if space = 0 then 0x40 else 0x42) (some p) ((List.range 128).filter act).length

/-- The 128 B line at `a` as a vector load of processor `p` sees it. Scratchpad and L-space lines may come from its load
buffers: where the buffer holds older data, either may be delivered (R322). -/
def State.vLine (s : State) (c p space a : Nat) (act : Nat → Bool) : List Byte × State :=
  let cur := s.peekLine space c a
  let v := BitVec.ofNat 1024 (ofLe cur)
  let fresh := fun (s : State) =>
    let s := s.readWords c p space a act
    (cur, if space = 0 && accBase ≤ a then s
      else s.modSp c p (fun u => { u with vbuf := u.vbuf.ins (vbKey space a) v }))
  let old := (s.sp c p).vbuf.get v (vbKey space a)
  if space = 0 && accBase ≤ a || old == v then fresh s
  else
    let (stale, s) := s.freeBit
    if stale then (leBytes 128 old.toNat, s) else fresh s

/-- Lane width of VLD and VST in bits. -/
def vmW (i : Nat) : Nat := 8 * 2 ^ bits i 22 21
/-- Predicate of VLD and VST. -/
def vmPg (i : Nat) : Nat := bits i 20 18
/-- Address of VLD and VST. -/
def vmAddr (u : Sp) (i : Nat) : Nat := addOff (u.xr (iRs1 i)) (sext 9 (bits i 31 23) * 128)
/-- Space of VLD and VST. -/
def vmSpace (i : Nat) : Nat := if iMaj i = 0x26 then 0 else 1

/-- Is lane `k` of `w` bits active? -/
def laneOn (pg : V128) (k : Nat) : Bool := bitB pg.toNat k

/-- Does a vector access of `n` bytes at `a` with elements of `e` bytes take ACCESS (R125, R154)? In the accumulator range it needs
whole 32-bit words at 4-byte-aligned addresses. -/
def vBarred (v : Variant) (space a n e : Nat) : Bool :=
  if space = 0 then !inS a n || (touchesAcc a n && (e != 4 || a % 4 != 0)) else !inL v a n

/-- VLD takes effect. -/
def vldEff (c p i : Nat) (s : State) : State :=
  let u := s.sp c p
  let w := vmW i
  let pg := u.pr (vmPg i)
  let (d, s) := s.vLine c p (vmSpace i) (vmAddr u i) (fun b => laneOn pg (8 * b / w))
  s.putV c p (iRd i) (lanewise w (1024 / w) pg (u.vr (iRd i)) (fun k => (lane w (ofLe d) k, 0)))

/-- VST takes effect: its active lanes are stored. -/
def vstEff (c p i : Nat) (s : State) : State :=
  let u := s.sp c p
  let w := vmW i
  let a := vmAddr u i
  let on := (List.range (1024 / w)).filter (laneOn (u.pr (vmPg i)))
  (on.foldl (fun s k => s.spStore c p (vmSpace i) (a + k * (w / 8)) (leBytes (w / 8) (lane w (u.vr (iRd i)).toNat k))
    .vector) s).retireV c p

/-- Are the fields of a VLD or VST word legal? -/
def vmLegal (i : Nat) : Bool := bits i 22 21 != 3

/-- A VLD or VST is made: with no active lane it accesses nothing and takes no exception (R141). -/
def State.vmAccess (s : State) (c p i : Nat) (eff : State → State) : State :=
  let u := s.sp c p
  let a := vmAddr u i
  if (List.range (1024 / vmW i)).any (laneOn (u.pr (vmPg i))) then
    s.access c p i (vmSpace i) a 128 (vBarred s.variant (vmSpace i) a 128 (vmW i / 8)) 128 eff
  else s.retireV c p

/-- VLD. -/
def execVld (c p : Nat) (w : W32) (ups : List Upset) (s : State) : Outcome State Fault Refusal :=
  let i := w.toNat
  .next (s.issueV c p i ((iMaj i == 0x26 || iMaj i == 0x27) && !bitB i 17) (vmLegal i) [iRs1 i] [iRd i] (fun s =>
    (s.mark (vmSpace i) c ups).vmAccess c p i (vldEff c p i)))

/-- VST. -/
def execVst (c p : Nat) (w : W32) (s : State) : Outcome State Fault Refusal :=
  let i := w.toNat
  .next (s.issueV c p i ((iMaj i == 0x26 || iMaj i == 0x27) && bitB i 17) (vmLegal i) [iRs1 i] [iRd i] (fun s =>
    s.vmAccess c p i (vstEff c p i)))

/-- Element bytes of a gather or scatter. -/
def gsBytes (i : Nat) : Nat := if bits i 26 25 = 0 then 2 else 4
/-- Space of a gather or scatter. -/
def gsSpace (i : Nat) : Nat := bits i 28 28
/-- Address of element `k`. -/
def gsAddr (u : Sp) (i k : Nat) : Nat := ((u.xr (iRs1 i)).toNat + lane 32 (u.vr (iRs2 i)).toNat k) % 2 ^ 64
/-- The active elements with their addresses. -/
def gsElems (u : Sp) (i : Nat) : List (Nat × Nat) :=
  ((List.range 32).filter (laneOn (u.pr (iPg i)))).map (fun k => (k, gsAddr u i k))

/-- VGATHER takes effect. Elements of 16 bits leave the upper half of vd a free value: no rule states it (log
entry 11). -/
def vgatherEff (c p i : Nat) (s : State) : State :=
  let u := s.sp c p
  let n := gsBytes i
  let (l, s) := (gsElems u i).foldl (fun (acc : SMap Nat × State) e =>
    let o := e.2 % 128
    let (d, s) := acc.2.vLine c p (gsSpace i) (e.2 - o) (fun b => decide (o ≤ b ∧ b < o + n))
    (acc.1 ++ [(e.1, ofLe ((d.drop o).take n))], s)) (([] : SMap Nat), s)
  let old := u.vr (iRd i)
  let low := packLanes (8 * n) ((List.range 32).map (fun k => l.get (lane (8 * n) old.toNat k) k))
  if n = 4 then s.putV c p (iRd i) (BitVec.ofNat 1024 low, 0)
  else
    let (hi, s) := (List.range 8).foldl (fun (acc : List Nat × State) _ =>
      let (x, s) := acc.2.free64
      (acc.1 ++ [x.toNat], s)) (([] : List Nat), s)
    s.putV c p (iRd i) (BitVec.ofNat 1024 (low + packLanes 64 hi * 2 ^ 512), 0)

/-- VSCATTER takes effect: of elements with one address the highest active lane's stays. -/
def vscatterEff (c p i : Nat) (s : State) : State :=
  let u := s.sp c p
  let n := gsBytes i
  ((gsElems u i).foldl (fun s e => s.spStore c p (gsSpace i) e.2
    (leBytes n (lane (8 * n) (u.vr (iRd i)).toNat e.1)) .vector) s).retireV c p

/-- A gather or scatter is made: the lowest failing active lane is reported, ACCESS before ALIGN (R154, R173). -/
def State.gsAccess (s : State) (c p i : Nat) (eff : State → State) : State :=
  let n := gsBytes i
  let sp := gsSpace i
  let es := gsElems (s.sp c p) i
  match es.find? (fun e => vBarred s.variant sp e.2 n n || e.2 % n != 0) with
  | some e => s.precise c p (if vBarred s.variant sp e.2 n n then 4 else 3) e.2
  | none =>
    if es.any (fun e => s.moveBusy c p sp e.2 n) then s
    else if sp == 0 && es.any (fun e => s.accBusy c (some p) e.2 n) then
      s.modSp c p (fun u => { u with accWait := some (BitVec.ofNat 32 i) })
    else eff s

/-- Are the fields of a gather or scatter legal? -/
def gsLegal (i : Nat) : Bool := bits i 26 25 ≤ 1 && bits i 31 29 == 0

/-- VGATHER. -/
def execVgather (c p : Nat) (w : W32) (s : State) : Outcome State Fault Refusal :=
  let i := w.toNat
  .next (s.issueV c p i (iMaj i == 0x28 && !bitB i 27) (gsLegal i) [iRs1 i] [iRd i, iRs2 i] (fun s =>
    s.gsAccess c p i (vgatherEff c p i)))

/-- VSCATTER. -/
def execVscatter (c p : Nat) (w : W32) (s : State) : Outcome State Fault Refusal :=
  let i := w.toNat
  .next (s.issueV c p i (iMaj i == 0x28 && bitB i 27) (gsLegal i) [iRs1 i] [iRd i, iRs2 i] (fun s =>
    s.gsAccess c p i (vscatterEff c p i)))

end Sys2Proof.Machine
end

