-- ==== Sys2Proof/Machine/Array.lean ====
section
/-! DEFINITION. Tile instructions (R155 to R157, R608), the matrix arrays (R75 to R91), accumulation groups (R115 to R137)
and the tile mover. -/

namespace Sys2Proof.Machine

open Host (Outcome)

/-! ### Issue of tile instructions -/

/-- Entries of a tile queue and of the mover queue (R82, R157). -/
def queueRoom : Nat := 8

/-- First failure of the issue checks of R608 for a descriptor, as cause: ACCESS before ALIGN (R173). -/
def tdFault (t : Td) (bTile : Bool) (more : Bool) : Option Nat :=
  if t.badForm bTile || more then some 4 else if t.misaligned then some 3 else none

/-- A tile instruction enters the queue of array `a`, or waits while the queue is full (R82). -/
def State.enqTile (s : State) (c p a : Nat) (op : TileOp) : State :=
  let k := s.core c
  if queueRoom ≤ (k.arr a).queue.length then s.count c 0x18 (some p) 1
  else
    (s.modCore c (fun k =>
      { k.setArr a { k.arr a with queue := (k.arr a).queue ++ [⟨p, k.seq, op, false⟩] } with seq := k.seq + 1 })).retire c p 8

/-- Is this 64-bit word TILE instruction `sub`? -/
def isTile (w : W64) (sub : Nat) : Bool := iMaj w.toNat == 0x60 && iSub w.toNat == sub

/-- MAT.LOADB. -/
def execMatLoadb (c p : Nat) (w : W64) (s : State) : Outcome State Fault Refusal :=
  let i := w.toNat
  .next (s.issue c p i (isTile w 0) (bits i 63 19 == 0) [] [] (fun s =>
    let d := (s.sp c p).tr (bits i 17 14)
    let t := tdOf d
    match tdFault t true (t.outside s.variant true) with
    | some k => s.precise c p k t.base
    | none => s.enqTile c p (bits i 12 11) (.loadb (bits i 13 13) d (bitB i 18))))

/-- Stream `n` of a gleaner. -/
def Gln.stream (g : Gln) (n : Nat) : Stream :=
  match n with
  | 0 => g.s0 | 1 => g.s1 | 2 => g.s2 | _ => g.s3
/-- The gleaner with stream `n` replaced. -/
def Gln.setStream (g : Gln) (n : Nat) (x : Stream) : Gln :=
  match n with
  | 0 => { g with s0 := x } | 1 => { g with s1 := x } | 2 => { g with s2 := x } | _ => { g with s3 := x }

/-- The runs of a stream that rows [a, a + m) fall into, `at0` being the number of the first row of the first run. -/
def segsOver (a m : Nat) (at0 : Nat) : List StreamSeg → List StreamSeg
  | [] => []
  | g :: r => if overlap a m at0 g.n then g :: segsOver a m (at0 + g.n) r else segsOver a m (at0 + g.n) r

/-- Number of the first row of a stream's first run. -/
def Stream.base (x : Stream) : Nat :=
  match x.segs with
  | [] => x.taken
  | g :: _ => x.taken - g.taken

/-- The format and columns of the next `m` unclaimed rows, if a claim of them succeeds (R209). -/
def Stream.claim? (x : Stream) (m : Nat) : Option (Nat × Nat) :=
  if x.promised < x.claimed + m then none
  else
    match segsOver x.claimed m x.base x.segs with
    | g :: r => if r.all (fun h => h.fmt == g.fmt && h.cols == g.cols) then some (g.fmt, g.cols) else none
    | [] => none

/-- A claim fails: GLN_ERR records it and the pass takes GLEAN (R209). -/
def State.claimFail (s : State) (c p m : Nat) : State :=
  let s := if s.rdB GLN_ERR.VALID c then s else s.wrs .GLN_ERR c 0 0 [(GLN_ERR.VALID, 1), (GLN_ERR.CAUSE, 8),
    (GLN_ERR.CMD, 0), (GLN_ERR.SP, p), (GLN_ERR.STATUS, 0), (GLN_ERR.POSN, m)]
  (s.incSat GLN_ERR.COUNT 1 c).precise c p 8 0

/-- MAT.PASS with SRC = 1. -/
def State.passStream (s : State) (c p i : Nat) : State :=
  let n := bits i 18 17
  let m := bits i 37 29
  let req := fun (fmt ka start : Nat) =>
    TileOp.pass ⟨bits i 13 13, bits i 15 14, bits i 28 21, m, fmt, ka, false, .stream n start⟩
  let x := (s.core c).gln.stream n
  let a := bits i 12 11
  if m = 0 then s.enqTile c p a (req 0 0 x.claimed)
  else if queueRoom ≤ (s.arr c a).queue.length then s.count c 0x18 (some p) 1
  else
    match x.claim? m with
    | some (fmt, cols) =>
      (s.modGln c (fun g => g.setStream n { x with claimed := x.claimed + m })).enqTile c p a (req fmt cols x.claimed)
    | none => s.claimFail c p m

/-- MAT.PASS with SRC = 0. -/
def State.passTile (s : State) (c p i : Nat) : State :=
  let d := (s.sp c p).tr (bits i 20 17)
  let t := tdOf d
  match tdFault t false (t.outside s.variant false || t.space == 1 || (t.space == 2 && !t.remote)) with
  | some k => s.precise c p k t.base
  | none => s.enqTile c p (bits i 12 11)
      (.pass ⟨bits i 13 13, bits i 15 14, bits i 28 21, t.rows, t.fmt, t.cols, t.scaled, .tile d false⟩)

/-- MAT.PASS. -/
def execMatPass (c p : Nat) (w : W64) (s : State) : Outcome State Fault Refusal :=
  let i := w.toNat
  .next (s.issue c p i (isTile w 1)
    (bits i 63 38 == 0 && (if bitB i 16 then bits i 20 19 == 0 else bits i 37 29 == 0)) [] [] (fun s =>
      if bitB i 16 then s.passStream c p i else s.passTile c p i))

/-- MAT.OPEN. -/
def execMatOpen (c p : Nat) (w : W64) (s : State) : Outcome State Fault Refusal :=
  let i := w.toNat
  .next (s.issue c p i (isTile w 2) (bits i 63 18 == 0 && bits i 13 13 == 0) [] [] (fun s =>
    s.enqTile c p (bits i 12 11) (.opn (bits i 15 14) (bitB i 16) (bitB i 17))))

/-- MAT.CLOSE. -/
def execMatClose (c p : Nat) (w : W64) (s : State) : Outcome State Fault Refusal :=
  let i := w.toNat
  .next (s.issue c p i (isTile w 3) (bits i 63 16 == 0 && bits i 13 13 == 0) [] [] (fun s =>
    s.enqTile c p (bits i 12 11) (.cls (bits i 15 14))))

/-! ### The tile mover (R157) -/

/-- TILE.MOVE: both descriptors checked (R608), the destination's first, and an entry in the mover's queue. -/
def execTileMove (c p : Nat) (w : W64) (s : State) : Outcome State Fault Refusal :=
  let i := w.toNat
  .next (s.issue c p i (isTile w 4) (bits i 63 23 == 0) [] [] (fun s =>
    let td := (s.sp c p).tr (bits i 14 11)
    let ts := (s.sp c p).tr (bits i 18 15)
    let bad := fun (k : Nat) => [td, ts].find? (fun d => tdFault (tdOf d) false false == some k)
    match bad 4 with
    | some d => s.precise c p 4 (tdOf d).base
    | none =>
      match bad 3 with
      | some d => s.precise c p 3 (tdOf d).base
      | none =>
        if queueRoom ≤ (s.core c).mover.length then s
        else (s.modCore c (fun k => { k with
            mover := k.mover ++ [⟨p, k.seq, td, ts, bits i 20 19, bitB i 21, bitB i 22⟩]
            seq := k.seq + 1 })).retire c p 8))

/-- Does a move take MOVE (R157, R144, R608)? -/
def MoveEntry.moveFault (e : MoveEntry) : Bool :=
  let d := tdOf e.td
  let t := tdOf e.ts
  d.rows != t.rows || d.cols != t.cols || 256 < d.rows || 256 < d.cols || (d.scaled != t.scaled) ||
    (d.scaled && (d.fmt != t.fmt || !scalable d.fmt)) || d.remote || t.remote

/-- Must a move wait for passes, opens or closes that came before it (R127, rules 1 and 2)? -/
def State.moveWaits (s : State) (c : Nat) (e : MoveEntry) : Bool :=
  [tdOf e.td, tdOf e.ts].any (fun t => t.space == 0 && (t.ranges false).any (fun r =>
    (groupsOf r.1 r.2).any (fun g =>
      let a := s.arr c g.1
      !s.owned c g.1 && (a.inFlight g.2 || a.effs.any (fun x => x.sp == e.sp && x.g == g.2) ||
        a.queue.any (fun q => q.sp == e.sp && q.op.grp? == some g.2 && q.ord < e.ord)))))

/-- A read of several byte ranges of a space. -/
def State.readRanges (s : State) (space c hint : Nat) (last : Bool) (g : Agent) (p : Option Nat) : List (Nat × Nat) → Rd
  | [] => .ok [] s
  | r :: t =>
    let x := s.coreRead space c r.1 r.2 hint last g p
    let y := State.readRanges x.st space c hint last g p t
    ⟨x.data ++ y.data, x.corr || y.corr, x.ue || y.ue, y.st⟩

/-- A write of several byte ranges of a space, the bytes in order. -/
def State.writeRanges (s : State) (space c hint : Nat) (g : Agent) (p : Option Nat) : List (Nat × Nat) → List Byte → State
  | [], _ => s
  | r :: t, d =>
    State.writeRanges (s.coreWrite space c r.1 (d.take r.2) hint g p) space c hint g p t (d.drop r.2)

/-- The bytes of a tile under another format, and the flags of the conversion (R51 to R57). -/
def convertTile (t d : Td) (rm : Nat) (sat : Bool) (b : List Byte) : List Byte × FpFlags :=
  let n := rowBytes t.fmt t.cols
  let rows := (List.range t.rows).map (fun i =>
    (unpackRow t.fmt t.cols ((b.drop (i * n)).take n)).map (convert t.fmt d.fmt rm sat))
  ((rows.map (fun r => packRow d.fmt (r.map (·.1)))).flatten, orFlags rows.flatten)

/-- Bytes stored by a move into the issuer's load buffers (R322). -/
def State.vbRanges (s : State) (c p space : Nat) : List (Nat × Nat) → List Byte → State
  | [], _ => s
  | r :: t, d => State.vbRanges (s.modSp c p (fun u => u.vbStore space r.1 (d.take r.2))) c p space t (d.drop r.2)

/-- The tile mover's oldest move finishes, or fails with MOVE or ACCESS. Where several apply, MOVE comes first, and the destination
before the source (DEDUCED, unsafe, log entry 20). -/
def execTileMoveComplete (c : Nat) (s : State) : Outcome State Fault Refusal :=
  if !s.alive then .next s else
  match (s.core c).mover with
  | [] => .next s
  | e :: r =>
    let d := tdOf e.td
    let t := tdOf e.ts
    let out := s.modCore c (fun k => { k with mover := r })
    if e.moveFault then .next (out.imprecise c e.sp 7 0 0 0)
    else if d.outside s.variant false then .next (out.imprecise c e.sp 4 0 0 d.base)
    else if t.outside s.variant false then .next (out.imprecise c e.sp 4 0 0 t.base)
    else if s.moveWaits c e then .next s
    else
      let x := out.readRanges t.space c t.hint e.last .mover (some e.sp) (t.ranges false)
      if x.ue then .next x.st
      else
        let (b, f) := if t.fmt = d.fmt then (x.data, 0) else convertTile t d e.rm e.sat x.data
        let s := x.st.writeRanges d.space c d.hint .mover (some e.sp) (d.ranges false) b
        .next ((s.vbRanges c e.sp d.space (d.ranges false) b).fpFlags c f)

/-! ### Checks at the head of a tile queue (R87) -/

/-- Does a pending clear of slot `t` cover an instruction that entered at `o`, and not one that entered at `lo` (R89)? -/
def Arr.cleared (a : Arr) (t lo o : Nat) : Bool := a.clears.any (fun e => e.1 == t && lo < e.2 && e.2 ≤ o)

/-- Slot `t`'s tile. -/
def Arr.slot (a : Arr) (t : Nat) : Option Tile := if t = 0 then a.slot0 else a.slot1
/-- The array with slot `t` replaced. -/
def Arr.setSlot (a : Arr) (t : Nat) (x : Option Tile) : Arr :=
  if t = 0 then { a with slot0 := x } else { a with slot1 := x }

/-- Format and K of the tile that slot `t` will hold for an instruction that entered at `o`, if any (R87, R89). -/
def Arr.slotFor (a : Arr) (t o : Nat) : Option (Nat × Nat) :=
  match (a.loads.filter (fun l => l.slot == t)).getLast? with
  | some l => if a.cleared t l.ord o then none else some ((tdOf l.desc).fmt, (tdOf l.desc).rows)
  | none =>
    match a.slot t with
    | some x => if a.clears.any (fun e => e.1 == t && e.2 ≤ o) then none else some (x.fmt, x.k)
    | none => none

/-- State of group `g` as the check sees it. -/
def Arr.gst (a : Arr) (g : Nat) : GState :=
  match g with
  | 0 => a.g0 | 1 => a.g1 | 2 => a.g2 | _ => a.g3
/-- The array with the state of group `g` replaced. -/
def Arr.setGst (a : Arr) (g : Nat) (x : GState) : Arr :=
  match g with
  | 0 => { a with g0 := x } | 1 => { a with g1 := x } | 2 => { a with g2 := x } | _ => { a with g3 := x }

/-- Is the A source of a pass a rack-window tile? -/
def PassReq.remote (r : PassReq) : Bool :=
  match r.src with
  | .tile d _ => (tdOf d).remote
  | _ => false

/-- Has the pass an A operand (R86)? -/
def PassReq.hasA (r : PassReq) : Bool :=
  match r.src with
  | .stream _ _ => r.m != 0
  | _ => true

/-- Does the pass leave the array without entering it (R86)? -/
def PassReq.void (r : PassReq) : Bool := r.m == 0 || r.ka == 0

/-- Causes of R87 for a pass against the slot's tile, in the order of R87 from EMPTY on. -/
def passCause (r : PassReq) (tile : Option (Nat × Nat)) (g : GState) : Nat :=
  match tile with
  | none => 7
  | some (bf, k) =>
    let int := if r.hasA then fmtInt r.fmt else fmtInt bf
    if g = .closed then 3
    else if decide (g = .int) != int then 4
    else if 256 < r.m ∨ 256 < r.r0 + r.m then 5
    else if !r.void && r.ka != k then 6
    else 0

/-- The cause of R87 that an instruction at the head fails with; 0 where it passes. -/
def tileCause (own : Bool) (a : Arr) (e : TileEntry) : Nat :=
  if own then 8
  else
    match e.op with
    | .loadb _ d _ =>
      let t := tdOf d
      if t.remote then 0xA
      else if 256 < t.rows ∨ 256 < t.cols then 9
      else if !arrayFmt t.fmt || (t.scaled && !scalable t.fmt) then 1
      else 0
    | .pass r =>
      let tile := a.slotFor r.slot e.ord
      if r.remote then 0xA
      else if r.hasA && (!arrayFmt r.fmt || (r.scaled && !scalable r.fmt)) then 1
      else if r.hasA && tile.any (fun x => fmtInt x.1 != fmtInt r.fmt) then 2
      else passCause r tile (a.gst r.grp)
    | .opn _ _ _ => 0
    | .cls _ => 0

/-- Group and slot that ARR_ERR records of an instruction (R91). -/
def TileOp.errFields (o : TileOp) : Nat × Nat :=
  match o with
  | .loadb t _ _ => (0, t)
  | .pass r => (r.grp, r.slot)
  | .opn g _ _ => (g, 0)
  | .cls g => (g, 0)

/-- A tile exception is recorded (R87, R91). -/
def State.arrError (s : State) (c a cause : Nat) (e : TileEntry) : State :=
  let s := if s.rdB ARR_ERR.VALID c a then s else s.wrs .ARR_ERR c a 0 [(ARR_ERR.VALID, 1), (ARR_ERR.CAUSE, cause),
    (ARR_ERR.GROUP, e.op.errFields.1), (ARR_ERR.SLOT, e.op.errFields.2), (ARR_ERR.SP, e.sp), (ARR_ERR.COUNT, 0)]
  s.incSat ARR_ERR.COUNT 1 c a

/-- An instruction that passed its check leaves the head, or, where it is a pass that enters the array, stays there
checked (R606, R117). -/
def Arr.passed (a : Arr) (e : TileEntry) (r : List TileEntry) : Arr :=
  match e.op with
  | .loadb t d l => { a with queue := r, loads := a.loads ++ [⟨e.sp, e.ord, t, d, l, false⟩] }
  | .pass q => if q.void then { a with queue := r } else { a with queue := { e with checked := true } :: r }
  | .opn g f k =>
    { (a.setGst g (if f then .float else .int)) with queue := r, effs := a.effs ++ [⟨e.sp, g, true, f, !k⟩] }
  | .cls g => { (a.setGst g .closed) with queue := r, effs := a.effs ++ [⟨e.sp, g, false, false, false⟩] }

/-- The instruction at the head of a tile queue is checked (R87). -/
def execTileQueueHeadCheck (c a : Nat) (s : State) : Outcome State Fault Refusal :=
  if !s.alive then .next s else
  match (s.arr c a).queue with
  | [] => .next s
  | e :: r =>
    if e.checked then .next s
    else
      let cause := tileCause (s.owned c a) (s.arr c a) e
      if cause = 0 then .next (s.modArr c a (fun x => x.passed e r))
      else .next (((s.modArr c a (fun x => { x with queue := [] })).arrError c a cause e).imprecise c e.sp 6 a 0 0)

/-! ### Passes (R79 to R84) -/

/-- The run and the place in it of row `idx` of a stream. -/
def Stream.find (x : Stream) (idx : Nat) : Option (StreamSeg × Nat) :=
  go x.base x.segs
where
  /-- See `Stream.find`. -/
  go (at0 : Nat) : List StreamSeg → Option (StreamSeg × Nat)
    | [] => none
    | g :: r => if at0 ≤ idx ∧ idx < at0 + g.n then some (g, idx - at0) else go (at0 + g.n) r

/-- Row `idx` of a stream, where it is there to be taken: placed, or owed as zeros (R211), and not yet taken. -/
def Stream.row (x : Stream) (idx : Nat) : Option (List Nat) :=
  match x.find idx with
  | some (g, o) =>
    if o < g.taken then none
    else if o < g.placed then some (nth g.rows [] (o - g.taken))
    else if g.ended then some (List.replicate g.cols 0)
    else none
  | none => none

/-- `k` rows leave a run. -/
def StreamSeg.drop (g : StreamSeg) (k : Nat) : StreamSeg :=
  { g with rows := g.rows.drop k, taken := g.taken + k }

/-- Rows up to and with number `idx` leave a stream (R208). -/
def Stream.advance (x : Stream) (idx : Nat) : Stream :=
  { x with segs := go x.base x.segs, taken := max x.taken (idx + 1) }
where
  /-- See `Stream.advance`. -/
  go (at0 : Nat) : List StreamSeg → List StreamSeg
    | [] => []
    | g :: r =>
      if at0 + g.n ≤ idx + 1 then go (at0 + g.n) r
      else if at0 + g.taken ≤ idx then g.drop (idx + 1 - (at0 + g.taken)) :: r
      else g :: r

/-- Has a pass entered all its rows? -/
def Pass.entered (x : Pass) : Bool := x.req.m ≤ x.rows.length

/-- The row of stream `n` that a pass takes next, where it has taken `k` rows and some are left. -/
def PassReq.due (r : PassReq) (n k : Nat) : Option Nat :=
  match r.src with
  | .stream m st => if m = n ∧ k < r.m then some (st + k) else none
  | _ => none

/-- The rows of stream `n` that the passes of an array, waiting and in flight, take next. -/
def Arr.rowsDue (x : Arr) (n : Nat) : List Nat :=
  x.queue.filterMap (fun e => match e.op with
    | .pass r => r.due n 0
    | _ => none) ++ x.passes.filterMap (fun p => p.req.due n p.rows.length)

/-- Is the next A row of a pass there (R80, R81, R210)? Rows leave a stream in order (R208): every earlier row that a pass has claimed has
left. The rows of a claim whose pass was discarded are passed over (DESIGN CHOICE, unsafe, log entry 17). -/
def State.rowReady (s : State) (c : Nat) (r : PassReq) (k : Nat) : Bool :=
  match r.src with
  | .stream n st => (((s.core c).gln.stream n).row (st + k)).isSome &&
      (List.range 4).all (fun a => ((s.arr c a).rowsDue n).all (fun i => st + k ≤ i))
  | _ => true

/-- Does an earlier move of the same processor still work on words of the group (R127, rule 3)? -/
def State.moveBefore (s : State) (c a g sp ord : Nat) : Bool :=
  (s.core c).mover.any (fun e => e.sp == sp && e.ord < ord &&
    [tdOf e.td, tdOf e.ts].any (fun t => t.space == 0 && (t.ranges false).any (fun r =>
      (groupsOf r.1 r.2).contains (a, g))))

/-- May a pass start (R77, R80, R117, R127)? -/
def State.mayStart (s : State) (c a sp ord : Nat) (r : PassReq) : Bool :=
  let x := s.arr c a
  (x.slot r.slot).isSome && !x.loads.any (fun l => l.slot == r.slot) && !x.inFlight r.grp &&
    !x.effs.any (fun e => e.g == r.grp) && x.passes.all (·.entered) && s.rowReady c r 0 &&
    !s.moveBefore c a r.grp sp ord

/-- A checked pass at the head of the tile queue starts. -/
def execPassStart (c a : Nat) (s : State) : Outcome State Fault Refusal :=
  if !s.alive then .next s else
  match (s.arr c a).queue with
  | [] => .next s
  | e :: r =>
    match e.op with
    | .pass q =>
      if e.checked && s.mayStart c a e.sp e.ord q then
        .next (s.modArr c a (fun x => { x with queue := r, passes := x.passes ++ [⟨e.sp, e.ord, q, [], []⟩] }))
      else .next s
    | _ => .next s

/-- Address of row `i` of buffer half `h`: rows of at most 512 B, 256 to a half (R100; DEDUCED, unsafe, log entry 12). -/
def State.bufRow (s : State) (c h i : Nat) : Nat := s.rd STOOK_BUF.BASE c * 0x40000 + h * 0x20000 + i * 512

/-- A buffer half of the stook, if a batch is in dispatch there. -/
def Stook.half (x : Stook) (h : Nat) : Option StHalf := if h = 0 then x.h0 else x.h1
/-- The stook with a buffer half replaced. -/
def Stook.setHalf (x : Stook) (h : Nat) (b : Option StHalf) : Stook :=
  if h = 0 then { x with h0 := b } else { x with h1 := b }

/-- Rows of the batch in half `h` had a correctable error corrected (R103). -/
def State.stookCorr (s : State) (c h : Nat) (rows : List Nat) : State :=
  s.modStook c (fun k => k.setHalf h ((k.half h).map (fun b => { b with corrRows := b.corrRows ++ rows })))

/-- The next A row of a pass of issuer `sp`, with its scales and the state after its read. -/
def State.fetchRow (s : State) (c sp : Nat) (r : PassReq) (k : Nat) : List Nat × List Nat × State :=
  let p := if sp = 2 then none else some sp
  match r.src with
  | .stream n st =>
    let x := (s.core c).gln.stream n
    ((x.row (st + k)).getD [], [], s.modGln c (fun g => { g.setStream n (x.advance (st + k)) with
      queue := g.queue.map (fun e => { e with
        fullSince := if bits (cw e.desc 0) 20 19 = n then e.fullSince.map (fun _ => s.now) else e.fullSince }) }))
  | .tile d _ =>
    let t := tdOf d
    let x := s.sRead c (t.base + k * t.stride) (rowBytes t.fmt t.cols) .array p
    if t.scaled then
      let n := ceilDiv t.cols 32
      let y := x.st.sRead c (t.scaleBase + k * n) n .array p
      (unpackRow t.fmt t.cols x.data, y.data.map (·.toNat), y.st)
    else (unpackRow t.fmt t.cols x.data, [], x.st)
  | .stook h =>
    let x := s.sRead c (s.bufRow c h k) (rowBytes r.fmt r.ka) .stook none
    (unpackRow r.fmt r.ka x.data, [], if x.corr then x.st.stookCorr c h [k] else x.st)

/-- The first pass of a list that still enters rows, with a new row. -/
def addRow (row sc : List Nat) : List Pass → List Pass
  | [] => []
  | x :: r => if x.entered then x :: addRow row sc r
    else { x with rows := x.rows ++ [row], scales := x.scales ++ [sc] } :: r

/-- The next A row enters an array (R81). -/
def execPassRowEntry (c a : Nat) (s : State) : Outcome State Fault Refusal :=
  if !s.alive then .next s else
  match (s.arr c a).passes.find? (fun x => !x.entered) with
  | some x =>
    if s.rowReady c x.req x.rows.length then
      let (held, s) := s.throttled c
      if held then .next s else
      let (row, sc, s) := s.fetchRow c x.sp x.req x.rows.length
      .next ((s.modArr c a (fun k => { k with passes := addRow row sc k.passes })).count c (0x10 + a)
        (if x.sp = 2 then none else some x.sp) 1)
    else .next s
  | none => .next s

/-- Index of word (r, j) of group `g` of array `a` (R124). -/
def accWord (a g r j : Nat) : Nat := a * 0x40000 + g * 0x10000 + r * 256 + j

/-- One row of a pass is added into its group: the state, and what R121 records of each column. -/
def State.addPassRow (s : State) (c a : Nat) (t : Tile) (x : Pass) (i : Nat) : State × List Nat :=
  let w := accWord a x.req.grp (x.req.r0 + i) 0
  let r := s.accRead c w t.n .pass
  let out := passRow t x.req.fmt (nth x.rows [] i) (nth x.scales [] i) ((words32 r.data).map (·.toNat))
  (r.st.accWrite c w (out.map (fun e => BitVec.ofNat 32 e.1)) .pass, out.map (·.2))

/-- The rows of a pass are added in order; what R121 records, by row. -/
def State.addPassRows (s : State) (c a : Nat) (t : Tile) (x : Pass) : List Nat → State × List (Nat × List Nat)
  | [] => (s, [])
  | i :: r =>
    let (s, k) := s.addPassRow c a t x i
    let (s, l) := State.addPassRows s c a t x r
    (s, (x.req.r0 + i, k) :: l)

/-- The saturation events of a pass, by row and column, in order. -/
def satEvents (l : List (Nat × List Nat)) : List (Nat × Nat) :=
  (l.map (fun e => ((SMap.number 0 e.2).filter (fun x => x.2 == 1)).map (fun x => (e.1, x.1)))).flatten

/-- The group's record after a pass (R121, R122). -/
def State.satRecord (s : State) (c a g : Nat) (l : List (Nat × List Nat)) : State :=
  let ev := satEvents l
  let marks := (l.map (·.2)).flatten
  let s := match ev with
    | [] => s
    | e :: _ =>
      let s := if s.rdB ACC_SAT.SAT c a g then s
        else s.wrs .ACC_SAT c a g [(ACC_SAT.SAT, 1), (ACC_SAT.ROW, e.1), (ACC_SAT.COL, e.2)]
      (s.incSat ACC_SAT.COUNT ev.length c a g).wr ACC_CORE_STAT.SAT 1 c
  let s := if marks.contains 2 then s.wr ACC_SAT.INF 1 c a g else s
  if marks.contains 3 then s.wr ACC_SAT.NAN 1 c a g else s

/-- A pass writes its last result: words, record, events, and the ACC_SAT writes that waited for it (R83, R121, R132). -/
def State.finishPass (s : State) (c a : Nat) (x : Pass) : State :=
  let g := x.req.grp
  let s := s.modArr c a (fun k => { k with passes := dropFirst (fun y => y == x) k.passes })
  let s := match (s.arr c a).slot x.req.slot with
    | some t =>
      let (s, l) := s.addPassRows c a t x (List.range x.req.m)
      s.satRecord c a g l
    | none => s
  let s := s.count c (0x14 + a) (if x.sp = 2 then none else some x.sp) 1
  let ws := (s.arr c a).satWrites.filter (fun e => e.1 == g)
  let s := s.modArr c a (fun k => { k with satWrites := k.satWrites.filter (fun e => e.1 != g) })
  ws.foldl (fun s e => s.writeFields .ACC_SAT c a g e.2) s

/-- The pass into group `g` of array `a` completes, where its rows have entered. -/
def execPassComplete (c a g : Nat) (ups : List Upset) (s : State) : Outcome State Fault Refusal :=
  if !s.alive then .next s else
  match (s.arr c a).passes.find? (fun x => x.req.grp == g && x.sp != 2) with
  | some x => .next (if x.entered then (s.mark 0 c ups).finishPass c a x else s)
  | none => .next s

/-! ### Loads into slots (R75 to R77, R606) -/

/-- The first load of an array's load path starts (R77, R89). -/
def execLoadbStart (c a : Nat) (s : State) : Outcome State Fault Refusal :=
  if !s.alive then .next s else
  let x := s.arr c a
  match x.loads with
  | [] => .next s
  | l :: r =>
    if l.started || x.passes.any (fun q => q.req.slot == l.slot) || x.clears.any (fun e => e.1 == l.slot && e.2 ≤ l.ord)
    then .next s
    else .next (s.modArr c a (fun x => { x with loads := { l with started := true } :: r }))

/-- The tile that a descriptor's bytes spell (R75): rows in order, then scales. -/
def tileOf (t : Td) (d : List Byte) : Tile :=
  let n := rowBytes t.fmt t.cols
  ⟨t.fmt, t.rows, t.cols, t.scaled,
    (List.range t.rows).map (fun i => unpackRow t.fmt t.cols ((d.drop (i * n)).take n)),
    if t.scaled then (d.drop (t.rows * n)).map (·.toNat) else []⟩

/-- A stationary tile load completes and its slot holds the tile. The bytes are read at this moment (DESIGN CHOICE, unsafe, log entry 13). -/
def execLoadbComplete (c a : Nat) (s : State) : Outcome State Fault Refusal :=
  if !s.alive then .next s else
  match (s.arr c a).loads with
  | [] => .next s
  | l :: r =>
    if !l.started then .next s
    else
      let t := tdOf l.desc
      let x := s.readRanges t.space c t.hint l.last (if l.sp = 2 then .stook else .array)
        (if l.sp = 2 then none else some l.sp) (t.ranges true)
      if x.ue then .next x.st
      else .next (x.st.modArr c a (fun k => { k.setSlot l.slot (some (tileOf t x.data)) with loads := r }))

/-! ### Groups (R115 to R119) -/

/-- Every word of a group becomes 0 with valid check bits, and its record is cleared (R116, R130, R134). -/
def State.zeroGroup (s : State) (c a g : Nat) : State :=
  let w := accWord a g 0 0
  (s.modCore c (fun k => { k with
    acc := k.acc.dropRange w 65536
    faults := k.faults.dropRange (accBase + 4 * w) 262144 })).setReg .ACC_SAT c a g 0

/-- The oldest open or close of group `g` that left the head takes effect, once no pass into the group is in flight. -/
def execGroupStateEffect (c a g : Nat) (s : State) : Outcome State Fault Refusal :=
  if !s.alive then .next s else
  let x := s.arr c a
  match x.effs.find? (fun e => e.g == g) with
  | some e =>
    if x.inFlight g then .next s
    else
      let s := s.modArr c a (fun x => { x with effs := dropFirst (fun y => y.g == g) x.effs })
      .next (if e.opn && e.zero then s.zeroGroup c a g else s)
  | none => .next s

/-! ### Slot clears (R89) and records -/

/-- Does a pass or a load that a slot clear of order `o` covers still stand in the queue or run? -/
def Arr.clearWaits (a : Arr) (t o : Nat) : Bool :=
  a.queue.any (fun e => e.ord < o && (match e.op with
    | .loadb u _ _ => u == t
    | .pass r => r.slot == t
    | _ => false)) ||
    a.passes.any (fun x => x.ord < o && x.req.slot == t) || a.loads.any (fun l => l.ord < o && l.slot == t)

/-- A stook key whose tile was resident in slot `t` is resident there no longer. -/
def State.unreside (s : State) (c a t : Nat) : State :=
  s.modStook c (fun k => { k with
    keys := k.keys.mapDrop (fun _ => {}) (fun _ y => if y.res = some (a * 2 + t) then { y with res := none } else y) })

/-- A slot empties. -/
def State.emptySlot (s : State) (c a t : Nat) : State :=
  (s.modArr c a (fun x => x.setSlot t none)).unreside c a t

/-- A write of ARR_CTL.SLOT_CLR marks slot `t`, and empties it at once where nothing is covered. A stook pass dispatched after the write
no longer finds its tile there, as R89 has it for a pass that enters the tile queue then. -/
def State.slotClear (s : State) (c a t : Nat) : State :=
  let o := (s.core c).seq
  if (s.arr c a).clearWaits t o then (s.modArr c a (fun x => { x with clears := x.clears ++ [(t, o)] })).unreside c a t
  else s.emptySlot c a t

/-- The effect of a write of ARR_CTL (R89). -/
def State.writeArrCtl (s : State) (c a : Nat) (v : W64) : State :=
  let s := s.writeFields .ARR_CTL c a 0 v
  let s := if bitB v.toNat 0 then s.slotClear c a 0 else s
  if bitB v.toNat 1 then s.slotClear c a 1 else s

/-- A write of ARR_CTL. -/
def execArrSlotClr (c a : Nat) (v : W64) (s : State) : Outcome State Fault Refusal := .next (s.onCoreWrite c (fun s => s.writeArrCtl c a v))

/-- The oldest pending clear of slot `t` takes effect once its last covered pass or load has completed. -/
def execSlotClearEffect (c a t : Nat) (s : State) : Outcome State Fault Refusal :=
  if !s.alive then .next s else
  match (s.arr c a).clears.find? (fun e => e.1 == t) with
  | some e =>
    if (s.arr c a).clearWaits t e.2 then .next s
    else .next ((s.modArr c a (fun x => { x with clears := dropFirst (fun y => y == e) x.clears })).emptySlot c a t)
  | none => .next s

/-- The byte ranges of S-space that a waiting accumulator access touches. -/
def waitRanges (u : Sp) (i : Nat) : List (Nat × Nat) :=
  match iMaj i with
  | 0x10 => [(mAddr u i, mSize i)]
  | 0x11 => [(mAddr u i, mSize i)]
  | 0x26 => [(vmAddr u i, 128)]
  | _ => (gsElems u i).map (fun e => (e.2, gsBytes i))

/-- The effect of a waiting accumulator access. -/
def waitEff (c p i : Nat) (s : State) : State :=
  match iMaj i with
  | 0x10 => ldSEff c p i s
  | 0x11 => stSEff c p i s
  | 0x26 => if bitB i 17 then vstEff c p i s else vldEff c p i s
  | _ => if bitB i 27 then vscatterEff c p i s else vgatherEff c p i s

/-- An accumulator access that waited on a pass proceeds (R127). -/
def execAccAccessRelease (c p : Nat) (s : State) : Outcome State Fault Refusal :=
  if !s.alive then .next s else
  match (s.sp c p).accWait with
  | some w =>
    if (waitRanges (s.sp c p) w.toNat).any (fun r => s.accBusy c (some p) r.1 r.2) then .next s
    else .next (waitEff c p w.toNat (s.modSp c p (fun u => { u with accWait := none })))
  | none => .next s

/-- The effect of a write of ACC_SAT, deferred while a pass into the group is in flight (R132). -/
def State.writeAccSat (s : State) (c a g : Nat) (v : W64) : State :=
  if (s.arr c a).inFlight g then s.modArr c a (fun x => { x with satWrites := x.satWrites ++ [(g, v)] })
  else s.writeFields .ACC_SAT c a g v

/-- A write of ACC_SAT. -/
def execAccSatWrite (c a g : Nat) (v : W64) (s : State) : Outcome State Fault Refusal := .next (s.onCoreWrite c (fun s => s.writeAccSat c a g v))

end Sys2Proof.Machine
end

