-- ==== Sys2Proof/Machine/Stook.lean ====
section
/-! DEFINITION. The stook (R92 to R114, R159): keys, intake, sealing, dispatch, scatter and its registers. -/

namespace Sys2Proof.Machine

open Host (Outcome)

/-! ### Keys -/

/-- B tile descriptor of key entry `n`. -/
def State.keyDesc (s : State) (c n : Nat) : V128 :=
  BitVec.ofNat 128 ((s.reg .STOOK_KEY_BLO c n 0).toNat + (s.reg .STOOK_KEY_BHI c n 0).toNat * 2 ^ 64)

/-- What the stook keeps for key entry `n`. -/
def State.stKey (s : State) (c n : Nat) : StKey := (s.core c).stook.keys.get {} n
/-- The state with key entry `n` changed. -/
def State.modKey (s : State) (c n : Nat) (f : StKey → StKey) : State :=
  s.modStook c (fun k => { k with keys := k.keys.upd {} n f })

/-- Is key entry `n` bound? -/
def State.keyValid (s : State) (c n : Nat) : Bool := s.rdB STOOK_KEY_CFG.VALID c n

/-- Rows of a list of requests. -/
def reqRows (l : List StReq) : Nat := (l.map (·.rows)).foldl (· + ·) 0

/-- Requests pending in a stook (R98). -/
def Stook.pending (x : Stook) : Nat :=
  (x.keys.map (fun e => e.2.batch.length)).foldl (· + ·) 0 +
    (x.sealed.map (fun b => b.reqs.length)).foldl (· + ·) 0 +
    (x.h0.map (fun h => h.batch.reqs.length)).getD 0 + (x.h1.map (fun h => h.batch.reqs.length)).getD 0

/-- Does a sealed batch of key `n` wait or run? -/
def Stook.sealedFor (x : Stook) (n : Nat) : Bool :=
  x.sealed.any (fun b => b.key == n) || x.h0.any (fun h => h.batch.key == n) || x.h1.any (fun h => h.batch.key == n)

/-- Key `n`'s open batch seals, where it holds rows (R99). -/
def State.sealKey (s : State) (c n : Nat) : State :=
  s.modStook c (fun k =>
    let y := k.keys.get {} n
    if y.batch.isEmpty then k
    else { k with keys := k.keys.set {} n { y with batch := [] }, sealed := k.sealed ++ [⟨n, y.batch⟩] })

/-- The copy of key `n`'s tile in an owned slot is dropped (R94). -/
def State.dropTile (s : State) (c n : Nat) : State :=
  match (s.stKey c n).res with
  | some r => (s.modKey c n (fun y => { y with res := none })).slotClear c (r / 2) (r % 2)
  | none => s

/-- An unbinding key whose last sealed batch has retired becomes INVALID, and the copy of its tile that such a batch loaded is
dropped (R94). -/
def State.keyRetire (s : State) (c n : Nat) : State :=
  if (s.core c).stook.sealedFor n || !(s.stKey c n).unbinding then s
  else (s.modKey c n (fun y => { y with unbinding := false })).dropTile c n

/-! ### Completion of requests (R103) -/

/-- A PUT request's status other than DONE is recorded (R103, R110); `idx` is its key table index. -/
def State.stookLog (s : State) (c idx : Nat) (r : StReq) (status : Nat) : State :=
  let s := if s.rdB STOOK_ERRLOG.VALID c then s else s.wrs .STOOK_ERRLOG c 0 0 [(STOOK_ERRLOG.VALID, 1),
    (STOOK_ERRLOG.STATUS, status), (STOOK_ERRLOG.KEYIDX, idx), (STOOK_ERRLOG.SP, r.sp), (STOOK_ERRLOG.EVENT, r.event),
    (STOOK_ERRLOG.COUNT, 0)]
  s.incSat STOOK_ERRLOG.COUNT 1 c

/-- A request completes with a status: a SUBMIT's command takes it, a PUT's event rises by 1. -/
def State.stookDone (s : State) (c idx : Nat) (r : StReq) (status : Nat) : State :=
  let s := s.touched c
  match r.cmd with
  | some id => s.report id status
  | none =>
    let s := (s.addEvt r.event 1).portEvent c none
    if status = 0 then s else s.stookLog c idx r status

/-! ### Intake (R97 to R99) -/

/-- Does a request's range leave the memory that requests may use (R97)? -/
def reqOutside (v : Variant) (space addr stride rows n : Nat) : Bool :=
  space == 3 || (List.range rows).any (fun i =>
    n != 0 && !(match space with
      | 0 => inSpad (addr + i * stride) n
      | 1 => inL v (addr + i * stride) n
      | _ => inE v (addr + i * stride) n))

/-- The bound entry of a key. -/
def State.keyIdx (s : State) (c key : Nat) : Option Nat :=
  (List.range 64).find? (fun n => s.keyValid c n && s.rd STOOK_KEY_CFG.KEY c n == key)

/-- The unbinding entry of a key, whose requests are refused (R94). -/
def State.keyLeaving (s : State) (c key : Nat) : Option Nat :=
  (List.range 64).find? (fun n => (s.stKey c n).unbinding && s.rd STOOK_KEY_CFG.KEY c n == key)

/-- Is a request for key entry `n` refused (R97)? -/
def State.reqBad (s : State) (c n : Nat) (r : StReq) : Bool :=
  let t := tdOf (s.keyDesc c n)
  256 < r.rows ||
    reqOutside s.variant r.aspace r.aaddr r.astride r.rows (rowBytes (s.rd STOOK_KEY_CFG.AFMT c n) t.rows) ||
    reqOutside s.variant r.dspace r.daddr r.dstride r.rows (rowBytes (s.rd STOOK_KEY_CFG.OFMT c n) t.cols)

/-- A request joins its key's open batch (R99). -/
def State.joinBatch (s : State) (c n : Nat) (r : StReq) : State :=
  let s := if 256 < reqRows (s.stKey c n).batch + r.rows then s.sealKey c n else s
  let s := s.modKey c n (fun y => { y with
    expiry := if y.batch.isEmpty then s.timeAt (coreTime c) + s.rd STOOK_KEY_CFG.DEADLINE c n * 1000 else y.expiry
    batch := y.batch ++ [r] })
  if reqRows (s.stKey c n).batch = 256 then s.sealKey c n else s

/-- Intake of a request for a key, where fewer than 256 are pending (R97, R99). The key index logged for a key that no
entry holds is a free value: it has none. -/
def State.stookIntake (s : State) (c key : Nat) (r : StReq) : State :=
  match s.keyIdx c key with
  | none =>
    match s.keyLeaving c key with
    | some n => s.stookDone c n r 0x17
    | none =>
      let (v, s) := s.free64
      s.stookDone c (v.toNat % 64) r 0x17
  | some n =>
    if !s.rdB STOOK_CTL.EN c || s.rd STOOK_CTL.ARRAYS c == 0 || s.reqBad c n r then s.stookDone c n r 0x17
    else if r.rows = 0 then s.stookDone c n r 0
    else s.joinBatch c n r

/-- Does an issue check of STOOK.PUT fail for a descriptor (R608)? -/
def putFault (t : Td) : Option Nat :=
  if t.space == 3 || t.resv != 0 then some 4 else if t.misaligned then some 3 else none

/-- STOOK.PUT. Where both descriptors fail with the reported cause, CORE_EINFO takes the A rows' base (DEDUCED, unsafe, log entry
20). -/
def execStookPut (c p : Nat) (w : W64) (s : State) : Outcome State Fault Refusal :=
  let i := w.toNat
  .next (s.issue c p i (iMaj i == 0x62 && iSub i == 0) (bits i 63 29 == 0) [bits i 15 11, bits i 20 16] [] (fun s =>
    let u := s.sp c p
    let a := tdOf (u.tr (bits i 24 21))
    let d := tdOf (u.tr (bits i 28 25))
    match [a, d].find? (fun t => putFault t == some 4), [a, d].find? (fun t => putFault t == some 3) with
    | some t, _ => s.precise c p 4 t.base
    | none, some t => s.precise c p 3 t.base
    | none, none =>
      if 256 ≤ (s.core c).stook.pending then s
      else (s.stookIntake c (bits (u.xr (bits i 15 11)).toNat 31 0) ⟨a.rows, a.space, a.base, a.stride, d.space, d.base,
        d.stride, none, p, bits (u.xr (bits i 20 16)).toNat 15 0⟩).retire c p 8))

/-! ### Sealing -/

/-- At a 50 ns tick of the timebase as the core's die counts it, open batches whose deadline has expired seal in
ascending order of key index (R99). -/
def execStookDeadlineSeal (c : Nat) (s : State) : Outcome State Fault Refusal :=
  if !s.alive then .next s else
  let t := s.timeAt (coreTime c)
  .next (if t % 50 = 0 then
      (List.range 64).foldl (fun s n =>
        if !(s.stKey c n).batch.isEmpty && decide ((s.stKey c n).expiry ≤ t) then s.sealKey c n else s) s
    else s)

/-! ### Dispatch (R101) -/

/-- The slots of owned arrays, array by array. -/
def State.ownedSlots (s : State) (c : Nat) : List Nat := (List.range 8).filter (fun r => s.owned c (r / 2))

/-- The slot that takes a tile: an empty owned one, else the one that a stook pass named longest ago. Of several that no stook pass ever
named, which R101 does not order, it is the lowest (DESIGN CHOICE, unsafe, log entry 77). -/
def State.pickSlot (s : State) (c : Nat) : Option Nat :=
  let os := s.ownedSlots c
  match os.find? (fun r => ((s.arr c (r / 2)).slot (r % 2)).isNone) with
  | some r => some r
  | none =>
    let use := (s.core c).stook.slotUse
    match os.find? (fun r => !use.contains r) with
    | some r => some r
    | none => (use.filter (fun r => os.contains r)).getLast?

/-- The lowest group of array `a` with no stook pass in flight (R101). A group that a batch in dispatch still scatters from is not taken:
opening it would zero the rows that are to be written (DEDUCED, unsafe, log entry 100). -/
def State.pickGroup (s : State) (c a : Nat) : Option Nat :=
  let k := (s.core c).stook
  (List.range 4).find? (fun g => !(s.arr c a).passes.any (fun x => x.sp == 2 && x.req.grp == g) &&
    !k.h0.any (fun h => h.arr == a && h.grp == g) && !k.h1.any (fun h => h.arr == a && h.grp == g))

/-- The rows of a batch, request by request: each row's space and address. -/
def batchRows (l : List StReq) : List (Nat × Nat) :=
  (l.map (fun r => (List.range r.rows).map (fun i => (r.aspace, r.aaddr + i * r.astride)))).flatten

/-- The A rows of a batch are read into a buffer half; rows with a corrected error are collected. -/
def State.fetchRows (s : State) (c h n i : Nat) : List (Nat × Nat) → State × List Nat × Bool
  | [] => (s, [], false)
  | r :: t =>
    let x := s.coreRead r.1 c r.2 n 0 false .stook none
    if x.ue then (x.st, [], true)
    else
      let (s, l, ue) := State.fetchRows (x.st.sWrite c (x.st.bufRow c h i) x.data .stook none) c h n (i + 1) t
      (s, if x.corr then i :: l else l, ue)

/-- The key's tile is loaded into slot `r` (R101): the state, whether an error was corrected, whether one was met that
could not be. -/
def State.loadTile (s : State) (c n r : Nat) : State × Bool × Bool :=
  let t := tdOf (s.keyDesc c n)
  let x := s.readRanges t.space c t.hint false .stook none (t.ranges true)
  if x.ue then (x.st, false, true)
  else
    let s := x.st.modArr c (r / 2) (fun a =>
      { (a.setSlot (r % 2) (some (tileOf t x.data))) with clears := a.clears.filter (fun e => e.1 != r % 2) })
    let s := s.modStook c (fun k => { k with
      keys := (k.keys.mapDrop (fun _ => {}) (fun _ y => if y.res = some r then { y with res := none } else y)).upd {} n
        (fun y => { y with res := some r }) })
    (s, x.corr, false)

/-- Batch `b` starts its pass in slot `r`, group `g`, from half `h`. -/
def State.startStookPass (s : State) (c h r g : Nat) (b : StBatch) (corr : List Nat) : State :=
  let a := r / 2
  let t := tdOf (s.keyDesc c b.key)
  let fmt := s.rd STOOK_KEY_CFG.AFMT c b.key
  let m := reqRows b.reqs
  let s := (s.modArr c a (fun x => x.setGst g (if fmtInt fmt then .int else .float))).zeroGroup c a g
  let s := s.modCore c (fun k =>
    { k.setArr a { k.arr a with
        passes := (k.arr a).passes ++ [⟨2, k.seq, ⟨r % 2, g, 0, m, fmt, t.rows, false, .stook h⟩, [], []⟩] } with
      seq := k.seq + 1 })
  let s := s.modStook c (fun k =>
    { (k.setHalf h (some ⟨(s.core c).seq, b, a, r % 2, g, 1, [], corr⟩)) with slotUse := r :: k.slotUse.filter (fun x => x != r) })
  (s.count c 0x50 none 1).count c 0x51 none m

/-- Must a stook pass into slot `t`, group `g` of array `x` wait (R77, R80, R117)? `load` says that its tile is to be loaded: the load
waits for the loads that core code left on the load path, and for every pass that names the slot. A pass of core code that was checked
before the array became the stook's, and still stands at the head of the tile queue, is an earlier pass. -/
def Arr.stookWaits (x : Arr) (t g : Nat) (load : Bool) : Bool :=
  x.queue.any (fun e => e.checked && (match e.op with
    | .pass q => q.grp == g || (load && q.slot == t)
    | _ => false)) ||
  !x.passes.all (·.entered) || x.inFlight g || x.effs.any (fun e => e.g == g) ||
    (if load then !x.loads.isEmpty || x.passes.any (fun q => q.req.slot == t) else x.loads.any (fun l => l.slot == t))

/-- A sealed batch takes buffer half `h`. -/
def State.dispatchBatch (s : State) (c h : Nat) (b : StBatch) (rest : List StBatch) : State :=
  let resident := (s.stKey c b.key).res
  let slot := match resident with
    | some r => some r
    | none => s.pickSlot c
  match slot with
  | none => s
  | some r =>
    match s.pickGroup c (r / 2) with
    | none => s
    | some g =>
      if (s.arr c (r / 2)).stookWaits (r % 2) g resident.isNone then s
      else
        let s1 := s.modStook c (fun k => { k with sealed := rest })
        let fmt := s.rd STOOK_KEY_CFG.AFMT c b.key
        let k := (tdOf (s.keyDesc c b.key)).rows
        let (s2, rows, ue) := s1.fetchRows c h (rowBytes fmt k) 0 (batchRows b.reqs)
        if ue then s2
        else
          let (s3, corr, ue) := if resident.isSome then (s2, false, false) else s2.loadTile c b.key r
          if ue then s3
          else s3.startStookPass c h r g b (if corr then List.range (reqRows b.reqs) else rows)

/-- The oldest sealed batch is dispatched into a free buffer half (R101). -/
def execStookDispatch (c : Nat) (s : State) : Outcome State Fault Refusal :=
  if !s.alive then .next s else
  let k := (s.core c).stook
  match k.sealed with
  | [] => .next s
  | b :: r =>
    if k.h0.isNone then .next (s.dispatchBatch c 0 b r)
    else if k.h1.isNone then .next (s.dispatchBatch c 1 b r)
    else .next s

/-- A batch's group closes and its half is free again. -/
def State.freeHalf (s : State) (c h : Nat) (b : StHalf) : State :=
  ((s.modArr c b.arr (fun x => x.setGst b.grp .closed)).modStook c (fun k => k.setHalf h none)).keyRetire c b.batch.key

/-- The pass of half `h` completes (R101): its scatter begins, or, for an aborted batch, the half is free (R105). -/
def execStookPassComplete (c h : Nat) (s : State) : Outcome State Fault Refusal :=
  if !s.alive then .next s else
  match (s.core c).stook.half h with
  | none => .next s
  | some b =>
    let x := s.arr c b.arr
    match x.passes.find? (fun q => q.sp == 2 && q.req.grp == b.grp) with
    | some q =>
      if b.stage = 2 || !q.entered then .next s
      else
        let sat := match x.slot b.slot with
          | some t => (satEvents (s.addPassRows c b.arr t q (List.range q.req.m)).2).map (·.1)
          | none => []
        let s := s.finishPass c b.arr q
        if b.stage = 3 then .next (s.freeHalf c h b)
        else .next (s.modStook c (fun k => k.setHalf h (some { b with stage := 2, satRows := sat })))
    | none => .next s

/-- One output row in a key's output format (R102). -/
def stookRow (int : Bool) (ofmt : Nat) (ws : List W32) : List Byte :=
  packRow ofmt (ws.map (fun w => (convert (if int then 6 else 14) ofmt 0 (ofmt == 10) w.toNat).1))

/-- The output rows of a batch are written to their destinations (R101, R102). -/
def State.scatterRows (s : State) (c : Nat) (b : StHalf) (n ofmt : Nat) (int : Bool) (i : Nat) :
    List (Nat × Nat) → State
  | [] => s
  | r :: t =>
    let x := s.accRead c (accWord b.arr b.grp i 0) n .stook
    State.scatterRows (x.st.coreWrite r.1 c r.2 (stookRow int ofmt (words32 x.data)) 0 .stook none) c b n ofmt int
      (i + 1) t

/-- A request's status (R103): its rows start at row `i` of its batch. -/
def reqStatus (b : StHalf) (i : Nat) (r : StReq) : Nat :=
  if b.satRows.any (fun k => i ≤ k && k < i + r.rows) then 1
  else if b.corrRows.any (fun k => i ≤ k && k < i + r.rows) then 2
  else 0

/-- The requests of a batch complete in row order (R104). -/
def State.completeReqs (s : State) (c : Nat) (b : StHalf) (i : Nat) : List StReq → State
  | [] => s
  | r :: t => State.completeReqs (s.stookDone c b.batch.key r (reqStatus b i r)) c b (i + r.rows) t

/-- A batch's scatter ends (R101, R103), after that of an earlier batch of its key (R104). -/
def execStookScatterComplete (c h : Nat) (s : State) : Outcome State Fault Refusal :=
  if !s.alive then .next s else
  match (s.core c).stook.half h with
  | none => .next s
  | some b =>
    if b.stage = 2 && !((s.core c).stook.half (1 - h)).any (fun x => x.batch.key == b.batch.key && x.ord < b.ord) then
      let n := (tdOf (s.keyDesc c b.batch.key)).cols
      let dst := (b.batch.reqs.map (fun r => (List.range r.rows).map (fun i => (r.dspace, r.daddr + i * r.dstride)))).flatten
      let s := s.scatterRows c b n (s.rd STOOK_KEY_CFG.OFMT c b.batch.key)
        (fmtInt (s.rd STOOK_KEY_CFG.AFMT c b.batch.key)) 0 dst
      .next ((s.freeHalf c h b).completeReqs c b 0 b.batch.reqs)
    else .next s

/-! ### Early ends (R105) -/

/-- Every pending request ends early: open and sealed batches are discarded, a pass in flight completes without scatter. -/
def State.stookDrop (s : State) (c : Nat) (done : State → Nat → StReq → State) : State :=
  let k := (s.core c).stook
  let open' := (k.keys.map (fun e => e.2.batch.map (fun r => (e.1, r)))).flatten
  let closed := (k.sealed.map (fun b => b.reqs.map (fun r => (b.key, r)))).flatten
  let half := fun (x : Option StHalf) => match x with
    | some h => h.batch.reqs.map (fun r => (h.batch.key, r))
    | none => []
  let stop := fun (x : Option StHalf) => match x with
    | some h => if h.stage = 1 then some { h with stage := 3, batch := { h.batch with reqs := [] } } else
        if h.stage = 3 then some h else none
    | none => none
  let shut := fun (s : State) (x : Option StHalf) => match x with
    | some h => if h.stage = 2 then s.modArr c h.arr (fun a => a.setGst h.grp .closed) else s
    | none => s
  let s := shut (shut s k.h0) k.h1
  let s := s.modStook c (fun k => { k with
    keys := k.keys.mapDrop (fun _ => {}) (fun _ y => { y with batch := [] })
    sealed := []
    h0 := stop k.h0
    h1 := stop k.h1 })
  let s := (List.range 64).foldl (fun s n => s.keyRetire c n) s
  let first := ((k.h0.map (·.ord)).getD 0) < ((k.h1.map (·.ord)).getD 0)
  ((if first then half k.h0 ++ half k.h1 else half k.h1 ++ half k.h0) ++ closed ++ open').foldl (fun s e => done s e.1 e.2) s

/-- STOOK_CTL.ABORT (R105). -/
def State.stookAbortAll (s : State) (c : Nat) : State :=
  s.stookDrop c (fun s n r => s.stookDone c n r 0x18)

/-! ### Registers (R107 to R114) -/

/-- The key copies in arrays that the stook no longer owns are forgotten. -/
def State.dropUnowned (s : State) (c : Nat) : State :=
  s.modStook c (fun k => { k with
    keys := k.keys.mapDrop (fun _ => {}) (fun _ y => match y.res with
      | some r => if s.owned c (r / 2) then y else { y with res := none }
      | none => y)
    slotUse := k.slotUse.filter (fun r => s.owned c (r / 2)) })

/-- A write of STOOK_CTL (R107): ARRAYS and EN, then FLUSH, then ABORT. -/
def State.writeStookCtl (s : State) (c : Nat) (v : W64) : State :=
  let en := STOOK_CTL.EN.get v
  let ar := STOOK_CTL.ARRAYS.get v
  let chg := ar != s.rd STOOK_CTL.ARRAYS c
  let ok := (s.core c).stook.pending == 0 && (!s.rdB STOOK_CTL.EN c || en == 0)
  let s :=
    if !chg then s
    else if ok then (s.wr STOOK_CTL.ARRAYS ar c).dropUnowned c
    else s.wr STOOK_STAT.CFGERR 1 c
  let s := s.wr STOOK_CTL.EN en c
  let s := if bitB v.toNat 5 then (List.range 64).foldl (fun s n => s.sealKey c n) s else s
  if bitB v.toNat 6 then s.stookAbortAll c else s

/-- A write of STOOK_CTL with FLUSH = 1: every open batch that holds rows seals. -/
def execStookFlush (c : Nat) (v : W64) (s : State) : Outcome State Fault Refusal :=
  .next (s.onCoreWrite c (fun s => if bitB v.toNat 5 then s.writeStookCtl c v else s))

/-- A write of STOOK_CTL with ABORT = 1. -/
def execStookAbort (c : Nat) (v : W64) (s : State) : Outcome State Fault Refusal :=
  .next (s.onCoreWrite c (fun s => if bitB v.toNat 6 then s.writeStookCtl c v else s))

/-- A write of STOOK_CTL. -/
def execStookCtlWrite (c : Nat) (v : W64) (s : State) : Outcome State Fault Refusal :=
  .next (s.onCoreWrite c (fun s => s.writeStookCtl c v))

/-- A write of STOOK_BUF (R108). -/
def State.writeStookBuf (s : State) (c : Nat) (v : W64) : State :=
  if s.rdB STOOK_CTL.EN c then s.wr STOOK_STAT.CFGERR 1 c else s.writeFields .STOOK_BUF c 0 0 v

/-- A write of STOOK_BUF. -/
def execStookBufWrite (c : Nat) (v : W64) (s : State) : Outcome State Fault Refusal := .next (s.onCoreWrite c (fun s => s.writeStookBuf c v))

/-- May OFMT serve a class (R102)? -/
def ofmtOk (int : Bool) (f : Nat) : Bool :=
  if int then f == 6 || f == 5 || f == 4 else f == 14 || f == 12 || f == 13 || f == 10

/-- Does the tile of a B descriptor lie in the memory that keys may use (R93)? -/
def keyTileIn (v : Variant) (t : Td) : Bool :=
  !bitB t.base 63 && (t.ranges true).all (fun r => r.2 == 0 || (match t.space with
    | 0 => inSpad r.1 r.2
    | 1 => inL v r.1 r.2
    | _ => inE v r.1 r.2))

/-- Does a binding of entry `n` with CFG word `v` pass the checks of R93? -/
def State.bindOk (s : State) (c n : Nat) (v : W64) : Bool :=
  let t := tdOf (s.keyDesc c n)
  let af := STOOK_KEY_CFG.AFMT.get v
  (List.range 64).all (fun m => m == n || !(s.keyValid c m || (s.stKey c m).unbinding) ||
    s.rd STOOK_KEY_CFG.KEY c m != STOOK_KEY_CFG.KEY.get v) &&
  arrayFmt af && arrayFmt t.fmt && fmtInt t.fmt == fmtInt af && t.rows ≤ 256 && t.cols ≤ 256 &&
  !t.badForm true && !t.misaligned && (!t.scaled || scalable t.fmt) && keyTileIn s.variant t &&
  ofmtOk (fmtInt af) (STOOK_KEY_CFG.OFMT.get v) &&
  2 ≤ STOOK_KEY_CFG.DEADLINE.get v && STOOK_KEY_CFG.DEADLINE.get v ≤ 500

/-- A write that a bound or unbinding entry refuses (R93). -/
def State.bindErr (s : State) (c : Nat) : State := s.wr STOOK_STAT.BINDERR 1 c

/-- The entry is unbound (R94). -/
def State.unbind (s : State) (c n : Nat) : State :=
  let s := (s.wr STOOK_KEY_CFG.VALID 0 c n).sealKey c n
  (((s.modKey c n (fun y => { y with unbinding := true })).dropTile c n)).keyRetire c n

/-- A write of STOOK_KEY_CFG (R93, R94). A binding that fails keeps VALID at 0 and takes the other fields. -/
def State.writeKeyCfg (s : State) (c n : Nat) (v : W64) : State :=
  let old := s.reg .STOOK_KEY_CFG c n 0
  let new := Reg.STOOK_KEY_CFG.fields.foldl (fun w f => f.put w (f.get v)) old
  if (s.stKey c n).unbinding then (if new = old then s else s.bindErr c)
  else if s.keyValid c n then
    if new = old then s
    else if new = STOOK_KEY_CFG.VALID.put old 0 then s.unbind c n
    else s.bindErr c
  else if STOOK_KEY_CFG.VALID.get v = 1 then
    if s.bindOk c n v then s.setReg .STOOK_KEY_CFG c n 0 new
    else (s.setReg .STOOK_KEY_CFG c n 0 (STOOK_KEY_CFG.VALID.put new 0)).bindErr c
  else s.setReg .STOOK_KEY_CFG c n 0 new

/-- A write of a descriptor word of a key entry. -/
def State.writeKeyDesc (s : State) (c n : Nat) (r : Reg) (v : W64) : State :=
  if s.keyValid c n || (s.stKey c n).unbinding then
    (if v = s.reg r c n 0 then s else s.bindErr c)
  else s.writeFields r c n 0 v

/-- A write of STOOK_KEY_CFG with VALID = 1: the key is bound where the entry passes R93. -/
def execStookKeyBind (c n : Nat) (v : W64) (s : State) : Outcome State Fault Refusal :=
  .next (s.onCoreWrite c (fun s => if STOOK_KEY_CFG.VALID.get v = 1 then s.writeKeyCfg c n v else s))

/-- A write of STOOK_KEY_CFG with VALID = 0 to a bound entry: the key is unbound (R94). -/
def execStookKeyUnbind (c n : Nat) (v : W64) (s : State) : Outcome State Fault Refusal :=
  .next (s.onCoreWrite c (fun s => if STOOK_KEY_CFG.VALID.get v = 0 && s.keyValid c n then s.writeKeyCfg c n v else s))

/-- A write to CFG (`k` 0), BLO (1) or BHI (2) of a key entry. -/
def execStookKeyDescWrite (c n k : Nat) (v : W64) (s : State) : Outcome State Fault Refusal :=
  .next (s.onCoreWrite c (fun s => match k with
    | 0 => s.writeKeyCfg c n v
    | 1 => s.writeKeyDesc c n .STOOK_KEY_BLO v
    | _ => s.writeKeyDesc c n .STOOK_KEY_BHI v))

end Sys2Proof.Machine
end

