-- ==== Sys2Proof/Machine/Window.lean ====
section
/-! DEFINITION. The sending side of the rack window: addresses and entries (R341 to R345), translation (R346, R347), the
sending-side check (R348), sequence numbers and windows (R402, R404), sending, completion and failure of a remote
operation (R162, R333 to R338, R353, R363). -/

namespace Sys2Proof.Machine

/-- This module's node identity (R387). -/
def State.node (s : State) : Nat := s.rd FAB_NODE.NODE

/-- Window page of an address (R341). -/
def winPage (a : Nat) : Nat := bits a 45 22
/-- Address of a page's entry in the window table (R343). -/
def winEntryAt (v : Variant) (page : Nat) : Nat := v.resBase + 8 * page
/-- NODE of an entry (R344). -/
def entNode (e : W64) : Nat := bits e.toNat 9 1
/-- LPAGE of an entry. -/
def entLpage (e : W64) : Nat := bits e.toNat 27 10
/-- Is the entry invalid: V = 0 or a reserved bit set? -/
def entInvalid (e : W64) : Bool := !bitB e.toNat 0 || bits e.toNat 63 33 != 0

/-- Base die whose window cache a source translates through (R345); copy engine e of base die b is 0xF0 + 4b + e. -/
def srcBdie (srcid : Nat) : Nat := if srcid < 192 then coreBdie srcid else (srcid - 0xF0) / 4

/-- Does a remote operation of this kind read (4 gleaner read, 5 copy read)? -/
def kindReads (k : Nat) : Bool := k == 0 || k == 4 || k == 5

/-- Checks 3 to 6 of R348: the reason of the first that fails, 0 where none does. -/
def sendReason (kind : Nat) (e : W64) : Nat :=
  if entInvalid e then 3
  else if kindReads kind then (if bitB e.toNat 28 then 0 else 4)
  else if kind = 2 then (if bitB e.toNat 30 then 0 else 6)
  else if bitB e.toNat 29 then 0 else 5

/-- The first WINDOW_FAULT is recorded (R348, R381). -/
def State.winFault (s : State) (reason kind srcid page : Nat) : State :=
  if s.rdB WIN_FAULT.VALID then s
  else s.wrs .WIN_FAULT 0 0 0 [(WIN_FAULT.VALID, 1), (WIN_FAULT.REASON, reason), (WIN_FAULT.OP, kind),
    (WIN_FAULT.SOURCE, srcid), (WIN_FAULT.PAGE, page)]

/-- The outstanding operation of this number. -/
def State.remOp (s : State) (id : Nat) : Option RemOp := s.win.ops.find? (fun o => o.id == id)
/-- An outstanding operation changed by `f`. -/
def State.modRem (s : State) (id : Nat) (f : RemOp → RemOp) : State :=
  { s with win := { s.win with ops := mapIf (fun o => o.id == id) f s.win.ops } }
/-- An operation is outstanding no longer. -/
def State.dropRem (s : State) (id : Nat) : State :=
  { s with win := { s.win with ops := s.win.ops.filter (fun o => o.id != id) } }

/-- Key of a pair of source and destination node. -/
def pairKey (srcid dst : Nat) : Nat := srcid * 512 + dst
/-- Sender state of a pair. -/
def State.pair (s : State) (srcid dst : Nat) : Pair := s.win.pairs.get {} (pairKey srcid dst)

/-- The operation timeout in ns (R375). -/
def State.remTimeout (s : State) : Nat := min 1000 (max 8 (s.rd WIN_CFG.TIMEOUT)) * 1000

/-! ### Packets -/

/-- A packet leaves an endpoint of this module for its router, its end-to-end CRC computed (R405); an uncorrectable error stops egress
(R541). -/
def State.sendPkt (s : State) (p : Packet) : State :=
  if s.flt.egressOff || !s.pwr.up then s else { s with fab := { s.fab with local_ := s.fab.local_ ++ [p.sealed] } }

/-- Bits [31:0] of the module epoch, as packets carry it (R405). -/
def State.epoch32 (s : State) : Nat := s.epoch % 2 ^ 32

/-- A packet of this module with an empty header beyond its addressing. -/
def State.packet (s : State) (typ vc dst srcid : Nat) : Packet :=
  ⟨typ, vc, false, false, 0, false, false, false, dst, s.node, srcid, 0, 0, s.epoch32, 0, 0, 0, 0, [], 0, false⟩

/-- TYPE of a request's packet (R406). -/
def remType (kind : Nat) : Nat :=
  if kindReads kind then 0
  else match kind with
    | 2 => 2
    | 3 => 3
    | 8 => 9
    | _ => 1

/-- The packet of an operation (R350, R405), which no router combines where it is a retransmission (R353, R355). -/
def State.remPacket (s : State) (o : RemOp) (again : Bool) : Packet :=
  let p := { s.packet (remType o.kind) (if o.kind = 8 then 2 else 0) (entNode o.entry) o.srcid with epoch := o.epoch }
  if o.kind = 8 then { p with len := o.len, seq := o.seq, addr := o.addr.toNat, aux := o.reg, payload := o.data }
  else { p with
    again := again
    comb := bitB o.entry.toNat 31
    det := o.kind == 2 && (o.det || bitB o.entry.toNat 32)
    ord := o.ord
    atype := if o.kind = 2 then o.atype else 0
    len := o.len
    seq := o.seq
    addr := entLpage o.entry * 0x400000 + o.addr.toNat % 0x400000
    payload := o.data }

/-! ### Sending -/

/-- Does operation `o` write? -/
def RemOp.writes (o : RemOp) : Bool := !kindReads o.kind

/-- The operations of the list that stand before number `id`, of the same source. -/
def before (id srcid : Nat) : List RemOp → List RemOp
  | [] => []
  | o :: r => if o.id = id then [] else if o.srcid = srcid then o :: before id srcid r else before id srcid r

/-- Packets of a pair that await acknowledgement or response. -/
def State.awaiting (s : State) (srcid dst : Nat) : Nat :=
  (s.win.ops.filter (fun o => o.srcid == srcid && o.stage == 3 && entNode o.entry == dst)).length

/-- May a translated operation be sent now: in issue order to its destination (R334), outside quiesce (R397) and within the
pair's window (R404)? -/
def State.maySend (s : State) (o : RemOp) : Bool :=
  let dst := entNode o.entry
  o.stage == 2 && !s.rdB FAB_CTL.QUIESCE && !s.flt.egressOff &&
    (before o.id o.srcid s.win.ops).all (fun x => 2 ≤ x.stage && (x.stage == 3 || entNode x.entry != dst)) &&
    s.awaiting o.srcid dst < (s.pair o.srcid dst).w

/-- An operation is sent: it takes the pair's next SEQ, and an RLD is marked ordered while an earlier write of its source to
its destination is unacknowledged (R334, R402). -/
def State.sendOp (s : State) (o : RemOp) : State :=
  let dst := entNode o.entry
  let n := (s.pair o.srcid dst).seq
  let ord := kindReads o.kind &&
    (before o.id o.srcid s.win.ops).any (fun x => x.writes && entNode x.entry == dst)
  let o := { o with stage := 3, seq := n, ord := ord, lastTx := s.now, epoch := s.epoch32 }
  let s := s.modRem o.id (fun _ => o)
  let s := { s with win := { s.win with
    pairs := s.win.pairs.upd {} (pairKey o.srcid dst) (fun p => { p with seq := (n + 1) % 2 ^ 32 }) } }
  s.sendPkt (s.remPacket o false)

/-- Operations that may be sent are sent, in issue order; an RSTF waits for its own row (R335). -/
def State.pump (s : State) : State :=
  (s.win.ops.map (·.id)).foldl (fun s id =>
    match s.remOp id with
    | some o => if o.kind != 3 && s.maySend o then s.sendOp o else s
    | none => s) s

/-! ### Completion and failure -/

/-- The gleaner entry of this number in core `c`, changed by `f`. -/
def State.modEntry (s : State) (c id : Nat) (f : GlnEntry → GlnEntry) : State :=
  s.modGln c (fun g => { g with queue := mapIf (fun e => e.id == id) f g.queue })

/-- Order of the causes that end a collective (R450), by status and reason. -/
def endRank (e : Nat × Nat × Nat) : Nat :=
  if e.1 = 0x15 then 0
  else match e.2.1 with
    | 7 => 1
    | 8 => 2
    | 1 => 3
    | 6 => 4
    | 2 => 5
    | 3 => 5
    | 4 => 6
    | 5 => 7
    | _ => 8

/-- A collective is to end, unless a cause before this one in R450 has come already. -/
def Ctx.fail (x : Ctx) (e : Nat × Nat × Nat) : Ctx :=
  match x.ended with
  | some f => if endRank e < endRank f then { x with ended := some e } else x
  | none => { x with ended := some e }

/-- The collective in module context `i`, if any. -/
def State.ctx (s : State) (i : Nat) : Option Ctx := (s.col.ctxs.find? (fun e => e.1 == i)).map (·.2)
/-- The state with a context's collective replaced. -/
def State.setCtx (s : State) (i : Nat) (x : Ctx) : State := { s with col := { s.col with ctxs := s.col.ctxs.ins i x } }
/-- The state with a context's collective changed by `f`. -/
def State.modCtx (s : State) (i : Nat) (f : Ctx → Ctx) : State :=
  match s.ctx i with
  | some x => s.setCtx i (f x)
  | none => s

/-- The failure of an operation reaches what issued it (R162, R221, R243, R363, R450). Of several additive stores of one SCATADD, the one
that fails first names the row and the status (DEDUCED, unsafe, log entry 99). -/
def State.remBlame (s : State) (o : RemOp) (status : Nat) : State :=
  if o.kind = 8 then s.modCtx o.sp (fun x => x.fail (status, 4, 0))
  else match o.cmd, o.gln with
  | some id, _ => s.modCmd id (fun c => { c with bad := some (c.bad.getD status) })
  | none, some e => s.modEntry o.srcid e (fun x => { x with
      remStatus := some (x.remStatus.getD (status + 256 * o.dst))
      failed := if kindReads o.kind then x.failed ++ [(o.addr.toNat, o.len, status)] else x.failed })
  | none, none => s.imprecise o.srcid o.sp 9 0 status o.addr.toNat

/-- A remote operation fails (R335, R338, R353): held RSTFs of its source behind a failed write are to fail with it, and a
skip follows an operation that was sent. -/
def State.remFail (s : State) (o : RemOp) (status : Nat) (skip : Bool) : State :=
  let later := s.win.ops.filter (fun x => x.srcid == o.srcid && o.id < x.id && x.kind == 3 && x.stage != 3)
  let s := s.dropRem o.id
  let s := if o.writes then later.foldl (fun s x => s.modRem x.id (fun y => { y with failSt := some (y.failSt.getD status) })) s
    else s
  let s := s.remBlame o status
  let s := if skip && o.stage == 3 then
      s.sendPkt { s.packet 8 3 (entNode o.entry) o.srcid with seq := o.seq }
    else s
  s.pump

/-- Bytes of a copy's source arrive in its engine (R243), which writes them as whole words (R332). -/
def State.copyGot (s : State) (o : RemOp) (d : List Byte) : State :=
  { s with que := { s.que with copies := s.que.copies.upd [] (o.srcid - 0xF0) (mapIf (fun j => some j.cmd == o.cmd) (fun j =>
    { j with got := SMap.putRange j.got (fun _ => none) o.dst d })) } }

/-- A read's data is delivered (R160, R161): to a register, to the gleaner's entry, or to the copy's engine. -/
def State.remDeliver (s : State) (o : RemOp) (d : List Byte) : State :=
  match o.kind with
  | 0 => s.modSp o.srcid o.sp (fun u =>
      if o.len = 128 then u.setV o.reg (BitVec.ofNat 1024 (ofLe d)) else u.setX o.reg (w64 (ofLe d)))
  | 4 => match o.gln with
    | some e => s.modEntry o.srcid e (fun x => { x with remote := SMap.putRange x.remote (fun _ => none) o.addr.toNat d })
    | none => s
  | 5 => s.copyGot o d
  | _ => s

/-- The scalar processor that a remote operation of a core serves: that of its instruction, or of the gleaner's; none for a command's. -/
def State.remSp (s : State) (o : RemOp) : Option Nat :=
  match o.gln with
  | some id => ((s.core o.srcid).gln.queue.find? (fun e => e.id == id)).bind GlnEntry.issuer
  | none => some o.sp

/-- A remote operation completes; its time is counted (R183, R185, event 0x34). -/
def State.remDone (s : State) (o : RemOp) (d : List Byte) : State :=
  let s := if o.srcid < 192 then s.count o.srcid 0x34 (s.remSp o) (s.now - o.issued) else s
  let s := (s.dropRem o.id).remDeliver o d
  s.pump

/-! ### Translation (R345, R346, R348) -/

/-- Entries of base die `b`'s window cache. -/
def State.wcache (s : State) (b : Nat) : List (Nat × W64) := s.win.cache.get [] b

/-- A window cache with an entry made the most recently used one of its set of four ways. -/
def wcInstall (l : List (Nat × W64)) (page : Nat) (e : W64) : List (Nat × W64) :=
  let l := l.filter (fun x => x.1 != page)
  let set := l.filter (fun x => x.1 % 4096 == page % 4096)
  let l := if set.length < 4 then l else match set.getLast? with
    | some v => l.filter (fun x => x.1 != v.1)
    | none => l
  (page, e) :: l

/-- The state with base die `b`'s window cache replaced. -/
def State.setWcache (s : State) (b : Nat) (l : List (Nat × W64)) : State :=
  { s with win := { s.win with cache := s.win.cache.set [] b l } }

/-- The sending-side check against an entry: a failure ends the operation, and one that passes may be sent (R348). -/
def State.checkEntry (s : State) (o : RemOp) (e : W64) : State :=
  let r := sendReason o.kind e
  if r ≠ 0 then (s.winFault r o.kind o.srcid (winPage o.addr.toNat)).remFail o 0x13 false
  else (s.modRem o.id (fun x => { x with stage := 2, entry := e })).pump

/-- An operation reaches translation (R346): checks 1 and 2, then the lookup; a miss waits for a walk. -/
def State.translate (s : State) (o : RemOp) : State :=
  let a := o.addr.toNat
  let page := winPage a
  let b := srcBdie o.srcid
  if bits a 62 46 ≠ 0 then (s.winFault 1 o.kind o.srcid page).remFail o 0x13 false
  else if !s.rdB WIN_GUARD.EN then (s.winFault 2 o.kind o.srcid page).remFail o 0x13 false
  else
    match (s.wcache b).find? (fun x => x.1 == page) with
    | some x =>
      let s := (s.incWrap WIN_CACHE_STAT.HITS 1 b).setWcache b (wcInstall (s.wcache b) page x.2)
      s.checkEntry o x.2
    | none => (s.incWrap WIN_CACHE_STAT.MISSES 1 b).modRem o.id (fun x => { x with stage := 1 })

/-- A new remote operation: its fields that differ by what issues it. -/
structure RemReq where
  srcid : Nat
  kind : Nat
  sp : Nat
  reg : Nat
  addr : Nat
  len : Nat
  data : List Byte
  atype : Nat
  det : Bool
  cmd : Option Nat
  gln : Option Nat
  dst : Nat
  deriving DecidableEq, Repr

/-- The queue of the command for which a remote operation is issued: that of a copy, of a GLEAN or of the kernel that runs (R247). -/
def State.remQueue (s : State) (r : RemReq) : Option Nat :=
  match r.cmd, r.gln with
  | some id, _ => (s.cmdOf id).map (·.queue)
  | none, some e =>
    match (s.core r.srcid).gln.queue.find? (fun x => x.id == e) with
    | some x => if x.cmd.isSome then some x.queue else (s.core r.srcid).kernel.map (·.queue)
    | none => none
  | none, none => (s.core r.srcid).kernel.map (·.queue)

/-- A remote operation is issued: it takes an entry and reaches translation. -/
def State.remIssue (s : State) (r : RemReq) : State :=
  let id := s.win.nextId
  let o : RemOp := ⟨id, r.srcid, r.kind, r.sp, r.reg, w64 r.addr, r.len, r.data, r.atype, r.det, r.cmd, r.gln, s.remQueue r,
    r.dst, 0, 0, false, 0, s.now, s.now, 0, false, none, 0⟩
  let s := { s with win := { s.win with nextId := id + 1, ops := s.win.ops ++ [o] } }
  s.translate o

/-- Entries of a core's 128 in use (R161). -/
def State.remUsed (s : State) (srcid : Nat) : Nat := (s.win.ops.filter (fun o => o.srcid == srcid)).length

end Sys2Proof.Machine
end

