-- ==== Sys2Proof/Machine/Gleaner.lean ====
section
/-! DEFINITION. The gleaner (R186 to R230, R610): issue, descriptors, the row cache, the evaluation of each operation,
streams, completion and failure. An operation is evaluated in one go when it completes or fails, and a stream operation
row by row; each table read of a rack-window table first goes out as a remote read (R218). -/

namespace Sys2Proof.Machine

open Host (Outcome)

/-! ### Descriptors (R192, R193, R610) -/

/-- Bits [hi:lo] of word `w` of a descriptor. -/
def gf (d : List W64) (w hi lo : Nat) : Nat := bits (cw d w) hi lo
/-- OP. -/
def gOp (d : List W64) : Nat := gf d 0 3 0
/-- EFMT. -/
def gEfmt (d : List W64) : Nat := gf d 0 7 4
/-- OFMT. -/
def gOfmt (d : List W64) : Nat := gf d 0 11 8
/-- TSPACE. -/
def gTsp (d : List W64) : Nat := gf d 0 13 12
/-- ISPACE. -/
def gIsp (d : List W64) : Nat := gf d 0 15 14
/-- OSPACE. -/
def gOsp (d : List W64) : Nat := gf d 0 17 16
/-- DSTK. -/
def gDstk (d : List W64) : Bool := bitB (cw d 0) 18
/-- STREAM. -/
def gStream (d : List W64) : Nat := gf d 0 20 19
/-- HINT. -/
def gHint (d : List W64) : Nat := gf d 0 22 21
/-- LAST. -/
def gLast (d : List W64) : Bool := bitB (cw d 0) 23
/-- Bytes of an index, offset, list element or key (IDX64). -/
def gW (d : List W64) : Nat := if bitB (cw d 0) 24 then 8 else 4
/-- OOR. -/
def gOor (d : List W64) : Bool := bitB (cw d 0) 25
/-- REDOP. -/
def gRedop (d : List W64) : Nat := gf d 0 28 26
/-- DET. -/
def gDet (d : List W64) : Bool := bitB (cw d 0) 29
/-- DIRECT. -/
def gDirect (d : List W64) : Bool := bitB (cw d 0) 30
/-- POS. -/
def gPos (d : List W64) : Bool := bitB (cw d 0) 31
/-- AUX. -/
def gAux (d : List W64) : Nat := gf d 0 56 49
/-- N. -/
def gN (d : List W64) : Nat := gf d 5 31 0
/-- N2. -/
def gN2 (d : List W64) : Nat := gf d 5 63 32
/-- TSTRIDE. -/
def gTst (d : List W64) : Nat := gf d 6 23 0
/-- COLS. -/
def gCols (d : List W64) : Nat := gf d 6 32 24
/-- DSTRIDE. -/
def gDst (d : List W64) : Nat := gf d 6 56 33
/-- Bytes of a table row, and of an output row. -/
def gTrow (d : List W64) : Nat := rowBytes (gEfmt d) (gCols d)
/-- See `gTrow`. -/
def gOrow (d : List W64) : Nat := rowBytes (gOfmt d) (gCols d)

/-- Stream rows that an operation promises (R209). -/
def gPromise (op : Nat) (d : List W64) : Nat :=
  if gDstk d then (if op = 0 then gN d else if op = 1 then gN2 d else 0) else 0

/-- The formats between which GATHER converts (R197). -/
def gConvFmt (f : Nat) : Bool := f == 14 || f == 12 || f == 13 || f == 10 || f == 11
/-- Floating inputs of SEGRED (R199). -/
def gSegFp (f : Nat) : Bool := gConvFmt f
/-- Integer inputs and outputs of SEGRED. -/
def gSegInt (f : Nat) : Bool := f == 4 || f == 5 || f == 6
/-- Floating outputs of SEGRED. -/
def gOutFp (f : Nat) : Bool := f == 14 || f == 12 || f == 13 || f == 10

/-- Does SEGRED reduce by COUNT, so that no table is read? -/
def gCounts (op : Nat) (d : List W64) : Bool := op == 1 && gRedop d == 4

/-- Does a field that the operation uses hold a reserved value (R195, R610)? -/
def gReserved (op : Nat) (d : List W64) : Bool :=
  let rows := op ≤ 2
  let table := !gCounts op d
  (rows && table && (gEfmt d == 0 || gEfmt d == 15)) || (rows && (gOfmt d == 0 || gOfmt d == 15 || 256 < gCols d)) ||
    (table && gTsp d == 3) ||
    ((op == 0 || (op == 1 && !gDirect d) || op == 2 || op == 3 || op == 4 || op == 6) && gIsp d == 3) ||
    ((op == 1 || ((op == 3 || op == 4) && gPos d)) && gOsp d == 3) ||
    ((op == 0 || (op == 1 && table) || op == 6) && gHint d == 3) ||
    (op == 1 && 5 ≤ gRedop d)

/-- Is the combination of used fields forbidden (R197, R199, R201, R205, R206, R208)? -/
def gForbidden (op : Nat) (d : List W64) : Bool :=
  let ef := gEfmt d
  let o := gOfmt d
  let bad := match op with
    | 0 => o != ef && !(gConvFmt o && gConvFmt ef)
    | 1 =>
      if gRedop d = 4 then !(gOutFp o || gSegInt o)
      else if gSegFp ef then !gOutFp o
      else if gSegInt ef then (if gRedop d = 3 then !gOutFp o else !gSegInt o)
      else true
    | 2 => !(ef == 6 || ef == 14) || o != ef
    | 5 => gAux d == 0 || (if gW d = 8 then 8 else 4) < gAux d
    | 6 =>
      let t := cw d 7
      t < 2 || 2 ^ 32 < t || t != 2 ^ Nat.log2 t
    | _ => false
  bad || ((op == 0 || op == 1) && gDstk d &&
    (!(o == 4 || o == 5 || o == 12 || o == 13 || o == 10) || 4096 < gCols d * fmtBits o))

/-- Bytes of a pair or slot (R205, R206). -/
def gPair (d : List W64) : Nat := 2 * gW d

/-- Does a base, stride or alignment that the operation uses break R195? The pairs of SORT and the slots of PROBE are elements of 8 or
16 B, aligned to their own size (DEDUCED, unsafe, log entry 99). -/
def gMisplaced (op : Nat) (d : List W64) : Bool :=
  let table := op ≤ 2 && !gCounts op d
  let out := op == 2 || (op ≤ 1 && !gDstk d)
  let orow := if op = 2 then gTrow d else gOrow d
  (table && (cw d 1 % 32 != 0 || gTst d % 32 != 0 || gTst d < gTrow d)) ||
    (out && (cw d 4 % 32 != 0 || gDst d % 32 != 0 || gDst d < orow)) ||
    ((op == 0 || (op == 1 && !gDirect d) || op == 2 || op == 3 || op == 4 || op == 6) && cw d 2 % gW d != 0) ||
    (op == 1 && cw d 3 % gW d != 0) ||
    ((op == 3 || op == 4) && (cw d 1 % gW d != 0 || cw d 4 % gW d != 0 || (gPos d && cw d 3 % 4 != 0))) ||
    (op == 5 && (cw d 1 % gPair d != 0 || cw d 4 % gPair d != 0)) ||
    (op == 6 && (cw d 1 % gPair d != 0 || cw d 4 % 4 != 0))

/-- The failure cause found when an operation starts (R195, R205); 0 where there is none. -/
def gStartCause (op : Nat) (d : List W64) : Nat :=
  if gOp d != op || 6 < op || gf d 0 63 57 != 0 || gf d 6 63 57 != 0 || gReserved op d || gForbidden op d then 1
  else if gMisplaced op d then 2
  else if op = 5 && (gTsp d != 0 || overlap (cw d 1) (gN d * gPair d) (cw d 4) (gN d * gPair d) ||
    0x400000 < gN d * gPair d) then 9
  else 0

/-! ### Issue (R187, R189, R209) -/

/-- Entries of the gleaner queue (R189). -/
def glnRoom : Nat := 16

/-- An entry joins a gleaner's queue, and its stream rows are promised. -/
def State.glnEnter (s : State) (c op : Nat) (d : List W64) (space addr sp : Nat) (cmd : Option Nat) (q : Nat) : State :=
  s.modGln c (fun g =>
    let e : GlnEntry := ⟨g.nextId, op, d, space, addr, sp, cmd, q, false, 0, none, [], none, false, false, []⟩
    let g := { g with queue := g.queue ++ [e], nextId := g.nextId + 1 }
    let n := gPromise op d
    if n = 0 then g
    else
      let x := g.stream (gStream d)
      g.setStream (gStream d) { x with
        segs := x.segs ++ [⟨e.id, gOfmt d, gCols d, n, [], 0, 0, false⟩]
        promised := x.promised + n })

/-- A GLEAN instruction of operation `op`. -/
def glnIssue (op c p : Nat) (w : W64) (s : State) : State :=
  let i := w.toNat
  s.issue c p i (iMaj i == 0x61 && iSub i == op) (bits i 63 16 == 0) [bits i 15 11] [] (fun s =>
    let a := ((s.sp c p).xr (bits i 15 11)).toNat
    if !inSpad a 1 then s.precise c p 4 a
    else if a % 64 ≠ 0 then s.precise c p 3 a
    else if glnRoom ≤ (s.core c).gln.queue.length then s
    else
      let r := s.sRead c a 64 .scalar (some p)
      (r.st.glnEnter c op (words64 8 r.data) 0 a p none 0).retire c p 8)

/-- GLN.GATHER. -/
def execGlnGather (c p : Nat) (w : W64) (s : State) : Outcome State Fault Refusal := .next (glnIssue 0 c p w s)
/-- GLN.SEGRED. -/
def execGlnSegred (c p : Nat) (w : W64) (s : State) : Outcome State Fault Refusal := .next (glnIssue 1 c p w s)
/-- GLN.SCATADD. -/
def execGlnScatadd (c p : Nat) (w : W64) (s : State) : Outcome State Fault Refusal := .next (glnIssue 2 c p w s)
/-- GLN.MERGE. -/
def execGlnMerge (c p : Nat) (w : W64) (s : State) : Outcome State Fault Refusal := .next (glnIssue 3 c p w s)
/-- GLN.ISECT. -/
def execGlnIsect (c p : Nat) (w : W64) (s : State) : Outcome State Fault Refusal := .next (glnIssue 4 c p w s)
/-- GLN.SORT. -/
def execGlnSort (c p : Nat) (w : W64) (s : State) : Outcome State Fault Refusal := .next (glnIssue 5 c p w s)
/-- GLN.PROBE. -/
def execGlnProbe (c p : Nat) (w : W64) (s : State) : Outcome State Fault Refusal := .next (glnIssue 6 c p w s)

/-- The vector load buffers of processor `p` drop the lines that its gleaner operations have written (R191, R331). -/
def Sp.drained (u : Sp) : Sp := { u with vbuf := u.vbuf.filter (fun e => !u.glnLines.contains e.1), glnLines := [] }

/-- GLN.DRAIN: retires once no operation of its processor is in the queue, and the processor's later loads see what they wrote
(R191). -/
def execGlnDrain (c p : Nat) (w : W64) (s : State) : Outcome State Fault Refusal :=
  let i := w.toNat
  .next (s.issue c p i (iMaj i == 0x61 && iSub i == 15) (bits i 63 11 == 0) [] [] (fun s =>
    if (s.core c).gln.queue.any (fun e => e.cmd.isNone && e.sp == p) then s
    else (s.modSp c p Sp.drained).retire c p 8))

/-! ### Evaluation -/

/-- What an evaluation has come to: the state with its effects so far, a failure (cause, position and remote status), remote ranges
still to be fetched, whether reads may follow those, and what was met on the way. -/
structure GRun where
  st : State
  fail : Option (Nat × Nat × Nat) := none
  need : List (Nat × Nat) := []
  more : Bool := false
  corr : Bool := false
  sat : Bool := false
  ue : Bool := false

/-- Does an evaluation go on? -/
def GRun.ok (g : GRun) : Bool := g.fail.isNone && !g.ue && g.need.length < 96
/-- The evaluation fails with a cause at a position, and for a remote read with its status. -/
def GRun.failAt (g : GRun) (cause posn : Nat) (status : Nat := 0) : GRun :=
  { g with fail := some (g.fail.getD (cause, posn, status)) }

/-- Runs `f` for k = a, a + 1, …, n times, while the evaluation goes on. -/
def gLoop (f : Nat → GRun → GRun) : Nat → Nat → GRun → GRun
  | 0, _, g => g
  | n + 1, a, g => if g.ok then gLoop f n (a + 1) (f a g) else { g with more := true }

/-- Does a range lie in the memory that the gleaner reaches in a space (R195)? -/
def gIn (v : Variant) (space a n : Nat) : Bool :=
  match space with
  | 0 => inSpad a n
  | 1 => inL v a n
  | _ => inE v a n

/-- The pieces of at most `k` bytes of a remote range that cross no 4 MiB page (R218). -/
def remPieces (k : Nat) : Nat → Nat → Nat → List (Nat × Nat)
  | 0, _, _ => []
  | f + 1, a, n =>
    if n = 0 then []
    else
      let m := min (min n k) (0x400000 - a % 0x400000)
      (a, m) :: remPieces k f (a + m) (n - m)

/-- A read that joins an evaluation. -/
def GRun.take (g : GRun) (r : Rd) : List Byte × GRun :=
  (r.data, { g with st := r.st, corr := g.corr || r.corr, ue := g.ue || r.ue })

/-- A read of a list element by the gleaner: R293 gives these reads the stream hint. -/
def GRun.list (g : GRun) (c : Nat) (e : GlnEntry) (space a n posn : Nat) : Nat × GRun :=
  if !gIn g.st.variant space a n then (0, g.failAt 2 posn)
  else
    let (d, g) := g.take (g.st.coreRead space c a n 0 false .gleaner e.issuer)
    (ofLe d, g)

/-- A write of an entry's operation, with the lines of S-space and L-space that the issuing processor's load buffers are to drop at its
next GLN.DRAIN (R191). -/
def State.glnStore (s : State) (c : Nat) (e : GlnEntry) (space a : Nat) (d : List Byte) (hint : Nat) : Rd :=
  let r := s.coreWriteRd space c a d hint .gleaner e.issuer
  match e.issuer with
  | some p =>
    if space = 2 then r
    else { r with st := r.st.modSp c p (fun u => { u with
        glnLines := u.glnLines ++ (linePieces a d.length).map (fun x => vbKey space x.1) }) }
  | none => r

/-- A write by the gleaner. -/
def GRun.put (g : GRun) (c : Nat) (e : GlnEntry) (space a posn : Nat) (d : List Byte) : GRun :=
  if !gIn g.st.variant space a d.length then g.failAt 2 posn
  else (g.take (g.st.glnStore c e space a d 0)).2

/-! ### The row cache (R214 to R217) -/

/-- A line enters the row cache: 256 sets of eight ways; a keep line leaves only where every way of its set is keep. -/
def rcFill (l : List RcLine) (x : RcLine) : List RcLine :=
  let set := l.filter (fun y => y.line % 256 == x.line % 256)
  let l := if set.length < 8 then l
    else match (set.filter (fun y => !y.keep)).getLast? with
      | some v => l.filter (fun y => y.line != v.line)
      | none => match set.getLast? with
        | some v => l.filter (fun y => y.line != v.line)
        | none => l
  x :: l

/-- A table read of one piece of a line of local E-space, through the row cache. A held line with a parity error is dropped, counted
and fetched again (R217); the read counts as a miss (DESIGN CHOICE, unsafe, log entry 78). -/
def State.rcRead (s : State) (c : Nat) (p : Option Nat) (a n hint : Nat) (last : Bool) : Rd :=
  let ln := a / 128
  let en := s.rdB GLN_CFG.RC_EN c
  let bad := en && (s.core c).gln.perr.contains ln && (s.core c).gln.rc.any (fun x => x.line == ln)
  let s := if bad then (s.modGln c (fun g => { g with
      rc := g.rc.filter (fun x => x.line != ln)
      perr := g.perr.filter (fun x => x != ln) })).incSat GLN_RC.PERR 1 c else s
  match (s.core c).gln.rc.find? (fun x => x.line == ln && en) with
  | some x =>
    let s := (s.count c 0x21 p 1).modGln c (fun g => { g with
      rc := (if last && hint == 2 then [] else [x]) ++ g.rc.filter (fun y => y.line != ln) })
    .ok (((leBytes 128 x.data.toNat).drop (a % 128)).take n) s
  | none =>
    let s := s.count c 0x22 p 1
    if hint = 0 || !en then
      let r := s.eRead a n hint last .gleaner
      { r with st := r.st.count c 0x42 p n }
    else
      let r := s.eRead (ln * 128) 128 hint last .gleaner
      let s := r.st.count c 0x42 p 128
      let s := if r.ue then s
        else s.modGln c (fun g => { g with
          rc := (rcFill g.rc ⟨ln, hint == 1, BitVec.ofNat 1024 (ofLe r.data)⟩).drop (if last && hint == 2 then 1 else 0) })
      ⟨(r.data.drop (a % 128)).take n, r.corr, r.ue, s⟩

/-- A table read (R195, R214, R218) of `n` bytes: a remote one takes the bytes fetched for the entry, fails where its read failed, or
needs them. -/
def GRun.table (g : GRun) (c : Nat) (e : GlnEntry) (a n posn : Nat) : List Byte × GRun :=
  let sp := gTsp e.desc
  if n = 0 then ([], g)
  else if sp = 2 && bitB a 63 then
    let d := (List.range n).map (fun k => (e.remote.find? (fun x => x.1 == a + k)).map (·.2))
    if d.all (·.isSome) then (d.map (·.getD 0), g)
    else match e.failed.find? (fun x => overlap a n x.1 x.2.1) with
      | some x => (List.replicate n 0, g.failAt 6 posn x.2.2)
      | none => (List.replicate n 0, { g with need := g.need ++ remPieces 512 (n / 512 + 2) a n })
  else if !gIn g.st.variant sp a n then (List.replicate n 0, g.failAt 2 posn)
  else if sp = 2 then
    (linePieces a n).foldl (fun acc pc =>
      let (d, g) := acc.2.take (acc.2.st.rcRead c e.issuer pc.1 pc.2 (gHint e.desc) (gLast e.desc))
      (acc.1 ++ d, g)) ([], g)
  else g.take (g.st.coreRead sp c a n 0 false .gleaner e.issuer)

/-! ### GATHER (R197) -/

/-- One element of a row under another format (R197): RNE, SAT 1 for FP8 E4M3 alone. Conversions by engines set no flag of
CORE_FPSTAT, whose flags R57 has instructions set (DEDUCED, unsafe, log entry 79). -/
def gConv (f o x : Nat) : Nat := if f = o then x else (convert f o 0 (o == 10) x).1

/-- The index at place `i` of the index list. -/
def GRun.index (g : GRun) (c : Nat) (e : GlnEntry) (i : Nat) : Nat × GRun :=
  g.list c e (gIsp e.desc) (cw e.desc 2 + i * gW e.desc) (gW e.desc) i

/-- An out-of-range index (R197, R200): skipped and counted, or a failure. -/
def GRun.oor (g : GRun) (c : Nat) (d : List W64) (i : Nat) : GRun :=
  if gOor d then { g with st := g.st.incSat GLN_CNT.OOR 1 c } else g.failAt 3 i

/-- Does a GATHER copy its rows bit for bit to scratchpad (R197)? -/
def gRaw (d : List W64) : Bool := gEfmt d == gOfmt d && !gDstk d

/-- Output row `i` of a GATHER, as element codes, or as bytes where the rows are copied bit for bit. -/
def gatherRow (c : Nat) (e : GlnEntry) (i : Nat) (g : GRun) : List Nat × GRun :=
  let d := e.desc
  let zero := List.replicate (if gRaw d then gTrow d else gCols d) 0
  let (x, g) := g.index c e i
  if !g.ok then (zero, g)
  else if cw d 7 ≤ x then (zero, g.oor c d i)
  else
    let (b, g) := g.table c e (cw d 1 + x * gTst d) (gTrow d) i
    (if gRaw d then b.map (·.toNat) else (unpackRow (gEfmt d) (gCols d) b).map (gConv (gEfmt d) (gOfmt d)), g)

/-! ### SEGRED (R198 to R200) -/

/-- What a segment has gathered: how many positions, and per element the exact integer, or the FP32 code, so far. -/
structure SegAcc where
  n : Nat
  ints : List Int
  fps : List Nat

/-- One row joins a segment's reduction. -/
def segJoin (d : List W64) (a : SegAcc) (row : List Nat) : SegAcc :=
  let f := gEfmt d
  let op := gRedop d
  if fmtInt f then
    let v := row.map (intVal f)
    { a with n := a.n + 1, ints := if a.n = 0 then v else (a.ints.zip v).map (fun e =>
        match op with
        | 1 => max e.1 e.2
        | 2 => min e.1 e.2
        | _ => e.1 + e.2) }
  else
    let v := row.map (fun x => (convert f 14 0 false x).1)
    { a with n := a.n + 1, fps := if a.n = 0 then v else (a.fps.zip v).map (fun e =>
        match op with
        | 1 => fpMax 14 e.1 e.2
        | 2 => fpMin 14 e.1 e.2
        | _ => fp32Add e.1 e.2) }

/-- An exact integer in an output format, and whether it saturated (R199). -/
def intOut (o : Nat) (x : Int) : Nat × Bool :=
  let w := fmtBits o
  (wrapN w (clampI (iMin w) (iMax w) x), decide (x < iMin w ∨ iMax w < x))

/-- An FP32 code divided by `n` with one rounding. -/
def fpMean (x n : Nat) : Nat := (encFp 14 0 (divVal (fpVal 14 x) (.fin false n 0)).1).1

/-- A segment's output row, and whether an element saturated. -/
def segOut (d : List W64) (a : SegAcc) : List Nat × Bool :=
  let o := gOfmt d
  if a.n = 0 then (List.replicate (gCols d) 0, false)
  else if gRedop d = 4 then
    let r := if fmtInt o then intOut o a.n else ((toFp o 0 (o == 10) (.fin false a.n 0)).1, false)
    (List.replicate (gCols d) r.1, r.2 && gCols d != 0)
  else if fmtInt (gEfmt d) then
    if gRedop d = 3 then
      (a.ints.map (fun x => gConv 14 o (fpMean (encFp 14 0 (.fin (decide (x < 0)) x.natAbs 0)).1 a.n)), false)
    else
      let l := a.ints.map (intOut o)
      (l.map (·.1), l.any (·.2))
  else (a.fps.map (fun x => gConv 14 o (if gRedop d = 3 then fpMean x a.n else x)), false)

/-- Position `i` of a segment joins its reduction. -/
def segPos (c : Nat) (e : GlnEntry) (i : Nat) (acc : SegAcc) (g : GRun) : SegAcc × GRun :=
  let d := e.desc
  let (x, g) := if gDirect d then (i, g) else g.index c e i
  if !g.ok then (acc, g)
  else if cw d 7 ≤ x then (acc, g.oor c d i)
  else if gRedop d = 4 then ({ acc with n := acc.n + 1 }, g)
  else
    let (b, g) := g.table c e (cw d 1 + x * gTst d) (gTrow d) i
    (segJoin d acc (unpackRow (gEfmt d) (gCols d) b), g)

/-- Positions a, a + 1, … of a segment, `n` of them. -/
def segLoop (c : Nat) (e : GlnEntry) : Nat → Nat → SegAcc → GRun → SegAcc × GRun
  | 0, _, acc, g => (acc, g)
  | n + 1, a, acc, g =>
    if g.ok then
      let (acc, g) := segPos c e a acc g
      segLoop c e n (a + 1) acc g
    else (acc, { g with more := true })

/-- Output row `k` of a SEGRED. -/
def segRow (c : Nat) (e : GlnEntry) (k : Nat) (g : GRun) : List Nat × GRun :=
  let d := e.desc
  let w := gW d
  let (o0, g) := g.list c e (gOsp d) (cw d 3 + k * w) w k
  let (o1, g) := g.list c e (gOsp d) (cw d 3 + (k + 1) * w) w k
  if !g.ok then ([], g)
  else if o1 < o0 ∨ gN d < o1 then ([], g.failAt 4 k)
  else
    let (acc, g) := segLoop c e (o1 - o0) o0 ⟨0, [], []⟩ g
    if !g.ok then ([], g)
    else
      let (row, sat) := segOut d acc
      (row, { g with
        st := if acc.n = 0 then g.st.incSat GLN_CNT.EMPTY 1 c else g.st
        sat := g.sat || sat })

/-- Output row `k` of a GATHER or SEGRED. -/
def outRow (c : Nat) (e : GlnEntry) (k : Nat) (g : GRun) : List Nat × GRun :=
  if e.op = 0 then gatherRow c e k g else segRow c e k g

/-- Rows that a GATHER or SEGRED puts out. -/
def outCount (e : GlnEntry) : Nat := if e.op = 0 then gN e.desc else gN2 e.desc

/-- Row `k` of a GATHER or SEGRED is made and written to scratchpad. -/
def putRow (c : Nat) (e : GlnEntry) (k : Nat) (g : GRun) : GRun :=
  let d := e.desc
  let (row, g) := outRow c e k g
  if !g.ok || !g.need.isEmpty then g
  else g.put c e 0 (cw d 4 + k * gDst d) k (packRow (if e.op = 0 && gRaw d then 4 else gOfmt d) row)

/-! ### SCATADD (R201, R202) -/

/-- The sum of two words of INT32 or FP32. -/
def addWord (f x y : Nat) : Nat := if f = 14 then fp32Add x y else (x + y) % 2 ^ 32

/-- One 4 B word of a local target is added to, indivisibly; local E-space goes by 8 B words with the hint of R293, and the
core's row-cache line is dropped (R216). -/
def addLocal (c : Nat) (e : GlnEntry) (space f a y posn : Nat) (g : GRun) : GRun :=
  if !gIn g.st.variant space a 4 then g.failAt 2 posn
  else if space = 2 then
    let (d, g) := g.take (g.st.coreRead 2 c (a / 8 * 8) 8 2 false .gleaner e.issuer)
    if g.ue then g
    else
      let x := ofLe ((d.drop (a % 8)).take 4)
      let (_, g) := g.take (g.st.glnStore c e 2 (a / 8 * 8) (spliceWord d (a % 8) (leBytes 4 (addWord f x y))) 2)
      { g with st := g.st.modGln c (fun k => { k with rc := k.rc.filter (fun l => l.line != a / 128) }) }
  else
    let (d, g) := g.take (g.st.coreRead space c a 4 0 false .gleaner e.issuer)
    (g.take (g.st.glnStore c e space a (leBytes 4 (addWord f (ofLe d) y)) 0)).2

/-- Source row `i` of a SCATADD as bytes. -/
def scatSource (c : Nat) (e : GlnEntry) (i : Nat) (g : GRun) : List Byte × GRun :=
  let a := cw e.desc 4 + i * gDst e.desc
  if !gIn g.st.variant 0 a (gTrow e.desc) then ([], g.failAt 2 i)
  else g.take (g.st.coreRead 0 c a (gTrow e.desc) 0 false .gleaner e.issuer)

/-- Is the target of a SCATADD in the rack window? -/
def scatRemote (e : GlnEntry) : Bool := gTsp e.desc == 2 && bitB (cw e.desc 1) 63

/-- Row `i` of a SCATADD with a local target. -/
def scatRow (c : Nat) (e : GlnEntry) (i : Nat) (g : GRun) : GRun :=
  let d := e.desc
  let (x, g) := g.index c e i
  if !g.ok then g
  else if cw d 7 ≤ x then g.oor c d i
  else
    let (b, g) := scatSource c e i g
    let a := cw d 1 + x * gTst d
    if g.ok && !b.isEmpty && !gIn g.st.variant (gTsp d) a b.length then g.failAt 2 i
    else (SMap.number 0 (words32 b)).foldl (fun g w =>
      if g.ok then addLocal c e (gTsp d) (gEfmt d) (a + 4 * w.1) w.2.toNat i g else g) g

/-! ### MERGE and ISECT (R203, R204) -/

/-- A list being read: space, base, length, place, the element at the place once read, and the one before it. -/
structure Lst where
  space : Nat
  base : Nat
  len : Nat
  at_ : Nat
  cur : Option Nat
  prev : Nat

/-- The element at the list's place is read where it is not yet; a decrease fails the operation. -/
def Lst.load (l : Lst) (c : Nat) (e : GlnEntry) (g : GRun) : Lst × GRun :=
  if l.cur.isSome || l.len ≤ l.at_ then (l, g)
  else
    let (x, g) := g.list c e l.space (l.base + l.at_ * gW e.desc) (gW e.desc) l.at_
    if g.ok && l.at_ != 0 && x < l.prev then (l, g.failAt 5 l.at_) else ({ l with cur := some x }, g)

/-- The list's place moves on. -/
def Lst.next (l : Lst) : Lst := { l with at_ := l.at_ + 1, prev := l.cur.getD 0, cur := none }

/-- Output element `k` and its positions are written. -/
def listOut (c : Nat) (e : GlnEntry) (k x : Nat) (pos : List Nat) (g : GRun) : GRun :=
  let d := e.desc
  let g := g.put c e 0 (cw d 4 + k * gW d) k (leBytes (gW d) x)
  if g.ok && gPos d then
    g.put c e (gOsp d) (cw d 3 + k * 4 * pos.length) k ((pos.map (leBytes 4)).flatten)
  else g

/-- MERGE: `k` elements are written so far. -/
def mergeLoop (c : Nat) (e : GlnEntry) : Nat → Lst → Lst → Nat → GRun → Nat × GRun
  | 0, _, _, k, g => (k, g)
  | f + 1, a, b, k, g =>
    let (a, g) := a.load c e g
    let (b, g) := if g.ok then b.load c e g else (b, g)
    if !g.ok then (k, g)
    else
      match a.cur, b.cur with
      | none, none => (k, g)
      | some x, none =>
        let g := listOut c e k x [a.at_] g
        if g.ok then mergeLoop c e f a.next b (k + 1) g else (k, g)
      | none, some y =>
        let g := listOut c e k y [b.at_ % 2 ^ 31 + 2 ^ 31] g
        if g.ok then mergeLoop c e f a b.next (k + 1) g else (k, g)
      | some x, some y =>
        if x ≤ y then
          let g := listOut c e k x [a.at_] g
          if g.ok then mergeLoop c e f a.next b (k + 1) g else (k, g)
        else
          let g := listOut c e k y [b.at_ % 2 ^ 31 + 2 ^ 31] g
          if g.ok then mergeLoop c e f a b.next (k + 1) g else (k, g)

/-- ISECT: each common element written with its two positions. It ends once one list is used up, and reads no more of the other
(DEDUCED, unsafe, log entry 99). -/
def isectLoop (c : Nat) (e : GlnEntry) : Nat → Lst → Lst → Nat → GRun → Nat × GRun
  | 0, _, _, k, g => (k, g)
  | f + 1, a, b, k, g =>
    let (a, g) := a.load c e g
    let (b, g) := if g.ok then b.load c e g else (b, g)
    if !g.ok then (k, g)
    else
      match a.cur, b.cur with
      | some x, some y =>
        if x < y then isectLoop c e f a.next b k g
        else if y < x then isectLoop c e f a b.next k g
        else
          let g := listOut c e k x [a.at_, b.at_] g
          if g.ok then isectLoop c e f a.next b.next (k + 1) g else (k, g)
      | _, _ => (k, g)

/-- A MERGE or ISECT: the count written, and the evaluation. -/
def listOp (c : Nat) (e : GlnEntry) (g : GRun) : Nat × GRun :=
  let d := e.desc
  let a : Lst := ⟨gTsp d, cw d 1, gN d, 0, none, 0⟩
  let b : Lst := ⟨gIsp d, cw d 2, gN2 d, 0, none, 0⟩
  if e.op = 3 then mergeLoop c e (gN d + gN2 d) a b 0 g else isectLoop c e (gN d + gN2 d) a b 0 g

/-! ### SORT (R205) -/

/-- One stable pass on the 8-bit digit `k` of the keys. -/
def radixPass (k : Nat) (l : List (Nat × Nat)) : List (Nat × Nat) :=
  ((List.range 256).map (fun b => l.filter (fun p => lane 8 p.1 k == b))).flatten

/-- A pair as it is written. -/
def pairBytes (w : Nat) (p : Nat × Nat) : List Byte :=
  if w = 4 then leBytes 4 p.1 ++ leBytes 4 p.2 else leBytes 8 p.1 ++ leBytes 4 p.2 ++ leBytes 4 0

/-- The pair that bytes spell. -/
def pairOf (w : Nat) (d : List Byte) : Nat × Nat := (ofLe (d.take w), ofLe ((d.drop w).take 4))

/-- The pairs are read from their buffer. -/
def sortRead (c : Nat) (e : GlnEntry) : Nat → Nat → GRun → List (Nat × Nat) × GRun
  | 0, _, g => ([], g)
  | n + 1, i, g =>
    let d := e.desc
    let a := cw d 1 + i * gPair d
    if !gIn g.st.variant 0 a (gPair d) then ([], g.failAt 2 i)
    else
      let (b, g) := g.take (g.st.coreRead 0 c a (gPair d) 0 false .gleaner e.issuer)
      let (r, g) := sortRead c e n (i + 1) g
      (pairOf (gW d) b :: r, g)

/-- A pass's pairs are written to a buffer. -/
def sortWrite (c : Nat) (e : GlnEntry) (base : Nat) (l : List (Nat × Nat)) (g : GRun) : GRun :=
  (SMap.number 0 l).foldl (fun g x =>
    if g.ok then g.put c e 0 (base + x.1 * gPair e.desc) x.1 (pairBytes (gW e.desc) x.2) else g) g

/-- Passes k, k + 1, … of a SORT, each from one buffer to the other. -/
def sortPasses (c : Nat) (e : GlnEntry) : Nat → Nat → List (Nat × Nat) → GRun → GRun
  | 0, _, _, g => g
  | n + 1, k, l, g =>
    if g.ok then
      let l := radixPass k l
      sortPasses c e n (k + 1) l (sortWrite c e (if k % 2 = 0 then cw e.desc 4 else cw e.desc 1) l g)
    else g

/-! ### PROBE (R206, R207) -/

/-- The home slot of a key. -/
def homeSlot (k trows : Nat) : Nat := (k * 0x9E3779B97F4A7C15 % 2 ^ 64) >>> (64 - Nat.log2 trows)

/-- Slots h, h + 1, … of a probe: `n` left to read. -/
def probeLoop (c : Nat) (e : GlnEntry) (key posn : Nat) : Nat → Nat → GRun → Nat × GRun
  | 0, _, g => (0xFFFFFFFF, { g with st := g.st.incSat GLN_CNT.LONG 1 c })
  | n + 1, h, g =>
    let d := e.desc
    let (b, g) := g.table c e (cw d 1 + h * gPair d) (gPair d) posn
    if !g.ok || !g.need.isEmpty then (0, { g with more := g.more || n != 0 })
    else
      let p := pairOf (gW d) b
      if p.1 = key then (p.2, g)
      else if p.1 = 2 ^ (8 * gW d) - 1 then (0xFFFFFFFF, g)
      else probeLoop c e key posn n ((h + 1) % cw d 7) g

/-- Key `i` of a PROBE. The keys behind one that waits for a remote slot wait with it. -/
def probeKey (c : Nat) (e : GlnEntry) (i : Nat) (g : GRun) : GRun :=
  if !g.need.isEmpty then { g with more := true }
  else
    let d := e.desc
    let (k, g) := g.index c e i
    if !g.ok then g
    else
      let (v, g) := if k = 2 ^ (8 * gW d) - 1 then (0xFFFFFFFF, g)
        else probeLoop c e k i (if gAux d = 0 then 256 else gAux d) (homeSlot k (cw d 7)) g
      if !g.ok || !g.need.isEmpty then g else g.put c e 0 (cw d 4 + 4 * i) i (leBytes 4 v)

/-! ### Whole operations -/

/-- The evaluation of an operation that writes no stream, with the count that MERGE and ISECT write. -/
def gEval (c : Nat) (e : GlnEntry) (s : State) : Nat × GRun :=
  let d := e.desc
  let g : GRun := { st := s }
  let cause := gStartCause e.op d
  if cause ≠ 0 then (0, g.failAt cause 0)
  else
    match e.op with
    | 0 => (0, gLoop (putRow c e) (gN d) 0 g)
    | 1 => (0, gLoop (putRow c e) (gN2 d) 0 g)
    | 2 => (0, if scatRemote e then g else gLoop (scatRow c e) (gN d) 0 g)
    | 3 => listOp c e g
    | 4 => listOp c e g
    | 5 =>
      let (l, g) := sortRead c e (gN d) 0 g
      (0, sortPasses c e (gAux d) 0 l g)
    | _ => (0, gLoop (probeKey c e) (gN d) 0 g)

/-- The next row of a stream operation. -/
def gRowEval (c : Nat) (e : GlnEntry) (s : State) : List Nat × GRun :=
  let cause := gStartCause e.op e.desc
  if cause ≠ 0 then ([], { st := s, fail := some (cause, 0, 0) })
  else outRow c e e.placed { st := s }

/-- Does the operation write a stream? -/
def GlnEntry.streams (e : GlnEntry) : Bool := e.op ≤ 1 && gDstk e.desc
/-- Is the operation a scatter-add through the rack window? -/
def GlnEntry.scatters (e : GlnEntry) : Bool := e.op == 2 && scatRemote e && gStartCause 2 e.desc == 0

/-! ### Remote reads and adds of an operation (R202, R218) -/

/-- Entries of the core's 128 that the gleaner holds. -/
def State.glnHeld (s : State) (c : Nat) : Nat := (s.win.ops.filter (fun o => o.srcid == c && o.gln.isSome)).length

/-- Is a remote operation of entry `id` outstanding? -/
def State.glnOut (s : State) (c id : Nat) : Bool := s.win.ops.any (fun o => o.srcid == c && o.gln == some id)

/-- Is a remote range asked for already? -/
def State.glnAsked (s : State) (c id : Nat) (r : Nat × Nat) : Bool :=
  s.win.ops.any (fun o => o.srcid == c && o.gln == some id && o.addr.toNat == r.1)

/-- May the gleaner take `k` more outstanding-operation entries (R218)? -/
def State.glnFree (s : State) (c k : Nat) : Bool := s.glnHeld c + k ≤ 96 && s.remUsed c + k ≤ 128

/-- The remote ranges an entry needs are read, as entries allow. -/
def State.glnFetch (s : State) (c : Nat) (e : GlnEntry) : State :=
  let need := if e.streams then (gRowEval c e s).2.need else (gEval c e s).2.need
  need.foldl (fun s r =>
    if s.glnAsked c e.id r || !s.glnFree c 1 then s
    else s.remIssue ⟨c, 4, 0, 0, r.1, r.2, [], 0, false, none, some e.id, 0⟩) s

/-- Row `i` of a remote scatter-add: the pieces to send, or none where the index is skipped. -/
def scatPieces (c : Nat) (e : GlnEntry) (i : Nat) (g : GRun) : List (Nat × List Byte) × GRun :=
  let d := e.desc
  let (x, g) := g.index c e i
  if !g.ok then ([], g)
  else if cw d 7 ≤ x then ([], g.oor c d i)
  else
    let (b, g) := scatSource c e i g
    let a := cw d 1 + x * gTst d
    ((remPieces 128 (b.length / 128 + 2) a b.length).map (fun p => (p.1, (b.drop (p.1 - a)).take p.2)), g)

/-- The status bits of R226 that an evaluation sets. -/
def State.glnFlags (s : State) (c : Nat) (g : GRun) : State :=
  let s := if g.sat then s.wr GLN_STAT.SAT 1 c else s
  if g.corr then s.wr GLN_STAT.CORR 1 c else s

/-- Rows of a remote scatter-add leave as additive stores, as entries allow; `placed` counts the rows sent. -/
def State.glnScatter (s : State) (c id : Nat) : Nat → State
  | 0 => s
  | n + 1 =>
    match (s.core c).gln.queue.find? (fun e => e.id == id) with
    | some e =>
      if gN e.desc ≤ e.placed || e.remStatus.isSome then s
      else
        let (ps, g) := scatPieces c e e.placed { st := s }
        if g.ue then g.st
        else if !g.ok || !s.glnFree c ps.length then s
        else
          let s := (g.st.glnFlags c g).modEntry c id (fun x => { x with placed := x.placed + 1, corr := x.corr || g.corr })
          let s := ps.foldl (fun s p => s.remIssue ⟨c, 2, 0, 0, p.1, p.2.length, p.2,
            if gEfmt e.desc = 14 then 2 else 0, gDet e.desc, none, some id, e.placed⟩) s
          State.glnScatter s c id n
    | none => s

/-- What an entry that runs can send now is sent (R202, R218). -/
def State.glnPump (s : State) (c id : Nat) : State :=
  match (s.core c).gln.queue.find? (fun e => e.id == id) with
  | some e =>
    if !e.running || (e.scatters && e.remStatus.isSome) then s
    else if e.scatters then s.glnScatter c id (gN e.desc - e.placed)
    else s.glnFetch c e
  | none => s

/-! ### Running (R190) -/

/-- Every running entry of core `c` sends what it can: an outstanding-operation entry of the core has come free. -/
def State.glnPumpAll (s : State) (c : Nat) : State :=
  ((s.core c).gln.queue.map (·.id)).foldl (fun s id => s.glnPump c id) s

/-- Does the operation read its table through the rack window? -/
def GlnEntry.fetches (e : GlnEntry) : Bool :=
  (e.op == 0 || e.op == 1 || e.op == 6) && !gCounts e.op e.desc && gTsp e.desc == 2 && bitB (cw e.desc 1) 63 &&
    gStartCause e.op e.desc == 0

/-- Has an entry done all that the next operation waits for (R190)? It has issued its last read, which for a table in the rack window may
be unanswered, and a stream operation has placed its last row. A local operation is evaluated in one go as it completes. -/
def State.glnPassed (s : State) (c : Nat) (e : GlnEntry) : Bool :=
  e.running && (
    if e.streams then outCount e ≤ e.placed && gStartCause e.op e.desc == 0
    else if e.scatters then gN e.desc ≤ e.placed
    else e.fetches && e.failed.isEmpty && (
      let g := (gEval c e s).2
      g.fail.isNone && !g.ue && !g.more && g.need.all (s.glnAsked c e.id)))

/-- The next operation of the queue starts. The lines of `perr` show a parity error when they are next read from the row cache
(R217). -/
def execGleanOpStart (c : Nat) (perr : List Nat) (s : State) : Outcome State Fault Refusal :=
  if !s.alive then .next s else
  match (s.core c).gln.queue.find? (fun e => !s.glnPassed c e) with
  | none => .next s
  | some e =>
    if e.running then .next s
    else
      let s := s.modGln c (fun g => { g with perr := g.perr ++ perr.filter (fun x => !g.perr.contains x) })
      .next ((s.modEntry c e.id (fun x => { x with running := true })).glnPump c e.id)

/-- Must the writes of entry `e` wait for those of earlier operations (R190)? An earlier operation whose table reads are outstanding has
its rows still to write, and additive stores through the rack window may still change words of this module: one to its own node, or one
whose node is not known yet, is outstanding. An operation that writes a stream or sends additive stores writes no word of those. -/
def State.glnBehind (s : State) (c : Nat) (e : GlnEntry) : Bool :=
  !e.streams && !e.scatters &&
    ((s.core c).gln.queue.any (fun x => x.id < e.id && !x.streams && !x.scatters) ||
      s.win.ops.any (fun o => o.srcid == c && o.kind == 2 && o.gln.any (· < e.id) && (o.stage < 2 || entNode o.entry == s.node)))

/-! ### Completion and failure (R191, R221, R222) -/

/-- An operation leaves the queue: RESULT is written back, and the command takes its status or the event is signalled. -/
def State.glnLeave (s : State) (c : Nat) (e : GlnEntry) (result status : Nat) : State :=
  let s := (s.modGln c (fun g => { g with queue := g.queue.filter (fun x => x.id != e.id) })).touched c
  let s := if e.op = 3 ∨ e.op = 4 then (s.glnStore c e e.space (e.addr + 56) (leBytes 8 result) 0).st else s
  match e.cmd with
  | some id => s.report id status
  | none => s.glnSignal c e

/-- Status of an operation that succeeded (R222). -/
def glnStatus (sat corr : Bool) : Nat := if sat then 1 else if corr then 2 else 0

/-- An operation fails (R221): GLN_ERR, owed rows, discarded entries behind it, and the exception or the status. -/
def State.glnFail (s : State) (c : Nat) (e : GlnEntry) (cause posn status result : Nat) : State :=
  let s := if s.rdB GLN_ERR.VALID c then s else s.wrs .GLN_ERR c 0 0 [(GLN_ERR.VALID, 1), (GLN_ERR.CAUSE, cause),
    (GLN_ERR.SP, if e.cmd.isSome then 0 else e.sp), (GLN_ERR.CMD, b2n e.cmd.isSome), (GLN_ERR.STATUS, status),
    (GLN_ERR.POSN, posn), (GLN_ERR.COUNT, 0)]
  let s := s.incSat GLN_ERR.COUNT 1 c
  let s := s.modGln c (fun g => g.owe e.id)
  let s := s.glnLeave c e result (if cause = 6 then status else if cause = 7 then 0x10 else 0x17)
  let s := s.glnDiscard c (fun x => e.id < x.id &&
    (match e.cmd, x.cmd with
     | none, none => x.sp == e.sp
     | some _, some _ => x.queue == e.queue
     | _, _ => false))
  match e.cmd with
  | none => s.imprecise c e.sp 8 0 0 0
  | some _ => s

/-- Is an operation without a stream through: nothing needed, nothing outstanding, no failure? -/
def State.glnDone (s : State) (c : Nat) (e : GlnEntry) : Bool :=
  let g := (gEval c e s).2
  e.running && !s.glnOut c e.id && e.remStatus.isNone && !s.glnBehind c e && (
    if e.streams then gStartCause e.op e.desc == 0 && outCount e ≤ e.placed
    else g.need.isEmpty && g.fail.isNone && (!e.scatters || gN e.desc ≤ e.placed))

/-- A running operation completes (R191). -/
def execGleanOpComplete (c : Nat) (ups : List Upset) (s : State) : Outcome State Fault Refusal :=
  if !s.alive then .next s else
  match (s.core c).gln.queue.find? (fun e => s.glnDone c e) with
  | none => .next s
  | some e =>
    if e.streams || e.scatters then .next (s.glnLeave c e 0 (glnStatus e.sat e.corr))
    else
      let (n, g) := gEval c e (s.mark (gTsp e.desc) c ups)
      if g.ue then .next g.st
      else .next ((g.st.glnFlags c g).glnLeave c e n (glnStatus g.sat g.corr))

/-- The evaluation in which a running operation without a failed remote add fails: of its next row, for an operation that goes row by
row, else of the whole. It holds what the operation wrote, counted and met before the failing position, and the count of a MERGE or
ISECT. -/
def State.glnFailRun (s : State) (c : Nat) (e : GlnEntry) : Nat × GRun :=
  if e.streams then
    if outCount e ≤ e.placed && gStartCause e.op e.desc == 0 then (0, { st := s }) else (0, (gRowEval c e s).2)
  else if e.scatters then
    if gN e.desc ≤ e.placed then (0, { st := s }) else (0, (scatPieces c e e.placed { st := s }).2)
  else gEval c e s

/-- The failure that a running operation has come to, if any: cause, position, remote status. A remote add that failed names its row
(R202); a remote read that failed fails its position in the evaluation. Where index lists have changed since, so that no position names the read
that failed, the operation fails all the same (R218), behind what it had placed. -/
def State.glnFailure (s : State) (c : Nat) (e : GlnEntry) : Option (Nat × Nat × Nat) :=
  if !e.running || s.glnOut c e.id || s.glnBehind c e then none
  else
    match e.scatters, e.remStatus with
    | true, some r => some (6, r / 256, r % 256)
    | _, r =>
      let g := (s.glnFailRun c e).2
      if !g.need.isEmpty then none
      else match g.fail with
        | some f => some f
        | none => r.map (fun x => (6, e.placed, x % 256))

/-- A running operation fails: what it wrote before the failing position stands, and the errors it met are recorded (R221, R302). -/
def execGleanOpFail (c : Nat) (s : State) : Outcome State Fault Refusal :=
  if !s.alive then .next s else
  match (s.core c).gln.queue.find? (fun e => (s.glnFailure c e).isSome) with
  | none => .next s
  | some e =>
    match s.glnFailure c e with
    | none => .next s
    | some (cause, posn, status) =>
      if e.scatters && e.remStatus.isSome then .next (s.glnFail c e cause posn status 0)
      else
        let (n, g) := s.glnFailRun c e
        .next ((g.st.glnFlags c g).glnFail c e cause posn status n)

/-! ### Streams (R208, R212) -/

/-- Rows in a stream's buffer. -/
def Stream.buffered (x : Stream) : Nat := (x.segs.map (fun g => g.rows.length)).foldl (· + ·) 0

/-- The running stream operation that has rows to place, if any. -/
def Gln.streaming (g : Gln) : Option GlnEntry :=
  g.queue.find? (fun e => e.running && e.streams && (e.placed < outCount e || gStartCause e.op e.desc != 0))

/-- A stream operation places its next row, or finds the buffer full (R208, R212). -/
def execGleanStreamRowPlace (c : Nat) (s : State) : Outcome State Fault Refusal :=
  if !s.alive then .next s else
  match (s.core c).gln.streaming with
  | none => .next s
  | some e =>
    if outCount e ≤ e.placed then .next s
    else
      let (row, g) := gRowEval c e s
      if g.ue then .next g.st
      else if g.fail.isSome || !g.need.isEmpty then .next s
      else
        let n := gStream e.desc
        if 32 ≤ ((s.core c).gln.stream n).buffered then
          .next (s.modEntry c e.id (fun x => { x with fullSince := some (x.fullSince.getD s.now) }))
        else
          let t := g.st.glnFlags c g
          let t := t.modGln c (fun k => k.setStream n { k.stream n with
            segs := mapIf (fun y => y.entry == e.id) (fun y => { y with rows := y.rows ++ [row], placed := y.placed + 1 })
              (k.stream n).segs })
          .next ((t.modEntry c e.id (fun x => { x with
            placed := x.placed + 1
            fullSince := none
            sat := x.sat || g.sat
            corr := x.corr || g.corr })).glnPump c e.id)

/-- A stream operation whose interval has reached GLN_CFG.STALL ends with STALL (R212). What was counted and met in making the row that
it could not place stands (R217, R221, R228, R230). -/
def execGleanStallTimeout (c : Nat) (s : State) : Outcome State Fault Refusal :=
  if !s.alive then .next s else
  match (s.core c).gln.streaming with
  | none => .next s
  | some e =>
    let lim := s.rd GLN_CFG.STALL c
    match e.fullSince with
    | some t0 =>
      if lim != 0 && t0 + lim * 1000 ≤ s.now then
        let g := (gRowEval c e s).2
        .next (if g.ue then g.st else (g.st.glnFlags c g).glnFail c e 7 e.placed 0 0)
      else .next s
    | none => .next s

/-- A write of GLN_CFG: RC_FLUSH, or RC_EN at 0, drops every row-cache line (R216). -/
def State.writeGlnCfg (s : State) (c : Nat) (v : W64) : State :=
  let s := s.writeFields .GLN_CFG c 0 0 v
  if bitB v.toNat 17 || !s.rdB GLN_CFG.RC_EN c then s.modGln c (fun g => { g with rc := [] }) else s

/-- A write of GLN_CFG. -/
def execRcFlush (c : Nat) (v : W64) (s : State) : Outcome State Fault Refusal := .next (s.onCoreWrite c (fun s => s.writeGlnCfg c v))

end Sys2Proof.Machine
end

