-- ==== Sys2Proof/Machine/Copy.lean ====
section
/-! DEFINITION. The copy engines (R243, R244): which engine takes a command, the packets of a copy through the rack window,
and how a COPY or SOW finishes. -/

namespace Sys2Proof.Machine

open Host

/-- Operands of a COPY or SOW (R239): source, destination, length, placement, and whether it is a SOW. -/
structure CopyArgs where
  src : Nat
  dst : Nat
  len : Nat
  p : Place4
  sow : Bool
  deriving DecidableEq, Repr

/-- The operands that a command's words carry. -/
def copyArgs (c : List W64) : CopyArgs :=
  if cOp c = 3 then ⟨0, cw c 4, bits (cw c 5) 39 0, placeOf (cw c 7), true⟩
  else ⟨cw c 4, cw c 5, bits (cw c 6) 39 0, placeOf (cw c 7), false⟩

/-- Is an address of a space in the rack window? -/
def inWindow (space a : Nat) : Bool := space == 2 && bitB a 63

/-- Does the copy read through the rack window? -/
def CopyArgs.reads (a : CopyArgs) : Bool := !a.sow && inWindow a.p.sspace a.src
/-- Does the copy write through the rack window? -/
def CopyArgs.writes (a : CopyArgs) : Bool := inWindow a.p.dspace a.dst

/-- Base die that holds a local address. -/
def bdieOf (space core a : Nat) : Nat :=
  match space with
  | 0 => coreBdie core
  | 1 => a / 0x8000000
  | _ => a / stackSize / 4

/-- Base die whose engines run the command (R243). -/
def CopyArgs.bdie (a : CopyArgs) : Nat :=
  if a.writes then bdieOf a.p.sspace a.p.score a.src else bdieOf a.p.dspace a.p.dcore a.dst

/-- Commands that copy engine `k` (base die × 4 + engine) holds. -/
def State.copyJobs (s : State) (k : Nat) : List CopyJob := s.que.copies.get [] k
/-- The state with an engine's commands replaced. -/
def State.setJobs (s : State) (k : Nat) (l : List CopyJob) : State :=
  { s with que := { s.que with copies := s.que.copies.set [] k l } }

/-- Commands that a copy engine holds at most. -/
def copyRoom : Nat := 16

/-- The engine of base die `b` that takes the next command: the one with the fewest, the lowest-numbered among equals
(R243); none where all four are full (R254). -/
def State.copyEngine (s : State) (b : Nat) : Option Nat :=
  let k := [4 * b + 1, 4 * b + 2, 4 * b + 3].foldl
    (fun m k => if (s.copyJobs k).length < (s.copyJobs m).length then k else m) (4 * b)
  if (s.copyJobs k).length < copyRoom then some k else none

/-- SRCID of copy engine `k` (R405). -/
def copySrcid (k : Nat) : Nat := 0xF0 + k

/-- Remote operations of engine `k` outstanding. -/
def State.copyOut (s : State) (k : Nat) : Nat := (s.win.ops.filter (fun o => o.srcid == copySrcid k)).length

/-- The running copy of an engine changed by `f`. -/
def State.modJob (s : State) (k : Nat) (f : CopyJob → CopyJob) : State :=
  match s.copyJobs k with
  | j :: r => s.setJobs k (f j :: r)
  | [] => s

/-- A read of a guest's endpoint window (R501): what the guest shows there is not the module's to say, so the bytes are
free values. -/
def State.guestRead (s : State) (n : Nat) : Rd :=
  .ok (s.freeBytes n).1 (s.freeBytes n).2

/-- Bytes of the source at offset `o`: those read ahead, where the engine holds them (R322), else memory's. -/
def State.copySource (s : State) (j : CopyJob) (a : CopyArgs) (o n : Nat) : Rd :=
  match j.ahead with
  | some d => .ok ((d.drop o).take n) s
  | none =>
    if a.p.sspace = 0 ∧ s.dieGuest (a.p.score / 16) then s.guestRead n
    else s.memRead a.p.sspace a.p.score (a.src + o) n a.p.shint a.p.slast .copy none

/-- Must the engine hold an access to a range of a space: the core's island accepts no transfer (R38), or a pass into one of the range's
groups is in flight (R127)? -/
def State.copyHeld (s : State) (space core a n : Nat) : Bool := space == 0 && (s.coreShut core || s.accBusy core none a n)

/-- Bytes that make up, with each other, whole 8 B words of the range [dst, dst + len), the range's ends apart (R332). -/
def wholeWords (dst len : Nat) (m : SMap Byte) : SMap Byte :=
  m.filter (fun e => (List.range 8).all (fun i =>
    let w := e.1 / 8 * 8 + i
    decide (w < dst) || decide (dst + len ≤ w) || SMap.has m w))

/-- Is a remote operation of command `id` outstanding in engine `k`? -/
def State.copySent (s : State) (k id : Nat) : Bool := s.win.ops.any (fun o => o.srcid == copySrcid k && o.cmd == some id)

/-- Bytes that the running copy of engine `k` is to write now: whole words. Once a part of it has failed and nothing is outstanding, what
the packets that came have left of a word is written too, so that each of them is wholly written (R339). -/
def State.copyDue (s : State) (k : Nat) (j : CopyJob) (x : Cmd) : SMap Byte :=
  let a := copyArgs x.words
  if x.bad.isSome && !s.copySent k j.cmd then j.got else wholeWords a.dst a.len j.got

/-- Bytes of the running copy of engine `k` that are in the engine and can be written. -/
def State.copyReady (s : State) (k : Nat) (j : CopyJob) (x : Cmd) : SMap Byte :=
  let p := (copyArgs x.words).p
  let w := s.copyDue k j x
  if w.runs.any (fun e => s.copyHeld p.dspace p.dcore e.1 e.2.length) then [] else w

/-- A write of a copy engine at an address of its destination. A part of an accumulator word, which is written whole (R125), is merged
with the rest of the word. -/
def State.copyPut (s : State) (p : Place4) (a : Nat) (d : List Byte) : Rd :=
  if p.dspace = 0 ∧ touchesAcc a d.length ∧ (a % 4 ≠ 0 ∨ d.length % 4 ≠ 0) then
    let lo := a / 4 * 4
    let r := s.memRead 0 p.dcore lo (ceilDiv (a + d.length) 4 * 4 - lo) 0 false .copy none
    if r.ue then r
    else
      let t := r.st.memWriteRd 0 p.dcore lo (spliceWord r.data (a - lo) d) 0 .copy none
      ⟨[], r.corr || t.corr, t.ue, t.st⟩
  else s.memWriteRd p.dspace p.dcore a d p.dhint .copy none

/-- The engine writes what has come through the window and can be written. -/
def State.copyFlush (s : State) (k : Nat) : State :=
  match s.copyJobs k with
  | [] => s
  | j :: _ =>
    match s.cmdOf j.cmd with
    | none => s
    | some x =>
      let a := copyArgs x.words
      let w := s.copyReady k j x
      if w.isEmpty then s
      else
        let r := w.runs.foldl (fun (r : Rd) e =>
          if r.ue then r
          else
            let t := r.st.copyPut a.p e.1 e.2
            ⟨[], r.corr || t.corr, t.ue, t.st⟩) (.ok [] s)
        (r.st.modCmd j.cmd (fun x => { x with corr := x.corr || r.corr })).modJob k (fun j =>
          { j with got := j.got.filter (fun e => !SMap.has w e.1) })

/-- The next packet of a copy through the rack window: at most 512 B, within a 512 B-aligned block of remote addresses. A copy into the
window reads each 8 B word of its source once (R332), though a packet may end within it. -/
def State.copyPacket (s : State) (k : Nat) (j : CopyJob) (a : CopyArgs) : State :=
  let o := j.sent
  let ra := (if a.reads then a.src else a.dst) + o
  let n := min (512 - ra % 512) (a.len - o)
  if a.reads then
    (s.modJob k (fun j => { j with sent := o + n })).remIssue
      ⟨copySrcid k, 5, 0, 0, ra, n, [], 0, false, some j.cmd, none, a.dst + o⟩
  else
    let from_ := o + j.rest.length
    let m := min a.len (ceilDiv (a.src + o + n) 8 * 8 - a.src) - from_
    if s.copyHeld a.p.sspace a.p.score (a.src + from_) m then s
    else
      let r := if m = 0 then .ok [] s else s.copySource j a from_ m
      if r.ue then r.st
      else
        let d := j.rest ++ r.data
        let t := r.st.modCmd j.cmd (fun x => { x with corr := x.corr || r.corr })
        (t.modJob k (fun j => { j with sent := o + n, rest := d.drop n })).remIssue
          ⟨copySrcid k, 6, 0, 0, ra, n, d.take n, 0, false, some j.cmd, none, 0⟩

/-- An engine sends what its running copy can send now, up to 256 packets outstanding. -/
def State.copyPump (s : State) (k : Nat) : Nat → State
  | 0 => s
  | n + 1 =>
    match s.copyJobs k with
    | j :: _ =>
      match s.cmdOf j.cmd with
      | some x =>
        let a := copyArgs x.words
        if (a.reads || a.writes) && x.bad.isNone && j.sent < a.len && s.copyOut k < 256 && !s.flt.egressOff then
          State.copyPump (s.copyPacket k j a) k n
        else s
      | none => s
    | [] => s

/-- What follows the end of a remote operation: the engine's copy goes on, or the core's gleaner, which may have waited for the entry
that has come free (R202, R218). -/
def State.remNext (s : State) (o : RemOp) : State :=
  match o.cmd with
  | some _ => (s.copyFlush (o.srcid - 0xF0)).copyPump (o.srcid - 0xF0) 256
  | none => s.glnPumpAll o.srcid

/-- The head command of an engine leaves it, and the next one begins. -/
def State.popJob (s : State) (k : Nat) : State :=
  (s.setJobs k ((s.copyJobs k).drop 1)).copyPump k 256

/-- Bytes that a SOW writes (R244): the byte at address a is byte a mod 8 of the pattern. -/
def sowBytes (dst len pat : Nat) : List Byte :=
  (List.range len).map (fun i => BitVec.ofNat 8 (lane 8 pat ((dst + i) % 8)))

/-- Must the engine hold its local command: its ranges cannot be read and written now? -/
def State.copyWaits (s : State) (a : CopyArgs) : Bool :=
  (!a.sow && s.copyHeld a.p.sspace a.p.score a.src a.len) || s.copyHeld a.p.dspace a.p.dcore a.dst a.len

/-- A local COPY or SOW moves its bytes; whether a correctable or an uncorrectable error was met. -/
def State.copyMove (s : State) (j : CopyJob) (x : Cmd) (a : CopyArgs) : Rd :=
  if a.sow then
    s.memWriteRd a.p.dspace a.p.dcore a.dst (sowBytes a.dst a.len (cw x.words 6)) a.p.dhint .copy none
  else
    let r := s.copySource j a 0 a.len
    if r.ue then r
    else
      let t := r.st.memWriteRd a.p.dspace a.p.dcore a.dst r.data a.p.dhint .copy none
      ⟨r.data, r.corr || t.corr, t.ue, t.st⟩

/-- Copy engine `e` of base die `b` finishes its running command (R243, R259). A copy through the rack window is over once
all of it has been acknowledged and written, or once a part has failed and nothing is outstanding or held. -/
def execCopyComplete (b e : Nat) (ups : List Upset) (s : State) : Outcome State Fault Refusal :=
  if !s.alive then .next s else
  let k := 4 * b + e
  let s := s.copyFlush k
  match s.copyJobs k with
  | [] => .next s
  | j :: _ =>
    match s.cmdOf j.cmd with
    | none => .next (s.popJob k)
    | some x =>
      let a := copyArgs x.words
      if a.reads || a.writes then
        if s.copySent k j.cmd || (x.bad.isNone && j.sent < a.len) || !(s.copyDue k j x).isEmpty then
          .next (s.copyPump k 256)
        else .next ((s.report j.cmd (x.bad.getD (if x.corr then 2 else 0))).popJob k)
      else if s.copyWaits a then .next s
      else
        let r := (s.mark a.p.sspace a.p.score ups).copyMove j x a
        if r.ue then .next r.st
        else .next ((r.st.report j.cmd (if r.corr || x.corr then 2 else 0)).popJob k)

end Sys2Proof.Machine
end

