-- ==== Sys2Proof/Machine/Remote.lean ====
section
/-! DEFINITION. The rack window's commands: the REMOTE instructions (R160, R335), imprecise exceptions and the end of a kernel
(R171, R173), walks (R346), answers, retransmission and timeout (R353), the receiver (R351, R403), folding (R359 to
R361), skips (R338) and the ends of combine entries (R356). -/

namespace Sys2Proof.Machine

open Host

/-! ### Instructions (R160) -/

/-- Bytes by SIZE. -/
def rmSize (i : Nat) : Nat :=
  match bits i 22 21 with
  | 0 => 4
  | 1 => 8
  | _ => 128

/-- Is the word a legal REMOTE instruction of this kind (R148, R160)? -/
def rmLegal (kind i : Nat) : Bool :=
  bits i 22 21 != 3 && bits i 63 50 == 0 &&
    (if kind = 2 then
      bits i 24 23 != 3 && !(bits i 24 23 == 1 && bits i 22 21 == 0) && !(bits i 24 23 != 1 && bits i 22 21 == 1)
     else bits i 25 23 == 0)

/-- Entries of a core's outstanding operations (R161). -/
def remRoom : Nat := 128

/-- A REMOTE instruction of a kind. -/
def remoteInstr (kind c p : Nat) (w : W64) (s : State) : State :=
  let i := w.toNat
  let vec := bits i 22 21 == 2
  let reg := bits i 15 11
  s.issue c p i (iMaj i == 0x63 && iSub i == kind) (rmLegal kind i)
    (bits i 20 16 :: (if vec then [] else [reg])) (if vec then [reg] else []) (fun s =>
      let u := s.sp c p
      let a := addOff (u.xr (bits i 20 16)) (sext 24 (bits i 49 26))
      let n := rmSize i
      if !bitB a 63 then s.precise c p 4 a
      else if a % n ≠ 0 then s.precise c p 3 a
      else if remRoom ≤ s.remUsed c then s.count c 0x35 (some p) 1
      else
        let d := if kind = 0 then [] else if vec then leBytes 128 (u.vr reg).toNat else leBytes n (u.xr reg).toNat
        let t := (s.count c (0x30 + kind) (some p) 1).retire c p 8
        t.remIssue ⟨c, kind, p, reg, a, n, d, bits i 24 23, bitB i 25, none, none, 0⟩)

/-- RLD. -/
def execRld (c p : Nat) (w : W64) (s : State) : Outcome State Fault Refusal := .next (remoteInstr 0 c p w s)
/-- RST. -/
def execRst (c p : Nat) (w : W64) (s : State) : Outcome State Fault Refusal := .next (remoteInstr 1 c p w s)
/-- RADD. -/
def execRadd (c p : Nat) (w : W64) (s : State) : Outcome State Fault Refusal := .next (remoteInstr 2 c p w s)
/-- RSTF: it enters like a store, and RSTF_SEND sends it. -/
def execRstf (c p : Nat) (w : W64) (s : State) : Outcome State Fault Refusal := .next (remoteInstr 3 c p w s)

/-- A held RSTF fails with the status of an earlier write, or is sent once no earlier write of its source is outstanding
(R335). -/
def execRstfSend (id : Nat) (s : State) : Outcome State Fault Refusal :=
  match s.remOp id with
  | none => .next s
  | some o =>
    if o.kind ≠ 3 ∨ o.stage = 3 then .next s
    else
      match o.failSt with
      | some st => .next ((s.remFail o st false).remNext o)
      | none =>
        if (before id o.srcid s.win.ops).any (·.writes) || !s.maySend o then .next s
        else .next (s.sendOp o).pump

/-! ### Exceptions -/

/-- The oldest pending imprecise exception is taken before the next instruction issues (R173). -/
def execImpreciseExceptionTaken (c p : Nat) (s : State) : Outcome State Fault Refusal :=
  if !s.alive then .next s else
  let u := s.sp c p
  match u.pend with
  | [] => .next s
  | e :: r =>
    if !u.run || u.super || u.accWait.isSome then .next s
    else
      let s := s.modSp c p (fun u => { u with pend := r, fetch := none })
      .next (s.takeExc c p ⟨e.cause, false, e.arr, e.status, u.pc.toNat, e.info.toNat⟩)

/-! ### Walks (R346) -/

/-- Does an operation wait for a walk of this page through base die `b`'s cache? -/
def RemOp.waitsFor (o : RemOp) (b page : Nat) : Bool :=
  o.stage == 1 && srcBdie o.srcid == b && winPage o.addr.toNat == page

/-- A walk starts where an operation waits for the page, none of the page is in progress, and a walk is free. -/
def execWindowWalkStart (b page : Nat) (s : State) : Outcome State Fault Refusal :=
  if s.win.ops.any (fun o => o.waitsFor b page) && !s.win.walks.contains (b, page) &&
      (s.win.walks.filter (fun x => x.1 == b)).length < 16 then
    .next { s with win := { s.win with walks := s.win.walks ++ [(b, page)] } }
  else .next s

/-- The operations that wait for a page are checked against its entry, in issue order. -/
def State.checkWaiting (s : State) (b page : Nat) (e : W64) : State :=
  (s.win.ops.filter (fun o => o.waitsFor b page)).foldl (fun s o =>
    match s.remOp o.id with
    | some o => (s.checkEntry o e).remNext o
    | none => s) s

/-- A walk returns its entry, which is installed if valid, and the waiting lookups go on; a walk that a table change has made
stale is dropped, and its waiters walk again (R370). `ce` entries of the cache were read with a correctable error (R538). -/
def execWindowWalkComplete (b page ce : Nat) (s : State) : Outcome State Fault Refusal :=
  if !s.win.walks.contains (b, page) then .next s
  else
    let s := s.incSat FLT_CE_SUM.WINCACHE ce 0
    let s1 := { s with win := { s.win with
      walks := s.win.walks.filter (· != (b, page)), stale := s.win.stale.filter (· != (b, page)) } }
    if s.win.stale.contains (b, page) then .next s1
    else
      let r := s1.eRead (winEntryAt s.variant page) 8 0 false .walker
      if r.ue then .next r.st
      else
        let e := w64 (ofLe r.data)
        let t := if entInvalid e then r.st else r.st.setWcache b (wcInstall (r.st.wcache b) page e)
        .next (t.checkWaiting b page e)

/-! ### Answers at the source (R353, R404) -/

/-- A packet delivered to this module's receivers is taken by one of them. -/
def State.takeRx (s : State) (p : Packet) : State :=
  { s with fab := { s.fab with rx := dropFirst (· == p) s.fab.rx } }

/-- Is a node EXCLUDED in the roll (R548, R551)? -/
def State.excluded (s : State) (n : Nat) : Bool := s.rd ROLL_NODE.STATE 0 n == 3

/-- Smallest window (R419). -/
def State.wmin (s : State) : Nat := min 256 (max 1 (s.rd FAB_ECN.WMIN))

/-- The window after an answer (R404). -/
def Pair.adjust (x : Pair) (now hold wmin : Nat) (ece : Bool) : Pair :=
  if ece then
    if (match x.last with | none => true | some t => decide (t + hold ≤ now)) then
      { x with w := max wmin (x.w / 2), last := some now, inc := 0 }
    else x
  else if x.w ≤ x.inc + 1 then { x with w := min 256 (x.w + 1), inc := 0 }
  else { x with inc := x.inc + 1 }

/-- The pair's window is adjusted by an answer. -/
def State.ecn (s : State) (p : Packet) : State :=
  if SMap.has s.win.pairs (pairKey p.srcid p.src) then
    let f := fun (x : Pair) => x.adjust s.now (s.rd FAB_ECN.HOLD) s.wmin p.ece
    { s with win := { s.win with pairs := s.win.pairs.upd {} (pairKey p.srcid p.src) f } }
  else s

/-- Is a retransmission allowed now: fewer than three sent, and before the operation timeout (R353)? -/
def State.mayResend (s : State) (o : RemOp) : Bool := decide (o.tries < 3) && decide (s.now < o.issued + s.remTimeout)

/-- An operation is transmitted again. -/
def State.resend (s : State) (o : RemOp) : State :=
  (s.modRem o.id (fun x => { x with lastTx := s.now, tries := x.tries + 1 })).sendPkt (s.remPacket o true)

/-- What an answer does to the operation it answers. -/
def State.answered (s : State) (o : RemOp) (p : Packet) : State :=
  if p.typ = 6 then
    let o := { o with nak := true }
    let s := s.modRem o.id (fun _ => o)
    if 3 ≤ o.tries then (s.remFail o 0x11 true).remNext o
    else if s.mayResend o then s.resend o
    else s
  else if p.typ = 7 then
    ((s.winFault 7 o.kind o.srcid (winPage o.addr.toNat)).remFail o 0x13 false).remNext o
  else if (p.typ == 4) == kindReads o.kind then (s.remDone o p.payload).remNext o
  else s

/-- An answer reaches the source. One with a bad CRC or of another epoch is discarded and counted (R408); one that answers nothing
outstanding changes the window alone. -/
def execRemoteResponseArrival (p : Packet) (s : State) : Outcome State Fault Refusal :=
  if p.typ < 4 ∨ 7 < p.typ ∨ p.vc ≠ 1 then .next s
  else
    let s := s.takeRx p
    if s.excluded p.src then .next (s.incSat ROLL_STAT.XRX 1 0)
    else if !p.crcOk then .next (s.incSat FAB_DROP2.E2ECRC 1 0)
    else if p.epoch ≠ s.epoch32 then .next (s.incWrap WIN_RX.STALE 1 0)
    else
      let s := s.ecn p
      match s.win.ops.find? (fun o =>
        o.srcid == p.srcid && o.stage == 3 && o.seq == p.seq && entNode o.entry == p.src) with
      | none => .next s.pump
      | some o => .next (s.answered o p)

/-- An operation unanswered 8 us after its latest transmission is transmitted again. -/
def execRemoteRetransmit (id : Nat) (s : State) : Outcome State Fault Refusal :=
  match s.remOp id with
  | none => .next s
  | some o =>
    if o.stage = 3 ∧ o.lastTx + 8000 ≤ s.now ∧ s.mayResend o then .next (s.resend o) else .next s

/-- An operation unanswered at its timeout fails (R353, R363); one held back by QUIESCE does not run its timeout (R397). -/
def execRemoteOpTimeout (id : Nat) (s : State) : Outcome State Fault Refusal :=
  match s.remOp id with
  | none => .next s
  | some o =>
    if s.now < o.issued + s.remTimeout ∨ (o.stage ≠ 3 ∧ s.rdB FAB_CTL.QUIESCE) then .next s
    else .next ((s.remFail o (if o.nak then 0x11 else 0x10) true).remNext o)

/-! ### The receiver (R351, R402, R403) -/

/-- Key of a remote source at the receiver. -/
def rxKey (src srcid : Nat) : Nat := src * 256 + srcid

/-- The sequence number expected from a source. -/
def State.rxNext (s : State) (src srcid : Nat) : Nat := s.win.rx.get 0 (rxKey src srcid)

/-- The first number from `n` on that the source has not skipped. -/
def afterSkips (skips : List (Nat × Nat)) (key : Nat) : Nat → Nat → Nat
  | 0, n => n
  | k + 1, n => if skips.contains (key, n) then afterSkips skips key k ((n + 1) % 2 ^ 32) else n

/-- The receiver expects number `n` of a source next, or the first after it that is not skipped. -/
def State.rxSet (s : State) (src srcid n : Nat) : State :=
  let k := rxKey src srcid
  { s with win := { s.win with rx := s.win.rx.set 0 k (afterSkips s.win.skips k s.win.skips.length n) } }

/-- Is the packet a held one's copy? -/
def sameOp (p q : Packet) : Bool := p.src == q.src && p.srcid == q.srcid && p.seq == q.seq

/-- What an arrival is to the receiver. -/
inductive RxCase where
  | excluded | corrupt | stale | skipped | duplicate | next | copy | full | ahead
  deriving DecidableEq, Repr

/-- The case of an arrival (R351, R353, R338, R402, R403). -/
def State.rxCase (s : State) (p : Packet) : RxCase :=
  let n := s.rxNext p.src p.srcid
  if s.excluded p.src then .excluded
  else if !p.crcOk then .corrupt
  else if p.epoch ≠ s.epoch32 then .stale
  else if s.win.skips.contains (rxKey p.src p.srcid, p.seq) then .skipped
  else if p.seq < n then .duplicate
  else if p.seq = n then .next
  else if s.win.held.any (sameOp p) then .copy
  else if 4096 ≤ s.win.held.length then .full
  else .ahead

/-- An answer leaves for the source of a packet; CE is copied into ECE (R404). -/
def State.answer (s : State) (p : Packet) (typ aux : Nat) (d : List Byte) : State :=
  s.sendPkt { s.packet typ 1 p.src p.srcid with ece := p.ce, seq := p.seq, aux := aux, len := d.length, payload := d }

/-- Is an operation's local address refused (R351)? -/
def State.refuses (s : State) (p : Packet) : Bool := !inE s.variant p.addr p.len

/-- A refused operation is counted and answered. -/
def State.refuse (s : State) (p : Packet) : State := (s.incWrap WIN_RX.REFUSED 1 0).answer p 7 0x13 []

/-- A read is served and answered. -/
def State.serveRead (s : State) (p : Packet) : State :=
  let r := s.eRead p.addr p.len 0 false .arrival
  if r.ue then r.st else r.st.answer p 4 0 r.data

/-! ### Additive stores -/

/-- Bytes per word of an ATYPE. -/
def aTypeBytes (t : Nat) : Nat := if t = 1 then 8 else 4

/-- The sum of two words of an ATYPE (R160, R434). -/
def addOf (t x y : Nat) : Nat :=
  match t with
  | 1 => (x + y) % 2 ^ 64
  | 2 => fp32Add x y
  | _ => (x + y) % 2 ^ 32

/-- One local atomic add per word: addresses and addends (R336). -/
def State.addWords (s : State) (t : Nat) (l : List (Nat × Nat)) : State :=
  l.foldl (fun s e =>
    let n := aTypeBytes t
    let r := s.eRead e.1 n 2 false .arrival
    if r.ue then r.st else r.st.eWrite e.1 (leBytes n (addOf t (ofLe r.data) e.2)) 2 .arrival) s

/-- The words of an additive store's payload, with their addresses. -/
def addends (p : Packet) : List (Nat × Nat) :=
  let n := aTypeBytes p.atype
  (List.range (p.len / n)).map (fun i => (p.addr + n * i, ofLe ((p.payload.drop (n * i)).take n)))

/-- The 64 B lines that a packet's bytes touch. -/
def foldLines (p : Packet) : List Nat :=
  if p.len = 0 then []
  else (List.range ((p.addr + p.len - 1) / 64 - p.addr / 64 + 1)).map (fun i => (p.addr / 64 + i) * 64)

/-! ### Folding (R359 to R362) -/

/-- The router slice that folds adds to an address: that of the base die which holds its stack. -/
def foldSlice (a : Nat) : Nat := a / stackSize / 4

/-- Fold entries of slice `b`. -/
def State.folds (s : State) (b : Nat) : List FoldEntry := s.win.fold.get [] b
/-- The state with a slice's fold entries replaced. -/
def State.setFolds (s : State) (b : Nat) (l : List FoldEntry) : State :=
  { s with win := { s.win with fold := s.win.fold.set [] b l } }
/-- Combine entries of slice `b`. -/
def State.combs (s : State) (b : Nat) : List CombEntry := s.win.comb.get [] b
/-- The state with a slice's combine entries replaced. -/
def State.setCombs (s : State) (b : Nat) (l : List CombEntry) : State :=
  { s with win := { s.win with comb := s.win.comb.set [] b l } }

/-- Entries that a slice's combine table can take yet (R358). -/
def State.tableRoom (s : State) (b : Nat) : Nat := 1024 - ((s.combs b).length + (s.folds b).length)

/-- Addends of a line's word at `a`, in arrival order, summed. -/
def foldSum (t a : Nat) (cs : List Packet) : Option Nat :=
  (cs.flatMap (fun p => (addends p).filterMap (fun e => if e.1 = a then some e.2 else none))).foldl
    (fun m x => match m with
      | none => some x
      | some y => some (addOf t y x)) none

/-- The words of a fold entry with their sums. -/
def FoldEntry.sums (e : FoldEntry) : List (Nat × Nat) :=
  let n := aTypeBytes e.atype
  (List.range (64 / n)).filterMap (fun i => (foldSum e.atype (e.line + n * i) e.contribs).map (fun v => (e.line + n * i, v)))

/-- A fold entry closes: its sums are added, and a contribution that no other entry still holds is acknowledged (R360,
R361). -/
def State.foldClose (s : State) (b : Nat) (e : FoldEntry) : State :=
  let s := s.setFolds b ((s.folds b).filter (fun x => !(x.line == e.line && x.atype == e.atype && x.epoch == e.epoch)))
  let s := (s.addWords e.atype e.sums).incWrap WIN_COMB.FOLDED e.contribs.length b
  e.contribs.foldl (fun s p =>
    if (s.folds b).any (fun x => x.contribs.any (sameOp p)) then s else s.answer p 5 0 []) s

/-- May an additive store be folded (R359)? -/
def State.foldable (s : State) (p : Packet) : Bool := p.typ == 2 && p.comb && !p.det && s.rdB WIN_GUARD.FOLD

/-- Would the store join this entry? -/
def State.joins (s : State) (p : Packet) (e : FoldEntry) : Bool :=
  s.foldable p && e.atype == p.atype && e.epoch == p.epoch && decide (s.now < e.openAt + 64)

/-- Every fold entry that a test accepts closes, slice by slice. -/
def State.closeFolds (s : State) (f : State → Nat → FoldEntry → Bool) : State :=
  (List.range s.variant.bdies).foldl (fun s k =>
    ((s.folds k).filter (f s k)).foldl (fun s e => s.foldClose k e) s) s

/-- Fold entries that an operation ready to be applied closes first (R361): those its source contributes to, and those of
a line it touches and cannot join. -/
def State.foldsFirst (s : State) (p : Packet) : State :=
  let b := foldSlice p.addr
  s.closeFolds (fun s k e => e.contribs.any (fun q => q.src == p.src && q.srcid == p.srcid) ||
    (k == b && (foldLines p).contains e.line && !s.joins p e))

/-- Is the store folded: has the table room for the entries that it would open (R358, R360)? -/
def State.folding (s : State) (p : Packet) : Bool :=
  let b := foldSlice p.addr
  s.foldable p && decide (((foldLines p).filter (fun ln => !(s.folds b).any (fun e => e.line == ln && s.joins p e))).length ≤ s.tableRoom b)

/-- An additive store is applied by itself, after the entries of its lines (R361). -/
def State.addAlone (s : State) (p : Packet) : State :=
  let b := foldSlice p.addr
  let s := s.closeFolds (fun _ k e => k == b && (foldLines p).contains e.line)
  (s.addWords p.atype (addends p)).answer p 5 0 []

/-- A foldable store joins or opens an entry for each of its lines (R360). -/
def State.foldJoin (s : State) (p : Packet) : State :=
  let b := foldSlice p.addr
  (foldLines p).foldl (fun s ln =>
    if (s.folds b).any (fun e => e.line == ln && s.joins p e) then
      s.setFolds b (mapIf (fun e => e.line == ln && s.joins p e) (fun e => { e with contribs := e.contribs ++ [p] })
        (s.folds b))
    else s.setFolds b (s.folds b ++ [⟨ln, p.atype, p.epoch, s.now, [p]⟩])) s

/-- A remote operation is applied (R333, R336). -/
def State.applyRemote (s : State) (p : Packet) : State :=
  let s := s.foldsFirst p
  if s.refuses p then s.refuse p
  else
    match p.typ with
    | 0 => s.serveRead p
    | 2 =>
      if s.folding p then s.foldJoin p else s.addAlone p
    | _ => (s.eWrite p.addr (p.payload.take p.len) 0 .arrival).answer p 5 0 []

/-- Is an operation held although it is next: a write while E-space is frozen (R365)? -/
def State.freezes (s : State) (p : Packet) : Bool := s.frozen && p.typ != 0 && p.typ != 9

/-- A duplicate is answered again (R403), unless the add it repeats is still in a fold entry. -/
def State.repeatAnswer (s : State) (p : Packet) : State :=
  if s.refuses p then s.refuse p
  else if p.typ = 0 then s.serveRead p
  else if (List.range s.variant.bdies).any (fun b => (s.folds b).any (fun e => e.contribs.any (sameOp p))) then s
  else s.answer p 5 0 []

/-- A packet is held for its turn. -/
def State.hold (s : State) (p : Packet) : State :=
  if 4096 ≤ s.win.held.length then s.incSat FAB_DROP2.REORDER 1 0
  else { s with win := { s.win with held := s.win.held ++ [p] } }

/-- A VC0 operation arrives at the receiver (R351). -/
def execRemoteArrival (p : Packet) (s : State) : Outcome State Fault Refusal :=
  if 3 < p.typ ∨ p.vc ≠ 0 then .next s
  else
    let s := s.takeRx p
    match s.rxCase p with
    | .excluded => .next (s.incSat ROLL_STAT.XRX 1 0)
    | .corrupt => .next ((s.incSat FAB_DROP2.E2ECRC 1 0).answer p 6 0 [])
    | .stale => .next (s.incWrap WIN_RX.STALE 1 0)
    | .skipped => .next s
    | .duplicate => .next (s.repeatAnswer p)
    | .next =>
      if s.freezes p then .next (s.hold p)
      else .next ((s.rxSet p.src p.srcid ((p.seq + 1) % 2 ^ 32)).applyRemote p)
    | .copy => .next s
    | .full => .next (s.incSat FAB_DROP2.REORDER 1 0)
    | .ahead => .next (s.hold p)

/-- A skip arrives (R338): the number is passed over, and a held copy of its operation is dropped. -/
def execSkipArrival (p : Packet) (s : State) : Outcome State Fault Refusal :=
  if p.typ ≠ 8 then .next s
  else
    let s := s.takeRx p
    if s.excluded p.src then .next (s.incSat ROLL_STAT.XRX 1 0)
    else if !p.crcOk then .next (s.incSat FAB_DROP2.E2ECRC 1 0)
    else if p.epoch ≠ s.epoch32 then .next (s.incWrap WIN_RX.STALE 1 0)
    else if p.seq < s.rxNext p.src p.srcid ∨ s.win.skips.contains (rxKey p.src p.srcid, p.seq) then .next s
    else
      let s := { s with win := { s.win with
        skips := s.win.skips ++ [(rxKey p.src p.srcid, p.seq)]
        held := s.win.held.filter (fun q => !sameOp p q) } }
      .next (s.rxSet p.src p.srcid (s.rxNext p.src p.srcid))

/-- A fold entry is applied 64 ns after it opened (R360). -/
def execFoldApply (b i : Nat) (s : State) : Outcome State Fault Refusal :=
  match (s.folds b)[i]? with
  | some e => .next (if e.openAt + 64 ≤ s.now then s.foldClose b e else s)
  | none => .next s

/-- A combine entry takes no further reads 64 ns after it opened (R356). -/
def execCombineWindowClose (b i : Nat) (s : State) : Outcome State Fault Refusal :=
  match (s.combs b)[i]? with
  | some e =>
    .next (if e.openAt + 64 ≤ s.now then s.setCombs b (setNth (s.combs b) i { e with isOpen := false }) else s)
  | none => .next s

/-- A combine entry whose response has not passed is freed after 8 us (R356). -/
def execCombineEntryTimeout (b i : Nat) (s : State) : Outcome State Fault Refusal :=
  match (s.combs b)[i]? with
  | some e => .next (if e.openAt + 8000 ≤ s.now then s.setCombs b ((s.combs b).eraseIdx i) else s)
  | none => .next s

/-! ### Registers -/

/-- A write of WIN_TD: THAW ends the freeze (R365). -/
def State.writeWinTd (s : State) (v : W64) : State := if bitB v.toNat 1 then s.wr WIN_TD.FROZEN 0 else s

/-- WIN_TD.THAW. -/
def execWinTdThaw (v : W64) (s : State) : Outcome State Fault Refusal := .next (s.onWrite (fun s => s.writeWinTd v))

/-- A write of WIN_CACHE_CTL: INV drops every entry of the cache (R383). -/
def State.writeWinCache (s : State) (b : Nat) (v : W64) : State := if bitB v.toNat 0 then s.setWcache b [] else s

/-- WIN_CACHE_CTL.INV. -/
def execWinCacheInv (b : Nat) (v : W64) (s : State) : Outcome State Fault Refusal := .next (s.onWrite (fun s => s.writeWinCache b v))

end Sys2Proof.Machine
end

