-- ==== Sys2Proof/Machine/Power.lean ====
section
/-! DEFINITION. Power and heat (chapter 15): input and converters, phase hints and regulators, droop detectors, sensors,
bands, issue fractions, and the thermal trip. -/

namespace Sys2Proof.Machine

open Host

/-! ### The trip (R524) -/

/-- A thermal trip of cause `src`: PWR_STAT and the fault record are written, the notification leaves, clocks and links
stop, and the trip output is asserted. -/
def State.thermTrip (s : State) (src : Nat) : State :=
  if s.rdB PWR_STAT.TRIP then s
  else
    let s := s.wrs .PWR_STAT 0 0 0 [(PWR_STAT.TRIP, 1), (PWR_STAT.TRIPSRC, src)]
    let s := (s.fltRecord 3 0 0 0 0 0).faultNote 3 .PWR_STAT
    { s with
      flt := { s.flt with halterOff := true, egressOff := true }
      pwr := { s.pwr with trip := true, stopped := true } }

/-! ### Input (R511, R512) -/

/-- Does the input stand in the low band, or in the high band, in which the module runs and says so (R511)? -/
def inLow (mv : Nat) : Bool := decide (46000 ≤ mv) && decide (mv < 48000)
/-- See `inLow`. -/
def inHigh (mv : Nat) : Bool := decide (60000 < mv) && decide (mv ≤ 62000)

/-- INLOW and INHIGH show the band in which an input of `mv` stands. -/
def State.showInput (s : State) (mv : Nat) : State :=
  s.wrs .PWR_STAT 0 0 0 [(PWR_STAT.INLOW, b2n (inLow mv)), (PWR_STAT.INHIGH, b2n (inHigh mv))]

/-- The input voltage, in mV, takes a new value (R511). -/
def execInputVoltageChange (mv : Nat) (s : State) : Outcome State Fault Refusal :=
  let enters := (inLow mv && !s.rdB PWR_STAT.INLOW) || (inHigh mv && !s.rdB PWR_STAT.INHIGH)
  let s := s.showInput mv
  let s := if enters then s.faultNote 5 .PWR_STAT else s
  let off := decide (mv < 46000) || decide (62000 < mv)
  .next { s with pwr := { s.pwr with vin := mv, up := s.pwr.up && !off } }

/-- Voltage in mV, current in 0.1 A and power in W are reported in PWR_IN, and the same figures to the board over PMBus (R511,
R530). -/
def execPwrInReport (mv da watts : Nat) (s : State) : Outcome State Fault Refusal :=
  .next { s.wrs .PWR_IN 0 0 0 [(PWR_IN.VIN, mv), (PWR_IN.IIN, da), (PWR_IN.PIN, watts)] with
    pwr := { s.pwr with pmbus := (mv, da, watts) } }

/-- Converters of a variant (R512). -/
def converters : Variant → Nat
  | .trn0304 => 3
  | .trn0608 => 5
  | .trn1216 => 8

/-- Converter `k` fails; a second failure trips the module (R512). -/
def execConverterFail (k : Nat) (s : State) : Outcome State Fault Refusal :=
  if converters s.variant ≤ k ∨ bitB (s.rd PWR_STAT.CONVFAIL) k then .next s
  else
    let s := (s.wrBit PWR_STAT.CONVFAIL k true).faultNote 5 .PWR_STAT
    .next (if 2 ≤ popN 8 (s.rd PWR_STAT.CONVFAIL) then s.thermTrip 4 else s)

/-! ### Domains and operating points (R513 to R516) -/

/-- Domain `i`. -/
def State.dom (s : State) (i : Nat) : Dom := s.pwr.doms.get {} i
/-- The state with domain `i` changed by `f`. -/
def State.modDom (s : State) (i : Nat) (f : Dom → Dom) : State :=
  { s with pwr := { s.pwr with doms := s.pwr.doms.upd {} i f } }

/-- Does the variant have domain `i` (R513)? -/
def domExists (v : Variant) (i : Nat) : Bool :=
  if i < 192 then i < v.cores
  else if i < 204 then i - 192 < v.cdies
  else if i < 216 then i - 204 < v.cdies
  else if i < 220 then i - 216 < v.bdies
  else i < 236 && i - 220 < v.stacks

/-- Power state of core `c`. -/
def State.corePwr (s : State) (c : Nat) : CorePwr := s.pwr.cores.get {} c
/-- Die port `d`. -/
def State.die (s : State) (d : Nat) : DiePort := s.dies.get {} d
/-- The state with die port `d` changed by `f`. -/
def State.modDie (s : State) (d : Nat) (f : DiePort → DiePort) : State := { s with dies := s.dies.upd {} d f }

/-- The state that R513 gives a domain: 0 OFF, 1 ON, 2 LOW. Those of a guest die switch with the module alone (R502). -/
def State.domState (s : State) (i : Nat) : Nat :=
  if !domExists s.variant i || !s.pwr.up then 0
  else if i < 192 then
    if s.stby.inStby || (!s.dieGuest (i / 16) && (s.gated i || s.fallow (i / 16) || !s.dieReleased (i / 16))) then 0 else 1
  else if i < 204 then (if s.stby.inStby || s.fallow (i - 192) then 2 else 1)
  else if i < 216 then 1
  else if i < 220 then (if s.stby.inStby then 0 else 1)
  else if s.stby.inStby then 2 else 1

/-- STATE of a domain (R532): the state of R513, once the regulator has switched the rail on; OFF from POR or MRST until then
(R527). -/
def State.domShown (s : State) (i : Nat) : Nat := if (s.dom i).on then s.domState i else 0

/-- The word of PWR_VT of a domain and point (R514, R534). -/
def State.vtWord (s : State) (i p : Nat) : Nat := (s.boot.otp.vt.get 0 (i * 8 + p)).toNat

/-- Light- and heavy-load setpoints of a point after the user offset (R515), in mV. -/
def State.vlow (s : State) (i p : Nat) : Nat × Nat :=
  let w := s.vtWord i p
  let f := fun (v : Nat) => (clampI 620 (bits w 41 32) ((v : Int) + sext 8 (s.rd PWR_DOM_CTL.UOFS i))).toNat
  (f (bits w 21 12), f (bits w 31 22))

/-- Setpoint of a hint level at point `p` (R519). -/
def State.vlevel (s : State) (i p level : Nat) : Nat :=
  let (lo, hi) := s.vlow i p
  lo + (hi - lo) * (match level with | 0 => 0 | 1 => 1 | 2 => 2 | _ => 4) / 4

/-- A write of PWR_DOM_CTL (R515, R516, R531): PT of a core domain, and UOFS within ±25 mV, else CFGERR. -/
def State.writeDomCtl (s : State) (i : Nat) (v : W64) : State :=
  if !domExists s.variant i then s
  else
    let s := if i < 192 then s.wr PWR_DOM_CTL.PT (PWR_DOM_CTL.PT.get v) i else s
    let u := sext 8 (PWR_DOM_CTL.UOFS.get v)
    if -25 ≤ u ∧ u ≤ 25 then s.wr PWR_DOM_CTL.UOFS (PWR_DOM_CTL.UOFS.get v) i else s.wr PWR_STAT.CFGERR 1

/-- A write of PWR_DOM_CTL that sets the user offset. -/
def execUofsWrite (i : Nat) (v : W64) (s : State) : Outcome State Fault Refusal := .next (s.onWrite (fun s => s.writeDomCtl i v))
/-- A write of PWR_DOM_CTL that selects the point. -/
def execPtWrite (i : Nat) (v : W64) (s : State) : Outcome State Fault Refusal := .next (s.onWrite (fun s => s.writeDomCtl i v))

/-! ### Droop (R517, R518) -/

/-- Detectors of a domain: 15 in a core island, 16 in a die uncore. -/
def detectors (i : Nat) : Nat := if i < 192 then 15 else if i < 204 then 16 else 0

/-- The droop threshold below the setpoint, in mV (R528): DMARGIN, 10 at least and 60 at most. -/
def State.dmargin (s : State) : Nat := min 60 (max 10 (s.rd PWR_CFG.DMARGIN))

/-- A detector sees a local supply of `mv`. It trips where that lies below the setpoint less DMARGIN, in an island that is on: the
island's clock period doubles. -/
def execDroopTrip (i : Nat) (det : DroopSense) (s : State) : Outcome State Fault Refusal :=
  if !domExists s.variant i || detectors i ≤ det.det || (s.dom i).tripped.contains det.det || s.domShown i == 0 ||
      decide ((s.dom i).setp ≤ det.mv + s.dmargin) then .next s
  else .next ((s.modDom i (fun x => { x with tripped := x.tripped ++ [det.det], stretched := true })).incSat PWR_DROOP.TRIPS 1 i)

/-- A detector clears; after the last, the clock returns to normal. -/
def execDroopRelease (i det : Nat) (s : State) : Outcome State Fault Refusal :=
  .next (s.modDom i (fun x =>
    { x with tripped := x.tripped.filter (· != det), stretched := x.stretched && x.tripped.any (· != det) }))

/-- Cycles in which a pair issued (event 0x04, R168, R185): `a` in scalar processor 0 alone, `b` in 1 alone, `ab` in both. A counter counts
those in which a processor of its SPMASK issued one. -/
def State.countPairs (s : State) (i a b ab : Nat) : State :=
  if s.rdB CNT_CTL.EN i then
    (List.range 64).foldl (fun s n =>
      let m := s.rd CNT_SEL.SPMASK i n
      let k := (if bitB m 0 then a else 0) + (if bitB m 1 then b else 0) + (if m = 0 then 0 else ab)
      if s.counts i 0x04 none n && k != 0 then s.cntAdd i k n else s) s
  else s

/-- Cycles that R523 closes among the first `m` from the start of a window of 64, of which the first `n` are open. -/
def closedCycles (n m : Nat) : Nat := m / 64 * (64 - n) + (m % 64 - n)

/-- What core `i` counts of a 10 us window of `cycles` cycles (R185): the cycles, those stretched, those in which a pair issued and in
which nothing issued, which no scalar processor causes (DEDUCED, unsafe, log entry 102), those in which the gleaner was busy, and those
that R523 closes to arrays and vector units. -/
def State.countWindow (s : State) (i cycles : Nat) (k : WindowCounts) : State :=
  let s := (s.count i 0x01 none cycles).count i 0x02 none (min cycles k.stretched)
  let a := min cycles k.pair0
  let b := min (cycles - a) k.pair1
  let ab := min (cycles - a - b) k.pairs
  let s := (s.countPairs i a b ab).count i 0x05 none (min (cycles - a - b - ab) k.idle)
  let s := s.count i 0x20 none (min cycles k.busy)
  let n := s.issueCycles (i / 16)
  s.count i 0x60 none (closedCycles n (k.place % 64 + cycles) - closedCycles n (k.place % 64))

/-- A 10 us sample window of `cycles` cycles ends (R518): a core counts them (R185). -/
def execReactWindow (i cycles : Nat) (k : WindowCounts) (s : State) : Outcome State Fault Refusal :=
  let s := if i < s.variant.cores then s.countWindow i cycles k else s
  if s.rdB PWR_CFG.REACT_EN && domExists s.variant i && decide (cycles < k.stretched * 100) then
    .next (s.modDom i (fun x => { x with reactUntil := some (s.now + 100000) }))
  else .next s

/-! ### Hints and regulators (R519) -/

/-- Is a LEAD valid (R165)? -/
def leadOk (lead : Nat) : Bool := 5 ≤ lead && lead ≤ 50

/-- A hint becomes pending in island `i`. -/
def State.hintPend (s : State) (i lead level : Nat) : State :=
  s.modDom i (fun x => { x with hint := some (level, s.now + lead * 1000), ramp := false })

/-- PHASE (R165): the hint reaches its core's island, or is counted void. -/
def execPhase (c p : Nat) (w : W32) (s : State) : Outcome State Fault Refusal :=
  let i := w.toNat
  .next (s.issue c p i (iMaj i == 0x1E) (bits i 11 7 == 0 && bits i 31 20 == 0) [] [] (fun s =>
    let lead := bits i 17 12
    let s :=
      if !s.rdB PWR_CFG.HINT_EN then s
      else if leadOk lead then s.hintPend c lead (bits i 19 18)
      else s.count c 0x61 (some p) 1
    s.retire c p 4))

/-- Is the island reactive now? -/
def State.reactive (s : State) (i : Nat) : Bool :=
  match (s.dom i).reactUntil with
  | some t => decide (s.now < t)
  | none => false

/-- A level that has stood for 2 ms lapses. -/
def Dom.lapse (x : Dom) (now : Nat) : Dom := if 0 < x.level ∧ x.since + 2000000 ≤ now then { x with level := 0 } else x

/-- The point a domain is to run at: PT of a core, P7 or P0 elsewhere (R513, R514). -/
def State.wantPt (s : State) (i : Nat) : Nat :=
  if i < 192 then s.rd PWR_DOM_CTL.PT i else if s.domState i = 2 then 0 else 7

/-- A setpoint moves by at most 4 mV towards its goal. -/
def slew (v goal : Nat) : Nat := if v < goal then min goal (v + 4) else max goal (v - 4)

/-- The 1 us update of an island's regulator (R516, R519). -/
def State.regulate (s : State) (i : Nat) : State :=
  let x := s.dom i
  if s.domState i = 0 then s.modDom i (fun x => { x with setp := 0, hint := none, ramp := false, level := 0, on := false })
  else
    let p := s.wantPt i
    let due := match x.hint with
      | some (l, t) =>
        let g := s.vlevel i p l
        x.ramp || (decide (x.setp < g) && decide (t ≤ s.now + (g - x.setp) * 250))
      | none => false
    let want := match x.hint with
      | some (l, _) => if due then s.vlevel i p l else 0
      | none => 0
    let y : Dom := match x.hint with
      | some (l, t) => if t ≤ s.now then { x with level := l, since := t, hint := none, ramp := false }
        else { x with ramp := due }
      | none => x
    let y := y.lapse s.now
    let goal := max (max (s.vlevel i p y.level) (if s.reactive i then (s.vlow i p).2 else 0)) want
    let v := slew x.setp goal
    let pt := if p ≤ x.pt || goal ≤ v then p else x.pt
    s.modDom i (fun _ => { y with setp := v, pt := pt, on := true })

/-- A regulator updates. -/
def execRegulatorUpdate (i : Nat) (s : State) : Outcome State Fault Refusal :=
  .next (if domExists s.variant i then s.regulate i else s)

/-- A hint level not renewed for 2 ms lapses to 0. -/
def execHintLapse (i : Nat) (s : State) : Outcome State Fault Refusal := .next (s.modDom i (fun x => x.lapse s.now))

/-! ### Bands (R525; R304 takes the same thresholds) -/

/-- The band after a reading of `t` (0.125 degC), from band `b`. -/
def bandOf (b : Nat) (t : Int) : Nat :=
  let up := fun (k : Nat) => (600 + 80 * (k : Int) : Int)
  let inB := fun (k : Nat) => decide (up k ≤ t) || (decide (k ≤ b) && decide (up k - 24 ≤ t))
  if inB 3 then 3 else if inB 2 then 2 else if inB 1 then 1 else 0

/-! ### Sensors (R520 to R523) -/

/-- The trip temperature, 115 degC. -/
def tripTemp : Int := 920

/-- First sensor and count of die `k`: compute die k, or base die k − 12. -/
def dieSensors (k : Nat) : Nat × Nat := if k < 12 then (48 * k, 48) else (576 + 32 * (k - 12), 32)

/-- Die that sensor `x` belongs to. -/
def sensorDie (x : Nat) : Nat := if x < 576 then x / 48 else 12 + (x - 576) / 32

/-- Dies with sensors: present compute dies, and base dies. -/
def State.thermDies (s : State) : List Nat :=
  (List.range s.variant.cdies).filter (fun d => s.diePresent d) ++ (List.range s.variant.bdies).map (· + 12)

/-- Sensors of die `k`: a guest die has sensor 0 alone (R520). -/
def State.sensorsOf (s : State) (k : Nat) : List Nat :=
  let (a, n) := dieSensors k
  (List.range (if k < 12 && s.dieGuest k then 1 else n)).map (a + ·)

/-- Sensor `x`. -/
def State.sensor (s : State) (x : Nat) : Sensor := s.pwr.sensors.get {} x
/-- The state with sensor `x` replaced. -/
def State.setSensor (s : State) (x : Nat) (v : Sensor) : State :=
  { s with pwr := { s.pwr with sensors := s.pwr.sensors.set {} x v } }

/-- The 11-bit code of a temperature. -/
def tempCode (t : Int) : Nat := wrapN 11 t

/-- What a sensor reads: 115 degC once broken (R521). -/
def Sensor.temp (v : Sensor) : Int := if v.broken then tripTemp else v.last

/-- A sensor breaks (R521), for reason `why` (R537). -/
def State.breakSensor (s : State) (x why : Nat) : State :=
  if (s.sensor x).broken then s
  else
    let s := s.setSensor x { s.sensor x with broken := true, same := 1 }
    let s := s.wrs .THM_SENS x 0 0 [(THM_SENS.TEMP, tempCode tripTemp), (THM_SENS.BROKEN, 1), (THM_SENS.WHY, why)]
    s.faultNote 4 .THM_SENS x

/-- A sensor takes its raw reading; one out of range breaks, and one that has broken stands at the trip temperature. -/
def State.takeReading (s : State) (x : Nat) (r : Reading) : State :=
  let v := s.sensor x
  if v.broken then s.setSensor x { v with same := v.same + 1 }
  else
    match r with
    | some t =>
      if t < -320 ∨ 1200 < t then s.breakSensor x 1
      else
        (s.setSensor x { v with last := t, same := if t = v.last then v.same + 1 else 1 }).wr THM_SENS.TEMP (tempCode t) x
    | none => s.breakSensor x 1

/-- A sensor unchanged over 64 samples, while another of its die, broken since or not, has changed, breaks. -/
def State.checkStuck (s : State) (x : Nat) : State :=
  if 64 ≤ (s.sensor x).same ∧ (s.sensorsOf (sensorDie x)).any (fun y => y != x && decide ((s.sensor y).same < 64)) then
    s.breakSensor x 2
  else s

/-- Greatest of a list of temperatures with their indexes; the lowest index among equals. -/
def hottest : List (Nat × Int) → Option (Nat × Int)
  | [] => none
  | e :: r => match hottest r with
    | some f => if e.2 < f.2 then some f else some e
    | none => some e

/-- Die maximum and the sensor that sets it. -/
def State.dieMax (s : State) (k : Nat) : Option (Nat × Int) :=
  hottest ((s.sensorsOf k).map (fun x => (x, (s.sensor x).temp)))

/-- Temperature of a die; none has one below every band. -/
def State.dieTemp (s : State) (k : Nat) : Int :=
  match s.dieMax k with
  | some e => e.2
  | none => -320

/-- Throttle temperature of a compute die, and band temperature of a base die (R522). -/
def State.actTemp (s : State) (k : Nat) : Int :=
  if k < 12 then max (s.dieTemp k) (s.dieTemp (12 + k / 3))
  else ((s.thermDies.filter (fun d => d < 12 && d / 3 == k - 12)).map s.dieTemp).foldl max (s.dieTemp k)

/-- Issue fraction in 400ths (R523): 10 % less for each degree, in steps of 0.125 degC, and 10 % at least. -/
def State.issueFrac (s : State) (k : Nat) : Nat :=
  let t0 := min 0x2F8 (max 0x230 (s.rd THM_CFG.T0))
  let e := (s.actTemp k - (t0 : Int)).toNat
  max 40 (400 - min 400 (5 * e))

/-- The registers of a die after a sample (R525, R536). -/
def State.dieSample (s : State) (k : Nat) : State :=
  match s.dieMax k with
  | none => s
  | some (x, t) =>
    let band := bandOf (s.rd THM_DIE.BAND k) (if k < 12 then t else s.actTemp k)
    let broken := ((s.sensorsOf k).filter (fun y => (s.sensor y).broken)).length
    let f := if k < 12 then s.issueFrac k else 400
    let s := s.wrs .THM_DIE k 0 0 [(THM_DIE.MAX, tempCode t), (THM_DIE.BAND, band), (THM_DIE.ISSUE, f / 4), (THM_DIE.BROKEN, broken),
      (THM_DIE.HOT, x - (dieSensors k).1)]
    { s with pwr := { s.pwr with frac := s.pwr.frac.set 400 k f } }

/-- Is every sensor of a die broken? A guest die's report is its one sensor (R502). -/
def State.dieBlind (s : State) (k : Nat) : Bool :=
  !(s.sensorsOf k).isEmpty && (s.sensorsOf k).all (fun x => (s.sensor x).broken)

/-- Does a working sensor of the module's own read the trip temperature? -/
def State.dieHot (s : State) (k : Nat) : Bool :=
  !(k < 12 && s.dieGuest k) && (s.sensorsOf k).any (fun x => !(s.sensor x).broken && decide (tripTemp ≤ (s.sensor x).last))

/-- The module trips where a sensor or a blind die asks for it (R524). -/
def State.checkTrip (s : State) : State :=
  if s.thermDies.any s.dieHot then s.thermTrip 1
  else if s.thermDies.any s.dieBlind then s.thermTrip 2
  else s

/-- The maxima of R522 and what follows from them. -/
def State.afterSample (s : State) : State :=
  let s := s.thermDies.foldl (fun s k => s.dieSample k) s
  let s := match hottest (s.thermDies.map (fun k => (k, s.dieTemp k))) with
    | some (k, t) => s.wrs .THM_MOD 0 0 0 [(THM_MOD.MAX, tempCode t), (THM_MOD.DIE, k), (THM_MOD.TIME, s.time32)]
    | none => s
  s.checkTrip

/-- All sensors sample together (R520): readings by sensor number. -/
def execThermalSample (readings : List Reading) (s : State) : Outcome State Fault Refusal :=
  let own := s.thermDies.flatMap (fun k => if k < 12 && s.dieGuest k then [] else s.sensorsOf k)
  let s := own.foldl (fun s x => s.takeReading x ((readings[x]?).getD none)) s
  let s := own.foldl (fun s x => s.checkStuck x) s
  .next s.afterSample

/-- A sensor's self-check against its reference, off by `devMilli` thousandths of a degree (R521). -/
def execSensorSelfCheck (x devMilli : Nat) (s : State) : Outcome State Fault Refusal :=
  if devMilli ≤ 2000 ∨ !s.thermDies.contains (sensorDie x) ∨ !(s.sensorsOf (sensorDie x)).contains x ∨
      (sensorDie x < 12 ∧ s.dieGuest (sensorDie x)) then .next s
  else .next (s.breakSensor x 3).checkTrip

end Sys2Proof.Machine
end

