-- ==== Sys2Proof/Machine/Controllers.lean ====
section
/-! DEFINITION. Memory controllers and bay caches: their registers' writes (R295, R308, R314, R315), stack temperature and
refresh (R304, R305), and uncorrectable errors (R541). -/

namespace Sys2Proof.Machine

open Host

/-! ### Bay caches -/

/-- Every dirty word of stack `t`'s bay cache is written back; lines stay valid and clean (R315). -/
def State.bayClean (s : State) (t : Nat) : State :=
  ((s.stack t).bay.foldl (fun s b => s.bayWriteBack t b) s).modStack t (fun k =>
    { k with bay := k.bay.map (fun b => { b with dirty := 0 }) })

/-- Every dirty word is written back and every line dropped. -/
def State.bayEmpty (s : State) (t : Nat) : State :=
  (s.stack t).bay.foldl (fun s b => s.bayDrop t b.line) (s.bayClean t)

/-- A write-back runs. -/
def State.bayBusy (s : State) (t : Nat) : State := s.modStack t (fun k => { k with busy := true })

/-- A write of BAY_CTL (R315). A frozen E-space keeps the cache's contents, dirty words included (R365). -/
def State.writeBayCtl (s : State) (t : Nat) (v : W64) : State :=
  if s.frozen then s
  else if bitB v.toNat 1 then (s.bayEmpty t).bayBusy t
  else if bitB v.toNat 0 then (s.bayClean t).bayBusy t
  else s

/-- BAY_CTL.FLUSH. -/
def execBayFlush (t : Nat) (s : State) : Outcome State Fault Refusal := .next (s.onWrite (fun s => s.writeBayCtl t 1))
/-- BAY_CTL.WBINV. -/
def execBayWbinv (t : Nat) (s : State) : Outcome State Fault Refusal := .next (s.onWrite (fun s => s.writeBayCtl t 2))
/-- The running write-back ends (R316). -/
def execBayFlushDone (t : Nat) (s : State) : Outcome State Fault Refusal :=
  .next (s.modStack t (fun k => { k with busy := false }))

/-- A write of BAY_CFG (R295, R314): KEEPWAYS 17 to 31 leaves its field; clearing EN writes back and drops every line. While E-space
is frozen, when the cache keeps its contents and serves reads (R365), EN stays as it is (DESIGN CHOICE, unsafe, log entry 72). -/
def State.writeBayCfg (s : State) (t : Nat) (v : W64) : State :=
  let k := BAY_CFG.KEEPWAYS.get v
  let was := s.rdB BAY_CFG.EN t
  let s := if k ≤ 16 then s.wr BAY_CFG.KEEPWAYS k t else s
  if s.frozen then s
  else
    let s := if was && !bitB v.toNat 0 then (s.bayEmpty t).bayBusy t else s
    s.wr BAY_CFG.EN (BAY_CFG.EN.get v) t

/-- A write of BAY_CFG. -/
def execBayCfgWrite (t : Nat) (v : W64) (s : State) : Outcome State Fault Refusal := .next (s.onWrite (fun s => s.writeBayCfg t v))

/-! ### Refresh (R304, R305) -/

/-- The band that is to be in force: temperature's, but not below REF_MIN. -/
def State.wantBand (s : State) (t : Nat) : Nat := max (s.stack t).tband (s.rd MEM_CFG.REF_MIN t)

/-- A change of band waits for the next refresh interval. -/
def State.bandNext (s : State) (t : Nat) : State :=
  let b := s.wantBand t
  s.modStack t (fun k => { k with pendBand := if b = k.band then none else some b })

/-- A write of MEM_CFG (R308): REF_MIN 3 leaves its field. -/
def State.writeMemCfg (s : State) (t : Nat) (v : W64) : State :=
  let s := s.wr MEM_CFG.PAGE (MEM_CFG.PAGE.get v) t
  let s := if MEM_CFG.REF_MIN.get v = 3 then s else s.wr MEM_CFG.REF_MIN (MEM_CFG.REF_MIN.get v) t
  if (s.stack t).band = 3 then s else s.bandNext t

/-- A write of MEM_CFG. -/
def execMemCfgWrite (t : Nat) (v : W64) (s : State) : Outcome State Fault Refusal := .next (s.onWrite (fun s => s.writeMemCfg t v))

/-- A controller reads its stack's temperature. A reading that is missing, out of range or unchanged over 64 samples counts as
105 degC; the trip band stops the stack and trips the module. -/
def execStackTempSample (t : Nat) (r : Reading) (s : State) : Outcome State Fault Refusal :=
  let k := s.stack t
  let same := if r.isSome ∧ r = k.last then k.same + 1 else 1
  let bad := match r with
    | some x => decide (x < -320) || decide (1200 < x) || decide (64 ≤ same)
    | none => true
  let temp : Int := if bad then 840 else r.getD 840
  let tb := if k.tband = 3 then 3 else bandOf k.tband temp
  let s := s.modStack t (fun k => { k with last := r, same := same, tband := tb })
  let s := s.wrs .MEM_STAT t 0 0 [(MEM_STAT.TEMP, wrapN 8 (temp / 8)), (MEM_STAT.SENSBAD, b2n bad)]
  if tb = 3 then
    .next ((s.modStack t (fun k => { k with band := 3, pendBand := none })).thermTrip 3)
  else .next (s.bandNext t)

/-- The pending band takes effect at the next refresh interval. -/
def execRefreshBandChange (t : Nat) (s : State) : Outcome State Fault Refusal :=
  .next (s.modStack t (fun k => { k with band := k.pendBand.getD k.band, pendBand := none }))

/-! ### Uncorrectable errors -/

/-- A block finds an uncorrectable error (R303, R541); block codes are those of FLT_REC0 (R570). -/
def execUncorrectableError (block agent unit syn addr : Nat) (s : State) : Outcome State Fault Refusal :=
  .next (if block ≤ 7 then s.ueFound agent block syn unit addr else s)

end Sys2Proof.Machine
end

