-- ==== Sys2Proof/Machine/Collective.lean ====
section
/-! DEFINITION. Collectives (chapter 12): groups, ranks and lines (R425 to R428, R433), the check of a command (R430),
contexts (R436 to R440), sheaves (R444 to R447), the stages (R442), and how a collective ends (R448 to R452). -/

namespace Sys2Proof.Machine

open Host

/-! ### Groups (R425 to R428) -/

/-- An entry of the group table. -/
structure Group where
  valid : Bool
  order : Nat
  count : Nat
  members : List Nat
  deriving DecidableEq, Repr

/-- Members that the first eight words of an entry name. -/
def membersOf (w : Nat → Nat) : List Nat := (List.range 512).filter (fun n => bitB (w (n / 64)) (n % 64))

/-- The entry that sixteen words spell. -/
def groupOf (w : Nat → Nat) : Group := ⟨bitB (w 8) 0, bits (w 8) 8 1, bits (w 8) 18 9, membersOf w⟩

/-- Entry `g` of the group table. -/
def State.group (s : State) (g : Nat) : Group := groupOf (fun i => s.rd COL_GRP.WORD 0 (16 * g + i))

/-- Coordinate of a node in dimension 0 W, 1 X, 2 Y, 3 Z (R387). -/
def coord (n d : Nat) : Nat :=
  match d with
  | 0 => bits n 8 6
  | 1 => bits n 5 4
  | 2 => bits n 3 2
  | _ => bits n 1 0

/-- Key of a member under ORDER (R427). -/
def rankKey (order n : Nat) : Nat := [0, 1, 2, 3].foldl (fun k i => k * 8 + coord n (lane 2 order i)) 0

/-- A node put in its place among nodes sorted by key. -/
def putByKey (order n : Nat) : List Nat → List Nat
  | [] => [n]
  | m :: r => if rankKey order n < rankKey order m then n :: m :: r else m :: putByKey order n r

/-- Members in order of rank. -/
def Group.ranked (g : Group) : List Nat := g.members.foldl (fun l n => putByKey g.order n l) []

/-- Distinct coordinates of the members in a dimension. -/
def Group.coords (g : Group) (d : Nat) : List Nat := (List.range 8).filter (fun c => g.members.any (fun n => coord n d == c))

/-- Is the group a box (R428)? -/
def Group.box (g : Group) : Bool :=
  g.members.length == (g.coords 0).length * (g.coords 1).length * (g.coords 2).length * (g.coords 3).length

/-- Dimensions in which a box has more than one coordinate. -/
def Group.wide (g : Group) (d : Nat) : Bool := 1 < (g.coords d).length

/-- The stages of an operation (R433, R435): STAGE code and dimension; a flat group has one, coded as the first of its
operation, with no dimension. -/
def Group.stages (g : Group) (op : Nat) : List (Nat × Option Nat) :=
  if g.members.length ≤ 1 then []
  else if !g.box then [(if op = 1 then 4 else 0, none)]
  else if op = 1 then ([3, 2, 1, 0].filter g.wide).map (fun d => (7 - d, some d))
  else ([0, 1, 2, 3].filter g.wide).map (fun d => (d, some d))

/-- Do nodes agree in every dimension but `d`? -/
def sameBut (d m n : Nat) : Bool := [0, 1, 2, 3].all (fun k => k == d || coord m k == coord n k)

/-- The line of member `m` in a stage, in order of rank (R433). -/
def Group.line (g : Group) (dim : Option Nat) (m : Nat) : List Nat :=
  match dim with
  | some d => g.ranked.filter (sameBut d m)
  | none => g.ranked

/-- Ranks of the blocks that member `m` holds before stage `pos` of an operation (R435, R442). -/
def Group.holds (g : Group) (op pos m : Nat) : List Nat :=
  let done := ((g.stages op).take pos).filterMap (·.2)
  let flat := !g.box
  (List.range g.members.length).filter (fun b =>
    let q := nth g.ranked 0 b
    if op = 1 then
      if flat then (pos != 0 || q == m) else [0, 1, 2, 3].all (fun d => done.contains d || coord q d == coord m d)
    else
      if flat then (pos == 0 || q == m) else done.all (fun d => coord q d == coord m d))

/-- Ranks of the blocks that `m` sends to `p` in stage `pos`, in the order of their bytes. -/
def Group.transfer (g : Group) (op pos m p : Nat) : List Nat :=
  let h := g.holds op pos m
  if op = 1 then h
  else match (nth (g.stages op) (0, none) pos).2 with
    | some d => h.filter (fun b => coord (nth g.ranked 0 b) d == coord p d)
    | none => h.filter (fun b => nth g.ranked 0 b == p)

/-! ### Commands (R429 to R432) -/

/-- COUNT of a collective command. -/
def colCount (c : List W64) : Nat := bits (cw c 6) 31 0
/-- GROUP. -/
def colGroup (c : List W64) : Nat := bits (cw c 6) 43 32
/-- TYPE. -/
def colType (c : List W64) : Nat := bits (cw c 6) 47 44
/-- REDOP. -/
def colRedop (c : List W64) : Nat := bits (cw c 6) 49 48
/-- Operation: 0 RS, 1 AG, 2 a barrier, which a zero count is too (R432). -/
def colOpOf (c : List W64) : Nat := if cOp c = 0x0A ∨ colCount c = 0 then 2 else cOp c - 8
/-- Bytes of a source element. -/
def colWidth (c : List W64) : Nat := fmtBits (colType c) / 8

/-- Bytes of scratch that an RS needs (R437). -/
def Group.scratch (g : Group) (count : Nat) : Nat :=
  match g.stages 0 with
  | [] => 0
  | st :: _ => 2 * (g.members.length / (g.line st.2 (nth g.members 0 0)).length) * count * 4

/-- Does a range of a space suit a collective (R430)? -/
def colRange (v : Variant) (space a n : Nat) : Bool :=
  match space with
  | 0 => inSpad a n
  | 1 => inL v a n
  | 2 => inE v a n
  | _ => false

/-- Is a space named other than the rack window and the reserved code? -/
def colSpace (space a : Nat) : Bool := space != 3 && !inWindow space a

/-- The base die whose engine a command first tries (R436). -/
def colBdie (v : Variant) (c : List W64) : Nat :=
  if cOp c = 0x0A then 0
  else if colCount c = 0 then 0
  else min (v.bdies - 1) (bdieOf (placeOf (cw c 7)).dspace (placeOf (cw c 7)).dcore (cw c 5))

/-- Does a collective command break a rule of R430? -/
def State.colBad (s : State) (c : List W64) : Bool :=
  let g := s.group (colGroup c)
  let p := placeOf (cw c 7)
  let n := g.members.length
  let blk := colCount c * colWidth c
  let rs := cOp c == 8
  let sn := if rs then n * blk else blk
  let dn := if rs then blk else n * blk
  let typeOk := if cOp c = 0x0A then colType c == 0 && colRedop c == 0
    else if rs then [6, 14, 12, 13, 10].contains (colType c) && colRedop c != 3
    else [4, 5, 6, 10, 11, 12, 13, 14].contains (colType c) && colRedop c == 0
  !g.valid || !g.members.contains s.node || !typeOk ||
    (cOp c != 0x0A && (!colSpace p.sspace (cw c 4) || !colSpace p.dspace (cw c 5))) ||
    (colOpOf c != 2 &&
      (!colRange s.variant p.sspace (cw c 4) sn || !colRange s.variant p.dspace (cw c 5) dn ||
        cw c 4 % 64 != 0 || cw c 5 % 64 != 0 ||
        (p.sspace == p.dspace && (p.sspace != 0 || p.score == p.dcore) && overlap (cw c 4) sn (cw c 5) dn) ||
        (rs && s.rd COL_SCR.SLOT (colBdie s.variant c) * 0x100000 < g.scratch (colCount c))))

/-- Has the roll call excluded a member of the group (R450)? -/
def State.groupLost (s : State) (g : Nat) : Bool := (s.group g).members.any s.excluded

/-! ### The cores that a command names (R241, R595) -/

/-- Cores of a LAUNCH, in order. -/
def launchCores (c : List W64) : List Nat :=
  (List.range (bits (cw c 4) 15 8)).map (fun i => bits (cw c 4) 7 0 + i * bits (cw c 4) 23 16)

/-- Cores that a command names, or whose S-space it names. -/
def cmdCores (c : List W64) : List Nat :=
  match cOp c with
  | 1 => launchCores c
  | 2 =>
    let a := copyArgs c
    if a.len = 0 then []
    else (if a.p.sspace = 0 then [a.p.score] else []) ++ (if a.p.dspace = 0 then [a.p.dcore] else [])
  | 3 => if (copyArgs c).len = 0 ∨ (copyArgs c).p.dspace ≠ 0 then [] else [(copyArgs c).p.dcore]
  | 4 => [(placeOf (cw c 5)).dcore]
  | 5 => [bits (cw c 6) 39 32]
  | _ => []

/-- Cores that a command names, or whose S-space it reads or writes itself (R38, R497): a TIMESTAMP and the collectives too, which do not
name a core in the sense of R595. -/
def cmdTouches (c : List W64) : List Nat :=
  let p := placeOf (cw c 7)
  match cOp c with
  | 0x08 => if colOpOf c = 2 then [] else (if p.sspace = 0 then [p.score] else []) ++ (if p.dspace = 0 then [p.dcore] else [])
  | 0x09 => if colOpOf c = 2 then [] else (if p.sspace = 0 then [p.score] else []) ++ (if p.dspace = 0 then [p.dcore] else [])
  | 0x19 => if (placeOf (cw c 5)).dspace = 0 then [(placeOf (cw c 5)).dcore] else []
  | _ => cmdCores c

/-- Can core `c` be named at all: it exists, and its die is present and no guest (R35, R241)? -/
def State.coreHere (s : State) (c : Nat) : Bool :=
  decide (c < s.variant.cores) && s.diePresent (c / 16) && !s.dieGuest (c / 16)

/-- What stands between a command and a core that it names. -/
inductive CoreSt where
  /-- fenced, or on a die that is not released: the command ends with ABORTED (R497, R562) -/
  | gone
  /-- gated, or on a die in fallow: the command wakes it (R595) -/
  | asleep
  /-- in the return pass that follows a wake or a reset (R547) -/
  | waking
  | ready
  deriving DecidableEq, Repr

/-- Winnow state of core `c`. -/
def State.wnwOf (s : State) (c : Nat) : Wnw := s.wnw.get {} c

/-- See `CoreSt`. -/
def State.coreSt (s : State) (c : Nat) : CoreSt :=
  let d := c / 16
  if s.coreFenced c || (!s.dieReleased d && !s.fallow d) then .gone
  else if s.fallow d || s.gated c then .asleep
  else if (s.wnwOf c).ret then .waking
  else .ready

/-- Does the command name a core that is gone, so that it ends with ABORTED at dispatch (R497, R562)? -/
def State.namesGone (s : State) (c : List W64) : Bool := (cmdTouches c).any (fun k => s.coreSt k == .gone)

/-! ### Contexts (R436) -/

/-- Contexts of a base die. -/
def ctxPer (v : Variant) : Nat := 64 / v.bdies

/-- The context a command takes: the lowest free one of the base die it tries first, then of the others (R436). -/
def State.ctxFor (s : State) (c : List W64) : Option Nat :=
  let b := colBdie s.variant c
  let n := ctxPer s.variant
  (b :: (List.range s.variant.bdies).filter (· != b)).findSome? (fun b =>
    ((List.range n).map (b * n + ·)).find? (fun i => (s.ctx i).isNone))

/-- Base die of a context. -/
def State.ctxBdie (s : State) (i : Nat) : Nat := i / ctxPer s.variant

/-! ### CRC-64 and the digest (R445, R447) -/

/-- One bit of the CRC. -/
def crcBit (c : Nat) : Nat :=
  if bitB c 63 then ((c <<< 1) % 2 ^ 64) ^^^ 0x42F0E1EBA9EA3693 else (c <<< 1) % 2 ^ 64

/-- CRC-64 of ECMA-182, initial value 0, not reflected, not inverted. -/
def crc64 (d : List Byte) : Nat :=
  d.foldl (fun c b => (List.range 8).foldl (fun c _ => crcBit c) (c ^^^ (b.toNat <<< 56))) 0

/-- Digest of a collective. -/
def Ctx.digest (x : Ctx) : Nat :=
  let z := fun (n : Nat) => if x.op = 2 then 0 else n
  crc64 (leBytes 4 x.seq ++ leBytes 2 x.group ++ leBytes 1 x.op ++ leBytes 1 (z (colType x.words)) ++
    leBytes 4 (z (colCount x.words)) ++ leBytes 1 (z (colRedop x.words)) ++ leBytes 3 0)

/-! ### Sending -/

/-- STAGE code of a context's present stage. -/
def State.ctxStage (s : State) (x : Ctx) : Nat × Option Nat := nth ((s.group x.group).stages x.op) (0, none) x.pos

/-- STAGE as a context shows it (R460): that of its last stage once all are over. -/
def State.shownStage (s : State) (x : Ctx) : Nat :=
  let l := (s.group x.group).stages x.op
  (nth l (if x.op = 1 then 4 else 0, none) (min x.pos (l.length - 1))).1

/-- Bytes per element of a block as it travels in stage `pos` (R434). -/
def Ctx.eltBytes (x : Ctx) (pos : Nat) : Nat := if x.op = 0 ∧ pos ≠ 0 then 4 else colWidth x.words
/-- Bytes of a block as it travels. -/
def Ctx.blockBytes (x : Ctx) (pos : Nat) : Nat := colCount x.words * x.eltBytes pos

/-- Bytes of a whole sheaf. -/
def sheafSize : Nat := 0x10000

/-- AUX of a context's SHEAF packets. -/
def Ctx.aux (x : Ctx) : Nat := x.group % 4096 + (x.seq % 4096) <<< 12

/-- A SHEAF packet leaves context `i` for a peer: it is outstanding until acknowledged. -/
def State.colSend (s : State) (i : Nat) (x : Ctx) (dst pkind stage off : Nat) (d : List Byte) : State :=
  let id := s.win.nextId
  let addr := pkind <<< 38 + stage <<< 35 + off % 2 ^ 35
  let o : RemOp := ⟨id, 0xE0 + s.ctxBdie i, 8, i, x.aux, w64 addr, d.length, d, 0, false, none, none, none, 0, 2,
    w64 (dst <<< 1), false, 0, s.now, s.now, 0, false, none, 0⟩
  { s with win := { s.win with nextId := id + 1, ops := s.win.ops ++ [o] } }

/-- Bytes cut into payloads of at most 512 B, with their offsets. -/
def payloads : Nat → Nat → List Byte → List (Nat × List Byte)
  | 0, _, _ => []
  | n + 1, off, d => if d.isEmpty then [] else (off, d.take 512) :: payloads n (off + 512) (d.drop 512)

/-- The sheaf that begins at offset `off` of a transfer of blocks `bs` of `bb` bytes: block, offset within it, length. -/
def sheafAt (bs : List Nat) (bb off : Nat) : Option (Nat × Nat × Nat) :=
  if bb = 0 then none
  else match bs[off / bb]? with
    | some b => some (b, off % bb, min sheafSize (bb - off % bb))
    | none => none

/-- Offset at which the sheaf that holds offset `off` begins. -/
def sheafStart (bb off : Nat) : Nat := if bb = 0 then 0 else off / bb * bb + off % bb / sheafSize * sheafSize

/-- The 32 B of a TRAILER (R445). -/
def trailerBytes (check digest bytes : Nat) (d : Bool) : List Byte :=
  leBytes 8 check ++ leBytes 8 (if d then digest else 0) ++ leBytes 4 bytes ++ leBytes 1 (b2n d) ++ leBytes 11 0

/-- A sheaf leaves: its data and its TRAILER with its CHECK. -/
def State.sendSheaf (s : State) (i : Nat) (x : Ctx) (dst stage off : Nat) (d : List Byte) (check : Nat) : State :=
  let s := (payloads 128 off d).foldl (fun s p => s.colSend i x dst 0 stage p.1 p.2) s
  (s.colSend i x dst 1 stage off (trailerBytes check x.digest d.length (off == 0))).incWrap COL_CNT.SHEAVES 1 0

/-! ### What a context reads and writes (R442, R446) -/

/-- What the engine makes of a read: a corrected error shows in COL_STAT.CORR (R434). -/
def Rd.col (r : Rd) : Rd := if r.corr then { r with st := r.st.wr COL_STAT.CORR 1 } else r

/-- The engine's read of a command's source. -/
def State.colSource (s : State) (c : List W64) (a n : Nat) : Rd :=
  let p := placeOf (cw c 7)
  (s.memRead p.sspace p.score a n p.shint false .coll none).col

/-- The engine's read of a command's destination, at an offset. -/
def State.colDest (s : State) (c : List W64) (off n : Nat) : Rd :=
  let p := placeOf (cw c 7)
  (s.memRead p.dspace p.dcore (cw c 5 + off) n p.dhint false .coll none).col

/-- The engine's write to a command's destination. -/
def State.colWrite (s : State) (c : List W64) (off : Nat) (d : List Byte) : State :=
  let p := placeOf (cw c 7)
  (s.memWriteRd p.dspace p.dcore (cw c 5 + off) d p.dhint .coll none).col.st

/-- Is the source's island one that accepts no transfer now, so that the engine holds its reads (R38)? -/
def State.srcShut (s : State) (c : List W64) : Bool := (placeOf (cw c 7)).sspace == 0 && s.coreShut (placeOf (cw c 7)).score
/-- The same of the destination's. -/
def State.dstShut (s : State) (c : List W64) : Bool := (placeOf (cw c 7)).dspace == 0 && s.coreShut (placeOf (cw c 7)).dcore

/-- The rank of this module. -/
def State.ownRank (s : State) (x : Ctx) : Nat := ((s.group x.group).ranked.findIdx? (· == s.node)).getD 0

/-- The CHECK that the context holds of a sheaf. -/
def Ctx.checkOf (x : Ctx) (pos b o : Nat) : Option Nat :=
  (x.checks.find? (fun e => e.pos == pos && e.block == b && e.off == o)).map (·.check)

/-- Scratch of a context (R437): the place of a sheaf that an RS holds before stage `pos`; stages fill its two halves in turn. -/
def State.scratchAt (s : State) (i : Nat) (x : Ctx) (pos b o : Nat) : Nat :=
  let bd := s.ctxBdie i
  let k := i % ctxPer s.variant
  let keep := (s.group x.group).holds x.op pos s.node
  s.rd COL_SCR.BASE bd * 4096 + k * s.rd COL_SCR.SLOT bd * 0x100000 +
    ((pos - 1) % 2) * ((s.group x.group).scratch (colCount x.words) / 2) +
    ((keep.findIdx? (· == b)).getD 0) * colCount x.words * 4 + o

/-- A sheaf as the engine reads it: the bytes, their CHECK, and whether it is the one that the context holds. -/
structure SheafRd where
  rd : Rd
  check : Nat
  good : Bool

/-- Bytes [o, o + len) of block `b`, which the context holds before stage `pos`: of an AG, its own block from the source and another's from
DST, whose CHECK goes on unchanged; of an RS, the source before its first stage, and after that scratch, whose CHECK is verified (R442,
R446). -/
def State.sheafRead (s : State) (i : Nat) (x : Ctx) (pos b o len : Nat) : SheafRd :=
  let blk := x.blockBytes 0
  if x.op = 1 then
    if b = s.ownRank x then
      let r := s.colSource x.words (cw x.words 4 + o) len
      ⟨r, crc64 r.data, true⟩
    else ⟨s.colDest x.words (b * blk + o) len, (x.checkOf 0 b o).getD 0, true⟩
  else if pos = 0 then
    let r := s.colSource x.words (cw x.words 4 + b * blk + o) len
    ⟨r, crc64 r.data, true⟩
  else
    let r := (s.eRead (s.scratchAt i x pos b o) len 0 false .coll).col
    ⟨r, crc64 r.data, x.checkOf pos b o == some (crc64 r.data)⟩

/-- Must the engine hold that read? -/
def State.sheafShut (s : State) (x : Ctx) (pos b : Nat) : Bool :=
  if x.op = 1 then (if b = s.ownRank x then s.srcShut x.words else s.dstShut x.words) else pos == 0 && s.srcShut x.words

/-- A sheaf that stands in memory is sent to a peer; one whose CHECK no longer holds fails the collective (R446). -/
def State.sheafOut (s : State) (i : Nat) (x : Ctx) (pos dst stage off b o len : Nat) : State :=
  let r := s.sheafRead i x pos b o len
  if r.rd.ue then r.rd.st
  else if !r.good then r.rd.st.modCtx i (fun x => x.fail (0x11, 2, 0))
  else r.rd.st.sendSheaf i x dst stage off r.rd.data r.check

/-- Offset of the next sheaf to send to a peer. -/
def Ctx.sentTo (x : Ctx) (p : Nat) : Nat := ((x.sent.find? (fun e => e.1 == p)).map (·.2)).getD 0
/-- The offset below which sheaves to a peer may begin. -/
def Ctx.limit (x : Ctx) (stage p : Nat) : Nat :=
  ((x.grants.filter (fun e => e.1 == stage && e.2.1 == p)).map (·.2.2)).foldl max 0

/-- Sheaves that a peer's grants allow are sent to it. -/
def State.sendTo (s : State) (i p : Nat) : Nat → State
  | 0 => s
  | n + 1 =>
    match s.ctx i with
    | none => s
    | some x =>
      let g := s.group x.group
      let stage := (s.ctxStage x).1
      let off := x.sentTo p
      match sheafAt (g.transfer x.op x.pos s.node p) (x.blockBytes x.pos) off with
      | some (b, o, len) =>
        if off < x.limit stage p && x.ended.isNone && !s.sheafShut x x.pos b then
          let s := s.sheafOut i x x.pos p stage off b o len
          State.sendTo (s.modCtx i (fun x => { x with sent := (p, off + len) :: x.sent.filter (fun e => e.1 != p) })) i p n
        else s
      | none => s

/-- The other members of a context's line in its present stage. -/
def State.linePeers (s : State) (x : Ctx) : List Nat :=
  ((s.group x.group).line (s.ctxStage x).2 s.node).filter (· != s.node)

/-- All that the grants allow is sent, and leaves as windows allow. -/
def State.colPump (s : State) (i : Nat) : State :=
  match s.ctx i with
  | none => s
  | some x =>
    if !x.started || x.op = 2 then s.pump
    else ((s.linePeers x).foldl (fun s p =>
      s.sendTo i p ((x.limit (s.ctxStage x).1 p) / sheafSize + 8 + colCount x.words)) s).pump

/-- A stage begins: READY to every peer, or a barrier's TRAILERs (R442, R445). -/
def State.beginStage (s : State) (i : Nat) : State :=
  match s.ctx i with
  | none => s
  | some x =>
    let stage := (s.ctxStage x).1
    let s := (s.linePeers x).foldl (fun s p =>
      if x.op = 2 then s.sendSheaf i x p stage 0 [] 0 else s.colSend i x p 2 stage 0 []) s
    s.colPump i

/-! ### Start (R431, R432, R442) -/

/-- Elements of `n` bytes each. -/
def splitElts (n : Nat) : Nat → List Byte → List Nat
  | 0, _ => []
  | k + 1, d => ofLe (d.take n) :: splitElts n k (d.drop n)

/-- The format in which partial results of a TYPE pass (R434). -/
def midFmt (t : Nat) : Nat := if t = 6 then 6 else 14

/-- A block's bytes converted between formats, element by element (R59, R434). -/
def convBlock (f t : Nat) (d : List Byte) : List Byte :=
  let n := fmtBits f / 8
  ((splitElts n (if n = 0 then 0 else d.length / n) d).map (fun x => leBytes (fmtBits t / 8) (gConv f t x))).flatten

/-- A collective's last block is written to its destination, converted once (R434, R442). That an RS over a group of one copies its block bit
for bit, a NaN's payload and sign too, is the model's reading of R46 (DEDUCED, unsafe, log entry 104). -/
def State.rsOutput (s : State) (x : Ctx) (d : List Byte) (fmt : Nat) : State :=
  let t := colType x.words
  s.colWrite x.words 0 (convBlock (midFmt t) t (if fmt = midFmt t then d else convBlock fmt (midFmt t) d))

/-- A context begins its operation, and its first stage starts: an AG puts its own block in its place; a group of one is done at once. It
waits while a core's island that it has to read or write now accepts no transfer (R38). -/
def State.colStart (s : State) (i : Nat) : State :=
  match s.ctx i with
  | none => s
  | some x =>
    let one := ((s.group x.group).stages x.op).isEmpty
    let blk := x.blockBytes 0
    let now := x.op == 1 || (x.op == 0 && one)
    if now && (s.srcShut x.words || s.dstShut x.words) then s
    else
      let r : Rd := if now then s.colSource x.words (cw x.words 4) blk else .ok [] s
      if r.ue then r.st
      else
        let x := { x with started := true, lastArrival := s.now }
        let t := r.st.setCtx i x
        let t := if x.op = 1 then t.colWrite x.words (s.ownRank x * blk) r.data else t
        if one then
          let t := if x.op = 0 then t.rsOutput x r.data (colType x.words) else t
          t.modCtx i (fun x => x.fail (0, 0, 0))
        else t.beginStage i

/-- The oldest collective of an operation code that queue `q` has in a context and that has not started. -/
def State.unstarted (s : State) (q op : Nat) : Option Nat :=
  (s.col.ctxs.filter (fun e => e.2.queue == q && !e.2.started && cOp e.2.words == op && e.2.ended.isNone)).foldl
    (fun m e => match m with
      | some (i, c) => if e.2.cmd < c then some (e.1, e.2.cmd) else some (i, c)
      | none => some (e.1, e.2.cmd)) (none : Option (Nat × Nat)) |>.map (·.1)

/-- A collective command of queue `q` begins in its context. -/
def State.colBegin (s : State) (q op : Nat) : State :=
  match s.unstarted q op with
  | some i => s.colStart i
  | none => s

/-- RS. -/
def execRs (q : Nat) (s : State) : Outcome State Fault Refusal := .next (s.colBegin q 8)
/-- AG. -/
def execAg (q : Nat) (s : State) : Outcome State Fault Refusal := .next (s.colBegin q 9)
/-- BARRIER. -/
def execBarrier (q : Nat) (s : State) : Outcome State Fault Refusal := .next (s.colBegin q 0x0A)

/-! ### Arrivals (R444 to R449) -/

/-- OFFSET of a SHEAF packet. -/
def shOff (p : Packet) : Nat := p.addr % 2 ^ 35
/-- STAGE. -/
def shStage (p : Packet) : Nat := bits p.addr 37 35
/-- PKIND. -/
def shKind (p : Packet) : Nat := bits p.addr 39 38

/-- The context that a SHEAF packet is for. -/
def State.ctxOf (s : State) (p : Packet) : Option Nat :=
  (s.col.ctxs.find? (fun e => e.2.group == bits p.aux 11 0 && e.2.seq % 4096 == bits p.aux 23 12)).map (·.1)

/-- The stage of a context with this code: its place, if it is one of the operation's. -/
def State.stagePos (s : State) (x : Ctx) (code : Nat) : Option Nat :=
  ((s.group x.group).stages x.op).findIdx? (fun st => st.1 == code)

/-- The entry of an arriving sheaf, changed by `f`; it is made if it is not there. -/
def Ctx.modSheaf (x : Ctx) (peer stage off : Nat) (f : SheafIn → SheafIn) : Ctx :=
  if x.sheaves.any (fun y => y.peer == peer && y.stage == stage && y.off == off) then
    { x with sheaves := mapIf (fun y => y.peer == peer && y.stage == stage && y.off == off) f x.sheaves }
  else { x with sheaves := x.sheaves ++ [f ⟨peer, stage, off, [], false, 0⟩] }

/-- The arriving sheaf, if any of it has come. -/
def Ctx.sheaf (x : Ctx) (peer stage off : Nat) : Option SheafIn :=
  x.sheaves.find? (fun y => y.peer == peer && y.stage == stage && y.off == off)

/-- DATA of a sheaf: packets come in the order of their offsets, and a packet at the sheaf's start begins it anew. -/
def Ctx.takeData (x : Ctx) (p : Packet) (bb : Nat) : Ctx :=
  let o := sheafStart bb (shOff p)
  x.modSheaf p.src (shStage p) o (fun y =>
    if y.ok then y
    else if shOff p = o then { y with data := p.payload }
    else { y with data := y.data ++ p.payload })

/-- A checked sheaf of an AG goes straight to its place in DST, and its CHECK is held for later stages (R442, R446). -/
def State.placeSheaf (s : State) (i : Nat) (y : SheafIn) : State :=
  match s.ctx i with
  | none => s
  | some x =>
    match s.stagePos x y.stage with
    | none => s
    | some pos =>
      match sheafAt ((s.group x.group).transfer 1 pos y.peer s.node) (x.blockBytes 0) y.off with
      | some (b, o, _) =>
        if (x.checkOf 0 b o).isSome then s
        else (s.colWrite x.words (b * x.blockBytes 0 + o) y.data).setCtx i
          { x with checks := x.checks ++ [⟨0, b, o, crc64 y.data⟩] }
      | none => s

/-- The checked sheaves of an AG that are not yet in DST go there, unless its core's island accepts no transfer (R38). -/
def State.colPlace (s : State) (i : Nat) : State :=
  match s.ctx i with
  | none => s
  | some x =>
    if x.op ≠ 1 ∨ s.dstShut x.words then s else (x.sheaves.filter (·.ok)).foldl (fun s y => s.placeSheaf i y) s

/-- A sheaf has failed its check: it is asked for again, or, after three requests, the collective fails (R446). -/
def State.sheafBad (s : State) (i : Nat) (x : Ctx) (p : Packet) (tries : Nat) : State :=
  if 3 ≤ tries then s.setCtx i (x.fail (0x11, 2, p.src))
  else
    let y := x.modSheaf p.src (shStage p) (shOff p) (fun y => { y with tries := tries + 1, data := [] })
    ((s.setCtx i y).colSend i y p.src 3 (shStage p) (shOff p) []).incSat COL_CNT.RESENDS 1 0 |>.pump

/-- A TRAILER for context `i`: the digest is compared first, then the sheaf's CHECK (R446, R447). A sheaf that passes is
granted on. -/
def State.takeTrailer (s : State) (i : Nat) (x : Ctx) (p : Packet) : State :=
  let check := ofLe (p.payload.take 8)
  let digest := ofLe ((p.payload.drop 8).take 8)
  let bytes := ofLe ((p.payload.drop 16).take 4)
  let d := bitB (ofLe ((p.payload.drop 20).take 1)) 0
  if d && digest != x.digest then s.setCtx i (x.fail (0x12, 1, p.src))
  else
    let x := if d then { x with digests := (shStage p, p.src) :: x.digests.filter (· != (shStage p, p.src)) } else x
    if x.op = 2 then s.setCtx i x
    else
      match x.sheaf p.src (shStage p) (shOff p) with
      | none => s.sheafBad i x p 0
      | some y =>
        if y.ok then s.setCtx i x
        else if y.data.length ≠ bytes ∨ crc64 y.data ≠ check then s.sheafBad i x p y.tries
        else
          let x := x.modSheaf p.src (shStage p) (shOff p) (fun y => { y with ok := true })
          let s := s.setCtx i x
          let s := s.colPlace i
          let next := shOff p + bytes
          let total := ((s.group x.group).transfer x.op x.pos p.src s.node).length * x.blockBytes x.pos
          (if next < total then s.colSend i x p.src 2 (shStage p) next [] else s).pump

/-- A RESEND: the sheaf is sent again, from where the stage held it. -/
def State.takeResend (s : State) (i : Nat) (x : Ctx) (p : Packet) : State :=
  match s.stagePos x (shStage p) with
  | none => s
  | some pos =>
    match sheafAt ((s.group x.group).transfer x.op pos s.node p.src) (x.blockBytes pos) (shOff p) with
    | some (b, o, len) => (s.sheafOut i x pos p.src (shStage p) (shOff p) b o len).pump
    | none => s

/-- Does a RESEND that is next ask for a sheaf whose island accepts no transfer now, so that the engine holds it (R38, log entry 88)? -/
def State.resendShut (s : State) (p : Packet) : Bool :=
  shKind p == 3 &&
    match (s.ctxOf p).bind s.ctx with
    | none => false
    | some x =>
      x.ended.isNone &&
        match s.stagePos x (shStage p) with
        | none => false
        | some pos =>
          match sheafAt ((s.group x.group).transfer x.op pos s.node p.src) (x.blockBytes pos) (shOff p) with
          | some (b, _, _) => s.sheafShut x pos b
          | none => false

/-- A SHEAF packet takes effect in the context it is for. -/
def State.colTake (s : State) (i : Nat) (p : Packet) : State :=
  match s.ctx i with
  | none => s
  | some x =>
    if x.ended.isSome then s
    else
      let x := { x with lastArrival := s.now }
      let bb := match s.stagePos x (shStage p) with
        | some pos => x.blockBytes pos
        | none => 0
      match shKind p with
      | 0 => s.setCtx i (x.takeData p bb)
      | 1 => s.takeTrailer i x p
      | 2 => (s.setCtx i { x with grants := x.grants ++ [(shStage p, p.src, shOff p + 8 * sheafSize)] }).colPump i
      | _ => (s.setCtx i x).takeResend i x p

/-- Is a collective of this group and these low bits of sequence number still to come on this module (R449)? -/
def State.colFuture (s : State) (g k low : Nat) : Bool :=
  (low + 2 ^ k - s.rd COL_GSEQ.SEQ 0 g % 2 ^ k) % 2 ^ k < 2 ^ (k - 1)

/-- Room of an engine's pending table (R449). -/
def State.pendRoom (s : State) (b : Nat) : Bool := (s.col.pend.filter (fun e => e.engine == b)).length < 256

/-- The engine that keeps a packet: the one of the sender's base die number. -/
def State.pendEngine (s : State) (p : Packet) : Nat := p.srcid % s.variant.bdies

/-- A SHEAF packet that is next in its source's sequence: it acts on its context, waits in the pending table, or, where that
is full, is not taken (R449). -/
def State.sheafNext (s : State) (p : Packet) : State :=
  let go := fun (s : State) => (s.rxSet p.src p.srcid ((p.seq + 1) % 2 ^ 32)).answer p 5 0 []
  match s.ctxOf p with
  | some i => (go s).colTake i p
  | none =>
    if (shKind p == 1 || shKind p == 2) && s.colFuture (bits p.aux 11 0) 12 (bits p.aux 23 12) then
      if s.pendRoom (s.pendEngine p) then
        go { s with col := { s.col with pend := s.col.pend ++ [⟨s.pendEngine p, p⟩] } }
      else s
    else go s

/-- A SHEAF packet of kind `k` arrives (R402, R403, R444); a RESEND whose source's island is shut is held where it stands (R38). -/
def sheafArrive (k : Nat) (p : Packet) (s : State) : State :=
  if p.typ ≠ 9 ∨ p.vc ≠ 2 ∨ shKind p ≠ k then s
  else if s.rxCase p = .next ∧ s.resendShut p then s
  else
    let s := s.takeRx p
    match s.rxCase p with
    | .excluded => s.incSat ROLL_STAT.XRX 1 0
    | .corrupt => (s.incSat FAB_DROP2.E2ECRC 1 0).answer p 6 0 []
    | .stale => s.incWrap WIN_RX.STALE 1 0
    | .skipped => s
    | .duplicate => s.answer p 5 0 []
    | .next => s.sheafNext p
    | .copy => s
    | .full => s.incSat FAB_DROP2.REORDER 1 0
    | .ahead => s.hold p

/-- READY. -/
def execSheafReadyArrival (p : Packet) (s : State) : Outcome State Fault Refusal := .next (sheafArrive 2 p s)
/-- DATA. -/
def execSheafDataArrival (p : Packet) (s : State) : Outcome State Fault Refusal := .next (sheafArrive 0 p s)
/-- TRAILER. -/
def execSheafTrailerArrival (p : Packet) (s : State) : Outcome State Fault Refusal := .next (sheafArrive 1 p s)
/-- RESEND. -/
def execSheafResendArrival (p : Packet) (s : State) : Outcome State Fault Refusal := .next (sheafArrive 3 p s)

/-- A held packet whose turn has come is applied (R334, R402): a remote operation, or a SHEAF packet. -/
def execRemoteApply (src srcid : Nat) (s : State) : Outcome State Fault Refusal :=
  match s.win.held.find? (fun p => p.src == src && p.srcid == srcid && p.seq == s.rxNext src srcid) with
  | none => .next s
  | some p =>
    if s.freezes p || (p.typ == 9 && s.resendShut p) then .next s
    else
      let s := { s with win := { s.win with held := dropFirst (· == p) s.win.held } }
      if p.typ = 9 then .next (s.sheafNext p)
      else .next ((s.rxSet src srcid ((p.seq + 1) % 2 ^ 32)).applyRemote p)

/-! ### Taking a context (R436, R438, R449) -/

/-- A pending packet is consumed by the collective that takes context `i`: an abort ends it at once. -/
def State.usePending (s : State) (i : Nat) (p : Packet) : State :=
  if p.typ = 9 then s.colTake i p
  else s.modCtx i (fun x => x.fail (bits p.aux 15 8, 6, p.src))

/-- Does a pending packet belong to this group and sequence number? -/
def pendFor (g seq : Nat) (p : Packet) : Bool :=
  if p.typ = 9 then bits p.aux 11 0 == g && bits p.aux 23 12 == seq % 4096
  else bits p.addr 11 0 == g && bits p.addr 39 12 == seq % 2 ^ 28

/-- Is it a collective command? -/
def isColl (c : List W64) : Bool := cOp c == 8 || cOp c == 9 || cOp c == 0x0A

/-- The commands of the other queues whose dispatch was granted, and granted before that of queue `q` where that is granted too, and which
have not been taken yet. -/
def State.ahead (s : State) (q : Nat) : List (List W64) :=
  let me := s.queue q
  (s.que.qs.filter (fun e => e.1 != q && e.2.granted && (!me.granted || decide (e.2.grantAt < me.grantAt)))).filterMap (fun e => e.2.cmd)

/-- Contexts that are free. -/
def State.ctxFree (s : State) : Nat := ((List.range (s.variant.bdies * ctxPer s.variant)).filter (fun i => (s.ctx i).isNone)).length

/-- Is no context free for the command at the head of queue `q`, those counted that dispatched collectives before it are to take
(R254, R440)? One whose group has lost a member takes none. -/
def State.ctxBlocked (s : State) (q : Nat) (c : List W64) : Bool :=
  !s.groupLost (colGroup c) && decide (s.ctxFree ≤ ((s.ahead q).filter (fun a => isColl a && !s.groupLost (colGroup a))).length)

/-- The dispatched collective at the head of queue `q` takes a context and its sequence number and retires; one whose group
has lost a member completes at once (R450). Collectives of one group take their numbers in dispatch order (R438). -/
def execCollectiveContextTake (q : Nat) (s : State) : Outcome State Fault Refusal :=
  let x := s.queue q
  match x.cmd with
  | none => .next s
  | some c =>
    let g := colGroup c
    if !x.granted || !isColl c || (s.ahead q).any (fun a => isColl a && colGroup a == g) then .next s
    else
      let id := s.que.nextId
      let cmd : Cmd := ⟨id, q, x.head, c, false, [], [], none, false⟩
      if s.namesGone c then .next (s.endCmd q x.head c false 0x18)
      else if s.groupLost g then .next (s.endCmd q x.head c false 0x14)
      else
        match s.ctxFor c with
        | none => .next s
        | some i =>
          let seq := s.rd COL_GSEQ.SEQ 0 g
          let k : Ctx := ⟨id, q, colOpOf c, g, seq, c, 0, false, [], [], [], [], [], s.now, none⟩
          let s := { s with que := { s.que with nextId := id + 1, cmds := s.que.cmds ++ [{ cmd with retired := true }] } }
          let s := (s.slotWrite q x.head (leBytes 8 (word0 c 0 false false))).retireHead q
          let s := (s.wr COL_GSEQ.SEQ (seq + 1) 0 g).setCtx i k
          let mine := s.col.pend.filter (fun e => pendFor g seq e.pkt)
          let s := { s with col := { s.col with pend := s.col.pend.filter (fun e => !pendFor g seq e.pkt) } }
          .next (mine.foldl (fun s e => s.usePending i e.pkt) s)

/-- A collective blocked without a context for WIN_CFG.TIMEOUT completes with CONTEXT_FULL (R440). -/
def execContextFullTimeout (q : Nat) (s : State) : Outcome State Fault Refusal :=
  let x := s.queue q
  match x.cmd with
  | none => .next s
  | some c =>
    if x.elig && !x.granted && x.running.isNone && x.st == 3 && isColl c && s.ctxBlocked q c &&
        decide (x.eligAt + s.remTimeout ≤ s.now) then
      .next (s.endCmd q x.head c false 0x16)
    else .next s

/-! ### Reduction (R433, R434, R446) -/

/-- One step of the fold. -/
def redStep (t redop a b : Nat) : Nat :=
  if t = 6 then
    match redop with
    | 0 => (a + b) % 2 ^ 32
    | 1 => if sext 32 a < sext 32 b then b else a
    | _ => if sext 32 b < sext 32 a then b else a
  else
    match redop with
    | 0 => fp32Add a b
    | 1 => fpMax 14 a b
    | _ => fpMin 14 a b

/-- Left-to-right fold of equally long contributions. -/
def foldElts (t redop : Nat) : List (List Nat) → List Nat
  | [] => []
  | c :: r => r.foldl (fun a b => List.zipWith (redStep t redop) a b) c

/-- A member's contribution to bytes [o, o + n) of a block, widened (R434). -/
def Ctx.widen (x : Ctx) (d : List Byte) : List Nat :=
  let t := colType x.words
  let f := if x.pos = 0 then t else midFmt t
  let n := x.eltBytes x.pos
  (splitElts n (if n = 0 then 0 else d.length / n) d).map (gConv f (midFmt t))

/-- The offset at which a block's sheaf stands in a peer's transfer to this module. -/
def State.peerOffset (s : State) (x : Ctx) (p b o : Nat) : Nat :=
  ((((s.group x.group).transfer x.op x.pos p s.node).findIdx? (· == b)).getD 0) * x.blockBytes x.pos + o

/-- The contribution of a line peer to a sheaf, once it is there and checked. -/
def State.contrib (s : State) (x : Ctx) (b o : Nat) (p : Nat) : Option (List Nat) :=
  match x.sheaf p (s.ctxStage x).1 (s.peerOffset x p b o) with
  | some y => if y.ok then some (x.widen y.data) else none
  | none => none

/-- Place in a block, as it travels in stage `pos` + 1, of what stands at `o` in stage `pos`. -/
def Ctx.outOff (x : Ctx) (o : Nat) : Nat := o / x.eltBytes x.pos * 4

/-- The CHECKs of a reduced sheaf, one for each sheaf that its bytes, put at `o` of block `b`, make in the next stage. -/
def Ctx.newChecks (x : Ctx) (b o : Nat) (d : List Byte) : List SheafCheck :=
  (List.range (ceilDiv d.length sheafSize)).map (fun k =>
    ⟨x.pos + 1, b, o + sheafSize * k, crc64 ((d.drop (sheafSize * k)).take sheafSize)⟩)

/-- A write of 4 B elements to scratch. The engine writes every scratch word before it reads it (R437), so a word that the bytes cover in
part and that was never written is written whole, its other half free (log entry 105). -/
def State.scratchPut (s : State) (a : Nat) (d : List Byte) : Rd :=
  let e := a + d.length
  let pre := if a % 8 ≠ 0 ∧ s.wordUndef (a / 8 * 8) then a % 8 else 0
  let post := if e % 8 ≠ 0 ∧ s.wordUndef (e / 8 * 8) then 8 - e % 8 else 0
  let (x, s) := s.freeBytes pre
  let (y, s) := s.freeBytes post
  s.eWriteRd (a - pre) (x ++ d ++ y) 0 .coll

/-- A sheaf that has arrived from every line peer is folded and written to scratch (R442). `laneFails` is how often the two lanes
disagreed: once is recomputed, twice fails the collective. -/
def execSheafReduce (i block off laneFails : Nat) (s : State) : Outcome State Fault Refusal :=
  match s.ctx i with
  | none => .next s
  | some x =>
    let g := s.group x.group
    let bb := x.blockBytes x.pos
    let cs := (g.line (s.ctxStage x).2 s.node).map (fun p => (p == s.node, s.contrib x block off p))
    if x.op ≠ 0 ∨ !x.started ∨ x.ended.isSome ∨ (s.ctxStage x).1 ≥ 4 ∨ (g.stages 0).length ≤ x.pos ∨
        !(g.holds 0 (x.pos + 1) s.node).contains block ∨ off % sheafSize ≠ 0 ∨ bb ≤ off ∨
        (x.checkOf (x.pos + 1) block (x.outOff off)).isSome ∨ cs.any (fun c => !c.1 && c.2.isNone) ∨
        s.sheafShut x x.pos block then .next s
    else
      let own := s.sheafRead i x x.pos block off (min sheafSize (bb - off))
      let s := own.rd.st
      if own.rd.ue then .next s
      else if !own.good then .next (s.modCtx i (fun x => x.fail (0x11, 2, 0)))
      else
        let s := s.incSat COL_CNT.LANES (min 2 laneFails) 0
        if 2 ≤ laneFails then .next (s.modCtx i (fun x => x.fail (0x11, 3, 0)))
        else
          let t := midFmt (colType x.words)
          let d := ((foldElts t (colRedop x.words) (cs.map (fun c => if c.1 then x.widen own.rd.data else c.2.getD []))).map
            (leBytes 4)).flatten
          let w := (s.scratchPut (s.scratchAt i x (x.pos + 1) block (x.outOff off)) d).col
          .next (w.st.setCtx i { x with checks := x.checks ++ x.newChecks block (x.outOff off) d })

/-! ### Stages and ends -/

/-- Sheaves of a block in a stage, by offset. -/
def sheafOffs (bb : Nat) : List Nat := (List.range (ceilDiv bb sheafSize)).map (· * sheafSize)

/-- Has the context nothing of its own still to send or to be acknowledged in this stage? -/
def State.stageSent (s : State) (i : Nat) (x : Ctx) : Bool :=
  s.win.ops.all (fun o => !(o.kind == 8 && o.sp == i)) &&
    (x.op == 2 || (s.linePeers x).all (fun p =>
      ((s.group x.group).transfer x.op x.pos s.node p).length * x.blockBytes x.pos ≤ x.sentTo p))

/-- Has all of a stage that this member waits for arrived, and, of an RS, been reduced? -/
def State.stageIn (s : State) (x : Ctx) : Bool :=
  let g := s.group x.group
  let bb := x.blockBytes x.pos
  if x.op = 2 then (s.linePeers x).all (fun p => x.digests.contains ((s.ctxStage x).1, p))
  else if x.op = 0 then
    (g.holds 0 (x.pos + 1) s.node).all (fun b => (sheafOffs bb).all (fun o => (x.checkOf (x.pos + 1) b (x.outOff o)).isSome))
  else (s.linePeers x).all (fun p => (g.transfer 1 x.pos p s.node).all (fun b => (sheafOffs bb).all (fun o =>
    (x.checkOf 0 b o).isSome)))

/-- The block that an RS holds after its last stage is read back from scratch, sheaf by sheaf, and whether every CHECK holds. -/
def State.rsBack (s : State) (i : Nat) (x : Ctx) (b : Nat) : SheafRd :=
  let n := colCount x.words * 4
  (sheafOffs n).foldl (fun (r : SheafRd) o =>
    let y := r.rd.st.sheafRead i x x.pos b o (min sheafSize (n - o))
    ⟨⟨r.rd.data ++ y.rd.data, r.rd.corr || y.rd.corr, r.rd.ue || y.rd.ue, y.rd.st⟩, 0, r.good && y.good⟩) ⟨.ok [] s, 0, true⟩

/-- The operation is complete after its last stage: an RS writes its block to DST. -/
def State.colDone (s : State) (i : Nat) (x : Ctx) : State :=
  if x.op ≠ 0 then s.modCtx i (fun x => x.fail (0, 0, 0))
  else
    let r := s.rsBack i x (((s.group x.group).holds 0 x.pos s.node).headD 0)
    if r.rd.ue then r.rd.st
    else if !r.good then r.rd.st.modCtx i (fun x => x.fail (0x11, 2, 0))
    else (r.rd.st.rsOutput x r.rd.data (midFmt (colType x.words))).modCtx i (fun x => x.fail (0, 0, 0))

/-- A stage completes: the next one starts, or the collective is done. What an island's reset or gate has held back goes on now if it
can. -/
def execCollectiveStageComplete (i : Nat) (s : State) : Outcome State Fault Refusal :=
  match (s.colPlace i).ctx i with
  | none => .next s
  | some x =>
    let s := s.colPlace i
    let n := ((s.group x.group).stages x.op).length
    if !x.started || x.ended.isSome || n ≤ x.pos then .next s
    else if !s.stageSent i x || !s.stageIn x then .next (s.colPump i)
    else if x.op = 0 ∧ n = x.pos + 1 ∧ s.dstShut x.words then .next s
    else
      let y := { x with pos := x.pos + 1, sent := [] }
      let s := s.setCtx i y
      if n ≤ y.pos then .next (s.colDone i y) else .next (s.beginStage i)

/-- A collective abort leaves for every other member of the group (R448). -/
def State.colAbortOut (s : State) (i : Nat) (x : Ctx) (status reason : Nat) : State :=
  (((s.group x.group).members).filter (· != s.node)).foldl (fun s n =>
    s.sendPkt { s.packet 0xA 3 n (0xE0 + s.ctxBdie i) with
      aux := 0x40 + (status % 256) <<< 8 + (reason % 256) <<< 16
      addr := x.group + (x.seq % 2 ^ 28) <<< 12 }) s

/-- A collective stops sending: what it has not sent is dropped, and what it has sent no longer reports to its context. -/
def State.colQuiet (s : State) (i : Nat) : State :=
  let kept := s.win.ops.filter (fun o => !(o.kind == 8 && o.sp == i && o.stage != 3))
  let quiet := kept.map (fun o => if o.kind == 8 && o.sp == i then { o with sp := 64 } else o)
  { s with win := { s.win with ops := quiet } }

/-- What a failed collective leaves: its destination and its scratch are undefined (R451), so they take free values (log entry 3). -/
def State.colUndef (s : State) (i : Nat) (x : Ctx) : State :=
  if x.op = 2 then s
  else
    let n := (s.group x.group).members.length
    let (d, s) := s.freeBytes (if x.op = 0 then x.blockBytes 0 else n * x.blockBytes 0)
    let s := s.colWrite x.words 0 d
    if x.op ≠ 0 then s
    else
      let at_ := s.rd COL_SCR.BASE (s.ctxBdie i) * 4096 + i % ctxPer s.variant * s.rd COL_SCR.SLOT (s.ctxBdie i) * 0x100000
      let (d, s) := s.freeBytes ((s.group x.group).scratch (colCount x.words))
      s.eWrite at_ d 0 .coll

/-- A collective ends with its status: COL_ERR, what a failure leaves in memory, the abort, the context freed (R450 to R452, R456). -/
def State.colEnd (s : State) (i : Nat) : State :=
  match s.ctx i with
  | none => s
  | some x =>
    match x.ended with
    | none => s
    | some (st, reason, peer) =>
      let s := if 0x10 ≤ st ∧ !s.rdB COL_ERR.VALID then
          s.wrs .COL_ERR 0 0 0 [(COL_ERR.VALID, 1), (COL_ERR.STATUS, st), (COL_ERR.CTX, i), (COL_ERR.GROUP, x.group),
            (COL_ERR.SEQ, x.seq), (COL_ERR.REASON, reason), (COL_ERR.PEER, peer)]
        else s
      let s := s.colQuiet i
      let s := if 0x10 ≤ st then s.colUndef i x else s
      let s := if 2 ≤ endRank (st, reason, peer) ∧ 0x10 ≤ st then s.colAbortOut i x st reason else s
      let s := { s with col := { s.col with ctxs := s.col.ctxs.erase i } }
      s.report x.cmd st

/-- A collective that is to end ends. -/
def execCollectiveEnd (i : Nat) (s : State) : Outcome State Fault Refusal := .next (s.colEnd i)

/-- A collective abort arrives: it ends the matching collective, or waits in the pending table (R448, R449). -/
def execCollectiveAbortArrival (p : Packet) (s : State) : Outcome State Fault Refusal :=
  if p.typ ≠ 0xA ∨ bits p.aux 7 0 ≠ 0x40 then .next s
  else
    let s := s.takeRx p
    if s.excluded p.src then .next (s.incSat ROLL_STAT.XRX 1 0)
    else if !p.crcOk then .next (s.incSat FAB_DROP2.E2ECRC 1 0)
    else if p.epoch ≠ s.epoch32 then .next (s.incWrap WIN_RX.STALE 1 0)
    else
      match s.col.ctxs.find? (fun e => pendFor e.2.group e.2.seq p) with
      | some e => .next (s.modCtx e.1 (fun x => x.fail (bits p.aux 15 8, 6, p.src)))
      | none =>
        if s.colFuture (bits p.addr 11 0) 28 (bits p.addr 39 12) && s.pendRoom (s.pendEngine p) then
          .next { s with col := { s.col with pend := s.col.pend ++ [⟨s.pendEngine p, p⟩] } }
        else .next s

/-- A context in which nothing has arrived for COL_CFG.IDLE ms ends with TIMEOUT. -/
def execCollectiveIdleTimeout (i : Nat) (s : State) : Outcome State Fault Refusal :=
  let lim := s.rd COL_CFG.IDLE
  .next (s.modCtx i (fun x => if lim ≠ 0 ∧ x.lastArrival + lim * 1000000 ≤ s.now then x.fail (0x10, 5, 0) else x))

/-- A write of COL_CTL (R457). -/
def State.writeColCtl (s : State) (v : W64) : State :=
  if bitB v.toNat 6 then s.modCtx (COL_CTL.CTX.get v) (fun x => x.fail (0x18, 8, 0)) else s

/-- COL_CTL.ABORT. -/
def execColAbort (v : W64) (s : State) : Outcome State Fault Refusal := .next (s.onWrite (fun s => s.writeColCtl v))

/-- A write of COL_SCR, ignored while a context of the base die is in use (R459). -/
def State.writeColScr (s : State) (b : Nat) (v : W64) : State :=
  if s.col.ctxs.any (fun e => s.ctxBdie e.1 == b) then s else s.writeFields .COL_SCR b 0 0 v

/-- A write of COL_SCR. -/
def execColScrWrite (b : Nat) (v : W64) (s : State) : Outcome State Fault Refusal := .next (s.onWrite (fun s => s.writeColScr b v))

/-- Every collective of a group that contains node `n` is to end with NODE_LOST (R450, R551). -/
def State.colLost (s : State) (n : Nat) : State :=
  s.col.ctxs.foldl (fun t e =>
    if (t.group e.2.group).members.contains n then t.modCtx e.1 (fun x => x.fail (0x14, 7, 0)) else t) s

end Sys2Proof.Machine
end

