-- ==== Sys2Proof/Machine/Kernel.lean ====
section
/-! DEFINITION. Kernels (R171, R241, R242), winnow (R558 to R562), and the loss, reset and wake of a core or of a die (R497,
R580, R595, R547). -/

namespace Sys2Proof.Machine

open Host

/-! ### Winnow slots (R558 to R560) -/

/-- Is core `c` free (R560)? -/
def State.coreFree (s : State) (c : Nat) : Bool :=
  let k := s.core c
  s.coreHere c && s.coreSt c == .ready && k.kernel.isNone && k.stook.pending == 0 && k.gln.queue.isEmpty &&
    !(s.wnwOf c).running

/-- Must a LAUNCH that names the core wait for winnow (R560)? -/
def State.wnwHolds (s : State) (c : Nat) : Bool :=
  (s.wnwOf c).running || ((s.wnwOf c).forced && s.rdB WNW_CFG.EN)

/-- A forced core goes on with its pass as soon as it is free. -/
def State.wnwKick (s : State) (c : Nat) : State :=
  if (s.wnwOf c).forced && s.rdB WNW_CFG.EN && s.coreFree c then s.modWnw c (fun w => { w with running := true }) else s

/-- Job time, in ns, after which a core is due (R560). -/
def wnwDueNs : Nat := 50000000000

/-- Steps after which a core is due, where STEPEN is 1 (R560). -/
def wnwDueSteps : Nat := 1792

/-- Is core `c` due for a pass (R560)? A core that is gated, asleep with its die, or fenced is not. -/
def State.coreDue (s : State) (c : Nat) : Bool :=
  let w := s.wnwOf c
  s.coreHere c && s.coreSt c == .ready && decide (w.lastPass + wnwDueNs ≤ s.jobNs) &&
    (!s.rdB WNW_CFG.STEPEN || decide (w.stepsAt + wnwDueSteps ≤ s.steps))

/-- Is core `c` marked forced, and neither gated nor asleep with its die (R560)? -/
def State.wnwForced (s : State) (c : Nat) : Bool := (s.wnwOf c).forced && s.coreSt c == .ready

/-- Is another core of core `c`'s die forced? Winnow forces one at a time (R561). -/
def State.wnwTaken (s : State) (c : Nat) : Bool :=
  (List.range 16).any (fun i =>
    let k := c / 16 * 16 + i
    k != c && s.wnwForced k)

/-- The kernel of core `c` has ended. Where it ran past the core's due time, the test that it delayed is counted, and follows now, unless
another core of the die is forced (R561; DEDUCED, unsafe, log entry 95). -/
def State.wnwAfter (s : State) (c : Nat) : State :=
  if s.rdB WNW_CFG.EN && ((s.wnwOf c).forced || s.coreDue c) then
    let s := s.incSat WNW_STAT.OVERDUE 1 0
    if s.wnwTaken c then s.wnwKick c else (s.modWnw c (fun w => { w with forced := true })).wnwKick c
  else s

/-- What a winnow kernel leaves empty when it gives the core back (R559). -/
def State.wnwRestore (s : State) (c : Nat) : State :=
  let bare := fun (a : Arr) => { a with slot0 := none, slot1 := none }
  s.modCore c (fun k => { k with
    icache := []
    arr0 := bare k.arr0
    arr1 := bare k.arr1
    arr2 := bare k.arr2
    arr3 := bare k.arr3
    gln := { k.gln with rc := [], perr := [] }
    stook := { k.stook with
      keys := k.stook.keys.mapDrop (fun _ => {}) (fun _ y => { y with res := none })
      slotUse := [] } })

/-- The return pass of core `c` starts (R547); a fenced core runs none, nor does any core after a boot that failed (R582). -/
def State.returnPass (s : State) (c : Nat) : State :=
  if s.coreFenced c || !s.coreHere c || s.boot.stage == 13 then s
  else s.modWnw c (fun w => { w with ret := true, running := true, forced := false, next := 0, reruns := 0, bad := 0 })

/-- Number of the pass that ends next. -/
def State.nextPass (s : State) : Nat := s.wnw.foldl (fun n e => max n e.2.passNo) 0 + 1

/-- A winnow pass of core `c` has ended. -/
def State.passEnded (s : State) (c : Nat) : State :=
  (s.incWrap WNW_STAT.PASSES 1 0).modWnw c (fun w => { w with
    ret := false, running := false, forced := false, next := 0, lastPass := s.jobNs, stepsAt := s.steps, freeSince := s.now,
    passNo := s.nextPass })

/-! ### The end of a kernel (R171, R242) -/

/-- Has every entry that a scalar processor placed in an array left it? -/
def Arr.done (a : Arr) : Bool :=
  a.queue.all (fun e => e.sp == 2) && a.loads.all (fun e => e.sp == 2) && a.passes.all (fun e => e.sp == 2) &&
    a.effs.all (fun e => e.sp == 2)

/-- Is a remote operation one of a GLEAN command's? -/
def State.ofCommand (s : State) (o : RemOp) : Bool :=
  match o.gln with
  | some id => (s.core o.srcid).gln.queue.any (fun e => e.id == id && e.cmd.isSome)
  | none => false

/-- Is the core's kernel over (R171, R174)? -/
def State.kernelOver (s : State) (c : Nat) (k : Kernel) : Bool :=
  let x := s.core c
  (k.bad.isSome || (!(x.sp0.started && !x.sp0.ended) && !(x.sp1.started && !x.sp1.ended))) &&
    (List.range 4).all (fun a => (x.arr a).done) && x.mover.isEmpty && x.gln.queue.all (fun e => e.cmd.isSome) &&
    s.win.ops.all (fun o => o.srcid != c || s.ofCommand o)

/-- Status of a core's part (R242). -/
def State.partStatus (s : State) (c : Nat) (k : Kernel) : Nat :=
  match k.bad with
  | some x => x
  | none =>
    if s.rdB ACC_CORE_STAT.SAT c then 1
    else if s.rdB ACC_CORE_STAT.CORR c || s.rdB GLN_STAT.CORR c then 2
    else 0

/-- Does row `i` of a stream stand in it: it is buffered, or an operation that ended owes it as zeros (R211)? -/
def Stream.stands (x : Stream) (i : Nat) : Bool := (x.row i).isSome

/-- Do rows that nothing has claimed stand in the stream? -/
def Stream.unclaimed (x : Stream) : Bool := (List.range (x.promised - x.claimed)).any (fun i => x.stands (x.claimed + i))

/-- Unclaimed stream rows are discarded, and promises and claims return to zero (R213). -/
def State.streamsEnd (s : State) (c : Nat) : State :=
  let g := (s.core c).gln
  let left := [g.s0, g.s1, g.s2, g.s3].any Stream.unclaimed
  let s := s.modGln c (fun g => { g with s0 := {}, s1 := {}, s2 := {}, s3 := {} })
  if left then s.wr GLN_STAT.DROPPED 1 c else s

/-- The core stops holding a kernel: its scalar processors are no longer of any kernel. -/
def State.freeCore (s : State) (c : Nat) : State :=
  let off := fun (u : Sp) => { u with run := false, started := false, ended := false, super := false, pend := [] }
  s.modCore c (fun k => { k with kernel := none, sp0 := off k.sp0, sp1 := off k.sp1 })

/-- A core's part ends with a status. -/
def State.partEnd (s : State) (c : Nat) (k : Kernel) (st : Nat) : State :=
  let s := if s.rdB OBS_CORE.KERN c then s.traceAdd c 4 0 (w64 (st + k.tag <<< 8)) else s
  s.modCmd k.cmd (fun x => { x with parts := x.parts.filter (· != c), partSts := x.partSts ++ [st] })

/-- The core reports the end of its kernel (R171, R213, R242, R564); winnow may follow (R561). -/
def execKernelEnd (c : Nat) (s : State) : Outcome State Fault Refusal :=
  if !s.alive then .next s else
  match (s.core c).kernel with
  | none => .next s
  | some k =>
    if !s.kernelOver c k then .next s
    else
      let st := s.partStatus c k
      .next (((((s.streamsEnd c).freeCore c).touched c).partEnd c k st).wnwAfter c)

/-- Status of a LAUNCH whose parts have ended so (R242). -/
def launchStatus (l : List Nat) : Nat :=
  let m := l.foldl max 0
  if 0x10 ≤ m then m else if l.contains 1 then 1 else if l.contains 2 then 2 else 0

/-- A LAUNCH completes when its last part has ended (R242). -/
def execLaunchComplete (id : Nat) (s : State) : Outcome State Fault Refusal :=
  match s.cmdOf id with
  | none => .next s
  | some x =>
    if cOp x.words = 1 ∧ x.parts.isEmpty ∧ !s.que.done.any (fun e => e.1 == id) then .next (s.report id (launchStatus x.partSts))
    else .next s

/-! ### The start of a kernel (R241) -/

/-- A scalar processor at the start of a kernel. -/
def spStart (entry arg i count : Nat) : Sp :=
  (({ ({} : Sp) with pc := w64 entry, started := true, run := true } : Sp).setX 1 (w64 arg)).setX 2 (w64 i) |>.setX 3 (w64 count)

/-- Core `c` starts its part, number `i`, of LAUNCH `id` of queue `q`. -/
def State.startKernel (s : State) (id q : Nat) (w : List W64) (i c : Nat) : State :=
  let mask := bits (cw w 4) 25 24
  let u := spStart (cw w 5) (cw w 6) i (bits (cw w 4) 15 8)
  let s := s.modCore c (fun k => { k with
    kernel := some ⟨id, q, cTag w, none⟩
    icache := []
    gln := { k.gln with rc := [], perr := [] }
    sp0 := if bitB mask 0 then u else k.sp0
    sp1 := if bitB mask 1 then u else k.sp1 })
  let s := s.wr CORE_CTL.EXC_EN (bits (cw w 4) 26 26) c
  let s := s.setReg .CORE_VEC c 0 0 (w64 (cw w 7 / 64 * 64))
  let s := s.setReg .CORE_FPSTAT c 0 0 0
  let s := s.setReg .ACC_CORE_STAT c 0 0 0
  let s := s.wr GLN_STAT.CORR 0 c
  if s.rdB OBS_CORE.KERN c then s.traceAdd c 3 0 (w64 ((cTag w) <<< 8)) else s

/-! ### Loss and reset of a core (R105, R223, R497, R580) -/

/-- Can a stopped COPY or SOW leave its engine at once: has it nothing outstanding and nothing to write? One whose destination is lost
with its core waits for no data. -/
def State.copyLoose (s : State) (k : Nat) (j : CopyJob) (lost : Bool) : Bool :=
  match s.cmdOf j.cmd with
  | some x => if (copyArgs x.words).reads && lost then true else !s.copySent k j.cmd && j.got.isEmpty
  | none => true

/-- Commands of the copy engines that a test accepts are stopped (R269, R497, R580): they send no further packet and end with ABORTED, a
copy through the window once what it has sent is acknowledged (R329). `lost` says that a core that they name is lost. -/
def State.stopCopies (s : State) (f : Cmd → Bool) (lost : Bool) : State :=
  (List.range (4 * s.variant.bdies)).foldl (fun s k =>
    let hit := (s.copyJobs k).filter (fun j => match s.cmdOf j.cmd with
      | some x => f x
      | none => true)
    let out := hit.filter (fun j => s.copyLoose k j lost)
    let s := s.setJobs k ((s.copyJobs k).filter (fun j => !out.contains j))
    let s := hit.foldl (fun s j => s.modCmd j.cmd (fun x => { x with bad := some 0x18 })) s
    (out.foldl (fun s j => s.report j.cmd 0x18) s).copyPump k 256) s

/-- The work of core `c` is lost: its LAUNCH part, and the COPY, SOW, GLEAN and STOOK.SUBMIT commands that name it, end with
ABORTED, and its remote operations are abandoned without a skip. -/
def State.coreLost (s : State) (c : Nat) : State :=
  let s := match (s.core c).kernel with
    | some k => s.partEnd c k 0x18
    | none => s
  let s := (s.core c).gln.queue.foldl (fun s e => match e.cmd with
    | some id => s.report id 0x18
    | none => s) s
  let s := s.stookDrop c (fun s _ r => match r.cmd with
    | some id => s.report id 0x18
    | none => s)
  let s := s.stopCopies (fun x => (cmdCores x.words).contains c) true
  { s with win := { s.win with ops := s.win.ops.filter (fun o => o.srcid != c) } }

/-- The state of core `c` goes to zero and its registers to their reset values of the kinds in `k` (R297, R598). -/
def State.resetCore (s : State) (c k : Nat) : State :=
  { ((s.setCore c {}).resetRegs k (scopeCore c)) with pwr := { s.pwr with cores := s.pwr.cores.set {} c {} } }

/-- Has a reset of core `c` been asked for that acts at its wake (R580)? -/
def State.corePend (s : State) (c : Nat) : Bool := (s.pwr.cores.get {} c).crstPend

/-- CRST of core `c` (R580): its work is lost, it is reset, and its return pass starts. -/
def State.coreReset (s : State) (c : Nat) : State := (((s.coreLost c).resetCore c kCRST).pump).returnPass c

/-- Core `c` comes out of a low-power state: its SRAM is filled. A CRST that was asked for meanwhile acts now, which ends the commands that
name the core (R580). -/
def State.coreWakes (s : State) (c k : Nat) : State :=
  if (s.corePend c) then ((s.coreLost c).resetCore c k).pump else s.resetCore c k

/-- Core `c` leaves core gate (R595): GATE clears, its SRAM is filled, and its return pass starts. -/
def State.wakeCore (s : State) (c : Nat) : State :=
  ((s.wr PWR_DOM_LP.GATE 0 c).coreWakes c (kGate ||| kCRST)).returnPass c

/-- Cores of die `d`. -/
def dieCores (d : Nat) : List Nat := (List.range 16).map (16 * d + ·)

/-- DRST of die `d` (R497): RELEASED clears, work that names its cores ends, and the die is held in reset. -/
def State.dieDown (s : State) (d : Nat) : State :=
  let s := s.wrBit GLB_DIEMAP.RELEASED d false
  let s := (dieCores d).foldl (fun s c => ((s.coreLost c).resetCore c kDRST).modWnw c (fun w =>
    { w with ret := false, running := false, forced := false, next := 0, reruns := 0, bad := 0 })) s
  let s := (s.resetRegs kDRST (scopeDie d)).pump
  s.modDie d (fun x => { x with inDrst := true, stays := false, drstPend := false, waits := [], upAt := s.now })

/-- The base die loads the timebase copy of compute die `d` with its own (R39). -/
def State.loadTime (s : State) (d : Nat) : State := { s with skew := s.skew.set 0 (16 + d) (s.skew.get 0 (d / 3)) }

/-- Die `d` leaves fallow (R595): FALLOW clears, it is released, its cores' SRAM is filled, and the return passes of
those that are not gated start; a reset that was asked for in fallow acts now (R580). -/
def State.wakeDie (s : State) (d : Nat) : State :=
  let s := s.wr PWR_DOM_LP.FALLOW 0 (192 + d)
  if (s.die d).drstPend then s.dieDown d
  else
    let s := (s.wrBit GLB_DIEMAP.RELEASED d true).loadTime d
    (dieCores d).foldl (fun s c =>
      if s.gated c then (s.setCore c {}).resetRegs (kFallow ||| kCRST) (scopeCore c)
      else (s.coreWakes c (kFallow ||| kCRST)).returnPass c) s

/-- A core that a dispatch names is woken, with its die if need be (R595). -/
def State.wake (s : State) (c : Nat) : State :=
  let s := if s.fallow (c / 16) then s.wakeDie (c / 16) else s
  if s.coreSt c == .asleep then s.wakeCore c else s

end Sys2Proof.Machine
end

