-- ==== Sys2Proof/Machine/Queue.lean ====
section
/-! DEFINITION. The queue engine: the check of a head (R240, R257), dispatch (R254, R255), what each command does (R241 to
R249), completion (R235), configuration, abort and resume (R233, R260, R269), pushes (R262, R263), and the wakes that a
dispatch causes (R595). -/

namespace Sys2Proof.Machine

open Host

/-! ### The check of R240 -/

/-- Masks of the operand bits that a command's words 4 to 7 may set (R239, R429); none for a reserved opcode (R237). -/
def cmdMasks (op : Nat) : Option (List Nat) :=
  let f := 2 ^ 64 - 1
  let dst := 0xC + 0xFF000 + 0xC00000
  match op with
  | 0x00 => some [0, 0, 0, 0]
  | 0x10 => some [0, 0, 0, 0]
  | 0x12 => some [0, 0, 0, 0]
  | 0x01 => some [2 ^ 27 - 1, f, f, f]
  | 0x02 => some [f, f, 2 ^ 40 - 1, 2 ^ 25 - 1]
  | 0x03 => some [f, 2 ^ 40 - 1, f, dst]
  | 0x04 => some [f, 0xC + 0xFF000, 0, 0]
  | 0x05 => some [f, f, 2 ^ 49 - 1, 2 ^ 52 - 1]
  | 0x08 => some [f, f, 2 ^ 50 - 1, 2 ^ 25 - 1]
  | 0x09 => some [f, f, 2 ^ 50 - 1, 2 ^ 25 - 1]
  | 0x0A => some [0, 0, 2 ^ 50 - 1 - (2 ^ 32 - 1), 0]
  | 0x11 => some [2 ^ 49 - 1, 0, 0, 0]
  | 0x18 => some [2 ^ 20 - 1, 0, 0, 0]
  | 0x19 => some [f, dst, 0, 0]
  | 0x1A => some [2 ^ 32 - 1, 0, 0, 0]
  | 0x1F => some [f, 0, 0, 0]
  | _ => none

/-- Does a command set a reserved opcode, flag or field? -/
def cmdReserved (c : List W64) : Bool :=
  match cmdMasks (cOp c) with
  | none => true
  | some m => bits (cw c 0) 15 13 != 0 || bits (cw c 0) 31 30 != 0 ||
      (List.range 4).any (fun i => cw c (4 + i) &&& nth m 0 i != cw c (4 + i))

/-- Bytes of S-space of core `k` that a COPY reaches: the core's own, or a guest's endpoint window (R243, R501). -/
def State.sReach (s : State) (k : Nat) : Nat :=
  let d := k / 16
  if s.variant.cores ≤ k ∨ !s.diePresent d then 0
  else if s.dieGuest d then
    if k % 16 = 0 ∧ s.rdB DPORT_CAP.SVC_COPY d then s.rd DPORT_CAP.EPWIN d * 0x100000 else 0
  else sEnd

/-- Does a local or remote range suit a COPY (R243)? -/
def State.copyRange (s : State) (space core a n : Nat) : Bool :=
  match space with
  | 0 => a + n ≤ s.sReach core && (s.dieGuest (core / 16) || !touchesAcc a n || (a % 4 == 0 && n % 4 == 0))
  | 1 => inL s.variant a n
  | 2 => bitB a 63 || inE s.variant a n
  | _ => false

/-- Does a LAUNCH break R241? One with COUNT = 0 is not checked beyond SPMASK (R257). -/
def State.launchBad (s : State) (c : List W64) : Bool :=
  let count := bits (cw c 4) 15 8
  bits (cw c 4) 25 24 == 0 ||
    (count != 0 &&
      (192 < count || (1 < count && bits (cw c 4) 23 16 == 0) || cw c 5 % 4 != 0 || !inL s.variant (cw c 5) 4 ||
        (bitB (cw c 4) 26 && cw c 7 % 64 != 0) || (launchCores c).any (fun k => !s.coreHere k)))

/-- Does a COPY break R243? One with LEN = 0 is checked for reserved codes alone (R257). -/
def State.copyBad (s : State) (c : List W64) : Bool :=
  let a := copyArgs c
  a.p.sspace == 3 || a.p.dspace == 3 || a.p.shint == 3 || a.p.dhint == 3 ||
    (a.len != 0 &&
      ((a.reads && a.writes) || !s.copyRange a.p.sspace a.p.score a.src a.len ||
        !s.copyRange a.p.dspace a.p.dcore a.dst a.len ||
        (a.p.sspace == a.p.dspace && (a.p.sspace != 0 || a.p.score == a.p.dcore) && overlap a.src a.len a.dst a.len)))

/-- Does a SOW break R244? -/
def State.sowBad (s : State) (c : List W64) : Bool :=
  let a := copyArgs c
  a.p.dspace == 3 || a.p.dhint == 3 ||
    (a.len != 0 &&
      (a.dst % 8 != 0 || a.len % 8 != 0 || a.writes || (a.p.dspace == 0 && !s.coreHere a.p.dcore) ||
        !s.copyRange a.p.dspace a.p.dcore a.dst a.len))

/-- Does a GLEAN break R188? -/
def State.gleanBad (s : State) (c : List W64) : Bool :=
  let p := placeOf (cw c 5)
  let a := cw c 4
  !s.coreHere p.dcore || a % 64 != 0 ||
    (match p.dspace with
     | 0 => !inSpad a 64
     | 1 => !inL s.variant a 64
     | 2 => !inE s.variant a 64
     | _ => true)

/-- Does a STOOK.SUBMIT carry a reserved code, or name a core that is not there (R239, R241)? -/
def State.submitBad (s : State) (c : List W64) : Bool :=
  !s.coreHere (bits (cw c 6) 39 32) || bits (cw c 7) 49 48 == 3 || bits (cw c 7) 51 50 == 3

/-- Does a TIMESTAMP break R248? -/
def State.stampBad (s : State) (c : List W64) : Bool :=
  let p := placeOf (cw c 5)
  let a := cw c 4
  p.dspace == 3 || p.dhint == 3 || a % 8 != 0 || inWindow p.dspace a || (p.dspace == 0 && !s.coreHere p.dcore) ||
    !s.copyRange p.dspace p.dcore a 8

/-- Does a collective command break R240 or R430? -/
def State.collBad (s : State) (c : List W64) : Bool :=
  let p := placeOf (cw c 7)
  p.shint == 3 || p.dhint == 3 || s.colBad c ||
    (colOpOf c != 2 &&
      ((p.sspace == 0 && !s.coreHere p.score) || (p.dspace == 0 && !s.coreHere p.dcore)))

/-- Does a command fail the check of R240? -/
def State.cmdBad (s : State) (c : List W64) : Bool :=
  cmdReserved c ||
    (match cOp c with
     | 0x01 => s.launchBad c
     | 0x02 => s.copyBad c
     | 0x03 => s.sowBad c
     | 0x04 => s.gleanBad c
     | 0x05 => s.submitBad c
     | 0x08 => s.collBad c
     | 0x09 => s.collBad c
     | 0x0A => s.collBad c
     | 0x19 => s.stampBad c
     | _ => false)

/-! ### The head (R234, R240, R252) -/

/-- The command at HEAD is read where there is one: in RING mode a slot with VALID = 1, in PUSH mode one that has been
appended. The whole slot is read in one access. -/
def State.loadHead (s : State) (q : Nat) : State :=
  let x := s.queue q
  let push := s.rdB QUE_Q_CFG.MODE 0 q
  if x.cmd.isSome || x.st == 0 || x.st == 5 || (push && x.appended ≤ x.retiredN) then s
  else
    let r := s.slotRead q x.head 64
    let c := words64 8 r.data
    if r.ue then r.st
    else if !push && !bitB (cw c 0) 25 then r.st
    else r.st.modQueue q (fun x => { x with cmd := some c, st := if x.st = 6 then 6 else 2 })

/-- The engine rereads the head slot of a ring (R234). -/
def execRingPoll (q : Nat) (s : State) : Outcome State Fault Refusal :=
  .next (if !s.live || s.rdB QUE_Q_CFG.MODE 0 q then s else s.loadHead q)

/-- The head of a queue is read, checked and its waits evaluated; a bad one completes with BAD_COMMAND, and in a TORN queue every
one but TEARDOWN.ACK with TORN_DOWN (R240, R252, R270). -/
def execQueueHeadCheck (q : Nat) (s : State) : Outcome State Fault Refusal :=
  if !s.live then .next s else
  let s := s.loadHead q
  let x := s.queue q
  match x.cmd with
  | none => .next s
  | some c =>
    if x.checked || x.st == 5 || x.st == 0 then .next s
    else if x.st = 6 ∧ cOp c ≠ 0x1F then .next (s.endCmd q x.head c false 0x15)
    else if s.cmdBad c then .next (s.endCmd q x.head c false 0x17)
    else .next (s.modQueue q (fun x => evalHead s { x with checked := true }))

/-! ### Dispatch (R254, R255) -/

/-- Commands of a kind that were dispatched before the head of queue `q` and are not yet carried out (R254). -/
def State.before (s : State) (q : Nat) (p : List W64 → Bool) : Nat := ((s.ahead q).filter p).length

/-- Is a command a COPY or SOW for a copy engine of base die `b`? -/
def takesCopy (b : Nat) (a : List W64) : Bool :=
  (cOp a == 2 || cOp a == 3) && (copyArgs a).len != 0 && (copyArgs a).bdie == b

/-- Commands that the copy engines of base die `b` hold. -/
def State.copiesHeld (s : State) (b : Nat) : Nat := ((List.range 4).map (fun e => (s.copyJobs (4 * b + e)).length)).sum

/-- Have the copy engines of the command's base die no room left for it (R243, R254)? -/
def State.copyFull (s : State) (q : Nat) (c : List W64) : Bool :=
  let b := (copyArgs c).bdie
  (copyArgs c).len != 0 && decide (4 * copyRoom ≤ s.copiesHeld b + s.before q (takesCopy b))

/-- Does the command find its target unable to take it (R247, R254, R595)? Commands dispatched before it count as there already. One
that names a core that is gone is not held: it ends with ABORTED. -/
def State.targetBusy (s : State) (q : Nat) (c : List W64) : Bool :=
  let named := cmdCores c
  if s.namesGone c then false
  else if named.any (fun k => s.coreSt k != .ready) then true
  else match cOp c with
    | 0x01 => named.any (fun k => (s.core k).kernel.isSome || s.wnwHolds k ||
        s.before q (fun a => cOp a == 1 && (launchCores a).contains k) != 0)
    | 0x02 => s.copyFull q c
    | 0x03 => s.copyFull q c
    | 0x04 => named.any (fun k => glnRoom ≤ (s.core k).gln.queue.length + s.before q (fun a => cOp a == 4 && cmdCores a == [k]))
    | 0x05 => named.any (fun k => 256 ≤ (s.core k).stook.pending + s.before q (fun a => cOp a == 5 && cmdCores a == [k]))
    | 0x08 => s.ctxBlocked q c
    | 0x09 => s.ctxBlocked q c
    | 0x0A => s.ctxBlocked q c
    | 0x12 => s.que.cmds.any (fun x => x.queue == q)
    | _ => false

/-- Has queue `q` a head that can be dispatched? -/
def State.dispatchable (s : State) (q : Nat) : Bool :=
  let x := s.queue q
  match x.cmd with
  | some c => x.elig && !x.granted && x.running.isNone && x.st != 5 && x.st != 0 && !s.targetBusy q c
  | none => false

/-- The queue that is served next: the highest priority, and among equals the first after the one served last. -/
def State.nextQueue (s : State) : Option Nat :=
  [3, 2, 1, 0].findSome? (fun p =>
    let last := s.que.rr.get 63 p
    ((List.range 64).map (fun i => (last + 1 + i) % 64)).find? (fun q => s.rd QUE_Q_CFG.PRIO 0 q == p && s.dispatchable q))

/-- The engine dispatches one head (R255): it is RUNNING, and its own row carries it out. -/
def execQueueDispatch (s : State) : Outcome State Fault Refusal :=
  if !s.live then .next s else
  match s.nextQueue with
  | none => .next s
  | some q =>
    let n := s.que.grants
    let s := s.modQueue q (fun x => { x with granted := true, grantAt := n, grantNow := s.now, st := if x.st = 6 then 6 else 4 })
    .next { s with que := { s.que with grants := n + 1, rr := s.que.rr.set 63 (s.rd QUE_Q_CFG.PRIO 0 q) q } }

/-- A dispatch that names a gated core, or a core of a die in fallow, wakes it (R595). -/
def execCoreWake (q : Nat) (s : State) : Outcome State Fault Refusal :=
  if !s.live then .next s else
  let x := s.queue q
  match x.cmd with
  | none => .next s
  | some c =>
    if !x.elig || x.granted || x.running.isSome || x.st == 5 || x.st == 0 then .next s
    else if (cmdCores c).any (fun k => s.coreSt k == .gone) then .next s
    else .next ((cmdCores c).foldl (fun s k => s.wake k) s)

/-- The head of queue `q`, where it has been dispatched, is of this opcode, and can still be taken by a module that works. -/
def State.dispatched (s : State) (q op : Nat) : Option (List W64) :=
  let x := s.queue q
  match x.cmd with
  | some c => if s.live && x.granted && cOp c == op && !s.targetBusy q c then some c else none
  | none => none

/-- The dispatched head completes at once with a status. -/
def State.finishHead (s : State) (q : Nat) (c : List W64) (status : Nat) : State := s.endCmd q (s.queue q).head c false status

/-- The dispatched head is in flight under a new number from now on, and retires at once where it is ASYNC (R256). -/
def State.takeHead (s : State) (q : Nat) (c : List W64) (parts : List Nat) : State :=
  let id := s.que.nextId
  let i := (s.queue q).head
  let x : Cmd := ⟨id, q, i, c, cAsync c, parts, [], none, false⟩
  let s := { s with que := { s.que with nextId := id + 1, cmds := s.que.cmds ++ [x] } }
  if cAsync c then (s.slotWrite q i (leBytes 8 (word0 c 0 false false))).retireHead q
  else s.modQueue q (fun x => { x with granted := false, running := some id })

/-! ### The commands (R241 to R249) -/

/-- NOP. -/
def execNop (q : Nat) (s : State) : Outcome State Fault Refusal :=
  match s.dispatched q 0x00 with
  | some c => .next (s.finishHead q c 0)
  | none => .next s

/-- WAIT. -/
def execWaitCmd (q : Nat) (s : State) : Outcome State Fault Refusal :=
  match s.dispatched q 0x10 with
  | some c => .next (s.finishHead q c 0)
  | none => .next s

/-- LAUNCH starts its kernels together (R241). -/
def execLaunch (q : Nat) (s : State) : Outcome State Fault Refusal :=
  match s.dispatched q 0x01 with
  | none => .next s
  | some c =>
    let ks := launchCores c
    if ks.isEmpty then .next (s.finishHead q c 0)
    else if s.namesGone c then .next (s.finishHead q c 0x18)
    else
      let id := s.que.nextId
      let s := s.takeHead q c ks
      .next ((List.range ks.length).foldl (fun s i => s.startKernel id q c i (nth ks 0 i)) s)

/-- A COPY or SOW goes to a copy engine (R243, R244). Whether the engine reads a local source ahead, where
the source can be read now, is a free choice (R322). -/
def State.toEngine (s : State) (q : Nat) (c : List W64) : State :=
  let a := copyArgs c
  if a.len = 0 then s.finishHead q c 0
  else if s.namesGone c then s.finishHead q c 0x18
  else
    match s.copyEngine a.bdie with
    | none => s
    | some k =>
      let id := s.que.nextId
      let s := s.takeHead q c []
      let (early, s) : Bool × State := if a.sow || a.reads || a.writes || s.copyHeld a.p.sspace a.p.score a.src a.len then (false, s) else s.freeBit
      let r := if early then State.copySource s (CopyJob.mk id none 0 [] []) a 0 a.len else .ok [] s
      if r.ue then r.st
      else
        let s := if r.corr then r.st.modCmd id (fun x => { x with corr := true }) else r.st
        let jobs := s.copyJobs k
        let s := s.setJobs k (jobs ++ [⟨id, if early then some r.data else none, 0, [], []⟩])
        if jobs.isEmpty then s.copyPump k 256 else s

/-- COPY. -/
def execCopy (q : Nat) (s : State) : Outcome State Fault Refusal :=
  match s.dispatched q 0x02 with
  | some c => .next (s.toEngine q c)
  | none => .next s

/-- SOW. -/
def execSow (q : Nat) (s : State) : Outcome State Fault Refusal :=
  match s.dispatched q 0x03 with
  | some c => .next (s.toEngine q c)
  | none => .next s

/-- GLEAN: the descriptor is read at dispatch and joins the gleaner's queue (R188, R245). -/
def execGlean (q : Nat) (s : State) : Outcome State Fault Refusal :=
  match s.dispatched q 0x04 with
  | none => .next s
  | some c =>
    let p := placeOf (cw c 5)
    if s.namesGone c then .next (s.finishHead q c 0x18)
    else
      let r := s.memRead p.dspace p.dcore (cw c 4) 64 0 false .queue none
      if r.ue then .next r.st
      else
        let d := words64 8 r.data
        let id := r.st.que.nextId
        .next ((r.st.takeHead q c []).glnEnter p.dcore (gOp d) d p.dspace (cw c 4) 2 (some id) q)

/-- STOOK.SUBMIT delivers its request to the core's stook (R96, R97, R245). -/
def execStookSubmit (q : Nat) (s : State) : Outcome State Fault Refusal :=
  match s.dispatched q 0x05 with
  | none => .next s
  | some c =>
    let k := bits (cw c 6) 39 32
    if s.namesGone c then .next (s.finishHead q c 0x18)
    else
      let id := s.que.nextId
      let r : StReq := ⟨bits (cw c 6) 48 40, bits (cw c 7) 49 48, cw c 4, bits (cw c 7) 23 0, bits (cw c 7) 51 50, cw c 5,
        bits (cw c 7) 47 24, some id, 2, 0⟩
      .next ((s.takeHead q c []).stookIntake k (bits (cw c 6) 31 0) r)

/-- SIGNAL adds to a counter, or sets it (R246). -/
def execSignal (q : Nat) (s : State) : Outcome State Fault Refusal :=
  match s.dispatched q 0x11 with
  | none => .next s
  | some c =>
    let e := bits (cw c 4) 15 0
    let v := bits (cw c 4) 47 16
    let s := if bitB (cw c 4) 48 then s.setEvt e v else s.addEvt e v
    .next (s.finishHead q c 0)

/-- Is a remote store that serves a command of queue `q`, its copy engine's or its kernel's, still outstanding (R247)? -/
def State.storesOut (s : State) (q : Nat) : Bool := s.win.ops.any (fun o => o.writes && o.kind != 8 && o.queue == some q)

/-- FENCE.REMOTE, which dispatches once every earlier command of its queue has completed, completes when every remote store of theirs has
been acknowledged or has failed (R247). -/
def execFenceRemote (q : Nat) (s : State) : Outcome State Fault Refusal :=
  match s.dispatched q 0x12 with
  | some c => .next (if s.storesOut q then s else s.finishHead q c 0)
  | none => .next s

/-- HINT.PHASE reaches the core islands of its dies, or is counted void; with HINT_EN = 0 it is discarded (R248, R519). -/
def execHintPhase (q : Nat) (s : State) : Outcome State Fault Refusal :=
  match s.dispatched q 0x18 with
  | none => .next s
  | some c =>
    let lead := bits (cw c 4) 5 0
    let dies := bits (cw c 4) 19 8
    let named := (List.range s.variant.cdies).filter (fun d => s.diePresent d && !s.dieGuest d && (dies == 0 || bitB dies d))
    let s := if !s.rdB PWR_CFG.HINT_EN then s
      else if leadOk lead then
        (named.map dieCores).flatten.foldl (fun s k => s.hintPend k lead (bits (cw c 4) 7 6)) s
      else s.incSat QUE_CNT.VOIDPH 1 0
    .next (s.finishHead q c 0)

/-- TIMESTAMP writes the timebase as it was at dispatch (R248). A core's island that is gated makes the engine hold the write, as does a
pass into the group that it goes to (R38, R127; DESIGN CHOICE, unsafe, log entry 88). -/
def execTimestamp (q : Nat) (s : State) : Outcome State Fault Refusal :=
  match s.dispatched q 0x19 with
  | none => .next s
  | some c =>
    let p := placeOf (cw c 5)
    if s.namesGone c then .next (s.finishHead q c 0x18)
    else if s.copyHeld p.dspace p.dcore (cw c 4) 8 then .next s
    else .next ((s.memWrite p.dspace p.dcore (cw c 4) (leBytes 8 (s.queue q).grantNow) p.dhint .queue none).finishHead q c 0)

/-- TRACE.MARK puts a record into base die 0's trace (R248, R564). -/
def execTraceMark (q : Nat) (s : State) : Outcome State Fault Refusal :=
  match s.dispatched q 0x1A with
  | none => .next s
  | some c =>
    let s := if s.rdB OBS_BASE.EN && s.rdB OBS_BASE.EVT then
        s.traceAdd 256 2 q (w64 (bits (cw c 4) 31 0 + (cTag c) <<< 32))
      else s
    .next (s.finishHead q c 0)

/-- TEARDOWN.ACK returns a TORN queue to IDLE where its epoch is the module's (R249). -/
def execTeardownAck (q : Nat) (s : State) : Outcome State Fault Refusal :=
  match s.dispatched q 0x1F with
  | none => .next s
  | some c =>
    if (s.queue q).st ≠ 6 then .next (s.finishHead q c 0)
    else if cw c 4 = s.epoch then .next ((s.modQueue q (fun x => { x with st := 4 })).finishHead q c 0)
    else .next (s.finishHead q c 0x17)

/-! ### Completion (R235) -/

/-- Status with which a command in flight ends: one that was stopped is ABORTED, whatever its work came to (R269, R497). -/
def State.endStatus (s : State) (id st : Nat) : Nat := if (s.cmdOf id).any (fun x => x.bad == some 0x18) then 0x18 else st

/-- The oldest end reported to the engine is written: STATUS, CDONE, the signal, the notification, and a halt where it applies. -/
def execCommandComplete (s : State) : Outcome State Fault Refusal :=
  match s.que.done with
  | [] => .next s
  | (id, st) :: r => .next ({ s with que := { s.que with done := r } }.finishCmd id (s.endStatus id st))

/-! ### Configuration (R233, R274, R275) -/

/-- May a ring of the present registers be enabled (R233)? The reserved range is no place for one. -/
def State.ringOk (s : State) (q : Nat) : Bool :=
  let n := s.qSize q
  let b := s.rd QUE_Q_BASE.ADDR 0 q * 64
  1 ≤ n && n ≤ 65536 &&
    (match s.rd QUE_Q_CFG.SPACE 0 q with
     | 1 => inL s.variant b (64 * n)
     | 2 => inE s.variant b (64 * n)
     | _ => false)

/-- A write of QUE_Q_CFG (R233). HEAD and TAIL become 0 when the queue is enabled, and stay as they are when it is disabled. -/
def State.writeQueCfg (s : State) (q : Nat) (v : W64) : State :=
  let err := fun (s : State) => s.wr QUE_Q_STAT.CFGERR 1 0 q
  let st := (s.queue q).st
  if !s.rdB QUE_Q_CFG.EN 0 q then
    let s := s.writeFields .QUE_Q_CFG 0 q 0 v
    if QUE_Q_CFG.EN.get v = 0 then s
    else if s.ringOk q then
      (s.wr QUE_Q_STAT.STATUS 0 0 q).modQueue q (fun _ => { st := 1 })
    else err ((s.wr QUE_Q_CFG.EN 0 0 q).wrs .QUE_Q_STAT 0 q 0 [(QUE_Q_STAT.STATUS, 0x17)])
  else if QUE_Q_CFG.EN.get v = 0 ∧ st ≠ 1 ∧ st ≠ 5 then err s
  else
    let same := fun (f : Fld) => f.get v == s.rd f 0 q
    let s := if same QUE_Q_CFG.MODE && same QUE_Q_CFG.SPACE && same QUE_Q_CFG.SIZE then s else err s
    let s := s.wr QUE_Q_CFG.PRIO (QUE_Q_CFG.PRIO.get v) 0 q
    if QUE_Q_CFG.EN.get v = 1 then s
    else ((s.wr QUE_Q_CFG.EN 0 0 q).wr QUE_Q_STAT.STATUS 0 0 q).modQueue q (fun x => { head := x.head, tail := x.tail })

/-- A write of QUE_Q_CFG. -/
def execQueueEnable (q : Nat) (v : W64) (s : State) : Outcome State Fault Refusal := .next (s.onWrite (fun s => s.writeQueCfg q v))

/-- A write of QUE_Q_BASE (R275). -/
def State.writeQueBase (s : State) (q : Nat) (v : W64) : State :=
  if s.rdB QUE_Q_CFG.EN 0 q then s.wr QUE_Q_STAT.CFGERR 1 0 q else s.writeFields .QUE_Q_BASE 0 q 0 v

/-- A write of QUE_Q_BASE. -/
def execQueueBaseWrite (q : Nat) (v : W64) (s : State) : Outcome State Fault Refusal := .next (s.onWrite (fun s => s.writeQueBase q v))

/-! ### Abort and resume (R260, R269) -/

/-- A running head is stopped: the cores of a LAUNCH halt as for an unhandled exception, a COPY or SOW sends no further packet, and the
others' work runs on. Its completion follows its work's writes (R329). -/
def State.stopHead (s : State) (x : Cmd) : State :=
  match cOp x.words with
  | 0x01 => x.parts.foldl (fun s c =>
      (s.modCore c (fun k => { k with kernel := k.kernel.map (fun y => { y with bad := some (y.bad.getD 0x18) }) })).haltCore c) s
  | 0x02 => s.stopCopies (fun y => y.id == x.id) false
  | 0x03 => s.stopCopies (fun y => y.id == x.id) false
  | _ => s

/-- The slots from `i` on, `n` at most, are ended with ABORTED while they hold a command: all of them in PUSH mode, those with VALID
in RING mode. The slot reached is answered. -/
def State.abortSlots (s : State) (q : Nat) (push : Bool) : Nat → Nat → State × Nat
  | 0, i => (s, i)
  | n + 1, i =>
    let r := s.slotRead q i 64
    let c := words64 8 r.data
    if r.ue then (r.st, i)
    else if !push && !bitB (cw c 0) 25 then (r.st, i)
    else State.abortSlots (r.st.endCmd q i c true 0x18) q push n ((i + 1) % s.qSize q)

/-- QUE_Q_CTL.ABORT (R269). A running head leaves the queue as one that retires early does, and completes with ABORTED once the writes of
its work have taken effect and its remote stores are acknowledged (R329; DEDUCED, unsafe, log entry 101). -/
def State.queueAbort (s : State) (q : Nat) : State :=
  let x := s.queue q
  if x.st = 0 then s
  else
    let push := s.rdB QUE_Q_CFG.MODE 0 q
    let sz := s.qSize q
    let s := match x.running.bind s.cmdOf with
      | some y =>
        let s := (s.modCmd y.id (fun y => { y with retired := true, bad := some 0x18 })).slotWrite q y.slot
          (leBytes 8 (word0 y.words 0 false false))
        (s.stopHead y).modQueue q (fun x => { x with running := none })
      | none => s
    let s := match x.cmd with
      | some c =>
        if x.running.isSome then s
        else if x.st = 5 then
          s.slotWrite q x.head (leBytes 8 (word0 c (s.rd QUE_Q_STAT.STATUS 0 q) true false))
        else s.endCmd q x.head c true 0x18
      | none => s
    let here := x.cmd.isSome
    let start := if here then (x.head + 1) % sz else x.head
    let left := (if push then x.appended - x.retiredN else sz) - b2n here
    let (s, stop) := s.abortSlots q push left start
    let h := if push then x.tail else stop
    (s.wr QUE_Q_STAT.STATUS 0 0 q).modQueue q (fun x => { x with
      head := h, tail := h, retiredN := x.appended, cmd := none, checked := false, elig := false, granted := false
      running := none, st := 1 })

/-- QUE_Q_CTL.RESUME (R260). -/
def State.queueResume (s : State) (q : Nat) : State :=
  let x := s.queue q
  match x.cmd with
  | some c =>
    if x.st ≠ 5 then s
    else
      let s := s.slotWrite q x.head (leBytes 8 (word0 c (s.rd QUE_Q_STAT.STATUS 0 q) true false))
      (s.wr QUE_Q_STAT.STATUS 0 0 q).retireHead q
  | none => s

/-- A write of QUE_Q_CTL (R278): ABORT, then RESUME. -/
def State.writeQueCtl (s : State) (q : Nat) (v : W64) : State :=
  let s := if QUE_Q_CTL.ABORT.get v = 1 then s.queueAbort q else s
  if QUE_Q_CTL.RESUME.get v = 1 then s.queueResume q else s

/-- A write of QUE_Q_CTL.ABORT = 1. -/
def execQueueAbort (q : Nat) (s : State) : Outcome State Fault Refusal := .next (s.onWrite (fun s => s.writeQueCtl q 1))
/-- A write of QUE_Q_CTL.RESUME = 1. -/
def execQueueResume (q : Nat) (s : State) : Outcome State Fault Refusal := .next (s.onWrite (fun s => s.writeQueCtl q 2))

/-- A write of QUE_EVT sets its counter (R251, R279). -/
def State.writeEvt (s : State) (e : Nat) (v : W64) : State := s.setEvt e (QUE_EVT.VALUE.get v)
/-- A write of QUE_EVT. -/
def execQueEvtWrite (e : Nat) (v : W64) (s : State) : Outcome State Fault Refusal := .next (s.onWrite (fun s => s.writeEvt e v))

/-! ### Pushes (R262, R263) -/

/-- A command is appended at TAIL, if the slot is free (R235). -/
def State.append (s : State) (q : Nat) (c : List W64) : Bool × State :=
  let i := (s.queue q).tail
  let (free, s) := s.slotFree q i
  if !free then (false, s)
  else
    let w := w64 (word0 c 0 false true) :: (List.range 7).map (fun k => w64 (cw c (k + 1)))
    let s := s.slotWrite q i (bytes64 w)
    (true, s.modQueue q (fun x => { x with
      tail := (i + 1) % (s.qSize q), appended := x.appended + 1, st := if x.st = 1 then 2 else x.st }))

/-- Commands are appended while slots are free; how many were. -/
def State.appendAll (s : State) (q : Nat) : List (List W64) → Nat × State
  | [] => (0, s)
  | c :: r =>
    let (ok, t) := s.append q c
    if ok then
      let (n, u) := State.appendAll t q r
      (n + 1, u)
    else (0, t)

/-- Does a queue take no push: its configuration failed, or it is not in PUSH mode or disabled (R262)? Code 0 where it does. -/
def State.pushCode (s : State) (q : Nat) : Nat :=
  if !s.isReady then 3
  else if !s.rdB QUE_Q_CFG.EN 0 q then (if s.rd QUE_Q_STAT.STATUS 0 q = 0x17 then 4 else 3)
  else if s.rdB QUE_Q_CFG.MODE 0 q then 0 else 3

/-- Can a message reach the module on the halter link: its clocks run, and the link is up (R471, R581, R596)? -/
def State.linkLit (s : State) : Bool :=
  s.alive && !s.flt.halterOff && 2 ≤ s.boot.stage && !s.stby.inStby && s.halterUp

/-- A halter push message (R262). -/
def execPushMessage (hdr : V128) (cmds : List (List W64)) (s : State) : Outcome State Fault Refusal :=
  let h := hdr.toNat
  let q := bits h 13 8
  let n := bits h 20 16
  let seq := bits h 63 32
  if !s.linkLit then .next s
  else if !s.isReady then .next (s.say (.push q 0 3 seq))
  else if 16 < n then .next (s.say (.push q 0 4 seq))
  else if n = 0 then .next (s.say (.push q 0 0 seq))
  else if bits h 127 64 ≠ s.epoch then .next (s.say (.push q 0 2 seq))
  else if s.pushCode q ≠ 0 then .next (s.say (.push q 0 (s.pushCode q) seq))
  else
    let (k, t) := s.appendAll q (cmds.take n)
    .next (t.say (.push q k (if k = n then 0 else 1) seq))

/-- A core's write of QUE_PUSH: its staged command is pushed and the response recorded (R263, R280). -/
def State.corePush (s : State) (c p : Nat) (v : W64) : State :=
  let a := 2 * c + p
  let q := QUE_PUSH.QUEUE.get v
  let code := s.pushCode q
  let w := (List.range 8).map (fun k => w64 (s.rd QUE_STAGE.WORD a k))
  let i := (s.queue q).tail
  let (ok, t) := if code = 0 then s.append q w else (false, s)
  t.wrs .QUE_PUSH_RES a 0 0 [(QUE_PUSH_RES.CODE, if code ≠ 0 then code else if ok then 0 else 1),
    (QUE_PUSH_RES.INDEX, if ok then i else 0)]

/-- A write of QUE_PUSH by scalar processor `p` of core `c`. -/
def execQuePush (c p : Nat) (v : W64) (s : State) : Outcome State Fault Refusal := .next (s.onWrite (fun s => s.corePush c p v))

end Sys2Proof.Machine
end

