-- ==== Sys2Proof/Machine/Photonics.lean ====
section
/-! DEFINITION. Light (chapter 13): which source feeds what, tuning, tracking, thermal feed-forward, mirror and switch, fade, the
width of a tensor link, and the wavelength broker. The rings of base die b at internal waveguide w are fibre number 256 + 64 b + w
here. -/

namespace Sys2Proof.Machine

open Host

/-! ### Fibres and sources (R465 to R468, R483) -/

/-- Does the variant have fibre `f`? -/
def fibExists (v : Variant) (f : Nat) : Bool :=
  if f < 128 then f / 8 < v.links && f % 8 < 5
  else if f = 128 then true
  else if f < 256 then 136 ≤ f && f < 136 + 4 * v.ethPorts
  else 1 < v.bdies && f < 256 + 64 * v.bdies

/-- Is it a tensor fibre? -/
def fibTensor (f : Nat) : Bool := f < 128
/-- Is it a base die's ring set at an internal waveguide? -/
def fibWave (f : Nat) : Bool := 256 ≤ f
/-- Is it a halter or Ethernet fibre, with one active and one spare line (R466)? -/
def fibLine (f : Nat) : Bool := 128 ≤ f && f < 256
/-- The lane of a halter or Ethernet fibre. -/
def lineLane (f : Nat) : Nat := if f = 128 then 0 else (f - 136) % 4
/-- Waveguide of a ring set. -/
def waveOf (f : Nat) : Nat := (f - 256) % 64
/-- The ring sets of all base dies at waveguide `w` (R467). -/
def waveSets (v : Variant) (w : Nat) : List Nat := (List.range v.bdies).map (fun b => 256 + 64 * b + w)

/-- Source of a fibre, of its active line, or of a waveguide (R468). -/
def fibSource (v : Variant) (f : Nat) : Nat :=
  if f < 128 then (f / 8 + f % 8) % v.sources
  else if f = 128 then 0
  else if f < 256 then (2 + (f - 136)) % v.sources
  else waveOf f % v.sources

/-- Source of a fibre's spare line (R468). -/
def fibSpareSource (v : Variant) (f : Nat) : Nat :=
  if f = 128 then 1
  else if 128 < f ∧ f < 256 then (3 + (f - 136)) % v.sources
  else fibSource v f

/-- Fibre `f`. -/
def State.fibre (s : State) (f : Nat) : Fibre := s.pho.fibres.get {} f
/-- The state with fibre `f` changed by `g`. -/
def State.modFibre (s : State) (f : Nat) (g : Fibre → Fibre) : State :=
  { s with pho := { s.pho with fibres := s.pho.fibres.upd {} f g } }
/-- Source `k`. -/
def State.source (s : State) (k : Nat) : Source := s.pho.sources.get {} k
/-- The state with source `k` changed by `g`. -/
def State.modSource (s : State) (k : Nat) (g : Source → Source) : State :=
  { s with pho := { s.pho with sources := s.pho.sources.upd {} k g } }
/-- Channel `k`. -/
def State.chan (s : State) (k : Nat) : Channel := s.pho.channels.get {} k
/-- The state with channel `k` changed by `g`. -/
def State.modChan (s : State) (k : Nat) (g : Channel → Channel) : State :=
  { s with pho := { s.pho with channels := s.pho.channels.upd {} k g } }

/-- Fade stage of source `k` (R488). -/
def State.srcStage (s : State) (k : Nat) : Nat := s.rd PHO_SRC_STAT.STAGE k

/-- The memory of a source with this serial number and calibrated monitor current, as R463 lays it out. -/
def sourceTable (serial calmon : Nat) : List Byte :=
  let d := leBytes 4 0x4A4C5331 ++ leBytes 4 serial ++ leBytes 2 calmon ++ leBytes 2 9 ++ leBytes 4 2280000 ++ leBytes 2 2000 ++
    List.replicate 234 0
  d ++ leBytes 4 (crc32c d)

/-- The 256 bytes of a source's memory. -/
def Source.bytes (x : Source) : List Byte := x.memory.getD (sourceTable 0 0)

/-- A private write of an offset, then a private read of `n` bytes: the offset wraps at 256 (R463). -/
def Source.busRead (x : Source) (off n : Nat) : List Byte := (List.range n).map (fun i => nth x.bytes 0 ((off + i) % 256))

/-- The number that such a read gives. -/
def Source.field (x : Source) (off n : Nat) : Nat := ofLe (x.busRead off n)

/-- Serial number of a source. -/
def Source.serial (x : Source) : Nat := x.field 4 4
/-- Its calibrated monitor current, in 0.1 uA. -/
def Source.calmon (x : Source) : Nat := x.field 8 2

/-- Is the source there: it answers, and its MAGIC, LINES, F0, SPACING and CRC are right (R463)? -/
def Source.fitted (x : Source) : Bool :=
  x.answers && (x.memory.isNone ||
    (x.field 0 4 == 0x4A4C5331 && x.field 10 1 == 9 && x.field 12 4 == 2280000 && x.field 16 2 == 2000 &&
      x.field 252 4 == crc32c (x.busRead 0 252)))

/-- Does source `k` light what it feeds (R463, R471, R476)? In standby the sources are off (R483). -/
def State.srcLit (s : State) (k : Nat) : Bool :=
  (s.source k).fitted && !(s.source k).dead && s.srcStage k != 4 && !s.stby.inStby

/-- ROLE of a fibre (R489): 0 ABSENT, 1 ACTIVE, 2 WARM, 3 MIRROR, 4 FAILED. -/
def State.role (s : State) (f : Nat) : Nat := s.rd PHO_FIB_STAT.ROLE 0 f
/-- A fibre's role and the position that its register shows. -/
def State.setRole (s : State) (f r pos : Nat) : State :=
  s.wrs .PHO_FIB_STAT 0 f 0 [(PHO_FIB_STAT.ROLE, r), (PHO_FIB_STAT.POS, pos)]

/-- A photonic event (R486) and its notification (R538). -/
def State.phoEvent (s : State) (kind src fib : Nat) : State :=
  let s := if s.rdB PHO_EVT.VALID then s else s.wrs .PHO_EVT 0 0 0 [(PHO_EVT.VALID, 1), (PHO_EVT.KIND, kind),
    (PHO_EVT.SRC, src), (PHO_EVT.FIBRE, fib), (PHO_EVT.TIME, s.time32)]
  (s.incSat PHO_EVT.COUNT 1 0).faultNote 6 .PHO_EVT

/-! ### Ethernet lanes (R409, R424) -/

/-- Lanes of port `e`: four at 800GbE, two at 400GbE (R27, R466). -/
def State.ethLanes (s : State) (e : Nat) : Nat := if s.rdB ETH_CFG.SPEED e then 2 else 4

/-- Can port `e` run: do all its lanes have a fibre that works (R466, R471)? -/
def State.lanesOk (s : State) (e : Nat) : Bool :=
  (List.range (s.ethLanes e)).all (fun l => s.role (136 + 4 * e + l) == 1)

/-- A fibre's role has changed: an Ethernet port follows its lanes. -/
def State.ethFollow (s : State) (f : Nat) : State :=
  let e := (f - 136) / 4
  if 136 ≤ f ∧ f < 256 then s.wr ETH_STAT.LINK (b2n (s.rdB ETH_CFG.EN e && s.lanesOk e && !s.stby.inStby)) e else s

/-- A link control frame leaves on link `l`, or on the halter or Ethernet fibre of that number (R475). -/
def State.ctrlSay (s : State) (l : Nat) (what : String) (args : List Nat) : State :=
  { s with fab := { s.fab with ctrl := s.fab.ctrl ++ [(l, what, args)], ctrlAt := s.fab.ctrlAt ++ [s.fab.tx.length] } }

/-- The number under which a fibre's control frames leave. -/
def ctrlLink (f : Nat) : Nat := if fibTensor f then f / 8 else f

/-! ### The width of a link (R479) -/

/-- Link `l` beside its register. -/
def State.link (s : State) (l : Nat) : Link := s.fab.links.get {} l
/-- The state with link `l` changed by `f`. -/
def State.modLink (s : State) (l : Nat) (f : Link → Link) : State :=
  { s with fab := { s.fab with links := s.fab.links.upd {} l f } }

/-- Fibres of link `l` that carry a data position. -/
def State.carrying (s : State) (l : Nat) : List Nat :=
  ((List.range 5).map (8 * l + ·)).filter (fun f => (s.fibre f).pos.isSome)

/-- STATE of a link that runs `n` data positions: 2 UP, 3 DEGRADED, 6 FAILED. -/
def widthState (n : Nat) : Nat := if n = 0 then 6 else if n = 4 then 2 else 3

/-- The roles of a dozing link: fibre `run` carries its traffic, the other data fibres are warm (R392, R465). -/
def State.dozeRoles (s : State) (l run : Nat) : State :=
  (s.carrying l).foldl (fun s f =>
    if s.role f = 4 then s
    else if f = run then s.setRole f 1 ((s.fibre f).pos.getD 0) else s.setRole f 2 0) s

/-- The fibre that a dozing link runs on: its first one that works. -/
def State.dozeRun (s : State) (l : Nat) : Nat := (((s.carrying l).filter (fun f => s.role f != 4)).headD 0)

/-- Link `l` runs on what is left of its data positions after an event of fibre `f`; a change of width is reported (R479). -/
def State.relink (s : State) (l f : Nat) : State :=
  let n := (s.carrying l).length
  let st := s.rd FAB_LINK.STATE l
  if (st != 2 && st != 3 && st != 4) || n == (s.link l).full then s
  else
    let s := s.modLink l (fun k => { k with full := n })
    let s :=
      if st = 4 ∧ n ≠ 0 then
        if (s.carrying l).any (fun g => s.role g == 1) then s
        else s.dozeRoles l (s.dozeRun l)
      else s.wrs .FAB_LINK l 0 0 [(FAB_LINK.STATE, widthState n), (FAB_LINK.WIDTH, n)]
    (s.phoEvent 4 0 f).faultNote 7 .FAB_LINK l

/-! ### The rings of a fibre (R470, R474) -/

/-- The rings of a fibre at tuning: lane by ring, 8 for the spare. -/
def ringsOf (f : Nat) : List Nat := if fibLine f then [lineLane f, 8] else List.range 9

/-- Lane that each ring of a side carries. -/
def Fibre.map (x : Fibre) (f : Nat) (rx : Bool) : List Nat :=
  let m := if rx then x.rxMap else x.txMap
  if m.isEmpty then ringsOf f else m

/-- The fibre with a side's lanes replaced. -/
def Fibre.setMap (x : Fibre) (rx : Bool) (m : List Nat) : Fibre :=
  if rx then { x with rxMap := m } else { x with txMap := m }

/-- The lane in motion on a side. -/
def Fibre.move (x : Fibre) (rx : Bool) : Option LaneMove := if rx then x.rxMove else x.txMove

/-- The fibre with a side's lane in motion replaced. -/
def Fibre.setMove (x : Fibre) (rx : Bool) (m : Option LaneMove) : Fibre :=
  if rx then { x with rxMove := m } else { x with txMove := m }

/-- The fibre mirrors nothing. -/
def Fibre.alone (x : Fibre) : Fibre := { x with mirror := none, cmp := {}, ready := false }

/-- Does the lane of a halter or Ethernet fibre ride its spare line? -/
def State.onSpare (s : State) (f : Nat) (rx : Bool) : Bool := decide (nth ((s.fibre f).map f rx) 9 1 < 8)

/-- The spare-line registers of a side; a waveguide has none. Of a halter or Ethernet fibre they show whether its lane rides the line of its
second source; of a tensor fibre, whether the lane of a ring that is being retuned has moved (DEDUCED, unsafe, log entry 87). -/
def State.spareLine (s : State) (f : Nat) (rx on : Bool) (lane : Nat) : State :=
  if fibWave f then s
  else
    let on := if fibLine f then s.onSpare f rx else on
    let lane := if on then lane else 0
    if rx then s.wrs .PHO_FIB_STAT 0 f 0 [(PHO_FIB_STAT.RXSPW, b2n on), (PHO_FIB_STAT.RXSPL, lane)]
    else s.wrs .PHO_FIB_STAT 0 f 0 [(PHO_FIB_STAT.TXSPW, b2n on), (PHO_FIB_STAT.TXSPL, lane)]

/-- Source of ring `i` of a fibre. -/
def ringSource (v : Variant) (f i : Nat) : Nat := if fibLine f ∧ i = 1 then fibSpareSource v f else fibSource v f

/-- Can the lane of ring `ring` go over to the spare line of its side: the spare ring is there and lit, and no other ring's lane is on its
way to it? -/
def State.spareLineFree (s : State) (f : Nat) (rx : Bool) (ring : Nat) : Bool :=
  let x := s.fibre f
  let m := x.map f rx
  m.contains 8 && ((x.move rx).map (·.ring)).getD ring == ring &&
    (rx || !fibLine f || s.srcLit (ringSource s.variant f (m.idxOf 8))) &&
    (!fibWave f || (waveSets s.variant (waveOf f)).all (fun k =>
      ((s.fibre k).map k true).contains 8 && ((s.fibre k).map k false).contains 8))

/-! ### Mirror and switch (R475 to R478) -/

/-- Fibre `g` takes over the position of fibre `f`, which turns warm unless it has failed (R475). -/
def State.takeOver (s : State) (g f : Nat) : State :=
  let pf := (s.fibre f).pos
  let pg := if s.role f = 4 then none else (s.fibre g).pos
  let s := s.modFibre f (fun x => { x with pos := pg, out := x.out || pg.isNone })
  let s := if s.role f = 4 then s else s.setRole f 2 0
  let s := s.modFibre g (fun x => { x.alone with pos := pf })
  ((s.setRole g 1 (pf.getD 0)).incWrap PHO_ERR.SWITCHES 1 0 g).ctrlSay (ctrlLink g) "switched" [f, g]

/-- The lane of a halter or Ethernet fibre goes over to its spare line. -/
def State.lineOver (s : State) (f : Nat) : State :=
  let s := s.modFibre f (fun x => (x.alone.setMap false [9, lineLane f]).setMove false none)
  ((s.spareLine f false true (lineLane f)).incWrap PHO_ERR.SWITCHES 1 0 f).ctrlSay (ctrlLink f) "switched" [f, f]

/-- The fibre of link `l` that mirrors fibre `f`. -/
def State.mirrorOf (s : State) (l f : Nat) : Option Nat :=
  ((List.range 5).map (8 * l + ·)).find? (fun g => (s.fibre g).mirror == some f)

/-- Can the receiver go over to what fibre `g` mirrors, now that the old path has failed: the new path is ready, or has delivered 8
aligned frames (R475)? -/
def Fibre.serves (x : Fibre) : Bool := x.ready || decide (8 ≤ x.cmp.aligned)

/-- Fibre `f` has lost its data position until the next POR or MRST (R479). -/
def State.losePos (s : State) (f : Nat) : State :=
  (s.modFibre f (fun x => { x with pos := none, out := x.out || x.pos.isSome })).relink (f / 8) f

/-- Fibre `f` of a tensor link has failed: a ready mirror takes its place at once, a mirror that is not ready yet later, and with no
mirror the link loses the fibre's position (R475). -/
def State.failServed (s : State) (f : Nat) : State :=
  match s.mirrorOf (f / 8) f with
  | some g => if (s.fibre g).serves then (s.takeOver g f).relink (f / 8) f else s
  | none => s.losePos f

/-- The fibre that mirrored `old` has failed: where `old` had failed too and still waited, its position is lost. -/
def State.failServing (s : State) (old : Option Nat) : State :=
  match old with
  | some h => if s.role h = 4 then s.losePos h else s
  | none => s

/-- A fibre is declared failed (R474, R476). Where its data are mirrored, the mirror takes over as soon as it has delivered 8 aligned
frames, and the position waits for it (R475). -/
def State.failFibre (s : State) (f kind : Nat) : State :=
  if s.role f = 4 then s
  else
    let old := (s.fibre f).mirror
    let s := (s.setRole f 4 0).phoEvent kind 0 f
    let s := s.modFibre f (fun x => { x.alone with txMove := none, rxMove := none })
    if fibTensor f then (s.failServed f).failServing old else s.ethFollow f

/-- A data fibre is dropped: the link's stripe narrows (R477). -/
def State.dropFibre (s : State) (f : Nat) : State := (s.setRole f 2 0).losePos f

/-- Is fibre `g` free to mirror another: warm, of a source that has not reached MIRROR, and not in use (R477)? -/
def State.spareFree (s : State) (g : Nat) : Bool :=
  s.role g == 2 && (s.fibre g).mirror.isNone && s.srcStage (fibSource s.variant g) < 2 && s.srcLit (fibSource s.variant g)

/-- Fibre `g` begins to mirror fibre `f`, and the receive end is told (R475). -/
def State.startMirror (s : State) (g f : Nat) : State :=
  let s := if fibTensor f then s.setRole g 3 ((s.fibre f).pos.getD 0) else s
  (s.modFibre g (fun x => { x.alone with mirror := some f })).ctrlSay (ctrlLink g) "mirror" [f, g]

/-- The MIRROR stage reaches data fibre `f` (R476 to R478). -/
def State.mirrorFibre (s : State) (f : Nat) : State :=
  let l := f / 8
  if (s.mirrorOf l f).isSome then s
  else if s.rd FAB_LINK.STATE l = 4 then
    match ((List.range 4).map (8 * l + ·)).find? (fun g => g != f && (s.fibre g).pos.isSome && s.spareFree g) with
    | some g => s.startMirror g f
    | none => s
  else if s.spareFree (8 * l + 4) && (s.fibre (8 * l + 4)).pos.isNone then s.startMirror (8 * l + 4) f
  else s

/-- A data fibre that runs traffic meets the stage of its source (R476, R477). -/
def State.fibreStage (s : State) (f stage : Nat) : State :=
  let s := if 2 ≤ stage ∧ s.role f = 1 ∧ (s.fibre f).pos.isSome then s.mirrorFibre f else s
  let s := if 3 ≤ stage ∧ s.role f = 1 ∧ (s.fibre f).pos.isSome ∧ (s.mirrorOf (f / 8) f).isNone then s.dropFibre f else s
  if stage = 4 then s.failFibre f 3 else s

/-- A number put behind those of a list whose key is not above its own. -/
def putBy (key : Nat → Nat) (n : Nat) : List Nat → List Nat
  | [] => [n]
  | m :: r => if key n < key m then n :: m :: r else m :: putBy key n r

/-- Fibres, of ascending f, in the order in which the spare fibre of their link goes to them: by the sample at which their sources reached MIRROR, and the
lowest f among those of one sample (R477). -/
def State.byFade (s : State) (fs : List Nat) : List Nat :=
  fs.foldl (fun l f => putBy (fun g => (s.source (fibSource s.variant g)).mirrorAt) f l) []

/-- The data fibres of a link that begins to run, or wakes, meet the stages of their sources (R476, R477). -/
def State.meetStages (s : State) (fs : List Nat) : State :=
  (s.byFade fs).foldl (fun s f => s.fibreStage f (s.srcStage (fibSource s.variant f))) s

/-- A halter or Ethernet fibre whose active line has failed runs on its spare line, once that has delivered 8 aligned frames, or fails
where it has none (R475, R476). -/
def State.lineFailed (s : State) (f : Nat) : State :=
  if (s.fibre f).mirror.isNone then s.failFibre f 3 else if (s.fibre f).serves then s.lineOver f else s

/-- A halter or Ethernet fibre meets the stage of the source of its active or its spare line (R476). -/
def State.lineStage (s : State) (f src stage : Nat) : State :=
  let onSpare := s.onSpare f false
  if s.role f ≠ 1 then s
  else if src = fibSource s.variant f then
    if onSpare then s
    else
      let s := if 2 ≤ stage ∧ s.spareLineFree f false 0 ∧ (s.fibre f).mirror.isNone then s.startMirror f f else s
      if stage = 4 then s.lineFailed f else s
  else if stage = 4 then
    if onSpare ∨ s.srcStage (fibSource s.variant f) = 4 then s.failFibre f 3 else s.modFibre f Fibre.alone
  else s

/-- A halter or Ethernet fibre that turns active meets the stages that its sources hold (R476). -/
def State.lineHeld (s : State) (f : Nat) : State :=
  let a := fibSource s.variant f
  let b := fibSpareSource s.variant f
  let s := s.lineStage f a (s.srcStage a)
  s.lineStage f b (s.srcStage b)

/-- A channel fails (R476, R482). -/
def State.failChan (s : State) (k : Nat) : State :=
  if (s.chan k).failed then s else (s.modChan k (fun x => { x with failed := true })).phoEvent 6 0 0

/-- The channels of waveguide `w` fail. -/
def State.failWave (s : State) (w : Nat) : State := (List.range 8).foldl (fun s i => s.failChan (8 * w + i)) s

/-- Everything that a source feeds meets its new stage, fibre by fibre in ascending order (R476, R477). -/
def State.stageActs (s : State) (news : List (Nat × Nat)) : State :=
  let stageOf := fun (k : Nat) => (news.find? (fun e => e.1 == k)).map (·.2)
  let s := ((List.range 128).filter (fibExists s.variant)).foldl (fun s f =>
    match stageOf (fibSource s.variant f) with
    | some st => s.fibreStage f st
    | none => s) s
  let s := ((List.range 256).filter (fun f => 128 ≤ f && fibExists s.variant f)).foldl (fun s f =>
    let s := match stageOf (fibSource s.variant f) with
      | some st => s.lineStage f (fibSource s.variant f) st
      | none => s
    match stageOf (fibSpareSource s.variant f) with
    | some st => s.lineStage f (fibSpareSource s.variant f) st
    | none => s) s
  ((List.range 64).filter (fun w => fibExists s.variant (256 + w))).foldl (fun s w =>
    if stageOf (w % s.variant.sources) = some 4 then s.failWave w else s) s

/-! ### Fade (R476) -/

/-- The averaged fade in 0.01 dB: the greatest n, at most 4,095, for which the mean over the samples of 10 log10(calibrated / sample)
is at least n / 100. Exactly: cal^(1000 m) ≥ (product of the m samples)^1000 × 10^(m n). -/
def fadeOf (cal : Nat) (samples : List Nat) : Nat :=
  let m := samples.length
  let p := samples.foldl (· * ·) 1 ^ 1000
  let c := cal ^ (1000 * m)
  (List.range 12).foldl (fun n i =>
    let t := n + 2 ^ (11 - i)
    if p * 10 ^ (m * t) ≤ c then t else n) 0

/-- The stage that a fade asks for, from the present stage; MIRROR and later stages are held. -/
def stageFor (st fade : Nat) : Nat :=
  let up := if 450 ≤ fade then 4 else if 300 ≤ fade then 3 else if 200 ≤ fade then 2 else if 100 ≤ fade then 1 else 0
  if 2 ≤ st then max st up
  else if st = 1 ∧ up = 0 then (if fade < 50 then 0 else 1)
  else up

/-- The stage registers of a source (R485, R488). -/
def State.setStage (s : State) (k st : Nat) : State :=
  let s := s.wr PHO_SRC_STAT.STAGE st k
  let s := s.wrBit PHO_STAT.WARN k (1 ≤ st)
  let s := s.wrBit PHO_STAT.MIRROR k (2 ≤ st)
  let s := s.wrBit PHO_STAT.SWITCHED k (3 ≤ st)
  let s := s.wrBit PHO_STAT.FAILED k (4 ≤ st)
  s.phoEvent 1 k 0

/-- Source `k` is sampled: its new stage, where that changes. -/
def State.sampleSource (s : State) (k cur : Nat) : State × Option (Nat × Nat) :=
  let l := ((s.source k).samples ++ [cur])
  let l := l.drop (l.length - 16)
  let fade := fadeOf (s.rd PHO_SRC_CAL.CALMON k) l
  let s := s.modSource k (fun x => { x with samples := l })
  let s := s.wrs .PHO_SRC_STAT k 0 0 [(PHO_SRC_STAT.FADE, fade), (PHO_SRC_STAT.MONITOR, cur)]
  let st := stageFor (s.srcStage k) fade
  let s := if 2 ≤ st ∧ s.srcStage k < 2 then s.modSource k (fun x => { x with mirrorAt := s.pho.sampled }) else s
  if st = s.srcStage k then (s, none) else (s.setStage k st, some (k, st))

/-- Every source's monitor is sampled: currents in 0.1 uA, by source. In standby the sources are off (R483). -/
def execFadeSample (currents : List Nat) (s : State) : Outcome State Fault Refusal :=
  if s.stby.inStby then .next s
  else
    let s := { s with pho := { s.pho with sampled := s.pho.sampled + 1 } }
    let r := (List.range s.variant.sources).foldl (fun (x : State × List (Nat × Nat)) k =>
      if !s.rdB PHO_SRC_STAT.PRESENT k then x
      else
        let y := x.1.sampleSource k (nth currents 0 k)
        (y.1, x.2 ++ y.2.toList)) (s, [])
    .next (r.1.stageActs r.2)

/-! ### Lanes that move (R472, R474, R475, R482) -/

/-- The maps of a waveguide's ring sets after the lane of ring `ring` has gone over to the spare line: every base die's add and drop rings
follow the channel, and the ring that lost its line, at ring set `f`, is to be retuned. -/
def State.waveMove (s : State) (f ring lane : Nat) (rx : Bool) : State :=
  (waveSets s.variant (waveOf f)).foldl (fun s k =>
    s.modFibre k (fun x =>
      let go := fun (side : Bool) =>
        let m := x.map k side
        setNth (setNth m (m.idxOf 8) lane) ring (if k = f ∧ side = rx then 9 else 8)
      (x.setMap false (go false)).setMap true (go true))) s

/-- The spare ring of a side is to be retuned (R474): until then the side has no spare, what was on its way to the spare line stays where it
is, and a halter or Ethernet fibre whose active line has failed meanwhile fails. -/
def State.spareLost (s : State) (f ring : Nat) (rx : Bool) : State :=
  let s := s.modFibre f (fun x =>
    let x := (x.setMap rx (setNth (x.map f rx) ring 9)).setMove rx none
    if fibLine f && !rx then x.alone else x)
  if fibLine f ∧ !rx ∧ s.srcStage (fibSource s.variant f) = 4 then s.failFibre f 3 else s

/-- The lane of a ring moves to the spare line, and the ring is to be retuned; with the spare line in use the fibre fails, or the
channel of the ring (R474, R482). The spare ring carries no lane, and is retuned alone. -/
def State.ringMove (s : State) (f ring : Nat) (rx : Bool) (lost : Bool) : State :=
  let m := (s.fibre f).map f rx
  let lane := nth m 9 ring
  if lane = 8 then s.spareLost f ring rx
  else if 8 < lane then s
  else if !s.spareLineFree f rx ring then
    if fibWave f then s.failChan (8 * waveOf f + lane) else s.failFibre f 3
  else if fibWave f then s.waveMove f ring lane rx
  else
    let s := s.modFibre f (fun x =>
      let x := (x.setMap rx (setNth (setNth m (m.idxOf 8) lane) ring 9)).setMove rx none
      if fibLine f && !rx then x.alone else x)
    let s := s.spareLine f rx true lane
    let s := if lost then s else (s.incWrap PHO_ERR.SWITCHES 1 0 f).ctrlSay (ctrlLink f) "switched" [f, lane]
    s.phoEvent 2 0 f

/-- A ring that is still captured is to give its lane to the spare line by mirror and switch: both paths carry the lane from now on, and the
receive end is told (R474, R475). Of a line that is mirrored already for its source's fade, the copies go on being compared. A spare ring to
which nothing is on its way is retuned. -/
def State.startLaneMove (s : State) (f ring : Nat) (rx : Bool) : State :=
  let x := s.fibre f
  let lane := nth (x.map f rx) 9 ring
  if lane = 8 then (if (x.move rx).isNone ∧ (rx ∨ x.mirror.isNone ∨ fibTensor f) then s.spareLost f ring rx else s)
  else if 8 < lane ∨ (x.move rx).map (·.ring) = some ring then s
  else if !s.spareLineFree f rx ring then s.failFibre f 3
  else if fibLine f ∧ !rx ∧ x.mirror.isSome then s.modFibre f (fun x => x.setMove rx (some ⟨ring, x.cmp, x.ready⟩))
  else (s.modFibre f (fun x => x.setMove rx (some ⟨ring, {}, false⟩))).ctrlSay (ctrlLink f) "mirror" [f, lane]

/-- A ring's tracking loop updates (R472): error in MHz, and whether the ring is still locked; past the capture range it is not. -/
def execTrackingUpdate (f ring : Nat) (rx : Bool) (errMHz : Nat) (lock : Bool) (s : State) : Outcome State Fault Refusal :=
  let x := s.fibre f
  let lost := !lock || decide (30000 < errMHz)
  if !fibExists s.variant f ∨ (if rx then !x.rxOk else !x.txOk) ∨ (!fibWave f ∧ s.role f = 4) ∨ s.stby.inStby then .next s
  else
    let s := if lost ∧ !fibWave f then s.wr PHO_FIB_STAT.LOCKLOST 1 0 f else s
    if lost then .next (s.ringMove f ring rx true)
    else if 15000 < errMHz ∧ !fibWave f then .next (s.startLaneMove f ring rx)
    else .next s

/-- A ring's sweep ends: it is the spare of its side now (R474). A ring of a halter or Ethernet fibre finds its line only where its source
lights it. -/
def execRingRetuneDone (f ring : Nat) (rx : Bool) (s : State) : Outcome State Fault Refusal :=
  let m := (s.fibre f).map f rx
  if fibExists s.variant f ∧ nth m 0 ring = 9 ∧ !s.stby.inStby ∧ (!fibLine f ∨ rx ∨ s.srcLit (ringSource s.variant f ring)) then
    let lane := (m.find? (fun k => decide (k < 8))).getD 0
    .next ((s.modFibre f (fun x => x.setMap rx (setNth m ring 8))).spareLine f rx false (if fibLine f then lane else 0))
  else .next s

/-! ### Comparing the two paths (R475) -/

/-- One frame on the two paths: equal, decoded and different, or not decoded on the new one. -/
def Compared.frame (x : Compared) (r : FrameCmp) : Compared :=
  match r with
  | .equal => ⟨x.eq + 1, x.aligned + 1⟩
  | .differs => ⟨0, x.aligned + 1⟩
  | .lost => ⟨0, x.aligned⟩

/-- Frames that must compare equal in a row (R484). -/
def State.cmpFrames (s : State) : Nat := max 8 (s.rd PHO_CFG.CMP)

/-- Frames on the two paths, one by one, and whether the new path is ready: it is from the frame on that makes up the count. -/
def compareAll (need : Nat) : List FrameCmp → Compared × Bool → Compared × Bool
  | [], x => x
  | r :: l, x => compareAll need l (x.1.frame r, x.2 || decide (need ≤ (x.1.frame r).eq))

/-- Frames of the path that fibre `f` mirrors have been compared. -/
def State.compareFibre (s : State) (f : Nat) (frames : List FrameCmp) : State :=
  s.modFibre f (fun x =>
    let r := compareAll s.cmpFrames frames (x.cmp, x.ready)
    { x with cmp := r.1, ready := r.2 })

/-- Frames of a lane in motion have been compared. -/
def State.compareLane (s : State) (f : Nat) (rx : Bool) (frames : List FrameCmp) : State :=
  s.modFibre f (fun x => x.setMove rx ((x.move rx).map (fun m =>
    let r := compareAll s.cmpFrames frames (m.cmp, m.ready)
    { m with cmp := r.1, ready := r.2 })))

/-- The old path of the one that fibre `f` mirrors has failed, and the new one serves: the receiver goes over at once (R475). -/
def State.rescue (s : State) (f : Nat) : State :=
  match (s.fibre f).mirror with
  | none => s
  | some g =>
    if !(s.fibre f).serves then s
    else if fibTensor f then (if s.role g = 4 then (s.takeOver f g).relink (f / 8) f else s)
    else if s.srcStage (fibSource s.variant f) = 4 then s.lineOver f
    else s

/-! ### The receive end of a move that the other end starts (R475) -/

/-- Can the other end move to the receive side of fibre `f` what it says: another fibre of the link, or a lane of `f` while its spare line
is free? -/
def State.peerMoves (s : State) (f old lane : Nat) : Bool :=
  (s.fibre f).rxOk && s.role f != 4 && !fibWave f &&
    (if old = f then ((s.fibre f).map f true).contains 8 && decide (lane < 8) && ((s.fibre f).map f true).contains lane
     else fibTensor f && fibTensor old && old / 8 == f / 8)

/-- The other end's control frame begins a move: from now on the copies are compared. -/
def State.peerStart (s : State) (f old lane : Nat) : State :=
  if s.peerMoves f old lane then s.modFibre f (fun x => { x with peer := some ⟨old, lane, {}, false⟩ }) else s

/-- Frames of such a move have been compared. -/
def State.comparePeer (s : State) (f : Nat) (frames : List FrameCmp) : State :=
  s.modFibre f (fun x => { x with peer := x.peer.map (fun m =>
    let r := compareAll s.cmpFrames frames (m.cmp, m.ready)
    { m with cmp := r.1, ready := r.2 }) })

/-- The receiver takes its data from the new path, and confirms the switch to the transmitter: the position of the mirrored fibre, or the lane
from its spare line, whose old line is the spare one now (DEDUCED, unsafe, log entry 106). -/
def State.peerOver (s : State) (f : Nat) (m : PeerMove) : State :=
  let s :=
    if m.old = f then
      let s := s.modFibre f (fun x =>
        let k := x.map f true
        { x.setMap true (setNth (setNth k (k.idxOf m.lane) 8) (k.idxOf 8) m.lane) with peer := none })
      s.wrs .PHO_FIB_STAT 0 f 0 [(PHO_FIB_STAT.RXSPW, 1), (PHO_FIB_STAT.RXSPL, m.lane)]
    else s.modFibre f (fun x => { x with peer := none, rxFor := some m.old })
  (s.incWrap PHO_ERR.SWITCHES 1 0 f).ctrlSay (ctrlLink f) "switched" [m.old, if m.old = f then m.lane else f]

/-- The switch of such a move, where the new path is ready, or, the old one having failed, has delivered 8 aligned frames. -/
def State.peerSwitch (s : State) (f : Nat) (failed : Bool) : State :=
  match (s.fibre f).peer with
  | none => s
  | some m => if m.ready || (failed && decide (8 ≤ m.cmp.aligned)) then s.peerOver f m else s

/-- Frames of a move that the other end has started, or starts now. -/
def State.peerFrames (s : State) (x : PathFrames) : State :=
  let s := match x.told with
    | some (old, lane) => s.peerStart x.fibre old lane
    | none => s
  let s := s.comparePeer x.fibre x.frames
  if x.failed then s.peerSwitch x.fibre true else s

/-- Frames have come over both paths of a move (R475): `path` 0 is the fibre that `f` mirrors, or its spare line as a mirror of its active
one, 1 and 2 a lane in motion on its transmit and its receive side, 3 what the other end moves to its receive side. -/
def execMirrorReady (x : PathFrames) (s : State) : Outcome State Fault Refusal :=
  if !fibExists s.variant x.fibre ∨ s.stby.inStby then .next s
  else if x.path = 0 then
    .next (if (s.fibre x.fibre).mirror.isSome then (s.compareFibre x.fibre x.frames).rescue x.fibre else s)
  else .next (if x.path = 3 then s.peerFrames x else s.compareLane x.fibre (x.path == 2) x.frames)

/-- The receiver switches to the path of fibre `f` at a frame boundary (R475, R476): the path is ready, and the source of the path it
replaces has reached SWITCHED, or a dozing link moves its traffic (R478). -/
def State.switchFibre (s : State) (f : Nat) : State :=
  match (s.fibre f).mirror with
  | none => s
  | some g =>
    if !(s.fibre f).ready then s
    else if fibTensor f then
      if 3 ≤ s.srcStage (fibSource s.variant g) ∨ s.rd FAB_LINK.STATE (f / 8) = 4 then s.takeOver f g else s
    else if 3 ≤ s.srcStage (fibSource s.variant f) then s.lineOver f
    else s

/-- A lane in motion goes over to the spare line once that is ready (R474, R475). -/
def State.switchLane (s : State) (f : Nat) (rx : Bool) : State :=
  match (s.fibre f).move rx with
  | none => s
  | some m => if m.ready then s.ringMove f m.ring rx false else s

/-- A switch at a frame boundary; `path` as for MIRROR_READY. -/
def execPathSwitch (x : NewPath) (s : State) : Outcome State Fault Refusal :=
  .next (if s.stby.inStby then s else if x.path = 0 then s.switchFibre x.fibre
    else if x.path = 3 then s.peerSwitch x.fibre false else s.switchLane x.fibre (x.path == 2))

/-! ### Feed-forward (R473) -/

/-- Feed-forward of base die `b`: FFk uW per degC of the rise of the mean of its working sensors; it holds while more than half are
broken. -/
def execFeedForwardUpdate (b : Nat) (s : State) : Outcome State Fault Refusal :=
  let all := s.sensorsOf (12 + b)
  let ok := all.filter (fun x => !(s.sensor x).broken)
  if s.variant.bdies ≤ b ∨ !s.rdB PHO_CFG.FF_EN ∨ all.length < 2 * (all.length - ok.length) ∨ ok.isEmpty then .next s
  else
    let mean : Rat := (((ok.map (fun x => (s.sensor x).last)).sum : Int) : Rat) / ((8 * ok.length : Nat) : Rat)
    let k := s.rd THM_DIE.BAND (12 + b)
    let ff := lane 16 (s.reg .PHO_FF 0 0 0).toNat k
    let old := if SMap.has s.pho.ff b then s.pho.ff.get (0, 0) b else (mean, 0)
    .next { s with pho := { s.pho with ff := s.pho.ff.ins b (mean, old.2 - (ff : Rat) * (mean - old.1)) } }

/-! ### Tuning (R469 to R471) -/

/-- Cost of shift `k` for the rings `rs`, where every one has a power for its line. -/
def shiftCost (power : List (List (Option Nat))) (rs : List Nat) (k : Nat) : Option Nat :=
  rs.foldl (fun m i => match m, nth (nth power [] i) none ((i + k) % 9) with
    | some a, some b => some (a + b)
    | _, _ => none) (some 0)

/-- The cheapest shift with its cost; ties keep the lower. -/
def bestShift (power : List (List (Option Nat))) (rs : List Nat) : Option (Nat × Nat) :=
  (List.range 9).foldl (fun m k => match shiftCost power rs k, m with
    | some c, none => some (k, c)
    | some c, some e => if c < e.2 then some (k, c) else m
    | none, _ => m) none

/-- A side's shift, its heater powers in uW, whether user calibration gave them, and the rings that are tuned. -/
structure Tuned where
  shift : Nat
  pows : List Nat
  cal : Bool
  rings : List Nat
  deriving DecidableEq, Repr

/-- The most that a ring's heater may draw, in uW (R469). -/
def heaterMax : Nat := 8000

/-- The lines that rings meet within the range of their heaters: a power beyond it is none. -/
def inReach (power : List (List (Option Nat))) : List (List (Option Nat)) :=
  power.map (fun l => l.map (fun p => p.filter (fun x => decide (x ≤ heaterMax))))

/-- Factory heater curve of a ring, at which its sweep starts (R469, R470). -/
def State.curve (s : State) (f ring : Nat) (rx : Bool) : List (Nat × Nat) := s.boot.otp.curves.get [] (32 * f + 16 * b2n rx + ring)

/-- Serials of the sources of a fibre's active and its spare line. -/
def State.serials (s : State) (f : Nat) : Nat × Nat :=
  ((s.source (fibSource s.variant f)).serial, (s.source (fibSpareSource s.variant f)).serial)

/-- The calibration record of a fibre, where its sources' serials are unchanged (R28, R470): of a halter or Ethernet fibre, which two sources
feed, both (DEDUCED, unsafe, log entry 106). -/
def State.fibCal (s : State) (u : Ucal) (f : Nat) : Option FibCal :=
  match u.fibs.get none f with
  | some r => if (r.serial, r.spare) = s.serials f then some r else none
  | none => none

/-- A side of a channel's record. -/
def ChanCal.side (r : ChanCal) (rx : Bool) : SMap (Option (Nat × Nat × Nat)) := if rx then r.rx else r.tx

/-- The calibration of a ring set, from the records of the channels of its waveguide: shift, and powers of its nine rings. -/
def State.waveCal (s : State) (u : Ucal) (f : Nat) (rx : Bool) : Option (Nat × List Nat) :=
  let rs := (List.range 8).map (fun i => u.chans.get {} (8 * waveOf f + i))
  let es := rs.map (fun r => if r.serial = (s.serials f).1 then (r.side rx).get none ((f - 256) / 64) else none)
  match es with
  | some (k, _, sp) :: _ => if es.all (·.isSome) then some (k, es.map (fun e => (e.getD (0, 0, 0)).2.1) ++ [sp]) else none
  | _ => none

/-- Shift and heater powers that user calibration holds for a side. -/
def State.storedCal (s : State) (f : Nat) (rx : Bool) : Option (Nat × List Nat) :=
  match s.userCal with
  | none => none
  | some u =>
    if fibWave f then s.waveCal u f rx
    else (s.fibCal u f).bind (fun r => if rx then r.rxShift.map (fun k => (k, r.rxPow)) else r.txShift.map (fun k => (k, r.txPow)))

/-- Rings that can be tuned against light: all nine of a tensor fibre or waveguide, and of another fibre those of lit lines. -/
def State.tunable (s : State) (f : Nat) (rx : Bool) : List (List Nat) :=
  if fibLine f then
    let a := rx || s.srcLit (fibSource s.variant f)
    let b := rx || s.srcLit (fibSpareSource s.variant f)
    (if a && b then [[0, 1]] else []) ++ (if a then [[0]] else []) ++ (if b then [[1]] else [])
  else if (rx && !fibWave f) || s.srcLit (fibSource s.variant f) then [List.range 9]
  else []

/-- The outcome of the tuning procedure of R470. -/
def State.tune (s : State) (f : Nat) (rx verify : Bool) (power : List (List (Option Nat))) : Option Tuned :=
  let sets := s.tunable f rx
  let stored := s.storedCal f rx
  match sets with
  | [] => none
  | first :: _ =>
    match stored, verify with
    | some (k, ps), true => some ⟨k, ps, true, first⟩
    | _, _ => sets.findSome? (fun rs => (bestShift power rs).map (fun e =>
        ⟨e.1, rs.map (fun i => (nth (nth power [] i) none ((i + e.1) % 9)).getD 0), false, rs⟩))

/-- A channel's record with a side's entry for a base die; one of another source's serial begins anew. -/
def ChanCal.put (r : ChanCal) (serial die : Nat) (rx : Bool) (e : Nat × Nat × Nat) : ChanCal :=
  let r := if r.serial = serial then r else { serial := serial }
  if rx then { r with rx := r.rx.set none die (some e) } else { r with tx := r.tx.set none die (some e) }

/-- User calibration with a sweep's result: shift and powers of a side. -/
def State.calWith (s : State) (u : Ucal) (f : Nat) (rx : Bool) (k : Nat) (pows : List Nat) : Ucal :=
  if fibWave f then
    (List.range 8).foldl (fun u i => { u with chans := u.chans.upd {} (8 * waveOf f + i) (fun r =>
      r.put (s.serials f).1 ((f - 256) / 64) rx (k, nth pows 0 i, nth pows 0 8)) }) u
  else
    let r := (s.fibCal u f).getD ⟨(s.serials f).1, (s.serials f).2, none, [], none, []⟩
    let r := if rx then { r with rxShift := some k, rxPow := pows } else { r with txShift := some k, txPow := pows }
    { u with fibs := u.fibs.set none f (some r) }

/-- A sweep's result is stored as user calibration. -/
def State.storeCal (s : State) (f : Nat) (rx : Bool) (k : Nat) (pows : List Nat) : State :=
  s.putUcal (s.calWith (s.userCal.getD { ff := s.boot.otp.ff }) f rx k pows)

/-- A sweep's result goes into user calibration, which firmware writes once it runs, after boot step 2 (R470, R594). -/
def State.keepCal (s : State) (f : Nat) (rx : Bool) (t : Tuned) : State :=
  if t.cal then s
  else if s.boot.stage ≤ 2 then { s with boot := { s.boot with swept := s.boot.swept ++ [(f, rx, t.shift, t.pows)] } }
  else s.storeCal f rx t.shift t.pows

/-- Firmware stores the results of the sweeps that were made before it ran. -/
def State.storeSwept (s : State) : State :=
  let t := s.boot.swept.foldl (fun s e => s.storeCal e.1 e.2.1 e.2.2.1 e.2.2.2) s
  { t with boot := { t.boot with swept := [] } }

/-- What the rings of a side carry once it is tuned: of a halter or Ethernet fibre, a ring whose line is dark carries nothing, and one that
alone is tuned carries the lane (R471). -/
def tunedMap (f : Nat) (t : Tuned) : List Nat :=
  if t.rings = [0] then [lineLane f, 9] else if t.rings = [1] then [9, lineLane f] else []

/-- A side of a fibre is tuned. Tuned on both sides, a tensor fibre is warm, any other fibre active. -/
def State.tunedSide (s : State) (f : Nat) (rx : Bool) (t : Tuned) : State :=
  let mw := t.pows.sum / 100
  let s := s.modFibre f (fun x => if rx then { x with rxOk := true, rxCal := t.cal } else { x with txOk := true, txCal := t.cal })
  let s := s.keepCal f rx t
  if fibWave f then s
  else
    let x := s.fibre f
    let s := if rx then s.wrs .PHO_RING_ASSIGN 0 f 0 [(PHO_RING_ASSIGN.RXSHIFT, t.shift), (PHO_RING_ASSIGN.RXPOWER, mw)]
      else s.wrs .PHO_RING_ASSIGN 0 f 0 [(PHO_RING_ASSIGN.TXSHIFT, t.shift), (PHO_RING_ASSIGN.TXPOWER, mw)]
    let s := s.wr PHO_RING_ASSIGN.FROMCAL (b2n (x.txCal && x.rxCal)) 0 f
    let s := (s.modFibre f (fun x => x.setMap rx (tunedMap f t))).spareLine f rx false (lineLane f)
    if !(x.txOk && x.rxOk) then s
    else if fibTensor f then s.setRole f 2 0
    else ((s.setRole f 1 0).lineHeld f).ethFollow f

/-- The ordered pairs of base dies, as 4a + b. -/
def brokerPairs (v : Variant) : List Nat :=
  ((List.range v.bdies).map (fun a => ((List.range v.bdies).filter (· != a)).map (fun b => 4 * a + b))).flatten

/-- Waveguides of the boot channels: two of each ordered pair (R581, step 3). -/
def bootWaves (v : Variant) : Nat := 2 * (brokerPairs v).length

/-- The fibres and ring sets that a boot step tunes (R581): step 1 the halter link's, step 3 every base die's at the boot channels, step 8
all others. -/
def tuneSet (v : Variant) (stage : Nat) : List Nat :=
  let waves := fun (p : Nat → Bool) => (((List.range 64).filter p).map (waveSets v)).flatten
  match stage with
  | 1 => [128]
  | 3 => waves (fun w => decide (w < bootWaves v))
  | 8 => (List.range 256).filter (fun f => f != 128 && fibExists v f) ++
      (if 1 < v.bdies then waves (fun w => decide (bootWaves v ≤ w)) else [])
  | _ => []

/-- Has the transmit side of a fibre been through its tuning? -/
def State.txOver (s : State) (f : Nat) : Bool :=
  (s.fibre f).txOk || (if fibWave f then (List.range 8).all (fun i => (s.chan (8 * waveOf f + i)).failed) else s.role f == 4)

/-- May a side be tuned now (R470, R471, R581): in the step of its fibre, transmit sides first, or later against light that had been
missing? -/
def State.tunesNow (s : State) (f : Nat) (rx : Bool) : Bool :=
  let g := s.boot.stage
  s.alive && !s.stby.inStby &&
    (if (tuneSet s.variant g).contains f then !rx || (tuneSet s.variant g).all s.txOver
     else rx && !fibWave f && decide ((if f = 128 then 2 else 9) ≤ g) && decide (g ≤ 12))

/-- A fibre, or the channels of a ring set's waveguide, fails tuning (R471); the register of a fibre shows the source that feeds it. -/
def State.tuneFail (s : State) (f : Nat) : State :=
  if fibWave f then s.failWave (waveOf f) else (s.wr PHO_FIB_STAT.SOURCE (fibSource s.variant f) 0 f).failFibre f 5

/-- A source whose fade exceeds −3.0 dB when a fibre that it feeds is tuned feeds nothing from then on (R471). -/
def State.dimSource (s : State) (k : Nat) : State :=
  if 300 < s.rd PHO_SRC_STAT.FADE k then s.modSource k (fun y => { y with dead := true }) else s

/-- One side of a fibre, or of a base die's ring set at a waveguide, is tuned (R470, R471): `verify` says that every ring shows resonance
on its stored line, `power` gives each ring's heater power in uW at each of the nine lines it meets. A receive fibre without light is
left untuned. -/
def execPhotonicTuning (f : Nat) (rx verify : Bool) (power : List (List (Option Nat))) (s : State) :
    Outcome State Fault Refusal :=
  let x := s.fibre f
  if !fibExists s.variant f ∨ !s.tunesNow f rx ∨ (if rx then x.rxOk || (!x.lit && !fibWave f) else x.txOk) ∨
      (!fibWave f ∧ s.role f = 4) then .next s
  else
    let s := if rx then s else (s.dimSource (fibSource s.variant f)).dimSource (fibSpareSource s.variant f)
    let s := if fibWave f then s else s.wr PHO_FIB_STAT.SOURCE (fibSource s.variant f) 0 f
    match s.tune f rx verify (inReach power) with
    | some t => .next (s.tunedSide f rx t)
    | none => .next (s.tuneFail f)

/-- Does training of link `l` wait: the link is MISWIRED (R391), or a fibre of it that has not failed is not tuned on both sides, since its
receive side sees no light, or saw none until now (R471)? -/
def State.linkHeld (s : State) (l : Nat) : Bool :=
  (s.link l).miswired || (List.range 5).any (fun f =>
    let x := s.fibre (8 * l + f)
    s.role (8 * l + f) != 4 && !(x.txOk && x.rxOk))

/-- Is any receive fibre of link `l` still dark? -/
def State.linkDark (s : State) (l : Nat) : Bool :=
  (List.range 5).any (fun f => s.role (8 * l + f) != 4 && !(s.fibre (8 * l + f)).lit)

/-- Light arrives on a receive fibre that had none (R471): the fibre can be tuned, and its link trains. -/
def execReceiveFibreLight (f : Nat) (s : State) : Outcome State Fault Refusal :=
  if !fibExists s.variant f ∨ fibWave f ∨ (s.fibre f).lit then .next s
  else
    let s := s.modFibre f (fun x => { x with lit := true })
    if fibTensor f ∧ s.rd FAB_LINK.STATE (f / 8) = 0 ∧ 9 ≤ s.boot.stage ∧ s.boot.stage ≤ 12 ∧ s.rd FAB_NODE.STRAPERR = 0 ∧
        !s.stby.inStby ∧ !(s.link (f / 8)).miswired ∧ !s.linkDark (f / 8) then
      .next (s.wr FAB_LINK.STATE 1 (f / 8))
    else .next s

/-! ### Alignment markers (R464) -/

/-- Bits from one alignment marker of a wavelength to the next: a frame. -/
def frameBits : Nat := 20480

/-- What an alignment marker says. -/
inductive Marker where
  | lane (n : Nat)
  /-- the fibre carries no traffic -/
  | idle
  deriving DecidableEq, Repr

/-- Does a fibre carry traffic? -/
def State.carriesTraffic (s : State) (f : Nat) : Bool := s.role f == 1 || s.role f == 3

/-- Is the fibre in use: not one of the two lanes that a 400GbE port leaves dark (R27)? -/
def State.fibUsed (s : State) (f : Nat) : Bool := !(136 ≤ f && f < 256) || decide ((f - 136) % 4 < s.ethLanes ((f - 136) / 4))

/-- The lane that a transmit ring carries: its own, or, for the spare ring, the one that is mirrored onto its line (R474 to R476). -/
def State.ringLane (s : State) (f ring : Nat) : Nat :=
  let x := s.fibre f
  let lane := nth (x.map f false) 9 ring
  if lane = 8 then
    match x.txMove with
    | some m => nth (x.map f false) 9 m.ring
    | none => if fibLine f && x.mirror.isSome then lineLane f else 8
  else lane

/-- Does base die `b` send on channel `k`? -/
def State.sendsOn (s : State) (b k : Nat) : Bool := ((s.chan k).pair.map (· / 4)) == some b

/-- The marker that the wavelength of a transmit ring carries; none where no light leaves on it, where the ring carries no lane of a fibre
that has traffic, or where its base die does not send on the channel (DESIGN CHOICE, safe, log entry 106). -/
def State.marker (s : State) (f ring : Nat) : Option Marker :=
  let lane := s.ringLane f ring
  if !(s.fibre f).txOk || !s.srcLit (ringSource s.variant f ring) || (!fibWave f && s.role f == 4) || !s.fibUsed f then none
  else if fibWave f then (if lane < 8 && s.sendsOn ((f - 256) / 64) (8 * waveOf f + lane) then some (.lane lane) else none)
  else if !s.carriesTraffic f then some .idle
  else if lane < 8 then some (.lane lane)
  else none

/-! ### The broker (R480, R481) -/

/-- Is channel `k` withdrawn or failed? -/
def State.chanOut (s : State) (k : Nat) : Bool :=
  (s.chan k).failed || !s.srcLit (k / 8 % s.variant.sources) || 3 ≤ s.srcStage (k / 8 % s.variant.sources)

/-- `spare` channels shared over `want` by largest remainder, never beyond want, ties to the lowest pair. -/
def shareOut (spare : Nat) (want : List (Nat × Nat)) : List (Nat × Nat) :=
  let tot := (want.map (·.2)).sum
  if tot ≤ spare then want
  else
    let part := want.map (fun e => (e.1, e.2 * spare / tot, e.2 * spare % tot))
    let left := spare - (part.map (fun e => e.2.1)).sum
    part.map (fun e =>
      let rank := (part.filter (fun g => e.2.2 < g.2.2 || (e.2.2 == g.2.2 && g.1 < e.1))).length
      (e.1, e.2.1 + (if rank < left then 1 else 0)))

/-- How many channels each pair is to hold (R480): `demand` gives the bytes queued for a pair and sent on it, by 4a + b. -/
def brokerTargets (pairs : List Nat) (pool : Nat) (demand : List Nat) : List (Nat × Nat) :=
  let n := pairs.length
  if pool < 16 * n then pairs.zipIdx.map (fun e => (e.1, pool / n + (if e.2 < pool % n then 1 else 0)))
  else
    let spare := pool - 16 * n
    let got := shareOut spare (pairs.map (fun q => (q, ceilDiv (nth demand 0 q) 2800000 - 16)))
    let rest := spare - (got.map (·.2)).sum
    got.zipIdx.map (fun e => (e.1.1, 16 + e.1.2 + rest / n + (if e.2 < rest % n then 1 else 0)))

/-- Where a channel is to be: its target pair while it moves, else the pair that holds it. -/
def Channel.goal (x : Channel) : Option Nat := x.moving.orElse (fun _ => x.pair)

/-- Channels that a pair holds or is to take, among `ks`. -/
def State.goalCount (s : State) (q : Nat) (ks : List Nat) : Nat := (ks.filter (fun k => (s.chan k).goal == some q)).length

/-- The channels in excess of a pair's target: all but its lowest-numbered ones. -/
def State.surplus (s : State) (ks : List Nat) (targets : List (Nat × Nat)) : List Nat :=
  ks.filter (fun k => match (s.chan k).goal with
    | none => true
    | some q =>
      decide (((targets.find? (fun e => e.1 == q)).map (·.2)).getD 0 ≤ s.goalCount q (ks.filter (· < k))))

/-- Channel `k` is given to pair `q`: at once where no pair holds it, otherwise by the move of R481. -/
def State.giveChan (s : State) (k q : Nat) : State :=
  s.modChan k (fun x => match x.pair with
    | none => { x with pair := some q, moving := none }
    | some p => { x with moving := if p = q then none else some q })

/-- The places that the targets leave open, one entry per channel. -/
def State.openPlaces (s : State) (kept : List Nat) (targets : List (Nat × Nat)) : List Nat :=
  (targets.map (fun e => List.replicate (e.2 - s.goalCount e.1 kept) e.1)).flatten

/-- The broker plans: every channel stays with its pair while the pair's target allows, and the rest move. -/
def execBrokerPlan (demand : List Nat) (s : State) : Outcome State Fault Refusal :=
  let pairs := brokerPairs s.variant
  if pairs.isEmpty ∨ !s.rdB PHO_CFG.BRK_EN ∨ !s.rdB PHO_STAT.TUNED ∨ s.stby.inStby then .next s
  else
    let all := List.range 512
    let s := (all.filter s.chanOut).foldl (fun s k => s.modChan k (fun x => { x with pair := none, moving := none })) s
    let pool := all.filter (fun k => !s.chanOut k)
    let targets := brokerTargets pairs pool.length demand
    let move := s.surplus pool targets
    let places := s.openPlaces (pool.filter (fun k => !move.contains k)) targets
    let s := (move.zip places).foldl (fun s e => s.giveChan e.1 e.2) s
    let s := s.wrs .PHO_BRK_STAT 0 0 0 [(PHO_BRK_STAT.POOL, pool.length),
      (PHO_BRK_STAT.FLOORED, b2n (pool.length < 16 * pairs.length))]
    .next (s.incWrap PHO_BRK_STAT.PLANS 1 0)

/-- A channel in motion is taken by its new pair (R481). -/
def execChannelMoveComplete (k : Nat) (s : State) : Outcome State Fault Refusal :=
  .next (s.modChan k (fun x => match x.moving with
    | some q => { x with pair := some q, moving := none }
    | none => x))

end Sys2Proof.Machine
end

