-- ==== Sys2Proof/Machine/Fabric.lean ====
section
/-! DEFINITION. The tensor fabric (chapter 11): routing, credits, combining of reads (R355 to R358), link training and doze, quiesce
and the buffer pool. -/

namespace Sys2Proof.Machine

open Host

/-! ### Links -/

/-- Does link `l` carry packets: UP, DEGRADED or DOZE (R393)? -/
def State.linkUp (s : State) (l : Nat) : Bool :=
  decide (l < s.variant.links) && (s.rd FAB_LINK.STATE l == 2 || s.rd FAB_LINK.STATE l == 3 || s.rd FAB_LINK.STATE l == 4)

/-- Do the tensor links send and accept packets: no UE or trip has stopped egress (R541, R524), the module is not fenced (R554), and
it is on the fabric (R387, R596)? -/
def State.linksRun (s : State) : Bool :=
  s.alive && !s.flt.egressOff && !s.rdB ROLL_STAT.FENCED && s.rdB FAB_NODE.ONFAB

/-- Slots of a receive pool that channel `vc` owns (R399). -/
def State.reserved (s : State) (vc : Nat) : Nat :=
  s.rd (nth [FAB_POOL.RSV0, FAB_POOL.RSV1, FAB_POOL.RSV2, FAB_POOL.RSV3] FAB_POOL.RSV0 vc)

/-- Slots of each receive pool, and those of them that the channels share. -/
def poolSlots : Nat := 512
/-- See `poolSlots`. -/
def State.sharedSlots (s : State) : Nat := poolSlots - ((List.range 4).map s.reserved).sum

/-- Free slots of the receive pool of link `l`: reserved ones of VC0 to VC3, and shared ones. -/
def State.freeSlots (s : State) (l : Nat) : List Nat :=
  let u := (s.link l).used
  (List.range 4).map (fun v => s.reserved v - nth u 0 v) ++ [s.sharedSlots - nth u 0 4]

/-- The slot that a packet of channel `vc` takes on its arrival at link `l` (R399): a reserved one of its channel, else a shared one
(`true`); none where the pool has neither. -/
def State.slotFor (s : State) (l vc : Nat) : Option Bool :=
  let n := s.freeSlots l
  if 0 < nth n 0 (vc % 4) then some false else if 0 < nth n 0 4 then some true else none

/-- Place of a slot's count among those of a pool. -/
def slotPlace (vc : Nat) (shared : Bool) : Nat := if shared then 4 else vc % 4

/-- A packet takes a slot of the receive pool of link `l`. -/
def State.slotTaken (s : State) (l vc : Nat) (shared : Bool) : State :=
  s.modLink l (fun k => { k with used := setNth k.used (slotPlace vc shared) (nth k.used 0 (slotPlace vc shared) + 1) })

/-- A slot of the receive pool of link `l` is free again: its credit goes back in a link control frame (R399). A packet of this module's
own holds none. -/
def State.slotFreed (s : State) (l vc : Nat) (shared : Bool) : State :=
  if l < 16 then
    (s.modLink l (fun k => { k with used := setNth k.used (slotPlace vc shared) (nth k.used 0 (slotPlace vc shared) - 1) })).ctrlSay l
      "credit" [vc, b2n shared]
  else s

/-- The sender's credits after a packet of channel `vc`: a reserved slot, else a shared one (R399). -/
def takeCredit (cr : List Nat) (vc : Nat) : Option (List Nat) :=
  if 0 < nth cr 0 vc then some (setNth cr vc (nth cr 0 vc - 1))
  else if 0 < nth cr 0 4 then some (setNth cr 4 (nth cr 0 4 - 1))
  else none

/-- Packets of channel `vc` queued for link `l`. -/
def State.queued (s : State) (l vc : Nat) : Nat := ((s.link l).queue.filter (fun w => w.pkt.vc == vc)).length

/-- A queued packet leaves on link `l`. One of VC0 or VC2 is marked CE where more than THRESH packets of its channel are queued
(R404). -/
def State.transmit (s : State) (l : Nat) (w : Waiting) (cr : List Nat) : State :=
  let mark := (w.pkt.vc == 0 || w.pkt.vc == 2) && decide (s.rd FAB_ECN.THRESH < s.queued l w.pkt.vc)
  let p := if mark then { w.pkt with ce := true } else w.pkt
  let s := s.modLink l (fun k => { k with queue := dropFirst (· == w) k.queue, credits := cr })
  let s := if mark then s.incWrap FAB_LCNT1.MARKED 1 l else s
  ({ s with fab := { s.fab with tx := s.fab.tx ++ [(l, p)] } }).slotFreed w.via w.pkt.vc w.shared

/-- Queued packets of link `l` leave in order, channel by channel, as credits allow. -/
def State.drainList (s : State) (l : Nat) (blocked : List Nat) : List Waiting → State
  | [] => s
  | w :: r =>
    if blocked.contains w.pkt.vc then State.drainList s l blocked r
    else match takeCredit (s.link l).credits w.pkt.vc with
      | some cr => State.drainList (s.transmit l w cr) l blocked r
      | none => State.drainList s l (w.pkt.vc :: blocked) r

/-- See `drainList`. -/
def State.drain (s : State) (l : Nat) : State :=
  if s.linksRun && s.linkUp l then s.drainList l [] (s.link l).queue else s

/-- A packet joins the output queue of link `l`. -/
def State.enqueue (s : State) (l : Nat) (p : Packet) (via : Nat) (shared : Bool) : State :=
  (s.modLink l (fun k => { k with queue := k.queue ++ [⟨p, s.now, via, shared⟩] })).drain l

/-- What stands in the stream of a hop (R407): a packet with its per-hop CRC, or a link control frame, whose bytes the spec does not lay
out. -/
inductive HopItem where
  | packet (bytes : List Byte)
  | ctrl (what : String) (args : List Nat)
  deriving DecidableEq, Repr

/-- The link control frames of link `l` that were sent when `k` packets had been. -/
def State.ctrlBehind (s : State) (l k : Nat) : List HopItem :=
  ((s.fab.ctrl.zip s.fab.ctrlAt).filter (fun e => e.2 == k && e.1.1 == l)).map (fun e => .ctrl e.1.2.1 e.1.2.2)

/-- The stream that link `l` has sent: packets and link control frames, in order (R407). -/
def State.hopStream (s : State) (l : Nat) : List HopItem :=
  s.ctrlBehind l 0 ++ s.fab.tx.zipIdx.flatMap (fun e =>
    (if e.1.1 = l then [.packet e.1.2.onHop] else []) ++ s.ctrlBehind l (e.2 + 1))

/-- A link can carry nothing any more: packets queued for it are discarded, their link not being usable (R393, R408). -/
def State.dropQueue (s : State) (l : Nat) : State :=
  let q := (s.link l).queue
  let s := (s.modLink l (fun k => { k with queue := [] })).incSat FAB_DROP.NOROUTE q.length 0
  q.foldl (fun s w => s.slotFreed w.via w.pkt.vc w.shared) s

/-- Hops that a packet may take (R396). -/
def State.maxHops (s : State) : Nat := max 1 (s.rd FAB_CFG.MAXHOPS)

/-- A packet one hop on. -/
def onward (p : Packet) : Packet := { p with hops := (p.hops + 1) % 16 }

/-- The links on which a message is flooded: every UP or DEGRADED link but the one it came in on (R549). -/
def State.floodLinks (s : State) (from_ : Nat) : List Nat :=
  (List.range s.variant.links).filter (fun l => l != from_ && (s.rd FAB_LINK.STATE l == 2 || s.rd FAB_LINK.STATE l == 3))

/-- A message is flooded, one hop on; one that is out of hops goes no further, and is counted (R396, R549). -/
def State.flood (s : State) (p : Packet) (from_ : Nat) : State :=
  let ls := s.floodLinks from_
  if ls.isEmpty then s
  else if p.hops = s.maxHops then s.incSat FAB_DROP.HOPS 1 0
  else ls.foldl (fun s l => s.enqueue l (onward p) 16 false) s

/-! ### Routing (R393, R396, R406, R551) -/

/-- Channel of a packet type (R406). -/
def typeVc (t : Nat) : Nat := if t ≤ 3 then 0 else if t ≤ 7 then 1 else if t = 9 then 2 else 3

/-- Message types of CTRL packets that are not reserved (R549, R448). -/
def ctrlKnown (aux : Nat) : Bool := (1 ≤ aux % 256 && aux % 256 ≤ 7) || aux % 256 == 0x10 || aux % 256 == 0x40

/-- Is the packet malformed (R406, R549)? -/
def badPacket (p : Packet) : Bool :=
  decide (10 < p.typ) || p.vc != typeVc p.typ || p.resv != 0 || decide (512 < p.len) || (p.typ == 10 && !ctrlKnown p.aux)

/-- Router slices of this module that a packet passes (R355): that of the link it came in on, or of the base die of its source here; and
that of the link it leaves on, or of the base die whose memory its address names. -/
def State.slicesOf (s : State) (from_ lk : Nat) (p : Packet) : List Nat :=
  let a := if from_ < 16 then from_ / 4 else srcBdie p.srcid
  let b := if lk < 16 then lk / 4 else foldSlice p.addr
  if b = a ∨ s.variant.bdies ≤ b then [a] else [a, b]

/-- May a router combine the read (R355)? -/
def State.combinable (s : State) (p : Packet) : Bool := p.typ == 0 && p.comb && !p.ord && !p.again && s.rdB WIN_GUARD.RDCOMB

/-- Does a read match an entry that still takes reads (R356)? -/
def CombEntry.takes (e : CombEntry) (p : Packet) (now : Nat) : Bool :=
  e.isOpen && decide (now < e.openAt + 64) && e.node == p.dst && e.addr == p.addr && e.len == p.len && e.epoch == p.epoch

/-- A combinable read at slice `b`: attached to an entry, so that it goes no further, or forwarded, opening an entry where the table
has room (R356, R358). The flag says whether it was attached. -/
def State.combine (s : State) (b : Nat) (p : Packet) : Bool × State :=
  if !s.combinable p then (false, s)
  else if (s.combs b).any (fun e => e.takes p s.now) then
    let f := fun (e : CombEntry) => { e with attached := e.attached ++ [p] }
    (true, (s.setCombs b (mapIf (fun e => e.takes p s.now) f (s.combs b))).incWrap WIN_COMB.COMBINED 1 b)
  else if s.tableRoom b = 0 then (false, s)
  else (false, s.setCombs b (s.combs b ++ [⟨p.dst, p.addr, p.len, p.epoch, p.src, p.srcid, p.seq, s.now, true, []⟩]))

/-- A read passes slices one by one, until one holds it. -/
def State.combineAll (s : State) (p : Packet) : List Nat → Bool × State
  | [] => (false, s)
  | b :: r =>
    let (held, s) := s.combine b p
    if held then (true, s) else State.combineAll s p r

/-- Is a packet the response to the read that opened an entry? -/
def CombEntry.answers (e : CombEntry) (p : Packet) : Bool :=
  e.node == p.src && e.src == p.dst && e.srcid == p.srcid && e.seq == p.seq && e.epoch == p.epoch

/-- A copy of a response for an attached read, under that read's own number. The end-to-end CRC is the copy's own; that of a response
which does not hold stays as it is. -/
def copyFor (p a : Packet) : Packet :=
  let c := { p with dst := a.src, srcid := a.srcid, seq := a.seq }
  if p.crcOk then c.sealed else c

/-- Does a response that came in on link `from_` and goes out on link `lk` (16 or more: from or to this module) pass slice `b`, where entry
`e` stands: that of a link, or of the base die whose memory was read, or of the base die of its source here (R356)? -/
def CombEntry.passed (e : CombEntry) (p : Packet) (from_ lk b : Nat) : Bool :=
  b == (if from_ < 16 then from_ / 4 else foldSlice e.addr) || b == (if lk < 16 then lk / 4 else srcBdie p.srcid)

/-- A response, positive or negative, passes back through slices: in each, a copy goes to every read attached to its entry, and the entry
is free (R351, R356, R357). -/
def State.uncombine (s : State) (from_ lk : Nat) (p : Packet) : State :=
  if p.typ ≠ 4 ∧ p.typ ≠ 7 then s
  else (List.range s.variant.bdies).foldl (fun s b =>
    let mine := fun (e : CombEntry) => e.answers p && e.passed p from_ lk b
    let hit := (s.combs b).filter mine
    if hit.isEmpty then s
    else
      let copies := (hit.map (fun e => e.attached.map (copyFor p))).flatten
      let s := s.setCombs b ((s.combs b).filter (fun e => !mine e))
      { s with fab := { s.fab with local_ := s.fab.local_ ++ copies } }) s

/-- Where a packet goes next: the entry of the routing table, but an operation for the module's own node stays in the module (R352,
R393). -/
def State.hopFor (s : State) (from_ : Nat) (p : Packet) : Nat :=
  if 16 ≤ from_ ∧ p.dst = s.node then 31 else s.rd FAB_RT.LINK 0 p.dst

/-- The router's decision for a packet that came in on link `from_` (16: from this module), where it holds a slot, shared or not. -/
def State.route (s : State) (from_ : Nat) (p : Packet) (shared : Bool) : State :=
  let lk := s.hopFor from_ p
  if badPacket p then (s.incSat FAB_DROP.BADPKT 1 0).slotFreed from_ p.vc shared
  else if s.excluded p.src && !(p.typ == 10 && p.aux % 256 == 6) then (s.incSat ROLL_STAT.XRX 1 0).slotFreed from_ p.vc shared
  else if lk = 31 then
    let s := s.uncombine from_ lk p
    let (held, s) := s.combineAll p (s.slicesOf from_ lk p)
    (if held then s else { s with fab := { s.fab with rx := s.fab.rx ++ [p] } }).slotFreed from_ p.vc shared
  else if !s.linkUp lk || !s.linksRun then (s.incSat FAB_DROP.NOROUTE 1 0).slotFreed from_ p.vc shared
  else if p.hops = s.maxHops then (s.incSat FAB_DROP.HOPS 1 0).slotFreed from_ p.vc shared
  else
    let s := s.uncombine from_ lk p
    let (held, s) := s.combineAll p (s.slicesOf from_ lk p)
    if held then s.slotFreed from_ p.vc shared else s.enqueue lk (onward p) from_ shared

/-- A packet comes in on a link that carries packets, where the link's receive pool has a slot for it. -/
def State.arrive (s : State) (link : Nat) (p : Packet) : State :=
  if s.linksRun && s.linkUp link then
    match s.slotFor link p.vc with
    | some shared => (s.slotTaken link p.vc shared).route link p shared
    | none => s
  else s

/-- A packet reaches the router: on a link that carries packets, or from an endpoint of this module (link 16 or more). `corr` says that
a word of its buffer was read with a correctable error (R538). -/
def execPacketForward (link : Nat) (p : Packet) (corr : Bool) (s : State) : Outcome State Fault Refusal :=
  let s := if corr then s.incSat FLT_CE_SUM.ROUTER 1 0 else s
  if link < 16 then .next (s.arrive link p)
  else if s.fab.local_.contains p && s.alive then
    .next (({ s with fab := { s.fab with local_ := dropFirst (· == p) s.fab.local_ } }).route 16 p false)
  else .next s

/-- Packet `i` of a link's queue has waited STUCK us without a credit and is discarded; one of VC3 never is (R401). -/
def execPacketDiscardStuck (link i : Nat) (s : State) : Outcome State Fault Refusal :=
  match (s.link link).queue[i]? with
  | none => .next s
  | some w =>
    if w.pkt.vc = 3 ∨ s.now < w.since + max 1 (s.rd FAB_CFG.STUCK) * 1000 ∨
        (takeCredit (s.link link).credits w.pkt.vc).isSome then .next s
    else .next (((s.modLink link (fun k => { k with queue := k.queue.eraseIdx i })).incSat FAB_DROP.STUCK 1 0).slotFreed
      w.via w.pkt.vc w.shared)

/-! ### Credits (R399) -/

/-- A credit comes back for a reserved slot of a channel, or for a shared slot. -/
def execCreditReturn (link vc : Nat) (shared : Bool) (s : State) : Outcome State Fault Refusal :=
  if !s.linkUp link then .next s
  else
    let i := if shared then 4 else vc % 4
    let up := fun (c : List Nat) => let c := if c.isEmpty then [0, 0, 0, 0, 0] else c
      setNth c i (nth c 0 i + 1)
    .next ((s.modLink link (fun k => { k with credits := up k.credits })).drain link)

/-- Each end of a link sends the absolute free counts of its receive pool, VC0 to VC3 and shared, and takes the other end's, which replace
its credits. -/
def execCreditRefresh (link : Nat) (free : List Nat) (s : State) : Outcome State Fault Refusal :=
  if !s.linkUp link then .next s
  else .next (((s.modLink link (fun k => { k with credits := (free ++ [0, 0, 0, 0, 0]).take 5 })).ctrlSay link "free"
    (s.freeSlots link)).drain link)

/-! ### Hops (R407, R423, R490) -/

/-- A fibre's measurements: FEC symbols corrected, received power of its weakest lane, and smallest eye height. -/
def State.fibreSeen (s : State) (f : Nat) (m : Nat × Nat × Nat) : State :=
  (s.incWrap PHO_ERR.CORR m.1 0 f).wrs .PHO_EYE 0 f 0 [(PHO_EYE.RXPWR, m.2.1), (PHO_EYE.EYE, m.2.2)]

/-- A packet with its per-hop CRC comes out of the codewords of link `l` (R407). One whose CRC fails is discarded and counted. -/
def State.hopIn (s : State) (l : Nat) (d : List Byte) : State :=
  if !hopOk d then s.incWrap FAB_LCNT1.HOPCRC 1 l
  else s.arrive l (packetOf (d.take (d.length - 4)))

/-- Payload bits of a codeword of RS(544,514), and the symbol errors that it corrects (R407). -/
def fecBits : Nat := 5140
/-- See `fecBits`. -/
def fecLimit : Nat := 15

/-- Is one of the codewords that bits [a, b) of their payloads overlap uncorrectable? `errs` gives the symbol errors of each. -/
def fecBad (errs : List Nat) (a b : Nat) : Bool :=
  errs.zipIdx.any (fun e => decide (fecLimit < e.1) && decide (a < fecBits * (e.2 + 1)) && decide (fecBits * e.2 < b))

/-- What link `l` receives in codewords with these errors: packets, and link control frames (`true`), end to end from bit `x` on, `lead` bits of
the first having come in codewords before, one of which was uncorrectable where `lost`. What overlaps an uncorrectable codeword is discarded;
what does not end here waits for the codewords to come. -/
def State.hopItems (s : State) (l : Nat) (errs : List Nat) (x lead : Nat) (lost : Bool) : List (List Byte × Bool) → State
  | [] => s.modLink l (fun k => { k with rxLost := lost || fecBad errs x (fecBits * errs.length) })
  | (d, ctrl) :: r =>
    let e := x + (8 * d.length - lead)
    if fecBits * errs.length < e then s.modLink l (fun k => { k with rxLost := lost || fecBad errs x (fecBits * errs.length) })
    else State.hopItems (if ctrl || lost || fecBad errs x e then s else s.hopIn l d) l errs e 0 false r

/-- Codewords come in on a link, with `errs` symbol errors: corrected and uncorrectable ones are counted, and the packets in them that come
through reach the router; `lead` as in hopItems. What link control frames say is told by the rows that they belong to. `fibres` holds
measurements of receive fibres, those of the halter link and the Ethernet ports among them (R490): fibre, corrected symbols, power, eye. -/
def execHopFrameReceive (link : Nat) (errs : List Nat) (lead : Nat) (hops : List (List Byte × Bool)) (fibres : List (Nat × Nat × Nat × Nat))
    (s : State) : Outcome State Fault Refusal :=
  let s := (fibres.filter (fun e => decide (e.1 < 256) && fibExists s.variant e.1)).foldl (fun s e => s.fibreSeen e.1 e.2) s
  if !s.linkUp link then .next s
  else
    let s := s.incWrap FAB_LCNT0.CORR (errs.filter (fun e => decide (0 < e) && decide (e ≤ fecLimit))).length link
    let s := s.incWrap FAB_LCNT0.UNCORR (errs.filter (fun e => decide (fecLimit < e))).length link
    .next (s.hopItems link errs 0 lead (s.link link).rxLost hops)

/-! ### Training (R387 to R391) -/

/-- The coordinates W, X, Y, Z of a node. -/
def coords (n : Nat) : List Nat := [bits n 8 6, bits n 5 4, bits n 3 2, bits n 1 0]

/-- In how many coordinates do two nodes differ? -/
def coordDiff (a b : Nat) : Nat := (((coords a).zip (coords b)).filter (fun e => e.1 != e.2)).length

/-- Is fibre `f` tuned on both sides and not failed? -/
def State.fibWorks (s : State) (f : Nat) : Bool := (s.fibre f).txOk && (s.fibre f).rxOk && s.role f != 4 && s.role f != 0

/-- The data position of fibre `f` of a link as it trains. At its first training fibre f carries position f, and the spare fibre the lowest
position without a fibre, unless its source has faded (R465, R471, R477). Later the fibres that work keep what they have: a link does
not widen again before a POR or MRST (R479). -/
def State.firstPos (s : State) (l f : Nat) : Option Nat :=
  let k := 8 * l + f
  if (List.range 5).any (fun g => (s.fibre (8 * l + g)).pos.isSome || (s.fibre (8 * l + g)).out) then
    (if s.fibWorks k then (s.fibre k).pos else none)
  else if !s.fibWorks k then none
  else if f < 4 then some f
  else if s.srcStage (fibSource s.variant k) < 2 then (List.range 4).find? (fun g => !s.fibWorks (8 * l + g))
  else none

/-- The data positions of link `l` are given out, and the fibres that carry them meet the stages of their sources (R476). -/
def State.givePositions (s : State) (l : Nat) : State :=
  let ps := (List.range 5).map (s.firstPos l)
  let s := (List.range 5).foldl (fun s f => s.modFibre (8 * l + f) (fun x =>
    { x.alone with pos := nth ps none f, out := x.out || (x.pos.isSome && (nth ps none f).isNone) })) s
  let s := (List.range 5).foldl (fun s f => match (s.fibre (8 * l + f)).pos with
    | some p => s.setRole (8 * l + f) 1 p
    | none => if s.role (8 * l + f) = 1 ∨ s.role (8 * l + f) = 3 then s.setRole (8 * l + f) 2 0 else s) s
  s.meetStages (s.carrying l)

/-- A link's register after training. -/
def State.setLink (s : State) (l st w peer pl : Nat) : State :=
  s.wrs .FAB_LINK l 0 0 [(FAB_LINK.STATE, st), (FAB_LINK.WIDTH, w), (FAB_LINK.PEER, peer), (FAB_LINK.PEERLINK, pl)]

/-- Link `l` begins anew: packets queued for it are gone, and so are its credits and what its receive pool held. -/
def State.linkFresh (s : State) (l full : Nat) : State :=
  (s.dropQueue l).modLink l (fun k => { k with full := full, credits := [], used := [0, 0, 0, 0, 0], rxLost := false })

/-- A link goes down. -/
def State.linkDown (s : State) (l : Nat) : State := (s.setLink l 0 0 0 0).linkFresh l 0

/-- Link `l` is MISWIRED, until the next POR or MRST (R391). -/
def State.miswire (s : State) (l : Nat) : State :=
  ((s.setLink l 5 0 0 0).modLink l (fun k => { k with miswired := true })).faultNote 7 .FAB_LINK l

/-- The module leaves the fabric: its tensor links go down, MISWIRED ones apart (R387). -/
def State.leaveFabric (s : State) : State :=
  (List.range s.variant.links).foldl (fun s l => if s.rd FAB_LINK.STATE l = 5 then s else s.linkDown l)
    (s.wr FAB_NODE.ONFAB 0)

/-- Is a peer already reached by another link than `l`? -/
def State.peerTaken (s : State) (l peer : Nat) : Bool :=
  (List.range s.variant.links).any (fun k => k != l && s.linkUp k && s.rd FAB_LINK.PEER k == peer)

/-- Link training (R391): the peer's identity, variant (as part-number digits) and link number. -/
def execLinkTraining (link peer peerVariant peerLink : Nat) (s : State) : Outcome State Fault Refusal :=
  let st := s.rd FAB_LINK.STATE link
  if s.variant.links ≤ link ∨ !(st == 0 || st == 1 || st == 6) ∨ s.boot.stage < 9 ∨ 12 < s.boot.stage ∨
      s.rd FAB_NODE.STRAPERR ≠ 0 ∨ !s.alive ∨ s.stby.inStby ∨ s.linkHeld link then .next s
  else if peer = s.node then .next (((s.leaveFabric).wr FAB_NODE.STRAPERR 3).miswire link)
  else if coordDiff peer s.node ≠ 1 ∨ peerVariant ≠ s.variant.part ∨ s.peerTaken link peer then .next (s.miswire link)
  else
    let s := s.givePositions link
    let n := (s.carrying link).length
    let s := (s.setLink link (widthState n) n peer (peerLink % 16)).linkFresh link n
    .next (if n = 4 then s else s.faultNote 7 .FAB_LINK link)

/-! ### Doze (R392, R478) -/

/-- A link whose payload has stayed below 1 % for `lowUs` us dozes. -/
def execLinkDozeEntry (link lowUs : Nat) (s : State) : Outcome State Fault Refusal :=
  let st := s.rd FAB_LINK.STATE link
  let t := s.rd FAB_CFG.DOZE
  if s.variant.links ≤ link ∨ (st ≠ 2 ∧ st ≠ 3) ∨ t = 0 ∨ lowUs < t then .next s
  else .next ((s.wrs .FAB_LINK link 0 0 [(FAB_LINK.STATE, 4), (FAB_LINK.WIDTH, 1)]).dozeRoles link (s.dozeRun link))

/-- Is a queued packet other than a heartbeat? -/
def Waiting.wakes (w : Waiting) : Bool := !(w.pkt.typ == 10 && w.pkt.aux % 256 == 1)

/-- A dozing link wakes once either end holds sixteen packets for it; fibres of faded sources then meet their stage. -/
def execLinkDozeWake (link peerQueued : Nat) (s : State) : Outcome State Fault Refusal :=
  if s.rd FAB_LINK.STATE link ≠ 4 ∨
      (((s.link link).queue.filter Waiting.wakes).length < 16 ∧ peerQueued < 16) then .next s
  else
    let n := (s.link link).full
    let s := s.wrs .FAB_LINK link 0 0 [(FAB_LINK.STATE, widthState n), (FAB_LINK.WIDTH, n)]
    let fs := s.carrying link
    let s := fs.foldl (fun s f =>
      if s.role f = 4 then s else (s.setRole f 1 ((s.fibre f).pos.getD 0)).modFibre f Fibre.alone) s
    let s := fs.foldl (fun s f => if s.role f = 4 ∧ (s.mirrorOf link f).isNone then s.losePos f else s) s
    .next (s.meetStages fs)

/-! ### Quiesce and the pool (R397, R400) -/

/-- DRAINED (R397). -/
def State.drained (s : State) : Bool :=
  s.rdB FAB_CTL.QUIESCE && s.fab.local_.all (fun p => p.vc == 3) &&
    s.fab.links.all (fun e => e.2.queue.all (fun w => w.pkt.vc == 3)) && s.win.ops.all (fun o => o.stage != 3)

/-- A write of FAB_CTL: new packets of VC0 and VC2 stop, or go on; the timeouts of those held back did not run meanwhile. -/
def State.writeFabCtl (s : State) (v : W64) : State :=
  let was := s.rdB FAB_CTL.QUIESCE
  let on := bitB v.toNat 0
  let s := s.wr FAB_CTL.QUIESCE (b2n on)
  if on then (if was then s else { s with fab := { s.fab with quiesceAt := some s.now } })
  else match s.fab.quiesceAt with
    | none => s
    | some t =>
      let shift := fun (o : RemOp) => if o.stage = 3 then o else { o with issued := o.issued + (s.now - max t o.issued) }
      { s with fab := { s.fab with quiesceAt := none }, win := { s.win with ops := s.win.ops.map shift } }.pump

/-- A write of FAB_CTL.QUIESCE. -/
def execFabQuiesce (v : W64) (s : State) : Outcome State Fault Refusal := .next (s.onWrite (fun s => s.writeFabCtl v))

/-- A write of FAB_POOL takes effect while drained and within R400's bounds; another is ignored and sets CFGERR. -/
def State.writeFabPool (s : State) (v : W64) : State :=
  let rsv := [FAB_POOL.RSV0, FAB_POOL.RSV1, FAB_POOL.RSV2, FAB_POOL.RSV3].map (fun f => f.get v)
  if s.drained ∧ rsv.sum ≤ 448 ∧ 16 ≤ FAB_POOL.RSV3.get v then s.writeFields .FAB_POOL 0 0 0 v else s.wr FAB_STAT.CFGERR 1

/-- A write of FAB_POOL. -/
def execFabPoolWrite (v : W64) (s : State) : Outcome State Fault Refusal := .next (s.onWrite (fun s => s.writeFabPool v))

end Sys2Proof.Machine
end

