-- ==== Sys2Proof/Machine/Ethernet.lean ====
section
/-! DEFINITION. The ordinary network (R409 to R413, R424): the Ethernet ports and their RoCEv2 responder. -/

namespace Sys2Proof.Machine

open Host

/-! ### Ports (R409, R424) -/

/-- A write of ETH_CFG: SPEED keeps its value while EN is 1; a port that is enabled trains and runs. -/
def State.writeEthCfg (s : State) (e : Nat) (v : W64) : State :=
  let was := s.rdB ETH_CFG.EN e
  let on := bitB v.toNat 0
  let s := s.wrs .ETH_CFG e 0 0 [(ETH_CFG.EN, b2n on), (ETH_CFG.QPTMO, ETH_CFG.QPTMO.get v)]
  let s := if was then s else s.wr ETH_CFG.SPEED (ETH_CFG.SPEED.get v) e
  if on = was then s else s.wr ETH_STAT.LINK (b2n (on && s.lanesOk e)) e

/-- A write of ETH_CFG. -/
def execEthCfgWrite (port : Nat) (v : W64) (s : State) : Outcome State Fault Refusal :=
  if s.variant.ethPorts ≤ port then .next s else .next (s.onWrite (fun s => s.writeEthCfg port v))

/-- Does the RoCEv2 responder of port `e` run (R541, R554)? -/
def State.roceOn (s : State) (e : Nat) : Bool :=
  decide (e < s.variant.ethPorts) && s.alive && !s.flt.egressOff && !s.rdB ROLL_STAT.FENCED

/-- Does it take requests: its port has a link too? -/
def State.roceUp (s : State) (e : Nat) : Bool := s.roceOn e && s.rdB ETH_STAT.LINK e

/-- Port `e` answers. -/
def State.ethSay (s : State) (e : Nat) (o : EthOut) : State := { s with fab := { s.fab with ethOut := s.fab.ethOut ++ [(e, o)] } }

/-! ### Queue pairs (R411) -/

/-- A queue-pair entry as read. -/
structure QpEnt where
  at_ : Nat
  /-- where its answers go -/
  dest : QpDest
  w0 : Nat
  w5 : Nat
  st : Nat
  pmtu : Nat
  event : Nat
  epsn : Nat
  ring : Nat
  slots : Nat
  next : Nat
  bad : Bool
  deriving DecidableEq, Repr

/-- A queue-pair entry of the words at address `a`. -/
def qpEnt (v : Variant) (a : Nat) (w : List W64) : QpEnt :=
  let ring := cw w 4
  let slots := bits (cw w 5) 15 0
  let next := bits (cw w 5) 31 16
  let six := bitB (cw w 0) 2
  { at_ := a
    dest := ⟨bits (cw w 0) 28 5, six, if six then (w64 (cw w 2), w64 (cw w 3)) else (w64 (bits (cw w 2) 31 0), 0),
      bits (cw w 6) 15 0, bits (cw w 6) 21 16⟩
    w0 := cw w 0
    w5 := cw w 5
    st := bits (cw w 0) 1 0
    pmtu := bits (cw w 0) 4 3
    event := bits (cw w 0) 44 29
    epsn := bits (cw w 1) 23 0
    ring := ring
    slots := slots
    next := next
    bad := bits (cw w 0) 63 45 != 0 || bits (cw w 1) 63 24 != 0 || ring % 4096 != 0 || slots == 0 ||
      !inE v ring (slots * 4096) || decide (slots ≤ next) || bits (cw w 5) 63 32 != 0 || bits (cw w 6) 63 22 != 0 ||
      cw w 7 != 0 }

/-- Path MTU of a queue pair, in bytes (R411). -/
def QpEnt.mtu (x : QpEnt) : Nat := 1024 * 2 ^ x.pmtu

/-- Volatile state of a queue pair. -/
def State.qp (s : State) (e q : Nat) : Qp := s.fab.qps.get {} (e * 256 + q)
/-- The state with a queue pair's volatile state changed. -/
def State.modQp (s : State) (e q : Nat) (f : Qp → Qp) : State :=
  { s with fab := { s.fab with qps := s.fab.qps.upd {} (e * 256 + q) f } }

/-- Queue pair `q` of port `e` moves to ERROR. -/
def State.qpError (s : State) (e q : Nat) (x : QpEnt) : State :=
  ((s.lWrite x.at_ (leBytes 8 (setBits x.w0 1 0 2))).modQp e q (fun y => { y with openAt := none })).incSat ETH_STAT.QPERR 1 e

/-- The entry of a queue pair, where it is READY; a malformed one moves to ERROR. -/
def State.qpReady (s : State) (e q : Nat) : Option QpEnt × State :=
  let a := ETH_TBL.QPT.get (s.reg .ETH_TBL e 0 0) / 64 * 64 + 64 * q
  if 256 ≤ q ∨ !inL s.variant a 64 then (none, s)
  else
    let r := s.lRead a 64 .outside
    if r.ue then (none, r.st)
    else
      let x := qpEnt s.variant a (words64 8 r.data)
      if x.st ≠ 1 ∨ x.pmtu = 3 then (none, r.st)
      else if x.bad then (none, r.st.qpError e q x)
      else (some x, r.st)

/-- EPSN moves on by `k` packets. -/
def State.qpStep (s : State) (x : QpEnt) (k : Nat) : State := s.lWrite (x.at_ + 8) (leBytes 8 ((x.epsn + k) % 2 ^ 24))

/-- An ECN-marked arrival is answered with a CNP, at most one per queue pair per 50 us (R410). -/
def State.cnp (s : State) (e q : Nat) (x : QpEnt) (ecn : Bool) : State :=
  let due := match (s.qp e q).lastCnp with
    | none => true
    | some t => decide (t + 50000 ≤ s.now)
  if ecn && due then (s.ethSay e (.cnp x.dest q)).modQp e q (fun y => { y with lastCnp := some s.now }) else s

/-! ### Regions (R412) -/

/-- Does a request pass its region entry's checks? The fields of word 1 are read as the entry's layout gives them. -/
def State.regionOk (s : State) (e rkey addr len : Nat) (write : Bool) : Bool × State :=
  let t := ETH_TBL.MRT.get (s.reg .ETH_TBL e 0 0) / 16 * 16 + 16 * (rkey % 1024)
  if !inL s.variant t 16 then (false, s)
  else
    let r := s.lRead t 16 .outside
    let w := words64 2 r.data
    let base := cw w 0
    let n := bits (cw w 1) 39 0
    (!r.ue && bits (cw w 1) 63 32 == rkey && n != 0 && decide (base ≤ addr) && decide (addr + len ≤ base + n) &&
      inE s.variant base n && bitB (cw w 1) (if write then 41 else 40), r.st)

/-- A remote access error is answered and counted. -/
def State.accessNak (s : State) (e : Nat) (r : RoceReq) (x : QpEnt) : State :=
  (s.ethSay e (.nakAccess x.dest r.qp r.psn)).incSat ETH_STAT.ACCERR 1 e

/-! ### Requests (R410, R413) -/

/-- A request of a READY queue pair, by its sequence number: the expected one acts, one ahead is answered with a sequence NAK, and one
behind is a duplicate. -/
def State.roce (s : State) (e : Nat) (r : RoceReq) (act dup : State → QpEnt → State) : State :=
  if !s.roceUp e then s
  else
    let (x, s) := s.qpReady e r.qp
    match x with
    | none => s
    | some x =>
      let s := s.cnp e r.qp x r.ecn
      let d := (r.psn + 2 ^ 24 - x.epsn) % 2 ^ 24
      if d = 0 then act s x
      else if d < 2 ^ 23 then s.ethSay e (.nakSeq x.dest r.qp x.epsn)
      else dup s x

/-- A message's packet goes into place; the last one is acknowledged. `fin` is what the end of the message does. -/
def State.roceData (s : State) (e : Nat) (r : RoceReq) (x : QpEnt) (fin : State → Nat → State) : State :=
  let q := s.qp e r.qp
  let n := q.openLen + r.data.length
  let s := s.eWrite (q.openAddr + q.openLen) r.data 0 .outside
  let s := s.modQp e r.qp (fun y => { y with openLen := n, openAt := if r.last then none else some s.now })
  let s := s.qpStep x 1
  if r.last then (fin s n).ethSay e (.ack x.dest r.qp r.psn) else s

/-- A message begins. -/
def State.qpOpen (s : State) (e q addr total : Nat) (send : Bool) : State :=
  s.modQp e q (fun y => { y with openAt := some s.now, openLen := 0, openTotal := total, openAddr := addr, openSend := send })

/-- Does a packet of this kind follow what the queue pair has open? -/
def State.follows (s : State) (e : Nat) (r : RoceReq) (send : Bool) : Bool :=
  let q := s.qp e r.qp
  if r.first then q.openAt.isNone else q.openAt.isSome && q.openSend == send

/-- Does a packet's payload suit the path MTU: no longer, and just as long in every packet but a message's last (R410)? -/
def QpEnt.fits (x : QpEnt) (r : RoceReq) : Bool := if r.last then decide (r.data.length ≤ x.mtu) else r.data.length == x.mtu

/-- An invalid request is answered, and the message that was open is not. -/
def State.invalidNak (s : State) (e : Nat) (r : RoceReq) (x : QpEnt) : State :=
  (s.modQp e r.qp (fun y => { y with openAt := none })).ethSay e (.nakInvalid x.dest r.qp r.psn)

/-- The expected packet of a WRITE. One that does not suit the path MTU is an invalid request (DESIGN CHOICE, unsafe, log entry 89). -/
def State.writeAct (s : State) (e : Nat) (r : RoceReq) (x : QpEnt) : State :=
  if s.frozen then s
  else if !s.follows e r false then s.qpError e r.qp x
  else if !x.fits r then s.invalidNak e r x
  else
    let (ok, s) := if r.first then s.regionOk e r.rkey r.addr r.len true else (true, s)
    if !ok then s.accessNak e r x
    else
      let s := if r.first then s.qpOpen e r.qp r.addr r.len false else s
      let q := s.qp e r.qp
      let n := q.openLen + r.data.length
      if q.openTotal < n ∨ (r.last ∧ n ≠ q.openTotal) then s.qpError e r.qp x
      else s.roceData e r x (fun s _ => s)

/-- RDMA WRITE. -/
def execRoceWrite (port : Nat) (r : RoceReq) (s : State) : Outcome State Fault Refusal :=
  .next (s.roce port r (fun s x => s.writeAct port r x) (fun s x => s.ethSay port (.ack x.dest r.qp r.psn)))

/-- Packets of the response to a READ of `n` bytes. -/
def QpEnt.readPackets (x : QpEnt) (n : Nat) : Nat := max 1 (ceilDiv n x.mtu)

/-- The data of a READ leave, in packets of the path MTU, under sequence numbers that follow one another (R410). -/
def State.readAnswer (s : State) (e : Nat) (r : RoceReq) (x : QpEnt) : State :=
  let d := s.eRead r.addr r.len 0 false .outside
  let n := x.readPackets r.len
  if d.ue then d.st
  else (List.range n).foldl (fun s k =>
    s.ethSay e (.readResp x.dest r.qp ((r.psn + k) % 2 ^ 24) ((d.data.drop (x.mtu * k)).take x.mtu) (k == 0) (k + 1 == n))) d.st

/-- The expected packet of a READ: it takes one sequence number per packet of its response. -/
def State.readAct (s : State) (e : Nat) (r : RoceReq) (x : QpEnt) : State :=
  if !(r.first && r.last) || !s.follows e r false then s.qpError e r.qp x
  else
    let (ok, s) := s.regionOk e r.rkey r.addr r.len false
    if !ok then s.accessNak e r x
    else (s.qpStep x (x.readPackets r.len)).readAnswer e r x

/-- A duplicate READ is read again (R410). -/
def State.readAgain (s : State) (e : Nat) (r : RoceReq) (x : QpEnt) : State :=
  let p := s.regionOk e r.rkey r.addr r.len false
  if p.1 then p.2.readAnswer e r x else p.2.accessNak e r x

/-- RDMA READ. -/
def execRoceRead (port : Nat) (r : RoceReq) (s : State) : Outcome State Fault Refusal :=
  .next (s.roce port r (fun s x => s.readAct port r x) (fun s x => s.readAgain port r x))

/-- The end of a SEND of `n` bytes: padding, length word, event, and the next slot. -/
def State.sendEnd (s : State) (x : QpEnt) (n : Nat) : State :=
  let slot := x.ring + 4096 * x.next
  let s := s.eWrite (slot + n) (List.replicate (ceilDiv n 8 * 8 - n) 0) 0 .outside
  let s := s.eWrite (slot + 4032) (leBytes 8 n) 0 .outside
  let s := s.lWrite (x.at_ + 40) (leBytes 8 (setBits x.w5 31 16 (if x.next + 1 = x.slots then 0 else x.next + 1)))
  s.addEvt x.event 1

/-- The expected packet of a SEND. -/
def State.sendAct (s : State) (e : Nat) (r : RoceReq) (x : QpEnt) : State :=
  if s.frozen then s
  else if !s.follows e r true then s.qpError e r.qp x
  else if !x.fits r then s.invalidNak e r x
  else
    let slot := x.ring + 4096 * x.next
    let l := s.eRead (slot + 4032) 8 0 false .outside
    if l.ue then l.st
    else if r.first ∧ ofLe l.data ≠ 0 then (l.st.ethSay e (.nakRnr x.dest r.qp r.psn)).incSat ETH_STAT.RNR 1 e
    else
      let s := if r.first then l.st.qpOpen e r.qp slot 4032 true else l.st
      if 4032 < (s.qp e r.qp).openLen + r.data.length then s.invalidNak e r x
      else s.roceData e r x (fun s n => s.sendEnd x n)

/-- SEND. -/
def execRoceSend (port : Nat) (r : RoceReq) (s : State) : Outcome State Fault Refusal :=
  .next (s.roce port r (fun s x => s.sendAct port r x) (fun s x => s.ethSay port (.ack x.dest r.qp r.psn)))

/-- A queue pair with a part of a message and no packet of it for QPTMO ms moves to ERROR; the bytes already written are undefined
(R413); the port's link need not be up. -/
def execQpTransportTimeout (port qp : Nat) (s : State) : Outcome State Fault Refusal :=
  let q := s.qp port qp
  match q.openAt with
  | none => .next s
  | some t =>
    if !s.roceOn port ∨ s.now < t + max 1 (s.rd ETH_CFG.QPTMO port) * 1000000 then .next s
    else
      let (x, s) := s.qpReady port qp
      match x with
      | none => .next (s.modQp port qp (fun y => { y with openAt := none }))
      | some x =>
        let (d, s) := s.freeBytes q.openLen
        .next ((s.eWrite q.openAddr d 0 .outside).qpError port qp x)

end Sys2Proof.Machine
end

