-- ==== Sys2Proof/Machine/DieLinks.lean ====
section
/-! DEFINITION. Die interfaces (chapter 14): bring-up, DRST, guests and their services, margin, loopback, and the test port. -/

namespace Sys2Proof.Machine

open Host

/-! ### Bring-up and reset (R496 to R499) -/

/-- Does a capability block declare a guest (R499)? -/
def capGuest (k : CapBlock) : Bool := k.vendor != 0x4A4E || k.guest

/-- Is the die held in DRST for what it declares (R499)? -/
def capHeld (k : CapBlock) : Bool :=
  capGuest k && (!k.therm || k.jdp != 1 || k.stack == 0 || k.stack == 3 || decide (12 < k.epwin))

/-- DPORT_CAP of a capability block (R507). -/
def State.setCap (s : State) (d : Nat) (k : CapBlock) : State :=
  s.wrs .DPORT_CAP d 0 0 [(DPORT_CAP.VENDOR, k.vendor), (DPORT_CAP.GUEST, b2n k.guest), (DPORT_CAP.STACK, k.stack),
    (DPORT_CAP.REV, k.rev), (DPORT_CAP.JDP, k.jdp), (DPORT_CAP.SVC_E, b2n k.svcE), (DPORT_CAP.SVC_COPY, b2n k.svcCopy),
    (DPORT_CAP.SVC_EVT, b2n k.svcEvt), (DPORT_CAP.THERM, b2n k.therm), (DPORT_CAP.EPWIN, k.epwin)]

/-- A die is released (R496): its SRAM is filled and its registers stand at their reset values (R20, R297), its base die loads its timebase
copy (R39), it runs, and the cores of a Joenier die start their return pass (R547). Before boot step 7 the pass waits for that step
(R581). -/
def State.releaseDie (s : State) (d : Nat) : State :=
  let s := ((dieCores d).foldl (fun s c => s.resetCore c kDRST) s).resetRegs kDRST (scopeDie d)
  let s := (s.wrBit GLB_DIEMAP.RELEASED d true).wr DPORT_STAT.STATE 4 d
  let s := (s.modDie d (fun x => { x with inDrst := false, reportAt := s.now })).loadTime d
  if s.dieGuest d || s.boot.stage < 8 then s
  else (dieCores d).foldl (fun s c => if s.gated c then s else s.returnPass c) s

/-- May the base die bring site `d` up now: the site is in DRST, not held, not in loopback, no failure or change of its block keeps it there
(R496, R498), and its base die is up? -/
def State.canBringUp (s : State) (d : Nat) : Bool :=
  decide (d < s.variant.cdies) && (s.die d).inDrst && !(s.die d).stays && !s.rdB DPORT_CTL.HOLD d && s.rd DPORT_CTL.LOOP d == 0 &&
    bitB (s.rd GLB_DIEMAP.BDIE_UP) (d / 3) && decide (4 ≤ s.boot.stage) && decide (s.boot.stage ≤ 12) && s.alive

/-- The two sides of a site have exchanged capability blocks. Before boot step 5 the die waits for that step. -/
def State.exchanged (s : State) (d : Nat) (k : CapBlock) : State :=
  let s := (s.wrBit GLB_DIEMAP.PRESENT d true).wr DPORT_STAT.STATE 3 d
  if s.boot.stage < 6 ∨ capHeld k then s else s.releaseDie d

/-- A site's bring-up ends without its die released: the die stays in DRST. -/
def State.siteStays (s : State) (d st : Nat) : State :=
  (s.modDie d (fun x => { x with stays := true })).wr DPORT_STAT.STATE st d

/-- The bring-up of a site in DRST begins, or begins anew (R496). -/
def State.siteStart (s : State) (d : Nat) : State :=
  (s.modDie d (fun x => { x with stays := false, upAt := s.now })).wr DPORT_STAT.STATE 0 d

/-- Time within which a site is trained and its block exchanged (R496). -/
def siteLimit : Nat := 2000000

/-- Has the bring-up of a site taken longer than R496 allows? -/
def State.siteLate (s : State) (d : Nat) : Bool := decide ((s.die d).upAt + siteLimit < s.now)

/-- Boot step 4 ends: a site of which no block has come has failed. -/
def State.siteEnd (s : State) (d : Nat) : State :=
  if (s.die d).inDrst && (s.die d).boot.isNone && !(s.die d).stays && !s.rdB DPORT_CTL.HOLD d then
    (s.wrBit GLB_DIEMAP.PRESENT d false).siteStays d 1
  else s

/-- The base die trains a site and exchanges capability blocks (R496): at boot the block is recorded and the die waits for the release
step; after a DRST it must be the one read at boot (R498), and the die is released. Where training or the exchange fails or comes after the
limit, the die stays in DRST; STATE shows how far it came. -/
def execDieBringup (d : Nat) (trained : Bool) (cap : Option CapBlock) (s : State) : Outcome State Fault Refusal :=
  if !s.canBringUp d then .next s
  else
    match trained && !s.siteLate d, cap with
    | true, some k =>
      match (s.die d).boot with
      | none =>
        let s := (s.modDie d (fun x => { x with boot := some k })).setCap d k
        .next ((s.wrBit GLB_DIEMAP.GUEST d (capGuest k)).exchanged d k)
      | some k0 => .next (if k ≠ k0 then (s.siteStays d 3).wr DPORT_STAT.CHANGED 1 d else s.exchanged d k)
    | _, _ => .next ((s.wrBit GLB_DIEMAP.PRESENT d false).siteStays d (if trained then 2 else 1))

/-- DRST of die `d` is asked for (R497); of a die in fallow it is recorded for its wake (R580), and of one in DRST it starts its bring-up
anew. -/
def State.askDrst (s : State) (d : Nat) : State :=
  if s.variant.cdies ≤ d then s
  else if (s.die d).inDrst then
    (if (s.die d).stays then s.siteStart d else s)
  else if s.fallow d then s.modDie d (fun x => { x with drstPend := true })
  else s.dieDown d

/-- DPORT_CTL.DRST. -/
def execDportDrst (d : Nat) (s : State) : Outcome State Fault Refusal := .next (s.onWrite (fun s => s.askDrst d))

/-- A die reports loss of lock (R495): it is held in DRST, and one that was there already is to train again, once a loopback at its port
has ended. -/
def execDieLockLoss (d : Nat) (s : State) : Outcome State Fault Refusal :=
  if s.variant.cdies ≤ d then .next s
  else
    let s := if (s.die d).inDrst then (if s.rd DPORT_CTL.LOOP d = 0 then s.siteStart d else s) else s.askDrst d
    .next ((s.wr DPORT_STAT.NOLOCK 1 d).faultNote 8 .DPORT_STAT d)

/-- Bit errors of the loopback that runs at a port are counted: as many as are told, or, before a read of the count and where nothing tells
them, a free number (R505; DESIGN CHOICE, safe, log entry 90). -/
def State.loopErrs (s : State) (d : Nat) (n : Option Nat) : State :=
  if s.rd DPORT_CTL.LOOP d = 0 then s
  else match n with
    | some k => s.incSat DPORT_ERR.LBERR k d
    | none => let (w, s) := s.free64; s.incSat DPORT_ERR.LBERR w.toNat d

/-- A write of LOOP (R505): a loopback needs a die that is not released and held; clearing LOOP leaves the port untrained, and the die,
whatever kept it in DRST before, is trained again once it is not held. -/
def State.writeLoop (s : State) (d v : Nat) : State :=
  if v = 0 then (if s.rd DPORT_CTL.LOOP d = 0 then s else (s.wr DPORT_CTL.LOOP 0 d).siteStart d)
  else if v = 3 ∨ s.dieReleased d ∨ !s.rdB DPORT_CTL.HOLD d then s.wr DPORT_STAT.CFGERR 1 d
  else (s.wr DPORT_CTL.LOOP v d).wr DPORT_STAT.STATE 5 d

/-- A write of HOLD (R508): a site in DRST whose HOLD is cleared goes through its bring-up from then on. -/
def State.writeHold (s : State) (d v : Nat) : State :=
  let was := s.rdB DPORT_CTL.HOLD d
  let s := s.wr DPORT_CTL.HOLD v d
  if was && v == 0 && (s.die d).inDrst then s.modDie d (fun x => { x with upAt := s.now }) else s

/-- A write of DPORT_CTL (R508); `errs` are the bit errors of a loopback that has run until now, where they are told. -/
def State.writeDportCtl (s : State) (d : Nat) (v : W64) (errs : Option Nat) : State :=
  if s.variant.cdies ≤ d then s
  else
    let s := (s.loopErrs d errs).writeLoop d (DPORT_CTL.LOOP.get v)
    let s := s.writeHold d (DPORT_CTL.HOLD.get v)
    if bitB v.toNat 0 then s.askDrst d else s

/-- A write of DPORT_CTL that sets or clears HOLD. -/
def execDportHoldWrite (d : Nat) (v : W64) (s : State) : Outcome State Fault Refusal := .next (s.onWrite (fun s => s.writeDportCtl d v none))

/-- A write of DPORT_CTL that selects or ends a loopback; `errs` bit errors were counted in the one that ran until now. -/
def execDportLoopWrite (d : Nat) (v : W64) (errs : Nat) (s : State) : Outcome State Fault Refusal :=
  .next (s.onWrite (fun s => s.writeDportCtl d v (some errs)))

/-- A flit has failed its check and is replayed `n` times; one that fails after eight replays is an uncorrectable error (R493). -/
def execFlitReplay (d n : Nat) (s : State) : Outcome State Fault Refusal :=
  if s.variant.cdies ≤ d then .next s
  else
    let s := s.incSat DPORT_ERR.REPLAY (min n 8) d
    .next (if 8 < n then s.ueCause 2 0 7 0 d 0 else s)

/-- A training-free update: the port takes the margin of its base die's thermal band (R503). -/
def execMarginUpdate (d : Nat) (s : State) : Outcome State Fault Refusal :=
  .next (if d < s.variant.cdies then s.wr DPORT_STAT.BAND (s.rd THM_DIE.BAND (12 + d / 3)) d else s)

/-! ### Guests (R500 to R502) -/

/-- Does a guest run at site `d`? -/
def State.guestRuns (s : State) (d : Nat) : Bool :=
  decide (d < s.variant.cdies) && s.diePresent d && s.dieGuest d && s.dieReleased d && s.alive

/-- The base die answers a guest. -/
def State.guestSay (s : State) (d : Nat) (o : GuestOut) : State := s.modDie d (fun x => { x with out := x.out ++ [o] })

/-- A guest access outside its services: an error response, counted (R500). -/
def State.guestRefuse (s : State) (d : Nat) : State := (s.incSat DPORT_ERR.REFUSED 1 d).guestSay d .error

/-- A guest's temperature in 0.125 degC stands for its die, as sensor 0 of its site, which breaks out of its range as another does (R521).
Where it reads 115 degC or more, as a broken one does, the site is reset and held (R502); a die with no sensor that works trips the module
(R524; DEDUCED, unsafe, log entry 28). -/
def State.guestTemp (s : State) (d : Nat) (t : Int) : State :=
  let x := 48 * d
  let s := if (s.sensor x).broken then s
    else if t < -320 ∨ 1200 < t then s.breakSensor x 1
    else (s.setSensor x { s.sensor x with last := t }).wr THM_SENS.TEMP (tempCode t) x
  let s := if tripTemp ≤ (s.sensor x).temp then
      let s := (s.wr DPORT_CTL.HOLD 1 d).askDrst d
      (s.wr DPORT_STAT.THERMF 1 d).faultNote 8 .DPORT_STAT d
    else s
  s.checkTrip

/-- A guest reports its temperature. -/
def execGuestTempReport (d : Nat) (r : Int) (s : State) : Outcome State Fault Refusal :=
  if !s.guestRuns d then .next s
  else .next ((s.modDie d (fun x => { x with reportAt := s.now })).guestTemp d r)

/-- A guest that has not reported for 100 us reads the trip temperature. -/
def execGuestReportTimeout (d : Nat) (s : State) : Outcome State Fault Refusal :=
  if s.guestRuns d ∧ (s.die d).reportAt + 100000 ≤ s.now then .next (s.guestTemp d tripTemp) else .next s

/-- A guest adds to an event counter (R501). -/
def execGuestSig (d e : Nat) (v : W32) (s : State) : Outcome State Fault Refusal :=
  if !s.guestRuns d then .next s
  else if s.rdB DPORT_CAP.SVC_EVT d then .next (s.addEvt (e % 65536) v.toNat)
  else .next (s.guestRefuse d)

/-- A guest registers a wait; at most sixteen are held (R500). -/
def execGuestRegisterWait (d e : Nat) (t : W32) (s : State) : Outcome State Fault Refusal :=
  if !s.guestRuns d then .next s
  else if s.rdB DPORT_CAP.SVC_EVT d ∧ (s.die d).waits.length < 16 then
    .next (s.modDie d (fun x => { x with waits := x.waits ++ [(e % 65536, t.toNat)] }))
  else .next (s.guestRefuse d)

/-- A registered wait is answered once its counter has reached the threshold (R501). -/
def execGuestWaitAnswer (d e : Nat) (t : W32) (s : State) : Outcome State Fault Refusal :=
  if s.guestRuns d ∧ (s.die d).waits.contains (e % 65536, t.toNat) ∧ t.toNat ≤ s.evt (e % 65536) then
    .next ((s.modDie d (fun x => { x with waits := dropFirst (· == (e % 65536, t.toNat)) x.waits })).guestSay d
      (.waitMet (e % 65536) t.toNat))
  else .next s

/-- A guest accesses a space (2 is E-space, other codes S-space, L-space, control space and what else it may not reach): it may read
and write local E-space, outside the reserved range, with a placement hint, and with no atomic operation (R500). -/
def execGuestEAccess (d : Nat) (ask : GuestAsk) (addr len hint : Nat) (data : List Byte) (s : State) :
    Outcome State Fault Refusal :=
  if !s.guestRuns d then .next s
  else if ask.space ≠ 2 ∨ ask.atomic ∨ !s.rdB DPORT_CAP.SVC_E d ∨ !inE s.variant addr len ∨ 2 < hint then .next (s.guestRefuse d)
  else if ask.wr then .next ((s.eWrite addr (data.take len) hint .outside).guestSay d .written)
  else
    let r := s.eRead addr len hint false .outside
    if r.ue then .next r.st else .next (r.st.guestSay d (.read r.data))

/-! ### Test (R504) -/

/-- An instruction of the module test port. The private ones act only while the board holds the module in POR, which is in no state of
this model; they and undefined codes act as BYPASS. -/
def execTapInstruction (ir : TapIr) (s : State) : Outcome State Fault Refusal :=
  let i : TapIr := match ir with
    | .privateWrapper _ => .bypass
    | .other _ => .bypass
    | x => x
  .next { s with stby := { s.stby with tap := i } }

end Sys2Proof.Machine
end

