-- ==== Sys2Proof/Machine/Control.lean ====
section
/-! DEFINITION. The module epoch (R544, R545), teardown (R270, R364, R557), and sealed change requests (R366 to R373, R395,
R426), and the attestation requests that wait behind them (R591). -/

namespace Sys2Proof.Machine

open Host

/-! ### The epoch (R544, R545) -/

/-- The module epoch takes a new value: sequence state, group sequence numbers and the pending tables start again (R545). -/
def State.newEpoch (s : State) (e : Nat) : State :=
  let a := Reg.COL_GSEQ.addr 0 0 0
  let b := Reg.COL_GSEQ.addr 0 4096 0
  let s := { s with
    csr := s.csr.keep (fun k _ => decide (k < a) || decide (b ≤ k))
    win := { s.win with pairs := [], rx := [], skips := [], held := [] }
    col := { s.col with pend := [] } }
  s.setReg .GLB_EPOCH 0 0 0 (w64 e)

/-- Does any core run a kernel? -/
def State.anyKernel (s : State) : Bool := s.cores.any (fun e => e.2.kernel.isSome)

/-- A halter write of GLB_EPOCH_SET (R544): of this boot, above the epoch, with no kernel and no collective. -/
def State.writeEpochSet (s : State) (v : W64) : State :=
  if bits v.toNat 63 40 = bits s.epoch 63 40 ∧ s.epoch < v.toNat ∧ !s.anyKernel ∧ s.col.ctxs.isEmpty then s.newEpoch v.toNat
  else s.wr ROLL_STAT.SETERR 1

/-! ### Teardown -/

/-- An enabled queue enters TORN, and its unretired head completes with TORN_DOWN, but a TEARDOWN.ACK, which runs in a TORN queue, stays
(R259, R270); a halted head has completed already, and leaves with its slot written as RESUME writes it (R235, R260). QUE_Q_STAT keeps what it holds
beside STATE (R271). -/
def State.tornQueue (s : State) (q : Nat) : State :=
  let x := s.queue q
  if x.st = 0 then s
  else
    let was := s.rd QUE_Q_STAT.STATUS 0 q
    let s := s.modQueue q (fun x => { x with st := 6 })
    match x.running, x.cmd with
    | some id, _ => s.finishCmd id 0x15
    | none, some c =>
      if x.st = 5 then (s.slotWrite q x.head (leBytes 8 (word0 c was true false))).retireHead q
      else if cOp c = 0x1F then s
      else s.endCmd q x.head c false 0x15
    | none, none => s

/-- Core `c` halts, its kernel ends with TORN_DOWN, and its gleaner and stook discard their work without signals (R105, R223). -/
def State.tornCore (s : State) (c : Nat) : State :=
  let s := s.modGln c (fun g => g.queue.foldl (fun g e => g.owe e.id) { g with queue := [] })
  let s := s.stookDrop c (fun s _ _ => s)
  if (s.core c).kernel.isSome then
    (s.haltCore c).modCore c (fun k => { k with kernel := k.kernel.map (fun x => { x with bad := some 0x15 }) })
  else s

/-- What the queue and window sides do at a teardown or when the module fences itself (R270, R364, R554). Fold entries, which end 64 ns
after they opened, are applied before E-space freezes (R338, R360; DEDUCED, unsafe, log entry 82). -/
def State.tearDown (s : State) : State :=
  let s := { s with que := { s.que with done := [] } }
  let s := s.closeFolds (fun _ _ _ => true)
  let s := (List.range 64).foldl (fun s q => s.tornQueue q) s
  let s := (s.cores.map (·.1)).foldl (fun s c => s.tornCore c) s
  let s := { s with que := { s.que with copies := [] }, win := { s.win with ops := [] } }
  let s := (s.col.ctxs.map (·.1)).foldl (fun s i => (s.modCtx i (fun x => x.fail (0x15, 0, 0))).colEnd i) s
  let s := (s.que.cmds.map (·.id)).foldl (fun s id => s.finishCmd id 0x15) s
  let s := { s with que := { s.que with done := [] }, win := { s.win with held := [] } }
  (s.newEpoch ((s.epoch + 1) % 2 ^ 64)).wr WIN_TD.FROZEN 1

/-- Nodes that a bit map of eight registers names. -/
def State.jobMembers (s : State) : List Nat := (List.range 512).filter (fun n => bitB (s.rd ROLL_JOB.MEMBERS 0 (n / 64)) (n % 64))

/-- A control packet of the roll-call agent (R549). -/
def State.ctrlPacket (s : State) (aux dst addr : Nat) (d : List Byte) : Packet :=
  { s.packet 10 3 dst 0 with aux := aux, addr := addr, len := d.length, payload := d }

/-- Halter message 0x40 (R557): [8] FLOOD, [127:64] EPOCH. -/
def execTeardownMessage (msg : V128) (s : State) : Outcome State Fault Refusal :=
  let m := msg.toNat
  if !s.linkLit then .next s
  else if bits m 127 64 ≠ s.epoch then .next (s.say (.teardown true))
  else
    let s := if bitB m 8 then s.jobMembers.foldl (fun s n => s.sendPkt (s.ctrlPacket 0x10 n 0 [])) s else s
    .next (s.tearDown.say (.teardown false))

/-- A TEARDOWN packet acts where its epoch is this module's (R557). -/
def execVc3Teardown (p : Packet) (s : State) : Outcome State Fault Refusal :=
  if p.typ ≠ 10 ∨ p.aux % 256 ≠ 0x10 then .next s
  else
    let s := s.takeRx p
    if s.excluded p.src then .next (s.incSat ROLL_STAT.XRX 1 0)
    else if !p.crcOk then .next (s.incSat FAB_DROP2.E2ECRC 1 0)
    else if p.epoch ≠ s.epoch32 then .next (s.incWrap WIN_RX.STALE 1 0)
    else .next s.tearDown

/-! ### Change requests: the parts of a request (R366, R367) -/

/-- Bytes [a, a + n) of a message. -/
def cut (d : List Byte) (a n : Nat) : List Byte := (d.drop a).take n
/-- The number that bytes [a, a + n) spell. -/
def num (d : List Byte) (a n : Nat) : Nat := ofLe (cut d a n)

/-- Is the KIND a manifest? -/
def chgManifest (kind : Nat) : Bool := kind == 1 || kind == 3 || kind == 5
/-- Class of a KIND (R368). -/
def chgClass (kind : Nat) : Nat := if kind ≤ 5 then kind / 2 else kind - 3
/-- Bytes of the body. -/
def chgBody (d : List Byte) : Nat := 56 + (if chgManifest (num d 4 1) then 80 else 16 * num d 48 4)
/-- Length of a certificate, and of a signature (R366). -/
def certLen : Nat := 7235
/-- Bytes of an ML-DSA-87 signature. -/
def sigLen : Nat := 4627

/-- The entries of a request: index and value. -/
def chgEntries (d : List Byte) : List (Nat × Nat) :=
  (List.range (num d 48 4)).map (fun i => (num d (56 + 16 * i) 4, num d (64 + 16 * i) 8))

/-- MAGIC, KIND, COUNT, the length and the reserved fields are right. -/
def chgForm (d : List Byte) : Bool :=
  let kind := num d 4 1
  let count := num d 48 4
  let b := chgBody d
  num d 0 4 == 0x4C584352 && decide (kind ≤ 7) && num d 5 3 == 0 && num d 8 2 / 512 == 0 && num d 10 6 == 0 && num d 52 4 == 0 &&
    decide (count ≤ 256) && (if chgManifest kind then count == 0 else decide (kind < 6) || count == 1) &&
    d.length == b + 2 * (certLen + sigLen) && decide (d.length ≤ 65536) &&
    (chgManifest kind || (List.range count).all (fun i => num d (60 + 16 * i) 4 == 0)) &&
    num d (b + 9) 7 == 0 && num d (b + certLen + sigLen + 9) 7 == 0

/-- Is a certificate at offset `a` signed by the site key? -/
def certOk (site d : List Byte) (a : Nat) : Bool :=
  Config.mldsaVerify site (Config.sha3 (cut d a 2608)) (cut d (a + 2608) sigLen)

/-- Public key of the certificate at offset `a`. -/
def certKey (d : List Byte) (a : Nat) : List Byte := cut d (a + 16) 2592

/-- The first 16 bytes of SHA3-512 of the module's identity key (R367, R591). -/
def State.idHash (s : State) : List Byte := (Config.sha3 s.boot.otp.idPub).take 16

/-! ### Checks of the tables (R368, R395, R426) -/

/-- Do the coordinates of a node lie within the variant's sizes (R388)? -/
def nodeFits (v : Variant) (n : Nat) : Bool :=
  let (w, x, y, z) := v.dims
  decide (coord n 0 < w) && decide (coord n 1 < x) && decide (coord n 2 < y) && decide (coord n 3 < z)

/-- Does a group's entry, as sixteen words, pass R426? -/
def State.groupEntryOk (s : State) (g : Nat) (w : Nat → Nat) : Bool :=
  let e := groupOf w
  (List.range 7).all (fun i => w (9 + i) == 0) && bits (w 8) 63 19 == 0 &&
    (!e.valid ||
      ([0, 1, 2, 3].all (fun d => [0, 1, 2, 3].any (fun i => lane 2 e.order i == d)) && e.count == e.members.length &&
        decide (1 ≤ e.count) && e.members.all (nodeFits s.variant))) &&
    s.col.ctxs.all (fun x => x.2.group != g)

/-- Word `i` of the group table as it stands after the changes; the later one wins. -/
def State.grpAfter (s : State) (es : List (Nat × Nat)) (i : Nat) : Nat :=
  match es.reverse.find? (fun e => e.1 == i) with
  | some e => e.2
  | none => s.rd COL_GRP.WORD 0 i

/-- Does a routing entry pass R395? -/
def State.routeOk (s : State) (e : Nat × Nat) : Bool :=
  decide (e.1 < 512) && decide (e.2 < 32) && (decide (e.2 < s.variant.links) || e.2 == 30 || e.2 == 31) &&
    ((e.2 == 31) == (e.1 == s.node))

/-- Does a value of ROLL_CFG pass R368? -/
def rollCfgOk (v : Nat) : Bool :=
  let hb := bits v 7 0
  let su := bits v 17 8
  let fb := bits v 27 18
  let se := bits v 39 28
  bits v 63 40 == 0 && decide (5 ≤ hb) && decide (3 * hb ≤ su) && decide (su ≤ fb) && decide (su + 3 * fb + 400 ≤ se)

/-- Do the entries pass the checks of their table? -/
def State.entriesOk (s : State) (kind : Nat) (es : List (Nat × Nat)) : Bool :=
  match kind / 2 with
  | 0 => es.all (fun e => decide (e.1 < 0x1000000) && bits e.2 63 33 == 0)
  | 1 => es.all (fun e => decide (e.1 < 65536)) &&
      es.all (fun e => s.groupEntryOk (e.1 / 16) (fun i => s.grpAfter es (e.1 / 16 * 16 + i)))
  | 2 => es.all s.routeOk
  | _ => if kind = 6 then es.all (fun e => e.1 == 0) else es.all (fun e => e.1 == 0 && rollCfgOk e.2)

/-- Does a manifest name a range of its table, and an image in local E-space (R371, R395, R426)? -/
def State.manifestOk (s : State) (d : List Byte) : Bool :=
  let top := match num d 4 1 with
    | 1 => 0x1000000
    | 3 => 65536
    | _ => 512
  decide (num d 56 4 + num d 60 4 ≤ top) && num d 64 8 % 8 == 0 && inE s.variant (num d 64 8) (8 * num d 60 4)

/-! ### Application (R370, R371) -/

/-- Window entries are written in order, their pages leave every window cache, and walks of them are stale (R370). -/
def State.applyWindow (s : State) (es : List (Nat × Nat)) : State :=
  let s := es.foldl (fun s e => s.eWrite (winEntryAt s.variant e.1) (leBytes 8 e.2) 0 .loader) s
  let hit := fun (p : Nat) => es.any (fun e => e.1 == p)
  { s with win := { s.win with
    cache := s.win.cache.mapDrop (fun _ => []) (fun _ l => l.filter (fun x => !hit x.1))
    stale := s.win.stale ++ s.win.walks.filter (fun w => hit w.2 && !s.win.stale.contains w) } }

/-- The timings of the roll call stay in force until the agent's next tick, whatever ROLL_CFG reads (R368). -/
def State.keepRollCfg (s : State) : State :=
  { s with roll := { s.roll with cfg := s.roll.cfg.orElse (fun _ => some (s.reg .ROLL_CFG 0 0 0)) } }

/-- Entries of a kind are applied. -/
def State.applyEntries (s : State) (kind : Nat) (es : List (Nat × Nat)) : State :=
  match kind / 2 with
  | 0 => s.applyWindow es
  | 1 => es.foldl (fun s e => (s.setReg .COL_GRP 0 e.1 0 (w64 e.2)).wr COL_GSEQ.SEQ 0 0 (e.1 / 16)) s
  | 2 => es.foldl (fun s e => s.wr FAB_RT.LINK e.2 0 e.1) s
  | _ =>
    let r : Reg := if kind = 6 then .WIN_GUARD else .ROLL_CFG
    let s := if kind = 6 then s else s.keepRollCfg
    es.foldl (fun s e => s.wrs r 0 0 0 (r.fields.map (fun f => (f, f.get (w64 e.2))))) s

/-- The outcome of verification (R369, R373) of a request that arrived under epoch `e` (R545): 0 where it is to be applied. -/
def State.verify (s : State) (e : Nat) (d : List Byte) : Nat :=
  let b := chgBody d
  let fm := b + certLen + sigLen
  match s.boot.siteKey with
  | none => 3
  | some site =>
    if !chgForm d then 2
    else if !certOk site d b || !certOk site d fm then 4
    else if num d (b + 8) 1 ≠ 1 ∨ num d (fm + 8) 1 ≠ 2 ∨ certKey d b = certKey d fm then 4
    else if !Config.mldsaVerify (certKey d b) (Config.sha3 (cut d 0 b)) (cut d (b + certLen) sigLen) then 5
    else if !Config.mldsaVerify (certKey d fm) (Config.sha3 (cut d 0 b ++ cut d (b + certLen) sigLen))
        (cut d (fm + certLen) sigLen) then 6
    else if num d 8 2 ≠ s.node ∨ cut d 16 16 ≠ s.idHash then 7
    else if num d 32 8 ≠ e then 8
    else if num d 40 8 ≤ s.rd WIN_CHG_SEQ.SEQ 0 (chgClass (num d 4 1)) then 9
    else if chgManifest (num d 4 1) then (if s.manifestOk d then 0 else 0xA)
    else if s.entriesOk (num d 4 1) (chgEntries d) then 0
    else 0xA

/-! ### Attestation (R591) -/

/-- Sixty-four zero bytes. -/
def zeros64 : List Byte := List.replicate 64 0

/-- Bytes of a stored item, or zeros where there is none. -/
def orZeros (x : List Byte) : List Byte := if x.isEmpty then zeros64 else x

/-- GLB_VERSION (R24): the steppings are constants of the module, which its OTP holds (DEDUCED, unsafe, log entry 91), and the firmware
fields come from boot. -/
def State.version (s : State) : W64 :=
  let r := s.reg .GLB_VERSION 0 0 0
  GLB_VERSION.ISA_GEN.put (w64 (setBits r.toNat 23 0 s.boot.otp.revs)) 1

/-- M as SEC_MEAS shows it. -/
def State.measBytes (s : State) : List Byte := orZeros s.boot.meas

/-- The attestation report. -/
def State.report50 (s : State) (nonce : List Byte) : List Byte :=
  leBytes 4 0x4A415452 ++ leBytes 2 s.variant.part ++ leBytes 2 s.node ++ leBytes 6 (bits s.boot.otp.word.toNat 63 16) ++
    leBytes 2 0 ++ leBytes 8 s.epoch ++ leBytes 8 s.version.toNat ++ s.measBytes ++ nonce ++
    (match s.boot.siteKey with
     | some k => Config.sha3 k
     | none => zeros64) ++ s.boot.otp.idPub

/-- The report for a nonce is signed and returned. -/
def State.attest (s : State) (nonce : List Byte) : State :=
  let r := s.report50 nonce
  s.say (.attest r (Config.mldsaSign (Config.sha3 r)))

/-- Attestation requests that waited are answered, in the order in which they came. -/
def State.serveAttests (s : State) : State := s.win.attests.foldl State.attest { s with win := { s.win with attests := [] } }

/-! ### Answers -/

/-- A request is answered (R373, R379). -/
def State.chgAnswer (s : State) (d : List Byte) (res : Nat) : State :=
  let s := s.wr WIN_CHG_STAT.RESULT res
  let s := if res = 1 then s.incSat WIN_CHG_STAT.APPLIED 1 0 else s.incSat WIN_CHG_STAT.REFUSED 1 0
  s.say (.change res (w64 (num d 40 8)))

/-- The security controller is done with its request, and takes what waits. -/
def State.chgDone (s : State) (d : List Byte) (res : Nat) : State :=
  ({ s with win := { s.win with change := none } }.chgAnswer d res).serveAttests

/-- A request is applied: its class's sequence number is taken (R369). -/
def State.chgApply (s : State) (d : List Byte) (es : List (Nat × Nat)) : State :=
  let s := s.applyEntries (num d 4 1) es
  (s.wr WIN_CHG_SEQ.SEQ (num d 40 8) 0 (chgClass (num d 4 1))).chgDone d 1

/-- Halter message 0x30 carries a change request; one that finds another in progress, or the module not READY, fails with BUSY
(R369, R583). -/
def execChangeRequest (bytes : List Byte) (s : State) : Outcome State Fault Refusal :=
  if !s.linkLit then .next s
  else if !s.isReady || s.win.change.isSome then .next (s.chgAnswer bytes 0xC)
  else .next { s with win := { s.win with change := some ⟨bytes, false, s.epoch⟩ } }

/-- Does a request write the window table, which lies in E-space, while that is frozen (R365)? It waits for the thaw. -/
def State.chgWaits (s : State) (d : List Byte) : Bool := s.frozen && decide (num d 4 1 ≤ 1)

/-- Verification ends: a failure is answered, entries are applied, a manifest waits for its image to be read (R369 to R371). -/
def execChangeVerified (s : State) : Outcome State Fault Refusal :=
  match s.win.change with
  | none => .next s
  | some c =>
    if c.verified then .next s
    else
      let v := s.verify c.epoch c.bytes
      if v ≠ 0 then .next (s.chgDone c.bytes v)
      else if chgManifest (num c.bytes 4 1) then
        .next { s with win := { s.win with change := some { c with verified := true } } }
      else if s.chgWaits c.bytes then .next s
      else .next (s.chgApply c.bytes (chgEntries c.bytes))

/-- The entries that a manifest's image holds. -/
def imgEntries (d img : List Byte) : List (Nat × Nat) :=
  (List.range (num d 60 4)).map (fun i => (num d 56 4 + i, num img (8 * i) 8))

/-- The controller reads the image of a manifest. -/
def State.readManifest (s : State) (d : List Byte) : Rd := s.eRead (num d 64 8) (8 * num d 60 4) 0 false .loader

/-- Is the digest of an image the one that the manifest carries? -/
def digestOk (d img : List Byte) : Bool := Config.sha3 img == cut d 72 64

/-- The image is read again as it goes into the table. Where its second digest differs, every entry of the range is 0, and the range leaves
the window caches (R371). -/
def State.copyManifest (s : State) (d : List Byte) : State :=
  let r := s.readManifest d
  if r.ue then r.st
  else if digestOk d r.data then r.st.chgApply d (imgEntries d r.data)
  else (r.st.applyEntries (num d 4 1) ((imgEntries d r.data).map (fun e => (e.1, 0)))).chgDone d 0xB

/-- The image of a manifest is read, checked against its digest and its table's checks, and applied (R371). -/
def execManifestApply (s : State) : Outcome State Fault Refusal :=
  match s.win.change with
  | none => .next s
  | some c =>
    let d := c.bytes
    if !c.verified || s.chgWaits d then .next s
    else
      let r := s.readManifest d
      if r.ue then .next r.st
      else if !digestOk d r.data then .next (r.st.chgDone d 0xB)
      else if !r.st.entriesOk (num d 4 1) (imgEntries d r.data) then .next (r.st.chgDone d 0xA)
      else .next (r.st.copyManifest d)

end Sys2Proof.Machine
end

