-- ==== Sys2Proof/Machine/Roll.lean ====
section
/-! DEFINITION. The roll call (R548 to R556): heartbeats, votes, verdicts, failure domains, joining, and fencing. SUSPECT is a case of
ALIVE (R548). -/

namespace Sys2Proof.Machine

open Host

/-! ### The roll -/

/-- State of node `n` in the roll (R548). -/
def State.nodeState (s : State) (n : Nat) : Nat := s.rd ROLL_NODE.STATE 0 n
/-- Is the node ALIVE, suspected or not? -/
def State.nodeAlive (s : State) (n : Nat) : Bool := s.nodeState n == 1 || s.nodeState n == 2
/-- What the agent keeps of node `n`. -/
def State.rnode (s : State) (n : Nat) : RNode := s.roll.nodes.get {} n
/-- The state with that changed by `f`. -/
def State.modRnode (s : State) (n : Nat) (f : RNode → RNode) : State :=
  { s with roll := { s.roll with nodes := s.roll.nodes.upd {} n f } }

/-- Is node `n` a neighbour of `m` (R388)? -/
def neighbour (m n : Nat) : Bool := coordDiff m n == 1

/-- ALIVE neighbours of node `n`, in ascending order. -/
def State.aliveNbrs (s : State) (n : Nat) : List Nat := (List.range 512).filter (fun k => neighbour n k && s.nodeAlive k)

/-- Does the agent run: the module is on the fabric and not fenced? -/
def State.rollRuns (s : State) : Bool := s.linksRun

/-- Is it a message of this type from node `n` about `addr`? -/
def ctrlFrom (n aux addr : Nat) (p : Packet) : Bool := p.typ == 10 && p.src == n && p.aux % 256 == aux && p.addr == addr

/-- A delivered message is taken: whether it is to be acted on, and the state without it. One of an EXCLUDED node, or whose end-to-end CRC
fails, is discarded and counted (R408, R551). -/
def State.takeCtrl (s : State) (n aux addr : Nat) : Bool × State :=
  let p := s.fab.rx.find? (ctrlFrom n aux addr)
  let s := { s with fab := { s.fab with rx := dropFirst (ctrlFrom n aux addr) s.fab.rx } }
  if s.excluded n then (false, s.incSat ROLL_STAT.XRX 1 0)
  else if (p.map Packet.crcOk).getD true then (true, s)
  else (false, s.incSat FAB_DROP2.E2ECRC 1 0)

/-! ### Heartbeats (R549, R550) -/

/-- A heartbeat leaves for each ALIVE neighbour. -/
def execHeartbeatSend (s : State) : Outcome State Fault Refusal :=
  if s.rollRuns then .next ((s.aliveNbrs s.node).foldl (fun s n => s.sendPkt (s.ctrlPacket 1 n 0 [])) s) else .next s

/-- Heartbeats of node `n` go on: a suspicion is cleared at its coordinator. -/
def State.heard (s : State) (n : Nat) : State :=
  let s := s.modRnode n (fun x => { x with last := s.now, beat := some s.now })
  if s.nodeState n = 2 then
    let s := s.wr ROLL_NODE.STATE 1 0 n
    let c := (s.rnode n).coord
    if c = s.node then s else s.sendPkt (s.ctrlPacket 3 c n [])
  else s

/-- A heartbeat arrives from a node. -/
def execHeartbeat (node : Nat) (s : State) : Outcome State Fault Refusal :=
  if !s.rollRuns then .next s
  else
    let (ok, s) := s.takeCtrl node 1 0
    if !ok then .next s
    else if neighbour s.node node && s.nodeAlive node then .next (s.heard node)
    else .next s

/-! ### Verdicts (R550, R551, R555) -/

/-- What a VERDICT's ADDR says (R549). -/
def verdictAddr (node kind domid issuer : Nat) : Nat := node + kind <<< 9 + domid <<< 12 + issuer <<< 16

/-- Is node `n` a member of the domain of a kind, DOMID and the W of node `from_` (R555)? The module's own identity comes from its
straps. -/
def State.inDomain (s : State) (kind domid from_ n : Nat) : Bool :=
  let own := decide (n = s.node)
  let pins := s.rd GLB_STRAP.PINS
  match kind with
  | 1 => coord n 0 == coord from_ 0 && (if own then bits pins 6 3 else s.rd ROLL_NODE.TRAY 0 n) == domid
  | 2 => coord n 0 == coord from_ 0 && (if own then bits pins 11 9 else s.rd ROLL_NODE.SHELF 0 n) == domid
  | 3 => (if own then bits pins 14 12 else s.rd ROLL_NODE.LOOP 0 n) == domid
  | _ => n == from_

/-- ALIVE nodes that a verdict names; a single node is named whatever its state. -/
def State.named (s : State) (kind domid node : Nat) : List Nat :=
  if kind = 0 then [node] else (List.range 512).filter (fun n => s.nodeAlive n && s.inDomain kind domid node n)

/-- Is it a packet of node `n`, other than a JOIN? -/
def ofNode (n : Nat) (p : Packet) : Bool := p.src == n && !(p.typ == 10 && p.aux % 256 == 6)

/-- Packets of node `n` that wait for a link are discarded and counted. -/
def State.dropQueued (s : State) (n l : Nat) : State :=
  let q := (s.link l).queue.filter (fun w => ofNode n w.pkt)
  let s := (s.modLink l (fun k => { k with queue := k.queue.filter (fun w => !ofNode n w.pkt) })).incSat ROLL_STAT.XRX q.length 0
  q.foldl (fun s w => s.slotFreed w.via w.pkt.vc w.shared) s

/-- Every packet of node `n` that the module holds is discarded and counted (R551): those that wait for their turn, and those that wait for a
link. -/
def State.dropSource (s : State) (n : Nat) : State :=
  let k := (s.win.held.filter (fun p => p.src == n)).length
  let s := { s with win := { s.win with held := s.win.held.filter (fun p => p.src != n) } }.incSat ROLL_STAT.XRX k 0
  (s.fab.links.map (·.1)).foldl (fun s l => s.dropQueued n l) s

/-- A node is EXCLUDED: its packets are discarded, its collectives end with NODE_LOST, and this module fences itself where it is the node
(R551, R553). -/
def State.exclude (s : State) (n : Nat) : State :=
  let s := ((s.wr ROLL_NODE.STATE 3 0 n).dropSource n).colLost n
  if n = s.node then { s with roll := { s.roll with named := true } } else s

/-- A verdict is recorded, reported and traced (R551, R573, R564). -/
def State.logVerdict (s : State) (kind node domid issuer : Nat) : State :=
  let s := if s.rdB ROLL_VERDICT.VALID then s else s.wrs .ROLL_VERDICT 0 0 0 [(ROLL_VERDICT.VALID, 1),
    (ROLL_VERDICT.KIND, kind), (ROLL_VERDICT.NODE, node), (ROLL_VERDICT.DOMID, domid), (ROLL_VERDICT.ISSUER, issuer),
    (ROLL_VERDICT.TIME, s.time32)]
  let s := (s.incSat ROLL_VERDICT.COUNT 1 0).faultNote 10 .ROLL_VERDICT
  if s.rdB OBS_BASE.EN && s.rdB OBS_BASE.EVT then
    s.traceAdd 256 8 0 (w64 (bits (s.reg .ROLL_VERDICT 0 0 0).toNat 31 0))
  else s

/-- The effect of a verdict (R551). -/
def State.judge (s : State) (kind domid node issuer : Nat) : State :=
  ((s.named kind domid node).foldl (fun s n => s.exclude n) s).logVerdict kind node domid issuer

/-- A flooded message is remembered (R549). Its source is part of what identifies it, since R555 counts the senders of one DOMAIN
(DEDUCED, unsafe, log entry 95). -/
def State.remember (s : State) (aux src pay : Nat) : State :=
  { s with roll := { s.roll with seen := s.roll.seen ++ [(aux, src, pay)] } }

/-- This module issues a verdict: it acts on it and floods it (R550, R555). -/
def State.issueVerdict (s : State) (kind domid node : Nat) : State :=
  let a := verdictAddr node kind domid s.node
  let s := s.remember 4 s.node a
  (s.judge kind domid node s.node).flood (s.ctrlPacket 4 511 a []) 16

/-- Votes that count for node `n`: those held and not older than 1 ms, and this module's own suspicion (R550). -/
def State.voteCount (s : State) (n : Nat) : Nat :=
  (s.roll.votes.filter (fun v => v.suspect == n && v.voter != s.node && decide (s.now < v.at_ + 1000000))).length +
    b2n (s.nodeState n == 2)

/-- Has a majority of the ALIVE neighbours of a node voted against it? -/
def State.votedOut (s : State) (n : Nat) : Bool :=
  s.nodeState n != 3 && decide (1 ≤ s.voteCount n) && decide ((s.aliveNbrs n).length / 2 + 1 ≤ s.voteCount n)

/-- DOMAIN messages held for a domain that are from members of it (R555). -/
def State.domainSenders (s : State) (kind domid from_ : Nat) : List Nat :=
  ((s.roll.domains.filter (fun e => e.1 == kind && e.2.1 == domid && s.inDomain kind domid from_ e.2.2)).map (·.2.2)).dedup

/-- Is the domain of a DOMAIN message to be excluded: it has an ALIVE member, and two members' messages, or the one of the only ALIVE
member, are here (R555)? -/
def State.domainOut (s : State) (kind domid from_ : Nat) : Bool :=
  let who := s.domainSenders kind domid from_
  let alive := s.named kind domid from_
  !alive.isEmpty && (decide (2 ≤ who.length) || (who.length == 1 && alive.length == 1))

/-- A verdict that this module is to issue: KIND, DOMID, node. A node that is voted out comes before a domain (DEDUCED, unsafe, log
entry 107). -/
def State.nextVerdict (s : State) : Option (Nat × Nat × Nat) :=
  match (s.roll.votes.map (·.suspect) ++ s.roll.nodes.map (·.1)).find? s.votedOut with
  | some n => some (0, 0, n)
  | none => (s.roll.domains.find? (fun e => s.domainOut e.1 e.2.1 e.2.2)).map (fun e =>
      (e.1, e.2.1, (s.domainSenders e.1 e.2.1 e.2.2).headD e.2.2))

/-- Verdicts follow from one another: where an exclusion has left fewer ALIVE neighbours of a node, or one ALIVE member of a domain, what is
here may be enough now (R550, R555). -/
def State.settle : Nat → State → State
  | 0, s => s
  | k + 1, s => match s.nextVerdict with
    | some (kind, domid, n) => State.settle k (s.issueVerdict kind domid n)
    | none => s

/-- All verdicts that follow: each excludes a node at least, of 512. -/
def State.settled (s : State) : State := State.settle 512 s

/-- A verdict of this module, and what follows from it. -/
def State.rule (s : State) (kind domid n : Nat) : State := (s.issueVerdict kind domid n).settled

/-- A verdict is issued where a majority of the ALIVE neighbours of a node has voted. -/
def State.tally (s : State) (n : Nat) : State := if s.votedOut n then s.rule 0 0 n else s

/-- This module votes against node `n` at coordinator `c`. -/
def State.sendVote (s : State) (n c : Nat) : State :=
  let s := s.modRnode n (fun x => { x with coord := c, sent := s.now })
  if c = s.node then s else s.sendPkt (s.ctrlPacket 2 c n [])

/-- The next coordinator above `c`, wrapping to the lowest. -/
def State.nextCoord (s : State) (n c : Nat) : Nat :=
  let l := s.aliveNbrs n
  match l.find? (fun k => decide (c < k)) with
  | some k => k
  | none => l.headD s.node

/-- A timing of ROLL_CFG that is in force (R368). -/
def State.rollCfg (s : State) (f : Fld) : Nat :=
  match s.roll.cfg with
  | some w => f.get w
  | none => s.rd f

/-- One neighbour at the 10 us tick (R550). -/
def State.tickNode (s : State) (n : Nat) : State :=
  let s := if s.nodeState n = 1 ∧ (s.rnode n).last + s.rollCfg ROLL_CFG.SUSPECT * 1000 ≤ s.now then
      (s.wr ROLL_NODE.STATE 2 0 n).sendVote n ((s.aliveNbrs n).headD s.node)
    else s
  let s := if s.nodeState n = 2 ∧ (s.rnode n).sent + s.rollCfg ROLL_CFG.FALLBACK * 1000 ≤ s.now then
      s.sendVote n (s.nextCoord n (s.rnode n).coord)
    else s
  if s.nodeState n = 2 then s.tally n else s

/-- The timings that ROLL_CFG reads are in force. -/
def State.takeRollCfg (s : State) : State := { s with roll := { s.roll with cfg := none } }

/-- The agent's 10 us tick, from which new timings are in force (R368). -/
def execRollTick (s : State) : Outcome State Fault Refusal :=
  if s.rollRuns then .next ((s.aliveNbrs s.node).foldl (fun s n => s.tickNode n) s.takeRollCfg) else .next s

/-- A vote arrives at this coordinator. -/
def execVote (node suspect : Nat) (s : State) : Outcome State Fault Refusal :=
  if !s.rollRuns then .next s
  else
    let (ok, s) := s.takeCtrl node 2 suspect
    if !ok then .next s
    else
      let keep := s.roll.votes.filter (fun v => !(v.suspect == suspect && v.voter == node))
      let v : Vote := ⟨suspect, node, s.now⟩
      .next ({ s with roll := { s.roll with votes := keep ++ [v] } }.tally suspect)

/-- A voter clears its vote. -/
def execClear (node suspect : Nat) (s : State) : Outcome State Fault Refusal :=
  if !s.rollRuns then .next s
  else
    let (ok, s) := s.takeCtrl node 3 suspect
    if !ok then .next s
    else .next { s with roll := { s.roll with votes := s.roll.votes.filter (fun v => !(v.suspect == suspect && v.voter == node)) } }

/-- Votes older than 1 ms lapse. -/
def execVoteExpiry (s : State) : Outcome State Fault Refusal :=
  .next { s with roll := { s.roll with votes := s.roll.votes.filter (fun v => decide (s.now < v.at_ + 1000000)) } }

/-- What identifies a flooded message's payload. -/
def payloadKey (p : Packet) : Nat := p.addr + ofLe p.payload <<< 40

/-- Is a flooded message one of a life that has ended: of an EXCLUDED node, and no JOIN whose BOOT is above the one recorded (R548,
R551)? -/
def State.ended (s : State) (p : Packet) (aux : Nat) : Bool :=
  s.excluded p.src && (aux != 6 || decide (bits (ofLe p.payload) 23 0 ≤ s.rd ROLL_NODE.BOOT 0 p.src))

/-- A flooded message that has come in on a link: whether it is to be acted on, and the state with it taken. A malformed one, one of a life
that has ended, and one whose end-to-end CRC fails are counted (R406, R408, R549, R551). -/
def State.floodSeen (s : State) (p : Packet) (aux : Nat) : Bool × State :=
  if badPacket p then (false, s.incSat FAB_DROP.BADPKT 1 0)
  else if s.ended p aux then (false, s.incSat ROLL_STAT.XRX 1 0)
  else if !p.crcOk then (false, s.incSat FAB_DROP2.E2ECRC 1 0)
  else if s.roll.seen.contains (aux, p.src, payloadKey p) then (false, s)
  else (true, s.remember aux p.src (payloadKey p))

/-- A flooded message comes in on a link, where its receive pool has a slot for it, which is free again at once (R399). -/
def State.floodIn (s : State) (p : Packet) (link aux : Nat) : Bool × State :=
  if p.typ ≠ 10 ∨ p.aux % 256 ≠ aux ∨ !s.rollRuns ∨ !s.linkUp link then (false, s)
  else match s.slotFor link p.vc with
    | none => (false, s)
    | some shared => ((s.slotTaken link p.vc shared).slotFreed link p.vc shared).floodSeen p aux

/-- A VERDICT arrives: this module acts on it and forwards it (R551). -/
def execVerdict (p : Packet) (link : Nat) (s : State) : Outcome State Fault Refusal :=
  let (act, s) := s.floodIn p link 4
  if act then
    let a := p.addr
    .next (((s.judge (bits a 11 9) (bits a 15 12) (bits a 8 0) (bits a 24 16)).flood p link).settled)
  else .next s

/-! ### Failure domains (R555) -/

/-- A DOMAIN message of a node is held; two members' messages, or the one of the only ALIVE member, exclude the domain. -/
def State.domainIn (s : State) (kind domid from_ : Nat) : State :=
  let s := { s with roll := { s.roll with domains := s.roll.domains ++ [(kind, domid, from_)] } }
  if s.domainOut kind domid from_ then s.rule kind domid ((s.domainSenders kind domid from_).headD from_) else s

/-- An alarm input (1 tray, 2 shelf, 3 loop) has been asserted for 10 us: DOMAIN is flooded. -/
def execDomainAlarm (k : Nat) (s : State) : Outcome State Fault Refusal :=
  if k = 0 ∨ 3 < k ∨ !s.rollRuns then .next s
  else
    let pins := s.rd GLB_STRAP.PINS
    let id := if k = 1 then bits pins 6 3 else if k = 2 then bits pins 11 9 else bits pins 14 12
    let p := s.ctrlPacket 5 511 (k + id <<< 2) []
    if s.roll.seen.contains (5, s.node, payloadKey p) then .next s
    else .next (((s.remember 5 s.node (payloadKey p)).flood p 16).domainIn k id s.node)

/-- A DOMAIN message arrives. -/
def execDomain (p : Packet) (link : Nat) (s : State) : Outcome State Fault Refusal :=
  let (act, s) := s.floodIn p link 5
  if act ∧ bits p.addr 1 0 ≠ 0 then .next ((s.flood p link).domainIn (bits p.addr 1 0) (bits p.addr 5 2) p.src)
  else .next s

/-! ### Joining (R548, R556) -/

/-- The roll as an ADMIT carries it: 2 bits per node. -/
def State.rollBytes (s : State) : List Byte := leBytes 128 (packLanes 2 ((List.range 512).map s.nodeState))

/-- A node is admitted with what its JOIN said; what was flooded about its earlier life is forgotten. -/
def State.admitNode (s : State) (n pay : Nat) : State :=
  let s := s.wrs .ROLL_NODE 0 n 0 [(ROLL_NODE.STATE, 1), (ROLL_NODE.TRAY, bits pay 27 24), (ROLL_NODE.SHELF, bits pay 30 28),
    (ROLL_NODE.LOOP, bits pay 34 32), (ROLL_NODE.BOOT, bits pay 23 0)]
  let s := s.modRnode n (fun x => { x with last := s.now })
  { s with roll := { s.roll with
    votes := s.roll.votes.filter (fun v => v.suspect != n)
    domains := s.roll.domains.filter (fun e => e.2.2 != n)
    seen := s.roll.seen.filter (fun e => !(e.1 == 4 && e.2.2 % 512 == n) && !(e.1 == 5 && e.2.1 == n)) } }

/-- A JOIN as R548 treats it: a node that is ABSENT, or that comes back with a higher BOOT, is admitted; the old life of an ALIVE one
ends first, by a verdict whose issuer the spec does not name (DESIGN CHOICE, safe, log entry 3). -/
def State.joinIn (s : State) (n pay : Nat) : State :=
  let boot := bits pay 23 0
  let old := s.rd ROLL_NODE.BOOT 0 n
  if s.nodeState n = 0 then s.admitNode n pay
  else if boot ≤ old then s
  else if s.nodeState n = 3 then s.admitNode n pay
  else
    let (i, s) := s.free64
    (s.judge 0 0 n (i.toNat % 512)).admitNode n pay

/-- A JOIN arrives: it is acted on and forwarded, and a neighbour answers with ADMIT. -/
def execJoin (p : Packet) (link : Nat) (s : State) : Outcome State Fault Refusal :=
  let (act, s) := s.floodIn p link 6
  if !act ∨ p.src = s.node then .next s
  else
    let s := (s.joinIn p.src (ofLe p.payload)).flood p link
    .next (if neighbour s.node p.src then s.sendPkt (s.ctrlPacket 7 p.src 0 s.rollBytes) else s)

/-- The first ADMIT gives the joiner every other node's state; another is dropped. -/
def execAdmitMsg (p : Packet) (s : State) : Outcome State Fault Refusal :=
  if p.typ ≠ 10 ∨ p.aux % 256 ≠ 7 ∨ !s.rollRuns then .next s
  else
    let s := s.takeRx p
    if s.excluded p.src then .next (s.incSat ROLL_STAT.XRX 1 0)
    else if !p.crcOk then .next (s.incSat FAB_DROP2.E2ECRC 1 0)
    else if s.roll.joinAt.isNone ∨ s.roll.admitted then .next s
    else
      let x := ofLe p.payload
      let s := ((List.range 512).filter (· != s.node)).foldl (fun s n =>
        let s := s.wr ROLL_NODE.STATE (lane 2 x n) 0 n
        if lane 2 x n = 0 then s else s.modRnode n (fun y => { y with last := s.now, sent := s.now })) s
      .next { s with roll := { s.roll with admitted := true } }.settled

/-- No ADMIT has come within 10 ms: every other node stays ABSENT (R581). -/
def execAdmitTimeout (s : State) : Outcome State Fault Refusal :=
  match s.roll.joinAt with
  | none => .next s
  | some t =>
    if s.roll.admitted ∨ s.now < t + 10000000 then .next s
    else .next { s with roll := { s.roll with admitted := true } }

/-- This module floods JOIN, and its own entry is ALIVE (R548, R556). -/
def State.joinOut (s : State) : State :=
  let pins := s.rd GLB_STRAP.PINS
  let pay := bits s.epoch 63 40 + (bits pins 6 3) <<< 24 + (bits pins 11 9) <<< 28 + (bits pins 14 12) <<< 32
  let p := s.ctrlPacket 6 511 0 (leBytes 8 pay)
  let s := (s.admitNode s.node pay).remember 6 s.node (payloadKey p)
  { s with roll := { s.roll with joinAt := some s.now, admitted := false } }.flood p 16

/-! ### Fencing (R553, R554) -/

/-- Neighbours whose heartbeats came within the last `us` microseconds, an ALIVE neighbour counting as heard at its admission. -/
def State.heardIn (s : State) (us : Nat) : Nat :=
  ((s.aliveNbrs s.node).filter (fun n => decide (s.now < (s.rnode n).last + us * 1000))).length

/-- Neighbours from which a heartbeat came within the last `us` microseconds. -/
def State.beatIn (s : State) (us : Nat) : Nat :=
  ((s.aliveNbrs s.node).filter (fun n => match (s.rnode n).beat with
    | some t => decide (s.now < t + us * 1000)
    | none => false)).length

/-- ROLL_STAT as it reads, given its stored word (R572). -/
def State.viewRoll (s : State) (w : W64) : W64 :=
  puts w [(ROLL_STAT.ALIVE, ((List.range 512).filter s.nodeAlive).length), (ROLL_STAT.HEARD, s.beatIn (s.rollCfg ROLL_CFG.SUSPECT))]

/-- The module fences itself: it acts as at a teardown, its tensor links and RoCEv2 responder stop, and a FENCE notification
leaves. -/
def State.fence (s : State) (self : Bool) : State :=
  let s := s.wrs .ROLL_STAT 0 0 0 [(ROLL_STAT.FENCED, 1), (ROLL_STAT.SELF, b2n self)]
  let s := s.tearDown
  let s := s.noteWith 11 .ROLL_STAT (s.viewRoll (s.reg .ROLL_STAT 0 0 0)) 0 0
  { s with roll := { s.roll with fencedAt := some s.now } }

/-- A module that a verdict named fences itself. -/
def execFenceSelf (s : State) : Outcome State Fault Refusal :=
  if s.roll.named ∧ s.rollRuns then .next (s.fence false) else .next s

/-- A module that has heard fewer than a majority of its ALIVE neighbours for SELF us fences itself. -/
def execSelfFenceTimeout (s : State) : Outcome State Fault Refusal :=
  let n := (s.aliveNbrs s.node).length
  if s.rollRuns ∧ n ≠ 0 ∧ s.heardIn (s.rollCfg ROLL_CFG.SELF) < n / 2 + 1 then .next (s.fence true) else .next s

/-- A fenced module resets 10 ms later where EXRST is 1, once. -/
def execFenceMrst (s : State) : Outcome State Fault Refusal :=
  match s.roll.fencedAt with
  | none => .next s
  | some t =>
    if s.rdB ROLL_CTL.EXRST ∧ t + 10000000 ≤ s.now then
      .next ({ s with roll := { s.roll with fencedAt := none } }.mrstDue 6 0 0 0 0 0)
    else .next s

end Sys2Proof.Machine
end

