-- ==== Sys2Proof/Machine/Winnow.lean ====
section
/-! DEFINITION. Winnow (R558 to R563): the scheduler and the end of a kernel; trace units (R564 to R566); the check of the timebase
copies (R39). -/

namespace Sys2Proof.Machine

open Host

/-! ### The scheduler (R560, R561) -/

/-- Kernels in a pass. -/
def wnwKernels : Nat := 48

/-- Has core `c` been free for IDLEMIN us? -/
def State.idleLong (s : State) (c : Nat) : Bool :=
  s.coreFree c && decide ((s.wnwOf c).freeSince + s.rd WNW_CFG.IDLEMIN * 1000 ≤ s.now)

/-- The cores of a list whose last pass is the oldest: the one that ended first, or those that have had none. -/
def State.oldestPass (s : State) (l : List Nat) : List Nat :=
  l.filter (fun c => l.all (fun k => decide ((s.wnwOf c).passNo ≤ (s.wnwOf k).passNo)))

/-- One core of a list; which one of those that have had no pass, R560 leaves open (DESIGN CHOICE, safe, log entry 3). -/
def State.anyOf (s : State) (l : List Nat) : Option Nat × State :=
  match l with
  | [] => (none, s)
  | [c] => (some c, s)
  | c :: r =>
    let (w, s) := s.free64
    (some (nth (c :: r) c (w.toNat % (r.length + 1))), s)

/-- A kernel of core `c`'s pass starts. -/
def State.wnwRun (s : State) (c : Nat) : State := s.modWnw c (fun w => { w with running := true })

/-- The scheduler looks at die `d`: an idle slot for the free core tested longest ago, else a due core is marked forced. A forced core
that has become free goes first, and one that is gated or asleep with its die is neither free nor due. -/
def State.wnwDie (s : State) (d : Nat) : State :=
  let cs := dieCores d
  if cs.any (fun c => (s.wnwOf c).running) then s
  else match cs.find? (fun c => (s.wnwOf c).forced && s.coreFree c) with
    | some c => s.wnwRun c
    | none =>
      match s.anyOf (s.oldestPass (cs.filter s.idleLong)) with
      | (some c, s) => s.wnwRun c
      | (none, s) =>
        if cs.any s.wnwForced then s
        else match s.anyOf (s.oldestPass (cs.filter s.coreDue)) with
          | (some c, s) => (s.modWnw c (fun w => { w with forced := true })).wnwKick c
          | (none, s) => s

/-- The scheduler's 10 us tick for compute die `d`; it runs once the kernels are loaded (R581, step 7). -/
def execWinnowSchedule (d : Nat) (s : State) : Outcome State Fault Refusal :=
  .next (if decide (d < s.variant.cdies) && s.rdB WNW_CFG.EN && s.alive && !s.stby.inStby && decide (8 ≤ s.boot.stage) &&
      decide (s.boot.stage ≤ 12) then s.wnwDie d else s)

/-! ### The end of a kernel (R558, R559, R562) -/

/-- A mismatch is logged, the first one while VALID is 0 (R576). -/
def State.wnwLog (s : State) (c k : Nat) (fenced : Bool) : State :=
  if s.rdB WNW_LOG.VALID then s
  else s.wrs .WNW_LOG 0 0 0 [(WNW_LOG.VALID, 1), (WNW_LOG.CORE, c), (WNW_LOG.KERNEL, k), (WNW_LOG.FENCED, b2n fenced),
    (WNW_LOG.TIME, s.time32)]

/-- Core `c` is fenced (R562). -/
def State.wnwFence (s : State) (c k : Nat) : State :=
  let s := s.wrBit WNW_FENCE.CORES (c % 64) true 0 (c / 64)
  let s := s.modWnw c (fun w => { w with running := false, forced := false, ret := false, next := 0, reruns := 0, bad := 0 })
  ((s.wnwLog c k true).faultNote 9 .WNW_LOG).wnwRestore c

/-- The kernel's answer holds: the next one of the pass runs in a forced or a return pass; an idle slot ends. -/
def State.wnwAdvance (s : State) (c : Nat) : State :=
  let w := s.wnwOf c
  let on := w.ret || (w.forced && s.rdB WNW_CFG.EN)
  let s := s.modWnw c (fun w => { w with next := w.next + 1, reruns := 0, bad := 0 })
  if w.next + 1 < wnwKernels then
    if on then s else ((s.modWnw c (fun w => { w with running := false })).touched c).wnwRestore c
  else if w.ret then s.modWnw c (fun w => { w with running := false })
  else (s.passEnded c).wnwRestore c

/-- A winnow kernel of core `c` ends with this CRC-64 of its outputs. A mismatch runs twice more; if both reruns match, it was
transient, otherwise the core is fenced. -/
def execWinnowKernelEnd (c : Nat) (crc : W64) (s : State) : Outcome State Fault Refusal :=
  let w := s.wnwOf c
  if !w.running ∨ wnwKernels ≤ w.next ∨ !s.alive then .next s
  else
    let ok := decide (s.boot.flash.answers.get 0 w.next = crc)
    match w.reruns with
    | 0 => .next (if ok then s.wnwAdvance c else s.modWnw c (fun w => { w with reruns := 2, bad := 0 }))
    | 1 =>
      .next (if ok && w.bad == 0 then ((s.incSat WNW_STAT.TRANSIENT 1 0).wnwLog c w.next false).wnwAdvance c
        else s.wnwFence c w.next)
    | r + 2 => .next (s.modWnw c (fun w => { w with reruns := r + 1, bad := w.bad + b2n (!ok) }))

/-! ### Trace (R564 to R566, R577, R578) -/

/-- Is `u` a trace unit: core n, or 0x100 + b for base die b? -/
def traceUnit (v : Variant) (u : Nat) : Bool := u < v.cores || (256 ≤ u && u - 256 < v.bdies)

/-- Does unit `u` record this type (R578)? A LOST record is the unit's own. -/
def State.traceOn (s : State) (u typ : Nat) : Bool :=
  if u < 256 then
    match typ with
    | 1 => s.rdB OBS_CORE.EN u
    | 3 => s.rdB OBS_CORE.KERN u
    | 4 => s.rdB OBS_CORE.KERN u
    | 5 => s.rdB OBS_CORE.EXC u
    | 6 => s.rd OBS_CORE.SAMPLE u != 0
    | _ => false
  else
    match typ with
    | 2 => u == 256 && s.rdB OBS_BASE.EN && s.rdB OBS_BASE.EVT
    | 6 => s.rdB OBS_BASE.EN (u - 256) && s.rd OBS_BASE.SAMPLE (u - 256) != 0
    | 7 => u == 256 && s.rdB OBS_BASE.EN && s.rdB OBS_BASE.EVT
    | 8 => u == 256 && s.rdB OBS_BASE.EN && s.rdB OBS_BASE.EVT
    | _ => false

/-- A trace unit takes a record of a type that it is set to record. -/
def execTraceRecord (u typ sub : Nat) (payload : W64) (s : State) : Outcome State Fault Refusal :=
  .next (if traceUnit s.variant u && s.traceOn u typ then s.traceAdd u typ sub payload else s)

/-- Counter samples of a unit: four counters of a core from FIRST on, or the byte counts of a base die's stacks. -/
def State.samples (s : State) (u : Nat) : List (Nat × W64) :=
  if u < 256 then
    (List.range 4).map (fun k =>
      let n := (s.rd OBS_CORE.FIRST u + k) % 64
      (n, s.reg .CNT_VAL u n 0))
  else
    (List.range 8).map (fun k =>
      (k, if k < 4 then s.reg .MEM_RD (4 * (u - 256) + k) 0 0 else s.reg .MEM_WR (4 * (u - 256) + (k - 4)) 0 0))

/-- SAMPLE of a unit, in us (R578). -/
def State.samplePeriod (s : State) (u : Nat) : Nat := if u < 256 then s.rd OBS_CORE.SAMPLE u else s.rd OBS_BASE.SAMPLE (u - 256)

/-- Is unit `u` to sample: SAMPLE us have passed since it last did? -/
def State.sampleDue (s : State) (u : Nat) : Bool :=
  s.traceOn u 6 && (match (s.trace.get {} u).sampledAt with
    | some t => decide (t + s.samplePeriod u * 1000 ≤ s.now)
    | none => true)

/-- A unit records its counter samples. -/
def execTraceSample (u : Nat) (s : State) : Outcome State Fault Refusal :=
  .next (if traceUnit s.variant u && s.sampleDue u then
      (s.samples u).foldl (fun s e => s.traceAdd u 6 e.1 e.2)
        { s with trace := s.trace.upd {} u (fun t => { t with sampledAt := some s.now }) }
    else s)

/-- Records in a datagram. -/
def traceMax : Nat := 512

/-- Is a datagram of unit `u` due (R565)? -/
def State.traceDue (s : State) (u : Nat) : Bool :=
  let t := s.trace.get {} u
  !t.buf.isEmpty && (decide (traceMax ≤ t.buf.length) || decide (t.oldest + s.rd OBS_CFG.FLUSH * 1000 ≤ s.now))

/-- Can trace leave: it is enabled, its Ethernet port runs, and OBS_CFG.RATE leaves room? -/
def State.traceOpen (s : State) : Bool :=
  s.rdB OBS_CFG.EN && s.rdB ETH_STAT.LINK (s.rd OBS_CFG.PORT) && s.alive && !s.flt.egressOff && decide (s.fab.traceAt ≤ s.now)

/-- Bytes of a datagram of unit `u` with these records (R565): its header, and 16 B a record. -/
def State.traceBytes (s : State) (u : Nat) (l : List (W64 × W64)) : List Byte :=
  fieldBytes 32 [(0, 0x4A545243), (32, s.rd FAB_NODE.NODE), (48, u), (64, (s.trace.get {} u).seqNo), (96, l.length), (128, s.epoch)] ++
    bytes64 (l.map (fun e => [e.1, e.2])).flatten

/-- Time, in ns, that `n` bytes take at OBS_CFG.RATE, of which 0 acts as 1 (R565, R577; DESIGN CHOICE, unsafe, log entry 96). -/
def State.traceNs (s : State) (n : Nat) : Nat :=
  let r := max 1 (s.rd OBS_CFG.RATE)
  (8 * n + r - 1) / r

/-- Time at which a record was taken whose 48-bit stamp is `x`, on the clock of unit `u` as it now stands. -/
def State.tracedAt (s : State) (u x : Nat) : Nat := s.now - (s.timeAt (unitTime u) + 2 ^ 48 - x) % 2 ^ 48

/-- The records that were dropped are reported once there is space again (R566). -/
def State.traceLost (s : State) (u : Nat) : State :=
  let t := s.trace.get {} u
  if t.dropped = 0 then s
  else { s with trace := s.trace.set {} u { t with dropped := 0 } }.traceAdd u 9 0 (w64 t.dropped)

/-- A unit sends a datagram (R565). -/
def execTraceDatagramSend (u : Nat) (s : State) : Outcome State Fault Refusal :=
  if !traceUnit s.variant u ∨ !s.traceDue u ∨ !s.traceOpen then .next s
  else
    let t := s.trace.get {} u
    let out := t.buf.take traceMax
    let rest := t.buf.drop traceMax
    let data := s.traceBytes u out
    let o : EthOut := .trace (s.rd OBS_DEST2.UDP) (s.rdB OBS_DEST2.IPV6) (s.reg .OBS_DEST 0 0 0) (s.reg .OBS_DEST 0 1 0) data
    let oldest := match rest with
      | [] => 0
      | e :: _ => s.tracedAt u (bits e.1.toNat 63 16)
    let t' : TraceUnit := { t with buf := rest, seqNo := (t.seqNo + 1) % 2 ^ 32, oldest := oldest }
    let until_ := s.now + s.traceNs data.length
    let s := ({ s with trace := s.trace.set {} u t' }.ethSay (s.rd OBS_CFG.PORT) o).incWrap OBS_STAT.SENT 1 0
    .next ({ s with fab := { s.fab with traceAt := until_ } }.traceLost u)

/-! ### The timebase (R39) -/

/-- Base die 0 compares the copies of the other base dies with its own, and loads again any that is off by more than 5 ns; compute dies,
16 and on, have theirs from their base dies. -/
def execTimebaseCheck (s : State) : Outcome State Fault Refusal :=
  .next { s with skew := s.skew.keep (fun k d => decide (16 ≤ k) || (decide (-5 ≤ d) && decide (d ≤ 5))) }

end Sys2Proof.Machine
end

