-- ==== Sys2Proof/Machine/LowPower.lean ====
section
/-! DEFINITION. Core reset (R580), low-power states (R595, R596), and the board-management bus (R597). -/

namespace Sys2Proof.Machine

open Host

/-! ### Core gate and die fallow (R595, R605) -/

/-- May core `c` be gated: its die is no guest (R502), and it has no kernel, no winnow kernel, no pending stook request, an empty gleaner queue? -/
def State.canGate (s : State) (c : Nat) : Bool :=
  let k := s.core c
  !s.dieGuest (c / 16) && k.kernel.isNone && !(s.wnwOf c).running && !(s.wnwOf c).ret && k.stook.pending == 0 && k.gln.queue.isEmpty

/-- CRST of core `c` is asked for (R580): of a gated core, or one on a die in fallow, it waits for the wake; of one that is in reset
with its die it does nothing. -/
def State.askCrst (s : State) (c : Nat) : State :=
  if s.gated c || s.fallow (c / 16) then
    { s with pwr := { s.pwr with cores := s.pwr.cores.upd {} c (fun x => { x with crstPend := true }) } }
  else if s.coreHere c && s.dieReleased (c / 16) then s.coreReset c
  else s

/-- A request to enter or to leave core gate. -/
def State.askGate (s : State) (c : Nat) (on : Bool) : State :=
  if on = s.gated c then s
  else if on then (if s.canGate c then s.wr PWR_DOM_LP.GATE 1 c else s.wr PWR_DOM_LP.REFUSED 1 c)
  else if s.coreHere c && s.dieReleased (c / 16) then s.wakeCore c
  else s.wr PWR_DOM_LP.GATE 0 c

/-- Can die `d` enter fallow: it is released and no guest, and each of its cores is gated or could be? -/
def State.canFallow (s : State) (d : Nat) : Bool :=
  s.dieReleased d && !s.dieGuest d && (dieCores d).all (fun c => s.gated c || s.canGate c)

/-- A request to enter or to leave die fallow. -/
def State.askFallow (s : State) (d : Nat) (on : Bool) : State :=
  if on = s.fallow d then s
  else if on then
    (if s.canFallow d then (s.wr PWR_DOM_LP.FALLOW 1 (192 + d)).wrBit GLB_DIEMAP.RELEASED d false
     else s.wr PWR_DOM_LP.REFUSED 1 (192 + d))
  else s.wakeDie d

/-- A write of PWR_DOM_LP of domain `i` (R605): fields that do not apply to the domain ignore the write. -/
def State.writeDomLp (s : State) (i : Nat) (v : W64) : State :=
  if !domExists s.variant i ∨ 204 ≤ i then s
  else
    let s := if bitB v.toNat 3 then s.wr PWR_DOM_LP.REFUSED 0 i else s
    if i < 192 then
      let s := s.askGate i (bitB v.toNat 0)
      if bitB v.toNat 2 then s.askCrst i else s
    else s.askFallow (i - 192) (bitB v.toNat 1)

/-- A write of PWR_DOM_LP that resets core `i`. -/
def execCrst (i : Nat) (v : W64) (s : State) : Outcome State Fault Refusal := .next (s.onWrite (fun s => s.writeDomLp i v))
/-- A write of PWR_DOM_LP that asks for core gate, or leaves it. -/
def execCoreGate (i : Nat) (v : W64) (s : State) : Outcome State Fault Refusal := .next (s.onWrite (fun s => s.writeDomLp i v))
/-- A write of PWR_DOM_LP that asks for die fallow, or leaves it. -/
def execDieFallow (i : Nat) (v : W64) (s : State) : Outcome State Fault Refusal := .next (s.onWrite (fun s => s.writeDomLp i v))

/-! ### Module standby (R595, R596) -/

/-- Why standby is refused (R605): 0 where it is not. -/
def State.standbyRefusal (s : State) : Nat :=
  if !s.isReady then 1
  else if s.que.qs.any (fun e => e.2.st != 0 && e.2.st != 1) then 2
  else if !s.col.ctxs.isEmpty then 3
  else if s.anyKernel then 4
  else 0

/-- The core domains turn off: what the cores ran is lost, and a winnow kernel with it. -/
def State.coresOff (s : State) : State :=
  (List.range s.variant.cores).foldl (fun s c =>
    ((s.coreLost c).setCore c {}).modWnw c (fun w =>
      { w with running := false, forced := false, ret := false, next := 0, reruns := 0, bad := 0 })) s

/-- The module enters standby (R596): off the fabric, cores off, bay caches written back and empty, links and ports down. -/
def State.enterStandby (s : State) : State :=
  let s := (s.wr FAB_NODE.ONFAB 0).coresOff
  let s := (List.range s.variant.stacks).foldl (fun s t => s.bayEmpty t) s
  let s := (List.range s.variant.links).foldl (fun s l => s.linkFresh l 0) s
  let s := s.resetRegs kStandby (fun _ => true)
  { s with stby := { s.stby with inStby := true, left := false } }

/-- A write of PWR_STBY. -/
def State.writeStby (s : State) (v : W64) : State :=
  if !bitB v.toNat 0 || s.stby.inStby then s
  else
    let r := s.standbyRefusal
    if r = 0 then s.enterStandby else s.wr PWR_STBY.REFUSED r

/-- PWR_STBY.ENTER. -/
def execStandbyEnter (v : W64) (s : State) : Outcome State Fault Refusal := .next (if s.alive then s.writeStby v else s)

/-- Links whose receive fibres all see light begin to train (R391, R471); a MISWIRED link does not. -/
def State.startTraining (s : State) : State :=
  (List.range s.variant.links).foldl (fun s l =>
    let st := s.rd FAB_LINK.STATE l
    if (st == 0 || st == 6) && !(s.link l).miswired && !s.linkDark l then s.wr FAB_LINK.STATE 1 l else s) s

/-- Ethernet ports that are enabled train again. -/
def State.ethRelink (s : State) : State :=
  (List.range s.variant.ethPorts).foldl (fun s e =>
    s.wr ETH_STAT.LINK (b2n (s.rdB ETH_CFG.EN e && s.lanesOk e)) e) s

/-- Return passes of all cores that run (R547). -/
def State.returnPasses (s : State) : State :=
  (List.range s.variant.cores).foldl (fun s c =>
    if s.dieReleased (c / 16) && !s.gated c then s.returnPass c else s) s

/-- The module leaves standby (R596): the epoch rises, window caches are empty, ports and links train, return passes run. It stays off
the fabric. Fields that standby resets stand at their reset values, whatever has been written meanwhile (R20). -/
def State.leaveStandby (s : State) : State :=
  let s := { s with
    stby := { s.stby with inStby := false, left := true }
    win := { s.win with cache := [], walks := [], stale := [] } }
  let s := (s.resetRegs kStandby (fun _ => true)).newEpoch ((s.epoch + 1) % 2 ^ 64)
  ((if s.rd FAB_NODE.STRAPERR = 0 then s.startTraining else s).ethRelink).returnPasses

/-! ### The board-management bus (R597) -/

/-- Does the module answer on the bus: the input is within the running range (R511)? -/
def State.busUp (s : State) : Bool := s.pwr.up

/-- WAKE: no effect outside standby. -/
def execWake (s : State) : Outcome State Fault Refusal :=
  .next (if s.busUp && s.alive && s.stby.inStby then s.leaveStandby else s)

/-- The STATUS word. -/
def State.statusWord (s : State) : W64 :=
  w64 (s.boot.stage + (b2n s.stby.inStby) <<< 4 + (s.rd PWR_STAT.TRIP) <<< 5 + (s.rd PWR_STAT.TRIPSRC) <<< 6 +
    s.node <<< 9 + (s.rd FAB_NODE.ONFAB) <<< 18)

/-- The next private read returns this word. -/
def State.arm (s : State) (w : W64) : State := if s.busUp then { s with stby := { s.stby with armed := some w } } else s

/-- STATUS. -/
def execStatus (s : State) : Outcome State Fault Refusal := .next (s.arm s.statusWord)

/-- A reserved command code: ignored, and the next private read returns zeros. Codes 1 and 2 are WAKE and STATUS, rows of their own. -/
def execI3cReservedCommand (code : Byte) (s : State) : Outcome State Fault Refusal :=
  .next (if code = 1 ∨ code = 2 then s else s.arm 0)

/-- The dynamic address after a common command. ENTDAA and SETDASA give one to a target that has none, SETNEWDA changes it, RSTDAA
takes it away. -/
def dynAfter (old : Option Nat) (k : I3cCcc) : Option Nat :=
  match k, old with
  | .entdaa a, none => some (a % 128)
  | .setdasa a, none => some (a % 128)
  | .setnewda a, some _ => some (a % 128)
  | .rstdaa, _ => none
  | _, o => o

/-- A common command of the board's controller. -/
def execI3cCommonCommand (k : I3cCcc) (s : State) : Outcome State Fault Refusal :=
  .next (if s.busUp then { s with stby := { s.stby with dynAddr := dynAfter s.stby.dynAddr k } } else s)

end Sys2Proof.Machine
end

