-- ==== Sys2Proof/Machine/Boot.lean ====
section
/-! DEFINITION. Module reset and the boot sequence (R541 to R543, R579 to R584), firmware and its verification (R585 to R589, R592),
measurement (R590), attestation (R591), calibration (R594), the watchdog (R569), and the end of a return pass (R547). -/

namespace Sys2Proof.Machine

open Host

/-! ### Module reset (R579, R598) -/

/-- The module after a POR or an MRST has acted: fields that the kind resets, all memories at zero or undefined as R297 has it,
everything else as at reset. What stands outside the module (sources and their light, flash, OTP, straps, input) is kept. -/
def State.reboot (s : State) (kind : Nat) : State :=
  let z : State := State.reset
  let r := s.resetRegs kind (fun _ => true)
  { z with
    variant := s.variant
    free := s.free
    pending := s.pending
    csr := r.csr
    pho := { z.pho with
      sources := s.pho.sources.mapDrop (fun _ => {}) (fun _ x => { x with samples := [], dead := false, mirrorAt := 0 })
      fibres := s.pho.fibres.mapDrop (fun _ => {}) (fun _ x => ({ lit := x.lit } : Fibre)) }
    pwr := { z.pwr with vin := s.pwr.vin, up := s.pwr.up }
    boot := { z.boot with flash := s.boot.flash, otp := s.boot.otp, pins := s.boot.pins }
    stby := { z.stby with tap := s.stby.tap, dynAddr := s.stby.dynAddr, armed := s.stby.armed } }

/-- A module reset that is due acts (R541, R543, R579); PWR_STAT then shows the input as it stands (R511). After a thermal trip there is
none (R524). -/
def execMrst (s : State) : Outcome State Fault Refusal :=
  .next (if s.flt.mrstCause.isSome && s.alive then (s.reboot kMRST).showInput s.pwr.vin else s)

/-- Sources that are removed or fitted while the module has no power (R28). -/
def State.exchange (s : State) (l : List (Nat × Option (List Byte))) : State :=
  l.foldl (fun s e => s.modSource e.1 (fun _ => match e.2 with
    | some d => { memory := some d }
    | none => { answers := false })) s

/-- Power-on reset (R579): the board's reset input, or the input's return, before which sources may have been exchanged. Outside the running
range of R511 the module stays without power. -/
def execPor (board : PowerOn) (s : State) : Outcome State Fault Refusal :=
  let up := decide (46000 ≤ s.pwr.vin) && decide (s.pwr.vin ≤ 62000)
  let s := if s.pwr.up then s else s.exchange board.sources
  let s := (s.reboot kPOR).showInput s.pwr.vin
  .next { s with
    pwr := { s.pwr with up := up }
    boot := { s.boot with pins := board.straps }
    stby := {} }

/-- A halter write of FLT_CTL (R543, R569). -/
def State.writeFltCtl (s : State) (v : W64) : State :=
  if bitB v.toNat 0 then s.mrstDue 5 0 0 0 0 0 else s

/-- FLT_CTL.MRST, which the halter link accepts from the end of boot step 1 on (R583). -/
def execFltCtlMrst (v : W64) (s : State) : Outcome State Fault Refusal :=
  .next (if s.linkLit then s.writeFltCtl v else s)

/-- A halter write of FLT_WDOG (R569). A watchdog that is enabled starts its period. -/
def State.writeWdog (s : State) (v : W64) : State :=
  let was := s.rdB FLT_WDOG.EN
  let s := s.wrs .FLT_WDOG 0 0 0 [(FLT_WDOG.EN, FLT_WDOG.EN.get v), (FLT_WDOG.PERIOD, FLT_WDOG.PERIOD.get v)]
  if bitB v.toNat 17 || (!was && bitB v.toNat 0) then { s with flt := { s.flt with kickAt := s.now } } else s

/-- FLT_WDOG.KICK over the halter link. -/
def execWatchdogKick (v : W64) (s : State) : Outcome State Fault Refusal :=
  .next (if s.linkLit && s.isReady then s.writeWdog v else s)

/-- The watchdog's period is over: the module is to reset (R543), and a WATCHDOG notification leaves (R538). The next period begins, so that
one expiry is one fault. -/
def execWatchdogExpiry (s : State) : Outcome State Fault Refusal :=
  let period := max 1 (s.rd FLT_WDOG.PERIOD) * 1000000
  if s.rdB FLT_WDOG.EN && s.alive && decide (s.flt.kickAt + period ≤ s.now) then
    .next (({ s with flt := { s.flt with kickAt := s.now } }.mrstDue 4 0 0 0 0 0).faultNote 12 .FLT_REC0)
  else .next s

/-- A halter write of GLB_EPOCH_SET (R544). -/
def execGlbEpochSet (v : W64) (s : State) : Outcome State Fault Refusal :=
  .next (if s.linkLit && s.isReady then s.writeEpochSet v else s)

/-! ### Images (R585 to R587, R592) -/

/-- LEN of an image. -/
def imgLen (d : List Byte) : Nat := num d 8 4
/-- Header and body. -/
def imgBody (d : List Byte) : List Byte := d.take (16 + imgLen d)
/-- The customer public key of an image. -/
def imgCpub (d : List Byte) : List Byte := cut d (16 + imgLen d + sigLen) 2592

/-- Is a customer key programmed (R604)? -/
def State.custKeyed (s : State) : Bool := bitB s.boot.otp.word.toNat 8

/-- Does an image verify (R587)? -/
def State.imgOk (s : State) (d : List Byte) : Bool :=
  let o := s.boot.otp
  num d 0 4 == 0x4A465731 && decide (imgLen d ≤ 0x1FFC000) && num d 7 1 == 0 && num d 12 4 == 0 &&
    Config.mldsaVerify o.rootKey (Config.sha3 (imgBody d)) (cut d (16 + imgLen d) sigLen) &&
    (!s.custKeyed ||
      (decide (Config.sha3 (imgCpub d) = o.custDigest) &&
        Config.mldsaVerify (imgCpub d) (Config.sha3 (imgBody d)) (cut d (16 + imgLen d + sigLen + 2592) sigLen))) &&
    decide (bits o.word.toNat 7 0 ≤ num d 6 1)

/-- The slot that boots (R587). -/
def State.bootSlot (s : State) : Option (Nat × List Byte) :=
  if s.imgOk s.boot.flash.slot0 then some (0, s.boot.flash.slot0)
  else if s.imgOk s.boot.flash.slot1 then some (1, s.boot.flash.slot1)
  else none

/-- The site key that step 2 installs (R592), given the image that boots. -/
def State.siteKeyOf (s : State) (img : List Byte) : Option (List Byte) :=
  let d := s.boot.flash.site
  let signer := if s.custKeyed then imgCpub img else s.boot.otp.rootKey
  if num d 0 4 = 0x4A534B31 ∧ Config.mldsaVerify signer (Config.sha3 (d.take 2596)) (cut d 2596 sigLen) then some (cut d 4 2592)
  else none

/-! ### Measurement (R590) -/

/-- M is extended by an item, which firmware keeps. -/
def State.extend (s : State) (x : List Byte) : State :=
  { s with boot := { s.boot with meas := Config.sha3 (s.boot.meas ++ Config.sha3 x), items := s.boot.items ++ [x] } }

/-- Firmware writes the items into its part of the reserved range, in order, each at a multiple of 8 B. Where each lies is free, and so are
the bytes that fill up its last word (DESIGN CHOICE, safe, log entry 53). -/
def State.writeItems (s : State) : State :=
  (s.boot.items.zipIdx.foldl (fun (x : State × Nat) e =>
    let a := x.2 + 8 * (Config.itemGap e.2 % 0x100000)
    let (f, s) := x.1.freeBytes (ceilDiv e.1.length 8 * 8 - e.1.length)
    (s.firmPut a (e.1 ++ f), a + ceilDiv e.1.length 8 * 8)) (s, s.variant.resBase + 0x8000000)).1

/-! ### Boot steps (R581, R582) -/

/-- The next step starts. -/
def State.nextStage (s : State) : State := { s with boot := { s.boot with stage := s.boot.stage + 1, stepAt := s.now } }

/-- No winnow kernel runs any more. -/
def State.wnwStop (s : State) : State :=
  { s with wnw := s.wnw.mapDrop (fun _ => {}) (fun _ w => { w with running := false }) }

/-- The boot stops (R582): no core runs, and tensor links, which step 9 has trained, go down. -/
def State.bootFail (s : State) (code : Nat) : State :=
  let g := s.boot.stage
  let s := s.wrs .BOOT_STAT 0 0 0 [(BOOT_STAT.FAILSTEP, g), (BOOT_STAT.FAILCODE, code)]
  let s := { s with boot := { s.boot with stage := 13 } }.wnwStop
  if 9 < g then s.leaveFabric else s

/-- Node identity that the straps give (R387). -/
def strapNode (p : Nat) : Nat := bits p 2 0 <<< 6 + bits p 4 3 <<< 4 + bits p 6 5 <<< 2 + bits p 8 7

/-- Is a side of a fibre, or of a ring set, left untuned though it has light? -/
def State.untuned (s : State) (f : Nat) : Bool :=
  let x := s.fibre f
  !x.txOk || ((x.lit || fibWave f) && !x.rxOk)

/-- Step 1: straps are sampled and checked (R584), the sources' memories read (R463), the halter link's fibres tuned (R471). -/
def State.bootStep1 (s : State) (straps : BitVec 16) : State :=
  let p := straps.toNat
  let odd := popN 16 p % 2 == 1
  let node := strapNode p
  let s := s.wrs .GLB_STRAP 0 0 0 [(GLB_STRAP.PINS, p), (GLB_STRAP.PAROK, b2n odd)]
  let s := s.wrs .FAB_NODE 0 0 0 [(FAB_NODE.NODE, node),
    (FAB_NODE.STRAPERR, if !odd then 1 else if nodeFits s.variant node then 0 else 2)]
  let s := (List.range s.variant.sources).foldl (fun s k =>
    let x := s.source k
    if x.fitted then
      (s.wr PHO_SRC_STAT.PRESENT 1 k).wrs .PHO_SRC_CAL k 0 0 [(PHO_SRC_CAL.CALMON, x.calmon), (PHO_SRC_CAL.SERIAL, x.serial)]
    else s) s
  let s : State := { s with boot := { s.boot with pins := straps } }
  let s := s.nextStage
  if s.untuned 128 then s.tuneFail 128 else s

/-- Is a user offset within the factory limits of R515? -/
def uofsOk (k : Nat) : Bool := decide (-25 ≤ sext 8 k) && decide (sext 8 k ≤ 25)

/-- Calibration that step 2 loads (R594): UOFS, but for values beyond the factory limits, and FF0 to FF3. -/
def State.loadUcal (s : State) : State :=
  let ff := match s.boot.flash.userCal with
    | some u => u.ff
    | none => s.boot.otp.ff
  let s := s.setReg .PHO_FF 0 0 0 (w64 (packLanes 16 ((List.range 4).map (nth ff 0))))
  match s.boot.flash.userCal with
  | none => s
  | some u => (u.uofs.filter (fun e => uofsOk e.2)).foldl (fun s e => s.wr PWR_DOM_CTL.UOFS e.2 e.1) (s.wr BOOT_STAT.UCAL 1)

/-- The user calibration copy as the measurement takes it. Its bytes are not laid out by the spec: free ones stand for them, half a block at
most (R585; DESIGN CHOICE, safe, log entry 53). -/
def State.ucalItem (s : State) : List Byte × State :=
  match s.boot.flash.userCal with
  | none => (zeros64, s)
  | some _ =>
    let (w, s) := s.free64
    s.freeBytes (w.toNat % 0x8001)

/-- Step 2: firmware is verified; boot count, epoch, site key and calibration; measurement of items 1 to 7. -/
def State.bootStep2 (s : State) : State :=
  match s.bootSlot with
  | none => s.bootFail 1
  | some (slot, img) =>
    let key := s.siteKeyOf img
    let n := (s.boot.flash.bootCount + 1) % 2 ^ 24
    let s := { s with boot := { s.boot with
      slot := slot
      siteKey := key
      meas := zeros64
      items := []
      flash := { s.boot.flash with boots := s.boot.flash.boots.write n } } }
    let s := s.newEpoch (n * 2 ^ 40)
    let s := s.wrs .GLB_VERSION 0 0 0 [(GLB_VERSION.FW_MINOR, num img 4 1), (GLB_VERSION.FW_MAJOR, num img 5 1)]
    let s := s.wrs .BOOT_STAT 0 0 0 [(BOOT_STAT.SLOT, slot), (BOOT_STAT.SITEKEY, b2n key.isSome)]
    let s := s.wrs .ROLL_CFG 0 0 0 [(ROLL_CFG.HB, 20), (ROLL_CFG.SUSPECT, 100), (ROLL_CFG.FALLBACK, 500), (ROLL_CFG.SELF, 2500)]
    let s := s.loadUcal
    let s := s.extend (leBytes 8 s.boot.otp.romVersion.toNat)
    let s := s.extend (leBytes 8 s.boot.otp.word.toNat)
    let s := s.extend (imgBody img)
    let s := s.extend (if s.custKeyed then imgCpub img else zeros64)
    let s := s.extend (orZeros s.boot.flash.site)
    let (u, s) := s.ucalItem
    let s := s.extend u
    (s.extend (leBytes 8 (s.reg .GLB_STRAP 0 0 0).toNat)).storeSwept.nextStage

/-- The channels of a waveguide fail where a base die has not tuned its rings there. -/
def State.waveEnd (s : State) (w : Nat) : State := if (waveSets s.variant w).any s.untuned then s.failWave w else s

/-- Step 3: the other base dies come up, every base die has tuned its rings of the boot channels, and the timebase copies of the base dies
are loaded (R39). The compute sites begin their bring-up (R496). -/
def State.bootStep3 (s : State) : State :=
  let s := s.wr GLB_DIEMAP.BDIE_UP (2 ^ s.variant.bdies - 1)
  let s := (List.range (bootWaves s.variant)).foldl (fun s w => s.waveEnd w) s
  let s := (brokerPairs s.variant).zipIdx.foldl (fun s e =>
    (List.range 16).foldl (fun s i => s.modChan (16 * e.2 + i) (fun x => { x with pair := some e.1 })) s) s
  let s := (List.range s.variant.cdies).foldl (fun s d => s.modDie d (fun x => { x with upAt := s.now })) s
  { s with skew := [] }.nextStage

/-- Step 4: every die interface has been trained, or has failed; measurement of items 8 and 9. -/
def State.bootStep4 (s : State) : State :=
  let s := (List.range s.variant.cdies).foldl (fun s d => s.siteEnd d) s
  let caps := (List.range 12).map (fun d => if s.diePresent d then s.reg .DPORT_CAP d 0 0 else 0)
  let s := s.extend (bytes64 caps)
  (s.extend (bytes64 ((List.range 8).map (fun k => s.reg .PHO_SRC_CAL k 0 0)))).nextStage

/-- May die `d` be released in step 5 (R496, R499)? -/
def State.dieGoes (s : State) (d : Nat) : Bool :=
  s.diePresent d && s.rd DPORT_STAT.STATE d == 3 && !(s.die d).stays && !s.rdB DPORT_CTL.HOLD d &&
    (match (s.die d).boot with
     | some k => !capHeld k
     | none => false)

/-- Step 5: the compute dies are released. -/
def State.bootStep5 (s : State) : State :=
  ((List.range s.variant.cdies).foldl (fun s d => if s.dieGoes d then s.releaseDie d else s) s).nextStage

/-- Step 6: every stack has trained. Which generation a stack is, and its rate within the generation's limit, are free (R309, log
entry 3). -/
def State.bootStep6 (s : State) : State :=
  ((List.range s.variant.stacks).foldl (fun s t =>
    let (e, s) := s.freeBit
    let (r, s) := s.free64
    s.wrs .MEM_STAT t 0 0 [(MEM_STAT.TRAINED, 1), (MEM_STAT.GEN, if e then 2 else 1),
      (MEM_STAT.RATE, r.toNat % (if e then 129 else 101))]) s).nextStage

/-- Step 7: the smaller variants fill HBM, the reserved range is written, with the measured items in it (R590), and every released core
starts a return pass. -/
def State.bootStep7 (s : State) : State :=
  let s := (List.range s.variant.stacks).foldl (fun s t => s.wr MEM_STAT.FILLED (b2n (s.variant != .trn1216)) t) s
  (s.writeItems.nextStage).returnPasses

/-- Step 8 ends: fibres that have not tuned are FAILED (R471, R581), and the broker starts. -/
def State.bootStep8 (s : State) : State :=
  let s := ((List.range 256).filter (fun f => f != 128 && fibExists s.variant f && s.untuned f)).foldl (fun s f => s.tuneFail f) s
  let s := ((List.range 64).filter (fun w => fibExists s.variant (256 + w))).foldl (fun s w => s.waveEnd w) s
  let s := (s.wr PHO_STAT.TUNED 1).nextStage
  if s.rd FAB_NODE.STRAPERR = 0 then s.startTraining
  else { s with boot := { s.boot with stage := 11 } }

/-- The entry of the default routing table for node `n` (R394). -/
def State.defaultRoute (s : State) (n : Nat) : Nat :=
  let m := s.node
  match [0, 1, 2, 3].find? (fun d => coord n d != coord m d) with
  | none => 31
  | some d =>
    let (hi, lo) := match d with
      | 0 => (8, 6)
      | 1 => (5, 4)
      | 2 => (3, 2)
      | _ => (1, 0)
    let p := setBits m hi lo (coord n d)
    match (List.range s.variant.links).find? (fun l =>
        (s.rd FAB_LINK.STATE l == 2 || s.rd FAB_LINK.STATE l == 3) && s.rd FAB_LINK.PEER l == p) with
    | some l => l
    | none => 30

/-- Step 9 ends: the default routing table is loaded. Step 10 begins: the module joins the fabric, unless its identity failed a check
(R387), and asks for the roll. -/
def State.bootStep9 (s : State) : State :=
  let t := (List.range 512).map s.defaultRoute
  let s := (t.zipIdx.foldl (fun s e => s.wr FAB_RT.LINK e.1 0 e.2) s).nextStage
  if s.rd FAB_NODE.STRAPERR = 0 then (s.wr FAB_NODE.ONFAB 1).joinOut else s

/-- Step 10 ends once the roll has come, or is no longer waited for. -/
def State.bootStep10 (s : State) : State := if s.roll.joinAt.isNone || s.roll.admitted then s.nextStage else s

/-- A boot step ends, or a fatal cause stops it. -/
def execBootStepComplete (o : BootOutcome) (straps : BitVec 16) (s : State) : Outcome State Fault Refusal :=
  if !s.alive then .next s
  else match s.boot.stage, o with
    | 1, .ok => .next (s.bootStep1 straps)
    | 2, .ok => .next s.bootStep2
    | 2, .flash => .next (s.bootFail 2)
    | 3, .ok => .next s.bootStep3
    | 3, .baseDie => .next (s.bootFail 3)
    | 4, .ok => .next s.bootStep4
    | 5, .ok => .next s.bootStep5
    | 6, .ok => .next s.bootStep6
    | 6, .hbm => .next (s.bootFail 4)
    | 7, .ok => .next s.bootStep7
    | 8, .ok => .next s.bootStep8
    | 9, .ok => .next s.bootStep9
    | 10, .ok => .next s.bootStep10
    | _, _ => .next s

/-- Limit of a boot step, in ms (R581). -/
def bootLimit (stage : Nat) : Nat := nth [0, 200, 1500, 500, 2, 1, 1000, 200, 3000, 5000, 50, 10] 0 stage

/-- A boot step has reached its limit: steps 8 and 9 end there, any other one stops the boot. -/
def execBootStepTimeout (s : State) : Outcome State Fault Refusal :=
  let g := s.boot.stage
  if g = 0 ∨ 11 < g ∨ !s.alive ∨ s.now < s.boot.stepAt + bootLimit g * 1000000 then .next s
  else if g = 8 then .next s.bootStep8
  else if g = 9 then .next s.bootStep9
  else .next (s.bootFail 5)

/-- Has every return pass ended? -/
def State.passesOver (s : State) : Bool := s.wnw.all (fun e => !e.2.ret)

/-- Step 11 ends when every return pass is over: the module is READY. -/
def execReady (s : State) : Outcome State Fault Refusal :=
  if s.boot.stage ≠ 11 ∨ !s.alive ∨ !s.passesOver then .next s
  else .next ({ s with boot := { s.boot with stage := 12 } }.wr BOOT_STAT.TREADY (s.now / 1000000))

/-- The return pass of core `c` has ended, and the core takes work (R547). -/
def execReturnPassEnd (c : Nat) (s : State) : Outcome State Fault Refusal :=
  let w := s.wnwOf c
  .next (if w.ret && !w.running && decide (wnwKernels ≤ w.next) then s.passEnded c else s)

/-! ### Flash (R589, R594, R603) -/

/-- The image at a local E-space address, as firmware reads it: header, body, signatures; `none` where it leaves E-space, with the
state after the reads. -/
def State.readImage (s : State) (a : Nat) : Option (List Byte) × State :=
  if !inE s.variant a 16 then (none, s)
  else
    let h := s.eRead a 16 0 false .loader
    if h.ue then (none, h.st)
    else if num h.data 0 4 ≠ 0x4A465731 ∨ 0x1FFC000 < imgLen h.data then (none, h.st)
    else
      let n := 16 + imgLen h.data + sigLen + (if h.st.custKeyed then 2592 + sigLen else 0)
      if !inE s.variant a n then (none, h.st)
      else
        let r := h.st.eRead a n 0 false .loader
        if r.ue then (none, r.st) else (some r.data, r.st)

/-- What BOOT_FLUPD.GO does with the image that it read, of which there is none where the read failed (R589). -/
def State.storeImage (s : State) (v : W64) (x : Option (List Byte)) : State :=
  match x with
  | none => s.updateStart none 2
  | some d => if s.imgOk d then s.updateStart (some (BOOT_FLUPD.SLOT.get v, d)) 1 else s.updateStart none 2

/-- A write of BOOT_FLUPD (R603); GO runs R589. -/
def State.writeFlupd (s : State) (v : W64) : State :=
  let s := s.wrs .BOOT_FLUPD 0 0 0 [(BOOT_FLUPD.ADDR, BOOT_FLUPD.ADDR.get v), (BOOT_FLUPD.SLOT, BOOT_FLUPD.SLOT.get v)]
  if !bitB v.toNat 41 then s
  else if BOOT_FLUPD.SLOT.get v = s.boot.slot then s.wr BOOT_FLUPD.RESULT 3
  else
    let x := s.readImage (BOOT_FLUPD.ADDR.get v)
    x.2.storeImage v x.1

/-- BOOT_FLUPD.GO. -/
def execBootFlupdGo (v : W64) (s : State) : Outcome State Fault Refusal := .next (s.onWrite (fun s => s.writeFlupd v))

/-- A write of BOOT_UCAL: SAVE stores UOFS and FF0 to FF3 in user calibration (R594). -/
def State.writeUcal (s : State) (v : W64) : State :=
  if !bitB v.toNat 0 then s
  else
    let uofs := (List.range 236).foldl (fun (m : SMap Nat) i =>
      if domExists s.variant i then m.set 0 i (s.rd PWR_DOM_CTL.UOFS i) else m) []
    s.putUcal { (s.userCal.getD {}) with uofs := uofs, ff := lanes 16 4 (s.reg .PHO_FF 0 0 0).toNat }

/-- BOOT_UCAL.SAVE. -/
def execBootUcalSave (v : W64) (s : State) : Outcome State Fault Refusal := .next (s.onWrite (fun s => s.writeUcal v))

/-! ### Attestation (R591) -/

/-- Halter message 0x50: the report is signed and returned; behind a change request it waits for its turn. -/
def execAttestationRequest (msg : List Byte) (s : State) : Outcome State Fault Refusal :=
  if !s.linkLit then .next s
  else
    let nonce := cut (msg ++ List.replicate 48 0) 16 32
    .next (if s.win.change.isSome then { s with win := { s.win with attests := s.win.attests ++ [nonce] } } else s.attest nonce)

/-- Halter message 0x51: the identity certificate is returned unchanged. -/
def execCertificateRequest (_msg : W64) (s : State) : Outcome State Fault Refusal :=
  .next (if s.linkLit then s.say (.cert s.boot.flash.cert) else s)

end Sys2Proof.Machine
end

