-- ==== Sys2Proof/Machine/Access.lean ====
section
/-! DEFINITION. Access to control space (R17 to R22): what a register reads as, where it shows the state of a unit; the effect of a
write; the instructions CSR.RD and CSR.WR (R166, R167); the register, loader and reject messages of the halter link (R264 to R267, R583). -/

namespace Sys2Proof.Machine

open Host

/-- A word whose bits are those of a list of numbers, each in its place: low bit and value. -/
def places (l : List (Nat × Nat)) : W64 := w64 ((l.map (fun e => e.2 <<< e.1)).sum)

/-! ### What a register shows (R18) -/

/-- ARR_STAT (R90). SLOT_LOADING shows a load from the moment its MAT.LOADB leaves the head (R606). -/
def State.viewArrStat (s : State) (c a : Nat) : W64 :=
  let x := s.arr c a
  let slot := fun (f : Tile → Nat) (o : Option Tile) => (o.map f).getD 0
  let ld := fun (t : Nat) => b2n (x.loads.any (fun l => l.slot == t))
  let fl := fun (g : Nat) => b2n (x.inFlight g)
  puts 0 [(ARR_STAT.SLOT_VALID, b2n x.slot0.isSome + 2 * b2n x.slot1.isSome), (ARR_STAT.SLOT_LOADING, ld 0 + 2 * ld 1),
    (ARR_STAT.INFLIGHT, fl 0 + 2 * fl 1 + 4 * fl 2 + 8 * fl 3), (ARR_STAT.QDEPTH, x.queue.length),
    (ARR_STAT.OWNED, b2n (s.owned c a)), (ARR_STAT.FMT_S0, slot (·.fmt) x.slot0), (ARR_STAT.FMT_S1, slot (·.fmt) x.slot1),
    (ARR_STAT.K_S0, slot (·.k) x.slot0), (ARR_STAT.K_S1, slot (·.k) x.slot1), (ARR_STAT.N_S0, slot (·.n) x.slot0),
    (ARR_STAT.N_S1, slot (·.n) x.slot1)]

/-- The encoding of a group's state (R115). -/
def GState.code (g : GState) : Nat :=
  match g with
  | .closed => 0 | .int => 1 | .float => 2

/-- ACC_GSTAT (R133). PEND0 and PEND1 range over 0 to 8: a ninth instruction not yet in effect, where eight wait in the queue, reads as
8 (DEDUCED, unsafe, log entry 58). -/
def State.viewGstat (s : State) (c a : Nat) : W64 :=
  let x := s.arr c a
  places ((List.range 4).map (fun g => (2 * g, (x.gst g).code)) ++
    (List.range 4).map (fun g => (8 + 4 * g, min 8 (x.pendFor 0 g))) ++
    (List.range 4).map (fun g => (24 + 4 * g, min 8 (x.pendFor 1 g))))

/-- STOOK_STAT (R109). -/
def State.viewStookStat (s : State) (c : Nat) (w : W64) : W64 :=
  let x := (s.core c).stook
  let halves := b2n x.h0.isSome + b2n x.h1.isSome
  puts w [(STOOK_STAT.PENDING, x.pending), (STOOK_STAT.KEYS, ((List.range 64).filter (s.keyValid c)).length),
    (STOOK_STAT.SEALED, x.sealed.length + halves), (STOOK_STAT.BUSY, b2n (halves != 0))]

/-- STOOK_KEY_STAT (R114). RES_ARRAY and RES_SLOT, valid while RESIDENT is 1, read 0 while it is 0 (DESIGN CHOICE, unsafe, log entry
76). -/
def State.viewKeyStat (s : State) (c n : Nat) : W64 :=
  let y := s.stKey c n
  let st := if y.unbinding then 3 else if !s.keyValid c n then 0 else if y.batch.isEmpty then 1 else 2
  puts 0 ([(STOOK_KEY_STAT.STATE, st), (STOOK_KEY_STAT.ROWS, reqRows y.batch), (STOOK_KEY_STAT.REQS, y.batch.length)] ++
    (match y.res with
     | some r => [(STOOK_KEY_STAT.RES_ARRAY, r / 2), (STOOK_KEY_STAT.RES_SLOT, r % 2), (STOOK_KEY_STAT.RESIDENT, 1)]
     | none => []))

/-- GLN_STREAM (R229): the oldest unclaimed row is the one behind the last claimed. FMT and COLS read 0 while there is none (DESIGN
CHOICE, unsafe, log entry 99). -/
def State.viewStream (s : State) (c n : Nat) : W64 :=
  let x := (s.core c).gln.stream n
  let (f, k) := match x.find x.claimed with
    | some (g, _) => (g.fmt, g.cols)
    | none => (0, 0)
  puts 0 [(GLN_STREAM.BUFFERED, (x.segs.map (fun g => g.rows.length)).sum), (GLN_STREAM.FMT, f), (GLN_STREAM.COLS, k),
    (GLN_STREAM.UNCLAIMED, x.promised - x.claimed)]

/-- STATE of a collective context (R460): 1 while a stage still lacks the grant of some peer, 3 once it is to end. -/
def State.ctxState (s : State) (x : Ctx) : Nat :=
  if x.ended.isSome then 3
  else if x.op != 2 && (!x.started || (s.linePeers x).any (fun p => x.limit (s.ctxStage x).1 p == 0)) then 1
  else 2

/-- COL_CTX (R460). -/
def State.viewCtx (s : State) (i : Nat) : W64 :=
  match s.ctx i with
  | none => 0
  | some x => puts 0 [(COL_CTX.STATE, s.ctxState x), (COL_CTX.OP, x.op), (COL_CTX.STAGE, s.shownStage x),
      (COL_CTX.GROUP, x.group), (COL_CTX.SEQ, x.seq)]

/-- COL_GBOX (R461). -/
def State.viewBox (s : State) (j : Nat) : W64 :=
  places ((List.range 64).map (fun k => (k, b2n ((s.group (64 * j + k)).valid && (s.group (64 * j + k)).box))))

/-- PHO_BRK_ALLOC (R491). -/
def State.viewAlloc (s : State) (i : Nat) : W64 :=
  places ((List.range 4).map (fun j => (16 * j, (s.pho.channels.filter (fun e => e.2.pair == some (4 * i + j))).length)))

/-- PWR_DOM_STAT (R532). -/
def State.viewDom (s : State) (i : Nat) : W64 :=
  let x := s.dom i
  puts 0 [(PWR_DOM_STAT.STATE, s.domShown i), (PWR_DOM_STAT.PT, x.pt), (PWR_DOM_STAT.SETPT, x.setp),
    (PWR_DOM_STAT.LEVEL, x.level), (PWR_DOM_STAT.REACT, b2n (s.reactive i))]

/-- NBR of node `n` (R574): 0 before the straps are taken, where they failed a check, and beyond the variant's dimensions. -/
def State.isNbr (s : State) (n : Nat) : Bool :=
  s.rdB GLB_STRAP.PAROK && (s.rd FAB_NODE.STRAPERR == 0 || s.rd FAB_NODE.STRAPERR == 3) && nodeFits s.variant n && neighbour s.node n

/-- What a register reads as, given its stored word: a register that shows the state of a unit follows that unit. -/
def State.view (s : State) (r : RegAt) (w : W64) : W64 :=
  let v := s.variant
  match r.reg with
  | .GLB_ID => puts 0 [(GLB_ID.CDIES, v.cdies), (GLB_ID.STACKS, v.stacks), (GLB_ID.BDIES, v.bdies), (GLB_ID.PART, v.part),
      (GLB_ID.VENDOR, 0x4A4E)]
  | .GLB_VERSION => s.version
  | .GLB_TIME => w64 s.now
  | .CORE_CTL =>
    let a := s.sp r.n 0
    let b := s.sp r.n 1
    puts w [(CORE_CTL.RUN, b2n a.run + 2 * b2n b.run), (CORE_CTL.SUPER, b2n a.super + 2 * b2n b.super)]
  | .CORE_EXC => puts w [(CORE_EXC.PEND, (s.sp r.n r.i).pend.length)]
  | .ARR_STAT => s.viewArrStat r.n r.i
  | .ACC_GSTAT => s.viewGstat r.n r.i
  | .STOOK_STAT => s.viewStookStat r.n w
  | .STOOK_KEY_STAT => s.viewKeyStat r.n r.i
  | .GLN_STAT =>
    let q := (s.core r.n).gln.queue
    puts w [(GLN_STAT.QDEPTH, q.length), (GLN_STAT.BUSY, b2n (q.any (·.running)))]
  | .GLN_STREAM => s.viewStream r.n r.i
  | .GLN_RC => puts w [(GLN_RC.KEEP, ((s.core r.n).gln.rc.filter (·.keep)).length)]
  | .QUE_Q_PTR => puts 0 [(QUE_Q_PTR.HEAD, (s.queue r.i).head), (QUE_Q_PTR.TAIL, (s.queue r.i).tail)]
  | .QUE_Q_STAT => puts w [(QUE_Q_STAT.STATE, (s.queue r.i).st)]
  | .MEM_STAT => puts w [(MEM_STAT.BAND, (s.stack r.n).band)]
  | .BAY_STAT =>
    let k := s.stack r.n
    puts 0 [(BAY_STAT.BUSY, b2n k.busy), (BAY_STAT.DIRTY, (k.bay.filter (fun b => b.dirty != 0)).length),
      (BAY_STAT.KEEP, (k.bay.filter (·.keep)).length)]
  | .WIN_TABLE => w64 v.resBase
  | .FAB_STAT => puts w [(FAB_STAT.DRAINED, b2n s.drained)]
  | .COL_STAT => puts w [(COL_STAT.BUSY, s.col.ctxs.length), (COL_STAT.PEND, s.col.pend.length)]
  | .COL_CTX => s.viewCtx r.i
  | .COL_GBOX => s.viewBox r.i
  | .PHO_BRK_ALLOC => s.viewAlloc r.i
  | .PWR_DOM_CTL => if r.n < 192 then w else PWR_DOM_CTL.PT.put w 7
  | .PWR_DOM_STAT => s.viewDom r.n
  | .PWR_VT => w64 (bits (s.vtWord r.n r.i) 41 0)
  | .PWR_STBY => puts w [(PWR_STBY.IN, b2n s.stby.inStby)]
  | .BOOT_STAT => puts w [(BOOT_STAT.STAGE, s.boot.stage)]
  | .SEC_OTP => puts s.boot.otp.word [(SEC_OTP.CUSTKEY_EN, bits s.boot.otp.word.toNat 8 8)] &&& 0xFFFFFFFFFFFF01FF
  | .SEC_IDHASH => w64 (num s.idHash (8 * r.i) 8)
  | .SEC_MEAS => w64 (num s.measBytes (8 * r.i) 8)
  | .ROLL_STAT => s.viewRoll w
  | .ROLL_NODE => puts w [(ROLL_NODE.NBR, b2n (s.isNbr r.i))]
  | _ => w

/-! ### Where registers are (R22, R496) -/

/-- Does a die with sensors exist in the variant? -/
def dieExists (v : Variant) (k : Nat) : Bool := if k < 12 then k < v.cdies else k - 12 < v.bdies

/-- Is a register there: its unit is one of the variant's, and a core's die is present and no guest? -/
def State.mapped (s : State) (r : RegAt) : Bool :=
  match r.reg.place.unit with
  | .core => s.diePresent (r.n / 16) && !s.dieGuest (r.n / 16)
  | .dom => domExists s.variant r.n
  | .domvt => domExists s.variant r.n
  | .die => dieExists s.variant r.n
  | .sens => dieExists s.variant (sensorDie r.n)
  | .glob =>
    match r.reg with
    | .PHO_FIB_STAT => fibExists s.variant r.i
    | .PHO_RING_ASSIGN => fibExists s.variant r.i
    | .PHO_EYE => fibExists s.variant r.i
    | .PHO_ERR => fibExists s.variant r.i
    | _ => true
  | _ => true

/-- The register at an address, if one is there. -/
def State.regThere (s : State) (a : Nat) : Option RegAt :=
  match regAt s.variant a with
  | some r => if s.mapped r then some r else none
  | none => none

/-- Does an address lie in the island of a core that accepts no transfer (R38)? The block that sends an access towards it holds the access:
a scalar processor's instruction waits, and a message of the halter link waits at the end of the link, where its row comes again (DESIGN
CHOICE, safe, log entry 103). -/
def State.regShut (s : State) (a : Nat) : Bool :=
  match s.regThere a with
  | some r => decide (r.reg.place.unit = .core) && s.coreShut r.n
  | none => false

/-- Who accesses control space: the control node over the halter link, or a scalar processor, as 2 × core + p. -/
inductive Who where
  | halter
  | proc (k : Nat)
  deriving DecidableEq, Repr

/-- Is a register open to the one who accesses it: no processor reaches another's staging area (R263, R280)? -/
def Who.reaches (w : Who) (r : RegAt) : Bool :=
  match r.reg.place.unit, w with
  | .stage, .proc k => r.n == k
  | _, _ => true

/-! ### Reads -/

/-- Read-clear fields after a read (R18). -/
def Reg.cleared (r : Reg) (w : W64) : W64 := r.fields.foldl (fun w f => if f.acc = .rc then f.put w 0 else w) w

/-- What is counted up to now in a register that is about to be read: the bit errors of a running loopback (R505). -/
def State.beforeRead (s : State) (r : RegAt) : State :=
  match r.reg with
  | .DPORT_ERR => s.loopErrs r.n none
  | _ => s

/-- A read of the register at an address: its value, and the state with its read-clear fields cleared. An unmapped address reads 0. -/
def State.readReg (s : State) (who : Who) (a : Nat) : W64 × State :=
  match s.regThere a with
  | some r =>
    if who.reaches r then
      let s := s.beforeRead r
      let w := s.reg r.reg r.n r.i r.j
      let c := r.reg.cleared w
      (s.view r w, if c = w then s else s.setReg r.reg r.n r.i r.j c)
    else (0, s)
  | none => (0, s)

/-! ### Writes -/

/-- A write of a log whose COUNT clears with its VALID bit. -/
def State.writeLog (s : State) (r : RegAt) (v : W64) (count : Fld) : State :=
  let s := s.writeFields r.reg r.n r.i r.j v
  if bitB v.toNat 0 then s.wr count 0 r.n r.i r.j else s

/-- A write of CNT_CTL: CLEAR zeroes every counter (R182). -/
def State.writeCntCtl (s : State) (c : Nat) (v : W64) : State :=
  let s := s.writeFields .CNT_CTL c 0 0 v
  if bitB v.toNat 2 then (List.range 64).foldl (fun s n => s.setReg .CNT_VAL c n 0 0) s else s

/-- A write of OBS_CFG: a variant of one Ethernet port keeps PORT at 0 (R577). -/
def State.writeObsCfg (s : State) (v : W64) : State :=
  let s := s.writeFields .OBS_CFG 0 0 0 v
  if s.variant.ethPorts = 1 then s.wr OBS_CFG.PORT 0 else s

/-- Does a register hold SEAL fields? -/
def Reg.sealed (r : Reg) : Bool := r.fields.any (fun f => f.acc == .seal)

/-- What a write does to a register that is there (R18, R19, and the register's own rule). A write to SEAL fields is counted (R372).
FLT_CTL, FLT_WDOG and GLB_EPOCH_SET obey the halter link alone (R543). -/
def State.writeAt (s : State) (who : Who) (r : RegAt) (v : W64) : State :=
  match r.reg with
  | .ARR_CTL => s.writeArrCtl r.n r.i v
  | .ACC_SAT => s.writeAccSat r.n r.i r.j v
  | .ARR_ERR => s.writeLog r v ARR_ERR.COUNT
  | .STOOK_CTL => s.writeStookCtl r.n v
  | .STOOK_BUF => s.writeStookBuf r.n v
  | .STOOK_ERRLOG => s.writeLog r v STOOK_ERRLOG.COUNT
  | .STOOK_KEY_CFG => s.writeKeyCfg r.n r.i v
  | .STOOK_KEY_BLO => s.writeKeyDesc r.n r.i .STOOK_KEY_BLO v
  | .STOOK_KEY_BHI => s.writeKeyDesc r.n r.i .STOOK_KEY_BHI v
  | .GLN_CFG => s.writeGlnCfg r.n v
  | .GLN_ERR => s.writeLog r v GLN_ERR.COUNT
  | .CNT_CTL => s.writeCntCtl r.n v
  | .QUE_Q_CFG => s.writeQueCfg r.i v
  | .QUE_Q_BASE => s.writeQueBase r.i v
  | .QUE_Q_CTL => s.writeQueCtl r.i v
  | .QUE_EVT => s.writeEvt r.i v
  | .QUE_PUSH => s.corePush (r.n / 2) (r.n % 2) v
  | .MEM_CFG => s.writeMemCfg r.n v
  | .BAY_CFG => s.writeBayCfg r.n v
  | .BAY_CTL => s.writeBayCtl r.n v
  | .WIN_TD => s.writeWinTd v
  | .WIN_CACHE_CTL => s.writeWinCache r.n v
  | .FAB_CTL => s.writeFabCtl v
  | .FAB_POOL => s.writeFabPool v
  | .ETH_CFG => s.writeEthCfg r.n v
  | .COL_CTL => s.writeColCtl v
  | .COL_SCR => s.writeColScr r.n v
  | .PHO_EVT => s.writeLog r v PHO_EVT.COUNT
  | .DPORT_CTL => s.writeDportCtl r.n v none
  | .PWR_DOM_CTL => s.writeDomCtl r.n v
  | .PWR_DOM_LP => s.writeDomLp r.n v
  | .PWR_STBY => s.writeStby v
  | .FLT_CTL => if who = .halter then s.writeFltCtl v else s
  | .FLT_WDOG => if who = .halter then s.writeWdog v else s
  | .GLB_EPOCH_SET => if who = .halter then s.writeEpochSet v else s
  | .ROLL_VERDICT => s.writeLog r v ROLL_VERDICT.COUNT
  | .OBS_CFG => s.writeObsCfg v
  | .BOOT_UCAL => s.writeUcal v
  | .BOOT_FLUPD => s.writeFlupd v
  | _ =>
    let s := s.writeFields r.reg r.n r.i r.j v
    if r.reg.sealed then s.incSat WIN_CHG_STAT.SEALWR 1 0 else s

/-- A write to an address; one where no register is, or which is not open, has no effect. -/
def State.writeReg (s : State) (who : Who) (a : Nat) (v : W64) : State :=
  match s.regThere a with
  | some r => if who.reaches r then s.writeAt who r v else s
  | none => s

/-! ### The instructions (R166, R167) -/

/-- What stands in the way of a control-space access: user mode takes PRIV; an address that is not 8 B-aligned, or beyond 40 bits,
takes CSPACE (R172). -/
def State.csrGuard (s : State) (c p i : Nat) (a : W64) (eff : State → State) : State :=
  if !(s.sp c p).super then s.precise c p 2 (i % 2 ^ 32)
  else if a.toNat % 8 ≠ 0 ∨ 2 ^ 40 ≤ a.toNat then s.precise c p 5 a.toNat
  else if s.regShut a.toNat then s
  else eff s

/-- CSR.RD; its 8 B come in over the base-die port (R138, R185). -/
def execCsrRd (c p : Nat) (w : W32) (s : State) : Outcome State Fault Refusal :=
  let i := w.toNat
  .next (s.issue c p i (isSys i 4) (iRs2 i == 0 && iRs3 i == 0) [iRd i, iRs1 i] [] (fun s =>
    let a := (s.sp c p).xr (iRs1 i)
    s.csrGuard c p i a (fun s =>
      let (v, s) := s.readReg (.proc (2 * c + p)) a.toNat
      (s.count c 0x42 (some p) 8).retireX c p (iRd i) v)))

/-- CSR.WR; its 8 B go out over the base-die port. -/
def execCsrWr (c p : Nat) (w : W32) (s : State) : Outcome State Fault Refusal :=
  let i := w.toNat
  .next (s.issue c p i (isSys i 5) (iRd i == 0 && iRs3 i == 0) [iRs1 i, iRs2 i] [] (fun s =>
    let a := (s.sp c p).xr (iRs1 i)
    let v := (s.sp c p).xr (iRs2 i)
    s.csrGuard c p i a (fun s => ((s.count c 0x43 (some p) 8).retire c p 4).writeReg (.proc (2 * c + p)) a.toNat v)))

/-! ### The halter link (R264 to R267) -/

/-- Does the module accept a register message now (R583): after READY any; before, reads of GLB, FLT, SEC and BOOT, and writes of
FLT_CTL? -/
def State.regOpen (s : State) (a : Nat) (write : Bool) : Bool :=
  s.isReady ||
    (if write then a == Reg.FLT_CTL.addr 0 0 0 else a < 0x100000000 || (0x600000000 ≤ a && a < 0x700000000))

/-- CODE of a register message (R265, R267), given its low 128 bits. -/
def State.regCode (s : State) (m : Nat) (write : Bool) : Nat :=
  if bits m 15 8 ≠ 0 ∨ bits m 63 32 ≠ 0 ∨ bits m 127 104 ≠ 0 then 4
  else if bits m 103 64 % 8 ≠ 0 then 1
  else if !s.regOpen (bits m 103 64) write then 3
  else 0

/-- REGRD. -/
def execRegrd (msg : V128) (s : State) : Outcome State Fault Refusal :=
  let m := msg.toNat
  if !s.linkLit then .next s
  else
    let code := s.regCode m false
    if code ≠ 0 then .next (s.say (.regrd code (bits m 31 16) 0))
    else if s.regShut (bits m 103 64) then .next s
    else
      let (v, s) := s.readReg .halter (bits m 103 64)
      .next (s.say (.regrd 0 (bits m 31 16) v))

/-- REGWR: answered once the write has taken effect. -/
def execRegwr (msg : BitVec 192) (s : State) : Outcome State Fault Refusal :=
  let m := msg.toNat
  if !s.linkLit then .next s
  else
    let code := s.regCode m true
    if code ≠ 0 then .next (s.say (.regwr code (bits m 31 16)))
    else if s.regShut (bits m 103 64) then .next s
    else .next ((s.writeReg .halter (bits m 103 64) (w64 (bits m 191 128))).say (.regwr 0 (bits m 31 16)))

/-- A write of the control node to a control register, by its address: that of a REGWR without its answer (R583; DEDUCED, unsafe, log entry
55). -/
def execRegisterWrite (addr : Nat) (v : W64) (s : State) : Outcome State Fault Refusal :=
  .next (if s.linkLit && addr % 8 == 0 && s.regOpen addr true && !s.regShut addr then s.writeReg .halter addr v else s)

/-- CODE of a loader message (R266, R267). -/
def State.loadCode (s : State) (m : Nat) (write : Bool) : Nat :=
  let sp := bits m 9 8
  let n := bits m 44 32
  let a := bits m 127 64
  if bits m 15 10 ≠ 0 ∨ bits m 63 45 ≠ 0 ∨ (sp ≠ 1 ∧ sp ≠ 2) then 4
  else if a % 8 ≠ 0 then 1
  else if n < 8 ∨ 4096 < n ∨ n % 8 ≠ 0 then 4
  else if (if sp = 1 then s.variant.lEnd else s.variant.eEnd) < a + n then 2
  else if !s.isReady ∨ (write ∧ sp = 2 ∧ (s.frozen ∨ !inE s.variant a n)) then 3
  else 0

/-- LDRD: the words that `ups` names have check bits that decode as correctable. An uncorrectable error resets the module, and no answer
leaves. -/
def execLdrd (hdr : V128) (ups : List Upset) (s : State) : Outcome State Fault Refusal :=
  let m := hdr.toNat
  let n := bits m 44 32
  let sp := bits m 9 8
  if !s.linkLit then .next s
  else
    let code := s.loadCode m false
    if code ≠ 0 then .next (s.say (.ldrd code (bits m 31 16) n []))
    else
      let r := (s.mark sp 0 ups).memRead sp 0 (bits m 127 64) n 0 false .loader none
      .next (if r.ue then r.st else r.st.say (.ldrd 0 (bits m 31 16) n r.data))

/-- LDWR: LEN bytes of data follow the header. -/
def execLdwr (hdr : V128) (data : List Byte) (s : State) : Outcome State Fault Refusal :=
  let m := hdr.toNat
  let n := bits m 44 32
  let sp := bits m 9 8
  if !s.linkLit then .next s
  else
    let code := if data.length < n then 4 else s.loadCode m true
    if code ≠ 0 then .next (s.say (.ldwr code (bits m 31 16)))
    else
      let s := s.memWrite sp 0 (bits m 127 64) (data.take n) 0 .loader none
      .next (s.say (.ldwr 0 (bits m 31 16)))

/-- Messages that go to the module. -/
def msgKnown (m : Nat) : Bool := [0x01, 0x02, 0x03, 0x04, 0x21, 0x30, 0x40, 0x50, 0x51].contains m

/-- A message with a reserved MSG is answered with REJECT; one that only the module sends counts as reserved. -/
def execReject (msg : Byte) (s : State) : Outcome State Fault Refusal :=
  .next (if s.linkLit && !msgKnown msg.toNat then s.say (.reject msg.toNat) else s)

/-- A frame that comes in on the halter link is acknowledged where it is of at most 1,024 B and its CRC-32C holds; else nothing is
answered, and the other end sends it again (R264). -/
def State.frameIn (s : State) (d : List Byte) (crc : W32) : State :=
  if d.length ≤ 1024 ∧ crc.toNat = crc32c d then { s with stby := { s.stby with frames := s.stby.frames ++ [d] } } else s

/-- What befalls a frame of the halter link (R264). One that comes in is checked and acknowledged. One that has left is acknowledged by the
other end, or, where it has not been so within 2 us, is sent again. What the frames that came in carry is delivered by the rows of the
messages (DESIGN CHOICE, safe, log entry 84). -/
def execHalterFrameResend (f : FrameNews) (s : State) : Outcome State Fault Refusal :=
  match f.came with
  | some (d, crc) => .next (if s.linkLit then s.frameIn d crc else s)
  | none =>
  match s.halter[f.frame]? with
  | none => .next s
  | some x =>
    if !s.linkLit || x.acked then .next s
    else if f.acked then .next { s with halter := s.halter.set f.frame { x with acked := true } }
    else if x.sentAt + 2000 ≤ s.now then .next { s with halter := s.halter.set f.frame { x with sentAt := s.now, resends := x.resends + 1 } }
    else .next s

end Sys2Proof.Machine
end

