-- ==== Sys2Proof/Machine/Dispatch.lean ====
section
/-! DEFINITION. One arm per command: a direct call of its meaning. -/

namespace Sys2Proof.Machine

open Host

/-- The effect of a command on everything but the queue. -/
def exec (i : Instr) (s : State) : Host.Outcome State Fault Refusal :=
  match i with
  | .scalarRegOp c p w => Sys2Proof.Machine.execScalarRegOp c p w s
  | .scalarImmOp c p w => Sys2Proof.Machine.execScalarImmOp c p w s
  | .shiftImm c p w => Sys2Proof.Machine.execShiftImm c p w s
  | .lui c p w => Sys2Proof.Machine.execLui c p w s
  | .branch c p w => Sys2Proof.Machine.execBranch c p w s
  | .jal c p w => Sys2Proof.Machine.execJal c p w s
  | .jalr c p w => Sys2Proof.Machine.execJalr c p w s
  | .tdWlo c p w => Sys2Proof.Machine.execTdWlo c p w s
  | .tdWhi c p w => Sys2Proof.Machine.execTdWhi c p w s
  | .tdRlo c p w => Sys2Proof.Machine.execTdRlo c p w s
  | .tdRhi c p w => Sys2Proof.Machine.execTdRhi c p w s
  | .ldS c p w ups => Sys2Proof.Machine.execLdS c p w ups s
  | .stS c p w => Sys2Proof.Machine.execStS c p w s
  | .ldL c p w ups => Sys2Proof.Machine.execLdL c p w ups s
  | .stL c p w => Sys2Proof.Machine.execStL c p w s
  | .atomS c p w => Sys2Proof.Machine.execAtomS c p w s
  | .atomL c p w => Sys2Proof.Machine.execAtomL c p w s
  | .atomE c p w ups => Sys2Proof.Machine.execAtomE c p w ups s
  | .loadDataReturn c p => Sys2Proof.Machine.execLoadDataReturn c p s
  | .fenceL c p w => Sys2Proof.Machine.execFenceL c p w s
  | .acq c p w => Sys2Proof.Machine.execAcq c p w s
  | .evtWait c p w => Sys2Proof.Machine.execEvtWait c p w s
  | .evtSig c p w => Sys2Proof.Machine.execEvtSig c p w s
  | .fenceR c p w => Sys2Proof.Machine.execFenceR c p w s
  | .phase c p w => Sys2Proof.Machine.execPhase c p w s
  | .endInstr c p w => Sys2Proof.Machine.execEndInstr c p w s
  | .eret c p w => Sys2Proof.Machine.execEret c p w s
  | .supcall c p w => Sys2Proof.Machine.execSupcall c p w s
  | .brk c p w => Sys2Proof.Machine.execBrk c p w s
  | .csrRd c p w => Sys2Proof.Machine.execCsrRd c p w s
  | .csrWr c p w => Sys2Proof.Machine.execCsrWr c p w s
  | .cntRd c p w => Sys2Proof.Machine.execCntRd c p w s
  | .timeRd c p w => Sys2Proof.Machine.execTimeRd c p w s
  | .traceMarkInstr c p w => Sys2Proof.Machine.execTraceMarkInstr c p w s
  | .fps c p w => Sys2Proof.Machine.execFps c p w s
  | .ici c p w => Sys2Proof.Machine.execIci c p w s
  | .coreId c p w => Sys2Proof.Machine.execCoreId c p w s
  | .instructionFetchMiss c p => Sys2Proof.Machine.execInstructionFetchMiss c p s
  | .instructionLineArrival c p => Sys2Proof.Machine.execInstructionLineArrival c p s
  | .vadd c p w => Sys2Proof.Machine.execVadd c p w s
  | .vsub c p w => Sys2Proof.Machine.execVsub c p w s
  | .vmul c p w => Sys2Proof.Machine.execVmul c p w s
  | .vfma c p w => Sys2Proof.Machine.execVfma c p w s
  | .vmac c p w => Sys2Proof.Machine.execVmac c p w s
  | .vdiv c p w => Sys2Proof.Machine.execVdiv c p w s
  | .vsqrt c p w => Sys2Proof.Machine.execVsqrt c p w s
  | .vexp2 c p w => Sys2Proof.Machine.execVexp2 c p w s
  | .vlog2 c p w => Sys2Proof.Machine.execVlog2 c p w s
  | .vmax c p w => Sys2Proof.Machine.execVmax c p w s
  | .vmin c p w => Sys2Proof.Machine.execVmin c p w s
  | .vabs c p w => Sys2Proof.Machine.execVabs c p w s
  | .vneg c p w => Sys2Proof.Machine.execVneg c p w s
  | .vadds c p w => Sys2Proof.Machine.execVadds c p w s
  | .vsubs c p w => Sys2Proof.Machine.execVsubs c p w s
  | .vand c p w => Sys2Proof.Machine.execVand c p w s
  | .vor c p w => Sys2Proof.Machine.execVor c p w s
  | .vxor c p w => Sys2Proof.Machine.execVxor c p w s
  | .vshl c p w => Sys2Proof.Machine.execVshl c p w s
  | .vshra c p w => Sys2Proof.Machine.execVshra c p w s
  | .vshrl c p w => Sys2Proof.Machine.execVshrl c p w s
  | .vdot c p w => Sys2Proof.Machine.execVdot c p w s
  | .vcmp c p w => Sys2Proof.Machine.execVcmp c p w s
  | .vrsum c p w => Sys2Proof.Machine.execVrsum c p w s
  | .vrmax c p w => Sys2Proof.Machine.execVrmax c p w s
  | .vrmin c p w => Sys2Proof.Machine.execVrmin c p w s
  | .vperm c p w => Sys2Proof.Machine.execVperm c p w s
  | .vsel c p w => Sys2Proof.Machine.execVsel c p w s
  | .vbcast c p w => Sys2Proof.Machine.execVbcast c p w s
  | .vext c p w => Sys2Proof.Machine.execVext c p w s
  | .vins c p w => Sys2Proof.Machine.execVins c p w s
  | .pand c p w => Sys2Proof.Machine.execPand c p w s
  | .porPredicate c p w => Sys2Proof.Machine.execPorPredicate c p w s
  | .pxor c p w => Sys2Proof.Machine.execPxor c p w s
  | .pnot c p w => Sys2Proof.Machine.execPnot c p w s
  | .pfirst c p w => Sys2Proof.Machine.execPfirst c p w s
  | .pcount c p w => Sys2Proof.Machine.execPcount c p w s
  | .vcvt c p w => Sys2Proof.Machine.execVcvt c p w s
  | .vld c p w ups => Sys2Proof.Machine.execVld c p w ups s
  | .vst c p w => Sys2Proof.Machine.execVst c p w s
  | .vgather c p w => Sys2Proof.Machine.execVgather c p w s
  | .vscatter c p w => Sys2Proof.Machine.execVscatter c p w s
  | .matLoadb c p w => Sys2Proof.Machine.execMatLoadb c p w s
  | .matPass c p w => Sys2Proof.Machine.execMatPass c p w s
  | .matOpen c p w => Sys2Proof.Machine.execMatOpen c p w s
  | .matClose c p w => Sys2Proof.Machine.execMatClose c p w s
  | .tileMove c p w => Sys2Proof.Machine.execTileMove c p w s
  | .tileMoveComplete c => Sys2Proof.Machine.execTileMoveComplete c s
  | .glnGather c p w => Sys2Proof.Machine.execGlnGather c p w s
  | .glnSegred c p w => Sys2Proof.Machine.execGlnSegred c p w s
  | .glnScatadd c p w => Sys2Proof.Machine.execGlnScatadd c p w s
  | .glnMerge c p w => Sys2Proof.Machine.execGlnMerge c p w s
  | .glnIsect c p w => Sys2Proof.Machine.execGlnIsect c p w s
  | .glnSort c p w => Sys2Proof.Machine.execGlnSort c p w s
  | .glnProbe c p w => Sys2Proof.Machine.execGlnProbe c p w s
  | .glnDrain c p w => Sys2Proof.Machine.execGlnDrain c p w s
  | .stookPut c p w => Sys2Proof.Machine.execStookPut c p w s
  | .rld c p w => Sys2Proof.Machine.execRld c p w s
  | .rst c p w => Sys2Proof.Machine.execRst c p w s
  | .radd c p w => Sys2Proof.Machine.execRadd c p w s
  | .rstf c p w => Sys2Proof.Machine.execRstf c p w s
  | .rstfSend id => Sys2Proof.Machine.execRstfSend id s
  | .impreciseExceptionTaken c p => Sys2Proof.Machine.execImpreciseExceptionTaken c p s
  | .kernelEnd c => Sys2Proof.Machine.execKernelEnd c s
  | .tileQueueHeadCheck c a => Sys2Proof.Machine.execTileQueueHeadCheck c a s
  | .passStart c a => Sys2Proof.Machine.execPassStart c a s
  | .passRowEntry c a => Sys2Proof.Machine.execPassRowEntry c a s
  | .passComplete c a g ups => Sys2Proof.Machine.execPassComplete c a g ups s
  | .loadbStart c a => Sys2Proof.Machine.execLoadbStart c a s
  | .loadbComplete c a => Sys2Proof.Machine.execLoadbComplete c a s
  | .groupStateEffect c a g => Sys2Proof.Machine.execGroupStateEffect c a g s
  | .arrSlotClr c a v => Sys2Proof.Machine.execArrSlotClr c a v s
  | .slotClearEffect c a t => Sys2Proof.Machine.execSlotClearEffect c a t s
  | .accAccessRelease c p => Sys2Proof.Machine.execAccAccessRelease c p s
  | .accSatWrite c a g v => Sys2Proof.Machine.execAccSatWrite c a g v s
  | .stookSubmit q => Sys2Proof.Machine.execStookSubmit q s
  | .stookDeadlineSeal c => Sys2Proof.Machine.execStookDeadlineSeal c s
  | .stookDispatch c => Sys2Proof.Machine.execStookDispatch c s
  | .stookPassComplete c h => Sys2Proof.Machine.execStookPassComplete c h s
  | .stookScatterComplete c h => Sys2Proof.Machine.execStookScatterComplete c h s
  | .stookFlush c v => Sys2Proof.Machine.execStookFlush c v s
  | .stookAbort c v => Sys2Proof.Machine.execStookAbort c v s
  | .stookCtlWrite c v => Sys2Proof.Machine.execStookCtlWrite c v s
  | .stookBufWrite c v => Sys2Proof.Machine.execStookBufWrite c v s
  | .stookKeyBind c n v => Sys2Proof.Machine.execStookKeyBind c n v s
  | .stookKeyUnbind c n v => Sys2Proof.Machine.execStookKeyUnbind c n v s
  | .stookKeyDescWrite c n k v => Sys2Proof.Machine.execStookKeyDescWrite c n k v s
  | .gleanOpStart c perr => Sys2Proof.Machine.execGleanOpStart c perr s
  | .gleanStreamRowPlace c => Sys2Proof.Machine.execGleanStreamRowPlace c s
  | .gleanOpComplete c ups => Sys2Proof.Machine.execGleanOpComplete c ups s
  | .gleanOpFail c => Sys2Proof.Machine.execGleanOpFail c s
  | .gleanStallTimeout c => Sys2Proof.Machine.execGleanStallTimeout c s
  | .rcFlush c v => Sys2Proof.Machine.execRcFlush c v s
  | .nop q => Sys2Proof.Machine.execNop q s
  | .launch q => Sys2Proof.Machine.execLaunch q s
  | .launchComplete id => Sys2Proof.Machine.execLaunchComplete id s
  | .copy q => Sys2Proof.Machine.execCopy q s
  | .copyComplete b e ups => Sys2Proof.Machine.execCopyComplete b e ups s
  | .sow q => Sys2Proof.Machine.execSow q s
  | .glean q => Sys2Proof.Machine.execGlean q s
  | .rs q => Sys2Proof.Machine.execRs q s
  | .ag q => Sys2Proof.Machine.execAg q s
  | .barrier q => Sys2Proof.Machine.execBarrier q s
  | .waitCmd q => Sys2Proof.Machine.execWaitCmd q s
  | .signal q => Sys2Proof.Machine.execSignal q s
  | .fenceRemote q => Sys2Proof.Machine.execFenceRemote q s
  | .hintPhase q => Sys2Proof.Machine.execHintPhase q s
  | .timestamp q => Sys2Proof.Machine.execTimestamp q s
  | .traceMark q => Sys2Proof.Machine.execTraceMark q s
  | .teardownAck q => Sys2Proof.Machine.execTeardownAck q s
  | .ringPoll q => Sys2Proof.Machine.execRingPoll q s
  | .queueHeadCheck q => Sys2Proof.Machine.execQueueHeadCheck q s
  | .queueDispatch => Sys2Proof.Machine.execQueueDispatch s
  | .commandComplete => Sys2Proof.Machine.execCommandComplete s
  | .queueEnable q v => Sys2Proof.Machine.execQueueEnable q v s
  | .queueBaseWrite q v => Sys2Proof.Machine.execQueueBaseWrite q v s
  | .queueAbort q => Sys2Proof.Machine.execQueueAbort q s
  | .queueResume q => Sys2Proof.Machine.execQueueResume q s
  | .queEvtWrite e v => Sys2Proof.Machine.execQueEvtWrite e v s
  | .pushMessage hdr cmds => Sys2Proof.Machine.execPushMessage hdr cmds s
  | .quePush c p v => Sys2Proof.Machine.execQuePush c p v s
  | .regrd msg => Sys2Proof.Machine.execRegrd msg s
  | .regwr msg => Sys2Proof.Machine.execRegwr msg s
  | .ldrd hdr ups => Sys2Proof.Machine.execLdrd hdr ups s
  | .ldwr hdr data => Sys2Proof.Machine.execLdwr hdr data s
  | .reject msg => Sys2Proof.Machine.execReject msg s
  | .halterFrameResend f => Sys2Proof.Machine.execHalterFrameResend f s
  | .registerWrite addr v => Sys2Proof.Machine.execRegisterWrite addr v s
  | .bayFlush t => Sys2Proof.Machine.execBayFlush t s
  | .bayWbinv t => Sys2Proof.Machine.execBayWbinv t s
  | .bayFlushDone t => Sys2Proof.Machine.execBayFlushDone t s
  | .bayCfgWrite t v => Sys2Proof.Machine.execBayCfgWrite t v s
  | .memCfgWrite t v => Sys2Proof.Machine.execMemCfgWrite t v s
  | .stackTempSample t r => Sys2Proof.Machine.execStackTempSample t r s
  | .refreshBandChange t => Sys2Proof.Machine.execRefreshBandChange t s
  | .uncorrectableError block agent unit syn addr => Sys2Proof.Machine.execUncorrectableError block agent unit syn addr s
  | .windowWalkStart b page => Sys2Proof.Machine.execWindowWalkStart b page s
  | .windowWalkComplete b page ce => Sys2Proof.Machine.execWindowWalkComplete b page ce s
  | .remoteArrival pkt => Sys2Proof.Machine.execRemoteArrival pkt s
  | .remoteApply src srcid => Sys2Proof.Machine.execRemoteApply src srcid s
  | .remoteResponseArrival pkt => Sys2Proof.Machine.execRemoteResponseArrival pkt s
  | .remoteRetransmit id => Sys2Proof.Machine.execRemoteRetransmit id s
  | .remoteOpTimeout id => Sys2Proof.Machine.execRemoteOpTimeout id s
  | .skipArrival pkt => Sys2Proof.Machine.execSkipArrival pkt s
  | .combineWindowClose b idx => Sys2Proof.Machine.execCombineWindowClose b idx s
  | .combineEntryTimeout b idx => Sys2Proof.Machine.execCombineEntryTimeout b idx s
  | .foldApply b idx => Sys2Proof.Machine.execFoldApply b idx s
  | .teardownMessage msg => Sys2Proof.Machine.execTeardownMessage msg s
  | .vc3Teardown pkt => Sys2Proof.Machine.execVc3Teardown pkt s
  | .winTdThaw v => Sys2Proof.Machine.execWinTdThaw v s
  | .winCacheInv b v => Sys2Proof.Machine.execWinCacheInv b v s
  | .changeRequest bytes => Sys2Proof.Machine.execChangeRequest bytes s
  | .changeVerified => Sys2Proof.Machine.execChangeVerified s
  | .manifestApply => Sys2Proof.Machine.execManifestApply s
  | .packetForward link pkt corr => Sys2Proof.Machine.execPacketForward link pkt corr s
  | .packetDiscardStuck link idx => Sys2Proof.Machine.execPacketDiscardStuck link idx s
  | .creditReturn link vc shared => Sys2Proof.Machine.execCreditReturn link vc shared s
  | .creditRefresh link free => Sys2Proof.Machine.execCreditRefresh link free s
  | .hopFrameReceive link corr uncorr hops fibres => Sys2Proof.Machine.execHopFrameReceive link corr uncorr hops fibres s
  | .linkTraining link peer peerVariant peerLink => Sys2Proof.Machine.execLinkTraining link peer peerVariant peerLink s
  | .linkDozeEntry link lowUs => Sys2Proof.Machine.execLinkDozeEntry link lowUs s
  | .linkDozeWake link peerQueued => Sys2Proof.Machine.execLinkDozeWake link peerQueued s
  | .fabQuiesce v => Sys2Proof.Machine.execFabQuiesce v s
  | .fabPoolWrite v => Sys2Proof.Machine.execFabPoolWrite v s
  | .roceWrite port r => Sys2Proof.Machine.execRoceWrite port r s
  | .roceRead port r => Sys2Proof.Machine.execRoceRead port r s
  | .roceSend port r => Sys2Proof.Machine.execRoceSend port r s
  | .qpTransportTimeout port qp => Sys2Proof.Machine.execQpTransportTimeout port qp s
  | .ethCfgWrite port v => Sys2Proof.Machine.execEthCfgWrite port v s
  | .collectiveContextTake q => Sys2Proof.Machine.execCollectiveContextTake q s
  | .contextFullTimeout q => Sys2Proof.Machine.execContextFullTimeout q s
  | .sheafReadyArrival pkt => Sys2Proof.Machine.execSheafReadyArrival pkt s
  | .sheafDataArrival pkt => Sys2Proof.Machine.execSheafDataArrival pkt s
  | .sheafTrailerArrival pkt => Sys2Proof.Machine.execSheafTrailerArrival pkt s
  | .sheafResendArrival pkt => Sys2Proof.Machine.execSheafResendArrival pkt s
  | .sheafReduce ctx block off laneFails => Sys2Proof.Machine.execSheafReduce ctx block off laneFails s
  | .collectiveStageComplete ctx => Sys2Proof.Machine.execCollectiveStageComplete ctx s
  | .collectiveAbortArrival pkt => Sys2Proof.Machine.execCollectiveAbortArrival pkt s
  | .collectiveIdleTimeout ctx => Sys2Proof.Machine.execCollectiveIdleTimeout ctx s
  | .collectiveEnd ctx => Sys2Proof.Machine.execCollectiveEnd ctx s
  | .colAbort v => Sys2Proof.Machine.execColAbort v s
  | .colScrWrite b v => Sys2Proof.Machine.execColScrWrite b v s
  | .fadeSample currents => Sys2Proof.Machine.execFadeSample currents s
  | .mirrorReady fibre => Sys2Proof.Machine.execMirrorReady fibre s
  | .pathSwitch fibre => Sys2Proof.Machine.execPathSwitch fibre s
  | .trackingUpdate fibre ring rx errMHz lock => Sys2Proof.Machine.execTrackingUpdate fibre ring rx errMHz lock s
  | .ringRetuneDone fibre ring rx => Sys2Proof.Machine.execRingRetuneDone fibre ring rx s
  | .feedForwardUpdate b => Sys2Proof.Machine.execFeedForwardUpdate b s
  | .brokerPlan demand => Sys2Proof.Machine.execBrokerPlan demand s
  | .channelMoveComplete ch => Sys2Proof.Machine.execChannelMoveComplete ch s
  | .receiveFibreLight fibre => Sys2Proof.Machine.execReceiveFibreLight fibre s
  | .photonicTuning fibre rx verify power => Sys2Proof.Machine.execPhotonicTuning fibre rx verify power s
  | .dportDrst d => Sys2Proof.Machine.execDportDrst d s
  | .dieLockLoss d => Sys2Proof.Machine.execDieLockLoss d s
  | .dieBringup d trained cap => Sys2Proof.Machine.execDieBringup d trained cap s
  | .dportHoldWrite d v => Sys2Proof.Machine.execDportHoldWrite d v s
  | .dportLoopWrite d v errs => Sys2Proof.Machine.execDportLoopWrite d v errs s
  | .flitReplay d n => Sys2Proof.Machine.execFlitReplay d n s
  | .marginUpdate d => Sys2Proof.Machine.execMarginUpdate d s
  | .guestTempReport d r => Sys2Proof.Machine.execGuestTempReport d r s
  | .guestReportTimeout d => Sys2Proof.Machine.execGuestReportTimeout d s
  | .guestSig d e v => Sys2Proof.Machine.execGuestSig d e v s
  | .guestRegisterWait d e t => Sys2Proof.Machine.execGuestRegisterWait d e t s
  | .guestWaitAnswer d e t => Sys2Proof.Machine.execGuestWaitAnswer d e t s
  | .guestEAccess d ask addr len hint data => Sys2Proof.Machine.execGuestEAccess d ask addr len hint data s
  | .inputVoltageChange mv => Sys2Proof.Machine.execInputVoltageChange mv s
  | .pwrInReport mv da watts => Sys2Proof.Machine.execPwrInReport mv da watts s
  | .converterFail k => Sys2Proof.Machine.execConverterFail k s
  | .uofsWrite idx v => Sys2Proof.Machine.execUofsWrite idx v s
  | .ptWrite idx v => Sys2Proof.Machine.execPtWrite idx v s
  | .droopTrip idx det => Sys2Proof.Machine.execDroopTrip idx det s
  | .droopRelease idx det => Sys2Proof.Machine.execDroopRelease idx det s
  | .reactWindow idx cycles counts => Sys2Proof.Machine.execReactWindow idx cycles counts s
  | .regulatorUpdate idx => Sys2Proof.Machine.execRegulatorUpdate idx s
  | .hintLapse idx => Sys2Proof.Machine.execHintLapse idx s
  | .thermalSample readings => Sys2Proof.Machine.execThermalSample readings s
  | .sensorSelfCheck x devMilli => Sys2Proof.Machine.execSensorSelfCheck x devMilli s
  | .mrst => Sys2Proof.Machine.execMrst s
  | .fltCtlMrst v => Sys2Proof.Machine.execFltCtlMrst v s
  | .watchdogKick v => Sys2Proof.Machine.execWatchdogKick v s
  | .watchdogExpiry => Sys2Proof.Machine.execWatchdogExpiry s
  | .glbEpochSet v => Sys2Proof.Machine.execGlbEpochSet v s
  | .heartbeatSend => Sys2Proof.Machine.execHeartbeatSend s
  | .heartbeat node => Sys2Proof.Machine.execHeartbeat node s
  | .rollTick => Sys2Proof.Machine.execRollTick s
  | .vote node suspect => Sys2Proof.Machine.execVote node suspect s
  | .clear node suspect => Sys2Proof.Machine.execClear node suspect s
  | .voteExpiry => Sys2Proof.Machine.execVoteExpiry s
  | .verdict pkt link => Sys2Proof.Machine.execVerdict pkt link s
  | .domainAlarm k => Sys2Proof.Machine.execDomainAlarm k s
  | .domain pkt link => Sys2Proof.Machine.execDomain pkt link s
  | .join pkt link => Sys2Proof.Machine.execJoin pkt link s
  | .admitMsg pkt => Sys2Proof.Machine.execAdmitMsg pkt s
  | .admitTimeout => Sys2Proof.Machine.execAdmitTimeout s
  | .fenceSelf => Sys2Proof.Machine.execFenceSelf s
  | .selfFenceTimeout => Sys2Proof.Machine.execSelfFenceTimeout s
  | .fenceMrst => Sys2Proof.Machine.execFenceMrst s
  | .winnowSchedule d => Sys2Proof.Machine.execWinnowSchedule d s
  | .winnowKernelEnd c crc => Sys2Proof.Machine.execWinnowKernelEnd c crc s
  | .traceRecord u typ sub payload => Sys2Proof.Machine.execTraceRecord u typ sub payload s
  | .traceSample u => Sys2Proof.Machine.execTraceSample u s
  | .traceDatagramSend u => Sys2Proof.Machine.execTraceDatagramSend u s
  | .timebaseCheck => Sys2Proof.Machine.execTimebaseCheck s
  | .por straps => Sys2Proof.Machine.execPor straps s
  | .bootStepComplete o straps => Sys2Proof.Machine.execBootStepComplete o straps s
  | .bootStepTimeout => Sys2Proof.Machine.execBootStepTimeout s
  | .ready => Sys2Proof.Machine.execReady s
  | .returnPassEnd c => Sys2Proof.Machine.execReturnPassEnd c s
  | .bootFlupdGo v => Sys2Proof.Machine.execBootFlupdGo v s
  | .bootUcalSave v => Sys2Proof.Machine.execBootUcalSave v s
  | .attestationRequest msg => Sys2Proof.Machine.execAttestationRequest msg s
  | .certificateRequest msg => Sys2Proof.Machine.execCertificateRequest msg s
  | .crst idx v => Sys2Proof.Machine.execCrst idx v s
  | .coreGate idx v => Sys2Proof.Machine.execCoreGate idx v s
  | .dieFallow idx v => Sys2Proof.Machine.execDieFallow idx v s
  | .coreWake q => Sys2Proof.Machine.execCoreWake q s
  | .standbyEnter v => Sys2Proof.Machine.execStandbyEnter v s
  | .wake => Sys2Proof.Machine.execWake s
  | .status => Sys2Proof.Machine.execStatus s
  | .i3cReservedCommand code => Sys2Proof.Machine.execI3cReservedCommand code s
  | .illegalInstruction c p w => Sys2Proof.Machine.execIllegalInstruction c p w s
  | .i3cCommonCommand k => Sys2Proof.Machine.execI3cCommonCommand k s
  | .tapInstruction ir => Sys2Proof.Machine.execTapInstruction ir s

end Sys2Proof.Machine
end

