-- ==== Sys2Proof/Machine/Step.lean ====
section
/-! DEFINITION. One step: the command at the front of the queue, or, on an empty queue, one tick of the module's
timebase, which counts the 100 MHz reference interpolated to 1 ns (R39; DESIGN CHOICE, safe, log entry 14). -/

namespace Sys2Proof.Machine

open Host (Outcome)

/-- Length of a tick, in ns: the timebase is interpolated to 1 ns between the cycles of the reference (R39). -/
def tickNs : Nat := 1

/-- Time passes: one tick of the timebase, and of job time while any queue is enabled (R560). A write of flash whose time is over ends
(R603). -/
def State.tick (s : State) : State :=
  State.flashTick { s with
    now := s.now + tickNs
    jobNs := if s.que.qs.any (fun e => e.2.st != 0) then s.jobNs + tickNs else s.jobNs }

/-- The command at the front of the queue takes effect; with none waiting, time passes. -/
def step (s : State) : Outcome State Fault Refusal :=
  match s.pending with
  | [] => .next s.tick
  | c :: r => exec c { s with pending := r }

/-- The state with the command that a word spells at the front of the queue; unchanged where the word spells none. -/
def State.withFetchWord (s : State) (nbits w : Nat) : State :=
  match decodeTableWord nbits w with
  | some c => { s with pending := c :: s.pending }
  | none => s

end Sys2Proof.Machine
end

