-- ==== Sys2Proof/Safety.lean ====
section
/-! DEFINITION. What claims call a well-kept state: the memories in canonical form, so that equal memories are equal
data. -/

namespace Sys2Proof.Machine

/-- A core's scratchpad and accumulators are in canonical form: an unlisted byte or word is 0. -/
def Core.wf (k : Core) : Bool := SMap.wf k.spad (fun _ => some 0) && SMap.wf k.acc (fun _ => some 0)

/-- The module's memories are in canonical form: an unlisted byte of L-space is 0, and one of HBM what R297 and R298 make
of it. -/
def Memory.wf (v : Variant) (m : Mem) : Bool := SMap.wf m.loft (fun _ => some 0) && SMap.wf m.hbm (hbmDefault v)

/-- Every memory of a state is in canonical form. -/
def State.memOk (s : State) : Bool := Memory.wf s.variant s.mem && s.cores.all (fun e => e.2.wf)

/-! ### What a command leaves as it is, in the terms claims use -/

/-- Control registers keep their words, but for those at the addresses listed. -/
def RegsBut (s t : State) (l : List Nat) : Prop :=
  ∀ g n i j, Reg.addr g n i j ∉ l → t.reg g n i j = s.reg g n i j

/-- The addresses of the performance counters of core `c` and of their select registers, which note a wrap (R182, R183). -/
def cntRegs (c : Nat) : List Nat :=
  (List.range 64).flatMap (fun m => [Reg.addr .CNT_VAL c m 0, Reg.addr .CNT_SEL c m 0])

/-- Only core `c`, and control registers of the list, may differ. -/
structure OnlyCore (s t : State) (c : Nat) (l : List Nat) : Prop where
  /-- every field of the state but the cores and the control registers is the same: memory, queues, links, … -/
  rest : t = { s with cores := t.cores, csr := t.csr }
  cores : ∀ d, d ≠ c → t.core d = s.core d
  regs : RegsBut s t l

/-- Only scalar processor `p` of core `c`, and control registers of the list, may differ: scratchpad, accumulators, arrays, gleaner,
stook and the core's other processor are the same. -/
structure OnlySp (s t : State) (c p : Nat) (l : List Nat) : Prop extends OnlyCore s t c l where
  core : t.core c = (s.core c).setSp p (t.sp c p)

/-- Only control registers of the list may differ. -/
structure OnlyRegs (s t : State) (l : List Nat) : Prop where
  rest : t = { s with csr := t.csr }
  regs : RegsBut s t l

/-- An instruction row of processor `p` of core `c` goes ahead: the processor may issue, and none of the scalar registers `xs` and
vector registers `vs` that the instruction names is locked by an outstanding load (R140, R161, R173). -/
structure Issues (s : State) (c p : Nat) (xs vs : List Nat) : Prop where
  can : s.canIssue c p = true
  xfree : ∀ r ∈ xs, s.locked c p false r = false
  vfree : ∀ r ∈ vs, s.locked c p true r = false

/-- The processor after an instruction of `n` bytes that changes nothing else of it. -/
def Sp.past (u : Sp) (n : Nat) : Sp := { u with pc := u.pc + w64 n }

/-- Only control registers, trace buffers, the halter link's messages and the count of free values used may differ: what a read of
S-space or L-space leaves behind in counters and error logs (R302, R310). -/
def OnlyLogs (s t : State) : Prop :=
  t = { s with csr := t.csr, trace := t.trace, halter := t.halter, free := t.free }

/-- A command answers a next state, of which `P` holds. -/
def Completes (i : Instr) (s : State) (P : State → Prop) : Prop := ∃ t, exec i s = .next t ∧ P t

/-- A row of the vector unit goes ahead (R523): where no scalar or vector register that it names is locked and the processor may issue,
it has its effect in a cycle in which the unit accepts work, and in any other cycle it waits, with nothing changed but the count of
free values used. -/
def VectorRow (i : Instr) (s : State) (c p : Nat) (xs vs : List Nat) (effect : Prop) : Prop :=
  Issues s c p xs vs → ((s.throttled c).1 = false → effect) ∧
    ((s.throttled c).1 = true → Completes i s (fun t => t = (s.throttled c).2))

/-- A 32-bit instruction of the vector unit retires: the processor becomes `u` with the pc moved on, and nothing else changes but
performance counters and the count of free values used. -/
def RetiresV (i : Instr) (s : State) (c p : Nat) (u : Sp) : Prop :=
  Completes i s (fun t => t.sp c p = u.past 4 ∧ OnlySp (s.throttled c).2 t c p (cntRegs c))

/-- A 32-bit instruction of processor `p` of core `c` retires: the processor becomes `u` with the pc moved on, and nothing else changes
but performance counters. -/
def Retires (i : Instr) (s : State) (c p : Nat) (u : Sp) : Prop :=
  Completes i s (fun t => t.sp c p = u.past 4 ∧ OnlySp s t c p (cntRegs c))

end Sys2Proof.Machine
end

