-- ==== Sys2Proof/Certificates/Slice0/Obligations.lean ====
section
/-! DEFINITION. Statements about the module, for the provers. An instruction or a command that goes ahead `Completes`: it answers a next state,
of which what follows is said, in frames that name all that may have changed. -/

open Sys2Proof Sys2Proof.Machine

/-! ### Scalar instructions -/

/-- Scalar arithmetic (R149): a legal instruction that goes ahead writes its result to rd, moves the pc on by 4, and changes nothing
else of the module but performance counters. -/
def Obligations.ScalarArithmetic : Prop :=
  ∀ (s : State) (c p : Nat) (w : W32),
    (iMaj w.toNat = 0x01 → iF w.toNat ≤ 24 → iRs3 w.toNat = 0 → (21 ≤ iF w.toNat → iF w.toNat ≤ 23 → iRs2 w.toNat = 0) →
      Issues s c p [iRd w.toNat, iRs1 w.toNat, iRs2 w.toNat] [] →
      Retires (.scalarRegOp c p w) s c p ((s.sp c p).setX (iRd w.toNat)
        (aluOp (iF w.toNat) ((s.sp c p).xr (iRs1 w.toNat)) ((s.sp c p).xr (iRs2 w.toNat))))) ∧
    (iMaj w.toNat ∈ [2, 3, 4, 5, 7] → Issues s c p [iRd w.toNat, iRs1 w.toNat] [] →
      Retires (.scalarImmOp c p w) s c p ((s.sp c p).setX (iRd w.toNat)
        (immOp (iMaj w.toNat) ((s.sp c p).xr (iRs1 w.toNat)) (BitVec.ofInt 64 (iImm15 w.toNat))))) ∧
    (iMaj w.toNat = 0x06 → bits w.toNat 24 23 ≠ 3 → bits w.toNat 31 25 = 0 → Issues s c p [iRd w.toNat, iRs1 w.toNat] [] →
      Retires (.shiftImm c p w) s c p ((s.sp c p).setX (iRd w.toNat)
        (if bits w.toNat 24 23 = 0 then (s.sp c p).xr (iRs1 w.toNat) <<< bits w.toNat 22 17
         else if bits w.toNat 24 23 = 1 then (s.sp c p).xr (iRs1 w.toNat) >>> bits w.toNat 22 17
         else ((s.sp c p).xr (iRs1 w.toNat)).sshiftRight (bits w.toNat 22 17)))) ∧
    (iMaj w.toNat = 0x08 → Issues s c p [iRd w.toNat] [] →
      Retires (.lui c p w) s c p ((s.sp c p).setX (iRd w.toNat) (BitVec.ofInt 64 (iImm20 w.toNat * 4096))))

/-- What the scalar register operations of MAJ 0x01 compute, by their code F (R149), in the terms of bit-vector arithmetic. -/
def Obligations.ScalarResults : Prop :=
  ∀ x y : W64,
    aluOp 0 x y = x + y ∧ aluOp 1 x y = x - y ∧ aluOp 2 x y = x &&& y ∧ aluOp 3 x y = x ||| y ∧ aluOp 4 x y = x ^^^ y ∧
    aluOp 5 x y = x <<< (y.toNat % 64) ∧ aluOp 6 x y = x >>> (y.toNat % 64) ∧ aluOp 7 x y = x.sshiftRight (y.toNat % 64) ∧
    aluOp 8 x y = (if x.slt y then 1 else 0) ∧ aluOp 9 x y = (if x.ult y then 1 else 0) ∧ aluOp 10 x y = x * y ∧
    aluOp 11 x y = (x.signExtend 128 * y.signExtend 128).extractLsb' 64 64 ∧
    aluOp 12 x y = (x.zeroExtend 128 * y.zeroExtend 128).extractLsb' 64 64 ∧
    aluOp 13 x y = (if y = 0 then BitVec.allOnes 64 else x.sdiv y) ∧
    aluOp 14 x y = (if y = 0 then BitVec.allOnes 64 else x / y) ∧
    aluOp 15 x y = (if y = 0 then x else x.srem y) ∧ aluOp 16 x y = (if y = 0 then x else x % y) ∧
    aluOp 17 x y = (if x.slt y then x else y) ∧ aluOp 18 x y = (if x.slt y then y else x) ∧
    aluOp 19 x y = (if x.ult y then x else y) ∧ aluOp 20 x y = (if x.ult y then y else x) ∧
    aluOp 21 x y = BitVec.ofNat 64 ((List.range 64).countP (fun i => x.getLsbD i)) ∧
    aluOp 22 x y = x.clz ∧ aluOp 23 x y = x.ctz ∧
    aluOp 24 x y = ((x + y).truncate 32).signExtend 64

/-- Control transfer (R149): a branch tests rs1 against rs2 and goes to its own address plus the offset, or on; JAL and JALR leave the
address of the next instruction in rd; JALR clears the low two bits of its target. x0 as rd keeps 0. -/
def Obligations.ScalarControl : Prop :=
  ∀ (s : State) (c p : Nat) (w : W32),
    (iMaj w.toNat = 0x0A → iCond w.toNat ≤ 5 → Issues s c p [iRd w.toNat, iRs1 w.toNat] [] →
      Completes (.branch c p w) s (fun t => OnlySp s t c p (cntRegs c) ∧
        t.sp c p = { s.sp c p with pc := (s.sp c p).pc +
          (if condHolds (iCond w.toNat) ((s.sp c p).xr (iRd w.toNat)) ((s.sp c p).xr (iRs1 w.toNat))
           then BitVec.ofInt 64 (iImm12 w.toNat * 4) else 4) })) ∧
    (iMaj w.toNat = 0x0B → Issues s c p [iRd w.toNat] [] →
      Completes (.jal c p w) s (fun t => OnlySp s t c p (cntRegs c) ∧
        t.sp c p = { (s.sp c p).setX (iRd w.toNat) ((s.sp c p).pc + 4) with
          pc := (s.sp c p).pc + BitVec.ofInt 64 (iImm20 w.toNat * 4) })) ∧
    (iMaj w.toNat = 0x0C → Issues s c p [iRd w.toNat, iRs1 w.toNat] [] →
      Completes (.jalr c p w) s (fun t => OnlySp s t c p (cntRegs c) ∧
        t.sp c p = { (s.sp c p).setX (iRd w.toNat) ((s.sp c p).pc + 4) with
          pc := BitVec.ofNat 64 (((s.sp c p).xr (iRs1 w.toNat) + BitVec.ofInt 64 (iImm15 w.toNat)).toNat / 4 * 4) }))

/-- Tile descriptor registers (R150): TD.WLO and TD.WHI replace one half of t[rd], TD.RLO and TD.RHI read one half of t[rs1]; the other
half and every other register keep their values. -/
def Obligations.TileDescriptorMoves : Prop :=
  ∀ (s : State) (c p : Nat) (w : W32), iMaj w.toNat = 0x0D → iRs2 w.toNat = 0 → iRs3 w.toNat = 0 →
    (iF w.toNat = 0 → iRd w.toNat < 16 → Issues s c p [iRs1 w.toNat] [] →
      Retires (.tdWlo c p w) s c p ((s.sp c p).setT (iRd w.toNat)
        (((s.sp c p).tr (iRd w.toNat)).extractLsb' 64 64 ++ (s.sp c p).xr (iRs1 w.toNat)))) ∧
    (iF w.toNat = 1 → iRd w.toNat < 16 → Issues s c p [iRs1 w.toNat] [] →
      Retires (.tdWhi c p w) s c p ((s.sp c p).setT (iRd w.toNat)
        ((s.sp c p).xr (iRs1 w.toNat) ++ ((s.sp c p).tr (iRd w.toNat)).extractLsb' 0 64))) ∧
    (iF w.toNat = 2 → iRs1 w.toNat < 16 → Issues s c p [iRd w.toNat] [] →
      Retires (.tdRlo c p w) s c p ((s.sp c p).setX (iRd w.toNat) (((s.sp c p).tr (iRs1 w.toNat)).extractLsb' 0 64))) ∧
    (iF w.toNat = 3 → iRs1 w.toNat < 16 → Issues s c p [iRd w.toNat] [] →
      Retires (.tdRhi c p w) s c p ((s.sp c p).setX (iRd w.toNat) (((s.sp c p).tr (iRs1 w.toNat)).extractLsb' 64 64)))

/-! ### Scalar memory accesses -/

/-- Byte `k` of a register, least significant first (R44). -/
def byteOf (v : W64) (k : Nat) : Byte := v.extractLsb' (8 * k) 8

/-- A scalar access of `n` bytes at `a` of a space is made at once: it is aligned, and no tile move of the processor and no pass into the
group holds it back (R127, R149, R157). -/
structure Goes (s : State) (c p space a n : Nat) : Prop where
  aligned : a % n = 0
  free : s.moveBusy c p space a n = false
  idle : space = 0 → s.accBusy c (some p) a n = false

/-- Where a memory row takes no effect (R125, R127, R149, R157, R173): ACCESS at an address that its space does not have or R125 bars, else
ALIGN at one that is no multiple of `al`; it waits while a tile move of its processor covers its bytes; and an access to an accumulation
group becomes the processor's pending access while a pass stands before it. `u` is the state that the row finds. -/
def MemoryGuards (i : Instr) (u : State) (c p : Nat) (w : W32) (space a n al : Nat) (bad : Prop) (s : State) : Prop :=
  (bad → Completes i s (fun t => t = u.precise c p 4 a)) ∧
  (¬bad → a % al ≠ 0 → Completes i s (fun t => t = u.precise c p 3 a)) ∧
  (¬bad → a % al = 0 → u.moveBusy c p space a n = true → Completes i s (fun t => t = u)) ∧
  (¬bad → a % al = 0 → u.moveBusy c p space a n = false → space = 0 → u.accBusy c (some p) a n = true →
    Completes i s (fun t => t = u.modSp c p (fun x => { x with accWait := some w })))

/-- Scalar loads and stores (R149, R287, R323). LD.S delivers what its bytes read as, sign- or zero-extended; ST.S replaces the bytes of
scratchpad that it names, or the accumulator words unless the stook owns their array, and no other; LD.L reads its
bytes of L-space as it issues, and the data return delivers them to rd; ST.L replaces its bytes of L-space and no other. That LD.L reads
at issue, in program order, is the model's reading of R323 (log entry 70). Each takes ACCESS beyond its space, and in the accumulator range
where it is narrower than a word or misaligned, else ALIGN where it is misaligned, and waits as R127 and R157 have it; of which of the two a
misaligned access that begins below the accumulator range takes, log entry 71 speaks. -/
def Obligations.ScalarMemory : Prop :=
  ∀ (s : State) (c p : Nat) (w : W32), s.memOk = true →
    (∀ ups, iMaj w.toNat = 0x10 → Issues s c p [iRd w.toNat, iRs1 w.toNat] [] →
      sBarred (mAddr (s.sp c p) w.toNat) (mSize w.toNat) = false → Goes s c p 0 (mAddr (s.sp c p) w.toNat) (mSize w.toNat) →
      Completes (.ldS c p w ups) s (fun t =>
        (∃ d, t.sp c p = ((s.sp c p).setX (iRd w.toNat) (loadValue d (iSx w.toNat))).past 4 ∧
          d = ((s.mark 0 c ups).sRead c (mAddr (s.sp c p) w.toNat) (mSize w.toNat) .scalar (some p)).data ∧
          (mAddr (s.sp c p) w.toNat + mSize w.toNat ≤ accBase →
            d = SMap.range (s.core c).spad 0 (mAddr (s.sp c p) w.toNat) (mSize w.toNat))) ∧
        t.mem = s.mem ∧ (t.core c).spad = (s.core c).spad ∧ (t.core c).acc = (s.core c).acc ∧ ∀ d, d ≠ c → t.core d = s.core d)) ∧
    (iMaj w.toNat = 0x11 → Issues s c p [iRd w.toNat, iRs1 w.toNat] [] →
      sBarred (mAddr (s.sp c p) w.toNat) (mSize w.toNat) = false → Goes s c p 0 (mAddr (s.sp c p) w.toNat) (mSize w.toNat) →
      Completes (.stS c p w) s (fun t =>
        t.sp c p = ((s.sp c p).vbStore 0 (mAddr (s.sp c p) w.toNat)
          (leBytes (mSize w.toNat) ((s.sp c p).xr (iRd w.toNat)).toNat)).past 4 ∧
        (∀ a, SMap.get (t.core c).spad 0 a =
          if mAddr (s.sp c p) w.toNat ≤ a ∧ a < mAddr (s.sp c p) w.toNat + mSize w.toNat ∧ a < accBase
          then byteOf ((s.sp c p).xr (iRd w.toNat)) (a - mAddr (s.sp c p) w.toNat) else SMap.get (s.core c).spad 0 a) ∧
        (∀ k, SMap.get (t.core c).acc 0 k =
          if mAddr (s.sp c p) w.toNat ≤ accBase + 4 * k ∧ accBase + 4 * k < mAddr (s.sp c p) w.toNat + mSize w.toNat ∧
              s.owned c (k / 0x40000) = false
          then ((s.sp c p).xr (iRd w.toNat)).extractLsb' (8 * (accBase + 4 * k - mAddr (s.sp c p) w.toNat)) 32
          else SMap.get (s.core c).acc 0 k) ∧
        t.mem = s.mem ∧ ∀ d, d ≠ c → t.core d = s.core d)) ∧
    (∀ ups, iMaj w.toNat = 0x12 → Issues s c p [iRd w.toNat, iRs1 w.toNat] [] →
      inL s.variant (mAddr (s.sp c p) w.toNat) (mSize w.toNat) = true → Goes s c p 1 (mAddr (s.sp c p) w.toNat) (mSize w.toNat) →
      Completes (.ldL c p w ups) s (fun t =>
        t.sp c p = Sp.past { s.sp c p with loads := (s.sp c p).loads ++
          [⟨iRd w.toNat, loadValue (SMap.range s.mem.loft 0 (mAddr (s.sp c p) w.toNat) (mSize w.toNat)) (iSx w.toNat)⟩] } 4 ∧
        t.mem.loft = s.mem.loft ∧ t.mem.hbm = s.mem.hbm ∧ t.core c = (s.core c).setSp p (t.sp c p) ∧
        ∀ d, d ≠ c → t.core d = s.core d)) ∧
    (iMaj w.toNat = 0x13 → Issues s c p [iRd w.toNat, iRs1 w.toNat] [] →
      inL s.variant (mAddr (s.sp c p) w.toNat) (mSize w.toNat) = true → Goes s c p 1 (mAddr (s.sp c p) w.toNat) (mSize w.toNat) →
      Completes (.stL c p w) s (fun t =>
        (∀ a, SMap.get t.mem.loft 0 a =
          if mAddr (s.sp c p) w.toNat ≤ a ∧ a < mAddr (s.sp c p) w.toNat + mSize w.toNat
          then byteOf ((s.sp c p).xr (iRd w.toNat)) (a - mAddr (s.sp c p) w.toNat) else SMap.get s.mem.loft 0 a) ∧
        (t.sp c p).pc = (s.sp c p).pc + 4 ∧ (t.sp c p).x = (s.sp c p).x ∧ (t.sp c p).v = (s.sp c p).v ∧
        (t.sp c p).p = (s.sp c p).p ∧ (t.sp c p).t = (s.sp c p).t ∧
        t.core c = (s.core c).setSp p (t.sp c p) ∧ t.mem.hbm = s.mem.hbm ∧ ∀ d, d ≠ c → t.core d = s.core d)) ∧
    (∀ (l : PendLoad) (r : List PendLoad), s.alive = true → (s.sp c p).loads = l :: r →
      Completes (.loadDataReturn c p) s (fun t =>
        t.sp c p = Sp.setX { s.sp c p with loads := r } l.rd l.val ∧ OnlySp s t c p [])) ∧
    (∀ a n ups, Issues s c p [iRd w.toNat, iRs1 w.toNat] [] → a = mAddr (s.sp c p) w.toNat → n = mSize w.toNat →
      (iMaj w.toNat = 0x10 → MemoryGuards (.ldS c p w ups) (s.mark 0 c ups) c p w 0 a n n
        (sEnd < a + n ∨ (accBase ≤ a ∧ (n < 4 ∨ a % n ≠ 0))) s) ∧
      (iMaj w.toNat = 0x11 → MemoryGuards (.stS c p w) s c p w 0 a n n (sEnd < a + n ∨ (accBase ≤ a ∧ (n < 4 ∨ a % n ≠ 0))) s) ∧
      (iMaj w.toNat = 0x12 → MemoryGuards (.ldL c p w ups) (s.mark 1 c ups) c p w 1 a n n (s.variant.lEnd < a + n) s) ∧
      (iMaj w.toNat = 0x13 → MemoryGuards (.stL c p w) s c p w 1 a n n (s.variant.lEnd < a + n) s))

/-! ### Atomics and synchronisation -/

/-- Atomics (R164, R287, R323). Each reads the old value, leaves it, sign-extended, for rd, and stores the new value where the operation
stores. In S-space and L-space the bytes named are replaced and no other byte changes. In E-space the 8 B word is written through the
bay cache as the model's write does it, so that it reads as the old word with the new value in place, unless E-space is frozen, and an
atomic that stores nothing leaves memory as its read leaves it. An S-space atomic delivers at once; that those of L-space and E-space read
as they issue and deliver when their data returns is the model's reading (log entry 70). Each takes ACCESS outside the scratchpad, L-space
or local E-space below the reserved range, else ALIGN where it is misaligned, and waits for a tile move of its processor (R157, R173). -/
def Obligations.ScalarAtomics : Prop :=
  ∀ (s : State) (c p : Nat) (w : W32) (a n : Nat), s.memOk = true → aLegal w.toNat = true →
    a = ((s.sp c p).xr (iRs1 w.toNat)).toNat → n = aSize w.toNat →
    Issues s c p [iRd w.toNat, iRs1 w.toNat, iRs2 w.toNat, iRs3 w.toNat] [] →
    (iMaj w.toNat = 0x18 → inSpad a n = true → Goes s c p 0 a n →
      Completes (.atomS c p w) s (fun t =>
        (t.sp c p).x = ((s.sp c p).setX (iRd w.toNat) (aResult n (ofLe (SMap.range (s.core c).spad 0 a n)))).x ∧
        (t.sp c p).pc = (s.sp c p).pc + 4 ∧
        (∀ b, SMap.get (t.core c).spad 0 b =
          match aNew (aOp w.toNat) n (ofLe (SMap.range (s.core c).spad 0 a n)) ((s.sp c p).xr (iRs2 w.toNat)).toNat
              ((s.sp c p).xr (iRs3 w.toNat)).toNat with
          | some v => if a ≤ b ∧ b < a + n then nth (leBytes n v) 0 (b - a) else SMap.get (s.core c).spad 0 b
          | none => SMap.get (s.core c).spad 0 b) ∧
        (t.core c).acc = (s.core c).acc ∧ t.mem = s.mem ∧ ∀ d, d ≠ c → t.core d = s.core d)) ∧
    (iMaj w.toNat = 0x19 → inL s.variant a n = true → Goes s c p 1 a n →
      Completes (.atomL c p w) s (fun t =>
        (t.sp c p).loads = (s.sp c p).loads ++ [⟨iRd w.toNat, aResult n (ofLe (SMap.range s.mem.loft 0 a n))⟩] ∧
        (t.sp c p).x = (s.sp c p).x ∧ (t.sp c p).pc = (s.sp c p).pc + 4 ∧
        (∀ b, SMap.get t.mem.loft 0 b =
          match aNew (aOp w.toNat) n (ofLe (SMap.range s.mem.loft 0 a n)) ((s.sp c p).xr (iRs2 w.toNat)).toNat
              ((s.sp c p).xr (iRs3 w.toNat)).toNat with
          | some v => if a ≤ b ∧ b < a + n then nth (leBytes n v) 0 (b - a) else SMap.get s.mem.loft 0 b
          | none => SMap.get s.mem.loft 0 b) ∧
        t.mem.hbm = s.mem.hbm ∧ t.core c = (s.core c).setSp p (t.sp c p) ∧ ∀ d, d ≠ c → t.core d = s.core d)) ∧
    (∀ ups r, iMaj w.toNat = 0x1A → inE s.variant a n = true → Goes s c p 2 a n →
      r = (s.mark 2 c ups).eRead (a / 8 * 8) 8 2 false .scalar → r.ue = false →
      Completes (.atomE c p w ups) s (fun t =>
        (t.sp c p).loads = (s.sp c p).loads ++ [⟨iRd w.toNat, aResult n (ofLe ((r.data.drop (a % 8)).take n))⟩] ∧
        (match aNew (aOp w.toNat) n (ofLe ((r.data.drop (a % 8)).take n)) ((s.sp c p).xr (iRs2 w.toNat)).toNat
            ((s.sp c p).xr (iRs3 w.toNat)).toNat with
         | some v =>
           t.mem = (r.st.eWrite (a / 8 * 8) (spliceWord r.data (a % 8) (leBytes n v)) 2 .scalar).mem ∧
           (s.frozen = false → (t.eRead (a / 8 * 8) 8 0 false .scalar).data = spliceWord r.data (a % 8) (leBytes n v))
         | none => t.mem = r.st.mem) ∧
        (t.sp c p).x = (s.sp c p).x ∧ (t.sp c p).pc = (s.sp c p).pc + 4 ∧
        t.core c = (s.core c).setSp p (t.sp c p) ∧ t.mem.loft = s.mem.loft ∧ ∀ d, d ≠ c → t.core d = s.core d)) ∧
    (iMaj w.toNat = 0x18 → MemoryGuards (.atomS c p w) s c p w 0 a n n (accBase < a + n) s) ∧
    (iMaj w.toNat = 0x19 → MemoryGuards (.atomL c p w) s c p w 1 a n n (s.variant.lEnd < a + n) s) ∧
    (∀ ups, iMaj w.toNat = 0x1A → MemoryGuards (.atomE c p w ups) (s.mark 2 c ups) c p w 2 a n n (s.variant.resBase < a + n) s)

/-- Synchronisation (R163, R324 to R327). FENCE.L retires once the processor's accesses have taken effect, and waits until then; ACQ
drops what the processor's load buffers, the row cache and the copy engines of its base die hold of its space; EVT.WAIT retires at
a counter at or above its threshold, and waits below; EVT.SIG adds to one counter modulo 2^32; FENCE.R retires once no remote
operation of the processor is outstanding. -/
def Obligations.ScalarSynchronisation : Prop :=
  ∀ (s : State) (c p : Nat) (w : W32), iMaj w.toNat = 0x1C →
    (iF w.toNat = 0 → bits w.toNat 26 7 = 0 → Issues s c p [] [] →
      (s.fenced c p = true → Retires (.fenceL c p w) s c p (s.sp c p)) ∧
      (s.fenced c p = false → Completes (.fenceL c p w) s (fun t => t = s))) ∧
    (iF w.toNat = 1 → iRd w.toNat ≤ 2 → bits w.toNat 26 12 = 0 → Issues s c p [] [] →
      Completes (.acq c p w) s (fun t =>
        t.sp c p = Sp.past { s.sp c p with
          vbuf := (s.sp c p).vbuf.filter (fun e => iRd w.toNat == 2 || e.1 / 0x10000000000 != iRd w.toNat) } 4 ∧
        (t.core c).gln = { (s.core c).gln with rc := if iRd w.toNat = 2 then [] else (s.core c).gln.rc } ∧
        (t.core c).spad = (s.core c).spad ∧ (t.core c).acc = (s.core c).acc ∧
        (∀ k j, k / 4 = coreBdie c → j ∈ t.que.copies.get [] k → copySpace s j.cmd = some (iRd w.toNat) → j.ahead = none) ∧
        (∀ d, d ≠ c → t.core d = s.core d) ∧ RegsBut s t (cntRegs c) ∧
        t = { s with csr := t.csr, cores := t.cores, que := { s.que with copies := t.que.copies } })) ∧
    (iF w.toNat = 2 → iRd w.toNat = 0 → iRs3 w.toNat = 0 → Issues s c p [iRs1 w.toNat, iRs2 w.toNat] [] →
      (bits ((s.sp c p).xr (iRs2 w.toNat)).toNat 31 0 ≤ s.evt (bits ((s.sp c p).xr (iRs1 w.toNat)).toNat 15 0) →
        Retires (.evtWait c p w) s c p (s.sp c p)) ∧
      (s.evt (bits ((s.sp c p).xr (iRs1 w.toNat)).toNat 15 0) < bits ((s.sp c p).xr (iRs2 w.toNat)).toNat 31 0 →
        Completes (.evtWait c p w) s (fun t => t = s))) ∧
    (iF w.toNat = 3 → iRd w.toNat = 0 → iRs3 w.toNat = 0 → Issues s c p [iRs1 w.toNat, iRs2 w.toNat] [] →
      c < s.variant.cores → s.fenced c p = true →
      Completes (.evtSig c p w) s (fun t =>
        t.sp c p = (s.sp c p).past 4 ∧
        (∀ e, e < 65536 → t.evt e = if e = bits ((s.sp c p).xr (iRs1 w.toNat)).toNat 15 0
          then (s.evt e + bits ((s.sp c p).xr (iRs2 w.toNat)).toNat 31 0) % 2 ^ 32 else s.evt e) ∧
        (t.core c) = (s.core c).setSp p (t.sp c p) ∧ (∀ d, d ≠ c → t.core d = s.core d) ∧
        t = { s with csr := t.csr, cores := t.cores, steps := t.steps, que := { s.que with qs := t.que.qs } })) ∧
    (iF w.toNat = 4 → bits w.toNat 26 7 = 0 → Issues s c p [] [] →
      (s.win.ops.any (fun o => o.srcid == c && o.sp == p && o.kind ≤ 3 && o.gln.isNone) = false →
        Retires (.fenceR c p w) s c p (s.sp c p)) ∧
      (s.win.ops.any (fun o => o.srcid == c && o.sp == p && o.kind ≤ 3 && o.gln.isNone) = true →
        Completes (.fenceR c p w) s (fun t => t = s)))

/-! ### Exceptions, the end of a kernel, control space -/

/-- The registers that taking an exception of processor `p` of core `c` may change, counters apart (R174, R177 to R180). -/
def excRegs (c p : Nat) : List Nat :=
  [Reg.addr .CORE_EXC c p 0, Reg.addr .CORE_EPC c p 0, Reg.addr .CORE_EINFO c p 0, Reg.addr .OBS_STAT 0 0 0]

/-- What an exception that enters the handler leaves (R174): its cause, whether it is precise, its address and its information in the
exception registers, the processor in supervisor mode at the handler's address, and every other register, unit and byte of memory
as it was, counters and trace apart. -/
def Enters (s t : State) (c p cause epc info : Nat) (precise : Bool) : Prop :=
  t.sp c p = { s.sp c p with super := true, pc := w64 (s.rd CORE_VEC.ADDR c * 64) } ∧
  t.rd CORE_EXC.CAUSE c p = cause ∧ t.rd CORE_EXC.PRECISE c p = b2n precise ∧ t.rd CORE_EXC.NESTED c p = 0 ∧
  t.rd CORE_EXC.HALTED c p = 0 ∧ t.rd CORE_EPC.PC c p = epc ∧ t.rd CORE_EINFO.INFO c p = info ∧
  t.core c = (s.core c).setSp p (t.sp c p) ∧ (∀ d, d ≠ c → t.core d = s.core d) ∧
  RegsBut s t (excRegs c p ++ cntRegs c) ∧ t = { s with csr := t.csr, cores := t.cores, trace := t.trace }

/-- Taking an exception (R173, R174), where exceptions are enabled and the processor is in user mode: it enters its handler, a precise
one with the address of the instruction that caused it saved. -/
def Obligations.ExceptionEntry : Prop :=
  ∀ (s : State) (c p cause info : Nat), c < s.variant.cores → p < 2 → cause < 32 → info < 2 ^ 64 →
    s.rdB CORE_CTL.EXC_EN c = true → (s.sp c p).super = false →
    Enters s (s.precise c p cause info) c p cause (s.sp c p).pc.toNat info true

/-- An exception that nothing handles (R174): exceptions are not enabled, or the processor is in supervisor mode already. Both
processors of the core stop, with the data of their outstanding loads delivered, the tile queues and the mover keep nothing that has not
started, the kernel's status becomes ABORTED unless an earlier one stands, and CORE_EXC says HALTED. That outstanding loads are delivered is
the model's reading (log entry 70), and so is that the mover's oldest move counts as started (log entry 32). -/
def Obligations.UnhandledException : Prop :=
  ∀ (s : State) (c p cause info : Nat), c < s.variant.cores → p < 2 → cause < 32 → cause ≠ 9 →
    s.rdB CORE_CTL.EXC_EN c = false ∨ (s.sp c p).super = true →
    (∀ q, ((s.precise c p cause info).sp c q).run = false ∧ ((s.precise c p cause info).sp c q).loads = [] ∧
      ((s.precise c p cause info).sp c q).x = ((s.sp c q).loads.foldl (fun u l => u.setX l.rd l.val) (s.sp c q)).x) ∧
    (∀ a, ((s.precise c p cause info).arr c a).queue = []) ∧
    ((s.precise c p cause info).core c).mover = (s.core c).mover.take 1 ∧
    ((s.precise c p cause info).core c).kernel =
      (s.core c).kernel.map (fun k => { k with bad := some (k.bad.getD 0x18) }) ∧
    (s.precise c p cause info).rd CORE_EXC.CAUSE c p = cause ∧ (s.precise c p cause info).rd CORE_EXC.HALTED c p = 1 ∧
    (s.precise c p cause info).rd CORE_EPC.PC c p = (s.sp c p).pc.toNat ∧ (s.precise c p cause info).mem = s.mem

/-- System instructions (R166, R171, R173). END ends the processor's issue; ERET goes back to user mode at CORE_EPC; SUPCALL and BRK
take their exceptions, with the address of the next instruction saved. PHASE makes its hint pending in its core's island where hints are
enabled and its lead is one of R165's; otherwise it changes nothing beyond its processor but counters. -/
def Obligations.SystemInstructions : Prop :=
  ∀ (s : State) (c p : Nat) (w : W32), c < s.variant.cores → p < 2 → Issues s c p [] [] →
    (iMaj w.toNat = 0x1F → bits w.toNat 26 7 = 0 →
      (iF w.toNat = 0 → (s.sp c p).pend = [] →
        Completes (.endInstr c p w) s (fun t => OnlySp s t c p (cntRegs c) ∧
          t.sp c p = Sp.past { s.sp c p with run := false, ended := true } 4)) ∧
      (iF w.toNat = 1 → (s.sp c p).super = true →
        Completes (.eret c p w) s (fun t => OnlySp s t c p (cntRegs c) ∧
          t.sp c p = { s.sp c p with super := false, pc := w64 (s.rd CORE_EPC.PC c p) })) ∧
      (iF w.toNat = 2 → s.rdB CORE_CTL.EXC_EN c = true → (s.sp c p).super = false →
        Completes (.supcall c p w) s (fun t => Enters s t c p 0xA ((s.sp c p).pc + 4).toNat 0 true)) ∧
      (iF w.toNat = 3 → s.rdB CORE_CTL.EXC_EN c = true → (s.sp c p).super = false →
        Completes (.brk c p w) s (fun t => Enters s t c p 0xB ((s.sp c p).pc + 4).toNat 0 true))) ∧
    (iMaj w.toNat = 0x1E → bits w.toNat 11 7 = 0 → bits w.toNat 31 20 = 0 →
      (s.rdB PWR_CFG.HINT_EN = true → 5 ≤ bits w.toNat 17 12 → bits w.toNat 17 12 ≤ 50 →
        Completes (.phase c p w) s (fun t => t.sp c p = (s.sp c p).past 4 ∧
          t.dom c = { s.dom c with hint := some (bits w.toNat 19 18, s.now + bits w.toNat 17 12 * 1000), ramp := false } ∧
          (∀ i, i ≠ c → t.dom i = s.dom i) ∧ OnlySp { s with pwr := t.pwr } t c p (cntRegs c) ∧
          t.pwr = { s.pwr with doms := t.pwr.doms })) ∧
      (s.rdB PWR_CFG.HINT_EN = false ∨ leadOk (bits w.toNat 17 12) = false → Retires (.phase c p w) s c p (s.sp c p)))

/-- Instructions in user mode that R167 keeps for supervisor mode take PRIV; in supervisor mode CSR.RD and CSR.WR take CSPACE at an
address that is not a multiple of 8 or lies beyond 40 bits. -/
def Obligations.ControlSpaceGuards : Prop :=
  ∀ (s : State) (c p : Nat) (w : W32), iMaj w.toNat = 0x1F →
    (Issues s c p [] [] → bits w.toNat 26 7 = 0 → iF w.toNat = 1 → (s.sp c p).super = false →
      Completes (.eret c p w) s (fun t => t = s.precise c p 2 w.toNat)) ∧
    (Issues s c p [iRd w.toNat, iRs1 w.toNat] [] → iF w.toNat = 4 → iRs2 w.toNat = 0 → iRs3 w.toNat = 0 →
      ((s.sp c p).super = false → Completes (.csrRd c p w) s (fun t => t = s.precise c p 2 w.toNat)) ∧
      ((s.sp c p).super = true →
        (((s.sp c p).xr (iRs1 w.toNat)).toNat % 8 ≠ 0 ∨ 2 ^ 40 ≤ ((s.sp c p).xr (iRs1 w.toNat)).toNat) →
        Completes (.csrRd c p w) s (fun t => t = s.precise c p 5 ((s.sp c p).xr (iRs1 w.toNat)).toNat))) ∧
    (Issues s c p [iRs1 w.toNat, iRs2 w.toNat] [] → iF w.toNat = 5 → iRd w.toNat = 0 → iRs3 w.toNat = 0 →
      ((s.sp c p).super = false → Completes (.csrWr c p w) s (fun t => t = s.precise c p 2 w.toNat)) ∧
      ((s.sp c p).super = true →
        (((s.sp c p).xr (iRs1 w.toNat)).toNat % 8 ≠ 0 ∨ 2 ^ 40 ≤ ((s.sp c p).xr (iRs1 w.toNat)).toNat) →
        Completes (.csrWr c p w) s (fun t => t = s.precise c p 5 ((s.sp c p).xr (iRs1 w.toNat)).toNat)))

/-- Control space in supervisor mode (R17 to R22, R38, R166). An access to a register of a core that is gated or held in reset waits, which
is the model's reading of R38 (log entry 103). CSR.RD delivers what the register reads as, once what stands to be counted in
it is counted, and 0 where none is, with nothing else changed but that register and counters; CSR.WR retires and acts as the write of its register. CNT.RD, TIME.RD, FPS and
CORE.ID deliver the counter, the timebase, the floating-point status and the processor's number; FPS clears the flags it names. -/
def Obligations.SpecialRegisters : Prop :=
  ∀ (s : State) (c p : Nat) (w : W32), iMaj w.toNat = 0x1F → iRs3 w.toNat = 0 →
    (∀ a, iF w.toNat = 4 → iRs2 w.toNat = 0 → Issues s c p [iRd w.toNat, iRs1 w.toNat] [] → (s.sp c p).super = true →
      a = ((s.sp c p).xr (iRs1 w.toNat)).toNat → a % 8 = 0 → a < 2 ^ 40 →
      (s.regShut a = true → Completes (.csrRd c p w) s (fun t => t = s)) ∧
      (s.regShut a = false → Completes (.csrRd c p w) s (fun t =>
        t.sp c p = ((s.sp c p).setX (iRd w.toNat) (match s.regThere a with
          | some r => if (Who.proc (2 * c + p)).reaches r
            then (s.beforeRead r).view r ((s.beforeRead r).reg r.reg r.n r.i r.j) else 0
          | none => 0)).past 4 ∧ OnlySp { s with free := t.free } t c p (a :: cntRegs c)))) ∧
    (∀ a, iF w.toNat = 5 → iRd w.toNat = 0 → Issues s c p [iRs1 w.toNat, iRs2 w.toNat] [] → (s.sp c p).super = true →
      a = ((s.sp c p).xr (iRs1 w.toNat)).toNat → a % 8 = 0 → a < 2 ^ 40 →
      (s.regShut a = true → Completes (.csrWr c p w) s (fun t => t = s)) ∧
      (s.regShut a = false → Completes (.csrWr c p w) s (fun t => ∃ u, OnlySp s u c p (cntRegs c) ∧ u.sp c p = (s.sp c p).past 4 ∧
        t = match s.regThere a with
          | some r => if (Who.proc (2 * c + p)).reaches r then u.writeAt (.proc (2 * c + p)) r ((s.sp c p).xr (iRs2 w.toNat)) else u
          | none => u))) ∧
    (iF w.toNat = 6 → iRs2 w.toNat = 0 → Issues s c p [iRd w.toNat, iRs1 w.toNat] [] →
      Retires (.cntRd c p w) s c p ((s.sp c p).setX (iRd w.toNat)
        (s.reg .CNT_VAL c (((s.sp c p).xr (iRs1 w.toNat)).toNat % 64) 0))) ∧
    (iF w.toNat = 7 → bits w.toNat 26 12 = 0 → Issues s c p [iRd w.toNat] [] →
      Retires (.timeRd c p w) s c p ((s.sp c p).setX (iRd w.toNat) (w64 (s.timeAt (coreTime c))))) ∧
    (iF w.toNat = 9 → iRs2 w.toNat = 0 → Issues s c p [iRd w.toNat, iRs1 w.toNat] [] →
      Completes (.fps c p w) s (fun t =>
        t.sp c p = ((s.sp c p).setX (iRd w.toNat) (s.reg .CORE_FPSTAT c 0 0)).past 4 ∧
        t.reg .CORE_FPSTAT c 0 0 = s.reg .CORE_FPSTAT c 0 0 &&& ~~~(((s.sp c p).xr (iRs1 w.toNat)) &&& 0xF) &&& 0xF ∧
        OnlySp s t c p (Reg.addr .CORE_FPSTAT c 0 0 :: cntRegs c))) ∧
    (iF w.toNat = 11 → bits w.toNat 26 12 = 0 → Issues s c p [iRd w.toNat] [] →
      Retires (.coreId c p w) s c p ((s.sp c p).setX (iRd w.toNat) (w64 (2 * c + p))))

/-- The instruction cache, marks and reserved words (R140, R147, R148, R166, R564). ICI empties the instruction cache; TRACE.MARK adds a
mark to the core's trace where that is on; a fetch that misses stalls its processor until the line arrives, with the bytes that the
loft then holds; a word that is no
instruction takes ILLEGAL. -/
def Obligations.FetchAndMarks : Prop :=
  ∀ (s : State) (c p : Nat) (w : W32),
    (iMaj w.toNat = 0x1F → iF w.toNat = 10 → bits w.toNat 26 7 = 0 → Issues s c p [] [] →
      Completes (.ici c p w) s (fun t => t.core c = { (s.core c).setSp p (t.sp c p) with icache := [] } ∧
        t.sp c p = (s.sp c p).past 4 ∧ OnlyCore s t c (cntRegs c))) ∧
    (iMaj w.toNat = 0x1F → iF w.toNat = 8 → iRd w.toNat = 0 → iRs2 w.toNat = 0 → iRs3 w.toNat = 0 →
      Issues s c p [iRs1 w.toNat] [] → (s.trace.get {} c).buf.length < traceRoom c →
      Completes (.traceMarkInstr c p w) s (fun t => t.sp c p = (s.sp c p).past 4 ∧
        t.core c = (s.core c).setSp p (t.sp c p) ∧ RegsBut s t (cntRegs c) ∧
        t = { s with csr := t.csr, cores := t.cores, trace := t.trace } ∧
        (s.rdB OBS_CORE.EN c = false → t.trace = s.trace) ∧
        (s.rdB OBS_CORE.EN c = true → ∃ r, (t.trace.get {} c).buf = (s.trace.get {} c).buf ++
          [(r, w64 (bits ((s.sp c p).xr (iRs1 w.toNat)).toNat 31 0))] ∧ bits r.toNat 7 0 = 1 ∧ bits r.toNat 63 16 = bits (s.timeAt (unitTime c)) 47 0))) ∧
    (∀ l, s.alive = true → (s.sp c p).run = true → (s.sp c p).fetch = none → s.missLine c p = some l →
      Completes (.instructionFetchMiss c p) s (fun t => t.sp c p = { s.sp c p with fetch := some l } ∧
        t.canIssue c p = false ∧ OnlySp s t c p (cntRegs c))) ∧
    (∀ l, s.alive = true → (s.sp c p).fetch = some l →
      Completes (.instructionLineArrival c p) s (fun t => t.sp c p = { s.sp c p with fetch := none } ∧
        (∃ d, (t.core c).icLine l = some ⟨l, d⟩ ∧ (inL s.variant (64 * l) 64 = true →
          ∀ k, k < 64 → nth (SMap.range s.mem.loft 0 (64 * l) 64) 0 k = d.extractLsb' (8 * k) 8)) ∧
        t.core c = { (s.core c).setSp p (t.sp c p) with icache := (t.core c).icache } ∧ t.mem = s.mem ∧
        ∀ d, d ≠ c → t.core d = s.core d)) ∧
    (majKnown (iMaj w.toNat) = false ∨ selUnknown w.toNat = true → s.canIssue c p = true →
      Completes (.illegalInstruction c p w) s (fun t => t = s.precise c p 1 w.toNat))

/-! ### Vector instructions -/

/-- A vector instruction writes vd by lane: `n` lanes of `w` bits, each active lane (by predicate `pg`) with the code and the flags
that `f` gives, every other lane as in `old`. The flags of the active lanes are added to the core's floating-point status (R57,
R141). The processor moves on by one instruction, and nothing else changes but counters and the count of free values used. -/
def WritesLanes (i : Instr) (s : State) (c p vd w n : Nat) (pg : V128) (old : V1024) (f : Nat → Fr) : Prop :=
  Completes i s (fun t => ∃ v : V1024, t.sp c p = ((s.sp c p).setV vd v).past 4 ∧
    (∀ k, k < n → lane w v.toNat k = if bitB pg.toNat k then (f k).1 % 2 ^ w else lane w old.toNat k) ∧
    t.reg .CORE_FPSTAT c 0 0 = s.reg .CORE_FPSTAT c 0 0 |||
      w64 (((List.range n).filter (fun k => bitB pg.toNat k)).foldl (fun a k => a ||| (f k).2) 0) ∧
    OnlySp (s.throttled c).2 t c p (Reg.addr .CORE_FPSTAT c 0 0 :: cntRegs c))

/-! #### Exact numbers and rounding -/

/-- The number that a finite value stands for. -/
def numOf (v : Val) : Option ℚ :=
  match v with
  | .fin neg m e => some ((if neg then -1 else 1) * m * (2 : ℚ) ^ e)
  | _ => none

/-- The largest finite value of a floating format (R45). -/
def maxNum (f : Nat) : ℚ :=
  match f with
  | 7 => 6
  | 8 => 15 / 2
  | 9 => 28
  | 10 => 448
  | 11 => 57344
  | 12 => (2 - 1 / 2 ^ 7) * 2 ^ 127
  | 13 => 65504
  | _ => (2 - 1 / 2 ^ 23) * 2 ^ 127

/-- The integer that a rounding mode makes of a number (R51): to nearest with ties to even, towards zero, down, up. -/
def rounded (rm : Nat) (x : ℚ) : ℤ :=
  match rm with
  | 0 => if x - ⌊x⌋ < 1 / 2 ∨ x - ⌊x⌋ = 1 / 2 ∧ ⌊x⌋ % 2 = 0 then ⌊x⌋ else ⌊x⌋ + 1
  | 1 => if 0 ≤ x then ⌊x⌋ else ⌈x⌉
  | 2 => ⌊x⌋
  | _ => ⌈x⌉

/-- The exponent of the last bit to which a number is rounded in a floating format: p bits below its leading one, but never below the
fixed last bit of the subnormal values (R52). -/
def lastBit (f : Nat) (x : ℚ) : ℤ := max (Int.log 2 |x|) (1 - ((fpFmt f).bias : ℤ)) - (fpFmt f).mw

/-- A number rounded as though the exponent range had no upper limit (R52). -/
def roundNum (f rm : Nat) (x : ℚ) : ℚ := rounded rm (x / (2 : ℚ) ^ lastBit f x) * (2 : ℚ) ^ lastBit f x

/-- Is an overflow delivered as the largest finite value (R53)? -/
def toMax (f rm : Nat) (sat neg : Bool) : Bool :=
  sat || decide (f ≤ 9) || rm == 1 || (rm == 2 && !neg) || (rm == 3 && neg)

/-- `r` is the code, with the flags, that a number and the sign of its source give in floating format `f` (R52, R53, R57): a zero of that
sign; the code of the rounded number, with NX where it is inexact and UF where the number lies below the normal range as well; past the
largest finite value, the overflow of R53 with OF and NX. -/
structure RoundsTo (f rm : Nat) (sat neg : Bool) (x : ℚ) (r : Fr) : Prop where
  zero : x = 0 → r = ((fpFmt f).withSign neg 0, 0)
  within : x ≠ 0 → |roundNum f rm x| ≤ maxNum f → r.1 < 2 ^ fmtBits f ∧ bitB r.1 (fmtBits f - 1) = neg ∧
    numOf (fpVal f r.1) = some (roundNum f rm x) ∧
    r.2 = if roundNum f rm x = x then 0 else fNX + if |x| < (2 : ℚ) ^ (1 - ((fpFmt f).bias : ℤ)) then fUF else 0
  beyond : x ≠ 0 → maxNum f < |roundNum f rm x| → r.2 = fOF + fNX ∧
    r.1 = if toMax f rm sat neg then (fpFmt f).withSign neg (fpFmt f).maxc
      else if f = 10 then 0x7F else (fpFmt f).withSign neg (fpFmt f).infCode

/-- A row of MAJ 0x20 and F `sel` computes in its floating format with the rounding mode of the word; `op` gives the exact result
of vs1, vs2 and vd, and whether the operation is invalid. -/
def FloatLanes (row : Nat → Nat → W32 → Instr) (sel : Nat) (unary : Bool) (op : Nat → Val → Val → Val → Val × Bool) : Prop :=
  ∀ (s : State) (c p : Nat) (w : W32), iMaj w.toNat = 0x20 → iF3 w.toNat = sel → iTf w.toNat ≤ 2 →
    (unary = true → iRs2 w.toNat = 0) → VectorRow (row c p w) s c p [] [iRd w.toNat, iRs1 w.toNat, iRs2 w.toNat]
    (WritesLanes (row c p w) s c p (iRd w.toNat) (vW (iTf w.toNat)) (vN (iTf w.toNat)) ((s.sp c p).pr (iPg w.toNat))
      ((s.sp c p).vr (iRd w.toNat)) (fun k =>
        frOf (vFmt (iTf w.toNat)) (iRm w.toNat) (op (iRm w.toNat)
          (fpVal (vFmt (iTf w.toNat)) (vLane (iTf w.toNat) ((s.sp c p).vr (iRs1 w.toNat)) k))
          (fpVal (vFmt (iTf w.toNat)) (vLane (iTf w.toNat) ((s.sp c p).vr (iRs2 w.toNat)) k))
          (fpVal (vFmt (iTf w.toNat)) (vLane (iTf w.toNat) ((s.sp c p).vr (iRd w.toNat)) k)))))

/-- A row of MAJ 0x2B and F `sel` gives for each lane the code that `op` makes of the codes of vs1 and vs2, and sets no flag. -/
def FloatCodes (row : Nat → Nat → W32 → Instr) (sel : Nat) (unary : Bool) (op : Nat → Nat → Nat → Nat) : Prop :=
  ∀ (s : State) (c p : Nat) (w : W32), iMaj w.toNat = 0x2B → iF4 w.toNat = sel → iT w.toNat ≤ 2 →
    (unary = true → iRs2 w.toNat = 0) → VectorRow (row c p w) s c p [] [iRd w.toNat, iRs1 w.toNat, iRs2 w.toNat]
    (WritesLanes (row c p w) s c p (iRd w.toNat) (vW (iT w.toNat)) (vN (iT w.toNat)) ((s.sp c p).pr (iPg w.toNat))
      ((s.sp c p).vr (iRd w.toNat)) (fun k =>
        (op (vFmt (iT w.toNat)) (vLane (iT w.toNat) ((s.sp c p).vr (iRs1 w.toNat)) k)
          (vLane (iT w.toNat) ((s.sp c p).vr (iRs2 w.toNat)) k), 0)))

/-- A row of MAJ 0x21 and F `sel` computes on signed integers of n bits: each lane is the two's complement of what `op` gives for the
signed lanes of vs1, vs2 and vd, and no flag is set. -/
def IntegerLanes (row : Nat → Nat → W32 → Instr) (sel : Nat) (unary : Bool) (op : Nat → Int → Int → Int → Int) : Prop :=
  ∀ (s : State) (c p : Nat) (w : W32), iMaj w.toNat = 0x21 → iF4 w.toNat = sel → 3 ≤ iT w.toNat → iT w.toNat ≤ 5 →
    (unary = true → iRs2 w.toNat = 0) → VectorRow (row c p w) s c p [] [iRd w.toNat, iRs1 w.toNat, iRs2 w.toNat]
    (WritesLanes (row c p w) s c p (iRd w.toNat) (vW (iT w.toNat)) (vN (iT w.toNat)) ((s.sp c p).pr (iPg w.toNat))
      ((s.sp c p).vr (iRd w.toNat)) (fun k =>
        (wrapN (vW (iT w.toNat)) (op (vW (iT w.toNat))
          (sext (vW (iT w.toNat)) (vLane (iT w.toNat) ((s.sp c p).vr (iRs1 w.toNat)) k))
          (sext (vW (iT w.toNat)) (vLane (iT w.toNat) ((s.sp c p).vr (iRs2 w.toNat)) k))
          (sext (vW (iT w.toNat)) (vLane (iT w.toNat) ((s.sp c p).vr (iRd w.toNat)) k))), 0)))

/-- As `IntegerLanes`, for an operation on the codes of vs1 and vs2 as unsigned numbers. -/
def IntegerCodes (row : Nat → Nat → W32 → Instr) (sel : Nat) (op : Nat → Nat → Nat → Nat) : Prop :=
  ∀ (s : State) (c p : Nat) (w : W32), iMaj w.toNat = 0x21 → iF4 w.toNat = sel → 3 ≤ iT w.toNat → iT w.toNat ≤ 5 →
    VectorRow (row c p w) s c p [] [iRd w.toNat, iRs1 w.toNat, iRs2 w.toNat]
    (WritesLanes (row c p w) s c p (iRd w.toNat) (vW (iT w.toNat)) (vN (iT w.toNat)) ((s.sp c p).pr (iPg w.toNat))
      ((s.sp c p).vr (iRd w.toNat)) (fun k =>
        (op (vW (iT w.toNat)) (vLane (iT w.toNat) ((s.sp c p).vr (iRs1 w.toNat)) k)
          (vLane (iT w.toNat) ((s.sp c p).vr (iRs2 w.toNat)) k), 0)))

/-- Vector arithmetic (R58, R141, R151). Floating forms round the exact result once, as `RoundsTo` has it; the exact sum, product and sum
of a product are those of rational arithmetic, and a sum or difference that is exactly zero is +0, −0 under RDN, unless both addends are
zeros of one sign. Integer forms compute modulo the lane width. -/
def Obligations.VectorArithmetic : Prop :=
  (∀ (rm : Nat) (a b d : Val) (x y z : ℚ), numOf a = some x → numOf b = some y → numOf d = some z →
    numOf (addVal rm a b).1 = some (x + y) ∧ (addVal rm a b).2 = false ∧
    numOf (mulVal a b).1 = some (x * y) ∧ (mulVal a b).2 = false ∧
    numOf (fmaVal rm a b d).1 = some (x * y + z) ∧ (fmaVal rm a b d).2 = false ∧ numOf (negVal a) = some (-x) ∧
    (x + y ≠ 0 → signVal (addVal rm a b).1 = decide (x + y < 0)) ∧
    (x + y = 0 → signVal (addVal rm a b).1 = if signVal a = signVal b then signVal a else decide (rm = 2))) ∧
  (∀ (f rm : Nat) (v : Val × Bool) (x : ℚ), 12 ≤ f → f ≤ 14 → rm < 4 → numOf v.1 = some x → v.2 = false →
    RoundsTo f rm false (signVal v.1) x (frOf f rm v)) ∧
  FloatLanes .vadd 0 false (fun rm a b _ => addVal rm a b) ∧ IntegerLanes .vadd 0 false (fun _ a b _ => a + b) ∧
  FloatLanes .vsub 1 false (fun rm a b _ => addVal rm a (negVal b)) ∧ IntegerLanes .vsub 1 false (fun _ a b _ => a - b) ∧
  FloatLanes .vmul 2 false (fun _ a b _ => mulVal a b) ∧ IntegerLanes .vmul 2 false (fun _ a b _ => a * b) ∧
  FloatLanes .vfma 3 false (fun rm a b d => fmaVal rm a b d) ∧ IntegerLanes .vmac 3 false (fun _ a b d => d + a * b) ∧
  FloatLanes .vdiv 4 false (fun _ a b _ => divVal a b) ∧ FloatLanes .vsqrt 5 true (fun _ a _ _ => sqrtVal a) ∧
  FloatLanes .vexp2 6 true (fun _ a _ _ => (exp2Val a, false)) ∧ FloatLanes .vlog2 7 true (fun _ a _ _ => log2Val a)

/-- Maximum, minimum, absolute value, negation, saturated sums, bitwise operations and shifts (R151). Integer forms compare signed lanes and
clamp to the range of the lane; floating forms give the canonical NaN for a NaN operand and take −0 below +0. A shift counts modulo the lane
width; VSHRA keeps the sign. -/
def Obligations.VectorLanewise : Prop :=
  FloatCodes .vmax 0 false fpMax ∧ IntegerLanes .vmax 6 false (fun _ a b _ => max a b) ∧
  FloatCodes .vmin 1 false fpMin ∧ IntegerLanes .vmin 7 false (fun _ a b _ => min a b) ∧
  FloatCodes .vabs 2 true (fun f a _ => fpAbs f a) ∧ IntegerLanes .vabs 8 true (fun n a _ _ => min |a| (iMax n)) ∧
  FloatCodes .vneg 3 true (fun f a _ => fpNeg f a) ∧
  IntegerLanes .vadds 4 false (fun n a b _ => max (iMin n) (min (iMax n) (a + b))) ∧
  IntegerLanes .vsubs 5 false (fun n a b _ => max (iMin n) (min (iMax n) (a - b))) ∧
  IntegerCodes .vand 9 (fun _ a b => a &&& b) ∧ IntegerCodes .vor 10 (fun _ a b => a ||| b) ∧
  IntegerCodes .vxor 11 (fun _ a b => a ^^^ b) ∧ IntegerCodes .vshl 12 (fun n a b => a * 2 ^ (b % n)) ∧
  IntegerLanes .vshra 13 false (fun n a b _ => a / 2 ^ (b % n).toNat) ∧ IntegerCodes .vshrl 14 (fun n a b => a / 2 ^ (b % n))

/-- The sum of 2^level lanes from lane 2^level · i on: adjacent pairs, then pairs of those sums, each rounded to nearest (R152). -/
def pairTree (f : Nat) (x : Nat → Nat) : Nat → Nat → Nat
  | 0, i => x i
  | l + 1, i => (encFp f 0 (addVal 0 (fpVal f (pairTree f x l (2 * i))) (fpVal f (pairTree f x l (2 * i + 1)))).1).1

/-- Dot products, comparison and reduction (R151, R152). VDOT adds 4 INT8 or 2 INT16 products to each INT32 lane modulo 2^32; VCMP
sets a predicate's bits to the comparison in the active lanes and to 0 in the others below the lane count; a reduction leaves its
value in lane 0 and zero in every other lane. A floating VRSUM adds in a fixed tree of pairs, each sum rounded to nearest, an inactive lane
entering as +0; floating VRMAX and VRMIN begin at −∞ and +∞. The predicate's bits at or above the lane count are free (log entry 11); with
no active lane an integer VRMAX gives the smallest and VRMIN the largest INT32, not that of the type (log entry 18). -/
def Obligations.VectorReductions : Prop :=
  ∀ (s : State) (c p : Nat) (w : W32),
    (iMaj w.toNat = 0x21 → iF4 w.toNat = 15 → iT w.toNat = 3 ∨ iT w.toNat = 4 →
      VectorRow (.vdot c p w) s c p [] [iRd w.toNat, iRs1 w.toNat, iRs2 w.toNat]
      (WritesLanes (.vdot c p w) s c p (iRd w.toNat) 32 32 ((s.sp c p).pr (iPg w.toNat)) ((s.sp c p).vr (iRd w.toNat)) (fun k =>
        (wrapN 32 (sext 32 (lane 32 ((s.sp c p).vr (iRd w.toNat)).toNat k) +
          ((List.range (if iT w.toNat = 3 then 4 else 2)).map (fun j =>
            sext (vW (iT w.toNat)) (vLane (iT w.toNat) ((s.sp c p).vr (iRs1 w.toNat)) (k * (if iT w.toNat = 3 then 4 else 2) + j)) *
            sext (vW (iT w.toNat)) (vLane (iT w.toNat) ((s.sp c p).vr (iRs2 w.toNat)) (k * (if iT w.toNat = 3 then 4 else 2) + j)))).sum), 0)))) ∧
    (iMaj w.toNat = 0x22 → iF4 w.toNat ≤ 5 → iT w.toNat ≤ 5 → iRd w.toNat < 8 → VectorRow (.vcmp c p w) s c p [] [iRs1 w.toNat, iRs2 w.toNat]
      (Completes (.vcmp c p w) s (fun t => ∃ q : V128, t.sp c p = ((s.sp c p).setP (iRd w.toNat) q).past 4 ∧
        (∀ k, k < vN (iT w.toNat) → bitB q.toNat k = (bitB ((s.sp c p).pr (iPg w.toNat)).toNat k &&
          vCompare (iT w.toNat) (iF4 w.toNat) (vLane (iT w.toNat) ((s.sp c p).vr (iRs1 w.toNat)) k)
            (vLane (iT w.toNat) ((s.sp c p).vr (iRs2 w.toNat)) k))) ∧
        t.core c = (s.core c).setSp p (t.sp c p) ∧ RegsBut s t (cntRegs c) ∧
        t = { s with csr := t.csr, cores := t.cores, free := t.free }))) ∧
    (∀ op row, (op, row) ∈ [(0, Instr.vrsum c p w), (1, .vrmax c p w), (2, .vrmin c p w)] →
      iMaj w.toNat = 0x23 → iF4 w.toNat = op → iT w.toNat ≤ 5 → iRs2 w.toNat = 0 → VectorRow row s c p [] [iRd w.toNat, iRs1 w.toNat]
      (Completes row s (fun t =>
        t.sp c p = ((s.sp c p).setV (iRd w.toNat)
          (BitVec.ofNat 1024 (vReduce (iT w.toNat) op ((s.sp c p).pr (iPg w.toNat)) ((s.sp c p).vr (iRs1 w.toNat))).1)).past 4 ∧
        (3 ≤ iT w.toNat → lane 32 ((t.sp c p).vr (iRd w.toNat)).toNat 0 =
          wrapN 32 (((List.range (vN (iT w.toNat))).filter (fun k => bitB ((s.sp c p).pr (iPg w.toNat)).toNat k)).map (fun k =>
              sext (vW (iT w.toNat)) (vLane (iT w.toNat) ((s.sp c p).vr (iRs1 w.toNat)) k)) |>.foldl
            (if op = 0 then (· + ·) else if op = 1 then max else min) (if op = 0 then 0 else if op = 1 then iMin 32 else iMax 32))) ∧
        (iT w.toNat ≤ 2 → lane (vW (iT w.toNat)) ((t.sp c p).vr (iRd w.toNat)).toNat 0 =
          if op = 0 then pairTree (vFmt (iT w.toNat)) (fun k => if bitB ((s.sp c p).pr (iPg w.toNat)).toNat k
            then vLane (iT w.toNat) ((s.sp c p).vr (iRs1 w.toNat)) k else 0) (if iT w.toNat = 0 then 5 else 6) 0
          else (((List.range (vN (iT w.toNat))).filter (fun k => bitB ((s.sp c p).pr (iPg w.toNat)).toNat k)).map (fun k =>
              vLane (iT w.toNat) ((s.sp c p).vr (iRs1 w.toNat)) k)).foldl
            (if op = 1 then fpMax (vFmt (iT w.toNat)) else fpMin (vFmt (iT w.toNat)))
            ((fpFmt (vFmt (iT w.toNat))).withSign (decide (op = 1)) (fpFmt (vFmt (iT w.toNat))).infCode)) ∧
        (∀ k, 0 < k → k < vN (iT w.toNat) → lane (vW (iT w.toNat)) ((t.sp c p).vr (iRd w.toNat)).toNat k = 0 ∨ 3 ≤ iT w.toNat ∧ k * vW (iT w.toNat) < 32) ∧
        OnlySp (s.throttled c).2 t c p (Reg.addr .CORE_FPSTAT c 0 0 :: cntRegs c))))

/-- Moves among lanes and between register files (R151). -/
def Obligations.VectorMoves : Prop :=
  ∀ (s : State) (c p : Nat) (w : W32), iT w.toNat ≤ 5 →
    (iMaj w.toNat = 0x24 →
      (iF4 w.toNat = 0 → VectorRow (.vperm c p w) s c p [] [iRd w.toNat, iRs1 w.toNat, iRs2 w.toNat] (WritesLanes (.vperm c p w) s c p (iRd w.toNat) (vW (iT w.toNat)) (vN (iT w.toNat))
        ((s.sp c p).pr (iPg w.toNat)) ((s.sp c p).vr (iRd w.toNat)) (fun k => (vLane (iT w.toNat) ((s.sp c p).vr (iRs1 w.toNat))
          (vLane (iT w.toNat) ((s.sp c p).vr (iRs2 w.toNat)) k % vN (iT w.toNat)), 0)))) ∧
      (iF4 w.toNat = 1 → VectorRow (.vsel c p w) s c p [] [iRd w.toNat, iRs1 w.toNat, iRs2 w.toNat] (WritesLanes (.vsel c p w) s c p (iRd w.toNat) (vW (iT w.toNat)) (vN (iT w.toNat))
        ((s.sp c p).pr (iPg w.toNat)) ((s.sp c p).vr (iRs2 w.toNat)) (fun k =>
          (vLane (iT w.toNat) ((s.sp c p).vr (iRs1 w.toNat)) k, 0))))) ∧
    (iMaj w.toNat = 0x29 →
      (iF4 w.toNat = 0 → iRs2 w.toNat = 0 → VectorRow (.vbcast c p w) s c p [iRs1 w.toNat] [iRd w.toNat]
        (WritesLanes (.vbcast c p w) s c p (iRd w.toNat) (vW (iT w.toNat)) (vN (iT w.toNat)) ((s.sp c p).pr (iPg w.toNat))
          ((s.sp c p).vr (iRd w.toNat)) (fun _ => (((s.sp c p).xr (iRs1 w.toNat)).toNat, 0)))) ∧
      (iF4 w.toNat = 1 → iPg w.toNat = 0 → VectorRow (.vext c p w) s c p [iRd w.toNat, iRs2 w.toNat] [iRs1 w.toNat]
        (RetiresV (.vext c p w) s c p ((s.sp c p).setX (iRd w.toNat) (w64 (vLane (iT w.toNat) ((s.sp c p).vr (iRs1 w.toNat))
          (((s.sp c p).xr (iRs2 w.toNat)).toNat % vN (iT w.toNat))))))) ∧
      (iF4 w.toNat = 2 → iPg w.toNat = 0 → VectorRow (.vins c p w) s c p [iRs1 w.toNat, iRs2 w.toNat] [iRd w.toNat]
        (WritesLanes (.vins c p w) s c p (iRd w.toNat) (vW (iT w.toNat)) (vN (iT w.toNat)) (BitVec.allOnes 128)
          ((s.sp c p).vr (iRd w.toNat)) (fun k => (if k = ((s.sp c p).xr (iRs2 w.toNat)).toNat % vN (iT w.toNat)
            then ((s.sp c p).xr (iRs1 w.toNat)).toNat else vLane (iT w.toNat) ((s.sp c p).vr (iRd w.toNat)) k, 0)))))

/-- Predicate instructions (R151): the bitwise operations, PFIRST with the lowest bits set, and PCOUNT. A write of p0 is ignored
(R139). -/
def Obligations.PredicateInstructions : Prop :=
  ∀ (s : State) (c p : Nat) (w : W32), iMaj w.toNat = 0x2A → iRs3 w.toNat = 0 →
    (iRd w.toNat < 8 → iRs1 w.toNat < 8 →
      (iF w.toNat = 0 → iRs2 w.toNat < 8 → VectorRow (.pand c p w) s c p [] [] (RetiresV (.pand c p w) s c p ((s.sp c p).setP (iRd w.toNat)
        ((s.sp c p).pr (iRs1 w.toNat) &&& (s.sp c p).pr (iRs2 w.toNat))))) ∧
      (iF w.toNat = 1 → iRs2 w.toNat < 8 → VectorRow (.porPredicate c p w) s c p [] [] (RetiresV (.porPredicate c p w) s c p ((s.sp c p).setP (iRd w.toNat)
        ((s.sp c p).pr (iRs1 w.toNat) ||| (s.sp c p).pr (iRs2 w.toNat))))) ∧
      (iF w.toNat = 2 → iRs2 w.toNat < 8 → VectorRow (.pxor c p w) s c p [] [] (RetiresV (.pxor c p w) s c p ((s.sp c p).setP (iRd w.toNat)
        ((s.sp c p).pr (iRs1 w.toNat) ^^^ (s.sp c p).pr (iRs2 w.toNat))))) ∧
      (iF w.toNat = 3 → iRs2 w.toNat = 0 → VectorRow (.pnot c p w) s c p [] [] (RetiresV (.pnot c p w) s c p ((s.sp c p).setP (iRd w.toNat)
        (~~~ (s.sp c p).pr (iRs1 w.toNat)))))) ∧
    (iF w.toNat = 4 → iRd w.toNat < 8 → iRs2 w.toNat = 0 → 
      ∃ q : V128, (∀ k, k < 128 → q.getLsbD k = decide (k < ((s.sp c p).xr (iRs1 w.toNat)).toNat)) ∧
        VectorRow (.pfirst c p w) s c p [iRs1 w.toNat] [] (RetiresV (.pfirst c p w) s c p ((s.sp c p).setP (iRd w.toNat) q))) ∧
    (iF w.toNat = 5 → iRs1 w.toNat < 8 → iRs2 w.toNat = 0 → VectorRow (.pcount c p w) s c p [iRd w.toNat] []
      (RetiresV (.pcount c p w) s c p ((s.sp c p).setX (iRd w.toNat)
        (w64 ((List.range 128).countP (fun k => ((s.sp c p).pr (iRs1 w.toNat)).getLsbD k))))))

/-- Conversion (R51 to R57, R153): the elements of a chunk of vs1, each converted, fill their place in vd, whose other bits are zero, and
the flags are added to the status. A finite source is rounded into a floating format as `RoundsTo` has it, into an integer format with its
range for a limit, into INT1 by its sign, and into E8M0 by its exponent; NaN and the infinities give the values of R53, R54 and R56, with
NV where the destination has no such value. A zero that an integer format takes sets no flag, whatever its sign (log entry 108). -/
def Obligations.VectorConversion : Prop :=
  (∀ (src dst rm x : Nat) (sat : Bool) (v : Val), 1 ≤ src → src ≤ 15 → rm < 4 → v = anyVal src x →
    (src ≤ 6 → numOf v = some (intVal src x : ℚ)) ∧
    (src = 15 → v = if x % 256 = 255 then .nan else .fin false 1 (((x % 256 : Nat) : ℤ) - 127)) ∧
    (∀ q : ℚ, numOf v = some q →
      (7 ≤ dst → dst ≤ 14 → RoundsTo dst rm sat (signVal v) q (convert src dst rm sat x)) ∧
      (2 ≤ dst → dst ≤ 6 → convert src dst rm sat x =
        (wrapN (fmtBits dst) (max (iMin (fmtBits dst)) (min (iMax (fmtBits dst)) (rounded rm q))),
          if rounded rm q < iMin (fmtBits dst) ∨ iMax (fmtBits dst) < rounded rm q then fOF + fNX
          else if (rounded rm q : ℚ) = q then 0 else fNX)) ∧
      (dst = 1 → convert src dst rm sat x = (if q < 0 then 0 else 1, if |q| = 1 then 0 else fNX)) ∧
      (dst = 15 → convert src dst rm sat x =
        (if q = 0 then 0 else (max 0 (min 254 (Int.log 2 |q| + 127))).toNat,
          if q = 0 then fNX else if Int.log 2 |q| < -127 then fUF + fNX else if 127 < Int.log 2 |q| then fOF + fNX
          else if (2 : ℚ) ^ Int.log 2 |q| = q then 0 else fNX))) ∧
    (v = .nan → (convert src dst rm sat x) = match dst with
      | 1 => (1, fNV)
      | 7 | 8 | 9 => (0, fNV)
      | 10 => (0x7F, 0)
      | 11 => (0x7E, 0)
      | 12 => (0x7FC0, 0)
      | 13 => (0x7E00, 0)
      | 14 => (0x7FC00000, 0)
      | 15 => (0xFF, 0)
      | d => if 2 ≤ d ∧ d ≤ 6 then (0, fNV) else convert src dst rm sat x) ∧
    (∀ n, v = .inf n →
      (11 ≤ dst → dst ≤ 14 → convert src dst rm sat x =
        ((fpFmt dst).withSign n (if sat then (fpFmt dst).maxc else (fpFmt dst).infCode), 0)) ∧
      (dst = 10 → convert src dst rm sat x = (if sat then (if n then 0xFE else 0x7E) else 0x7F, fNV)) ∧
      (7 ≤ dst → dst ≤ 9 → convert src dst rm sat x = ((fpFmt dst).withSign n (fpFmt dst).maxc, fNV)) ∧
      (2 ≤ dst → dst ≤ 6 → convert src dst rm sat x = (wrapN (fmtBits dst) (if n then iMin (fmtBits dst) else iMax (fmtBits dst)), fNV)) ∧
      (dst = 1 → convert src dst rm sat x = (if n then 0 else 1, fNV)) ∧ (dst = 15 → convert src dst rm sat x = (0xFF, fNV)))) ∧
  ∀ (s : State) (c p : Nat) (w : W32), iMaj w.toNat = 0x25 → cvtLegal w.toNat = true →
    ∀ ws wd n h x, ws = fmtBits (cvtSrc w.toNat) → wd = fmtBits (cvtDst w.toNat) → n = cvtN w.toNat → h = cvtH w.toNat →
      x = ((s.sp c p).vr (iRs1 w.toNat)).toNat →
      VectorRow (.vcvt c p w) s c p [] [iRd w.toNat, iRs1 w.toNat] (Completes (.vcvt c p w) s (fun t => ∃ v : V1024, t.sp c p = ((s.sp c p).setV (iRd w.toNat) v).past 4 ∧
        (∀ k, k < n → lane wd v.toNat ((if wd < ws then h * n else 0) + k) =
          (convert (cvtSrc w.toNat) (cvtDst w.toNat) (bits w.toNat 26 25) (bitB w.toNat 27)
            (lane ws x ((if ws < wd then h * n else 0) + k))).1 % 2 ^ wd) ∧
        (∀ b, b < 1024 → b < (if wd < ws then h * n else 0) * wd ∨ ((if wd < ws then h * n else 0) + n) * wd ≤ b →
          v.getLsbD b = false) ∧
        t.reg .CORE_FPSTAT c 0 0 = s.reg .CORE_FPSTAT c 0 0 ||| w64 ((List.range n).foldl (fun f k =>
          f ||| (convert (cvtSrc w.toNat) (cvtDst w.toNat) (bits w.toNat 26 25) (bitB w.toNat 27)
            (lane ws x ((if ws < wd then h * n else 0) + k))).2) 0) ∧
        OnlySp (s.throttled c).2 t c p (Reg.addr .CORE_FPSTAT c 0 0 :: cntRegs c)))

/-- The bytes of scratchpad (0) or of L-space (1) at `a`. -/
def flatRange (s : State) (c space a n : Nat) : List Byte :=
  if space = 0 then SMap.range (s.core c).spad 0 a n else SMap.range s.mem.loft 0 a n

/-- One byte of scratchpad or of L-space. -/
def flatByte (s : State) (c space a : Nat) : Byte :=
  if space = 0 then SMap.get (s.core c).spad 0 a else SMap.get s.mem.loft 0 a

/-- Does a range lie in the scratchpad, or in L-space? -/
def flatIn (s : State) (space a n : Nat) : Prop := if space = 0 then a + n ≤ accBase else a + n ≤ s.variant.lEnd

/-- Vector memory in the scratchpad and in L-space (R141, R154, R322). VLD delivers its active lanes from memory where the load buffers
hold no copy of the line; VST and VSCATTER store their active lanes, the highest lane last, and change no other byte; VGATHER
delivers one element per active lane. With no active lane a load or a store only moves on. An access takes ACCESS beyond its space and in the
accumulator range unless its elements are aligned words, else ALIGN where it is misaligned, and waits as R127 and R157 have it; a gather
or scatter takes it for its lowest failing active lane (R125, R164, R173). -/
def Obligations.VectorMemory : Prop :=
  ∀ (s : State) (c p : Nat) (w : W32), s.memOk = true →
    (iMaj w.toNat = 0x26 ∨ iMaj w.toNat = 0x27 → vmLegal w.toNat = true →
      ∀ a e, a = vmAddr (s.sp c p) w.toNat → e = vmW w.toNat →
      ((∀ k, k < 1024 / e → laneOn ((s.sp c p).pr (vmPg w.toNat)) k = false) →
        (bitB w.toNat 17 = false → VectorRow (.vld c p w []) s c p [iRs1 w.toNat] [iRd w.toNat]
          (RetiresV (.vld c p w []) s c p (s.sp c p))) ∧
        (bitB w.toNat 17 = true → VectorRow (.vst c p w) s c p [iRs1 w.toNat] [iRd w.toNat]
          (RetiresV (.vst c p w) s c p (s.sp c p)))) ∧
      ((∃ k, k < 1024 / e ∧ laneOn ((s.sp c p).pr (vmPg w.toNat)) k = true) → flatIn s (vmSpace w.toNat) a 128 → a % 128 = 0 →
        s.moveBusy c p (vmSpace w.toNat) a 128 = false →
        (∀ ups, bitB w.toNat 17 = false → SMap.has (s.sp c p).vbuf (vbKey (vmSpace w.toNat) a) = false →
          VectorRow (.vld c p w ups) s c p [iRs1 w.toNat] [iRd w.toNat] (Completes (.vld c p w ups) s (fun t => ∃ v : V1024,
            (t.sp c p).v = ((s.sp c p).setV (iRd w.toNat) v).v ∧ (t.sp c p).pc = (s.sp c p).pc + 4 ∧ (t.sp c p).x = (s.sp c p).x ∧
            (∀ k, k < 1024 / e → lane e v.toNat k = if laneOn ((s.sp c p).pr (vmPg w.toNat)) k
              then lane e (ofLe (flatRange s c (vmSpace w.toNat) a 128)) k else lane e ((s.sp c p).vr (iRd w.toNat)).toNat k) ∧
            t.mem.loft = s.mem.loft ∧ t.mem.hbm = s.mem.hbm ∧ (t.core c).spad = (s.core c).spad ∧
            (t.core c).acc = (s.core c).acc ∧ ∀ d, d ≠ c → t.core d = s.core d))) ∧
        (bitB w.toNat 17 = true →
          VectorRow (.vst c p w) s c p [iRs1 w.toNat] [iRd w.toNat] (Completes (.vst c p w) s (fun t => (t.sp c p).v = (s.sp c p).v ∧ (t.sp c p).x = (s.sp c p).x ∧
            (t.sp c p).pc = (s.sp c p).pc + 4 ∧
            (∀ b, flatByte t c (vmSpace w.toNat) b = if a ≤ b ∧ b < a + 128 ∧
                laneOn ((s.sp c p).pr (vmPg w.toNat)) ((b - a) * 8 / e) = true
              then BitVec.ofNat 8 (lane 8 ((s.sp c p).vr (iRd w.toNat)).toNat (b - a)) else flatByte s c (vmSpace w.toNat) b) ∧
            (∀ b, flatByte t c (1 - vmSpace w.toNat) b = flatByte s c (1 - vmSpace w.toNat) b) ∧
            t.mem.hbm = s.mem.hbm ∧ (t.core c).acc = (s.core c).acc ∧ ∀ d, d ≠ c → t.core d = s.core d)))) ∧
      (∀ bad, (bad ↔ if iMaj w.toNat = 0x26 then sEnd < a + 128 ∨ (accBase < a + 128 ∧ (e ≠ 32 ∨ a % 4 ≠ 0)) else s.variant.lEnd < a + 128) →
        (∃ k, k < 1024 / e ∧ laneOn ((s.sp c p).pr (vmPg w.toNat)) k = true) →
        (∀ ups, bitB w.toNat 17 = false → VectorRow (.vld c p w ups) s c p [iRs1 w.toNat] [iRd w.toNat]
          (MemoryGuards (.vld c p w ups) ((s.throttled c).2.mark (vmSpace w.toNat) c ups) c p w (vmSpace w.toNat) a 128 128 bad s)) ∧
        (bitB w.toNat 17 = true → VectorRow (.vst c p w) s c p [iRs1 w.toNat] [iRd w.toNat]
          (MemoryGuards (.vst c p w) (s.throttled c).2 c p w (vmSpace w.toNat) a 128 128 bad s)))) ∧
    (iMaj w.toNat = 0x28 → gsLegal w.toNat = true →
      ∀ n es, n = gsBytes w.toNat → es = gsElems (s.sp c p) w.toNat →
      (∀ e, es.find? (fun e => vBarred s.variant (gsSpace w.toNat) e.2 n n || e.2 % n != 0) = some e → ∀ row, row ∈ [Instr.vgather c p w, .vscatter c p w] →
        (row = .vgather c p w ↔ bitB w.toNat 27 = false) →
        VectorRow row s c p [iRs1 w.toNat] [iRd w.toNat, iRs2 w.toNat] (Completes row s (fun t =>
          t = (s.throttled c).2.precise c p
            (if (if gsSpace w.toNat = 0 then sEnd < e.2 + n ∨ (accBase < e.2 + n ∧ (n ≠ 4 ∨ e.2 % 4 ≠ 0)) else s.variant.lEnd < e.2 + n)
             then 4 else 3) e.2))) ∧
      (∀ e ∈ es, flatIn s (gsSpace w.toNat) e.2 n ∧ e.2 % n = 0 ∧ s.moveBusy c p (gsSpace w.toNat) e.2 n = false) →
      (bitB w.toNat 27 = false → (s.sp c p).vbuf = [] →
        VectorRow (.vgather c p w) s c p [iRs1 w.toNat] [iRd w.toNat, iRs2 w.toNat] (Completes (.vgather c p w) s (fun t => ∃ v : V1024,
          (t.sp c p).v = ((s.sp c p).setV (iRd w.toNat) v).v ∧ (t.sp c p).pc = (s.sp c p).pc + 4 ∧ (t.sp c p).x = (s.sp c p).x ∧
          (∀ k, k < 32 → lane (8 * n) v.toNat k = match es.find? (fun e => e.1 == k) with
            | some e => ofLe (flatRange s c (gsSpace w.toNat) e.2 n)
            | none => lane (8 * n) ((s.sp c p).vr (iRd w.toNat)).toNat k) ∧
          t.mem = s.mem ∧ (t.core c).spad = (s.core c).spad ∧ (t.core c).acc = (s.core c).acc ∧ ∀ d, d ≠ c → t.core d = s.core d))) ∧
      (bitB w.toNat 27 = true →
        VectorRow (.vscatter c p w) s c p [iRs1 w.toNat] [iRd w.toNat, iRs2 w.toNat] (Completes (.vscatter c p w) s (fun t => (t.sp c p).v = (s.sp c p).v ∧ (t.sp c p).x = (s.sp c p).x ∧
          (t.sp c p).pc = (s.sp c p).pc + 4 ∧
          (∀ b, flatByte t c (gsSpace w.toNat) b = match es.reverse.find? (fun e => e.2 ≤ b && b < e.2 + n) with
            | some e => BitVec.ofNat 8 (lane 8 (lane (8 * n) ((s.sp c p).vr (iRd w.toNat)).toNat e.1) (b - e.2))
            | none => flatByte s c (gsSpace w.toNat) b) ∧
          (∀ b, flatByte t c (1 - gsSpace w.toNat) b = flatByte s c (1 - gsSpace w.toNat) b) ∧
          t.mem.hbm = s.mem.hbm ∧ (t.core c).acc = (s.core c).acc ∧ ∀ d, d ≠ c → t.core d = s.core d))))

/-! ### Tile, gleaner, stook and remote instructions -/

/-- The 64-bit instruction of processor `p` puts `op` at the tail of the tile queue of array `a` with the core's next order number,
moves the pc on by 8, and changes nothing else but counters (R82, R155). -/
def Enqueues (i : Instr) (s : State) (c p a : Nat) (op : TileOp) : Prop :=
  Completes i s (fun t => OnlyCore s t c (cntRegs c) ∧
    t.core c = { ((s.core c).setSp p ((s.sp c p).past 8)).setArr a
      { s.arr c a with queue := (s.arr c a).queue ++ [⟨p, (s.core c).seq, op, false⟩] } with seq := (s.core c).seq + 1 })

/-- Tile instructions (R82, R155 to R157, R608). With room in the queue and descriptors that pass the issue checks, each enters its array's
queue, or the tile mover's; a pass from a stream claims its rows at once (R209). -/
def Obligations.TileIssue : Prop :=
  ∀ (s : State) (c p : Nat) (w : W64), Issues s c p [] [] →
    (∀ a, a = bits w.toNat 12 11 → (s.arr c a).queue.length < 8 →
      (isTile w 0 = true → bits w.toNat 63 19 = 0 →
        tdFault (tdOf ((s.sp c p).tr (bits w.toNat 17 14))) true
          ((tdOf ((s.sp c p).tr (bits w.toNat 17 14))).outside s.variant true) = none →
        Enqueues (.matLoadb c p w) s c p a
          (.loadb (bits w.toNat 13 13) ((s.sp c p).tr (bits w.toNat 17 14)) (bitB w.toNat 18))) ∧
      (∀ t, isTile w 1 = true → bits w.toNat 63 38 = 0 → bitB w.toNat 16 = false → bits w.toNat 37 29 = 0 →
        t = tdOf ((s.sp c p).tr (bits w.toNat 20 17)) →
        tdFault t false (t.outside s.variant false || t.space == 1 || (t.space == 2 && !t.remote)) = none →
        Enqueues (.matPass c p w) s c p a (.pass ⟨bits w.toNat 13 13, bits w.toNat 15 14, bits w.toNat 28 21, t.rows, t.fmt,
          t.cols, t.scaled, .tile ((s.sp c p).tr (bits w.toNat 20 17)) false⟩)) ∧
      (∀ x m f k, isTile w 1 = true → bits w.toNat 63 38 = 0 → bitB w.toNat 16 = true → bits w.toNat 20 19 = 0 →
        x = (s.core c).gln.stream (bits w.toNat 18 17) → m = bits w.toNat 37 29 → m ≠ 0 → x.claim? m = some (f, k) →
        Completes (.matPass c p w) s (fun t => OnlyCore s t c (cntRegs c) ∧
          (t.core c).gln = (s.core c).gln.setStream (bits w.toNat 18 17) { x with claimed := x.claimed + m } ∧
          (t.arr c a).queue = (s.arr c a).queue ++ [⟨p, (s.core c).seq, .pass ⟨bits w.toNat 13 13, bits w.toNat 15 14,
            bits w.toNat 28 21, m, f, k, false, .stream (bits w.toNat 18 17) x.claimed⟩, false⟩] ∧
          t.sp c p = (s.sp c p).past 8 ∧ (t.core c).spad = (s.core c).spad ∧ (t.core c).acc = (s.core c).acc)) ∧
      (isTile w 2 = true → bits w.toNat 63 18 = 0 → bits w.toNat 13 13 = 0 →
        Enqueues (.matOpen c p w) s c p a (.opn (bits w.toNat 15 14) (bitB w.toNat 16) (bitB w.toNat 17))) ∧
      (isTile w 3 = true → bits w.toNat 63 16 = 0 → bits w.toNat 13 13 = 0 →
        Enqueues (.matClose c p w) s c p a (.cls (bits w.toNat 15 14)))) ∧
    (isTile w 4 = true → bits w.toNat 63 23 = 0 → (s.core c).mover.length < 8 →
      tdFault (tdOf ((s.sp c p).tr (bits w.toNat 14 11))) false false = none →
      tdFault (tdOf ((s.sp c p).tr (bits w.toNat 18 15))) false false = none →
      Completes (.tileMove c p w) s (fun t => OnlyCore s t c (cntRegs c) ∧
        t.core c = { (s.core c).setSp p ((s.sp c p).past 8) with
          seq := (s.core c).seq + 1
          mover := (s.core c).mover ++ [⟨p, (s.core c).seq, (s.sp c p).tr (bits w.toNat 14 11), (s.sp c p).tr (bits w.toNat 18 15),
            bits w.toNat 20 19, bitB w.toNat 21, bitB w.toNat 22⟩] }))

/-- One byte of S-space as the tile mover sees it (R124, R128), or of L-space: in the accumulator range a byte of an accumulator word, 0
where the stook owns the word's array. -/
def coreByte (s : State) (c space a : Nat) : Byte :=
  if space = 1 then SMap.get s.mem.loft 0 a
  else if a < accBase then SMap.get (s.core c).spad 0 a
  else if s.owned c ((a - accBase) / 4 / 0x40000) then 0
  else (SMap.get (s.core c).acc 0 ((a - accBase) / 4)).extractLsb' (8 * (a % 4)) 8

/-- The bytes of S-space or of L-space at `a`, the accumulator range among them. -/
def coreBytes (s : State) (c space a n : Nat) : List Byte := (List.range n).map (fun k => coreByte s c space (a + k))

/-- Row `i` of a tile whose rows of `n` bytes follow one another in `data`, under format `g`: as it is where the formats are one, else each
of its elements converted and packed again (R48, R157). -/
def movedRow (t0 : Td) (g rm : Nat) (sat : Bool) (data : List Byte) (i : Nat) : List Byte :=
  if t0.fmt = g then (data.drop (i * rowBytes t0.fmt t0.cols)).take (rowBytes t0.fmt t0.cols)
  else packRow g ((unpackRow t0.fmt t0.cols ((data.drop (i * rowBytes t0.fmt t0.cols)).take (rowBytes t0.fmt t0.cols))).map
    (fun y => (convert t0.fmt g rm sat y).1))

/-- The tile mover finishes its oldest move (R157): a move of differing shapes takes MOVE and changes no memory, and does so before any
ACCESS, which is the model's order (log entry 20); one between tiles of one
format without scales, in the scratchpad or in L-space, leaves the queue with every row of the source in its row of the destination. In
general the source, in S-space with its accumulators, in L-space or in E-space, is read when the move completes, which is the model's choice
(log entry 13); every row goes to its row of the destination, converted where the formats differ with the flags added to the core's status,
and the scales of scaled tiles go with them. -/
def Obligations.TileMover : Prop :=
  ∀ (s : State) (c : Nat) (e : MoveEntry) (r : List MoveEntry) (d t0 : Td) (n : Nat), (s.core c).mover = e :: r →
    s.alive = true → d = tdOf e.td → t0 = tdOf e.ts → n = rowBytes d.fmt d.cols →
    (e.moveFault = true → (s.sp c e.sp).ended = false → (s.sp c e.sp).pend.length < 4 →
      Completes (.tileMoveComplete c) s (fun t => (t.core c).mover = r ∧
        (t.sp c e.sp).pend = (s.sp c e.sp).pend ++ [⟨7, 0, 0, 0⟩] ∧ (t.core c).spad = (s.core c).spad ∧
        (t.core c).acc = (s.core c).acc ∧ OnlyCore s t c [])) ∧
    (s.memOk = true → e.moveFault = false → s.moveWaits c e = false → d.space ≤ 1 → t0.space ≤ 1 → d.fmt = t0.fmt →
      d.scaled = false → n ≤ d.stride →
      (∀ i, i < d.rows → flatIn s d.space (d.base + i * d.stride) n ∧ flatIn s t0.space (t0.base + i * t0.stride) n) →
      Completes (.tileMoveComplete c) s (fun t => (t.core c).mover = r ∧ (∀ k, k ≠ c → t.core k = s.core k) ∧
        (∀ i, i < d.rows → flatRange t c d.space (d.base + i * d.stride) n = flatRange s c t0.space (t0.base + i * t0.stride) n) ∧
        (∀ a, (∀ i, i < d.rows → a < d.base + i * d.stride ∨ d.base + i * d.stride + n ≤ a) →
          flatByte t c d.space a = flatByte s c d.space a) ∧
        (∀ a, flatByte t c (1 - d.space) a = flatByte s c (1 - d.space) a) ∧
        (t.core c).acc = (s.core c).acc ∧ t.mem.hbm = s.mem.hbm)) ∧
    (e.moveFault = false → d.outside s.variant false = true ∨ t0.outside s.variant false = true → (s.sp c e.sp).ended = false →
      (s.sp c e.sp).pend.length < 4 →
      Completes (.tileMoveComplete c) s (fun t => (t.core c).mover = r ∧ OnlyCore s t c [] ∧
        (t.sp c e.sp).pend = (s.sp c e.sp).pend ++ [⟨4, 0, 0, w64 (if d.outside s.variant false then d.base else t0.base)⟩] ∧
        (t.core c).spad = (s.core c).spad ∧ (t.core c).acc = (s.core c).acc)) ∧
    (∀ x, s.memOk = true → e.moveFault = false → d.outside s.variant false = false → t0.outside s.variant false = false →
      tdFault d false false = none → tdFault t0 false false = none → s.moveWaits c e = false →
      x = (s.modCore c (fun k => { k with mover := r })).readRanges t0.space c t0.hint e.last .mover (some e.sp) (t0.ranges false) →
      x.ue = false →
      (t0.space ≤ 1 → x.data = ((t0.ranges false).map (fun y => coreBytes s c t0.space y.1 y.2)).flatten) ∧
      Completes (.tileMoveComplete c) s (fun t => (t.core c).mover = r ∧
        (d.space ≤ 1 → (∀ y ∈ d.ranges false, ∀ g ∈ groupsOf y.1 y.2, d.space = 0 → s.owned c g.1 = false) →
          (∀ i, i < d.rows → coreBytes t c d.space (d.base + i * d.stride) n = movedRow t0 d.fmt e.rm e.sat x.data i) ∧
          (d.scaled = true → coreBytes t c d.space d.scaleBase (d.scaleBytes false) = x.data.drop (d.rows * n)) ∧
          (∀ a, (∀ y ∈ d.ranges false, a < y.1 ∨ y.1 + y.2 ≤ a) → coreByte t c d.space a = coreByte s c d.space a)) ∧
        (d.space = 2 → t.mem = (x.st.writeRanges 2 c d.hint .mover (some e.sp) (d.ranges false)
          (((List.range d.rows).map (movedRow t0 d.fmt e.rm e.sat x.data)).flatten ++
            if d.scaled then x.data.drop (d.rows * n) else [])).mem) ∧
        (d.fmt = t0.fmt → t.reg .CORE_FPSTAT c 0 0 = s.reg .CORE_FPSTAT c 0 0) ∧
        (d.fmt ≠ t0.fmt → t.reg .CORE_FPSTAT c 0 0 = s.reg .CORE_FPSTAT c 0 0 ||| w64 (((List.range t0.rows).map (fun i =>
          ((unpackRow t0.fmt t0.cols ((x.data.drop (i * rowBytes t0.fmt t0.cols)).take (rowBytes t0.fmt t0.cols))).map
            (fun y => (convert t0.fmt d.fmt e.rm e.sat y).2)).foldl (· ||| ·) 0)).foldl (· ||| ·) 0))))

/-- Gleaner instructions (R187, R189, R191). With room in the queue, an aligned descriptor in the scratchpad enters as a copy; a stream
operation promises its rows. GLN.DRAIN waits until no operation of its processor is there, and then retires, and the processor's load
buffers drop the lines that the gleaner has written for it. -/
def Obligations.GleanerIssue : Prop :=
  ∀ (s : State) (c p : Nat) (w : W64) (a op : Nat), iMaj w.toNat = 0x61 →
    (Issues s c p [bits w.toNat 15 11] [] → iSub w.toNat = op → bits w.toNat 63 16 = 0 →
      a = ((s.sp c p).xr (bits w.toNat 15 11)).toNat → a < accBase → a % 64 = 0 → (s.core c).gln.queue.length < 16 →
      ∀ row, (op, row) ∈ [(0, Instr.glnGather c p w), (1, .glnSegred c p w), (2, .glnScatadd c p w), (3, .glnMerge c p w),
          (4, .glnIsect c p w), (5, .glnSort c p w), (6, .glnProbe c p w)] →
      Completes row s (fun t => t.sp c p = (s.sp c p).past 8 ∧
        (t.core c).gln.queue = (s.core c).gln.queue ++ [⟨(s.core c).gln.nextId, op,
          words64 8 (SMap.range (s.core c).spad 0 a 64), 0, a, p, none, 0, false, 0, none, [], none, false, false, []⟩] ∧
        (∀ k, k < 4 → ((t.core c).gln.stream k).promised = ((s.core c).gln.stream k).promised +
          if k = gStream (words64 8 (SMap.range (s.core c).spad 0 a 64))
          then gPromise op (words64 8 (SMap.range (s.core c).spad 0 a 64)) else 0) ∧
        (t.core c).spad = (s.core c).spad ∧ (t.core c).acc = (s.core c).acc ∧ t.mem = s.mem ∧
        ∀ d, d ≠ c → t.core d = s.core d)) ∧
    (Issues s c p [] [] → iSub w.toNat = 15 → bits w.toNat 63 11 = 0 →
      ((s.core c).gln.queue.any (fun e => e.cmd.isNone && e.sp == p) = false →
        Completes (.glnDrain c p w) s (fun t => t.sp c p = Sp.past { s.sp c p with
          vbuf := (s.sp c p).vbuf.filter (fun e => !(s.sp c p).glnLines.contains e.1), glnLines := [] } 8 ∧
          OnlySp s t c p (cntRegs c))) ∧
      ((s.core c).gln.queue.any (fun e => e.cmd.isNone && e.sp == p) = true →
        Completes (.glnDrain c p w) s (fun t => t = s)))

/-- The remote instruction's packet data (R160): nothing for RLD, else the bytes of its register. -/
def remData (u : Sp) (kind i : Nat) : List Byte :=
  if kind = 0 then [] else if bits i 22 21 = 2 then leBytes 128 (u.vr (bits i 15 11)).toNat
  else leBytes (rmSize i) (u.xr (bits i 15 11)).toNat

/-- STOOK.PUT and the remote instructions (R96, R97, R159 to R162, R335, R346). A PUT for a bound key of an enabled stook joins its key's batch;
a remote instruction at an aligned window address takes the next entry and leaves its processor. With no window cache entry for its
page it waits for a walk. RSTF_SEND fails a held RSTF with the status of an earlier write, and sends one that may go. -/
def Obligations.StookPutAndRemote : Prop :=
  ∀ (s : State) (c p : Nat) (w : W64),
    (∀ a d n r, iMaj w.toNat = 0x62 → iSub w.toNat = 0 → bits w.toNat 63 29 = 0 →
      Issues s c p [bits w.toNat 15 11, bits w.toNat 20 16] [] →
      a = tdOf ((s.sp c p).tr (bits w.toNat 24 21)) → d = tdOf ((s.sp c p).tr (bits w.toNat 28 25)) →
      putFault a = none → putFault d = none → (s.core c).stook.pending < 256 → s.keyIdx c (bits ((s.sp c p).xr (bits w.toNat 15 11)).toNat 31 0) = some n →
      r = ⟨a.rows, a.space, a.base, a.stride, d.space, d.base, d.stride, none, p, bits ((s.sp c p).xr (bits w.toNat 20 16)).toNat 15 0⟩ →
      s.rdB STOOK_CTL.EN c = true → s.rd STOOK_CTL.ARRAYS c ≠ 0 → s.reqBad c n r = false → a.rows ≠ 0 →
      reqRows (s.stKey c n).batch + a.rows < 256 →
      Completes (.stookPut c p w) s (fun t => t.sp c p = (s.sp c p).past 8 ∧
        (t.stKey c n).batch = (s.stKey c n).batch ++ [r] ∧ (t.core c).stook.sealed = (s.core c).stook.sealed ∧
        OnlyCore s t c (cntRegs c))) ∧
    (∀ kind row a, (kind, row) ∈ [(0, Instr.rld c p w), (1, .rst c p w), (2, .radd c p w), (3, .rstf c p w)] →
      iMaj w.toNat = 0x63 → iSub w.toNat = kind → rmLegal kind w.toNat = true →
      Issues s c p (if bits w.toNat 22 21 = 2 then [bits w.toNat 20 16] else [bits w.toNat 20 16, bits w.toNat 15 11])
        (if bits w.toNat 22 21 = 2 then [bits w.toNat 15 11] else []) →
      a = addOff ((s.sp c p).xr (bits w.toNat 20 16)) (sext 24 (bits w.toNat 49 26)) → bitB a 63 = true → a % rmSize w.toNat = 0 →
      s.remUsed c < 128 → bits a 62 46 = 0 → s.rdB WIN_GUARD.EN = true →
      (s.wcache (srcBdie c)).find? (fun x => x.1 == winPage a) = none → c < s.variant.cores →
      (∀ o ∈ s.win.ops, o.id ≠ s.win.nextId) →
      Completes row s (fun t => t.sp c p = (s.sp c p).past 8 ∧
        t.win = { s.win with nextId := s.win.nextId + 1, ops := s.win.ops ++
          [⟨s.win.nextId, c, kind, p, bits w.toNat 15 11, w64 a, rmSize w.toNat, remData (s.sp c p) kind w.toNat,
            bits w.toNat 24 23, bitB w.toNat 25, none, none, (s.core c).kernel.map (·.queue), 0, 1, 0, false, 0, s.now, s.now, 0, false,
            none, 0⟩] } ∧
        t.core c = (s.core c).setSp p (t.sp c p) ∧ (∀ d, d ≠ c → t.core d = s.core d) ∧
        t = { s with csr := t.csr, cores := t.cores, win := t.win })) ∧
    (∀ id o, s.remOp id = some o → o.kind = 3 → o.stage ≠ 3 →
      (∀ st, o.failSt = some st → o.cmd = none → o.gln = none → (s.sp o.srcid o.sp).ended = false →
        (s.sp o.srcid o.sp).pend.length < 4 →
        Completes (.rstfSend id) s (fun t => (t.sp o.srcid o.sp).pend = (s.sp o.srcid o.sp).pend ++ [⟨9, 0, st, o.addr⟩] ∧
          t.mem = s.mem ∧ t.remOp id = none)) ∧
      (o.failSt = none → (before id o.srcid s.win.ops).any (·.writes) = false → s.maySend o = true →
        Completes (.rstfSend id) s (fun t => t.cores = s.cores ∧ t.mem = s.mem ∧ t.csr = s.csr ∧
          ∃ q, t.remOp id = some q ∧ q.stage = 3 ∧ q.seq = (s.pair o.srcid (entNode o.entry)).seq ∧ q.lastTx = s.now)))

/-! ### Matrix arrays and accumulation groups -/

/-- Only array `a` of core `c`, and registers of the list, may differ. -/
def OnlyArr (s t : State) (c a : Nat) (l : List Nat) : Prop :=
  OnlyCore s t c l ∧ t.core c = (s.core c).setArr a (t.arr c a)

/-- The tile queues (R80 to R82, R87, R91). The instruction at a head is checked once: one that passes takes its way, one that fails
empties its queue, is recorded in ARR_ERR, and raises TILE. A checked pass that may start leaves the queue for the array, and its next
row of A enters when it is there, in a cycle in which the array accepts work (R523), and in any other cycle waits. -/
def Obligations.TileQueues : Prop :=
  ∀ (s : State) (c a : Nat), c < s.variant.cores → a < 4 → s.alive = true →
    (∀ e r, (s.arr c a).queue = e :: r → e.checked = false → tileCause (s.owned c a) (s.arr c a) e = 0 →
      Completes (.tileQueueHeadCheck c a) s (fun t => t.arr c a = (s.arr c a).passed e r ∧ OnlyArr s t c a [])) ∧
    (∀ e r k, (s.arr c a).queue = e :: r → e.checked = false → tileCause (s.owned c a) (s.arr c a) e = k → k ≠ 0 →
      s.rdB ARR_ERR.VALID c a = false → e.sp < 2 → (s.sp c e.sp).ended = false → (s.sp c e.sp).pend.length < 4 →
      Completes (.tileQueueHeadCheck c a) s (fun t => t.arr c a = { s.arr c a with queue := [] } ∧
        t.rdB ARR_ERR.VALID c a = true ∧ t.rd ARR_ERR.CAUSE c a = k ∧ t.rd ARR_ERR.SP c a = e.sp ∧ t.rd ARR_ERR.COUNT c a = 1 ∧
        (t.sp c e.sp).pend = (s.sp c e.sp).pend ++ [⟨6, a, 0, 0⟩] ∧ (t.core c).spad = (s.core c).spad ∧
        (t.core c).acc = (s.core c).acc ∧ OnlyCore s t c [Reg.addr .ARR_ERR c a 0])) ∧
    (∀ e r q, (s.arr c a).queue = e :: r → e.op = .pass q → e.checked = true → s.mayStart c a e.sp e.ord q = true →
      Completes (.passStart c a) s (fun t => OnlyArr s t c a [] ∧
        t.arr c a = { s.arr c a with queue := r, passes := (s.arr c a).passes ++ [⟨e.sp, e.ord, q, [], []⟩] })) ∧
    (∀ x, (s.arr c a).passes.find? (fun x => !x.entered) = some x → s.rowReady c x.req x.rows.length = true →
      (s.throttled c).1 = true → Completes (.passRowEntry c a) s (fun t => t = (s.throttled c).2)) ∧
    (∀ x, (s.arr c a).passes.find? (fun x => !x.entered) = some x → (s.throttled c).1 = false →
      (∀ n st row, x.req.src = .stream n st → ((s.core c).gln.stream n).row (st + x.rows.length) = some row →
        Completes (.passRowEntry c a) s (fun t => (t.arr c a).passes = addRow row [] (s.arr c a).passes ∧
          (t.core c).gln.stream n = ((s.core c).gln.stream n).advance (st + x.rows.length) ∧
          OnlyCore (s.throttled c).2 t c (cntRegs c))) ∧
      (∀ d last k, x.req.src = .tile d last → (tdOf d).scaled = false → k = rowBytes (tdOf d).fmt (tdOf d).cols →
        (tdOf d).base + x.rows.length * (tdOf d).stride + k ≤ accBase →
        Completes (.passRowEntry c a) s (fun t => (t.arr c a).passes = addRow (unpackRow (tdOf d).fmt (tdOf d).cols
            (SMap.range (s.core c).spad 0 ((tdOf d).base + x.rows.length * (tdOf d).stride) k)) [] (s.arr c a).passes ∧
          t.core c = (s.core c).setArr a (t.arr c a) ∧ t.mem = s.mem ∧ ∀ e, e ≠ c → t.core e = s.core e)))

/-- Word (r, j) of a group after a pass (R60 to R68, R83, R120, R123): the pass's row r of A against column j of the tile, added to the word
before it. -/
def passWord (s : State) (c a : Nat) (x : Pass) (t0 : Tile) (i j : Nat) : Nat :=
  (nth (passRow t0 x.req.fmt (nth x.rows [] i) (nth x.scales [] i)
    ((SMap.range (s.core c).acc 0 (accWord a x.req.grp (x.req.r0 + i) 0) t0.n).map (·.toNat))) (0, 0) j).1

/-- The exponent of a block (R62, R63): the largest unbiased exponent of its non-zero elements, an element being a sign, an integer
significand and the exponent of its last bit in a format of precision `p`. -/
def BlockTop (p n : Nat) (A : Nat → Bool × Nat × ℤ) (top : ℤ) : Prop :=
  (∃ k < n, (A k).2.1 ≠ 0 ∧ (A k).2.2 + p - 1 = top) ∧ ∀ k < n, (A k).2.1 ≠ 0 → (A k).2.2 + p - 1 ≤ top

/-- The sum of a segment (R62 to R64): each A element aligned by 2^shift and rounded to an integer, each product with B's signed significand
folded by 8 less B's distance from the block's top, whose last bit has exponent `low`, and rounded to an integer. -/
def segmentSum (shift low : ℤ) (n : Nat) (A B : Nat → Bool × Nat × ℤ) : ℤ :=
  ((List.range n).map (fun k => rounded 0
    ((rounded 0 ((if (A k).1 then -1 else 1) * (A k).2.1 * (2 : ℚ) ^ ((A k).2.2 + shift)) : ℚ) *
      ((if (B k).1 then -1 else 1) * (B k).2.1) * (2 : ℚ) ^ (8 - (low - (B k).2.2))))).sum

/-- A pass completes (R83, R124): each word of its rows and of the tile's columns becomes what R65 and R67 make of it, every other
accumulator word and all of scratchpad and memory keep their contents, and the pass is in flight no longer. Where the operands are
floating and finite and lie in one segment, that word is the word before plus the segment's sum at its weight, rounded once to FP32 to
nearest; a segment whose A block or B column is all zeros leaves it (R62 to R65). -/
def Obligations.PassResults : Prop :=
  (∀ (s : State) (c a g : Nat) (x : Pass) (t0 : Tile), s.memOk = true → s.alive = true → a < 4 → g < 4 →
    (s.arr c a).passes.find? (fun y => y.req.grp == g && y.sp != 2) = some x → x.entered = true →
    (s.arr c a).slot x.req.slot = some t0 → t0.n ≤ 256 → x.req.r0 + x.req.m ≤ 256 →
    Completes (.passComplete c a g []) s (fun t =>
      (∀ i j, i < x.req.m → j < t0.n → SMap.get (t.core c).acc 0 (accWord a g (x.req.r0 + i) j) =
        BitVec.ofNat 32 (passWord s c a x t0 i j)) ∧
      (∀ w, (∀ i j, i < x.req.m → j < t0.n → w ≠ accWord a g (x.req.r0 + i) j) →
        SMap.get (t.core c).acc 0 w = SMap.get (s.core c).acc 0 w) ∧
      (t.arr c a).passes = dropFirst (fun y => y == x) (s.arr c a).passes ∧ (t.core c).spad = (s.core c).spad ∧ t.mem = s.mem ∧
      ∀ d, d ≠ c → t.core d = s.core d)) ∧
  (∀ (t : Tile) (f : Nat) (row sc old : List Nat) (j : Nat) (A B : Nat → Bool × Nat × ℤ) (g : ℚ),
    7 ≤ f → f ≤ 13 → 7 ≤ t.fmt → t.fmt ≤ 13 → row.length ≤ 32 → t.rows.length = row.length → j < old.length →
    aRow f row sc = (List.range row.length).map (fun k => Val.fin (A k).1 (A k).2.1 (A k).2.2) →
    t.column j = (List.range row.length).map (fun k => Val.fin (B k).1 (B k).2.1 (B k).2.2) →
    numOf (fpVal 14 (nth old 0 j)) = some g →
    ((∀ k < row.length, (A k).2.1 = 0) ∨ (∀ k < row.length, (B k).2.1 = 0) →
      (nth (passRow t f row sc old) (0, 0) j).1 = nth old 0 j) ∧
    (∀ (ea eb gb : ℤ) (x : ℚ), BlockTop (fmtP f) row.length A ea → BlockTop (fmtP t.fmt) row.length B eb →
      gb = (if f = 13 then 5 else 8) →
      x = g + segmentSum (fmtP f - 1 + gb - ea) (eb - (fmtP t.fmt - 1)) row.length A B *
        (2 : ℚ) ^ (ea + eb - fmtP f - gb - fmtP t.fmt - 6) →
      ∃ fl, RoundsTo 14 0 false (decide (x < 0)) x ((nth (passRow t f row sc old) (0, 0) j).1, fl)))

/-- Integer passes (R67, R120). The exact sum of the products of a row of A and column `j` of the tile is added to the word before it, once
and exactly; beyond INT32 the word becomes the limit on that side, which is a saturation event. -/
def Obligations.IntegerAccumulation : Prop :=
  ∀ (t : Tile) (f : Nat) (row sc old : List Nat) (j : Nat) (z : Int), fmtInt f = true → fmtInt t.fmt = true → row.length = t.rows.length →
    j < old.length →
    z = sext 32 (nth old 0 j) + (List.zipWith (fun x r => intVal f x * intVal t.fmt (nth r 0 j)) row t.rows).sum →
    nth (passRow t f row sc old) (0, 0) j =
      if (2 : Int) ^ 31 ≤ z then (2 ^ 31 - 1, 1) else if z < -(2 : Int) ^ 31 then (2 ^ 31, 1) else ((z % (2 : Int) ^ 32).toNat, 0)

/-- Loads into slots (R75 to R77, R606): the first load of an array's path starts once no pass names its slot and no clear stands before it,
and, when it completes, its slot holds the tile that the descriptor's rows, and after them its scales, spell, in the scratchpad, in L-space
or in E-space. That the bytes are read as the load completes is the model's choice (log entry 13). -/
def Obligations.SlotLoads : Prop :=
  ∀ (s : State) (c a : Nat) (l : LoadEntry) (r : List LoadEntry) (d : Td), a < 4 → s.alive = true → (s.arr c a).loads = l :: r → d = tdOf l.desc →
    (l.started = false → (s.arr c a).passes.any (fun q => q.req.slot == l.slot) = false →
      (s.arr c a).clears.any (fun e => e.1 == l.slot && e.2 ≤ l.ord) = false →
      Completes (.loadbStart c a) s (fun t => OnlyArr s t c a [] ∧
        t.arr c a = { s.arr c a with loads := { l with started := true } :: r })) ∧
    (l.started = true → d.space ≤ 1 → d.scaled = false →
      (∀ i, i < d.rows → flatIn s d.space (d.base + i * d.stride) (rowBytes d.fmt d.cols)) →
      Completes (.loadbComplete c a) s (fun t =>
        t.arr c a = { (s.arr c a).setSlot l.slot (some ⟨d.fmt, d.rows, d.cols, false, (List.range d.rows).map (fun i =>
          unpackRow d.fmt d.cols (flatRange s c d.space (d.base + i * d.stride) (rowBytes d.fmt d.cols))), []⟩) with loads := r } ∧
        t.core c = (s.core c).setArr a (t.arr c a) ∧ t.mem = s.mem ∧ ∀ e, e ≠ c → t.core e = s.core e)) ∧
    (∀ x n, l.started = true → n = rowBytes d.fmt d.cols → x = s.readRanges d.space c d.hint l.last (if l.sp = 2 then .stook else .array)
        (if l.sp = 2 then none else some l.sp) (d.ranges true) → x.ue = false →
      (d.space ≤ 1 → (∀ y ∈ d.ranges true, flatIn s d.space y.1 y.2) →
        x.data = ((d.ranges true).map (fun y => flatRange s c d.space y.1 y.2)).flatten) ∧
      Completes (.loadbComplete c a) s (fun t =>
        t.arr c a = { (s.arr c a).setSlot l.slot (some ⟨d.fmt, d.rows, d.cols, d.scaled, (List.range d.rows).map (fun i =>
          unpackRow d.fmt d.cols ((x.data.drop (i * n)).take n)),
          if d.scaled then (x.data.drop (d.rows * n)).map (·.toNat) else []⟩) with loads := r } ∧
        t.mem.loft = s.mem.loft ∧ (t.core c).spad = (s.core c).spad ∧ (t.core c).acc = (s.core c).acc ∧
        ∀ e, e ≠ c → t.core e = s.core e))

/-- Group states, slot clears and saturation records (R38, R89, R115 to R117, R132). An open with zeroing leaves every word of its group 0 and its
record clear; SLOT_CLR empties a slot at once, or once the passes and loads before it are over; a write of ACC_SAT waits for a pass
into its group. A write of either that finds its core gated or held in reset waits, which is the model's reading of R38 (log entry 103). -/
def Obligations.GroupAndSlotState : Prop :=
  ∀ (s : State) (c a : Nat), a < 4 → s.alive = true →
    (∀ g e, g < 4 → (s.arr c a).effs.find? (fun e => e.g == g) = some e → (s.arr c a).inFlight g = false →
      Completes (.groupStateEffect c a g) s (fun t =>
        t.arr c a = { s.arr c a with effs := dropFirst (fun y => y.g == g) (s.arr c a).effs } ∧
        (∀ w, SMap.get (t.core c).acc 0 w = if w / 65536 = 4 * a + g ∧ e.opn = true ∧ e.zero = true then 0
          else SMap.get (s.core c).acc 0 w) ∧
        (e.opn = true → e.zero = true → t.reg .ACC_SAT c a g = 0) ∧ (t.core c).spad = (s.core c).spad ∧
        OnlyCore s t c [Reg.addr .ACC_SAT c a g])) ∧
    (∀ v g, s.live = true → s.coreShut c = true → Completes (.arrSlotClr c a v) s (fun t => t = s) ∧
      Completes (.accSatWrite c a g v) s (fun t => t = s)) ∧
    (∀ v, bitB v.toNat 0 = true → bitB v.toNat 1 = false → s.live = true → s.coreShut c = false →
      Completes (.arrSlotClr c a v) s (fun t => t.rd ARR_CTL.CKGATE c a = bits v.toNat 2 2 ∧
        (t.arr c a).slot1 = (s.arr c a).slot1 ∧
        ((s.arr c a).clearWaits 0 (s.core c).seq = true → (t.arr c a).slot0 = (s.arr c a).slot0 ∧
          (t.arr c a).clears = (s.arr c a).clears ++ [(0, (s.core c).seq)]) ∧
        ((s.arr c a).clearWaits 0 (s.core c).seq = false → (t.arr c a).slot0 = none ∧ (t.arr c a).clears = (s.arr c a).clears) ∧
        (t.core c).acc = (s.core c).acc ∧ (t.core c).spad = (s.core c).spad ∧ OnlyCore s t c [Reg.addr .ARR_CTL c a 0])) ∧
    (∀ n e, (s.arr c a).clears.find? (fun e => e.1 == n) = some e → (s.arr c a).clearWaits n e.2 = false →
      Completes (.slotClearEffect c a n) s (fun t => (t.arr c a).slot n = none ∧
        (t.arr c a).clears = dropFirst (fun y => y == e) (s.arr c a).clears ∧ (t.core c).acc = (s.core c).acc ∧
        (t.core c).spad = (s.core c).spad ∧ OnlyCore s t c [])) ∧
    (∀ g v, g < 4 → s.live = true → s.coreShut c = false →
      Completes (.accSatWrite c a g v) s (fun t =>
        ((s.arr c a).inFlight g = true → OnlyArr s t c a [] ∧
          t.arr c a = { s.arr c a with satWrites := (s.arr c a).satWrites ++ [(g, v)] }) ∧
        ((s.arr c a).inFlight g = false → OnlyRegs s t [Reg.addr .ACC_SAT c a g] ∧
          t.rd ACC_SAT.SAT c a g = bits v.toNat 0 0 ∧ t.rd ACC_SAT.ROW c a g = bits v.toNat 8 1 ∧
          t.rd ACC_SAT.COL c a g = bits v.toNat 16 9 ∧ t.rd ACC_SAT.COUNT c a g = bits v.toNat 47 32)))

/-- What releases a processor, and the end of a kernel (R127, R171, R173, R242, R561). A waiting accumulator load reads its word once no pass
stands before it; a pending imprecise exception is taken before the next instruction; a core whose kernel is over reports its part
and holds no kernel any more; one that ran past its core's due time is counted, and the core's test follows, unless another core of its
die is forced, which is the model's reading (log entry 95). -/
def Obligations.CoreEvents : Prop :=
  ∀ (s : State) (c p : Nat), c < s.variant.cores → p < 2 → s.alive = true →
    (∀ w : W32, ∀ k, s.memOk = true → (s.sp c p).accWait = some w → iMaj w.toNat = 0x10 → mSize w.toNat = 4 →
      mAddr (s.sp c p) w.toNat = accBase + 4 * k → k < 0x100000 → s.accBusy c (some p) (accBase + 4 * k) 4 = false →
      s.owned c (k / 0x40000) = false →
      Completes (.accAccessRelease c p) s (fun t => (t.sp c p).accWait = none ∧ (t.sp c p).pc = (s.sp c p).pc + 4 ∧
        (t.sp c p).x = ((s.sp c p).setX (iRd w.toNat) (loadValue (leBytes 4 (SMap.get (s.core c).acc 0 k).toNat) (iSx w.toNat))).x ∧
        t.core c = (s.core c).setSp p (t.sp c p) ∧ t.mem = s.mem ∧ ∀ d, d ≠ c → t.core d = s.core d)) ∧
    (∀ e r, (s.sp c p).pend = e :: r → (s.sp c p).run = true → (s.sp c p).super = false → (s.sp c p).accWait = none →
      s.rdB CORE_CTL.EXC_EN c = true → e.cause < 256 →
      Completes (.impreciseExceptionTaken c p) s (fun t =>
        Enters (s.modSp c p (fun u => { u with pend := r, fetch := none })) t c p e.cause (s.sp c p).pc.toNat e.info.toNat false ∧
        t.rd CORE_EXC.ARRAY c p = e.arr % 4 ∧ t.rd CORE_EXC.STATUS c p = e.status % 256)) ∧
    (∀ k, (s.core c).kernel = some k → s.kernelOver c k = true →
      Completes (.kernelEnd c) s (fun t => (t.core c).kernel = none ∧
        (∀ q, (t.sp c q).run = false ∧ (t.sp c q).started = false ∧ (t.sp c q).super = false ∧ (t.sp c q).pend = []) ∧
        (∀ x, s.cmdOf k.cmd = some x → t.cmdOf k.cmd =
          some { x with parts := x.parts.filter (· != c), partSts := x.partSts ++ [s.partStatus c k] }) ∧
        (s.rdB WNW_CFG.EN = true → (s.wnwOf c).forced = true ∨ s.coreDue c = true →
          t.rd WNW_STAT.OVERDUE = min 65535 (s.rd WNW_STAT.OVERDUE + 1) ∧ (s.wnwTaken c = false → (t.wnwOf c).forced = true)) ∧
        (s.rdB WNW_CFG.EN = false ∨ (s.wnwOf c).forced = false ∧ s.coreDue c = false →
          t.rd WNW_STAT.OVERDUE = s.rd WNW_STAT.OVERDUE ∧ t.wnwOf c = { s.wnwOf c with freeSince := s.now }) ∧
        (t.core c).spad = (s.core c).spad ∧ (t.core c).acc = (s.core c).acc ∧ t.mem = s.mem ∧ ∀ d, d ≠ c → t.core d = s.core d))

/-! ### The stook -/

/-- The buffer half that the next batch takes (R101): the first where it is free, else the second. -/
def FreeHalf (s : State) (c h : Nat) : Prop :=
  (s.core c).stook.half h = none ∧ (h = 0 ∨ h = 1 ∧ (s.core c).stook.half 0 ≠ none)

/-- Where the rows of a list of requests go, request by request: space and address of each. -/
def destRows (l : List StReq) : List (Nat × Nat) :=
  (l.map (fun r => (List.range r.rows).map (fun i => (r.dspace, r.daddr + i * r.dstride)))).flatten

/-- Batches seal and go to an array (R99 to R104). At a 50 ns tick of the timebase as the core's die reads it, every open batch
past its deadline seals, in order of key; the oldest sealed batch goes into a free buffer half with its A rows and starts its pass, in the
slot where its tile is resident or in the slot that is picked and loaded with it, once no pass, load, open or close before it stands in its
way; the end of the pass moves it on to its scatter; the end of the scatter leaves each row of the group, converted to OFMT, at its
destination and every other byte as it was, frees the half, closes the group, and signals each request's event once. -/
def Obligations.StookBatches : Prop :=
  ∀ (s : State) (c : Nat), c < s.variant.cores → s.alive = true →
    (s.timeAt (coreTime c) % 50 = 0 → Completes (.stookDeadlineSeal c) s (fun t => OnlyCore s t c [] ∧
      (∀ n, n < 64 → (t.stKey c n).batch = if (s.stKey c n).expiry ≤ s.timeAt (coreTime c) then [] else (s.stKey c n).batch) ∧
      (t.core c).stook.sealed = (s.core c).stook.sealed ++ ((List.range 64).filter (fun n =>
        !(s.stKey c n).batch.isEmpty && decide ((s.stKey c n).expiry ≤ s.timeAt (coreTime c)))).map (fun n =>
          ⟨n, (s.stKey c n).batch⟩))) ∧
    (∀ b r k g h d, (s.core c).stook.sealed = b :: r → FreeHalf s c h → d = tdOf (s.keyDesc c b.key) →
      (s.stKey c b.key).res = some k ∨ (s.stKey c b.key).res = none ∧ s.pickSlot c = some k ∧ d.space ≤ 1 →
      s.pickGroup c (k / 2) = some g → (s.arr c (k / 2)).stookWaits (k % 2) g (s.stKey c b.key).res.isNone = false → k < 8 → b.key < 64 →
      (∀ x ∈ batchRows b.reqs, x.1 ≤ 1) →
      Completes (.stookDispatch c) s (fun t => (t.core c).stook.sealed = r ∧
        (∃ corr, (t.core c).stook.half h = some ⟨(s.core c).seq + 1, b, k / 2, k % 2, g, 1, [], corr⟩) ∧
        (t.core c).stook.half (1 - h) = (s.core c).stook.half (1 - h) ∧
        (t.arr c (k / 2)).passes = (s.arr c (k / 2)).passes ++ [⟨2, (s.core c).seq, ⟨k % 2, g, 0, reqRows b.reqs,
          s.rd STOOK_KEY_CFG.AFMT c b.key, (tdOf (s.keyDesc c b.key)).rows, false, .stook h⟩, [], []⟩] ∧
        (t.arr c (k / 2)).gst g = (if fmtInt (s.rd STOOK_KEY_CFG.AFMT c b.key) then .int else .float) ∧
        (∀ w, w / 65536 = 4 * (k / 2) + g → SMap.get (t.core c).acc 0 w = 0) ∧
        (t.stKey c b.key).res = some k ∧
        ((s.stKey c b.key).res.isSome = true → (t.arr c (k / 2)).slot (k % 2) = (s.arr c (k / 2)).slot (k % 2)) ∧
        ((s.stKey c b.key).res = none → s.memOk = true → (∀ y ∈ d.ranges true, flatIn s d.space y.1 y.2) →
          (t.arr c (k / 2)).slot (k % 2) = some ⟨d.fmt, d.rows, d.cols, d.scaled, (List.range d.rows).map (fun i =>
            unpackRow d.fmt d.cols (flatRange t c d.space (d.base + i * d.stride) (rowBytes d.fmt d.cols))),
            if d.scaled then (flatRange t c d.space d.scaleBase (d.scaleBytes true)).map (·.toNat) else []⟩ ∧
          ∀ n, n ≠ b.key → (s.stKey c n).res = some k → (t.stKey c n).res = none) ∧
        (s.memOk = true → rowBytes (s.rd STOOK_KEY_CFG.AFMT c b.key) d.rows ≤ 512 → s.bufRow c h 256 ≤ accBase →
          (batchRows b.reqs).length ≤ 256 → ∀ i (y : Nat × Nat), (batchRows b.reqs)[i]? = some y → y.1 = 1 →
            flatRange t c 0 (s.bufRow c h i) (rowBytes (s.rd STOOK_KEY_CFG.AFMT c b.key) d.rows) =
              flatRange s c 1 y.2 (rowBytes (s.rd STOOK_KEY_CFG.AFMT c b.key) d.rows)) ∧
        t.mem = s.mem ∧ ∀ d, d ≠ c → t.core d = s.core d)) ∧
    (∀ h b q t0, h < 2 → (s.core c).stook.half h = some b →
      (s.arr c b.arr).passes.find? (fun q => q.sp == 2 && q.req.grp == b.grp) = some q → q.entered = true →
      (s.arr c b.arr).slot b.slot = some t0 →
      (b.stage = 1 → Completes (.stookPassComplete c h) s (fun t =>
        (∃ sat, (t.core c).stook.half h = some { b with stage := 2, satRows := sat }) ∧
        (t.core c).spad = (s.core c).spad ∧ t.mem = s.mem ∧ ∀ d, d ≠ c → t.core d = s.core d)) ∧
      (b.stage = 3 → Completes (.stookPassComplete c h) s (fun t => (t.core c).stook.half h = none ∧
        (t.arr c b.arr).gst b.grp = .closed ∧ (t.core c).spad = (s.core c).spad ∧ t.mem = s.mem ∧
        ∀ d, d ≠ c → t.core d = s.core d))) ∧
    (∀ h b ofmt n cls, h < 2 → (s.core c).stook.half h = some b → b.stage = 2 → ofmt = s.rd STOOK_KEY_CFG.OFMT c b.batch.key →
      n = (tdOf (s.keyDesc c b.batch.key)).cols → cls = (if fmtInt (s.rd STOOK_KEY_CFG.AFMT c b.batch.key) then 6 else 14) →
      ((s.core c).stook.half (1 - h)).any (fun x => x.batch.key == b.batch.key && x.ord < b.ord) = false →
      Completes (.stookScatterComplete c h) s (fun t => (t.core c).stook.half h = none ∧
        (t.arr c b.arr).gst b.grp = .closed ∧
        ((∀ r ∈ b.batch.reqs, r.cmd = none ∧ r.event < 65536 ∧ r.dspace ≤ 1) → ∀ e, e < 65536 → t.evt e = (s.evt e + (b.batch.reqs.filter (fun r => r.event == e)).length) % 2 ^ 32) ∧
        (s.memOk = true → (∀ r ∈ b.batch.reqs, r.cmd = none ∧ r.dspace ≤ 1) →
          (∀ x ∈ destRows b.batch.reqs, flatIn s x.1 x.2 (rowBytes ofmt n)) →
          (destRows b.batch.reqs).Pairwise (fun x y => x.1 = y.1 → x.2 + rowBytes ofmt n ≤ y.2 ∨ y.2 + rowBytes ofmt n ≤ x.2) →
          (∀ i (x : Nat × Nat), (destRows b.batch.reqs)[i]? = some x → flatRange t c x.1 x.2 (rowBytes ofmt n) =
            packRow ofmt ((SMap.range (s.core c).acc 0 (accWord b.arr b.grp i 0) n).map (fun w =>
              (convert cls ofmt 0 (ofmt == 10) w.toNat).1))) ∧
          ∀ space a, space ≤ 1 → (∀ x ∈ destRows b.batch.reqs, x.1 = space → a < x.2 ∨ x.2 + rowBytes ofmt n ≤ a) →
            flatByte t c space a = flatByte s c space a)))

/-- The stook's control registers (R93, R94, R105, R107, R108). FLUSH seals every open batch; ABORT leaves none open or sealed; ARRAYS changes
only while nothing is pending and the stook is or becomes disabled, STOOK_BUF only while it is disabled; else CFGERR says so. A key
is bound where its entry passes the checks, and BINDERR says where it does not; its descriptor and fields are fixed while it is
bound; unbinding seals what it holds. That a bind which fails leaves the other fields at the values written is the model's choice (log
entry 21), and that a write which finds its core gated or held in reset waits is its reading of R38 (log entry 103). -/
def Obligations.StookRegisters : Prop :=
  ∀ (s : State) (c : Nat) (v : W64), c < s.variant.cores → s.live = true →
    (s.coreShut c = true → ∀ i n k, i ∈ [Instr.stookFlush c v, .stookAbort c v, .stookCtlWrite c v, .stookBufWrite c v, .stookKeyBind c n v,
      .stookKeyUnbind c n v, .stookKeyDescWrite c n k v] → Completes i s (fun t => t = s)) ∧
    (s.coreShut c = false →
    (bitB v.toNat 5 = true → bitB v.toNat 6 = false → bits v.toNat 4 1 = s.rd STOOK_CTL.ARRAYS c →
      Completes (.stookFlush c v) s (fun t => (∀ n, n < 64 → (t.stKey c n).batch = []) ∧
        (t.core c).stook.sealed = (s.core c).stook.sealed ++
          ((List.range 64).filter (fun n => !(s.stKey c n).batch.isEmpty)).map (fun n => ⟨n, (s.stKey c n).batch⟩) ∧
        t.rd STOOK_CTL.EN c = bits v.toNat 0 0 ∧ OnlyCore s t c [Reg.addr .STOOK_CTL c 0 0])) ∧
    (bitB v.toNat 6 = true →
      Completes (.stookAbort c v) s (fun t => (∀ n, (t.stKey c n).batch = []) ∧ (t.core c).stook.sealed = [] ∧
        (∀ h b, (t.core c).stook.half h = some b → b.stage = 3) ∧ t.mem = s.mem)) ∧
    (bitB v.toNat 5 = false → bitB v.toNat 6 = false →
      Completes (.stookCtlWrite c v) s (fun t => t.rd STOOK_CTL.EN c = bits v.toNat 0 0 ∧
        ((s.core c).stook.pending = 0 → bits v.toNat 0 0 = 0 ∨ s.rd STOOK_CTL.EN c = 0 →
          t.rd STOOK_CTL.ARRAYS c = bits v.toNat 4 1 ∧ t.reg .STOOK_STAT c 0 0 = s.reg .STOOK_STAT c 0 0) ∧
        ((s.core c).stook.pending ≠ 0 ∨ (bits v.toNat 0 0 = 1 ∧ s.rd STOOK_CTL.EN c = 1) → bits v.toNat 4 1 ≠ s.rd STOOK_CTL.ARRAYS c →
          t.rd STOOK_CTL.ARRAYS c = s.rd STOOK_CTL.ARRAYS c ∧ t.rd STOOK_STAT.CFGERR c = 1) ∧
        OnlyCore s t c [Reg.addr .STOOK_CTL c 0 0, Reg.addr .STOOK_STAT c 0 0])) ∧
    Completes (.stookBufWrite c v) s (fun t => OnlyRegs s t [Reg.addr .STOOK_BUF c 0 0, Reg.addr .STOOK_STAT c 0 0] ∧
      (s.rd STOOK_CTL.EN c = 0 → t.rd STOOK_BUF.BASE c = bits v.toNat 22 18 ∧ t.reg .STOOK_STAT c 0 0 = s.reg .STOOK_STAT c 0 0) ∧
      (s.rd STOOK_CTL.EN c = 1 → t.rd STOOK_BUF.BASE c = s.rd STOOK_BUF.BASE c ∧ t.rd STOOK_STAT.CFGERR c = 1)) ∧
    (∀ n, n < 64 →
      (bits v.toNat 32 32 = 1 → s.keyValid c n = false → (s.stKey c n).unbinding = false →
        Completes (.stookKeyBind c n v) s (fun t =>
          OnlyRegs s t [Reg.addr .STOOK_KEY_CFG c n 0, Reg.addr .STOOK_STAT c 0 0] ∧ t.keyValid c n = s.bindOk c n v ∧
          t.rd STOOK_KEY_CFG.KEY c n = bits v.toNat 31 0 ∧ t.rd STOOK_KEY_CFG.AFMT c n = bits v.toNat 36 33 ∧
          t.rd STOOK_KEY_CFG.DEADLINE c n = bits v.toNat 45 37 ∧ t.rd STOOK_KEY_CFG.OFMT c n = bits v.toNat 49 46 ∧
          t.rd STOOK_STAT.BINDERR c = if s.bindOk c n v then s.rd STOOK_STAT.BINDERR c else 1)) ∧
      (bits v.toNat 31 0 = s.rd STOOK_KEY_CFG.KEY c n → bits v.toNat 32 32 = 0 → bits v.toNat 36 33 = s.rd STOOK_KEY_CFG.AFMT c n →
        bits v.toNat 45 37 = s.rd STOOK_KEY_CFG.DEADLINE c n → bits v.toNat 49 46 = s.rd STOOK_KEY_CFG.OFMT c n → s.keyValid c n = true →
        (s.stKey c n).unbinding = false →
        Completes (.stookKeyUnbind c n v) s (fun t => t.keyValid c n = false ∧ (t.stKey c n).batch = [] ∧
          (t.core c).stook.sealed = (s.core c).stook.sealed ++
            (if (s.stKey c n).batch.isEmpty then [] else [⟨n, (s.stKey c n).batch⟩]) ∧ (t.stKey c n).res = none ∧
          OnlyCore s t c [Reg.addr .STOOK_KEY_CFG c n 0])) ∧
      (∀ k g, (k, g) ∈ [(1, Reg.STOOK_KEY_BLO), (2, .STOOK_KEY_BHI)] →
        Completes (.stookKeyDescWrite c n k v) s (fun t => OnlyRegs s t [g.addr c n 0, Reg.addr .STOOK_STAT c 0 0] ∧
          (s.keyValid c n = false → (s.stKey c n).unbinding = false → t.reg g c n 0 = v) ∧
          (s.keyValid c n = true → t.reg g c n 0 = s.reg g c n 0 ∧ (v ≠ s.reg g c n 0 → t.rd STOOK_STAT.BINDERR c = 1))))))

/-! ### Gleaner events -/

/-- The core's gleaner with entry `id`, changed, and no other unit: what a gleaner event may change beside the counters. -/
def entryOf (s : State) (c id : Nat) : Option GlnEntry := (s.core c).gln.queue.find? (fun e => e.id == id)

/-- How gleaner operations run (R189 to R193, R208 to R217, R221). The first operation of the queue that has not started starts, and the
row-cache lines named show a parity error when they are next read; a stream operation whose rows are all placed leaves the queue and answers its command, or signals its
event; an operation that reads no remote row ends with what its evaluation leaves; a failed remote add fills GLN_ERR and raises GLEAN, and any other
failure leaves what the evaluation did before the failing position; a stream
whose buffer has stayed full for the stall time fails with STALL, with what making the row met counted; RC_FLUSH empties the row cache, once
its core takes writes (log entry 103). -/
def Obligations.GleanerEvents : Prop :=
  ∀ (s : State) (c : Nat), c < s.variant.cores → s.alive = true →
    (∀ perr e u, (s.core c).gln.queue.find? (fun e => !s.glnPassed c e) = some e → e.running = false → e.scatters = false →
      u = (s.modGln c (fun g => { g with perr := g.perr ++ perr.filter (fun x => !g.perr.contains x) })).modEntry c e.id
        (fun x => { x with running := true }) →
      entryOf u c e.id = some { e with running := true } →
      (if e.streams then (gRowEval c { e with running := true } u).2.need else (gEval c { e with running := true } u).2.need) = [] →
      Completes (.gleanOpStart c perr) s (fun t => t = u)) ∧
    (∀ e ups, (s.core c).gln.queue.find? (fun e => s.glnDone c e) = some e → e.streams = true ∨ e.scatters = true →
      Completes (.gleanOpComplete c ups) s (fun t =>
        (t.core c).gln = { (s.core c).gln with queue := (s.core c).gln.queue.filter (fun x => x.id != e.id) } ∧
        (∀ k, e.cmd = some k → (s.cmdOf k).isSome = true →
          t.que.done = s.que.done ++ [(k, if e.sat then 1 else if e.corr then 2 else 0)] ∧ t.csr = s.csr) ∧
        (e.cmd = none → ∀ v, v < 65536 → t.evt v = if v = glnEvent e.desc ∧ glnSig e.desc = true then (s.evt v + 1) % 2 ^ 32 else s.evt v) ∧
        t.mem = s.mem ∧ (t.core c).spad = (s.core c).spad ∧ (t.core c).acc = (s.core c).acc ∧ ∀ d, d ≠ c → t.core d = s.core d)) ∧
    (∀ e ups u, (s.core c).gln.queue.find? (fun e => s.glnDone c e) = some e → e.streams = false → e.scatters = false →
      u = gEval c e (s.mark (gTsp e.desc) c ups) → u.2.ue = false →
      Completes (.gleanOpComplete c ups) s (fun t =>
        t = (u.2.st.glnFlags c u.2).glnLeave c e u.1 (if u.2.sat then 1 else if u.2.corr then 2 else 0))) ∧
    (∀ e k posn st, (s.core c).gln.queue.find? (fun e => (s.glnFailure c e).isSome) = some e →
      s.glnFailure c e = some (k, posn, st) → e.scatters = true → e.remStatus.isSome = true → e.cmd = none → e.sp < 2 →
      k < 16 → posn < 2 ^ 40 → st < 256 → s.rdB GLN_ERR.VALID c = false → (s.sp c e.sp).ended = false → (s.sp c e.sp).pend.length < 4 →
      Completes (.gleanOpFail c) s (fun t => t.rdB GLN_ERR.VALID c = true ∧ t.rd GLN_ERR.CAUSE c = k ∧ t.rd GLN_ERR.SP c = e.sp ∧
        t.rd GLN_ERR.CMD c = 0 ∧ t.rd GLN_ERR.STATUS c = st ∧ t.rd GLN_ERR.COUNT c = 1 ∧ t.rd GLN_ERR.POSN c = posn ∧
        entryOf t c e.id = none ∧ (t.sp c e.sp).pend = (s.sp c e.sp).pend ++ [⟨8, 0, 0, 0⟩] ∧ t.mem = s.mem ∧
        (t.core c).spad = (s.core c).spad ∧ (t.core c).acc = (s.core c).acc ∧ ∀ d, d ≠ c → t.core d = s.core d)) ∧
    (∀ e k posn st u, (s.core c).gln.queue.find? (fun e => (s.glnFailure c e).isSome) = some e →
      s.glnFailure c e = some (k, posn, st) → e.scatters = false ∨ e.remStatus = none → u = s.glnFailRun c e →
      Completes (.gleanOpFail c) s (fun t => t = (u.2.st.glnFlags c u.2).glnFail c e k posn st u.1)) ∧
    (∀ e, (s.core c).gln.streaming = some e → e.placed < outCount e → (gRowEval c e s).2.ue = false →
      (gRowEval c e s).2.fail = none → (gRowEval c e s).2.need = [] → 32 ≤ ((s.core c).gln.stream (gStream e.desc)).buffered →
      Completes (.gleanStreamRowPlace c) s (fun t =>
        t = s.modEntry c e.id (fun x => { x with fullSince := some (x.fullSince.getD s.now) }))) ∧
    (∀ e n x g u f, (s.core c).gln.streaming = some e → e.placed < outCount e → g = (gRowEval c e s).2 → g.ue = false → g.fail = none →
      g.need = [] → n = gStream e.desc → x = (s.core c).gln.stream n → x.buffered < 32 →
      u = ((g.st.glnFlags c g).modGln c (fun k => k.setStream n { k.stream n with
        segs := mapIf (fun y => y.entry == e.id)
          (fun y => { y with rows := y.rows ++ [(gRowEval c e s).1], placed := y.placed + 1 }) (k.stream n).segs })).modEntry c e.id
        (fun y => { y with placed := y.placed + 1, fullSince := none, sat := y.sat || g.sat, corr := y.corr || g.corr }) →
      entryOf u c e.id = some f → f.scatters = false → f.streams = true → (gRowEval c f u).2.need = [] →
      Completes (.gleanStreamRowPlace c) s (fun t => t = u)) ∧
    (∀ e t0, (s.core c).gln.streaming = some e → e.fullSince = some t0 → s.rd GLN_CFG.STALL c ≠ 0 →
      (t0 + s.rd GLN_CFG.STALL c * 1000 ≤ s.now → e.sp < 2 → e.cmd = none → (s.sp c e.sp).ended = false → (s.sp c e.sp).pend.length < 4 →
        s.rdB GLN_ERR.VALID c = false → e.placed < 2 ^ 40 → (gRowEval c e s).2.ue = false →
        Completes (.gleanStallTimeout c) s (fun t => t.rd GLN_ERR.CAUSE c = 7 ∧ t.rd GLN_ERR.POSN c = e.placed ∧ entryOf t c e.id = none ∧
          (t.sp c e.sp).pend = (s.sp c e.sp).pend ++ [⟨8, 0, 0, 0⟩] ∧ t.mem = (gRowEval c e s).2.st.mem ∧
          ((gRowEval c e s).2.corr = true → t.rd GLN_STAT.CORR c = 1) ∧
          t.reg .GLN_CNT c 0 0 = (gRowEval c e s).2.st.reg .GLN_CNT c 0 0 ∧ t.reg .GLN_RC c 0 0 = (gRowEval c e s).2.st.reg .GLN_RC c 0 0)) ∧
      (s.now < t0 + s.rd GLN_CFG.STALL c * 1000 → Completes (.gleanStallTimeout c) s (fun t => t = s))) ∧
    (∀ v, s.live = true → s.coreShut c = true → Completes (.rcFlush c v) s (fun t => t = s)) ∧
    (∀ v, bitB v.toNat 17 = true ∨ bitB v.toNat 16 = false → s.live = true → s.coreShut c = false →
      Completes (.rcFlush c v) s (fun t => t.core c = { s.core c with gln := { (s.core c).gln with rc := [] } } ∧
        t.rd GLN_CFG.STALL c = bits v.toNat 15 0 ∧ t.rd GLN_CFG.RC_EN c = bits v.toNat 16 16 ∧
        OnlyCore s t c [Reg.addr .GLN_CFG c 0 0]))

/-! ### What gleaner operations compute -/

/-- Word `i`, of 4 or 8 bytes as the descriptor has it, of a list at `base` in scratchpad (0) or in L-space (1). -/
def listElem (s : State) (c space : Nat) (d : List W64) (base i : Nat) : Nat := ofLe (flatRange s c space (base + i * gW d) (gW d))

/-- Operation `op` of core `c`, entry `e`, is through: it ends next. Its result goes to scratchpad or to a table in L-space. -/
structure Through (s : State) (c op : Nat) (e : GlnEntry) (d : List W64) : Prop where
  kept : s.memOk = true
  alive : s.alive = true
  next : (s.core c).gln.queue.find? (fun e => s.glnDone c e) = some e
  kind : e.op = op
  desc : e.desc = d
  rows : op ≤ 1 → gDstk d = false
  table : gTsp d = if op = 5 then 0 else 1

/-- The value that PROBE finds for key `k` (R206, R207): the slots from the key's home on, up to the limit, are read until one holds the key
or is empty. -/
def probeValue (s : State) (c : Nat) (d : List W64) (k : Nat) : Nat :=
  let slot := fun j => flatRange s c 1 (cw d 1 + ((k * 0x9E3779B97F4A7C15 % 2 ^ 64) / 2 ^ (64 - Nat.log2 (cw d 7)) + j) % cw d 7 * (2 * gW d)) (2 * gW d)
  let key := fun j => ofLe ((slot j).take (gW d))
  if k = 2 ^ (8 * gW d) - 1 then 0xFFFFFFFF
  else match (List.range (if gAux d = 0 then 256 else gAux d)).find? (fun j => key j == k || key j == 2 ^ (8 * gW d) - 1) with
    | some j => if key j = k then ofLe (((slot j).drop (gW d)).take 4) else 0xFFFFFFFF
    | none => 0xFFFFFFFF

/-- What gleaner operations leave (R197 to R207), for tables and lists in L-space and destinations in scratchpad. GATHER leaves each row that
its index names, as it is or converted, and zeros for an index out of range; SEGRED of INT32 by SUM leaves the saturated sum of each
segment; SCATADD of INT32 adds every source row to the row that its index names; MERGE leaves both lists in order, A first among equals;
ISECT each value as often as both lists hold it; SORT the pairs in the order of the key's low digits, equal ones in their old order; PROBE
the value of each key. Nothing else of scratchpad or L-space changes. The reads meet no uncorrectable error. That ISECT reads no more once
one list is used up is the model's reading (log entry 99), which sorted lists do not show. -/
def Obligations.GleanerResults : Prop :=
  ∀ (s : State) (c : Nat) (e : GlnEntry) (d : List W64) (ups : List Upset), c < s.variant.cores →
    (gEval c e (s.mark (gTsp e.desc) c ups)).2.ue = false →
    (Through s c 0 e d → gIsp d = 1 →
      Completes (.gleanOpComplete c ups) s (fun t => t.mem.loft = s.mem.loft ∧
        (∀ i x, i < gN d → x = listElem s c 1 d (cw d 2) i →
          flatRange t c 0 (cw d 4 + i * gDst d) (gOrow d) =
            if cw d 7 ≤ x then List.replicate (gOrow d) 0
            else if gEfmt d = gOfmt d then flatRange s c 1 (cw d 1 + x * gTst d) (gTrow d)
            else packRow (gOfmt d) ((unpackRow (gEfmt d) (gCols d) (flatRange s c 1 (cw d 1 + x * gTst d) (gTrow d))).map (fun y =>
              (convert (gEfmt d) (gOfmt d) 0 (gOfmt d == 10) y).1))) ∧
        ∀ a, (∀ i, i < gN d → a < cw d 4 + i * gDst d ∨ cw d 4 + i * gDst d + gOrow d ≤ a) →
          SMap.get (t.core c).spad 0 a = SMap.get (s.core c).spad 0 a)) ∧
    (Through s c 1 e d → gIsp d = 1 → gOsp d = 1 → gDirect d = false → gRedop d = 0 → gEfmt d = 6 → gOfmt d = 6 →
      Completes (.gleanOpComplete c ups) s (fun t => t.mem.loft = s.mem.loft ∧
        (∀ k j lo hi, k < gN2 d → j < gCols d → lo = listElem s c 1 d (cw d 3) k → hi = listElem s c 1 d (cw d 3) (k + 1) →
          flatRange t c 0 (cw d 4 + k * gDst d + 4 * j) 4 = leBytes 4 (wrapN 32 (max (iMin 32) (min (iMax 32)
            (((List.range (hi - lo)).map (fun i => if cw d 7 ≤ listElem s c 1 d (cw d 2) (lo + i) then (0 : Int)
              else sext 32 (ofLe (flatRange s c 1 (cw d 1 + listElem s c 1 d (cw d 2) (lo + i) * gTst d + 4 * j) 4)))).sum))))) ∧
        ∀ a, (∀ k, k < gN2 d → a < cw d 4 + k * gDst d ∨ cw d 4 + k * gDst d + gOrow d ≤ a) →
          SMap.get (t.core c).spad 0 a = SMap.get (s.core c).spad 0 a)) ∧
    (Through s c 2 e d → gIsp d = 0 → gEfmt d = 6 →
      Completes (.gleanOpComplete c ups) s (fun t => (t.core c).spad = (s.core c).spad ∧
        (∀ x j, x < cw d 7 → j < gCols d → flatRange t c 1 (cw d 1 + x * gTst d + 4 * j) 4 =
          leBytes 4 (ofLe (flatRange s c 1 (cw d 1 + x * gTst d + 4 * j) 4) +
            (((List.range (gN d)).filter (fun i => listElem s c 0 d (cw d 2) i == x)).map (fun i =>
              ofLe (flatRange s c 0 (cw d 4 + i * gDst d + 4 * j) 4))).sum)) ∧
        ∀ a, (∀ x, x < cw d 7 → a < cw d 1 + x * gTst d ∨ cw d 1 + x * gTst d + gTrow d ≤ a) →
          SMap.get t.mem.loft 0 a = SMap.get s.mem.loft 0 a)) ∧
    (∀ A B op, op = 3 ∨ op = 4 → Through s c op e d → gIsp d = 1 → gPos d = false → e.space = 1 → e.addr + 64 ≤ s.variant.lEnd →
      A = (List.range (gN d)).map (listElem s c 1 d (cw d 1)) → B = (List.range (gN2 d)).map (listElem s c 1 d (cw d 2)) →
      op = 3 ∨ A.Pairwise (· ≤ ·) ∧ B.Pairwise (· ≤ ·) →
      ∃ out : List Nat, (op = 3 → out = List.merge A B (fun x y => decide (x ≤ y))) ∧
        (op = 4 → out.Pairwise (· ≤ ·) ∧ ∀ v, out.count v = min (A.count v) (B.count v)) ∧
        Completes (.gleanOpComplete c ups) s (fun t =>
          (∀ k v, out[k]? = some v → flatRange t c 0 (cw d 4 + k * gW d) (gW d) = leBytes (gW d) v) ∧
          flatRange t c 1 (e.addr + 56) 8 = leBytes 8 out.length ∧
          (∀ a, a < cw d 4 ∨ cw d 4 + out.length * gW d ≤ a → SMap.get (t.core c).spad 0 a = SMap.get (s.core c).spad 0 a) ∧
          ∀ a, a < e.addr + 56 ∨ e.addr + 64 ≤ a → SMap.get t.mem.loft 0 a = SMap.get s.mem.loft 0 a)) ∧
    (∀ P, Through s c 5 e d →
      P = (List.range (gN d)).map (fun i => (ofLe (flatRange s c 0 (cw d 1 + i * (2 * gW d)) (gW d)),
        ofLe (flatRange s c 0 (cw d 1 + i * (2 * gW d) + gW d) 4))) →
      ∃ Q : List (Nat × Nat), Q.Pairwise (fun x y => x.1 % 2 ^ (8 * gAux d) ≤ y.1 % 2 ^ (8 * gAux d)) ∧
        (∀ v, Q.filter (fun x => x.1 % 2 ^ (8 * gAux d) == v) = P.filter (fun x => x.1 % 2 ^ (8 * gAux d) == v)) ∧
        Completes (.gleanOpComplete c ups) s (fun t => t.mem.loft = s.mem.loft ∧
          (∀ a, (a < cw d 1 ∨ cw d 1 + gN d * (2 * gW d) ≤ a) → (a < cw d 4 ∨ cw d 4 + gN d * (2 * gW d) ≤ a) →
            SMap.get (t.core c).spad 0 a = SMap.get (s.core c).spad 0 a) ∧
          ∀ i x, Q[i]? = some x → flatRange t c 0 ((if gAux d % 2 = 0 then cw d 1 else cw d 4) + i * (2 * gW d)) (2 * gW d) =
            leBytes (gW d) x.1 ++ leBytes (gW d) x.2)) ∧
    (Through s c 6 e d → gIsp d = 1 →
      Completes (.gleanOpComplete c ups) s (fun t => t.mem.loft = s.mem.loft ∧
        (∀ i, i < gN d → flatRange t c 0 (cw d 4 + 4 * i) 4 = leBytes 4 (probeValue s c d (listElem s c 1 d (cw d 2) i))) ∧
        ∀ a, a < cw d 4 ∨ cw d 4 + 4 * gN d ≤ a → SMap.get (t.core c).spad 0 a = SMap.get (s.core c).spad 0 a))

/-! ### Command queues -/

/-- L-space address of slot `i` of the ring of queue `q`, a ring in L-space (R231, R233). -/
def slotAt (s : State) (q i : Nat) : Nat := s.rd QUE_Q_BASE.ADDR 0 q * 64 + 64 * i

/-- A ring in L-space that is set up: queue `q` is one of 64, and its ring has a slot. -/
abbrev LRing (s : State) (q : Nat) : Prop := q < 64 ∧ s.rd QUE_Q_CFG.SPACE 0 q = 1 ∧ 0 < s.qSize q ∧ s.memOk = true

/-- Command `c` of queue `q`, at slot `i`, ends with status `st` and halts nothing (R235, R238, R256, R261): its slot shows CDONE, the
status and VALID = 0, with every other byte of L-space as before; a command that had not retired leaves the head; its event
counter goes up where SIG, and SIGALL for a failure, ask for it; its notification leaves where NOTIFY asks for it. -/
structure Ended (s t : State) (q i : Nat) (c : List W64) (retired : Bool) (st : Nat) : Prop where
  slot : SMap.range t.mem.loft 0 (slotAt s q i) 8 = leBytes 8 (word0 c st true false)
  bytes : ∀ b, ¬(slotAt s q i ≤ b ∧ b < slotAt s q i + 8) → SMap.get t.mem.loft 0 b = SMap.get s.mem.loft 0 b
  hbm : t.mem.hbm = s.mem.hbm
  head : retired = false → t.queue q = { s.queue q with
    head := ((s.queue q).head + 1) % s.qSize q
    tail := if s.rdB QUE_Q_CFG.MODE 0 q then (s.queue q).tail else ((s.queue q).head + 1) % s.qSize q
    retiredN := (s.queue q).retiredN + 1
    cmd := none
    checked := false
    elig := false
    granted := false
    running := none
    st := if (s.queue q).st = 6 then 6
      else if s.rdB QUE_Q_CFG.MODE 0 q = true ∧ (s.queue q).retiredN + 1 < (s.queue q).appended then 2 else 1 }
  others : ∀ r, r ≠ q → (t.queue r).cmd = (s.queue r).cmd ∧ (t.queue r).head = (s.queue r).head ∧
    (t.queue r).running = (s.queue r).running
  cmds : t.que.cmds = s.que.cmds ∧ t.que.done = s.que.done ∧ t.que.copies = s.que.copies
  evts : ∀ e, e < 65536 → t.evt e = if cSig c = true ∧ (cSigAll c = true ∨ st < 16) ∧ e = cSigev c then (s.evt e + 1) % 2 ^ 32
    else s.evt e
  note : t.halter = if cNotify c then (s.say (.notify q st (cOp c) (cTag c) false i (bits s.now 47 0))).halter else s.halter
  rest : t = { s with mem := t.mem, que := t.que, csr := t.csr, steps := t.steps, halter := t.halter }
  regs : RegsBut s t [Reg.addr .QUE_EVT 0 (cSigev c) 0, Reg.addr .QUE_CNT 0 0 0]

/-- The command at the head of queue `q` ends so. -/
def HeadDone (s t : State) (q : Nat) (c : List W64) (st : Nat) : Prop := Ended s t q (s.queue q).head c false st

/-- The commands that put no unit to work (R246 to R249). NOP and WAIT end with DONE and no other effect; FENCE.REMOTE does so once no remote
store of its queue is outstanding, and waits until then; SIGNAL adds to its counter or sets it; HINT.PHASE gives its hint to the cores
it names, or is counted void; TIMESTAMP writes the timebase as it was when the command was dispatched, waits while its target takes no
write, which is the model's choice (log entry 88), and is ABORTED where that is gone, which is its reading (log entry 36); TRACE.MARK leaves a record; TEARDOWN.ACK frees a TORN queue with the present epoch, and with another one is a bad command. -/
def Obligations.ImmediateCommands : Prop :=
  ∀ (s : State) (q : Nat) (c : List W64), LRing s q →
    (∀ op row, (op, row) ∈ [(0, Instr.nop q), (0x10, .waitCmd q)] → s.dispatched q op = some c →
      Completes row s (fun t => HeadDone s t q c 0)) ∧
    (s.dispatched q 0x12 = some c →
      ((∀ o ∈ s.win.ops, o.queue = some q → o.writes = false ∨ o.kind = 8) → Completes (.fenceRemote q) s (fun t => HeadDone s t q c 0)) ∧
      (∀ o ∈ s.win.ops, o.queue = some q → o.writes = true → o.kind ≠ 8 → Completes (.fenceRemote q) s (fun t => t = s))) ∧
    (∀ e v, s.dispatched q 0x11 = some c → e = bits (cw c 4) 15 0 → v = bits (cw c 4) 47 16 →
      Completes (.signal q) s (fun t => ∃ u, HeadDone u t q c 0 ∧
        u.evt e = (if bitB (cw c 4) 48 then v else (s.evt e + v) % 2 ^ 32) ∧ (u.queue q).head = (s.queue q).head ∧
        RegsBut s u [Reg.addr .QUE_EVT 0 e 0] ∧ u = { s with csr := u.csr, que := u.que, steps := u.steps })) ∧
    (∀ lead, s.dispatched q 0x18 = some c → lead = bits (cw c 4) 5 0 →
      Completes (.hintPhase q) s (fun t => ∃ u, HeadDone u t q c 0 ∧ u = { s with pwr := u.pwr, csr := u.csr } ∧
        (s.rdB PWR_CFG.HINT_EN = false → u = s) ∧
        (s.rdB PWR_CFG.HINT_EN = true → 5 ≤ lead → lead ≤ 50 → u.csr = s.csr ∧ ∀ d j, d < 12 → j < 16 →
          u.dom (16 * d + j) = if d < s.variant.cdies ∧ s.diePresent d = true ∧ s.dieGuest d = false ∧
              (bits (cw c 4) 19 8 = 0 ∨ bitB (bits (cw c 4) 19 8) d = true)
            then { s.dom (16 * d + j) with hint := some (bits (cw c 4) 7 6, s.now + lead * 1000), ramp := false }
            else s.dom (16 * d + j)) ∧
        (s.rdB PWR_CFG.HINT_EN = true → lead < 5 ∨ 50 < lead → u.pwr = s.pwr ∧
          u.rd QUE_CNT.VOIDPH = min 65535 (s.rd QUE_CNT.VOIDPH + 1) ∧ RegsBut s u [Reg.addr .QUE_CNT 0 0 0]))) ∧
    (s.dispatched q 0x19 = some c → (placeOf (cw c 5)).dspace = 1 →
      Completes (.timestamp q) s (fun t => ∃ u, HeadDone u t q c 0 ∧ u = { s with mem := u.mem } ∧ u.mem.hbm = s.mem.hbm ∧
        SMap.range u.mem.loft 0 (cw c 4) 8 = leBytes 8 (s.queue q).grantNow ∧
        ∀ b, ¬(cw c 4 ≤ b ∧ b < cw c 4 + 8) → SMap.get u.mem.loft 0 b = SMap.get s.mem.loft 0 b)) ∧
    (s.dispatched q 0x19 = some c → (placeOf (cw c 5)).dspace = 0 →
      (s.coreSt (placeOf (cw c 5)).dcore = .gone → cCont c = true → Completes (.timestamp q) s (fun t => HeadDone s t q c 0x18)) ∧
      (s.coreSt (placeOf (cw c 5)).dcore ≠ .gone → s.coreShut (placeOf (cw c 5)).dcore = true →
        Completes (.timestamp q) s (fun t => t = s))) ∧
    (s.dispatched q 0x1A = some c →
      Completes (.traceMark q) s (fun t => ∃ u, HeadDone u t q c 0 ∧ u = { s with trace := u.trace, csr := u.csr } ∧
        (s.rdB OBS_BASE.EN = false ∨ s.rdB OBS_BASE.EVT = false → u = s) ∧
        (s.rdB OBS_BASE.EN = true → s.rdB OBS_BASE.EVT = true → (s.trace.get {} 256).buf.length < 4096 → u.csr = s.csr ∧
          (u.trace.get {} 256).buf = (s.trace.get {} 256).buf ++
            [(w64 (2 + q % 256 * 2 ^ 8 + bits (s.timeAt 0) 47 0 * 2 ^ 16), w64 (bits (cw c 4) 31 0 + cTag c * 2 ^ 32))]))) ∧
    (s.dispatched q 0x1F = some c →
      ((s.queue q).st = 6 → cw c 4 = s.epoch → Completes (.teardownAck q) s (fun t => HeadDone (s.modQueue q (fun x =>
        { x with st := 4 })) t q c 0 ∧ (t.queue q).st ≠ 6)) ∧
      ((s.queue q).st = 6 → cw c 4 ≠ s.epoch → Completes (.teardownAck q) s (fun t => HeadDone s t q c 0x17 ∧
        (t.queue q).st = 6 ∧ t.rd QUE_CNT.BADCMD = min 65535 (s.rd QUE_CNT.BADCMD + 1))) ∧
      ((s.queue q).st ≠ 6 → Completes (.teardownAck q) s (fun t => HeadDone s t q c 0)))

/-- Command `c` at the head of queue `q` is in flight from now on under the next number, with the cores of `ks` at work for it (R254, R256),
for one without ASYNC: its queue waits for it. -/
def Takes (s t : State) (q : Nat) (c : List W64) (ks : List Nat) : Prop :=
  t.queue q = { s.queue q with granted := false, running := some s.que.nextId } ∧ (∀ r, r ≠ q → t.queue r = s.queue r) ∧
  t.que.cmds = s.que.cmds ++ [⟨s.que.nextId, q, (s.queue q).head, c, false, ks, [], none, false⟩] ∧
  t.que.nextId = s.que.nextId + 1 ∧ t.que.done = s.que.done

/-- The commands that put other units to work (R241 to R245, R259), without ASYNC. LAUNCH starts its kernels: each core named takes the
entry, the argument, its number and the count, and its start-of-kernel registers. It completes when every part has ended. A COPY
or SOW in L-space joins the engine that takes it, whose end moves the bytes and reports the command; that the source's bytes are those at
the end, or those read ahead, is the model's choice (log entry 13). A LAUNCH of no core is DONE at once, which is its reading (log entry
59). GLEAN and STOOK.SUBMIT enter their core's unit. -/
def Obligations.WorkCommands : Prop :=
  ∀ (s : State) (q : Nat) (c : List W64), s.memOk = true → cAsync c = false →
    (∀ ks m, s.dispatched q 1 = some c → ks = launchCores c → ks ≠ [] → ks.Nodup → ks.all s.coreHere = true → s.namesGone c = false →
      m = bits (cw c 4) 25 24 →
      Completes (.launch q) s (fun t => Takes s t q c ks ∧ t.mem = s.mem ∧ (∀ k, k ∉ ks → t.core k = s.core k) ∧
        ∀ i k, ks[i]? = some k → (t.core k).kernel = some ⟨s.que.nextId, q, cTag c, none⟩ ∧ (t.core k).icache = [] ∧
          (t.core k).gln = { (s.core k).gln with rc := [], perr := [] } ∧ (t.core k).spad = (s.core k).spad ∧ (t.core k).acc = (s.core k).acc ∧
          (∀ p, p < 2 → t.sp k p = if bitB m p then spStart (cw c 5) (cw c 6) i (bits (cw c 4) 15 8) else s.sp k p) ∧
          t.rd CORE_CTL.EXC_EN k = bits (cw c 4) 26 26 ∧ t.rd CORE_VEC.ADDR k = cw c 7 / 64 ∧ t.reg .CORE_FPSTAT k 0 0 = 0 ∧
          t.reg .ACC_CORE_STAT k 0 0 = 0 ∧ t.rd GLN_STAT.CORR k = 0)) ∧
    (LRing s q → s.dispatched q 1 = some c →
      (launchCores c = [] → Completes (.launch q) s (fun t => HeadDone s t q c 0)) ∧
      (launchCores c ≠ [] → s.namesGone c = true → cCont c = true → Completes (.launch q) s (fun t => HeadDone s t q c 0x18))) ∧
    (∀ id x, s.cmdOf id = some x → cOp x.words = 1 → x.parts = [] → s.que.done.any (fun e => e.1 == id) = false →
      Completes (.launchComplete id) s (fun t => t = { s with que := { s.que with done := s.que.done ++
        [(id, launchStatus x.partSts)] } })) ∧
    (∀ op row k, (op, row) ∈ [(2, Instr.copy q), (3, .sow q)] → s.dispatched q op = some c → (copyArgs c).len ≠ 0 →
      (op = 2 → (copyArgs c).p.sspace = 1) → (copyArgs c).p.dspace = 1 → s.copyEngine (copyArgs c).bdie = some k →
      s.copyJobs k ≠ [] → s.mem.faults = [] →
      Completes row s (fun t => Takes s t q c [] ∧ t.mem = s.mem ∧ t.cores = s.cores ∧ t.csr = s.csr ∧
        ∃ ah, t.copyJobs k = s.copyJobs k ++ [⟨s.que.nextId, ah, 0, [], []⟩] ∧
          (ah = none ∨ (op = 2 ∧ ah = some (SMap.range s.mem.loft 0 (copyArgs c).src (copyArgs c).len))))) ∧
    (∀ b e ups j x a, s.alive = true → s.copyJobs (4 * b + e) = [j] → j.got = [] → s.cmdOf j.cmd = some x → a = copyArgs x.words →
      (a.sow = false → a.p.sspace = 1) → a.p.dspace = 1 → (∀ d, j.ahead = some d → d.length = a.len) → (a.sow = true → ups = []) →
      Completes (.copyComplete b e ups) s (fun t => t.copyJobs (4 * b + e) = [] ∧ t.mem.hbm = s.mem.hbm ∧ t.cores = s.cores ∧
        (∃ st, (st = 0 ∨ st = 2) ∧ t.que.done = s.que.done ++ [(j.cmd, st)]) ∧
        ∀ i, SMap.get t.mem.loft 0 i = if a.dst ≤ i ∧ i < a.dst + a.len then
            (if a.sow then BitVec.ofNat 8 (lane 8 (cw x.words 6) (i % 8))
             else match j.ahead with
               | some d => d.getD (i - a.dst) 0
               | none => SMap.get s.mem.loft 0 (a.src + (i - a.dst)))
          else SMap.get s.mem.loft 0 i)) ∧
    (∀ k d, s.dispatched q 4 = some c → s.namesGone c = false → (placeOf (cw c 5)).dspace = 1 → k = (placeOf (cw c 5)).dcore →
      d = words64 8 (SMap.range s.mem.loft 0 (cw c 4) 64) → s.mem.faults = [] →
      Completes (.glean q) s (fun t => Takes s t q c [] ∧ t.mem = s.mem ∧ (∀ n, n ≠ k → t.core n = s.core n) ∧
        (t.core k).gln.queue = (s.core k).gln.queue ++
          [⟨(s.core k).gln.nextId, gOp d, d, 1, cw c 4, 2, some s.que.nextId, q, false, 0, none, [], none, false, false, []⟩])) ∧
    (∀ k n r, s.dispatched q 5 = some c → s.namesGone c = false → k = bits (cw c 6) 39 32 → s.keyIdx k (bits (cw c 6) 31 0) = some n →
      r = ⟨bits (cw c 6) 48 40, bits (cw c 7) 49 48, cw c 4, bits (cw c 7) 23 0, bits (cw c 7) 51 50, cw c 5, bits (cw c 7) 47 24,
        some s.que.nextId, 2, 0⟩ →
      s.rdB STOOK_CTL.EN k = true → s.rd STOOK_CTL.ARRAYS k ≠ 0 → s.reqBad k n r = false → r.rows ≠ 0 →
      reqRows (s.stKey k n).batch + r.rows < 256 →
      Completes (.stookSubmit q) s (fun t => Takes s t q c [] ∧ (t.stKey k n).batch = (s.stKey k n).batch ++ [r] ∧
        t.mem = s.mem ∧ (t.core k).stook.sealed = (s.core k).stook.sealed ∧ ∀ d, d ≠ k → t.core d = s.core d))

/-- The engine's own events (R234, R235, R240, R252, R255, R270). A ring with VALID = 1 at its head gives its command; a head that breaks a
rule ends with BAD_COMMAND, and in a TORN queue with TORN_DOWN; any other is checked, and eligible where its waits are met together.
Of the heads that can be dispatched one of the highest priority goes. The oldest end reported is written, and a failure without
CONT halts its queue. A command that was stopped ends with ABORTED, whatever its work came to. A module that does not work takes none. -/
def Obligations.QueueEngine : Prop :=
  ∀ (s : State) (q : Nat), LRing s q →
    (s.live = false → ∀ row ∈ [Instr.ringPoll q, .queueHeadCheck q, .queueDispatch, .coreWake q], Completes row s (fun t => t = s)) ∧
    (s.rdB QUE_Q_CFG.MODE 0 q = true → Completes (.ringPoll q) s (fun t => t = s)) ∧
    (∀ c, s.rdB QUE_Q_CFG.MODE 0 q = false → (s.queue q).cmd = none → (s.queue q).st ≠ 0 → (s.queue q).st ≠ 5 → s.mem.faults = [] → s.live = true →
      c = words64 8 (SMap.range s.mem.loft 0 (slotAt s q (s.queue q).head) 64) →
      Completes (.ringPoll q) s (fun t => t = if bitB (cw c 0) 25 then
        s.modQueue q (fun x => { x with cmd := some c, st := if x.st = 6 then 6 else 2 }) else s)) ∧
    (∀ c, (s.queue q).cmd = some c → (s.queue q).checked = false → (s.queue q).st ≠ 0 → (s.queue q).st ≠ 5 → s.live = true →
      ((s.queue q).st = 6 → cOp c ≠ 0x1F → Completes (.queueHeadCheck q) s (fun t => HeadDone s t q c 0x15)) ∧
      ((s.queue q).st ≠ 6 → s.cmdBad c = true → cCont c = true → Completes (.queueHeadCheck q) s (fun t => HeadDone s t q c 0x17 ∧
        t.rd QUE_CNT.BADCMD = min 65535 (s.rd QUE_CNT.BADCMD + 1))) ∧
      ((s.queue q).st ≠ 6 → s.cmdBad c = false → (s.queue q).elig = false → (s.queue q).running = none →
        Completes (.queueHeadCheck q) s (fun t => t = s.modQueue q (fun x => if (List.range 4).all (s.waitMet c)
          then { x with checked := true, elig := true, eligAt := s.now, st := 3 } else { x with checked := true, st := 2 })))) ∧
    (∀ k, s.nextQueue = some k → s.dispatchable k = true ∧
      (∀ r, r < 64 → s.dispatchable r = true → s.rd QUE_Q_CFG.PRIO 0 r ≤ s.rd QUE_Q_CFG.PRIO 0 k) ∧
      (s.live = true → Completes .queueDispatch s (fun t => t.queue k = { s.queue k with
          granted := true, grantAt := s.que.grants, grantNow := s.now, st := if (s.queue k).st = 6 then 6 else 4 } ∧ t.que.grants = s.que.grants + 1 ∧
        (∀ r, r ≠ k → t.queue r = s.queue r) ∧ t.que.rr.get 63 (s.rd QUE_Q_CFG.PRIO 0 k) = k ∧ t = { s with que := t.que }))) ∧
    ((∀ k, k < 64 → s.dispatchable k = false) → Completes .queueDispatch s (fun t => t = s)) ∧
    (∀ id st0 st r x u, s.que.done = (id, st0) :: r → s.cmdOf id = some x → x.queue = q → st = (if x.bad = some 0x18 then 0x18 else st0) →
      u = { s with que := { s.que with done := r, cmds := s.que.cmds.filter (fun y => y.id != id) } } →
      (x.retired = true ∨ st < 16 ∨ cCont x.words = true ∨ (s.queue q).st = 6 →
        Completes .commandComplete s (fun t => Ended u t q x.slot x.words x.retired st)) ∧
      (x.retired = false → 16 ≤ st → st < 256 → st ≠ 0x17 → cCont x.words = false → (s.queue q).st ≠ 6 → x.slot < 65536 → cSig x.words = false →
        Completes .commandComplete s (fun t => t.queue q = { s.queue q with st := 5, running := none, granted := false } ∧
          SMap.range t.mem.loft 0 (slotAt s q x.slot) 8 = leBytes 8 (word0 x.words st true true) ∧
          t.rd QUE_Q_STAT.STATUS 0 q = st ∧ t.rd QUE_Q_STAT.INDEX 0 q = x.slot ∧ t.cmdOf id = none ∧
          RegsBut s t [Reg.addr .QUE_Q_STAT 0 q 0] ∧
          t = { s with mem := t.mem, que := t.que, csr := t.csr, halter := t.halter })))

/-- Setting up, stopping and feeding a queue (R233, R251, R260, R262, R263, R269, R274, R275). A queue is enabled where its ring is one, and
fails with BAD_COMMAND and CFGERR where it is not; a running queue keeps its mode, space, size and base, and cannot be disabled.
ABORT ends a waiting command with ABORTED, and takes a running one out of the ring, to end with ABORTED once its work is over, which is
the model's reading of R269 and R329 (log entry 101); RESUME retires the head of a halted queue. A push takes the slots at the tail, each
command with VALID = 1 and CDONE = 0, and its answer says how many were taken, or why none. That ABORT does nothing to a disabled queue, the
order of the push codes, and that a ring stays out of the reserved range are the model's reading (log entry 58). -/
def Obligations.QueueControl : Prop :=
  ∀ (s : State) (q : Nat) (v : W64), q < 64 →
    (s.live = false → ∀ row c p e, row ∈ [Instr.queueEnable q v, .queueBaseWrite q v, .queueAbort q, .queueResume q, .queEvtWrite e v, .quePush c p v] →
      Completes row s (fun t => t = s)) ∧
    (s.live = true → s.rdB QUE_Q_CFG.EN 0 q = false → QUE_Q_CFG.EN.get v = 1 → Completes (.queueEnable q v) s (fun t =>
      OnlyRegs { s with que := t.que } t [Reg.addr .QUE_Q_CFG 0 q 0, Reg.addr .QUE_Q_STAT 0 q 0] ∧
      t.rd QUE_Q_CFG.SIZE 0 q = bits v.toNat 22 6 ∧ t.rd QUE_Q_CFG.SPACE 0 q = bits v.toNat 5 4 ∧
      t.rd QUE_Q_CFG.MODE 0 q = bits v.toNat 1 1 ∧ t.rd QUE_Q_CFG.PRIO 0 q = bits v.toNat 3 2 ∧
      (1 ≤ bits v.toNat 22 6 ∧ bits v.toNat 22 6 ≤ 65536 ∧
          ((bits v.toNat 5 4 = 1 ∧ s.rd QUE_Q_BASE.ADDR 0 q * 64 + 64 * bits v.toNat 22 6 ≤ s.variant.lEnd) ∨
           (bits v.toNat 5 4 = 2 ∧ s.rd QUE_Q_BASE.ADDR 0 q * 64 + 64 * bits v.toNat 22 6 ≤ s.variant.resBase)) →
        t.rd QUE_Q_CFG.EN 0 q = 1 ∧ t.queue q = { st := 1 } ∧ t.rd QUE_Q_STAT.STATUS 0 q = 0 ∧
          t.rd QUE_Q_STAT.INDEX 0 q = s.rd QUE_Q_STAT.INDEX 0 q) ∧
      (bits v.toNat 22 6 = 0 ∨ 65536 < bits v.toNat 22 6 ∨ (bits v.toNat 5 4 ≠ 1 ∧ bits v.toNat 5 4 ≠ 2) ∨
          (bits v.toNat 5 4 = 1 ∧ s.variant.lEnd < s.rd QUE_Q_BASE.ADDR 0 q * 64 + 64 * bits v.toNat 22 6) ∨
          (bits v.toNat 5 4 = 2 ∧ s.variant.resBase < s.rd QUE_Q_BASE.ADDR 0 q * 64 + 64 * bits v.toNat 22 6) →
        t.rd QUE_Q_CFG.EN 0 q = 0 ∧ t.que = s.que ∧ t.rd QUE_Q_STAT.STATUS 0 q = 0x17 ∧ t.rd QUE_Q_STAT.CFGERR 0 q = 1))) ∧
    (s.live = true → s.rdB QUE_Q_CFG.EN 0 q = true →
      (QUE_Q_CFG.EN.get v = 0 → (s.queue q).st ≠ 1 → (s.queue q).st ≠ 5 → Completes (.queueEnable q v) s (fun t =>
        t.rd QUE_Q_STAT.CFGERR 0 q = 1 ∧ OnlyRegs s t [Reg.addr .QUE_Q_STAT 0 q 0])) ∧
      (QUE_Q_CFG.EN.get v = 0 → (s.queue q).st = 1 ∨ (s.queue q).st = 5 → Completes (.queueEnable q v) s (fun t =>
        t.rd QUE_Q_CFG.EN 0 q = 0 ∧ t.queue q = { head := (s.queue q).head, tail := (s.queue q).tail } ∧
        t.rd QUE_Q_STAT.STATUS 0 q = 0 ∧ t.mem = s.mem)) ∧
      (QUE_Q_CFG.EN.get v = 1 → Completes (.queueEnable q v) s (fun t => t.que = s.que ∧
        t.rd QUE_Q_CFG.PRIO 0 q = bits v.toNat 3 2 ∧ t.rd QUE_Q_CFG.MODE 0 q = s.rd QUE_Q_CFG.MODE 0 q ∧
        t.rd QUE_Q_CFG.SPACE 0 q = s.rd QUE_Q_CFG.SPACE 0 q ∧ t.rd QUE_Q_CFG.SIZE 0 q = s.rd QUE_Q_CFG.SIZE 0 q ∧
        (bits v.toNat 22 6 ≠ s.rd QUE_Q_CFG.SIZE 0 q → t.rd QUE_Q_STAT.CFGERR 0 q = 1)))) ∧
    (s.live = true → Completes (.queueBaseWrite q v) s (fun t =>
      OnlyRegs s t [Reg.addr .QUE_Q_BASE 0 q 0, Reg.addr .QUE_Q_STAT 0 q 0] ∧
      (s.rdB QUE_Q_CFG.EN 0 q = false → t.rd QUE_Q_BASE.ADDR 0 q = QUE_Q_BASE.ADDR.get v) ∧
      (s.rdB QUE_Q_CFG.EN 0 q = true → t.rd QUE_Q_BASE.ADDR 0 q = s.rd QUE_Q_BASE.ADDR 0 q ∧ t.rd QUE_Q_STAT.CFGERR 0 q = 1))) ∧
    ((s.queue q).st = 0 → Completes (.queueAbort q) s (fun t => t = s)) ∧
    (∀ c, LRing s q → s.rdB QUE_Q_CFG.MODE 0 q = true → (s.queue q).cmd = some c → (s.queue q).running = none → (s.queue q).st = 2 →
      s.live = true → (s.queue q).appended = (s.queue q).retiredN + 1 → cSig c = false → cNotify c = false →
      Completes (.queueAbort q) s (fun t => SMap.range t.mem.loft 0 (slotAt s q (s.queue q).head) 8 =
          leBytes 8 (word0 c 0x18 true false) ∧ (t.queue q).cmd = none ∧ (t.queue q).st = 1 ∧
        (t.queue q).head = (s.queue q).tail ∧ (t.queue q).retiredN = (s.queue q).appended ∧ t.rd QUE_Q_STAT.STATUS 0 q = 0 ∧
        OnlyRegs { s with mem := t.mem, que := t.que } t [Reg.addr .QUE_Q_STAT 0 q 0])) ∧
    (∀ id y, LRing s q → s.live = true → s.rdB QUE_Q_CFG.MODE 0 q = true → (s.queue q).running = some id → (s.queue q).cmd.isSome = true →
      (s.queue q).st ≠ 0 → s.cmdOf id = some y → cOp y.words = 4 ∨ cOp y.words = 5 → (s.queue q).appended = (s.queue q).retiredN + 1 →
      Completes (.queueAbort q) s (fun t => t.cmdOf id = some { y with retired := true, bad := some 0x18 } ∧ t.que.done = s.que.done ∧
        SMap.range t.mem.loft 0 (slotAt s q y.slot) 8 = leBytes 8 (word0 y.words 0 false false) ∧ (t.queue q).running = none ∧
        (t.queue q).cmd = none ∧ (t.queue q).st = 1 ∧ (t.queue q).head = (s.queue q).tail ∧ t.cores = s.cores ∧ t.halter = s.halter ∧
        OnlyRegs { s with mem := t.mem, que := t.que } t [Reg.addr .QUE_Q_STAT 0 q 0])) ∧
    (∀ c, LRing s q → s.live = true → (s.queue q).cmd = some c → (s.queue q).st = 5 →
      Completes (.queueResume q) s (fun t => SMap.range t.mem.loft 0 (slotAt s q (s.queue q).head) 8 =
          leBytes 8 (word0 c (s.rd QUE_Q_STAT.STATUS 0 q) true false) ∧ (t.queue q).cmd = none ∧
        (t.queue q).head = ((s.queue q).head + 1) % s.qSize q ∧ t.rd QUE_Q_STAT.STATUS 0 q = 0 ∧ (t.queue q).st ≠ 5)) ∧
    (∀ e, s.live = true → e < 65536 → Completes (.queEvtWrite e v) s (fun t => t.evt e = bits v.toNat 31 0 ∧
      RegsBut s t [Reg.addr .QUE_EVT 0 e 0] ∧ t = { s with csr := t.csr, que := t.que })) ∧
    (∀ hdr cmds n seq, LRing s q → s.linkLit = true → q = bits (BitVec.toNat hdr) 13 8 → n = bits hdr.toNat 20 16 → seq = bits hdr.toNat 63 32 →
      (s.boot.stage = 12 → 1 ≤ n → n ≤ 16 → bits hdr.toNat 127 64 = s.epoch → s.rdB QUE_Q_CFG.EN 0 q = true → s.rdB QUE_Q_CFG.MODE 0 q = true →
        cmds.length = n → (s.queue q).appended + n ≤ s.qSize q → (s.queue q).tail < s.qSize q →
        Completes (.pushMessage hdr cmds) s (fun t => t.halter = s.halter ++ HMsg.sent (.push q n 0 seq) s.now ∧
          t.queue q = { s.queue q with
            tail := ((s.queue q).tail + n) % s.qSize q
            appended := (s.queue q).appended + n
            st := if (s.queue q).st = 1 then 2 else (s.queue q).st } ∧
          (∀ k c, cmds[k]? = some c → SMap.range t.mem.loft 0 (slotAt s q (((s.queue q).tail + k) % s.qSize q)) 64 =
            bytes64 (w64 (word0 c 0 false true) :: (List.range 7).map (fun j => w64 (cw c (j + 1))))) ∧
          t = { s with mem := t.mem, que := t.que, halter := t.halter })) ∧
      (∀ code, (code = 3 ∧ s.boot.stage ≠ 12) ∨ (s.boot.stage = 12 ∧ ((code = 4 ∧ 16 < n) ∨
          (1 ≤ n ∧ n ≤ 16 ∧ ((code = 2 ∧ bits hdr.toNat 127 64 ≠ s.epoch) ∨ (bits hdr.toNat 127 64 = s.epoch ∧
            ((code = 4 ∧ s.rdB QUE_Q_CFG.EN 0 q = false ∧ s.rd QUE_Q_STAT.STATUS 0 q = 0x17) ∨
             (code = 3 ∧ s.rdB QUE_Q_CFG.EN 0 q = true ∧ s.rdB QUE_Q_CFG.MODE 0 q = false))))))) →
        Completes (.pushMessage hdr cmds) s (fun t => t = { s with halter := s.halter ++ HMsg.sent (.push q 0 code seq) s.now }))) ∧
    (∀ c p, LRing s q → s.live = true → c < s.variant.cores → p < 2 → q = bits v.toNat 5 0 →
      (s.pushCode q = 0 → (s.queue q).appended < s.qSize q → Completes (.quePush c p v) s (fun t =>
        t.rd QUE_PUSH_RES.CODE (2 * c + p) = 0 ∧ t.rd QUE_PUSH_RES.INDEX (2 * c + p) = (s.queue q).tail % 65536 ∧
        (t.queue q).appended = (s.queue q).appended + 1 ∧ (t.queue q).tail = ((s.queue q).tail + 1) % s.qSize q ∧
        SMap.range t.mem.loft 0 (slotAt s q (s.queue q).tail) 64 = bytes64 (w64 (word0 ((List.range 8).map (fun k =>
            w64 (s.rd QUE_STAGE.WORD (2 * c + p) k))) 0 false true) :: (List.range 7).map (fun j =>
              w64 (cw ((List.range 8).map (fun k => w64 (s.rd QUE_STAGE.WORD (2 * c + p) k))) (j + 1)))) ∧
        OnlyRegs { s with mem := t.mem, que := t.que } t [Reg.addr .QUE_PUSH_RES (2 * c + p) 0 0])) ∧
      (s.pushCode q ≠ 0 → Completes (.quePush c p v) s (fun t => t.rd QUE_PUSH_RES.CODE (2 * c + p) = s.pushCode q ∧
        OnlyRegs s t [Reg.addr .QUE_PUSH_RES (2 * c + p) 0 0])))

/-- Messages of the halter link and the control node's register access (R17, R18, R264 to R267, R583). A register or a loader message that
passes its checks has its effect and its answer; one that does not is answered with its code and changes nothing. An access to a core that
is gated or held in reset waits (log entry 103). A write without an answer, ignored where it is misaligned, and one that comes too early for
R583, are the model's reading (log entry 55), as are the order of the loader's checks, FORMAT for short data and the repeated LEN (log entry
56). A message of a reserved kind is rejected, a frame not acknowledged for 2 us is sent again, and a frame that comes in whole is taken. -/
def Obligations.HalterLink : Prop :=
  ∀ (s : State), s.linkLit = true → s.memOk = true →
    (∀ m : V128,
      (s.regCode m.toNat false = 0 → s.regShut (bits m.toNat 103 64) = true → Completes (.regrd m) s (fun t => t = s)) ∧
      (s.regCode m.toNat false = 0 → s.regShut (bits m.toNat 103 64) = false → Completes (.regrd m) s (fun t =>
        t = ((s.readReg .halter (bits m.toNat 103 64)).2).say
          (.regrd 0 (bits m.toNat 31 16) (s.readReg .halter (bits m.toNat 103 64)).1) ∧
        (bits m.toNat 103 64 = Reg.addr .GLB_TIME 0 0 0 → t.halter = s.halter ++ HMsg.sent (.regrd 0 (bits m.toNat 31 16) (w64 s.now)) s.now) ∧
        (s.regThere (bits m.toNat 103 64) = none → t.halter = s.halter ++ HMsg.sent (.regrd 0 (bits m.toNat 31 16) 0) s.now))) ∧
      (s.regCode m.toNat false ≠ 0 → Completes (.regrd m) s (fun t =>
        t = { s with halter := s.halter ++ HMsg.sent (.regrd (s.regCode m.toNat false) (bits m.toNat 31 16) 0) s.now }))) ∧
    (∀ m : BitVec 192,
      (s.regCode m.toNat true = 0 → s.regShut (bits m.toNat 103 64) = true → Completes (.regwr m) s (fun t => t = s)) ∧
      (s.regCode m.toNat true = 0 → s.regShut (bits m.toNat 103 64) = false → Completes (.regwr m) s (fun t =>
        t = (s.writeReg .halter (bits m.toNat 103 64) (w64 (bits m.toNat 191 128))).say (.regwr 0 (bits m.toNat 31 16)))) ∧
      (s.regCode m.toNat true ≠ 0 → Completes (.regwr m) s (fun t =>
        t = { s with halter := s.halter ++ HMsg.sent (.regwr (s.regCode m.toNat true) (bits m.toNat 31 16)) s.now }))) ∧
    (∀ (h : V128) ups,
      (s.loadCode h.toNat false = 0 → bits h.toNat 9 8 = 1 → Completes (.ldrd h ups) s (fun t => ∃ l, t.halter = s.halter ++ l ++
          HMsg.sent (.ldrd 0 (bits h.toNat 31 16) (bits h.toNat 44 32)
            (SMap.range s.mem.loft 0 (bits h.toNat 127 64) (bits h.toNat 44 32))) s.now ∧
        t.mem = { s.mem with faults := t.mem.faults } ∧ t.cores = s.cores)) ∧
      (s.loadCode h.toNat false ≠ 0 → Completes (.ldrd h ups) s (fun t =>
        t = { s with halter := s.halter ++ HMsg.sent (.ldrd (s.loadCode h.toNat false) (bits h.toNat 31 16) (bits h.toNat 44 32) []) s.now }))) ∧
    (∀ (h : V128) d a n, a = bits h.toNat 127 64 → n = bits h.toNat 44 32 →
      (s.loadCode h.toNat true = 0 → bits h.toNat 9 8 = 1 → n ≤ d.length → Completes (.ldwr h d) s (fun t =>
        t.halter = s.halter ++ HMsg.sent (.ldwr 0 (bits h.toNat 31 16)) s.now ∧ t.mem.hbm = s.mem.hbm ∧ t.csr = s.csr ∧ t.cores = s.cores ∧
        ∀ b, SMap.get t.mem.loft 0 b = if a ≤ b ∧ b < a + n then d.getD (b - a) 0 else SMap.get s.mem.loft 0 b)) ∧
      (d.length < n ∨ s.loadCode h.toNat true ≠ 0 → Completes (.ldwr h d) s (fun t => ∃ k, k ≠ 0 ∧
        t = { s with halter := s.halter ++ HMsg.sent (.ldwr k (bits h.toNat 31 16)) s.now }))) ∧
    (∀ m : Byte,
      (m.toNat ∉ [0x01, 0x02, 0x03, 0x04, 0x21, 0x30, 0x40, 0x50, 0x51] → Completes (.reject m) s (fun t =>
        t = { s with halter := s.halter ++ HMsg.sent (.reject m.toNat) s.now })) ∧
      (m.toNat ∈ [0x01, 0x02, 0x03, 0x04, 0x21, 0x30, 0x40, 0x50, 0x51] → Completes (.reject m) s (fun t => t = s))) ∧
    (∀ f x, s.halter[f]? = some x → x.acked = false →
      Completes (.halterFrameResend ⟨f, true, none⟩) s (fun t => t = { s with halter := s.halter.set f { x with acked := true } }) ∧
      (x.sentAt + 2000 ≤ s.now → Completes (.halterFrameResend ⟨f, false, none⟩) s (fun t =>
        t = { s with halter := s.halter.set f { x with sentAt := s.now, resends := x.resends + 1 } })) ∧
      (s.now < x.sentAt + 2000 → Completes (.halterFrameResend ⟨f, false, none⟩) s (fun t => t = s))) ∧
    (∀ f x acked, s.halter[f]? = some x → x.acked = true → Completes (.halterFrameResend ⟨f, acked, none⟩) s (fun t => t = s)) ∧
    (∀ f acked d (crc : W32), Completes (.halterFrameResend ⟨f, acked, some (d, crc)⟩) s (fun t =>
      t = if d.length ≤ 1024 ∧ crc.toNat = crc32c d then { s with stby := { s.stby with frames := s.stby.frames ++ [d] } } else s)) ∧
    (∀ (m : HMsg) (k : Nat) x, (m.sent s.now)[k]? = some x → x.part = k ∧ x.msg = m ∧
      x.bytes = (m.bytes.drop (1024 * k)).take 1024 ++ leBytes 4 (crc32c ((m.bytes.drop (1024 * k)).take 1024))) ∧
    (∀ (a : Nat) (v : W64),
      (a % 8 ≠ 0 ∨ s.regThere a = none ∨ s.regShut a = true ∨ (s.boot.stage ≠ 12 ∧ a ≠ Reg.addr .FLT_CTL 0 0 0) →
        Completes (.registerWrite a v) s (fun t => t = s)) ∧
      (s.boot.stage = 12 → a = Reg.addr .THM_CFG 0 0 0 → Completes (.registerWrite a v) s (fun t => t.rd THM_CFG.T0 = bits v.toNat 10 0 ∧ OnlyRegs s t [a])) ∧
      (s.boot.stage = 12 → a = Reg.addr .GLB_TIME 0 0 0 → Completes (.registerWrite a v) s (fun t => t.reg .GLB_TIME 0 0 0 = s.reg .GLB_TIME 0 0 0 ∧ OnlyRegs s t [a])))

/-! ### Collectives -/

/-- The remote operation with which context `i` sends a SHEAF packet that carries no sheaf's data: PKIND, STAGE and payload (R444). -/
def sheafOp (s : State) (id i : Nat) (x : Ctx) (dst pkind stage : Nat) (d : List Byte) : RemOp :=
  ⟨id, 0xE0 + s.ctxBdie i, 8, i, x.aux, w64 (pkind * 2 ^ 38 + stage * 2 ^ 35), d.length, d, 0, false, none, none, none, 0, 2,
    w64 (dst * 2), false, 0, s.now, s.now, 0, false, none, 0⟩

/-- What context `i` issues as a stage of collective `x` begins (R442, R445): to every other member of its line READY, or, for a barrier,
a TRAILER with its digest. -/
def stageOps (s : State) (i : Nat) (x : Ctx) : List RemOp :=
  (List.range (s.linePeers x).length).map (fun k => sheafOp s (s.win.nextId + k) i x (nth (s.linePeers x) 0 k)
    (if x.op = 2 then 1 else 2) (s.ctxStage x).1 (if x.op = 2 then trailerBytes 0 x.digest 0 true else []))

/-- L-space holds the bytes `d` from `a` on, and is as before elsewhere. -/
def LoftPut (s t : State) (a : Nat) (d : List Byte) : Prop :=
  ∀ b, SMap.get t.mem.loft 0 b = if a ≤ b ∧ b < a + d.length then d.getD (b - a) 0 else SMap.get s.mem.loft 0 b

/-- How a collective runs (R432 to R437, R439, R440, R442, R446, R448 to R452, R456, R459). One that gets a context takes its group's next
sequence number and retires; one whose group has lost a member ends with NODE_LOST, one that reads or writes a core that is gone with
ABORTED, and one left without a context for the timeout with CONTEXT_FULL. It starts with READY to every peer of its line, a barrier with
its TRAILER, and an AG puts its own block in its place; in a group of one it is done then. A complete set of sheaves is reduced in order of
rank, and its CHECK is kept. A stage that completes starts the next; after the last one an RS converts its block into DST, and the
collective is to end. Its end frees the context and reports the command; what a failure leaves undefined is within DST and scratch. COL_CTL
and COL_SCR take a write in a module that runs. The model's readings in this: partial sums kept in scratch and REASON 2 with PEER 0 where
they read back wrong (log entry 34), a READY for every stage (log entry 33), ABORTED of a core that is gone (log entry 36), an RS over a
group of one that keeps its bits (log entry 104), and its choice, holding in front of a core that is shut (log entry 88). -/
def Obligations.CollectiveCourse : Prop :=
  ∀ (s : State),
    (∀ q c i, LRing s q → (s.queue q).cmd = some c → (s.queue q).granted = true → cOp c ∈ [8, 9, 0x0A] →
      (s.ahead q).all (fun a => !isColl a || colGroup a != colGroup c) = true →
      (s.namesGone c = true → cCont c = true → Completes (.collectiveContextTake q) s (fun t => HeadDone s t q c 0x18)) ∧
      (s.namesGone c = false → s.groupLost (colGroup c) = true → cCont c = true →
        Completes (.collectiveContextTake q) s (fun t => HeadDone s t q c 0x14)) ∧
      (s.namesGone c = false → s.groupLost (colGroup c) = false → s.ctxFor c = some i →
        s.col.pend.all (fun e => !pendFor (colGroup c) (s.rd COL_GSEQ.SEQ 0 (colGroup c)) e.pkt) = true →
        Completes (.collectiveContextTake q) s (fun t =>
          t.ctx i = some ⟨s.que.nextId, q, colOpOf c, colGroup c, s.rd COL_GSEQ.SEQ 0 (colGroup c), c, 0, false, [], [], [], [], [],
            s.now, none⟩ ∧
          t.rd COL_GSEQ.SEQ 0 (colGroup c) = (s.rd COL_GSEQ.SEQ 0 (colGroup c) + 1) % 2 ^ 32 ∧
          t.que.cmds = s.que.cmds ++ [⟨s.que.nextId, q, (s.queue q).head, c, true, [], [], none, false⟩] ∧
          (t.queue q).cmd = none ∧ (t.queue q).head = ((s.queue q).head + 1) % s.qSize q ∧
          SMap.range t.mem.loft 0 (slotAt s q (s.queue q).head) 8 = leBytes 8 (word0 c 0 false false) ∧ t.cores = s.cores))) ∧
    (∀ q c, LRing s q → (s.queue q).cmd = some c → cOp c ∈ [8, 9, 0x0A] → (s.queue q).elig = true → (s.queue q).granted = false →
      (s.queue q).running = none → (s.queue q).st = 3 → s.ctxBlocked q c = true →
      ((s.queue q).eligAt + s.remTimeout ≤ s.now → cCont c = true →
        Completes (.contextFullTimeout q) s (fun t => HeadDone s t q c 0x16)) ∧
      (s.now < (s.queue q).eligAt + s.remTimeout → Completes (.contextFullTimeout q) s (fun t => t = s))) ∧
    (∀ q op row i x, (op, row) ∈ [(8, Instr.rs q), (9, .ag q), (0x0A, .barrier q)] →
      (s.unstarted q op = none → Completes row s (fun t => t = s)) ∧
      (s.unstarted q op = some i → s.ctx i = some x → x.ended = none → x.op = 2 → (s.group x.group).stages 2 = [] →
        Completes row s (fun t => t = s.setCtx i { x with started := true, lastArrival := s.now, ended := some (0, 0, 0) })) ∧
      (∀ d, s.unstarted q op = some i → s.ctx i = some x → x.ended = none → x.op = op - 8 → x.op < 2 → s.memOk = true →
        s.mem.faults = [] →
        (s.group x.group).stages x.op = [] → (s.group x.group).members = [s.node] →
        (placeOf (cw x.words 7)).sspace = 1 → (placeOf (cw x.words 7)).dspace = 1 → d = SMap.range s.mem.loft 0 (cw x.words 4) (x.blockBytes 0) →
        Completes row s (fun t => (∃ y, t.ctx i = some y ∧ y.ended = some (0, 0, 0)) ∧ t.mem.hbm = s.mem.hbm ∧ t.cores = s.cores ∧
          (x.op = 1 → LoftPut s t (cw x.words 5) d) ∧
          (x.op = 0 → ∀ f, f = colType x.words → LoftPut s t (cw x.words 5) (convBlock (midFmt f) f (if f = midFmt f then d else
            convBlock f (midFmt f) d))))) ∧
      (s.unstarted q op = some i → s.ctx i = some x → x.ended = none → x.op = 0 ∨ x.op = 2 → x.pos = 0 → x.grants = [] →
        (s.group x.group).stages x.op ≠ [] → s.rdB FAB_CTL.QUIESCE = true →
        Completes row s (fun t => t.ctx i = some { x with started := true, lastArrival := s.now } ∧
          t.win.ops = s.win.ops ++ stageOps s i x ∧ t.mem = s.mem ∧ t.cores = s.cores)) ∧
      (s.unstarted q op = some i → s.ctx i = some x → x.ended = none → x.op = 1 → x.pos = 0 → x.grants = [] → s.memOk = true →
        s.mem.faults = [] → (s.group x.group).stages 1 ≠ [] → s.rdB FAB_CTL.QUIESCE = true →
        (placeOf (cw x.words 7)).sspace = 1 → (placeOf (cw x.words 7)).dspace = 1 →
        Completes row s (fun t => t.ctx i = some { x with started := true, lastArrival := s.now } ∧
          t.win.ops = s.win.ops ++ stageOps s i x ∧ t.mem.hbm = s.mem.hbm ∧ t.cores = s.cores ∧
          LoftPut s t (cw x.words 5 + s.ownRank x * x.blockBytes 0) (SMap.range s.mem.loft 0 (cw x.words 4) (x.blockBytes 0)))) ∧
      (s.unstarted q op = some i → s.ctx i = some x → x.ended = none → x.op = 1 → s.srcShut x.words = true ∨ s.dstShut x.words = true →
        Completes row s (fun t => t = s))) ∧
    (∀ i x b o n own d, s.ctx i = some x → x.op = 0 → x.started = true → x.ended = none → (s.ctxStage x).1 < 4 →
      x.pos < ((s.group x.group).stages 0).length → b ∈ (s.group x.group).holds 0 (x.pos + 1) s.node → o % sheafSize = 0 →
      o < x.blockBytes x.pos → x.checkOf (x.pos + 1) b (x.outOff o) = none → s.sheafShut x x.pos b = false →
      own = s.sheafRead i x x.pos b o (min sheafSize (x.blockBytes x.pos - o)) → own.rd.ue = false →
      (∀ p ∈ (s.group x.group).line (s.ctxStage x).2 s.node, p ≠ s.node → (s.contrib x b o p).isSome = true) →
      d = ((foldElts (midFmt (colType x.words)) (colRedop x.words) (((s.group x.group).line (s.ctxStage x).2 s.node).map (fun p =>
        if p = s.node then x.widen own.rd.data else (s.contrib x b o p).getD []))).map (leBytes 4)).flatten →
      (n < 2 → own.good = true → Completes (.sheafReduce i b o n) s (fun t => t.mem.loft = s.mem.loft ∧ t.cores = s.cores ∧
        t.ctx i = some { x with checks := x.checks ++ x.newChecks b (x.outOff o) d })) ∧
      (2 ≤ n → own.good = true → Completes (.sheafReduce i b o n) s (fun t => t.ctx i = some { x with ended := some (0x11, 3, 0) } ∧
        t.mem.loft = s.mem.loft ∧ (own.rd.st = s → t.mem = s.mem ∧ t.rd COL_CNT.LANES = min 65535 (s.rd COL_CNT.LANES + 2)))) ∧
      (own.good = false → Completes (.sheafReduce i b o n) s (fun t => t.ctx i = some { x with ended := some (0x11, 2, 0) } ∧
        t.mem.loft = s.mem.loft))) ∧
    (∀ i x y, s.ctx i = some x → x.started = true → x.ended = none → s.colPlace i = s → s.stageSent i x = true → s.stageIn x = true →
      y = { x with pos := x.pos + 1, sent := [] } →
      (x.op ≠ 0 → ((s.group x.group).stages x.op).length = x.pos + 1 →
        Completes (.collectiveStageComplete i) s (fun t => t = s.setCtx i { y with ended := some (0, 0, 0) })) ∧
      (∀ r, x.op = 0 → ((s.group x.group).stages 0).length = x.pos + 1 → s.memOk = true → (placeOf (cw x.words 7)).dspace = 1 →
        r = (s.setCtx i y).rsBack i y (((s.group x.group).holds 0 y.pos s.node).headD 0) → r.rd.ue = false →
        (r.good = true → Completes (.collectiveStageComplete i) s (fun t => t.ctx i = some { y with ended := some (0, 0, 0) } ∧
          LoftPut s t (cw x.words 5) (convBlock (midFmt (colType x.words)) (colType x.words) r.rd.data))) ∧
        (r.good = false → Completes (.collectiveStageComplete i) s (fun t => t.ctx i = some { y with ended := some (0x11, 2, 0) } ∧
          t.mem.loft = s.mem.loft))) ∧
      (x.pos + 1 < ((s.group x.group).stages x.op).length → s.rdB FAB_CTL.QUIESCE = true →
        x.grants.all (fun e => e.1 != (s.ctxStage y).1) = true →
        Completes (.collectiveStageComplete i) s (fun t => t.ctx i = some y ∧ t.win.ops = s.win.ops ++ stageOps s i y ∧
          t.mem = s.mem ∧ t.cores = s.cores))) ∧
    (∀ i x st re pe n, s.ctx i = some x → x.ended = some (st, re, pe) → (s.cmdOf x.cmd).isSome = true →
      n = (if x.op = 0 then x.blockBytes 0 else (s.group x.group).members.length * x.blockBytes 0) →
      Completes (.collectiveEnd i) s (fun t => t.ctx i = none ∧ t.que.done = s.que.done ++ [(x.cmd, st)] ∧
        (∀ j, j ≠ i → t.ctx j = s.ctx j) ∧
        (st < 16 ∨ x.op = 2 → t.mem = s.mem ∧ t.cores = s.cores) ∧ (st < 16 → t.csr = s.csr ∧ t.fab = s.fab) ∧
        (16 ≤ st → x.op ≠ 2 → s.memOk = true → (placeOf (cw x.words 7)).dspace = 1 → t.cores = s.cores ∧
          ∀ b, ¬(cw x.words 5 ≤ b ∧ b < cw x.words 5 + n) → SMap.get t.mem.loft 0 b = SMap.get s.mem.loft 0 b) ∧
        (16 ≤ st → st < 256 → i < 64 → re < 16 → s.rdB COL_ERR.VALID = false → t.rdB COL_ERR.VALID = true ∧ t.rd COL_ERR.STATUS = st ∧
          t.rd COL_ERR.CTX = i ∧ t.rd COL_ERR.REASON = re) ∧
        (16 ≤ st → 2 ≤ endRank (st, re, pe) → t.flt.egressOff = false → s.pwr.up = true →
          t.fab.local_.length = s.fab.local_.length + ((s.group x.group).members.filter (· != s.node)).length))) ∧
    (∀ i x, s.ctx i = some x → x.ended = none →
      (s.rd COL_CFG.IDLE ≠ 0 → x.lastArrival + s.rd COL_CFG.IDLE * 1000000 ≤ s.now →
        Completes (.collectiveIdleTimeout i) s (fun t => t = s.setCtx i { x with ended := some (0x10, 5, 0) })) ∧
      (s.rd COL_CFG.IDLE = 0 ∨ s.now < x.lastArrival + s.rd COL_CFG.IDLE * 1000000 →
        Completes (.collectiveIdleTimeout i) s (fun t => t.ctx i = some x ∧ t.mem = s.mem)) ∧
      (∀ v : W64, s.live = true → bitB v.toNat 6 = true → bits v.toNat 5 0 = i →
        Completes (.colAbort v) s (fun t => t = s.setCtx i { x with ended := some (0x18, 8, 0) }))) ∧
    (∀ v : W64, s.live = false ∨ bitB v.toNat 6 = false → Completes (.colAbort v) s (fun t => t = s)) ∧
    (∀ b (v : W64), (s.live = false ∨ s.col.ctxs.any (fun e => s.ctxBdie e.1 == b) = true →
        Completes (.colScrWrite b v) s (fun t => t = s)) ∧
      (s.live = true → s.col.ctxs.any (fun e => s.ctxBdie e.1 == b) = false → Completes (.colScrWrite b v) s (fun t =>
        t.rd COL_SCR.BASE b = bits v.toNat 39 12 ∧ t.rd COL_SCR.SLOT b = bits v.toNat 63 40 ∧ OnlyRegs s t [Reg.addr .COL_SCR b 0 0])))

/-- A packet that asks for a sheaf again, as collective `x` in context `i` sends it to node `n` with sequence number `seq` (R444, R446). -/
def Reasks (s : State) (i : Nat) (x : Ctx) (n stage off seq : Nat) (q : Packet) : Prop :=
  q.typ = 9 ∧ q.vc = 2 ∧ q.dst = n ∧ q.src = s.node ∧ q.srcid = 0xE0 + s.ctxBdie i ∧ q.seq = seq ∧ q.epoch = s.epoch32 ∧
  shKind q = 3 ∧ shStage q = stage ∧ shOff q = off ∧ bits q.aux 11 0 = x.group % 4096 ∧ bits q.aux 23 12 = x.seq % 4096

/-- What the packets of a collective do where they arrive (R402, R403, R444 to R449). A SHEAF packet next in its source's sequence acts on
its context: READY grants eight sheaves more, DATA is gathered, a TRAILER's digest must match and its CHECK hold, else the sheaf is
asked for again three times, and a RESEND sends a sheaf again. The request leaves at once where the pair's window is open and nothing else
is outstanding, and waits under QUIESCE. A RESEND of what stands in a core that is shut is held (the model's choice, log entry 88). One for
a collective still to come waits while there is room; duplicates are acknowledged again, packets ahead of their turn are held, and those
of an excluded node are counted. A collective abort ends its collective. That READY grants eight sheaves from its OFFSET and that waiting
packets lie with the engine SRCID mod the base dies are the model's readings (log entry 33). -/
def Obligations.CollectivePackets : Prop :=
  ∀ (s : State) (p : Packet),
    (∀ k row, (k, row) ∈ [(0, Instr.sheafDataArrival p), (1, .sheafTrailerArrival p), (2, .sheafReadyArrival p), (3, .sheafResendArrival p)] →
      p.typ = 9 → p.vc = 2 → shKind p = k →
      (s.rxCase p = .next → s.resendShut p = true → Completes row s (fun t => t = s)) ∧
      (s.rxCase p = .excluded → Completes row s (fun t => t.rd ROLL_STAT.XRX = min ROLL_STAT.XRX.top (s.rd ROLL_STAT.XRX + 1) ∧
        OnlyRegs { s with fab := t.fab } t [Reg.addr .ROLL_STAT 0 0 0])) ∧
      (s.rxCase p = .duplicate → Completes row s (fun t => t = (s.takeRx p).answer p 5 0 [])) ∧
      (s.rxCase p = .ahead → Completes row s (fun t => t.win.held = s.win.held ++ [p] ∧ t.col = s.col ∧ t.mem = s.mem)) ∧
      (s.rxCase p = .next → s.ctxOf p = none → (k = 1 ∨ k = 2) → s.colFuture (bits p.aux 11 0) 12 (bits p.aux 23 12) = true →
        (s.pendRoom (p.srcid % s.variant.bdies) = true →
          Completes row s (fun t => t.col.pend = s.col.pend ++ [⟨p.srcid % s.variant.bdies, p⟩] ∧ t.col.ctxs = s.col.ctxs ∧
            t.mem = s.mem)) ∧
        (s.pendRoom (p.srcid % s.variant.bdies) = false → Completes row s (fun t => t = s.takeRx p))) ∧
      (∀ i x, s.rxCase p = .next → s.ctxOf p = some i → s.ctx i = some x → x.ended = none →
        (k = 0 → Completes row s (fun t => t.mem = s.mem ∧ t.ctx i = some (({ x with lastArrival := s.now } : Ctx).takeData p
          (match s.stagePos x (shStage p) with
            | some pos => x.blockBytes pos
            | none => 0)))) ∧
        (k = 2 → x.started = false → Completes row s (fun t => t.mem = s.mem ∧ t.ctx i = some { x with
          lastArrival := s.now
          grants := x.grants ++ [(shStage p, p.src, shOff p + 0x80000)] })) ∧
        (k = 1 → bitB (ofLe ((p.payload.drop 20).take 1)) 0 = true →
          (ofLe ((p.payload.drop 8).take 8) ≠ x.digest → Completes row s (fun t => t.mem = s.mem ∧
            t.ctx i = some { x with lastArrival := s.now, ended := some (0x12, 1, p.src) })) ∧
          (ofLe ((p.payload.drop 8).take 8) = x.digest → x.op = 2 → Completes row s (fun t => t.mem = s.mem ∧ t.ctx i = some { x with
            lastArrival := s.now
            digests := (shStage p, p.src) :: x.digests.filter (· != (shStage p, p.src)) }))) ∧
        (∀ y, k = 1 → bitB (ofLe ((p.payload.drop 20).take 1)) 0 = false → x.op = 0 → x.sheaf p.src (shStage p) (shOff p) = some y →
          y.ok = false →
          (y.data.length = ofLe ((p.payload.drop 16).take 4) → crc64 y.data = ofLe (p.payload.take 8) →
            Completes row s (fun t => t.mem = s.mem ∧ ∃ z, t.ctx i = some z ∧ z.ended = none ∧
              z.sheaf p.src (shStage p) (shOff p) = some { y with ok := true })) ∧
          (y.data.length ≠ ofLe ((p.payload.drop 16).take 4) ∨ crc64 y.data ≠ ofLe (p.payload.take 8) →
            (y.tries < 3 → Completes row s (fun t => t.mem = s.mem ∧ t.rd COL_CNT.RESENDS = min 65535 (s.rd COL_CNT.RESENDS + 1) ∧
              ∃ z, t.ctx i = some z ∧ z.ended = none ∧
                z.sheaf p.src (shStage p) (shOff p) = some { y with tries := y.tries + 1, data := [] })) ∧
            (y.tries < 3 → s.win.ops = [] → s.flt.egressOff = false → s.pwr.up = true → p.src < 512 →
              0 < (s.pair (0xE0 + s.ctxBdie i) p.src).w →
              (s.rdB FAB_CTL.QUIESCE = false → Completes row s (fun t => ∃ a q, t.fab.local_ = s.fab.local_ ++ [a, q] ∧
                a.typ = 5 ∧ a.dst = p.src ∧ a.seq = p.seq ∧
                Reasks s i x p.src (shStage p) (shOff p) (s.pair (0xE0 + s.ctxBdie i) p.src).seq q ∧ t.win.ops.map (·.stage) = [3])) ∧
              (s.rdB FAB_CTL.QUIESCE = true → Completes row s (fun t => ∃ a, t.fab.local_ = s.fab.local_ ++ [a] ∧ a.typ = 5 ∧
                t.win.ops.map (·.stage) = [2]))) ∧
            (3 ≤ y.tries → Completes row s (fun t => t.mem = s.mem ∧
              t.ctx i = some { x with lastArrival := s.now, ended := some (0x11, 2, p.src) })))) ∧
        (∀ y pos b o len, k = 1 → bitB (ofLe ((p.payload.drop 20).take 1)) 0 = false → x.op = 1 → s.memOk = true →
          (placeOf (cw x.words 7)).dspace = 1 → x.sheaf p.src (shStage p) (shOff p) = some y → x.sheaves = [y] → y.ok = false →
          y.data.length = ofLe ((p.payload.drop 16).take 4) → crc64 y.data = ofLe (p.payload.take 8) →
          s.stagePos x (shStage p) = some pos →
          sheafAt ((s.group x.group).transfer 1 pos p.src s.node) (x.blockBytes 0) (shOff p) = some (b, o, len) → x.checkOf 0 b o = none →
          Completes row s (fun t => LoftPut s t (cw x.words 5 + (b * x.blockBytes 0 + o)) y.data ∧ t.cores = s.cores ∧
            ∃ z, t.ctx i = some z ∧ z.ended = none ∧ z.checkOf 0 b o = some (crc64 y.data))) ∧
        (∀ b o len, k = 3 → s.resendShut p = false → x.op = 0 → s.stagePos x (shStage p) = some 0 → (placeOf (cw x.words 7)).sspace = 1 → s.mem.faults = [] →
          sheafAt ((s.group x.group).transfer 0 0 s.node p.src) (x.blockBytes 0) (shOff p) = some (b, o, len) →
          Completes row s (fun t => t.mem = s.mem ∧ t.ctx i = some { x with lastArrival := s.now } ∧
            t.rd COL_CNT.SHEAVES = (s.rd COL_CNT.SHEAVES + 1) % 2 ^ 32 ∧ s.win.ops.length < t.win.ops.length)))) ∧
    (p.typ = 0xA → bits p.aux 7 0 = 0x40 →
      (s.excluded p.src = false → p.crcOk = true → p.epoch = s.epoch32 →
        (∀ i x, s.col.ctxs.find? (fun e => pendFor e.2.group e.2.seq p) = some (i, x) → s.ctx i = some x → x.ended = none →
          Completes (.collectiveAbortArrival p) s (fun t => t.mem = s.mem ∧
            t.ctx i = some { x with ended := some (bits p.aux 15 8, 6, p.src) })) ∧
        (s.col.ctxs.find? (fun e => pendFor e.2.group e.2.seq p) = none → s.colFuture (bits p.addr 11 0) 28 (bits p.addr 39 12) = true →
          s.pendRoom (p.srcid % s.variant.bdies) = true → Completes (.collectiveAbortArrival p) s (fun t =>
            t.col.pend = s.col.pend ++ [⟨p.srcid % s.variant.bdies, p⟩] ∧ t.col.ctxs = s.col.ctxs ∧ t.mem = s.mem))) ∧
      (s.excluded p.src = false → p.crcOk = true → p.epoch ≠ s.epoch32 → Completes (.collectiveAbortArrival p) s (fun t => t.col = s.col ∧
        OnlyRegs { s with fab := t.fab } t [Reg.addr .WIN_RX 0 0 0])))

/-! ### The rack window -/

/-- The state in which the gleaner of core `c` has sent, after `P`, what it can: an entry of its core's outstanding operations may have come
free (R218). With none of its operations running that is the state itself. -/
def GlnSends (c : Nat) (P : State → Prop) (t : State) : Prop :=
  ∃ u, P u ∧ t = u.glnPumpAll c ∧ ((u.core c).gln.queue.all (fun e => !e.running) = true → t = u)

/-- The operation as it stands once it is sent: with its pair's sequence number, and unordered (R334, R402). -/
def sentOp (s : State) (o : RemOp) : RemOp :=
  { o with stage := 3, seq := (s.pair o.srcid (entNode o.entry)).seq, ord := false, lastTx := s.now, epoch := s.epoch32 }

/-- The packet of a core's operation that has been sent (R350, R405). -/
def Requests (s : State) (o : RemOp) (q : Packet) : Prop :=
  q.typ = o.kind ∧ q.vc = 0 ∧ q.dst = entNode o.entry ∧ q.src = s.node ∧ q.srcid = o.srcid ∧ q.seq = o.seq ∧ q.epoch = s.epoch32 ∧
  q.len = o.len ∧ q.payload = o.data ∧ q.ord = o.ord ∧ q.comb = bitB o.entry.toNat 31 ∧
  q.addr = entLpage o.entry * 0x400000 + o.addr.toNat % 0x400000

/-- The reason for which an entry refuses an operation of a kind at its source (R348): it is invalid, or lets the kind not through. -/
def Refuses (kind : Nat) (e : W64) (reason : Nat) : Prop :=
  (reason = 3 ∧ (bitB e.toNat 0 = false ∨ bits e.toNat 63 33 ≠ 0)) ∨
  (bitB e.toNat 0 = true ∧ bits e.toNat 63 33 = 0 ∧
    ((reason = 4 ∧ kind = 0 ∧ bitB e.toNat 28 = false) ∨ (reason = 5 ∧ (kind = 1 ∨ kind = 3) ∧ bitB e.toNat 29 = false) ∨
      (reason = 6 ∧ kind = 2 ∧ bitB e.toNat 30 = false)))

/-- The sending side (R345, R346, R348, R353, R363, R365, R370, R383, R397, R404). A walk starts for a page that an operation waits for; its
entry is checked for the operation and kept in the window cache if it is valid; a stale walk is dropped. An entry that refuses the
operation is a WINDOW_FAULT with its reason, and nothing is sent. One that passes is sent with its pair's next sequence number where the
window is open, and waits under QUIESCE; an RSTF waits for its own row. An answer completes its operation and adjusts its pair's window,
and what waited for the window leaves: a store is over, a load's register takes the data; a refusal is a WINDOW_FAULT of reason 7, and a
check NAK has the operation sent again. So has 8 us of silence, three times; at the timeout the operation fails, but one that QUIESCE
holds back has none. -/
def Obligations.WindowSender : Prop :=
  ∀ (s : State),
    (∀ b page, (s.win.ops.any (fun o => o.waitsFor b page) = true → s.win.walks.contains (b, page) = false →
        (s.win.walks.filter (fun x => x.1 == b)).length < 16 → Completes (.windowWalkStart b page) s (fun t =>
          t = { s with win := { s.win with walks := s.win.walks ++ [(b, page)] } })) ∧
      (s.win.ops.any (fun o => o.waitsFor b page) = false → Completes (.windowWalkStart b page) s (fun t => t = s))) ∧
    (∀ b page ce, s.win.walks.contains (b, page) = true →
      (s.win.stale.contains (b, page) = true → Completes (.windowWalkComplete b page ce) s (fun t =>
        t.win = { s.win with walks := s.win.walks.filter (· != (b, page)), stale := s.win.stale.filter (· != (b, page)) } ∧
        t.cores = s.cores ∧ t.mem = s.mem)) ∧
      (∀ o r e, s.win.stale.contains (b, page) = false → s.win.ops = [o] → o.waitsFor b page = true → o.kind < 4 → o.cmd = none →
        o.gln = none →
        r = State.eRead { s.incSat FLT_CE_SUM.WINCACHE ce 0 with win := { s.win with
          walks := s.win.walks.filter (· != (b, page)), stale := s.win.stale.filter (· != (b, page)) } } (winEntryAt s.variant page) 8 0 false .walker →
        r.ue = false → e = w64 (ofLe r.data) →
        (sendReason o.kind e = 0 → s.rdB FAB_CTL.QUIESCE = true ∨ o.kind = 3 →
          Completes (.windowWalkComplete b page ce) s (GlnSends o.srcid (fun t => t.win.ops = [{ o with stage := 2, entry := e }] ∧
            t.win.walks = s.win.walks.filter (· != (b, page)) ∧ (t.wcache b).head? = some (page, e) ∧ t.cores = s.cores))) ∧
        (sendReason o.kind e = 0 → s.rdB FAB_CTL.QUIESCE = false → o.kind ≠ 3 → s.flt.egressOff = false → s.pwr.up = true →
          0 < (s.pair o.srcid (entNode e)).w →
          Completes (.windowWalkComplete b page ce) s (GlnSends o.srcid (fun t => t.win.ops = [sentOp s { o with entry := e }] ∧
            t.win.walks = s.win.walks.filter (· != (b, page)) ∧ (t.wcache b).head? = some (page, e) ∧ t.cores = s.cores ∧
            (t.pair o.srcid (entNode e)).seq = ((s.pair o.srcid (entNode e)).seq + 1) % 2 ^ 32 ∧
            ∃ q, t.fab.local_ = s.fab.local_ ++ [q] ∧ Requests s (sentOp s { o with entry := e }) q))) ∧
        (∀ n, Refuses o.kind e n → s.rdB WIN_FAULT.VALID = false → (s.sp o.srcid o.sp).ended = false →
          (s.sp o.srcid o.sp).pend.length < 4 →
          Completes (.windowWalkComplete b page ce) s (GlnSends o.srcid (fun t => t.win.ops = [] ∧ t.fab = s.fab ∧
            (n = 3 → t.wcache b = s.wcache b) ∧ t.rdB WIN_FAULT.VALID = true ∧ t.rd WIN_FAULT.REASON = n ∧
            t.rd WIN_FAULT.OP = o.kind ∧ t.rd WIN_FAULT.PAGE = page ∧
            (t.sp o.srcid o.sp).pend = (s.sp o.srcid o.sp).pend ++ [⟨9, 0, 0x13, o.addr⟩]))))) ∧
    (∀ p o, 4 ≤ p.typ → p.typ ≤ 7 → p.vc = 1 →
      (s.excluded p.src = true → Completes (.remoteResponseArrival p) s (fun t => t.win = s.win ∧ t.cores = s.cores ∧
        t.rd ROLL_STAT.XRX = min ROLL_STAT.XRX.top (s.rd ROLL_STAT.XRX + 1))) ∧
      (s.excluded p.src = false → p.crcOk = false → Completes (.remoteResponseArrival p) s (fun t => t.win = s.win ∧ t.cores = s.cores ∧
        t.rd FAB_DROP2.E2ECRC = min 65535 (s.rd FAB_DROP2.E2ECRC + 1))) ∧
      (s.excluded p.src = false → p.crcOk = true → p.epoch ≠ s.epoch32 → Completes (.remoteResponseArrival p) s (fun t => t.win = s.win ∧
        t.cores = s.cores ∧ t.rd WIN_RX.STALE = (s.rd WIN_RX.STALE + 1) % 2 ^ 32)) ∧
      (s.excluded p.src = false → p.crcOk = true → p.epoch = s.epoch32 →
        s.win.ops.find? (fun o => o.srcid == p.srcid && o.stage == 3 && o.seq == p.seq && entNode o.entry == p.src) = some o →
        o.cmd = none → o.gln = none →
        (p.typ = 5 → o.kind = 1 → Completes (.remoteResponseArrival p) s (GlnSends o.srcid (fun t =>
          (s.rdB FAB_CTL.QUIESCE = true ∨ s.win.ops = [o] → t.win.ops = s.win.ops.filter (fun x => x.id != o.id)) ∧
          t.remOp o.id = none ∧ t.cores = s.cores ∧ t.mem = s.mem ∧
          (SMap.has s.win.pairs (pairKey p.srcid p.src) = true → p.ece = true →
            (s.pair p.srcid p.src).last = none ∨ (∃ t0, (s.pair p.srcid p.src).last = some t0 ∧ t0 + s.rd FAB_ECN.HOLD ≤ s.now) →
            (t.pair p.srcid p.src).w = max s.wmin ((s.pair p.srcid p.src).w / 2)) ∧
          (SMap.has s.win.pairs (pairKey p.srcid p.src) = true → p.ece = false → (s.pair p.srcid p.src).w ≤ (s.pair p.srcid p.src).inc + 1 →
            (t.pair p.srcid p.src).w = min 256 ((s.pair p.srcid p.src).w + 1))))) ∧
        (∀ o2, p.typ = 5 → o.kind = 1 → s.rdB FAB_CTL.QUIESCE = false → s.flt.egressOff = false → s.pwr.up = true →
          s.win.ops = [o, o2] → o2.id ≠ o.id → o2.kind < 3 → o2.stage = 2 → 0 < (s.pair o2.srcid (entNode o2.entry)).w →
          Completes (.remoteResponseArrival p) s (GlnSends o.srcid (fun t => t.win.ops = [sentOp s o2] ∧
            ∃ q, t.fab.local_ = s.fab.local_ ++ [q] ∧ Requests s (sentOp s o2) q))) ∧
        (p.typ = 4 → o.kind = 0 → Completes (.remoteResponseArrival p) s (GlnSends o.srcid (fun t =>
          (s.rdB FAB_CTL.QUIESCE = true ∨ s.win.ops = [o] → t.win.ops = s.win.ops.filter (fun x => x.id != o.id)) ∧
          t.remOp o.id = none ∧ t.mem = s.mem ∧ (∀ c, c ≠ o.srcid → t.core c = s.core c) ∧
          t.core o.srcid = (s.core o.srcid).setSp o.sp (if o.len = 128 then (s.sp o.srcid o.sp).setV o.reg (BitVec.ofNat 1024 (ofLe p.payload))
            else (s.sp o.srcid o.sp).setX o.reg (w64 (ofLe p.payload)))))) ∧
        (p.typ = 7 → o.kind < 4 → s.rdB WIN_FAULT.VALID = false → (s.sp o.srcid o.sp).ended = false → (s.sp o.srcid o.sp).pend.length < 4 →
          Completes (.remoteResponseArrival p) s (GlnSends o.srcid (fun t => t.rdB WIN_FAULT.VALID = true ∧ t.rd WIN_FAULT.REASON = 7 ∧ t.rd WIN_FAULT.OP = o.kind ∧
            (t.sp o.srcid o.sp).pend = (s.sp o.srcid o.sp).pend ++ [⟨9, 0, 0x13, o.addr⟩] ∧ t.remOp o.id = none ∧ t.mem = s.mem))) ∧
        (p.typ = 6 → o.tries < 3 → s.now < o.issued + s.remTimeout → Completes (.remoteResponseArrival p) s (fun t =>
          t.remOp o.id = some { o with nak := true, lastTx := s.now, tries := o.tries + 1 } ∧ t.cores = s.cores ∧ t.mem = s.mem)))) ∧
    (∀ id o, s.remOp id = some o →
      (o.stage = 3 → o.lastTx + 8000 ≤ s.now → o.tries < 3 → s.now < o.issued + s.remTimeout →
        Completes (.remoteRetransmit id) s (fun t => t.remOp id = some { o with lastTx := s.now, tries := o.tries + 1 } ∧
          (s.flt.egressOff = false → s.pwr.up = true → t.fab.local_ = s.fab.local_ ++ [(s.remPacket o true).sealed]) ∧
          t = { s with win := t.win, fab := t.fab })) ∧
      (o.stage ≠ 3 ∨ s.now < o.lastTx + 8000 ∨ 3 ≤ o.tries ∨ o.issued + s.remTimeout ≤ s.now →
        Completes (.remoteRetransmit id) s (fun t => t = s)) ∧
      (s.now < o.issued + s.remTimeout ∨ (o.stage ≠ 3 ∧ s.rdB FAB_CTL.QUIESCE = true) → Completes (.remoteOpTimeout id) s (fun t => t = s)) ∧
      (o.issued + s.remTimeout ≤ s.now → o.stage = 3 → o.kind < 4 → o.cmd = none → o.gln = none → (s.sp o.srcid o.sp).ended = false →
        (s.sp o.srcid o.sp).pend.length < 4 → s.rdB FAB_CTL.QUIESCE = true ∨ s.win.ops = [o] →
        Completes (.remoteOpTimeout id) s (GlnSends o.srcid (fun t => t.remOp id = none ∧ t.mem = s.mem ∧
          (t.sp o.srcid o.sp).pend = (s.sp o.srcid o.sp).pend ++ [⟨9, 0, if o.nak then 0x11 else 0x10, o.addr⟩] ∧
          (s.flt.egressOff = false → s.pwr.up = true → t.fab.local_ = s.fab.local_ ++
            [Packet.sealed { s.packet 8 3 (entNode o.entry) o.srcid with seq := o.seq }])))) ∧
      (o.issued + s.remTimeout ≤ s.now → o.stage ≠ 3 → s.rdB FAB_CTL.QUIESCE = false → o.kind < 4 → o.cmd = none → o.gln = none →
        o.nak = false → (s.sp o.srcid o.sp).ended = false → (s.sp o.srcid o.sp).pend.length < 4 → s.win.ops = [o] →
        Completes (.remoteOpTimeout id) s (GlnSends o.srcid (fun t => t.win.ops = [] ∧ t.fab = s.fab ∧ t.mem = s.mem ∧
          (t.sp o.srcid o.sp).pend = (s.sp o.srcid o.sp).pend ++ [⟨9, 0, 0x10, o.addr⟩])))) ∧
    (∀ v : W64, s.live = true → bitB v.toNat 1 = true → Completes (.winTdThaw v) s (fun t => t.rd WIN_TD.FROZEN = 0 ∧ OnlyRegs s t [Reg.addr .WIN_TD 0 0 0])) ∧
    (∀ (v : W64) b, s.live = false → Completes (.winTdThaw v) s (fun t => t = s) ∧ Completes (.winCacheInv b v) s (fun t => t = s)) ∧
    (∀ (v : W64) b, s.live = true → bitB v.toNat 0 = true → Completes (.winCacheInv b v) s (fun t => t.wcache b = [] ∧ (∀ d, d ≠ b → t.wcache d = s.wcache d) ∧
      t = { s with win := t.win }))

/-- The receiving side (R333, R334, R336, R338, R351, R353, R356, R360, R365, R402, R403). An operation that is next in its source's sequence
is applied and answered; one outside local E-space is refused; one ahead of its turn, or a store while E-space is frozen, is held, and
applied when its turn comes. A bad CRC, another epoch and an excluded node are counted. A skip passes its number over. An add that
may be folded opens an entry, which closes 64 ns later; so does a combine entry to further reads, and after 8 us it is freed. That a
store into frozen E-space is held unanswered and that a skip drops a held copy are the model's readings (log entry 26), and so is the
slice that folds an add (log entry 27). -/
def Obligations.WindowReceiver : Prop :=
  ∀ (s : State) (p : Packet),
    (p.typ ≤ 3 → p.vc = 0 →
      (s.rxCase p = .excluded → Completes (.remoteArrival p) s (fun t => t.mem = s.mem ∧ t.win = s.win ∧
        t.rd ROLL_STAT.XRX = min ROLL_STAT.XRX.top (s.rd ROLL_STAT.XRX + 1))) ∧
      (s.rxCase p = .corrupt → Completes (.remoteArrival p) s (fun t => t.mem = s.mem ∧ t.win = s.win ∧
        t.rd FAB_DROP2.E2ECRC = min 65535 (s.rd FAB_DROP2.E2ECRC + 1) ∧
        (s.flt.egressOff = false → s.pwr.up = true → t.fab.local_ = s.fab.local_ ++
          [Packet.sealed { s.packet 6 1 p.src p.srcid with ece := p.ce, seq := p.seq }]))) ∧
      (s.rxCase p = .stale → Completes (.remoteArrival p) s (fun t => t.mem = s.mem ∧ t.win = s.win ∧ t.fab.local_ = s.fab.local_ ∧
        t.rd WIN_RX.STALE = (s.rd WIN_RX.STALE + 1) % 2 ^ 32)) ∧
      (s.rxCase p = .ahead ∨ (s.rxCase p = .next ∧ s.frozen = true ∧ p.typ ≠ 0 ∧ s.win.held.length < 4096) →
        Completes (.remoteArrival p) s (fun t => t.mem = s.mem ∧ t.win = { s.win with held := s.win.held ++ [p] } ∧
          t.fab.local_ = s.fab.local_ ∧ t.csr = s.csr)) ∧
      (s.rxCase p = .next → s.frozen = false ∨ p.typ = 0 → s.win.fold = [] →
        (s.variant.resBase < p.addr + p.len → Completes (.remoteArrival p) s (fun t => t.mem = s.mem ∧
          t.rd WIN_RX.REFUSED = (s.rd WIN_RX.REFUSED + 1) % 2 ^ 32 ∧ (s.flt.egressOff = false → s.pwr.up = true →
            t.fab.local_ = s.fab.local_ ++ [Packet.sealed { s.packet 7 1 p.src p.srcid with ece := p.ce, seq := p.seq, aux := 0x13 }]))) ∧
        (p.addr + p.len ≤ s.variant.resBase → p.typ = 1 ∨ p.typ = 3 → Completes (.remoteArrival p) s (fun t =>
          t = ((((s.takeRx p).rxSet p.src p.srcid ((p.seq + 1) % 2 ^ 32)).eWrite p.addr (p.payload.take p.len) 0 .arrival).answer p 5 0 []))) ∧
        (p.addr + p.len ≤ s.variant.resBase → p.typ = 0 → Completes (.remoteArrival p) s (fun t =>
          t = (((s.takeRx p).rxSet p.src p.srcid ((p.seq + 1) % 2 ^ 32)).serveRead p))) ∧
        (p.addr + p.len ≤ s.variant.resBase → p.typ = 2 → s.foldable p = false → Completes (.remoteArrival p) s (fun t =>
          t = ((((s.takeRx p).rxSet p.src p.srcid ((p.seq + 1) % 2 ^ 32)).addWords p.atype (addends p)).answer p 5 0 []))) ∧
        (∀ ln, p.addr + p.len ≤ s.variant.resBase → p.typ = 2 → s.foldable p = true → foldLines p = [ln] →
          (s.combs (foldSlice p.addr)).length < 1024 → Completes (.remoteArrival p) s (fun t => t.mem = s.mem ∧ t.fab.local_ = s.fab.local_ ∧
            t.folds (foldSlice p.addr) = [⟨ln, p.atype, p.epoch, s.now, [p]⟩])))) ∧
    (s.win.held = [p] → p.seq = s.rxNext p.src p.srcid → s.frozen = false → s.win.fold = [] → p.addr + p.len ≤ s.variant.resBase → p.typ = 1 →
      Completes (.remoteApply p.src p.srcid) s (fun t => t = ((({ s with win := { s.win with held := [] } }.rxSet p.src p.srcid
        ((p.seq + 1) % 2 ^ 32)).eWrite p.addr (p.payload.take p.len) 0 .arrival).answer p 5 0 []))) ∧
    (∀ src srcid, s.win.held = [] → Completes (.remoteApply src srcid) s (fun t => t = s)) ∧
    (p.typ = 8 → s.excluded p.src = false → p.crcOk = true → p.epoch = s.epoch32 → s.win.skips = [] →
      (p.seq = s.rxNext p.src p.srcid → p.seq < 2 ^ 32 → Completes (.skipArrival p) s (fun t =>
        t.rxNext p.src p.srcid = (p.seq + 1) % 2 ^ 32 ∧ t.win.held = s.win.held.filter (fun q => !sameOp p q) ∧ t.mem = s.mem)) ∧
      (s.rxNext p.src p.srcid < p.seq → Completes (.skipArrival p) s (fun t => t.rxNext p.src p.srcid = s.rxNext p.src p.srcid ∧
        t.win.skips = [(rxKey p.src p.srcid, p.seq)] ∧ t.mem = s.mem)) ∧
      (p.seq < s.rxNext p.src p.srcid → Completes (.skipArrival p) s (fun t => t = s.takeRx p))) ∧
    (∀ b i e, (s.folds b)[i]? = some e →
      (s.now < e.openAt + 64 → Completes (.foldApply b i) s (fun t => t = s)) ∧
      (e.openAt + 64 ≤ s.now → Completes (.foldApply b i) s (fun t =>
        t.folds b = (s.folds b).filter (fun x => !(x.line == e.line && x.atype == e.atype && x.epoch == e.epoch)) ∧ t.cores = s.cores))) ∧
    (∀ b i e, (s.combs b)[i]? = some e →
      (e.openAt + 64 ≤ s.now → Completes (.combineWindowClose b i) s (fun t => (t.combs b)[i]? = some { e with isOpen := false } ∧
        (t.combs b).length = (s.combs b).length ∧ t = { s with win := t.win })) ∧
      (s.now < e.openAt + 64 → Completes (.combineWindowClose b i) s (fun t => t = s)) ∧
      (e.openAt + 8000 ≤ s.now → Completes (.combineEntryTimeout b i) s (fun t => t.combs b = (s.combs b).eraseIdx i ∧
        t = { s with win := t.win })) ∧
      (s.now < e.openAt + 8000 → Completes (.combineEntryTimeout b i) s (fun t => t = s)))

/-- Teardown and sealed change requests (R270, R364 to R366, R369 to R373, R545, R557). A teardown of another epoch is answered as stale, and a
packet of one counted as stale; one of this epoch abandons every remote operation, forgets sequence state, freezes E-space, and moves the
epoch on. A request waits for verification where none is in progress, against the epoch at its arrival; a failure is answered with its
result, and then a request for attestation that waited behind it; a routing entry takes its value and its class's sequence number; a
manifest waits for its image, whose digest must match as it is read, and again as it is copied: where it does not then, the range reads
0. RESULT 0xA of a manifest whose entries fail is the model's reading (log entry 46), and a manifest that is applied whole in one command
its choice (log entry 63). -/
def Obligations.TeardownAndChanges : Prop :=
  ∀ (s : State),
    (∀ m : V128, s.linkLit = true →
      (bits m.toNat 127 64 ≠ s.epoch → Completes (.teardownMessage m) s (fun t => t = { s with halter := s.halter ++ HMsg.sent (.teardown true) s.now })) ∧
      (bits m.toNat 127 64 = s.epoch → Completes (.teardownMessage m) s (fun t => t.rd WIN_TD.FROZEN = 1 ∧ t.win.ops = [] ∧ t.win.pairs = [] ∧
        t.win.rx = [] ∧ t.win.held = [] ∧ t.col.pend = [] ∧ t.que.done = [] ∧ t.que.copies = []))) ∧
    (∀ p, p.typ = 10 → p.aux % 256 = 0x10 → s.excluded p.src = false → p.crcOk = true →
      (p.epoch ≠ s.epoch32 → Completes (.vc3Teardown p) s (fun t => t.rd WIN_RX.STALE = (s.rd WIN_RX.STALE + 1) % 2 ^ 32 ∧
        OnlyRegs { s with fab := t.fab } t [Reg.addr .WIN_RX 0 0 0])) ∧
      (p.epoch = s.epoch32 → Completes (.vc3Teardown p) s (fun t => t.rd WIN_TD.FROZEN = 1 ∧ t.win.ops = [] ∧ t.win.pairs = [] ∧
        t.win.rx = [] ∧ t.win.held = [] ∧ t.col.pend = [] ∧ t.que.done = [] ∧ t.que.copies = [] ∧
        ((∀ q, (s.queue q).st = 0) → s.cores = [] → s.col.ctxs = [] → s.que.cmds = [] → s.win.fold = [] →
          t.epoch = (s.epoch + 1) % 2 ^ 64 ∧ t.mem = s.mem)))) ∧
    (∀ d, s.linkLit = true →
      (s.boot.stage = 12 → s.win.change = none → Completes (.changeRequest d) s (fun t =>
        t = { s with win := { s.win with change := some ⟨d, false, s.epoch⟩ } })) ∧
      (s.boot.stage ≠ 12 ∨ s.win.change.isSome = true → Completes (.changeRequest d) s (fun t => t.rd WIN_CHG_STAT.RESULT = 0xC ∧
        t.rd WIN_CHG_STAT.REFUSED = min 65535 (s.rd WIN_CHG_STAT.REFUSED + 1) ∧
        t.halter = s.halter ++ HMsg.sent (.change 0xC (w64 (num d 40 8))) s.now ∧ t.win = s.win))) ∧
    (∀ d ep, s.win.change = some ⟨d, false, ep⟩ →
      (s.verify ep d ≠ 0 → Completes .changeVerified s (fun t => t.win.change = none ∧ t.win.attests = [] ∧
        (∀ n, s.win.attests = [n] → ∃ g, t.halter = s.halter ++ HMsg.sent (.change (s.verify ep d) (w64 (num d 40 8))) s.now ++
          HMsg.sent (.attest (s.report50 n) g) s.now) ∧ t.rd WIN_CHG_STAT.RESULT = s.verify ep d ∧
        t.rd WIN_CHG_STAT.REFUSED = min 65535 (s.rd WIN_CHG_STAT.REFUSED + 1) ∧ OnlyRegs { s with win := t.win, halter := t.halter } t
          [Reg.addr .WIN_CHG_STAT 0 0 0])) ∧
      (s.verify ep d = 0 → num d 32 8 = ep) ∧
      (s.verify ep d = 0 → chgManifest (num d 4 1) = true → Completes .changeVerified s (fun t =>
        t = { s with win := { s.win with change := some ⟨d, true, ep⟩ } })) ∧
      (∀ i v, s.verify ep d = 0 → num d 4 1 = 4 → chgEntries d = [(i, v)] → Completes .changeVerified s (fun t => t.win.change = none ∧
        t.rd FAB_RT.LINK 0 i = v ∧ t.rd WIN_CHG_SEQ.SEQ 0 2 = num d 40 8 ∧ t.rd WIN_CHG_STAT.RESULT = 1 ∧
        RegsBut s t [Reg.addr .FAB_RT 0 i 0, Reg.addr .WIN_CHG_SEQ 0 2 0, Reg.addr .WIN_CHG_STAT 0 0 0] ∧ t.mem = s.mem))) ∧
    (∀ d ep r es, s.win.change = some ⟨d, true, ep⟩ → num d 4 1 ∈ [1, 3, 5] → s.frozen = false →
      r = s.eRead (num d 64 8) (8 * num d 60 4) 0 false .loader → r.ue = false →
      es = (List.range (num d 60 4)).map (fun i => (num d 56 4 + i, num r.data (8 * i) 8)) →
      (Config.sha3 r.data ≠ cut d 72 64 → Completes .manifestApply s (fun t => t.win.change = none ∧ t.rd WIN_CHG_STAT.RESULT = 0xB)) ∧
      (Config.sha3 r.data = cut d 72 64 → r.st.entriesOk (num d 4 1) es = false → Completes .manifestApply s (fun t => t.win.change = none ∧
        t.rd WIN_CHG_STAT.RESULT = 0xA)) ∧
      (∀ r2, Config.sha3 r.data = cut d 72 64 → r.st.entriesOk (num d 4 1) es = true →
        r2 = r.st.eRead (num d 64 8) (8 * num d 60 4) 0 false .loader → r2.ue = false →
        (Config.sha3 r2.data = cut d 72 64 → Completes .manifestApply s (fun t => t.win.change = none ∧
          t.rd WIN_CHG_STAT.RESULT = 1 ∧ t.rd WIN_CHG_SEQ.SEQ 0 (num d 4 1 / 2) = num d 40 8)) ∧
        (Config.sha3 r2.data ≠ cut d 72 64 → Completes .manifestApply s (fun t => t.win.change = none ∧ t.rd WIN_CHG_STAT.RESULT = 0xB ∧
          (num d 4 1 = 5 → num d 56 4 + num d 60 4 ≤ 512 → ∀ k, k < num d 60 4 → t.rd FAB_RT.LINK 0 (num d 56 4 + k) = 0))))) ∧
    (∀ d ep, s.win.change = some ⟨d, false, ep⟩ → Completes .manifestApply s (fun t => t = s))

/-! ### The tensor fabric and Ethernet -/

/-- The packet that came in on link `l` leaves its slot (R399): the credit goes back, and the links are as before. -/
def SlotBack (s t : State) (l vc : Nat) (sh : Bool) : Prop :=
  t.fab.ctrl = s.fab.ctrl ++ [(l, "credit", [vc, b2n sh])] ∧ ∀ k, t.link k = s.link k

/-- The router and its links (R355 to R357, R387, R391 to R393, R396, R397, R399 to R401, R404, R406, R407). A packet that finds a slot in its
link's receive pool is routed: one for this module is delivered, a combinable read that matches an open entry is attached to it, a response
is copied to the reads attached to its entry, any other goes to the link that the table names, one hop on; malformed packets, those of an
excluded node, those with no link and those out of hops are counted and dropped, and the slot's credit goes back. A credit lets a packet
leave. A stuck packet is dropped. Codewords with up to 15 symbol errors are corrected; of those with more, what overlaps them is discarded;
a packet on a hop is taken where its per-hop CRC holds. A link trains with a peer that differs in one coordinate, else it is MISWIRED; a
link with little traffic dozes and wakes. The model's readings in this: no packet is taken without a slot, and CREDIT_REFRESH stands for
both directions (log entry 41), the slice of a link (log entry 27), the lowest fibre of a dozing link (log entry 40), dropping at HOPS equal
to MAXHOPS alone (log entry 42), a dark link that is held (log entry 52), and errors that the row tells (log entry 108). -/
def Obligations.TensorFabric : Prop :=
  ∀ (s : State),
    (∀ l p sh, l < 16 → s.linksRun = true → s.linkUp l = true → (s.link l).used.length = 5 →
      (s.slotFor l p.vc = none → Completes (.packetForward l p false) s (fun t => t = s)) ∧
      (s.slotFor l p.vc = some sh →
        (badPacket p = true → Completes (.packetForward l p false) s (fun t => t.rd FAB_DROP.BADPKT = min 65535 (s.rd FAB_DROP.BADPKT + 1) ∧
          SlotBack s t l p.vc sh ∧ t.fab.rx = s.fab.rx ∧ t.fab.tx = s.fab.tx ∧ t.mem = s.mem)) ∧
        (badPacket p = false → s.excluded p.src = true → p.typ ≠ 10 → Completes (.packetForward l p false) s (fun t =>
          t.rd ROLL_STAT.XRX = min ROLL_STAT.XRX.top (s.rd ROLL_STAT.XRX + 1) ∧ SlotBack s t l p.vc sh ∧ t.fab.rx = s.fab.rx ∧
          t.fab.tx = s.fab.tx)) ∧
        (∀ k, badPacket p = false → s.excluded p.src = false → k = s.rd FAB_RT.LINK 0 p.dst →
          (k = 31 → p.typ ≠ 0 → p.typ ≠ 4 → p.typ ≠ 7 → Completes (.packetForward l p false) s (fun t =>
            t.fab.rx = s.fab.rx ++ [p] ∧ SlotBack s t l p.vc sh ∧ t = { s with fab := t.fab })) ∧
          (k = 31 → s.combinable p = true → (s.combs (l / 4)).any (fun e => e.takes p s.now) = true →
            Completes (.packetForward l p false) s (fun t => t.fab.rx = s.fab.rx ∧ SlotBack s t l p.vc sh ∧
              t.combs (l / 4) = (s.combs (l / 4)).map (fun e => if e.takes p s.now then { e with attached := e.attached ++ [p] } else e))) ∧
          (∀ b e, k = 31 → p.typ = 4 ∨ p.typ = 7 → b < s.variant.bdies → e.answers p = true → b ≠ l / 4 → b ≠ srcBdie p.srcid →
            (∀ d, s.combs d = if d = b then [e] else []) → Completes (.packetForward l p false) s (fun t => t.combs b = [e] ∧
              t.fab.local_ = s.fab.local_ ∧ t.fab.rx = s.fab.rx ++ [p] ∧ SlotBack s t l p.vc sh)) ∧
          (∀ b e, k = 31 → p.typ = 4 ∨ p.typ = 7 → b < s.variant.bdies → e.answers p = true → b = l / 4 ∨ b = srcBdie p.srcid →
            (∀ d, s.combs d = if d = b then [e] else []) → Completes (.packetForward l p false) s (fun t => t.combs b = [] ∧
              t.fab.local_ = s.fab.local_ ++ e.attached.map (fun a => copyFor p a) ∧ t.fab.rx = s.fab.rx ++ [p] ∧ SlotBack s t l p.vc sh)) ∧
          (k < 31 → s.linkUp k = false → Completes (.packetForward l p false) s (fun t =>
            t.rd FAB_DROP.NOROUTE = min 65535 (s.rd FAB_DROP.NOROUTE + 1) ∧ SlotBack s t l p.vc sh ∧ t.fab.tx = s.fab.tx)) ∧
          (k < 31 → s.linkUp k = true → p.hops = max 1 (s.rd FAB_CFG.MAXHOPS) → Completes (.packetForward l p false) s (fun t =>
            t.rd FAB_DROP.HOPS = min 65535 (s.rd FAB_DROP.HOPS + 1) ∧ SlotBack s t l p.vc sh ∧ t.fab.tx = s.fab.tx)) ∧
          (k < 31 → s.linkUp k = true → p.hops ≠ max 1 (s.rd FAB_CFG.MAXHOPS) → p.typ ≠ 0 → p.typ ≠ 4 → p.typ ≠ 7 → (s.link k).queue = [] →
            (∀ cr, takeCredit (s.link k).credits p.vc = some cr → 1 ≤ s.rd FAB_ECN.THRESH → Completes (.packetForward l p false) s (fun t =>
              t.fab.tx = s.fab.tx ++ [(k, { p with hops := (p.hops + 1) % 16 })] ∧ (t.link k).credits = cr ∧ (t.link k).queue = [] ∧
              t.fab.ctrl = s.fab.ctrl ++ [(l, "credit", [p.vc, b2n sh])])) ∧
            (takeCredit (s.link k).credits p.vc = none → Completes (.packetForward l p false) s (fun t => t.fab.tx = s.fab.tx ∧
              (t.link k).queue = [⟨{ p with hops := (p.hops + 1) % 16 }, s.now, l, sh⟩] ∧ t.fab.ctrl = s.fab.ctrl)))))) ∧
    (∀ l p, 16 ≤ l → s.fab.local_.contains p = true → s.alive = true → s.excluded p.src = false → badPacket p = false → p.typ ≠ 0 →
      p.typ ≠ 4 → p.typ ≠ 7 → p.dst = s.node ∨ s.rd FAB_RT.LINK 0 p.dst = 31 → Completes (.packetForward l p false) s (fun t =>
        t = { s with fab := { s.fab with local_ := dropFirst (· == p) s.fab.local_, rx := s.fab.rx ++ [p] } })) ∧
    (∀ l i w, (s.link l).queue[i]? = some w →
      (w.pkt.vc ≠ 3 → w.since + max 1 (s.rd FAB_CFG.STUCK) * 1000 ≤ s.now → takeCredit (s.link l).credits w.pkt.vc = none →
        Completes (.packetDiscardStuck l i) s (fun t => (t.link l).queue = (s.link l).queue.eraseIdx i ∧
          t.rd FAB_DROP.STUCK = min 65535 (s.rd FAB_DROP.STUCK + 1))) ∧
      (w.pkt.vc = 3 ∨ s.now < w.since + max 1 (s.rd FAB_CFG.STUCK) * 1000 → Completes (.packetDiscardStuck l i) s (fun t => t = s))) ∧
    (∀ l, s.linkUp l = true → (s.link l).queue = [] →
      (∀ vc sh, vc < 4 → (s.link l).credits.length = 5 → Completes (.creditReturn l vc sh) s (fun t =>
        nth (t.link l).credits 0 (if sh then 4 else vc) = nth (s.link l).credits 0 (if sh then 4 else vc) + 1 ∧ t = { s with fab := t.fab })) ∧
      (∀ free : List Nat, free.length = 5 → Completes (.creditRefresh l free) s (fun t => (t.link l).credits = free ∧
        t.fab.ctrl = s.fab.ctrl ++ [(l, "free", s.freeSlots l)] ∧ t = { s with fab := t.fab }))) ∧
    (∀ l (errs : List Nat) lead d, s.linkUp l = true →
      (∀ hs, hs = [] ∨ hs = [(d, true)] ∨ hs = [(d, false)] → Completes (.hopFrameReceive l errs lead hs []) s (fun t =>
        t.rd FAB_LCNT0.CORR l = (s.rd FAB_LCNT0.CORR l + errs.countP (fun e => 0 < e ∧ e ≤ 15)) % 2 ^ 32 ∧
        t.rd FAB_LCNT0.UNCORR l = (s.rd FAB_LCNT0.UNCORR l + errs.countP (fun e => 15 < e)) % 2 ^ 32 ∧
        (hs ≠ [(d, false)] ∨ (s.link l).rxLost = true ∨ (∃ k e, errs[k]? = some e ∧ 15 < e ∧ 5140 * k < 8 * d.length - lead) ∨
            5140 * errs.length < 8 * d.length - lead →
          t.fab.rx = s.fab.rx ∧ t.fab.tx = s.fab.tx ∧ OnlyRegs { s with fab := t.fab } t [Reg.addr .FAB_LCNT0 l 0 0]) ∧
        (hs = [] ∨ 5140 * errs.length < 8 * d.length - lead →
          (t.link l).rxLost = ((s.link l).rxLost || errs.any (fun e => 15 < e))))) ∧
      ((s.link l).rxLost = false → 8 * d.length - lead ≤ 5140 * errs.length →
        (∀ k e, errs[k]? = some e → 5140 * k < 8 * d.length - lead → e ≤ 15) →
        (hopOk d = false → Completes (.hopFrameReceive l errs lead [(d, false)] []) s (fun t =>
          t.rd FAB_LCNT1.HOPCRC l = (s.rd FAB_LCNT1.HOPCRC l + 1) % 2 ^ 32 ∧ t.fab.rx = s.fab.rx ∧ t.fab.tx = s.fab.tx ∧
          OnlyRegs { s with fab := t.fab } t [Reg.addr .FAB_LCNT0 l 0 0, Reg.addr .FAB_LCNT1 l 0 0])) ∧
        (hopOk d = true → Completes (.hopFrameReceive l errs lead [(d, false)] []) s (fun t => ∃ u r,
          OnlyRegs s u [Reg.addr .FAB_LCNT0 l 0 0] ∧
          (r = true ↔ ∃ k e, errs[k]? = some e ∧ 15 < e ∧ 8 * d.length - lead < 5140 * (k + 1)) ∧
          t = (u.arrive l (packetOf (d.take (d.length - 4)))).modLink l (fun x => { x with rxLost := r }))))) ∧
    (∀ l errs lead hs f c pw eye, s.linkUp l = false → f < 256 → fibExists s.variant f = true →
      Completes (.hopFrameReceive l errs lead hs [(f, c, pw, eye)]) s (fun t => t.rd PHO_ERR.CORR 0 f = (s.rd PHO_ERR.CORR 0 f + c) % 2 ^ 32 ∧
        t.rd PHO_EYE.RXPWR 0 f = pw % 65536 ∧ t.rd PHO_EYE.EYE 0 f = eye % 65536 ∧
        OnlyRegs s t [Reg.addr .PHO_ERR 0 f 0, Reg.addr .PHO_EYE 0 f 0])) ∧
    (∀ l peer pv pl, l < s.variant.links → s.rd FAB_LINK.STATE l ∈ [0, 1, 6] → 9 ≤ s.boot.stage → s.boot.stage ≤ 12 →
      s.rd FAB_NODE.STRAPERR = 0 → s.alive = true → s.stby.inStby = false →
      (s.linkHeld l = true → Completes (.linkTraining l peer pv pl) s (fun t => t = s)) ∧
      (s.linkHeld l = false → peer = s.node → Completes (.linkTraining l peer pv pl) s (fun t => t.rd FAB_LINK.STATE l = 5 ∧
        (t.link l).miswired = true ∧ t.rd FAB_NODE.STRAPERR = 3 ∧ t.rd FAB_NODE.ONFAB = 0)) ∧
      (s.linkHeld l = false → peer ≠ s.node → coordDiff peer s.node ≠ 1 ∨ pv ≠ s.variant.part ∨ s.peerTaken l peer = true →
        Completes (.linkTraining l peer pv pl) s (fun t =>
          t.rd FAB_LINK.STATE l = 5 ∧ (t.link l).miswired = true ∧ (∀ k, k ≠ l → t.link k = s.link k) ∧ t.pho = s.pho)) ∧
      (s.linkHeld l = false → coordDiff peer s.node = 1 → pv = s.variant.part → s.peerTaken l peer = false → peer < 512 →
        (∀ f, f < 5 → (s.fibre (8 * l + f)).pos = none ∧ (s.fibre (8 * l + f)).out = false) →
        (∀ f, f < 4 → s.fibWorks (8 * l + f) = true ∧ s.srcStage (fibSource s.variant (8 * l + f)) < 2) →
        Completes (.linkTraining l peer pv pl) s (fun t => t.rd FAB_LINK.STATE l = 2 ∧ t.rd FAB_LINK.WIDTH l = 4 ∧
          t.rd FAB_LINK.PEER l = peer ∧ t.rd FAB_LINK.PEERLINK l = pl % 16 ∧
          (t.link l).full = 4 ∧ (t.link l).queue = [] ∧ ∀ f, f < 4 → t.role (8 * l + f) = 1 ∧ (t.fibre (8 * l + f)).pos = some f))) ∧
    (∀ l us f r, l < s.variant.links → s.rd FAB_LINK.STATE l = 2 ∨ s.rd FAB_LINK.STATE l = 3 → s.rd FAB_CFG.DOZE ≠ 0 →
      s.rd FAB_CFG.DOZE ≤ us → s.carrying l = f :: r → (∀ g ∈ s.carrying l, s.role g ≠ 4) →
      Completes (.linkDozeEntry l us) s (fun t => t.rd FAB_LINK.STATE l = 4 ∧
        t.rd FAB_LINK.WIDTH l = 1 ∧ t.role f = 1 ∧ (∀ g ∈ r, t.role g = 2) ∧ t = { s with csr := t.csr })) ∧
    (∀ l n, l < 16 → s.rd FAB_LINK.STATE l = 4 → (s.link l).full = 4 →
      (∀ f ∈ s.carrying l, s.srcStage (fibSource s.variant f) < 2 ∧ s.role f ≠ 4) →
      (16 ≤ n → Completes (.linkDozeWake l n) s (fun t => t.rd FAB_LINK.STATE l = 2 ∧ t.rd FAB_LINK.WIDTH l = 4 ∧
        ∀ f ∈ s.carrying l, t.role f = 1)) ∧
      (n < 16 → (s.link l).queue.length < 16 → Completes (.linkDozeWake l n) s (fun t => t = s))) ∧
    (∀ v : W64, s.live = false → Completes (.fabQuiesce v) s (fun t => t = s) ∧ Completes (.fabPoolWrite v) s (fun t => t = s)) ∧
    (∀ v : W64, s.live = true →
      (bitB v.toNat 0 = true → Completes (.fabQuiesce v) s (fun t => t.rd FAB_CTL.QUIESCE = 1 ∧ t.win = s.win ∧
        (s.rdB FAB_CTL.QUIESCE = false → t.fab.quiesceAt = some s.now))) ∧
      (bitB v.toNat 0 = false → s.fab.quiesceAt = none → Completes (.fabQuiesce v) s (fun t => t.rd FAB_CTL.QUIESCE = 0 ∧
        OnlyRegs s t [Reg.addr .FAB_CTL 0 0 0])) ∧
      (s.drained = true → bits v.toNat 8 0 + bits v.toNat 17 9 + bits v.toNat 26 18 + bits v.toNat 35 27 ≤ 448 → 16 ≤ bits v.toNat 35 27 →
        Completes (.fabPoolWrite v) s (fun t => t.rd FAB_POOL.RSV0 = bits v.toNat 8 0 ∧ t.rd FAB_POOL.RSV1 = bits v.toNat 17 9 ∧
          t.rd FAB_POOL.RSV2 = bits v.toNat 26 18 ∧ t.rd FAB_POOL.RSV3 = bits v.toNat 35 27 ∧ OnlyRegs s t [Reg.addr .FAB_POOL 0 0 0])) ∧
      (s.drained = false ∨ 448 < bits v.toNat 8 0 + bits v.toNat 17 9 + bits v.toNat 26 18 + bits v.toNat 35 27 ∨ bits v.toNat 35 27 < 16 →
        Completes (.fabPoolWrite v) s (fun t => t.rd FAB_STAT.CFGERR = 1 ∧ OnlyRegs s t [Reg.addr .FAB_STAT 0 0 0])))

/-- The Ethernet ports (R409 to R413, R424). A port's SPEED holds while it is enabled, and LINK shows whether its lanes work. A request of a
READY queue pair with the expected sequence number acts and moves EPSN on; one ahead is answered with a sequence NAK and one behind
acknowledged again; a region that does not allow it, with an access NAK. A READ's data leave in packets of the path MTU. A packet beyond
the path MTU is an invalid request (the model's choice, log entry 89). A SEND whose slot is not free is answered with RNR; its last packet
signals the queue pair's event. A message left open for QPTMO ms moves its queue pair to ERROR, whether the port has a link or not. -/
def Obligations.EthernetPorts : Prop :=
  ∀ (s : State),
    (∀ e (v : W64), s.variant.ethPorts ≤ e ∨ s.live = false → Completes (.ethCfgWrite e v) s (fun t => t = s)) ∧
    (∀ e (v : W64), e < s.variant.ethPorts → s.live = true → Completes (.ethCfgWrite e v) s (fun t => t.rd ETH_CFG.EN e = bits v.toNat 0 0 ∧
      t.rd ETH_CFG.QPTMO e = bits v.toNat 17 2 ∧
      t.rd ETH_CFG.SPEED e = (if s.rd ETH_CFG.EN e = 1 then s.rd ETH_CFG.SPEED e else bits v.toNat 1 1) ∧
      (s.rd ETH_CFG.EN e = 1 → bitB v.toNat 0 = false → t.rd ETH_STAT.LINK e = 0) ∧
      (s.rd ETH_CFG.EN e = 0 → bitB v.toNat 0 = true → t.rd ETH_STAT.LINK e = b2n (t.lanesOk e)) ∧
      OnlyRegs s t [Reg.addr .ETH_CFG e 0 0, Reg.addr .ETH_STAT e 0 0])) ∧
    (∀ e r x, s.memOk = true → s.roceUp e = true → s.qpReady e r.qp = (some x, s) → r.ecn = false → r.psn < 2 ^ 24 →
      (∀ row ∈ [Instr.roceWrite e r, .roceRead e r, .roceSend e r],
        (r.psn + 2 ^ 24 - x.epsn) % 2 ^ 24 ≠ 0 → (r.psn + 2 ^ 24 - x.epsn) % 2 ^ 24 < 2 ^ 23 →
        Completes row s (fun t => t = s.ethSay e (.nakSeq x.dest r.qp x.epsn))) ∧
      (∀ row ∈ [Instr.roceWrite e r, .roceSend e r], 2 ^ 23 ≤ (r.psn + 2 ^ 24 - x.epsn) % 2 ^ 24 →
        Completes row s (fun t => t = s.ethSay e (.ack x.dest r.qp r.psn))) ∧
      (r.psn = x.epsn → r.first = true → r.last = true → (s.qp e r.qp).openAt = none →
        (∀ row ∈ [Instr.roceWrite e r, .roceSend e r], s.frozen = false → x.mtu < r.data.length → Completes row s (fun t =>
          t.fab.ethOut = s.fab.ethOut ++ [(e, .nakInvalid x.dest r.qp r.psn)] ∧ t = { s with fab := t.fab })) ∧
        (s.frozen = false → r.data.length ≤ x.mtu → s.regionOk e r.rkey r.addr r.len true = (false, s) → Completes (.roceWrite e r) s (fun t =>
          t.fab.ethOut = s.fab.ethOut ++ [(e, .nakAccess x.dest r.qp r.psn)] ∧ t.rd ETH_STAT.ACCERR e = min 65535 (s.rd ETH_STAT.ACCERR e + 1) ∧
          t.mem = s.mem)) ∧
        (s.frozen = false → r.data.length ≤ x.mtu → s.regionOk e r.rkey r.addr r.len true = (true, s) → r.data.length = r.len → Completes (.roceWrite e r) s (fun t =>
          t.fab.ethOut = s.fab.ethOut ++ [(e, .ack x.dest r.qp r.psn)] ∧ (t.qp e r.qp).openAt = none ∧
          t.mem.hbm = (s.eWrite r.addr r.data 0 .outside).mem.hbm ∧
          SMap.range t.mem.loft 0 (x.at_ + 8) 8 = leBytes 8 ((x.epsn + 1) % 2 ^ 24) ∧
          ∀ b, ¬(x.at_ + 8 ≤ b ∧ b < x.at_ + 16) → SMap.get t.mem.loft 0 b = SMap.get s.mem.loft 0 b)) ∧
        (s.frozen = true → Completes (.roceWrite e r) s (fun t => t = s)) ∧
        (∀ d n, s.regionOk e r.rkey r.addr r.len false = (true, s) → n = max 1 (ceilDiv r.len (1024 * 2 ^ x.pmtu)) →
          d = (s.qpStep x n).eRead r.addr r.len 0 false .outside → d.ue = false →
          Completes (.roceRead e r) s (fun t => t = { d.st with fab := t.fab } ∧
            t.fab = { d.st.fab with ethOut := d.st.fab.ethOut ++ (List.range n).map (fun k =>
              (e, .readResp x.dest r.qp ((r.psn + k) % 2 ^ 24) ((d.data.drop (1024 * 2 ^ x.pmtu * k)).take (1024 * 2 ^ x.pmtu))
                (decide (k = 0)) (decide (k + 1 = n)))) })) ∧
        (∀ l, s.frozen = false → r.data.length ≤ x.mtu → l = s.eRead (x.ring + 4096 * x.next + 4032) 8 0 false .outside → l.ue = false →
          (ofLe l.data ≠ 0 → Completes (.roceSend e r) s (fun t => t.fab.ethOut = s.fab.ethOut ++ [(e, .nakRnr x.dest r.qp r.psn)] ∧
            t.mem.loft = s.mem.loft)) ∧
          (ofLe l.data = 0 → r.data.length ≤ 4032 → Completes (.roceSend e r) s (fun t =>
            t.fab.ethOut = s.fab.ethOut ++ [(e, .ack x.dest r.qp r.psn)] ∧ (t.qp e r.qp).openAt = none ∧
            t.evt x.event = (s.evt x.event + 1) % 2 ^ 32 ∧
            SMap.range t.mem.loft 0 (x.at_ + 8) 8 = leBytes 8 ((x.epsn + 1) % 2 ^ 24) ∧
            SMap.range t.mem.loft 0 (x.at_ + 40) 8 = leBytes 8 (setBits x.w5 31 16 (if x.next + 1 = x.slots then 0 else x.next + 1))))))) ∧
    (∀ e q t0, (s.qp e q).openAt = some t0 → e < s.variant.ethPorts → s.alive = true → s.flt.egressOff = false →
      s.rdB ROLL_STAT.FENCED = false →
      (s.now < t0 + max 1 (s.rd ETH_CFG.QPTMO e) * 1000000 → Completes (.qpTransportTimeout e q) s (fun t => t = s)) ∧
      (∀ x, s.memOk = true → t0 + max 1 (s.rd ETH_CFG.QPTMO e) * 1000000 ≤ s.now → s.qpReady e q = (some x, s) →
        Completes (.qpTransportTimeout e q) s (fun t => (t.qp e q).openAt = none ∧
          SMap.range t.mem.loft 0 x.at_ 8 = leBytes 8 (setBits x.w0 1 0 2) ∧
          ∀ b, ¬(x.at_ ≤ b ∧ b < x.at_ + 8) → SMap.get t.mem.loft 0 b = SMap.get s.mem.loft 0 b)))

/-! ### Memory controllers and light -/

/-- Memory controllers and bay caches (R295, R303 to R305, R308, R314 to R316, R365, R541). A flush writes the dirty words of a line to its
stack and leaves it clean; an invalidation leaves no line; a bay cache that is disabled holds none. While E-space is frozen none of these
acts, and EN stays as it is (the latter the model's choice, log entry 72). KEEPWAYS above 16 and REF_MIN 3 are not taken. A module that does not run takes no write. A
stack's reading sets its band, a missing one counts as 105 degC, and the trip band stops the stack and trips the module. An
uncorrectable error is recorded, and egress and the halter link stop until the MRST it asks for. -/
def Obligations.MemoryControllers : Prop :=
  ∀ (s : State) (n : Nat), n < s.variant.stacks →
    (s.frozen = true → Completes (.bayFlush n) s (fun t => t = s) ∧ Completes (.bayWbinv n) s (fun t => t = s)) ∧
    (∀ v, s.live = false → ∀ row ∈ [Instr.bayFlush n, .bayWbinv n, .bayCfgWrite n v, .memCfgWrite n v], Completes row s (fun t => t = s)) ∧
    (∀ b, s.live = true → s.frozen = false → s.pwr.stopped = false → (s.stack n).band ≠ 3 → s.memOk = true → (s.stack n).bay = [b] → b.line < 2 ^ 29 →
      b.undef = 0 → Completes (.bayFlush n) s (fun t => (t.stack n).bay = [{ b with dirty := 0 }] ∧ (t.stack n).busy = true ∧ t.mem.loft = s.mem.loft ∧
        ∀ w, w < 16 → bitB b.dirty.toNat w = true → SMap.range t.mem.hbm 0 (lineAddr n b.line + 8 * w) 8 = b.word w)) ∧
    (s.live = true → s.frozen = false → Completes (.bayWbinv n) s (fun t => (t.stack n).bay = [] ∧ (t.stack n).busy = true ∧ t.mem.loft = s.mem.loft)) ∧
    Completes (.bayFlushDone n) s (fun t => t.stack n = { s.stack n with busy := false } ∧ t = { s with mem := t.mem }) ∧
    (∀ v : W64, s.live = true →
      (s.rdB BAY_CFG.EN n = false ∨ bitB v.toNat 0 = true → Completes (.bayCfgWrite n v) s (fun t =>
        t.rd BAY_CFG.EN n = (if s.frozen then s.rd BAY_CFG.EN n else bits v.toNat 0 0) ∧
        t.rd BAY_CFG.KEEPWAYS n = (if bits v.toNat 5 1 ≤ 16 then bits v.toNat 5 1 else s.rd BAY_CFG.KEEPWAYS n) ∧
        OnlyRegs s t [Reg.addr .BAY_CFG n 0 0])) ∧
      (s.frozen = false → s.rdB BAY_CFG.EN n = true → bitB v.toNat 0 = false → Completes (.bayCfgWrite n v) s (fun t => t.rd BAY_CFG.EN n = 0 ∧
        (t.stack n).bay = [] ∧ (t.stack n).busy = true)) ∧
      Completes (.memCfgWrite n v) s (fun t => t.rd MEM_CFG.PAGE n = bits v.toNat 0 0 ∧
        t.rd MEM_CFG.REF_MIN n = (if bits v.toNat 2 1 = 3 then s.rd MEM_CFG.REF_MIN n else bits v.toNat 2 1) ∧
        (t.stack n).band = (s.stack n).band ∧ ((s.stack n).band ≠ 3 → (t.stack n).pendBand =
          (if max (s.stack n).tband (t.rd MEM_CFG.REF_MIN n) = (s.stack n).band then none
           else some (max (s.stack n).tband (t.rd MEM_CFG.REF_MIN n)))))) ∧
    (∀ r k, k = bandOf (s.stack n).tband r → -320 ≤ r → r ≤ 1200 → (s.stack n).tband ≠ 3 → r ≠ (s.stack n).last.getD (r + 1) →
      (k < 3 → Completes (.stackTempSample n (some r)) s (fun t => (t.stack n).tband = k ∧ (t.stack n).band = (s.stack n).band ∧
        t.rd MEM_STAT.TEMP n = wrapN 8 (r / 8) ∧ t.rd MEM_STAT.SENSBAD n = 0 ∧ t.pwr = s.pwr)) ∧
      (k = 3 → s.rdB PWR_STAT.TRIP = false → Completes (.stackTempSample n (some r)) s (fun t => (t.stack n).band = 3 ∧
        t.rd PWR_STAT.TRIP = 1 ∧ t.rd PWR_STAT.TRIPSRC = 3 ∧ t.pwr.stopped = true ∧ t.pwr.trip = true ∧ t.flt.egressOff = true))) ∧
    Completes (.stackTempSample n none) s (fun t => (t.stack n).band = 3 ∧ t.rd MEM_STAT.SENSBAD n = 1 ∧ t.rd MEM_STAT.TEMP n = 105 ∧
      (s.rdB PWR_STAT.TRIP = false → t.rd PWR_STAT.TRIPSRC = 3 ∧ t.pwr.stopped = true)) ∧
    Completes (.refreshBandChange n) s (fun t => t.stack n = { s.stack n with
      band := (s.stack n).pendBand.getD (s.stack n).band
      pendBand := none } ∧ t = { s with mem := t.mem }) ∧
    (∀ blk ag u sy a, (7 < blk → Completes (.uncorrectableError blk ag u sy a) s (fun t => t = s)) ∧
      (blk ≤ 7 → s.rdB FLT_REC0.VALID = false → ag < 16 → u < 65536 → sy < 256 → a < 2 ^ 64 →
        Completes (.uncorrectableError blk ag u sy a) s (fun t => t.rd FLT_REC0.VALID = 1 ∧ t.rd FLT_REC0.CAUSE = 1 ∧
          t.rd FLT_REC0.AGENT = ag ∧ t.rd FLT_REC0.BLOCK = blk ∧ t.rd FLT_REC0.SYNDROME = sy ∧ t.rd FLT_REC0.UNIT = u ∧ t.rd FLT_REC1.ADDR = a ∧
          t.flt.mrstCause = some 1 ∧ t.flt.egressOff = true ∧ t.flt.halterOff = true ∧ t.mem = s.mem ∧ t.cores = s.cores)) ∧
      (blk ≤ 7 → s.rdB FLT_REC0.VALID = true → Completes (.uncorrectableError blk ag u sy a) s (fun t => t.rd FLT_REC0.OVF = 1 ∧
        t.rd FLT_REC0.CAUSE = s.rd FLT_REC0.CAUSE ∧ t.flt.mrstCause = some 1)))

/-- The photonic layer (R469 to R478, R480, R481, R484 to R488). Sources sampled below MIRROR change nothing but their registers; the two paths of
a mirror are compared frame by frame, and the new one is ready once CMP frames, at least 8, have compared equal in a row; a mirror that is
ready takes over from the path of a switched source, and one that serves, from a path that has failed; a ring that has lost lock gives its
lane to the spare line, one past 15 GHz begins to, and its sweep makes it the spare; the feed-forward correction follows the mean
temperature; the broker plans over the channels that work; light on a dark fibre lets its link train; a fibre tuned on both sides is warm,
and one that cannot be tuned has failed. A spare ring that loses lock is swept again and is no spare until then. At the receive end of a
move that the peer starts, the frames are compared likewise, and the switch is confirmed. The model's readings in this: the fade of a
product of samples (log entry 38), the rules of the spare line (log entries 39 and 87), a takeover at 8 aligned frames and the fibre whose
SWITCHES counts (log entry 40), a dark fibre left untuned (log entry 52), and the receive end's markers and maps (log entry 106). -/
def Obligations.Photonics : Prop :=
  ∀ (s : State), s.stby.inStby = false →
    (∀ (cur : List Nat) (fade : Nat → Nat),
      (∀ k, fade k = fadeOf (s.rd PHO_SRC_CAL.CALMON k) (((s.source k).samples ++ [nth cur 0 k]).drop ((s.source k).samples.length + 1 - 16))) →
      (∀ k, k < s.variant.sources → s.rdB PHO_SRC_STAT.PRESENT k = true ∧ stageFor (s.srcStage k) (fade k) ≤ 1) →
      Completes (.fadeSample cur) s (fun t => t.fab = s.fab ∧ t.pho.fibres = s.pho.fibres ∧ t.pho.channels = s.pho.channels ∧
        ∀ k, k < s.variant.sources → t.rd PHO_SRC_STAT.FADE k = fade k ∧ t.rd PHO_SRC_STAT.MONITOR k = nth cur 0 k % 65536 ∧
          t.srcStage k = stageFor (s.srcStage k) (fade k) ∧ bitB (t.rd PHO_STAT.WARN) k = (if stageFor (s.srcStage k) (fade k) = s.srcStage k
            then bitB (s.rd PHO_STAT.WARN) k else decide (stageFor (s.srcStage k) (fade k) = 1)))) ∧
    (∀ f g frames r told failed, (s.fibre f).mirror = some g → fibExists s.variant f = true →
      r = compareAll (max 8 (s.rd PHO_CFG.CMP)) frames ((s.fibre f).cmp, (s.fibre f).ready) →
      ((f < 128 → s.role g ≠ 4) → (128 ≤ f → s.srcStage (fibSource s.variant f) ≠ 4) → Completes (.mirrorReady ⟨f, 0, frames, told, failed⟩) s (fun t =>
        t.fibre f = { s.fibre f with cmp := r.1, ready := r.2 } ∧ t = { s with pho := t.pho } ∧
        ∀ n, 0 < n → frames = List.replicate n .equal → (s.fibre f).cmp = {} → (s.fibre f).ready = false →
          (t.fibre f).ready = decide (max 8 (s.rd PHO_CFG.CMP) ≤ n))) ∧
      (∀ q, f < 128 → g ≠ f → s.role g = 4 → (s.fibre g).pos = some q → 8 ≤ r.1.aligned → Completes (.mirrorReady ⟨f, 0, frames, told, failed⟩) s (fun t =>
        (t.fibre f).pos = some q ∧ (t.fibre g).pos = none ∧ t.role f = 1 ∧ t.role g = 4 ∧ (t.fibre f).mirror = none))) ∧
    (∀ f m rx frames r told failed, fibExists s.variant f = true → (s.fibre f).move rx = some m →
      r = compareAll (max 8 (s.rd PHO_CFG.CMP)) frames (m.cmp, m.ready) →
      Completes (.mirrorReady ⟨f, if rx then 2 else 1, frames, told, failed⟩) s (fun t => t.fibre f = (s.fibre f).setMove rx (some { m with
        cmp := r.1, ready := r.2 }) ∧ t = { s with pho := t.pho }) ∧
      (m.ready = false → Completes (.pathSwitch ⟨f, if rx then 2 else 1⟩) s (fun t => t = s))) ∧
    (∀ f g, (s.fibre f).mirror = some g →
      ((s.fibre f).ready = false → Completes (.pathSwitch ⟨f, 0⟩) s (fun t => t = s)) ∧
      ((s.fibre f).ready = true → f < 128 → g < 128 → g ≠ f → 3 ≤ s.srcStage (fibSource s.variant g) ∨ s.rd FAB_LINK.STATE (f / 8) = 4 →
        Completes (.pathSwitch ⟨f, 0⟩) s (fun t => (t.fibre f).pos = (s.fibre g).pos ∧ (t.fibre f).mirror = none ∧ t.role f = 1 ∧
          (s.role g ≠ 4 → (t.fibre g).pos = (s.fibre f).pos ∧ t.role g = 2) ∧ (s.role g = 4 → (t.fibre g).pos = none ∧ t.role g = 4) ∧
          t.rd PHO_ERR.SWITCHES 0 f = (s.rd PHO_ERR.SWITCHES 0 f + 1) % 2 ^ 32)) ∧
      ((s.fibre f).ready = true → 128 ≤ f → f < 256 → 3 ≤ s.srcStage (fibSource s.variant f) → Completes (.pathSwitch ⟨f, 0⟩) s (fun t =>
        (t.fibre f).map f false = [9, lineLane f] ∧ (t.fibre f).mirror = none ∧ t.role f = s.role f ∧
        t.rd PHO_ERR.SWITCHES 0 f = (s.rd PHO_ERR.SWITCHES 0 f + 1) % 2 ^ 32))) ∧
    (∀ f frames told failed, (s.fibre f).mirror = none → Completes (.mirrorReady ⟨f, 0, frames, told, failed⟩) s (fun t => t = s) ∧
      Completes (.pathSwitch ⟨f, 0⟩) s (fun t => t = s)) ∧
    (∀ f old lane frames r, f < 128 → old < 128 → old ≠ f → old / 8 = f / 8 → fibExists s.variant f = true → (s.fibre f).rxOk = true →
      s.role f ≠ 4 → r = compareAll (max 8 (s.rd PHO_CFG.CMP)) frames ({}, false) →
      Completes (.mirrorReady ⟨f, 3, frames, some (old, lane), false⟩) s (fun t =>
        t.fibre f = { s.fibre f with peer := some ⟨old, lane, r.1, r.2⟩ } ∧ t = { s with pho := t.pho }) ∧
      (8 ≤ r.1.aligned → Completes (.mirrorReady ⟨f, 3, frames, some (old, lane), true⟩) s (fun t => (t.fibre f).peer = none ∧
        (t.fibre f).rxFor = some old ∧ t.fab.ctrl = s.fab.ctrl ++ [(f / 8, "switched", [old, f])]))) ∧
    (∀ f m, f < 256 → (s.fibre f).peer = some m →
      (m.ready = false → Completes (.pathSwitch ⟨f, 3⟩) s (fun t => t = s)) ∧
      (m.ready = true → m.old ≠ f → Completes (.pathSwitch ⟨f, 3⟩) s (fun t => (t.fibre f).peer = none ∧ (t.fibre f).rxFor = some m.old ∧
        t.rd PHO_ERR.SWITCHES 0 f = (s.rd PHO_ERR.SWITCHES 0 f + 1) % 2 ^ 32 ∧
        t.fab.ctrl = s.fab.ctrl ++ [(ctrlLink f, "switched", [m.old, f])])) ∧
      (∀ k, k = (s.fibre f).map f true → m.ready = true → m.old = f → m.lane < 8 → k.contains m.lane = true → k.contains 8 = true →
        Completes (.pathSwitch ⟨f, 3⟩) s (fun t => (t.fibre f).peer = none ∧ nth ((t.fibre f).map f true) 9 (k.idxOf m.lane) = 8 ∧
          nth ((t.fibre f).map f true) 9 (k.idxOf 8) = m.lane ∧ t.rd PHO_FIB_STAT.RXSPW 0 f = 1 ∧ t.rd PHO_FIB_STAT.RXSPL 0 f = m.lane ∧
          t.rd PHO_ERR.SWITCHES 0 f = (s.rd PHO_ERR.SWITCHES 0 f + 1) % 2 ^ 32 ∧
          t.fab.ctrl = s.fab.ctrl ++ [(ctrlLink f, "switched", [f, m.lane])]))) ∧
    (∀ f ring err lock, f < 128 → fibExists s.variant f = true → (s.fibre f).txOk = true → s.role f ≠ 4 →
      ((s.fibre f).map f false).length = 9 → ring < 9 → nth ((s.fibre f).map f false) 9 ring = 8 → (s.fibre f).txMove = none →
      lock = false ∨ 15000 < err →
      Completes (.trackingUpdate f ring false err lock) s (fun t => nth ((t.fibre f).map f false) 0 ring = 9 ∧ t.role f = s.role f ∧
        t.rd PHO_FIB_STAT.LOCKLOST 0 f = (if lock = false ∨ 30000 < err then 1 else s.rd PHO_FIB_STAT.LOCKLOST 0 f) ∧ t.fab = s.fab)) ∧
    (∀ f ring err, Completes (.trackingUpdate f ring false (min err 15000) true) s (fun t => t = s)) ∧
    (∀ f ring m lane, f < 128 → fibExists s.variant f = true → (s.fibre f).txOk = true → s.role f ≠ 4 → m = (s.fibre f).map f false →
      m.length = 9 → ring < 9 → nth m 9 ring = lane → lane < 8 → m.contains 8 = true → (s.fibre f).txMove = none →
      (∀ err lock, lock = false ∨ 30000 < err →
        Completes (.trackingUpdate f ring false err lock) s (fun t => t.rd PHO_FIB_STAT.LOCKLOST 0 f = 1 ∧ t.rd PHO_FIB_STAT.TXSPW 0 f = 1 ∧
          t.rd PHO_FIB_STAT.TXSPL 0 f = lane ∧ nth ((t.fibre f).map f false) 8 ring = 9 ∧
          nth ((t.fibre f).map f false) 8 (m.idxOf 8) = lane ∧ t.role f = s.role f)) ∧
      (∀ err, 15000 < err → err ≤ 30000 → Completes (.trackingUpdate f ring false err true) s (fun t =>
        t.fibre f = { s.fibre f with txMove := some ⟨ring, {}, false⟩ } ∧ t.fab.ctrl = s.fab.ctrl ++ [(f / 8, "mirror", [f, lane])] ∧
        t.csr = s.csr))) ∧
    (∀ f ring, nth ((s.fibre f).map f false) 0 ring = 9 → ring < 9 → fibExists s.variant f = true → f < 128 →
      Completes (.ringRetuneDone f ring false) s (fun t => nth ((t.fibre f).map f false) 0 ring = 8 ∧ t.rd PHO_FIB_STAT.TXSPW 0 f = 0)) ∧
    (∀ b, s.rdB PHO_CFG.FF_EN = false → Completes (.feedForwardUpdate b) s (fun t => t = s)) ∧
    (∀ b l m c, b < s.variant.bdies → s.rdB PHO_CFG.FF_EN = true → l = (s.sensorsOf (12 + b)).filter (fun x => !(s.sensor x).broken) → l ≠ [] →
      (s.sensorsOf (12 + b)).length ≤ 2 * l.length → SMap.has s.pho.ff b = true → s.pho.ff.get (0, 0) b = (m, c) →
      Completes (.feedForwardUpdate b) s (fun t => (t.pho.ff.get (0, 0) b).1 * ((8 * l.length : Nat) : Rat) = (((l.map (fun x => (s.sensor x).last)).sum : Int) : Rat) ∧
        (t.pho.ff.get (0, 0) b).2 = c - ((lane 16 (s.reg .PHO_FF 0 0 0).toNat (s.rd THM_DIE.BAND (12 + b)) : Nat) : Rat) * ((t.pho.ff.get (0, 0) b).1 - m) ∧
        t = { s with pho := t.pho })) ∧
    (∀ d, (s.rdB PHO_CFG.BRK_EN = false ∨ s.rdB PHO_STAT.TUNED = false ∨ s.variant.bdies ≤ 1 → Completes (.brokerPlan d) s (fun t => t = s)) ∧
      (s.rdB PHO_CFG.BRK_EN = true → s.rdB PHO_STAT.TUNED = true → 1 < s.variant.bdies → Completes (.brokerPlan d) s (fun t =>
        t.rd PHO_BRK_STAT.POOL = ((List.range 512).filter (fun k => !s.chanOut k)).length ∧
        t.rd PHO_BRK_STAT.PLANS = (s.rd PHO_BRK_STAT.PLANS + 1) % 2 ^ 32 ∧ (∀ k, k < 512 → s.chanOut k = true → (t.chan k).pair = none) ∧
        t.pho.fibres = s.pho.fibres ∧ t.fab = s.fab))) ∧
    (∀ k, ((s.chan k).moving = none → Completes (.channelMoveComplete k) s (fun t => t.chan k = s.chan k)) ∧
      (∀ q, (s.chan k).moving = some q → Completes (.channelMoveComplete k) s (fun t => t.chan k = { s.chan k with pair := some q, moving := none }))) ∧
    (∀ f, f < 128 → fibExists s.variant f = true → (s.fibre f).lit = false → Completes (.receiveFibreLight f) s (fun t => (t.fibre f).lit = true ∧
      (s.rd FAB_LINK.STATE (f / 8) = 0 → 9 ≤ s.boot.stage → s.boot.stage ≤ 12 → s.rd FAB_NODE.STRAPERR = 0 →
        (s.link (f / 8)).miswired = false → (∀ g, g < 5 → f ≠ 8 * (f / 8) + g → s.role (8 * (f / 8) + g) = 4 ∨
          (s.fibre (8 * (f / 8) + g)).lit = true) → t.rd FAB_LINK.STATE (f / 8) = 1))) ∧
    (∀ f ver pw, f < 128 → fibExists s.variant f = true → s.role f ≠ 4 →
      (∀ tu, (s.fibre f).txOk = false → s.tunesNow f false = true → s.rd PHO_SRC_STAT.FADE (fibSource s.variant f) ≤ 300 →
        s.tune f false ver (inReach pw) = some tu → Completes (.photonicTuning f false ver pw) s (fun t => (t.fibre f).txOk = true ∧
          t.rd PHO_RING_ASSIGN.TXSHIFT 0 f = tu.shift % 16 ∧ ((s.fibre f).rxOk = true → t.role f = 2) ∧
          ((s.fibre f).rxOk = false → t.role f = s.role f))) ∧
      (∀ tu, (s.fibre f).rxOk = false → (s.fibre f).lit = true → s.tunesNow f true = true →
        s.tune f true ver (inReach pw) = some tu → Completes (.photonicTuning f true ver pw) s (fun t => (t.fibre f).rxOk = true ∧
          t.rd PHO_RING_ASSIGN.RXSHIFT 0 f = tu.shift % 16 ∧ ((s.fibre f).txOk = true → t.role f = 2) ∧
          ((s.fibre f).txOk = false → t.role f = s.role f))) ∧
      ((s.fibre f).rxOk = false → (s.fibre f).lit = false → Completes (.photonicTuning f true ver pw) s (fun t => t = s)) ∧
      ((s.fibre f).txOk = false → s.tunesNow f false = true → s.rd PHO_SRC_STAT.FADE (fibSource s.variant f) ≤ 300 →
        s.tune f false ver (inReach pw) = none → s.mirrorOf (f / 8) f = none → Completes (.photonicTuning f false ver pw) s (fun t =>
          t.role f = 4 ∧ (t.fibre f).pos = none ∧ (t.fibre f).txOk = false)))

/-! ### Die interfaces -/

/-- The die interfaces (R493, R495 to R499, R503 to R505, R508) and the test port. At boot a trained site's capability block is recorded; a
site that does not train, or does not exchange its block, within 2 ms is absent and stays in DRST; a block that has changed is reported, and
keeps the die in DRST; an unchanged one releases the die, with its cores empty and its timebase copy loaded. DRST takes the die's cores back
to their reset state; of a die that is in DRST it starts the bring-up anew, as the loss of its lock does. HOLD and LOOP are written as R505
and R508 say; a port that leaves its loopback is trained anew. The errors that a loopback has counted by the time HOLD is written are free
(log entry 90). A flit that fails after eight replays is an uncorrectable error. STATE 1, 2 and 3 of a site that stays in DRST, and a LOOP
judged on the state before its write, are the model's readings (log entry 47), and so is loading the timebase copy (log entry 92); codes of
the test port that the spec does not list act as BYPASS from outside the spec (PRESUMED, log entry 8). -/
def Obligations.DieInterfaces : Prop :=
  ∀ (s : State) (d : Nat), d < s.variant.cdies →
    (s.canBringUp d = false → ∀ tr cap, Completes (.dieBringup d tr cap) s (fun t => t = s)) ∧
    (s.canBringUp d = true →
      (∀ tr cap st, (tr = false ∧ st = 1) ∨ (tr = true ∧ (cap = none ∨ (s.die d).upAt + 2000000 < s.now) ∧ st = 2) → Completes (.dieBringup d tr cap) s (fun t =>
        bitB (t.rd GLB_DIEMAP.PRESENT) d = false ∧ t.rd DPORT_STAT.STATE d = st ∧ t.die d = { s.die d with stays := true } ∧
        t.canBringUp d = false ∧ OnlyRegs { s with dies := t.dies } t [Reg.addr .GLB_DIEMAP 0 0 0, Reg.addr .DPORT_STAT d 0 0])) ∧
      (∀ k, s.now ≤ (s.die d).upAt + 2000000 → (s.die d).boot = none → s.boot.stage < 6 → Completes (.dieBringup d true (some k)) s (fun t => (t.die d).boot = some k ∧
        bitB (t.rd GLB_DIEMAP.PRESENT) d = true ∧ bitB (t.rd GLB_DIEMAP.GUEST) d = capGuest k ∧ t.rd DPORT_STAT.STATE d = 3 ∧
        t.rd DPORT_CAP.VENDOR d = k.vendor % 65536 ∧ t.rd DPORT_CAP.STACK d = k.stack % 4 ∧ t.rd DPORT_CAP.SVC_E d = b2n k.svcE ∧
        t.rd DPORT_CAP.SVC_EVT d = b2n k.svcEvt ∧ t.rd DPORT_CAP.EPWIN d = k.epwin % 16 ∧
        bitB (t.rd GLB_DIEMAP.RELEASED) d = bitB (s.rd GLB_DIEMAP.RELEASED) d)) ∧
      (∀ k k0, s.now ≤ (s.die d).upAt + 2000000 → (s.die d).boot = some k0 → k ≠ k0 → Completes (.dieBringup d true (some k)) s (fun t => t.rd DPORT_STAT.CHANGED d = 1 ∧
        t.rd DPORT_STAT.STATE d = 3 ∧ t.die d = { s.die d with stays := true } ∧ t.canBringUp d = false ∧
        OnlyRegs { s with dies := t.dies } t [Reg.addr .DPORT_STAT d 0 0])) ∧
      (∀ k, s.now ≤ (s.die d).upAt + 2000000 → (s.die d).boot = some k → 6 ≤ s.boot.stage → capHeld k = false → Completes (.dieBringup d true (some k)) s (fun t =>
        bitB (t.rd GLB_DIEMAP.RELEASED) d = true ∧ t.rd DPORT_STAT.STATE d = 4 ∧ (t.die d).inDrst = false ∧
        t.skew.get 0 (16 + d) = s.skew.get 0 (d / 3) ∧ (∀ c, c / 16 = d → t.core c = {})))) ∧
    ((s.die d).inDrst = true →
      ((s.die d).stays = false ∨ s.live = false → Completes (.dportDrst d) s (fun t => t = s)) ∧
      ((s.die d).stays = true → s.live = true → Completes (.dportDrst d) s (fun t =>
        t.die d = { s.die d with stays := false, upAt := s.now } ∧
        t.rd DPORT_STAT.STATE d = 0 ∧ OnlyRegs { s with dies := t.dies } t [Reg.addr .DPORT_STAT d 0 0])) ∧
      (s.rd DPORT_CTL.LOOP d = 0 → Completes (.dieLockLoss d) s (fun t => t.rd DPORT_STAT.NOLOCK d = 1 ∧ t.rd DPORT_STAT.STATE d = 0 ∧
        t.die d = { s.die d with stays := false, upAt := s.now })) ∧
      (s.rd DPORT_CTL.LOOP d ≠ 0 → Completes (.dieLockLoss d) s (fun t => t.rd DPORT_STAT.NOLOCK d = 1 ∧ t.dies = s.dies ∧
        t.rd DPORT_STAT.STATE d = s.rd DPORT_STAT.STATE d))) ∧
    (s.live = false → ∀ v : W64, ∀ row ∈ [Instr.dportDrst d, .dportHoldWrite d v, .dportLoopWrite d v 5], Completes row s (fun t => t = s)) ∧
    ((s.die d).inDrst = false → s.fallow d = true → s.live = true → Completes (.dportDrst d) s (fun t => t.die d = { s.die d with drstPend := true } ∧
      t = { s with dies := t.dies })) ∧
    ((s.die d).inDrst = false → s.fallow d = false → s.que.copies = [] →
      (s.live = true → Completes (.dportDrst d) s (fun t => bitB (t.rd GLB_DIEMAP.RELEASED) d = false ∧ (t.die d).inDrst = true ∧ (t.die d).waits = [] ∧
        (∀ c, c / 16 = d → t.core c = {}) ∧ (∀ c, c / 16 ≠ d → (t.core c).spad = (s.core c).spad) ∧ t.mem = s.mem)) ∧
      Completes (.dieLockLoss d) s (fun t => t.rd DPORT_STAT.NOLOCK d = 1 ∧ (t.die d).inDrst = true ∧ (∀ c, c / 16 = d → t.core c = {}))) ∧
    (∀ (v : W64), ∀ row ∈ [Instr.dportHoldWrite d v, .dportLoopWrite d v 5], bitB v.toNat 0 = false → s.live = true →
      (bits v.toNat 3 2 = 0 → s.rd DPORT_CTL.LOOP d = 0 → Completes row s (fun t => t.rd DPORT_CTL.HOLD d = bits v.toNat 1 1 ∧
        t.rd DPORT_CTL.LOOP d = 0 ∧ t.die d = (if s.rd DPORT_CTL.HOLD d = 1 ∧ bitB v.toNat 1 = false ∧ (s.die d).inDrst = true then
          { s.die d with upAt := s.now } else s.die d) ∧ OnlyRegs { s with dies := t.dies } t [Reg.addr .DPORT_CTL d 0 0])) ∧
      (bits v.toNat 3 2 = 0 → s.rd DPORT_CTL.LOOP d ≠ 0 → Completes row s (fun t => t.rd DPORT_CTL.LOOP d = 0 ∧ t.rd DPORT_STAT.STATE d = 0 ∧
        (t.die d).stays = false ∧ (t.die d).upAt = s.now ∧
        (row = .dportLoopWrite d v 5 → t.rd DPORT_ERR.LBERR d = min (2 ^ 32 - 1) (s.rd DPORT_ERR.LBERR d + 5)))) ∧
      (bits v.toNat 3 2 = 1 ∨ bits v.toNat 3 2 = 2 → s.dieReleased d = false → s.rdB DPORT_CTL.HOLD d = true →
        Completes row s (fun t => t.rd DPORT_CTL.LOOP d = bits v.toNat 3 2 ∧ t.rd DPORT_STAT.STATE d = 5 ∧ t.rd DPORT_CTL.HOLD d = bits v.toNat 1 1)) ∧
      (bits v.toNat 3 2 ≠ 0 → bits v.toNat 3 2 = 3 ∨ s.dieReleased d = true ∨ s.rdB DPORT_CTL.HOLD d = false →
        Completes row s (fun t => t.rd DPORT_STAT.CFGERR d = 1 ∧ t.rd DPORT_CTL.LOOP d = s.rd DPORT_CTL.LOOP d))) ∧
    (∀ n, (n ≤ 8 → Completes (.flitReplay d n) s (fun t => t.rd DPORT_ERR.REPLAY d = min 65535 (s.rd DPORT_ERR.REPLAY d + n) ∧
        OnlyRegs s t [Reg.addr .DPORT_ERR d 0 0])) ∧
      (8 < n → Completes (.flitReplay d n) s (fun t => t.flt.mrstCause = some 2 ∧ t.flt.egressOff = true ∧ t.flt.halterOff = true ∧
        (s.rdB FLT_REC0.VALID = false → t.rd FLT_REC0.CAUSE = 2 ∧ t.rd FLT_REC0.BLOCK = 7 ∧ t.rd FLT_REC0.UNIT = d)))) ∧
    Completes (.marginUpdate d) s (fun t => t.rd DPORT_STAT.BAND d = s.rd THM_DIE.BAND (12 + d / 3) ∧ OnlyRegs s t [Reg.addr .DPORT_STAT d 0 0]) ∧
    (Completes (.tapInstruction .extest) s (fun t => t = { s with stby := { s.stby with tap := .extest } }) ∧
      ∀ i, Completes (.tapInstruction (.other i)) s (fun t => t = { s with stby := { s.stby with tap := .bypass } }))

/-- Guest dies (R500 to R502, R520, R521, R524). A guest within its services reaches local E-space, adds to an event counter and registers
waits, which are answered once met; an atomic operation, another space and what else is outside them is refused and counted. Its temperature
stands for its die; at the trip temperature, or where it has not reported for 100 us, its site is held. Its domains switch with the module. A
report out of a sensor's range breaks its sensor, which then reads the trip temperature: the site is held, and, its die having no other
sensor, the module trips (the model's reading, log entry 28). -/
def Obligations.GuestDies : Prop :=
  ∀ (s : State) (d : Nat), s.guestRuns d = true →
    (∀ sp at_ wr a n h data, sp ≠ 2 ∨ at_ = true ∨ s.rdB DPORT_CAP.SVC_E d = false ∨ s.variant.resBase < a + n ∨ 2 < h →
      Completes (.guestEAccess d ⟨sp, at_, wr⟩ a n h data) s (fun t => t.rd DPORT_ERR.REFUSED d = min 65535 (s.rd DPORT_ERR.REFUSED d + 1) ∧ (t.die d).out = (s.die d).out ++ [.error] ∧ t.mem = s.mem)) ∧
    (∀ a n h data, s.rdB DPORT_CAP.SVC_E d = true → a + n ≤ s.variant.resBase → h ≤ 2 →
      Completes (.guestEAccess d ⟨2, false, true⟩ a n h data) s (fun t => (t.die d).out = (s.die d).out ++ [.written] ∧
        t.mem = (s.eWrite a (data.take n) h .outside).mem ∧ t.cores = s.cores) ∧
      ((s.eRead a n h false .outside).ue = false → Completes (.guestEAccess d ⟨2, false, false⟩ a n h data) s (fun t =>
        (t.die d).out = (s.die d).out ++ [.read (s.eRead a n h false .outside).data] ∧ t.cores = s.cores))) ∧
    (∀ e v, e < 65536 →
      (s.rdB DPORT_CAP.SVC_EVT d = true → Completes (.guestSig d e v) s (fun t => t.evt e = (s.evt e + v.toNat) % 2 ^ 32 ∧
        t = { s with csr := t.csr, que := t.que, steps := t.steps } ∧ RegsBut s t [Reg.addr .QUE_EVT 0 e 0])) ∧
      (s.rdB DPORT_CAP.SVC_EVT d = true → (s.die d).waits.length < 16 → Completes (.guestRegisterWait d e v) s (fun t =>
        (t.die d).waits = (s.die d).waits ++ [(e, v.toNat)] ∧ t = { s with dies := t.dies })) ∧
      (s.rdB DPORT_CAP.SVC_EVT d = false → ∀ row ∈ [Instr.guestSig d e v, .guestRegisterWait d e v], Completes row s (fun t =>
        t.rd DPORT_ERR.REFUSED d = min 65535 (s.rd DPORT_ERR.REFUSED d + 1) ∧ (t.die d).out = (s.die d).out ++ [.error] ∧
        t.evt e = s.evt e ∧ (t.die d).waits = (s.die d).waits)) ∧
      ((s.die d).waits = [(e, v.toNat)] →
        (v.toNat ≤ s.evt e → Completes (.guestWaitAnswer d e v) s (fun t => (t.die d).waits = [] ∧
          (t.die d).out = (s.die d).out ++ [.waitMet e v.toNat] ∧ t = { s with dies := t.dies })) ∧
        (s.evt e < v.toNat → Completes (.guestWaitAnswer d e v) s (fun t => t = s)))) ∧
    (∀ r : Int, r < 920 → (s.sensor (48 * d)).broken = false →
      (-320 ≤ r → Completes (.guestTempReport d r) s (fun t => (t.sensor (48 * d)).last = r ∧ t.rd THM_SENS.TEMP (48 * d) = tempCode r ∧
        (t.die d).reportAt = s.now ∧ t.dieReleased d = true)) ∧
      (r < -320 → s.rdB PWR_STAT.TRIP = false → Completes (.guestTempReport d r) s (fun t => (t.sensor (48 * d)).broken = true ∧
        t.rd THM_SENS.BROKEN (48 * d) = 1 ∧ t.rd THM_SENS.WHY (48 * d) = 1 ∧ t.rd THM_SENS.TEMP (48 * d) = 920 ∧
        t.rd DPORT_CTL.HOLD d = 1 ∧ t.rd DPORT_STAT.THERMF d = 1 ∧ t.rd PWR_STAT.TRIP = 1 ∧ t.pwr.stopped = true ∧ t.pwr.trip = true))) ∧
    (∀ r : Int, (s.sensor (48 * d)).broken = true → s.rdB PWR_STAT.TRIP = false → Completes (.guestTempReport d r) s (fun t =>
      t.rd DPORT_CTL.HOLD d = 1 ∧ t.rd DPORT_STAT.THERMF d = 1 ∧ t.rd PWR_STAT.TRIP = 1 ∧ t.pwr.stopped = true ∧
      t.sensor (48 * d) = s.sensor (48 * d))) ∧
    (∀ c, c / 16 = d → domExists s.variant c = true → s.pwr.up = true → s.stby.inStby = false → s.domState c = 1) ∧
    (s.fallow d = false → (s.die d).inDrst = false → s.que.copies = [] →
      (∀ r : Int, 920 ≤ r → Completes (.guestTempReport d r) s (fun t => t.rd DPORT_CTL.HOLD d = 1 ∧ t.rd DPORT_STAT.THERMF d = 1 ∧
        (t.die d).inDrst = true ∧ t.dieReleased d = false)) ∧
      ((s.die d).reportAt + 100000 ≤ s.now → Completes (.guestReportTimeout d) s (fun t =>
        ((s.sensor (48 * d)).broken = false → (t.sensor (48 * d)).last = 920) ∧ t.rd DPORT_CTL.HOLD d = 1 ∧ t.rd DPORT_STAT.THERMF d = 1 ∧ (t.die d).inDrst = true))) ∧
    (s.now < (s.die d).reportAt + 100000 → Completes (.guestReportTimeout d) s (fun t => t = s))

/-! ### Power and heat -/

/-- Power and heat (R511, R512, R515 to R526, R530 to R532). The input's state and its measurements are shown, and outside 46 to 62 V the
converters stop; a second converter that fails trips the module. A user offset beyond 25 mV is not taken. A droop detector that
sees less than its island's setpoint less DMARGIN stretches the island's clock until the last one clears; 1 % of stretched cycles makes it reactive for 100 us. A regulator moves by at most 4 mV
towards the setpoint of its level; a hint takes effect at its time, and a level lapses after 2 ms. A sensor at 115 degC trips the module. A
TEMP below 0 degC is a two's complement number, which R537 does not say (the model's reading, log entry 28). -/
def Obligations.PowerAndHeat : Prop :=
  ∀ (s : State),
    (∀ mv, Completes (.inputVoltageChange mv) s (fun t => t.pwr.vin = mv ∧ t.pwr.up = (s.pwr.up && decide (46000 ≤ mv) && decide (mv ≤ 62000)) ∧
      t.rd PWR_STAT.INLOW = b2n (decide (46000 ≤ mv) && decide (mv < 48000)) ∧
      t.rd PWR_STAT.INHIGH = b2n (decide (60000 < mv) && decide (mv ≤ 62000)) ∧ t.mem = s.mem ∧ t.cores = s.cores)) ∧
    (∀ mv da w, Completes (.pwrInReport mv da w) s (fun t => t.rd PWR_IN.VIN = mv % 65536 ∧ t.rd PWR_IN.IIN = da % 65536 ∧
      t.rd PWR_IN.PIN = w % 65536 ∧ t.pwr = { s.pwr with pmbus := (mv, da, w) } ∧
      OnlyRegs { s with pwr := t.pwr } t [Reg.addr .PWR_IN 0 0 0])) ∧
    (∀ k, k < converters s.variant →
      (bitB (s.rd PWR_STAT.CONVFAIL) k = true → Completes (.converterFail k) s (fun t => t = s)) ∧
      (s.rd PWR_STAT.CONVFAIL = 0 → Completes (.converterFail k) s (fun t => t.rd PWR_STAT.CONVFAIL = 2 ^ k ∧ t.pwr = s.pwr ∧ t.flt = s.flt)) ∧
      (∀ j, j ≠ k → j < 8 → s.rd PWR_STAT.CONVFAIL = 2 ^ j → s.rdB PWR_STAT.TRIP = false → Completes (.converterFail k) s (fun t =>
        t.rd PWR_STAT.CONVFAIL = 2 ^ j + 2 ^ k ∧ t.rd PWR_STAT.TRIP = 1 ∧ t.rd PWR_STAT.TRIPSRC = 4 ∧ t.pwr.stopped = true ∧
        t.pwr.trip = true ∧ t.flt.halterOff = true ∧ t.flt.egressOff = true))) ∧
    (∀ i (v : W64), s.live = false → ∀ row ∈ [Instr.uofsWrite i v, .ptWrite i v], Completes row s (fun t => t = s)) ∧
    (∀ i (v : W64), domExists s.variant i = true → s.live = true → ∀ row ∈ [Instr.uofsWrite i v, .ptWrite i v],
      (-25 ≤ sext 8 (bits v.toNat 15 8) → sext 8 (bits v.toNat 15 8) ≤ 25 → Completes row s (fun t =>
        t.rd PWR_DOM_CTL.UOFS i = bits v.toNat 15 8 ∧ (i < 192 → t.rd PWR_DOM_CTL.PT i = bits v.toNat 2 0) ∧
        OnlyRegs s t [Reg.addr .PWR_DOM_CTL i 0 0])) ∧
      (sext 8 (bits v.toNat 15 8) < -25 ∨ 25 < sext 8 (bits v.toNat 15 8) → Completes row s (fun t =>
        t.rd PWR_DOM_CTL.UOFS i = s.rd PWR_DOM_CTL.UOFS i ∧ t.rd PWR_STAT.CFGERR = 1 ∧ (i < 192 → t.rd PWR_DOM_CTL.PT i = bits v.toNat 2 0) ∧
        OnlyRegs s t [Reg.addr .PWR_DOM_CTL i 0 0, Reg.addr .PWR_STAT 0 0 0]))) ∧
    (∀ i k, domExists s.variant i = true →
      (∀ mv, k < detectors i → (s.dom i).tripped.contains k = false → s.domShown i ≠ 0 →
        mv + min 60 (max 10 (s.rd PWR_CFG.DMARGIN)) < (s.dom i).setp → Completes (.droopTrip i ⟨k, mv⟩) s (fun t =>
        t.dom i = { s.dom i with tripped := (s.dom i).tripped ++ [k], stretched := true } ∧
        t.rd PWR_DROOP.TRIPS i = min (2 ^ 32 - 1) (s.rd PWR_DROOP.TRIPS i + 1) ∧ OnlyRegs { s with pwr := t.pwr } t [Reg.addr .PWR_DROOP i 0 0])) ∧
      (∀ mv, (s.dom i).tripped.contains k = true ∨ s.domShown i = 0 ∨ (s.dom i).setp ≤ mv + min 60 (max 10 (s.rd PWR_CFG.DMARGIN)) →
        Completes (.droopTrip i ⟨k, mv⟩) s (fun t => t = s)) ∧
      ((s.dom i).tripped = [k] → Completes (.droopRelease i k) s (fun t => t.dom i = { s.dom i with tripped := [], stretched := false } ∧
        t = { s with pwr := t.pwr })) ∧
      (∀ n (k : WindowCounts) l, l = (if i < s.variant.cores then cntRegs i else []) →
        (s.rdB PWR_CFG.REACT_EN = true → n < k.stretched * 100 → Completes (.reactWindow i n k) s (fun t =>
          t.dom i = { s.dom i with reactUntil := some (s.now + 100000) } ∧ OnlyRegs { s with pwr := t.pwr } t l)) ∧
        (s.rdB PWR_CFG.REACT_EN = false ∨ k.stretched * 100 ≤ n → Completes (.reactWindow i n k) s (fun t => t.pwr = s.pwr ∧
          OnlyRegs s t l))) ∧
      (s.domState i = 0 → Completes (.regulatorUpdate i) s (fun t => t.dom i = { s.dom i with
        setp := 0, hint := none, ramp := false, level := 0, on := false })) ∧
      (s.domState i ≠ 0 → (s.dom i).hint = none → (s.dom i).level = 0 → s.reactive i = false → Completes (.regulatorUpdate i) s (fun t =>
        (t.dom i).setp = slew (s.dom i).setp (s.vlevel i (s.wantPt i) 0) ∧ (t.dom i).level = 0 ∧ (t.dom i).hint = none ∧
        (t.dom i).on = true ∧ t = { s with pwr := t.pwr })) ∧
      (∀ l w, s.domState i ≠ 0 → (s.dom i).hint = some (l, w) → w ≤ s.now → s.now < w + 2000000 → Completes (.regulatorUpdate i) s (fun t =>
        (t.dom i).level = l ∧ (t.dom i).hint = none ∧ (t.dom i).since = w))) ∧
    (∀ i, ((s.dom i).level = 0 ∨ s.now < (s.dom i).since + 2000000 → Completes (.hintLapse i) s (fun t => t.dom i = s.dom i)) ∧
      (0 < (s.dom i).level → (s.dom i).since + 2000000 ≤ s.now → Completes (.hintLapse i) s (fun t => t.dom i = { s.dom i with level := 0 } ∧
        t = { s with pwr := t.pwr }))) ∧
    (∀ (r : Nat → Int), s.rd GLB_DIEMAP.GUEST = 0 →
      (∀ k ∈ s.thermDies, ∀ x ∈ s.sensorsOf k, (s.sensor x).broken = false ∧ (s.sensor x).same < 63 ∧ -320 ≤ r x ∧ r x ≤ 1200) →
      Completes (.thermalSample ((List.range 704).map (fun x => some (r x)))) s (fun t =>
        (∀ k ∈ s.thermDies, ∀ x ∈ s.sensorsOf k, t.rd THM_SENS.TEMP x = tempCode (r x) ∧ t.sensor x =
          { s.sensor x with last := r x, same := if r x = (s.sensor x).last then (s.sensor x).same + 1 else 1 }) ∧
        ((∀ k ∈ s.thermDies, ∀ x ∈ s.sensorsOf k, r x < 920) → t.pwr.stopped = s.pwr.stopped ∧ t.flt = s.flt ∧
          t.rd PWR_STAT.TRIP = s.rd PWR_STAT.TRIP) ∧
        ((∃ k ∈ s.thermDies, ∃ x ∈ s.sensorsOf k, 920 ≤ r x) → s.rdB PWR_STAT.TRIP = false → t.pwr.stopped = true ∧ t.pwr.trip = true ∧
          t.rd PWR_STAT.TRIP = 1 ∧ t.rd PWR_STAT.TRIPSRC = 1))) ∧
    (∀ x dev, (dev ≤ 2000 → Completes (.sensorSelfCheck x dev) s (fun t => t = s)) ∧
      (2000 < dev → sensorDie x ∈ s.thermDies → x ∈ s.sensorsOf (sensorDie x) → 12 ≤ sensorDie x → (s.sensor x).broken = false →
        Completes (.sensorSelfCheck x dev) s (fun t => (t.sensor x).broken = true ∧ t.rd THM_SENS.BROKEN x = 1 ∧ t.rd THM_SENS.WHY x = 3 ∧
          t.rd THM_SENS.TEMP x = 920)))

/-! ### The roll call -/

/-- A message of type `aux` comes in over link `link`, whose receive pool has a slot for it. -/
def Comes (s : State) (p : Packet) (link aux : Nat) : Prop :=
  p.typ = 10 ∧ p.aux % 256 = aux ∧ s.rollRuns = true ∧ s.linkUp link = true ∧ (s.slotFor link p.vc).isSome = true

/-- A flooded message that this module takes: of its type, over a link that carries packets, well formed, whole, and not seen before. -/
def Floods (s : State) (p : Packet) (link aux : Nat) : Prop :=
  Comes s p link aux ∧ badPacket p = false ∧ p.crcOk = true ∧ s.roll.seen.contains (aux, p.src, payloadKey p) = false

/-- A message that was delivered from node `n`, of this type and about this, is whole. -/
def CtrlGood (s : State) (n aux addr : Nat) : Prop := ∀ p, s.fab.rx.find? (ctrlFrom n aux addr) = some p → p.crcOk = true

/-- Nothing is here that another exclusion could turn into a verdict: no vote, no DOMAIN message, no suspicion. -/
def Quiet (s : State) : Prop := s.roll.votes = [] ∧ s.roll.domains = [] ∧ ∀ n, s.nodeState n ≠ 2

/-- The roll call (R406, R408, R548 to R551, R555, R556). Heartbeats go to every ALIVE neighbour; one that arrives clears a suspicion, and
silence for SUSPECT us raises one at the tick; new timings are in force from the next tick on (R368). A coordinator holds votes for 1 ms, and
a majority of the ALIVE neighbours of a node makes a verdict, which excludes it. A VERDICT is acted on once; it excludes the ALIVE members of
the domain that it names. Two members' DOMAIN messages exclude their domain. A JOIN is admitted from a node that is ABSENT, or that comes
back with a higher BOOT; an older one of an EXCLUDED node is discarded and counted. The first ADMIT gives the joiner every other node's
state. A message that is malformed, or whose end-to-end CRC fails, is counted and not acted on; one that came in on a link gives its slot
back. The model's readings in this: two messages are the same by type, source and payload, where R549 names type and payload alone (log
entry 95); a SUSPECT node counts as ALIVE, KIND 4 to 7 names the node, and the own alarm is one of two messages (log entry 44); verdicts that
follow from one another follow at once (log entry 107). -/
def Obligations.RollCall : Prop :=
  ∀ (s : State),
    (s.rollRuns = true → Completes .heartbeatSend s (fun t => t.fab.local_ = s.fab.local_ ++
      (s.aliveNbrs s.node).map (fun n => (s.ctrlPacket 1 n 0 []).sealed) ∧ t = { s with fab := t.fab })) ∧
    (s.rollRuns = false → ∀ row ∈ [Instr.heartbeatSend, .rollTick, .fenceSelf], Completes row s (fun t => t = s)) ∧
    (∀ n aux addr row, (row, aux, addr) ∈ [(Instr.heartbeat n, 1, 0), (.vote n addr, 2, addr), (.clear n addr, 3, addr)] →
      s.rollRuns = true → s.excluded n = false → ¬CtrlGood s n aux addr → Completes row s (fun t => t.roll = s.roll ∧
        t.rd FAB_DROP2.E2ECRC = min 65535 (s.rd FAB_DROP2.E2ECRC + 1) ∧ OnlyRegs { s with fab := t.fab } t [Reg.addr .FAB_DROP2 0 0 0])) ∧
    (∀ n, n < 512 → s.rollRuns = true → CtrlGood s n 1 0 →
      (s.excluded n = true → Completes (.heartbeat n) s (fun t => t.roll = s.roll ∧ t.rd ROLL_STAT.XRX = min ROLL_STAT.XRX.top
        (s.rd ROLL_STAT.XRX + 1) ∧ t.nodeState n = 3)) ∧
      (neighbour s.node n = true → s.nodeState n = 1 → Completes (.heartbeat n) s (fun t => (t.rnode n).last = s.now ∧
        t = { s with roll := t.roll, fab := t.fab })) ∧
      (neighbour s.node n = true → s.nodeState n = 2 → Completes (.heartbeat n) s (fun t => (t.rnode n).last = s.now ∧ t.nodeState n = 1 ∧
        ((s.rnode n).coord ≠ s.node → t.fab.local_ = s.fab.local_ ++ [(s.ctrlPacket 3 (s.rnode n).coord n []).sealed]))) ∧
      ((neighbour s.node n = false ∧ s.excluded n = false) ∨ s.nodeState n = 0 → Completes (.heartbeat n) s (fun t => t.roll = s.roll ∧
        t.csr = s.csr))) ∧
    (s.rollRuns = true →
      ((∀ n ∈ s.aliveNbrs s.node, s.nodeState n = 1 ∧ s.now < (s.rnode n).last + s.rd ROLL_CFG.SUSPECT * 1000) →
        Completes .rollTick s (fun t => t = { s with roll := { s.roll with cfg := none } })) ∧
      (∀ n ∈ s.aliveNbrs s.node, s.nodeState n = 1 → (s.rnode n).last + s.rd ROLL_CFG.SUSPECT * 1000 ≤ s.now →
        Completes .rollTick s (fun t => t.nodeState n = 2 ∨ t.nodeState n = 3))) ∧
    (∀ v n r, v < 512 → n < 512 → s.rollRuns = true → s.excluded v = false → CtrlGood s v 2 n → CtrlGood s v 3 n →
      r = { s.roll with votes := s.roll.votes.filter (fun x => !(x.suspect == n && x.voter == v)) ++ [⟨n, v, s.now⟩] } →
      (s.nodeState n = 3 ∨ { s with roll := r }.voteCount n < (s.aliveNbrs n).length / 2 + 1 → Completes (.vote v n) s (fun t =>
        t = { s with roll := r, fab := t.fab })) ∧
      (s.nodeState n ≠ 3 → (s.aliveNbrs n).length / 2 + 1 ≤ { s with roll := r }.voteCount n → Completes (.vote v n) s (fun t =>
        t.nodeState n = 3 ∧ ∃ l, t.roll.seen = s.roll.seen ++ (4, s.node, n + s.node * 65536) :: l)) ∧
      Completes (.clear v n) s (fun t => t.roll = { s.roll with
        votes := s.roll.votes.filter (fun x => !(x.suspect == n && x.voter == v)) } ∧ t = { s with roll := t.roll, fab := t.fab })) ∧
    Completes .voteExpiry s (fun t => t = { s with roll := { s.roll with
      votes := s.roll.votes.filter (fun x => decide (s.now < x.at_ + 1000000)) } }) ∧
    (∀ p l aux row, (row, aux) ∈ [(Instr.verdict p l, 4), (.domain p l, 5), (.join p l, 6)] →
      (s.slotFor l p.vc = none → Completes row s (fun t => t = s)) ∧
      (∀ sh, Comes s p l aux → s.slotFor l p.vc = some sh → (s.link l).used.length = 5 → p.vc < 4 →
        (badPacket p = true → Completes row s (fun t => t.rd FAB_DROP.BADPKT = min 65535 (s.rd FAB_DROP.BADPKT + 1) ∧
          SlotBack s t l p.vc sh ∧ t.roll = s.roll ∧ t.fab.tx = s.fab.tx ∧ OnlyRegs { s with fab := t.fab } t [Reg.addr .FAB_DROP 0 0 0])) ∧
        (badPacket p = false → s.excluded p.src = false → p.crcOk = false → Completes row s (fun t =>
          t.rd FAB_DROP2.E2ECRC = min 65535 (s.rd FAB_DROP2.E2ECRC + 1) ∧ SlotBack s t l p.vc sh ∧ t.roll = s.roll ∧ t.fab.tx = s.fab.tx ∧
          OnlyRegs { s with fab := t.fab } t [Reg.addr .FAB_DROP2 0 0 0])) ∧
        (badPacket p = false → s.excluded p.src = true → aux ≠ 6 → Completes row s (fun t =>
          t.rd ROLL_STAT.XRX = min ROLL_STAT.XRX.top (s.rd ROLL_STAT.XRX + 1) ∧ SlotBack s t l p.vc sh ∧ t.roll = s.roll ∧
          t.fab.tx = s.fab.tx ∧ OnlyRegs { s with fab := t.fab } t [Reg.addr .ROLL_STAT 0 0 0])) ∧
        (badPacket p = false → s.excluded p.src = false → p.crcOk = true → s.roll.seen.contains (aux, p.src, payloadKey p) = true →
          Completes row s (fun t => t = { s with fab := t.fab } ∧ SlotBack s t l p.vc sh ∧ t.fab.tx = s.fab.tx ∧ t.fab.rx = s.fab.rx)))) ∧
    (∀ p l, Floods s p l 4 → s.excluded p.src = false → Completes (.verdict p l) s (fun t =>
      (∀ n, n < 512 → (s.named (bits p.addr 11 9) (bits p.addr 15 12) (bits p.addr 8 0)).contains n = true ∨ s.nodeState n = 3 →
        t.nodeState n = 3) ∧ t.rdB ROLL_VERDICT.VALID = true ∧ t.cores = s.cores ∧ t.mem = s.mem)) ∧
    (∀ p l, Floods s p l 4 → s.excluded p.src = false → Quiet s → Completes (.verdict p l) s (fun t =>
      (p.hops = max 1 (s.rd FAB_CFG.MAXHOPS) → t.fab.tx = s.fab.tx) ∧
      (∀ n, n < 512 → t.nodeState n = if (s.named (bits p.addr 11 9) (bits p.addr 15 12) (bits p.addr 8 0)).contains n then 3
        else s.nodeState n) ∧
      t.roll = { s.roll with
        seen := s.roll.seen ++ [(4, p.src, payloadKey p)]
        named := s.roll.named || (s.named (bits p.addr 11 9) (bits p.addr 15 12) (bits p.addr 8 0)).contains s.node } ∧
      t.rdB ROLL_VERDICT.VALID = true ∧
      t.rd ROLL_VERDICT.NODE = (if s.rdB ROLL_VERDICT.VALID then s.rd ROLL_VERDICT.NODE else bits p.addr 8 0) ∧
      t.rd ROLL_VERDICT.ISSUER = (if s.rdB ROLL_VERDICT.VALID then s.rd ROLL_VERDICT.ISSUER else bits p.addr 24 16) ∧
      t.rd ROLL_VERDICT.TIME = (if s.rdB ROLL_VERDICT.VALID then s.rd ROLL_VERDICT.TIME else s.time32) ∧
      t.cores = s.cores ∧ t.mem = s.mem)) ∧
    (∀ k id p m, 1 ≤ k → k ≤ 3 → s.rollRuns = true →
      id = (if k = 1 then bits (s.rd GLB_STRAP.PINS) 6 3 else if k = 2 then bits (s.rd GLB_STRAP.PINS) 11 9
        else bits (s.rd GLB_STRAP.PINS) 14 12) →
      p = s.ctrlPacket 5 511 (k + id * 4) [] → s.roll.seen.contains (5, s.node, payloadKey p) = false →
      m ≠ s.node → (k, id, m) ∈ s.roll.domains → s.inDomain k id s.node m = true → Completes (.domainAlarm k) s (fun t =>
        ∀ n, n < 512 → s.nodeAlive n = true → s.inDomain k id s.node n = true → t.nodeState n = 3)) ∧
    (∀ p l m, Floods s p l 5 → s.excluded p.src = false → bits p.addr 1 0 ≠ 0 → m ≠ p.src →
      (bits p.addr 1 0, bits p.addr 5 2, m) ∈ s.roll.domains →
      s.inDomain (bits p.addr 1 0) (bits p.addr 5 2) p.src p.src = true →
      s.inDomain (bits p.addr 1 0) (bits p.addr 5 2) p.src m = true → Completes (.domain p l) s (fun t =>
        ∀ n, n < 512 → s.nodeAlive n = true → s.inDomain (bits p.addr 1 0) (bits p.addr 5 2) p.src n = true → t.nodeState n = 3)) ∧
    (∀ p l, Floods s p l 6 → p.src < 512 → p.src ≠ s.node →
      (s.nodeState p.src = 0 ∨ s.rd ROLL_NODE.BOOT 0 p.src < bits (ofLe p.payload) 23 0 → Completes (.join p l) s (fun t =>
        t.nodeState p.src = 1 ∧ t.rd ROLL_NODE.BOOT 0 p.src = bits (ofLe p.payload) 23 0 ∧
        t.rd ROLL_NODE.TRAY 0 p.src = bits (ofLe p.payload) 27 24 ∧ t.rd ROLL_NODE.SHELF 0 p.src = bits (ofLe p.payload) 30 28 ∧
        t.rd ROLL_NODE.LOOP 0 p.src = bits (ofLe p.payload) 34 32 ∧
        (neighbour s.node p.src = true → t.fab.local_ = s.fab.local_ ++ [(s.ctrlPacket 7 p.src 0 t.rollBytes).sealed]))) ∧
      (s.nodeState p.src ≠ 0 → bits (ofLe p.payload) 23 0 ≤ s.rd ROLL_NODE.BOOT 0 p.src → Completes (.join p l) s (fun t =>
        (∀ n, n < 512 → t.nodeState n = s.nodeState n ∧ t.rd ROLL_NODE.BOOT 0 n = s.rd ROLL_NODE.BOOT 0 n) ∧
        (s.nodeState p.src = 3 → t.roll = s.roll ∧ t.fab.tx = s.fab.tx ∧ t.fab.local_ = s.fab.local_ ∧ t.rd ROLL_STAT.XRX = min ROLL_STAT.XRX.top (s.rd ROLL_STAT.XRX + 1))))) ∧
    (∀ p, p.typ = 10 → p.aux % 256 = 7 → s.rollRuns = true → s.excluded p.src = true → Completes (.admitMsg p) s (fun t =>
      t.roll = s.roll ∧ t.rd ROLL_STAT.XRX = min ROLL_STAT.XRX.top (s.rd ROLL_STAT.XRX + 1) ∧
      OnlyRegs { s with fab := t.fab } t [Reg.addr .ROLL_STAT 0 0 0])) ∧
    (∀ p, p.typ = 10 → p.aux % 256 = 7 → p.crcOk = true → s.excluded p.src = false → s.rollRuns = true → s.roll.joinAt.isSome = true →
      (s.roll.admitted = true → Completes (.admitMsg p) s (fun t => t = s.takeRx p)) ∧
      (s.roll.admitted = false → Completes (.admitMsg p) s (fun t => t.roll.admitted = true)) ∧
      (s.roll.admitted = false → Quiet s → (∀ n, n < 512 → lane 2 (ofLe p.payload) n ≠ 2) → Completes (.admitMsg p) s (fun t => t.roll.admitted = true ∧
        (∀ n, n < 512 → n ≠ s.node → t.nodeState n = lane 2 (ofLe p.payload) n) ∧ t.nodeState s.node = s.nodeState s.node ∧
        RegsBut s t ((List.range 512).map (fun n => Reg.addr .ROLL_NODE 0 n 0)) ∧ t = { s with roll := t.roll, fab := t.fab, csr := t.csr }))) ∧
    (∀ t0, s.roll.joinAt = some t0 → s.roll.admitted = false →
      (s.now < t0 + 10000000 → Completes .admitTimeout s (fun t => t = s)) ∧
      (t0 + 10000000 ≤ s.now → Completes .admitTimeout s (fun t => t = { s with roll := { s.roll with admitted := true } })))

/-! ### Winnow and trace -/

/-- Bytes `d` are the trace datagram of unit `u` with these records (R565): a 32 B header, then 16 B a record. -/
def DatagramOf (s : State) (u : Nat) (l : List (W64 × W64)) (d : List Byte) : Prop :=
  d.length = 32 + 16 * l.length ∧ ofLe (d.take 32) = 0x4A545243 + s.rd FAB_NODE.NODE * 2 ^ 32 + u * 2 ^ 48 +
    (s.trace.get {} u).seqNo * 2 ^ 64 + l.length * 2 ^ 96 + s.epoch * 2 ^ 128 ∧
  ∀ k, k < l.length → ofLe ((d.drop (32 + 16 * k)).take 8) = (nth l (0, 0) k).1.toNat ∧
    ofLe ((d.drop (40 + 16 * k)).take 8) = (nth l (0, 0) k).2.toNat

/-- Winnow, trace and the timebase (R39, R558 to R562, R564 to R566). A die tests one core at a time: a forced core that has become free,
else a core idle for IDLEMIN whose last pass is the oldest, else a due core is marked forced. A kernel whose answer holds moves the pass
on; an idle slot gives the core back with its scratchpad; a mismatch runs twice more, and is transient if both reruns match, else the core
is fenced. A trace unit takes the records that it is set to record while it has room, counts those it drops, and sends up to 512 in a
datagram; counters are sampled every SAMPLE us. A base die's timebase copy that is off by more than 5 ns is loaded again. Among cores that
have had no pass the choice is free (log entry 3). The model's readings in this: an idle slot of one kernel (log entry 49), the 5 ns of a
copy (log entry 92), and its choices: a LOST record made as a datagram frees space (log entry 57), and the time to the next datagram (log
entry 96). -/
def Obligations.WinnowAndTrace : Prop :=
  ∀ (s : State),
    (∀ d, (s.rdB WNW_CFG.EN = false ∨ s.variant.cdies ≤ d ∨ (∃ c ∈ dieCores d, (s.wnwOf c).running = true) →
        Completes (.winnowSchedule d) s (fun t => t = s)) ∧
      (d < s.variant.cdies → s.rdB WNW_CFG.EN = true → s.alive = true → s.stby.inStby = false → 8 ≤ s.boot.stage → s.boot.stage ≤ 12 →
        (∀ c ∈ dieCores d, (s.wnwOf c).running = false) →
        (∀ c, (dieCores d).find? (fun c => (s.wnwOf c).forced && s.coreFree c) = some c → Completes (.winnowSchedule d) s (fun t =>
          t.wnwOf c = { s.wnwOf c with running := true } ∧ (∀ k, k ≠ c → t.wnwOf k = s.wnwOf k) ∧ t = { s with wnw := t.wnw })) ∧
        ((dieCores d).find? (fun c => (s.wnwOf c).forced && s.coreFree c) = none →
          (s.oldestPass ((dieCores d).filter s.idleLong) ≠ [] → Completes (.winnowSchedule d) s (fun t =>
            ∃ c ∈ s.oldestPass ((dieCores d).filter s.idleLong), t.wnwOf c = { s.wnwOf c with running := true } ∧
              (∀ k, k ≠ c → t.wnwOf k = s.wnwOf k) ∧ t = { s with wnw := t.wnw, free := t.free })) ∧
          (s.oldestPass ((dieCores d).filter s.idleLong) = [] → (∃ c ∈ dieCores d, (s.wnwOf c).forced = true ∧ s.coreSt c = .ready) →
            Completes (.winnowSchedule d) s (fun t => t = s)) ∧
          (s.oldestPass ((dieCores d).filter s.idleLong) = [] →
            (∀ c ∈ dieCores d, (s.wnwOf c).forced = false ∨ s.coreSt c ≠ .ready) →
            s.oldestPass ((dieCores d).filter s.coreDue) ≠ [] → Completes (.winnowSchedule d) s (fun t =>
            ∃ c ∈ s.oldestPass ((dieCores d).filter s.coreDue), t.wnwOf c = { s.wnwOf c with forced := true, running := s.coreFree c } ∧
              (∀ k, k ≠ c → t.wnwOf k = s.wnwOf k) ∧ t = { s with wnw := t.wnw, free := t.free }))))) ∧
    (∀ c crc ok w, c < 192 → w = s.wnwOf c → s.alive = true → ok = decide (s.boot.flash.answers.get 0 w.next = crc) →
      (w.running = false → Completes (.winnowKernelEnd c crc) s (fun t => t = s)) ∧
      (w.running = true → w.next < 48 →
        (w.reruns = 0 → ok = true → w.next < 47 → (w.ret || (w.forced && s.rdB WNW_CFG.EN)) = true → Completes (.winnowKernelEnd c crc) s
          (fun t => t.wnwOf c = { w with next := w.next + 1, bad := 0 } ∧ t = { s with wnw := t.wnw })) ∧
        (w.reruns = 0 → ok = true → w.next < 47 → (w.ret || (w.forced && s.rdB WNW_CFG.EN)) = false → Completes (.winnowKernelEnd c crc) s
          (fun t => t.wnwOf c = { w with next := w.next + 1, bad := 0, running := false, freeSince := s.now } ∧
            (t.core c).icache = [] ∧ (t.core c).spad = (s.core c).spad ∧ (t.core c).acc = (s.core c).acc ∧
            (∀ k, k ≠ c → t.core k = s.core k) ∧ t = { s with wnw := t.wnw, cores := t.cores })) ∧
        (w.reruns = 0 → ok = true → w.next = 47 → w.ret = true → Completes (.winnowKernelEnd c crc) s (fun t =>
          t.wnwOf c = { w with next := 48, bad := 0, running := false } ∧ t = { s with wnw := t.wnw })) ∧
        (w.reruns = 0 → ok = true → w.next = 47 → w.ret = false → Completes (.winnowKernelEnd c crc) s (fun t =>
          (∃ n, (∀ k, (s.wnwOf k).passNo < n) ∧ t.wnwOf c = { w with
            next := 0, bad := 0, running := false, forced := false
            lastPass := s.jobNs, stepsAt := s.steps, freeSince := s.now, passNo := n }) ∧
          t.rd WNW_STAT.PASSES = (s.rd WNW_STAT.PASSES + 1) % 2 ^ 32 ∧ (t.core c).spad = (s.core c).spad ∧ t.mem = s.mem)) ∧
        (w.reruns = 0 → ok = false → Completes (.winnowKernelEnd c crc) s (fun t => t.wnwOf c = { w with reruns := 2, bad := 0 } ∧
          t = { s with wnw := t.wnw })) ∧
        (w.reruns = 2 → Completes (.winnowKernelEnd c crc) s (fun t => t.wnwOf c = { w with reruns := 1, bad := w.bad + b2n (!ok) } ∧
          t = { s with wnw := t.wnw })) ∧
        (w.reruns = 1 → ok = true → w.bad = 0 → Completes (.winnowKernelEnd c crc) s (fun t =>
          t.rd WNW_STAT.TRANSIENT = min 65535 (s.rd WNW_STAT.TRANSIENT + 1) ∧ (t.wnwOf c).reruns = 0 ∧ t.coreFenced c = s.coreFenced c ∧
          (s.rdB WNW_LOG.VALID = false → t.rd WNW_LOG.VALID = 1 ∧ t.rd WNW_LOG.CORE = c ∧ t.rd WNW_LOG.KERNEL = w.next ∧
            t.rd WNW_LOG.FENCED = 0 ∧ t.rd WNW_LOG.TIME = s.time32))) ∧
        (w.reruns = 1 → ok = false ∨ w.bad ≠ 0 → Completes (.winnowKernelEnd c crc) s (fun t => t.coreFenced c = true ∧
          t.wnwOf c = { w with running := false, forced := false, ret := false, next := 0, reruns := 0, bad := 0 } ∧
          (s.rdB WNW_LOG.VALID = false → t.rd WNW_LOG.VALID = 1 ∧ t.rd WNW_LOG.CORE = c ∧ t.rd WNW_LOG.KERNEL = w.next ∧
            t.rd WNW_LOG.FENCED = 1 ∧ t.rd WNW_LOG.TIME = s.time32) ∧
          (s.rdB WNW_LOG.VALID = true → t.rd WNW_LOG.CORE = s.rd WNW_LOG.CORE) ∧ t.mem = s.mem)))) ∧
    (∀ u typ sub x, (traceUnit s.variant u = false ∨ s.traceOn u typ = false → Completes (.traceRecord u typ sub x) s (fun t => t = s)) ∧
      (traceUnit s.variant u = true → s.traceOn u typ = true →
        ((s.trace.get {} u).buf.length < traceRoom u → Completes (.traceRecord u typ sub x) s (fun t => t = { s with trace := t.trace } ∧
          (t.trace.get {} u).buf = (s.trace.get {} u).buf ++ [(w64 (typ % 256 + (sub % 256) * 256 + (s.timeAt (unitTime u) % 2 ^ 48) * 65536), x)] ∧
          (∀ k, k ≠ u → t.trace.get {} k = s.trace.get {} k))) ∧
        (traceRoom u ≤ (s.trace.get {} u).buf.length → Completes (.traceRecord u typ sub x) s (fun t =>
          t.trace.get {} u = { s.trace.get {} u with dropped := (s.trace.get {} u).dropped + 1 } ∧
          t.rd OBS_STAT.LOST = (s.rd OBS_STAT.LOST + 1) % 2 ^ 32 ∧ t.rd OBS_STAT.SENT = s.rd OBS_STAT.SENT ∧
          OnlyRegs { s with trace := t.trace } t [Reg.addr .OBS_STAT 0 0 0])))) ∧
    (∀ u t0 per, per = (if u < 256 then s.rd OBS_CORE.SAMPLE u else s.rd OBS_BASE.SAMPLE (u - 256)) →
      (s.trace.get {} u).sampledAt = some t0 → s.now < t0 + per * 1000 → Completes (.traceSample u) s (fun t => t = s)) ∧
    (∀ u per, traceUnit s.variant u = true → s.traceOn u 6 = true → (s.trace.get {} u).buf.length + 8 ≤ traceRoom u →
      per = (if u < 256 then s.rd OBS_CORE.SAMPLE u else s.rd OBS_BASE.SAMPLE (u - 256)) →
      (∀ t0, (s.trace.get {} u).sampledAt = some t0 → t0 + per * 1000 ≤ s.now) →
      Completes (.traceSample u) s (fun t => t = { s with trace := t.trace } ∧ (t.trace.get {} u).sampledAt = some s.now ∧ (t.trace.get {} u).buf = (s.trace.get {} u).buf ++
        (s.samples u).map (fun e => (w64 (6 + (e.1 % 256) * 256 + (s.timeAt (unitTime u) % 2 ^ 48) * 65536), e.2)))) ∧
    (∀ u, (s.traceDue u = false ∨ s.traceOpen = false → Completes (.traceDatagramSend u) s (fun t => t = s)) ∧
      (traceUnit s.variant u = true → s.traceDue u = true → s.traceOpen = true → (s.trace.get {} u).dropped = 0 →
        (s.trace.get {} u).seqNo < 2 ^ 32 →
        Completes (.traceDatagramSend u) s (fun t => (t.trace.get {} u).buf = (s.trace.get {} u).buf.drop 512 ∧
          (t.trace.get {} u).seqNo = ((s.trace.get {} u).seqNo + 1) % 2 ^ 32 ∧
          (∃ d, t.fab.ethOut = s.fab.ethOut ++ [(s.rd OBS_CFG.PORT, .trace (s.rd OBS_DEST2.UDP) (s.rdB OBS_DEST2.IPV6)
              (s.reg .OBS_DEST 0 0 0) (s.reg .OBS_DEST 0 1 0) d)] ∧ DatagramOf s u ((s.trace.get {} u).buf.take 512) d ∧
            t.fab.traceAt = s.now + (8 * d.length + max 1 (s.rd OBS_CFG.RATE) - 1) / max 1 (s.rd OBS_CFG.RATE)) ∧
          t.rd OBS_STAT.SENT = (s.rd OBS_STAT.SENT + 1) % 2 ^ 32 ∧ OnlyRegs { s with trace := t.trace, fab := t.fab } t [Reg.addr .OBS_STAT 0 0 0])) ∧
      (traceUnit s.variant u = true → s.traceDue u = true → s.traceOpen = true → (s.trace.get {} u).dropped ≠ 0 →
        (s.trace.get {} u).buf.length ≤ traceRoom u → Completes (.traceDatagramSend u) s (fun t => (t.trace.get {} u).dropped = 0 ∧
          (t.trace.get {} u).buf = (s.trace.get {} u).buf.drop 512 ++
            [(w64 (9 + (s.timeAt (unitTime u) % 2 ^ 48) * 65536), w64 (s.trace.get {} u).dropped)]))) ∧
    Completes .timebaseCheck s (fun t => (∀ b, b < 16 → -5 ≤ t.skew.get 0 b ∧ t.skew.get 0 b ≤ 5) ∧
      (∀ k, 16 ≤ k → t.skew.get 0 k = s.skew.get 0 k) ∧ t = { s with skew := t.skew } ∧
      ((∀ e ∈ s.skew, e.1 < 16 → -5 ≤ e.2 ∧ e.2 ≤ 5) → t = s))

/-! ### Resets and fencing -/

/-- The module is due an MRST of cause `k`: the error record holds it, or notes that an earlier one is still there (R541, R570). -/
def Due (s t : State) (k : Nat) : Prop :=
  t.flt.mrstCause = some k ∧ t.rdB FLT_REC0.VALID = true ∧
    (s.rdB FLT_REC0.VALID = false → t.rd FLT_REC0.CAUSE = k ∧ t.rd FLT_REC0.BOOT = bits s.epoch 63 40) ∧
    (s.rdB FLT_REC0.VALID = true → t.rd FLT_REC0.OVF = 1 ∧ t.rd FLT_REC0.CAUSE = s.rd FLT_REC0.CAUSE)

/-- The module after a POR or an MRST: what it remembers is as at reset, but for registers; flash and OTP stay (R579, R598). -/
def Rebooted (s t : State) : Prop :=
  t.now = 0 ∧ t.mem = {} ∧ t.cores = [] ∧ t.que = {} ∧ t.win = {} ∧ t.fab = {} ∧ t.col = {} ∧ t.dies = [] ∧ t.roll = {} ∧ t.wnw = [] ∧
    t.trace = [] ∧ t.flt = {} ∧ t.boot.stage = 1 ∧ t.boot.flash = s.boot.flash ∧ t.boot.otp = s.boot.otp ∧ t.variant = s.variant ∧
    t.epoch = 0 ∧ t.rd ROLL_STAT.FENCED = 0 ∧ t.rd FLT_WDOG.EN = 0 ∧ t.rd FLT_WDOG.PERIOD = 1000

/-- A module that fences itself, busy or not: its queues are torn, nothing of them goes on, its epoch moves on, E-space is frozen, and its
tensor links stop (R364, R553, R554). -/
def Fences (s t : State) (self : Bool) : Prop :=
  t.rd ROLL_STAT.FENCED = 1 ∧ t.rd ROLL_STAT.SELF = b2n self ∧ t.epoch = (s.epoch + 1) % 2 ^ 64 ∧ t.rollRuns = false ∧
  t.roll = { s.roll with fencedAt := some s.now } ∧ t.rd WIN_TD.FROZEN = 1 ∧ t.win.ops = [] ∧ t.win.pairs = [] ∧ t.win.rx = [] ∧
  t.win.held = [] ∧ t.col.pend = [] ∧ t.col.ctxs = [] ∧ t.que.copies = [] ∧ t.que.cmds = [] ∧ t.que.done = [] ∧
  (∀ q, q < 64 → (s.queue q).st ≠ 0 → (t.queue q).st = 6) ∧
  ((∀ q, (s.queue q).st = 0) → s.cores = [] → s.col.ctxs = [] → s.que.cmds = [] → s.win.fold = [] → t.mem = s.mem)

/-- The record of an earlier fault as a later one leaves it (R542): OVF is set, and nothing else of it changes. -/
def Overflows (s t : State) : Prop :=
  t.rd FLT_REC0.OVF = 1 ∧ (∀ f ∈ Reg.fields .FLT_REC0, f ≠ FLT_REC0.OVF → t.rd f = s.rd f) ∧
    t.reg .FLT_REC1 0 0 0 = s.reg .FLT_REC1 0 0 0

/-- Resets and fencing (R364, R538, R541, R543, R544, R553, R554, R569, R570, R579). A cause makes an MRST due and writes the error record;
when the reset acts, the module is as at reset, with flash and OTP kept, and after a POR with the sources that were fitted while it had no
power. Of two causes before one MRST the record keeps the first, as it keeps it later (log entry 61). The watchdog's period runs from its last kick. A
module that a verdict names, or that hears fewer than a majority of its ALIVE neighbours for the SELF us in force, fences itself, and resets
10 ms later where EXRST is 1. GLB_EPOCH_SET takes a value of this boot that is above the epoch while no kernel and no collective runs. The
model's readings in this: a SUSPECT neighbour counts as ALIVE (log entry 44), the input and its bits across a reset (log entry 54), and which
halter writes need READY (log entry 55). -/
def Obligations.ResetsAndFencing : Prop :=
  ∀ (s : State),
    (s.flt.mrstCause = none ∨ s.alive = false → Completes .mrst s (fun t => t = s)) ∧
    (s.flt.mrstCause.isSome = true → s.alive = true → Completes .mrst s (fun t => Rebooted s t ∧ t.boot.pins = s.boot.pins ∧
      t.pwr.up = s.pwr.up ∧ t.rd PWR_STAT.INLOW = b2n (decide (46000 ≤ s.pwr.vin) && decide (s.pwr.vin < 48000)) ∧
      t.rd PWR_STAT.INHIGH = b2n (decide (60000 < s.pwr.vin) && decide (s.pwr.vin ≤ 62000)))) ∧
    (∀ x, Completes (.por x) s (fun t => Rebooted s t ∧ t.boot.pins = x.straps ∧ t.pwr.vin = s.pwr.vin ∧
      t.pwr.up = (decide (46000 ≤ s.pwr.vin) && decide (s.pwr.vin ≤ 62000)) ∧ t.stby = {} ∧
      (∀ k d, s.pwr.up = false → x.sources = [(k, d)] → (t.source k).memory = d ∧ (t.source k).answers = d.isSome) ∧
      (∀ k, s.pwr.up = true ∨ x.sources = [] → (t.source k).memory = (s.source k).memory ∧ (t.source k).answers = (s.source k).answers))) ∧
    (∀ v : W64, (s.linkLit = false ∨ v.getLsbD 0 = false → Completes (.fltCtlMrst v) s (fun t => t = s)) ∧
      (s.linkLit = true → v.getLsbD 0 = true → Completes (.fltCtlMrst v) s (fun t => Due s t 5 ∧
        OnlyRegs { s with flt := t.flt } t [Reg.addr .FLT_REC0 0 0 0, Reg.addr .FLT_REC1 0 0 0])) ∧
      (s.linkLit = false ∨ s.boot.stage ≠ 12 → ∀ row ∈ [Instr.watchdogKick v, .glbEpochSet v], Completes row s (fun t => t = s)) ∧
      (s.linkLit = true → s.boot.stage = 12 → Completes (.watchdogKick v) s (fun t => t.rd FLT_WDOG.EN = b2n (v.getLsbD 0) ∧
        t.rd FLT_WDOG.PERIOD = bits v.toNat 16 1 ∧
        t.flt = { s.flt with kickAt := if v.getLsbD 17 || (v.getLsbD 0 && !s.rdB FLT_WDOG.EN) then s.now else s.flt.kickAt } ∧
        OnlyRegs { s with flt := t.flt } t [Reg.addr .FLT_WDOG 0 0 0])) ∧
      (s.linkLit = true → s.boot.stage = 12 →
        (bits v.toNat 63 40 = bits s.epoch 63 40 → s.epoch < v.toNat → s.anyKernel = false → s.col.ctxs = [] →
          Completes (.glbEpochSet v) s (fun t => t.epoch = v.toNat ∧ t.win.pairs = [] ∧ t.win.rx = [] ∧ t.win.held = [] ∧ t.col.pend = [] ∧
            (∀ g, g < 4096 → t.reg .COL_GSEQ 0 g 0 = 0) ∧ t.cores = s.cores ∧ t.mem = s.mem ∧ t.que = s.que)) ∧
        (bits v.toNat 63 40 ≠ bits s.epoch 63 40 ∨ v.toNat ≤ s.epoch ∨ s.anyKernel = true ∨ s.col.ctxs ≠ [] →
          Completes (.glbEpochSet v) s (fun t => t.epoch = s.epoch ∧ t.rd ROLL_STAT.SETERR = 1 ∧ OnlyRegs s t [Reg.addr .ROLL_STAT 0 0 0])))) ∧
    (s.rdB FLT_WDOG.EN = false ∨ s.alive = false ∨ s.now < s.flt.kickAt + max 1 (s.rd FLT_WDOG.PERIOD) * 1000000 →
      Completes .watchdogExpiry s (fun t => t = s)) ∧
    (s.rdB FLT_WDOG.EN = true → s.alive = true → s.flt.kickAt + max 1 (s.rd FLT_WDOG.PERIOD) * 1000000 ≤ s.now →
      Completes .watchdogExpiry s (fun t => Due s t 4 ∧ t.flt.kickAt = s.now ∧ OnlyLogs { s with flt := t.flt } t)) ∧
    (s.rollRuns = true → s.roll.named = true → Completes .fenceSelf s (fun t => Fences s t false)) ∧
    (s.roll.named = false ∨ s.rollRuns = false → Completes .fenceSelf s (fun t => t = s)) ∧
    (s.rollRuns = true → s.aliveNbrs s.node ≠ [] →
      s.heardIn (s.rollCfg ROLL_CFG.SELF) < (s.aliveNbrs s.node).length / 2 + 1 → Completes .selfFenceTimeout s (fun t => Fences s t true)) ∧
    (s.rollRuns = false ∨ s.aliveNbrs s.node = [] ∨ (s.aliveNbrs s.node).length / 2 + 1 ≤ s.heardIn (s.rollCfg ROLL_CFG.SELF) →
      Completes .selfFenceTimeout s (fun t => t = s)) ∧
    (s.roll.fencedAt = none → Completes .fenceMrst s (fun t => t = s)) ∧
    (∀ t0, s.roll.fencedAt = some t0 →
      (s.rdB ROLL_CTL.EXRST = true → t0 + 10000000 ≤ s.now → Completes .fenceMrst s (fun t => Due s t 6 ∧
        t.roll = { s.roll with fencedAt := none } ∧ OnlyRegs { s with flt := t.flt, roll := t.roll } t
          [Reg.addr .FLT_REC0 0 0 0, Reg.addr .FLT_REC1 0 0 0])) ∧
      (s.rdB ROLL_CTL.EXRST = false ∨ s.now < t0 + 10000000 → Completes .fenceMrst s (fun t => t = s)))

/-- The error record (R542): FLT_REC0 and FLT_REC1 survive an MRST, and every reset and exit from a low-power state of R20 but POR; POR returns
every field of them to 0. While VALID is 1, any later fault sets OVF and leaves the rest of the record unchanged, an MRST being due or not: a
halter write of FLT_CTL, the watchdog, the reset of a fenced module, an uncorrectable error, a die-link flit that still fails, and the thermal
trips of a stack and of the converters. -/
def Obligations.ErrorRecord : Prop :=
  ∀ (s : State),
    Completes .mrst s (fun t => t.reg .FLT_REC0 0 0 0 = s.reg .FLT_REC0 0 0 0 ∧ t.reg .FLT_REC1 0 0 0 = s.reg .FLT_REC1 0 0 0) ∧
    (∀ k scope g, k &&& 1 = 0 → g ∈ [Reg.FLT_REC0, .FLT_REC1] → (s.resetRegs k scope).reg g 0 0 0 = s.reg g 0 0 0) ∧
    (∀ x, Completes (.por x) s (fun t => ∀ f ∈ Reg.fields .FLT_REC0 ++ Reg.fields .FLT_REC1, t.rd f = 0)) ∧
    (∀ cause agent block syn unit addr, s.rdB FLT_REC0.VALID = true → Overflows s (s.fltRecord cause agent block syn unit addr)) ∧
    (s.rdB FLT_REC0.VALID = true →
      (∀ v : W64, s.linkLit = true → v.getLsbD 0 = true → Completes (.fltCtlMrst v) s (Overflows s)) ∧
      (s.rdB FLT_WDOG.EN = true → s.alive = true → s.flt.kickAt + max 1 (s.rd FLT_WDOG.PERIOD) * 1000000 ≤ s.now →
        Completes .watchdogExpiry s (Overflows s)) ∧
      (∀ t0, s.roll.fencedAt = some t0 → s.rdB ROLL_CTL.EXRST = true → t0 + 10000000 ≤ s.now → Completes .fenceMrst s (Overflows s)) ∧
      (∀ blk ag u sy a, blk ≤ 7 → Completes (.uncorrectableError blk ag u sy a) s (Overflows s)) ∧
      (∀ d n, d < s.variant.cdies → 8 < n → Completes (.flitReplay d n) s (Overflows s)) ∧
      (∀ n, n < s.variant.stacks → s.rdB PWR_STAT.TRIP = false → Completes (.stackTempSample n none) s (Overflows s)) ∧
      (∀ k j, k < converters s.variant → j ≠ k → j < 8 → s.rd PWR_STAT.CONVFAIL = 2 ^ j → s.rdB PWR_STAT.TRIP = false →
        Completes (.converterFail k) s (Overflows s)))

/-! ### Boot, firmware and attestation -/

/-- The boot stops at its step with this code (R582): no winnow kernel runs, and the tensor links stay down. -/
def Stops (s t : State) (code : Nat) : Prop :=
  t.boot = { s.boot with stage := 13 } ∧ t.rd BOOT_STAT.FAILSTEP = s.boot.stage % 16 ∧ t.rd BOOT_STAT.FAILCODE = code ∧
    (∀ c, (t.wnwOf c).running = false) ∧ t.cores = s.cores ∧ t.mem = s.mem ∧
    (s.boot.stage ≤ 9 → OnlyRegs { s with boot := t.boot, wnw := t.wnw } t [Reg.addr .BOOT_STAT 0 0 0]) ∧
    (9 < s.boot.stage → t.rd FAB_NODE.ONFAB = 0 ∧ ∀ l, l < s.variant.links → t.linkUp l = false)

/-- Boot step 9 ends and step 10 begins (R394, R581): the default routes are loaded, and a module whose identity holds joins the fabric. -/
def Joins (s t : State) : Prop :=
  t.boot = { s.boot with stage := 10, stepAt := s.now } ∧ (∀ n, n < 512 → t.rd FAB_RT.LINK 0 n = s.defaultRoute n) ∧
    (s.rd FAB_NODE.STRAPERR = 0 → t.rd FAB_NODE.ONFAB = 1 ∧ t.nodeState s.node = 1 ∧ t.roll.joinAt = some s.now ∧ t.roll.admitted = false) ∧
    (s.rd FAB_NODE.STRAPERR ≠ 0 → OnlyRegs { s with boot := t.boot } t ((List.range 512).map (fun n => Reg.addr .FAB_RT 0 n 0)))

/-- M after a list of items (R590). -/
def Measures (m : List Byte) (l : List (List Byte)) : List Byte := l.foldl (fun m x => Config.sha3 (m ++ Config.sha3 x)) m

/-- A compute site of which step 4 has had no block (R496). -/
def SiteFails (s : State) (d : Nat) : Prop :=
  (s.die d).inDrst = true ∧ (s.die d).boot = none ∧ (s.die d).stays = false ∧ s.rdB DPORT_CTL.HOLD d = false

/-- The measured items lie in the firmware part of the reserved range (R590), in order and apart, and nothing below it changes. -/
def KeepsItems (s t : State) : Prop :=
  t.mem = { s.mem with hbm := t.mem.hbm } ∧
    (∀ e : Nat × Byte, e.1 < s.variant.resBase + 0x8000000 → (e ∈ t.mem.hbm ↔ e ∈ s.mem.hbm)) ∧
    ∃ p : List Nat, p.length = s.boot.items.length ∧ ∀ k a x, p[k]? = some a → s.boot.items[k]? = some x →
      s.variant.resBase + 0x8000000 ≤ a ∧ (∀ b, p[k + 1]? = some b → a + x.length ≤ b) ∧
      ∀ j b, x[j]? = some b → (a + j, b) ∈ t.mem.hbm ∨ hbmDefault s.variant (a + j) = some b

/-- Boot (R387, R394, R496, R547, R581, R582, R584 to R592, R594, R603). Each step, as it ends, does its work and starts the next; a fatal
cause, or a limit other than that of steps 8 and 9, stops the boot. Step 1 samples the straps, step 2 takes the first image that verifies,
counts the boot, measures it and writes the calibration that step 1 swept, in step 4 a site without a block fails, step 5 releases the dies
that have trained, step 7 writes the measured items into the firmware part of the reserved range and starts the return passes, step 9 loads
the default routes and the module joins, step 10 waits for the roll, and the module is READY when every return pass is over. GO of an image
that verifies begins to write it into the slot that did not boot, SAVE the user calibration; RESULT reads 0 and BUSY 1 meanwhile. A request
for attestation waits for its turn behind a change request. Readings that the model chose are joining as step 9 ends and waiting for ADMIT
in step 10 (log entry 98), the read of the boot count, the offset beyond 25 mV and the free duration of a flash write (log entry 97), PASSES
counting return passes (log entry 49), ROLL_CFG from step 2 and the items of step 4 and their places (log entry 53) and the end of a site in
step 4 (log entry 47). Which generation a stack is, and its rate, are free (log entry 3); the signatures and hashes are opaque (log entry 10). -/
def Obligations.Boot : Prop :=
  ∀ (s : State), s.alive = true →
    (∀ x, s.boot.stage = 1 → Completes (.bootStepComplete .ok x) s (fun t => t.boot.stage = 2 ∧ t.boot.stepAt = s.now ∧ t.boot.pins = x ∧
      t.rd GLB_STRAP.PINS = x.toNat ∧ t.rd GLB_STRAP.PAROK = popN 16 x.toNat % 2 ∧ t.rd FAB_NODE.NODE = strapNode x.toNat ∧
      t.rd FAB_NODE.STRAPERR = (if popN 16 x.toNat % 2 = 0 then 1 else if nodeFits s.variant (strapNode x.toNat) then 0 else 2))) ∧
    (∀ x, s.boot.stage = 2 →
      (s.bootSlot = none → Completes (.bootStepComplete .ok x) s (fun t => Stops s t 1)) ∧
      (∀ k img n, s.bootSlot = some (k, img) → n = (s.boot.flash.bootCount + 1) % 2 ^ 24 →
        (∀ u, s.boot.flash.userCal = some u → ∀ e ∈ u.uofs, e.1 < 236) → Completes (.bootStepComplete .ok x) s (fun t =>
          t.boot.stage = 3 ∧ t.boot.slot = k ∧ t.boot.siteKey = s.siteKeyOf img ∧ t.boot.flash.bootCount = n ∧
          t.boot.flash = { s.boot.flash with boots := t.boot.flash.boots, ucal := t.boot.flash.ucal } ∧ t.boot.swept = [] ∧
          (s.boot.swept = [] → t.boot.flash.ucal = s.boot.flash.ucal ∧ t.boot.ucalNew = s.boot.ucalNew) ∧
          (s.boot.swept ≠ [] → t.boot.ucalNew.isSome = true ∧ t.rd BOOT_UCAL.BUSY = 1) ∧
          t.rd BOOT_STAT.UCAL = (if s.boot.flash.userCal = none then s.rd BOOT_STAT.UCAL else 1) ∧ t.boot.items.length = 7 ∧
          (∀ u i k, s.boot.flash.userCal = some u → u.uofs = [(i, k)] → k < 256 → domExists s.variant i = true → t.rd PWR_DOM_CTL.UOFS i =
            if -25 ≤ sext 8 k ∧ sext 8 k ≤ 25 then k else s.rd PWR_DOM_CTL.UOFS i) ∧
          t.epoch = n * 2 ^ 40 ∧ t.rd GLB_VERSION.FW_MINOR = num img 4 1 ∧ t.rd GLB_VERSION.FW_MAJOR = num img 5 1 ∧
          t.rd BOOT_STAT.SLOT = k % 2 ∧ t.rd BOOT_STAT.SITEKEY = b2n (s.siteKeyOf img).isSome ∧
          t.rd ROLL_CFG.SUSPECT = 100 ∧ t.rd ROLL_CFG.FALLBACK = 500 ∧ t.rd ROLL_CFG.SELF = 2500 ∧
          t.boot.meas = Measures zeros64 t.boot.items ∧
          (s.boot.flash.userCal = none → t.boot.items = [leBytes 8 s.boot.otp.romVersion.toNat, leBytes 8 s.boot.otp.word.toNat,
            imgBody img, if s.custKeyed then imgCpub img else zeros64, orZeros s.boot.flash.site, zeros64,
            leBytes 8 (s.reg .GLB_STRAP 0 0 0).toNat])))) ∧
    (∀ x, (s.boot.stage = 2 → Completes (.bootStepComplete .flash x) s (fun t => Stops s t 2)) ∧
      (s.boot.stage = 3 → Completes (.bootStepComplete .baseDie x) s (fun t => Stops s t 3)) ∧
      (s.boot.stage = 6 → Completes (.bootStepComplete .hbm x) s (fun t => Stops s t 4)) ∧
      (s.boot.stage = 0 ∨ 11 ≤ s.boot.stage → ∀ o, Completes (.bootStepComplete o x) s (fun t => t = s)) ∧
      (s.boot.stage = 3 → Completes (.bootStepComplete .ok x) s (fun t => t.boot.stage = 4 ∧
        t.rd GLB_DIEMAP.BDIE_UP = (2 ^ s.variant.bdies - 1) % 16 ∧ t.skew = [] ∧ ∀ d, d < s.variant.cdies → (t.die d).upAt = s.now)) ∧
      (s.boot.stage = 4 → Completes (.bootStepComplete .ok x) s (fun t =>
        (∃ l, l = [bytes64 ((List.range 12).map (fun d => if t.diePresent d then s.reg .DPORT_CAP d 0 0 else 0)),
            bytes64 ((List.range 8).map (fun k => s.reg .PHO_SRC_CAL k 0 0))] ∧ t.boot = { s.boot with
          stage := 5
          stepAt := s.now
          meas := Measures s.boot.meas l
          items := s.boot.items ++ l }) ∧
        (∀ d, d < s.variant.cdies →
          (SiteFails s d → t.diePresent d = false ∧ t.rd DPORT_STAT.STATE d = 1 ∧ t.die d = { s.die d with stays := true }) ∧
          (¬ SiteFails s d → t.diePresent d = s.diePresent d ∧ t.rd DPORT_STAT.STATE d = s.rd DPORT_STAT.STATE d ∧ t.die d = s.die d)) ∧
        ((∀ d, d < s.variant.cdies → ¬ SiteFails s d) → t = { s with boot := t.boot }))) ∧
      (s.boot.stage = 5 → Completes (.bootStepComplete .ok x) s (fun t => t.boot = { s.boot with stage := 6, stepAt := s.now } ∧
        ∀ d, d < s.variant.cdies → (bitB (t.rd GLB_DIEMAP.RELEASED) d = (bitB (s.rd GLB_DIEMAP.RELEASED) d || s.dieGoes d)) ∧
          (s.dieGoes d = true → t.rd DPORT_STAT.STATE d = 4 ∧ (t.die d).inDrst = false))) ∧
      (s.boot.stage = 6 → Completes (.bootStepComplete .ok x) s (fun t => t.boot = { s.boot with stage := 7, stepAt := s.now } ∧
        ∀ k, k < s.variant.stacks → t.rd MEM_STAT.TRAINED k = 1 ∧ ((t.rd MEM_STAT.GEN k = 1 ∧ t.rd MEM_STAT.RATE k ≤ 100) ∨
          (t.rd MEM_STAT.GEN k = 2 ∧ t.rd MEM_STAT.RATE k ≤ 128)))) ∧
      (s.boot.stage = 7 → Completes (.bootStepComplete .ok x) s (fun t => t.boot = { s.boot with stage := 8, stepAt := s.now } ∧
        (∀ k, k < s.variant.stacks → t.rd MEM_STAT.FILLED k = b2n (s.variant != .trn1216)) ∧
        (∀ c, c < s.variant.cores → s.coreHere c = true → s.dieReleased (c / 16) = true → s.gated c = false → s.coreFenced c = false →
          (t.wnwOf c).ret = true ∧ (t.wnwOf c).running = true ∧ (t.wnwOf c).next = 0) ∧ (s.memOk = true → KeepsItems s t) ∧
        t.cores = s.cores)) ∧
      (s.boot.stage = 8 → Completes (.bootStepComplete .ok x) s (fun t => t.rd PHO_STAT.TUNED = 1 ∧
        t.boot.stage = if s.rd FAB_NODE.STRAPERR = 0 then 9 else 11)) ∧
      (s.boot.stage = 9 → Completes (.bootStepComplete .ok x) s (Joins s)) ∧
      (s.boot.stage = 10 → (s.roll.joinAt = none ∨ s.roll.admitted = true → Completes (.bootStepComplete .ok x) s (fun t =>
          t = { s with boot := { s.boot with stage := 11, stepAt := s.now } })) ∧
        (s.roll.joinAt.isSome = true → s.roll.admitted = false → Completes (.bootStepComplete .ok x) s (fun t => t = s)))) ∧
    (s.now < s.boot.stepAt + bootLimit s.boot.stage * 1000000 → 1 ≤ s.boot.stage → s.boot.stage ≤ 11 →
      Completes .bootStepTimeout s (fun t => t = s)) ∧
    (s.boot.stepAt + bootLimit s.boot.stage * 1000000 ≤ s.now → 1 ≤ s.boot.stage → s.boot.stage ≤ 11 →
      (s.boot.stage ≠ 8 → s.boot.stage ≠ 9 → Completes .bootStepTimeout s (fun t => Stops s t 5)) ∧
      (s.boot.stage = 8 → Completes .bootStepTimeout s (fun t => t.rd PHO_STAT.TUNED = 1 ∧
        t.boot.stage = if s.rd FAB_NODE.STRAPERR = 0 then 9 else 11)) ∧
      (s.boot.stage = 9 → Completes .bootStepTimeout s (Joins s))) ∧
    (s.boot.stage = 11 → s.passesOver = true → Completes .ready s (fun t => t.boot = { s.boot with stage := 12 } ∧
      t.rd BOOT_STAT.TREADY = (s.now / 1000000) % 2 ^ 32 ∧ OnlyRegs { s with boot := t.boot } t [Reg.addr .BOOT_STAT 0 0 0])) ∧
    (s.boot.stage ≠ 11 ∨ s.passesOver = false → Completes .ready s (fun t => t = s)) ∧
    (∀ c, ((s.wnwOf c).ret = true → (s.wnwOf c).running = false → 48 ≤ (s.wnwOf c).next → Completes (.returnPassEnd c) s (fun t =>
        (t.wnwOf c).ret = false ∧ (t.wnwOf c).lastPass = s.jobNs ∧ (∀ k, (s.wnwOf k).passNo < (t.wnwOf c).passNo) ∧ t.rd WNW_STAT.PASSES = (s.rd WNW_STAT.PASSES + 1) % 2 ^ 32 ∧
        OnlyRegs { s with wnw := t.wnw } t [Reg.addr .WNW_STAT 0 0 0])) ∧
      ((s.wnwOf c).ret = false ∨ (s.wnwOf c).running = true ∨ (s.wnwOf c).next < 48 → Completes (.returnPassEnd c) s (fun t => t = s))) ∧
    (∀ v : W64, s.live = false → ∀ row ∈ [Instr.bootFlupdGo v, .bootUcalSave v], Completes row s (fun t => t = s)) ∧
    (∀ v : W64, s.live = true →
      (v.getLsbD 41 = false → Completes (.bootFlupdGo v) s (fun t => t.rd BOOT_FLUPD.ADDR = bits v.toNat 39 0 ∧
        t.rd BOOT_FLUPD.SLOT = bits v.toNat 40 40 ∧ OnlyRegs s t [Reg.addr .BOOT_FLUPD 0 0 0])) ∧
      (v.getLsbD 41 = true → bits v.toNat 40 40 = s.boot.slot → Completes (.bootFlupdGo v) s (fun t => t.rd BOOT_FLUPD.RESULT = 3 ∧
        OnlyRegs s t [Reg.addr .BOOT_FLUPD 0 0 0])) ∧
      (∀ r, v.getLsbD 41 = true → bits v.toNat 40 40 ≠ s.boot.slot → r = (s.wrs .BOOT_FLUPD 0 0 0 [(BOOT_FLUPD.ADDR, bits v.toNat 39 0),
          (BOOT_FLUPD.SLOT, bits v.toNat 40 40)]).readImage (bits v.toNat 39 0) →
        (∀ d, r.1 = some d → s.imgOk d = true → Completes (.bootFlupdGo v) s (fun t => t.rd BOOT_FLUPD.RESULT = 0 ∧
          t.rd BOOT_UCAL.BUSY = 1 ∧ (∃ at', s.now < at' ∧ t.boot.update = some ⟨at', some (bits v.toNat 40 40, d), 1⟩) ∧
          (s.boot.update = none → t.boot = { s.boot with update := t.boot.update }))) ∧
        (r.1 = none ∨ (∃ d, r.1 = some d ∧ s.imgOk d = false) → Completes (.bootFlupdGo v) s (fun t => t.rd BOOT_FLUPD.RESULT = 0 ∧
          (∃ at', s.now < at' ∧ t.boot.update = some ⟨at', none, 2⟩) ∧
          (s.boot.update = none → t.boot = { s.boot with update := t.boot.update })))) ∧
      (v.getLsbD 0 = false → Completes (.bootUcalSave v) s (fun t => t = s)) ∧
      (v.getLsbD 0 = true → Completes (.bootUcalSave v) s (fun t => t.rd BOOT_UCAL.BUSY = 1 ∧ t.mem = s.mem ∧
        (s.boot.ucalNew = none → t.boot = { s.boot with ucalNew := t.boot.ucalNew } ∧
          OnlyRegs { s with boot := t.boot, free := t.free } t [Reg.addr .BOOT_UCAL 0 0 0]) ∧
        ∃ at' u, s.now < at' ∧ t.boot.ucalNew = some (at', u) ∧ u.ff = lanes 16 4 (s.reg .PHO_FF 0 0 0).toNat ∧
          u.fibs = (s.userCal.getD {}).fibs ∧ u.chans = (s.userCal.getD {}).chans ∧
          ∀ i, i < 236 → domExists s.variant i = true → u.uofs.get 0 i = s.rd PWR_DOM_CTL.UOFS i))) ∧
    (∀ m w, (s.linkLit = true → (s.win.change = none → Completes (.attestationRequest m) s (fun t => t = { s with halter := t.halter } ∧
          t.halter = s.halter ++ (HMsg.attest (s.report50 (cut (m ++ List.replicate 48 0) 16 32)) (Config.mldsaSign (Config.sha3 (s.report50
            (cut (m ++ List.replicate 48 0) 16 32))))).sent s.now)) ∧
        (s.win.change.isSome = true → Completes (.attestationRequest m) s (fun t => t = { s with
          win := { s.win with attests := s.win.attests ++ [cut (m ++ List.replicate 48 0) 16 32] } })) ∧
        Completes (.certificateRequest w) s (fun t => t = { s with halter := s.halter ++ HMsg.sent (.cert s.boot.flash.cert) s.now })) ∧
      (s.linkLit = false → ∀ row ∈ [Instr.attestationRequest m, .certificateRequest w], Completes row s (fun t => t = s)))

/-! ### Low-power states and the board-management bus -/

/-- Core `c` comes up empty, and its return pass starts unless winnow has fenced it (R547, R580, R595). -/
def Returns (s t : State) (c : Nat) : Prop :=
  t.core c = {} ∧ (∀ k, k ≠ c → t.core k = s.core k) ∧
    (s.coreFenced c = false → (t.wnwOf c).ret = true ∧ (t.wnwOf c).running = true ∧ (t.wnwOf c).next = 0) ∧ t.mem = s.mem

/-- Low-power states (R580, R595, R596, R605). A request to gate a core is refused while the core works, and one to put a die to fallow
while any core of it does; to leave either is to come up empty with a return pass, and so is a core reset, which of a gated core waits for
the wake. A head whose core is asleep wakes it. Standby is refused for the first cause that holds; WAKE leaves it with the epoch raised.
Writes of these registers act in a module that is READY, works and is not in standby. On the board's bus STATUS arms the state word, a
reserved code zeros (R597). The model's readings are the lowest cause of a refusal, standby at once and GATE before CRST in one write (log
entry 50), that WAKE needs the converters up and no trip (log entry 51), and what each common command of the I3C bus does to the address
(log entry 15). -/
def Obligations.LowPowerAndBoard : Prop :=
  ∀ (s : State),
    (∀ i (v : W64), s.live = false ∨ domExists s.variant i = false ∨ 204 ≤ i → ∀ row ∈ [Instr.crst i v, .coreGate i v, .dieFallow i v],
      Completes row s (fun t => t = s)) ∧
    (∀ i (v : W64), s.live = true → i < 192 → domExists s.variant i = true → v.getLsbD 3 = false → ∀ row ∈ [Instr.crst i v, .coreGate i v, .dieFallow i v],
      (v.getLsbD 2 = false → s.gated i = v.getLsbD 0 → Completes row s (fun t => t = s)) ∧
      (v.getLsbD 2 = false → v.getLsbD 0 = true → s.gated i = false →
        (s.canGate i = true → Completes row s (fun t => t.gated i = true ∧ OnlyRegs s t [Reg.addr .PWR_DOM_LP i 0 0])) ∧
        (s.canGate i = false → Completes row s (fun t => t.gated i = false ∧ t.rd PWR_DOM_LP.REFUSED i = 1 ∧
          OnlyRegs s t [Reg.addr .PWR_DOM_LP i 0 0]))) ∧
      (v.getLsbD 2 = false → v.getLsbD 0 = false → s.gated i = true → s.coreHere i = true → s.dieReleased (i / 16) = true →
        s.corePend i = false ∨ (s.que.copies = [] ∧ s.rdB FAB_CTL.QUIESCE = true) →
        Completes row s (fun t => t.gated i = false ∧ t.corePend i = false ∧ Returns s t i)) ∧
      (v.getLsbD 2 = true → v.getLsbD 0 = s.gated i → s.gated i = true ∨ s.fallow (i / 16) = true → Completes row s (fun t =>
        (t.pwr.cores.get {} i).crstPend = true ∧ t = { s with pwr := t.pwr })) ∧
      (v.getLsbD 2 = true → v.getLsbD 0 = false → s.gated i = false → s.fallow (i / 16) = false → s.coreHere i = true →
        s.dieReleased (i / 16) = true → s.que.copies = [] → s.rdB FAB_CTL.QUIESCE = true → Completes row s (fun t => Returns s t i))) ∧
    (∀ d (v : W64), s.live = true → d < s.variant.cdies → v.getLsbD 3 = false → ∀ row ∈ [Instr.crst (192 + d) v, .coreGate (192 + d) v, .dieFallow (192 + d) v],
      (s.fallow d = v.getLsbD 1 → Completes row s (fun t => t = s)) ∧
      (v.getLsbD 1 = true → s.fallow d = false →
        (s.canFallow d = true → Completes row s (fun t => t.fallow d = true ∧ t.dieReleased d = false ∧
          OnlyRegs s t [Reg.addr .PWR_DOM_LP (192 + d) 0 0, Reg.addr .GLB_DIEMAP 0 0 0])) ∧
        (s.canFallow d = false → Completes row s (fun t => t.fallow d = false ∧ t.rd PWR_DOM_LP.REFUSED (192 + d) = 1 ∧
          OnlyRegs s t [Reg.addr .PWR_DOM_LP (192 + d) 0 0]))) ∧
      (v.getLsbD 1 = false → s.fallow d = true → (s.die d).drstPend = false →
        (∀ c ∈ dieCores d, s.gated c = false → s.corePend c = false) → Completes row s (fun t => t.fallow d = false ∧
        t.dieReleased d = true ∧ (∀ c ∈ dieCores d, t.core c = {} ∧ (s.coreHere c = true → s.gated c = false → s.coreFenced c = false →
          (t.wnwOf c).ret = true ∧ (t.wnwOf c).running = true)) ∧ t.mem = s.mem ∧ t.que = s.que))) ∧
    (∀ q c k, s.live = true → (s.queue q).cmd = some c → (s.queue q).elig = true → (s.queue q).granted = false → (s.queue q).running = none →
      (s.queue q).st ≠ 5 → (s.queue q).st ≠ 0 → cmdCores c = [k] →
      (s.coreHere k = true → s.coreSt k = .asleep → s.fallow (k / 16) = false →
        s.corePend k = false ∨ (s.que.copies = [] ∧ s.rdB FAB_CTL.QUIESCE = true) → Completes (.coreWake q) s (fun t => t.gated k = false ∧ Returns s t k)) ∧
      (s.coreSt k ≠ .asleep → Completes (.coreWake q) s (fun t => t = s))) ∧
    (∀ q, s.live = false ∨ (s.queue q).cmd = none ∨ (s.queue q).granted = true ∨ (s.queue q).elig = false → Completes (.coreWake q) s (fun t => t = s)) ∧
    (∀ v : W64, (s.alive = false ∨ v.getLsbD 0 = false ∨ s.stby.inStby = true → Completes (.standbyEnter v) s (fun t => t = s)) ∧
      (s.alive = true → v.getLsbD 0 = true → s.stby.inStby = false →
        (s.boot.stage ≠ 12 → s.standbyRefusal = 1) ∧
        (s.standbyRefusal ≠ 0 → Completes (.standbyEnter v) s (fun t => t.rd PWR_STBY.REFUSED = s.standbyRefusal ∧
          OnlyRegs s t [Reg.addr .PWR_STBY 0 0 0])) ∧
        (s.standbyRefusal = 0 → Completes (.standbyEnter v) s (fun t => t.stby = { s.stby with inStby := true, left := false } ∧
          t.rd FAB_NODE.ONFAB = 0 ∧ (∀ l, l < s.variant.links → (t.link l).queue = [] ∧ (t.link l).credits = []) ∧ t.rollRuns = false)))) ∧
    (s.pwr.up = false ∨ s.alive = false ∨ s.stby.inStby = false → Completes .wake s (fun t => t = s)) ∧
    (s.alive = true → s.stby.inStby = true → Completes .wake s (fun t => t.stby = { s.stby with inStby := false, left := true } ∧
      t.epoch = (s.epoch + 1) % 2 ^ 64 ∧ t.win.cache = [] ∧ t.win.walks = [] ∧ t.rd FAB_NODE.ONFAB = s.rd FAB_NODE.ONFAB ∧
      (∀ c, s.boot.stage ≠ 13 → c < s.variant.cores → s.coreHere c = true → s.dieReleased (c / 16) = true → s.gated c = false →
        s.coreFenced c = false → (t.wnwOf c).ret = true ∧ (t.wnwOf c).running = true) ∧ t.mem = s.mem ∧ t.cores = s.cores)) ∧
    (s.pwr.up = true →
      Completes .status s (fun t => ∃ w : W64, t = { s with stby := { s.stby with armed := some w } } ∧
        (s.boot.stage < 16 → bits w.toNat 3 0 = s.boot.stage ∧ bits w.toNat 4 4 = b2n s.stby.inStby ∧
          bits w.toNat 5 5 = s.rd PWR_STAT.TRIP ∧ bits w.toNat 8 6 = s.rd PWR_STAT.TRIPSRC ∧ bits w.toNat 17 9 = s.node ∧
          bits w.toNat 18 18 = s.rd FAB_NODE.ONFAB ∧ bits w.toNat 63 19 = 0)) ∧
      (∀ b, b ≠ 1 → b ≠ 2 → Completes (.i3cReservedCommand b) s (fun t => t = { s with stby := { s.stby with armed := some 0 } })) ∧
      (∀ k, Completes (.i3cCommonCommand k) s (fun t => t = { s with stby := { s.stby with dynAddr := dynAfter s.stby.dynAddr k } }))) ∧
    (s.pwr.up = false → ∀ b k, ∀ row ∈ [Instr.status, .i3cReservedCommand b, .i3cCommonCommand k], Completes row s (fun t => t = s))

/-! ### The module as a whole -/

/-- One step: the command at the front of the queue takes effect with the queue's rest. On an empty queue 1 ns of the interpolated
timebase passes, which is the model's choice (R39, log entry 14), and a write of flash whose time is over ends (R589, R594, R603): flash
holds the new calibration in place of its older copy, or the slot the image, and RESULT shows how the update went. -/
def Obligations.StepRunsCommand : Prop :=
  ∀ (s : State),
    (∀ c r, s.pending = c :: r → step s = exec c { s with pending := r }) ∧
    (s.pending = [] → ∃ t, step s = .next t ∧ t.now = s.now + 1 ∧
      OnlyRegs { s with now := t.now, jobNs := t.jobNs, boot := t.boot } t [Reg.addr .BOOT_UCAL 0 0 0, Reg.addr .BOOT_FLUPD 0 0 0] ∧
      t.boot = { s.boot with ucalNew := t.boot.ucalNew, update := t.boot.update, flash := t.boot.flash } ∧
      (t.jobNs = if s.que.qs.any (fun e => e.2.st != 0) then s.jobNs + 1 else s.jobNs) ∧
      ((∀ e, s.boot.ucalNew = some e → s.now + 1 < e.1) → (∀ u, s.boot.update = some u → s.now + 1 < u.doneAt) →
        t.boot = s.boot ∧ t.csr = s.csr) ∧
      (∀ e, s.boot.ucalNew = some e → e.1 ≤ s.now + 1 → t.boot.ucalNew = none ∧ t.boot.flash.ucal = s.boot.flash.ucal.write e.2 ∧
        (s.boot.update = none → t.rd BOOT_UCAL.BUSY = 0)) ∧
      (∀ u, s.boot.update = some u → u.doneAt ≤ s.now + 1 → t.boot.update = none ∧ t.rd BOOT_FLUPD.RESULT = u.result % 4 ∧
        t.boot.flash.slot0 = (match u.image with
          | some (0, d) => d
          | _ => s.boot.flash.slot0) ∧
        t.boot.flash.slot1 = (match u.image with
          | some (_ + 1, d) => d
          | _ => s.boot.flash.slot1)))

/-- The module after power-on reset (R20, R39, R297, R416, R418, R528, R569, R571, R581): the timebase is 0, boot step 1 is in progress,
nothing runs, scratchpad, accumulators and L-space read 0, every node is ABSENT, and registers read their reset values. -/
def Obligations.StateAtReset : Prop :=
  State.reset.now = 0 ∧ State.reset.boot.stage = 1 ∧ State.reset.pending = [] ∧ State.reset.memOk = true ∧ State.reset.roll = {} ∧
    (∀ c a, SMap.get (State.reset.core c).spad 0 a = 0 ∧ SMap.get (State.reset.core c).acc 0 a = 0 ∧ (State.reset.core c).kernel = none ∧
      SMap.get State.reset.mem.loft 0 a = 0) ∧
    (∀ q, (State.reset.queue q).st = 0 ∧ (State.reset.queue q).cmd = none) ∧
    (∀ n, State.reset.nodeState n = 0) ∧ (∀ e, State.reset.evt e = 0) ∧
    (∀ g n i j, State.reset.reg g n i j = g.rst) ∧
    State.reset.rd FAB_CFG.MAXHOPS = 4 ∧ State.reset.rd FAB_CFG.STUCK = 200 ∧ State.reset.rd FAB_POOL.RSV0 = 32 ∧
    State.reset.rd FAB_POOL.RSV3 = 16 ∧ State.reset.rd FLT_WDOG.PERIOD = 1000 ∧ State.reset.rd FLT_WDOG.EN = 0 ∧
    State.reset.rd ROLL_CTL.EXRST = 1 ∧ State.reset.rd PWR_CFG.DMARGIN = 30 ∧ State.reset.rd PWR_CFG.HINT_EN = 1 ∧
    State.reset.rd FAB_NODE.ONFAB = 0 ∧ State.reset.rd ROLL_STAT.FENCED = 0 ∧ State.reset.rd FLT_REC0.VALID = 0

/-- Every step goes on, and keeps the module: whatever command is at the front, the step answers a next state, which is the model's reading of
a block that no command stops, and the variant is fixed (log entries 1 and 9). OTP storage stays what it was (R593), and memories in
canonical form stay in it, so that equal contents are equal data. -/
def Obligations.StepKeepsTheModule : Prop :=
  ∀ (s : State), ∃ t, step s = .next t ∧ t.variant = s.variant ∧ t.boot.otp = s.boot.otp ∧ (s.memOk = true → t.memOk = true) ∧
    t.pending = s.pending.drop 1
end

