-- ==== Sys2Proof/Laws/Bits.lean ====
section
/-! SUPPORT. The narrowing operations in terms of bit vectors. -/

namespace Sys2Proof.Laws

open Sys2Proof.Machine

/-- Narrowing an integer to 64 bits is what a bit vector of an integer holds. -/
theorem w64_wrapN (z : Int) : w64 (wrapN 64 z) = BitVec.ofInt 64 z := by
  apply BitVec.eq_of_toNat_eq
  have h : (0 : Int) ≤ z % 18446744073709551616 := Int.emod_nonneg _ (by norm_num)
  have h2 : z % 18446744073709551616 < 18446744073709551616 := Int.emod_lt_of_pos _ (by norm_num)
  rw [BitVec.toNat_ofInt]
  simp [wrapN]
  omega

/-- A register plus a signed offset, modulo 2^64. -/
theorem w64_addOff (x : W64) (o : Int) : w64 (addOff x o) = x + BitVec.ofInt 64 o := by
  unfold addOff
  rw [w64_wrapN]
  apply BitVec.eq_of_toInt_eq
  rw [BitVec.toInt_ofInt, BitVec.toInt_add, BitVec.toInt_ofInt, BitVec.toInt_eq_toNat_bmod]
  simp [Int.add_bmod]

theorem toNat_addOff (x : W64) (o : Int) : addOff x o = (x + BitVec.ofInt 64 o).toNat := by
  rw [← w64_addOff, BitVec.toNat_ofNat, Nat.mod_eq_of_lt]
  unfold addOff wrapN
  have h : (0 : Int) ≤ ((x.toNat : Int) + o) % 18446744073709551616 := Int.emod_nonneg _ (by norm_num)
  have h2 : ((x.toNat : Int) + o) % 18446744073709551616 < 18446744073709551616 := Int.emod_lt_of_pos _ (by norm_num)
  norm_num
  omega

/-! ### Halves of a 128-bit register -/

theorem lo_half (x : V128) (y : W64) : BitVec.ofNat 128 (setBits x.toNat 63 0 y.toNat) = x.extractLsb' 64 64 ++ y := by
  apply BitVec.eq_of_toNat_eq
  have hx := x.isLt
  have hy := y.isLt
  rw [BitVec.toNat_append, ← Nat.shiftLeft_add_eq_or_of_lt hy, BitVec.toNat_ofNat]
  simp only [setBits, BitVec.extractLsb'_toNat, Nat.shiftLeft_eq, Nat.shiftRight_eq_div_pow]
  omega

theorem hi_half (x : V128) (y : W64) : BitVec.ofNat 128 (setBits x.toNat 127 64 y.toNat) = y ++ x.extractLsb' 0 64 := by
  apply BitVec.eq_of_toNat_eq
  have hx := x.isLt
  have hy := y.isLt
  have hz := (x.extractLsb' 0 64).isLt
  rw [BitVec.toNat_append, ← Nat.shiftLeft_add_eq_or_of_lt hz, BitVec.toNat_ofNat]
  simp only [setBits, BitVec.extractLsb'_toNat, Nat.shiftLeft_eq, Nat.shiftRight_eq_div_pow]
  omega

theorem lo_read (x : V128) : w64 (bits x.toNat 63 0) = x.extractLsb' 0 64 := by
  apply BitVec.eq_of_toNat_eq
  simp [bits]

theorem hi_read (x : V128) : w64 (bits x.toNat 127 64) = x.extractLsb' 64 64 := by
  apply BitVec.eq_of_toNat_eq
  simp [bits]

end Sys2Proof.Laws
end

