-- ==== Sys2Proof/Laws/SMap.lean ====
section
/-! SUPPORT. Sparse maps: reading after writing, and the canonical form, which every operation keeps. -/

namespace Sys2Proof.Laws

open Sys2Proof.Machine

variable {α : Type}

/-! ### Reading after writing -/

@[simp] theorem smap_get_nil (d : α) (k : Nat) : SMap.get [] d k = d := rfl

theorem smap_get_cons (k' : Nat) (v : α) (r : SMap α) (d : α) (k : Nat) :
    SMap.get ((k', v) :: r) d k = if k' = k then v else SMap.get r d k := rfl

theorem smap_get_erase_self (m : SMap α) (d : α) (k : Nat) : SMap.get (SMap.erase m k) d k = d := by
  induction m with
  | nil => rfl
  | cons e r ih =>
    obtain ⟨k', v⟩ := e
    simp only [SMap.erase]
    split
    · exact ih
    · next h => simp [smap_get_cons, h, ih]

theorem smap_get_erase_ne (m : SMap α) (d : α) {k j : Nat} (h : j ≠ k) :
    SMap.get (SMap.erase m k) d j = SMap.get m d j := by
  induction m with
  | nil => rfl
  | cons e r ih =>
    obtain ⟨k', v⟩ := e
    simp only [SMap.erase]
    split
    · next hk => subst hk; simp [smap_get_cons, ih, Ne.symm h]
    · simp [smap_get_cons, ih]

theorem smap_get_ins_self (m : SMap α) (d : α) (k : Nat) (v : α) : SMap.get (SMap.ins m k v) d k = v := by
  induction m with
  | nil => simp [SMap.ins, smap_get_cons]
  | cons e r ih =>
    obtain ⟨k', w⟩ := e
    simp only [SMap.ins]
    split
    · simp [smap_get_cons]
    · split
      · simp [smap_get_cons]
      · next h => simp [smap_get_cons, ih, Ne.symm h]

theorem smap_get_ins_ne (m : SMap α) (d : α) {k j : Nat} (v : α) (h : j ≠ k) :
    SMap.get (SMap.ins m k v) d j = SMap.get m d j := by
  induction m with
  | nil => simp [SMap.ins, smap_get_cons, Ne.symm h]
  | cons e r ih =>
    obtain ⟨k', w⟩ := e
    simp only [SMap.ins]
    split
    · simp [smap_get_cons, Ne.symm h]
    · split
      · next hk => subst hk; simp [smap_get_cons, Ne.symm h]
      · simp [smap_get_cons, ih]

/-- A key reads as what was written to it. -/
@[simp] theorem smap_get_set_self [DecidableEq α] (m : SMap α) (d : α) (k : Nat) (v : α) :
    SMap.get (SMap.set m d k v) d k = v := by
  unfold SMap.set
  split
  · next h => rw [smap_get_erase_self, h]
  · exact smap_get_ins_self m d k v

/-- Every other key reads as before. -/
theorem smap_get_set_ne [DecidableEq α] (m : SMap α) (d : α) {k j : Nat} (v : α) (h : j ≠ k) :
    SMap.get (SMap.set m d k v) d j = SMap.get m d j := by
  unfold SMap.set
  split
  · exact smap_get_erase_ne m d h
  · exact smap_get_ins_ne m d v h

@[simp] theorem smap_get_upd_self [DecidableEq α] (m : SMap α) (d : α) (k : Nat) (f : α → α) :
    SMap.get (SMap.upd m d k f) d k = f (SMap.get m d k) := smap_get_set_self m d k _

theorem smap_get_upd_ne [DecidableEq α] (m : SMap α) (d : α) {k j : Nat} (f : α → α) (h : j ≠ k) :
    SMap.get (SMap.upd m d k f) d j = SMap.get m d j := smap_get_set_ne m d _ h

/-- What a key of a rewritten map reads as, where the rewriting keeps what an unlisted key reads as. -/
theorem smap_get_mapDrop [DecidableEq α] (m : SMap α) (d : Nat → α) (f : Nat → α → α) (k : Nat) (hf : f k (d k) = d k) :
    SMap.get (SMap.mapDrop m d f) (d k) k = f k (SMap.get m (d k) k) := by
  induction m with
  | nil => simp [SMap.mapDrop, SMap.get, hf]
  | cons e r ih =>
    obtain ⟨k', v⟩ := e
    simp only [SMap.mapDrop, smap_get_cons]
    by_cases hk : k' = k
    · subst hk
      by_cases hv : f k' v = d k'
      · simp [hv, smap_get_erase_self]
      · simp [hv, smap_get_cons]
    · by_cases hv : f k' v = d k'
      · rw [if_pos hv, smap_get_erase_ne _ _ (Ne.symm hk), ih, if_neg hk]
      · rw [if_neg hv, smap_get_cons, if_neg hk, ih, if_neg hk]

/-! ### Runs of keys -/

theorem smap_number_mem {a : Nat} {vs : List α} {e : Nat × α} (h : e ∈ SMap.number a vs) :
    a ≤ e.1 ∧ e.1 < a + vs.length := by
  induction vs generalizing a with
  | nil => cases h
  | cons v r ih =>
    simp only [SMap.number, List.mem_cons] at h
    rcases h with rfl | h
    · simp
    · have := ih h
      simp only [List.length_cons]
      omega

theorem smap_number_pairwise (a : Nat) (vs : List α) : (SMap.number a vs).Pairwise (fun x y => x.1 < y.1) := by
  induction vs generalizing a with
  | nil => exact List.Pairwise.nil
  | cons v r ih =>
    refine List.Pairwise.cons (fun e he => ?_) (ih (a + 1))
    exact (smap_number_mem he).1

theorem mem_takeWhile_lt {m : SMap α} {a : Nat} {e : Nat × α} (h : e ∈ m.takeWhile (fun e => decide (e.1 < a))) :
    e.1 < a := by
  have := List.mem_takeWhile_imp h
  simpa using this

theorem mem_dropWhile_ge {m : SMap α} (hm : m.Pairwise (fun x y => x.1 < y.1)) {a : Nat} {e : Nat × α}
    (h : e ∈ m.dropWhile (fun e => decide (e.1 < a))) : a ≤ e.1 := by
  induction m with
  | nil => cases h
  | cons x r ih =>
    rw [List.pairwise_cons] at hm
    rw [List.dropWhile_cons] at h
    split at h
    · exact ih hm.2 h
    · next hx =>
      have hx : a ≤ x.1 := by simpa using hx
      rcases List.mem_cons.1 h with rfl | h
      · exact hx
      · exact le_of_lt (lt_of_le_of_lt hx (hm.1 e h))

/-! ### The canonical form -/

section Form

variable [DecidableEq α] {d : Nat → Option α}

theorem smap_wf_cons {k : Nat} {v : α} {r : SMap α} :
    SMap.wf ((k, v) :: r) d = true ↔ some v ≠ d k ∧ (∀ e ∈ r, k < e.1) ∧ SMap.wf r d = true := by
  simp [SMap.wf, and_assoc]

/-- The canonical form in one sentence: keys rise strictly, and no entry equals what its key reads as unlisted. -/
theorem smap_wf_iff (m : SMap α) :
    SMap.wf m d = true ↔ m.Pairwise (fun a b => a.1 < b.1) ∧ ∀ e ∈ m, some e.2 ≠ d e.1 := by
  induction m with
  | nil => simp [SMap.wf]
  | cons e r ih =>
    obtain ⟨k, v⟩ := e
    rw [smap_wf_cons, ih, List.pairwise_cons]
    simp only [List.mem_cons, forall_eq_or_imp]
    tauto

/-- A part of a canonical map, in its order, is canonical. -/
theorem smap_wf_sublist {m n : SMap α} (h : SMap.wf m d = true) (hs : List.Sublist n m) : SMap.wf n d = true := by
  rw [smap_wf_iff] at h ⊢
  exact ⟨h.1.sublist hs, fun e he => h.2 e (hs.subset he)⟩

theorem smap_wf_dropRange {m : SMap α} (h : SMap.wf m d = true) (a n : Nat) : SMap.wf (m.dropRange a n) d = true :=
  smap_wf_sublist h List.filter_sublist

/-- Writing a run of values keeps the canonical form. -/
theorem smap_wf_putRange {m : SMap α} (h : SMap.wf m d = true) (a : Nat) (vs : List α) :
    SMap.wf (m.putRange d a vs) d = true := by
  rw [smap_wf_iff] at h ⊢
  obtain ⟨hp, hd⟩ := h
  unfold SMap.putRange
  constructor
  · rw [List.pairwise_append, List.pairwise_append]
    refine ⟨⟨hp.sublist (List.takeWhile_sublist _), (smap_number_pairwise a vs).sublist List.filter_sublist, ?_⟩,
      hp.sublist (List.dropWhile_sublist _), ?_⟩
    · intro x hx y hy
      exact lt_of_lt_of_le (mem_takeWhile_lt hx) (smap_number_mem (List.mem_of_mem_filter hy)).1
    · intro x hx y hy
      have hy := mem_dropWhile_ge hp hy
      rcases List.mem_append.1 hx with hx | hx
      · have := mem_takeWhile_lt hx; omega
      · have := (smap_number_mem (List.mem_of_mem_filter hx)).2; omega
  · intro e he
    rcases List.mem_append.1 he with he | he
    · rcases List.mem_append.1 he with he | he
      · exact hd e ((List.takeWhile_sublist _).subset he)
      · simpa using (List.mem_filter.1 he).2
    · exact hd e ((List.dropWhile_sublist _).subset he)

end Form

/-! ### Reading one key after writing a run -/

theorem smap_get_of_notMem {m : SMap α} {d : α} {k : Nat} (h : ∀ e ∈ m, e.1 ≠ k) : SMap.get m d k = d := by
  induction m with
  | nil => rfl
  | cons e r ih =>
    obtain ⟨j, v⟩ := e
    rw [smap_get_cons, if_neg (h (j, v) (by simp)), ih (fun e he => h e (by simp [he]))]

theorem smap_get_append {m n : SMap α} {d : α} {k : Nat} (h : ∀ e ∈ m, e.1 ≠ k) :
    SMap.get (m ++ n) d k = SMap.get n d k := by
  induction m with
  | nil => rfl
  | cons e r ih =>
    obtain ⟨j, v⟩ := e
    rw [List.cons_append, smap_get_cons, if_neg (h (j, v) (by simp)), ih (fun e he => h e (by simp [he]))]

theorem smap_get_append_left {m n : SMap α} {d : α} {k : Nat} (h : ∀ e ∈ n, e.1 ≠ k) :
    SMap.get (m ++ n) d k = SMap.get m d k := by
  induction m with
  | nil => simpa using smap_get_of_notMem h
  | cons e r ih =>
    obtain ⟨j, v⟩ := e
    rw [List.cons_append, smap_get_cons, smap_get_cons, ih]

theorem smap_get_takeWhile {m : SMap α} (hm : m.Pairwise (fun x y => x.1 < y.1)) {d : α} {a k : Nat} (h : k < a) :
    SMap.get (m.takeWhile (fun e => decide (e.1 < a))) d k = SMap.get m d k := by
  conv_rhs => rw [← List.takeWhile_append_dropWhile (p := fun e : Nat × α => decide (e.1 < a)) (l := m)]
  refine (smap_get_append_left (fun e he => ?_)).symm
  have := mem_dropWhile_ge hm he
  omega

theorem smap_get_dropWhile {m : SMap α} {d : α} {a k : Nat} (h : a ≤ k) :
    SMap.get (m.dropWhile (fun e => decide (e.1 < a))) d k = SMap.get m d k := by
  conv_rhs => rw [← List.takeWhile_append_dropWhile (p := fun e : Nat × α => decide (e.1 < a)) (l := m)]
  refine (smap_get_append (fun e he => ?_)).symm
  have := mem_takeWhile_lt he
  omega

/-- A key outside a run that is written reads as before. -/
theorem smap_get_putRange_out [DecidableEq α] {m : SMap α} {d : Nat → Option α} (h : SMap.wf m d = true) {x : α} {a k : Nat}
    {vs : List α} (hk : k < a ∨ a + vs.length ≤ k) : SMap.get (m.putRange d a vs) x k = SMap.get m x k := by
  have hp := ((smap_wf_iff m).1 h).1
  unfold SMap.putRange
  rcases hk with hk | hk
  · rw [List.append_assoc, smap_get_append_left, smap_get_takeWhile hp hk]
    intro e he
    rcases List.mem_append.1 he with he | he
    · have := (smap_number_mem (List.mem_of_mem_filter he)).1; omega
    · have := mem_dropWhile_ge hp he; omega
  · rw [smap_get_append, smap_get_dropWhile hk]
    intro e he
    rcases List.mem_append.1 he with he | he
    · have := mem_takeWhile_lt he; omega
    · have := (smap_number_mem (List.mem_of_mem_filter he)).2; omega

theorem smap_get_number {a i : Nat} {vs : List α} {x : α} (h : i < vs.length) :
    SMap.get (SMap.number a vs) x (a + i) = vs[i] := by
  induction vs generalizing a i with
  | nil => simp at h
  | cons v r ih =>
    rw [SMap.number, smap_get_cons]
    cases i with
    | zero => simp
    | succ j =>
      rw [if_neg (by omega), show a + (j + 1) = a + 1 + j from by omega, ih (by simpa using h)]
      rfl

theorem smap_get_number_filter [DecidableEq α] {a i : Nat} {vs : List α} {x : α} (h : i < vs.length) :
    SMap.get ((SMap.number a vs).filter (fun e => decide (some e.2 ≠ some x))) x (a + i) = vs[i] := by
  induction vs generalizing a i with
  | nil => simp at h
  | cons v r ih =>
    rw [SMap.number, List.filter_cons]
    cases i with
    | zero =>
      by_cases hv : v = x
      · simp only [hv, ne_eq, not_true_eq_false, decide_false, Bool.false_eq_true, if_false]
        rw [smap_get_of_notMem]
        · simp
        · intro e he
          have := (smap_number_mem (List.mem_of_mem_filter he)).1
          omega
      · simp [hv, smap_get_cons]
    | succ j =>
      have hj : j < r.length := by simpa using h
      have e1 : a + (j + 1) = a + 1 + j := by omega
      split
      · rw [smap_get_cons, if_neg (by omega), e1, ih hj]; rfl
      · rw [e1, ih hj]; rfl

/-- A key inside a run reads as what was written to it. -/
theorem smap_get_putRange_in [DecidableEq α] {m : SMap α} {x : α} (h : SMap.wf m (fun _ => some x) = true) {a i : Nat}
    {vs : List α} (hi : i < vs.length) : SMap.get (m.putRange (fun _ => some x) a vs) x (a + i) = vs[i] := by
  have hp := ((smap_wf_iff m).1 h).1
  unfold SMap.putRange
  rw [List.append_assoc, smap_get_append, smap_get_append_left, smap_get_number_filter hi]
  · intro e he
    have := mem_dropWhile_ge hp he; omega
  · intro e he
    have := mem_takeWhile_lt he; omega

end Sys2Proof.Laws
end

