-- ==== Sys2Proof/Laws/State.lean ====
section
/-! SUPPORT. What each named update of the state leaves as it is: one lemma per field and update, so that no proof unfolds a
record update. -/

namespace Sys2Proof.Laws

open Sys2Proof.Machine

variable (s : State)

/-! ### setReg -/

@[simp] theorem setReg_variant (g : Reg) (n i j : Nat) (w : W64) : (s.setReg g n i j w).variant = s.variant := rfl
@[simp] theorem setReg_now (g : Reg) (n i j : Nat) (w : W64) : (s.setReg g n i j w).now = s.now := rfl
@[simp] theorem setReg_skew (g : Reg) (n i j : Nat) (w : W64) : (s.setReg g n i j w).skew = s.skew := rfl
@[simp] theorem setReg_free (g : Reg) (n i j : Nat) (w : W64) : (s.setReg g n i j w).free = s.free := rfl
@[simp] theorem setReg_pending (g : Reg) (n i j : Nat) (w : W64) : (s.setReg g n i j w).pending = s.pending := rfl
@[simp] theorem setReg_cores (g : Reg) (n i j : Nat) (w : W64) : (s.setReg g n i j w).cores = s.cores := rfl
@[simp] theorem setReg_mem (g : Reg) (n i j : Nat) (w : W64) : (s.setReg g n i j w).mem = s.mem := rfl
@[simp] theorem setReg_que (g : Reg) (n i j : Nat) (w : W64) : (s.setReg g n i j w).que = s.que := rfl
@[simp] theorem setReg_win (g : Reg) (n i j : Nat) (w : W64) : (s.setReg g n i j w).win = s.win := rfl
@[simp] theorem setReg_fab (g : Reg) (n i j : Nat) (w : W64) : (s.setReg g n i j w).fab = s.fab := rfl
@[simp] theorem setReg_col (g : Reg) (n i j : Nat) (w : W64) : (s.setReg g n i j w).col = s.col := rfl
@[simp] theorem setReg_pho (g : Reg) (n i j : Nat) (w : W64) : (s.setReg g n i j w).pho = s.pho := rfl
@[simp] theorem setReg_dies (g : Reg) (n i j : Nat) (w : W64) : (s.setReg g n i j w).dies = s.dies := rfl
@[simp] theorem setReg_pwr (g : Reg) (n i j : Nat) (w : W64) : (s.setReg g n i j w).pwr = s.pwr := rfl
@[simp] theorem setReg_roll (g : Reg) (n i j : Nat) (w : W64) : (s.setReg g n i j w).roll = s.roll := rfl
@[simp] theorem setReg_wnw (g : Reg) (n i j : Nat) (w : W64) : (s.setReg g n i j w).wnw = s.wnw := rfl
@[simp] theorem setReg_steps (g : Reg) (n i j : Nat) (w : W64) : (s.setReg g n i j w).steps = s.steps := rfl
@[simp] theorem setReg_jobNs (g : Reg) (n i j : Nat) (w : W64) : (s.setReg g n i j w).jobNs = s.jobNs := rfl
@[simp] theorem setReg_trace (g : Reg) (n i j : Nat) (w : W64) : (s.setReg g n i j w).trace = s.trace := rfl
@[simp] theorem setReg_boot (g : Reg) (n i j : Nat) (w : W64) : (s.setReg g n i j w).boot = s.boot := rfl
@[simp] theorem setReg_flt (g : Reg) (n i j : Nat) (w : W64) : (s.setReg g n i j w).flt = s.flt := rfl
@[simp] theorem setReg_stby (g : Reg) (n i j : Nat) (w : W64) : (s.setReg g n i j w).stby = s.stby := rfl
@[simp] theorem setReg_halter (g : Reg) (n i j : Nat) (w : W64) : (s.setReg g n i j w).halter = s.halter := rfl

/-! ### wr -/

@[simp] theorem wr_variant (f : Fld) (v n i j : Nat) : (s.wr f v n i j).variant = s.variant := rfl
@[simp] theorem wr_now (f : Fld) (v n i j : Nat) : (s.wr f v n i j).now = s.now := rfl
@[simp] theorem wr_skew (f : Fld) (v n i j : Nat) : (s.wr f v n i j).skew = s.skew := rfl
@[simp] theorem wr_free (f : Fld) (v n i j : Nat) : (s.wr f v n i j).free = s.free := rfl
@[simp] theorem wr_pending (f : Fld) (v n i j : Nat) : (s.wr f v n i j).pending = s.pending := rfl
@[simp] theorem wr_cores (f : Fld) (v n i j : Nat) : (s.wr f v n i j).cores = s.cores := rfl
@[simp] theorem wr_mem (f : Fld) (v n i j : Nat) : (s.wr f v n i j).mem = s.mem := rfl
@[simp] theorem wr_que (f : Fld) (v n i j : Nat) : (s.wr f v n i j).que = s.que := rfl
@[simp] theorem wr_win (f : Fld) (v n i j : Nat) : (s.wr f v n i j).win = s.win := rfl
@[simp] theorem wr_fab (f : Fld) (v n i j : Nat) : (s.wr f v n i j).fab = s.fab := rfl
@[simp] theorem wr_col (f : Fld) (v n i j : Nat) : (s.wr f v n i j).col = s.col := rfl
@[simp] theorem wr_pho (f : Fld) (v n i j : Nat) : (s.wr f v n i j).pho = s.pho := rfl
@[simp] theorem wr_dies (f : Fld) (v n i j : Nat) : (s.wr f v n i j).dies = s.dies := rfl
@[simp] theorem wr_pwr (f : Fld) (v n i j : Nat) : (s.wr f v n i j).pwr = s.pwr := rfl
@[simp] theorem wr_roll (f : Fld) (v n i j : Nat) : (s.wr f v n i j).roll = s.roll := rfl
@[simp] theorem wr_wnw (f : Fld) (v n i j : Nat) : (s.wr f v n i j).wnw = s.wnw := rfl
@[simp] theorem wr_steps (f : Fld) (v n i j : Nat) : (s.wr f v n i j).steps = s.steps := rfl
@[simp] theorem wr_jobNs (f : Fld) (v n i j : Nat) : (s.wr f v n i j).jobNs = s.jobNs := rfl
@[simp] theorem wr_trace (f : Fld) (v n i j : Nat) : (s.wr f v n i j).trace = s.trace := rfl
@[simp] theorem wr_boot (f : Fld) (v n i j : Nat) : (s.wr f v n i j).boot = s.boot := rfl
@[simp] theorem wr_flt (f : Fld) (v n i j : Nat) : (s.wr f v n i j).flt = s.flt := rfl
@[simp] theorem wr_stby (f : Fld) (v n i j : Nat) : (s.wr f v n i j).stby = s.stby := rfl
@[simp] theorem wr_halter (f : Fld) (v n i j : Nat) : (s.wr f v n i j).halter = s.halter := rfl

/-! ### wrs -/

@[simp] theorem wrs_variant (g : Reg) (n i j : Nat) (l : List (Fld × Nat)) : (s.wrs g n i j l).variant = s.variant := rfl
@[simp] theorem wrs_now (g : Reg) (n i j : Nat) (l : List (Fld × Nat)) : (s.wrs g n i j l).now = s.now := rfl
@[simp] theorem wrs_skew (g : Reg) (n i j : Nat) (l : List (Fld × Nat)) : (s.wrs g n i j l).skew = s.skew := rfl
@[simp] theorem wrs_free (g : Reg) (n i j : Nat) (l : List (Fld × Nat)) : (s.wrs g n i j l).free = s.free := rfl
@[simp] theorem wrs_pending (g : Reg) (n i j : Nat) (l : List (Fld × Nat)) : (s.wrs g n i j l).pending = s.pending := rfl
@[simp] theorem wrs_cores (g : Reg) (n i j : Nat) (l : List (Fld × Nat)) : (s.wrs g n i j l).cores = s.cores := rfl
@[simp] theorem wrs_mem (g : Reg) (n i j : Nat) (l : List (Fld × Nat)) : (s.wrs g n i j l).mem = s.mem := rfl
@[simp] theorem wrs_que (g : Reg) (n i j : Nat) (l : List (Fld × Nat)) : (s.wrs g n i j l).que = s.que := rfl
@[simp] theorem wrs_win (g : Reg) (n i j : Nat) (l : List (Fld × Nat)) : (s.wrs g n i j l).win = s.win := rfl
@[simp] theorem wrs_fab (g : Reg) (n i j : Nat) (l : List (Fld × Nat)) : (s.wrs g n i j l).fab = s.fab := rfl
@[simp] theorem wrs_col (g : Reg) (n i j : Nat) (l : List (Fld × Nat)) : (s.wrs g n i j l).col = s.col := rfl
@[simp] theorem wrs_pho (g : Reg) (n i j : Nat) (l : List (Fld × Nat)) : (s.wrs g n i j l).pho = s.pho := rfl
@[simp] theorem wrs_dies (g : Reg) (n i j : Nat) (l : List (Fld × Nat)) : (s.wrs g n i j l).dies = s.dies := rfl
@[simp] theorem wrs_pwr (g : Reg) (n i j : Nat) (l : List (Fld × Nat)) : (s.wrs g n i j l).pwr = s.pwr := rfl
@[simp] theorem wrs_roll (g : Reg) (n i j : Nat) (l : List (Fld × Nat)) : (s.wrs g n i j l).roll = s.roll := rfl
@[simp] theorem wrs_wnw (g : Reg) (n i j : Nat) (l : List (Fld × Nat)) : (s.wrs g n i j l).wnw = s.wnw := rfl
@[simp] theorem wrs_steps (g : Reg) (n i j : Nat) (l : List (Fld × Nat)) : (s.wrs g n i j l).steps = s.steps := rfl
@[simp] theorem wrs_jobNs (g : Reg) (n i j : Nat) (l : List (Fld × Nat)) : (s.wrs g n i j l).jobNs = s.jobNs := rfl
@[simp] theorem wrs_trace (g : Reg) (n i j : Nat) (l : List (Fld × Nat)) : (s.wrs g n i j l).trace = s.trace := rfl
@[simp] theorem wrs_boot (g : Reg) (n i j : Nat) (l : List (Fld × Nat)) : (s.wrs g n i j l).boot = s.boot := rfl
@[simp] theorem wrs_flt (g : Reg) (n i j : Nat) (l : List (Fld × Nat)) : (s.wrs g n i j l).flt = s.flt := rfl
@[simp] theorem wrs_stby (g : Reg) (n i j : Nat) (l : List (Fld × Nat)) : (s.wrs g n i j l).stby = s.stby := rfl
@[simp] theorem wrs_halter (g : Reg) (n i j : Nat) (l : List (Fld × Nat)) : (s.wrs g n i j l).halter = s.halter := rfl

/-! ### incSat -/

@[simp] theorem incSat_variant (f : Fld) (k n i j : Nat) : (s.incSat f k n i j).variant = s.variant := rfl
@[simp] theorem incSat_now (f : Fld) (k n i j : Nat) : (s.incSat f k n i j).now = s.now := rfl
@[simp] theorem incSat_skew (f : Fld) (k n i j : Nat) : (s.incSat f k n i j).skew = s.skew := rfl
@[simp] theorem incSat_free (f : Fld) (k n i j : Nat) : (s.incSat f k n i j).free = s.free := rfl
@[simp] theorem incSat_pending (f : Fld) (k n i j : Nat) : (s.incSat f k n i j).pending = s.pending := rfl
@[simp] theorem incSat_cores (f : Fld) (k n i j : Nat) : (s.incSat f k n i j).cores = s.cores := rfl
@[simp] theorem incSat_mem (f : Fld) (k n i j : Nat) : (s.incSat f k n i j).mem = s.mem := rfl
@[simp] theorem incSat_que (f : Fld) (k n i j : Nat) : (s.incSat f k n i j).que = s.que := rfl
@[simp] theorem incSat_win (f : Fld) (k n i j : Nat) : (s.incSat f k n i j).win = s.win := rfl
@[simp] theorem incSat_fab (f : Fld) (k n i j : Nat) : (s.incSat f k n i j).fab = s.fab := rfl
@[simp] theorem incSat_col (f : Fld) (k n i j : Nat) : (s.incSat f k n i j).col = s.col := rfl
@[simp] theorem incSat_pho (f : Fld) (k n i j : Nat) : (s.incSat f k n i j).pho = s.pho := rfl
@[simp] theorem incSat_dies (f : Fld) (k n i j : Nat) : (s.incSat f k n i j).dies = s.dies := rfl
@[simp] theorem incSat_pwr (f : Fld) (k n i j : Nat) : (s.incSat f k n i j).pwr = s.pwr := rfl
@[simp] theorem incSat_roll (f : Fld) (k n i j : Nat) : (s.incSat f k n i j).roll = s.roll := rfl
@[simp] theorem incSat_wnw (f : Fld) (k n i j : Nat) : (s.incSat f k n i j).wnw = s.wnw := rfl
@[simp] theorem incSat_steps (f : Fld) (k n i j : Nat) : (s.incSat f k n i j).steps = s.steps := rfl
@[simp] theorem incSat_jobNs (f : Fld) (k n i j : Nat) : (s.incSat f k n i j).jobNs = s.jobNs := rfl
@[simp] theorem incSat_trace (f : Fld) (k n i j : Nat) : (s.incSat f k n i j).trace = s.trace := rfl
@[simp] theorem incSat_boot (f : Fld) (k n i j : Nat) : (s.incSat f k n i j).boot = s.boot := rfl
@[simp] theorem incSat_flt (f : Fld) (k n i j : Nat) : (s.incSat f k n i j).flt = s.flt := rfl
@[simp] theorem incSat_stby (f : Fld) (k n i j : Nat) : (s.incSat f k n i j).stby = s.stby := rfl
@[simp] theorem incSat_halter (f : Fld) (k n i j : Nat) : (s.incSat f k n i j).halter = s.halter := rfl

/-! ### incWrap -/

@[simp] theorem incWrap_variant (f : Fld) (k n i j : Nat) : (s.incWrap f k n i j).variant = s.variant := rfl
@[simp] theorem incWrap_now (f : Fld) (k n i j : Nat) : (s.incWrap f k n i j).now = s.now := rfl
@[simp] theorem incWrap_skew (f : Fld) (k n i j : Nat) : (s.incWrap f k n i j).skew = s.skew := rfl
@[simp] theorem incWrap_free (f : Fld) (k n i j : Nat) : (s.incWrap f k n i j).free = s.free := rfl
@[simp] theorem incWrap_pending (f : Fld) (k n i j : Nat) : (s.incWrap f k n i j).pending = s.pending := rfl
@[simp] theorem incWrap_cores (f : Fld) (k n i j : Nat) : (s.incWrap f k n i j).cores = s.cores := rfl
@[simp] theorem incWrap_mem (f : Fld) (k n i j : Nat) : (s.incWrap f k n i j).mem = s.mem := rfl
@[simp] theorem incWrap_que (f : Fld) (k n i j : Nat) : (s.incWrap f k n i j).que = s.que := rfl
@[simp] theorem incWrap_win (f : Fld) (k n i j : Nat) : (s.incWrap f k n i j).win = s.win := rfl
@[simp] theorem incWrap_fab (f : Fld) (k n i j : Nat) : (s.incWrap f k n i j).fab = s.fab := rfl
@[simp] theorem incWrap_col (f : Fld) (k n i j : Nat) : (s.incWrap f k n i j).col = s.col := rfl
@[simp] theorem incWrap_pho (f : Fld) (k n i j : Nat) : (s.incWrap f k n i j).pho = s.pho := rfl
@[simp] theorem incWrap_dies (f : Fld) (k n i j : Nat) : (s.incWrap f k n i j).dies = s.dies := rfl
@[simp] theorem incWrap_pwr (f : Fld) (k n i j : Nat) : (s.incWrap f k n i j).pwr = s.pwr := rfl
@[simp] theorem incWrap_roll (f : Fld) (k n i j : Nat) : (s.incWrap f k n i j).roll = s.roll := rfl
@[simp] theorem incWrap_wnw (f : Fld) (k n i j : Nat) : (s.incWrap f k n i j).wnw = s.wnw := rfl
@[simp] theorem incWrap_steps (f : Fld) (k n i j : Nat) : (s.incWrap f k n i j).steps = s.steps := rfl
@[simp] theorem incWrap_jobNs (f : Fld) (k n i j : Nat) : (s.incWrap f k n i j).jobNs = s.jobNs := rfl
@[simp] theorem incWrap_trace (f : Fld) (k n i j : Nat) : (s.incWrap f k n i j).trace = s.trace := rfl
@[simp] theorem incWrap_boot (f : Fld) (k n i j : Nat) : (s.incWrap f k n i j).boot = s.boot := rfl
@[simp] theorem incWrap_flt (f : Fld) (k n i j : Nat) : (s.incWrap f k n i j).flt = s.flt := rfl
@[simp] theorem incWrap_stby (f : Fld) (k n i j : Nat) : (s.incWrap f k n i j).stby = s.stby := rfl
@[simp] theorem incWrap_halter (f : Fld) (k n i j : Nat) : (s.incWrap f k n i j).halter = s.halter := rfl

/-! ### wrMax -/

@[simp] theorem wrMax_variant (f : Fld) (v n i j : Nat) : (s.wrMax f v n i j).variant = s.variant := rfl
@[simp] theorem wrMax_now (f : Fld) (v n i j : Nat) : (s.wrMax f v n i j).now = s.now := rfl
@[simp] theorem wrMax_skew (f : Fld) (v n i j : Nat) : (s.wrMax f v n i j).skew = s.skew := rfl
@[simp] theorem wrMax_free (f : Fld) (v n i j : Nat) : (s.wrMax f v n i j).free = s.free := rfl
@[simp] theorem wrMax_pending (f : Fld) (v n i j : Nat) : (s.wrMax f v n i j).pending = s.pending := rfl
@[simp] theorem wrMax_cores (f : Fld) (v n i j : Nat) : (s.wrMax f v n i j).cores = s.cores := rfl
@[simp] theorem wrMax_mem (f : Fld) (v n i j : Nat) : (s.wrMax f v n i j).mem = s.mem := rfl
@[simp] theorem wrMax_que (f : Fld) (v n i j : Nat) : (s.wrMax f v n i j).que = s.que := rfl
@[simp] theorem wrMax_win (f : Fld) (v n i j : Nat) : (s.wrMax f v n i j).win = s.win := rfl
@[simp] theorem wrMax_fab (f : Fld) (v n i j : Nat) : (s.wrMax f v n i j).fab = s.fab := rfl
@[simp] theorem wrMax_col (f : Fld) (v n i j : Nat) : (s.wrMax f v n i j).col = s.col := rfl
@[simp] theorem wrMax_pho (f : Fld) (v n i j : Nat) : (s.wrMax f v n i j).pho = s.pho := rfl
@[simp] theorem wrMax_dies (f : Fld) (v n i j : Nat) : (s.wrMax f v n i j).dies = s.dies := rfl
@[simp] theorem wrMax_pwr (f : Fld) (v n i j : Nat) : (s.wrMax f v n i j).pwr = s.pwr := rfl
@[simp] theorem wrMax_roll (f : Fld) (v n i j : Nat) : (s.wrMax f v n i j).roll = s.roll := rfl
@[simp] theorem wrMax_wnw (f : Fld) (v n i j : Nat) : (s.wrMax f v n i j).wnw = s.wnw := rfl
@[simp] theorem wrMax_steps (f : Fld) (v n i j : Nat) : (s.wrMax f v n i j).steps = s.steps := rfl
@[simp] theorem wrMax_jobNs (f : Fld) (v n i j : Nat) : (s.wrMax f v n i j).jobNs = s.jobNs := rfl
@[simp] theorem wrMax_trace (f : Fld) (v n i j : Nat) : (s.wrMax f v n i j).trace = s.trace := rfl
@[simp] theorem wrMax_boot (f : Fld) (v n i j : Nat) : (s.wrMax f v n i j).boot = s.boot := rfl
@[simp] theorem wrMax_flt (f : Fld) (v n i j : Nat) : (s.wrMax f v n i j).flt = s.flt := rfl
@[simp] theorem wrMax_stby (f : Fld) (v n i j : Nat) : (s.wrMax f v n i j).stby = s.stby := rfl
@[simp] theorem wrMax_halter (f : Fld) (v n i j : Nat) : (s.wrMax f v n i j).halter = s.halter := rfl

/-! ### wrBit -/

@[simp] theorem wrBit_variant (f : Fld) (d : Nat) (b : Bool) (n i : Nat) : (s.wrBit f d b n i).variant = s.variant := rfl
@[simp] theorem wrBit_now (f : Fld) (d : Nat) (b : Bool) (n i : Nat) : (s.wrBit f d b n i).now = s.now := rfl
@[simp] theorem wrBit_skew (f : Fld) (d : Nat) (b : Bool) (n i : Nat) : (s.wrBit f d b n i).skew = s.skew := rfl
@[simp] theorem wrBit_free (f : Fld) (d : Nat) (b : Bool) (n i : Nat) : (s.wrBit f d b n i).free = s.free := rfl
@[simp] theorem wrBit_pending (f : Fld) (d : Nat) (b : Bool) (n i : Nat) : (s.wrBit f d b n i).pending = s.pending := rfl
@[simp] theorem wrBit_cores (f : Fld) (d : Nat) (b : Bool) (n i : Nat) : (s.wrBit f d b n i).cores = s.cores := rfl
@[simp] theorem wrBit_mem (f : Fld) (d : Nat) (b : Bool) (n i : Nat) : (s.wrBit f d b n i).mem = s.mem := rfl
@[simp] theorem wrBit_que (f : Fld) (d : Nat) (b : Bool) (n i : Nat) : (s.wrBit f d b n i).que = s.que := rfl
@[simp] theorem wrBit_win (f : Fld) (d : Nat) (b : Bool) (n i : Nat) : (s.wrBit f d b n i).win = s.win := rfl
@[simp] theorem wrBit_fab (f : Fld) (d : Nat) (b : Bool) (n i : Nat) : (s.wrBit f d b n i).fab = s.fab := rfl
@[simp] theorem wrBit_col (f : Fld) (d : Nat) (b : Bool) (n i : Nat) : (s.wrBit f d b n i).col = s.col := rfl
@[simp] theorem wrBit_pho (f : Fld) (d : Nat) (b : Bool) (n i : Nat) : (s.wrBit f d b n i).pho = s.pho := rfl
@[simp] theorem wrBit_dies (f : Fld) (d : Nat) (b : Bool) (n i : Nat) : (s.wrBit f d b n i).dies = s.dies := rfl
@[simp] theorem wrBit_pwr (f : Fld) (d : Nat) (b : Bool) (n i : Nat) : (s.wrBit f d b n i).pwr = s.pwr := rfl
@[simp] theorem wrBit_roll (f : Fld) (d : Nat) (b : Bool) (n i : Nat) : (s.wrBit f d b n i).roll = s.roll := rfl
@[simp] theorem wrBit_wnw (f : Fld) (d : Nat) (b : Bool) (n i : Nat) : (s.wrBit f d b n i).wnw = s.wnw := rfl
@[simp] theorem wrBit_steps (f : Fld) (d : Nat) (b : Bool) (n i : Nat) : (s.wrBit f d b n i).steps = s.steps := rfl
@[simp] theorem wrBit_jobNs (f : Fld) (d : Nat) (b : Bool) (n i : Nat) : (s.wrBit f d b n i).jobNs = s.jobNs := rfl
@[simp] theorem wrBit_trace (f : Fld) (d : Nat) (b : Bool) (n i : Nat) : (s.wrBit f d b n i).trace = s.trace := rfl
@[simp] theorem wrBit_boot (f : Fld) (d : Nat) (b : Bool) (n i : Nat) : (s.wrBit f d b n i).boot = s.boot := rfl
@[simp] theorem wrBit_flt (f : Fld) (d : Nat) (b : Bool) (n i : Nat) : (s.wrBit f d b n i).flt = s.flt := rfl
@[simp] theorem wrBit_stby (f : Fld) (d : Nat) (b : Bool) (n i : Nat) : (s.wrBit f d b n i).stby = s.stby := rfl
@[simp] theorem wrBit_halter (f : Fld) (d : Nat) (b : Bool) (n i : Nat) : (s.wrBit f d b n i).halter = s.halter := rfl

/-! ### writeFields -/

@[simp] theorem writeFields_variant (g : Reg) (n i j : Nat) (w : W64) : (s.writeFields g n i j w).variant = s.variant := rfl
@[simp] theorem writeFields_now (g : Reg) (n i j : Nat) (w : W64) : (s.writeFields g n i j w).now = s.now := rfl
@[simp] theorem writeFields_skew (g : Reg) (n i j : Nat) (w : W64) : (s.writeFields g n i j w).skew = s.skew := rfl
@[simp] theorem writeFields_free (g : Reg) (n i j : Nat) (w : W64) : (s.writeFields g n i j w).free = s.free := rfl
@[simp] theorem writeFields_pending (g : Reg) (n i j : Nat) (w : W64) : (s.writeFields g n i j w).pending = s.pending := rfl
@[simp] theorem writeFields_cores (g : Reg) (n i j : Nat) (w : W64) : (s.writeFields g n i j w).cores = s.cores := rfl
@[simp] theorem writeFields_mem (g : Reg) (n i j : Nat) (w : W64) : (s.writeFields g n i j w).mem = s.mem := rfl
@[simp] theorem writeFields_que (g : Reg) (n i j : Nat) (w : W64) : (s.writeFields g n i j w).que = s.que := rfl
@[simp] theorem writeFields_win (g : Reg) (n i j : Nat) (w : W64) : (s.writeFields g n i j w).win = s.win := rfl
@[simp] theorem writeFields_fab (g : Reg) (n i j : Nat) (w : W64) : (s.writeFields g n i j w).fab = s.fab := rfl
@[simp] theorem writeFields_col (g : Reg) (n i j : Nat) (w : W64) : (s.writeFields g n i j w).col = s.col := rfl
@[simp] theorem writeFields_pho (g : Reg) (n i j : Nat) (w : W64) : (s.writeFields g n i j w).pho = s.pho := rfl
@[simp] theorem writeFields_dies (g : Reg) (n i j : Nat) (w : W64) : (s.writeFields g n i j w).dies = s.dies := rfl
@[simp] theorem writeFields_pwr (g : Reg) (n i j : Nat) (w : W64) : (s.writeFields g n i j w).pwr = s.pwr := rfl
@[simp] theorem writeFields_roll (g : Reg) (n i j : Nat) (w : W64) : (s.writeFields g n i j w).roll = s.roll := rfl
@[simp] theorem writeFields_wnw (g : Reg) (n i j : Nat) (w : W64) : (s.writeFields g n i j w).wnw = s.wnw := rfl
@[simp] theorem writeFields_steps (g : Reg) (n i j : Nat) (w : W64) : (s.writeFields g n i j w).steps = s.steps := rfl
@[simp] theorem writeFields_jobNs (g : Reg) (n i j : Nat) (w : W64) : (s.writeFields g n i j w).jobNs = s.jobNs := rfl
@[simp] theorem writeFields_trace (g : Reg) (n i j : Nat) (w : W64) : (s.writeFields g n i j w).trace = s.trace := rfl
@[simp] theorem writeFields_boot (g : Reg) (n i j : Nat) (w : W64) : (s.writeFields g n i j w).boot = s.boot := rfl
@[simp] theorem writeFields_flt (g : Reg) (n i j : Nat) (w : W64) : (s.writeFields g n i j w).flt = s.flt := rfl
@[simp] theorem writeFields_stby (g : Reg) (n i j : Nat) (w : W64) : (s.writeFields g n i j w).stby = s.stby := rfl
@[simp] theorem writeFields_halter (g : Reg) (n i j : Nat) (w : W64) : (s.writeFields g n i j w).halter = s.halter := rfl

/-! ### resetRegs -/

@[simp] theorem resetRegs_variant (k : Nat) (f : RegAt → Bool) : (s.resetRegs k f).variant = s.variant := rfl
@[simp] theorem resetRegs_now (k : Nat) (f : RegAt → Bool) : (s.resetRegs k f).now = s.now := rfl
@[simp] theorem resetRegs_skew (k : Nat) (f : RegAt → Bool) : (s.resetRegs k f).skew = s.skew := rfl
@[simp] theorem resetRegs_free (k : Nat) (f : RegAt → Bool) : (s.resetRegs k f).free = s.free := rfl
@[simp] theorem resetRegs_pending (k : Nat) (f : RegAt → Bool) : (s.resetRegs k f).pending = s.pending := rfl
@[simp] theorem resetRegs_cores (k : Nat) (f : RegAt → Bool) : (s.resetRegs k f).cores = s.cores := rfl
@[simp] theorem resetRegs_mem (k : Nat) (f : RegAt → Bool) : (s.resetRegs k f).mem = s.mem := rfl
@[simp] theorem resetRegs_que (k : Nat) (f : RegAt → Bool) : (s.resetRegs k f).que = s.que := rfl
@[simp] theorem resetRegs_win (k : Nat) (f : RegAt → Bool) : (s.resetRegs k f).win = s.win := rfl
@[simp] theorem resetRegs_fab (k : Nat) (f : RegAt → Bool) : (s.resetRegs k f).fab = s.fab := rfl
@[simp] theorem resetRegs_col (k : Nat) (f : RegAt → Bool) : (s.resetRegs k f).col = s.col := rfl
@[simp] theorem resetRegs_pho (k : Nat) (f : RegAt → Bool) : (s.resetRegs k f).pho = s.pho := rfl
@[simp] theorem resetRegs_dies (k : Nat) (f : RegAt → Bool) : (s.resetRegs k f).dies = s.dies := rfl
@[simp] theorem resetRegs_pwr (k : Nat) (f : RegAt → Bool) : (s.resetRegs k f).pwr = s.pwr := rfl
@[simp] theorem resetRegs_roll (k : Nat) (f : RegAt → Bool) : (s.resetRegs k f).roll = s.roll := rfl
@[simp] theorem resetRegs_wnw (k : Nat) (f : RegAt → Bool) : (s.resetRegs k f).wnw = s.wnw := rfl
@[simp] theorem resetRegs_steps (k : Nat) (f : RegAt → Bool) : (s.resetRegs k f).steps = s.steps := rfl
@[simp] theorem resetRegs_jobNs (k : Nat) (f : RegAt → Bool) : (s.resetRegs k f).jobNs = s.jobNs := rfl
@[simp] theorem resetRegs_trace (k : Nat) (f : RegAt → Bool) : (s.resetRegs k f).trace = s.trace := rfl
@[simp] theorem resetRegs_boot (k : Nat) (f : RegAt → Bool) : (s.resetRegs k f).boot = s.boot := rfl
@[simp] theorem resetRegs_flt (k : Nat) (f : RegAt → Bool) : (s.resetRegs k f).flt = s.flt := rfl
@[simp] theorem resetRegs_stby (k : Nat) (f : RegAt → Bool) : (s.resetRegs k f).stby = s.stby := rfl
@[simp] theorem resetRegs_halter (k : Nat) (f : RegAt → Bool) : (s.resetRegs k f).halter = s.halter := rfl

/-! ### setCore -/

@[simp] theorem setCore_variant (c : Nat) (k : Core) : (s.setCore c k).variant = s.variant := rfl
@[simp] theorem setCore_now (c : Nat) (k : Core) : (s.setCore c k).now = s.now := rfl
@[simp] theorem setCore_skew (c : Nat) (k : Core) : (s.setCore c k).skew = s.skew := rfl
@[simp] theorem setCore_free (c : Nat) (k : Core) : (s.setCore c k).free = s.free := rfl
@[simp] theorem setCore_pending (c : Nat) (k : Core) : (s.setCore c k).pending = s.pending := rfl
@[simp] theorem setCore_csr (c : Nat) (k : Core) : (s.setCore c k).csr = s.csr := rfl
@[simp] theorem setCore_mem (c : Nat) (k : Core) : (s.setCore c k).mem = s.mem := rfl
@[simp] theorem setCore_que (c : Nat) (k : Core) : (s.setCore c k).que = s.que := rfl
@[simp] theorem setCore_win (c : Nat) (k : Core) : (s.setCore c k).win = s.win := rfl
@[simp] theorem setCore_fab (c : Nat) (k : Core) : (s.setCore c k).fab = s.fab := rfl
@[simp] theorem setCore_col (c : Nat) (k : Core) : (s.setCore c k).col = s.col := rfl
@[simp] theorem setCore_pho (c : Nat) (k : Core) : (s.setCore c k).pho = s.pho := rfl
@[simp] theorem setCore_dies (c : Nat) (k : Core) : (s.setCore c k).dies = s.dies := rfl
@[simp] theorem setCore_pwr (c : Nat) (k : Core) : (s.setCore c k).pwr = s.pwr := rfl
@[simp] theorem setCore_roll (c : Nat) (k : Core) : (s.setCore c k).roll = s.roll := rfl
@[simp] theorem setCore_wnw (c : Nat) (k : Core) : (s.setCore c k).wnw = s.wnw := rfl
@[simp] theorem setCore_steps (c : Nat) (k : Core) : (s.setCore c k).steps = s.steps := rfl
@[simp] theorem setCore_jobNs (c : Nat) (k : Core) : (s.setCore c k).jobNs = s.jobNs := rfl
@[simp] theorem setCore_trace (c : Nat) (k : Core) : (s.setCore c k).trace = s.trace := rfl
@[simp] theorem setCore_boot (c : Nat) (k : Core) : (s.setCore c k).boot = s.boot := rfl
@[simp] theorem setCore_flt (c : Nat) (k : Core) : (s.setCore c k).flt = s.flt := rfl
@[simp] theorem setCore_stby (c : Nat) (k : Core) : (s.setCore c k).stby = s.stby := rfl
@[simp] theorem setCore_halter (c : Nat) (k : Core) : (s.setCore c k).halter = s.halter := rfl

/-! ### modCore -/

@[simp] theorem modCore_variant (c : Nat) (f : Core → Core) : (s.modCore c f).variant = s.variant := rfl
@[simp] theorem modCore_now (c : Nat) (f : Core → Core) : (s.modCore c f).now = s.now := rfl
@[simp] theorem modCore_skew (c : Nat) (f : Core → Core) : (s.modCore c f).skew = s.skew := rfl
@[simp] theorem modCore_free (c : Nat) (f : Core → Core) : (s.modCore c f).free = s.free := rfl
@[simp] theorem modCore_pending (c : Nat) (f : Core → Core) : (s.modCore c f).pending = s.pending := rfl
@[simp] theorem modCore_csr (c : Nat) (f : Core → Core) : (s.modCore c f).csr = s.csr := rfl
@[simp] theorem modCore_mem (c : Nat) (f : Core → Core) : (s.modCore c f).mem = s.mem := rfl
@[simp] theorem modCore_que (c : Nat) (f : Core → Core) : (s.modCore c f).que = s.que := rfl
@[simp] theorem modCore_win (c : Nat) (f : Core → Core) : (s.modCore c f).win = s.win := rfl
@[simp] theorem modCore_fab (c : Nat) (f : Core → Core) : (s.modCore c f).fab = s.fab := rfl
@[simp] theorem modCore_col (c : Nat) (f : Core → Core) : (s.modCore c f).col = s.col := rfl
@[simp] theorem modCore_pho (c : Nat) (f : Core → Core) : (s.modCore c f).pho = s.pho := rfl
@[simp] theorem modCore_dies (c : Nat) (f : Core → Core) : (s.modCore c f).dies = s.dies := rfl
@[simp] theorem modCore_pwr (c : Nat) (f : Core → Core) : (s.modCore c f).pwr = s.pwr := rfl
@[simp] theorem modCore_roll (c : Nat) (f : Core → Core) : (s.modCore c f).roll = s.roll := rfl
@[simp] theorem modCore_wnw (c : Nat) (f : Core → Core) : (s.modCore c f).wnw = s.wnw := rfl
@[simp] theorem modCore_steps (c : Nat) (f : Core → Core) : (s.modCore c f).steps = s.steps := rfl
@[simp] theorem modCore_jobNs (c : Nat) (f : Core → Core) : (s.modCore c f).jobNs = s.jobNs := rfl
@[simp] theorem modCore_trace (c : Nat) (f : Core → Core) : (s.modCore c f).trace = s.trace := rfl
@[simp] theorem modCore_boot (c : Nat) (f : Core → Core) : (s.modCore c f).boot = s.boot := rfl
@[simp] theorem modCore_flt (c : Nat) (f : Core → Core) : (s.modCore c f).flt = s.flt := rfl
@[simp] theorem modCore_stby (c : Nat) (f : Core → Core) : (s.modCore c f).stby = s.stby := rfl
@[simp] theorem modCore_halter (c : Nat) (f : Core → Core) : (s.modCore c f).halter = s.halter := rfl

/-! ### modSp -/

@[simp] theorem modSp_variant (c p : Nat) (f : Sp → Sp) : (s.modSp c p f).variant = s.variant := rfl
@[simp] theorem modSp_now (c p : Nat) (f : Sp → Sp) : (s.modSp c p f).now = s.now := rfl
@[simp] theorem modSp_skew (c p : Nat) (f : Sp → Sp) : (s.modSp c p f).skew = s.skew := rfl
@[simp] theorem modSp_free (c p : Nat) (f : Sp → Sp) : (s.modSp c p f).free = s.free := rfl
@[simp] theorem modSp_pending (c p : Nat) (f : Sp → Sp) : (s.modSp c p f).pending = s.pending := rfl
@[simp] theorem modSp_csr (c p : Nat) (f : Sp → Sp) : (s.modSp c p f).csr = s.csr := rfl
@[simp] theorem modSp_mem (c p : Nat) (f : Sp → Sp) : (s.modSp c p f).mem = s.mem := rfl
@[simp] theorem modSp_que (c p : Nat) (f : Sp → Sp) : (s.modSp c p f).que = s.que := rfl
@[simp] theorem modSp_win (c p : Nat) (f : Sp → Sp) : (s.modSp c p f).win = s.win := rfl
@[simp] theorem modSp_fab (c p : Nat) (f : Sp → Sp) : (s.modSp c p f).fab = s.fab := rfl
@[simp] theorem modSp_col (c p : Nat) (f : Sp → Sp) : (s.modSp c p f).col = s.col := rfl
@[simp] theorem modSp_pho (c p : Nat) (f : Sp → Sp) : (s.modSp c p f).pho = s.pho := rfl
@[simp] theorem modSp_dies (c p : Nat) (f : Sp → Sp) : (s.modSp c p f).dies = s.dies := rfl
@[simp] theorem modSp_pwr (c p : Nat) (f : Sp → Sp) : (s.modSp c p f).pwr = s.pwr := rfl
@[simp] theorem modSp_roll (c p : Nat) (f : Sp → Sp) : (s.modSp c p f).roll = s.roll := rfl
@[simp] theorem modSp_wnw (c p : Nat) (f : Sp → Sp) : (s.modSp c p f).wnw = s.wnw := rfl
@[simp] theorem modSp_steps (c p : Nat) (f : Sp → Sp) : (s.modSp c p f).steps = s.steps := rfl
@[simp] theorem modSp_jobNs (c p : Nat) (f : Sp → Sp) : (s.modSp c p f).jobNs = s.jobNs := rfl
@[simp] theorem modSp_trace (c p : Nat) (f : Sp → Sp) : (s.modSp c p f).trace = s.trace := rfl
@[simp] theorem modSp_boot (c p : Nat) (f : Sp → Sp) : (s.modSp c p f).boot = s.boot := rfl
@[simp] theorem modSp_flt (c p : Nat) (f : Sp → Sp) : (s.modSp c p f).flt = s.flt := rfl
@[simp] theorem modSp_stby (c p : Nat) (f : Sp → Sp) : (s.modSp c p f).stby = s.stby := rfl
@[simp] theorem modSp_halter (c p : Nat) (f : Sp → Sp) : (s.modSp c p f).halter = s.halter := rfl

/-! ### modArr -/

@[simp] theorem modArr_variant (c a : Nat) (f : Arr → Arr) : (s.modArr c a f).variant = s.variant := rfl
@[simp] theorem modArr_now (c a : Nat) (f : Arr → Arr) : (s.modArr c a f).now = s.now := rfl
@[simp] theorem modArr_skew (c a : Nat) (f : Arr → Arr) : (s.modArr c a f).skew = s.skew := rfl
@[simp] theorem modArr_free (c a : Nat) (f : Arr → Arr) : (s.modArr c a f).free = s.free := rfl
@[simp] theorem modArr_pending (c a : Nat) (f : Arr → Arr) : (s.modArr c a f).pending = s.pending := rfl
@[simp] theorem modArr_csr (c a : Nat) (f : Arr → Arr) : (s.modArr c a f).csr = s.csr := rfl
@[simp] theorem modArr_mem (c a : Nat) (f : Arr → Arr) : (s.modArr c a f).mem = s.mem := rfl
@[simp] theorem modArr_que (c a : Nat) (f : Arr → Arr) : (s.modArr c a f).que = s.que := rfl
@[simp] theorem modArr_win (c a : Nat) (f : Arr → Arr) : (s.modArr c a f).win = s.win := rfl
@[simp] theorem modArr_fab (c a : Nat) (f : Arr → Arr) : (s.modArr c a f).fab = s.fab := rfl
@[simp] theorem modArr_col (c a : Nat) (f : Arr → Arr) : (s.modArr c a f).col = s.col := rfl
@[simp] theorem modArr_pho (c a : Nat) (f : Arr → Arr) : (s.modArr c a f).pho = s.pho := rfl
@[simp] theorem modArr_dies (c a : Nat) (f : Arr → Arr) : (s.modArr c a f).dies = s.dies := rfl
@[simp] theorem modArr_pwr (c a : Nat) (f : Arr → Arr) : (s.modArr c a f).pwr = s.pwr := rfl
@[simp] theorem modArr_roll (c a : Nat) (f : Arr → Arr) : (s.modArr c a f).roll = s.roll := rfl
@[simp] theorem modArr_wnw (c a : Nat) (f : Arr → Arr) : (s.modArr c a f).wnw = s.wnw := rfl
@[simp] theorem modArr_steps (c a : Nat) (f : Arr → Arr) : (s.modArr c a f).steps = s.steps := rfl
@[simp] theorem modArr_jobNs (c a : Nat) (f : Arr → Arr) : (s.modArr c a f).jobNs = s.jobNs := rfl
@[simp] theorem modArr_trace (c a : Nat) (f : Arr → Arr) : (s.modArr c a f).trace = s.trace := rfl
@[simp] theorem modArr_boot (c a : Nat) (f : Arr → Arr) : (s.modArr c a f).boot = s.boot := rfl
@[simp] theorem modArr_flt (c a : Nat) (f : Arr → Arr) : (s.modArr c a f).flt = s.flt := rfl
@[simp] theorem modArr_stby (c a : Nat) (f : Arr → Arr) : (s.modArr c a f).stby = s.stby := rfl
@[simp] theorem modArr_halter (c a : Nat) (f : Arr → Arr) : (s.modArr c a f).halter = s.halter := rfl

/-! ### modGln -/

@[simp] theorem modGln_variant (c : Nat) (f : Gln → Gln) : (s.modGln c f).variant = s.variant := rfl
@[simp] theorem modGln_now (c : Nat) (f : Gln → Gln) : (s.modGln c f).now = s.now := rfl
@[simp] theorem modGln_skew (c : Nat) (f : Gln → Gln) : (s.modGln c f).skew = s.skew := rfl
@[simp] theorem modGln_free (c : Nat) (f : Gln → Gln) : (s.modGln c f).free = s.free := rfl
@[simp] theorem modGln_pending (c : Nat) (f : Gln → Gln) : (s.modGln c f).pending = s.pending := rfl
@[simp] theorem modGln_csr (c : Nat) (f : Gln → Gln) : (s.modGln c f).csr = s.csr := rfl
@[simp] theorem modGln_mem (c : Nat) (f : Gln → Gln) : (s.modGln c f).mem = s.mem := rfl
@[simp] theorem modGln_que (c : Nat) (f : Gln → Gln) : (s.modGln c f).que = s.que := rfl
@[simp] theorem modGln_win (c : Nat) (f : Gln → Gln) : (s.modGln c f).win = s.win := rfl
@[simp] theorem modGln_fab (c : Nat) (f : Gln → Gln) : (s.modGln c f).fab = s.fab := rfl
@[simp] theorem modGln_col (c : Nat) (f : Gln → Gln) : (s.modGln c f).col = s.col := rfl
@[simp] theorem modGln_pho (c : Nat) (f : Gln → Gln) : (s.modGln c f).pho = s.pho := rfl
@[simp] theorem modGln_dies (c : Nat) (f : Gln → Gln) : (s.modGln c f).dies = s.dies := rfl
@[simp] theorem modGln_pwr (c : Nat) (f : Gln → Gln) : (s.modGln c f).pwr = s.pwr := rfl
@[simp] theorem modGln_roll (c : Nat) (f : Gln → Gln) : (s.modGln c f).roll = s.roll := rfl
@[simp] theorem modGln_wnw (c : Nat) (f : Gln → Gln) : (s.modGln c f).wnw = s.wnw := rfl
@[simp] theorem modGln_steps (c : Nat) (f : Gln → Gln) : (s.modGln c f).steps = s.steps := rfl
@[simp] theorem modGln_jobNs (c : Nat) (f : Gln → Gln) : (s.modGln c f).jobNs = s.jobNs := rfl
@[simp] theorem modGln_trace (c : Nat) (f : Gln → Gln) : (s.modGln c f).trace = s.trace := rfl
@[simp] theorem modGln_boot (c : Nat) (f : Gln → Gln) : (s.modGln c f).boot = s.boot := rfl
@[simp] theorem modGln_flt (c : Nat) (f : Gln → Gln) : (s.modGln c f).flt = s.flt := rfl
@[simp] theorem modGln_stby (c : Nat) (f : Gln → Gln) : (s.modGln c f).stby = s.stby := rfl
@[simp] theorem modGln_halter (c : Nat) (f : Gln → Gln) : (s.modGln c f).halter = s.halter := rfl

/-! ### modStook -/

@[simp] theorem modStook_variant (c : Nat) (f : Stook → Stook) : (s.modStook c f).variant = s.variant := rfl
@[simp] theorem modStook_now (c : Nat) (f : Stook → Stook) : (s.modStook c f).now = s.now := rfl
@[simp] theorem modStook_skew (c : Nat) (f : Stook → Stook) : (s.modStook c f).skew = s.skew := rfl
@[simp] theorem modStook_free (c : Nat) (f : Stook → Stook) : (s.modStook c f).free = s.free := rfl
@[simp] theorem modStook_pending (c : Nat) (f : Stook → Stook) : (s.modStook c f).pending = s.pending := rfl
@[simp] theorem modStook_csr (c : Nat) (f : Stook → Stook) : (s.modStook c f).csr = s.csr := rfl
@[simp] theorem modStook_mem (c : Nat) (f : Stook → Stook) : (s.modStook c f).mem = s.mem := rfl
@[simp] theorem modStook_que (c : Nat) (f : Stook → Stook) : (s.modStook c f).que = s.que := rfl
@[simp] theorem modStook_win (c : Nat) (f : Stook → Stook) : (s.modStook c f).win = s.win := rfl
@[simp] theorem modStook_fab (c : Nat) (f : Stook → Stook) : (s.modStook c f).fab = s.fab := rfl
@[simp] theorem modStook_col (c : Nat) (f : Stook → Stook) : (s.modStook c f).col = s.col := rfl
@[simp] theorem modStook_pho (c : Nat) (f : Stook → Stook) : (s.modStook c f).pho = s.pho := rfl
@[simp] theorem modStook_dies (c : Nat) (f : Stook → Stook) : (s.modStook c f).dies = s.dies := rfl
@[simp] theorem modStook_pwr (c : Nat) (f : Stook → Stook) : (s.modStook c f).pwr = s.pwr := rfl
@[simp] theorem modStook_roll (c : Nat) (f : Stook → Stook) : (s.modStook c f).roll = s.roll := rfl
@[simp] theorem modStook_wnw (c : Nat) (f : Stook → Stook) : (s.modStook c f).wnw = s.wnw := rfl
@[simp] theorem modStook_steps (c : Nat) (f : Stook → Stook) : (s.modStook c f).steps = s.steps := rfl
@[simp] theorem modStook_jobNs (c : Nat) (f : Stook → Stook) : (s.modStook c f).jobNs = s.jobNs := rfl
@[simp] theorem modStook_trace (c : Nat) (f : Stook → Stook) : (s.modStook c f).trace = s.trace := rfl
@[simp] theorem modStook_boot (c : Nat) (f : Stook → Stook) : (s.modStook c f).boot = s.boot := rfl
@[simp] theorem modStook_flt (c : Nat) (f : Stook → Stook) : (s.modStook c f).flt = s.flt := rfl
@[simp] theorem modStook_stby (c : Nat) (f : Stook → Stook) : (s.modStook c f).stby = s.stby := rfl
@[simp] theorem modStook_halter (c : Nat) (f : Stook → Stook) : (s.modStook c f).halter = s.halter := rfl

/-! ### spadWrite -/

@[simp] theorem spadWrite_variant (c a : Nat) (d : List Byte) : (s.spadWrite c a d).variant = s.variant := rfl
@[simp] theorem spadWrite_now (c a : Nat) (d : List Byte) : (s.spadWrite c a d).now = s.now := rfl
@[simp] theorem spadWrite_skew (c a : Nat) (d : List Byte) : (s.spadWrite c a d).skew = s.skew := rfl
@[simp] theorem spadWrite_free (c a : Nat) (d : List Byte) : (s.spadWrite c a d).free = s.free := rfl
@[simp] theorem spadWrite_pending (c a : Nat) (d : List Byte) : (s.spadWrite c a d).pending = s.pending := rfl
@[simp] theorem spadWrite_csr (c a : Nat) (d : List Byte) : (s.spadWrite c a d).csr = s.csr := rfl
@[simp] theorem spadWrite_mem (c a : Nat) (d : List Byte) : (s.spadWrite c a d).mem = s.mem := rfl
@[simp] theorem spadWrite_que (c a : Nat) (d : List Byte) : (s.spadWrite c a d).que = s.que := rfl
@[simp] theorem spadWrite_win (c a : Nat) (d : List Byte) : (s.spadWrite c a d).win = s.win := rfl
@[simp] theorem spadWrite_fab (c a : Nat) (d : List Byte) : (s.spadWrite c a d).fab = s.fab := rfl
@[simp] theorem spadWrite_col (c a : Nat) (d : List Byte) : (s.spadWrite c a d).col = s.col := rfl
@[simp] theorem spadWrite_pho (c a : Nat) (d : List Byte) : (s.spadWrite c a d).pho = s.pho := rfl
@[simp] theorem spadWrite_dies (c a : Nat) (d : List Byte) : (s.spadWrite c a d).dies = s.dies := rfl
@[simp] theorem spadWrite_pwr (c a : Nat) (d : List Byte) : (s.spadWrite c a d).pwr = s.pwr := rfl
@[simp] theorem spadWrite_roll (c a : Nat) (d : List Byte) : (s.spadWrite c a d).roll = s.roll := rfl
@[simp] theorem spadWrite_wnw (c a : Nat) (d : List Byte) : (s.spadWrite c a d).wnw = s.wnw := rfl
@[simp] theorem spadWrite_steps (c a : Nat) (d : List Byte) : (s.spadWrite c a d).steps = s.steps := rfl
@[simp] theorem spadWrite_jobNs (c a : Nat) (d : List Byte) : (s.spadWrite c a d).jobNs = s.jobNs := rfl
@[simp] theorem spadWrite_trace (c a : Nat) (d : List Byte) : (s.spadWrite c a d).trace = s.trace := rfl
@[simp] theorem spadWrite_boot (c a : Nat) (d : List Byte) : (s.spadWrite c a d).boot = s.boot := rfl
@[simp] theorem spadWrite_flt (c a : Nat) (d : List Byte) : (s.spadWrite c a d).flt = s.flt := rfl
@[simp] theorem spadWrite_stby (c a : Nat) (d : List Byte) : (s.spadWrite c a d).stby = s.stby := rfl
@[simp] theorem spadWrite_halter (c a : Nat) (d : List Byte) : (s.spadWrite c a d).halter = s.halter := rfl

/-! ### modQueue -/

@[simp] theorem modQueue_variant (q : Nat) (f : Queue → Queue) : (s.modQueue q f).variant = s.variant := rfl
@[simp] theorem modQueue_now (q : Nat) (f : Queue → Queue) : (s.modQueue q f).now = s.now := rfl
@[simp] theorem modQueue_skew (q : Nat) (f : Queue → Queue) : (s.modQueue q f).skew = s.skew := rfl
@[simp] theorem modQueue_free (q : Nat) (f : Queue → Queue) : (s.modQueue q f).free = s.free := rfl
@[simp] theorem modQueue_pending (q : Nat) (f : Queue → Queue) : (s.modQueue q f).pending = s.pending := rfl
@[simp] theorem modQueue_csr (q : Nat) (f : Queue → Queue) : (s.modQueue q f).csr = s.csr := rfl
@[simp] theorem modQueue_cores (q : Nat) (f : Queue → Queue) : (s.modQueue q f).cores = s.cores := rfl
@[simp] theorem modQueue_mem (q : Nat) (f : Queue → Queue) : (s.modQueue q f).mem = s.mem := rfl
@[simp] theorem modQueue_win (q : Nat) (f : Queue → Queue) : (s.modQueue q f).win = s.win := rfl
@[simp] theorem modQueue_fab (q : Nat) (f : Queue → Queue) : (s.modQueue q f).fab = s.fab := rfl
@[simp] theorem modQueue_col (q : Nat) (f : Queue → Queue) : (s.modQueue q f).col = s.col := rfl
@[simp] theorem modQueue_pho (q : Nat) (f : Queue → Queue) : (s.modQueue q f).pho = s.pho := rfl
@[simp] theorem modQueue_dies (q : Nat) (f : Queue → Queue) : (s.modQueue q f).dies = s.dies := rfl
@[simp] theorem modQueue_pwr (q : Nat) (f : Queue → Queue) : (s.modQueue q f).pwr = s.pwr := rfl
@[simp] theorem modQueue_roll (q : Nat) (f : Queue → Queue) : (s.modQueue q f).roll = s.roll := rfl
@[simp] theorem modQueue_wnw (q : Nat) (f : Queue → Queue) : (s.modQueue q f).wnw = s.wnw := rfl
@[simp] theorem modQueue_steps (q : Nat) (f : Queue → Queue) : (s.modQueue q f).steps = s.steps := rfl
@[simp] theorem modQueue_jobNs (q : Nat) (f : Queue → Queue) : (s.modQueue q f).jobNs = s.jobNs := rfl
@[simp] theorem modQueue_trace (q : Nat) (f : Queue → Queue) : (s.modQueue q f).trace = s.trace := rfl
@[simp] theorem modQueue_boot (q : Nat) (f : Queue → Queue) : (s.modQueue q f).boot = s.boot := rfl
@[simp] theorem modQueue_flt (q : Nat) (f : Queue → Queue) : (s.modQueue q f).flt = s.flt := rfl
@[simp] theorem modQueue_stby (q : Nat) (f : Queue → Queue) : (s.modQueue q f).stby = s.stby := rfl
@[simp] theorem modQueue_halter (q : Nat) (f : Queue → Queue) : (s.modQueue q f).halter = s.halter := rfl

/-! ### modCmd -/

@[simp] theorem modCmd_variant (k : Nat) (f : Cmd → Cmd) : (s.modCmd k f).variant = s.variant := rfl
@[simp] theorem modCmd_now (k : Nat) (f : Cmd → Cmd) : (s.modCmd k f).now = s.now := rfl
@[simp] theorem modCmd_skew (k : Nat) (f : Cmd → Cmd) : (s.modCmd k f).skew = s.skew := rfl
@[simp] theorem modCmd_free (k : Nat) (f : Cmd → Cmd) : (s.modCmd k f).free = s.free := rfl
@[simp] theorem modCmd_pending (k : Nat) (f : Cmd → Cmd) : (s.modCmd k f).pending = s.pending := rfl
@[simp] theorem modCmd_csr (k : Nat) (f : Cmd → Cmd) : (s.modCmd k f).csr = s.csr := rfl
@[simp] theorem modCmd_cores (k : Nat) (f : Cmd → Cmd) : (s.modCmd k f).cores = s.cores := rfl
@[simp] theorem modCmd_mem (k : Nat) (f : Cmd → Cmd) : (s.modCmd k f).mem = s.mem := rfl
@[simp] theorem modCmd_win (k : Nat) (f : Cmd → Cmd) : (s.modCmd k f).win = s.win := rfl
@[simp] theorem modCmd_fab (k : Nat) (f : Cmd → Cmd) : (s.modCmd k f).fab = s.fab := rfl
@[simp] theorem modCmd_col (k : Nat) (f : Cmd → Cmd) : (s.modCmd k f).col = s.col := rfl
@[simp] theorem modCmd_pho (k : Nat) (f : Cmd → Cmd) : (s.modCmd k f).pho = s.pho := rfl
@[simp] theorem modCmd_dies (k : Nat) (f : Cmd → Cmd) : (s.modCmd k f).dies = s.dies := rfl
@[simp] theorem modCmd_pwr (k : Nat) (f : Cmd → Cmd) : (s.modCmd k f).pwr = s.pwr := rfl
@[simp] theorem modCmd_roll (k : Nat) (f : Cmd → Cmd) : (s.modCmd k f).roll = s.roll := rfl
@[simp] theorem modCmd_wnw (k : Nat) (f : Cmd → Cmd) : (s.modCmd k f).wnw = s.wnw := rfl
@[simp] theorem modCmd_steps (k : Nat) (f : Cmd → Cmd) : (s.modCmd k f).steps = s.steps := rfl
@[simp] theorem modCmd_jobNs (k : Nat) (f : Cmd → Cmd) : (s.modCmd k f).jobNs = s.jobNs := rfl
@[simp] theorem modCmd_trace (k : Nat) (f : Cmd → Cmd) : (s.modCmd k f).trace = s.trace := rfl
@[simp] theorem modCmd_boot (k : Nat) (f : Cmd → Cmd) : (s.modCmd k f).boot = s.boot := rfl
@[simp] theorem modCmd_flt (k : Nat) (f : Cmd → Cmd) : (s.modCmd k f).flt = s.flt := rfl
@[simp] theorem modCmd_stby (k : Nat) (f : Cmd → Cmd) : (s.modCmd k f).stby = s.stby := rfl
@[simp] theorem modCmd_halter (k : Nat) (f : Cmd → Cmd) : (s.modCmd k f).halter = s.halter := rfl

/-! ### modStack -/

@[simp] theorem modStack_variant (t : Nat) (f : Stack → Stack) : (s.modStack t f).variant = s.variant := rfl
@[simp] theorem modStack_now (t : Nat) (f : Stack → Stack) : (s.modStack t f).now = s.now := rfl
@[simp] theorem modStack_skew (t : Nat) (f : Stack → Stack) : (s.modStack t f).skew = s.skew := rfl
@[simp] theorem modStack_free (t : Nat) (f : Stack → Stack) : (s.modStack t f).free = s.free := rfl
@[simp] theorem modStack_pending (t : Nat) (f : Stack → Stack) : (s.modStack t f).pending = s.pending := rfl
@[simp] theorem modStack_csr (t : Nat) (f : Stack → Stack) : (s.modStack t f).csr = s.csr := rfl
@[simp] theorem modStack_cores (t : Nat) (f : Stack → Stack) : (s.modStack t f).cores = s.cores := rfl
@[simp] theorem modStack_que (t : Nat) (f : Stack → Stack) : (s.modStack t f).que = s.que := rfl
@[simp] theorem modStack_win (t : Nat) (f : Stack → Stack) : (s.modStack t f).win = s.win := rfl
@[simp] theorem modStack_fab (t : Nat) (f : Stack → Stack) : (s.modStack t f).fab = s.fab := rfl
@[simp] theorem modStack_col (t : Nat) (f : Stack → Stack) : (s.modStack t f).col = s.col := rfl
@[simp] theorem modStack_pho (t : Nat) (f : Stack → Stack) : (s.modStack t f).pho = s.pho := rfl
@[simp] theorem modStack_dies (t : Nat) (f : Stack → Stack) : (s.modStack t f).dies = s.dies := rfl
@[simp] theorem modStack_pwr (t : Nat) (f : Stack → Stack) : (s.modStack t f).pwr = s.pwr := rfl
@[simp] theorem modStack_roll (t : Nat) (f : Stack → Stack) : (s.modStack t f).roll = s.roll := rfl
@[simp] theorem modStack_wnw (t : Nat) (f : Stack → Stack) : (s.modStack t f).wnw = s.wnw := rfl
@[simp] theorem modStack_steps (t : Nat) (f : Stack → Stack) : (s.modStack t f).steps = s.steps := rfl
@[simp] theorem modStack_jobNs (t : Nat) (f : Stack → Stack) : (s.modStack t f).jobNs = s.jobNs := rfl
@[simp] theorem modStack_trace (t : Nat) (f : Stack → Stack) : (s.modStack t f).trace = s.trace := rfl
@[simp] theorem modStack_boot (t : Nat) (f : Stack → Stack) : (s.modStack t f).boot = s.boot := rfl
@[simp] theorem modStack_flt (t : Nat) (f : Stack → Stack) : (s.modStack t f).flt = s.flt := rfl
@[simp] theorem modStack_stby (t : Nat) (f : Stack → Stack) : (s.modStack t f).stby = s.stby := rfl
@[simp] theorem modStack_halter (t : Nat) (f : Stack → Stack) : (s.modStack t f).halter = s.halter := rfl

/-! ### unmark -/

@[simp] theorem unmark_variant (pl a n : Nat) : (s.unmark pl a n).variant = s.variant := rfl
@[simp] theorem unmark_now (pl a n : Nat) : (s.unmark pl a n).now = s.now := rfl
@[simp] theorem unmark_skew (pl a n : Nat) : (s.unmark pl a n).skew = s.skew := rfl
@[simp] theorem unmark_free (pl a n : Nat) : (s.unmark pl a n).free = s.free := rfl
@[simp] theorem unmark_pending (pl a n : Nat) : (s.unmark pl a n).pending = s.pending := rfl
@[simp] theorem unmark_csr (pl a n : Nat) : (s.unmark pl a n).csr = s.csr := rfl
@[simp] theorem unmark_cores (pl a n : Nat) : (s.unmark pl a n).cores = s.cores := rfl
@[simp] theorem unmark_que (pl a n : Nat) : (s.unmark pl a n).que = s.que := rfl
@[simp] theorem unmark_win (pl a n : Nat) : (s.unmark pl a n).win = s.win := rfl
@[simp] theorem unmark_fab (pl a n : Nat) : (s.unmark pl a n).fab = s.fab := rfl
@[simp] theorem unmark_col (pl a n : Nat) : (s.unmark pl a n).col = s.col := rfl
@[simp] theorem unmark_pho (pl a n : Nat) : (s.unmark pl a n).pho = s.pho := rfl
@[simp] theorem unmark_dies (pl a n : Nat) : (s.unmark pl a n).dies = s.dies := rfl
@[simp] theorem unmark_pwr (pl a n : Nat) : (s.unmark pl a n).pwr = s.pwr := rfl
@[simp] theorem unmark_roll (pl a n : Nat) : (s.unmark pl a n).roll = s.roll := rfl
@[simp] theorem unmark_wnw (pl a n : Nat) : (s.unmark pl a n).wnw = s.wnw := rfl
@[simp] theorem unmark_steps (pl a n : Nat) : (s.unmark pl a n).steps = s.steps := rfl
@[simp] theorem unmark_jobNs (pl a n : Nat) : (s.unmark pl a n).jobNs = s.jobNs := rfl
@[simp] theorem unmark_trace (pl a n : Nat) : (s.unmark pl a n).trace = s.trace := rfl
@[simp] theorem unmark_boot (pl a n : Nat) : (s.unmark pl a n).boot = s.boot := rfl
@[simp] theorem unmark_flt (pl a n : Nat) : (s.unmark pl a n).flt = s.flt := rfl
@[simp] theorem unmark_stby (pl a n : Nat) : (s.unmark pl a n).stby = s.stby := rfl
@[simp] theorem unmark_halter (pl a n : Nat) : (s.unmark pl a n).halter = s.halter := rfl

/-! ### lWrite -/

@[simp] theorem lWrite_variant (a : Nat) (d : List Byte) : (s.lWrite a d).variant = s.variant := rfl
@[simp] theorem lWrite_now (a : Nat) (d : List Byte) : (s.lWrite a d).now = s.now := rfl
@[simp] theorem lWrite_skew (a : Nat) (d : List Byte) : (s.lWrite a d).skew = s.skew := rfl
@[simp] theorem lWrite_free (a : Nat) (d : List Byte) : (s.lWrite a d).free = s.free := rfl
@[simp] theorem lWrite_pending (a : Nat) (d : List Byte) : (s.lWrite a d).pending = s.pending := rfl
@[simp] theorem lWrite_csr (a : Nat) (d : List Byte) : (s.lWrite a d).csr = s.csr := rfl
@[simp] theorem lWrite_cores (a : Nat) (d : List Byte) : (s.lWrite a d).cores = s.cores := rfl
@[simp] theorem lWrite_que (a : Nat) (d : List Byte) : (s.lWrite a d).que = s.que := rfl
@[simp] theorem lWrite_win (a : Nat) (d : List Byte) : (s.lWrite a d).win = s.win := rfl
@[simp] theorem lWrite_fab (a : Nat) (d : List Byte) : (s.lWrite a d).fab = s.fab := rfl
@[simp] theorem lWrite_col (a : Nat) (d : List Byte) : (s.lWrite a d).col = s.col := rfl
@[simp] theorem lWrite_pho (a : Nat) (d : List Byte) : (s.lWrite a d).pho = s.pho := rfl
@[simp] theorem lWrite_dies (a : Nat) (d : List Byte) : (s.lWrite a d).dies = s.dies := rfl
@[simp] theorem lWrite_pwr (a : Nat) (d : List Byte) : (s.lWrite a d).pwr = s.pwr := rfl
@[simp] theorem lWrite_roll (a : Nat) (d : List Byte) : (s.lWrite a d).roll = s.roll := rfl
@[simp] theorem lWrite_wnw (a : Nat) (d : List Byte) : (s.lWrite a d).wnw = s.wnw := rfl
@[simp] theorem lWrite_steps (a : Nat) (d : List Byte) : (s.lWrite a d).steps = s.steps := rfl
@[simp] theorem lWrite_jobNs (a : Nat) (d : List Byte) : (s.lWrite a d).jobNs = s.jobNs := rfl
@[simp] theorem lWrite_trace (a : Nat) (d : List Byte) : (s.lWrite a d).trace = s.trace := rfl
@[simp] theorem lWrite_boot (a : Nat) (d : List Byte) : (s.lWrite a d).boot = s.boot := rfl
@[simp] theorem lWrite_flt (a : Nat) (d : List Byte) : (s.lWrite a d).flt = s.flt := rfl
@[simp] theorem lWrite_stby (a : Nat) (d : List Byte) : (s.lWrite a d).stby = s.stby := rfl
@[simp] theorem lWrite_halter (a : Nat) (d : List Byte) : (s.lWrite a d).halter = s.halter := rfl

/-! ### modWnw -/

@[simp] theorem modWnw_variant (c : Nat) (f : Wnw → Wnw) : (s.modWnw c f).variant = s.variant := rfl
@[simp] theorem modWnw_now (c : Nat) (f : Wnw → Wnw) : (s.modWnw c f).now = s.now := rfl
@[simp] theorem modWnw_skew (c : Nat) (f : Wnw → Wnw) : (s.modWnw c f).skew = s.skew := rfl
@[simp] theorem modWnw_free (c : Nat) (f : Wnw → Wnw) : (s.modWnw c f).free = s.free := rfl
@[simp] theorem modWnw_pending (c : Nat) (f : Wnw → Wnw) : (s.modWnw c f).pending = s.pending := rfl
@[simp] theorem modWnw_csr (c : Nat) (f : Wnw → Wnw) : (s.modWnw c f).csr = s.csr := rfl
@[simp] theorem modWnw_cores (c : Nat) (f : Wnw → Wnw) : (s.modWnw c f).cores = s.cores := rfl
@[simp] theorem modWnw_mem (c : Nat) (f : Wnw → Wnw) : (s.modWnw c f).mem = s.mem := rfl
@[simp] theorem modWnw_que (c : Nat) (f : Wnw → Wnw) : (s.modWnw c f).que = s.que := rfl
@[simp] theorem modWnw_win (c : Nat) (f : Wnw → Wnw) : (s.modWnw c f).win = s.win := rfl
@[simp] theorem modWnw_fab (c : Nat) (f : Wnw → Wnw) : (s.modWnw c f).fab = s.fab := rfl
@[simp] theorem modWnw_col (c : Nat) (f : Wnw → Wnw) : (s.modWnw c f).col = s.col := rfl
@[simp] theorem modWnw_pho (c : Nat) (f : Wnw → Wnw) : (s.modWnw c f).pho = s.pho := rfl
@[simp] theorem modWnw_dies (c : Nat) (f : Wnw → Wnw) : (s.modWnw c f).dies = s.dies := rfl
@[simp] theorem modWnw_pwr (c : Nat) (f : Wnw → Wnw) : (s.modWnw c f).pwr = s.pwr := rfl
@[simp] theorem modWnw_roll (c : Nat) (f : Wnw → Wnw) : (s.modWnw c f).roll = s.roll := rfl
@[simp] theorem modWnw_steps (c : Nat) (f : Wnw → Wnw) : (s.modWnw c f).steps = s.steps := rfl
@[simp] theorem modWnw_jobNs (c : Nat) (f : Wnw → Wnw) : (s.modWnw c f).jobNs = s.jobNs := rfl
@[simp] theorem modWnw_trace (c : Nat) (f : Wnw → Wnw) : (s.modWnw c f).trace = s.trace := rfl
@[simp] theorem modWnw_boot (c : Nat) (f : Wnw → Wnw) : (s.modWnw c f).boot = s.boot := rfl
@[simp] theorem modWnw_flt (c : Nat) (f : Wnw → Wnw) : (s.modWnw c f).flt = s.flt := rfl
@[simp] theorem modWnw_stby (c : Nat) (f : Wnw → Wnw) : (s.modWnw c f).stby = s.stby := rfl
@[simp] theorem modWnw_halter (c : Nat) (f : Wnw → Wnw) : (s.modWnw c f).halter = s.halter := rfl

/-! ### touched -/

@[simp] theorem touched_variant (c : Nat) : (s.touched c).variant = s.variant := rfl
@[simp] theorem touched_now (c : Nat) : (s.touched c).now = s.now := rfl
@[simp] theorem touched_skew (c : Nat) : (s.touched c).skew = s.skew := rfl
@[simp] theorem touched_free (c : Nat) : (s.touched c).free = s.free := rfl
@[simp] theorem touched_pending (c : Nat) : (s.touched c).pending = s.pending := rfl
@[simp] theorem touched_csr (c : Nat) : (s.touched c).csr = s.csr := rfl
@[simp] theorem touched_cores (c : Nat) : (s.touched c).cores = s.cores := rfl
@[simp] theorem touched_mem (c : Nat) : (s.touched c).mem = s.mem := rfl
@[simp] theorem touched_que (c : Nat) : (s.touched c).que = s.que := rfl
@[simp] theorem touched_win (c : Nat) : (s.touched c).win = s.win := rfl
@[simp] theorem touched_fab (c : Nat) : (s.touched c).fab = s.fab := rfl
@[simp] theorem touched_col (c : Nat) : (s.touched c).col = s.col := rfl
@[simp] theorem touched_pho (c : Nat) : (s.touched c).pho = s.pho := rfl
@[simp] theorem touched_dies (c : Nat) : (s.touched c).dies = s.dies := rfl
@[simp] theorem touched_pwr (c : Nat) : (s.touched c).pwr = s.pwr := rfl
@[simp] theorem touched_roll (c : Nat) : (s.touched c).roll = s.roll := rfl
@[simp] theorem touched_steps (c : Nat) : (s.touched c).steps = s.steps := rfl
@[simp] theorem touched_jobNs (c : Nat) : (s.touched c).jobNs = s.jobNs := rfl
@[simp] theorem touched_trace (c : Nat) : (s.touched c).trace = s.trace := rfl
@[simp] theorem touched_boot (c : Nat) : (s.touched c).boot = s.boot := rfl
@[simp] theorem touched_flt (c : Nat) : (s.touched c).flt = s.flt := rfl
@[simp] theorem touched_stby (c : Nat) : (s.touched c).stby = s.stby := rfl
@[simp] theorem touched_halter (c : Nat) : (s.touched c).halter = s.halter := rfl

/-! ### loadTime -/

@[simp] theorem loadTime_variant (d : Nat) : (s.loadTime d).variant = s.variant := rfl
@[simp] theorem loadTime_now (d : Nat) : (s.loadTime d).now = s.now := rfl
@[simp] theorem loadTime_free (d : Nat) : (s.loadTime d).free = s.free := rfl
@[simp] theorem loadTime_pending (d : Nat) : (s.loadTime d).pending = s.pending := rfl
@[simp] theorem loadTime_csr (d : Nat) : (s.loadTime d).csr = s.csr := rfl
@[simp] theorem loadTime_cores (d : Nat) : (s.loadTime d).cores = s.cores := rfl
@[simp] theorem loadTime_mem (d : Nat) : (s.loadTime d).mem = s.mem := rfl
@[simp] theorem loadTime_que (d : Nat) : (s.loadTime d).que = s.que := rfl
@[simp] theorem loadTime_win (d : Nat) : (s.loadTime d).win = s.win := rfl
@[simp] theorem loadTime_fab (d : Nat) : (s.loadTime d).fab = s.fab := rfl
@[simp] theorem loadTime_col (d : Nat) : (s.loadTime d).col = s.col := rfl
@[simp] theorem loadTime_pho (d : Nat) : (s.loadTime d).pho = s.pho := rfl
@[simp] theorem loadTime_dies (d : Nat) : (s.loadTime d).dies = s.dies := rfl
@[simp] theorem loadTime_pwr (d : Nat) : (s.loadTime d).pwr = s.pwr := rfl
@[simp] theorem loadTime_roll (d : Nat) : (s.loadTime d).roll = s.roll := rfl
@[simp] theorem loadTime_wnw (d : Nat) : (s.loadTime d).wnw = s.wnw := rfl
@[simp] theorem loadTime_steps (d : Nat) : (s.loadTime d).steps = s.steps := rfl
@[simp] theorem loadTime_jobNs (d : Nat) : (s.loadTime d).jobNs = s.jobNs := rfl
@[simp] theorem loadTime_trace (d : Nat) : (s.loadTime d).trace = s.trace := rfl
@[simp] theorem loadTime_boot (d : Nat) : (s.loadTime d).boot = s.boot := rfl
@[simp] theorem loadTime_flt (d : Nat) : (s.loadTime d).flt = s.flt := rfl
@[simp] theorem loadTime_stby (d : Nat) : (s.loadTime d).stby = s.stby := rfl
@[simp] theorem loadTime_halter (d : Nat) : (s.loadTime d).halter = s.halter := rfl

/-! ### setCtx -/

@[simp] theorem setCtx_variant (i : Nat) (x : Ctx) : (s.setCtx i x).variant = s.variant := rfl
@[simp] theorem setCtx_now (i : Nat) (x : Ctx) : (s.setCtx i x).now = s.now := rfl
@[simp] theorem setCtx_skew (i : Nat) (x : Ctx) : (s.setCtx i x).skew = s.skew := rfl
@[simp] theorem setCtx_free (i : Nat) (x : Ctx) : (s.setCtx i x).free = s.free := rfl
@[simp] theorem setCtx_pending (i : Nat) (x : Ctx) : (s.setCtx i x).pending = s.pending := rfl
@[simp] theorem setCtx_csr (i : Nat) (x : Ctx) : (s.setCtx i x).csr = s.csr := rfl
@[simp] theorem setCtx_cores (i : Nat) (x : Ctx) : (s.setCtx i x).cores = s.cores := rfl
@[simp] theorem setCtx_mem (i : Nat) (x : Ctx) : (s.setCtx i x).mem = s.mem := rfl
@[simp] theorem setCtx_que (i : Nat) (x : Ctx) : (s.setCtx i x).que = s.que := rfl
@[simp] theorem setCtx_win (i : Nat) (x : Ctx) : (s.setCtx i x).win = s.win := rfl
@[simp] theorem setCtx_fab (i : Nat) (x : Ctx) : (s.setCtx i x).fab = s.fab := rfl
@[simp] theorem setCtx_pho (i : Nat) (x : Ctx) : (s.setCtx i x).pho = s.pho := rfl
@[simp] theorem setCtx_dies (i : Nat) (x : Ctx) : (s.setCtx i x).dies = s.dies := rfl
@[simp] theorem setCtx_pwr (i : Nat) (x : Ctx) : (s.setCtx i x).pwr = s.pwr := rfl
@[simp] theorem setCtx_roll (i : Nat) (x : Ctx) : (s.setCtx i x).roll = s.roll := rfl
@[simp] theorem setCtx_wnw (i : Nat) (x : Ctx) : (s.setCtx i x).wnw = s.wnw := rfl
@[simp] theorem setCtx_steps (i : Nat) (x : Ctx) : (s.setCtx i x).steps = s.steps := rfl
@[simp] theorem setCtx_jobNs (i : Nat) (x : Ctx) : (s.setCtx i x).jobNs = s.jobNs := rfl
@[simp] theorem setCtx_trace (i : Nat) (x : Ctx) : (s.setCtx i x).trace = s.trace := rfl
@[simp] theorem setCtx_boot (i : Nat) (x : Ctx) : (s.setCtx i x).boot = s.boot := rfl
@[simp] theorem setCtx_flt (i : Nat) (x : Ctx) : (s.setCtx i x).flt = s.flt := rfl
@[simp] theorem setCtx_stby (i : Nat) (x : Ctx) : (s.setCtx i x).stby = s.stby := rfl
@[simp] theorem setCtx_halter (i : Nat) (x : Ctx) : (s.setCtx i x).halter = s.halter := rfl

/-! ### setJobs -/

@[simp] theorem setJobs_variant (k : Nat) (l : List CopyJob) : (s.setJobs k l).variant = s.variant := rfl
@[simp] theorem setJobs_now (k : Nat) (l : List CopyJob) : (s.setJobs k l).now = s.now := rfl
@[simp] theorem setJobs_skew (k : Nat) (l : List CopyJob) : (s.setJobs k l).skew = s.skew := rfl
@[simp] theorem setJobs_free (k : Nat) (l : List CopyJob) : (s.setJobs k l).free = s.free := rfl
@[simp] theorem setJobs_pending (k : Nat) (l : List CopyJob) : (s.setJobs k l).pending = s.pending := rfl
@[simp] theorem setJobs_csr (k : Nat) (l : List CopyJob) : (s.setJobs k l).csr = s.csr := rfl
@[simp] theorem setJobs_cores (k : Nat) (l : List CopyJob) : (s.setJobs k l).cores = s.cores := rfl
@[simp] theorem setJobs_mem (k : Nat) (l : List CopyJob) : (s.setJobs k l).mem = s.mem := rfl
@[simp] theorem setJobs_win (k : Nat) (l : List CopyJob) : (s.setJobs k l).win = s.win := rfl
@[simp] theorem setJobs_fab (k : Nat) (l : List CopyJob) : (s.setJobs k l).fab = s.fab := rfl
@[simp] theorem setJobs_col (k : Nat) (l : List CopyJob) : (s.setJobs k l).col = s.col := rfl
@[simp] theorem setJobs_pho (k : Nat) (l : List CopyJob) : (s.setJobs k l).pho = s.pho := rfl
@[simp] theorem setJobs_dies (k : Nat) (l : List CopyJob) : (s.setJobs k l).dies = s.dies := rfl
@[simp] theorem setJobs_pwr (k : Nat) (l : List CopyJob) : (s.setJobs k l).pwr = s.pwr := rfl
@[simp] theorem setJobs_roll (k : Nat) (l : List CopyJob) : (s.setJobs k l).roll = s.roll := rfl
@[simp] theorem setJobs_wnw (k : Nat) (l : List CopyJob) : (s.setJobs k l).wnw = s.wnw := rfl
@[simp] theorem setJobs_steps (k : Nat) (l : List CopyJob) : (s.setJobs k l).steps = s.steps := rfl
@[simp] theorem setJobs_jobNs (k : Nat) (l : List CopyJob) : (s.setJobs k l).jobNs = s.jobNs := rfl
@[simp] theorem setJobs_trace (k : Nat) (l : List CopyJob) : (s.setJobs k l).trace = s.trace := rfl
@[simp] theorem setJobs_boot (k : Nat) (l : List CopyJob) : (s.setJobs k l).boot = s.boot := rfl
@[simp] theorem setJobs_flt (k : Nat) (l : List CopyJob) : (s.setJobs k l).flt = s.flt := rfl
@[simp] theorem setJobs_stby (k : Nat) (l : List CopyJob) : (s.setJobs k l).stby = s.stby := rfl
@[simp] theorem setJobs_halter (k : Nat) (l : List CopyJob) : (s.setJobs k l).halter = s.halter := rfl

/-! ### modDie -/

@[simp] theorem modDie_variant (d : Nat) (f : DiePort → DiePort) : (s.modDie d f).variant = s.variant := rfl
@[simp] theorem modDie_now (d : Nat) (f : DiePort → DiePort) : (s.modDie d f).now = s.now := rfl
@[simp] theorem modDie_skew (d : Nat) (f : DiePort → DiePort) : (s.modDie d f).skew = s.skew := rfl
@[simp] theorem modDie_free (d : Nat) (f : DiePort → DiePort) : (s.modDie d f).free = s.free := rfl
@[simp] theorem modDie_pending (d : Nat) (f : DiePort → DiePort) : (s.modDie d f).pending = s.pending := rfl
@[simp] theorem modDie_csr (d : Nat) (f : DiePort → DiePort) : (s.modDie d f).csr = s.csr := rfl
@[simp] theorem modDie_cores (d : Nat) (f : DiePort → DiePort) : (s.modDie d f).cores = s.cores := rfl
@[simp] theorem modDie_mem (d : Nat) (f : DiePort → DiePort) : (s.modDie d f).mem = s.mem := rfl
@[simp] theorem modDie_que (d : Nat) (f : DiePort → DiePort) : (s.modDie d f).que = s.que := rfl
@[simp] theorem modDie_win (d : Nat) (f : DiePort → DiePort) : (s.modDie d f).win = s.win := rfl
@[simp] theorem modDie_fab (d : Nat) (f : DiePort → DiePort) : (s.modDie d f).fab = s.fab := rfl
@[simp] theorem modDie_col (d : Nat) (f : DiePort → DiePort) : (s.modDie d f).col = s.col := rfl
@[simp] theorem modDie_pho (d : Nat) (f : DiePort → DiePort) : (s.modDie d f).pho = s.pho := rfl
@[simp] theorem modDie_pwr (d : Nat) (f : DiePort → DiePort) : (s.modDie d f).pwr = s.pwr := rfl
@[simp] theorem modDie_roll (d : Nat) (f : DiePort → DiePort) : (s.modDie d f).roll = s.roll := rfl
@[simp] theorem modDie_wnw (d : Nat) (f : DiePort → DiePort) : (s.modDie d f).wnw = s.wnw := rfl
@[simp] theorem modDie_steps (d : Nat) (f : DiePort → DiePort) : (s.modDie d f).steps = s.steps := rfl
@[simp] theorem modDie_jobNs (d : Nat) (f : DiePort → DiePort) : (s.modDie d f).jobNs = s.jobNs := rfl
@[simp] theorem modDie_trace (d : Nat) (f : DiePort → DiePort) : (s.modDie d f).trace = s.trace := rfl
@[simp] theorem modDie_boot (d : Nat) (f : DiePort → DiePort) : (s.modDie d f).boot = s.boot := rfl
@[simp] theorem modDie_flt (d : Nat) (f : DiePort → DiePort) : (s.modDie d f).flt = s.flt := rfl
@[simp] theorem modDie_stby (d : Nat) (f : DiePort → DiePort) : (s.modDie d f).stby = s.stby := rfl
@[simp] theorem modDie_halter (d : Nat) (f : DiePort → DiePort) : (s.modDie d f).halter = s.halter := rfl

/-! ### modDom -/

@[simp] theorem modDom_variant (i : Nat) (f : Dom → Dom) : (s.modDom i f).variant = s.variant := rfl
@[simp] theorem modDom_now (i : Nat) (f : Dom → Dom) : (s.modDom i f).now = s.now := rfl
@[simp] theorem modDom_skew (i : Nat) (f : Dom → Dom) : (s.modDom i f).skew = s.skew := rfl
@[simp] theorem modDom_free (i : Nat) (f : Dom → Dom) : (s.modDom i f).free = s.free := rfl
@[simp] theorem modDom_pending (i : Nat) (f : Dom → Dom) : (s.modDom i f).pending = s.pending := rfl
@[simp] theorem modDom_csr (i : Nat) (f : Dom → Dom) : (s.modDom i f).csr = s.csr := rfl
@[simp] theorem modDom_cores (i : Nat) (f : Dom → Dom) : (s.modDom i f).cores = s.cores := rfl
@[simp] theorem modDom_mem (i : Nat) (f : Dom → Dom) : (s.modDom i f).mem = s.mem := rfl
@[simp] theorem modDom_que (i : Nat) (f : Dom → Dom) : (s.modDom i f).que = s.que := rfl
@[simp] theorem modDom_win (i : Nat) (f : Dom → Dom) : (s.modDom i f).win = s.win := rfl
@[simp] theorem modDom_fab (i : Nat) (f : Dom → Dom) : (s.modDom i f).fab = s.fab := rfl
@[simp] theorem modDom_col (i : Nat) (f : Dom → Dom) : (s.modDom i f).col = s.col := rfl
@[simp] theorem modDom_pho (i : Nat) (f : Dom → Dom) : (s.modDom i f).pho = s.pho := rfl
@[simp] theorem modDom_dies (i : Nat) (f : Dom → Dom) : (s.modDom i f).dies = s.dies := rfl
@[simp] theorem modDom_roll (i : Nat) (f : Dom → Dom) : (s.modDom i f).roll = s.roll := rfl
@[simp] theorem modDom_wnw (i : Nat) (f : Dom → Dom) : (s.modDom i f).wnw = s.wnw := rfl
@[simp] theorem modDom_steps (i : Nat) (f : Dom → Dom) : (s.modDom i f).steps = s.steps := rfl
@[simp] theorem modDom_jobNs (i : Nat) (f : Dom → Dom) : (s.modDom i f).jobNs = s.jobNs := rfl
@[simp] theorem modDom_trace (i : Nat) (f : Dom → Dom) : (s.modDom i f).trace = s.trace := rfl
@[simp] theorem modDom_boot (i : Nat) (f : Dom → Dom) : (s.modDom i f).boot = s.boot := rfl
@[simp] theorem modDom_flt (i : Nat) (f : Dom → Dom) : (s.modDom i f).flt = s.flt := rfl
@[simp] theorem modDom_stby (i : Nat) (f : Dom → Dom) : (s.modDom i f).stby = s.stby := rfl
@[simp] theorem modDom_halter (i : Nat) (f : Dom → Dom) : (s.modDom i f).halter = s.halter := rfl

/-! ### setSensor -/

@[simp] theorem setSensor_variant (x : Nat) (v : Sensor) : (s.setSensor x v).variant = s.variant := rfl
@[simp] theorem setSensor_now (x : Nat) (v : Sensor) : (s.setSensor x v).now = s.now := rfl
@[simp] theorem setSensor_skew (x : Nat) (v : Sensor) : (s.setSensor x v).skew = s.skew := rfl
@[simp] theorem setSensor_free (x : Nat) (v : Sensor) : (s.setSensor x v).free = s.free := rfl
@[simp] theorem setSensor_pending (x : Nat) (v : Sensor) : (s.setSensor x v).pending = s.pending := rfl
@[simp] theorem setSensor_csr (x : Nat) (v : Sensor) : (s.setSensor x v).csr = s.csr := rfl
@[simp] theorem setSensor_cores (x : Nat) (v : Sensor) : (s.setSensor x v).cores = s.cores := rfl
@[simp] theorem setSensor_mem (x : Nat) (v : Sensor) : (s.setSensor x v).mem = s.mem := rfl
@[simp] theorem setSensor_que (x : Nat) (v : Sensor) : (s.setSensor x v).que = s.que := rfl
@[simp] theorem setSensor_win (x : Nat) (v : Sensor) : (s.setSensor x v).win = s.win := rfl
@[simp] theorem setSensor_fab (x : Nat) (v : Sensor) : (s.setSensor x v).fab = s.fab := rfl
@[simp] theorem setSensor_col (x : Nat) (v : Sensor) : (s.setSensor x v).col = s.col := rfl
@[simp] theorem setSensor_pho (x : Nat) (v : Sensor) : (s.setSensor x v).pho = s.pho := rfl
@[simp] theorem setSensor_dies (x : Nat) (v : Sensor) : (s.setSensor x v).dies = s.dies := rfl
@[simp] theorem setSensor_roll (x : Nat) (v : Sensor) : (s.setSensor x v).roll = s.roll := rfl
@[simp] theorem setSensor_wnw (x : Nat) (v : Sensor) : (s.setSensor x v).wnw = s.wnw := rfl
@[simp] theorem setSensor_steps (x : Nat) (v : Sensor) : (s.setSensor x v).steps = s.steps := rfl
@[simp] theorem setSensor_jobNs (x : Nat) (v : Sensor) : (s.setSensor x v).jobNs = s.jobNs := rfl
@[simp] theorem setSensor_trace (x : Nat) (v : Sensor) : (s.setSensor x v).trace = s.trace := rfl
@[simp] theorem setSensor_boot (x : Nat) (v : Sensor) : (s.setSensor x v).boot = s.boot := rfl
@[simp] theorem setSensor_flt (x : Nat) (v : Sensor) : (s.setSensor x v).flt = s.flt := rfl
@[simp] theorem setSensor_stby (x : Nat) (v : Sensor) : (s.setSensor x v).stby = s.stby := rfl
@[simp] theorem setSensor_halter (x : Nat) (v : Sensor) : (s.setSensor x v).halter = s.halter := rfl

/-! ### modFibre -/

@[simp] theorem modFibre_variant (f : Nat) (g : Fibre → Fibre) : (s.modFibre f g).variant = s.variant := rfl
@[simp] theorem modFibre_now (f : Nat) (g : Fibre → Fibre) : (s.modFibre f g).now = s.now := rfl
@[simp] theorem modFibre_skew (f : Nat) (g : Fibre → Fibre) : (s.modFibre f g).skew = s.skew := rfl
@[simp] theorem modFibre_free (f : Nat) (g : Fibre → Fibre) : (s.modFibre f g).free = s.free := rfl
@[simp] theorem modFibre_pending (f : Nat) (g : Fibre → Fibre) : (s.modFibre f g).pending = s.pending := rfl
@[simp] theorem modFibre_csr (f : Nat) (g : Fibre → Fibre) : (s.modFibre f g).csr = s.csr := rfl
@[simp] theorem modFibre_cores (f : Nat) (g : Fibre → Fibre) : (s.modFibre f g).cores = s.cores := rfl
@[simp] theorem modFibre_mem (f : Nat) (g : Fibre → Fibre) : (s.modFibre f g).mem = s.mem := rfl
@[simp] theorem modFibre_que (f : Nat) (g : Fibre → Fibre) : (s.modFibre f g).que = s.que := rfl
@[simp] theorem modFibre_win (f : Nat) (g : Fibre → Fibre) : (s.modFibre f g).win = s.win := rfl
@[simp] theorem modFibre_fab (f : Nat) (g : Fibre → Fibre) : (s.modFibre f g).fab = s.fab := rfl
@[simp] theorem modFibre_col (f : Nat) (g : Fibre → Fibre) : (s.modFibre f g).col = s.col := rfl
@[simp] theorem modFibre_dies (f : Nat) (g : Fibre → Fibre) : (s.modFibre f g).dies = s.dies := rfl
@[simp] theorem modFibre_pwr (f : Nat) (g : Fibre → Fibre) : (s.modFibre f g).pwr = s.pwr := rfl
@[simp] theorem modFibre_roll (f : Nat) (g : Fibre → Fibre) : (s.modFibre f g).roll = s.roll := rfl
@[simp] theorem modFibre_wnw (f : Nat) (g : Fibre → Fibre) : (s.modFibre f g).wnw = s.wnw := rfl
@[simp] theorem modFibre_steps (f : Nat) (g : Fibre → Fibre) : (s.modFibre f g).steps = s.steps := rfl
@[simp] theorem modFibre_jobNs (f : Nat) (g : Fibre → Fibre) : (s.modFibre f g).jobNs = s.jobNs := rfl
@[simp] theorem modFibre_trace (f : Nat) (g : Fibre → Fibre) : (s.modFibre f g).trace = s.trace := rfl
@[simp] theorem modFibre_boot (f : Nat) (g : Fibre → Fibre) : (s.modFibre f g).boot = s.boot := rfl
@[simp] theorem modFibre_flt (f : Nat) (g : Fibre → Fibre) : (s.modFibre f g).flt = s.flt := rfl
@[simp] theorem modFibre_stby (f : Nat) (g : Fibre → Fibre) : (s.modFibre f g).stby = s.stby := rfl
@[simp] theorem modFibre_halter (f : Nat) (g : Fibre → Fibre) : (s.modFibre f g).halter = s.halter := rfl

/-! ### modSource -/

@[simp] theorem modSource_variant (k : Nat) (g : Source → Source) : (s.modSource k g).variant = s.variant := rfl
@[simp] theorem modSource_now (k : Nat) (g : Source → Source) : (s.modSource k g).now = s.now := rfl
@[simp] theorem modSource_skew (k : Nat) (g : Source → Source) : (s.modSource k g).skew = s.skew := rfl
@[simp] theorem modSource_free (k : Nat) (g : Source → Source) : (s.modSource k g).free = s.free := rfl
@[simp] theorem modSource_pending (k : Nat) (g : Source → Source) : (s.modSource k g).pending = s.pending := rfl
@[simp] theorem modSource_csr (k : Nat) (g : Source → Source) : (s.modSource k g).csr = s.csr := rfl
@[simp] theorem modSource_cores (k : Nat) (g : Source → Source) : (s.modSource k g).cores = s.cores := rfl
@[simp] theorem modSource_mem (k : Nat) (g : Source → Source) : (s.modSource k g).mem = s.mem := rfl
@[simp] theorem modSource_que (k : Nat) (g : Source → Source) : (s.modSource k g).que = s.que := rfl
@[simp] theorem modSource_win (k : Nat) (g : Source → Source) : (s.modSource k g).win = s.win := rfl
@[simp] theorem modSource_fab (k : Nat) (g : Source → Source) : (s.modSource k g).fab = s.fab := rfl
@[simp] theorem modSource_col (k : Nat) (g : Source → Source) : (s.modSource k g).col = s.col := rfl
@[simp] theorem modSource_dies (k : Nat) (g : Source → Source) : (s.modSource k g).dies = s.dies := rfl
@[simp] theorem modSource_pwr (k : Nat) (g : Source → Source) : (s.modSource k g).pwr = s.pwr := rfl
@[simp] theorem modSource_roll (k : Nat) (g : Source → Source) : (s.modSource k g).roll = s.roll := rfl
@[simp] theorem modSource_wnw (k : Nat) (g : Source → Source) : (s.modSource k g).wnw = s.wnw := rfl
@[simp] theorem modSource_steps (k : Nat) (g : Source → Source) : (s.modSource k g).steps = s.steps := rfl
@[simp] theorem modSource_jobNs (k : Nat) (g : Source → Source) : (s.modSource k g).jobNs = s.jobNs := rfl
@[simp] theorem modSource_trace (k : Nat) (g : Source → Source) : (s.modSource k g).trace = s.trace := rfl
@[simp] theorem modSource_boot (k : Nat) (g : Source → Source) : (s.modSource k g).boot = s.boot := rfl
@[simp] theorem modSource_flt (k : Nat) (g : Source → Source) : (s.modSource k g).flt = s.flt := rfl
@[simp] theorem modSource_stby (k : Nat) (g : Source → Source) : (s.modSource k g).stby = s.stby := rfl
@[simp] theorem modSource_halter (k : Nat) (g : Source → Source) : (s.modSource k g).halter = s.halter := rfl

/-! ### modChan -/

@[simp] theorem modChan_variant (k : Nat) (g : Channel → Channel) : (s.modChan k g).variant = s.variant := rfl
@[simp] theorem modChan_now (k : Nat) (g : Channel → Channel) : (s.modChan k g).now = s.now := rfl
@[simp] theorem modChan_skew (k : Nat) (g : Channel → Channel) : (s.modChan k g).skew = s.skew := rfl
@[simp] theorem modChan_free (k : Nat) (g : Channel → Channel) : (s.modChan k g).free = s.free := rfl
@[simp] theorem modChan_pending (k : Nat) (g : Channel → Channel) : (s.modChan k g).pending = s.pending := rfl
@[simp] theorem modChan_csr (k : Nat) (g : Channel → Channel) : (s.modChan k g).csr = s.csr := rfl
@[simp] theorem modChan_cores (k : Nat) (g : Channel → Channel) : (s.modChan k g).cores = s.cores := rfl
@[simp] theorem modChan_mem (k : Nat) (g : Channel → Channel) : (s.modChan k g).mem = s.mem := rfl
@[simp] theorem modChan_que (k : Nat) (g : Channel → Channel) : (s.modChan k g).que = s.que := rfl
@[simp] theorem modChan_win (k : Nat) (g : Channel → Channel) : (s.modChan k g).win = s.win := rfl
@[simp] theorem modChan_fab (k : Nat) (g : Channel → Channel) : (s.modChan k g).fab = s.fab := rfl
@[simp] theorem modChan_col (k : Nat) (g : Channel → Channel) : (s.modChan k g).col = s.col := rfl
@[simp] theorem modChan_dies (k : Nat) (g : Channel → Channel) : (s.modChan k g).dies = s.dies := rfl
@[simp] theorem modChan_pwr (k : Nat) (g : Channel → Channel) : (s.modChan k g).pwr = s.pwr := rfl
@[simp] theorem modChan_roll (k : Nat) (g : Channel → Channel) : (s.modChan k g).roll = s.roll := rfl
@[simp] theorem modChan_wnw (k : Nat) (g : Channel → Channel) : (s.modChan k g).wnw = s.wnw := rfl
@[simp] theorem modChan_steps (k : Nat) (g : Channel → Channel) : (s.modChan k g).steps = s.steps := rfl
@[simp] theorem modChan_jobNs (k : Nat) (g : Channel → Channel) : (s.modChan k g).jobNs = s.jobNs := rfl
@[simp] theorem modChan_trace (k : Nat) (g : Channel → Channel) : (s.modChan k g).trace = s.trace := rfl
@[simp] theorem modChan_boot (k : Nat) (g : Channel → Channel) : (s.modChan k g).boot = s.boot := rfl
@[simp] theorem modChan_flt (k : Nat) (g : Channel → Channel) : (s.modChan k g).flt = s.flt := rfl
@[simp] theorem modChan_stby (k : Nat) (g : Channel → Channel) : (s.modChan k g).stby = s.stby := rfl
@[simp] theorem modChan_halter (k : Nat) (g : Channel → Channel) : (s.modChan k g).halter = s.halter := rfl

/-! ### modLink -/

@[simp] theorem modLink_variant (l : Nat) (f : Link → Link) : (s.modLink l f).variant = s.variant := rfl
@[simp] theorem modLink_now (l : Nat) (f : Link → Link) : (s.modLink l f).now = s.now := rfl
@[simp] theorem modLink_skew (l : Nat) (f : Link → Link) : (s.modLink l f).skew = s.skew := rfl
@[simp] theorem modLink_free (l : Nat) (f : Link → Link) : (s.modLink l f).free = s.free := rfl
@[simp] theorem modLink_pending (l : Nat) (f : Link → Link) : (s.modLink l f).pending = s.pending := rfl
@[simp] theorem modLink_csr (l : Nat) (f : Link → Link) : (s.modLink l f).csr = s.csr := rfl
@[simp] theorem modLink_cores (l : Nat) (f : Link → Link) : (s.modLink l f).cores = s.cores := rfl
@[simp] theorem modLink_mem (l : Nat) (f : Link → Link) : (s.modLink l f).mem = s.mem := rfl
@[simp] theorem modLink_que (l : Nat) (f : Link → Link) : (s.modLink l f).que = s.que := rfl
@[simp] theorem modLink_win (l : Nat) (f : Link → Link) : (s.modLink l f).win = s.win := rfl
@[simp] theorem modLink_col (l : Nat) (f : Link → Link) : (s.modLink l f).col = s.col := rfl
@[simp] theorem modLink_pho (l : Nat) (f : Link → Link) : (s.modLink l f).pho = s.pho := rfl
@[simp] theorem modLink_dies (l : Nat) (f : Link → Link) : (s.modLink l f).dies = s.dies := rfl
@[simp] theorem modLink_pwr (l : Nat) (f : Link → Link) : (s.modLink l f).pwr = s.pwr := rfl
@[simp] theorem modLink_roll (l : Nat) (f : Link → Link) : (s.modLink l f).roll = s.roll := rfl
@[simp] theorem modLink_wnw (l : Nat) (f : Link → Link) : (s.modLink l f).wnw = s.wnw := rfl
@[simp] theorem modLink_steps (l : Nat) (f : Link → Link) : (s.modLink l f).steps = s.steps := rfl
@[simp] theorem modLink_jobNs (l : Nat) (f : Link → Link) : (s.modLink l f).jobNs = s.jobNs := rfl
@[simp] theorem modLink_trace (l : Nat) (f : Link → Link) : (s.modLink l f).trace = s.trace := rfl
@[simp] theorem modLink_boot (l : Nat) (f : Link → Link) : (s.modLink l f).boot = s.boot := rfl
@[simp] theorem modLink_flt (l : Nat) (f : Link → Link) : (s.modLink l f).flt = s.flt := rfl
@[simp] theorem modLink_stby (l : Nat) (f : Link → Link) : (s.modLink l f).stby = s.stby := rfl
@[simp] theorem modLink_halter (l : Nat) (f : Link → Link) : (s.modLink l f).halter = s.halter := rfl

/-! ### ctrlSay -/

@[simp] theorem ctrlSay_variant (l : Nat) (what : String) (args : List Nat) : (s.ctrlSay l what args).variant = s.variant := rfl
@[simp] theorem ctrlSay_now (l : Nat) (what : String) (args : List Nat) : (s.ctrlSay l what args).now = s.now := rfl
@[simp] theorem ctrlSay_skew (l : Nat) (what : String) (args : List Nat) : (s.ctrlSay l what args).skew = s.skew := rfl
@[simp] theorem ctrlSay_free (l : Nat) (what : String) (args : List Nat) : (s.ctrlSay l what args).free = s.free := rfl
@[simp] theorem ctrlSay_pending (l : Nat) (what : String) (args : List Nat) : (s.ctrlSay l what args).pending = s.pending := rfl
@[simp] theorem ctrlSay_csr (l : Nat) (what : String) (args : List Nat) : (s.ctrlSay l what args).csr = s.csr := rfl
@[simp] theorem ctrlSay_cores (l : Nat) (what : String) (args : List Nat) : (s.ctrlSay l what args).cores = s.cores := rfl
@[simp] theorem ctrlSay_mem (l : Nat) (what : String) (args : List Nat) : (s.ctrlSay l what args).mem = s.mem := rfl
@[simp] theorem ctrlSay_que (l : Nat) (what : String) (args : List Nat) : (s.ctrlSay l what args).que = s.que := rfl
@[simp] theorem ctrlSay_win (l : Nat) (what : String) (args : List Nat) : (s.ctrlSay l what args).win = s.win := rfl
@[simp] theorem ctrlSay_col (l : Nat) (what : String) (args : List Nat) : (s.ctrlSay l what args).col = s.col := rfl
@[simp] theorem ctrlSay_pho (l : Nat) (what : String) (args : List Nat) : (s.ctrlSay l what args).pho = s.pho := rfl
@[simp] theorem ctrlSay_dies (l : Nat) (what : String) (args : List Nat) : (s.ctrlSay l what args).dies = s.dies := rfl
@[simp] theorem ctrlSay_pwr (l : Nat) (what : String) (args : List Nat) : (s.ctrlSay l what args).pwr = s.pwr := rfl
@[simp] theorem ctrlSay_roll (l : Nat) (what : String) (args : List Nat) : (s.ctrlSay l what args).roll = s.roll := rfl
@[simp] theorem ctrlSay_wnw (l : Nat) (what : String) (args : List Nat) : (s.ctrlSay l what args).wnw = s.wnw := rfl
@[simp] theorem ctrlSay_steps (l : Nat) (what : String) (args : List Nat) : (s.ctrlSay l what args).steps = s.steps := rfl
@[simp] theorem ctrlSay_jobNs (l : Nat) (what : String) (args : List Nat) : (s.ctrlSay l what args).jobNs = s.jobNs := rfl
@[simp] theorem ctrlSay_trace (l : Nat) (what : String) (args : List Nat) : (s.ctrlSay l what args).trace = s.trace := rfl
@[simp] theorem ctrlSay_boot (l : Nat) (what : String) (args : List Nat) : (s.ctrlSay l what args).boot = s.boot := rfl
@[simp] theorem ctrlSay_flt (l : Nat) (what : String) (args : List Nat) : (s.ctrlSay l what args).flt = s.flt := rfl
@[simp] theorem ctrlSay_stby (l : Nat) (what : String) (args : List Nat) : (s.ctrlSay l what args).stby = s.stby := rfl
@[simp] theorem ctrlSay_halter (l : Nat) (what : String) (args : List Nat) : (s.ctrlSay l what args).halter = s.halter := rfl

/-! ### ethSay -/

@[simp] theorem ethSay_variant (e : Nat) (o : EthOut) : (s.ethSay e o).variant = s.variant := rfl
@[simp] theorem ethSay_now (e : Nat) (o : EthOut) : (s.ethSay e o).now = s.now := rfl
@[simp] theorem ethSay_skew (e : Nat) (o : EthOut) : (s.ethSay e o).skew = s.skew := rfl
@[simp] theorem ethSay_free (e : Nat) (o : EthOut) : (s.ethSay e o).free = s.free := rfl
@[simp] theorem ethSay_pending (e : Nat) (o : EthOut) : (s.ethSay e o).pending = s.pending := rfl
@[simp] theorem ethSay_csr (e : Nat) (o : EthOut) : (s.ethSay e o).csr = s.csr := rfl
@[simp] theorem ethSay_cores (e : Nat) (o : EthOut) : (s.ethSay e o).cores = s.cores := rfl
@[simp] theorem ethSay_mem (e : Nat) (o : EthOut) : (s.ethSay e o).mem = s.mem := rfl
@[simp] theorem ethSay_que (e : Nat) (o : EthOut) : (s.ethSay e o).que = s.que := rfl
@[simp] theorem ethSay_win (e : Nat) (o : EthOut) : (s.ethSay e o).win = s.win := rfl
@[simp] theorem ethSay_col (e : Nat) (o : EthOut) : (s.ethSay e o).col = s.col := rfl
@[simp] theorem ethSay_pho (e : Nat) (o : EthOut) : (s.ethSay e o).pho = s.pho := rfl
@[simp] theorem ethSay_dies (e : Nat) (o : EthOut) : (s.ethSay e o).dies = s.dies := rfl
@[simp] theorem ethSay_pwr (e : Nat) (o : EthOut) : (s.ethSay e o).pwr = s.pwr := rfl
@[simp] theorem ethSay_roll (e : Nat) (o : EthOut) : (s.ethSay e o).roll = s.roll := rfl
@[simp] theorem ethSay_wnw (e : Nat) (o : EthOut) : (s.ethSay e o).wnw = s.wnw := rfl
@[simp] theorem ethSay_steps (e : Nat) (o : EthOut) : (s.ethSay e o).steps = s.steps := rfl
@[simp] theorem ethSay_jobNs (e : Nat) (o : EthOut) : (s.ethSay e o).jobNs = s.jobNs := rfl
@[simp] theorem ethSay_trace (e : Nat) (o : EthOut) : (s.ethSay e o).trace = s.trace := rfl
@[simp] theorem ethSay_boot (e : Nat) (o : EthOut) : (s.ethSay e o).boot = s.boot := rfl
@[simp] theorem ethSay_flt (e : Nat) (o : EthOut) : (s.ethSay e o).flt = s.flt := rfl
@[simp] theorem ethSay_stby (e : Nat) (o : EthOut) : (s.ethSay e o).stby = s.stby := rfl
@[simp] theorem ethSay_halter (e : Nat) (o : EthOut) : (s.ethSay e o).halter = s.halter := rfl

/-! ### modQp -/

@[simp] theorem modQp_variant (e q : Nat) (f : Qp → Qp) : (s.modQp e q f).variant = s.variant := rfl
@[simp] theorem modQp_now (e q : Nat) (f : Qp → Qp) : (s.modQp e q f).now = s.now := rfl
@[simp] theorem modQp_skew (e q : Nat) (f : Qp → Qp) : (s.modQp e q f).skew = s.skew := rfl
@[simp] theorem modQp_free (e q : Nat) (f : Qp → Qp) : (s.modQp e q f).free = s.free := rfl
@[simp] theorem modQp_pending (e q : Nat) (f : Qp → Qp) : (s.modQp e q f).pending = s.pending := rfl
@[simp] theorem modQp_csr (e q : Nat) (f : Qp → Qp) : (s.modQp e q f).csr = s.csr := rfl
@[simp] theorem modQp_cores (e q : Nat) (f : Qp → Qp) : (s.modQp e q f).cores = s.cores := rfl
@[simp] theorem modQp_mem (e q : Nat) (f : Qp → Qp) : (s.modQp e q f).mem = s.mem := rfl
@[simp] theorem modQp_que (e q : Nat) (f : Qp → Qp) : (s.modQp e q f).que = s.que := rfl
@[simp] theorem modQp_win (e q : Nat) (f : Qp → Qp) : (s.modQp e q f).win = s.win := rfl
@[simp] theorem modQp_col (e q : Nat) (f : Qp → Qp) : (s.modQp e q f).col = s.col := rfl
@[simp] theorem modQp_pho (e q : Nat) (f : Qp → Qp) : (s.modQp e q f).pho = s.pho := rfl
@[simp] theorem modQp_dies (e q : Nat) (f : Qp → Qp) : (s.modQp e q f).dies = s.dies := rfl
@[simp] theorem modQp_pwr (e q : Nat) (f : Qp → Qp) : (s.modQp e q f).pwr = s.pwr := rfl
@[simp] theorem modQp_roll (e q : Nat) (f : Qp → Qp) : (s.modQp e q f).roll = s.roll := rfl
@[simp] theorem modQp_wnw (e q : Nat) (f : Qp → Qp) : (s.modQp e q f).wnw = s.wnw := rfl
@[simp] theorem modQp_steps (e q : Nat) (f : Qp → Qp) : (s.modQp e q f).steps = s.steps := rfl
@[simp] theorem modQp_jobNs (e q : Nat) (f : Qp → Qp) : (s.modQp e q f).jobNs = s.jobNs := rfl
@[simp] theorem modQp_trace (e q : Nat) (f : Qp → Qp) : (s.modQp e q f).trace = s.trace := rfl
@[simp] theorem modQp_boot (e q : Nat) (f : Qp → Qp) : (s.modQp e q f).boot = s.boot := rfl
@[simp] theorem modQp_flt (e q : Nat) (f : Qp → Qp) : (s.modQp e q f).flt = s.flt := rfl
@[simp] theorem modQp_stby (e q : Nat) (f : Qp → Qp) : (s.modQp e q f).stby = s.stby := rfl
@[simp] theorem modQp_halter (e q : Nat) (f : Qp → Qp) : (s.modQp e q f).halter = s.halter := rfl

/-! ### modRem -/

@[simp] theorem modRem_variant (id : Nat) (f : RemOp → RemOp) : (s.modRem id f).variant = s.variant := rfl
@[simp] theorem modRem_now (id : Nat) (f : RemOp → RemOp) : (s.modRem id f).now = s.now := rfl
@[simp] theorem modRem_skew (id : Nat) (f : RemOp → RemOp) : (s.modRem id f).skew = s.skew := rfl
@[simp] theorem modRem_free (id : Nat) (f : RemOp → RemOp) : (s.modRem id f).free = s.free := rfl
@[simp] theorem modRem_pending (id : Nat) (f : RemOp → RemOp) : (s.modRem id f).pending = s.pending := rfl
@[simp] theorem modRem_csr (id : Nat) (f : RemOp → RemOp) : (s.modRem id f).csr = s.csr := rfl
@[simp] theorem modRem_cores (id : Nat) (f : RemOp → RemOp) : (s.modRem id f).cores = s.cores := rfl
@[simp] theorem modRem_mem (id : Nat) (f : RemOp → RemOp) : (s.modRem id f).mem = s.mem := rfl
@[simp] theorem modRem_que (id : Nat) (f : RemOp → RemOp) : (s.modRem id f).que = s.que := rfl
@[simp] theorem modRem_fab (id : Nat) (f : RemOp → RemOp) : (s.modRem id f).fab = s.fab := rfl
@[simp] theorem modRem_col (id : Nat) (f : RemOp → RemOp) : (s.modRem id f).col = s.col := rfl
@[simp] theorem modRem_pho (id : Nat) (f : RemOp → RemOp) : (s.modRem id f).pho = s.pho := rfl
@[simp] theorem modRem_dies (id : Nat) (f : RemOp → RemOp) : (s.modRem id f).dies = s.dies := rfl
@[simp] theorem modRem_pwr (id : Nat) (f : RemOp → RemOp) : (s.modRem id f).pwr = s.pwr := rfl
@[simp] theorem modRem_roll (id : Nat) (f : RemOp → RemOp) : (s.modRem id f).roll = s.roll := rfl
@[simp] theorem modRem_wnw (id : Nat) (f : RemOp → RemOp) : (s.modRem id f).wnw = s.wnw := rfl
@[simp] theorem modRem_steps (id : Nat) (f : RemOp → RemOp) : (s.modRem id f).steps = s.steps := rfl
@[simp] theorem modRem_jobNs (id : Nat) (f : RemOp → RemOp) : (s.modRem id f).jobNs = s.jobNs := rfl
@[simp] theorem modRem_trace (id : Nat) (f : RemOp → RemOp) : (s.modRem id f).trace = s.trace := rfl
@[simp] theorem modRem_boot (id : Nat) (f : RemOp → RemOp) : (s.modRem id f).boot = s.boot := rfl
@[simp] theorem modRem_flt (id : Nat) (f : RemOp → RemOp) : (s.modRem id f).flt = s.flt := rfl
@[simp] theorem modRem_stby (id : Nat) (f : RemOp → RemOp) : (s.modRem id f).stby = s.stby := rfl
@[simp] theorem modRem_halter (id : Nat) (f : RemOp → RemOp) : (s.modRem id f).halter = s.halter := rfl

/-! ### dropRem -/

@[simp] theorem dropRem_variant (id : Nat) : (s.dropRem id).variant = s.variant := rfl
@[simp] theorem dropRem_now (id : Nat) : (s.dropRem id).now = s.now := rfl
@[simp] theorem dropRem_skew (id : Nat) : (s.dropRem id).skew = s.skew := rfl
@[simp] theorem dropRem_free (id : Nat) : (s.dropRem id).free = s.free := rfl
@[simp] theorem dropRem_pending (id : Nat) : (s.dropRem id).pending = s.pending := rfl
@[simp] theorem dropRem_csr (id : Nat) : (s.dropRem id).csr = s.csr := rfl
@[simp] theorem dropRem_cores (id : Nat) : (s.dropRem id).cores = s.cores := rfl
@[simp] theorem dropRem_mem (id : Nat) : (s.dropRem id).mem = s.mem := rfl
@[simp] theorem dropRem_que (id : Nat) : (s.dropRem id).que = s.que := rfl
@[simp] theorem dropRem_fab (id : Nat) : (s.dropRem id).fab = s.fab := rfl
@[simp] theorem dropRem_col (id : Nat) : (s.dropRem id).col = s.col := rfl
@[simp] theorem dropRem_pho (id : Nat) : (s.dropRem id).pho = s.pho := rfl
@[simp] theorem dropRem_dies (id : Nat) : (s.dropRem id).dies = s.dies := rfl
@[simp] theorem dropRem_pwr (id : Nat) : (s.dropRem id).pwr = s.pwr := rfl
@[simp] theorem dropRem_roll (id : Nat) : (s.dropRem id).roll = s.roll := rfl
@[simp] theorem dropRem_wnw (id : Nat) : (s.dropRem id).wnw = s.wnw := rfl
@[simp] theorem dropRem_steps (id : Nat) : (s.dropRem id).steps = s.steps := rfl
@[simp] theorem dropRem_jobNs (id : Nat) : (s.dropRem id).jobNs = s.jobNs := rfl
@[simp] theorem dropRem_trace (id : Nat) : (s.dropRem id).trace = s.trace := rfl
@[simp] theorem dropRem_boot (id : Nat) : (s.dropRem id).boot = s.boot := rfl
@[simp] theorem dropRem_flt (id : Nat) : (s.dropRem id).flt = s.flt := rfl
@[simp] theorem dropRem_stby (id : Nat) : (s.dropRem id).stby = s.stby := rfl
@[simp] theorem dropRem_halter (id : Nat) : (s.dropRem id).halter = s.halter := rfl

/-! ### setFolds -/

@[simp] theorem setFolds_variant (b : Nat) (l : List FoldEntry) : (s.setFolds b l).variant = s.variant := rfl
@[simp] theorem setFolds_now (b : Nat) (l : List FoldEntry) : (s.setFolds b l).now = s.now := rfl
@[simp] theorem setFolds_skew (b : Nat) (l : List FoldEntry) : (s.setFolds b l).skew = s.skew := rfl
@[simp] theorem setFolds_free (b : Nat) (l : List FoldEntry) : (s.setFolds b l).free = s.free := rfl
@[simp] theorem setFolds_pending (b : Nat) (l : List FoldEntry) : (s.setFolds b l).pending = s.pending := rfl
@[simp] theorem setFolds_csr (b : Nat) (l : List FoldEntry) : (s.setFolds b l).csr = s.csr := rfl
@[simp] theorem setFolds_cores (b : Nat) (l : List FoldEntry) : (s.setFolds b l).cores = s.cores := rfl
@[simp] theorem setFolds_mem (b : Nat) (l : List FoldEntry) : (s.setFolds b l).mem = s.mem := rfl
@[simp] theorem setFolds_que (b : Nat) (l : List FoldEntry) : (s.setFolds b l).que = s.que := rfl
@[simp] theorem setFolds_fab (b : Nat) (l : List FoldEntry) : (s.setFolds b l).fab = s.fab := rfl
@[simp] theorem setFolds_col (b : Nat) (l : List FoldEntry) : (s.setFolds b l).col = s.col := rfl
@[simp] theorem setFolds_pho (b : Nat) (l : List FoldEntry) : (s.setFolds b l).pho = s.pho := rfl
@[simp] theorem setFolds_dies (b : Nat) (l : List FoldEntry) : (s.setFolds b l).dies = s.dies := rfl
@[simp] theorem setFolds_pwr (b : Nat) (l : List FoldEntry) : (s.setFolds b l).pwr = s.pwr := rfl
@[simp] theorem setFolds_roll (b : Nat) (l : List FoldEntry) : (s.setFolds b l).roll = s.roll := rfl
@[simp] theorem setFolds_wnw (b : Nat) (l : List FoldEntry) : (s.setFolds b l).wnw = s.wnw := rfl
@[simp] theorem setFolds_steps (b : Nat) (l : List FoldEntry) : (s.setFolds b l).steps = s.steps := rfl
@[simp] theorem setFolds_jobNs (b : Nat) (l : List FoldEntry) : (s.setFolds b l).jobNs = s.jobNs := rfl
@[simp] theorem setFolds_trace (b : Nat) (l : List FoldEntry) : (s.setFolds b l).trace = s.trace := rfl
@[simp] theorem setFolds_boot (b : Nat) (l : List FoldEntry) : (s.setFolds b l).boot = s.boot := rfl
@[simp] theorem setFolds_flt (b : Nat) (l : List FoldEntry) : (s.setFolds b l).flt = s.flt := rfl
@[simp] theorem setFolds_stby (b : Nat) (l : List FoldEntry) : (s.setFolds b l).stby = s.stby := rfl
@[simp] theorem setFolds_halter (b : Nat) (l : List FoldEntry) : (s.setFolds b l).halter = s.halter := rfl

/-! ### setCombs -/

@[simp] theorem setCombs_variant (b : Nat) (l : List CombEntry) : (s.setCombs b l).variant = s.variant := rfl
@[simp] theorem setCombs_now (b : Nat) (l : List CombEntry) : (s.setCombs b l).now = s.now := rfl
@[simp] theorem setCombs_skew (b : Nat) (l : List CombEntry) : (s.setCombs b l).skew = s.skew := rfl
@[simp] theorem setCombs_free (b : Nat) (l : List CombEntry) : (s.setCombs b l).free = s.free := rfl
@[simp] theorem setCombs_pending (b : Nat) (l : List CombEntry) : (s.setCombs b l).pending = s.pending := rfl
@[simp] theorem setCombs_csr (b : Nat) (l : List CombEntry) : (s.setCombs b l).csr = s.csr := rfl
@[simp] theorem setCombs_cores (b : Nat) (l : List CombEntry) : (s.setCombs b l).cores = s.cores := rfl
@[simp] theorem setCombs_mem (b : Nat) (l : List CombEntry) : (s.setCombs b l).mem = s.mem := rfl
@[simp] theorem setCombs_que (b : Nat) (l : List CombEntry) : (s.setCombs b l).que = s.que := rfl
@[simp] theorem setCombs_fab (b : Nat) (l : List CombEntry) : (s.setCombs b l).fab = s.fab := rfl
@[simp] theorem setCombs_col (b : Nat) (l : List CombEntry) : (s.setCombs b l).col = s.col := rfl
@[simp] theorem setCombs_pho (b : Nat) (l : List CombEntry) : (s.setCombs b l).pho = s.pho := rfl
@[simp] theorem setCombs_dies (b : Nat) (l : List CombEntry) : (s.setCombs b l).dies = s.dies := rfl
@[simp] theorem setCombs_pwr (b : Nat) (l : List CombEntry) : (s.setCombs b l).pwr = s.pwr := rfl
@[simp] theorem setCombs_roll (b : Nat) (l : List CombEntry) : (s.setCombs b l).roll = s.roll := rfl
@[simp] theorem setCombs_wnw (b : Nat) (l : List CombEntry) : (s.setCombs b l).wnw = s.wnw := rfl
@[simp] theorem setCombs_steps (b : Nat) (l : List CombEntry) : (s.setCombs b l).steps = s.steps := rfl
@[simp] theorem setCombs_jobNs (b : Nat) (l : List CombEntry) : (s.setCombs b l).jobNs = s.jobNs := rfl
@[simp] theorem setCombs_trace (b : Nat) (l : List CombEntry) : (s.setCombs b l).trace = s.trace := rfl
@[simp] theorem setCombs_boot (b : Nat) (l : List CombEntry) : (s.setCombs b l).boot = s.boot := rfl
@[simp] theorem setCombs_flt (b : Nat) (l : List CombEntry) : (s.setCombs b l).flt = s.flt := rfl
@[simp] theorem setCombs_stby (b : Nat) (l : List CombEntry) : (s.setCombs b l).stby = s.stby := rfl
@[simp] theorem setCombs_halter (b : Nat) (l : List CombEntry) : (s.setCombs b l).halter = s.halter := rfl

/-! ### setWcache -/

@[simp] theorem setWcache_variant (b : Nat) (l : List (Nat × W64)) : (s.setWcache b l).variant = s.variant := rfl
@[simp] theorem setWcache_now (b : Nat) (l : List (Nat × W64)) : (s.setWcache b l).now = s.now := rfl
@[simp] theorem setWcache_skew (b : Nat) (l : List (Nat × W64)) : (s.setWcache b l).skew = s.skew := rfl
@[simp] theorem setWcache_free (b : Nat) (l : List (Nat × W64)) : (s.setWcache b l).free = s.free := rfl
@[simp] theorem setWcache_pending (b : Nat) (l : List (Nat × W64)) : (s.setWcache b l).pending = s.pending := rfl
@[simp] theorem setWcache_csr (b : Nat) (l : List (Nat × W64)) : (s.setWcache b l).csr = s.csr := rfl
@[simp] theorem setWcache_cores (b : Nat) (l : List (Nat × W64)) : (s.setWcache b l).cores = s.cores := rfl
@[simp] theorem setWcache_mem (b : Nat) (l : List (Nat × W64)) : (s.setWcache b l).mem = s.mem := rfl
@[simp] theorem setWcache_que (b : Nat) (l : List (Nat × W64)) : (s.setWcache b l).que = s.que := rfl
@[simp] theorem setWcache_fab (b : Nat) (l : List (Nat × W64)) : (s.setWcache b l).fab = s.fab := rfl
@[simp] theorem setWcache_col (b : Nat) (l : List (Nat × W64)) : (s.setWcache b l).col = s.col := rfl
@[simp] theorem setWcache_pho (b : Nat) (l : List (Nat × W64)) : (s.setWcache b l).pho = s.pho := rfl
@[simp] theorem setWcache_dies (b : Nat) (l : List (Nat × W64)) : (s.setWcache b l).dies = s.dies := rfl
@[simp] theorem setWcache_pwr (b : Nat) (l : List (Nat × W64)) : (s.setWcache b l).pwr = s.pwr := rfl
@[simp] theorem setWcache_roll (b : Nat) (l : List (Nat × W64)) : (s.setWcache b l).roll = s.roll := rfl
@[simp] theorem setWcache_wnw (b : Nat) (l : List (Nat × W64)) : (s.setWcache b l).wnw = s.wnw := rfl
@[simp] theorem setWcache_steps (b : Nat) (l : List (Nat × W64)) : (s.setWcache b l).steps = s.steps := rfl
@[simp] theorem setWcache_jobNs (b : Nat) (l : List (Nat × W64)) : (s.setWcache b l).jobNs = s.jobNs := rfl
@[simp] theorem setWcache_trace (b : Nat) (l : List (Nat × W64)) : (s.setWcache b l).trace = s.trace := rfl
@[simp] theorem setWcache_boot (b : Nat) (l : List (Nat × W64)) : (s.setWcache b l).boot = s.boot := rfl
@[simp] theorem setWcache_flt (b : Nat) (l : List (Nat × W64)) : (s.setWcache b l).flt = s.flt := rfl
@[simp] theorem setWcache_stby (b : Nat) (l : List (Nat × W64)) : (s.setWcache b l).stby = s.stby := rfl
@[simp] theorem setWcache_halter (b : Nat) (l : List (Nat × W64)) : (s.setWcache b l).halter = s.halter := rfl

/-! ### modRnode -/

@[simp] theorem modRnode_variant (n : Nat) (f : RNode → RNode) : (s.modRnode n f).variant = s.variant := rfl
@[simp] theorem modRnode_now (n : Nat) (f : RNode → RNode) : (s.modRnode n f).now = s.now := rfl
@[simp] theorem modRnode_skew (n : Nat) (f : RNode → RNode) : (s.modRnode n f).skew = s.skew := rfl
@[simp] theorem modRnode_free (n : Nat) (f : RNode → RNode) : (s.modRnode n f).free = s.free := rfl
@[simp] theorem modRnode_pending (n : Nat) (f : RNode → RNode) : (s.modRnode n f).pending = s.pending := rfl
@[simp] theorem modRnode_csr (n : Nat) (f : RNode → RNode) : (s.modRnode n f).csr = s.csr := rfl
@[simp] theorem modRnode_cores (n : Nat) (f : RNode → RNode) : (s.modRnode n f).cores = s.cores := rfl
@[simp] theorem modRnode_mem (n : Nat) (f : RNode → RNode) : (s.modRnode n f).mem = s.mem := rfl
@[simp] theorem modRnode_que (n : Nat) (f : RNode → RNode) : (s.modRnode n f).que = s.que := rfl
@[simp] theorem modRnode_win (n : Nat) (f : RNode → RNode) : (s.modRnode n f).win = s.win := rfl
@[simp] theorem modRnode_fab (n : Nat) (f : RNode → RNode) : (s.modRnode n f).fab = s.fab := rfl
@[simp] theorem modRnode_col (n : Nat) (f : RNode → RNode) : (s.modRnode n f).col = s.col := rfl
@[simp] theorem modRnode_pho (n : Nat) (f : RNode → RNode) : (s.modRnode n f).pho = s.pho := rfl
@[simp] theorem modRnode_dies (n : Nat) (f : RNode → RNode) : (s.modRnode n f).dies = s.dies := rfl
@[simp] theorem modRnode_pwr (n : Nat) (f : RNode → RNode) : (s.modRnode n f).pwr = s.pwr := rfl
@[simp] theorem modRnode_wnw (n : Nat) (f : RNode → RNode) : (s.modRnode n f).wnw = s.wnw := rfl
@[simp] theorem modRnode_steps (n : Nat) (f : RNode → RNode) : (s.modRnode n f).steps = s.steps := rfl
@[simp] theorem modRnode_jobNs (n : Nat) (f : RNode → RNode) : (s.modRnode n f).jobNs = s.jobNs := rfl
@[simp] theorem modRnode_trace (n : Nat) (f : RNode → RNode) : (s.modRnode n f).trace = s.trace := rfl
@[simp] theorem modRnode_boot (n : Nat) (f : RNode → RNode) : (s.modRnode n f).boot = s.boot := rfl
@[simp] theorem modRnode_flt (n : Nat) (f : RNode → RNode) : (s.modRnode n f).flt = s.flt := rfl
@[simp] theorem modRnode_stby (n : Nat) (f : RNode → RNode) : (s.modRnode n f).stby = s.stby := rfl
@[simp] theorem modRnode_halter (n : Nat) (f : RNode → RNode) : (s.modRnode n f).halter = s.halter := rfl

/-! ### remember -/

@[simp] theorem remember_variant (aux src pay : Nat) : (s.remember aux src pay).variant = s.variant := rfl
@[simp] theorem remember_now (aux src pay : Nat) : (s.remember aux src pay).now = s.now := rfl
@[simp] theorem remember_skew (aux src pay : Nat) : (s.remember aux src pay).skew = s.skew := rfl
@[simp] theorem remember_free (aux src pay : Nat) : (s.remember aux src pay).free = s.free := rfl
@[simp] theorem remember_pending (aux src pay : Nat) : (s.remember aux src pay).pending = s.pending := rfl
@[simp] theorem remember_csr (aux src pay : Nat) : (s.remember aux src pay).csr = s.csr := rfl
@[simp] theorem remember_cores (aux src pay : Nat) : (s.remember aux src pay).cores = s.cores := rfl
@[simp] theorem remember_mem (aux src pay : Nat) : (s.remember aux src pay).mem = s.mem := rfl
@[simp] theorem remember_que (aux src pay : Nat) : (s.remember aux src pay).que = s.que := rfl
@[simp] theorem remember_win (aux src pay : Nat) : (s.remember aux src pay).win = s.win := rfl
@[simp] theorem remember_fab (aux src pay : Nat) : (s.remember aux src pay).fab = s.fab := rfl
@[simp] theorem remember_col (aux src pay : Nat) : (s.remember aux src pay).col = s.col := rfl
@[simp] theorem remember_pho (aux src pay : Nat) : (s.remember aux src pay).pho = s.pho := rfl
@[simp] theorem remember_dies (aux src pay : Nat) : (s.remember aux src pay).dies = s.dies := rfl
@[simp] theorem remember_pwr (aux src pay : Nat) : (s.remember aux src pay).pwr = s.pwr := rfl
@[simp] theorem remember_wnw (aux src pay : Nat) : (s.remember aux src pay).wnw = s.wnw := rfl
@[simp] theorem remember_steps (aux src pay : Nat) : (s.remember aux src pay).steps = s.steps := rfl
@[simp] theorem remember_jobNs (aux src pay : Nat) : (s.remember aux src pay).jobNs = s.jobNs := rfl
@[simp] theorem remember_trace (aux src pay : Nat) : (s.remember aux src pay).trace = s.trace := rfl
@[simp] theorem remember_boot (aux src pay : Nat) : (s.remember aux src pay).boot = s.boot := rfl
@[simp] theorem remember_flt (aux src pay : Nat) : (s.remember aux src pay).flt = s.flt := rfl
@[simp] theorem remember_stby (aux src pay : Nat) : (s.remember aux src pay).stby = s.stby := rfl
@[simp] theorem remember_halter (aux src pay : Nat) : (s.remember aux src pay).halter = s.halter := rfl

/-! ### keepRollCfg -/

@[simp] theorem keepRollCfg_variant : s.keepRollCfg.variant = s.variant := rfl
@[simp] theorem keepRollCfg_now : s.keepRollCfg.now = s.now := rfl
@[simp] theorem keepRollCfg_skew : s.keepRollCfg.skew = s.skew := rfl
@[simp] theorem keepRollCfg_free : s.keepRollCfg.free = s.free := rfl
@[simp] theorem keepRollCfg_pending : s.keepRollCfg.pending = s.pending := rfl
@[simp] theorem keepRollCfg_csr : s.keepRollCfg.csr = s.csr := rfl
@[simp] theorem keepRollCfg_cores : s.keepRollCfg.cores = s.cores := rfl
@[simp] theorem keepRollCfg_mem : s.keepRollCfg.mem = s.mem := rfl
@[simp] theorem keepRollCfg_que : s.keepRollCfg.que = s.que := rfl
@[simp] theorem keepRollCfg_win : s.keepRollCfg.win = s.win := rfl
@[simp] theorem keepRollCfg_fab : s.keepRollCfg.fab = s.fab := rfl
@[simp] theorem keepRollCfg_col : s.keepRollCfg.col = s.col := rfl
@[simp] theorem keepRollCfg_pho : s.keepRollCfg.pho = s.pho := rfl
@[simp] theorem keepRollCfg_dies : s.keepRollCfg.dies = s.dies := rfl
@[simp] theorem keepRollCfg_pwr : s.keepRollCfg.pwr = s.pwr := rfl
@[simp] theorem keepRollCfg_wnw : s.keepRollCfg.wnw = s.wnw := rfl
@[simp] theorem keepRollCfg_steps : s.keepRollCfg.steps = s.steps := rfl
@[simp] theorem keepRollCfg_jobNs : s.keepRollCfg.jobNs = s.jobNs := rfl
@[simp] theorem keepRollCfg_trace : s.keepRollCfg.trace = s.trace := rfl
@[simp] theorem keepRollCfg_boot : s.keepRollCfg.boot = s.boot := rfl
@[simp] theorem keepRollCfg_flt : s.keepRollCfg.flt = s.flt := rfl
@[simp] theorem keepRollCfg_stby : s.keepRollCfg.stby = s.stby := rfl
@[simp] theorem keepRollCfg_halter : s.keepRollCfg.halter = s.halter := rfl

/-! ### takeRollCfg -/

@[simp] theorem takeRollCfg_variant : s.takeRollCfg.variant = s.variant := rfl
@[simp] theorem takeRollCfg_now : s.takeRollCfg.now = s.now := rfl
@[simp] theorem takeRollCfg_skew : s.takeRollCfg.skew = s.skew := rfl
@[simp] theorem takeRollCfg_free : s.takeRollCfg.free = s.free := rfl
@[simp] theorem takeRollCfg_pending : s.takeRollCfg.pending = s.pending := rfl
@[simp] theorem takeRollCfg_csr : s.takeRollCfg.csr = s.csr := rfl
@[simp] theorem takeRollCfg_cores : s.takeRollCfg.cores = s.cores := rfl
@[simp] theorem takeRollCfg_mem : s.takeRollCfg.mem = s.mem := rfl
@[simp] theorem takeRollCfg_que : s.takeRollCfg.que = s.que := rfl
@[simp] theorem takeRollCfg_win : s.takeRollCfg.win = s.win := rfl
@[simp] theorem takeRollCfg_fab : s.takeRollCfg.fab = s.fab := rfl
@[simp] theorem takeRollCfg_col : s.takeRollCfg.col = s.col := rfl
@[simp] theorem takeRollCfg_pho : s.takeRollCfg.pho = s.pho := rfl
@[simp] theorem takeRollCfg_dies : s.takeRollCfg.dies = s.dies := rfl
@[simp] theorem takeRollCfg_pwr : s.takeRollCfg.pwr = s.pwr := rfl
@[simp] theorem takeRollCfg_wnw : s.takeRollCfg.wnw = s.wnw := rfl
@[simp] theorem takeRollCfg_steps : s.takeRollCfg.steps = s.steps := rfl
@[simp] theorem takeRollCfg_jobNs : s.takeRollCfg.jobNs = s.jobNs := rfl
@[simp] theorem takeRollCfg_trace : s.takeRollCfg.trace = s.trace := rfl
@[simp] theorem takeRollCfg_boot : s.takeRollCfg.boot = s.boot := rfl
@[simp] theorem takeRollCfg_flt : s.takeRollCfg.flt = s.flt := rfl
@[simp] theorem takeRollCfg_stby : s.takeRollCfg.stby = s.stby := rfl
@[simp] theorem takeRollCfg_halter : s.takeRollCfg.halter = s.halter := rfl

/-! ### nextStage -/

@[simp] theorem nextStage_variant : s.nextStage.variant = s.variant := rfl
@[simp] theorem nextStage_now : s.nextStage.now = s.now := rfl
@[simp] theorem nextStage_skew : s.nextStage.skew = s.skew := rfl
@[simp] theorem nextStage_free : s.nextStage.free = s.free := rfl
@[simp] theorem nextStage_pending : s.nextStage.pending = s.pending := rfl
@[simp] theorem nextStage_csr : s.nextStage.csr = s.csr := rfl
@[simp] theorem nextStage_cores : s.nextStage.cores = s.cores := rfl
@[simp] theorem nextStage_mem : s.nextStage.mem = s.mem := rfl
@[simp] theorem nextStage_que : s.nextStage.que = s.que := rfl
@[simp] theorem nextStage_win : s.nextStage.win = s.win := rfl
@[simp] theorem nextStage_fab : s.nextStage.fab = s.fab := rfl
@[simp] theorem nextStage_col : s.nextStage.col = s.col := rfl
@[simp] theorem nextStage_pho : s.nextStage.pho = s.pho := rfl
@[simp] theorem nextStage_dies : s.nextStage.dies = s.dies := rfl
@[simp] theorem nextStage_pwr : s.nextStage.pwr = s.pwr := rfl
@[simp] theorem nextStage_roll : s.nextStage.roll = s.roll := rfl
@[simp] theorem nextStage_wnw : s.nextStage.wnw = s.wnw := rfl
@[simp] theorem nextStage_steps : s.nextStage.steps = s.steps := rfl
@[simp] theorem nextStage_jobNs : s.nextStage.jobNs = s.jobNs := rfl
@[simp] theorem nextStage_trace : s.nextStage.trace = s.trace := rfl
@[simp] theorem nextStage_flt : s.nextStage.flt = s.flt := rfl
@[simp] theorem nextStage_stby : s.nextStage.stby = s.stby := rfl
@[simp] theorem nextStage_halter : s.nextStage.halter = s.halter := rfl

/-! ### extend -/

@[simp] theorem extend_variant (x : List Byte) : (s.extend x).variant = s.variant := rfl
@[simp] theorem extend_now (x : List Byte) : (s.extend x).now = s.now := rfl
@[simp] theorem extend_skew (x : List Byte) : (s.extend x).skew = s.skew := rfl
@[simp] theorem extend_free (x : List Byte) : (s.extend x).free = s.free := rfl
@[simp] theorem extend_pending (x : List Byte) : (s.extend x).pending = s.pending := rfl
@[simp] theorem extend_csr (x : List Byte) : (s.extend x).csr = s.csr := rfl
@[simp] theorem extend_cores (x : List Byte) : (s.extend x).cores = s.cores := rfl
@[simp] theorem extend_mem (x : List Byte) : (s.extend x).mem = s.mem := rfl
@[simp] theorem extend_que (x : List Byte) : (s.extend x).que = s.que := rfl
@[simp] theorem extend_win (x : List Byte) : (s.extend x).win = s.win := rfl
@[simp] theorem extend_fab (x : List Byte) : (s.extend x).fab = s.fab := rfl
@[simp] theorem extend_col (x : List Byte) : (s.extend x).col = s.col := rfl
@[simp] theorem extend_pho (x : List Byte) : (s.extend x).pho = s.pho := rfl
@[simp] theorem extend_dies (x : List Byte) : (s.extend x).dies = s.dies := rfl
@[simp] theorem extend_pwr (x : List Byte) : (s.extend x).pwr = s.pwr := rfl
@[simp] theorem extend_roll (x : List Byte) : (s.extend x).roll = s.roll := rfl
@[simp] theorem extend_wnw (x : List Byte) : (s.extend x).wnw = s.wnw := rfl
@[simp] theorem extend_steps (x : List Byte) : (s.extend x).steps = s.steps := rfl
@[simp] theorem extend_jobNs (x : List Byte) : (s.extend x).jobNs = s.jobNs := rfl
@[simp] theorem extend_trace (x : List Byte) : (s.extend x).trace = s.trace := rfl
@[simp] theorem extend_flt (x : List Byte) : (s.extend x).flt = s.flt := rfl
@[simp] theorem extend_stby (x : List Byte) : (s.extend x).stby = s.stby := rfl
@[simp] theorem extend_halter (x : List Byte) : (s.extend x).halter = s.halter := rfl

end Sys2Proof.Laws
end

