-- ==== Sys2Proof/Laws/Units.lean ====
section
/-! SUPPORT. Reading a unit or a register after it was written: it holds what was written, and every other one what it held. -/

namespace Sys2Proof.Laws

open Sys2Proof.Machine

variable (s : State)

/-! ### Cores and their parts -/

@[simp] theorem core_setCore_self (c : Nat) (k : Core) : (s.setCore c k).core c = k := smap_get_set_self _ _ _ _

theorem core_setCore_ne {c d : Nat} (h : d ≠ c) (k : Core) : (s.setCore c k).core d = s.core d := smap_get_set_ne _ _ _ h

@[simp] theorem core_modCore_self (c : Nat) (f : Core → Core) : (s.modCore c f).core c = f (s.core c) :=
  core_setCore_self s c _

theorem core_modCore_ne {c d : Nat} (h : d ≠ c) (f : Core → Core) : (s.modCore c f).core d = s.core d :=
  core_setCore_ne s h _

/-- Scalar processors 0 and 1 are apart; every other number names processor 1. -/
theorem sp_setSp_self (k : Core) (p : Nat) (u : Sp) : (k.setSp p u).sp p = u := by
  unfold Core.setSp Core.sp; split <;> rfl

theorem sp_setSp_ne (k : Core) {p q : Nat} (h : (p = 0) ≠ (q = 0)) (u : Sp) : (k.setSp p u).sp q = k.sp q := by
  unfold Core.setSp Core.sp
  by_cases hp : p = 0 <;> by_cases hq : q = 0 <;> simp_all

@[simp] theorem sp_modSp_self (c p : Nat) (f : Sp → Sp) : (s.modSp c p f).sp c p = f (s.sp c p) := by
  unfold State.sp State.modSp; rw [core_modCore_self, sp_setSp_self]

theorem sp_modSp_other {c p d q : Nat} (h : d ≠ c ∨ (p = 0) ≠ (q = 0)) (f : Sp → Sp) : (s.modSp c p f).sp d q = s.sp d q := by
  unfold State.sp State.modSp
  by_cases hd : d = c
  · subst hd
    rw [core_modCore_self, sp_setSp_ne _ (h.resolve_left (fun h => h rfl))]
  · rw [core_modCore_ne s hd]

theorem arr_setArr_self (k : Core) (a : Nat) (x : Arr) : (k.setArr a x).arr a = x := by
  match a with
  | 0 => rfl
  | 1 => rfl
  | 2 => rfl
  | _ + 3 => rfl

@[simp] theorem arr_modArr_self (c a : Nat) (f : Arr → Arr) : (s.modArr c a f).arr c a = f (s.arr c a) := by
  unfold State.arr State.modArr; rw [core_modCore_self, arr_setArr_self]

@[simp] theorem gln_modGln_self (c : Nat) (f : Gln → Gln) : ((s.modGln c f).core c).gln = f (s.core c).gln := by
  unfold State.modGln; rw [core_modCore_self]

@[simp] theorem stook_modStook_self (c : Nat) (f : Stook → Stook) : ((s.modStook c f).core c).stook = f (s.core c).stook := by
  unfold State.modStook; rw [core_modCore_self]

@[simp] theorem queue_modQueue_self (q : Nat) (f : Queue → Queue) : (s.modQueue q f).queue q = f (s.queue q) :=
  smap_get_upd_self _ _ _ _

theorem queue_modQueue_ne {q r : Nat} (h : r ≠ q) (f : Queue → Queue) : (s.modQueue q f).queue r = s.queue r :=
  smap_get_upd_ne _ _ _ h

@[simp] theorem stack_modStack_self (t : Nat) (f : Stack → Stack) : (s.modStack t f).stack t = f (s.stack t) :=
  smap_get_upd_self _ _ _ _

@[simp] theorem die_modDie_self (d : Nat) (f : DiePort → DiePort) : (s.modDie d f).die d = f (s.die d) := smap_get_upd_self _ _ _ _

theorem die_modDie_ne {d e : Nat} (h : e ≠ d) (f : DiePort → DiePort) : (s.modDie d f).die e = s.die e := smap_get_upd_ne _ _ _ h

@[simp] theorem dom_modDom_self (i : Nat) (f : Dom → Dom) : (s.modDom i f).dom i = f (s.dom i) := smap_get_upd_self _ _ _ _

@[simp] theorem fibre_modFibre_self (f : Nat) (g : Fibre → Fibre) : (s.modFibre f g).fibre f = g (s.fibre f) :=
  smap_get_upd_self _ _ _ _

theorem fibre_modFibre_ne {f h : Nat} (e : h ≠ f) (g : Fibre → Fibre) : (s.modFibre f g).fibre h = s.fibre h :=
  smap_get_upd_ne _ _ _ e

@[simp] theorem link_modLink_self (l : Nat) (f : Link → Link) : (s.modLink l f).link l = f (s.link l) := smap_get_upd_self _ _ _ _

@[simp] theorem rnode_modRnode_self (n : Nat) (f : RNode → RNode) : (s.modRnode n f).rnode n = f (s.rnode n) :=
  smap_get_upd_self _ _ _ _

/-! ### Control registers -/

@[simp] theorem reg_setReg_self (g : Reg) (n i j : Nat) (w : W64) : (s.setReg g n i j w).reg g n i j = w :=
  smap_get_set_self _ _ _ _

/-- A register at another address keeps its word. -/
theorem reg_setReg_ne {g g' : Reg} {n i j n' i' j' : Nat} (h : g'.addr n' i' j' ≠ g.addr n i j) (w : W64) :
    (s.setReg g n i j w).reg g' n' i' j' = s.reg g' n' i' j' := by
  unfold State.setReg State.reg SMap.set
  dsimp only
  split
  · exact smap_get_erase_ne _ _ h
  · exact smap_get_ins_ne _ _ _ h

theorem reg_wr_ne {f : Fld} {g' : Reg} {n i j n' i' j' : Nat} (h : g'.addr n' i' j' ≠ f.reg.addr n i j) (v : Nat) :
    (s.wr f v n i j).reg g' n' i' j' = s.reg g' n' i' j' := reg_setReg_ne s h _

theorem reg_wrs_ne {g g' : Reg} {n i j n' i' j' : Nat} (h : g'.addr n' i' j' ≠ g.addr n i j) (l : List (Fld × Nat)) :
    (s.wrs g n i j l).reg g' n' i' j' = s.reg g' n' i' j' := reg_setReg_ne s h _

theorem reg_wrs_self (g : Reg) (n i j : Nat) (l : List (Fld × Nat)) :
    (s.wrs g n i j l).reg g n i j = l.foldl (fun w e => e.1.put w e.2) (s.reg g n i j) := reg_setReg_self s _ _ _ _ _

/-- Changing cores, queues or memory leaves every register. -/
@[simp] theorem reg_modCore (c : Nat) (f : Core → Core) (g : Reg) (n i j : Nat) : (s.modCore c f).reg g n i j = s.reg g n i j := rfl

@[simp] theorem reg_modSp (c p : Nat) (f : Sp → Sp) (g : Reg) (n i j : Nat) : (s.modSp c p f).reg g n i j = s.reg g n i j := rfl

@[simp] theorem reg_modArr (c a : Nat) (f : Arr → Arr) (g : Reg) (n i j : Nat) : (s.modArr c a f).reg g n i j = s.reg g n i j := rfl

@[simp] theorem reg_modGln (c : Nat) (f : Gln → Gln) (g : Reg) (n i j : Nat) : (s.modGln c f).reg g n i j = s.reg g n i j := rfl

@[simp] theorem reg_modStook (c : Nat) (f : Stook → Stook) (g : Reg) (n i j : Nat) :
    (s.modStook c f).reg g n i j = s.reg g n i j := rfl

@[simp] theorem reg_modQueue (q : Nat) (f : Queue → Queue) (g : Reg) (n i j : Nat) :
    (s.modQueue q f).reg g n i j = s.reg g n i j := rfl

/-- A field narrowed to its width is what a write of it leaves in the word. -/
theorem bits_setBits (x hi lo v : Nat) (h : lo ≤ hi) (h64 : hi < 64) :
    bits (setBits x hi lo v % 2 ^ 64) hi lo = v % 2 ^ (hi + 1 - lo) := by
  unfold bits setBits
  simp only [Nat.shiftRight_eq_div_pow, Nat.shiftLeft_eq]
  have e64 : (2 : Nat) ^ 64 = 2 ^ lo * 2 ^ (64 - lo) := by rw [← Nat.pow_add]; congr 1; omega
  have eh : (2 : Nat) ^ (hi + 1) = 2 ^ lo * 2 ^ (hi + 1 - lo) := by rw [← Nat.pow_add]; congr 1; omega
  generalize x / 2 ^ (hi + 1) = q
  rw [e64, Nat.mod_mul_right_div_self]
  have hd : (2 : Nat) ^ (hi + 1 - lo) ∣ 2 ^ (64 - lo) := Nat.pow_dvd_pow 2 (by omega)
  rw [Nat.mod_mod_of_dvd _ hd]
  have hlo : x % 2 ^ lo < 2 ^ lo := Nat.mod_lt _ (by positivity)
  have : q * 2 ^ (hi + 1) + v % 2 ^ (hi + 1 - lo) * 2 ^ lo + x % 2 ^ lo
      = x % 2 ^ lo + 2 ^ lo * (q * 2 ^ (hi + 1 - lo) + v % 2 ^ (hi + 1 - lo)) := by rw [eh]; ring
  rw [this, Nat.add_mul_div_left _ _ (by positivity), Nat.div_eq_of_lt hlo, Nat.zero_add, Nat.mul_add_mod_self_right,
    Nat.mod_mod]

theorem get_put (f : Fld) (w : W64) (v : Nat) (h : f.lo ≤ f.hi) (h64 : f.hi < 64) :
    f.get (f.put w v) = v % 2 ^ (f.hi + 1 - f.lo) := by
  unfold Fld.get Fld.put
  rw [BitVec.toNat_ofNat]
  exact bits_setBits _ _ _ _ h h64

/-- A field reads as what was written to it, narrowed to its width. -/
theorem rd_wr_self (f : Fld) (v n i j : Nat) (h : f.lo ≤ f.hi) (h64 : f.hi < 64) :
    (s.wr f v n i j).rd f n i j = v % 2 ^ (f.hi + 1 - f.lo) := by
  unfold State.rd State.wr
  rw [reg_setReg_self, get_put f _ _ h h64]

theorem rd_of_reg {s t : State} {f : Fld} {n i j : Nat} (h : s.reg f.reg n i j = t.reg f.reg n i j) : s.rd f n i j = t.rd f n i j := by
  unfold State.rd; rw [h]

/-! ### Regions that flash holds twice (R585) -/

/-- A region reads as what was last written to it. -/
@[simp] theorem copies_read_write {α : Type} (x : Copies α) (v : α) : (x.write v).read = some v := by
  obtain ⟨⟨m, u⟩, n, w⟩ := x
  cases u with
  | none => cases w with
    | none => rfl
    | some w => exact congrArg some (if_pos (Nat.le_succ n))
  | some u => cases w with
    | none => exact congrArg some (if_neg (Nat.not_le_of_gt (Nat.lt_succ_self m)))
    | some w =>
      by_cases h : n ≤ m
      · simp [Copies.write, Copies.read, h]
      · simp [Copies.write, Copies.read, h]

end Sys2Proof.Laws
end

