-- ==== Sys2Proof/Laws/Frames.lean ====
section
/-! SUPPORT. What the operations shared by the instruction rows change, and that they change nothing else. -/

namespace Sys2Proof.Machine

open Sys2Proof.Laws

theorem RegsBut.refl (s : State) (l : List Nat) : RegsBut s s l := fun _ _ _ _ _ => rfl

theorem RegsBut.trans {s t u : State} {l : List Nat} (h : RegsBut s t l) (g : RegsBut t u l) : RegsBut s u l :=
  fun r n i j hr => (g r n i j hr).trans (h r n i j hr)

theorem RegsBut.mono {s t : State} {l m : List Nat} (h : RegsBut s t l) (hl : ∀ a ∈ l, a ∈ m) : RegsBut s t m :=
  fun r n i j hr => h r n i j (fun ha => hr (hl _ ha))

theorem OnlyRegs.refl (s : State) (l : List Nat) : OnlyRegs s s l := ⟨rfl, RegsBut.refl s l⟩

theorem OnlyRegs.trans {s t u : State} {l : List Nat} (h : OnlyRegs s t l) (g : OnlyRegs t u l) : OnlyRegs s u l :=
  ⟨by rw [g.rest, h.rest], h.regs.trans g.regs⟩

theorem OnlyRegs.mono {s t : State} {l m : List Nat} (h : OnlyRegs s t l) (hl : ∀ a ∈ l, a ∈ m) : OnlyRegs s t m :=
  ⟨h.rest, h.regs.mono hl⟩

theorem OnlyRegs.core {s t : State} {l : List Nat} (h : OnlyRegs s t l) (c : Nat) : t.core c = s.core c := by
  rw [h.rest]; rfl

theorem OnlyRegs.sp {s t : State} {l : List Nat} (h : OnlyRegs s t l) (c p : Nat) : t.sp c p = s.sp c p := by
  rw [h.rest]; rfl

theorem onlyRegs_setReg (s : State) (g : Reg) (n i j : Nat) (w : W64) : OnlyRegs s (s.setReg g n i j w) [g.addr n i j] :=
  ⟨rfl, fun r m k l h => reg_setReg_ne s (by simpa using h) w⟩

theorem onlyRegs_wr (s : State) (f : Fld) (v n i j : Nat) : OnlyRegs s (s.wr f v n i j) [f.reg.addr n i j] :=
  onlyRegs_setReg s _ _ _ _ _

theorem onlyRegs_wrs (s : State) (g : Reg) (n i j : Nat) (fs : List (Fld × Nat)) :
    OnlyRegs s (s.wrs g n i j fs) [g.addr n i j] := onlyRegs_setReg s _ _ _ _ _

/-! ### Performance counters -/

theorem mem_cntRegs_val {c m : Nat} (h : m < 64) : Reg.addr .CNT_VAL c m 0 ∈ cntRegs c :=
  List.mem_flatMap.2 ⟨m, List.mem_range.2 h, by simp⟩

theorem mem_cntRegs_sel {c m : Nat} (h : m < 64) : Reg.addr .CNT_SEL c m 0 ∈ cntRegs c :=
  List.mem_flatMap.2 ⟨m, List.mem_range.2 h, by simp⟩

theorem onlyRegs_cntAdd (s : State) (c k : Nat) {m : Nat} (h : m < 64) : OnlyRegs s (s.cntAdd c k m) (cntRegs c) := by
  have h1 := (onlyRegs_wr s CNT_VAL.VALUE (s.rd CNT_VAL.VALUE c m + k) c m 0).mono (m := cntRegs c)
    (by intro a ha; rw [List.mem_singleton.1 ha]; exact mem_cntRegs_val h)
  unfold State.cntAdd
  dsimp only
  split
  · exact h1
  · exact h1.trans ((onlyRegs_wr _ CNT_SEL.OVF 1 c m 0).mono
      (by intro a ha; rw [List.mem_singleton.1 ha]; exact mem_cntRegs_sel h))

/-- Counting an event changes nothing but the core's performance counters. -/
theorem onlyRegs_count (s : State) (c ev : Nat) (p : Option Nat) (k : Nat) : OnlyRegs s (s.count c ev p k) (cntRegs c) := by
  unfold State.count
  split
  · have : ∀ (l : List Nat) (t : State), (∀ m ∈ l, m < 64) →
        OnlyRegs t (l.foldl (fun s n => if s.counts c ev p n then s.cntAdd c k n else s) t) (cntRegs c) := by
      intro l
      induction l with
      | nil => intro t _; exact OnlyRegs.refl t _
      | cons m l ih =>
        intro t hl
        rw [List.foldl_cons]
        refine OnlyRegs.trans ?_ (ih _ (fun x hx => hl x (List.mem_cons_of_mem _ hx)))
        split
        · exact onlyRegs_cntAdd t c k (hl m List.mem_cons_self)
        · exact OnlyRegs.refl t _
    exact this _ s (fun m hm => List.mem_range.1 hm)
  · exact OnlyRegs.refl s _

/-! ### Changes of one core -/

theorem OnlyCore.refl (s : State) (c : Nat) (l : List Nat) : OnlyCore s s c l := ⟨rfl, fun _ _ => rfl, RegsBut.refl s l⟩

theorem OnlyCore.trans {s t u : State} {c : Nat} {l : List Nat} (h : OnlyCore s t c l) (g : OnlyCore t u c l) : OnlyCore s u c l :=
  ⟨by rw [g.rest, h.rest], fun d hd => (g.cores d hd).trans (h.cores d hd), h.regs.trans g.regs⟩

theorem OnlyCore.mono {s t : State} {c : Nat} {l m : List Nat} (h : OnlyCore s t c l) (hl : ∀ a ∈ l, a ∈ m) : OnlyCore s t c m :=
  ⟨h.rest, h.cores, h.regs.mono hl⟩

theorem OnlyRegs.onlyCore {s t : State} {l : List Nat} (h : OnlyRegs s t l) (c : Nat) : OnlyCore s t c l :=
  ⟨by rw [h.rest], fun d _ => h.core d, h.regs⟩

theorem onlyCore_modCore (s : State) (c : Nat) (f : Core → Core) (l : List Nat) : OnlyCore s (s.modCore c f) c l :=
  ⟨rfl, fun _ hd => core_modCore_ne s hd f, fun _ _ _ _ _ => rfl⟩

theorem setSp_setSp (k : Core) (p : Nat) (u v : Sp) : (k.setSp p u).setSp p v = k.setSp p v := by
  unfold Core.setSp; split <;> rfl

theorem setSp_sp (k : Core) (p : Nat) : k.setSp p (k.sp p) = k := by
  unfold Core.setSp Core.sp; split <;> rfl

theorem OnlySp.refl (s : State) (c p : Nat) (l : List Nat) : OnlySp s s c p l :=
  ⟨OnlyCore.refl s c l, (setSp_sp _ _).symm⟩

theorem OnlySp.trans {s t u : State} {c p : Nat} {l : List Nat} (h : OnlySp s t c p l) (g : OnlySp t u c p l) : OnlySp s u c p l :=
  ⟨h.toOnlyCore.trans g.toOnlyCore, by rw [g.core, h.core, setSp_setSp]⟩

theorem OnlySp.mono {s t : State} {c p : Nat} {l m : List Nat} (h : OnlySp s t c p l) (hl : ∀ a ∈ l, a ∈ m) : OnlySp s t c p m :=
  ⟨h.toOnlyCore.mono hl, h.core⟩

theorem OnlyRegs.onlySp {s t : State} {l : List Nat} (h : OnlyRegs s t l) (c p : Nat) : OnlySp s t c p l :=
  ⟨h.onlyCore c, by rw [h.core, h.sp]; exact (setSp_sp _ _).symm⟩

theorem onlySp_modSp (s : State) (c p : Nat) (f : Sp → Sp) (l : List Nat) : OnlySp s (s.modSp c p f) c p l :=
  ⟨onlyCore_modCore s c _ l, by rw [sp_modSp_self]; exact core_modCore_self s c _⟩

/-! ### Retirement -/

/-- Retiring an instruction of `n` bytes moves the pc on and counts it, and that is all. -/
theorem onlySp_retire (s : State) (c p n : Nat) : OnlySp s (s.retire c p n) c p (cntRegs c) :=
  (onlySp_modSp s c p _ _).trans ((onlyRegs_count _ c 3 (some p) 1).onlySp c p)

theorem sp_retire (s : State) (c p n : Nat) : (s.retire c p n).sp c p = (s.sp c p).past n := by
  unfold State.retire
  rw [(onlyRegs_count _ c 3 (some p) 1).sp, sp_modSp_self]; rfl

theorem onlySp_retireTo (s : State) (c p : Nat) (a : W64) : OnlySp s (s.retireTo c p a) c p (cntRegs c) :=
  (onlySp_modSp s c p _ _).trans ((onlyRegs_count _ c 3 (some p) 1).onlySp c p)

theorem sp_retireTo (s : State) (c p : Nat) (a : W64) : (s.retireTo c p a).sp c p = { s.sp c p with pc := a } := by
  unfold State.retireTo
  rw [(onlyRegs_count _ c 3 (some p) 1).sp, sp_modSp_self]

theorem onlySp_retireX (s : State) (c p rd : Nat) (v : W64) : OnlySp s (s.retireX c p rd v) c p (cntRegs c) :=
  (onlySp_modSp s c p _ _).trans (onlySp_retire _ c p 4)

theorem sp_retireX (s : State) (c p rd : Nat) (v : W64) : (s.retireX c p rd v).sp c p = ((s.sp c p).setX rd v).past 4 := by
  unfold State.retireX
  rw [sp_retire, sp_modSp_self]

/-! ### Issue -/

/-- An instruction that goes ahead with legal fields has its effect. -/
theorem issue_eff {s : State} {c p w : Nat} {row legal : Bool} {xs vs : List Nat} (h : Issues s c p xs vs) (hr : row = true)
    (hl : legal = true) (eff : State → State) : s.issue c p w row legal xs vs eff = eff s := by
  have hx : xs.any (s.locked c p false) = false := by
    rw [List.any_eq_false]; intro r hr; rw [h.xfree r hr]; exact Bool.false_ne_true
  have hv : vs.any (s.locked c p true) = false := by
    rw [List.any_eq_false]; intro r hr; rw [h.vfree r hr]; exact Bool.false_ne_true
  unfold State.issue
  simp [hr, hl, h.can, hx, hv]

/-- A word of another row, or a processor that may not issue, changes nothing. -/
theorem issue_idle {s : State} {c p w : Nat} {row legal : Bool} {xs vs : List Nat} (h : row = false ∨ s.canIssue c p = false)
    (eff : State → State) : s.issue c p w row legal xs vs eff = s := by
  unfold State.issue
  rcases h with h | h <;> simp [h]

/-- A field that is not legal raises ILLEGAL, with the word recorded (R148, R172). -/
theorem issue_illegal {s : State} {c p w : Nat} {row legal : Bool} {xs vs : List Nat} (hc : s.canIssue c p = true)
    (hr : row = true) (hl : legal = false) (eff : State → State) :
    s.issue c p w row legal xs vs eff = s.precise c p 1 (w % 2 ^ 32) := by
  unfold State.issue
  simp [hc, hr, hl]

/-- While a register that it names is locked an instruction waits (R161). -/
theorem issue_wait {s : State} {c p w : Nat} {row legal : Bool} {xs vs : List Nat} (hc : s.canIssue c p = true)
    (hl : legal = true) (hx : xs.any (s.locked c p false) = true ∨ vs.any (s.locked c p true) = true) (eff : State → State) :
    s.issue c p w row legal xs vs eff = s := by
  unfold State.issue
  rcases hx with h | h <;> simp [hc, hl, h]

end Sys2Proof.Machine
end

