-- ==== Sys2Proof/Laws/Kept.lean ====
section
/-! SUPPORT. What every shared operation keeps: the variant, the queue of waiting commands, OTP storage, and the canonical
form of the memories. The files KeptShared, KeptCores, KeptQueues and KeptModule say it of every operation on a state, one lemma each. -/

namespace Sys2Proof.Laws

open Sys2Proof.Machine

/-- `t` is of the variant of `s`, the same commands wait in it, its OTP storage is the same, and its memories are canonical where those of `s` are. -/
structure Kept (s t : State) : Prop where
  variant : t.variant = s.variant
  pending : t.pending = s.pending
  otp : t.boot.otp = s.boot.otp
  mem : s.memOk = true → t.memOk = true

theorem Kept.refl (s : State) : Kept s s := ⟨rfl, rfl, rfl, id⟩

theorem Kept.trans {s t u : State} (h : Kept s t) (g : Kept t u) : Kept s u :=
  ⟨g.variant.trans h.variant, g.pending.trans h.pending, g.otp.trans h.otp, fun x => g.mem (h.mem x)⟩

theorem memOk_iff (s : State) :
    s.memOk = true ↔ Memory.wf s.variant s.mem = true ∧ ∀ e ∈ s.cores, e.2.wf = true := by
  simp [State.memOk]

/-- A state that differs only in other parts is kept too. -/
theorem Kept.same {r s t : State} (h : Kept r s) (hv : t.variant = s.variant) (hp : t.pending = s.pending)
    (ho : t.boot.otp = s.boot.otp) (hc : t.cores = s.cores) (hl : t.mem.loft = s.mem.loft) (hb : t.mem.hbm = s.mem.hbm) : Kept r t := by
  refine ⟨hv.trans h.variant, hp.trans h.pending, ho.trans h.otp, fun x => ?_⟩
  have := h.mem x
  rw [memOk_iff, Memory.wf] at this ⊢
  rw [hv, hc, hl, hb]
  exact this

/-- A record update of the other fields keeps everything. -/
theorem kept_mk {r s : State} (h : Kept r s) {m : Mem} {b : Boot} (hl : m.loft = s.mem.loft) (hb : m.hbm = s.mem.hbm)
    (ho : b.otp = s.boot.otp)
    x1 x2 x3 x4 x5 x6 x7 x8 x9 y1 y2 y3 y4 y5 y6 y7 y9 z1 z2 :
    Kept r (State.mk s.variant x1 x2 x3 s.pending x4 s.cores m x5 x6 x7 x8 x9 y1 y2 y3 y4 y5 y6 y7
      b y9 z1 z2) :=
  h.same rfl rfl ho rfl hl hb

theorem kept_ite {r a b : State} {c : Prop} [Decidable c] (ha : Kept r a) (hb : Kept r b) :
    Kept r (if c then a else b) := by split <;> assumption

/-- The second part of a pair is kept. -/
def Kept2 {α : Type} (r : State) (p : α × State) : Prop := Kept r p.2

/-- The first part of a pair is kept. -/
def Kept1 {α : Type} (r : State) (p : State × α) : Prop := Kept r p.1

theorem Kept2.kept {α : Type} {r : State} {p : α × State} (h : Kept2 r p) : Kept r p.2 := h

theorem Kept1.kept {α : Type} {r : State} {p : State × α} (h : Kept1 r p) : Kept r p.1 := h

theorem kept2_mk {α : Type} {r s : State} (h : Kept r s) (x : α) : Kept2 r (x, s) := h

theorem kept1_mk {α : Type} {r s : State} (h : Kept r s) (x : α) : Kept1 r (s, x) := h

theorem kept2_ite {α : Type} {r : State} {a b : α × State} {c : Prop} [Decidable c] (ha : Kept2 r a) (hb : Kept2 r b) :
    Kept2 r (if c then a else b) := by split <;> assumption

theorem kept1_ite {α : Type} {r : State} {a b : State × α} {c : Prop} [Decidable c] (ha : Kept1 r a) (hb : Kept1 r b) :
    Kept1 r (if c then a else b) := by split <;> assumption

theorem kept_snd {α : Type} {r t : State} {x : α} {p : α × State} (e : p = (x, t)) (h : Kept2 r p) : Kept r t := by
  rw [e] at h; exact h

theorem kept_fst {α : Type} {r t : State} {x : α} {p : State × α} (e : p = (t, x)) (h : Kept1 r p) : Kept r t := by
  rw [e] at h; exact h

theorem kept_foldl {α : Type} {r s : State} {g : State → α → State} {l : List α}
    (hg : ∀ t x, Kept r t → Kept r (g t x)) (h : Kept r s) : Kept r (l.foldl g s) :=
  List.foldlRecOn l g h (fun t ht x _ => hg t x ht)

theorem kept2_foldl {α β : Type} {r : State} {g : β × State → α → β × State} {l : List α} {d : β × State}
    (hg : ∀ x a, Kept2 r x → Kept2 r (g x a)) (h : Kept2 r d) : Kept2 r (l.foldl g d) :=
  List.foldlRecOn l _ h (fun x hx a _ => hg x a hx)

theorem kept1_foldl {α β : Type} {r : State} {g : State × β → α → State × β} {l : List α} {d : State × β}
    (hg : ∀ x a, Kept1 r x → Kept1 r (g x a)) (h : Kept1 r d) : Kept1 r (l.foldl g d) :=
  List.foldlRecOn l _ h (fun x hx a _ => hg x a hx)

/-! ### Cores -/

theorem core_wf_of_memOk {s : State} (h : s.memOk = true) (c : Nat) : (s.core c).wf = true := by
  have hc := ((memOk_iff s).1 h).2
  unfold State.core
  revert hc
  generalize s.cores = l
  intro hc
  induction l with
  | nil => rfl
  | cons e l ih =>
    obtain ⟨k, v⟩ := e
    rw [smap_get_cons]
    split
    · exact hc (k, v) (by simp)
    · exact ih (fun e he => hc e (by simp [he]))

theorem all_erase {α : Type} {f : Nat × α → Prop} {m : SMap α} (h : ∀ e ∈ m, f e) (k : Nat) :
    ∀ e ∈ SMap.erase m k, f e := by
  induction m with
  | nil => exact h
  | cons x l ih =>
    obtain ⟨j, w⟩ := x
    simp only [SMap.erase]
    split
    · exact ih (fun e he => h e (by simp [he]))
    · intro e he
      rcases List.mem_cons.1 he with rfl | he
      · exact h _ (by simp)
      · exact ih (fun e he => h e (by simp [he])) e he

theorem all_ins {α : Type} {f : Nat × α → Prop} {m : SMap α} (h : ∀ e ∈ m, f e) (k : Nat) (v : α) (hv : f (k, v)) :
    ∀ e ∈ SMap.ins m k v, f e := by
  induction m with
  | nil => simpa [SMap.ins] using hv
  | cons x l ih =>
    obtain ⟨j, w⟩ := x
    simp only [SMap.ins]
    split
    · intro e he
      rcases List.mem_cons.1 he with rfl | he
      · exact hv
      · exact h e he
    · split
      · intro e he
        rcases List.mem_cons.1 he with rfl | he
        · exact hv
        · exact h e (by simp [he])
      · intro e he
        rcases List.mem_cons.1 he with rfl | he
        · exact h _ (by simp)
        · exact ih (fun e he => h e (by simp [he])) e he

theorem memOk_setCore {s : State} (h : s.memOk = true) (c : Nat) {k : Core} (hk : k.wf = true) :
    (s.setCore c k).memOk = true := by
  rw [memOk_iff] at h ⊢
  refine ⟨h.1, ?_⟩
  unfold State.setCore SMap.set
  dsimp only
  split
  · exact all_erase h.2 c
  · exact all_ins (f := fun e => e.2.wf = true) h.2 c k hk

theorem kept_setCore {r s : State} (h : Kept r s) (c : Nat) {k : Core} (hk : k.wf = true) : Kept r (s.setCore c k) :=
  ⟨h.variant, h.pending, h.otp, fun x => memOk_setCore (h.mem x) c hk⟩

theorem kept_modCore {r s : State} (h : Kept r s) (c : Nat) {f : Core → Core} (hf : ∀ k, k.wf = true → (f k).wf = true) :
    Kept r (s.modCore c f) :=
  ⟨h.variant, h.pending, h.otp, fun x => memOk_setCore (h.mem x) c (hf _ (core_wf_of_memOk (h.mem x) c))⟩

@[simp] theorem wf_setSp (k : Core) (p : Nat) (u : Sp) : (k.setSp p u).wf = k.wf := by
  unfold Core.setSp; split <;> rfl

@[simp] theorem wf_setArr (k : Core) (a : Nat) (x : Arr) : (k.setArr a x).wf = k.wf := by
  unfold Core.setArr; split <;> rfl

theorem kept_modSp {r s : State} (h : Kept r s) (c p : Nat) (f : Sp → Sp) : Kept r (s.modSp c p f) :=
  kept_modCore h c (fun k hk => by rw [wf_setSp]; exact hk)

theorem kept_modArr {r s : State} (h : Kept r s) (c a : Nat) (f : Arr → Arr) : Kept r (s.modArr c a f) :=
  kept_modCore h c (fun k hk => by rw [wf_setArr]; exact hk)

theorem kept_modGln {r s : State} (h : Kept r s) (c : Nat) (f : Gln → Gln) : Kept r (s.modGln c f) :=
  kept_modCore h c (fun _ hk => hk)

theorem kept_modStook {r s : State} (h : Kept r s) (c : Nat) (f : Stook → Stook) : Kept r (s.modStook c f) :=
  kept_modCore h c (fun _ hk => hk)

theorem wf_core (k : Core) :
    k.wf = true ↔ SMap.wf k.spad (fun _ => some 0) = true ∧ SMap.wf k.acc (fun _ => some 0) = true := by
  simp [Core.wf]

theorem setSp_spad (k : Core) (p : Nat) (x : Sp) : (k.setSp p x).spad = k.spad := by unfold Core.setSp; split <;> rfl

theorem setSp_acc (k : Core) (p : Nat) (x : Sp) : (k.setSp p x).acc = k.acc := by unfold Core.setSp; split <;> rfl

theorem setArr_spad (k : Core) (a : Nat) (x : Arr) : (k.setArr a x).spad = k.spad := by unfold Core.setArr; split <;> rfl

theorem setArr_acc (k : Core) (a : Nat) (x : Arr) : (k.setArr a x).acc = k.acc := by unfold Core.setArr; split <;> rfl

theorem wf_empty : ({} : Core).wf = true := rfl

theorem wf_of_eq {k j : Core} (hs : j.spad = k.spad) (ha : j.acc = k.acc) (h : k.wf = true) : j.wf = true := by
  rw [wf_core] at h ⊢
  rw [hs, ha]
  exact h

/-! ### Memories -/

theorem kept_setLoft {r s t : State} (h : Kept r s) (hv : t.variant = s.variant) (hp : t.pending = s.pending)
    (ho : t.boot.otp = s.boot.otp) (hc : t.cores = s.cores) (hb : t.mem.hbm = s.mem.hbm) (a : Nat) (d : List Byte)
    (hl : t.mem.loft = SMap.putRange s.mem.loft (fun _ => some 0) a d) : Kept r t := by
  refine ⟨hv.trans h.variant, hp.trans h.pending, ho.trans h.otp, fun x => ?_⟩
  have := h.mem x
  rw [memOk_iff, Memory.wf, Bool.and_eq_true] at this ⊢
  rw [hv, hc, hl, hb]
  exact ⟨⟨smap_wf_putRange this.1.1 a d, this.1.2⟩, this.2⟩

theorem kept_setHbm {r s t : State} (h : Kept r s) (hv : t.variant = s.variant) (hp : t.pending = s.pending)
    (ho : t.boot.otp = s.boot.otp) (hc : t.cores = s.cores) (hl : t.mem.loft = s.mem.loft) (a : Nat) (d : List Byte)
    (hb : t.mem.hbm = SMap.putRange s.mem.hbm (hbmDefault s.variant) a d) : Kept r t := by
  refine ⟨hv.trans h.variant, hp.trans h.pending, ho.trans h.otp, fun x => ?_⟩
  have := h.mem x
  rw [memOk_iff, Memory.wf, Bool.and_eq_true] at this ⊢
  rw [hv, hc, hl, hb]
  exact ⟨⟨this.1.1, smap_wf_putRange this.1.2 a d⟩, this.2⟩

theorem kept_spadWrite {r s : State} (h : Kept r s) (c a : Nat) (d : List Byte) : Kept r (s.spadWrite c a d) :=
  kept_modCore h c (fun k hk => by
    rw [wf_core] at hk ⊢
    exact ⟨smap_wf_putRange hk.1 a d, hk.2⟩)

theorem kept_unmark {r s : State} (h : Kept r s) (pl a n : Nat) : Kept r (s.unmark pl a n) :=
  h.same rfl rfl rfl rfl rfl rfl

theorem kept_lWrite {r s : State} (h : Kept r s) (a : Nat) (d : List Byte) : Kept r (s.lWrite a d) :=
  kept_unmark (s := { s with mem := { s.mem with loft := SMap.putRange s.mem.loft (fun _ => some 0) a d } })
    (kept_setLoft h rfl rfl rfl rfl rfl a d rfl) _ _ _

theorem kept_setReg {r s : State} (h : Kept r s) (g : Reg) (n i j : Nat) (w : W64) : Kept r (s.setReg g n i j w) :=
  h.same rfl rfl rfl rfl rfl rfl

theorem kept_wr {r s : State} (h : Kept r s) (f : Fld) (v n i j : Nat) : Kept r (s.wr f v n i j) :=
  kept_setReg h _ _ _ _ _

theorem kept_incWrap {r s : State} (h : Kept r s) (f : Fld) (k n i j : Nat) : Kept r (s.incWrap f k n i j) :=
  kept_wr h _ _ _ _ _

theorem kept_hbmPut {r s : State} (h : Kept r s) (a : Nat) (d : List Byte) : Kept r (s.hbmPut a d) := by
  have g := kept_incWrap h MEM_WR.BYTES d.length (a / stackSize) 0 0
  unfold State.hbmPut
  generalize s.incWrap MEM_WR.BYTES d.length (a / stackSize) = u at g ⊢
  exact kept_ite h (kept_unmark (s := { u with mem := { u.mem with hbm := SMap.putRange u.mem.hbm (hbmDefault u.variant) a d } })
    (kept_setHbm g rfl rfl rfl rfl rfl a d rfl) _ _ _)

theorem kept_hbmPutUndef {r s : State} (h : Kept r s) (a : Nat) : Kept r (s.hbmPutUndef a) :=
  kept_ite h (kept_unmark (kept_incWrap h MEM_WR.BYTES 8 (a / stackSize) 0 0) _ _ _)

theorem kept_accWrite {r s : State} (h : Kept r s) (c w : Nat) (vs : List W32) (g : Agent) : Kept r (s.accWrite c w vs g) := by
  unfold State.accWrite
  dsimp only
  have : ∀ (new : List W32) (f : SMap Nat → SMap Nat), Kept r (s.modCore c (fun k => { k with
      acc := k.acc.putRange (fun _ => some 0) w new, faults := f k.faults })) := fun new f =>
    kept_modCore h c (fun k hk => by
      rw [wf_core] at hk ⊢
      exact ⟨hk.1, smap_wf_putRange hk.2 w new⟩)
  exact kept_ite (kept_wr (this _ _) _ _ _ _ _) (this _ _)

theorem kept_zeroGroup {r s : State} (h : Kept r s) (c a g : Nat) : Kept r (s.zeroGroup c a g) := by
  unfold State.zeroGroup
  dsimp only
  refine kept_setReg (kept_modCore h c (fun k hk => ?_)) _ _ _ _ _
  rw [wf_core] at hk ⊢
  exact ⟨hk.1, smap_wf_dropRange hk.2 _ _⟩

/-! ### Reads -/

/-- The state that a read leaves is kept. -/
def KeptRd (r : State) (x : Rd) : Prop := Kept r x.st

theorem KeptRd.kept {r : State} {x : Rd} (h : KeptRd r x) : Kept r x.st := h

theorem keptRd_mk {r s : State} (h : Kept r s) (d : List Byte) (x y : Bool) : KeptRd r ⟨d, x, y, s⟩ := h

theorem keptRd_ok {r s : State} (h : Kept r s) (d : List Byte) : KeptRd r (Rd.ok d s) := h

theorem keptRd_ite {r : State} {a b : Rd} {c : Prop} [Decidable c] (ha : KeptRd r a) (hb : KeptRd r b) :
    KeptRd r (if c then a else b) := by split <;> assumption

/-- A joined read keeps what its parts keep. -/
theorem keptRd_foldRd {r : State} {f : State → Nat → Rd} (hf : ∀ t k, Kept r t → KeptRd r (f t k)) (ks : List Nat) {s : State}
    (h : Kept r s) : KeptRd r (foldRd f ks s) := by
  induction ks generalizing s with
  | nil => exact h
  | cons k l ih => exact ih (hf s k h)

theorem keptRd_foldl {α : Type} {r : State} {g : Rd → α → Rd} (hg : ∀ x a, KeptRd r x → KeptRd r (g x a)) {l : List α} {d : Rd}
    (h : KeptRd r d) : KeptRd r (l.foldl g d) :=
  List.foldlRecOn l _ h (fun x hx a _ => hg x a hx)

/-! ### Gleaner evaluations -/

/-- The state of an evaluation is kept. -/
def KeptG (r : State) (g : GRun) : Prop := Kept r g.st

theorem KeptG.kept {r : State} {g : GRun} (h : KeptG r g) : Kept r g.st := h

theorem keptG_mk {r s : State} (h : Kept r s) (f : Option (Nat × Nat × Nat)) (n : List (Nat × Nat)) (m c x u : Bool) :
    KeptG r ⟨s, f, n, m, c, x, u⟩ := h

theorem keptG_ite {r : State} {a b : GRun} {c : Prop} [Decidable c] (ha : KeptG r a) (hb : KeptG r b) :
    KeptG r (if c then a else b) := by split <;> assumption

/-- The evaluation in the second part of a pair is kept. -/
def KeptG2 {α : Type} (r : State) (p : α × GRun) : Prop := KeptG r p.2

theorem KeptG2.kept {α : Type} {r : State} {p : α × GRun} (h : KeptG2 r p) : KeptG r p.2 := h

theorem keptG2_mk {α : Type} {r : State} {g : GRun} (h : KeptG r g) (x : α) : KeptG2 r (x, g) := h

theorem keptG2_ite {α : Type} {r : State} {a b : α × GRun} {c : Prop} [Decidable c] (ha : KeptG2 r a) (hb : KeptG2 r b) :
    KeptG2 r (if c then a else b) := by split <;> assumption

theorem keptG_snd {α : Type} {r : State} {t : GRun} {x : α} {p : α × GRun} (e : p = (x, t)) (h : KeptG2 r p) : KeptG r t := by
  rw [e] at h; exact h

theorem keptG_foldl {α : Type} {r : State} {f : GRun → α → GRun} (hf : ∀ g a, KeptG r g → KeptG r (f g a)) {l : List α} {d : GRun}
    (h : KeptG r d) : KeptG r (l.foldl f d) :=
  List.foldlRecOn l _ h (fun x hx a _ => hf x a hx)

theorem keptG2_foldl {α β : Type} {r : State} {f : β × GRun → α → β × GRun} (hf : ∀ g a, KeptG2 r g → KeptG2 r (f g a))
    {l : List α} {d : β × GRun} (h : KeptG2 r d) : KeptG2 r (l.foldl f d) :=
  List.foldlRecOn l _ h (fun x hx a _ => hf x a hx)

end Sys2Proof.Laws
end

