-- ==== Sys2Proof/Laws/KeptShared.lean ====
section
/-! SUPPORT. What is kept (`Kept`) by the shared operations: registers, memories, events, exceptions: one lemma per operation, `kept_<operation>`. -/

namespace Sys2Proof.Laws

open Sys2Proof.Machine

/-! ### Registers -/

theorem kept_wrs {r s : State} (h : Kept r s) : ∀ a1 a2 a3 a4 a5, Kept r (State.wrs s a1 a2 a3 a4 a5) := by
  intro a1 a2 a3 a4 a5
  unfold State.wrs
  repeat' (first
    | with_reducible assumption
    | with_reducible apply kept_setReg
    )

theorem kept_incSat {r s : State} (h : Kept r s) : ∀ a1 a2 a3 a4 a5, Kept r (State.incSat s a1 a2 a3 a4 a5) := by
  intro a1 a2 a3 a4 a5
  unfold State.incSat
  repeat' (first
    | with_reducible assumption
    | with_reducible apply kept_wr
    )

theorem kept_wrMax {r s : State} (h : Kept r s) : ∀ a1 a2 a3 a4 a5, Kept r (State.wrMax s a1 a2 a3 a4 a5) := by
  intro a1 a2 a3 a4 a5
  unfold State.wrMax
  repeat' (first
    | with_reducible assumption
    | with_reducible apply kept_wr
    )

theorem kept_writeFields {r s : State} (h : Kept r s) : ∀ a1 a2 a3 a4 a5, Kept r (State.writeFields s a1 a2 a3 a4 a5) := by
  intro a1 a2 a3 a4 a5
  unfold State.writeFields
  repeat' (first
    | with_reducible assumption
    | with_reducible apply kept_setReg
    )

theorem kept_resetRegs {r s : State} (h : Kept r s) : ∀ a1 a2, Kept r (State.resetRegs s a1 a2) := by
  intro a1 a2
  unfold State.resetRegs
  repeat' (first
    | with_reducible assumption
    | with_reducible refine kept_ite ?_ ?_
    | intro _
    | dsimp only
    | split
    | fail_if_no_progress (with_reducible refine kept_mk ?_ (by rfl) (by rfl) (by rfl) _ _ _ _ _ _ _ _ _ _ _ _ _ _ _ _ _ _ _)
    )

/-! ### Ops -/

theorem kept_modQueue {r s : State} (h : Kept r s) : ∀ a1 a2, Kept r (State.modQueue s a1 a2) := by
  intro a1 a2
  unfold State.modQueue
  repeat' (first
    | with_reducible assumption
    | intro _
    | dsimp only
    | split
    | fail_if_no_progress (with_reducible refine kept_mk ?_ (by rfl) (by rfl) (by rfl) _ _ _ _ _ _ _ _ _ _ _ _ _ _ _ _ _ _ _)
    )

theorem kept_modStack {r s : State} (h : Kept r s) : ∀ a1 a2, Kept r (State.modStack s a1 a2) := by
  intro a1 a2
  unfold State.modStack
  repeat' (first
    | with_reducible assumption
    | intro _
    | dsimp only
    | split
    | fail_if_no_progress (with_reducible refine kept_mk ?_ (by rfl) (by rfl) (by rfl) _ _ _ _ _ _ _ _ _ _ _ _ _ _ _ _ _ _ _)
    )

theorem kept_modWnw {r s : State} (h : Kept r s) : ∀ a1 a2, Kept r (State.modWnw s a1 a2) := by
  intro a1 a2
  unfold State.modWnw
  repeat' (first
    | with_reducible assumption
    | intro _
    | dsimp only
    | split
    | fail_if_no_progress (with_reducible refine kept_mk ?_ (by rfl) (by rfl) (by rfl) _ _ _ _ _ _ _ _ _ _ _ _ _ _ _ _ _ _ _)
    )

theorem kept_touched {r s : State} (h : Kept r s) : ∀ a1, Kept r (State.touched s a1) := by
  intro a1
  unfold State.touched
  repeat' (first
    | with_reducible assumption
    | with_reducible apply kept_modWnw
    )

theorem kept_wrBit {r s : State} (h : Kept r s) : ∀ a1 a2 a3 a4 a5, Kept r (State.wrBit s a1 a2 a3 a4 a5) := by
  intro a1 a2 a3 a4 a5
  unfold State.wrBit
  repeat' (first
    | with_reducible assumption
    | with_reducible apply kept_wr
    )

theorem kept_onWrite {r s : State} (h : Kept r s) : ∀ a1, (∀ t0, Kept r t0 → Kept r (a1 t0)) → Kept r (State.onWrite s a1) := by
  intro a1 ha1
  unfold State.onWrite
  repeat' (first
    | with_reducible assumption
    | with_reducible refine kept_ite ?_ ?_
    | with_reducible refine ha1 _ ?_
    )

theorem kept_onCoreWrite {r s : State} (h : Kept r s) : ∀ a1 a2, (∀ t0, Kept r t0 → Kept r (a2 t0)) → Kept r (State.onCoreWrite s a1 a2) := by
  intro a1 a2 ha2
  unfold State.onCoreWrite
  repeat' (first
    | with_reducible assumption
    | with_reducible refine kept_ite ?_ ?_
    | with_reducible refine ha2 _ ?_
    )

theorem kept_free64 {r s : State} (h : Kept r s) : Kept2 r (State.free64 s) := by
  unfold State.free64
  repeat' (first
    | with_reducible assumption
    | intro _
    | with_reducible apply Kept2.kept
    | dsimp only
    | split
    | with_reducible refine kept2_mk ?_ _
    | fail_if_no_progress (with_reducible refine kept_mk ?_ (by rfl) (by rfl) (by rfl) _ _ _ _ _ _ _ _ _ _ _ _ _ _ _ _ _ _ _)
    )

theorem kept_freeWords {r s : State} (h : Kept r s) : ∀ a1, Kept2 r (State.freeWords s a1) := by
  intro n
  induction n generalizing s with
  | zero => exact h
  | succ n ih =>
    show Kept r (State.freeWords { s with free := s.free + 1 } n).2
    exact ih (kept_mk h (by rfl) (by rfl) (by rfl) _ _ _ _ _ _ _ _ _ _ _ _ _ _ _ _ _ _ _)

theorem kept_freeBytes {r s : State} (h : Kept r s) : ∀ a1, Kept2 r (State.freeBytes s a1) := by
  intro a1
  unfold State.freeBytes
  repeat' (first
    | with_reducible assumption
    | intro _
    | with_reducible apply Kept2.kept
    | dsimp only
    | split
    | with_reducible refine kept2_mk ?_ _
    | fail_if_no_progress (with_reducible refine kept_mk ?_ (by rfl) (by rfl) (by rfl) _ _ _ _ _ _ _ _ _ _ _ _ _ _ _ _ _ _ _)
    )

theorem kept_freeBit {r s : State} (h : Kept r s) : Kept2 r (State.freeBit s) := by
  unfold State.freeBit
  repeat' (first
    | with_reducible assumption
    | intro _
    | with_reducible apply Kept2.kept
    | dsimp only
    | split
    | with_reducible refine kept2_mk ?_ _
    | fail_if_no_progress (with_reducible refine kept_mk ?_ (by rfl) (by rfl) (by rfl) _ _ _ _ _ _ _ _ _ _ _ _ _ _ _ _ _ _ _)
    )

theorem kept_traceAdd {r s : State} (h : Kept r s) : ∀ a1 a2 a3 a4, Kept r (State.traceAdd s a1 a2 a3 a4) := by
  intro a1 a2 a3 a4
  unfold State.traceAdd
  repeat' (first
    | with_reducible assumption
    | with_reducible refine kept_ite ?_ ?_
    | with_reducible apply kept_incWrap
    | intro _
    | dsimp only
    | split
    | fail_if_no_progress (with_reducible refine kept_mk ?_ (by rfl) (by rfl) (by rfl) _ _ _ _ _ _ _ _ _ _ _ _ _ _ _ _ _ _ _)
    )

theorem kept_showBusy {r s : State} (h : Kept r s) : Kept r (State.showBusy s) := by
  unfold State.showBusy
  repeat' (first
    | with_reducible assumption
    | with_reducible apply kept_wr
    )

theorem kept_ucalEnd {r s : State} (h : Kept r s) : Kept r (State.ucalEnd s) := by
  unfold State.ucalEnd
  repeat' (first
    | with_reducible assumption
    | with_reducible apply kept_showBusy
    | intro _
    | dsimp only
    | split
    | fail_if_no_progress (with_reducible refine kept_mk ?_ (by rfl) (by rfl) (by rfl) _ _ _ _ _ _ _ _ _ _ _ _ _ _ _ _ _ _ _)
    )

theorem kept_putUcal {r s : State} (h : Kept r s) : ∀ a1, Kept r (State.putUcal s a1) := by
  intro a1
  unfold State.putUcal
  repeat' (first
    | with_reducible assumption
    | with_reducible apply kept_free64
    | with_reducible apply kept_showBusy
    | with_reducible apply kept_ucalEnd
    | intro _
    | with_reducible apply Kept2.kept
    | with_reducible refine kept_snd (by assumption) ?_
    | dsimp only
    | split
    | with_reducible refine kept2_mk ?_ _
    | fail_if_no_progress (with_reducible refine kept_mk ?_ (by rfl) (by rfl) (by rfl) _ _ _ _ _ _ _ _ _ _ _ _ _ _ _ _ _ _ _)
    )

theorem kept_updateEnd {r s : State} (h : Kept r s) : Kept r (State.updateEnd s) := by
  unfold State.updateEnd
  repeat' (first
    | with_reducible assumption
    | with_reducible apply kept_wr
    | with_reducible apply kept_showBusy
    | intro _
    | dsimp only
    | split
    | fail_if_no_progress (with_reducible refine kept_mk ?_ (by rfl) (by rfl) (by rfl) _ _ _ _ _ _ _ _ _ _ _ _ _ _ _ _ _ _ _)
    )

theorem kept_updateStart {r s : State} (h : Kept r s) : ∀ a1 a2, Kept r (State.updateStart s a1 a2) := by
  intro a1 a2
  unfold State.updateStart
  repeat' (first
    | with_reducible assumption
    | with_reducible apply kept_wr
    | with_reducible apply kept_free64
    | with_reducible apply kept_showBusy
    | with_reducible apply kept_updateEnd
    | intro _
    | with_reducible apply Kept2.kept
    | with_reducible refine kept_snd (by assumption) ?_
    | dsimp only
    | split
    | with_reducible refine kept2_mk ?_ _
    | fail_if_no_progress (with_reducible refine kept_mk ?_ (by rfl) (by rfl) (by rfl) _ _ _ _ _ _ _ _ _ _ _ _ _ _ _ _ _ _ _)
    )

theorem kept_flashTick {r s : State} (h : Kept r s) : Kept r (State.flashTick s) := by
  unfold State.flashTick
  repeat' (first
    | with_reducible assumption
    | with_reducible refine kept_ite ?_ ?_
    | with_reducible apply kept_ucalEnd
    | with_reducible apply kept_updateEnd
    | intro _
    | dsimp only
    | split
    )

theorem kept_say {r s : State} (h : Kept r s) : ∀ a1, Kept r (State.say s a1) := by
  intro a1
  unfold State.say
  repeat' (first
    | with_reducible assumption
    | with_reducible refine kept_ite ?_ ?_
    | intro _
    | dsimp only
    | split
    | fail_if_no_progress (with_reducible refine kept_mk ?_ (by rfl) (by rfl) (by rfl) _ _ _ _ _ _ _ _ _ _ _ _ _ _ _ _ _ _ _)
    )

theorem kept_noteWith {r s : State} (h : Kept r s) : ∀ a1 a2 a3 a4 a5, Kept r (State.noteWith s a1 a2 a3 a4 a5) := by
  intro a1 a2 a3 a4 a5
  unfold State.noteWith
  repeat' (first
    | with_reducible assumption
    | with_reducible refine kept_ite ?_ ?_
    | with_reducible apply kept_traceAdd
    | with_reducible apply kept_say
    )

theorem kept_faultNote {r s : State} (h : Kept r s) : ∀ a1 a2 a3 a4, Kept r (State.faultNote s a1 a2 a3 a4) := by
  intro a1 a2 a3 a4
  unfold State.faultNote
  repeat' (first
    | with_reducible assumption
    | with_reducible apply kept_noteWith
    )

theorem kept_cntAdd {r s : State} (h : Kept r s) : ∀ a1 a2 a3, Kept r (State.cntAdd s a1 a2 a3) := by
  intro a1 a2 a3
  unfold State.cntAdd
  repeat' (first
    | with_reducible assumption
    | with_reducible refine kept_ite ?_ ?_
    | with_reducible apply kept_wr
    )

theorem kept_count {r s : State} (h : Kept r s) : ∀ a1 a2 a3 a4, Kept r (State.count s a1 a2 a3 a4) := by
  intro a1 a2 a3 a4
  unfold State.count
  repeat' (first
    | with_reducible assumption
    | with_reducible refine kept_ite ?_ ?_
    | with_reducible apply kept_cntAdd
    | with_reducible refine kept_foldl ?_ ?_
    | intro _
    )

theorem kept_ceCount {r s : State} (h : Kept r s) : ∀ a1, Kept r (State.ceCount s a1) := by
  intro a1
  unfold State.ceCount
  repeat' (first
    | with_reducible assumption
    | with_reducible refine kept_ite ?_ ?_
    | with_reducible apply kept_wr
    | with_reducible apply kept_incSat
    | with_reducible apply kept_faultNote
    )

theorem kept_agentCode {r s : State} (h : Kept r s) : ∀ a1, Kept2 r (State.agentCode s a1) := by
  intro a1
  unfold State.agentCode
  repeat' (first
    | with_reducible assumption
    | with_reducible refine kept_ite ?_ ?_
    | with_reducible refine kept2_ite ?_ ?_
    | intro _
    | with_reducible apply Kept2.kept
    | dsimp only
    | split
    | with_reducible refine kept2_mk ?_ _
    | fail_if_no_progress (with_reducible refine kept_mk ?_ (by rfl) (by rfl) (by rfl) _ _ _ _ _ _ _ _ _ _ _ _ _ _ _ _ _ _ _)
    )

theorem kept_ceSpad {r s : State} (h : Kept r s) : ∀ a1 a2 a3 a4, Kept r (State.ceSpad s a1 a2 a3 a4) := by
  intro a1 a2 a3 a4
  unfold State.ceSpad
  repeat' (first
    | with_reducible assumption
    | with_reducible refine kept_ite ?_ ?_
    | with_reducible apply kept_wrs
    | with_reducible apply kept_incSat
    | with_reducible apply kept_ceCount
    )

theorem kept_ceAcc {r s : State} (h : Kept r s) : ∀ a1 a2 a3 a4, Kept r (State.ceAcc s a1 a2 a3 a4) := by
  intro a1 a2 a3 a4
  unfold State.ceAcc
  repeat' (first
    | with_reducible assumption
    | with_reducible refine kept_ite ?_ ?_
    | with_reducible apply kept_wr
    | with_reducible apply kept_wrs
    | with_reducible apply kept_ceCount
    )

theorem kept_ceLoft {r s : State} (h : Kept r s) : ∀ a1 a2 a3, Kept r (State.ceLoft s a1 a2 a3) := by
  intro a1 a2 a3
  unfold State.ceLoft
  repeat' (first
    | with_reducible assumption
    | with_reducible refine kept_ite ?_ ?_
    | with_reducible refine kept2_ite ?_ ?_
    | with_reducible apply kept_wrs
    | with_reducible apply kept_incSat
    | with_reducible apply kept_ceCount
    | with_reducible apply kept_agentCode
    | intro _
    | with_reducible apply Kept2.kept
    )

theorem kept_ceHbm {r s : State} (h : Kept r s) : ∀ a1 a2 a3, Kept r (State.ceHbm s a1 a2 a3) := by
  intro a1 a2 a3
  unfold State.ceHbm
  repeat' (first
    | with_reducible assumption
    | with_reducible refine kept_ite ?_ ?_
    | with_reducible refine kept2_ite ?_ ?_
    | with_reducible apply kept_wrs
    | with_reducible apply kept_incSat
    | with_reducible apply kept_ceCount
    | with_reducible apply kept_agentCode
    | intro _
    | with_reducible apply Kept2.kept
    )

theorem kept_ceBay {r s : State} (h : Kept r s) : ∀ a1 a2 a3, Kept r (State.ceBay s a1 a2 a3) := by
  intro a1 a2 a3
  unfold State.ceBay
  repeat' (first
    | with_reducible assumption
    | with_reducible refine kept_ite ?_ ?_
    | with_reducible refine kept2_ite ?_ ?_
    | with_reducible apply kept_wrs
    | with_reducible apply kept_free64
    | with_reducible apply kept_ceCount
    | with_reducible apply kept_agentCode
    | intro _
    | with_reducible apply Kept2.kept
    )

theorem kept_fltRecord {r s : State} (h : Kept r s) : ∀ a1 a2 a3 a4 a5 a6, Kept r (State.fltRecord s a1 a2 a3 a4 a5 a6) := by
  intro a1 a2 a3 a4 a5 a6
  unfold State.fltRecord
  repeat' (first
    | with_reducible assumption
    | with_reducible refine kept_ite ?_ ?_
    | with_reducible apply kept_wr
    | with_reducible apply kept_wrs
    )

theorem kept_mrstDue {r s : State} (h : Kept r s) : ∀ a1 a2 a3 a4 a5 a6, Kept r (State.mrstDue s a1 a2 a3 a4 a5 a6) := by
  intro a1 a2 a3 a4 a5 a6
  unfold State.mrstDue
  repeat' (first
    | with_reducible assumption
    | with_reducible apply kept_fltRecord
    | intro _
    | dsimp only
    | split
    | fail_if_no_progress (with_reducible refine kept_mk ?_ (by rfl) (by rfl) (by rfl) _ _ _ _ _ _ _ _ _ _ _ _ _ _ _ _ _ _ _)
    )

theorem kept_ueCause {r s : State} (h : Kept r s) : ∀ a1 a2 a3 a4 a5 a6, Kept r (State.ueCause s a1 a2 a3 a4 a5 a6) := by
  intro a1 a2 a3 a4 a5 a6
  unfold State.ueCause
  repeat' (first
    | with_reducible assumption
    | with_reducible apply kept_faultNote
    | with_reducible apply kept_mrstDue
    | intro _
    | dsimp only
    | split
    | fail_if_no_progress (with_reducible refine kept_mk ?_ (by rfl) (by rfl) (by rfl) _ _ _ _ _ _ _ _ _ _ _ _ _ _ _ _ _ _ _)
    )

theorem kept_ueFound {r s : State} (h : Kept r s) : ∀ a1 a2 a3 a4 a5, Kept r (State.ueFound s a1 a2 a3 a4 a5) := by
  intro a1 a2 a3 a4 a5
  unfold State.ueFound
  repeat' (first
    | with_reducible assumption
    | with_reducible apply kept_ueCause
    )

/-! ### Memory -/

theorem kept_spadRead {r s : State} (h : Kept r s) : ∀ a1 a2 a3 a4, KeptRd r (State.spadRead s a1 a2 a3 a4) := by
  intro a1 a2 a3 a4
  unfold State.spadRead
  repeat' (first
    | with_reducible assumption
    | with_reducible apply kept_ceSpad
    | with_reducible refine kept_foldl ?_ ?_
    | with_reducible refine keptRd_foldl ?_ ?_
    | intro _
    | with_reducible apply KeptRd.kept
    | with_reducible apply Kept2.kept
    | with_reducible apply Kept1.kept
    | dsimp only
    | split
    | with_reducible refine keptRd_mk ?_ _ _ _
    )

theorem kept_accRead {r s : State} (h : Kept r s) : ∀ a1 a2 a3 a4, KeptRd r (State.accRead s a1 a2 a3 a4) := by
  intro a1 a2 a3 a4
  unfold State.accRead
  repeat' (first
    | with_reducible assumption
    | with_reducible refine kept_ite ?_ ?_
    | with_reducible refine keptRd_ite ?_ ?_
    | with_reducible apply kept_wr
    | with_reducible apply kept_ceAcc
    | with_reducible refine kept_foldl ?_ ?_
    | with_reducible refine keptRd_foldl ?_ ?_
    | intro _
    | with_reducible apply KeptRd.kept
    | with_reducible apply Kept2.kept
    | with_reducible apply Kept1.kept
    | dsimp only
    | split
    | with_reducible refine keptRd_mk ?_ _ _ _
    )

theorem kept_sRead {r s : State} (h : Kept r s) : ∀ a1 a2 a3 a4 a5, KeptRd r (State.sRead s a1 a2 a3 a4 a5) := by
  intro a1 a2 a3 a4 a5
  unfold State.sRead
  repeat' (first
    | with_reducible assumption
    | with_reducible apply kept_count
    | with_reducible apply kept_spadRead
    | with_reducible apply kept_accRead
    | intro _
    | with_reducible apply KeptRd.kept
    | dsimp only
    | split
    | with_reducible refine keptRd_mk ?_ _ _ _
    )

theorem kept_sWrite {r s : State} (h : Kept r s) : ∀ a1 a2 a3 a4 a5, Kept r (State.sWrite s a1 a2 a3 a4 a5) := by
  intro a1 a2 a3 a4 a5
  unfold State.sWrite
  repeat' (first
    | with_reducible assumption
    | with_reducible refine kept_ite ?_ ?_
    | with_reducible apply kept_spadWrite
    | with_reducible apply kept_accWrite
    | with_reducible apply kept_count
    )

theorem kept_lRead {r s : State} (h : Kept r s) : ∀ a1 a2 a3, KeptRd r (State.lRead s a1 a2 a3) := by
  intro a1 a2 a3
  unfold State.lRead
  repeat' (first
    | with_reducible assumption
    | with_reducible apply kept_ceLoft
    | with_reducible refine kept_foldl ?_ ?_
    | with_reducible refine keptRd_foldl ?_ ?_
    | intro _
    | with_reducible apply KeptRd.kept
    | with_reducible apply Kept2.kept
    | with_reducible apply Kept1.kept
    | dsimp only
    | split
    | with_reducible refine keptRd_mk ?_ _ _ _
    )

theorem kept_hbmWord {r s : State} (h : Kept r s) : ∀ a1 a2, KeptRd r (State.hbmWord s a1 a2) := by
  intro a1 a2
  unfold State.hbmWord
  repeat' (first
    | with_reducible assumption
    | with_reducible refine kept_ite ?_ ?_
    | with_reducible refine keptRd_ite ?_ ?_
    | with_reducible refine kept2_ite ?_ ?_
    | with_reducible apply kept_incWrap
    | with_reducible apply kept_free64
    | with_reducible apply kept_agentCode
    | with_reducible apply kept_ceHbm
    | with_reducible apply kept_ueFound
    | with_reducible apply keptRd_ok
    | with_reducible refine kept_foldl ?_ ?_
    | with_reducible refine keptRd_foldl ?_ ?_
    | with_reducible refine kept2_foldl ?_ ?_
    | intro _
    | with_reducible apply KeptRd.kept
    | with_reducible apply Kept2.kept
    | with_reducible apply Kept1.kept
    | with_reducible refine kept_snd (by assumption) ?_
    | dsimp only
    | split
    | with_reducible refine keptRd_mk ?_ _ _ _
    )

theorem kept_firmPut {r s : State} (h : Kept r s) (a : Nat) (d : List Byte) : Kept r (s.firmPut a d) :=
  kept_setHbm h rfl rfl rfl rfl rfl a d rfl

theorem kept_bayPut {r s : State} (h : Kept r s) : ∀ a1 a2, Kept r (State.bayPut s a1 a2) := by
  intro a1 a2
  unfold State.bayPut
  repeat' (first
    | with_reducible assumption
    | with_reducible apply kept_modStack
    )

theorem kept_bayDrop {r s : State} (h : Kept r s) : ∀ a1 a2, Kept r (State.bayDrop s a1 a2) := by
  intro a1 a2
  unfold State.bayDrop
  repeat' (first
    | with_reducible assumption
    | with_reducible apply kept_unmark
    | with_reducible apply kept_modStack
    )

theorem kept_bayWriteBack {r s : State} (h : Kept r s) : ∀ a1 a2, Kept r (State.bayWriteBack s a1 a2) := by
  intro a1 a2
  unfold State.bayWriteBack
  repeat' (first
    | with_reducible assumption
    | with_reducible refine kept_ite ?_ ?_
    | with_reducible apply kept_hbmPut
    | with_reducible apply kept_hbmPutUndef
    | with_reducible apply kept_incWrap
    | with_reducible apply kept_ceBay
    | with_reducible refine kept_foldl ?_ ?_
    | intro _
    )

theorem kept_bayEvict {r s : State} (h : Kept r s) : ∀ a1 a2, Kept r (State.bayEvict s a1 a2) := by
  intro a1 a2
  unfold State.bayEvict
  repeat' (first
    | with_reducible assumption
    | with_reducible apply kept_bayDrop
    | with_reducible apply kept_bayWriteBack
    )

theorem kept_bayAlloc {r s : State} (h : Kept r s) : ∀ a1 a2 a3 a4 a5 a6 a7, Kept r (State.bayAlloc s a1 a2 a3 a4 a5 a6 a7) := by
  intro a1 a2 a3 a4 a5 a6 a7
  unfold State.bayAlloc
  repeat' (first
    | with_reducible assumption
    | with_reducible apply kept_bayPut
    | with_reducible apply kept_bayEvict
    | intro _
    | dsimp only
    | split
    )

theorem kept_bayServe {r s : State} (h : Kept r s) : ∀ a1 a2 a3 a4, KeptRd r (State.bayServe s a1 a2 a3 a4) := by
  intro a1 a2 a3 a4
  unfold State.bayServe
  repeat' (first
    | with_reducible assumption
    | with_reducible refine kept_ite ?_ ?_
    | with_reducible refine keptRd_ite ?_ ?_
    | with_reducible refine kept2_ite ?_ ?_
    | with_reducible apply kept_free64
    | with_reducible apply kept_ceBay
    | with_reducible apply keptRd_ok
    | with_reducible refine kept_foldl ?_ ?_
    | with_reducible refine keptRd_foldl ?_ ?_
    | with_reducible refine kept2_foldl ?_ ?_
    | intro _
    | with_reducible apply KeptRd.kept
    | with_reducible apply Kept2.kept
    | with_reducible apply Kept1.kept
    | with_reducible refine kept_snd (by assumption) ?_
    | dsimp only
    | split
    | with_reducible refine keptRd_mk ?_ _ _ _
    )

theorem kept_stackWords {r s : State} (h : Kept r s) : ∀ a1 a2 a3 a4, KeptRd r (State.stackWords s a1 a2 a3 a4) := by
  intro a1 a2 a3 a4
  unfold State.stackWords
  repeat' (first
    | with_reducible assumption
    | with_reducible apply kept_hbmWord
    | with_reducible refine keptRd_foldRd ?_ _ ?_
    | intro _
    )

theorem kept_fillWord {r s : State} (h : Kept r s) : ∀ a1 a2 a3 a4, KeptRd r (State.fillWord s a1 a2 a3 a4) := by
  intro a1 a2 a3 a4
  unfold State.fillWord
  repeat' (first
    | with_reducible assumption
    | with_reducible refine kept_ite ?_ ?_
    | with_reducible refine keptRd_ite ?_ ?_
    | with_reducible apply kept_incWrap
    | with_reducible apply kept_hbmWord
    | with_reducible apply keptRd_ok
    )

theorem kept_lineRead {r s : State} (h : Kept r s) : ∀ a1 a2 a3 a4 a5 a6, KeptRd r (State.lineRead s a1 a2 a3 a4 a5 a6) := by
  intro a1 a2 a3 a4 a5 a6
  unfold State.lineRead
  repeat' (first
    | with_reducible assumption
    | with_reducible refine kept_ite ?_ ?_
    | with_reducible refine keptRd_ite ?_ ?_
    | with_reducible apply kept_incWrap
    | with_reducible apply kept_hbmWord
    | with_reducible apply kept_bayPut
    | with_reducible apply kept_bayDrop
    | with_reducible apply kept_bayAlloc
    | with_reducible apply kept_bayServe
    | with_reducible apply kept_stackWords
    | with_reducible apply kept_fillWord
    | with_reducible refine keptRd_foldRd ?_ _ ?_
    | with_reducible refine kept_foldl ?_ ?_
    | with_reducible refine keptRd_foldl ?_ ?_
    | intro _
    | with_reducible apply KeptRd.kept
    | with_reducible apply Kept2.kept
    | with_reducible apply Kept1.kept
    | dsimp only
    | split
    | with_reducible refine keptRd_mk ?_ _ _ _
    )

theorem kept_lineWrite {r s : State} (h : Kept r s) : ∀ a1 a2 a3 a4 a5 a6, Kept r (State.lineWrite s a1 a2 a3 a4 a5 a6) := by
  intro a1 a2 a3 a4 a5 a6
  unfold State.lineWrite
  repeat' (first
    | with_reducible assumption
    | with_reducible refine kept_ite ?_ ?_
    | with_reducible apply kept_hbmPut
    | with_reducible apply kept_unmark
    | with_reducible apply kept_hbmPutUndef
    | with_reducible apply kept_incWrap
    | with_reducible apply kept_bayPut
    | with_reducible apply kept_bayAlloc
    | with_reducible refine kept_foldl ?_ ?_
    | intro _
    | with_reducible apply Kept2.kept
    | with_reducible apply Kept1.kept
    | dsimp only
    | split
    )

theorem kept_eRead {r s : State} (h : Kept r s) : ∀ a1 a2 a3 a4 a5, KeptRd r (State.eRead s a1 a2 a3 a4 a5) := by
  intro a1 a2 a3 a4 a5
  unfold State.eRead
  repeat' (first
    | with_reducible assumption
    | with_reducible apply kept_lineRead
    | with_reducible apply keptRd_ok
    | with_reducible refine kept_foldl ?_ ?_
    | with_reducible refine keptRd_foldl ?_ ?_
    | intro _
    | with_reducible apply KeptRd.kept
    | with_reducible apply Kept2.kept
    | with_reducible apply Kept1.kept
    | dsimp only
    | split
    | with_reducible refine keptRd_mk ?_ _ _ _
    )

theorem kept_pieceWrite {r s : State} (h : Kept r s) : ∀ a1 a2 a3 a4, KeptRd r (State.pieceWrite s a1 a2 a3 a4) := by
  intro a1 a2 a3 a4
  unfold State.pieceWrite
  repeat' (first
    | with_reducible assumption
    | with_reducible refine kept_ite ?_ ?_
    | with_reducible refine keptRd_ite ?_ ?_
    | with_reducible apply kept_lineRead
    | with_reducible apply kept_lineWrite
    | with_reducible apply keptRd_ok
    | intro _
    | with_reducible apply KeptRd.kept
    | dsimp only
    | split
    | with_reducible refine keptRd_mk ?_ _ _ _
    )

theorem kept_eWriteRd {r s : State} (h : Kept r s) : ∀ a1 a2 a3 a4, KeptRd r (State.eWriteRd s a1 a2 a3 a4) := by
  intro a1 a2 a3 a4
  unfold State.eWriteRd
  repeat' (first
    | with_reducible assumption
    | with_reducible refine kept_ite ?_ ?_
    | with_reducible refine keptRd_ite ?_ ?_
    | with_reducible apply kept_pieceWrite
    | with_reducible apply keptRd_ok
    | with_reducible refine kept_foldl ?_ ?_
    | with_reducible refine keptRd_foldl ?_ ?_
    | intro _
    | with_reducible apply KeptRd.kept
    | with_reducible apply Kept2.kept
    | with_reducible apply Kept1.kept
    | dsimp only
    | split
    | with_reducible refine keptRd_mk ?_ _ _ _
    )

theorem kept_eWrite {r s : State} (h : Kept r s) : ∀ a1 a2 a3 a4, Kept r (State.eWrite s a1 a2 a3 a4) := by
  intro a1 a2 a3 a4
  unfold State.eWrite
  repeat' (first
    | with_reducible assumption
    | with_reducible apply kept_eWriteRd
    | intro _
    | with_reducible apply KeptRd.kept
    )

theorem kept_memRead {r s : State} (h : Kept r s) : ∀ a1 a2 a3 a4 a5 a6 a7 a8, KeptRd r (State.memRead s a1 a2 a3 a4 a5 a6 a7 a8) := by
  intro a1 a2 a3 a4 a5 a6 a7 a8
  unfold State.memRead
  repeat' (first
    | with_reducible assumption
    | with_reducible apply kept_sRead
    | with_reducible apply kept_lRead
    | with_reducible apply kept_eRead
    | intro _
    | with_reducible apply KeptRd.kept
    | dsimp only
    | split
    )

theorem kept_memWriteRd {r s : State} (h : Kept r s) : ∀ a1 a2 a3 a4 a5 a6 a7, KeptRd r (State.memWriteRd s a1 a2 a3 a4 a5 a6 a7) := by
  intro a1 a2 a3 a4 a5 a6 a7
  unfold State.memWriteRd
  repeat' (first
    | with_reducible assumption
    | with_reducible apply kept_lWrite
    | with_reducible apply kept_sWrite
    | with_reducible apply kept_eWriteRd
    | with_reducible apply keptRd_ok
    | intro _
    | with_reducible apply KeptRd.kept
    | dsimp only
    | split
    )

theorem kept_memWrite {r s : State} (h : Kept r s) : ∀ a1 a2 a3 a4 a5 a6 a7, Kept r (State.memWrite s a1 a2 a3 a4 a5 a6 a7) := by
  intro a1 a2 a3 a4 a5 a6 a7
  unfold State.memWrite
  repeat' (first
    | with_reducible assumption
    | with_reducible apply kept_memWriteRd
    | intro _
    | with_reducible apply KeptRd.kept
    )

theorem kept_coreRead {r s : State} (h : Kept r s) : ∀ a1 a2 a3 a4 a5 a6 a7 a8, KeptRd r (State.coreRead s a1 a2 a3 a4 a5 a6 a7 a8) := by
  intro a1 a2 a3 a4 a5 a6 a7 a8
  unfold State.coreRead
  repeat' (first
    | with_reducible assumption
    | with_reducible refine kept_ite ?_ ?_
    | with_reducible refine keptRd_ite ?_ ?_
    | with_reducible apply kept_count
    | with_reducible apply kept_memRead
    | intro _
    | with_reducible apply KeptRd.kept
    | dsimp only
    | split
    | with_reducible refine keptRd_mk ?_ _ _ _
    )

theorem kept_coreWriteRd {r s : State} (h : Kept r s) : ∀ a1 a2 a3 a4 a5 a6 a7, KeptRd r (State.coreWriteRd s a1 a2 a3 a4 a5 a6 a7) := by
  intro a1 a2 a3 a4 a5 a6 a7
  unfold State.coreWriteRd
  repeat' (first
    | with_reducible assumption
    | with_reducible refine kept_ite ?_ ?_
    | with_reducible refine keptRd_ite ?_ ?_
    | with_reducible apply kept_count
    | with_reducible apply kept_memWriteRd
    | intro _
    | with_reducible apply KeptRd.kept
    | dsimp only
    | split
    | with_reducible refine keptRd_mk ?_ _ _ _
    )

theorem kept_coreWrite {r s : State} (h : Kept r s) : ∀ a1 a2 a3 a4 a5 a6 a7, Kept r (State.coreWrite s a1 a2 a3 a4 a5 a6 a7) := by
  intro a1 a2 a3 a4 a5 a6 a7
  unfold State.coreWrite
  repeat' (first
    | with_reducible assumption
    | with_reducible apply kept_coreWriteRd
    | intro _
    | with_reducible apply KeptRd.kept
    )

theorem kept_markSpad {r s : State} (h : Kept r s) : ∀ a1 a2, Kept r (State.markSpad s a1 a2) := by
  intro a1 a2
  unfold State.markSpad
  repeat' (first
    | with_reducible assumption
    | with_reducible refine kept_ite ?_ ?_
    | with_reducible apply kept_modCore
    | with_reducible refine kept_foldl ?_ ?_
    | intro _
    | with_reducible apply Kept2.kept
    | with_reducible apply Kept1.kept
    | dsimp only
    | split
    | ((with_reducible refine wf_of_eq ?_ ?_ (by assumption)) <;> rfl)
    )

theorem kept_markLoft {r s : State} (h : Kept r s) : ∀ a1, Kept r (State.markLoft s a1) := by
  intro a1
  unfold State.markLoft
  repeat' (first
    | with_reducible assumption
    | with_reducible refine kept_foldl ?_ ?_
    | intro _
    | with_reducible apply Kept2.kept
    | with_reducible apply Kept1.kept
    | dsimp only
    | split
    | fail_if_no_progress (with_reducible refine kept_mk ?_ (by rfl) (by rfl) (by rfl) _ _ _ _ _ _ _ _ _ _ _ _ _ _ _ _ _ _ _)
    )

theorem kept_markE {r s : State} (h : Kept r s) : ∀ a1, Kept r (State.markE s a1) := by
  intro a1
  unfold State.markE
  repeat' (first
    | with_reducible assumption
    | with_reducible refine kept_ite ?_ ?_
    | with_reducible refine kept_foldl ?_ ?_
    | intro _
    | with_reducible apply Kept2.kept
    | with_reducible apply Kept1.kept
    | dsimp only
    | split
    | fail_if_no_progress (with_reducible refine kept_mk ?_ (by rfl) (by rfl) (by rfl) _ _ _ _ _ _ _ _ _ _ _ _ _ _ _ _ _ _ _)
    )

theorem kept_mark {r s : State} (h : Kept r s) : ∀ a1 a2 a3, Kept r (State.mark s a1 a2 a3) := by
  intro a1 a2 a3
  unfold State.mark
  repeat' (first
    | with_reducible assumption
    | with_reducible refine kept_ite ?_ ?_
    | with_reducible apply kept_markSpad
    | with_reducible apply kept_markLoft
    | with_reducible apply kept_markE
    | intro _
    | dsimp only
    | split
    )

/-! ### Events -/

theorem kept_evalWaits {r s : State} (h : Kept r s) : ∀ a1, Kept r (State.evalWaits s a1) := by
  intro a1
  unfold State.evalWaits
  repeat' (first
    | with_reducible assumption
    | with_reducible refine kept_ite ?_ ?_
    | intro _
    | dsimp only
    | split
    | fail_if_no_progress (with_reducible refine kept_mk ?_ (by rfl) (by rfl) (by rfl) _ _ _ _ _ _ _ _ _ _ _ _ _ _ _ _ _ _ _)
    )

theorem kept_setEvt {r s : State} (h : Kept r s) : ∀ a1 a2, Kept r (State.setEvt s a1 a2) := by
  intro a1 a2
  unfold State.setEvt
  repeat' (first
    | with_reducible assumption
    | with_reducible apply kept_wr
    | with_reducible apply kept_evalWaits
    )

theorem kept_addEvt {r s : State} (h : Kept r s) : ∀ a1 a2, Kept r (State.addEvt s a1 a2) := by
  intro a1 a2
  unfold State.addEvt
  repeat' (first
    | with_reducible assumption
    | with_reducible refine kept_ite ?_ ?_
    | with_reducible apply kept_setEvt
    | intro _
    | dsimp only
    | split
    | fail_if_no_progress (with_reducible refine kept_mk ?_ (by rfl) (by rfl) (by rfl) _ _ _ _ _ _ _ _ _ _ _ _ _ _ _ _ _ _ _)
    )

theorem kept_slotRead {r s : State} (h : Kept r s) : ∀ a1 a2 a3, KeptRd r (State.slotRead s a1 a2 a3) := by
  intro a1 a2 a3
  unfold State.slotRead
  repeat' (first
    | with_reducible assumption
    | with_reducible apply kept_memRead
    )

theorem kept_slotWrite {r s : State} (h : Kept r s) : ∀ a1 a2 a3, Kept r (State.slotWrite s a1 a2 a3) := by
  intro a1 a2 a3
  unfold State.slotWrite
  repeat' (first
    | with_reducible assumption
    | with_reducible apply kept_memWrite
    )

theorem kept_slotFree {r s : State} (h : Kept r s) : ∀ a1 a2, Kept2 r (State.slotFree s a1 a2) := by
  intro a1 a2
  unfold State.slotFree
  repeat' (first
    | with_reducible assumption
    | with_reducible refine kept_ite ?_ ?_
    | with_reducible refine keptRd_ite ?_ ?_
    | with_reducible refine kept2_ite ?_ ?_
    | with_reducible apply kept_slotRead
    | intro _
    | with_reducible apply KeptRd.kept
    | with_reducible apply Kept2.kept
    | dsimp only
    | split
    | with_reducible refine keptRd_mk ?_ _ _ _
    | with_reducible refine kept2_mk ?_ _
    )

theorem kept_notifyDone {r s : State} (h : Kept r s) : ∀ a1 a2 a3 a4 a5, Kept r (State.notifyDone s a1 a2 a3 a4 a5) := by
  intro a1 a2 a3 a4 a5
  unfold State.notifyDone
  repeat' (first
    | with_reducible assumption
    | with_reducible apply kept_say
    )

theorem kept_retireHead {r s : State} (h : Kept r s) : ∀ a1, Kept r (State.retireHead s a1) := by
  intro a1
  unfold State.retireHead
  repeat' (first
    | with_reducible assumption
    | with_reducible refine kept_ite ?_ ?_
    | with_reducible apply kept_modQueue
    )

theorem kept_endCmd {r s : State} (h : Kept r s) : ∀ a1 a2 a3 a4 a5, Kept r (State.endCmd s a1 a2 a3 a4 a5) := by
  intro a1 a2 a3 a4 a5
  unfold State.endCmd
  repeat' (first
    | with_reducible assumption
    | with_reducible refine kept_ite ?_ ?_
    | with_reducible apply kept_wrs
    | with_reducible apply kept_incSat
    | with_reducible apply kept_modQueue
    | with_reducible apply kept_addEvt
    | with_reducible apply kept_slotWrite
    | with_reducible apply kept_notifyDone
    | with_reducible apply kept_retireHead
    )

theorem kept_modCmd {r s : State} (h : Kept r s) : ∀ a1 a2, Kept r (State.modCmd s a1 a2) := by
  intro a1 a2
  unfold State.modCmd
  repeat' (first
    | with_reducible assumption
    | intro _
    | dsimp only
    | split
    | fail_if_no_progress (with_reducible refine kept_mk ?_ (by rfl) (by rfl) (by rfl) _ _ _ _ _ _ _ _ _ _ _ _ _ _ _ _ _ _ _)
    )

theorem kept_finishCmd {r s : State} (h : Kept r s) : ∀ a1 a2, Kept r (State.finishCmd s a1 a2) := by
  intro a1 a2
  unfold State.finishCmd
  repeat' (first
    | with_reducible assumption
    | with_reducible apply kept_endCmd
    | intro _
    | dsimp only
    | split
    | fail_if_no_progress (with_reducible refine kept_mk ?_ (by rfl) (by rfl) (by rfl) _ _ _ _ _ _ _ _ _ _ _ _ _ _ _ _ _ _ _)
    )

theorem kept_report {r s : State} (h : Kept r s) : ∀ a1 a2, Kept r (State.report s a1 a2) := by
  intro a1 a2
  unfold State.report
  repeat' (first
    | with_reducible assumption
    | intro _
    | dsimp only
    | split
    | fail_if_no_progress (with_reducible refine kept_mk ?_ (by rfl) (by rfl) (by rfl) _ _ _ _ _ _ _ _ _ _ _ _ _ _ _ _ _ _ _)
    )

/-! ### Exceptions -/

theorem kept_portEvent {r s : State} (h : Kept r s) : ∀ a1 a2, Kept r (State.portEvent s a1 a2) := by
  intro a1 a2
  unfold State.portEvent
  repeat' (first
    | with_reducible assumption
    | with_reducible apply kept_count
    )

theorem kept_glnSignal {r s : State} (h : Kept r s) : ∀ a1 a2, Kept r (State.glnSignal s a1 a2) := by
  intro a1 a2
  unfold State.glnSignal
  repeat' (first
    | with_reducible assumption
    | with_reducible refine kept_ite ?_ ?_
    | with_reducible apply kept_addEvt
    | with_reducible apply kept_portEvent
    )

theorem kept_glnDiscard {r s : State} (h : Kept r s) : ∀ a1 a2, Kept r (State.glnDiscard s a1 a2) := by
  intro a1 a2
  unfold State.glnDiscard
  repeat' (first
    | with_reducible assumption
    | with_reducible refine kept_ite ?_ ?_
    | with_reducible apply kept_modGln
    | with_reducible apply kept_touched
    | with_reducible apply kept_report
    | with_reducible apply kept_glnSignal
    | with_reducible refine kept_foldl ?_ ?_
    | intro _
    | with_reducible apply Kept2.kept
    | with_reducible apply Kept1.kept
    | dsimp only
    | split
    )

theorem kept_haltCore {r s : State} (h : Kept r s) : ∀ a1, Kept r (State.haltCore s a1) := by
  intro a1
  unfold State.haltCore
  repeat' (first
    | with_reducible assumption
    | with_reducible apply kept_modCore
    | with_reducible apply kept_glnDiscard
    | with_reducible refine kept_foldl ?_ ?_
    | intro _
    | with_reducible apply Kept2.kept
    | with_reducible apply Kept1.kept
    | dsimp only
    | split
    | ((with_reducible refine wf_of_eq ?_ ?_ (by assumption)) <;> rfl)
    )

theorem kept_fillExc {r s : State} (h : Kept r s) : ∀ a1 a2 a3 a4 a5, Kept r (State.fillExc s a1 a2 a3 a4 a5) := by
  intro a1 a2 a3 a4 a5
  unfold State.fillExc
  repeat' (first
    | with_reducible assumption
    | with_reducible apply kept_wr
    | with_reducible apply kept_wrs
    )

theorem kept_takeExc {r s : State} (h : Kept r s) : ∀ a1 a2 a3 a4, Kept r (State.takeExc s a1 a2 a3 a4) := by
  intro a1 a2 a3 a4
  unfold State.takeExc
  repeat' (first
    | with_reducible assumption
    | with_reducible refine kept_ite ?_ ?_
    | with_reducible apply kept_wr
    | with_reducible apply kept_modCore
    | with_reducible apply kept_modSp
    | with_reducible apply kept_traceAdd
    | with_reducible apply kept_count
    | with_reducible apply kept_haltCore
    | with_reducible apply kept_fillExc
    | intro _
    | dsimp only
    | split
    | ((with_reducible refine wf_of_eq ?_ ?_ (by assumption)) <;> rfl)
    )

theorem kept_precise {r s : State} (h : Kept r s) : ∀ a1 a2 a3 a4, Kept r (State.precise s a1 a2 a3 a4) := by
  intro a1 a2 a3 a4
  unfold State.precise
  repeat' (first
    | with_reducible assumption
    | with_reducible apply kept_takeExc
    )

theorem kept_imprecise {r s : State} (h : Kept r s) : ∀ a1 a2 a3 a4 a5 a6, Kept r (State.imprecise s a1 a2 a3 a4 a5 a6) := by
  intro a1 a2 a3 a4 a5 a6
  unfold State.imprecise
  repeat' (first
    | with_reducible assumption
    | with_reducible refine kept_ite ?_ ?_
    | with_reducible apply kept_wr
    | with_reducible apply kept_modSp
    | with_reducible apply kept_takeExc
    )

theorem kept_issue {r s : State} (h : Kept r s) : ∀ a1 a2 a3 a4 a5 a6 a7 a8, (∀ t0, Kept r t0 → Kept r (a8 t0)) → Kept r (State.issue s a1 a2 a3 a4 a5 a6 a7 a8) := by
  intro a1 a2 a3 a4 a5 a6 a7 a8 ha8
  unfold State.issue
  repeat' (first
    | with_reducible assumption
    | with_reducible refine kept_ite ?_ ?_
    | with_reducible refine ha8 _ ?_
    | with_reducible apply kept_precise
    )

theorem kept_throttled {r s : State} (h : Kept r s) : ∀ a1, Kept2 r (State.throttled s a1) := by
  intro a1
  unfold State.throttled
  repeat' (first
    | with_reducible assumption
    | with_reducible refine kept_ite ?_ ?_
    | with_reducible refine kept2_ite ?_ ?_
    | with_reducible apply kept_free64
    | intro _
    | with_reducible apply Kept2.kept
    | dsimp only
    | split
    | with_reducible refine kept2_mk ?_ _
    )

theorem kept_issueV {r s : State} (h : Kept r s) : ∀ a1 a2 a3 a4 a5 a6 a7 a8, (∀ t0, Kept r t0 → Kept r (a8 t0)) → Kept r (State.issueV s a1 a2 a3 a4 a5 a6 a7 a8) := by
  intro a1 a2 a3 a4 a5 a6 a7 a8 ha8
  unfold State.issueV
  repeat' (first
    | with_reducible assumption
    | with_reducible refine kept_ite ?_ ?_
    | with_reducible refine kept2_ite ?_ ?_
    | with_reducible refine ha8 _ ?_
    | with_reducible apply kept_issue
    | with_reducible apply kept_throttled
    | intro _
    | with_reducible apply Kept2.kept
    )

theorem kept_retire {r s : State} (h : Kept r s) : ∀ a1 a2 a3, Kept r (State.retire s a1 a2 a3) := by
  intro a1 a2 a3
  unfold State.retire
  repeat' (first
    | with_reducible assumption
    | with_reducible apply kept_modSp
    | with_reducible apply kept_count
    )

theorem kept_retireTo {r s : State} (h : Kept r s) : ∀ a1 a2 a3, Kept r (State.retireTo s a1 a2 a3) := by
  intro a1 a2 a3
  unfold State.retireTo
  repeat' (first
    | with_reducible assumption
    | with_reducible apply kept_modSp
    | with_reducible apply kept_count
    )

theorem kept_retireX {r s : State} (h : Kept r s) : ∀ a1 a2 a3 a4, Kept r (State.retireX s a1 a2 a3 a4) := by
  intro a1 a2 a3 a4
  unfold State.retireX
  repeat' (first
    | with_reducible assumption
    | with_reducible apply kept_modSp
    | with_reducible apply kept_retire
    )

/-! ### CoreAccess -/

theorem kept_spStore {r s : State} (h : Kept r s) : ∀ a1 a2 a3 a4 a5 a6, Kept r (State.spStore s a1 a2 a3 a4 a5 a6) := by
  intro a1 a2 a3 a4 a5 a6
  unfold State.spStore
  repeat' (first
    | with_reducible assumption
    | with_reducible apply kept_modSp
    | with_reducible apply kept_coreWrite
    )

end Sys2Proof.Laws
end

