-- ==== Sys2Proof/Laws/KeptCores.lean ====
section
/-! SUPPORT. What is kept (`Kept`) by the operations of the cores: scalar and vector instructions, arrays, the stook, the gleaner: one lemma per operation, `kept_<operation>`. -/

namespace Sys2Proof.Laws

open Sys2Proof.Machine

/-! ### Scalar -/

theorem kept_tdWrite {r s : State} (h : Kept r s) : ∀ a0 a1 a2 a3 a4, Kept r (tdWrite a0 a1 a2 a3 a4 s) := by
  intro a0 a1 a2 a3 a4
  unfold tdWrite
  repeat' (first
    | with_reducible assumption
    | with_reducible apply kept_modSp
    | with_reducible apply kept_issue
    | with_reducible apply kept_retire
    | intro _
    )

theorem kept_tdRead {r s : State} (h : Kept r s) : ∀ a0 a1 a2 a3 a4, Kept r (tdRead a0 a1 a2 a3 a4 s) := by
  intro a0 a1 a2 a3 a4
  unfold tdRead
  repeat' (first
    | with_reducible assumption
    | with_reducible apply kept_issue
    | with_reducible apply kept_retireX
    | intro _
    )

theorem kept_access {r s : State} (h : Kept r s) : ∀ a1 a2 a3 a4 a5 a6 a7 a8 a9, (∀ t0, Kept r t0 → Kept r (a9 t0)) → Kept r (State.access s a1 a2 a3 a4 a5 a6 a7 a8 a9) := by
  intro a1 a2 a3 a4 a5 a6 a7 a8 a9 ha9
  unfold State.access
  repeat' (first
    | with_reducible assumption
    | with_reducible refine kept_ite ?_ ?_
    | with_reducible refine ha9 _ ?_
    | with_reducible apply kept_modSp
    | with_reducible apply kept_precise
    )

theorem kept_ldSEff {r s : State} (h : Kept r s) : ∀ a0 a1 a2, Kept r (ldSEff a0 a1 a2 s) := by
  intro a0 a1 a2
  unfold ldSEff
  repeat' (first
    | with_reducible assumption
    | with_reducible apply kept_sRead
    | with_reducible apply kept_retireX
    | intro _
    | with_reducible apply KeptRd.kept
    )

theorem kept_stSEff {r s : State} (h : Kept r s) : ∀ a0 a1 a2, Kept r (stSEff a0 a1 a2 s) := by
  intro a0 a1 a2
  unfold stSEff
  repeat' (first
    | with_reducible assumption
    | with_reducible apply kept_retire
    | with_reducible apply kept_spStore
    )

theorem kept_dropAhead {r s : State} (h : Kept r s) : ∀ a1 a2, Kept r (State.dropAhead s a1 a2) := by
  intro a1 a2
  unfold State.dropAhead
  repeat' (first
    | with_reducible assumption
    | with_reducible refine kept_ite ?_ ?_
    | intro _
    | dsimp only
    | split
    | fail_if_no_progress (with_reducible refine kept_mk ?_ (by rfl) (by rfl) (by rfl) _ _ _ _ _ _ _ _ _ _ _ _ _ _ _ _ _ _ _)
    )

theorem kept_acquire {r s : State} (h : Kept r s) : ∀ a1 a2 a3, Kept r (State.acquire s a1 a2 a3) := by
  intro a1 a2 a3
  unfold State.acquire
  repeat' (first
    | with_reducible assumption
    | with_reducible refine kept_ite ?_ ?_
    | with_reducible apply kept_modGln
    | with_reducible apply kept_modSp
    | with_reducible apply kept_dropAhead
    )

/-! ### Vector -/

theorem kept_fpFlags {r s : State} (h : Kept r s) : ∀ a1 a2, Kept r (State.fpFlags s a1 a2) := by
  intro a1 a2
  unfold State.fpFlags
  repeat' (first
    | with_reducible assumption
    | with_reducible refine kept_ite ?_ ?_
    | with_reducible apply kept_setReg
    )

theorem kept_retireV {r s : State} (h : Kept r s) : ∀ a1 a2, Kept r (State.retireV s a1 a2) := by
  intro a1 a2
  unfold State.retireV
  repeat' (first
    | with_reducible assumption
    | with_reducible apply kept_count
    | with_reducible apply kept_retire
    )

theorem kept_putV {r s : State} (h : Kept r s) : ∀ a1 a2 a3 a4, Kept r (State.putV s a1 a2 a3 a4) := by
  intro a1 a2 a3 a4
  unfold State.putV
  repeat' (first
    | with_reducible assumption
    | with_reducible apply kept_modSp
    | with_reducible apply kept_fpFlags
    | with_reducible apply kept_retireV
    )

theorem kept_vfOp {r s : State} (h : Kept r s) : ∀ a0 a1 a2 a3 a4 a5, Kept r (vfOp a0 a1 a2 a3 a4 a5 s) := by
  intro a0 a1 a2 a3 a4 a5
  unfold vfOp
  repeat' (first
    | with_reducible assumption
    | with_reducible apply kept_issueV
    | with_reducible apply kept_putV
    | intro _
    )

theorem kept_vmOp {r s : State} (h : Kept r s) : ∀ a0 a1 a2 a3 a4 a5, Kept r (vmOp a0 a1 a2 a3 a4 a5 s) := by
  intro a0 a1 a2 a3 a4 a5
  unfold vmOp
  repeat' (first
    | with_reducible assumption
    | with_reducible apply kept_issueV
    | with_reducible apply kept_putV
    | intro _
    )

theorem kept_viOp {r s : State} (h : Kept r s) : ∀ a0 a1 a2 a3 a4 a5, Kept r (viOp a0 a1 a2 a3 a4 a5 s) := by
  intro a0 a1 a2 a3 a4 a5
  unfold viOp
  repeat' (first
    | with_reducible assumption
    | with_reducible apply kept_issueV
    | with_reducible apply kept_putV
    | intro _
    )

theorem kept_vrOp {r s : State} (h : Kept r s) : ∀ a0 a1 a2 a3, Kept r (vrOp a0 a1 a2 a3 s) := by
  intro a0 a1 a2 a3
  unfold vrOp
  repeat' (first
    | with_reducible assumption
    | with_reducible apply kept_issueV
    | with_reducible apply kept_putV
    | intro _
    )

theorem kept_pOp {r s : State} (h : Kept r s) : ∀ a0 a1 a2 a3 a4 a5, Kept r (pOp a0 a1 a2 a3 a4 a5 s) := by
  intro a0 a1 a2 a3 a4 a5
  unfold pOp
  repeat' (first
    | with_reducible assumption
    | with_reducible refine kept_ite ?_ ?_
    | with_reducible apply kept_modSp
    | with_reducible apply kept_issueV
    | with_reducible apply kept_retireV
    | intro _
    )

theorem kept_readWords {r s : State} (h : Kept r s) : ∀ a1 a2 a3 a4 a5, Kept r (State.readWords s a1 a2 a3 a4 a5) := by
  intro a1 a2 a3 a4 a5
  unfold State.readWords
  repeat' (first
    | with_reducible assumption
    | with_reducible refine kept_ite ?_ ?_
    | with_reducible refine keptRd_ite ?_ ?_
    | with_reducible apply kept_count
    | with_reducible apply kept_spadRead
    | with_reducible apply kept_accRead
    | with_reducible apply kept_lRead
    | with_reducible refine keptRd_foldRd ?_ _ ?_
    | intro _
    | with_reducible apply KeptRd.kept
    )

theorem kept_vLine {r s : State} (h : Kept r s) : ∀ a1 a2 a3 a4 a5, Kept2 r (State.vLine s a1 a2 a3 a4 a5) := by
  intro a1 a2 a3 a4 a5
  unfold State.vLine
  repeat' (first
    | with_reducible assumption
    | with_reducible refine kept_ite ?_ ?_
    | with_reducible refine kept2_ite ?_ ?_
    | with_reducible apply kept_modSp
    | with_reducible apply kept_freeBit
    | with_reducible apply kept_readWords
    | intro _
    | with_reducible apply Kept2.kept
    | with_reducible refine kept_snd (by assumption) ?_
    | dsimp only
    | split
    | with_reducible refine kept2_mk ?_ _
    )

theorem kept_vldEff {r s : State} (h : Kept r s) : ∀ a0 a1 a2, Kept r (vldEff a0 a1 a2 s) := by
  intro a0 a1 a2
  unfold vldEff
  repeat' (first
    | with_reducible assumption
    | with_reducible apply kept_putV
    | with_reducible apply kept_vLine
    | intro _
    | with_reducible apply Kept2.kept
    )

theorem kept_vstEff {r s : State} (h : Kept r s) : ∀ a0 a1 a2, Kept r (vstEff a0 a1 a2 s) := by
  intro a0 a1 a2
  unfold vstEff
  repeat' (first
    | with_reducible assumption
    | with_reducible apply kept_spStore
    | with_reducible apply kept_retireV
    | with_reducible refine kept_foldl ?_ ?_
    | intro _
    )

theorem kept_vmAccess {r s : State} (h : Kept r s) : ∀ a1 a2 a3 a4, (∀ t0, Kept r t0 → Kept r (a4 t0)) → Kept r (State.vmAccess s a1 a2 a3 a4) := by
  intro a1 a2 a3 a4 ha4
  unfold State.vmAccess
  repeat' (first
    | with_reducible assumption
    | with_reducible refine kept_ite ?_ ?_
    | with_reducible refine ha4 _ ?_
    | with_reducible apply kept_access
    | with_reducible apply kept_retireV
    )

theorem kept_vgatherEff {r s : State} (h : Kept r s) : ∀ a0 a1 a2, Kept r (vgatherEff a0 a1 a2 s) := by
  intro a0 a1 a2
  unfold vgatherEff
  repeat' (first
    | with_reducible assumption
    | with_reducible refine kept_ite ?_ ?_
    | with_reducible refine kept2_ite ?_ ?_
    | with_reducible apply kept_free64
    | with_reducible apply kept_putV
    | with_reducible apply kept_vLine
    | with_reducible refine kept_foldl ?_ ?_
    | with_reducible refine kept2_foldl ?_ ?_
    | intro _
    | with_reducible apply Kept2.kept
    | with_reducible apply Kept1.kept
    | with_reducible refine kept_snd (by assumption) ?_
    | dsimp only
    | split
    | with_reducible refine kept2_mk ?_ _
    )

theorem kept_vscatterEff {r s : State} (h : Kept r s) : ∀ a0 a1 a2, Kept r (vscatterEff a0 a1 a2 s) := by
  intro a0 a1 a2
  unfold vscatterEff
  repeat' (first
    | with_reducible assumption
    | with_reducible apply kept_spStore
    | with_reducible apply kept_retireV
    | with_reducible refine kept_foldl ?_ ?_
    | intro _
    )

theorem kept_gsAccess {r s : State} (h : Kept r s) : ∀ a1 a2 a3 a4, (∀ t0, Kept r t0 → Kept r (a4 t0)) → Kept r (State.gsAccess s a1 a2 a3 a4) := by
  intro a1 a2 a3 a4 ha4
  unfold State.gsAccess
  repeat' (first
    | with_reducible assumption
    | with_reducible refine kept_ite ?_ ?_
    | with_reducible refine ha4 _ ?_
    | with_reducible apply kept_modSp
    | with_reducible apply kept_precise
    | intro _
    | dsimp only
    | split
    )

/-! ### Array -/

theorem kept_enqTile {r s : State} (h : Kept r s) : ∀ a1 a2 a3 a4, Kept r (State.enqTile s a1 a2 a3 a4) := by
  intro a1 a2 a3 a4
  unfold State.enqTile
  repeat' (first
    | with_reducible assumption
    | with_reducible refine kept_ite ?_ ?_
    | with_reducible apply kept_modCore
    | with_reducible apply kept_count
    | with_reducible apply kept_retire
    | intro _
    | dsimp only
    | split
    | ((with_reducible refine wf_of_eq ?_ ?_ (by assumption)) <;> simp only [setArr_spad, setArr_acc])
    )

theorem kept_claimFail {r s : State} (h : Kept r s) : ∀ a1 a2 a3, Kept r (State.claimFail s a1 a2 a3) := by
  intro a1 a2 a3
  unfold State.claimFail
  repeat' (first
    | with_reducible assumption
    | with_reducible refine kept_ite ?_ ?_
    | with_reducible apply kept_wrs
    | with_reducible apply kept_incSat
    | with_reducible apply kept_precise
    )

theorem kept_passStream {r s : State} (h : Kept r s) : ∀ a1 a2 a3, Kept r (State.passStream s a1 a2 a3) := by
  intro a1 a2 a3
  unfold State.passStream
  repeat' (first
    | with_reducible assumption
    | with_reducible refine kept_ite ?_ ?_
    | with_reducible apply kept_modGln
    | with_reducible apply kept_count
    | with_reducible apply kept_enqTile
    | with_reducible apply kept_claimFail
    | intro _
    | dsimp only
    | split
    )

theorem kept_passTile {r s : State} (h : Kept r s) : ∀ a1 a2 a3, Kept r (State.passTile s a1 a2 a3) := by
  intro a1 a2 a3
  unfold State.passTile
  repeat' (first
    | with_reducible assumption
    | with_reducible apply kept_precise
    | with_reducible apply kept_enqTile
    | intro _
    | dsimp only
    | split
    )

theorem kept_readRanges {r s : State} (h : Kept r s) : ∀ a1 a2 a3 a4 a5 a6 a7, KeptRd r (State.readRanges s a1 a2 a3 a4 a5 a6 a7) := by
  intro a1 a2 a3 a4 a5 a6 a7
  induction a7 generalizing s a1 a2 a3 a4 a5 a6 with
  | nil =>
    unfold State.readRanges
    repeat' (first
      | with_reducible assumption
      | with_reducible apply kept_coreRead
      | with_reducible apply keptRd_ok
      )
  | cons x l ih =>
    unfold State.readRanges
    repeat' (first
      | with_reducible apply ih
      | with_reducible assumption
      | with_reducible apply kept_coreRead
      | with_reducible apply keptRd_ok
      | intro _
      | with_reducible apply KeptRd.kept
      | dsimp only
      | split
      | with_reducible refine keptRd_mk ?_ _ _ _
      )

theorem kept_writeRanges {r s : State} (h : Kept r s) : ∀ a1 a2 a3 a4 a5 a6 a7, Kept r (State.writeRanges s a1 a2 a3 a4 a5 a6 a7) := by
  intro a1 a2 a3 a4 a5 a6 a7
  induction a6 generalizing s a1 a2 a3 a4 a5 a7 with
  | nil =>
    unfold State.writeRanges
    repeat' (first
      | with_reducible assumption
      )
  | cons x l ih =>
    unfold State.writeRanges
    repeat' (first
      | with_reducible apply ih
      | with_reducible assumption
      | with_reducible apply kept_coreWrite
      )

theorem kept_vbRanges {r s : State} (h : Kept r s) : ∀ a1 a2 a3 a4 a5, Kept r (State.vbRanges s a1 a2 a3 a4 a5) := by
  intro a1 a2 a3 a4 a5
  induction a4 generalizing s a1 a2 a3 a5 with
  | nil =>
    unfold State.vbRanges
    repeat' (first
      | with_reducible assumption
      )
  | cons x l ih =>
    unfold State.vbRanges
    repeat' (first
      | with_reducible apply ih
      | with_reducible assumption
      | with_reducible apply kept_modSp
      )

theorem kept_arrError {r s : State} (h : Kept r s) : ∀ a1 a2 a3 a4, Kept r (State.arrError s a1 a2 a3 a4) := by
  intro a1 a2 a3 a4
  unfold State.arrError
  repeat' (first
    | with_reducible assumption
    | with_reducible refine kept_ite ?_ ?_
    | with_reducible apply kept_wrs
    | with_reducible apply kept_incSat
    )

theorem kept_stookCorr {r s : State} (h : Kept r s) : ∀ a1 a2 a3, Kept r (State.stookCorr s a1 a2 a3) := by
  intro a1 a2 a3
  unfold State.stookCorr
  repeat' (first
    | with_reducible assumption
    | with_reducible apply kept_modStook
    )

/-- The state after a row of a pass is fetched. -/
theorem kept_fetchRow {r s : State} (h : Kept r s) (c sp : Nat) (p : PassReq) (k : Nat) : Kept r (s.fetchRow c sp p k).2.2 := by
  have h1 := fun a n g q => kept_sRead h c a n g q
  unfold State.fetchRow
  dsimp only
  cases p.src with
  | stream n st =>
    dsimp only
    exact kept_modGln h _ _
  | tile d x =>
    dsimp only
    split
    · exact (kept_sRead (h1 _ _ _ _).kept _ _ _ _ _).kept
    · exact (h1 _ _ _ _).kept
  | stook x =>
    dsimp only
    exact kept_ite (kept_stookCorr (h1 _ _ _ _).kept _ _ _) (h1 _ _ _ _).kept

theorem kept_addPassRow {r s : State} (h : Kept r s) : ∀ a1 a2 a3 a4 a5, Kept1 r (State.addPassRow s a1 a2 a3 a4 a5) := by
  intro a1 a2 a3 a4 a5
  unfold State.addPassRow
  repeat' (first
    | with_reducible assumption
    | with_reducible apply kept_accWrite
    | with_reducible apply kept_accRead
    | intro _
    | with_reducible apply KeptRd.kept
    | with_reducible apply Kept1.kept
    | dsimp only
    | split
    | with_reducible refine keptRd_mk ?_ _ _ _
    | with_reducible refine kept1_mk ?_ _
    )

theorem kept_addPassRows {r s : State} (h : Kept r s) : ∀ a1 a2 a3 a4 a5, Kept1 r (State.addPassRows s a1 a2 a3 a4 a5) := by
  intro a1 a2 a3 a4 a5
  induction a5 generalizing s a1 a2 a3 a4 with
  | nil =>
    unfold State.addPassRows
    repeat' (first
      | with_reducible assumption
      | with_reducible apply kept_addPassRow
      | intro _
      | with_reducible apply Kept1.kept
      | with_reducible refine kept_fst (by assumption) ?_
      | dsimp only
      | split
      | with_reducible refine kept1_mk ?_ _
      )
  | cons x l ih =>
    unfold State.addPassRows
    repeat' (first
      | with_reducible apply ih
      | with_reducible assumption
      | with_reducible apply kept_addPassRow
      | intro _
      | with_reducible apply Kept1.kept
      | with_reducible refine kept_fst (by assumption) ?_
      | dsimp only
      | split
      | with_reducible refine kept1_mk ?_ _
      )

theorem kept_satRecord {r s : State} (h : Kept r s) : ∀ a1 a2 a3 a4, Kept r (State.satRecord s a1 a2 a3 a4) := by
  intro a1 a2 a3 a4
  unfold State.satRecord
  repeat' (first
    | with_reducible assumption
    | with_reducible refine kept_ite ?_ ?_
    | with_reducible apply kept_wr
    | with_reducible apply kept_wrs
    | with_reducible apply kept_incSat
    | intro _
    | dsimp only
    | split
    )

theorem kept_finishPass {r s : State} (h : Kept r s) : ∀ a1 a2 a3, Kept r (State.finishPass s a1 a2 a3) := by
  intro a1 a2 a3
  unfold State.finishPass
  repeat' (first
    | with_reducible assumption
    | with_reducible refine kept_ite ?_ ?_
    | with_reducible refine kept1_ite ?_ ?_
    | with_reducible apply kept_modArr
    | with_reducible apply kept_writeFields
    | with_reducible apply kept_count
    | with_reducible apply kept_addPassRows
    | with_reducible apply kept_satRecord
    | with_reducible refine kept_foldl ?_ ?_
    | with_reducible refine kept1_foldl ?_ ?_
    | intro _
    | with_reducible apply Kept2.kept
    | with_reducible apply Kept1.kept
    | with_reducible refine kept_fst (by assumption) ?_
    | dsimp only
    | split
    )

theorem kept_unreside {r s : State} (h : Kept r s) : ∀ a1 a2 a3, Kept r (State.unreside s a1 a2 a3) := by
  intro a1 a2 a3
  unfold State.unreside
  repeat' (first
    | with_reducible assumption
    | with_reducible refine kept_ite ?_ ?_
    | with_reducible apply kept_modStook
    )

theorem kept_emptySlot {r s : State} (h : Kept r s) : ∀ a1 a2 a3, Kept r (State.emptySlot s a1 a2 a3) := by
  intro a1 a2 a3
  unfold State.emptySlot
  repeat' (first
    | with_reducible assumption
    | with_reducible apply kept_modArr
    | with_reducible apply kept_unreside
    )

theorem kept_slotClear {r s : State} (h : Kept r s) : ∀ a1 a2 a3, Kept r (State.slotClear s a1 a2 a3) := by
  intro a1 a2 a3
  unfold State.slotClear
  repeat' (first
    | with_reducible assumption
    | with_reducible refine kept_ite ?_ ?_
    | with_reducible apply kept_modArr
    | with_reducible apply kept_unreside
    | with_reducible apply kept_emptySlot
    )

theorem kept_writeArrCtl {r s : State} (h : Kept r s) : ∀ a1 a2 a3, Kept r (State.writeArrCtl s a1 a2 a3) := by
  intro a1 a2 a3
  unfold State.writeArrCtl
  repeat' (first
    | with_reducible assumption
    | with_reducible refine kept_ite ?_ ?_
    | with_reducible apply kept_writeFields
    | with_reducible apply kept_slotClear
    )

theorem kept_waitEff {r s : State} (h : Kept r s) : ∀ a0 a1 a2, Kept r (waitEff a0 a1 a2 s) := by
  intro a0 a1 a2
  unfold waitEff
  repeat' (first
    | with_reducible assumption
    | with_reducible refine kept_ite ?_ ?_
    | with_reducible apply kept_ldSEff
    | with_reducible apply kept_stSEff
    | with_reducible apply kept_vldEff
    | with_reducible apply kept_vstEff
    | with_reducible apply kept_vgatherEff
    | with_reducible apply kept_vscatterEff
    | intro _
    | dsimp only
    | split
    )

theorem kept_writeAccSat {r s : State} (h : Kept r s) : ∀ a1 a2 a3 a4, Kept r (State.writeAccSat s a1 a2 a3 a4) := by
  intro a1 a2 a3 a4
  unfold State.writeAccSat
  repeat' (first
    | with_reducible assumption
    | with_reducible refine kept_ite ?_ ?_
    | with_reducible apply kept_modArr
    | with_reducible apply kept_writeFields
    )

/-! ### Stook -/

theorem kept_modKey {r s : State} (h : Kept r s) : ∀ a1 a2 a3, Kept r (State.modKey s a1 a2 a3) := by
  intro a1 a2 a3
  unfold State.modKey
  repeat' (first
    | with_reducible assumption
    | with_reducible apply kept_modStook
    )

theorem kept_sealKey {r s : State} (h : Kept r s) : ∀ a1 a2, Kept r (State.sealKey s a1 a2) := by
  intro a1 a2
  unfold State.sealKey
  repeat' (first
    | with_reducible assumption
    | with_reducible refine kept_ite ?_ ?_
    | with_reducible apply kept_modStook
    )

theorem kept_dropTile {r s : State} (h : Kept r s) : ∀ a1 a2, Kept r (State.dropTile s a1 a2) := by
  intro a1 a2
  unfold State.dropTile
  repeat' (first
    | with_reducible assumption
    | with_reducible apply kept_slotClear
    | with_reducible apply kept_modKey
    | intro _
    | dsimp only
    | split
    )

theorem kept_keyRetire {r s : State} (h : Kept r s) : ∀ a1 a2, Kept r (State.keyRetire s a1 a2) := by
  intro a1 a2
  unfold State.keyRetire
  repeat' (first
    | with_reducible assumption
    | with_reducible refine kept_ite ?_ ?_
    | with_reducible apply kept_modKey
    | with_reducible apply kept_dropTile
    )

theorem kept_stookLog {r s : State} (h : Kept r s) : ∀ a1 a2 a3 a4, Kept r (State.stookLog s a1 a2 a3 a4) := by
  intro a1 a2 a3 a4
  unfold State.stookLog
  repeat' (first
    | with_reducible assumption
    | with_reducible refine kept_ite ?_ ?_
    | with_reducible apply kept_wrs
    | with_reducible apply kept_incSat
    )

theorem kept_stookDone {r s : State} (h : Kept r s) : ∀ a1 a2 a3 a4, Kept r (State.stookDone s a1 a2 a3 a4) := by
  intro a1 a2 a3 a4
  unfold State.stookDone
  repeat' (first
    | with_reducible assumption
    | with_reducible refine kept_ite ?_ ?_
    | with_reducible apply kept_touched
    | with_reducible apply kept_addEvt
    | with_reducible apply kept_report
    | with_reducible apply kept_portEvent
    | with_reducible apply kept_stookLog
    | intro _
    | dsimp only
    | split
    )

theorem kept_joinBatch {r s : State} (h : Kept r s) : ∀ a1 a2 a3, Kept r (State.joinBatch s a1 a2 a3) := by
  intro a1 a2 a3
  unfold State.joinBatch
  repeat' (first
    | with_reducible assumption
    | with_reducible refine kept_ite ?_ ?_
    | with_reducible apply kept_modKey
    | with_reducible apply kept_sealKey
    )

theorem kept_stookIntake {r s : State} (h : Kept r s) : ∀ a1 a2 a3, Kept r (State.stookIntake s a1 a2 a3) := by
  intro a1 a2 a3
  unfold State.stookIntake
  repeat' (first
    | with_reducible assumption
    | with_reducible refine kept_ite ?_ ?_
    | with_reducible refine kept2_ite ?_ ?_
    | with_reducible apply kept_free64
    | with_reducible apply kept_stookDone
    | with_reducible apply kept_joinBatch
    | intro _
    | with_reducible apply Kept2.kept
    | with_reducible refine kept_snd (by assumption) ?_
    | dsimp only
    | split
    )

theorem kept_fetchRows {r s : State} (h : Kept r s) : ∀ a1 a2 a3 a4 a5, Kept1 r (State.fetchRows s a1 a2 a3 a4 a5) := by
  intro a1 a2 a3 a4 a5
  induction a5 generalizing s a1 a2 a3 a4 with
  | nil =>
    unfold State.fetchRows
    repeat' (first
      | with_reducible assumption
      | with_reducible refine kept_ite ?_ ?_
      | with_reducible refine keptRd_ite ?_ ?_
      | with_reducible refine kept1_ite ?_ ?_
      | with_reducible apply kept_sWrite
      | with_reducible apply kept_coreRead
      | intro _
      | with_reducible apply KeptRd.kept
      | with_reducible apply Kept1.kept
      | with_reducible refine kept_fst (by assumption) ?_
      | dsimp only
      | split
      | with_reducible refine keptRd_mk ?_ _ _ _
      | with_reducible refine kept1_mk ?_ _
      )
  | cons x l ih =>
    unfold State.fetchRows
    repeat' (first
      | with_reducible apply ih
      | with_reducible assumption
      | with_reducible refine kept_ite ?_ ?_
      | with_reducible refine keptRd_ite ?_ ?_
      | with_reducible refine kept1_ite ?_ ?_
      | with_reducible apply kept_sWrite
      | with_reducible apply kept_coreRead
      | intro _
      | with_reducible apply KeptRd.kept
      | with_reducible apply Kept1.kept
      | with_reducible refine kept_fst (by assumption) ?_
      | dsimp only
      | split
      | with_reducible refine keptRd_mk ?_ _ _ _
      | with_reducible refine kept1_mk ?_ _
      )

theorem kept_loadTile {r s : State} (h : Kept r s) : ∀ a1 a2 a3, Kept1 r (State.loadTile s a1 a2 a3) := by
  intro a1 a2 a3
  unfold State.loadTile
  repeat' (first
    | with_reducible assumption
    | with_reducible refine kept_ite ?_ ?_
    | with_reducible refine keptRd_ite ?_ ?_
    | with_reducible refine kept1_ite ?_ ?_
    | with_reducible apply kept_modStook
    | with_reducible apply kept_modArr
    | with_reducible apply kept_readRanges
    | intro _
    | with_reducible apply KeptRd.kept
    | with_reducible apply Kept1.kept
    | dsimp only
    | split
    | with_reducible refine keptRd_mk ?_ _ _ _
    | with_reducible refine kept1_mk ?_ _
    )

theorem kept_startStookPass {r s : State} (h : Kept r s) : ∀ a1 a2 a3 a4 a5 a6, Kept r (State.startStookPass s a1 a2 a3 a4 a5 a6) := by
  intro a1 a2 a3 a4 a5 a6
  unfold State.startStookPass
  repeat' (first
    | with_reducible assumption
    | with_reducible refine kept_ite ?_ ?_
    | with_reducible apply kept_modStook
    | with_reducible apply kept_modArr
    | with_reducible apply kept_modCore
    | with_reducible apply kept_zeroGroup
    | with_reducible apply kept_count
    | intro _
    | dsimp only
    | split
    | ((with_reducible refine wf_of_eq ?_ ?_ (by assumption)) <;> simp only [setArr_spad, setArr_acc])
    )

theorem kept_dispatchBatch {r s : State} (h : Kept r s) : ∀ a1 a2 a3 a4, Kept r (State.dispatchBatch s a1 a2 a3 a4) := by
  intro a1 a2 a3 a4
  unfold State.dispatchBatch
  repeat' (first
    | with_reducible assumption
    | with_reducible refine kept_ite ?_ ?_
    | with_reducible refine kept1_ite ?_ ?_
    | with_reducible apply kept_modStook
    | with_reducible apply kept_fetchRows
    | with_reducible apply kept_loadTile
    | with_reducible apply kept_startStookPass
    | intro _
    | with_reducible apply Kept1.kept
    | with_reducible refine kept_fst (by assumption) ?_
    | dsimp only
    | split
    | with_reducible refine kept1_mk ?_ _
    )

theorem kept_freeHalf {r s : State} (h : Kept r s) : ∀ a1 a2 a3, Kept r (State.freeHalf s a1 a2 a3) := by
  intro a1 a2 a3
  unfold State.freeHalf
  repeat' (first
    | with_reducible assumption
    | with_reducible apply kept_modStook
    | with_reducible apply kept_modArr
    | with_reducible apply kept_keyRetire
    )

theorem kept_scatterRows {r s : State} (h : Kept r s) : ∀ a1 a2 a3 a4 a5 a6 a7, Kept r (State.scatterRows s a1 a2 a3 a4 a5 a6 a7) := by
  intro a1 a2 a3 a4 a5 a6 a7
  induction a7 generalizing s a1 a2 a3 a4 a5 a6 with
  | nil =>
    unfold State.scatterRows
    repeat' (first
      | with_reducible assumption
      )
  | cons x l ih =>
    unfold State.scatterRows
    repeat' (first
      | with_reducible apply ih
      | with_reducible assumption
      | with_reducible apply kept_accRead
      | with_reducible apply kept_coreWrite
      | intro _
      | with_reducible apply KeptRd.kept
      )

theorem kept_completeReqs {r s : State} (h : Kept r s) : ∀ a1 a2 a3 a4, Kept r (State.completeReqs s a1 a2 a3 a4) := by
  intro a1 a2 a3 a4
  induction a4 generalizing s a1 a2 a3 with
  | nil =>
    unfold State.completeReqs
    repeat' (first
      | with_reducible assumption
      )
  | cons x l ih =>
    unfold State.completeReqs
    repeat' (first
      | with_reducible apply ih
      | with_reducible assumption
      | with_reducible apply kept_stookDone
      )

theorem kept_stookDrop {r s : State} (h : Kept r s) : ∀ a1 a2, (∀ t0 t1 t2, Kept r t0 → Kept r (a2 t0 t1 t2)) → Kept r (State.stookDrop s a1 a2) := by
  intro a1 a2 ha2
  unfold State.stookDrop
  repeat' (first
    | with_reducible assumption
    | with_reducible refine kept_ite ?_ ?_
    | with_reducible refine ha2 _ _ _ ?_
    | with_reducible apply kept_modStook
    | with_reducible apply kept_modArr
    | with_reducible apply kept_keyRetire
    | with_reducible refine kept_foldl ?_ ?_
    | intro _
    | with_reducible apply Kept2.kept
    | with_reducible apply Kept1.kept
    | dsimp only
    | split
    )

theorem kept_stookAbortAll {r s : State} (h : Kept r s) : ∀ a1, Kept r (State.stookAbortAll s a1) := by
  intro a1
  unfold State.stookAbortAll
  repeat' (first
    | with_reducible assumption
    | with_reducible apply kept_stookDone
    | with_reducible apply kept_stookDrop
    | intro _
    )

theorem kept_dropUnowned {r s : State} (h : Kept r s) : ∀ a1, Kept r (State.dropUnowned s a1) := by
  intro a1
  unfold State.dropUnowned
  repeat' (first
    | with_reducible assumption
    | with_reducible refine kept_ite ?_ ?_
    | with_reducible apply kept_modStook
    )

theorem kept_writeStookCtl {r s : State} (h : Kept r s) : ∀ a1 a2, Kept r (State.writeStookCtl s a1 a2) := by
  intro a1 a2
  unfold State.writeStookCtl
  repeat' (first
    | with_reducible assumption
    | with_reducible refine kept_ite ?_ ?_
    | with_reducible apply kept_wr
    | with_reducible apply kept_sealKey
    | with_reducible apply kept_stookAbortAll
    | with_reducible apply kept_dropUnowned
    | with_reducible refine kept_foldl ?_ ?_
    | intro _
    )

theorem kept_writeStookBuf {r s : State} (h : Kept r s) : ∀ a1 a2, Kept r (State.writeStookBuf s a1 a2) := by
  intro a1 a2
  unfold State.writeStookBuf
  repeat' (first
    | with_reducible assumption
    | with_reducible refine kept_ite ?_ ?_
    | with_reducible apply kept_wr
    | with_reducible apply kept_writeFields
    )

theorem kept_bindErr {r s : State} (h : Kept r s) : ∀ a1, Kept r (State.bindErr s a1) := by
  intro a1
  unfold State.bindErr
  repeat' (first
    | with_reducible assumption
    | with_reducible apply kept_wr
    )

theorem kept_unbind {r s : State} (h : Kept r s) : ∀ a1 a2, Kept r (State.unbind s a1 a2) := by
  intro a1 a2
  unfold State.unbind
  repeat' (first
    | with_reducible assumption
    | with_reducible apply kept_wr
    | with_reducible apply kept_modKey
    | with_reducible apply kept_sealKey
    | with_reducible apply kept_dropTile
    | with_reducible apply kept_keyRetire
    )

theorem kept_writeKeyCfg {r s : State} (h : Kept r s) : ∀ a1 a2 a3, Kept r (State.writeKeyCfg s a1 a2 a3) := by
  intro a1 a2 a3
  unfold State.writeKeyCfg
  repeat' (first
    | with_reducible assumption
    | with_reducible refine kept_ite ?_ ?_
    | with_reducible apply kept_setReg
    | with_reducible apply kept_bindErr
    | with_reducible apply kept_unbind
    )

theorem kept_writeKeyDesc {r s : State} (h : Kept r s) : ∀ a1 a2 a3 a4, Kept r (State.writeKeyDesc s a1 a2 a3 a4) := by
  intro a1 a2 a3 a4
  unfold State.writeKeyDesc
  repeat' (first
    | with_reducible assumption
    | with_reducible refine kept_ite ?_ ?_
    | with_reducible apply kept_writeFields
    | with_reducible apply kept_bindErr
    )

/-! ### Window -/

theorem kept_winFault {r s : State} (h : Kept r s) : ∀ a1 a2 a3 a4, Kept r (State.winFault s a1 a2 a3 a4) := by
  intro a1 a2 a3 a4
  unfold State.winFault
  repeat' (first
    | with_reducible assumption
    | with_reducible refine kept_ite ?_ ?_
    | with_reducible apply kept_wrs
    )

theorem kept_modRem {r s : State} (h : Kept r s) : ∀ a1 a2, Kept r (State.modRem s a1 a2) := by
  intro a1 a2
  unfold State.modRem
  repeat' (first
    | with_reducible assumption
    | intro _
    | dsimp only
    | split
    | fail_if_no_progress (with_reducible refine kept_mk ?_ (by rfl) (by rfl) (by rfl) _ _ _ _ _ _ _ _ _ _ _ _ _ _ _ _ _ _ _)
    )

theorem kept_dropRem {r s : State} (h : Kept r s) : ∀ a1, Kept r (State.dropRem s a1) := by
  intro a1
  unfold State.dropRem
  repeat' (first
    | with_reducible assumption
    | intro _
    | dsimp only
    | split
    | fail_if_no_progress (with_reducible refine kept_mk ?_ (by rfl) (by rfl) (by rfl) _ _ _ _ _ _ _ _ _ _ _ _ _ _ _ _ _ _ _)
    )

theorem kept_sendPkt {r s : State} (h : Kept r s) : ∀ a1, Kept r (State.sendPkt s a1) := by
  intro a1
  unfold State.sendPkt
  repeat' (first
    | with_reducible assumption
    | with_reducible refine kept_ite ?_ ?_
    | intro _
    | dsimp only
    | split
    | fail_if_no_progress (with_reducible refine kept_mk ?_ (by rfl) (by rfl) (by rfl) _ _ _ _ _ _ _ _ _ _ _ _ _ _ _ _ _ _ _)
    )

theorem kept_sendOp {r s : State} (h : Kept r s) : ∀ a1, Kept r (State.sendOp s a1) := by
  intro a1
  unfold State.sendOp
  repeat' (first
    | with_reducible assumption
    | with_reducible apply kept_modRem
    | with_reducible apply kept_sendPkt
    | intro _
    | dsimp only
    | split
    | fail_if_no_progress (with_reducible refine kept_mk ?_ (by rfl) (by rfl) (by rfl) _ _ _ _ _ _ _ _ _ _ _ _ _ _ _ _ _ _ _)
    )

theorem kept_pump {r s : State} (h : Kept r s) : Kept r (State.pump s) := by
  unfold State.pump
  repeat' (first
    | with_reducible assumption
    | with_reducible refine kept_ite ?_ ?_
    | with_reducible apply kept_sendOp
    | with_reducible refine kept_foldl ?_ ?_
    | intro _
    | with_reducible apply Kept2.kept
    | with_reducible apply Kept1.kept
    | dsimp only
    | split
    )

theorem kept_modEntry {r s : State} (h : Kept r s) : ∀ a1 a2 a3, Kept r (State.modEntry s a1 a2 a3) := by
  intro a1 a2 a3
  unfold State.modEntry
  repeat' (first
    | with_reducible assumption
    | with_reducible apply kept_modGln
    )

theorem kept_setCtx {r s : State} (h : Kept r s) : ∀ a1 a2, Kept r (State.setCtx s a1 a2) := by
  intro a1 a2
  unfold State.setCtx
  repeat' (first
    | with_reducible assumption
    | intro _
    | dsimp only
    | split
    | fail_if_no_progress (with_reducible refine kept_mk ?_ (by rfl) (by rfl) (by rfl) _ _ _ _ _ _ _ _ _ _ _ _ _ _ _ _ _ _ _)
    )

theorem kept_modCtx {r s : State} (h : Kept r s) : ∀ a1 a2, Kept r (State.modCtx s a1 a2) := by
  intro a1 a2
  unfold State.modCtx
  repeat' (first
    | with_reducible assumption
    | with_reducible apply kept_setCtx
    | intro _
    | dsimp only
    | split
    )

theorem kept_remBlame {r s : State} (h : Kept r s) : ∀ a1 a2, Kept r (State.remBlame s a1 a2) := by
  intro a1 a2
  unfold State.remBlame
  repeat' (first
    | with_reducible assumption
    | with_reducible refine kept_ite ?_ ?_
    | with_reducible apply kept_modCmd
    | with_reducible apply kept_imprecise
    | with_reducible apply kept_modEntry
    | with_reducible apply kept_modCtx
    | intro _
    | dsimp only
    | split
    )

theorem kept_remFail {r s : State} (h : Kept r s) : ∀ a1 a2 a3, Kept r (State.remFail s a1 a2 a3) := by
  intro a1 a2 a3
  unfold State.remFail
  repeat' (first
    | with_reducible assumption
    | with_reducible refine kept_ite ?_ ?_
    | with_reducible apply kept_modRem
    | with_reducible apply kept_dropRem
    | with_reducible apply kept_sendPkt
    | with_reducible apply kept_pump
    | with_reducible apply kept_remBlame
    | with_reducible refine kept_foldl ?_ ?_
    | intro _
    )

theorem kept_copyGot {r s : State} (h : Kept r s) : ∀ a1 a2, Kept r (State.copyGot s a1 a2) := by
  intro a1 a2
  unfold State.copyGot
  repeat' (first
    | with_reducible assumption
    | intro _
    | dsimp only
    | split
    | fail_if_no_progress (with_reducible refine kept_mk ?_ (by rfl) (by rfl) (by rfl) _ _ _ _ _ _ _ _ _ _ _ _ _ _ _ _ _ _ _)
    )

theorem kept_remDeliver {r s : State} (h : Kept r s) : ∀ a1 a2, Kept r (State.remDeliver s a1 a2) := by
  intro a1 a2
  unfold State.remDeliver
  repeat' (first
    | with_reducible assumption
    | with_reducible refine kept_ite ?_ ?_
    | with_reducible apply kept_modSp
    | with_reducible apply kept_modEntry
    | with_reducible apply kept_copyGot
    | intro _
    | dsimp only
    | split
    )

theorem kept_remDone {r s : State} (h : Kept r s) : ∀ a1 a2, Kept r (State.remDone s a1 a2) := by
  intro a1 a2
  unfold State.remDone
  repeat' (first
    | with_reducible assumption
    | with_reducible refine kept_ite ?_ ?_
    | with_reducible apply kept_count
    | with_reducible apply kept_dropRem
    | with_reducible apply kept_pump
    | with_reducible apply kept_remDeliver
    )

theorem kept_setWcache {r s : State} (h : Kept r s) : ∀ a1 a2, Kept r (State.setWcache s a1 a2) := by
  intro a1 a2
  unfold State.setWcache
  repeat' (first
    | with_reducible assumption
    | intro _
    | dsimp only
    | split
    | fail_if_no_progress (with_reducible refine kept_mk ?_ (by rfl) (by rfl) (by rfl) _ _ _ _ _ _ _ _ _ _ _ _ _ _ _ _ _ _ _)
    )

theorem kept_checkEntry {r s : State} (h : Kept r s) : ∀ a1 a2, Kept r (State.checkEntry s a1 a2) := by
  intro a1 a2
  unfold State.checkEntry
  repeat' (first
    | with_reducible assumption
    | with_reducible refine kept_ite ?_ ?_
    | with_reducible apply kept_winFault
    | with_reducible apply kept_modRem
    | with_reducible apply kept_pump
    | with_reducible apply kept_remFail
    )

theorem kept_translate {r s : State} (h : Kept r s) : ∀ a1, Kept r (State.translate s a1) := by
  intro a1
  unfold State.translate
  repeat' (first
    | with_reducible assumption
    | with_reducible refine kept_ite ?_ ?_
    | with_reducible apply kept_incWrap
    | with_reducible apply kept_winFault
    | with_reducible apply kept_modRem
    | with_reducible apply kept_remFail
    | with_reducible apply kept_setWcache
    | with_reducible apply kept_checkEntry
    | intro _
    | dsimp only
    | split
    )

theorem kept_remIssue {r s : State} (h : Kept r s) : ∀ a1, Kept r (State.remIssue s a1) := by
  intro a1
  unfold State.remIssue
  repeat' (first
    | with_reducible assumption
    | with_reducible apply kept_translate
    | intro _
    | dsimp only
    | split
    | fail_if_no_progress (with_reducible refine kept_mk ?_ (by rfl) (by rfl) (by rfl) _ _ _ _ _ _ _ _ _ _ _ _ _ _ _ _ _ _ _)
    )

/-! ### Gleaner -/

theorem kept_glnEnter {r s : State} (h : Kept r s) : ∀ a1 a2 a3 a4 a5 a6 a7 a8, Kept r (State.glnEnter s a1 a2 a3 a4 a5 a6 a7 a8) := by
  intro a1 a2 a3 a4 a5 a6 a7 a8
  unfold State.glnEnter
  repeat' (first
    | with_reducible assumption
    | with_reducible refine kept_ite ?_ ?_
    | with_reducible apply kept_modGln
    )

theorem kept_glnIssue {r s : State} (h : Kept r s) : ∀ a0 a1 a2 a3, Kept r (glnIssue a0 a1 a2 a3 s) := by
  intro a0 a1 a2 a3
  unfold glnIssue
  repeat' (first
    | with_reducible assumption
    | with_reducible refine kept_ite ?_ ?_
    | with_reducible refine keptRd_ite ?_ ?_
    | with_reducible apply kept_sRead
    | with_reducible apply kept_precise
    | with_reducible apply kept_issue
    | with_reducible apply kept_retire
    | with_reducible apply kept_glnEnter
    | intro _
    | with_reducible apply KeptRd.kept
    )

theorem kept_GRun_failAt {r : State} {g : GRun} (h : KeptG r g) : ∀ a1 a2 a3, KeptG r (GRun.failAt g a1 a2 a3) := by
  intro a1 a2 a3
  unfold GRun.failAt
  repeat' (first
    | with_reducible assumption
    | intro _
    | dsimp only
    | split
    | with_reducible refine KeptG.kept ?_
    | with_reducible refine keptG_mk ?_ _ _ _ _ _ _
    )

theorem kept_gLoop {r : State} {g : GRun} (h : KeptG r g) : ∀ a0 a1 a2, (∀ t0 t1, KeptG r t1 → KeptG r (a0 t0 t1)) → KeptG r (gLoop a0 a1 a2 g) := by
  intro a0 a1 a2 ha0
  induction a1 generalizing g a0 a2 with
  | zero =>
    unfold gLoop
    repeat' (first
      | with_reducible assumption
      )
  | succ n ih =>
    unfold gLoop
    repeat' (first
      | with_reducible apply ih
      | with_reducible assumption
      | with_reducible refine kept_ite ?_ ?_
      | with_reducible refine keptG_ite ?_ ?_
      | with_reducible refine ha0 _ _ ?_
      | with_reducible apply keptRd_ok
      | intro _
      | dsimp only
      | split
      | with_reducible refine KeptG.kept ?_
      | with_reducible refine keptG_mk ?_ _ _ _ _ _ _
      )

theorem kept_GRun_take {r : State} {g : GRun} {x : Rd} (h : KeptRd r x) : KeptG2 r (g.take x) := h

theorem kept_GRun_list {r : State} {g : GRun} (h : KeptG r g) : ∀ a1 a2 a3 a4 a5 a6, KeptG2 r (GRun.list g a1 a2 a3 a4 a5 a6) := by
  intro a1 a2 a3 a4 a5 a6
  unfold GRun.list
  repeat' (first
    | with_reducible assumption
    | with_reducible refine kept_ite ?_ ?_
    | with_reducible refine keptRd_ite ?_ ?_
    | with_reducible refine keptG_ite ?_ ?_
    | with_reducible refine keptG2_ite ?_ ?_
    | with_reducible apply kept_coreRead
    | with_reducible apply kept_GRun_failAt
    | with_reducible apply kept_GRun_take
    | intro _
    | with_reducible apply KeptRd.kept
    | dsimp only
    | split
    | with_reducible refine KeptG.kept ?_
    | with_reducible refine KeptG2.kept ?_
    | with_reducible refine keptRd_mk ?_ _ _ _
    | with_reducible refine keptG_mk ?_ _ _ _ _ _ _
    | with_reducible refine keptG2_mk ?_ _
    )

theorem kept_glnStore {r s : State} (h : Kept r s) : ∀ a1 a2 a3 a4 a5 a6, KeptRd r (State.glnStore s a1 a2 a3 a4 a5 a6) := by
  intro a1 a2 a3 a4 a5 a6
  unfold State.glnStore
  repeat' (first
    | with_reducible assumption
    | with_reducible refine kept_ite ?_ ?_
    | with_reducible refine keptRd_ite ?_ ?_
    | with_reducible apply kept_modSp
    | with_reducible apply kept_coreWriteRd
    | intro _
    | with_reducible apply KeptRd.kept
    | dsimp only
    | split
    | with_reducible refine keptRd_mk ?_ _ _ _
    )

theorem kept_GRun_put {r : State} {g : GRun} (h : KeptG r g) : ∀ a1 a2 a3 a4 a5 a6, KeptG r (GRun.put g a1 a2 a3 a4 a5 a6) := by
  intro a1 a2 a3 a4 a5 a6
  unfold GRun.put
  repeat' (first
    | with_reducible assumption
    | with_reducible refine kept_ite ?_ ?_
    | with_reducible refine keptRd_ite ?_ ?_
    | with_reducible refine keptG_ite ?_ ?_
    | with_reducible refine keptG2_ite ?_ ?_
    | with_reducible apply kept_GRun_failAt
    | with_reducible apply kept_GRun_take
    | with_reducible apply kept_glnStore
    | intro _
    | with_reducible apply KeptRd.kept
    | dsimp only
    | split
    | with_reducible refine KeptG.kept ?_
    | with_reducible refine KeptG2.kept ?_
    )

theorem kept_rcRead {r s : State} (h : Kept r s) : ∀ a1 a2 a3 a4 a5 a6, KeptRd r (State.rcRead s a1 a2 a3 a4 a5 a6) := by
  intro a1 a2 a3 a4 a5 a6
  unfold State.rcRead
  repeat' (first
    | with_reducible assumption
    | with_reducible refine kept_ite ?_ ?_
    | with_reducible refine keptRd_ite ?_ ?_
    | with_reducible refine keptG_ite ?_ ?_
    | with_reducible refine keptG2_ite ?_ ?_
    | with_reducible apply kept_modGln
    | with_reducible apply kept_incSat
    | with_reducible apply kept_count
    | with_reducible apply kept_eRead
    | with_reducible apply kept_GRun_take
    | with_reducible apply keptRd_ok
    | intro _
    | with_reducible apply KeptRd.kept
    | dsimp only
    | split
    | with_reducible refine KeptG.kept ?_
    | with_reducible refine KeptG2.kept ?_
    | with_reducible refine keptRd_mk ?_ _ _ _
    )

theorem kept_GRun_table {r : State} {g : GRun} (h : KeptG r g) : ∀ a1 a2 a3 a4 a5, KeptG2 r (GRun.table g a1 a2 a3 a4 a5) := by
  intro a1 a2 a3 a4 a5
  unfold GRun.table
  repeat' (first
    | with_reducible assumption
    | with_reducible refine kept_ite ?_ ?_
    | with_reducible refine keptRd_ite ?_ ?_
    | with_reducible refine keptG_ite ?_ ?_
    | with_reducible refine keptG2_ite ?_ ?_
    | with_reducible apply kept_coreRead
    | with_reducible apply kept_GRun_failAt
    | with_reducible apply kept_GRun_take
    | with_reducible apply kept_rcRead
    | with_reducible refine kept_foldl ?_ ?_
    | with_reducible refine keptRd_foldl ?_ ?_
    | with_reducible refine keptG_foldl ?_ ?_
    | with_reducible refine keptG2_foldl ?_ ?_
    | intro _
    | with_reducible apply KeptRd.kept
    | with_reducible apply Kept2.kept
    | with_reducible apply Kept1.kept
    | dsimp only
    | split
    | with_reducible refine KeptG.kept ?_
    | with_reducible refine KeptG2.kept ?_
    | with_reducible refine keptRd_mk ?_ _ _ _
    | with_reducible refine keptG_mk ?_ _ _ _ _ _ _
    | with_reducible refine keptG2_mk ?_ _
    )

theorem kept_GRun_index {r : State} {g : GRun} (h : KeptG r g) : ∀ a1 a2 a3, KeptG2 r (GRun.index g a1 a2 a3) := by
  intro a1 a2 a3
  unfold GRun.index
  repeat' (first
    | with_reducible assumption
    | with_reducible apply kept_GRun_list
    )

theorem kept_GRun_oor {r : State} {g : GRun} (h : KeptG r g) : ∀ a1 a2 a3, KeptG r (GRun.oor g a1 a2 a3) := by
  intro a1 a2 a3
  unfold GRun.oor
  repeat' (first
    | with_reducible assumption
    | with_reducible refine kept_ite ?_ ?_
    | with_reducible refine keptG_ite ?_ ?_
    | with_reducible apply kept_incSat
    | with_reducible apply kept_GRun_failAt
    | intro _
    | dsimp only
    | split
    | with_reducible refine KeptG.kept ?_
    | with_reducible refine keptG_mk ?_ _ _ _ _ _ _
    )

theorem kept_gatherRow {r : State} {g : GRun} (h : KeptG r g) : ∀ a0 a1 a2, KeptG2 r (gatherRow a0 a1 a2 g) := by
  intro a0 a1 a2
  unfold gatherRow
  repeat' (first
    | with_reducible assumption
    | with_reducible refine kept_ite ?_ ?_
    | with_reducible refine keptG_ite ?_ ?_
    | with_reducible refine keptG2_ite ?_ ?_
    | with_reducible apply kept_GRun_table
    | with_reducible apply kept_GRun_index
    | with_reducible apply kept_GRun_oor
    | with_reducible apply keptRd_ok
    | intro _
    | dsimp only
    | split
    | with_reducible refine KeptG.kept ?_
    | with_reducible refine KeptG2.kept ?_
    | with_reducible refine keptG_mk ?_ _ _ _ _ _ _
    | with_reducible refine keptG2_mk ?_ _
    )

theorem kept_segPos {r : State} {g : GRun} (h : KeptG r g) : ∀ a0 a1 a2 a3, KeptG2 r (segPos a0 a1 a2 a3 g) := by
  intro a0 a1 a2 a3
  unfold segPos
  repeat' (first
    | with_reducible assumption
    | with_reducible refine kept_ite ?_ ?_
    | with_reducible refine keptG_ite ?_ ?_
    | with_reducible refine keptG2_ite ?_ ?_
    | with_reducible apply kept_GRun_table
    | with_reducible apply kept_GRun_index
    | with_reducible apply kept_GRun_oor
    | with_reducible apply keptRd_ok
    | intro _
    | dsimp only
    | split
    | with_reducible refine KeptG.kept ?_
    | with_reducible refine KeptG2.kept ?_
    | with_reducible refine keptG_mk ?_ _ _ _ _ _ _
    | with_reducible refine keptG2_mk ?_ _
    )

theorem kept_segLoop {r : State} {g : GRun} (h : KeptG r g) : ∀ a0 a1 a2 a3 a4, KeptG2 r (segLoop a0 a1 a2 a3 a4 g) := by
  intro a0 a1 a2 a3 a4
  induction a2 generalizing g a0 a1 a3 a4 with
  | zero =>
    unfold segLoop
    repeat' (first
      | with_reducible assumption
      | with_reducible refine kept_ite ?_ ?_
      | with_reducible refine keptG_ite ?_ ?_
      | with_reducible refine keptG2_ite ?_ ?_
      | with_reducible apply kept_segPos
      | with_reducible apply keptRd_ok
      | intro _
      | dsimp only
      | split
      | with_reducible refine KeptG.kept ?_
      | with_reducible refine KeptG2.kept ?_
      | with_reducible refine keptG_mk ?_ _ _ _ _ _ _
      | with_reducible refine keptG2_mk ?_ _
      )
  | succ n ih =>
    unfold segLoop
    repeat' (first
      | with_reducible apply ih
      | with_reducible assumption
      | with_reducible refine kept_ite ?_ ?_
      | with_reducible refine keptG_ite ?_ ?_
      | with_reducible refine keptG2_ite ?_ ?_
      | with_reducible apply kept_segPos
      | with_reducible apply keptRd_ok
      | intro _
      | dsimp only
      | split
      | with_reducible refine KeptG.kept ?_
      | with_reducible refine KeptG2.kept ?_
      | with_reducible refine keptG_mk ?_ _ _ _ _ _ _
      | with_reducible refine keptG2_mk ?_ _
      )

theorem kept_segRow {r : State} {g : GRun} (h : KeptG r g) : ∀ a0 a1 a2, KeptG2 r (segRow a0 a1 a2 g) := by
  intro a0 a1 a2
  unfold segRow
  repeat' (first
    | with_reducible assumption
    | with_reducible refine kept_ite ?_ ?_
    | with_reducible refine keptG_ite ?_ ?_
    | with_reducible refine keptG2_ite ?_ ?_
    | with_reducible apply kept_incSat
    | with_reducible apply kept_GRun_failAt
    | with_reducible apply kept_GRun_list
    | with_reducible apply kept_segLoop
    | with_reducible apply keptRd_ok
    | intro _
    | dsimp only
    | split
    | with_reducible refine KeptG.kept ?_
    | with_reducible refine KeptG2.kept ?_
    | with_reducible refine keptG_mk ?_ _ _ _ _ _ _
    | with_reducible refine keptG2_mk ?_ _
    )

theorem kept_outRow {r : State} {g : GRun} (h : KeptG r g) : ∀ a0 a1 a2, KeptG2 r (outRow a0 a1 a2 g) := by
  intro a0 a1 a2
  unfold outRow
  repeat' (first
    | with_reducible assumption
    | with_reducible refine kept_ite ?_ ?_
    | with_reducible refine keptG_ite ?_ ?_
    | with_reducible refine keptG2_ite ?_ ?_
    | with_reducible apply kept_gatherRow
    | with_reducible apply kept_segRow
    )

theorem kept_putRow {r : State} {g : GRun} (h : KeptG r g) : ∀ a0 a1 a2, KeptG r (putRow a0 a1 a2 g) := by
  intro a0 a1 a2
  unfold putRow
  repeat' (first
    | with_reducible assumption
    | with_reducible refine kept_ite ?_ ?_
    | with_reducible refine keptG_ite ?_ ?_
    | with_reducible refine keptG2_ite ?_ ?_
    | with_reducible apply kept_GRun_put
    | with_reducible apply kept_outRow
    | with_reducible apply keptRd_ok
    | intro _
    | dsimp only
    | split
    | with_reducible refine KeptG.kept ?_
    | with_reducible refine KeptG2.kept ?_
    )

theorem kept_addLocal {r : State} {g : GRun} (h : KeptG r g) : ∀ a0 a1 a2 a3 a4 a5 a6, KeptG r (addLocal a0 a1 a2 a3 a4 a5 a6 g) := by
  intro a0 a1 a2 a3 a4 a5 a6
  unfold addLocal
  repeat' (first
    | with_reducible assumption
    | with_reducible refine kept_ite ?_ ?_
    | with_reducible refine keptRd_ite ?_ ?_
    | with_reducible refine keptG_ite ?_ ?_
    | with_reducible refine keptG2_ite ?_ ?_
    | with_reducible apply kept_modGln
    | with_reducible apply kept_coreRead
    | with_reducible apply kept_GRun_failAt
    | with_reducible apply kept_GRun_take
    | with_reducible apply kept_glnStore
    | intro _
    | with_reducible apply KeptRd.kept
    | dsimp only
    | split
    | with_reducible refine KeptG.kept ?_
    | with_reducible refine KeptG2.kept ?_
    | with_reducible refine keptRd_mk ?_ _ _ _
    | with_reducible refine keptG_mk ?_ _ _ _ _ _ _
    )

theorem kept_scatSource {r : State} {g : GRun} (h : KeptG r g) : ∀ a0 a1 a2, KeptG2 r (scatSource a0 a1 a2 g) := by
  intro a0 a1 a2
  unfold scatSource
  repeat' (first
    | with_reducible assumption
    | with_reducible refine kept_ite ?_ ?_
    | with_reducible refine keptRd_ite ?_ ?_
    | with_reducible refine keptG_ite ?_ ?_
    | with_reducible refine keptG2_ite ?_ ?_
    | with_reducible apply kept_coreRead
    | with_reducible apply kept_GRun_failAt
    | with_reducible apply kept_GRun_take
    | intro _
    | with_reducible apply KeptRd.kept
    | dsimp only
    | split
    | with_reducible refine KeptG.kept ?_
    | with_reducible refine KeptG2.kept ?_
    | with_reducible refine keptRd_mk ?_ _ _ _
    | with_reducible refine keptG_mk ?_ _ _ _ _ _ _
    | with_reducible refine keptG2_mk ?_ _
    )

theorem kept_scatRow {r : State} {g : GRun} (h : KeptG r g) : ∀ a0 a1 a2, KeptG r (scatRow a0 a1 a2 g) := by
  intro a0 a1 a2
  unfold scatRow
  repeat' (first
    | with_reducible assumption
    | with_reducible refine kept_ite ?_ ?_
    | with_reducible refine keptG_ite ?_ ?_
    | with_reducible refine keptG2_ite ?_ ?_
    | with_reducible apply kept_GRun_failAt
    | with_reducible apply kept_GRun_index
    | with_reducible apply kept_GRun_oor
    | with_reducible apply kept_addLocal
    | with_reducible apply kept_scatSource
    | with_reducible apply keptRd_ok
    | with_reducible refine kept_foldl ?_ ?_
    | with_reducible refine keptG_foldl ?_ ?_
    | with_reducible refine keptG2_foldl ?_ ?_
    | intro _
    | with_reducible apply Kept2.kept
    | with_reducible apply Kept1.kept
    | dsimp only
    | split
    | with_reducible refine KeptG.kept ?_
    | with_reducible refine KeptG2.kept ?_
    )

theorem kept_Lst_load {r : State} {g : GRun} (h : KeptG r g) : ∀ a0 a1 a2, KeptG2 r (Lst.load a0 a1 a2 g) := by
  intro a0 a1 a2
  unfold Lst.load
  repeat' (first
    | with_reducible assumption
    | with_reducible refine kept_ite ?_ ?_
    | with_reducible refine keptG_ite ?_ ?_
    | with_reducible refine keptG2_ite ?_ ?_
    | with_reducible apply kept_GRun_failAt
    | with_reducible apply kept_GRun_list
    | with_reducible apply keptRd_ok
    | intro _
    | dsimp only
    | split
    | with_reducible refine KeptG.kept ?_
    | with_reducible refine KeptG2.kept ?_
    | with_reducible refine keptG_mk ?_ _ _ _ _ _ _
    | with_reducible refine keptG2_mk ?_ _
    )

theorem kept_listOut {r : State} {g : GRun} (h : KeptG r g) : ∀ a0 a1 a2 a3 a4, KeptG r (listOut a0 a1 a2 a3 a4 g) := by
  intro a0 a1 a2 a3 a4
  unfold listOut
  repeat' (first
    | with_reducible assumption
    | with_reducible refine kept_ite ?_ ?_
    | with_reducible refine keptG_ite ?_ ?_
    | with_reducible apply kept_GRun_put
    )

theorem kept_mergeLoop {r : State} {g : GRun} (h : KeptG r g) : ∀ a0 a1 a2 a3 a4 a5, KeptG2 r (mergeLoop a0 a1 a2 a3 a4 a5 g) := by
  intro a0 a1 a2 a3 a4 a5
  induction a2 generalizing g a0 a1 a3 a4 a5 with
  | zero =>
    unfold mergeLoop
    repeat' (first
      | with_reducible assumption
      | with_reducible refine kept_ite ?_ ?_
      | with_reducible refine keptG_ite ?_ ?_
      | with_reducible refine keptG2_ite ?_ ?_
      | with_reducible apply kept_Lst_load
      | with_reducible apply kept_listOut
      | with_reducible apply keptRd_ok
      | intro _
      | dsimp only
      | split
      | with_reducible refine KeptG.kept ?_
      | with_reducible refine KeptG2.kept ?_
      | with_reducible refine keptG_mk ?_ _ _ _ _ _ _
      | with_reducible refine keptG2_mk ?_ _
      )
  | succ n ih =>
    unfold mergeLoop
    repeat' (first
      | with_reducible apply ih
      | with_reducible assumption
      | with_reducible refine kept_ite ?_ ?_
      | with_reducible refine keptG_ite ?_ ?_
      | with_reducible refine keptG2_ite ?_ ?_
      | with_reducible apply kept_Lst_load
      | with_reducible apply kept_listOut
      | with_reducible apply keptRd_ok
      | intro _
      | dsimp only
      | split
      | with_reducible refine KeptG.kept ?_
      | with_reducible refine KeptG2.kept ?_
      | with_reducible refine keptG_mk ?_ _ _ _ _ _ _
      | with_reducible refine keptG2_mk ?_ _
      )

theorem kept_isectLoop {r : State} {g : GRun} (h : KeptG r g) : ∀ a0 a1 a2 a3 a4 a5, KeptG2 r (isectLoop a0 a1 a2 a3 a4 a5 g) := by
  intro a0 a1 a2 a3 a4 a5
  induction a2 generalizing g a0 a1 a3 a4 a5 with
  | zero =>
    unfold isectLoop
    repeat' (first
      | with_reducible assumption
      | with_reducible refine kept_ite ?_ ?_
      | with_reducible refine keptG_ite ?_ ?_
      | with_reducible refine keptG2_ite ?_ ?_
      | with_reducible apply kept_Lst_load
      | with_reducible apply kept_listOut
      | with_reducible apply keptRd_ok
      | intro _
      | dsimp only
      | split
      | with_reducible refine KeptG.kept ?_
      | with_reducible refine KeptG2.kept ?_
      | with_reducible refine keptG_mk ?_ _ _ _ _ _ _
      | with_reducible refine keptG2_mk ?_ _
      )
  | succ n ih =>
    unfold isectLoop
    repeat' (first
      | with_reducible apply ih
      | with_reducible assumption
      | with_reducible refine kept_ite ?_ ?_
      | with_reducible refine keptG_ite ?_ ?_
      | with_reducible refine keptG2_ite ?_ ?_
      | with_reducible apply kept_Lst_load
      | with_reducible apply kept_listOut
      | with_reducible apply keptRd_ok
      | intro _
      | dsimp only
      | split
      | with_reducible refine KeptG.kept ?_
      | with_reducible refine KeptG2.kept ?_
      | with_reducible refine keptG_mk ?_ _ _ _ _ _ _
      | with_reducible refine keptG2_mk ?_ _
      )

theorem kept_listOp {r : State} {g : GRun} (h : KeptG r g) : ∀ a0 a1, KeptG2 r (listOp a0 a1 g) := by
  intro a0 a1
  unfold listOp
  repeat' (first
    | with_reducible assumption
    | with_reducible refine kept_ite ?_ ?_
    | with_reducible refine keptG_ite ?_ ?_
    | with_reducible refine keptG2_ite ?_ ?_
    | with_reducible apply kept_mergeLoop
    | with_reducible apply kept_isectLoop
    )

theorem kept_sortRead {r : State} {g : GRun} (h : KeptG r g) : ∀ a0 a1 a2 a3, KeptG2 r (sortRead a0 a1 a2 a3 g) := by
  intro a0 a1 a2 a3
  induction a2 generalizing g a0 a1 a3 with
  | zero =>
    unfold sortRead
    repeat' (first
      | with_reducible assumption
      | with_reducible refine kept_ite ?_ ?_
      | with_reducible refine keptRd_ite ?_ ?_
      | with_reducible refine keptG_ite ?_ ?_
      | with_reducible refine keptG2_ite ?_ ?_
      | with_reducible apply kept_coreRead
      | with_reducible apply kept_GRun_failAt
      | with_reducible apply kept_GRun_take
      | intro _
      | with_reducible apply KeptRd.kept
      | dsimp only
      | split
      | with_reducible refine KeptG.kept ?_
      | with_reducible refine KeptG2.kept ?_
      | with_reducible refine keptRd_mk ?_ _ _ _
      | with_reducible refine keptG_mk ?_ _ _ _ _ _ _
      | with_reducible refine keptG2_mk ?_ _
      )
  | succ n ih =>
    unfold sortRead
    repeat' (first
      | with_reducible apply ih
      | with_reducible assumption
      | with_reducible refine kept_ite ?_ ?_
      | with_reducible refine keptRd_ite ?_ ?_
      | with_reducible refine keptG_ite ?_ ?_
      | with_reducible refine keptG2_ite ?_ ?_
      | with_reducible apply kept_coreRead
      | with_reducible apply kept_GRun_failAt
      | with_reducible apply kept_GRun_take
      | intro _
      | with_reducible apply KeptRd.kept
      | dsimp only
      | split
      | with_reducible refine KeptG.kept ?_
      | with_reducible refine KeptG2.kept ?_
      | with_reducible refine keptRd_mk ?_ _ _ _
      | with_reducible refine keptG_mk ?_ _ _ _ _ _ _
      | with_reducible refine keptG2_mk ?_ _
      )

theorem kept_sortWrite {r : State} {g : GRun} (h : KeptG r g) : ∀ a0 a1 a2 a3, KeptG r (sortWrite a0 a1 a2 a3 g) := by
  intro a0 a1 a2 a3
  unfold sortWrite
  repeat' (first
    | with_reducible assumption
    | with_reducible refine kept_ite ?_ ?_
    | with_reducible refine keptG_ite ?_ ?_
    | with_reducible apply kept_GRun_put
    | with_reducible apply keptRd_ok
    | with_reducible refine kept_foldl ?_ ?_
    | with_reducible refine keptG_foldl ?_ ?_
    | intro _
    )

theorem kept_sortPasses {r : State} {g : GRun} (h : KeptG r g) : ∀ a0 a1 a2 a3 a4, KeptG r (sortPasses a0 a1 a2 a3 a4 g) := by
  intro a0 a1 a2 a3 a4
  induction a2 generalizing g a0 a1 a3 a4 with
  | zero =>
    unfold sortPasses
    repeat' (first
      | with_reducible assumption
      )
  | succ n ih =>
    unfold sortPasses
    repeat' (first
      | with_reducible apply ih
      | with_reducible assumption
      | with_reducible refine kept_ite ?_ ?_
      | with_reducible refine keptG_ite ?_ ?_
      | with_reducible apply kept_sortWrite
      )

theorem kept_probeLoop {r : State} {g : GRun} (h : KeptG r g) : ∀ a0 a1 a2 a3 a4 a5, KeptG2 r (probeLoop a0 a1 a2 a3 a4 a5 g) := by
  intro a0 a1 a2 a3 a4 a5
  induction a4 generalizing g a0 a1 a2 a3 a5 with
  | zero =>
    unfold probeLoop
    repeat' (first
      | with_reducible assumption
      | with_reducible refine kept_ite ?_ ?_
      | with_reducible refine keptG_ite ?_ ?_
      | with_reducible refine keptG2_ite ?_ ?_
      | with_reducible apply kept_incSat
      | with_reducible apply kept_GRun_table
      | with_reducible apply keptRd_ok
      | intro _
      | dsimp only
      | split
      | with_reducible refine KeptG.kept ?_
      | with_reducible refine KeptG2.kept ?_
      | with_reducible refine keptG_mk ?_ _ _ _ _ _ _
      | with_reducible refine keptG2_mk ?_ _
      )
  | succ n ih =>
    unfold probeLoop
    repeat' (first
      | with_reducible apply ih
      | with_reducible assumption
      | with_reducible refine kept_ite ?_ ?_
      | with_reducible refine keptG_ite ?_ ?_
      | with_reducible refine keptG2_ite ?_ ?_
      | with_reducible apply kept_incSat
      | with_reducible apply kept_GRun_table
      | with_reducible apply keptRd_ok
      | intro _
      | dsimp only
      | split
      | with_reducible refine KeptG.kept ?_
      | with_reducible refine KeptG2.kept ?_
      | with_reducible refine keptG_mk ?_ _ _ _ _ _ _
      | with_reducible refine keptG2_mk ?_ _
      )

theorem kept_probeKey {r : State} {g : GRun} (h : KeptG r g) : ∀ a0 a1 a2, KeptG r (probeKey a0 a1 a2 g) := by
  intro a0 a1 a2
  unfold probeKey
  repeat' (first
    | with_reducible assumption
    | with_reducible refine kept_ite ?_ ?_
    | with_reducible refine keptG_ite ?_ ?_
    | with_reducible refine keptG2_ite ?_ ?_
    | with_reducible apply kept_GRun_put
    | with_reducible apply kept_GRun_index
    | with_reducible apply kept_probeLoop
    | with_reducible apply keptRd_ok
    | intro _
    | dsimp only
    | split
    | with_reducible refine KeptG.kept ?_
    | with_reducible refine KeptG2.kept ?_
    | with_reducible refine keptG_mk ?_ _ _ _ _ _ _
    )

theorem kept_gEval {r s : State} (h : Kept r s) : ∀ a0 a1, KeptG2 r (gEval a0 a1 s) := by
  intro a0 a1
  unfold gEval
  repeat' (first
    | with_reducible assumption
    | with_reducible refine kept_ite ?_ ?_
    | with_reducible refine keptG_ite ?_ ?_
    | with_reducible refine keptG2_ite ?_ ?_
    | with_reducible apply kept_GRun_failAt
    | with_reducible apply kept_gLoop
    | with_reducible apply kept_putRow
    | with_reducible apply kept_scatRow
    | with_reducible apply kept_listOp
    | with_reducible apply kept_sortRead
    | with_reducible apply kept_sortPasses
    | with_reducible apply kept_probeKey
    | intro _
    | dsimp only
    | split
    | with_reducible refine KeptG.kept ?_
    | with_reducible refine KeptG2.kept ?_
    | with_reducible refine keptG_mk ?_ _ _ _ _ _ _
    | with_reducible refine keptG2_mk ?_ _
    )

theorem kept_gRowEval {r s : State} (h : Kept r s) : ∀ a0 a1, KeptG2 r (gRowEval a0 a1 s) := by
  intro a0 a1
  unfold gRowEval
  repeat' (first
    | with_reducible assumption
    | with_reducible refine kept_ite ?_ ?_
    | with_reducible refine keptG_ite ?_ ?_
    | with_reducible refine keptG2_ite ?_ ?_
    | with_reducible apply kept_outRow
    | intro _
    | dsimp only
    | split
    | with_reducible refine KeptG.kept ?_
    | with_reducible refine KeptG2.kept ?_
    | with_reducible refine keptG_mk ?_ _ _ _ _ _ _
    | with_reducible refine keptG2_mk ?_ _
    )

theorem kept_glnFetch {r s : State} (h : Kept r s) : ∀ a1 a2, Kept r (State.glnFetch s a1 a2) := by
  intro a1 a2
  unfold State.glnFetch
  repeat' (first
    | with_reducible assumption
    | with_reducible refine kept_ite ?_ ?_
    | with_reducible refine keptG_ite ?_ ?_
    | with_reducible refine keptG2_ite ?_ ?_
    | with_reducible apply kept_remIssue
    | with_reducible apply kept_gEval
    | with_reducible apply kept_gRowEval
    | with_reducible refine kept_foldl ?_ ?_
    | with_reducible refine keptG_foldl ?_ ?_
    | with_reducible refine keptG2_foldl ?_ ?_
    | intro _
    )

theorem kept_scatPieces {r : State} {g : GRun} (h : KeptG r g) : ∀ a0 a1 a2, KeptG2 r (scatPieces a0 a1 a2 g) := by
  intro a0 a1 a2
  unfold scatPieces
  repeat' (first
    | with_reducible assumption
    | with_reducible refine kept_ite ?_ ?_
    | with_reducible refine keptG_ite ?_ ?_
    | with_reducible refine keptG2_ite ?_ ?_
    | with_reducible apply kept_GRun_take
    | with_reducible apply kept_GRun_index
    | with_reducible apply kept_GRun_oor
    | with_reducible apply kept_scatSource
    | with_reducible apply keptRd_ok
    | intro _
    | dsimp only
    | split
    | with_reducible refine KeptG.kept ?_
    | with_reducible refine KeptG2.kept ?_
    | with_reducible refine keptG_mk ?_ _ _ _ _ _ _
    | with_reducible refine keptG2_mk ?_ _
    )

theorem kept_glnFlags {r s : State} (h : Kept r s) : ∀ a1 a2, Kept r (State.glnFlags s a1 a2) := by
  intro a1 a2
  unfold State.glnFlags
  repeat' (first
    | with_reducible assumption
    | with_reducible refine kept_ite ?_ ?_
    | with_reducible refine keptG_ite ?_ ?_
    | with_reducible apply kept_wr
    )

theorem kept_glnScatter {r s : State} (h : Kept r s) : ∀ a1 a2 a3, Kept r (State.glnScatter s a1 a2 a3) := by
  intro a1 a2 a3
  induction a3 generalizing s a1 a2 with
  | zero =>
    unfold State.glnScatter
    repeat' (first
      | with_reducible assumption
      )
  | succ n ih =>
    unfold State.glnScatter
    repeat' (first
      | with_reducible apply ih
      | with_reducible assumption
      | with_reducible refine kept_ite ?_ ?_
      | with_reducible refine keptG_ite ?_ ?_
      | with_reducible refine keptG2_ite ?_ ?_
      | with_reducible apply kept_modEntry
      | with_reducible apply kept_remIssue
      | with_reducible apply kept_scatPieces
      | with_reducible apply kept_glnFlags
      | with_reducible apply keptRd_ok
      | with_reducible refine kept_foldl ?_ ?_
      | with_reducible refine keptG_foldl ?_ ?_
      | with_reducible refine keptG2_foldl ?_ ?_
      | intro _
      | with_reducible apply Kept2.kept
      | with_reducible apply Kept1.kept
      | dsimp only
      | split
      | with_reducible refine KeptG.kept ?_
      | with_reducible refine KeptG2.kept ?_
      | with_reducible refine keptG_mk ?_ _ _ _ _ _ _
      )

theorem kept_glnPump {r s : State} (h : Kept r s) : ∀ a1 a2, Kept r (State.glnPump s a1 a2) := by
  intro a1 a2
  unfold State.glnPump
  repeat' (first
    | with_reducible assumption
    | with_reducible refine kept_ite ?_ ?_
    | with_reducible apply kept_glnFetch
    | with_reducible apply kept_glnScatter
    | intro _
    | dsimp only
    | split
    )

theorem kept_glnPumpAll {r s : State} (h : Kept r s) : ∀ a1, Kept r (State.glnPumpAll s a1) := by
  intro a1
  unfold State.glnPumpAll
  repeat' (first
    | with_reducible assumption
    | with_reducible apply kept_glnPump
    | with_reducible refine kept_foldl ?_ ?_
    | intro _
    )

theorem kept_glnLeave {r s : State} (h : Kept r s) : ∀ a1 a2 a3 a4, Kept r (State.glnLeave s a1 a2 a3 a4) := by
  intro a1 a2 a3 a4
  unfold State.glnLeave
  repeat' (first
    | with_reducible assumption
    | with_reducible refine kept_ite ?_ ?_
    | with_reducible refine keptRd_ite ?_ ?_
    | with_reducible apply kept_modGln
    | with_reducible apply kept_touched
    | with_reducible apply kept_report
    | with_reducible apply kept_glnSignal
    | with_reducible apply kept_glnStore
    | intro _
    | with_reducible apply KeptRd.kept
    | dsimp only
    | split
    )

theorem kept_glnFail {r s : State} (h : Kept r s) : ∀ a1 a2 a3 a4 a5 a6, Kept r (State.glnFail s a1 a2 a3 a4 a5 a6) := by
  intro a1 a2 a3 a4 a5 a6
  unfold State.glnFail
  repeat' (first
    | with_reducible assumption
    | with_reducible refine kept_ite ?_ ?_
    | with_reducible apply kept_modGln
    | with_reducible apply kept_wrs
    | with_reducible apply kept_incSat
    | with_reducible apply kept_glnDiscard
    | with_reducible apply kept_imprecise
    | with_reducible apply kept_glnLeave
    | intro _
    | dsimp only
    | split
    )

theorem kept_glnFailRun {r s : State} (h : Kept r s) : ∀ a1 a2, KeptG2 r (State.glnFailRun s a1 a2) := by
  intro a1 a2
  unfold State.glnFailRun
  repeat' (first
    | with_reducible assumption
    | with_reducible refine kept_ite ?_ ?_
    | with_reducible refine keptG_ite ?_ ?_
    | with_reducible refine keptG2_ite ?_ ?_
    | with_reducible apply kept_gEval
    | with_reducible apply kept_gRowEval
    | with_reducible apply kept_scatPieces
    | intro _
    | dsimp only
    | split
    | with_reducible refine KeptG.kept ?_
    | with_reducible refine KeptG2.kept ?_
    | with_reducible refine keptG_mk ?_ _ _ _ _ _ _
    | with_reducible refine keptG2_mk ?_ _
    )

theorem kept_writeGlnCfg {r s : State} (h : Kept r s) : ∀ a1 a2, Kept r (State.writeGlnCfg s a1 a2) := by
  intro a1 a2
  unfold State.writeGlnCfg
  repeat' (first
    | with_reducible assumption
    | with_reducible refine kept_ite ?_ ?_
    | with_reducible apply kept_modGln
    | with_reducible apply kept_writeFields
    )

end Sys2Proof.Laws
end

