-- ==== Sys2Proof/Laws/KeptQueues.lean ====
section
/-! SUPPORT. What is kept (`Kept`) by the operations of copies, remote operations, controllers, collectives and queues: one lemma per operation, `kept_<operation>`. -/

namespace Sys2Proof.Laws

open Sys2Proof.Machine

/-! ### Copy -/

theorem kept_setJobs {r s : State} (h : Kept r s) : ∀ a1 a2, Kept r (State.setJobs s a1 a2) := by
  intro a1 a2
  unfold State.setJobs
  repeat' (first
    | with_reducible assumption
    | intro _
    | dsimp only
    | split
    | fail_if_no_progress (with_reducible refine kept_mk ?_ (by rfl) (by rfl) (by rfl) _ _ _ _ _ _ _ _ _ _ _ _ _ _ _ _ _ _ _)
    )

theorem kept_modJob {r s : State} (h : Kept r s) : ∀ a1 a2, Kept r (State.modJob s a1 a2) := by
  intro a1 a2
  unfold State.modJob
  repeat' (first
    | with_reducible assumption
    | with_reducible apply kept_setJobs
    | intro _
    | dsimp only
    | split
    )

theorem kept_guestRead {r s : State} (h : Kept r s) : ∀ a1, KeptRd r (State.guestRead s a1) := by
  intro a1
  unfold State.guestRead
  repeat' (first
    | with_reducible assumption
    | with_reducible apply kept_freeBytes
    | with_reducible apply keptRd_ok
    | intro _
    | with_reducible apply KeptRd.kept
    | with_reducible apply Kept2.kept
    )

theorem kept_copySource {r s : State} (h : Kept r s) : ∀ a1 a2 a3 a4, KeptRd r (State.copySource s a1 a2 a3 a4) := by
  intro a1 a2 a3 a4
  unfold State.copySource
  repeat' (first
    | with_reducible assumption
    | with_reducible refine kept_ite ?_ ?_
    | with_reducible refine keptRd_ite ?_ ?_
    | with_reducible apply kept_memRead
    | with_reducible apply kept_guestRead
    | with_reducible apply keptRd_ok
    | intro _
    | with_reducible apply KeptRd.kept
    | dsimp only
    | split
    )

theorem kept_copyPut {r s : State} (h : Kept r s) : ∀ a1 a2 a3, KeptRd r (State.copyPut s a1 a2 a3) := by
  intro a1 a2 a3
  unfold State.copyPut
  repeat' (first
    | with_reducible assumption
    | with_reducible refine kept_ite ?_ ?_
    | with_reducible refine keptRd_ite ?_ ?_
    | with_reducible apply kept_memRead
    | with_reducible apply kept_memWriteRd
    | intro _
    | with_reducible apply KeptRd.kept
    | dsimp only
    | split
    | with_reducible refine keptRd_mk ?_ _ _ _
    )

theorem kept_copyFlush {r s : State} (h : Kept r s) : ∀ a1, Kept r (State.copyFlush s a1) := by
  intro a1
  unfold State.copyFlush
  repeat' (first
    | with_reducible assumption
    | with_reducible refine kept_ite ?_ ?_
    | with_reducible refine keptRd_ite ?_ ?_
    | with_reducible apply kept_modCmd
    | with_reducible apply kept_modJob
    | with_reducible apply kept_copyPut
    | with_reducible apply keptRd_ok
    | with_reducible refine kept_foldl ?_ ?_
    | with_reducible refine keptRd_foldl ?_ ?_
    | intro _
    | with_reducible apply KeptRd.kept
    | with_reducible apply Kept2.kept
    | with_reducible apply Kept1.kept
    | dsimp only
    | split
    | with_reducible refine keptRd_mk ?_ _ _ _
    )

theorem kept_copyPacket {r s : State} (h : Kept r s) : ∀ a1 a2 a3, Kept r (State.copyPacket s a1 a2 a3) := by
  intro a1 a2 a3
  unfold State.copyPacket
  repeat' (first
    | with_reducible assumption
    | with_reducible refine kept_ite ?_ ?_
    | with_reducible refine keptRd_ite ?_ ?_
    | with_reducible apply kept_modCmd
    | with_reducible apply kept_remIssue
    | with_reducible apply kept_modJob
    | with_reducible apply kept_copySource
    | with_reducible apply keptRd_ok
    | intro _
    | with_reducible apply KeptRd.kept
    )

theorem kept_copyPump {r s : State} (h : Kept r s) : ∀ a1 a2, Kept r (State.copyPump s a1 a2) := by
  intro a1 a2
  induction a2 generalizing s a1 with
  | zero =>
    unfold State.copyPump
    repeat' (first
      | with_reducible assumption
      )
  | succ n ih =>
    unfold State.copyPump
    repeat' (first
      | with_reducible apply ih
      | with_reducible assumption
      | with_reducible refine kept_ite ?_ ?_
      | with_reducible apply kept_copyPacket
      | intro _
      | dsimp only
      | split
      )

theorem kept_remNext {r s : State} (h : Kept r s) : ∀ a1, Kept r (State.remNext s a1) := by
  intro a1
  unfold State.remNext
  repeat' (first
    | with_reducible assumption
    | with_reducible apply kept_glnPumpAll
    | with_reducible apply kept_copyFlush
    | with_reducible apply kept_copyPump
    | intro _
    | dsimp only
    | split
    )

theorem kept_popJob {r s : State} (h : Kept r s) : ∀ a1, Kept r (State.popJob s a1) := by
  intro a1
  unfold State.popJob
  repeat' (first
    | with_reducible assumption
    | with_reducible apply kept_setJobs
    | with_reducible apply kept_copyPump
    )

theorem kept_copyMove {r s : State} (h : Kept r s) : ∀ a1 a2 a3, KeptRd r (State.copyMove s a1 a2 a3) := by
  intro a1 a2 a3
  unfold State.copyMove
  repeat' (first
    | with_reducible assumption
    | with_reducible refine kept_ite ?_ ?_
    | with_reducible refine keptRd_ite ?_ ?_
    | with_reducible apply kept_memWriteRd
    | with_reducible apply kept_copySource
    | intro _
    | with_reducible apply KeptRd.kept
    | dsimp only
    | split
    | with_reducible refine keptRd_mk ?_ _ _ _
    )

/-! ### Remote -/

theorem kept_remoteInstr {r s : State} (h : Kept r s) : ∀ a0 a1 a2 a3, Kept r (remoteInstr a0 a1 a2 a3 s) := by
  intro a0 a1 a2 a3
  unfold remoteInstr
  repeat' (first
    | with_reducible assumption
    | with_reducible refine kept_ite ?_ ?_
    | with_reducible apply kept_count
    | with_reducible apply kept_precise
    | with_reducible apply kept_issue
    | with_reducible apply kept_retire
    | with_reducible apply kept_remIssue
    | intro _
    )

theorem kept_checkWaiting {r s : State} (h : Kept r s) : ∀ a1 a2 a3, Kept r (State.checkWaiting s a1 a2 a3) := by
  intro a1 a2 a3
  unfold State.checkWaiting
  repeat' (first
    | with_reducible assumption
    | with_reducible apply kept_checkEntry
    | with_reducible apply kept_remNext
    | with_reducible refine kept_foldl ?_ ?_
    | intro _
    | with_reducible apply Kept2.kept
    | with_reducible apply Kept1.kept
    | dsimp only
    | split
    )

theorem kept_takeRx {r s : State} (h : Kept r s) : ∀ a1, Kept r (State.takeRx s a1) := by
  intro a1
  unfold State.takeRx
  repeat' (first
    | with_reducible assumption
    | intro _
    | dsimp only
    | split
    | fail_if_no_progress (with_reducible refine kept_mk ?_ (by rfl) (by rfl) (by rfl) _ _ _ _ _ _ _ _ _ _ _ _ _ _ _ _ _ _ _)
    )

theorem kept_ecn {r s : State} (h : Kept r s) : ∀ a1, Kept r (State.ecn s a1) := by
  intro a1
  unfold State.ecn
  repeat' (first
    | with_reducible assumption
    | with_reducible refine kept_ite ?_ ?_
    | intro _
    | dsimp only
    | split
    | fail_if_no_progress (with_reducible refine kept_mk ?_ (by rfl) (by rfl) (by rfl) _ _ _ _ _ _ _ _ _ _ _ _ _ _ _ _ _ _ _)
    )

theorem kept_resend {r s : State} (h : Kept r s) : ∀ a1, Kept r (State.resend s a1) := by
  intro a1
  unfold State.resend
  repeat' (first
    | with_reducible assumption
    | with_reducible apply kept_modRem
    | with_reducible apply kept_sendPkt
    )

theorem kept_answered {r s : State} (h : Kept r s) : ∀ a1 a2, Kept r (State.answered s a1 a2) := by
  intro a1 a2
  unfold State.answered
  repeat' (first
    | with_reducible assumption
    | with_reducible refine kept_ite ?_ ?_
    | with_reducible apply kept_winFault
    | with_reducible apply kept_modRem
    | with_reducible apply kept_remFail
    | with_reducible apply kept_remDone
    | with_reducible apply kept_remNext
    | with_reducible apply kept_resend
    )

theorem kept_rxSet {r s : State} (h : Kept r s) : ∀ a1 a2 a3, Kept r (State.rxSet s a1 a2 a3) := by
  intro a1 a2 a3
  unfold State.rxSet
  repeat' (first
    | with_reducible assumption
    | intro _
    | dsimp only
    | split
    | fail_if_no_progress (with_reducible refine kept_mk ?_ (by rfl) (by rfl) (by rfl) _ _ _ _ _ _ _ _ _ _ _ _ _ _ _ _ _ _ _)
    )

theorem kept_answer {r s : State} (h : Kept r s) : ∀ a1 a2 a3 a4, Kept r (State.answer s a1 a2 a3 a4) := by
  intro a1 a2 a3 a4
  unfold State.answer
  repeat' (first
    | with_reducible assumption
    | with_reducible apply kept_sendPkt
    )

theorem kept_refuse {r s : State} (h : Kept r s) : ∀ a1, Kept r (State.refuse s a1) := by
  intro a1
  unfold State.refuse
  repeat' (first
    | with_reducible assumption
    | with_reducible apply kept_incWrap
    | with_reducible apply kept_answer
    )

theorem kept_serveRead {r s : State} (h : Kept r s) : ∀ a1, Kept r (State.serveRead s a1) := by
  intro a1
  unfold State.serveRead
  repeat' (first
    | with_reducible assumption
    | with_reducible refine kept_ite ?_ ?_
    | with_reducible refine keptRd_ite ?_ ?_
    | with_reducible apply kept_eRead
    | with_reducible apply kept_answer
    | intro _
    | with_reducible apply KeptRd.kept
    )

theorem kept_addWords {r s : State} (h : Kept r s) : ∀ a1 a2, Kept r (State.addWords s a1 a2) := by
  intro a1 a2
  unfold State.addWords
  repeat' (first
    | with_reducible assumption
    | with_reducible refine kept_ite ?_ ?_
    | with_reducible refine keptRd_ite ?_ ?_
    | with_reducible apply kept_eRead
    | with_reducible apply kept_eWrite
    | with_reducible refine kept_foldl ?_ ?_
    | with_reducible refine keptRd_foldl ?_ ?_
    | intro _
    | with_reducible apply KeptRd.kept
    )

theorem kept_setFolds {r s : State} (h : Kept r s) : ∀ a1 a2, Kept r (State.setFolds s a1 a2) := by
  intro a1 a2
  unfold State.setFolds
  repeat' (first
    | with_reducible assumption
    | intro _
    | dsimp only
    | split
    | fail_if_no_progress (with_reducible refine kept_mk ?_ (by rfl) (by rfl) (by rfl) _ _ _ _ _ _ _ _ _ _ _ _ _ _ _ _ _ _ _)
    )

theorem kept_setCombs {r s : State} (h : Kept r s) : ∀ a1 a2, Kept r (State.setCombs s a1 a2) := by
  intro a1 a2
  unfold State.setCombs
  repeat' (first
    | with_reducible assumption
    | intro _
    | dsimp only
    | split
    | fail_if_no_progress (with_reducible refine kept_mk ?_ (by rfl) (by rfl) (by rfl) _ _ _ _ _ _ _ _ _ _ _ _ _ _ _ _ _ _ _)
    )

theorem kept_foldClose {r s : State} (h : Kept r s) : ∀ a1 a2, Kept r (State.foldClose s a1 a2) := by
  intro a1 a2
  unfold State.foldClose
  repeat' (first
    | with_reducible assumption
    | with_reducible refine kept_ite ?_ ?_
    | with_reducible apply kept_incWrap
    | with_reducible apply kept_answer
    | with_reducible apply kept_addWords
    | with_reducible apply kept_setFolds
    | with_reducible refine kept_foldl ?_ ?_
    | intro _
    )

theorem kept_closeFolds {r s : State} (h : Kept r s) : ∀ a1, Kept r (State.closeFolds s a1) := by
  intro a1
  unfold State.closeFolds
  repeat' (first
    | with_reducible assumption
    | with_reducible apply kept_foldClose
    | with_reducible refine kept_foldl ?_ ?_
    | intro _
    )

theorem kept_foldsFirst {r s : State} (h : Kept r s) : ∀ a1, Kept r (State.foldsFirst s a1) := by
  intro a1
  unfold State.foldsFirst
  repeat' (first
    | with_reducible assumption
    | with_reducible apply kept_closeFolds
    )

theorem kept_addAlone {r s : State} (h : Kept r s) : ∀ a1, Kept r (State.addAlone s a1) := by
  intro a1
  unfold State.addAlone
  repeat' (first
    | with_reducible assumption
    | with_reducible apply kept_answer
    | with_reducible apply kept_addWords
    | with_reducible apply kept_closeFolds
    )

theorem kept_foldJoin {r s : State} (h : Kept r s) : ∀ a1, Kept r (State.foldJoin s a1) := by
  intro a1
  unfold State.foldJoin
  repeat' (first
    | with_reducible assumption
    | with_reducible refine kept_ite ?_ ?_
    | with_reducible apply kept_setFolds
    | with_reducible refine kept_foldl ?_ ?_
    | intro _
    )

theorem kept_applyRemote {r s : State} (h : Kept r s) : ∀ a1, Kept r (State.applyRemote s a1) := by
  intro a1
  unfold State.applyRemote
  repeat' (first
    | with_reducible assumption
    | with_reducible refine kept_ite ?_ ?_
    | with_reducible apply kept_eWrite
    | with_reducible apply kept_answer
    | with_reducible apply kept_refuse
    | with_reducible apply kept_serveRead
    | with_reducible apply kept_foldsFirst
    | with_reducible apply kept_addAlone
    | with_reducible apply kept_foldJoin
    | intro _
    | dsimp only
    | split
    )

theorem kept_repeatAnswer {r s : State} (h : Kept r s) : ∀ a1, Kept r (State.repeatAnswer s a1) := by
  intro a1
  unfold State.repeatAnswer
  repeat' (first
    | with_reducible assumption
    | with_reducible refine kept_ite ?_ ?_
    | with_reducible apply kept_answer
    | with_reducible apply kept_refuse
    | with_reducible apply kept_serveRead
    )

theorem kept_hold {r s : State} (h : Kept r s) : ∀ a1, Kept r (State.hold s a1) := by
  intro a1
  unfold State.hold
  repeat' (first
    | with_reducible assumption
    | with_reducible refine kept_ite ?_ ?_
    | with_reducible apply kept_incSat
    | intro _
    | dsimp only
    | split
    | fail_if_no_progress (with_reducible refine kept_mk ?_ (by rfl) (by rfl) (by rfl) _ _ _ _ _ _ _ _ _ _ _ _ _ _ _ _ _ _ _)
    )

theorem kept_writeWinTd {r s : State} (h : Kept r s) : ∀ a1, Kept r (State.writeWinTd s a1) := by
  intro a1
  unfold State.writeWinTd
  repeat' (first
    | with_reducible assumption
    | with_reducible refine kept_ite ?_ ?_
    | with_reducible apply kept_wr
    )

theorem kept_writeWinCache {r s : State} (h : Kept r s) : ∀ a1 a2, Kept r (State.writeWinCache s a1 a2) := by
  intro a1 a2
  unfold State.writeWinCache
  repeat' (first
    | with_reducible assumption
    | with_reducible refine kept_ite ?_ ?_
    | with_reducible apply kept_setWcache
    )

/-! ### Power -/

theorem kept_thermTrip {r s : State} (h : Kept r s) : ∀ a1, Kept r (State.thermTrip s a1) := by
  intro a1
  unfold State.thermTrip
  repeat' (first
    | with_reducible assumption
    | with_reducible refine kept_ite ?_ ?_
    | with_reducible apply kept_wrs
    | with_reducible apply kept_faultNote
    | with_reducible apply kept_fltRecord
    | intro _
    | dsimp only
    | split
    | fail_if_no_progress (with_reducible refine kept_mk ?_ (by rfl) (by rfl) (by rfl) _ _ _ _ _ _ _ _ _ _ _ _ _ _ _ _ _ _ _)
    )

theorem kept_showInput {r s : State} (h : Kept r s) : ∀ a1, Kept r (State.showInput s a1) := by
  intro a1
  unfold State.showInput
  repeat' (first
    | with_reducible assumption
    | with_reducible apply kept_wrs
    )

theorem kept_modDom {r s : State} (h : Kept r s) : ∀ a1 a2, Kept r (State.modDom s a1 a2) := by
  intro a1 a2
  unfold State.modDom
  repeat' (first
    | with_reducible assumption
    | intro _
    | dsimp only
    | split
    | fail_if_no_progress (with_reducible refine kept_mk ?_ (by rfl) (by rfl) (by rfl) _ _ _ _ _ _ _ _ _ _ _ _ _ _ _ _ _ _ _)
    )

theorem kept_modDie {r s : State} (h : Kept r s) : ∀ a1 a2, Kept r (State.modDie s a1 a2) := by
  intro a1 a2
  unfold State.modDie
  repeat' (first
    | with_reducible assumption
    | intro _
    | dsimp only
    | split
    | fail_if_no_progress (with_reducible refine kept_mk ?_ (by rfl) (by rfl) (by rfl) _ _ _ _ _ _ _ _ _ _ _ _ _ _ _ _ _ _ _)
    )

theorem kept_writeDomCtl {r s : State} (h : Kept r s) : ∀ a1 a2, Kept r (State.writeDomCtl s a1 a2) := by
  intro a1 a2
  unfold State.writeDomCtl
  repeat' (first
    | with_reducible assumption
    | with_reducible refine kept_ite ?_ ?_
    | with_reducible apply kept_wr
    )

theorem kept_countPairs {r s : State} (h : Kept r s) : ∀ a1 a2 a3 a4, Kept r (State.countPairs s a1 a2 a3 a4) := by
  intro a1 a2 a3 a4
  unfold State.countPairs
  repeat' (first
    | with_reducible assumption
    | with_reducible refine kept_ite ?_ ?_
    | with_reducible apply kept_cntAdd
    | with_reducible refine kept_foldl ?_ ?_
    | intro _
    )

theorem kept_countWindow {r s : State} (h : Kept r s) : ∀ a1 a2 a3, Kept r (State.countWindow s a1 a2 a3) := by
  intro a1 a2 a3
  unfold State.countWindow
  repeat' (first
    | with_reducible assumption
    | with_reducible apply kept_count
    | with_reducible apply kept_countPairs
    )

theorem kept_hintPend {r s : State} (h : Kept r s) : ∀ a1 a2 a3, Kept r (State.hintPend s a1 a2 a3) := by
  intro a1 a2 a3
  unfold State.hintPend
  repeat' (first
    | with_reducible assumption
    | with_reducible apply kept_modDom
    )

theorem kept_regulate {r s : State} (h : Kept r s) : ∀ a1, Kept r (State.regulate s a1) := by
  intro a1
  unfold State.regulate
  repeat' (first
    | with_reducible assumption
    | with_reducible refine kept_ite ?_ ?_
    | with_reducible apply kept_modDom
    )

theorem kept_setSensor {r s : State} (h : Kept r s) : ∀ a1 a2, Kept r (State.setSensor s a1 a2) := by
  intro a1 a2
  unfold State.setSensor
  repeat' (first
    | with_reducible assumption
    | intro _
    | dsimp only
    | split
    | fail_if_no_progress (with_reducible refine kept_mk ?_ (by rfl) (by rfl) (by rfl) _ _ _ _ _ _ _ _ _ _ _ _ _ _ _ _ _ _ _)
    )

theorem kept_breakSensor {r s : State} (h : Kept r s) : ∀ a1 a2, Kept r (State.breakSensor s a1 a2) := by
  intro a1 a2
  unfold State.breakSensor
  repeat' (first
    | with_reducible assumption
    | with_reducible refine kept_ite ?_ ?_
    | with_reducible apply kept_wrs
    | with_reducible apply kept_faultNote
    | with_reducible apply kept_setSensor
    )

theorem kept_takeReading {r s : State} (h : Kept r s) : ∀ a1 a2, Kept r (State.takeReading s a1 a2) := by
  intro a1 a2
  unfold State.takeReading
  repeat' (first
    | with_reducible assumption
    | with_reducible refine kept_ite ?_ ?_
    | with_reducible apply kept_wr
    | with_reducible apply kept_setSensor
    | with_reducible apply kept_breakSensor
    | intro _
    | dsimp only
    | split
    )

theorem kept_checkStuck {r s : State} (h : Kept r s) : ∀ a1, Kept r (State.checkStuck s a1) := by
  intro a1
  unfold State.checkStuck
  repeat' (first
    | with_reducible assumption
    | with_reducible refine kept_ite ?_ ?_
    | with_reducible apply kept_breakSensor
    )

theorem kept_dieSample {r s : State} (h : Kept r s) : ∀ a1, Kept r (State.dieSample s a1) := by
  intro a1
  unfold State.dieSample
  repeat' (first
    | with_reducible assumption
    | with_reducible refine kept_ite ?_ ?_
    | with_reducible apply kept_wrs
    | intro _
    | dsimp only
    | split
    | fail_if_no_progress (with_reducible refine kept_mk ?_ (by rfl) (by rfl) (by rfl) _ _ _ _ _ _ _ _ _ _ _ _ _ _ _ _ _ _ _)
    )

theorem kept_checkTrip {r s : State} (h : Kept r s) : Kept r (State.checkTrip s) := by
  unfold State.checkTrip
  repeat' (first
    | with_reducible assumption
    | with_reducible refine kept_ite ?_ ?_
    | with_reducible apply kept_thermTrip
    )

theorem kept_afterSample {r s : State} (h : Kept r s) : Kept r (State.afterSample s) := by
  unfold State.afterSample
  repeat' (first
    | with_reducible assumption
    | with_reducible apply kept_wrs
    | with_reducible apply kept_dieSample
    | with_reducible apply kept_checkTrip
    | with_reducible refine kept_foldl ?_ ?_
    | intro _
    | with_reducible apply Kept2.kept
    | with_reducible apply Kept1.kept
    | dsimp only
    | split
    )

/-! ### Controllers -/

theorem kept_bayClean {r s : State} (h : Kept r s) : ∀ a1, Kept r (State.bayClean s a1) := by
  intro a1
  unfold State.bayClean
  repeat' (first
    | with_reducible assumption
    | with_reducible apply kept_modStack
    | with_reducible apply kept_bayWriteBack
    | with_reducible refine kept_foldl ?_ ?_
    | intro _
    )

theorem kept_bayEmpty {r s : State} (h : Kept r s) : ∀ a1, Kept r (State.bayEmpty s a1) := by
  intro a1
  unfold State.bayEmpty
  repeat' (first
    | with_reducible assumption
    | with_reducible apply kept_bayDrop
    | with_reducible apply kept_bayClean
    | with_reducible refine kept_foldl ?_ ?_
    | intro _
    )

theorem kept_bayBusy {r s : State} (h : Kept r s) : ∀ a1, Kept r (State.bayBusy s a1) := by
  intro a1
  unfold State.bayBusy
  repeat' (first
    | with_reducible assumption
    | with_reducible apply kept_modStack
    )

theorem kept_writeBayCtl {r s : State} (h : Kept r s) : ∀ a1 a2, Kept r (State.writeBayCtl s a1 a2) := by
  intro a1 a2
  unfold State.writeBayCtl
  repeat' (first
    | with_reducible assumption
    | with_reducible refine kept_ite ?_ ?_
    | with_reducible apply kept_bayClean
    | with_reducible apply kept_bayEmpty
    | with_reducible apply kept_bayBusy
    )

theorem kept_writeBayCfg {r s : State} (h : Kept r s) : ∀ a1 a2, Kept r (State.writeBayCfg s a1 a2) := by
  intro a1 a2
  unfold State.writeBayCfg
  repeat' (first
    | with_reducible assumption
    | with_reducible refine kept_ite ?_ ?_
    | with_reducible apply kept_wr
    | with_reducible apply kept_bayEmpty
    | with_reducible apply kept_bayBusy
    )

theorem kept_bandNext {r s : State} (h : Kept r s) : ∀ a1, Kept r (State.bandNext s a1) := by
  intro a1
  unfold State.bandNext
  repeat' (first
    | with_reducible assumption
    | with_reducible refine kept_ite ?_ ?_
    | with_reducible apply kept_modStack
    )

theorem kept_writeMemCfg {r s : State} (h : Kept r s) : ∀ a1 a2, Kept r (State.writeMemCfg s a1 a2) := by
  intro a1 a2
  unfold State.writeMemCfg
  repeat' (first
    | with_reducible assumption
    | with_reducible refine kept_ite ?_ ?_
    | with_reducible apply kept_wr
    | with_reducible apply kept_bandNext
    )

/-! ### Collective -/

theorem kept_colSend {r s : State} (h : Kept r s) : ∀ a1 a2 a3 a4 a5 a6 a7, Kept r (State.colSend s a1 a2 a3 a4 a5 a6 a7) := by
  intro a1 a2 a3 a4 a5 a6 a7
  unfold State.colSend
  repeat' (first
    | with_reducible assumption
    | intro _
    | dsimp only
    | split
    | fail_if_no_progress (with_reducible refine kept_mk ?_ (by rfl) (by rfl) (by rfl) _ _ _ _ _ _ _ _ _ _ _ _ _ _ _ _ _ _ _)
    )

theorem kept_sendSheaf {r s : State} (h : Kept r s) : ∀ a1 a2 a3 a4 a5 a6 a7, Kept r (State.sendSheaf s a1 a2 a3 a4 a5 a6 a7) := by
  intro a1 a2 a3 a4 a5 a6 a7
  unfold State.sendSheaf
  repeat' (first
    | with_reducible assumption
    | with_reducible apply kept_incWrap
    | with_reducible apply kept_colSend
    | with_reducible refine kept_foldl ?_ ?_
    | intro _
    )

theorem kept_Rd_col {r : State} {x : Rd} (h : KeptRd r x) : KeptRd r x.col :=
  keptRd_ite (kept_wr h.kept _ _ _ _ _) h

theorem kept_colSource {r s : State} (h : Kept r s) : ∀ a1 a2 a3, KeptRd r (State.colSource s a1 a2 a3) := by
  intro a1 a2 a3
  unfold State.colSource
  repeat' (first
    | with_reducible assumption
    | with_reducible apply kept_memRead
    | with_reducible apply kept_Rd_col
    )

theorem kept_colDest {r s : State} (h : Kept r s) : ∀ a1 a2 a3, KeptRd r (State.colDest s a1 a2 a3) := by
  intro a1 a2 a3
  unfold State.colDest
  repeat' (first
    | with_reducible assumption
    | with_reducible apply kept_memRead
    | with_reducible apply kept_Rd_col
    )

theorem kept_colWrite {r s : State} (h : Kept r s) : ∀ a1 a2 a3, Kept r (State.colWrite s a1 a2 a3) := by
  intro a1 a2 a3
  unfold State.colWrite
  repeat' (first
    | with_reducible assumption
    | with_reducible apply kept_memWriteRd
    | with_reducible apply kept_Rd_col
    | intro _
    | with_reducible apply KeptRd.kept
    )

/-- The state after a sheaf is read. -/
theorem kept_sheafRead {r s : State} (h : Kept r s) (i : Nat) (x : Ctx) (pos b o len : Nat) :
    Kept r (s.sheafRead i x pos b o len).rd.st := by
  have hs := fun w a n => (kept_colSource h w a n).kept
  unfold State.sheafRead
  dsimp only
  split
  · split
    · exact hs _ _ _
    · exact (kept_colDest h _ _ _).kept
  · split
    · exact hs _ _ _
    · exact (kept_Rd_col (kept_eRead h _ _ _ _ _)).kept

theorem kept_sheafOut {r s : State} (h : Kept r s) : ∀ a1 a2 a3 a4 a5 a6 a7 a8 a9, Kept r (State.sheafOut s a1 a2 a3 a4 a5 a6 a7 a8 a9) := by
  intro a1 a2 a3 a4 a5 a6 a7 a8 a9
  unfold State.sheafOut
  repeat' (first
    | with_reducible assumption
    | with_reducible refine kept_ite ?_ ?_
    | with_reducible apply kept_modCtx
    | with_reducible apply kept_sendSheaf
    | with_reducible apply kept_sheafRead
    )

theorem kept_sendTo {r s : State} (h : Kept r s) : ∀ a1 a2 a3, Kept r (State.sendTo s a1 a2 a3) := by
  intro a1 a2 a3
  induction a3 generalizing s a1 a2 with
  | zero =>
    unfold State.sendTo
    repeat' (first
      | with_reducible assumption
      )
  | succ n ih =>
    unfold State.sendTo
    repeat' (first
      | with_reducible apply ih
      | with_reducible assumption
      | with_reducible refine kept_ite ?_ ?_
      | with_reducible apply kept_modCtx
      | with_reducible apply kept_sheafOut
      | intro _
      | dsimp only
      | split
      )

theorem kept_colPump {r s : State} (h : Kept r s) : ∀ a1, Kept r (State.colPump s a1) := by
  intro a1
  unfold State.colPump
  repeat' (first
    | with_reducible assumption
    | with_reducible refine kept_ite ?_ ?_
    | with_reducible apply kept_pump
    | with_reducible apply kept_sendTo
    | with_reducible refine kept_foldl ?_ ?_
    | intro _
    | with_reducible apply Kept2.kept
    | with_reducible apply Kept1.kept
    | dsimp only
    | split
    )

theorem kept_beginStage {r s : State} (h : Kept r s) : ∀ a1, Kept r (State.beginStage s a1) := by
  intro a1
  unfold State.beginStage
  repeat' (first
    | with_reducible assumption
    | with_reducible refine kept_ite ?_ ?_
    | with_reducible apply kept_colSend
    | with_reducible apply kept_sendSheaf
    | with_reducible apply kept_colPump
    | with_reducible refine kept_foldl ?_ ?_
    | intro _
    | with_reducible apply Kept2.kept
    | with_reducible apply Kept1.kept
    | dsimp only
    | split
    )

theorem kept_rsOutput {r s : State} (h : Kept r s) : ∀ a1 a2 a3, Kept r (State.rsOutput s a1 a2 a3) := by
  intro a1 a2 a3
  unfold State.rsOutput
  repeat' (first
    | with_reducible assumption
    | with_reducible refine kept_ite ?_ ?_
    | with_reducible apply kept_colWrite
    )

theorem kept_colStart {r s : State} (h : Kept r s) : ∀ a1, Kept r (State.colStart s a1) := by
  intro a1
  unfold State.colStart
  repeat' (first
    | with_reducible assumption
    | with_reducible refine kept_ite ?_ ?_
    | with_reducible refine keptRd_ite ?_ ?_
    | with_reducible apply kept_setCtx
    | with_reducible apply kept_modCtx
    | with_reducible apply kept_colSource
    | with_reducible apply kept_colWrite
    | with_reducible apply kept_beginStage
    | with_reducible apply kept_rsOutput
    | with_reducible apply keptRd_ok
    | intro _
    | with_reducible apply KeptRd.kept
    | dsimp only
    | split
    )

theorem kept_colBegin {r s : State} (h : Kept r s) : ∀ a1 a2, Kept r (State.colBegin s a1 a2) := by
  intro a1 a2
  unfold State.colBegin
  repeat' (first
    | with_reducible assumption
    | with_reducible apply kept_colStart
    | intro _
    | dsimp only
    | split
    )

theorem kept_placeSheaf {r s : State} (h : Kept r s) : ∀ a1 a2, Kept r (State.placeSheaf s a1 a2) := by
  intro a1 a2
  unfold State.placeSheaf
  repeat' (first
    | with_reducible assumption
    | with_reducible refine kept_ite ?_ ?_
    | with_reducible apply kept_setCtx
    | with_reducible apply kept_colWrite
    | intro _
    | dsimp only
    | split
    )

theorem kept_colPlace {r s : State} (h : Kept r s) : ∀ a1, Kept r (State.colPlace s a1) := by
  intro a1
  unfold State.colPlace
  repeat' (first
    | with_reducible assumption
    | with_reducible refine kept_ite ?_ ?_
    | with_reducible apply kept_placeSheaf
    | with_reducible refine kept_foldl ?_ ?_
    | intro _
    | with_reducible apply Kept2.kept
    | with_reducible apply Kept1.kept
    | dsimp only
    | split
    )

theorem kept_sheafBad {r s : State} (h : Kept r s) : ∀ a1 a2 a3 a4, Kept r (State.sheafBad s a1 a2 a3 a4) := by
  intro a1 a2 a3 a4
  unfold State.sheafBad
  repeat' (first
    | with_reducible assumption
    | with_reducible refine kept_ite ?_ ?_
    | with_reducible apply kept_incSat
    | with_reducible apply kept_pump
    | with_reducible apply kept_setCtx
    | with_reducible apply kept_colSend
    )

theorem kept_takeTrailer {r s : State} (h : Kept r s) : ∀ a1 a2 a3, Kept r (State.takeTrailer s a1 a2 a3) := by
  intro a1 a2 a3
  unfold State.takeTrailer
  repeat' (first
    | with_reducible assumption
    | with_reducible refine kept_ite ?_ ?_
    | with_reducible apply kept_pump
    | with_reducible apply kept_setCtx
    | with_reducible apply kept_colSend
    | with_reducible apply kept_colPlace
    | with_reducible apply kept_sheafBad
    | with_reducible apply keptRd_ok
    | intro _
    | dsimp only
    | split
    )

theorem kept_takeResend {r s : State} (h : Kept r s) : ∀ a1 a2 a3, Kept r (State.takeResend s a1 a2 a3) := by
  intro a1 a2 a3
  unfold State.takeResend
  repeat' (first
    | with_reducible assumption
    | with_reducible apply kept_pump
    | with_reducible apply kept_sheafOut
    | intro _
    | dsimp only
    | split
    )

theorem kept_colTake {r s : State} (h : Kept r s) : ∀ a1 a2, Kept r (State.colTake s a1 a2) := by
  intro a1 a2
  unfold State.colTake
  repeat' (first
    | with_reducible assumption
    | with_reducible refine kept_ite ?_ ?_
    | with_reducible apply kept_setCtx
    | with_reducible apply kept_colPump
    | with_reducible apply kept_takeTrailer
    | with_reducible apply kept_takeResend
    | intro _
    | dsimp only
    | split
    )

theorem kept_sheafNext {r s : State} (h : Kept r s) : ∀ a1, Kept r (State.sheafNext s a1) := by
  intro a1
  unfold State.sheafNext
  repeat' (first
    | with_reducible assumption
    | with_reducible refine kept_ite ?_ ?_
    | with_reducible refine keptRd_ite ?_ ?_
    | with_reducible apply kept_rxSet
    | with_reducible apply kept_answer
    | with_reducible apply kept_Rd_col
    | with_reducible apply kept_colTake
    | intro _
    | with_reducible apply KeptRd.kept
    | dsimp only
    | split
    | with_reducible refine keptRd_mk ?_ _ _ _
    | fail_if_no_progress (with_reducible refine kept_mk ?_ (by rfl) (by rfl) (by rfl) _ _ _ _ _ _ _ _ _ _ _ _ _ _ _ _ _ _ _)
    )

theorem kept_sheafArrive {r s : State} (h : Kept r s) : ∀ a0 a1, Kept r (sheafArrive a0 a1 s) := by
  intro a0 a1
  unfold sheafArrive
  repeat' (first
    | with_reducible assumption
    | with_reducible refine kept_ite ?_ ?_
    | with_reducible apply kept_incWrap
    | with_reducible apply kept_incSat
    | with_reducible apply kept_takeRx
    | with_reducible apply kept_answer
    | with_reducible apply kept_hold
    | with_reducible apply kept_sheafNext
    | intro _
    | dsimp only
    | split
    )

theorem kept_usePending {r s : State} (h : Kept r s) : ∀ a1 a2, Kept r (State.usePending s a1 a2) := by
  intro a1 a2
  unfold State.usePending
  repeat' (first
    | with_reducible assumption
    | with_reducible refine kept_ite ?_ ?_
    | with_reducible apply kept_modCtx
    | with_reducible apply kept_colTake
    )

theorem kept_scratchPut {r s : State} (h : Kept r s) : ∀ a1 a2, KeptRd r (State.scratchPut s a1 a2) := by
  intro a1 a2
  unfold State.scratchPut
  repeat' (first
    | with_reducible assumption
    | with_reducible refine kept_ite ?_ ?_
    | with_reducible refine keptRd_ite ?_ ?_
    | with_reducible refine kept2_ite ?_ ?_
    | with_reducible apply kept_freeBytes
    | with_reducible apply kept_eWriteRd
    | intro _
    | with_reducible apply KeptRd.kept
    | with_reducible apply Kept2.kept
    )

/-- The state after the block of an RS is read back. -/
theorem kept_rsBack {r s : State} (h : Kept r s) (i : Nat) (x : Ctx) (b : Nat) : Kept r (s.rsBack i x b).rd.st :=
  List.foldlRecOn (motive := fun y : SheafRd => Kept r y.rd.st) _ _ h (fun _ hy _ _ => kept_sheafRead hy _ _ _ _ _ _)

theorem kept_colDone {r s : State} (h : Kept r s) : ∀ a1 a2, Kept r (State.colDone s a1 a2) := by
  intro a1 a2
  unfold State.colDone
  repeat' (first
    | with_reducible assumption
    | with_reducible refine kept_ite ?_ ?_
    | with_reducible apply kept_modCtx
    | with_reducible apply kept_rsOutput
    | with_reducible apply kept_rsBack
    )

theorem kept_colAbortOut {r s : State} (h : Kept r s) : ∀ a1 a2 a3 a4, Kept r (State.colAbortOut s a1 a2 a3 a4) := by
  intro a1 a2 a3 a4
  unfold State.colAbortOut
  repeat' (first
    | with_reducible assumption
    | with_reducible apply kept_sendPkt
    | with_reducible refine kept_foldl ?_ ?_
    | intro _
    )

theorem kept_colQuiet {r s : State} (h : Kept r s) : ∀ a1, Kept r (State.colQuiet s a1) := by
  intro a1
  unfold State.colQuiet
  repeat' (first
    | with_reducible assumption
    | with_reducible refine kept_ite ?_ ?_
    | intro _
    | dsimp only
    | split
    | fail_if_no_progress (with_reducible refine kept_mk ?_ (by rfl) (by rfl) (by rfl) _ _ _ _ _ _ _ _ _ _ _ _ _ _ _ _ _ _ _)
    )

theorem kept_colUndef {r s : State} (h : Kept r s) : ∀ a1 a2, Kept r (State.colUndef s a1 a2) := by
  intro a1 a2
  unfold State.colUndef
  repeat' (first
    | with_reducible assumption
    | with_reducible refine kept_ite ?_ ?_
    | with_reducible refine kept2_ite ?_ ?_
    | with_reducible apply kept_freeBytes
    | with_reducible apply kept_eWrite
    | with_reducible apply kept_colWrite
    | intro _
    | with_reducible apply Kept2.kept
    )

theorem kept_colEnd {r s : State} (h : Kept r s) : ∀ a1, Kept r (State.colEnd s a1) := by
  intro a1
  unfold State.colEnd
  repeat' (first
    | with_reducible assumption
    | with_reducible refine kept_ite ?_ ?_
    | with_reducible refine keptRd_ite ?_ ?_
    | with_reducible apply kept_wrs
    | with_reducible apply kept_report
    | with_reducible apply kept_Rd_col
    | with_reducible apply kept_colAbortOut
    | with_reducible apply kept_colQuiet
    | with_reducible apply kept_colUndef
    | intro _
    | with_reducible apply KeptRd.kept
    | dsimp only
    | split
    | with_reducible refine keptRd_mk ?_ _ _ _
    | fail_if_no_progress (with_reducible refine kept_mk ?_ (by rfl) (by rfl) (by rfl) _ _ _ _ _ _ _ _ _ _ _ _ _ _ _ _ _ _ _)
    )

theorem kept_writeColCtl {r s : State} (h : Kept r s) : ∀ a1, Kept r (State.writeColCtl s a1) := by
  intro a1
  unfold State.writeColCtl
  repeat' (first
    | with_reducible assumption
    | with_reducible refine kept_ite ?_ ?_
    | with_reducible apply kept_modCtx
    )

theorem kept_writeColScr {r s : State} (h : Kept r s) : ∀ a1 a2, Kept r (State.writeColScr s a1 a2) := by
  intro a1 a2
  unfold State.writeColScr
  repeat' (first
    | with_reducible assumption
    | with_reducible refine kept_ite ?_ ?_
    | with_reducible refine keptRd_ite ?_ ?_
    | with_reducible apply kept_writeFields
    )

theorem kept_colLost {r s : State} (h : Kept r s) : ∀ a1, Kept r (State.colLost s a1) := by
  intro a1
  unfold State.colLost
  repeat' (first
    | with_reducible assumption
    | with_reducible refine kept_ite ?_ ?_
    | with_reducible refine keptRd_ite ?_ ?_
    | with_reducible apply kept_modCtx
    | with_reducible apply kept_Rd_col
    | with_reducible refine kept_foldl ?_ ?_
    | with_reducible refine keptRd_foldl ?_ ?_
    | intro _
    )

/-! ### Kernel -/

theorem kept_wnwKick {r s : State} (h : Kept r s) : ∀ a1, Kept r (State.wnwKick s a1) := by
  intro a1
  unfold State.wnwKick
  repeat' (first
    | with_reducible assumption
    | with_reducible refine kept_ite ?_ ?_
    | with_reducible apply kept_modWnw
    )

theorem kept_wnwAfter {r s : State} (h : Kept r s) : ∀ a1, Kept r (State.wnwAfter s a1) := by
  intro a1
  unfold State.wnwAfter
  repeat' (first
    | with_reducible assumption
    | with_reducible refine kept_ite ?_ ?_
    | with_reducible apply kept_incSat
    | with_reducible apply kept_modWnw
    | with_reducible apply kept_wnwKick
    )

theorem kept_wnwRestore {r s : State} (h : Kept r s) : ∀ a1, Kept r (State.wnwRestore s a1) := by
  intro a1
  unfold State.wnwRestore
  repeat' (first
    | with_reducible assumption
    | with_reducible apply kept_modCore
    | intro _
    | dsimp only
    | split
    | ((with_reducible refine wf_of_eq ?_ ?_ (by assumption)) <;> rfl)
    )

theorem kept_returnPass {r s : State} (h : Kept r s) : ∀ a1, Kept r (State.returnPass s a1) := by
  intro a1
  unfold State.returnPass
  repeat' (first
    | with_reducible assumption
    | with_reducible refine kept_ite ?_ ?_
    | with_reducible apply kept_modWnw
    )

theorem kept_passEnded {r s : State} (h : Kept r s) : ∀ a1, Kept r (State.passEnded s a1) := by
  intro a1
  unfold State.passEnded
  repeat' (first
    | with_reducible assumption
    | with_reducible apply kept_incWrap
    | with_reducible apply kept_modWnw
    )

theorem kept_streamsEnd {r s : State} (h : Kept r s) : ∀ a1, Kept r (State.streamsEnd s a1) := by
  intro a1
  unfold State.streamsEnd
  repeat' (first
    | with_reducible assumption
    | with_reducible refine kept_ite ?_ ?_
    | with_reducible apply kept_modGln
    | with_reducible apply kept_wr
    )

theorem kept_freeCore {r s : State} (h : Kept r s) : ∀ a1, Kept r (State.freeCore s a1) := by
  intro a1
  unfold State.freeCore
  repeat' (first
    | with_reducible assumption
    | with_reducible apply kept_modCore
    | intro _
    | dsimp only
    | split
    | ((with_reducible refine wf_of_eq ?_ ?_ (by assumption)) <;> rfl)
    )

theorem kept_partEnd {r s : State} (h : Kept r s) : ∀ a1 a2 a3, Kept r (State.partEnd s a1 a2 a3) := by
  intro a1 a2 a3
  unfold State.partEnd
  repeat' (first
    | with_reducible assumption
    | with_reducible refine kept_ite ?_ ?_
    | with_reducible apply kept_traceAdd
    | with_reducible apply kept_modCmd
    )

theorem kept_startKernel {r s : State} (h : Kept r s) : ∀ a1 a2 a3 a4 a5, Kept r (State.startKernel s a1 a2 a3 a4 a5) := by
  intro a1 a2 a3 a4 a5
  unfold State.startKernel
  repeat' (first
    | with_reducible assumption
    | with_reducible refine kept_ite ?_ ?_
    | with_reducible apply kept_wr
    | with_reducible apply kept_setReg
    | with_reducible apply kept_modCore
    | with_reducible apply kept_traceAdd
    | intro _
    | dsimp only
    | split
    | ((with_reducible refine wf_of_eq ?_ ?_ (by assumption)) <;> rfl)
    )

theorem kept_stopCopies {r s : State} (h : Kept r s) : ∀ a1 a2, Kept r (State.stopCopies s a1 a2) := by
  intro a1 a2
  unfold State.stopCopies
  repeat' (first
    | with_reducible assumption
    | with_reducible apply kept_modCmd
    | with_reducible apply kept_report
    | with_reducible apply kept_setJobs
    | with_reducible apply kept_copyPump
    | with_reducible refine kept_foldl ?_ ?_
    | intro _
    )

theorem kept_coreLost {r s : State} (h : Kept r s) : ∀ a1, Kept r (State.coreLost s a1) := by
  intro a1
  unfold State.coreLost
  repeat' (first
    | with_reducible assumption
    | with_reducible apply kept_report
    | with_reducible apply kept_stookDrop
    | with_reducible apply kept_partEnd
    | with_reducible apply kept_stopCopies
    | with_reducible refine kept_foldl ?_ ?_
    | intro _
    | with_reducible apply Kept2.kept
    | with_reducible apply Kept1.kept
    | dsimp only
    | split
    | fail_if_no_progress (with_reducible refine kept_mk ?_ (by rfl) (by rfl) (by rfl) _ _ _ _ _ _ _ _ _ _ _ _ _ _ _ _ _ _ _)
    )

theorem kept_resetCore {r s : State} (h : Kept r s) : ∀ a1 a2, Kept r (State.resetCore s a1 a2) := by
  intro a1 a2
  unfold State.resetCore
  repeat' (first
    | with_reducible assumption
    | with_reducible apply kept_setCore
    | with_reducible apply kept_resetRegs
    | intro _
    | dsimp only
    | split
    | exact wf_empty
    | fail_if_no_progress (with_reducible refine kept_mk ?_ (by rfl) (by rfl) (by rfl) _ _ _ _ _ _ _ _ _ _ _ _ _ _ _ _ _ _ _)
    )

theorem kept_coreReset {r s : State} (h : Kept r s) : ∀ a1, Kept r (State.coreReset s a1) := by
  intro a1
  unfold State.coreReset
  repeat' (first
    | with_reducible assumption
    | with_reducible apply kept_pump
    | with_reducible apply kept_returnPass
    | with_reducible apply kept_coreLost
    | with_reducible apply kept_resetCore
    )

theorem kept_coreWakes {r s : State} (h : Kept r s) : ∀ a1 a2, Kept r (State.coreWakes s a1 a2) := by
  intro a1 a2
  unfold State.coreWakes
  repeat' (first
    | with_reducible assumption
    | with_reducible refine kept_ite ?_ ?_
    | with_reducible apply kept_pump
    | with_reducible apply kept_coreLost
    | with_reducible apply kept_resetCore
    )

theorem kept_wakeCore {r s : State} (h : Kept r s) : ∀ a1, Kept r (State.wakeCore s a1) := by
  intro a1
  unfold State.wakeCore
  repeat' (first
    | with_reducible assumption
    | with_reducible apply kept_wr
    | with_reducible apply kept_returnPass
    | with_reducible apply kept_coreWakes
    )

theorem kept_dieDown {r s : State} (h : Kept r s) : ∀ a1, Kept r (State.dieDown s a1) := by
  intro a1
  unfold State.dieDown
  repeat' (first
    | with_reducible assumption
    | with_reducible apply kept_resetRegs
    | with_reducible apply kept_modWnw
    | with_reducible apply kept_wrBit
    | with_reducible apply kept_pump
    | with_reducible apply kept_modDie
    | with_reducible apply kept_coreLost
    | with_reducible apply kept_resetCore
    | with_reducible refine kept_foldl ?_ ?_
    | intro _
    )

theorem kept_loadTime {r s : State} (h : Kept r s) : ∀ a1, Kept r (State.loadTime s a1) := by
  intro a1
  unfold State.loadTime
  repeat' (first
    | with_reducible assumption
    | intro _
    | dsimp only
    | split
    | fail_if_no_progress (with_reducible refine kept_mk ?_ (by rfl) (by rfl) (by rfl) _ _ _ _ _ _ _ _ _ _ _ _ _ _ _ _ _ _ _)
    )

theorem kept_wakeDie {r s : State} (h : Kept r s) : ∀ a1, Kept r (State.wakeDie s a1) := by
  intro a1
  unfold State.wakeDie
  repeat' (first
    | with_reducible assumption
    | with_reducible refine kept_ite ?_ ?_
    | with_reducible apply kept_wr
    | with_reducible apply kept_setCore
    | with_reducible apply kept_resetRegs
    | with_reducible apply kept_wrBit
    | with_reducible apply kept_returnPass
    | with_reducible apply kept_coreWakes
    | with_reducible apply kept_dieDown
    | with_reducible apply kept_loadTime
    | with_reducible refine kept_foldl ?_ ?_
    | intro _
    | with_reducible apply Kept2.kept
    | with_reducible apply Kept1.kept
    | dsimp only
    | split
    | exact wf_empty
    )

theorem kept_wake {r s : State} (h : Kept r s) : ∀ a1, Kept r (State.wake s a1) := by
  intro a1
  unfold State.wake
  repeat' (first
    | with_reducible assumption
    | with_reducible refine kept_ite ?_ ?_
    | with_reducible apply kept_wakeCore
    | with_reducible apply kept_wakeDie
    )

/-! ### Queue -/

theorem kept_loadHead {r s : State} (h : Kept r s) : ∀ a1, Kept r (State.loadHead s a1) := by
  intro a1
  unfold State.loadHead
  repeat' (first
    | with_reducible assumption
    | with_reducible refine kept_ite ?_ ?_
    | with_reducible refine keptRd_ite ?_ ?_
    | with_reducible apply kept_modQueue
    | with_reducible apply kept_slotRead
    | intro _
    | with_reducible apply KeptRd.kept
    )

theorem kept_finishHead {r s : State} (h : Kept r s) : ∀ a1 a2 a3, Kept r (State.finishHead s a1 a2 a3) := by
  intro a1 a2 a3
  unfold State.finishHead
  repeat' (first
    | with_reducible assumption
    | with_reducible apply kept_endCmd
    )

theorem kept_takeHead {r s : State} (h : Kept r s) : ∀ a1 a2 a3, Kept r (State.takeHead s a1 a2 a3) := by
  intro a1 a2 a3
  unfold State.takeHead
  repeat' (first
    | with_reducible assumption
    | with_reducible refine kept_ite ?_ ?_
    | with_reducible apply kept_modQueue
    | with_reducible apply kept_slotWrite
    | with_reducible apply kept_retireHead
    | intro _
    | dsimp only
    | split
    | fail_if_no_progress (with_reducible refine kept_mk ?_ (by rfl) (by rfl) (by rfl) _ _ _ _ _ _ _ _ _ _ _ _ _ _ _ _ _ _ _)
    )

theorem kept_toEngine {r s : State} (h : Kept r s) : ∀ a1 a2, Kept r (State.toEngine s a1 a2) := by
  intro a1 a2
  unfold State.toEngine
  repeat' (first
    | with_reducible assumption
    | with_reducible refine kept_ite ?_ ?_
    | with_reducible refine keptRd_ite ?_ ?_
    | with_reducible refine kept2_ite ?_ ?_
    | with_reducible apply kept_freeBit
    | with_reducible apply kept_modCmd
    | with_reducible apply kept_setJobs
    | with_reducible apply kept_copySource
    | with_reducible apply kept_copyPump
    | with_reducible apply kept_finishHead
    | with_reducible apply kept_takeHead
    | with_reducible apply keptRd_ok
    | intro _
    | with_reducible apply KeptRd.kept
    | with_reducible apply Kept2.kept
    | with_reducible refine kept_snd (by assumption) ?_
    | dsimp only
    | split
    | with_reducible refine keptRd_mk ?_ _ _ _
    | with_reducible refine kept2_mk ?_ _
    )

theorem kept_writeQueCfg {r s : State} (h : Kept r s) : ∀ a1 a2, Kept r (State.writeQueCfg s a1 a2) := by
  intro a1 a2
  unfold State.writeQueCfg
  repeat' (first
    | with_reducible assumption
    | with_reducible refine kept_ite ?_ ?_
    | with_reducible apply kept_wr
    | with_reducible apply kept_wrs
    | with_reducible apply kept_writeFields
    | with_reducible apply kept_modQueue
    )

theorem kept_writeQueBase {r s : State} (h : Kept r s) : ∀ a1 a2, Kept r (State.writeQueBase s a1 a2) := by
  intro a1 a2
  unfold State.writeQueBase
  repeat' (first
    | with_reducible assumption
    | with_reducible refine kept_ite ?_ ?_
    | with_reducible apply kept_wr
    | with_reducible apply kept_writeFields
    )

theorem kept_stopHead {r s : State} (h : Kept r s) : ∀ a1, Kept r (State.stopHead s a1) := by
  intro a1
  unfold State.stopHead
  repeat' (first
    | with_reducible assumption
    | with_reducible apply kept_modCore
    | with_reducible apply kept_haltCore
    | with_reducible apply kept_stopCopies
    | with_reducible refine kept_foldl ?_ ?_
    | intro _
    | with_reducible apply Kept2.kept
    | with_reducible apply Kept1.kept
    | dsimp only
    | split
    | ((with_reducible refine wf_of_eq ?_ ?_ (by assumption)) <;> rfl)
    )

theorem kept_abortSlots {r s : State} (h : Kept r s) : ∀ a1 a2 a3 a4, Kept1 r (State.abortSlots s a1 a2 a3 a4) := by
  intro a1 a2 a3 a4
  induction a3 generalizing s a1 a2 a4 with
  | zero =>
    unfold State.abortSlots
    repeat' (first
      | with_reducible assumption
      | with_reducible refine kept_ite ?_ ?_
      | with_reducible refine keptRd_ite ?_ ?_
      | with_reducible refine kept1_ite ?_ ?_
      | with_reducible apply kept_slotRead
      | with_reducible apply kept_endCmd
      | intro _
      | with_reducible apply KeptRd.kept
      | with_reducible apply Kept1.kept
      | dsimp only
      | split
      | with_reducible refine keptRd_mk ?_ _ _ _
      | with_reducible refine kept1_mk ?_ _
      )
  | succ n ih =>
    unfold State.abortSlots
    repeat' (first
      | with_reducible apply ih
      | with_reducible assumption
      | with_reducible refine kept_ite ?_ ?_
      | with_reducible refine keptRd_ite ?_ ?_
      | with_reducible refine kept1_ite ?_ ?_
      | with_reducible apply kept_slotRead
      | with_reducible apply kept_endCmd
      | intro _
      | with_reducible apply KeptRd.kept
      | with_reducible apply Kept1.kept
      | dsimp only
      | split
      | with_reducible refine keptRd_mk ?_ _ _ _
      | with_reducible refine kept1_mk ?_ _
      )

theorem kept_queueAbort {r s : State} (h : Kept r s) : ∀ a1, Kept r (State.queueAbort s a1) := by
  intro a1
  unfold State.queueAbort
  repeat' (first
    | with_reducible assumption
    | with_reducible refine kept_ite ?_ ?_
    | with_reducible refine kept1_ite ?_ ?_
    | with_reducible apply kept_wr
    | with_reducible apply kept_modQueue
    | with_reducible apply kept_slotWrite
    | with_reducible apply kept_endCmd
    | with_reducible apply kept_modCmd
    | with_reducible apply kept_stopHead
    | with_reducible apply kept_abortSlots
    | intro _
    | with_reducible apply Kept1.kept
    | with_reducible refine kept_fst (by assumption) ?_
    | dsimp only
    | split
    )

theorem kept_queueResume {r s : State} (h : Kept r s) : ∀ a1, Kept r (State.queueResume s a1) := by
  intro a1
  unfold State.queueResume
  repeat' (first
    | with_reducible assumption
    | with_reducible refine kept_ite ?_ ?_
    | with_reducible apply kept_wr
    | with_reducible apply kept_slotWrite
    | with_reducible apply kept_retireHead
    | intro _
    | dsimp only
    | split
    )

theorem kept_writeQueCtl {r s : State} (h : Kept r s) : ∀ a1 a2, Kept r (State.writeQueCtl s a1 a2) := by
  intro a1 a2
  unfold State.writeQueCtl
  repeat' (first
    | with_reducible assumption
    | with_reducible refine kept_ite ?_ ?_
    | with_reducible apply kept_queueAbort
    | with_reducible apply kept_queueResume
    )

theorem kept_writeEvt {r s : State} (h : Kept r s) : ∀ a1 a2, Kept r (State.writeEvt s a1 a2) := by
  intro a1 a2
  unfold State.writeEvt
  repeat' (first
    | with_reducible assumption
    | with_reducible apply kept_setEvt
    )

theorem kept_append {r s : State} (h : Kept r s) : ∀ a1 a2, Kept2 r (State.append s a1 a2) := by
  intro a1 a2
  unfold State.append
  repeat' (first
    | with_reducible assumption
    | with_reducible refine kept_ite ?_ ?_
    | with_reducible refine kept2_ite ?_ ?_
    | with_reducible apply kept_modQueue
    | with_reducible apply kept_slotWrite
    | with_reducible apply kept_slotFree
    | intro _
    | with_reducible apply Kept2.kept
    | with_reducible refine kept_snd (by assumption) ?_
    | dsimp only
    | split
    | with_reducible refine kept2_mk ?_ _
    )

theorem kept_appendAll {r s : State} (h : Kept r s) : ∀ a1 a2, Kept2 r (State.appendAll s a1 a2) := by
  intro a1 a2
  induction a2 generalizing s a1 with
  | nil =>
    unfold State.appendAll
    repeat' (first
      | with_reducible assumption
      | with_reducible refine kept_ite ?_ ?_
      | with_reducible refine kept2_ite ?_ ?_
      | with_reducible apply kept_append
      | intro _
      | with_reducible apply Kept2.kept
      | with_reducible refine kept_snd (by assumption) ?_
      | dsimp only
      | split
      | with_reducible refine kept2_mk ?_ _
      )
  | cons x l ih =>
    unfold State.appendAll
    repeat' (first
      | with_reducible apply ih
      | with_reducible assumption
      | with_reducible refine kept_ite ?_ ?_
      | with_reducible refine kept2_ite ?_ ?_
      | with_reducible apply kept_append
      | intro _
      | with_reducible apply Kept2.kept
      | with_reducible refine kept_snd (by assumption) ?_
      | dsimp only
      | split
      | with_reducible refine kept2_mk ?_ _
      )

theorem kept_corePush {r s : State} (h : Kept r s) : ∀ a1 a2 a3, Kept r (State.corePush s a1 a2 a3) := by
  intro a1 a2 a3
  unfold State.corePush
  repeat' (first
    | with_reducible assumption
    | with_reducible refine kept_ite ?_ ?_
    | with_reducible refine kept2_ite ?_ ?_
    | with_reducible apply kept_wrs
    | with_reducible apply kept_append
    | intro _
    | with_reducible apply Kept2.kept
    | with_reducible refine kept_snd (by assumption) ?_
    | dsimp only
    | split
    | with_reducible refine kept2_mk ?_ _
    )

end Sys2Proof.Laws
end

