-- ==== Sys2Proof/Laws/KeptModule.lean ====
section
/-! SUPPORT. What is kept (`Kept`) by the operations of photonics, fabric, die links, power, the roll call, boot and register access: one lemma per operation, `kept_<operation>`. -/

namespace Sys2Proof.Laws

open Sys2Proof.Machine

/-! ### Photonics -/

theorem kept_modFibre {r s : State} (h : Kept r s) : ∀ a1 a2, Kept r (State.modFibre s a1 a2) := by
  intro a1 a2
  unfold State.modFibre
  repeat' (first
    | with_reducible assumption
    | intro _
    | dsimp only
    | split
    | fail_if_no_progress (with_reducible refine kept_mk ?_ (by rfl) (by rfl) (by rfl) _ _ _ _ _ _ _ _ _ _ _ _ _ _ _ _ _ _ _)
    )

theorem kept_modSource {r s : State} (h : Kept r s) : ∀ a1 a2, Kept r (State.modSource s a1 a2) := by
  intro a1 a2
  unfold State.modSource
  repeat' (first
    | with_reducible assumption
    | intro _
    | dsimp only
    | split
    | fail_if_no_progress (with_reducible refine kept_mk ?_ (by rfl) (by rfl) (by rfl) _ _ _ _ _ _ _ _ _ _ _ _ _ _ _ _ _ _ _)
    )

theorem kept_modChan {r s : State} (h : Kept r s) : ∀ a1 a2, Kept r (State.modChan s a1 a2) := by
  intro a1 a2
  unfold State.modChan
  repeat' (first
    | with_reducible assumption
    | intro _
    | dsimp only
    | split
    | fail_if_no_progress (with_reducible refine kept_mk ?_ (by rfl) (by rfl) (by rfl) _ _ _ _ _ _ _ _ _ _ _ _ _ _ _ _ _ _ _)
    )

theorem kept_setRole {r s : State} (h : Kept r s) : ∀ a1 a2 a3, Kept r (State.setRole s a1 a2 a3) := by
  intro a1 a2 a3
  unfold State.setRole
  repeat' (first
    | with_reducible assumption
    | with_reducible apply kept_wrs
    )

theorem kept_phoEvent {r s : State} (h : Kept r s) : ∀ a1 a2 a3, Kept r (State.phoEvent s a1 a2 a3) := by
  intro a1 a2 a3
  unfold State.phoEvent
  repeat' (first
    | with_reducible assumption
    | with_reducible refine kept_ite ?_ ?_
    | with_reducible apply kept_wrs
    | with_reducible apply kept_incSat
    | with_reducible apply kept_faultNote
    )

theorem kept_ethFollow {r s : State} (h : Kept r s) : ∀ a1, Kept r (State.ethFollow s a1) := by
  intro a1
  unfold State.ethFollow
  repeat' (first
    | with_reducible assumption
    | with_reducible refine kept_ite ?_ ?_
    | with_reducible apply kept_wr
    )

theorem kept_ctrlSay {r s : State} (h : Kept r s) : ∀ a1 a2 a3, Kept r (State.ctrlSay s a1 a2 a3) := by
  intro a1 a2 a3
  unfold State.ctrlSay
  repeat' (first
    | with_reducible assumption
    | intro _
    | dsimp only
    | split
    | fail_if_no_progress (with_reducible refine kept_mk ?_ (by rfl) (by rfl) (by rfl) _ _ _ _ _ _ _ _ _ _ _ _ _ _ _ _ _ _ _)
    )

theorem kept_modLink {r s : State} (h : Kept r s) : ∀ a1 a2, Kept r (State.modLink s a1 a2) := by
  intro a1 a2
  unfold State.modLink
  repeat' (first
    | with_reducible assumption
    | intro _
    | dsimp only
    | split
    | fail_if_no_progress (with_reducible refine kept_mk ?_ (by rfl) (by rfl) (by rfl) _ _ _ _ _ _ _ _ _ _ _ _ _ _ _ _ _ _ _)
    )

theorem kept_dozeRoles {r s : State} (h : Kept r s) : ∀ a1 a2, Kept r (State.dozeRoles s a1 a2) := by
  intro a1 a2
  unfold State.dozeRoles
  repeat' (first
    | with_reducible assumption
    | with_reducible refine kept_ite ?_ ?_
    | with_reducible apply kept_setRole
    | with_reducible refine kept_foldl ?_ ?_
    | intro _
    )

theorem kept_relink {r s : State} (h : Kept r s) : ∀ a1 a2, Kept r (State.relink s a1 a2) := by
  intro a1 a2
  unfold State.relink
  repeat' (first
    | with_reducible assumption
    | with_reducible refine kept_ite ?_ ?_
    | with_reducible apply kept_wrs
    | with_reducible apply kept_faultNote
    | with_reducible apply kept_phoEvent
    | with_reducible apply kept_modLink
    | with_reducible apply kept_dozeRoles
    )

theorem kept_spareLine {r s : State} (h : Kept r s) : ∀ a1 a2 a3 a4, Kept r (State.spareLine s a1 a2 a3 a4) := by
  intro a1 a2 a3 a4
  unfold State.spareLine
  repeat' (first
    | with_reducible assumption
    | with_reducible refine kept_ite ?_ ?_
    | with_reducible apply kept_wrs
    )

theorem kept_takeOver {r s : State} (h : Kept r s) : ∀ a1 a2, Kept r (State.takeOver s a1 a2) := by
  intro a1 a2
  unfold State.takeOver
  repeat' (first
    | with_reducible assumption
    | with_reducible refine kept_ite ?_ ?_
    | with_reducible apply kept_incWrap
    | with_reducible apply kept_modFibre
    | with_reducible apply kept_setRole
    | with_reducible apply kept_ctrlSay
    )

theorem kept_lineOver {r s : State} (h : Kept r s) : ∀ a1, Kept r (State.lineOver s a1) := by
  intro a1
  unfold State.lineOver
  repeat' (first
    | with_reducible assumption
    | with_reducible apply kept_incWrap
    | with_reducible apply kept_modFibre
    | with_reducible apply kept_ctrlSay
    | with_reducible apply kept_spareLine
    )

theorem kept_losePos {r s : State} (h : Kept r s) : ∀ a1, Kept r (State.losePos s a1) := by
  intro a1
  unfold State.losePos
  repeat' (first
    | with_reducible assumption
    | with_reducible apply kept_modFibre
    | with_reducible apply kept_relink
    )

theorem kept_failServed {r s : State} (h : Kept r s) : ∀ a1, Kept r (State.failServed s a1) := by
  intro a1
  unfold State.failServed
  repeat' (first
    | with_reducible assumption
    | with_reducible refine kept_ite ?_ ?_
    | with_reducible apply kept_relink
    | with_reducible apply kept_takeOver
    | with_reducible apply kept_losePos
    | intro _
    | dsimp only
    | split
    )

theorem kept_failServing {r s : State} (h : Kept r s) : ∀ a1, Kept r (State.failServing s a1) := by
  intro a1
  unfold State.failServing
  repeat' (first
    | with_reducible assumption
    | with_reducible refine kept_ite ?_ ?_
    | with_reducible apply kept_losePos
    | intro _
    | dsimp only
    | split
    )

theorem kept_failFibre {r s : State} (h : Kept r s) : ∀ a1 a2, Kept r (State.failFibre s a1 a2) := by
  intro a1 a2
  unfold State.failFibre
  repeat' (first
    | with_reducible assumption
    | with_reducible refine kept_ite ?_ ?_
    | with_reducible apply kept_modFibre
    | with_reducible apply kept_setRole
    | with_reducible apply kept_phoEvent
    | with_reducible apply kept_ethFollow
    | with_reducible apply kept_failServed
    | with_reducible apply kept_failServing
    )

theorem kept_dropFibre {r s : State} (h : Kept r s) : ∀ a1, Kept r (State.dropFibre s a1) := by
  intro a1
  unfold State.dropFibre
  repeat' (first
    | with_reducible assumption
    | with_reducible apply kept_setRole
    | with_reducible apply kept_losePos
    )

theorem kept_startMirror {r s : State} (h : Kept r s) : ∀ a1 a2, Kept r (State.startMirror s a1 a2) := by
  intro a1 a2
  unfold State.startMirror
  repeat' (first
    | with_reducible assumption
    | with_reducible refine kept_ite ?_ ?_
    | with_reducible apply kept_modFibre
    | with_reducible apply kept_setRole
    | with_reducible apply kept_ctrlSay
    )

theorem kept_mirrorFibre {r s : State} (h : Kept r s) : ∀ a1, Kept r (State.mirrorFibre s a1) := by
  intro a1
  unfold State.mirrorFibre
  repeat' (first
    | with_reducible assumption
    | with_reducible refine kept_ite ?_ ?_
    | with_reducible apply kept_startMirror
    | intro _
    | dsimp only
    | split
    )

theorem kept_fibreStage {r s : State} (h : Kept r s) : ∀ a1 a2, Kept r (State.fibreStage s a1 a2) := by
  intro a1 a2
  unfold State.fibreStage
  repeat' (first
    | with_reducible assumption
    | with_reducible refine kept_ite ?_ ?_
    | with_reducible apply kept_failFibre
    | with_reducible apply kept_dropFibre
    | with_reducible apply kept_mirrorFibre
    )

theorem kept_meetStages {r s : State} (h : Kept r s) : ∀ a1, Kept r (State.meetStages s a1) := by
  intro a1
  unfold State.meetStages
  repeat' (first
    | with_reducible assumption
    | with_reducible apply kept_fibreStage
    | with_reducible refine kept_foldl ?_ ?_
    | intro _
    )

theorem kept_lineFailed {r s : State} (h : Kept r s) : ∀ a1, Kept r (State.lineFailed s a1) := by
  intro a1
  unfold State.lineFailed
  repeat' (first
    | with_reducible assumption
    | with_reducible refine kept_ite ?_ ?_
    | with_reducible apply kept_lineOver
    | with_reducible apply kept_failFibre
    )

theorem kept_lineStage {r s : State} (h : Kept r s) : ∀ a1 a2 a3, Kept r (State.lineStage s a1 a2 a3) := by
  intro a1 a2 a3
  unfold State.lineStage
  repeat' (first
    | with_reducible assumption
    | with_reducible refine kept_ite ?_ ?_
    | with_reducible apply kept_modFibre
    | with_reducible apply kept_failFibre
    | with_reducible apply kept_startMirror
    | with_reducible apply kept_lineFailed
    )

theorem kept_lineHeld {r s : State} (h : Kept r s) : ∀ a1, Kept r (State.lineHeld s a1) := by
  intro a1
  unfold State.lineHeld
  repeat' (first
    | with_reducible assumption
    | with_reducible apply kept_lineStage
    )

theorem kept_failChan {r s : State} (h : Kept r s) : ∀ a1, Kept r (State.failChan s a1) := by
  intro a1
  unfold State.failChan
  repeat' (first
    | with_reducible assumption
    | with_reducible refine kept_ite ?_ ?_
    | with_reducible apply kept_modChan
    | with_reducible apply kept_phoEvent
    )

theorem kept_failWave {r s : State} (h : Kept r s) : ∀ a1, Kept r (State.failWave s a1) := by
  intro a1
  unfold State.failWave
  repeat' (first
    | with_reducible assumption
    | with_reducible apply kept_failChan
    | with_reducible refine kept_foldl ?_ ?_
    | intro _
    )

theorem kept_stageActs {r s : State} (h : Kept r s) : ∀ a1, Kept r (State.stageActs s a1) := by
  intro a1
  unfold State.stageActs
  repeat' (first
    | with_reducible assumption
    | with_reducible refine kept_ite ?_ ?_
    | with_reducible apply kept_fibreStage
    | with_reducible apply kept_lineStage
    | with_reducible apply kept_failWave
    | with_reducible refine kept_foldl ?_ ?_
    | intro _
    | with_reducible apply Kept2.kept
    | with_reducible apply Kept1.kept
    | dsimp only
    | split
    )

theorem kept_setStage {r s : State} (h : Kept r s) : ∀ a1 a2, Kept r (State.setStage s a1 a2) := by
  intro a1 a2
  unfold State.setStage
  repeat' (first
    | with_reducible assumption
    | with_reducible apply kept_wr
    | with_reducible apply kept_wrBit
    | with_reducible apply kept_phoEvent
    )

theorem kept_sampleSource {r s : State} (h : Kept r s) : ∀ a1 a2, Kept1 r (State.sampleSource s a1 a2) := by
  intro a1 a2
  unfold State.sampleSource
  repeat' (first
    | with_reducible assumption
    | with_reducible refine kept_ite ?_ ?_
    | with_reducible refine kept1_ite ?_ ?_
    | with_reducible apply kept_wrs
    | with_reducible apply kept_modSource
    | with_reducible apply kept_setStage
    | intro _
    | with_reducible apply Kept1.kept
    | dsimp only
    | split
    | with_reducible refine kept1_mk ?_ _
    )

theorem kept_waveMove {r s : State} (h : Kept r s) : ∀ a1 a2 a3 a4, Kept r (State.waveMove s a1 a2 a3 a4) := by
  intro a1 a2 a3 a4
  unfold State.waveMove
  repeat' (first
    | with_reducible assumption
    | with_reducible refine kept_ite ?_ ?_
    | with_reducible apply kept_modFibre
    | with_reducible refine kept_foldl ?_ ?_
    | intro _
    )

theorem kept_spareLost {r s : State} (h : Kept r s) : ∀ a1 a2 a3, Kept r (State.spareLost s a1 a2 a3) := by
  intro a1 a2 a3
  unfold State.spareLost
  repeat' (first
    | with_reducible assumption
    | with_reducible refine kept_ite ?_ ?_
    | with_reducible apply kept_modFibre
    | with_reducible apply kept_failFibre
    )

theorem kept_ringMove {r s : State} (h : Kept r s) : ∀ a1 a2 a3 a4, Kept r (State.ringMove s a1 a2 a3 a4) := by
  intro a1 a2 a3 a4
  unfold State.ringMove
  repeat' (first
    | with_reducible assumption
    | with_reducible refine kept_ite ?_ ?_
    | with_reducible apply kept_incWrap
    | with_reducible apply kept_modFibre
    | with_reducible apply kept_phoEvent
    | with_reducible apply kept_ctrlSay
    | with_reducible apply kept_spareLine
    | with_reducible apply kept_failFibre
    | with_reducible apply kept_failChan
    | with_reducible apply kept_waveMove
    | with_reducible apply kept_spareLost
    )

theorem kept_startLaneMove {r s : State} (h : Kept r s) : ∀ a1 a2 a3, Kept r (State.startLaneMove s a1 a2 a3) := by
  intro a1 a2 a3
  unfold State.startLaneMove
  repeat' (first
    | with_reducible assumption
    | with_reducible refine kept_ite ?_ ?_
    | with_reducible apply kept_modFibre
    | with_reducible apply kept_ctrlSay
    | with_reducible apply kept_failFibre
    | with_reducible apply kept_spareLost
    )

theorem kept_compareFibre {r s : State} (h : Kept r s) : ∀ a1 a2, Kept r (State.compareFibre s a1 a2) := by
  intro a1 a2
  unfold State.compareFibre
  repeat' (first
    | with_reducible assumption
    | with_reducible apply kept_modFibre
    )

theorem kept_compareLane {r s : State} (h : Kept r s) : ∀ a1 a2 a3, Kept r (State.compareLane s a1 a2 a3) := by
  intro a1 a2 a3
  unfold State.compareLane
  repeat' (first
    | with_reducible assumption
    | with_reducible apply kept_modFibre
    )

theorem kept_rescue {r s : State} (h : Kept r s) : ∀ a1, Kept r (State.rescue s a1) := by
  intro a1
  unfold State.rescue
  repeat' (first
    | with_reducible assumption
    | with_reducible refine kept_ite ?_ ?_
    | with_reducible apply kept_relink
    | with_reducible apply kept_takeOver
    | with_reducible apply kept_lineOver
    | intro _
    | dsimp only
    | split
    )

theorem kept_peerStart {r s : State} (h : Kept r s) : ∀ a1 a2 a3, Kept r (State.peerStart s a1 a2 a3) := by
  intro a1 a2 a3
  unfold State.peerStart
  repeat' (first
    | with_reducible assumption
    | with_reducible refine kept_ite ?_ ?_
    | with_reducible apply kept_modFibre
    )

theorem kept_comparePeer {r s : State} (h : Kept r s) : ∀ a1 a2, Kept r (State.comparePeer s a1 a2) := by
  intro a1 a2
  unfold State.comparePeer
  repeat' (first
    | with_reducible assumption
    | with_reducible apply kept_modFibre
    )

theorem kept_peerOver {r s : State} (h : Kept r s) : ∀ a1 a2, Kept r (State.peerOver s a1 a2) := by
  intro a1 a2
  unfold State.peerOver
  repeat' (first
    | with_reducible assumption
    | with_reducible refine kept_ite ?_ ?_
    | with_reducible apply kept_incWrap
    | with_reducible apply kept_wrs
    | with_reducible apply kept_modFibre
    | with_reducible apply kept_ctrlSay
    )

theorem kept_peerSwitch {r s : State} (h : Kept r s) : ∀ a1 a2, Kept r (State.peerSwitch s a1 a2) := by
  intro a1 a2
  unfold State.peerSwitch
  repeat' (first
    | with_reducible assumption
    | with_reducible refine kept_ite ?_ ?_
    | with_reducible apply kept_peerOver
    | intro _
    | dsimp only
    | split
    )

theorem kept_peerFrames {r s : State} (h : Kept r s) : ∀ a1, Kept r (State.peerFrames s a1) := by
  intro a1
  unfold State.peerFrames
  repeat' (first
    | with_reducible assumption
    | with_reducible refine kept_ite ?_ ?_
    | with_reducible apply kept_peerStart
    | with_reducible apply kept_comparePeer
    | with_reducible apply kept_peerSwitch
    | intro _
    | dsimp only
    | split
    )

theorem kept_switchFibre {r s : State} (h : Kept r s) : ∀ a1, Kept r (State.switchFibre s a1) := by
  intro a1
  unfold State.switchFibre
  repeat' (first
    | with_reducible assumption
    | with_reducible refine kept_ite ?_ ?_
    | with_reducible apply kept_takeOver
    | with_reducible apply kept_lineOver
    | intro _
    | dsimp only
    | split
    )

theorem kept_switchLane {r s : State} (h : Kept r s) : ∀ a1 a2, Kept r (State.switchLane s a1 a2) := by
  intro a1 a2
  unfold State.switchLane
  repeat' (first
    | with_reducible assumption
    | with_reducible refine kept_ite ?_ ?_
    | with_reducible apply kept_ringMove
    | intro _
    | dsimp only
    | split
    )

theorem kept_storeCal {r s : State} (h : Kept r s) : ∀ a1 a2 a3 a4, Kept r (State.storeCal s a1 a2 a3 a4) := by
  intro a1 a2 a3 a4
  unfold State.storeCal
  repeat' (first
    | with_reducible assumption
    | with_reducible apply kept_putUcal
    )

theorem kept_keepCal {r s : State} (h : Kept r s) : ∀ a1 a2 a3, Kept r (State.keepCal s a1 a2 a3) := by
  intro a1 a2 a3
  unfold State.keepCal
  repeat' (first
    | with_reducible assumption
    | with_reducible refine kept_ite ?_ ?_
    | with_reducible apply kept_storeCal
    | intro _
    | dsimp only
    | split
    | fail_if_no_progress (with_reducible refine kept_mk ?_ (by rfl) (by rfl) (by rfl) _ _ _ _ _ _ _ _ _ _ _ _ _ _ _ _ _ _ _)
    )

theorem kept_storeSwept {r s : State} (h : Kept r s) : Kept r (State.storeSwept s) := by
  unfold State.storeSwept
  repeat' (first
    | with_reducible assumption
    | with_reducible apply kept_storeCal
    | with_reducible refine kept_foldl ?_ ?_
    | intro _
    | with_reducible apply Kept2.kept
    | with_reducible apply Kept1.kept
    | dsimp only
    | split
    | fail_if_no_progress (with_reducible refine kept_mk ?_ (by rfl) (by rfl) (by rfl) _ _ _ _ _ _ _ _ _ _ _ _ _ _ _ _ _ _ _)
    )

theorem kept_tunedSide {r s : State} (h : Kept r s) : ∀ a1 a2 a3, Kept r (State.tunedSide s a1 a2 a3) := by
  intro a1 a2 a3
  unfold State.tunedSide
  repeat' (first
    | with_reducible assumption
    | with_reducible refine kept_ite ?_ ?_
    | with_reducible apply kept_wr
    | with_reducible apply kept_wrs
    | with_reducible apply kept_modFibre
    | with_reducible apply kept_setRole
    | with_reducible apply kept_ethFollow
    | with_reducible apply kept_spareLine
    | with_reducible apply kept_lineHeld
    | with_reducible apply kept_keepCal
    )

theorem kept_tuneFail {r s : State} (h : Kept r s) : ∀ a1, Kept r (State.tuneFail s a1) := by
  intro a1
  unfold State.tuneFail
  repeat' (first
    | with_reducible assumption
    | with_reducible refine kept_ite ?_ ?_
    | with_reducible apply kept_wr
    | with_reducible apply kept_failFibre
    | with_reducible apply kept_failWave
    )

theorem kept_dimSource {r s : State} (h : Kept r s) : ∀ a1, Kept r (State.dimSource s a1) := by
  intro a1
  unfold State.dimSource
  repeat' (first
    | with_reducible assumption
    | with_reducible refine kept_ite ?_ ?_
    | with_reducible apply kept_modSource
    )

theorem kept_giveChan {r s : State} (h : Kept r s) : ∀ a1 a2, Kept r (State.giveChan s a1 a2) := by
  intro a1 a2
  unfold State.giveChan
  repeat' (first
    | with_reducible assumption
    | with_reducible refine kept_ite ?_ ?_
    | with_reducible apply kept_modChan
    )

/-! ### Fabric -/

theorem kept_slotTaken {r s : State} (h : Kept r s) : ∀ a1 a2 a3, Kept r (State.slotTaken s a1 a2 a3) := by
  intro a1 a2 a3
  unfold State.slotTaken
  repeat' (first
    | with_reducible assumption
    | with_reducible apply kept_modLink
    )

theorem kept_slotFreed {r s : State} (h : Kept r s) : ∀ a1 a2 a3, Kept r (State.slotFreed s a1 a2 a3) := by
  intro a1 a2 a3
  unfold State.slotFreed
  repeat' (first
    | with_reducible assumption
    | with_reducible refine kept_ite ?_ ?_
    | with_reducible apply kept_ctrlSay
    | with_reducible apply kept_modLink
    )

theorem kept_transmit {r s : State} (h : Kept r s) : ∀ a1 a2 a3, Kept r (State.transmit s a1 a2 a3) := by
  intro a1 a2 a3
  unfold State.transmit
  repeat' (first
    | with_reducible assumption
    | with_reducible refine kept_ite ?_ ?_
    | with_reducible apply kept_incWrap
    | with_reducible apply kept_mark
    | with_reducible apply kept_modLink
    | with_reducible apply kept_slotFreed
    | intro _
    | dsimp only
    | split
    | fail_if_no_progress (with_reducible refine kept_mk ?_ (by rfl) (by rfl) (by rfl) _ _ _ _ _ _ _ _ _ _ _ _ _ _ _ _ _ _ _)
    )

theorem kept_drainList {r s : State} (h : Kept r s) : ∀ a1 a2 a3, Kept r (State.drainList s a1 a2 a3) := by
  intro a1 a2 a3
  induction a3 generalizing s a1 a2 with
  | nil =>
    unfold State.drainList
    repeat' (first
      | with_reducible assumption
      )
  | cons x l ih =>
    unfold State.drainList
    repeat' (first
      | with_reducible apply ih
      | with_reducible assumption
      | with_reducible refine kept_ite ?_ ?_
      | with_reducible apply kept_transmit
      | intro _
      | dsimp only
      | split
      )

theorem kept_drain {r s : State} (h : Kept r s) : ∀ a1, Kept r (State.drain s a1) := by
  intro a1
  unfold State.drain
  repeat' (first
    | with_reducible assumption
    | with_reducible refine kept_ite ?_ ?_
    | with_reducible apply kept_drainList
    )

theorem kept_enqueue {r s : State} (h : Kept r s) : ∀ a1 a2 a3 a4, Kept r (State.enqueue s a1 a2 a3 a4) := by
  intro a1 a2 a3 a4
  unfold State.enqueue
  repeat' (first
    | with_reducible assumption
    | with_reducible apply kept_modLink
    | with_reducible apply kept_drain
    )

theorem kept_dropQueue {r s : State} (h : Kept r s) : ∀ a1, Kept r (State.dropQueue s a1) := by
  intro a1
  unfold State.dropQueue
  repeat' (first
    | with_reducible assumption
    | with_reducible apply kept_incSat
    | with_reducible apply kept_modLink
    | with_reducible apply kept_slotFreed
    | with_reducible refine kept_foldl ?_ ?_
    | intro _
    )

theorem kept_flood {r s : State} (h : Kept r s) : ∀ a1 a2, Kept r (State.flood s a1 a2) := by
  intro a1 a2
  unfold State.flood
  repeat' (first
    | with_reducible assumption
    | with_reducible refine kept_ite ?_ ?_
    | with_reducible apply kept_incSat
    | with_reducible apply kept_enqueue
    | with_reducible refine kept_foldl ?_ ?_
    | intro _
    )

theorem kept_combine {r s : State} (h : Kept r s) : ∀ a1 a2, Kept2 r (State.combine s a1 a2) := by
  intro a1 a2
  unfold State.combine
  repeat' (first
    | with_reducible assumption
    | with_reducible refine kept_ite ?_ ?_
    | with_reducible refine kept2_ite ?_ ?_
    | with_reducible apply kept_incWrap
    | with_reducible apply kept_setCombs
    | intro _
    | with_reducible apply Kept2.kept
    | dsimp only
    | split
    | with_reducible refine kept2_mk ?_ _
    )

theorem kept_combineAll {r s : State} (h : Kept r s) : ∀ a1 a2, Kept2 r (State.combineAll s a1 a2) := by
  intro p l
  induction l generalizing s with
  | nil => exact h
  | cons b l ih =>
    have hc := kept_combine h b p
    show Kept2 r (if (s.combine b p).1 = true then (true, (s.combine b p).2) else State.combineAll (s.combine b p).2 p l)
    exact kept2_ite hc (ih hc)

theorem kept_uncombine {r s : State} (h : Kept r s) : ∀ a1 a2 a3, Kept r (State.uncombine s a1 a2 a3) := by
  intro a1 a2 a3
  unfold State.uncombine
  repeat' (first
    | with_reducible assumption
    | with_reducible refine kept_ite ?_ ?_
    | with_reducible apply kept_setCombs
    | with_reducible refine kept_foldl ?_ ?_
    | intro _
    | with_reducible apply Kept2.kept
    | with_reducible apply Kept1.kept
    | dsimp only
    | split
    | fail_if_no_progress (with_reducible refine kept_mk ?_ (by rfl) (by rfl) (by rfl) _ _ _ _ _ _ _ _ _ _ _ _ _ _ _ _ _ _ _)
    )

theorem kept_route {r s : State} (h : Kept r s) : ∀ a1 a2 a3, Kept r (State.route s a1 a2 a3) := by
  intro a1 a2 a3
  unfold State.route
  repeat' (first
    | with_reducible assumption
    | with_reducible refine kept_ite ?_ ?_
    | with_reducible refine kept2_ite ?_ ?_
    | with_reducible apply kept_incSat
    | with_reducible apply kept_slotFreed
    | with_reducible apply kept_enqueue
    | with_reducible apply kept_combineAll
    | with_reducible apply kept_uncombine
    | intro _
    | with_reducible apply Kept2.kept
    | with_reducible refine kept_snd (by assumption) ?_
    | dsimp only
    | split
    | with_reducible refine kept2_mk ?_ _
    | fail_if_no_progress (with_reducible refine kept_mk ?_ (by rfl) (by rfl) (by rfl) _ _ _ _ _ _ _ _ _ _ _ _ _ _ _ _ _ _ _)
    )

theorem kept_arrive {r s : State} (h : Kept r s) : ∀ a1 a2, Kept r (State.arrive s a1 a2) := by
  intro a1 a2
  unfold State.arrive
  repeat' (first
    | with_reducible assumption
    | with_reducible refine kept_ite ?_ ?_
    | with_reducible apply kept_slotTaken
    | with_reducible apply kept_route
    | intro _
    | dsimp only
    | split
    )

theorem kept_fibreSeen {r s : State} (h : Kept r s) : ∀ a1 a2, Kept r (State.fibreSeen s a1 a2) := by
  intro a1 a2
  unfold State.fibreSeen
  repeat' (first
    | with_reducible assumption
    | with_reducible apply kept_incWrap
    | with_reducible apply kept_wrs
    )

theorem kept_hopIn {r s : State} (h : Kept r s) : ∀ a1 a2, Kept r (State.hopIn s a1 a2) := by
  intro a1 a2
  unfold State.hopIn
  repeat' (first
    | with_reducible assumption
    | with_reducible refine kept_ite ?_ ?_
    | with_reducible apply kept_incWrap
    | with_reducible apply kept_arrive
    )

theorem kept_hopItems {r s : State} (h : Kept r s) : ∀ a1 a2 a3 a4 a5 a6, Kept r (State.hopItems s a1 a2 a3 a4 a5 a6) := by
  intro a1 a2 a3 a4 a5 a6
  induction a6 generalizing s a1 a2 a3 a4 a5 with
  | nil =>
    unfold State.hopItems
    repeat' (first
      | with_reducible assumption
      | with_reducible refine kept_ite ?_ ?_
      | with_reducible apply kept_modLink
      )
  | cons x l ih =>
    unfold State.hopItems
    repeat' (first
      | with_reducible apply ih
      | with_reducible assumption
      | with_reducible refine kept_ite ?_ ?_
      | with_reducible apply kept_modLink
      | with_reducible apply kept_hopIn
      )

theorem kept_givePositions {r s : State} (h : Kept r s) : ∀ a1, Kept r (State.givePositions s a1) := by
  intro a1
  unfold State.givePositions
  repeat' (first
    | with_reducible assumption
    | with_reducible refine kept_ite ?_ ?_
    | with_reducible apply kept_modFibre
    | with_reducible apply kept_setRole
    | with_reducible apply kept_meetStages
    | with_reducible refine kept_foldl ?_ ?_
    | intro _
    | with_reducible apply Kept2.kept
    | with_reducible apply Kept1.kept
    | dsimp only
    | split
    )

theorem kept_setLink {r s : State} (h : Kept r s) : ∀ a1 a2 a3 a4 a5, Kept r (State.setLink s a1 a2 a3 a4 a5) := by
  intro a1 a2 a3 a4 a5
  unfold State.setLink
  repeat' (first
    | with_reducible assumption
    | with_reducible apply kept_wrs
    )

theorem kept_linkFresh {r s : State} (h : Kept r s) : ∀ a1 a2, Kept r (State.linkFresh s a1 a2) := by
  intro a1 a2
  unfold State.linkFresh
  repeat' (first
    | with_reducible assumption
    | with_reducible apply kept_modLink
    | with_reducible apply kept_dropQueue
    )

theorem kept_linkDown {r s : State} (h : Kept r s) : ∀ a1, Kept r (State.linkDown s a1) := by
  intro a1
  unfold State.linkDown
  repeat' (first
    | with_reducible assumption
    | with_reducible apply kept_setLink
    | with_reducible apply kept_linkFresh
    )

theorem kept_miswire {r s : State} (h : Kept r s) : ∀ a1, Kept r (State.miswire s a1) := by
  intro a1
  unfold State.miswire
  repeat' (first
    | with_reducible assumption
    | with_reducible apply kept_faultNote
    | with_reducible apply kept_modLink
    | with_reducible apply kept_setLink
    )

theorem kept_leaveFabric {r s : State} (h : Kept r s) : Kept r (State.leaveFabric s) := by
  unfold State.leaveFabric
  repeat' (first
    | with_reducible assumption
    | with_reducible refine kept_ite ?_ ?_
    | with_reducible apply kept_wr
    | with_reducible apply kept_linkDown
    | with_reducible refine kept_foldl ?_ ?_
    | intro _
    )

theorem kept_writeFabCtl {r s : State} (h : Kept r s) : ∀ a1, Kept r (State.writeFabCtl s a1) := by
  intro a1
  unfold State.writeFabCtl
  repeat' (first
    | with_reducible assumption
    | with_reducible refine kept_ite ?_ ?_
    | with_reducible apply kept_wr
    | with_reducible apply kept_pump
    | intro _
    | dsimp only
    | split
    | fail_if_no_progress (with_reducible refine kept_mk ?_ (by rfl) (by rfl) (by rfl) _ _ _ _ _ _ _ _ _ _ _ _ _ _ _ _ _ _ _)
    )

theorem kept_writeFabPool {r s : State} (h : Kept r s) : ∀ a1, Kept r (State.writeFabPool s a1) := by
  intro a1
  unfold State.writeFabPool
  repeat' (first
    | with_reducible assumption
    | with_reducible refine kept_ite ?_ ?_
    | with_reducible apply kept_wr
    | with_reducible apply kept_writeFields
    )

/-! ### Ethernet -/

theorem kept_writeEthCfg {r s : State} (h : Kept r s) : ∀ a1 a2, Kept r (State.writeEthCfg s a1 a2) := by
  intro a1 a2
  unfold State.writeEthCfg
  repeat' (first
    | with_reducible assumption
    | with_reducible refine kept_ite ?_ ?_
    | with_reducible apply kept_wr
    | with_reducible apply kept_wrs
    )

theorem kept_ethSay {r s : State} (h : Kept r s) : ∀ a1 a2, Kept r (State.ethSay s a1 a2) := by
  intro a1 a2
  unfold State.ethSay
  repeat' (first
    | with_reducible assumption
    | intro _
    | dsimp only
    | split
    | fail_if_no_progress (with_reducible refine kept_mk ?_ (by rfl) (by rfl) (by rfl) _ _ _ _ _ _ _ _ _ _ _ _ _ _ _ _ _ _ _)
    )

theorem kept_modQp {r s : State} (h : Kept r s) : ∀ a1 a2 a3, Kept r (State.modQp s a1 a2 a3) := by
  intro a1 a2 a3
  unfold State.modQp
  repeat' (first
    | with_reducible assumption
    | intro _
    | dsimp only
    | split
    | fail_if_no_progress (with_reducible refine kept_mk ?_ (by rfl) (by rfl) (by rfl) _ _ _ _ _ _ _ _ _ _ _ _ _ _ _ _ _ _ _)
    )

theorem kept_qpError {r s : State} (h : Kept r s) : ∀ a1 a2 a3, Kept r (State.qpError s a1 a2 a3) := by
  intro a1 a2 a3
  unfold State.qpError
  repeat' (first
    | with_reducible assumption
    | with_reducible apply kept_lWrite
    | with_reducible apply kept_incSat
    | with_reducible apply kept_modQp
    )

theorem kept_qpReady {r s : State} (h : Kept r s) : ∀ a1 a2, Kept2 r (State.qpReady s a1 a2) := by
  intro a1 a2
  unfold State.qpReady
  repeat' (first
    | with_reducible assumption
    | with_reducible refine kept_ite ?_ ?_
    | with_reducible refine keptRd_ite ?_ ?_
    | with_reducible refine kept2_ite ?_ ?_
    | with_reducible apply kept_lRead
    | with_reducible apply kept_qpError
    | intro _
    | with_reducible apply KeptRd.kept
    | with_reducible apply Kept2.kept
    | dsimp only
    | split
    | with_reducible refine keptRd_mk ?_ _ _ _
    | with_reducible refine kept2_mk ?_ _
    )

theorem kept_qpStep {r s : State} (h : Kept r s) : ∀ a1 a2, Kept r (State.qpStep s a1 a2) := by
  intro a1 a2
  unfold State.qpStep
  repeat' (first
    | with_reducible assumption
    | with_reducible apply kept_lWrite
    )

theorem kept_cnp {r s : State} (h : Kept r s) : ∀ a1 a2 a3 a4, Kept r (State.cnp s a1 a2 a3 a4) := by
  intro a1 a2 a3 a4
  unfold State.cnp
  repeat' (first
    | with_reducible assumption
    | with_reducible refine kept_ite ?_ ?_
    | with_reducible apply kept_ecn
    | with_reducible apply kept_ethSay
    | with_reducible apply kept_modQp
    )

theorem kept_regionOk {r s : State} (h : Kept r s) : ∀ a1 a2 a3 a4 a5, Kept2 r (State.regionOk s a1 a2 a3 a4 a5) := by
  intro a1 a2 a3 a4 a5
  unfold State.regionOk
  repeat' (first
    | with_reducible assumption
    | with_reducible refine kept_ite ?_ ?_
    | with_reducible refine keptRd_ite ?_ ?_
    | with_reducible refine kept2_ite ?_ ?_
    | with_reducible apply kept_lRead
    | intro _
    | with_reducible apply KeptRd.kept
    | with_reducible apply Kept2.kept
    | dsimp only
    | split
    | with_reducible refine keptRd_mk ?_ _ _ _
    | with_reducible refine kept2_mk ?_ _
    )

theorem kept_accessNak {r s : State} (h : Kept r s) : ∀ a1 a2 a3, Kept r (State.accessNak s a1 a2 a3) := by
  intro a1 a2 a3
  unfold State.accessNak
  repeat' (first
    | with_reducible assumption
    | with_reducible apply kept_incSat
    | with_reducible apply kept_ethSay
    )

theorem kept_roce {r s : State} (h : Kept r s) : ∀ a1 a2 a3 a4, (∀ t0 t1, Kept r t0 → Kept r (a3 t0 t1)) → (∀ t0 t1, Kept r t0 → Kept r (a4 t0 t1)) → Kept r (State.roce s a1 a2 a3 a4) := by
  intro a1 a2 a3 a4 ha3 ha4
  unfold State.roce
  repeat' (first
    | with_reducible assumption
    | with_reducible refine kept_ite ?_ ?_
    | with_reducible refine kept2_ite ?_ ?_
    | with_reducible refine ha3 _ _ ?_
    | with_reducible refine ha4 _ _ ?_
    | with_reducible apply kept_ecn
    | with_reducible apply kept_ethSay
    | with_reducible apply kept_qpReady
    | with_reducible apply kept_cnp
    | intro _
    | with_reducible apply Kept2.kept
    | with_reducible refine kept_snd (by assumption) ?_
    | dsimp only
    | split
    )

theorem kept_roceData {r s : State} (h : Kept r s) : ∀ a1 a2 a3 a4, (∀ t0 t1, Kept r t0 → Kept r (a4 t0 t1)) → Kept r (State.roceData s a1 a2 a3 a4) := by
  intro a1 a2 a3 a4 ha4
  unfold State.roceData
  repeat' (first
    | with_reducible assumption
    | with_reducible refine kept_ite ?_ ?_
    | with_reducible refine ha4 _ _ ?_
    | with_reducible apply kept_eWrite
    | with_reducible apply kept_ethSay
    | with_reducible apply kept_modQp
    | with_reducible apply kept_qpStep
    )

theorem kept_qpOpen {r s : State} (h : Kept r s) : ∀ a1 a2 a3 a4 a5, Kept r (State.qpOpen s a1 a2 a3 a4 a5) := by
  intro a1 a2 a3 a4 a5
  unfold State.qpOpen
  repeat' (first
    | with_reducible assumption
    | with_reducible apply kept_modQp
    )

theorem kept_invalidNak {r s : State} (h : Kept r s) : ∀ a1 a2 a3, Kept r (State.invalidNak s a1 a2 a3) := by
  intro a1 a2 a3
  unfold State.invalidNak
  repeat' (first
    | with_reducible assumption
    | with_reducible apply kept_ethSay
    | with_reducible apply kept_modQp
    )

theorem kept_writeAct {r s : State} (h : Kept r s) : ∀ a1 a2 a3, Kept r (State.writeAct s a1 a2 a3) := by
  intro a1 a2 a3
  unfold State.writeAct
  repeat' (first
    | with_reducible assumption
    | with_reducible refine kept_ite ?_ ?_
    | with_reducible refine kept2_ite ?_ ?_
    | with_reducible apply kept_qpError
    | with_reducible apply kept_regionOk
    | with_reducible apply kept_accessNak
    | with_reducible apply kept_roceData
    | with_reducible apply kept_qpOpen
    | with_reducible apply kept_invalidNak
    | intro _
    | with_reducible apply Kept2.kept
    | with_reducible refine kept_snd (by assumption) ?_
    | dsimp only
    | split
    | with_reducible refine kept2_mk ?_ _
    )

theorem kept_readAnswer {r s : State} (h : Kept r s) : ∀ a1 a2 a3, Kept r (State.readAnswer s a1 a2 a3) := by
  intro a1 a2 a3
  unfold State.readAnswer
  repeat' (first
    | with_reducible assumption
    | with_reducible refine kept_ite ?_ ?_
    | with_reducible refine keptRd_ite ?_ ?_
    | with_reducible apply kept_eRead
    | with_reducible apply kept_ethSay
    | with_reducible refine kept_foldl ?_ ?_
    | with_reducible refine keptRd_foldl ?_ ?_
    | intro _
    | with_reducible apply KeptRd.kept
    )

theorem kept_readAct {r s : State} (h : Kept r s) (e : Nat) (q : RoceReq) (x : QpEnt) : Kept r (s.readAct e q x) := by
  unfold State.readAct
  split
  · exact kept_qpError h _ _ _
  · have hp := kept_regionOk h e q.rkey q.addr q.len false
    generalize s.regionOk e q.rkey q.addr q.len false = p at hp ⊢
    obtain ⟨ok, t⟩ := p
    cases ok
    · exact kept_accessNak hp.kept _ _ _
    · exact kept_readAnswer (kept_qpStep hp.kept _ _) _ _ _

theorem kept_readAgain {r s : State} (h : Kept r s) : ∀ a1 a2 a3, Kept r (State.readAgain s a1 a2 a3) := by
  intro a1 a2 a3
  unfold State.readAgain
  repeat' (first
    | with_reducible assumption
    | with_reducible refine kept_ite ?_ ?_
    | with_reducible refine kept2_ite ?_ ?_
    | with_reducible apply kept_regionOk
    | with_reducible apply kept_accessNak
    | with_reducible apply kept_readAnswer
    | intro _
    | with_reducible apply Kept2.kept
    )

theorem kept_sendEnd {r s : State} (h : Kept r s) : ∀ a1 a2, Kept r (State.sendEnd s a1 a2) := by
  intro a1 a2
  unfold State.sendEnd
  repeat' (first
    | with_reducible assumption
    | with_reducible refine kept_ite ?_ ?_
    | with_reducible apply kept_lWrite
    | with_reducible apply kept_eWrite
    | with_reducible apply kept_addEvt
    )

theorem kept_sendAct {r s : State} (h : Kept r s) : ∀ a1 a2 a3, Kept r (State.sendAct s a1 a2 a3) := by
  intro a1 a2 a3
  unfold State.sendAct
  repeat' (first
    | with_reducible assumption
    | with_reducible refine kept_ite ?_ ?_
    | with_reducible refine keptRd_ite ?_ ?_
    | with_reducible apply kept_incSat
    | with_reducible apply kept_eRead
    | with_reducible apply kept_ethSay
    | with_reducible apply kept_qpError
    | with_reducible apply kept_roceData
    | with_reducible apply kept_qpOpen
    | with_reducible apply kept_invalidNak
    | with_reducible apply kept_sendEnd
    | intro _
    | with_reducible apply KeptRd.kept
    )

/-! ### DieLinks -/

theorem kept_setCap {r s : State} (h : Kept r s) : ∀ a1 a2, Kept r (State.setCap s a1 a2) := by
  intro a1 a2
  unfold State.setCap
  repeat' (first
    | with_reducible assumption
    | with_reducible apply kept_wrs
    )

theorem kept_releaseDie {r s : State} (h : Kept r s) : ∀ a1, Kept r (State.releaseDie s a1) := by
  intro a1
  unfold State.releaseDie
  repeat' (first
    | with_reducible assumption
    | with_reducible refine kept_ite ?_ ?_
    | with_reducible apply kept_wr
    | with_reducible apply kept_resetRegs
    | with_reducible apply kept_wrBit
    | with_reducible apply kept_modDie
    | with_reducible apply kept_returnPass
    | with_reducible apply kept_resetCore
    | with_reducible apply kept_loadTime
    | with_reducible refine kept_foldl ?_ ?_
    | intro _
    )

theorem kept_exchanged {r s : State} (h : Kept r s) : ∀ a1 a2, Kept r (State.exchanged s a1 a2) := by
  intro a1 a2
  unfold State.exchanged
  repeat' (first
    | with_reducible assumption
    | with_reducible refine kept_ite ?_ ?_
    | with_reducible apply kept_wr
    | with_reducible apply kept_wrBit
    | with_reducible apply kept_releaseDie
    )

theorem kept_siteStays {r s : State} (h : Kept r s) : ∀ a1 a2, Kept r (State.siteStays s a1 a2) := by
  intro a1 a2
  unfold State.siteStays
  repeat' (first
    | with_reducible assumption
    | with_reducible apply kept_wr
    | with_reducible apply kept_modDie
    )

theorem kept_siteStart {r s : State} (h : Kept r s) : ∀ a1, Kept r (State.siteStart s a1) := by
  intro a1
  unfold State.siteStart
  repeat' (first
    | with_reducible assumption
    | with_reducible apply kept_wr
    | with_reducible apply kept_modDie
    )

theorem kept_siteEnd {r s : State} (h : Kept r s) : ∀ a1, Kept r (State.siteEnd s a1) := by
  intro a1
  unfold State.siteEnd
  repeat' (first
    | with_reducible assumption
    | with_reducible refine kept_ite ?_ ?_
    | with_reducible apply kept_wrBit
    | with_reducible apply kept_siteStays
    )

theorem kept_askDrst {r s : State} (h : Kept r s) : ∀ a1, Kept r (State.askDrst s a1) := by
  intro a1
  unfold State.askDrst
  repeat' (first
    | with_reducible assumption
    | with_reducible refine kept_ite ?_ ?_
    | with_reducible apply kept_modDie
    | with_reducible apply kept_dieDown
    | with_reducible apply kept_siteStart
    )

theorem kept_loopErrs {r s : State} (h : Kept r s) : ∀ a1 a2, Kept r (State.loopErrs s a1 a2) := by
  intro a1 a2
  unfold State.loopErrs
  repeat' (first
    | with_reducible assumption
    | with_reducible refine kept_ite ?_ ?_
    | with_reducible refine kept2_ite ?_ ?_
    | with_reducible apply kept_incSat
    | with_reducible apply kept_free64
    | intro _
    | with_reducible apply Kept2.kept
    | with_reducible refine kept_snd (by assumption) ?_
    | dsimp only
    | split
    )

theorem kept_writeLoop {r s : State} (h : Kept r s) : ∀ a1 a2, Kept r (State.writeLoop s a1 a2) := by
  intro a1 a2
  unfold State.writeLoop
  repeat' (first
    | with_reducible assumption
    | with_reducible refine kept_ite ?_ ?_
    | with_reducible apply kept_wr
    | with_reducible apply kept_siteStart
    )

theorem kept_writeHold {r s : State} (h : Kept r s) : ∀ a1 a2, Kept r (State.writeHold s a1 a2) := by
  intro a1 a2
  unfold State.writeHold
  repeat' (first
    | with_reducible assumption
    | with_reducible refine kept_ite ?_ ?_
    | with_reducible apply kept_wr
    | with_reducible apply kept_modDie
    )

theorem kept_writeDportCtl {r s : State} (h : Kept r s) : ∀ a1 a2 a3, Kept r (State.writeDportCtl s a1 a2 a3) := by
  intro a1 a2 a3
  unfold State.writeDportCtl
  repeat' (first
    | with_reducible assumption
    | with_reducible refine kept_ite ?_ ?_
    | with_reducible apply kept_askDrst
    | with_reducible apply kept_loopErrs
    | with_reducible apply kept_writeLoop
    | with_reducible apply kept_writeHold
    )

theorem kept_guestSay {r s : State} (h : Kept r s) : ∀ a1 a2, Kept r (State.guestSay s a1 a2) := by
  intro a1 a2
  unfold State.guestSay
  repeat' (first
    | with_reducible assumption
    | with_reducible apply kept_modDie
    )

theorem kept_guestRefuse {r s : State} (h : Kept r s) : ∀ a1, Kept r (State.guestRefuse s a1) := by
  intro a1
  unfold State.guestRefuse
  repeat' (first
    | with_reducible assumption
    | with_reducible apply kept_incSat
    | with_reducible apply kept_guestSay
    )

theorem kept_guestTemp {r s : State} (h : Kept r s) : ∀ a1 a2, Kept r (State.guestTemp s a1 a2) := by
  intro a1 a2
  unfold State.guestTemp
  repeat' (first
    | with_reducible assumption
    | with_reducible refine kept_ite ?_ ?_
    | with_reducible apply kept_wr
    | with_reducible apply kept_faultNote
    | with_reducible apply kept_setSensor
    | with_reducible apply kept_breakSensor
    | with_reducible apply kept_checkTrip
    | with_reducible apply kept_askDrst
    )

/-! ### Control -/

theorem kept_newEpoch {r s : State} (h : Kept r s) : ∀ a1, Kept r (State.newEpoch s a1) := by
  intro a1
  unfold State.newEpoch
  repeat' (first
    | with_reducible assumption
    | with_reducible apply kept_setReg
    | with_reducible apply kept_Rd_col
    | intro _
    | with_reducible apply KeptRd.kept
    | dsimp only
    | split
    | with_reducible refine keptRd_mk ?_ _ _ _
    | fail_if_no_progress (with_reducible refine kept_mk ?_ (by rfl) (by rfl) (by rfl) _ _ _ _ _ _ _ _ _ _ _ _ _ _ _ _ _ _ _)
    )

theorem kept_writeEpochSet {r s : State} (h : Kept r s) : ∀ a1, Kept r (State.writeEpochSet s a1) := by
  intro a1
  unfold State.writeEpochSet
  repeat' (first
    | with_reducible assumption
    | with_reducible refine kept_ite ?_ ?_
    | with_reducible refine keptRd_ite ?_ ?_
    | with_reducible apply kept_wr
    | with_reducible apply kept_Rd_col
    | with_reducible apply kept_newEpoch
    )

theorem kept_tornQueue {r s : State} (h : Kept r s) : ∀ a1, Kept r (State.tornQueue s a1) := by
  intro a1
  unfold State.tornQueue
  repeat' (first
    | with_reducible assumption
    | with_reducible refine kept_ite ?_ ?_
    | with_reducible apply kept_modQueue
    | with_reducible apply kept_slotWrite
    | with_reducible apply kept_retireHead
    | with_reducible apply kept_endCmd
    | with_reducible apply kept_finishCmd
    | intro _
    | dsimp only
    | split
    )

theorem kept_tornCore {r s : State} (h : Kept r s) : ∀ a1, Kept r (State.tornCore s a1) := by
  intro a1
  unfold State.tornCore
  repeat' (first
    | with_reducible assumption
    | with_reducible refine kept_ite ?_ ?_
    | with_reducible apply kept_modGln
    | with_reducible apply kept_modCore
    | with_reducible apply kept_haltCore
    | with_reducible apply kept_stookDrop
    | with_reducible refine kept_foldl ?_ ?_
    | intro _
    | with_reducible apply Kept2.kept
    | with_reducible apply Kept1.kept
    | dsimp only
    | split
    | ((with_reducible refine wf_of_eq ?_ ?_ (by assumption)) <;> rfl)
    )

theorem kept_tearDown {r s : State} (h : Kept r s) : Kept r (State.tearDown s) := by
  unfold State.tearDown
  repeat' (first
    | with_reducible assumption
    | with_reducible apply kept_wr
    | with_reducible apply kept_finishCmd
    | with_reducible apply kept_modCtx
    | with_reducible apply kept_closeFolds
    | with_reducible apply kept_Rd_col
    | with_reducible apply kept_colEnd
    | with_reducible apply kept_newEpoch
    | with_reducible apply kept_tornQueue
    | with_reducible apply kept_tornCore
    | with_reducible refine kept_foldl ?_ ?_
    | with_reducible refine keptRd_foldl ?_ ?_
    | intro _
    | with_reducible apply KeptRd.kept
    | with_reducible apply Kept2.kept
    | with_reducible apply Kept1.kept
    | dsimp only
    | split
    | with_reducible refine keptRd_mk ?_ _ _ _
    | fail_if_no_progress (with_reducible refine kept_mk ?_ (by rfl) (by rfl) (by rfl) _ _ _ _ _ _ _ _ _ _ _ _ _ _ _ _ _ _ _)
    )

theorem kept_applyWindow {r s : State} (h : Kept r s) : ∀ a1, Kept r (State.applyWindow s a1) := by
  intro a1
  unfold State.applyWindow
  repeat' (first
    | with_reducible assumption
    | with_reducible apply kept_eWrite
    | with_reducible refine kept_foldl ?_ ?_
    | intro _
    | with_reducible apply Kept2.kept
    | with_reducible apply Kept1.kept
    | dsimp only
    | split
    | fail_if_no_progress (with_reducible refine kept_mk ?_ (by rfl) (by rfl) (by rfl) _ _ _ _ _ _ _ _ _ _ _ _ _ _ _ _ _ _ _)
    )

theorem kept_keepRollCfg {r s : State} (h : Kept r s) : Kept r (State.keepRollCfg s) := by
  unfold State.keepRollCfg
  repeat' (first
    | with_reducible assumption
    | intro _
    | dsimp only
    | split
    | fail_if_no_progress (with_reducible refine kept_mk ?_ (by rfl) (by rfl) (by rfl) _ _ _ _ _ _ _ _ _ _ _ _ _ _ _ _ _ _ _)
    )

theorem kept_applyEntries {r s : State} (h : Kept r s) : ∀ a1 a2, Kept r (State.applyEntries s a1 a2) := by
  intro a1 a2
  unfold State.applyEntries
  repeat' (first
    | with_reducible assumption
    | with_reducible refine kept_ite ?_ ?_
    | with_reducible apply kept_wr
    | with_reducible apply kept_setReg
    | with_reducible apply kept_wrs
    | with_reducible apply kept_applyWindow
    | with_reducible apply kept_keepRollCfg
    | with_reducible refine kept_foldl ?_ ?_
    | intro _
    | with_reducible apply Kept2.kept
    | with_reducible apply Kept1.kept
    | dsimp only
    | split
    )

theorem kept_attest {r s : State} (h : Kept r s) : ∀ a1, Kept r (State.attest s a1) := by
  intro a1
  unfold State.attest
  repeat' (first
    | with_reducible assumption
    | with_reducible apply kept_say
    )

theorem kept_serveAttests {r s : State} (h : Kept r s) : Kept r (State.serveAttests s) := by
  unfold State.serveAttests
  repeat' (first
    | with_reducible assumption
    | with_reducible apply kept_attest
    | with_reducible refine kept_foldl ?_ ?_
    | intro _
    | with_reducible apply Kept2.kept
    | with_reducible apply Kept1.kept
    | dsimp only
    | split
    | fail_if_no_progress (with_reducible refine kept_mk ?_ (by rfl) (by rfl) (by rfl) _ _ _ _ _ _ _ _ _ _ _ _ _ _ _ _ _ _ _)
    )

theorem kept_chgAnswer {r s : State} (h : Kept r s) : ∀ a1 a2, Kept r (State.chgAnswer s a1 a2) := by
  intro a1 a2
  unfold State.chgAnswer
  repeat' (first
    | with_reducible assumption
    | with_reducible refine kept_ite ?_ ?_
    | with_reducible apply kept_wr
    | with_reducible apply kept_incSat
    | with_reducible apply kept_say
    )

theorem kept_chgDone {r s : State} (h : Kept r s) : ∀ a1 a2, Kept r (State.chgDone s a1 a2) := by
  intro a1 a2
  unfold State.chgDone
  repeat' (first
    | with_reducible assumption
    | with_reducible apply kept_serveAttests
    | with_reducible apply kept_chgAnswer
    | intro _
    | dsimp only
    | split
    | fail_if_no_progress (with_reducible refine kept_mk ?_ (by rfl) (by rfl) (by rfl) _ _ _ _ _ _ _ _ _ _ _ _ _ _ _ _ _ _ _)
    )

theorem kept_chgApply {r s : State} (h : Kept r s) : ∀ a1 a2, Kept r (State.chgApply s a1 a2) := by
  intro a1 a2
  unfold State.chgApply
  repeat' (first
    | with_reducible assumption
    | with_reducible apply kept_wr
    | with_reducible apply kept_applyEntries
    | with_reducible apply kept_chgDone
    )

theorem kept_readManifest {r s : State} (h : Kept r s) : ∀ a1, KeptRd r (State.readManifest s a1) := by
  intro a1
  unfold State.readManifest
  repeat' (first
    | with_reducible assumption
    | with_reducible apply kept_eRead
    )

theorem kept_copyManifest {r s : State} (h : Kept r s) : ∀ a1, Kept r (State.copyManifest s a1) := by
  intro a1
  unfold State.copyManifest
  repeat' (first
    | with_reducible assumption
    | with_reducible refine kept_ite ?_ ?_
    | with_reducible refine keptRd_ite ?_ ?_
    | with_reducible apply kept_applyEntries
    | with_reducible apply kept_chgDone
    | with_reducible apply kept_chgApply
    | with_reducible apply kept_readManifest
    | intro _
    | with_reducible apply KeptRd.kept
    )

/-! ### Roll -/

theorem kept_modRnode {r s : State} (h : Kept r s) : ∀ a1 a2, Kept r (State.modRnode s a1 a2) := by
  intro a1 a2
  unfold State.modRnode
  repeat' (first
    | with_reducible assumption
    | intro _
    | dsimp only
    | split
    | fail_if_no_progress (with_reducible refine kept_mk ?_ (by rfl) (by rfl) (by rfl) _ _ _ _ _ _ _ _ _ _ _ _ _ _ _ _ _ _ _)
    )

theorem kept_takeCtrl {r s : State} (h : Kept r s) : ∀ a1 a2 a3, Kept2 r (State.takeCtrl s a1 a2 a3) := by
  intro a1 a2 a3
  unfold State.takeCtrl
  repeat' (first
    | with_reducible assumption
    | with_reducible refine kept_ite ?_ ?_
    | with_reducible refine kept2_ite ?_ ?_
    | with_reducible apply kept_incSat
    | intro _
    | with_reducible apply Kept2.kept
    | dsimp only
    | split
    | with_reducible refine kept2_mk ?_ _
    | fail_if_no_progress (with_reducible refine kept_mk ?_ (by rfl) (by rfl) (by rfl) _ _ _ _ _ _ _ _ _ _ _ _ _ _ _ _ _ _ _)
    )

theorem kept_heard {r s : State} (h : Kept r s) : ∀ a1, Kept r (State.heard s a1) := by
  intro a1
  unfold State.heard
  repeat' (first
    | with_reducible assumption
    | with_reducible refine kept_ite ?_ ?_
    | with_reducible apply kept_wr
    | with_reducible apply kept_sendPkt
    | with_reducible apply kept_modRnode
    )

theorem kept_dropQueued {r s : State} (h : Kept r s) : ∀ a1 a2, Kept r (State.dropQueued s a1 a2) := by
  intro a1 a2
  unfold State.dropQueued
  repeat' (first
    | with_reducible assumption
    | with_reducible apply kept_incSat
    | with_reducible apply kept_modLink
    | with_reducible apply kept_slotFreed
    | with_reducible refine kept_foldl ?_ ?_
    | intro _
    )

theorem kept_dropSource {r s : State} (h : Kept r s) : ∀ a1, Kept r (State.dropSource s a1) := by
  intro a1
  unfold State.dropSource
  repeat' (first
    | with_reducible assumption
    | with_reducible apply kept_incSat
    | with_reducible apply kept_dropQueued
    | with_reducible refine kept_foldl ?_ ?_
    | intro _
    | with_reducible apply Kept2.kept
    | with_reducible apply Kept1.kept
    | dsimp only
    | split
    | fail_if_no_progress (with_reducible refine kept_mk ?_ (by rfl) (by rfl) (by rfl) _ _ _ _ _ _ _ _ _ _ _ _ _ _ _ _ _ _ _)
    )

theorem kept_exclude {r s : State} (h : Kept r s) : ∀ a1, Kept r (State.exclude s a1) := by
  intro a1
  unfold State.exclude
  repeat' (first
    | with_reducible assumption
    | with_reducible refine kept_ite ?_ ?_
    | with_reducible apply kept_wr
    | with_reducible apply kept_colLost
    | with_reducible apply kept_dropSource
    | intro _
    | dsimp only
    | split
    | fail_if_no_progress (with_reducible refine kept_mk ?_ (by rfl) (by rfl) (by rfl) _ _ _ _ _ _ _ _ _ _ _ _ _ _ _ _ _ _ _)
    )

theorem kept_logVerdict {r s : State} (h : Kept r s) : ∀ a1 a2 a3 a4, Kept r (State.logVerdict s a1 a2 a3 a4) := by
  intro a1 a2 a3 a4
  unfold State.logVerdict
  repeat' (first
    | with_reducible assumption
    | with_reducible refine kept_ite ?_ ?_
    | with_reducible apply kept_wrs
    | with_reducible apply kept_incSat
    | with_reducible apply kept_traceAdd
    | with_reducible apply kept_faultNote
    )

theorem kept_judge {r s : State} (h : Kept r s) : ∀ a1 a2 a3 a4, Kept r (State.judge s a1 a2 a3 a4) := by
  intro a1 a2 a3 a4
  unfold State.judge
  repeat' (first
    | with_reducible assumption
    | with_reducible apply kept_exclude
    | with_reducible apply kept_logVerdict
    | with_reducible refine kept_foldl ?_ ?_
    | intro _
    )

theorem kept_remember {r s : State} (h : Kept r s) : ∀ a1 a2 a3, Kept r (State.remember s a1 a2 a3) := by
  intro a1 a2 a3
  unfold State.remember
  repeat' (first
    | with_reducible assumption
    | intro _
    | dsimp only
    | split
    | fail_if_no_progress (with_reducible refine kept_mk ?_ (by rfl) (by rfl) (by rfl) _ _ _ _ _ _ _ _ _ _ _ _ _ _ _ _ _ _ _)
    )

theorem kept_issueVerdict {r s : State} (h : Kept r s) : ∀ a1 a2 a3, Kept r (State.issueVerdict s a1 a2 a3) := by
  intro a1 a2 a3
  unfold State.issueVerdict
  repeat' (first
    | with_reducible assumption
    | with_reducible apply kept_flood
    | with_reducible apply kept_judge
    | with_reducible apply kept_remember
    )

theorem kept_settle {r s : State} (h : Kept r s) : ∀ a0, Kept r (State.settle a0 s) := by
  intro a0
  induction a0 generalizing s with
  | zero =>
    unfold State.settle
    repeat' (first
      | with_reducible assumption
      )
  | succ n ih =>
    unfold State.settle
    repeat' (first
      | with_reducible apply ih
      | with_reducible assumption
      | with_reducible apply kept_issueVerdict
      | intro _
      | dsimp only
      | split
      )

theorem kept_settled {r s : State} (h : Kept r s) : Kept r (State.settled s) := by
  unfold State.settled
  repeat' (first
    | with_reducible assumption
    | with_reducible apply kept_settle
    )

theorem kept_rule {r s : State} (h : Kept r s) : ∀ a1 a2 a3, Kept r (State.rule s a1 a2 a3) := by
  intro a1 a2 a3
  unfold State.rule
  repeat' (first
    | with_reducible assumption
    | with_reducible apply kept_issueVerdict
    | with_reducible apply kept_settled
    )

theorem kept_tally {r s : State} (h : Kept r s) : ∀ a1, Kept r (State.tally s a1) := by
  intro a1
  unfold State.tally
  repeat' (first
    | with_reducible assumption
    | with_reducible refine kept_ite ?_ ?_
    | with_reducible apply kept_rule
    )

theorem kept_sendVote {r s : State} (h : Kept r s) : ∀ a1 a2, Kept r (State.sendVote s a1 a2) := by
  intro a1 a2
  unfold State.sendVote
  repeat' (first
    | with_reducible assumption
    | with_reducible refine kept_ite ?_ ?_
    | with_reducible apply kept_sendPkt
    | with_reducible apply kept_modRnode
    )

theorem kept_tickNode {r s : State} (h : Kept r s) : ∀ a1, Kept r (State.tickNode s a1) := by
  intro a1
  unfold State.tickNode
  repeat' (first
    | with_reducible assumption
    | with_reducible refine kept_ite ?_ ?_
    | with_reducible apply kept_wr
    | with_reducible apply kept_tally
    | with_reducible apply kept_sendVote
    )

theorem kept_takeRollCfg {r s : State} (h : Kept r s) : Kept r (State.takeRollCfg s) := by
  unfold State.takeRollCfg
  repeat' (first
    | with_reducible assumption
    | intro _
    | dsimp only
    | split
    | fail_if_no_progress (with_reducible refine kept_mk ?_ (by rfl) (by rfl) (by rfl) _ _ _ _ _ _ _ _ _ _ _ _ _ _ _ _ _ _ _)
    )

theorem kept_floodSeen {r s : State} (h : Kept r s) : ∀ a1 a2, Kept2 r (State.floodSeen s a1 a2) := by
  intro a1 a2
  unfold State.floodSeen
  repeat' (first
    | with_reducible assumption
    | with_reducible refine kept_ite ?_ ?_
    | with_reducible refine kept2_ite ?_ ?_
    | with_reducible apply kept_incSat
    | with_reducible apply kept_remember
    | intro _
    | with_reducible apply Kept2.kept
    | dsimp only
    | split
    | with_reducible refine kept2_mk ?_ _
    )

theorem kept_floodIn {r s : State} (h : Kept r s) : ∀ a1 a2 a3, Kept2 r (State.floodIn s a1 a2 a3) := by
  intro a1 a2 a3
  unfold State.floodIn
  repeat' (first
    | with_reducible assumption
    | with_reducible refine kept_ite ?_ ?_
    | with_reducible refine kept2_ite ?_ ?_
    | with_reducible apply kept_slotTaken
    | with_reducible apply kept_slotFreed
    | with_reducible apply kept_floodSeen
    | intro _
    | with_reducible apply Kept2.kept
    | with_reducible refine kept_snd (by assumption) ?_
    | dsimp only
    | split
    | with_reducible refine kept2_mk ?_ _
    )

theorem kept_domainIn {r s : State} (h : Kept r s) : ∀ a1 a2 a3, Kept r (State.domainIn s a1 a2 a3) := by
  intro a1 a2 a3
  unfold State.domainIn
  repeat' (first
    | with_reducible assumption
    | with_reducible refine kept_ite ?_ ?_
    | with_reducible apply kept_rule
    | intro _
    | dsimp only
    | split
    | fail_if_no_progress (with_reducible refine kept_mk ?_ (by rfl) (by rfl) (by rfl) _ _ _ _ _ _ _ _ _ _ _ _ _ _ _ _ _ _ _)
    )

theorem kept_admitNode {r s : State} (h : Kept r s) : ∀ a1 a2, Kept r (State.admitNode s a1 a2) := by
  intro a1 a2
  unfold State.admitNode
  repeat' (first
    | with_reducible assumption
    | with_reducible apply kept_wrs
    | with_reducible apply kept_modRnode
    | intro _
    | dsimp only
    | split
    | fail_if_no_progress (with_reducible refine kept_mk ?_ (by rfl) (by rfl) (by rfl) _ _ _ _ _ _ _ _ _ _ _ _ _ _ _ _ _ _ _)
    )

theorem kept_joinIn {r s : State} (h : Kept r s) : ∀ a1 a2, Kept r (State.joinIn s a1 a2) := by
  intro a1 a2
  unfold State.joinIn
  repeat' (first
    | with_reducible assumption
    | with_reducible refine kept_ite ?_ ?_
    | with_reducible refine kept2_ite ?_ ?_
    | with_reducible apply kept_free64
    | with_reducible apply kept_judge
    | with_reducible apply kept_admitNode
    | intro _
    | with_reducible apply Kept2.kept
    )

theorem kept_joinOut {r s : State} (h : Kept r s) : Kept r (State.joinOut s) := by
  unfold State.joinOut
  repeat' (first
    | with_reducible assumption
    | with_reducible apply kept_flood
    | with_reducible apply kept_remember
    | with_reducible apply kept_admitNode
    | intro _
    | dsimp only
    | split
    | fail_if_no_progress (with_reducible refine kept_mk ?_ (by rfl) (by rfl) (by rfl) _ _ _ _ _ _ _ _ _ _ _ _ _ _ _ _ _ _ _)
    )

theorem kept_fence {r s : State} (h : Kept r s) : ∀ a1, Kept r (State.fence s a1) := by
  intro a1
  unfold State.fence
  repeat' (first
    | with_reducible assumption
    | with_reducible apply kept_wrs
    | with_reducible apply kept_noteWith
    | with_reducible apply kept_tearDown
    | intro _
    | dsimp only
    | split
    | fail_if_no_progress (with_reducible refine kept_mk ?_ (by rfl) (by rfl) (by rfl) _ _ _ _ _ _ _ _ _ _ _ _ _ _ _ _ _ _ _)
    )

/-! ### Winnow -/

theorem kept_anyOf {r s : State} (h : Kept r s) : ∀ a1, Kept2 r (State.anyOf s a1) := by
  intro a1
  unfold State.anyOf
  repeat' (first
    | with_reducible assumption
    | with_reducible apply kept_free64
    | intro _
    | with_reducible apply Kept2.kept
    | with_reducible refine kept_snd (by assumption) ?_
    | dsimp only
    | split
    | with_reducible refine kept2_mk ?_ _
    )

theorem kept_wnwRun {r s : State} (h : Kept r s) : ∀ a1, Kept r (State.wnwRun s a1) := by
  intro a1
  unfold State.wnwRun
  repeat' (first
    | with_reducible assumption
    | with_reducible apply kept_modWnw
    )

theorem kept_wnwDie {r s : State} (h : Kept r s) : ∀ a1, Kept r (State.wnwDie s a1) := by
  intro a1
  unfold State.wnwDie
  repeat' (first
    | with_reducible assumption
    | with_reducible refine kept_ite ?_ ?_
    | with_reducible refine kept2_ite ?_ ?_
    | with_reducible apply kept_modWnw
    | with_reducible apply kept_wnwKick
    | with_reducible apply kept_anyOf
    | with_reducible apply kept_wnwRun
    | intro _
    | with_reducible apply Kept2.kept
    | with_reducible refine kept_snd (by assumption) ?_
    | dsimp only
    | split
    )

theorem kept_wnwLog {r s : State} (h : Kept r s) : ∀ a1 a2 a3, Kept r (State.wnwLog s a1 a2 a3) := by
  intro a1 a2 a3
  unfold State.wnwLog
  repeat' (first
    | with_reducible assumption
    | with_reducible refine kept_ite ?_ ?_
    | with_reducible apply kept_wrs
    )

theorem kept_wnwFence {r s : State} (h : Kept r s) : ∀ a1 a2, Kept r (State.wnwFence s a1 a2) := by
  intro a1 a2
  unfold State.wnwFence
  repeat' (first
    | with_reducible assumption
    | with_reducible apply kept_modWnw
    | with_reducible apply kept_wrBit
    | with_reducible apply kept_faultNote
    | with_reducible apply kept_wnwRestore
    | with_reducible apply kept_wnwLog
    )

theorem kept_wnwAdvance {r s : State} (h : Kept r s) : ∀ a1, Kept r (State.wnwAdvance s a1) := by
  intro a1
  unfold State.wnwAdvance
  repeat' (first
    | with_reducible assumption
    | with_reducible refine kept_ite ?_ ?_
    | with_reducible apply kept_modWnw
    | with_reducible apply kept_touched
    | with_reducible apply kept_wnwRestore
    | with_reducible apply kept_passEnded
    )

theorem kept_traceLost {r s : State} (h : Kept r s) : ∀ a1, Kept r (State.traceLost s a1) := by
  intro a1
  unfold State.traceLost
  repeat' (first
    | with_reducible assumption
    | with_reducible refine kept_ite ?_ ?_
    | with_reducible apply kept_traceAdd
    | intro _
    | dsimp only
    | split
    | fail_if_no_progress (with_reducible refine kept_mk ?_ (by rfl) (by rfl) (by rfl) _ _ _ _ _ _ _ _ _ _ _ _ _ _ _ _ _ _ _)
    )

/-! ### LowPower -/

theorem kept_askCrst {r s : State} (h : Kept r s) : ∀ a1, Kept r (State.askCrst s a1) := by
  intro a1
  unfold State.askCrst
  repeat' (first
    | with_reducible assumption
    | with_reducible refine kept_ite ?_ ?_
    | with_reducible apply kept_coreReset
    | intro _
    | dsimp only
    | split
    | fail_if_no_progress (with_reducible refine kept_mk ?_ (by rfl) (by rfl) (by rfl) _ _ _ _ _ _ _ _ _ _ _ _ _ _ _ _ _ _ _)
    )

theorem kept_askGate {r s : State} (h : Kept r s) : ∀ a1 a2, Kept r (State.askGate s a1 a2) := by
  intro a1 a2
  unfold State.askGate
  repeat' (first
    | with_reducible assumption
    | with_reducible refine kept_ite ?_ ?_
    | with_reducible apply kept_wr
    | with_reducible apply kept_wakeCore
    )

theorem kept_askFallow {r s : State} (h : Kept r s) : ∀ a1 a2, Kept r (State.askFallow s a1 a2) := by
  intro a1 a2
  unfold State.askFallow
  repeat' (first
    | with_reducible assumption
    | with_reducible refine kept_ite ?_ ?_
    | with_reducible apply kept_wr
    | with_reducible apply kept_wrBit
    | with_reducible apply kept_wakeDie
    )

theorem kept_writeDomLp {r s : State} (h : Kept r s) : ∀ a1 a2, Kept r (State.writeDomLp s a1 a2) := by
  intro a1 a2
  unfold State.writeDomLp
  repeat' (first
    | with_reducible assumption
    | with_reducible refine kept_ite ?_ ?_
    | with_reducible apply kept_wr
    | with_reducible apply kept_askCrst
    | with_reducible apply kept_askGate
    | with_reducible apply kept_askFallow
    )

theorem kept_coresOff {r s : State} (h : Kept r s) : Kept r (State.coresOff s) := by
  unfold State.coresOff
  repeat' (first
    | with_reducible assumption
    | with_reducible apply kept_setCore
    | with_reducible apply kept_modWnw
    | with_reducible apply kept_coreLost
    | with_reducible refine kept_foldl ?_ ?_
    | intro _
    | with_reducible apply Kept2.kept
    | with_reducible apply Kept1.kept
    | dsimp only
    | split
    | exact wf_empty
    )

theorem kept_enterStandby {r s : State} (h : Kept r s) : Kept r (State.enterStandby s) := by
  unfold State.enterStandby
  repeat' (first
    | with_reducible assumption
    | with_reducible apply kept_wr
    | with_reducible apply kept_resetRegs
    | with_reducible apply kept_bayEmpty
    | with_reducible apply kept_linkFresh
    | with_reducible apply kept_coresOff
    | with_reducible refine kept_foldl ?_ ?_
    | intro _
    | with_reducible apply Kept2.kept
    | with_reducible apply Kept1.kept
    | dsimp only
    | split
    | fail_if_no_progress (with_reducible refine kept_mk ?_ (by rfl) (by rfl) (by rfl) _ _ _ _ _ _ _ _ _ _ _ _ _ _ _ _ _ _ _)
    )

theorem kept_writeStby {r s : State} (h : Kept r s) : ∀ a1, Kept r (State.writeStby s a1) := by
  intro a1
  unfold State.writeStby
  repeat' (first
    | with_reducible assumption
    | with_reducible refine kept_ite ?_ ?_
    | with_reducible apply kept_wr
    | with_reducible apply kept_enterStandby
    )

theorem kept_startTraining {r s : State} (h : Kept r s) : Kept r (State.startTraining s) := by
  unfold State.startTraining
  repeat' (first
    | with_reducible assumption
    | with_reducible refine kept_ite ?_ ?_
    | with_reducible apply kept_wr
    | with_reducible refine kept_foldl ?_ ?_
    | intro _
    )

theorem kept_ethRelink {r s : State} (h : Kept r s) : Kept r (State.ethRelink s) := by
  unfold State.ethRelink
  repeat' (first
    | with_reducible assumption
    | with_reducible apply kept_wr
    | with_reducible refine kept_foldl ?_ ?_
    | intro _
    )

theorem kept_returnPasses {r s : State} (h : Kept r s) : Kept r (State.returnPasses s) := by
  unfold State.returnPasses
  repeat' (first
    | with_reducible assumption
    | with_reducible refine kept_ite ?_ ?_
    | with_reducible apply kept_returnPass
    | with_reducible refine kept_foldl ?_ ?_
    | intro _
    )

theorem kept_leaveStandby {r s : State} (h : Kept r s) : Kept r (State.leaveStandby s) := by
  unfold State.leaveStandby
  repeat' (first
    | with_reducible assumption
    | with_reducible refine kept_ite ?_ ?_
    | with_reducible apply kept_resetRegs
    | with_reducible apply kept_newEpoch
    | with_reducible apply kept_startTraining
    | with_reducible apply kept_ethRelink
    | with_reducible apply kept_returnPasses
    | intro _
    | dsimp only
    | split
    | fail_if_no_progress (with_reducible refine kept_mk ?_ (by rfl) (by rfl) (by rfl) _ _ _ _ _ _ _ _ _ _ _ _ _ _ _ _ _ _ _)
    )

theorem kept_arm {r s : State} (h : Kept r s) : ∀ a1, Kept r (State.arm s a1) := by
  intro a1
  unfold State.arm
  repeat' (first
    | with_reducible assumption
    | with_reducible refine kept_ite ?_ ?_
    | intro _
    | dsimp only
    | split
    | fail_if_no_progress (with_reducible refine kept_mk ?_ (by rfl) (by rfl) (by rfl) _ _ _ _ _ _ _ _ _ _ _ _ _ _ _ _ _ _ _)
    )

/-! ### Boot -/

theorem kept_reboot {r s : State} (h : Kept r s) (k : Nat) : Kept r (s.reboot k) := ⟨h.variant, h.pending, h.otp, fun _ => rfl⟩

theorem kept_exchange {r s : State} (h : Kept r s) : ∀ a1, Kept r (State.exchange s a1) := by
  intro a1
  unfold State.exchange
  repeat' (first
    | with_reducible assumption
    | with_reducible apply kept_modSource
    | with_reducible refine kept_foldl ?_ ?_
    | intro _
    )

theorem kept_writeFltCtl {r s : State} (h : Kept r s) : ∀ a1, Kept r (State.writeFltCtl s a1) := by
  intro a1
  unfold State.writeFltCtl
  repeat' (first
    | with_reducible assumption
    | with_reducible refine kept_ite ?_ ?_
    | with_reducible apply kept_mrstDue
    )

theorem kept_writeWdog {r s : State} (h : Kept r s) : ∀ a1, Kept r (State.writeWdog s a1) := by
  intro a1
  unfold State.writeWdog
  repeat' (first
    | with_reducible assumption
    | with_reducible refine kept_ite ?_ ?_
    | with_reducible apply kept_wrs
    | intro _
    | dsimp only
    | split
    | fail_if_no_progress (with_reducible refine kept_mk ?_ (by rfl) (by rfl) (by rfl) _ _ _ _ _ _ _ _ _ _ _ _ _ _ _ _ _ _ _)
    )

theorem kept_extend {r s : State} (h : Kept r s) : ∀ a1, Kept r (State.extend s a1) := by
  intro a1
  unfold State.extend
  repeat' (first
    | with_reducible assumption
    | intro _
    | dsimp only
    | split
    | fail_if_no_progress (with_reducible refine kept_mk ?_ (by rfl) (by rfl) (by rfl) _ _ _ _ _ _ _ _ _ _ _ _ _ _ _ _ _ _ _)
    )

theorem kept_writeItems {r s : State} (h : Kept r s) : Kept r s.writeItems :=
  Kept1.kept (kept1_foldl (fun _ _ hx => kept_firmPut (kept_freeBytes (Kept1.kept hx) _).kept _ _) h)

theorem kept_nextStage {r s : State} (h : Kept r s) : Kept r (State.nextStage s) := by
  unfold State.nextStage
  repeat' (first
    | with_reducible assumption
    | intro _
    | dsimp only
    | split
    | fail_if_no_progress (with_reducible refine kept_mk ?_ (by rfl) (by rfl) (by rfl) _ _ _ _ _ _ _ _ _ _ _ _ _ _ _ _ _ _ _)
    )

theorem kept_wnwStop {r s : State} (h : Kept r s) : Kept r (State.wnwStop s) := by
  unfold State.wnwStop
  repeat' (first
    | with_reducible assumption
    | intro _
    | dsimp only
    | split
    | fail_if_no_progress (with_reducible refine kept_mk ?_ (by rfl) (by rfl) (by rfl) _ _ _ _ _ _ _ _ _ _ _ _ _ _ _ _ _ _ _)
    )

theorem kept_bootFail {r s : State} (h : Kept r s) : ∀ a1, Kept r (State.bootFail s a1) := by
  intro a1
  unfold State.bootFail
  repeat' (first
    | with_reducible assumption
    | with_reducible refine kept_ite ?_ ?_
    | with_reducible apply kept_wrs
    | with_reducible apply kept_leaveFabric
    | with_reducible apply kept_wnwStop
    | intro _
    | dsimp only
    | split
    | fail_if_no_progress (with_reducible refine kept_mk ?_ (by rfl) (by rfl) (by rfl) _ _ _ _ _ _ _ _ _ _ _ _ _ _ _ _ _ _ _)
    )

theorem kept_bootStep1 {r s : State} (h : Kept r s) : ∀ a1, Kept r (State.bootStep1 s a1) := by
  intro a1
  unfold State.bootStep1
  repeat' (first
    | with_reducible assumption
    | with_reducible refine kept_ite ?_ ?_
    | with_reducible apply kept_wr
    | with_reducible apply kept_wrs
    | with_reducible apply kept_tuneFail
    | with_reducible apply kept_nextStage
    | with_reducible refine kept_foldl ?_ ?_
    | intro _
    | with_reducible apply Kept2.kept
    | with_reducible apply Kept1.kept
    | dsimp only
    | split
    | fail_if_no_progress (with_reducible refine kept_mk ?_ (by rfl) (by rfl) (by rfl) _ _ _ _ _ _ _ _ _ _ _ _ _ _ _ _ _ _ _)
    )

theorem kept_loadUcal {r s : State} (h : Kept r s) : Kept r (State.loadUcal s) := by
  unfold State.loadUcal
  repeat' (first
    | with_reducible assumption
    | with_reducible apply kept_wr
    | with_reducible apply kept_setReg
    | with_reducible refine kept_foldl ?_ ?_
    | intro _
    | with_reducible apply Kept2.kept
    | with_reducible apply Kept1.kept
    | dsimp only
    | split
    )

theorem kept_ucalItem {r s : State} (h : Kept r s) : Kept2 r (State.ucalItem s) := by
  unfold State.ucalItem
  repeat' (first
    | with_reducible assumption
    | with_reducible apply kept_free64
    | with_reducible apply kept_freeBytes
    | intro _
    | with_reducible apply Kept2.kept
    | with_reducible refine kept_snd (by assumption) ?_
    | dsimp only
    | split
    | with_reducible refine kept2_mk ?_ _
    )

theorem kept_bootStep2 {r s : State} (h : Kept r s) : Kept r (State.bootStep2 s) := by
  unfold State.bootStep2
  repeat' (first
    | with_reducible assumption
    | with_reducible refine kept_ite ?_ ?_
    | with_reducible refine kept2_ite ?_ ?_
    | with_reducible apply kept_wrs
    | with_reducible apply kept_storeSwept
    | with_reducible apply kept_newEpoch
    | with_reducible apply kept_extend
    | with_reducible apply kept_nextStage
    | with_reducible apply kept_bootFail
    | with_reducible apply kept_loadUcal
    | with_reducible apply kept_ucalItem
    | intro _
    | with_reducible apply Kept2.kept
    | with_reducible refine kept_snd (by assumption) ?_
    | dsimp only
    | split
    | with_reducible refine kept2_mk ?_ _
    | fail_if_no_progress (with_reducible refine kept_mk ?_ (by rfl) (by rfl) (by rfl) _ _ _ _ _ _ _ _ _ _ _ _ _ _ _ _ _ _ _)
    )

theorem kept_waveEnd {r s : State} (h : Kept r s) : ∀ a1, Kept r (State.waveEnd s a1) := by
  intro a1
  unfold State.waveEnd
  repeat' (first
    | with_reducible assumption
    | with_reducible refine kept_ite ?_ ?_
    | with_reducible apply kept_failWave
    )

theorem kept_bootStep3 {r s : State} (h : Kept r s) : Kept r (State.bootStep3 s) := by
  unfold State.bootStep3
  repeat' (first
    | with_reducible assumption
    | with_reducible apply kept_wr
    | with_reducible apply kept_modDie
    | with_reducible apply kept_modChan
    | with_reducible apply kept_nextStage
    | with_reducible apply kept_waveEnd
    | with_reducible refine kept_foldl ?_ ?_
    | intro _
    | with_reducible apply Kept2.kept
    | with_reducible apply Kept1.kept
    | dsimp only
    | split
    | fail_if_no_progress (with_reducible refine kept_mk ?_ (by rfl) (by rfl) (by rfl) _ _ _ _ _ _ _ _ _ _ _ _ _ _ _ _ _ _ _)
    )

theorem kept_bootStep4 {r s : State} (h : Kept r s) : Kept r (State.bootStep4 s) := by
  unfold State.bootStep4
  repeat' (first
    | with_reducible assumption
    | with_reducible refine kept_ite ?_ ?_
    | with_reducible apply kept_siteEnd
    | with_reducible apply kept_extend
    | with_reducible apply kept_nextStage
    | with_reducible refine kept_foldl ?_ ?_
    | intro _
    )

theorem kept_bootStep5 {r s : State} (h : Kept r s) : Kept r (State.bootStep5 s) := by
  unfold State.bootStep5
  repeat' (first
    | with_reducible assumption
    | with_reducible refine kept_ite ?_ ?_
    | with_reducible apply kept_releaseDie
    | with_reducible apply kept_nextStage
    | with_reducible refine kept_foldl ?_ ?_
    | intro _
    )

theorem kept_bootStep6 {r s : State} (h : Kept r s) : Kept r (State.bootStep6 s) := by
  unfold State.bootStep6
  repeat' (first
    | with_reducible assumption
    | with_reducible refine kept_ite ?_ ?_
    | with_reducible refine kept2_ite ?_ ?_
    | with_reducible apply kept_wrs
    | with_reducible apply kept_free64
    | with_reducible apply kept_freeBit
    | with_reducible apply kept_nextStage
    | with_reducible refine kept_foldl ?_ ?_
    | with_reducible refine kept2_foldl ?_ ?_
    | intro _
    | with_reducible apply Kept2.kept
    )

theorem kept_bootStep7 {r s : State} (h : Kept r s) : Kept r (State.bootStep7 s) := by
  unfold State.bootStep7
  repeat' (first
    | with_reducible assumption
    | with_reducible apply kept_wr
    | with_reducible apply kept_returnPasses
    | with_reducible apply kept_writeItems
    | with_reducible apply kept_nextStage
    | with_reducible refine kept_foldl ?_ ?_
    | intro _
    )

theorem kept_bootStep8 {r s : State} (h : Kept r s) : Kept r (State.bootStep8 s) := by
  unfold State.bootStep8
  repeat' (first
    | with_reducible assumption
    | with_reducible refine kept_ite ?_ ?_
    | with_reducible apply kept_wr
    | with_reducible apply kept_tuneFail
    | with_reducible apply kept_startTraining
    | with_reducible apply kept_nextStage
    | with_reducible apply kept_waveEnd
    | with_reducible refine kept_foldl ?_ ?_
    | intro _
    | with_reducible apply Kept2.kept
    | with_reducible apply Kept1.kept
    | dsimp only
    | split
    | fail_if_no_progress (with_reducible refine kept_mk ?_ (by rfl) (by rfl) (by rfl) _ _ _ _ _ _ _ _ _ _ _ _ _ _ _ _ _ _ _)
    )

theorem kept_bootStep9 {r s : State} (h : Kept r s) : Kept r (State.bootStep9 s) := by
  unfold State.bootStep9
  repeat' (first
    | with_reducible assumption
    | with_reducible refine kept_ite ?_ ?_
    | with_reducible apply kept_wr
    | with_reducible apply kept_joinOut
    | with_reducible apply kept_nextStage
    | with_reducible refine kept_foldl ?_ ?_
    | intro _
    )

theorem kept_bootStep10 {r s : State} (h : Kept r s) : Kept r (State.bootStep10 s) := by
  unfold State.bootStep10
  repeat' (first
    | with_reducible assumption
    | with_reducible refine kept_ite ?_ ?_
    | with_reducible apply kept_nextStage
    )

theorem kept_readImage {r s : State} (h : Kept r s) : ∀ a1, Kept2 r (State.readImage s a1) := by
  intro a1
  unfold State.readImage
  repeat' (first
    | with_reducible assumption
    | with_reducible refine kept_ite ?_ ?_
    | with_reducible refine keptRd_ite ?_ ?_
    | with_reducible refine kept2_ite ?_ ?_
    | with_reducible apply kept_eRead
    | intro _
    | with_reducible apply KeptRd.kept
    | with_reducible apply Kept2.kept
    | dsimp only
    | split
    | with_reducible refine keptRd_mk ?_ _ _ _
    | with_reducible refine kept2_mk ?_ _
    )

theorem kept_storeImage {r s : State} (h : Kept r s) : ∀ a1 a2, Kept r (State.storeImage s a1 a2) := by
  intro a1 a2
  unfold State.storeImage
  repeat' (first
    | with_reducible assumption
    | with_reducible refine kept_ite ?_ ?_
    | with_reducible apply kept_updateStart
    | intro _
    | dsimp only
    | split
    )

theorem kept_writeFlupd {r s : State} (h : Kept r s) : ∀ a1, Kept r (State.writeFlupd s a1) := by
  intro a1
  unfold State.writeFlupd
  repeat' (first
    | with_reducible assumption
    | with_reducible refine kept_ite ?_ ?_
    | with_reducible refine kept2_ite ?_ ?_
    | with_reducible apply kept_wr
    | with_reducible apply kept_wrs
    | with_reducible apply kept_readImage
    | with_reducible apply kept_storeImage
    | intro _
    | with_reducible apply Kept2.kept
    )

theorem kept_writeUcal {r s : State} (h : Kept r s) : ∀ a1, Kept r (State.writeUcal s a1) := by
  intro a1
  unfold State.writeUcal
  repeat' (first
    | with_reducible assumption
    | with_reducible refine kept_ite ?_ ?_
    | with_reducible apply kept_putUcal
    )

/-! ### Access -/

theorem kept_beforeRead {r s : State} (h : Kept r s) : ∀ a1, Kept r (State.beforeRead s a1) := by
  intro a1
  unfold State.beforeRead
  repeat' (first
    | with_reducible assumption
    | with_reducible apply kept_loopErrs
    | intro _
    | dsimp only
    | split
    )

theorem kept_readReg {r s : State} (h : Kept r s) : ∀ a1 a2, Kept2 r (State.readReg s a1 a2) := by
  intro a1 a2
  unfold State.readReg
  repeat' (first
    | with_reducible assumption
    | with_reducible refine kept_ite ?_ ?_
    | with_reducible refine kept2_ite ?_ ?_
    | with_reducible apply kept_setReg
    | with_reducible apply kept_beforeRead
    | intro _
    | with_reducible apply Kept2.kept
    | with_reducible refine kept_snd (by assumption) ?_
    | dsimp only
    | split
    | with_reducible refine kept2_mk ?_ _
    )

theorem kept_writeLog {r s : State} (h : Kept r s) : ∀ a1 a2 a3, Kept r (State.writeLog s a1 a2 a3) := by
  intro a1 a2 a3
  unfold State.writeLog
  repeat' (first
    | with_reducible assumption
    | with_reducible refine kept_ite ?_ ?_
    | with_reducible apply kept_wr
    | with_reducible apply kept_writeFields
    )

theorem kept_writeCntCtl {r s : State} (h : Kept r s) : ∀ a1 a2, Kept r (State.writeCntCtl s a1 a2) := by
  intro a1 a2
  unfold State.writeCntCtl
  repeat' (first
    | with_reducible assumption
    | with_reducible refine kept_ite ?_ ?_
    | with_reducible apply kept_setReg
    | with_reducible apply kept_writeFields
    | with_reducible refine kept_foldl ?_ ?_
    | intro _
    )

theorem kept_writeObsCfg {r s : State} (h : Kept r s) : ∀ a1, Kept r (State.writeObsCfg s a1) := by
  intro a1
  unfold State.writeObsCfg
  repeat' (first
    | with_reducible assumption
    | with_reducible refine kept_ite ?_ ?_
    | with_reducible apply kept_wr
    | with_reducible apply kept_writeFields
    )

theorem kept_writeAt {r s : State} (h : Kept r s) : ∀ a1 a2 a3, Kept r (State.writeAt s a1 a2 a3) := by
  intro a1 a2 a3
  unfold State.writeAt
  repeat' (first
    | with_reducible assumption
    | with_reducible refine kept_ite ?_ ?_
    | with_reducible apply kept_incSat
    | with_reducible apply kept_writeFields
    | with_reducible apply kept_writeArrCtl
    | with_reducible apply kept_writeAccSat
    | with_reducible apply kept_writeStookCtl
    | with_reducible apply kept_writeStookBuf
    | with_reducible apply kept_writeKeyCfg
    | with_reducible apply kept_writeKeyDesc
    | with_reducible apply kept_writeGlnCfg
    | with_reducible apply kept_writeWinTd
    | with_reducible apply kept_writeWinCache
    | with_reducible apply kept_writeDomCtl
    | with_reducible apply kept_writeBayCtl
    | with_reducible apply kept_writeBayCfg
    | with_reducible apply kept_writeMemCfg
    | with_reducible apply kept_writeColCtl
    | with_reducible apply kept_writeColScr
    | with_reducible apply kept_writeQueCfg
    | with_reducible apply kept_writeQueBase
    | with_reducible apply kept_writeQueCtl
    | with_reducible apply kept_writeEvt
    | with_reducible apply kept_corePush
    | with_reducible apply kept_writeFabCtl
    | with_reducible apply kept_writeFabPool
    | with_reducible apply kept_writeEthCfg
    | with_reducible apply kept_writeDportCtl
    | with_reducible apply kept_writeEpochSet
    | with_reducible apply kept_writeDomLp
    | with_reducible apply kept_writeStby
    | with_reducible apply kept_writeFltCtl
    | with_reducible apply kept_writeWdog
    | with_reducible apply kept_writeFlupd
    | with_reducible apply kept_writeUcal
    | with_reducible apply kept_writeLog
    | with_reducible apply kept_writeCntCtl
    | with_reducible apply kept_writeObsCfg
    | intro _
    | dsimp only
    | split
    )

theorem kept_writeReg {r s : State} (h : Kept r s) : ∀ a1 a2 a3, Kept r (State.writeReg s a1 a2 a3) := by
  intro a1 a2 a3
  unfold State.writeReg
  repeat' (first
    | with_reducible assumption
    | with_reducible refine kept_ite ?_ ?_
    | with_reducible apply kept_writeAt
    | intro _
    | dsimp only
    | split
    )

theorem kept_csrGuard {r s : State} (h : Kept r s) : ∀ a1 a2 a3 a4 a5, (∀ t0, Kept r t0 → Kept r (a5 t0)) → Kept r (State.csrGuard s a1 a2 a3 a4 a5) := by
  intro a1 a2 a3 a4 a5 ha5
  unfold State.csrGuard
  repeat' (first
    | with_reducible assumption
    | with_reducible refine kept_ite ?_ ?_
    | with_reducible refine ha5 _ ?_
    | with_reducible apply kept_precise
    )

theorem kept_frameIn {r s : State} (h : Kept r s) : ∀ a1 a2, Kept r (State.frameIn s a1 a2) := by
  intro a1 a2
  unfold State.frameIn
  repeat' (first
    | with_reducible assumption
    | with_reducible refine kept_ite ?_ ?_
    | intro _
    | dsimp only
    | split
    | fail_if_no_progress (with_reducible refine kept_mk ?_ (by rfl) (by rfl) (by rfl) _ _ _ _ _ _ _ _ _ _ _ _ _ _ _ _ _ _ _)
    )

end Sys2Proof.Laws
end

