-- ==== Sys2Proof/WellFormed.lean ====
section
/-! DEFINITION. Which commands name units that a variant has (R6, R13, R27), and carry an instruction word of their row
(R145 to R166) or data of the right length. Nothing in the meanings rests on it: a command that names no unit acts on
nothing the other commands reach. -/

namespace Sys2Proof

/-- A core of the variant. -/
def okCore (v : Variant) (c : Nat) : Bool := decide (c < v.cores)
/-- A scalar processor of the variant. -/
def okSp (v : Variant) (c p : Nat) : Bool := okCore v c && decide (p < 2)
/-- A matrix array of the variant. -/
def okArr (v : Variant) (c a : Nat) : Bool := okCore v c && decide (a < 4)
/-- An accumulation group of the variant. -/
def okGroup (v : Variant) (c a g : Nat) : Bool := okArr v c a && decide (g < 4)
/-- A command queue (R231). -/
def okQueue (q : Nat) : Bool := decide (q < 64)
/-- A power domain (R513). -/
def okDom (i : Nat) : Bool := decide (i < 236)
/-- A fibre, or the rings of base die b at internal waveguide w as 256 + 64 b + w. -/
def okFibre (f : Nat) : Bool := decide (f < 144) || decide (256 ≤ f ∧ f < 512)
/-- A trace unit: core n, or 0x100 + b for base die b (R565). -/
def okTrace (v : Variant) (u : Nat) : Bool := okCore v u || decide (0x100 ≤ u ∧ u < 0x100 + v.bdies)

/-- Is a command well formed on a variant? -/
def Instr.wf (m : Variant) (i : Instr) : Bool :=
  match i with
  | .scalarRegOp c p w => okSp m c p && [0x1].contains (w.toNat % 128)
  | .scalarImmOp c p w => okSp m c p && [0x2, 0x3, 0x4, 0x5, 0x7].contains (w.toNat % 128)
  | .shiftImm c p w => okSp m c p && [0x6].contains (w.toNat % 128)
  | .lui c p w => okSp m c p && [0x8].contains (w.toNat % 128)
  | .branch c p w => okSp m c p && [0xa].contains (w.toNat % 128)
  | .jal c p w => okSp m c p && [0xb].contains (w.toNat % 128)
  | .jalr c p w => okSp m c p && [0xc].contains (w.toNat % 128)
  | .tdWlo c p w => okSp m c p && [0xd].contains (w.toNat % 128)
  | .tdWhi c p w => okSp m c p && [0xd].contains (w.toNat % 128)
  | .tdRlo c p w => okSp m c p && [0xd].contains (w.toNat % 128)
  | .tdRhi c p w => okSp m c p && [0xd].contains (w.toNat % 128)
  | .ldS c p w _ => okSp m c p && [0x10].contains (w.toNat % 128)
  | .stS c p w => okSp m c p && [0x11].contains (w.toNat % 128)
  | .ldL c p w _ => okSp m c p && [0x12].contains (w.toNat % 128)
  | .stL c p w => okSp m c p && [0x13].contains (w.toNat % 128)
  | .atomS c p w => okSp m c p && [0x18].contains (w.toNat % 128)
  | .atomL c p w => okSp m c p && [0x19].contains (w.toNat % 128)
  | .atomE c p w _ => okSp m c p && [0x1a].contains (w.toNat % 128)
  | .loadDataReturn c p => okSp m c p
  | .fenceL c p w => okSp m c p && [0x1c].contains (w.toNat % 128)
  | .acq c p w => okSp m c p && [0x1c].contains (w.toNat % 128)
  | .evtWait c p w => okSp m c p && [0x1c].contains (w.toNat % 128)
  | .evtSig c p w => okSp m c p && [0x1c].contains (w.toNat % 128)
  | .fenceR c p w => okSp m c p && [0x1c].contains (w.toNat % 128)
  | .phase c p w => okSp m c p && [0x1e].contains (w.toNat % 128)
  | .endInstr c p w => okSp m c p && [0x1f].contains (w.toNat % 128)
  | .eret c p w => okSp m c p && [0x1f].contains (w.toNat % 128)
  | .supcall c p w => okSp m c p && [0x1f].contains (w.toNat % 128)
  | .brk c p w => okSp m c p && [0x1f].contains (w.toNat % 128)
  | .csrRd c p w => okSp m c p && [0x1f].contains (w.toNat % 128)
  | .csrWr c p w => okSp m c p && [0x1f].contains (w.toNat % 128)
  | .cntRd c p w => okSp m c p && [0x1f].contains (w.toNat % 128)
  | .timeRd c p w => okSp m c p && [0x1f].contains (w.toNat % 128)
  | .traceMarkInstr c p w => okSp m c p && [0x1f].contains (w.toNat % 128)
  | .fps c p w => okSp m c p && [0x1f].contains (w.toNat % 128)
  | .ici c p w => okSp m c p && [0x1f].contains (w.toNat % 128)
  | .coreId c p w => okSp m c p && [0x1f].contains (w.toNat % 128)
  | .instructionFetchMiss c p => okSp m c p
  | .instructionLineArrival c p => okSp m c p
  | .vadd c p w => okSp m c p && [0x20, 0x21].contains (w.toNat % 128)
  | .vsub c p w => okSp m c p && [0x20, 0x21].contains (w.toNat % 128)
  | .vmul c p w => okSp m c p && [0x20, 0x21].contains (w.toNat % 128)
  | .vfma c p w => okSp m c p && [0x20].contains (w.toNat % 128)
  | .vmac c p w => okSp m c p && [0x21].contains (w.toNat % 128)
  | .vdiv c p w => okSp m c p && [0x20].contains (w.toNat % 128)
  | .vsqrt c p w => okSp m c p && [0x20].contains (w.toNat % 128)
  | .vexp2 c p w => okSp m c p && [0x20].contains (w.toNat % 128)
  | .vlog2 c p w => okSp m c p && [0x20].contains (w.toNat % 128)
  | .vmax c p w => okSp m c p && [0x2b, 0x21].contains (w.toNat % 128)
  | .vmin c p w => okSp m c p && [0x2b, 0x21].contains (w.toNat % 128)
  | .vabs c p w => okSp m c p && [0x2b, 0x21].contains (w.toNat % 128)
  | .vneg c p w => okSp m c p && [0x2b].contains (w.toNat % 128)
  | .vadds c p w => okSp m c p && [0x21].contains (w.toNat % 128)
  | .vsubs c p w => okSp m c p && [0x21].contains (w.toNat % 128)
  | .vand c p w => okSp m c p && [0x21].contains (w.toNat % 128)
  | .vor c p w => okSp m c p && [0x21].contains (w.toNat % 128)
  | .vxor c p w => okSp m c p && [0x21].contains (w.toNat % 128)
  | .vshl c p w => okSp m c p && [0x21].contains (w.toNat % 128)
  | .vshra c p w => okSp m c p && [0x21].contains (w.toNat % 128)
  | .vshrl c p w => okSp m c p && [0x21].contains (w.toNat % 128)
  | .vdot c p w => okSp m c p && [0x21].contains (w.toNat % 128)
  | .vcmp c p w => okSp m c p && [0x22].contains (w.toNat % 128)
  | .vrsum c p w => okSp m c p && [0x23].contains (w.toNat % 128)
  | .vrmax c p w => okSp m c p && [0x23].contains (w.toNat % 128)
  | .vrmin c p w => okSp m c p && [0x23].contains (w.toNat % 128)
  | .vperm c p w => okSp m c p && [0x24].contains (w.toNat % 128)
  | .vsel c p w => okSp m c p && [0x24].contains (w.toNat % 128)
  | .vbcast c p w => okSp m c p && [0x29].contains (w.toNat % 128)
  | .vext c p w => okSp m c p && [0x29].contains (w.toNat % 128)
  | .vins c p w => okSp m c p && [0x29].contains (w.toNat % 128)
  | .pand c p w => okSp m c p && [0x2a].contains (w.toNat % 128)
  | .porPredicate c p w => okSp m c p && [0x2a].contains (w.toNat % 128)
  | .pxor c p w => okSp m c p && [0x2a].contains (w.toNat % 128)
  | .pnot c p w => okSp m c p && [0x2a].contains (w.toNat % 128)
  | .pfirst c p w => okSp m c p && [0x2a].contains (w.toNat % 128)
  | .pcount c p w => okSp m c p && [0x2a].contains (w.toNat % 128)
  | .vcvt c p w => okSp m c p && [0x25].contains (w.toNat % 128)
  | .vld c p w _ => okSp m c p && [0x26, 0x27].contains (w.toNat % 128)
  | .vst c p w => okSp m c p && [0x26, 0x27].contains (w.toNat % 128)
  | .vgather c p w => okSp m c p && [0x28].contains (w.toNat % 128)
  | .vscatter c p w => okSp m c p && [0x28].contains (w.toNat % 128)
  | .matLoadb c p w => okSp m c p && [0x60].contains (w.toNat % 128)
  | .matPass c p w => okSp m c p && [0x60].contains (w.toNat % 128)
  | .matOpen c p w => okSp m c p && [0x60].contains (w.toNat % 128)
  | .matClose c p w => okSp m c p && [0x60].contains (w.toNat % 128)
  | .tileMove c p w => okSp m c p && [0x60].contains (w.toNat % 128)
  | .tileMoveComplete c => okCore m c
  | .glnGather c p w => okSp m c p && [0x61].contains (w.toNat % 128)
  | .glnSegred c p w => okSp m c p && [0x61].contains (w.toNat % 128)
  | .glnScatadd c p w => okSp m c p && [0x61].contains (w.toNat % 128)
  | .glnMerge c p w => okSp m c p && [0x61].contains (w.toNat % 128)
  | .glnIsect c p w => okSp m c p && [0x61].contains (w.toNat % 128)
  | .glnSort c p w => okSp m c p && [0x61].contains (w.toNat % 128)
  | .glnProbe c p w => okSp m c p && [0x61].contains (w.toNat % 128)
  | .glnDrain c p w => okSp m c p && [0x61].contains (w.toNat % 128)
  | .stookPut c p w => okSp m c p && [0x62].contains (w.toNat % 128)
  | .rld c p w => okSp m c p && [0x63].contains (w.toNat % 128)
  | .rst c p w => okSp m c p && [0x63].contains (w.toNat % 128)
  | .radd c p w => okSp m c p && [0x63].contains (w.toNat % 128)
  | .rstf c p w => okSp m c p && [0x63].contains (w.toNat % 128)
  | .rstfSend _ => true
  | .impreciseExceptionTaken c p => okSp m c p
  | .kernelEnd c => okCore m c
  | .tileQueueHeadCheck c a => okArr m c a
  | .passStart c a => okArr m c a
  | .passRowEntry c a => okArr m c a
  | .passComplete c a g _ => okGroup m c a g
  | .loadbStart c a => okArr m c a
  | .loadbComplete c a => okArr m c a
  | .groupStateEffect c a g => okGroup m c a g
  | .arrSlotClr c a _ => okArr m c a
  | .slotClearEffect c a t => okArr m c a && decide (t < 2)
  | .accAccessRelease c p => okSp m c p
  | .accSatWrite c a g _ => okGroup m c a g
  | .stookSubmit q => okQueue q
  | .stookDeadlineSeal c => okCore m c
  | .stookDispatch c => okCore m c
  | .stookPassComplete c h => okCore m c && decide (h < 2)
  | .stookScatterComplete c h => okCore m c && decide (h < 2)
  | .stookFlush c _ => okCore m c
  | .stookAbort c _ => okCore m c
  | .stookCtlWrite c _ => okCore m c
  | .stookBufWrite c _ => okCore m c
  | .stookKeyBind c n _ => okCore m c && decide (n < 64)
  | .stookKeyUnbind c n _ => okCore m c && decide (n < 64)
  | .stookKeyDescWrite c n k _ => okCore m c && decide (n < 64) && decide (k < 2)
  | .gleanOpStart c _ => okCore m c
  | .gleanStreamRowPlace c => okCore m c
  | .gleanOpComplete c _ => okCore m c
  | .gleanOpFail c => okCore m c
  | .gleanStallTimeout c => okCore m c
  | .rcFlush c _ => okCore m c
  | .nop q => okQueue q
  | .launch q => okQueue q
  | .launchComplete _ => true
  | .copy q => okQueue q
  | .copyComplete b e _ => decide (b < m.bdies) && decide (e < 4)
  | .sow q => okQueue q
  | .glean q => okQueue q
  | .rs q => okQueue q
  | .ag q => okQueue q
  | .barrier q => okQueue q
  | .waitCmd q => okQueue q
  | .signal q => okQueue q
  | .fenceRemote q => okQueue q
  | .hintPhase q => okQueue q
  | .timestamp q => okQueue q
  | .traceMark q => okQueue q
  | .teardownAck q => okQueue q
  | .ringPoll q => okQueue q
  | .queueHeadCheck q => okQueue q
  | .queueDispatch => true
  | .commandComplete => true
  | .queueEnable q _ => okQueue q
  | .queueBaseWrite q _ => okQueue q
  | .queueAbort q => okQueue q
  | .queueResume q => okQueue q
  | .queEvtWrite e _ => decide (e < 65536)
  | .pushMessage _ cmds => cmds.all (fun x => decide (x.length = 8))
  | .quePush c p _ => okSp m c p
  | .regrd _ => true
  | .regwr _ => true
  | .ldrd _ _ => true
  | .ldwr _ _ => true
  | .reject _ => true
  | .halterFrameResend _ => true
  | .registerWrite _ _ => true
  | .bayFlush t => decide (t < m.stacks)
  | .bayWbinv t => decide (t < m.stacks)
  | .bayFlushDone t => decide (t < m.stacks)
  | .bayCfgWrite t _ => decide (t < m.stacks)
  | .memCfgWrite t _ => decide (t < m.stacks)
  | .stackTempSample t _ => decide (t < m.stacks)
  | .refreshBandChange t => decide (t < m.stacks)
  | .uncorrectableError block agent _ _ _ => decide (block < 16) && decide (agent < 16)
  | .windowWalkStart b _ => decide (b < m.bdies)
  | .windowWalkComplete b _ _ => decide (b < m.bdies)
  | .remoteArrival _ => true
  | .remoteApply _ _ => true
  | .remoteResponseArrival _ => true
  | .remoteRetransmit _ => true
  | .remoteOpTimeout _ => true
  | .skipArrival _ => true
  | .combineWindowClose b _ => decide (b < m.bdies)
  | .combineEntryTimeout b _ => decide (b < m.bdies)
  | .foldApply b _ => decide (b < m.bdies)
  | .teardownMessage _ => true
  | .vc3Teardown _ => true
  | .winTdThaw _ => true
  | .winCacheInv b _ => decide (b < m.bdies)
  | .changeRequest _ => true
  | .changeVerified => true
  | .manifestApply => true
  | .packetForward link _ _ => decide (link ≤ 16)
  | .packetDiscardStuck link _ => decide (link < m.links)
  | .creditReturn link vc _ => decide (link < m.links) && decide (vc < 4)
  | .creditRefresh link free => decide (link < m.links) && decide (free.length = 5)
  | .hopFrameReceive link _ _ _ _ => decide (link < m.links)
  | .linkTraining link _ _ _ => decide (link < m.links)
  | .linkDozeEntry link _ => decide (link < m.links)
  | .linkDozeWake link _ => decide (link < m.links)
  | .fabQuiesce _ => true
  | .fabPoolWrite _ => true
  | .roceWrite port _ => decide (port < m.ethPorts)
  | .roceRead port _ => decide (port < m.ethPorts)
  | .roceSend port _ => decide (port < m.ethPorts)
  | .qpTransportTimeout port _ => decide (port < m.ethPorts)
  | .ethCfgWrite port _ => decide (port < m.ethPorts)
  | .collectiveContextTake q => okQueue q
  | .contextFullTimeout q => okQueue q
  | .sheafReadyArrival _ => true
  | .sheafDataArrival _ => true
  | .sheafTrailerArrival _ => true
  | .sheafResendArrival _ => true
  | .sheafReduce ctx _ _ _ => decide (ctx < 64)
  | .collectiveStageComplete ctx => decide (ctx < 64)
  | .collectiveAbortArrival _ => true
  | .collectiveIdleTimeout ctx => decide (ctx < 64)
  | .collectiveEnd ctx => decide (ctx < 64)
  | .colAbort _ => true
  | .colScrWrite b _ => decide (b < m.bdies)
  | .fadeSample currents => decide (currents.length = m.sources)
  | .mirrorReady x => okFibre x.fibre && decide (x.path < 4)
  | .pathSwitch x => okFibre x.fibre && decide (x.path < 4)
  | .trackingUpdate fibre ring _ _ _ => okFibre fibre && decide (ring < 9)
  | .ringRetuneDone fibre ring _ => okFibre fibre && decide (ring < 9)
  | .feedForwardUpdate b => decide (b < m.bdies)
  | .brokerPlan _ => true
  | .channelMoveComplete ch => decide (ch < 512)
  | .receiveFibreLight fibre => okFibre fibre
  | .photonicTuning fibre _ _ _ => okFibre fibre
  | .dportDrst d => decide (d < m.cdies)
  | .dieLockLoss d => decide (d < m.cdies)
  | .dieBringup d _ _ => decide (d < m.cdies)
  | .dportHoldWrite d _ => decide (d < m.cdies)
  | .dportLoopWrite d _ _ => decide (d < m.cdies)
  | .flitReplay d _ => decide (d < m.cdies)
  | .marginUpdate d => decide (d < m.cdies)
  | .guestTempReport d _ => decide (d < m.cdies)
  | .guestReportTimeout d => decide (d < m.cdies)
  | .guestSig d _ _ => decide (d < m.cdies)
  | .guestRegisterWait d _ _ => decide (d < m.cdies)
  | .guestWaitAnswer d _ _ => decide (d < m.cdies)
  | .guestEAccess d _ _ _ _ _ => decide (d < m.cdies)
  | .inputVoltageChange _ => true
  | .pwrInReport _ _ _ => true
  | .converterFail k => decide (k < 8)
  | .uofsWrite i _ => okDom i
  | .ptWrite i _ => okDom i
  | .droopTrip i _ => okDom i
  | .droopRelease i _ => okDom i
  | .reactWindow i _ _ => okDom i
  | .regulatorUpdate i => okDom i
  | .hintLapse i => okDom i
  | .thermalSample readings => decide (readings.length = 704)
  | .sensorSelfCheck x _ => decide (x < 704)
  | .mrst => true
  | .fltCtlMrst _ => true
  | .watchdogKick _ => true
  | .watchdogExpiry => true
  | .glbEpochSet _ => true
  | .heartbeatSend => true
  | .heartbeat node => decide (node < 512)
  | .rollTick => true
  | .vote node suspect => decide (node < 512) && decide (suspect < 512)
  | .clear node suspect => decide (node < 512) && decide (suspect < 512)
  | .voteExpiry => true
  | .verdict _ link => decide (link < m.links)
  | .domainAlarm k => decide (1 ≤ k ∧ k ≤ 3)
  | .domain _ link => decide (link < m.links)
  | .join _ link => decide (link < m.links)
  | .admitMsg _ => true
  | .admitTimeout => true
  | .fenceSelf => true
  | .selfFenceTimeout => true
  | .fenceMrst => true
  | .winnowSchedule d => decide (d < m.cdies)
  | .winnowKernelEnd c _ => okCore m c
  | .traceRecord u _ _ _ => okTrace m u
  | .traceSample u => okTrace m u
  | .traceDatagramSend u => okTrace m u
  | .timebaseCheck => true
  | .por _ => true
  | .bootStepComplete _ _ => true
  | .bootStepTimeout => true
  | .ready => true
  | .returnPassEnd c => okCore m c
  | .bootFlupdGo _ => true
  | .bootUcalSave _ => true
  | .attestationRequest _ => true
  | .certificateRequest _ => true
  | .crst i _ => okDom i
  | .coreGate i _ => okDom i
  | .dieFallow i _ => okDom i
  | .coreWake q => okQueue q
  | .standbyEnter _ => true
  | .wake => true
  | .status => true
  | .i3cReservedCommand _ => true
  | .illegalInstruction c p _ => okSp m c p
  | .i3cCommonCommand _ => true
  | .tapInstruction _ => true

end Sys2Proof
end

