-- ==== Sys2Proof/Laws/PerInstr.lean ====
section
/-! SUPPORT. Statements about every command as syntax, one lemma per command. -/

namespace Sys2Proof.Laws.Unit

open Sys2Proof

/-- A command that is well formed on some variant names units that the largest one has too (R6, R13, R27). The one exception carries
a reading for each laser source, of which the variants have different numbers. -/
def Statement (i : Instr) : Prop := ∀ v, i.wf v = true → i.wf .trn1216 = true ∨ ∃ l, i = .fadeSample l

theorem cdies_le (v : Variant) : v.cdies ≤ Variant.cdies .trn1216 := by cases v <;> decide
theorem cores_le (v : Variant) : v.cores ≤ Variant.cores .trn1216 := by cases v <;> decide
theorem bdies_le (v : Variant) : v.bdies ≤ Variant.bdies .trn1216 := by cases v <;> decide
theorem stacks_le (v : Variant) : v.stacks ≤ Variant.stacks .trn1216 := by cases v <;> decide
theorem links_le (v : Variant) : v.links ≤ Variant.links .trn1216 := by cases v <;> decide
theorem ethPorts_le (v : Variant) : v.ethPorts ≤ Variant.ethPorts .trn1216 := by cases v <;> decide

theorem lt_up {n a b : Nat} (h : a ≤ b) (g : decide (n < a) = true) : decide (n < b) = true := by
  rw [decide_eq_true_eq] at g ⊢
  exact lt_of_lt_of_le g h

theorem and_up {a b c : Bool} (h : a = true → b = true) (g : (a && c) = true) : (b && c) = true := by
  rw [Bool.and_eq_true] at g ⊢
  exact ⟨h g.1, g.2⟩

theorem okCore_up {v : Variant} {c : Nat} (h : okCore v c = true) : okCore .trn1216 c = true := lt_up (cores_le v) h
theorem okSp_up {v : Variant} {c p : Nat} (h : okSp v c p = true) : okSp .trn1216 c p = true := and_up okCore_up h
theorem okArr_up {v : Variant} {c a : Nat} (h : okArr v c a = true) : okArr .trn1216 c a = true := and_up okCore_up h
theorem okGroup_up {v : Variant} {c a g : Nat} (h : okGroup v c a g = true) : okGroup .trn1216 c a g = true := and_up okArr_up h
theorem okTrace_up {v : Variant} {u : Nat} (h : okTrace v u = true) : okTrace .trn1216 u = true := by
  have := bdies_le v
  unfold okTrace at h ⊢
  rw [Bool.or_eq_true] at h ⊢
  exact h.imp okCore_up (fun h => by rw [decide_eq_true_eq] at h ⊢; omega)

theorem scalarRegOp (c p : Nat) (w : W32) : Statement (.scalarRegOp c p w) := fun _ h => .inl ((and_up okSp_up) h)
theorem scalarImmOp (c p : Nat) (w : W32) : Statement (.scalarImmOp c p w) := fun _ h => .inl ((and_up okSp_up) h)
theorem shiftImm (c p : Nat) (w : W32) : Statement (.shiftImm c p w) := fun _ h => .inl ((and_up okSp_up) h)
theorem lui (c p : Nat) (w : W32) : Statement (.lui c p w) := fun _ h => .inl ((and_up okSp_up) h)
theorem branch (c p : Nat) (w : W32) : Statement (.branch c p w) := fun _ h => .inl ((and_up okSp_up) h)
theorem jal (c p : Nat) (w : W32) : Statement (.jal c p w) := fun _ h => .inl ((and_up okSp_up) h)
theorem jalr (c p : Nat) (w : W32) : Statement (.jalr c p w) := fun _ h => .inl ((and_up okSp_up) h)
theorem tdWlo (c p : Nat) (w : W32) : Statement (.tdWlo c p w) := fun _ h => .inl ((and_up okSp_up) h)
theorem tdWhi (c p : Nat) (w : W32) : Statement (.tdWhi c p w) := fun _ h => .inl ((and_up okSp_up) h)
theorem tdRlo (c p : Nat) (w : W32) : Statement (.tdRlo c p w) := fun _ h => .inl ((and_up okSp_up) h)
theorem tdRhi (c p : Nat) (w : W32) : Statement (.tdRhi c p w) := fun _ h => .inl ((and_up okSp_up) h)
theorem ldS (c p : Nat) (w : W32) (ups : List Upset) : Statement (.ldS c p w ups) := fun _ h => .inl ((and_up okSp_up) h)
theorem stS (c p : Nat) (w : W32) : Statement (.stS c p w) := fun _ h => .inl ((and_up okSp_up) h)
theorem ldL (c p : Nat) (w : W32) (ups : List Upset) : Statement (.ldL c p w ups) := fun _ h => .inl ((and_up okSp_up) h)
theorem stL (c p : Nat) (w : W32) : Statement (.stL c p w) := fun _ h => .inl ((and_up okSp_up) h)
theorem atomS (c p : Nat) (w : W32) : Statement (.atomS c p w) := fun _ h => .inl ((and_up okSp_up) h)
theorem atomL (c p : Nat) (w : W32) : Statement (.atomL c p w) := fun _ h => .inl ((and_up okSp_up) h)
theorem atomE (c p : Nat) (w : W32) (ups : List Upset) : Statement (.atomE c p w ups) := fun _ h => .inl ((and_up okSp_up) h)
theorem loadDataReturn (c p : Nat) : Statement (.loadDataReturn c p) := fun _ h => .inl (okSp_up h)
theorem fenceL (c p : Nat) (w : W32) : Statement (.fenceL c p w) := fun _ h => .inl ((and_up okSp_up) h)
theorem acq (c p : Nat) (w : W32) : Statement (.acq c p w) := fun _ h => .inl ((and_up okSp_up) h)
theorem evtWait (c p : Nat) (w : W32) : Statement (.evtWait c p w) := fun _ h => .inl ((and_up okSp_up) h)
theorem evtSig (c p : Nat) (w : W32) : Statement (.evtSig c p w) := fun _ h => .inl ((and_up okSp_up) h)
theorem fenceR (c p : Nat) (w : W32) : Statement (.fenceR c p w) := fun _ h => .inl ((and_up okSp_up) h)
theorem phase (c p : Nat) (w : W32) : Statement (.phase c p w) := fun _ h => .inl ((and_up okSp_up) h)
theorem endInstr (c p : Nat) (w : W32) : Statement (.endInstr c p w) := fun _ h => .inl ((and_up okSp_up) h)
theorem eret (c p : Nat) (w : W32) : Statement (.eret c p w) := fun _ h => .inl ((and_up okSp_up) h)
theorem supcall (c p : Nat) (w : W32) : Statement (.supcall c p w) := fun _ h => .inl ((and_up okSp_up) h)
theorem brk (c p : Nat) (w : W32) : Statement (.brk c p w) := fun _ h => .inl ((and_up okSp_up) h)
theorem csrRd (c p : Nat) (w : W32) : Statement (.csrRd c p w) := fun _ h => .inl ((and_up okSp_up) h)
theorem csrWr (c p : Nat) (w : W32) : Statement (.csrWr c p w) := fun _ h => .inl ((and_up okSp_up) h)
theorem cntRd (c p : Nat) (w : W32) : Statement (.cntRd c p w) := fun _ h => .inl ((and_up okSp_up) h)
theorem timeRd (c p : Nat) (w : W32) : Statement (.timeRd c p w) := fun _ h => .inl ((and_up okSp_up) h)
theorem traceMarkInstr (c p : Nat) (w : W32) : Statement (.traceMarkInstr c p w) := fun _ h => .inl ((and_up okSp_up) h)
theorem fps (c p : Nat) (w : W32) : Statement (.fps c p w) := fun _ h => .inl ((and_up okSp_up) h)
theorem ici (c p : Nat) (w : W32) : Statement (.ici c p w) := fun _ h => .inl ((and_up okSp_up) h)
theorem coreId (c p : Nat) (w : W32) : Statement (.coreId c p w) := fun _ h => .inl ((and_up okSp_up) h)
theorem instructionFetchMiss (c p : Nat) : Statement (.instructionFetchMiss c p) := fun _ h => .inl (okSp_up h)
theorem instructionLineArrival (c p : Nat) : Statement (.instructionLineArrival c p) := fun _ h => .inl (okSp_up h)
theorem vadd (c p : Nat) (w : W32) : Statement (.vadd c p w) := fun _ h => .inl ((and_up okSp_up) h)
theorem vsub (c p : Nat) (w : W32) : Statement (.vsub c p w) := fun _ h => .inl ((and_up okSp_up) h)
theorem vmul (c p : Nat) (w : W32) : Statement (.vmul c p w) := fun _ h => .inl ((and_up okSp_up) h)
theorem vfma (c p : Nat) (w : W32) : Statement (.vfma c p w) := fun _ h => .inl ((and_up okSp_up) h)
theorem vmac (c p : Nat) (w : W32) : Statement (.vmac c p w) := fun _ h => .inl ((and_up okSp_up) h)
theorem vdiv (c p : Nat) (w : W32) : Statement (.vdiv c p w) := fun _ h => .inl ((and_up okSp_up) h)
theorem vsqrt (c p : Nat) (w : W32) : Statement (.vsqrt c p w) := fun _ h => .inl ((and_up okSp_up) h)
theorem vexp2 (c p : Nat) (w : W32) : Statement (.vexp2 c p w) := fun _ h => .inl ((and_up okSp_up) h)
theorem vlog2 (c p : Nat) (w : W32) : Statement (.vlog2 c p w) := fun _ h => .inl ((and_up okSp_up) h)
theorem vmax (c p : Nat) (w : W32) : Statement (.vmax c p w) := fun _ h => .inl ((and_up okSp_up) h)
theorem vmin (c p : Nat) (w : W32) : Statement (.vmin c p w) := fun _ h => .inl ((and_up okSp_up) h)
theorem vabs (c p : Nat) (w : W32) : Statement (.vabs c p w) := fun _ h => .inl ((and_up okSp_up) h)
theorem vneg (c p : Nat) (w : W32) : Statement (.vneg c p w) := fun _ h => .inl ((and_up okSp_up) h)
theorem vadds (c p : Nat) (w : W32) : Statement (.vadds c p w) := fun _ h => .inl ((and_up okSp_up) h)
theorem vsubs (c p : Nat) (w : W32) : Statement (.vsubs c p w) := fun _ h => .inl ((and_up okSp_up) h)
theorem vand (c p : Nat) (w : W32) : Statement (.vand c p w) := fun _ h => .inl ((and_up okSp_up) h)
theorem vor (c p : Nat) (w : W32) : Statement (.vor c p w) := fun _ h => .inl ((and_up okSp_up) h)
theorem vxor (c p : Nat) (w : W32) : Statement (.vxor c p w) := fun _ h => .inl ((and_up okSp_up) h)
theorem vshl (c p : Nat) (w : W32) : Statement (.vshl c p w) := fun _ h => .inl ((and_up okSp_up) h)
theorem vshra (c p : Nat) (w : W32) : Statement (.vshra c p w) := fun _ h => .inl ((and_up okSp_up) h)
theorem vshrl (c p : Nat) (w : W32) : Statement (.vshrl c p w) := fun _ h => .inl ((and_up okSp_up) h)
theorem vdot (c p : Nat) (w : W32) : Statement (.vdot c p w) := fun _ h => .inl ((and_up okSp_up) h)
theorem vcmp (c p : Nat) (w : W32) : Statement (.vcmp c p w) := fun _ h => .inl ((and_up okSp_up) h)
theorem vrsum (c p : Nat) (w : W32) : Statement (.vrsum c p w) := fun _ h => .inl ((and_up okSp_up) h)
theorem vrmax (c p : Nat) (w : W32) : Statement (.vrmax c p w) := fun _ h => .inl ((and_up okSp_up) h)
theorem vrmin (c p : Nat) (w : W32) : Statement (.vrmin c p w) := fun _ h => .inl ((and_up okSp_up) h)
theorem vperm (c p : Nat) (w : W32) : Statement (.vperm c p w) := fun _ h => .inl ((and_up okSp_up) h)
theorem vsel (c p : Nat) (w : W32) : Statement (.vsel c p w) := fun _ h => .inl ((and_up okSp_up) h)
theorem vbcast (c p : Nat) (w : W32) : Statement (.vbcast c p w) := fun _ h => .inl ((and_up okSp_up) h)
theorem vext (c p : Nat) (w : W32) : Statement (.vext c p w) := fun _ h => .inl ((and_up okSp_up) h)
theorem vins (c p : Nat) (w : W32) : Statement (.vins c p w) := fun _ h => .inl ((and_up okSp_up) h)
theorem pand (c p : Nat) (w : W32) : Statement (.pand c p w) := fun _ h => .inl ((and_up okSp_up) h)
theorem porPredicate (c p : Nat) (w : W32) : Statement (.porPredicate c p w) := fun _ h => .inl ((and_up okSp_up) h)
theorem pxor (c p : Nat) (w : W32) : Statement (.pxor c p w) := fun _ h => .inl ((and_up okSp_up) h)
theorem pnot (c p : Nat) (w : W32) : Statement (.pnot c p w) := fun _ h => .inl ((and_up okSp_up) h)
theorem pfirst (c p : Nat) (w : W32) : Statement (.pfirst c p w) := fun _ h => .inl ((and_up okSp_up) h)
theorem pcount (c p : Nat) (w : W32) : Statement (.pcount c p w) := fun _ h => .inl ((and_up okSp_up) h)
theorem vcvt (c p : Nat) (w : W32) : Statement (.vcvt c p w) := fun _ h => .inl ((and_up okSp_up) h)
theorem vld (c p : Nat) (w : W32) (ups : List Upset) : Statement (.vld c p w ups) := fun _ h => .inl ((and_up okSp_up) h)
theorem vst (c p : Nat) (w : W32) : Statement (.vst c p w) := fun _ h => .inl ((and_up okSp_up) h)
theorem vgather (c p : Nat) (w : W32) : Statement (.vgather c p w) := fun _ h => .inl ((and_up okSp_up) h)
theorem vscatter (c p : Nat) (w : W32) : Statement (.vscatter c p w) := fun _ h => .inl ((and_up okSp_up) h)
theorem matLoadb (c p : Nat) (w : W64) : Statement (.matLoadb c p w) := fun _ h => .inl ((and_up okSp_up) h)
theorem matPass (c p : Nat) (w : W64) : Statement (.matPass c p w) := fun _ h => .inl ((and_up okSp_up) h)
theorem matOpen (c p : Nat) (w : W64) : Statement (.matOpen c p w) := fun _ h => .inl ((and_up okSp_up) h)
theorem matClose (c p : Nat) (w : W64) : Statement (.matClose c p w) := fun _ h => .inl ((and_up okSp_up) h)
theorem tileMove (c p : Nat) (w : W64) : Statement (.tileMove c p w) := fun _ h => .inl ((and_up okSp_up) h)
theorem tileMoveComplete (c : Nat) : Statement (.tileMoveComplete c) := fun _ h => .inl (okCore_up h)
theorem glnGather (c p : Nat) (w : W64) : Statement (.glnGather c p w) := fun _ h => .inl ((and_up okSp_up) h)
theorem glnSegred (c p : Nat) (w : W64) : Statement (.glnSegred c p w) := fun _ h => .inl ((and_up okSp_up) h)
theorem glnScatadd (c p : Nat) (w : W64) : Statement (.glnScatadd c p w) := fun _ h => .inl ((and_up okSp_up) h)
theorem glnMerge (c p : Nat) (w : W64) : Statement (.glnMerge c p w) := fun _ h => .inl ((and_up okSp_up) h)
theorem glnIsect (c p : Nat) (w : W64) : Statement (.glnIsect c p w) := fun _ h => .inl ((and_up okSp_up) h)
theorem glnSort (c p : Nat) (w : W64) : Statement (.glnSort c p w) := fun _ h => .inl ((and_up okSp_up) h)
theorem glnProbe (c p : Nat) (w : W64) : Statement (.glnProbe c p w) := fun _ h => .inl ((and_up okSp_up) h)
theorem glnDrain (c p : Nat) (w : W64) : Statement (.glnDrain c p w) := fun _ h => .inl ((and_up okSp_up) h)
theorem stookPut (c p : Nat) (w : W64) : Statement (.stookPut c p w) := fun _ h => .inl ((and_up okSp_up) h)
theorem rld (c p : Nat) (w : W64) : Statement (.rld c p w) := fun _ h => .inl ((and_up okSp_up) h)
theorem rst (c p : Nat) (w : W64) : Statement (.rst c p w) := fun _ h => .inl ((and_up okSp_up) h)
theorem radd (c p : Nat) (w : W64) : Statement (.radd c p w) := fun _ h => .inl ((and_up okSp_up) h)
theorem rstf (c p : Nat) (w : W64) : Statement (.rstf c p w) := fun _ h => .inl ((and_up okSp_up) h)
theorem rstfSend (id : Nat) : Statement (.rstfSend id) := fun _ h => .inl h
theorem impreciseExceptionTaken (c p : Nat) : Statement (.impreciseExceptionTaken c p) := fun _ h => .inl (okSp_up h)
theorem kernelEnd (c : Nat) : Statement (.kernelEnd c) := fun _ h => .inl (okCore_up h)
theorem tileQueueHeadCheck (c a : Nat) : Statement (.tileQueueHeadCheck c a) := fun _ h => .inl (okArr_up h)
theorem passStart (c a : Nat) : Statement (.passStart c a) := fun _ h => .inl (okArr_up h)
theorem passRowEntry (c a : Nat) : Statement (.passRowEntry c a) := fun _ h => .inl (okArr_up h)
theorem passComplete (c a g : Nat) (ups : List Upset) : Statement (.passComplete c a g ups) := fun _ h => .inl (okGroup_up h)
theorem loadbStart (c a : Nat) : Statement (.loadbStart c a) := fun _ h => .inl (okArr_up h)
theorem loadbComplete (c a : Nat) : Statement (.loadbComplete c a) := fun _ h => .inl (okArr_up h)
theorem groupStateEffect (c a g : Nat) : Statement (.groupStateEffect c a g) := fun _ h => .inl (okGroup_up h)
theorem arrSlotClr (c a : Nat) (v : W64) : Statement (.arrSlotClr c a v) := fun _ h => .inl (okArr_up h)
theorem slotClearEffect (c a t : Nat) : Statement (.slotClearEffect c a t) := fun _ h => .inl ((and_up okArr_up) h)
theorem accAccessRelease (c p : Nat) : Statement (.accAccessRelease c p) := fun _ h => .inl (okSp_up h)
theorem accSatWrite (c a g : Nat) (v : W64) : Statement (.accSatWrite c a g v) := fun _ h => .inl (okGroup_up h)
theorem stookSubmit (q : Nat) : Statement (.stookSubmit q) := fun _ h => .inl h
theorem stookDeadlineSeal (c : Nat) : Statement (.stookDeadlineSeal c) := fun _ h => .inl (okCore_up h)
theorem stookDispatch (c : Nat) : Statement (.stookDispatch c) := fun _ h => .inl (okCore_up h)
theorem stookPassComplete (c h : Nat) : Statement (.stookPassComplete c h) := fun _ h => .inl ((and_up okCore_up) h)
theorem stookScatterComplete (c h : Nat) : Statement (.stookScatterComplete c h) := fun _ h => .inl ((and_up okCore_up) h)
theorem stookFlush (c : Nat) (v : W64) : Statement (.stookFlush c v) := fun _ h => .inl (okCore_up h)
theorem stookAbort (c : Nat) (v : W64) : Statement (.stookAbort c v) := fun _ h => .inl (okCore_up h)
theorem stookCtlWrite (c : Nat) (v : W64) : Statement (.stookCtlWrite c v) := fun _ h => .inl (okCore_up h)
theorem stookBufWrite (c : Nat) (v : W64) : Statement (.stookBufWrite c v) := fun _ h => .inl (okCore_up h)
theorem stookKeyBind (c n : Nat) (v : W64) : Statement (.stookKeyBind c n v) := fun _ h => .inl ((and_up okCore_up) h)
theorem stookKeyUnbind (c n : Nat) (v : W64) : Statement (.stookKeyUnbind c n v) := fun _ h => .inl ((and_up okCore_up) h)
theorem stookKeyDescWrite (c n k : Nat) (v : W64) : Statement (.stookKeyDescWrite c n k v) := fun _ h => .inl ((and_up (and_up okCore_up)) h)
theorem gleanOpStart (c : Nat) (perr : List Nat) : Statement (.gleanOpStart c perr) := fun _ h => .inl (okCore_up h)
theorem gleanStreamRowPlace (c : Nat) : Statement (.gleanStreamRowPlace c) := fun _ h => .inl (okCore_up h)
theorem gleanOpComplete (c : Nat) (ups : List Upset) : Statement (.gleanOpComplete c ups) := fun _ h => .inl (okCore_up h)
theorem gleanOpFail (c : Nat) : Statement (.gleanOpFail c) := fun _ h => .inl (okCore_up h)
theorem gleanStallTimeout (c : Nat) : Statement (.gleanStallTimeout c) := fun _ h => .inl (okCore_up h)
theorem rcFlush (c : Nat) (v : W64) : Statement (.rcFlush c v) := fun _ h => .inl (okCore_up h)
theorem nop (q : Nat) : Statement (.nop q) := fun _ h => .inl h
theorem launch (q : Nat) : Statement (.launch q) := fun _ h => .inl h
theorem launchComplete (id : Nat) : Statement (.launchComplete id) := fun _ h => .inl h
theorem copy (q : Nat) : Statement (.copy q) := fun _ h => .inl h
theorem copyComplete (b e : Nat) (ups : List Upset) : Statement (.copyComplete b e ups) := fun v h => .inl ((and_up (lt_up (bdies_le v))) h)
theorem sow (q : Nat) : Statement (.sow q) := fun _ h => .inl h
theorem glean (q : Nat) : Statement (.glean q) := fun _ h => .inl h
theorem rs (q : Nat) : Statement (.rs q) := fun _ h => .inl h
theorem ag (q : Nat) : Statement (.ag q) := fun _ h => .inl h
theorem barrier (q : Nat) : Statement (.barrier q) := fun _ h => .inl h
theorem waitCmd (q : Nat) : Statement (.waitCmd q) := fun _ h => .inl h
theorem signal (q : Nat) : Statement (.signal q) := fun _ h => .inl h
theorem fenceRemote (q : Nat) : Statement (.fenceRemote q) := fun _ h => .inl h
theorem hintPhase (q : Nat) : Statement (.hintPhase q) := fun _ h => .inl h
theorem timestamp (q : Nat) : Statement (.timestamp q) := fun _ h => .inl h
theorem traceMark (q : Nat) : Statement (.traceMark q) := fun _ h => .inl h
theorem teardownAck (q : Nat) : Statement (.teardownAck q) := fun _ h => .inl h
theorem ringPoll (q : Nat) : Statement (.ringPoll q) := fun _ h => .inl h
theorem queueHeadCheck (q : Nat) : Statement (.queueHeadCheck q) := fun _ h => .inl h
theorem queueDispatch : Statement .queueDispatch := fun _ h => .inl h
theorem commandComplete : Statement .commandComplete := fun _ h => .inl h
theorem queueEnable (q : Nat) (v : W64) : Statement (.queueEnable q v) := fun _ h => .inl h
theorem queueBaseWrite (q : Nat) (v : W64) : Statement (.queueBaseWrite q v) := fun _ h => .inl h
theorem queueAbort (q : Nat) : Statement (.queueAbort q) := fun _ h => .inl h
theorem queueResume (q : Nat) : Statement (.queueResume q) := fun _ h => .inl h
theorem queEvtWrite (e : Nat) (v : W64) : Statement (.queEvtWrite e v) := fun _ h => .inl h
theorem pushMessage (hdr : V128) (cmds : List (List W64)) : Statement (.pushMessage hdr cmds) := fun _ h => .inl h
theorem quePush (c p : Nat) (v : W64) : Statement (.quePush c p v) := fun _ h => .inl (okSp_up h)
theorem regrd (msg : V128) : Statement (.regrd msg) := fun _ h => .inl h
theorem regwr (msg : BitVec 192) : Statement (.regwr msg) := fun _ h => .inl h
theorem ldrd (hdr : V128) (ups : List Upset) : Statement (.ldrd hdr ups) := fun _ h => .inl h
theorem ldwr (hdr : V128) (data : List Byte) : Statement (.ldwr hdr data) := fun _ h => .inl h
theorem reject (msg : Byte) : Statement (.reject msg) := fun _ h => .inl h
theorem halterFrameResend (f : FrameNews) : Statement (.halterFrameResend f) := fun _ h => .inl h
theorem registerWrite (addr : Nat) (v : W64) : Statement (.registerWrite addr v) := fun _ h => .inl h
theorem bayFlush (t : Nat) : Statement (.bayFlush t) := fun v h => .inl ((lt_up (stacks_le v)) h)
theorem bayWbinv (t : Nat) : Statement (.bayWbinv t) := fun v h => .inl ((lt_up (stacks_le v)) h)
theorem bayFlushDone (t : Nat) : Statement (.bayFlushDone t) := fun v h => .inl ((lt_up (stacks_le v)) h)
theorem bayCfgWrite (t : Nat) (v : W64) : Statement (.bayCfgWrite t v) := fun v h => .inl ((lt_up (stacks_le v)) h)
theorem memCfgWrite (t : Nat) (v : W64) : Statement (.memCfgWrite t v) := fun v h => .inl ((lt_up (stacks_le v)) h)
theorem stackTempSample (t : Nat) (r : Reading) : Statement (.stackTempSample t r) := fun v h => .inl ((lt_up (stacks_le v)) h)
theorem refreshBandChange (t : Nat) : Statement (.refreshBandChange t) := fun v h => .inl ((lt_up (stacks_le v)) h)
theorem uncorrectableError (block agent unit syn addr : Nat) : Statement (.uncorrectableError block agent unit syn addr) := fun _ h => .inl h
theorem windowWalkStart (b page : Nat) : Statement (.windowWalkStart b page) := fun v h => .inl ((lt_up (bdies_le v)) h)
theorem windowWalkComplete (b page ce : Nat) : Statement (.windowWalkComplete b page ce) := fun v h => .inl ((lt_up (bdies_le v)) h)
theorem remoteArrival (pkt : Packet) : Statement (.remoteArrival pkt) := fun _ h => .inl h
theorem remoteApply (src srcid : Nat) : Statement (.remoteApply src srcid) := fun _ h => .inl h
theorem remoteResponseArrival (pkt : Packet) : Statement (.remoteResponseArrival pkt) := fun _ h => .inl h
theorem remoteRetransmit (id : Nat) : Statement (.remoteRetransmit id) := fun _ h => .inl h
theorem remoteOpTimeout (id : Nat) : Statement (.remoteOpTimeout id) := fun _ h => .inl h
theorem skipArrival (pkt : Packet) : Statement (.skipArrival pkt) := fun _ h => .inl h
theorem combineWindowClose (b i : Nat) : Statement (.combineWindowClose b i) := fun v h => .inl ((lt_up (bdies_le v)) h)
theorem combineEntryTimeout (b i : Nat) : Statement (.combineEntryTimeout b i) := fun v h => .inl ((lt_up (bdies_le v)) h)
theorem foldApply (b i : Nat) : Statement (.foldApply b i) := fun v h => .inl ((lt_up (bdies_le v)) h)
theorem teardownMessage (msg : V128) : Statement (.teardownMessage msg) := fun _ h => .inl h
theorem vc3Teardown (pkt : Packet) : Statement (.vc3Teardown pkt) := fun _ h => .inl h
theorem winTdThaw (v : W64) : Statement (.winTdThaw v) := fun _ h => .inl h
theorem winCacheInv (b : Nat) (v : W64) : Statement (.winCacheInv b v) := fun v h => .inl ((lt_up (bdies_le v)) h)
theorem changeRequest (bytes : List Byte) : Statement (.changeRequest bytes) := fun _ h => .inl h
theorem changeVerified : Statement .changeVerified := fun _ h => .inl h
theorem manifestApply : Statement .manifestApply := fun _ h => .inl h
theorem packetForward (link : Nat) (pkt : Packet) (corr : Bool) : Statement (.packetForward link pkt corr) := fun _ h => .inl h
theorem packetDiscardStuck (link i : Nat) : Statement (.packetDiscardStuck link i) := fun v h => .inl ((lt_up (links_le v)) h)
theorem creditReturn (link vc : Nat) (shared : Bool) : Statement (.creditReturn link vc shared) := fun v h => .inl ((and_up (lt_up (links_le v))) h)
theorem creditRefresh (link : Nat) (free : List Nat) : Statement (.creditRefresh link free) := fun v h => .inl ((and_up (lt_up (links_le v))) h)
theorem hopFrameReceive (link : Nat) (errs : List Nat) (lead : Nat) (hops : List (List Byte × Bool)) (fibres : List (Nat × Nat × Nat × Nat)) :
    Statement (.hopFrameReceive link errs lead hops fibres) := fun v h => .inl ((lt_up (links_le v)) h)
theorem linkTraining (link peer peerVariant peerLink : Nat) : Statement (.linkTraining link peer peerVariant peerLink) := fun v h => .inl ((lt_up (links_le v)) h)
theorem linkDozeEntry (link lowUs : Nat) : Statement (.linkDozeEntry link lowUs) := fun v h => .inl ((lt_up (links_le v)) h)
theorem linkDozeWake (link : Nat) (peerQueued : Nat) : Statement (.linkDozeWake link peerQueued) := fun v h => .inl ((lt_up (links_le v)) h)
theorem fabQuiesce (v : W64) : Statement (.fabQuiesce v) := fun _ h => .inl h
theorem fabPoolWrite (v : W64) : Statement (.fabPoolWrite v) := fun _ h => .inl h
theorem roceWrite (port : Nat) (r : RoceReq) : Statement (.roceWrite port r) := fun v h => .inl ((lt_up (ethPorts_le v)) h)
theorem roceRead (port : Nat) (r : RoceReq) : Statement (.roceRead port r) := fun v h => .inl ((lt_up (ethPorts_le v)) h)
theorem roceSend (port : Nat) (r : RoceReq) : Statement (.roceSend port r) := fun v h => .inl ((lt_up (ethPorts_le v)) h)
theorem qpTransportTimeout (port qp : Nat) : Statement (.qpTransportTimeout port qp) := fun v h => .inl ((lt_up (ethPorts_le v)) h)
theorem ethCfgWrite (port : Nat) (v : W64) : Statement (.ethCfgWrite port v) := fun v h => .inl ((lt_up (ethPorts_le v)) h)
theorem collectiveContextTake (q : Nat) : Statement (.collectiveContextTake q) := fun _ h => .inl h
theorem contextFullTimeout (q : Nat) : Statement (.contextFullTimeout q) := fun _ h => .inl h
theorem sheafReadyArrival (pkt : Packet) : Statement (.sheafReadyArrival pkt) := fun _ h => .inl h
theorem sheafDataArrival (pkt : Packet) : Statement (.sheafDataArrival pkt) := fun _ h => .inl h
theorem sheafTrailerArrival (pkt : Packet) : Statement (.sheafTrailerArrival pkt) := fun _ h => .inl h
theorem sheafResendArrival (pkt : Packet) : Statement (.sheafResendArrival pkt) := fun _ h => .inl h
theorem sheafReduce (ctx block off : Nat) (laneFails : Nat) : Statement (.sheafReduce ctx block off laneFails) := fun _ h => .inl h
theorem collectiveStageComplete (ctx : Nat) : Statement (.collectiveStageComplete ctx) := fun _ h => .inl h
theorem collectiveAbortArrival (pkt : Packet) : Statement (.collectiveAbortArrival pkt) := fun _ h => .inl h
theorem collectiveIdleTimeout (ctx : Nat) : Statement (.collectiveIdleTimeout ctx) := fun _ h => .inl h
theorem collectiveEnd (ctx : Nat) : Statement (.collectiveEnd ctx) := fun _ h => .inl h
theorem colAbort (v : W64) : Statement (.colAbort v) := fun _ h => .inl h
theorem colScrWrite (b : Nat) (v : W64) : Statement (.colScrWrite b v) := fun v h => .inl ((lt_up (bdies_le v)) h)
theorem fadeSample (currents : List Nat) : Statement (.fadeSample currents) := fun _ _ => .inr ⟨_, rfl⟩
theorem mirrorReady (fibre : PathFrames) : Statement (.mirrorReady fibre) := fun _ h => .inl h
theorem pathSwitch (fibre : NewPath) : Statement (.pathSwitch fibre) := fun _ h => .inl h
theorem trackingUpdate (fibre ring : Nat) (rx : Bool) (errMHz : Nat) (lock : Bool) : Statement (.trackingUpdate fibre ring rx errMHz lock) := fun _ h => .inl h
theorem ringRetuneDone (fibre ring : Nat) (rx : Bool) : Statement (.ringRetuneDone fibre ring rx) := fun _ h => .inl h
theorem feedForwardUpdate (b : Nat) : Statement (.feedForwardUpdate b) := fun v h => .inl ((lt_up (bdies_le v)) h)
theorem brokerPlan (demand : List Nat) : Statement (.brokerPlan demand) := fun _ h => .inl h
theorem channelMoveComplete (ch : Nat) : Statement (.channelMoveComplete ch) := fun _ h => .inl h
theorem receiveFibreLight (fibre : Nat) : Statement (.receiveFibreLight fibre) := fun _ h => .inl h
theorem photonicTuning (fibre : Nat) (rx : Bool) (verify : Bool) (power : List (List (Option Nat))) : Statement (.photonicTuning fibre rx verify power) := fun _ h => .inl h
theorem dportDrst (d : Nat) : Statement (.dportDrst d) := fun v h => .inl ((lt_up (cdies_le v)) h)
theorem dieLockLoss (d : Nat) : Statement (.dieLockLoss d) := fun v h => .inl ((lt_up (cdies_le v)) h)
theorem dieBringup (d : Nat) (trained : Bool) (cap : Option CapBlock) : Statement (.dieBringup d trained cap) := fun v h => .inl ((lt_up (cdies_le v)) h)
theorem dportHoldWrite (d : Nat) (v : W64) : Statement (.dportHoldWrite d v) := fun v h => .inl ((lt_up (cdies_le v)) h)
theorem dportLoopWrite (d : Nat) (v : W64) (errs : Nat) : Statement (.dportLoopWrite d v errs) := fun v h => .inl ((lt_up (cdies_le v)) h)
theorem flitReplay (d n : Nat) : Statement (.flitReplay d n) := fun v h => .inl ((lt_up (cdies_le v)) h)
theorem marginUpdate (d : Nat) : Statement (.marginUpdate d) := fun v h => .inl ((lt_up (cdies_le v)) h)
theorem guestTempReport (d : Nat) (r : Int) : Statement (.guestTempReport d r) := fun v h => .inl ((lt_up (cdies_le v)) h)
theorem guestReportTimeout (d : Nat) : Statement (.guestReportTimeout d) := fun v h => .inl ((lt_up (cdies_le v)) h)
theorem guestSig (d e : Nat) (v : W32) : Statement (.guestSig d e v) := fun v h => .inl ((lt_up (cdies_le v)) h)
theorem guestRegisterWait (d e : Nat) (t : W32) : Statement (.guestRegisterWait d e t) := fun v h => .inl ((lt_up (cdies_le v)) h)
theorem guestWaitAnswer (d e : Nat) (t : W32) : Statement (.guestWaitAnswer d e t) := fun v h => .inl ((lt_up (cdies_le v)) h)
theorem guestEAccess (d : Nat) (ask : GuestAsk) (addr len hint : Nat) (data : List Byte) : Statement (.guestEAccess d ask addr len hint data) := fun v h => .inl ((lt_up (cdies_le v)) h)
theorem inputVoltageChange (mv : Nat) : Statement (.inputVoltageChange mv) := fun _ h => .inl h
theorem pwrInReport (mv da watts : Nat) : Statement (.pwrInReport mv da watts) := fun _ h => .inl h
theorem converterFail (k : Nat) : Statement (.converterFail k) := fun _ h => .inl h
theorem uofsWrite (i : Nat) (v : W64) : Statement (.uofsWrite i v) := fun _ h => .inl h
theorem ptWrite (i : Nat) (v : W64) : Statement (.ptWrite i v) := fun _ h => .inl h
theorem droopTrip (i : Nat) (det : DroopSense) : Statement (.droopTrip i det) := fun _ h => .inl h
theorem droopRelease (i det : Nat) : Statement (.droopRelease i det) := fun _ h => .inl h
theorem reactWindow (i cycles : Nat) (counts : WindowCounts) : Statement (.reactWindow i cycles counts) := fun _ h => .inl h
theorem regulatorUpdate (i : Nat) : Statement (.regulatorUpdate i) := fun _ h => .inl h
theorem hintLapse (i : Nat) : Statement (.hintLapse i) := fun _ h => .inl h
theorem thermalSample (readings : List Reading) : Statement (.thermalSample readings) := fun _ h => .inl h
theorem sensorSelfCheck (x : Nat) (devMilli : Nat) : Statement (.sensorSelfCheck x devMilli) := fun _ h => .inl h
theorem mrst : Statement .mrst := fun _ h => .inl h
theorem fltCtlMrst (v : W64) : Statement (.fltCtlMrst v) := fun _ h => .inl h
theorem watchdogKick (v : W64) : Statement (.watchdogKick v) := fun _ h => .inl h
theorem watchdogExpiry : Statement .watchdogExpiry := fun _ h => .inl h
theorem glbEpochSet (v : W64) : Statement (.glbEpochSet v) := fun _ h => .inl h
theorem heartbeatSend : Statement .heartbeatSend := fun _ h => .inl h
theorem heartbeat (node : Nat) : Statement (.heartbeat node) := fun _ h => .inl h
theorem rollTick : Statement .rollTick := fun _ h => .inl h
theorem vote (node suspect : Nat) : Statement (.vote node suspect) := fun _ h => .inl h
theorem clear (node suspect : Nat) : Statement (.clear node suspect) := fun _ h => .inl h
theorem voteExpiry : Statement .voteExpiry := fun _ h => .inl h
theorem verdict (pkt : Packet) (link : Nat) : Statement (.verdict pkt link) := fun v h => .inl ((lt_up (links_le v)) h)
theorem domainAlarm (k : Nat) : Statement (.domainAlarm k) := fun _ h => .inl h
theorem domain (pkt : Packet) (link : Nat) : Statement (.domain pkt link) := fun v h => .inl ((lt_up (links_le v)) h)
theorem join (pkt : Packet) (link : Nat) : Statement (.join pkt link) := fun v h => .inl ((lt_up (links_le v)) h)
theorem admitMsg (pkt : Packet) : Statement (.admitMsg pkt) := fun _ h => .inl h
theorem admitTimeout : Statement .admitTimeout := fun _ h => .inl h
theorem fenceSelf : Statement .fenceSelf := fun _ h => .inl h
theorem selfFenceTimeout : Statement .selfFenceTimeout := fun _ h => .inl h
theorem fenceMrst : Statement .fenceMrst := fun _ h => .inl h
theorem winnowSchedule (d : Nat) : Statement (.winnowSchedule d) := fun v h => .inl ((lt_up (cdies_le v)) h)
theorem winnowKernelEnd (c : Nat) (crc : W64) : Statement (.winnowKernelEnd c crc) := fun _ h => .inl (okCore_up h)
theorem traceRecord (u : Nat) (typ sub : Nat) (payload : W64) : Statement (.traceRecord u typ sub payload) := fun _ h => .inl (okTrace_up h)
theorem traceSample (u : Nat) : Statement (.traceSample u) := fun _ h => .inl (okTrace_up h)
theorem traceDatagramSend (u : Nat) : Statement (.traceDatagramSend u) := fun _ h => .inl (okTrace_up h)
theorem timebaseCheck : Statement .timebaseCheck := fun _ h => .inl h
theorem por (board : PowerOn) : Statement (.por board) := fun _ h => .inl h
theorem bootStepComplete (o : BootOutcome) (straps : BitVec 16) : Statement (.bootStepComplete o straps) := fun _ h => .inl h
theorem bootStepTimeout : Statement .bootStepTimeout := fun _ h => .inl h
theorem ready : Statement .ready := fun _ h => .inl h
theorem returnPassEnd (c : Nat) : Statement (.returnPassEnd c) := fun _ h => .inl (okCore_up h)
theorem bootFlupdGo (v : W64) : Statement (.bootFlupdGo v) := fun _ h => .inl h
theorem bootUcalSave (v : W64) : Statement (.bootUcalSave v) := fun _ h => .inl h
theorem attestationRequest (msg : List Byte) : Statement (.attestationRequest msg) := fun _ h => .inl h
theorem certificateRequest (msg : W64) : Statement (.certificateRequest msg) := fun _ h => .inl h
theorem crst (i : Nat) (v : W64) : Statement (.crst i v) := fun _ h => .inl h
theorem coreGate (i : Nat) (v : W64) : Statement (.coreGate i v) := fun _ h => .inl h
theorem dieFallow (i : Nat) (v : W64) : Statement (.dieFallow i v) := fun _ h => .inl h
theorem coreWake (q : Nat) : Statement (.coreWake q) := fun _ h => .inl h
theorem standbyEnter (v : W64) : Statement (.standbyEnter v) := fun _ h => .inl h
theorem wake : Statement .wake := fun _ h => .inl h
theorem status : Statement .status := fun _ h => .inl h
theorem i3cReservedCommand (code : Byte) : Statement (.i3cReservedCommand code) := fun _ h => .inl h
theorem illegalInstruction (c p : Nat) (w : W32) : Statement (.illegalInstruction c p w) := fun _ h => .inl (okSp_up h)
theorem i3cCommonCommand (k : I3cCcc) : Statement (.i3cCommonCommand k) := fun _ h => .inl h
theorem tapInstruction (ir : TapIr) : Statement (.tapInstruction ir) := fun _ h => .inl h

end Sys2Proof.Laws.Unit
end

