-- ==== Sys2Proof/Laws/Reads.lean ====
section
/-! SUPPORT. What a read of S-space or L-space leaves behind: counters and error logs, and nothing else. -/

namespace Sys2Proof.Machine

open Sys2Proof.Laws

theorem OnlyLogs.refl (s : State) : OnlyLogs s s := rfl

theorem OnlyLogs.trans {s t u : State} (h : OnlyLogs s t) (g : OnlyLogs t u) : OnlyLogs s u := by
  unfold OnlyLogs at *
  rw [g, h]

theorem OnlyRegs.logs {s t : State} {l : List Nat} (h : OnlyRegs s t l) : OnlyLogs s t := by
  unfold OnlyLogs
  rw [h.rest]

theorem OnlyLogs.core {s t : State} (h : OnlyLogs s t) (c : Nat) : t.core c = s.core c := by
  unfold OnlyLogs at h
  rw [h]; rfl

theorem OnlyLogs.sp {s t : State} (h : OnlyLogs s t) (c p : Nat) : t.sp c p = s.sp c p := by
  unfold State.sp; rw [h.core]

theorem OnlyLogs.cores {s t : State} (h : OnlyLogs s t) : t.cores = s.cores := by
  unfold OnlyLogs at h
  rw [h]

theorem OnlyLogs.mem {s t : State} (h : OnlyLogs s t) : t.mem = s.mem := by
  unfold OnlyLogs at h
  rw [h]

theorem onlyLogs_setReg (s : State) (g : Reg) (n i j : Nat) (w : W64) : OnlyLogs s (s.setReg g n i j w) := rfl

theorem onlyLogs_wr (s : State) (f : Fld) (v n i j : Nat) : OnlyLogs s (s.wr f v n i j) := rfl

theorem onlyLogs_wrs (s : State) (g : Reg) (n i j : Nat) (l : List (Fld × Nat)) : OnlyLogs s (s.wrs g n i j l) := rfl

theorem onlyLogs_incSat (s : State) (f : Fld) (k n i j : Nat) : OnlyLogs s (s.incSat f k n i j) := rfl

theorem onlyLogs_incWrap (s : State) (f : Fld) (k n i j : Nat) : OnlyLogs s (s.incWrap f k n i j) := rfl

theorem onlyLogs_ite {s a b : State} {c : Prop} [Decidable c] (ha : OnlyLogs s a) (hb : OnlyLogs s b) :
    OnlyLogs s (if c then a else b) := by split <;> assumption

theorem onlyLogs_traceAdd (s : State) (u typ sub : Nat) (w : W64) : OnlyLogs s (s.traceAdd u typ sub w) := by
  unfold State.traceAdd
  dsimp only
  split
  · rfl
  · exact OnlyLogs.trans (t := { s with trace := _ }) rfl (onlyLogs_incWrap _ _ _ _ _ _)

theorem onlyLogs_say (s : State) (m : HMsg) : OnlyLogs s (s.say m) := by
  unfold State.say
  split <;> rfl

theorem onlyLogs_faultNote (s : State) (cls : Nat) (r : Reg) (n i : Nat) : OnlyLogs s (s.faultNote cls r n i) := by
  have h : OnlyLogs s (if s.rdB FLT_CFG.NOTIFY then s.say (.fault cls (bits (r.addr n i 0) 39 16)
      (bits (s.reg r n i 0).toNat 31 0) s.time32) else s) := onlyLogs_ite (onlyLogs_say s _) rfl
  unfold State.faultNote State.noteWith
  dsimp only
  split
  · exact h.trans (onlyLogs_traceAdd _ _ _ _ _)
  · exact h

theorem onlyLogs_ceCount (s : State) (e : EccRegs) : OnlyLogs s (s.ceCount e) := by
  unfold State.ceCount
  dsimp only
  split
  · rfl
  · split
    · exact OnlyLogs.trans (t := ((s.incSat e.cnt 1 e.n e.i).wr e.hit 1 e.n e.i)) rfl (onlyLogs_faultNote _ _ _ _ _)
    · rfl

theorem onlyLogs_agentCode (s : State) (g : Agent) : OnlyLogs s (s.agentCode g).2 := by
  unfold State.agentCode
  split <;> rfl

theorem onlyLogs_ceSpad (s : State) (c a syn : Nat) (g : Agent) : OnlyLogs s (s.ceSpad c a syn g) := by
  unfold State.ceSpad
  dsimp only
  exact (OnlyLogs.trans (onlyLogs_incSat s _ _ _ _ _) (onlyLogs_ite (OnlyLogs.refl _) (onlyLogs_wrs _ _ _ _ _ _))).trans
    (onlyLogs_ceCount _ _)

theorem onlyLogs_ceAcc (s : State) (c w syn : Nat) (g : Agent) : OnlyLogs s (s.ceAcc c w syn g) := by
  unfold State.ceAcc
  dsimp only
  exact (OnlyLogs.trans (onlyLogs_wr s _ _ _ _ _) (onlyLogs_ite (OnlyLogs.refl _) (onlyLogs_wrs _ _ _ _ _ _))).trans (onlyLogs_ceCount _ _)

theorem onlyLogs_ceLoft (s : State) (a syn : Nat) (g : Agent) : OnlyLogs s (s.ceLoft a syn g) := by
  unfold State.ceLoft
  dsimp only
  exact ((OnlyLogs.trans (onlyLogs_incSat s _ _ _ _ _) (onlyLogs_agentCode _ g)).trans
    (onlyLogs_ite (OnlyLogs.refl _) (onlyLogs_wrs _ _ _ _ _ _))).trans (onlyLogs_ceCount _ _)

theorem onlyLogs_foldl {α : Type} {g : State → α → State} (hg : ∀ s x, OnlyLogs s (g s x)) (l : List α) (s : State) :
    OnlyLogs s (l.foldl g s) := by
  induction l generalizing s with
  | nil => rfl
  | cons x l ih => exact (hg s x).trans (ih _)

/-- A read of scratchpad bytes delivers them, and leaves only logs behind. -/
theorem onlyLogs_spadRead (s : State) (c a n : Nat) (g : Agent) : OnlyLogs s (s.spadRead c a n g).st :=
  onlyLogs_foldl (fun _ _ => onlyLogs_ceSpad _ _ _ _ _) _ _

theorem onlyLogs_accRead (s : State) (c w n : Nat) (g : Agent) : OnlyLogs s (s.accRead c w n g).st := by
  unfold State.accRead
  dsimp only
  have h := onlyLogs_foldl (g := fun (s : State) (m : Nat × Nat) => s.ceAcc c ((m.1 - accBase) / 4) m.2 g)
    (fun _ _ => onlyLogs_ceAcc _ _ _ _ _)
    ((marksIn (s.core c).faults (accBase + 4 * w) (4 * n)).filter (fun m => !s.accBarred c ((m.1 - accBase) / 4) g)) s
  split
  · exact h.trans (onlyLogs_wr _ _ _ _ _ _)
  · exact h

/-- A read of S-space leaves only counters and logs behind. -/
theorem onlyLogs_sRead (s : State) (c a n : Nat) (g : Agent) (p : Option Nat) : OnlyLogs s (s.sRead c a n g p).st :=
  ((onlyLogs_spadRead s c a (spadPart a n) g).trans (onlyLogs_accRead _ _ _ _ _)).trans (onlyRegs_count _ _ _ _ _).logs

/-- A read of L-space leaves only logs behind. -/
theorem onlyLogs_lRead (s : State) (a n : Nat) (g : Agent) : OnlyLogs s (s.lRead a n g).st :=
  onlyLogs_foldl (fun _ _ => onlyLogs_ceLoft _ _ _ _) _ _

theorem lRead_data (s : State) (a n : Nat) (g : Agent) : (s.lRead a n g).data = SMap.range s.mem.loft 0 a n := rfl

theorem lRead_ue (s : State) (a n : Nat) (g : Agent) : (s.lRead a n g).ue = false := rfl

theorem sRead_ue (s : State) (c a n : Nat) (g : Agent) (p : Option Nat) : (s.sRead c a n g p).ue = false := rfl

end Sys2Proof.Machine
end

