-- ==== Sys2Proof/Laws/Stores.lean ====
section
/-! SUPPORT. What a store leaves in S-space and L-space, byte by byte and word by word. -/

namespace Sys2Proof.Machine

open Sys2Proof.Laws

/-! ### Little-endian bytes (R44) -/

@[simp] theorem leBytes_length (n x : Nat) : (leBytes n x).length = n := by
  induction n generalizing x with
  | zero => rfl
  | succ n ih => simp [leBytes, ih]

theorem leBytes_get {n x k : Nat} (h : k < (leBytes n x).length) : (leBytes n x)[k] = BitVec.ofNat 8 (x >>> (8 * k)) := by
  induction n generalizing x k with
  | zero => simp [leBytes] at h
  | succ n ih =>
    cases k with
    | zero => simp [leBytes]
    | succ k =>
      simp only [leBytes, List.getElem_cons_succ]
      rw [ih, ← Nat.shiftRight_add]
      congr 2
      omega

/-- Bytes of a number spell the number, narrowed to them. -/
theorem ofLe_leBytes (n x : Nat) : ofLe (leBytes n x) = x % 2 ^ (8 * n) := by
  induction n generalizing x with
  | zero => simp [leBytes, ofLe, Nat.mod_one]
  | succ n ih =>
    have e : (2 : Nat) ^ (8 * (n + 1)) = 256 * 2 ^ (8 * n) := by rw [Nat.mul_succ, Nat.pow_add]; norm_num [Nat.mul_comm]
    simp only [leBytes, ofLe, ih, BitVec.toNat_ofNat, Nat.shiftLeft_eq, Nat.shiftRight_eq_div_pow]
    rw [e, Nat.mod_mul]
    norm_num [Nat.mul_comm]

theorem words32_four (l r : List Byte) (h : l.length = 4) : words32 (l ++ r) = BitVec.ofNat 32 (ofLe l) :: words32 r := by
  match l, h with
  | [a, b, c, d], _ => rfl

theorem words32_cons (x : Nat) (r : List Byte) : words32 (leBytes 4 x ++ r) = BitVec.ofNat 32 x :: words32 r := by
  rw [words32_four _ _ (leBytes_length 4 x), ofLe_leBytes]
  have : BitVec.ofNat 32 (x % 2 ^ (8 * 4)) = BitVec.ofNat 32 x := by
    apply BitVec.eq_of_toNat_eq
    rw [BitVec.toNat_ofNat, BitVec.toNat_ofNat, Nat.mod_mod]
  rw [this]

theorem leBytes_append (m n x : Nat) : leBytes (m + n) x = leBytes m x ++ leBytes n (x >>> (8 * m)) := by
  induction m generalizing x with
  | zero => simp [leBytes]
  | succ m ih =>
    rw [Nat.succ_add]
    simp only [leBytes, ih, ← Nat.shiftRight_add, List.cons_append]
    congr 4
    omega

theorem words32_leBytes4 (x : Nat) : words32 (leBytes 4 x) = [BitVec.ofNat 32 x] := by
  have := words32_cons x []
  simpa [words32] using this

theorem words32_leBytes8 (x : Nat) : words32 (leBytes 8 x) = [BitVec.ofNat 32 x, BitVec.ofNat 32 (x >>> 32)] := by
  rw [show (8 : Nat) = 4 + 4 from rfl, leBytes_append, words32_cons, words32_leBytes4]

/-! ### Stores -/

/-- A store of scratchpad bytes replaces them and no other. -/
theorem spadWrite_spad {s : State} (h : s.memOk = true) (c a : Nat) (d : List Byte) (x : Nat) :
    SMap.get ((s.spadWrite c a d).core c).spad 0 x = if a ≤ x ∧ x < a + d.length then nth d 0 (x - a) else SMap.get (s.core c).spad 0 x := by
  have hw := ((wf_core _).1 (core_wf_of_memOk h c)).1
  unfold State.spadWrite
  rw [core_modCore_self]
  dsimp only
  split
  · next hx =>
    obtain ⟨k, rfl⟩ := Nat.exists_eq_add_of_le hx.1
    have hk : k < d.length := by omega
    rw [smap_get_putRange_in hw hk]
    simp [nth, hk]
  · exact smap_get_putRange_out hw (by omega)

theorem spadWrite_acc (s : State) (c a : Nat) (d : List Byte) : ((s.spadWrite c a d).core c).acc = (s.core c).acc := by
  unfold State.spadWrite; rw [core_modCore_self]

/-- A store of L-space bytes replaces them and no other. -/
theorem lWrite_loft {s : State} (h : s.memOk = true) (a : Nat) (d : List Byte) (x : Nat) :
    SMap.get (s.lWrite a d).mem.loft 0 x = if a ≤ x ∧ x < a + d.length then nth d 0 (x - a) else SMap.get s.mem.loft 0 x := by
  have hw : SMap.wf s.mem.loft (fun _ => some 0) = true := by
    have := ((memOk_iff s).1 h).1
    rw [Memory.wf, Bool.and_eq_true] at this
    exact this.1
  unfold State.lWrite State.unmark
  dsimp only
  split
  · next hx =>
    obtain ⟨k, rfl⟩ := Nat.exists_eq_add_of_le hx.1
    have hk : k < d.length := by omega
    rw [smap_get_putRange_in hw hk]
    simp [nth, hk]
  · exact smap_get_putRange_out hw (by omega)

theorem run_cons {α : Type} (d : α) (n a k : Nat) (v : α) (r : SMap α) :
    SMap.run d (n + 1) ((k, v) :: r) a = if k = a then v :: SMap.run d n r (a + 1) else d :: SMap.run d n ((k, v) :: r) (a + 1) := rfl

theorem run_get {α : Type} {d : α} : ∀ (n : Nat) (m : SMap α) (a i : Nat), m.Pairwise (fun x y => x.1 < y.1) →
    (∀ e ∈ m, a ≤ e.1) → i < n → nth (SMap.run d n m a) d i = SMap.get m d (a + i) := by
  intro n
  induction n with
  | zero => intro m a i _ _ h; omega
  | succ n ih =>
    intro m a i hp hm hi
    match m with
    | [] =>
      cases i with
      | zero => rfl
      | succ i =>
        have := ih [] (a + 1) i List.Pairwise.nil (by simp) (by omega)
        simp only [SMap.run, nth, List.getElem?_cons_succ] at this ⊢
        exact this
    | (k, v) :: r =>
      rw [List.pairwise_cons] at hp
      have hk := hm (k, v) (by simp)
      rw [run_cons]
      split
      · next e =>
        subst e
        cases i with
        | zero => simp [nth, smap_get_cons]
        | succ i =>
          have := ih r (k + 1) i hp.2 (fun e he => hp.1 e he) (by omega)
          simp only [nth, List.getElem?_cons_succ] at this ⊢
          rw [this, smap_get_cons, if_neg (by omega)]
          congr 1
          omega
      · next e =>
        have hr : ∀ x ∈ (k, v) :: r, a + 1 ≤ x.1 := by
          intro x hx
          rcases List.mem_cons.1 hx with rfl | hx
          · simp at hk ⊢; omega
          · have := hp.1 x hx; simp at this hk; omega
        cases i with
        | zero =>
          simp only [nth, List.getElem?_cons_zero, Option.getD_some, Nat.add_zero]
          have : ∀ l : SMap α, (∀ x ∈ l, a + 1 ≤ x.1) → SMap.get l d a = d := by
            intro l
            induction l with
            | nil => intro _; rfl
            | cons y l ihl =>
              obtain ⟨j, w⟩ := y
              intro hl
              have := hl (j, w) (by simp)
              simp only at this
              rw [smap_get_cons, if_neg (by omega)]
              exact ihl (fun x hx => hl x (by simp [hx]))
          exact (this _ hr).symm
        | succ i =>
          have := ih ((k, v) :: r) (a + 1) i (by rw [List.pairwise_cons]; exact hp) hr (by omega)
          simp only [nth, List.getElem?_cons_succ] at this ⊢
          rw [this]
          congr 1
          omega

theorem run_length {α : Type} (d : α) : ∀ (n : Nat) (m : SMap α) (a : Nat), (SMap.run d n m a).length = n := by
  intro n
  induction n with
  | zero => intro m a; rfl
  | succ n ih =>
    intro m a
    match m with
    | [] => simp [SMap.run, ih]
    | (k, v) :: r =>
      rw [run_cons]
      split <;> simp [ih]

theorem get_dropWhile {α : Type} {d : α} {m : SMap α} (a k : Nat) (h : a ≤ k) :
    SMap.get (m.dropWhile (fun e => decide (e.1 < a))) d k = SMap.get m d k := by
  induction m with
  | nil => rfl
  | cons x r ih =>
    obtain ⟨j, w⟩ := x
    rw [List.dropWhile_cons]
    split
    · next hj =>
      have hj : j < a := by simpa using hj
      rw [ih, smap_get_cons, if_neg (by omega)]
    · rfl

/-- What a range of keys reads as, key by key. -/
theorem range_get {α : Type} [DecidableEq α] {m : SMap α} {d : α} (h : SMap.wf m (fun _ => some d) = true) (a n i : Nat) (hi : i < n) :
    nth (SMap.range m d a n) d i = SMap.get m d (a + i) := by
  have hp := ((smap_wf_iff m).1 h).1
  unfold SMap.range
  rw [run_get n _ a i (hp.sublist (List.dropWhile_sublist _)) (fun e he => mem_dropWhile_ge hp he) hi]
  exact get_dropWhile a (a + i) (by omega)

/-- A store of accumulator words replaces them, but for those of an array that the stook owns and the writer does not act for. -/
theorem accWrite_acc {s : State} (h : s.memOk = true) (c w : Nat) (vs : List W32) (g : Agent) (k : Nat) :
    SMap.get ((s.accWrite c w vs g).core c).acc 0 k =
      if w ≤ k ∧ k < w + vs.length ∧ s.accBarred c k g = false then nth vs 0 (k - w) else SMap.get (s.core c).acc 0 k := by
  have hw := ((wf_core _).1 (core_wf_of_memOk h c)).2
  have hcore : ∀ (t : State) (b : Prop) [Decidable b] (f : Fld) (v : Nat), ((if b then t.wr f v c else t).core c) = t.core c := by
    intro t b _ f v; split <;> rfl
  unfold State.accWrite
  dsimp only
  rw [hcore, core_modCore_self]
  dsimp only
  set new := (SMap.number w (vs.zip ((s.core c).acc.range 0 w vs.length))).map
    (fun e => if s.accBarred c e.1 g then e.2.2 else e.2.1) with hnew
  have hlen : new.length = vs.length := by
    have : ∀ (l : List (W32 × W32)) (a : Nat), (SMap.number a l).length = l.length := by
      intro l
      induction l with
      | nil => intro a; rfl
      | cons x l ih => intro a; simp [SMap.number, ih]
    rw [hnew, List.length_map, this, List.length_zip]
    simp [SMap.range, run_length]
  have hget : ∀ (l : List (W32 × W32)) (a i : Nat), i < l.length →
      nth ((SMap.number a l).map (fun e => if s.accBarred c e.1 g then e.2.2 else e.2.1)) 0 i =
        if s.accBarred c (a + i) g then (nth l (0, 0) i).2 else (nth l (0, 0) i).1 := by
    intro l
    induction l with
    | nil => intro a i hi; simp at hi
    | cons x l ih =>
      intro a i hi
      cases i with
      | zero => simp [SMap.number, nth]
      | succ i =>
        have := ih (a + 1) i (by simpa using hi)
        simp only [nth, SMap.number, List.map_cons, List.getElem?_cons_succ] at this ⊢
        rw [this]
        congr 3
        omega
  by_cases hk : w ≤ k ∧ k < w + vs.length
  · obtain ⟨i, rfl⟩ := Nat.exists_eq_add_of_le hk.1
    have hi : i < vs.length := by omega
    rw [smap_get_putRange_in hw (i := i) (by omega)]
    have h1 : new[i]'(by omega) = nth new 0 i := by simp [nth, hlen, hi]
    have hz : i < (vs.zip ((s.core c).acc.range 0 w vs.length)).length := by
      rw [List.length_zip]; simp [SMap.range, run_length, hi]
    rw [h1, hnew, hget _ _ _ hz]
    have h2 : nth (vs.zip ((s.core c).acc.range 0 w vs.length)) (0, 0) i = (nth vs 0 i, nth ((s.core c).acc.range 0 w vs.length) 0 i) := by
      have hr : i < ((s.core c).acc.range 0 w vs.length).length := by simp [SMap.range, run_length, hi]
      unfold nth
      rw [List.getElem?_eq_getElem hz, List.getElem?_eq_getElem hi, List.getElem?_eq_getElem hr, List.getElem_zip]
      rfl
    rw [h2, range_get hw _ _ _ hi]
    simp only [Nat.add_sub_cancel_left]
    by_cases hb : s.accBarred c (w + i) g = true
    · simp [hb]
    · simp [hb, hi]
  · rw [if_neg (fun x => hk ⟨x.1, x.2.1⟩)]
    exact smap_get_putRange_out hw (by omega)

theorem accWrite_spad (s : State) (c w : Nat) (vs : List W32) (g : Agent) :
    ((s.accWrite c w vs g).core c).spad = (s.core c).spad := by
  unfold State.accWrite
  dsimp only
  split
  · unfold State.core
    rw [wr_cores]
    show ((State.modCore s c _).core c).spad = _
    rw [core_modCore_self]
    rfl
  · rw [core_modCore_self]

end Sys2Proof.Machine
end

