-- ==== Sys2Proof/Tests/Slice0.lean ====
section
/-! SUPPORT. Checks of the model on small states: what WellFormed refuses, single commands with results written out from the spec, and for
each statement with hypotheses a witness, clause by clause, that a state and operands meet them (`wit_<statement>`). -/

namespace Sys2Proof.Tests

-- The tests are elaborated one after another: each waits for the kernel's check of those before it, and a thread held
-- for each that waits would take more memory than the check allows.
set_option Elab.async false

open Sys2Proof Sys2Proof.Machine

/-! ### Small states -/

/-- A module that is READY, its compute dies released and its halter link up, with nothing else at work. -/
def idle : State := (({ State.reset with boot := { stage := 12 } }).wr GLB_DIEMAP.RELEASED 0xFFF).wr PHO_FIB_STAT.ROLE 1 0 128

/-- The module with this core 0. -/
def withCore (k : Core) : State := { idle with cores := [(0, k)] }

/-- Lines 0 and 1 of instruction bytes. -/
def lines2 : List IcLine := [⟨0, 0⟩, ⟨1, 0⟩]

/-- The module with this scalar processor 0 of core 0, issuing. -/
def withSp (u : Sp) : State := withCore { sp0 := { u with run := true }, icache := lines2 }

/-- A word of format R from its fields (R143). -/
def word (maj rd rs1 rs2 rs3 f : Nat) : W32 :=
  BitVec.ofNat 32 (maj + rd * 2 ^ 7 + rs1 * 2 ^ 12 + rs2 * 2 ^ 17 + rs3 * 2 ^ 22 + f * 2 ^ 27)

theorem issues_of {s : State} {c p : Nat} {xs vs : List Nat}
    (h : (s.canIssue c p && xs.all (fun r => !s.locked c p false r) && vs.all (fun r => !s.locked c p true r)) = true) :
    Issues s c p xs vs := by
  simp only [Bool.and_eq_true, List.all_eq_true, Bool.not_eq_eq_eq_not, Bool.not_true] at h
  exact ⟨h.1.1, h.1.2, h.2⟩

/-! ### What WellFormed refuses: one ill-formed command for each check, beside well-formed ones -/

theorem test_wf_core : Instr.wf .trn0304 (.kernelEnd 48) = false ∧ Instr.wf .trn0304 (.kernelEnd 47) = true := by decide
theorem test_wf_sp : Instr.wf .trn1216 (.loadDataReturn 0 2) = false ∧ Instr.wf .trn1216 (.loadDataReturn 191 1) = true := by decide
theorem test_wf_array : Instr.wf .trn1216 (.passStart 0 4) = false ∧ Instr.wf .trn1216 (.passStart 0 3) = true := by decide
theorem test_wf_group : Instr.wf .trn1216 (.groupStateEffect 0 0 4) = false ∧ Instr.wf .trn1216 (.groupStateEffect 0 0 3) = true := by decide
theorem test_wf_major : Instr.wf .trn1216 (.lui 0 0 9) = false ∧ Instr.wf .trn1216 (.lui 0 0 8) = true := by decide
theorem test_wf_slot : Instr.wf .trn1216 (.slotClearEffect 0 0 2) = false := by decide
theorem test_wf_stook_half : Instr.wf .trn1216 (.stookPassComplete 0 2) = false := by decide
theorem test_wf_stook_key : Instr.wf .trn1216 (.stookKeyBind 0 64 0) = false ∧ Instr.wf .trn1216 (.stookKeyDescWrite 0 63 2 0) = false := by decide
theorem test_wf_queue : Instr.wf .trn1216 (.nop 64) = false ∧ Instr.wf .trn1216 (.nop 63) = true := by decide
theorem test_wf_engine : Instr.wf .trn0304 (.copyComplete 1 0 []) = false ∧ Instr.wf .trn0304 (.copyComplete 0 4 []) = false := by decide
theorem test_wf_event : Instr.wf .trn1216 (.queEvtWrite 65536 0) = false := by decide
theorem test_wf_push : Instr.wf .trn1216 (.pushMessage 0 [[0, 0, 0]]) = false := by decide
theorem test_wf_memory_stack : Instr.wf .trn0608 (.bayFlush 8) = false := by decide
theorem test_wf_block : Instr.wf .trn1216 (.uncorrectableError 16 0 0 0 0) = false ∧ Instr.wf .trn1216 (.uncorrectableError 0 16 0 0 0) = false := by decide
theorem test_wf_base_die : Instr.wf .trn1216 (.winCacheInv 4 0) = false := by decide
theorem test_wf_link : Instr.wf .trn0304 (.creditReturn 4 0 false) = false ∧ Instr.wf .trn0304 (.creditReturn 3 4 false) = false := by decide
theorem test_wf_credits : Instr.wf .trn1216 (.creditRefresh 0 [1, 2, 3, 4]) = false := by decide
theorem test_wf_port : Instr.wf .trn0608 (.ethCfgWrite 1 0) = false := by decide
theorem test_wf_context : Instr.wf .trn1216 (.collectiveEnd 64) = false := by decide
theorem test_wf_currents : Instr.wf .trn0304 (.fadeSample [0, 0, 0, 0]) = false := by decide
theorem test_wf_fibre : Instr.wf .trn1216 (.mirrorReady ⟨144, 0, [], none, false⟩) = false ∧
    Instr.wf .trn1216 (.mirrorReady ⟨256, 0, [], none, false⟩) = true := by decide
theorem test_wf_ring : Instr.wf .trn1216 (.ringRetuneDone 0 9 true) = false := by decide
theorem test_wf_channel : Instr.wf .trn1216 (.channelMoveComplete 512) = false := by decide
theorem test_wf_die : Instr.wf .trn0304 (.dieLockLoss 3) = false := by decide
theorem test_wf_converter : Instr.wf .trn1216 (.converterFail 8) = false := by decide
theorem test_wf_domain : Instr.wf .trn1216 (.hintLapse 236) = false := by decide
theorem test_wf_readings : Instr.wf .trn1216 (.thermalSample []) = false := by decide
theorem test_wf_sensor : Instr.wf .trn1216 (.sensorSelfCheck 704 0) = false := by decide
theorem test_wf_node : Instr.wf .trn1216 (.heartbeat 512) = false ∧ Instr.wf .trn1216 (.vote 0 512) = false := by decide
theorem test_wf_alarm : Instr.wf .trn1216 (.domainAlarm 0) = false ∧ Instr.wf .trn1216 (.domainAlarm 4) = false := by decide
theorem test_wf_trace : Instr.wf .trn0304 (.traceSample 0x101) = false ∧ Instr.wf .trn0304 (.traceSample 0x100) = true := by decide

/-! ### Scalar instructions -/

/-- Scalar registers 1 to 3 at small values. -/
def regs3 : Sp := { x := [(1, 5), (2, 7), (3, 0x40)] }

/-- A processor whose x1 is `a`, with x2 = 7 and x3 = 9. -/
def at1 (a : Nat) : Sp := { x := [(1, BitVec.ofNat 64 a), (2, 7), (3, 9)] }

theorem wit_scalarArithmetic :
    (∃ s c p, ∃ w : W32, (iMaj w.toNat = 0x01 ∧ iF w.toNat = 24 ∧ iRs3 w.toNat = 0 ∧ iRd w.toNat = 31) ∧
      Issues s c p [iRd w.toNat, iRs1 w.toNat, iRs2 w.toNat] []) ∧
    (∃ s c p, ∃ w : W32, iMaj w.toNat = 0x07 ∧ Issues s c p [iRd w.toNat, iRs1 w.toNat] []) ∧
    (∃ s c p, ∃ w : W32, (iMaj w.toNat = 0x06 ∧ bits w.toNat 24 23 ≠ 3 ∧ bits w.toNat 31 25 = 0 ∧ bits w.toNat 22 17 = 63) ∧
      Issues s c p [iRd w.toNat, iRs1 w.toNat] []) ∧
    (∃ s c p, ∃ w : W32, iMaj w.toNat = 0x08 ∧ Issues s c p [iRd w.toNat] []) :=
  ⟨⟨withSp regs3, 0, 0, word 1 31 1 2 0 24, by decide +kernel, issues_of (by decide +kernel)⟩,
   ⟨withSp regs3, 0, 0, word 7 0 1 0 0 0, by decide +kernel, issues_of (by decide +kernel)⟩,
   ⟨withSp regs3, 0, 0, word 6 4 1 31 5 0, by decide +kernel, issues_of (by decide +kernel)⟩,
   ⟨withSp regs3, 0, 0, word 8 4 0 0 0 31, by decide +kernel, issues_of (by decide +kernel)⟩⟩

theorem wit_scalarControl :
    (∃ s c p, ∃ w : W32, (iMaj w.toNat = 0x0A ∧ iCond w.toNat = 5) ∧ Issues s c p [iRd w.toNat, iRs1 w.toNat] []) ∧
    (∃ s c p, ∃ w : W32, iMaj w.toNat = 0x0B ∧ Issues s c p [iRd w.toNat] []) ∧
    (∃ s c p, ∃ w : W32, iMaj w.toNat = 0x0C ∧ Issues s c p [iRd w.toNat, iRs1 w.toNat] []) :=
  ⟨⟨withSp regs3, 0, 0, word 0x0A 1 2 5 0 0, by decide +kernel, issues_of (by decide +kernel)⟩,
   ⟨withSp regs3, 0, 0, word 0x0B 0 2 5 0 31, by decide +kernel, issues_of (by decide +kernel)⟩,
   ⟨withSp regs3, 0, 0, word 0x0C 31 1 3 0 0, by decide +kernel, issues_of (by decide +kernel)⟩⟩

theorem wit_tileDescriptorMoves :
    (∃ s c p, ∃ w : W32, (iMaj w.toNat = 0x0D ∧ iRs2 w.toNat = 0 ∧ iRs3 w.toNat = 0 ∧ iF w.toNat = 0 ∧ iRd w.toNat = 15) ∧
      Issues s c p [iRs1 w.toNat] []) ∧
    (∃ s c p, ∃ w : W32, (iMaj w.toNat = 0x0D ∧ iRs2 w.toNat = 0 ∧ iRs3 w.toNat = 0 ∧ iF w.toNat = 1 ∧ iRd w.toNat = 15) ∧
      Issues s c p [iRs1 w.toNat] []) ∧
    (∃ s c p, ∃ w : W32, (iMaj w.toNat = 0x0D ∧ iRs2 w.toNat = 0 ∧ iRs3 w.toNat = 0 ∧ iF w.toNat = 2 ∧ iRs1 w.toNat = 15) ∧
      Issues s c p [iRd w.toNat] []) ∧
    (∃ s c p, ∃ w : W32, (iMaj w.toNat = 0x0D ∧ iRs2 w.toNat = 0 ∧ iRs3 w.toNat = 0 ∧ iF w.toNat = 3 ∧ iRs1 w.toNat = 15) ∧
      Issues s c p [iRd w.toNat] []) :=
  ⟨⟨withSp regs3, 0, 0, word 0x0D 15 1 0 0 0, by decide +kernel, issues_of (by decide +kernel)⟩,
   ⟨withSp regs3, 0, 0, word 0x0D 15 1 0 0 1, by decide +kernel, issues_of (by decide +kernel)⟩,
   ⟨withSp regs3, 0, 0, word 0x0D 31 15 0 0 2, by decide +kernel, issues_of (by decide +kernel)⟩,
   ⟨withSp regs3, 0, 0, word 0x0D 31 15 0 0 3, by decide +kernel, issues_of (by decide +kernel)⟩⟩

theorem goes_of {s : State} {c p space a n : Nat}
    (h : (decide (a % n = 0) && !s.moveBusy c p space a n && (space != 0 || !s.accBusy c (some p) a n)) = true) :
    Goes s c p space a n := by
  simp only [Bool.and_eq_true, Bool.or_eq_true, decide_eq_true_eq, Bool.not_eq_eq_eq_not, Bool.not_true, bne_iff_ne] at h
  exact ⟨h.1.1, h.1.2, fun e => h.2.resolve_left (fun g => g e)⟩

/-- The last doubleword of scratchpad, the last word of accumulators, and the last doubleword of L-space. -/
theorem wit_scalarMemory :
    (∃ s c p, ∃ w : W32, (s.memOk = true ∧ iMaj w.toNat = 0x10 ∧ mAddr (s.sp c p) w.toNat + mSize w.toNat = 0x800000 ∧
        sBarred (mAddr (s.sp c p) w.toNat) (mSize w.toNat) = false) ∧
      Issues s c p [iRd w.toNat, iRs1 w.toNat] [] ∧ Goes s c p 0 (mAddr (s.sp c p) w.toNat) (mSize w.toNat)) ∧
    (∃ s c p, ∃ w : W32, (s.memOk = true ∧ iMaj w.toNat = 0x11 ∧ mAddr (s.sp c p) w.toNat = accBase ∧
        sBarred (mAddr (s.sp c p) w.toNat) (mSize w.toNat) = false) ∧
      Issues s c p [iRd w.toNat, iRs1 w.toNat] [] ∧ Goes s c p 0 (mAddr (s.sp c p) w.toNat) (mSize w.toNat)) ∧
    (∃ s c p, ∃ w : W32, (s.memOk = true ∧ iMaj w.toNat = 0x12 ∧ mSize w.toNat = 1 ∧
        inL s.variant (mAddr (s.sp c p) w.toNat) (mSize w.toNat) = true) ∧
      Issues s c p [iRd w.toNat, iRs1 w.toNat] [] ∧ Goes s c p 1 (mAddr (s.sp c p) w.toNat) (mSize w.toNat)) ∧
    (∃ s c p, ∃ w : W32, (s.memOk = true ∧ iMaj w.toNat = 0x13 ∧ mSize w.toNat = 8 ∧
        inL s.variant (mAddr (s.sp c p) w.toNat) (mSize w.toNat) = true) ∧
      Issues s c p [iRd w.toNat, iRs1 w.toNat] [] ∧ Goes s c p 1 (mAddr (s.sp c p) w.toNat) (mSize w.toNat)) ∧
    (∃ (s : State) (c p : Nat) (l : PendLoad) (r : List PendLoad), s.memOk = true ∧ s.alive = true ∧ (s.sp c p).loads = l :: r) :=
  ⟨⟨withSp (at1 0x7FFFF8), 0, 0, word 0x10 31 1 3 0 0, by decide +kernel, issues_of (by decide +kernel), goes_of (by decide +kernel)⟩,
   ⟨withSp (at1 0x800000), 0, 0, word 0x11 2 1 3 0 0, by decide +kernel, issues_of (by decide +kernel), goes_of (by decide +kernel)⟩,
   ⟨withSp (at1 1), 0, 0, word 0x12 2 1 0 0 0, by decide +kernel, issues_of (by decide +kernel), goes_of (by decide +kernel)⟩,
   ⟨withSp (at1 0x1000), 0, 0, word 0x13 2 1 3 0 0, by decide +kernel, issues_of (by decide +kernel), goes_of (by decide +kernel)⟩,
   ⟨withSp { loads := [⟨0, 16⟩] }, 0, 0, ⟨0, 16⟩, [], by decide +kernel⟩⟩

/-! ### Atomics and synchronisation -/

/-- An atomic's word: W in bit 27, the operation above it (R164). -/
def atom (maj rd rs1 rs2 rs3 w op : Nat) : W32 := word maj rd rs1 rs2 rs3 (w + 2 * op)

theorem wit_scalarAtomics :
    (∃ s c p, ∃ w : W32, (s.memOk = true ∧ aLegal w.toNat = true ∧ iMaj w.toNat = 0x18 ∧
        inSpad ((s.sp c p).xr (iRs1 w.toNat)).toNat (aSize w.toNat) = true ∧ aOp w.toNat = 1) ∧
      Issues s c p [iRd w.toNat, iRs1 w.toNat, iRs2 w.toNat, iRs3 w.toNat] [] ∧ Goes s c p 0 ((s.sp c p).xr (iRs1 w.toNat)).toNat (aSize w.toNat)) ∧
    (∃ s c p, ∃ w : W32, (s.memOk = true ∧ aLegal w.toNat = true ∧ iMaj w.toNat = 0x19 ∧
        inL s.variant ((s.sp c p).xr (iRs1 w.toNat)).toNat (aSize w.toNat) = true ∧ aOp w.toNat = 6) ∧
      Issues s c p [iRd w.toNat, iRs1 w.toNat, iRs2 w.toNat, iRs3 w.toNat] [] ∧ Goes s c p 1 ((s.sp c p).xr (iRs1 w.toNat)).toNat (aSize w.toNat)) ∧
    (∃ s c p, ∃ w : W32, (s.memOk = true ∧ aLegal w.toNat = true ∧ iMaj w.toNat = 0x1A ∧
        inE s.variant ((s.sp c p).xr (iRs1 w.toNat)).toNat (aSize w.toNat) = true ∧
        ((s.mark 2 c []).eRead (((s.sp c p).xr (iRs1 w.toNat)).toNat / 8 * 8) 8 2 false .scalar).ue = false ∧ aOp w.toNat = 0 ∧
        s.frozen = false) ∧
      Issues s c p [iRd w.toNat, iRs1 w.toNat, iRs2 w.toNat, iRs3 w.toNat] [] ∧ Goes s c p 2 ((s.sp c p).xr (iRs1 w.toNat)).toNat (aSize w.toNat)) ∧
    (∃ s c p, ∃ w : W32, (s.memOk = true ∧ aLegal w.toNat = true ∧ iMaj w.toNat = 0x1A ∧ aOp w.toNat = 1 ∧
        ((s.mark 2 c []).eRead 0x1000 8 2 false .scalar).ue = false ∧ ((s.sp c p).xr (iRs1 w.toNat)).toNat = 0x1000 ∧
        ofLe (((s.mark 2 c []).eRead 0x1000 8 2 false .scalar).data) ≠ ((s.sp c p).xr (iRs2 w.toNat)).toNat) ∧
      Issues s c p [iRd w.toNat, iRs1 w.toNat, iRs2 w.toNat, iRs3 w.toNat] []) :=
  ⟨⟨withSp (at1 0x7FFFF8), 0, 0, atom 0x18 4 1 2 3 1 1, by decide +kernel, issues_of (by decide +kernel), goes_of (by decide +kernel)⟩,
   ⟨withSp (at1 0x1004), 0, 0, atom 0x19 4 1 2 0 0 6, by decide +kernel, issues_of (by decide +kernel), goes_of (by decide +kernel)⟩,
   ⟨{ withSp (at1 0x1000) with variant := .trn0304 }, 0, 0, atom 0x1A 4 1 2 0 1 0, by decide +kernel, issues_of (by decide +kernel), goes_of (by decide +kernel)⟩,
   ⟨{ withSp (at1 0x1000) with variant := .trn0304 }, 0, 0, atom 0x1A 4 1 2 3 1 1, by decide +kernel, issues_of (by decide +kernel)⟩⟩

/-- An operation of processor 0 of core 0 out at node 5, as sent: kind, bytes and data register as given. -/
def remOp (kind len reg : Nat) : RemOp :=
  { id := 3, srcid := 0, kind := kind, sp := 0, reg := reg, addr := 0x8000000000000000, len := len, data := [], atype := 0, det := false
    cmd := none, gln := none, queue := none, dst := 0, stage := 3, entry := 5, ord := false, seq := 0, issued := 0, lastTx := 0, tries := 0, nak := false
    failSt := none, epoch := 0 }

/-- A processor with a remote store out. -/
def withRemote : State := { withSp regs3 with win := { ops := [remOp 1 8 2] } }

theorem wit_scalarSynchronisation :
    (∃ s c p, ∃ w : W32, (iMaj w.toNat = 0x1C ∧ iF w.toNat = 0 ∧ bits w.toNat 26 7 = 0 ∧ s.fenced c p = true) ∧ Issues s c p [] []) ∧
    (∃ s c p, ∃ w : W32, (iMaj w.toNat = 0x1C ∧ iF w.toNat = 0 ∧ bits w.toNat 26 7 = 0 ∧ s.fenced c p = false) ∧ Issues s c p [] []) ∧
    (∃ s c p, ∃ w : W32, (iMaj w.toNat = 0x1C ∧ iF w.toNat = 1 ∧ iRd w.toNat = 2 ∧ bits w.toNat 26 12 = 0) ∧ Issues s c p [] []) ∧
    (∃ s c p, ∃ w : W32, (iMaj w.toNat = 0x1C ∧ iF w.toNat = 2 ∧ iRd w.toNat = 0 ∧ iRs3 w.toNat = 0 ∧
        bits ((s.sp c p).xr (iRs2 w.toNat)).toNat 31 0 = s.evt (bits ((s.sp c p).xr (iRs1 w.toNat)).toNat 15 0)) ∧
      Issues s c p [iRs1 w.toNat, iRs2 w.toNat] []) ∧
    (∃ s c p, ∃ w : W32, (iMaj w.toNat = 0x1C ∧ iF w.toNat = 2 ∧ iRd w.toNat = 0 ∧ iRs3 w.toNat = 0 ∧
        s.evt (bits ((s.sp c p).xr (iRs1 w.toNat)).toNat 15 0) < bits ((s.sp c p).xr (iRs2 w.toNat)).toNat 31 0) ∧
      Issues s c p [iRs1 w.toNat, iRs2 w.toNat] []) ∧
    (∃ s c p, ∃ w : W32, (iMaj w.toNat = 0x1C ∧ iF w.toNat = 3 ∧ iRd w.toNat = 0 ∧ iRs3 w.toNat = 0 ∧ c < s.variant.cores ∧
        s.fenced c p = true ∧ bits ((s.sp c p).xr (iRs1 w.toNat)).toNat 15 0 = 65535) ∧ Issues s c p [iRs1 w.toNat, iRs2 w.toNat] []) ∧
    (∃ s c p, ∃ w : W32, (iMaj w.toNat = 0x1C ∧ iF w.toNat = 4 ∧ bits w.toNat 26 7 = 0 ∧
        s.win.ops.any (fun o => o.srcid == c && o.sp == p && o.kind ≤ 3 && o.gln.isNone) = false) ∧ Issues s c p [] []) ∧
    (∃ s c p, ∃ w : W32, (iMaj w.toNat = 0x1C ∧ iF w.toNat = 4 ∧ bits w.toNat 26 7 = 0 ∧
        s.win.ops.any (fun o => o.srcid == c && o.sp == p && o.kind ≤ 3 && o.gln.isNone) = true) ∧ Issues s c p [] []) :=
  ⟨⟨withSp regs3, 0, 0, word 0x1C 0 0 0 0 0, by decide +kernel, issues_of (by decide +kernel)⟩,
   ⟨withSp { regs3 with loads := [⟨9, 16⟩] }, 0, 0, word 0x1C 0 0 0 0 0, by decide +kernel, issues_of (by decide +kernel)⟩,
   ⟨withSp regs3, 0, 0, word 0x1C 2 0 0 0 1, by decide +kernel, issues_of (by decide +kernel)⟩,
   ⟨withSp regs3, 0, 0, word 0x1C 0 1 0 0 2, by decide +kernel, issues_of (by decide +kernel)⟩,
   ⟨withSp regs3, 0, 0, word 0x1C 0 1 2 0 2, by decide +kernel, issues_of (by decide +kernel)⟩,
   ⟨withSp (at1 65535), 0, 0, word 0x1C 0 1 2 0 3, by decide +kernel, issues_of (by decide +kernel)⟩,
   ⟨withSp regs3, 0, 0, word 0x1C 0 0 0 0 4, by decide +kernel, issues_of (by decide +kernel)⟩,
   ⟨withRemote, 0, 0, word 0x1C 0 0 0 0 4, by decide +kernel, issues_of (by decide +kernel)⟩⟩

/-! ### Exceptions and the system instructions -/

/-- Core 0 with processor 0 at pc 0x40 and exceptions enabled to handler 0x1000. -/
def withExc : State := ((withSp { regs3 with pc := 0x40 }).wr CORE_CTL.EXC_EN 1 0).wr CORE_VEC.ADDR 0x40 0

/-- The same in supervisor mode, with x3 naming a register. -/
def inSuper (a : Nat) : State :=
  ((withSp { x := [(1, 5), (2, 7), (3, BitVec.ofNat 64 a)], pc := 0x40, super := true }).wr CORE_CTL.EXC_EN 1 0).wr CORE_VEC.ADDR 0x40 0

theorem wit_exceptionEntry : ∃ (s : State) (c p cause info : Nat), c < s.variant.cores ∧ p < 2 ∧ cause < 32 ∧ info < 2 ^ 64 ∧
    s.rdB CORE_CTL.EXC_EN c = true ∧ (s.sp c p).super = false :=
  ⟨withExc, 0, 0, 31, 2 ^ 64 - 1, by decide +kernel⟩

theorem wit_unhandledException :
    (∃ (s : State) (c p cause : Nat), c < s.variant.cores ∧ p < 2 ∧ cause < 32 ∧ cause ≠ 9 ∧ s.rdB CORE_CTL.EXC_EN c = false) ∧
    (∃ (s : State) (c p cause : Nat), c < s.variant.cores ∧ p < 2 ∧ cause < 32 ∧ cause ≠ 9 ∧ (s.sp c p).super = true) :=
  ⟨⟨idle, 191, 1, 1, by decide +kernel⟩, ⟨inSuper 0, 0, 0, 31, by decide +kernel⟩⟩

theorem wit_systemInstructions :
    (∃ s c p, ∃ w : W32, (c < s.variant.cores ∧ p < 2 ∧ iMaj w.toNat = 0x1F ∧ bits w.toNat 26 7 = 0 ∧ iF w.toNat = 0 ∧ (s.sp c p).pend = []) ∧
      Issues s c p [] []) ∧
    (∃ s c p, ∃ w : W32, (c < s.variant.cores ∧ p < 2 ∧ iMaj w.toNat = 0x1F ∧ bits w.toNat 26 7 = 0 ∧ iF w.toNat = 1 ∧ (s.sp c p).super = true) ∧
      Issues s c p [] []) ∧
    (∃ s c p, ∃ w : W32, (c < s.variant.cores ∧ p < 2 ∧ iMaj w.toNat = 0x1F ∧ bits w.toNat 26 7 = 0 ∧ iF w.toNat = 2 ∧
      s.rdB CORE_CTL.EXC_EN c = true ∧ (s.sp c p).super = false) ∧ Issues s c p [] []) ∧
    (∃ s c p, ∃ w : W32, (c < s.variant.cores ∧ p < 2 ∧ iMaj w.toNat = 0x1F ∧ bits w.toNat 26 7 = 0 ∧ iF w.toNat = 3 ∧
      s.rdB CORE_CTL.EXC_EN c = true ∧ (s.sp c p).super = false) ∧ Issues s c p [] []) ∧
    (∃ s c p, ∃ w : W32, (c < s.variant.cores ∧ p < 2 ∧ iMaj w.toNat = 0x1E ∧ bits w.toNat 11 7 = 0 ∧ bits w.toNat 31 20 = 0 ∧
      bits w.toNat 17 12 = 51 ∧ leadOk (bits w.toNat 17 12) = false) ∧ Issues s c p [] []) ∧
    (∃ s c p, ∃ w : W32, (c < s.variant.cores ∧ p < 2 ∧ iMaj w.toNat = 0x1E ∧ bits w.toNat 11 7 = 0 ∧ bits w.toNat 31 20 = 0 ∧
      s.rdB PWR_CFG.HINT_EN = true ∧ bits w.toNat 17 12 = 50 ∧ bits w.toNat 19 18 = 3) ∧ Issues s c p [] []) ∧
    (∃ s c p, ∃ w : W32, (c < s.variant.cores ∧ p < 2 ∧ iMaj w.toNat = 0x1E ∧ bits w.toNat 11 7 = 0 ∧ bits w.toNat 31 20 = 0 ∧
      s.rdB PWR_CFG.HINT_EN = false ∧ bits w.toNat 17 12 = 5) ∧ Issues s c p [] []) :=
  ⟨⟨withExc, 0, 0, word 0x1F 0 0 0 0 0, by decide +kernel, issues_of (by decide +kernel)⟩,
   ⟨inSuper 0, 0, 0, word 0x1F 0 0 0 0 1, by decide +kernel, issues_of (by decide +kernel)⟩,
   ⟨withExc, 0, 0, word 0x1F 0 0 0 0 2, by decide +kernel, issues_of (by decide +kernel)⟩,
   ⟨withExc, 0, 0, word 0x1F 0 0 0 0 3, by decide +kernel, issues_of (by decide +kernel)⟩,
   ⟨withExc, 0, 0, word 0x1E 0 19 1 0 0, by decide +kernel, issues_of (by decide +kernel)⟩,
   ⟨withExc, 0, 0, word 0x1E 0 18 7 0 0, by decide +kernel, issues_of (by decide +kernel)⟩,
   ⟨withExc.wr PWR_CFG.HINT_EN 0, 0, 0, word 0x1E 0 5 0 0 0, by decide +kernel, issues_of (by decide +kernel)⟩⟩

theorem wit_controlSpaceGuards :
    (∃ s c p, ∃ w : W32, (iMaj w.toNat = 0x1F ∧ bits w.toNat 26 7 = 0 ∧ iF w.toNat = 1 ∧ (s.sp c p).super = false) ∧ Issues s c p [] []) ∧
    (∃ s c p, ∃ w : W32, (iMaj w.toNat = 0x1F ∧ iF w.toNat = 4 ∧ iRs2 w.toNat = 0 ∧ iRs3 w.toNat = 0 ∧ (s.sp c p).super = false) ∧
      Issues s c p [iRd w.toNat, iRs1 w.toNat] []) ∧
    (∃ s c p, ∃ w : W32, (iMaj w.toNat = 0x1F ∧ iF w.toNat = 4 ∧ iRs2 w.toNat = 0 ∧ iRs3 w.toNat = 0 ∧ (s.sp c p).super = true ∧
      ((s.sp c p).xr (iRs1 w.toNat)).toNat % 8 ≠ 0) ∧ Issues s c p [iRd w.toNat, iRs1 w.toNat] []) ∧
    (∃ s c p, ∃ w : W32, (iMaj w.toNat = 0x1F ∧ iF w.toNat = 4 ∧ iRs2 w.toNat = 0 ∧ iRs3 w.toNat = 0 ∧ (s.sp c p).super = true ∧
      2 ^ 40 = ((s.sp c p).xr (iRs1 w.toNat)).toNat) ∧ Issues s c p [iRd w.toNat, iRs1 w.toNat] []) ∧
    (∃ s c p, ∃ w : W32, (iMaj w.toNat = 0x1F ∧ iF w.toNat = 5 ∧ iRd w.toNat = 0 ∧ iRs3 w.toNat = 0 ∧ (s.sp c p).super = false) ∧
      Issues s c p [iRs1 w.toNat, iRs2 w.toNat] []) ∧
    (∃ s c p, ∃ w : W32, (iMaj w.toNat = 0x1F ∧ iF w.toNat = 5 ∧ iRd w.toNat = 0 ∧ iRs3 w.toNat = 0 ∧ (s.sp c p).super = true ∧
      2 ^ 40 = ((s.sp c p).xr (iRs1 w.toNat)).toNat) ∧ Issues s c p [iRs1 w.toNat, iRs2 w.toNat] []) :=
  ⟨⟨withExc, 0, 0, word 0x1F 0 0 0 0 1, by decide +kernel, issues_of (by decide +kernel)⟩,
   ⟨withExc, 0, 0, word 0x1F 4 3 0 0 4, by decide +kernel, issues_of (by decide +kernel)⟩,
   ⟨inSuper 0x2C, 0, 0, word 0x1F 4 3 0 0 4, by decide +kernel, issues_of (by decide +kernel)⟩,
   ⟨inSuper (2 ^ 40), 0, 0, word 0x1F 4 3 0 0 4, by decide +kernel, issues_of (by decide +kernel)⟩,
   ⟨withExc, 0, 0, word 0x1F 0 3 2 0 5, by decide +kernel, issues_of (by decide +kernel)⟩,
   ⟨inSuper (2 ^ 40), 0, 0, word 0x1F 0 3 2 0 5, by decide +kernel, issues_of (by decide +kernel)⟩⟩

theorem wit_specialRegisters :
    (∃ s c p, ∃ w : W32, (iMaj w.toNat = 0x1F ∧ iRs3 w.toNat = 0 ∧ iF w.toNat = 4 ∧ iRs2 w.toNat = 0 ∧ (s.sp c p).super = true ∧
      ((s.sp c p).xr (iRs1 w.toNat)).toNat % 8 = 0 ∧ ((s.sp c p).xr (iRs1 w.toNat)).toNat = 2 ^ 40 - 8) ∧
      Issues s c p [iRd w.toNat, iRs1 w.toNat] []) ∧
    (∃ s c p, ∃ w : W32, (iMaj w.toNat = 0x1F ∧ iRs3 w.toNat = 0 ∧ iF w.toNat = 5 ∧ iRd w.toNat = 0 ∧ (s.sp c p).super = true ∧
      ((s.sp c p).xr (iRs1 w.toNat)).toNat % 8 = 0 ∧ ((s.sp c p).xr (iRs1 w.toNat)).toNat < 2 ^ 40 ∧
      (s.regThere ((s.sp c p).xr (iRs1 w.toNat)).toNat).isSome = true) ∧ Issues s c p [iRs1 w.toNat, iRs2 w.toNat] []) ∧
    (∃ s c p, ∃ w : W32, (iMaj w.toNat = 0x1F ∧ iRs3 w.toNat = 0 ∧ iF w.toNat = 6 ∧ iRs2 w.toNat = 0) ∧
      Issues s c p [iRd w.toNat, iRs1 w.toNat] []) ∧
    (∃ s c p, ∃ w : W32, (iMaj w.toNat = 0x1F ∧ iRs3 w.toNat = 0 ∧ iF w.toNat = 7 ∧ bits w.toNat 26 12 = 0) ∧ Issues s c p [iRd w.toNat] []) ∧
    (∃ s c p, ∃ w : W32, (iMaj w.toNat = 0x1F ∧ iRs3 w.toNat = 0 ∧ iF w.toNat = 9 ∧ iRs2 w.toNat = 0) ∧
      Issues s c p [iRd w.toNat, iRs1 w.toNat] []) ∧
    (∃ s c p, ∃ w : W32, (iMaj w.toNat = 0x1F ∧ iRs3 w.toNat = 0 ∧ iF w.toNat = 11 ∧ bits w.toNat 26 12 = 0) ∧ Issues s c p [iRd w.toNat] []) :=
  ⟨⟨inSuper (2 ^ 40 - 8), 0, 0, word 0x1F 4 3 0 0 4, by decide +kernel, issues_of (by decide +kernel)⟩,
   ⟨inSuper (Reg.addr .FAB_CFG 0 0 0), 0, 0, word 0x1F 0 3 2 0 5, by decide +kernel, issues_of (by decide +kernel)⟩,
   ⟨inSuper 63, 0, 0, word 0x1F 4 3 0 0 6, by decide +kernel, issues_of (by decide +kernel)⟩,
   ⟨inSuper 0, 0, 0, word 0x1F 4 0 0 0 7, by decide +kernel, issues_of (by decide +kernel)⟩,
   ⟨inSuper 15, 0, 0, word 0x1F 4 3 0 0 9, by decide +kernel, issues_of (by decide +kernel)⟩,
   ⟨inSuper 0, 0, 0, word 0x1F 31 0 0 0 11, by decide +kernel, issues_of (by decide +kernel)⟩⟩

theorem wit_fetchAndMarks :
    (∃ s c p, ∃ w : W32, (iMaj w.toNat = 0x1F ∧ iF w.toNat = 10 ∧ bits w.toNat 26 7 = 0) ∧ Issues s c p [] []) ∧
    (∃ s c p, ∃ w : W32, (iMaj w.toNat = 0x1F ∧ iF w.toNat = 8 ∧ iRd w.toNat = 0 ∧ iRs2 w.toNat = 0 ∧ iRs3 w.toNat = 0 ∧
      (s.trace.get {} c).buf.length < traceRoom c ∧ s.rdB OBS_CORE.EN c = true) ∧ Issues s c p [iRs1 w.toNat] []) ∧
    (∃ (s : State) (c p l : Nat), s.alive = true ∧ (s.sp c p).run = true ∧ (s.sp c p).fetch = none ∧ s.missLine c p = some l) ∧
    (∃ (s : State) (c p l : Nat), s.alive = true ∧ (s.sp c p).fetch = some l ∧ inL s.variant (64 * l) 64 = true) ∧
    (∃ (s : State) (c p : Nat) (w : W32), majKnown (iMaj w.toNat) = false ∧ s.canIssue c p = true) ∧
    (∃ (s : State) (c p : Nat) (w : W32), selUnknown w.toNat = true ∧ s.canIssue c p = true) :=
  ⟨⟨withExc, 0, 0, word 0x1F 0 0 0 0 10, by decide +kernel, issues_of (by decide +kernel)⟩,
   ⟨withExc.wr OBS_CORE.EN 1 0, 0, 0, word 0x1F 0 1 0 0 8, by decide +kernel, issues_of (by decide +kernel)⟩,
   ⟨withSp { pc := 0x80 }, 0, 0, 2, by decide +kernel⟩, ⟨withSp { fetch := some 7 }, 0, 0, 7, by decide +kernel⟩,
   ⟨withExc, 0, 0, 0, by decide +kernel⟩, ⟨withExc, 0, 0, word 1 0 0 0 0 25, by decide +kernel⟩⟩

/-! ### Vector instructions -/

/-- Vector registers 1 to 3, with the predicate p1 with its low eight lanes active, and p2 with none. -/
def vregs : Sp :=
  { x := [(1, 5), (2, 7), (3, 0x40)]
    v := [(1, BitVec.ofNat 1024 (0x3F80000040490FDB7F800000FFC00000 + 2 ^ 1000)), (2, BitVec.ofNat 1024 (0x40000000BF800000C0000000 + 3 * 2 ^ 900)),
      (3, BitVec.ofNat 1024 0x123456789ABCDEF)]
    p := [(1, 0xFF)] }

/-- A word of format V (R143): vs2, pg, T and F as given. -/
def wordV (maj rd rs1 rs2 pg t f : Nat) : W32 :=
  BitVec.ofNat 32 (maj + rd * 2 ^ 7 + rs1 * 2 ^ 12 + rs2 * 2 ^ 17 + pg * 2 ^ 22 + t * 2 ^ 25 + f * 2 ^ 28)

/-- A word of format VF: T, RM and F as given. -/
def wordVF (maj rd rs1 rs2 pg t rm f : Nat) : W32 :=
  BitVec.ofNat 32 (maj + rd * 2 ^ 7 + rs1 * 2 ^ 12 + rs2 * 2 ^ 17 + pg * 2 ^ 22 + t * 2 ^ 25 + rm * 2 ^ 27 + f * 2 ^ 29)

/-- The processor may issue, and the vector unit accepts work in this cycle. -/
def Cycle (s : State) (c p : Nat) (xs vs : List Nat) : Prop := Issues s c p xs vs ∧ (s.throttled c).1 = false

theorem throttled_open {s : State} {c : Nat} (h : 64 ≤ s.issueCycles (c / 16)) : (s.throttled c).1 = false := by simp [State.throttled, h]

theorem throttled_shut {s : State} {c : Nat} (h : s.issueCycles (c / 16) = 0) : (s.throttled c).1 = true := by simp [State.throttled, h]

/-- A state whose die 0 issues in no cycle. -/
def slowed (s : State) : State := { s with pwr := { s.pwr with frac := [(0, 0)] } }

/-- VectorRow, in a cycle in which the unit accepts no work. -/
theorem wit_vectorWaits : ∃ s c p, Issues s c p [1] [2] ∧ (s.throttled c).1 = true :=
  ⟨slowed (withSp vregs), 0, 0, issues_of (by decide +kernel), throttled_shut (by decide +kernel)⟩

theorem issues_vregs (xs vs : List Nat) : Cycle (withSp vregs) 0 0 xs vs :=
  ⟨⟨by decide +kernel, fun r _ => by
    show (!false && r != 0 && List.any [] _ || List.any [] _) = false
    simp, fun r _ => by
    show (!true && r != 0 && List.any [] _ || List.any [] _) = false
    simp⟩, throttled_open (by decide +kernel)⟩

/-- VectorArithmetic, MAJ 0x20: every floating row, in each of its formats. -/
theorem wit_floatLanes : ∀ sel, sel < 8 → ∀ tt, tt < 3 → ∃ s c p, ∃ w : W32, (iMaj w.toNat = 0x20 ∧ iF3 w.toNat = sel ∧ iTf w.toNat = tt ∧
    iRs2 w.toNat = 0) ∧ Cycle s c p [] [iRd w.toNat, iRs1 w.toNat, iRs2 w.toNat] := fun sel h tt g =>
  ⟨withSp vregs, 0, 0, wordVF 0x20 31 1 0 1 tt 3 sel,
    (by decide +kernel : ∀ sel, sel < 8 → ∀ tt, tt < 3 → iMaj (wordVF 0x20 31 1 0 1 tt 3 sel).toNat = 0x20 ∧
      iF3 (wordVF 0x20 31 1 0 1 tt 3 sel).toNat = sel ∧ iTf (wordVF 0x20 31 1 0 1 tt 3 sel).toNat = tt ∧
      iRs2 (wordVF 0x20 31 1 0 1 tt 3 sel).toNat = 0) sel h tt g, issues_vregs _ _⟩

/-- VectorArithmetic and VectorLanewise: every row of MAJ 0x2B, and every integer row of MAJ 0x21, in each type. -/
theorem wit_codeLanes : ∀ sel, sel < 16 → ∀ tt, tt < 6 → ∀ maj ∈ [0x21, 0x2B], ∃ s c p, ∃ w : W32, (iMaj w.toNat = maj ∧ iF4 w.toNat = sel ∧
    iT w.toNat = tt ∧ iRs2 w.toNat = 0) ∧ Cycle s c p [] [iRd w.toNat, iRs1 w.toNat, iRs2 w.toNat] := fun sel h tt g maj m =>
  ⟨withSp vregs, 0, 0, wordV maj 31 1 0 1 tt sel,
    (by decide +kernel : ∀ sel, sel < 16 → ∀ tt, tt < 6 → ∀ maj ∈ [0x21, 0x2B], iMaj (wordV maj 31 1 0 1 tt sel).toNat = maj ∧
      iF4 (wordV maj 31 1 0 1 tt sel).toNat = sel ∧ iT (wordV maj 31 1 0 1 tt sel).toNat = tt ∧
      iRs2 (wordV maj 31 1 0 1 tt sel).toNat = 0) sel h tt g maj m, issues_vregs _ _⟩

theorem wit_vectorReductions :
    (∃ s c p, ∃ w : W32, (iMaj w.toNat = 0x21 ∧ iF4 w.toNat = 15 ∧ iT w.toNat = 4) ∧
      Cycle s c p [] [iRd w.toNat, iRs1 w.toNat, iRs2 w.toNat]) ∧
    (∃ s c p, ∃ w : W32, (iMaj w.toNat = 0x22 ∧ iF4 w.toNat = 5 ∧ iT w.toNat = 5 ∧ iRd w.toNat = 7) ∧
      Cycle s c p [] [iRs1 w.toNat, iRs2 w.toNat]) ∧
    (∃ s c p, ∃ w : W32, (iMaj w.toNat = 0x23 ∧ iF4 w.toNat = 2 ∧ iT w.toNat = 3 ∧ iRs2 w.toNat = 0) ∧
      Cycle s c p [] [iRd w.toNat, iRs1 w.toNat]) :=
  ⟨⟨withSp vregs, 0, 0, wordV 0x21 3 1 2 1 4 15, by decide +kernel, issues_vregs _ _⟩,
   ⟨withSp vregs, 0, 0, wordV 0x22 7 1 2 1 5 5, by decide +kernel, issues_vregs _ _⟩,
   ⟨withSp vregs, 0, 0, wordV 0x23 31 1 0 1 3 2, by decide +kernel, issues_vregs _ _⟩⟩

theorem wit_vectorMoves :
    (∀ f, f < 2 → ∃ s c p, ∃ w : W32, (iT w.toNat = 5 ∧ iMaj w.toNat = 0x24 ∧ iF4 w.toNat = f) ∧
      Cycle s c p [] [iRd w.toNat, iRs1 w.toNat, iRs2 w.toNat]) ∧
    (∃ s c p, ∃ w : W32, (iT w.toNat = 3 ∧ iMaj w.toNat = 0x29 ∧ iF4 w.toNat = 0 ∧ iRs2 w.toNat = 0) ∧
      Cycle s c p [iRs1 w.toNat] [iRd w.toNat]) ∧
    (∃ s c p, ∃ w : W32, (iT w.toNat = 5 ∧ iMaj w.toNat = 0x29 ∧ iF4 w.toNat = 1 ∧ iPg w.toNat = 0) ∧
      Cycle s c p [iRd w.toNat, iRs2 w.toNat] [iRs1 w.toNat]) ∧
    (∃ s c p, ∃ w : W32, (iT w.toNat = 0 ∧ iMaj w.toNat = 0x29 ∧ iF4 w.toNat = 2 ∧ iPg w.toNat = 0) ∧
      Cycle s c p [iRs1 w.toNat, iRs2 w.toNat] [iRd w.toNat]) :=
  ⟨fun f h => ⟨withSp vregs, 0, 0, wordV 0x24 31 1 2 1 5 f, (by decide +kernel : ∀ f, f < 2 → iT (wordV 0x24 31 1 2 1 5 f).toNat = 5 ∧
      iMaj (wordV 0x24 31 1 2 1 5 f).toNat = 0x24 ∧ iF4 (wordV 0x24 31 1 2 1 5 f).toNat = f) f h, issues_vregs _ _⟩,
   ⟨withSp vregs, 0, 0, wordV 0x29 3 1 0 1 3 0, by decide +kernel, issues_vregs _ _⟩,
   ⟨withSp vregs, 0, 0, wordV 0x29 0 1 3 0 5 1, by decide +kernel, issues_vregs _ _⟩,
   ⟨withSp vregs, 0, 0, wordV 0x29 3 1 2 0 0 2, by decide +kernel, issues_vregs _ _⟩⟩

theorem wit_predicateInstructions :
    (∀ f, f < 4 → ∃ s c p, ∃ w : W32, (iMaj w.toNat = 0x2A ∧ iRs3 w.toNat = 0 ∧ iRd w.toNat = 7 ∧ iRs1 w.toNat = 1 ∧ iF w.toNat = f ∧
      iRs2 w.toNat = 0) ∧ Cycle s c p [] []) ∧
    (∃ s c p, ∃ w : W32, (iMaj w.toNat = 0x2A ∧ iRs3 w.toNat = 0 ∧ iF w.toNat = 4 ∧ iRd w.toNat = 0 ∧ iRs2 w.toNat = 0) ∧
      Cycle s c p [iRs1 w.toNat] []) ∧
    (∃ s c p, ∃ w : W32, (iMaj w.toNat = 0x2A ∧ iRs3 w.toNat = 0 ∧ iF w.toNat = 5 ∧ iRs1 w.toNat = 7 ∧ iRs2 w.toNat = 0) ∧
      Cycle s c p [iRd w.toNat] []) :=
  ⟨fun f h => ⟨withSp vregs, 0, 0, word 0x2A 7 1 0 0 f, (by decide +kernel : ∀ f, f < 4 → iMaj (word 0x2A 7 1 0 0 f).toNat = 0x2A ∧
      iRs3 (word 0x2A 7 1 0 0 f).toNat = 0 ∧ iRd (word 0x2A 7 1 0 0 f).toNat = 7 ∧ iRs1 (word 0x2A 7 1 0 0 f).toNat = 1 ∧
      iF (word 0x2A 7 1 0 0 f).toNat = f ∧ iRs2 (word 0x2A 7 1 0 0 f).toNat = 0) f h, issues_vregs _ _⟩,
   ⟨withSp vregs, 0, 0, word 0x2A 0 2 0 0 4, by decide +kernel, issues_vregs _ _⟩,
   ⟨withSp vregs, 0, 0, word 0x2A 31 7 0 0 5, by decide +kernel, issues_vregs _ _⟩⟩

/-- A word of VCVT: source and destination formats, RM, SAT and H (R153). -/
def wordCvt (rd rs1 src dst rm sat h : Nat) : W32 :=
  BitVec.ofNat 32 (0x25 + rd * 2 ^ 7 + rs1 * 2 ^ 12 + src * 2 ^ 17 + dst * 2 ^ 21 + rm * 2 ^ 25 + sat * 2 ^ 27 + h * 2 ^ 28)

/-- A narrowing conversion to the last part of vd, and a widening one from the last part of vs1. -/
theorem wit_vectorConversion :
    (∃ s c p, ∃ w : W32, (iMaj w.toNat = 0x25 ∧ cvtLegal w.toNat = true ∧ fmtBits (cvtDst w.toNat) < fmtBits (cvtSrc w.toNat) ∧
      cvtH w.toNat = 3) ∧ Cycle s c p [] [iRd w.toNat, iRs1 w.toNat]) ∧
    (∃ s c p, ∃ w : W32, (iMaj w.toNat = 0x25 ∧ cvtLegal w.toNat = true ∧ fmtBits (cvtSrc w.toNat) < fmtBits (cvtDst w.toNat) ∧
      cvtH w.toNat = 1) ∧ Cycle s c p [] [iRd w.toNat, iRs1 w.toNat]) :=
  ⟨⟨withSp vregs, 0, 0, wordCvt 3 1 14 4 0 1 3, by decide +kernel, issues_vregs _ _⟩,
   ⟨withSp vregs, 0, 0, wordCvt 3 1 13 14 0 0 1, by decide +kernel, issues_vregs _ _⟩⟩

/-- A word of VLD (st = 0) or VST (st = 1): predicate, lane width and offset in vectors (R154). -/
def wordVM (maj rd rs1 st pg e off : Nat) : W32 :=
  BitVec.ofNat 32 (maj + rd * 2 ^ 7 + rs1 * 2 ^ 12 + st * 2 ^ 17 + pg * 2 ^ 18 + e * 2 ^ 21 + off * 2 ^ 23)

/-- A word of VGATHER (st = 0) or VSCATTER (st = 1): element size and space (R154). -/
def wordGS (rd rs1 rs2 pg e st space : Nat) : W32 :=
  BitVec.ofNat 32 (0x28 + rd * 2 ^ 7 + rs1 * 2 ^ 12 + rs2 * 2 ^ 17 + pg * 2 ^ 22 + e * 2 ^ 25 + st * 2 ^ 27 + space * 2 ^ 28)

/-- The vector registers, with x1 at the last vector of scratchpad, and v2 the offsets 0, 4, 8, …, 28. -/
def vregsM : Sp := { vregs with
  x := [(1, 0x7FFF80)]
  v := [(2, BitVec.ofNat 1024 0x1c0000001800000014000000100000000c0000000800000004_00000000), (3, 77)] }

theorem issues_vregsM (xs vs : List Nat) : Cycle (withSp vregsM) 0 0 xs vs :=
  ⟨⟨by decide +kernel, fun r _ => by
    show (!false && r != 0 && List.any [] _ || List.any [] _) = false
    simp, fun r _ => by
    show (!true && r != 0 && List.any [] _ || List.any [] _) = false
    simp⟩, throttled_open (by decide +kernel)⟩

theorem wit_vectorMemory :
    (∃ s c p, ∃ w : W32, (s.memOk = true ∧ iMaj w.toNat = 0x26 ∧ vmLegal w.toNat = true ∧ bitB w.toNat 17 = false ∧
        ∀ k, k < 1024 / vmW w.toNat → laneOn ((s.sp c p).pr (vmPg w.toNat)) k = false) ∧ Cycle s c p [iRs1 w.toNat] [iRd w.toNat]) ∧
    (∃ s c p, ∃ w : W32, (s.memOk = true ∧ iMaj w.toNat = 0x27 ∧ vmLegal w.toNat = true ∧ bitB w.toNat 17 = true ∧
        ∀ k, k < 1024 / vmW w.toNat → laneOn ((s.sp c p).pr (vmPg w.toNat)) k = false) ∧ Cycle s c p [iRs1 w.toNat] [iRd w.toNat]) ∧
    (∃ s c p, ∃ w : W32, (s.memOk = true ∧ iMaj w.toNat = 0x26 ∧ vmLegal w.toNat = true ∧ bitB w.toNat 17 = false ∧
        (∃ k, k < 1024 / vmW w.toNat ∧ laneOn ((s.sp c p).pr (vmPg w.toNat)) k = true) ∧ vmSpace w.toNat = 0 ∧
        vmAddr (s.sp c p) w.toNat + 128 = accBase ∧ vmAddr (s.sp c p) w.toNat % 128 = 0 ∧
        s.moveBusy c p (vmSpace w.toNat) (vmAddr (s.sp c p) w.toNat) 128 = false ∧
        SMap.has (s.sp c p).vbuf (vbKey (vmSpace w.toNat) (vmAddr (s.sp c p) w.toNat)) = false) ∧
      Cycle s c p [iRs1 w.toNat] [iRd w.toNat]) ∧
    (∃ s c p, ∃ w : W32, (s.memOk = true ∧ iMaj w.toNat = 0x27 ∧ vmLegal w.toNat = true ∧ bitB w.toNat 17 = true ∧
        (∃ k, k < 1024 / vmW w.toNat ∧ laneOn ((s.sp c p).pr (vmPg w.toNat)) k = true) ∧ vmSpace w.toNat = 1 ∧
        vmAddr (s.sp c p) w.toNat + 128 ≤ s.variant.lEnd ∧ vmAddr (s.sp c p) w.toNat % 128 = 0 ∧
        s.moveBusy c p (vmSpace w.toNat) (vmAddr (s.sp c p) w.toNat) 128 = false) ∧ Cycle s c p [iRs1 w.toNat] [iRd w.toNat]) ∧
    (∃ s c p, ∃ w : W32, (s.memOk = true ∧ iMaj w.toNat = 0x28 ∧ gsLegal w.toNat = true ∧ bitB w.toNat 27 = false ∧ (s.sp c p).vbuf = [] ∧
        gsSpace w.toNat = 0 ∧ (gsElems (s.sp c p) w.toNat).length = 8 ∧ ∀ e ∈ gsElems (s.sp c p) w.toNat,
          e.2 + gsBytes w.toNat ≤ accBase ∧ e.2 % gsBytes w.toNat = 0 ∧ s.moveBusy c p (gsSpace w.toNat) e.2 (gsBytes w.toNat) = false) ∧
      Cycle s c p [iRs1 w.toNat] [iRd w.toNat, iRs2 w.toNat]) ∧
    (∃ s c p, ∃ w : W32, (s.memOk = true ∧ iMaj w.toNat = 0x28 ∧ gsLegal w.toNat = true ∧ bitB w.toNat 27 = true ∧
        gsSpace w.toNat = 1 ∧ gsBytes w.toNat = 2 ∧ ∀ e ∈ gsElems (s.sp c p) w.toNat,
          e.2 + gsBytes w.toNat ≤ s.variant.lEnd ∧ e.2 % gsBytes w.toNat = 0 ∧
          s.moveBusy c p (gsSpace w.toNat) e.2 (gsBytes w.toNat) = false) ∧
      Cycle s c p [iRs1 w.toNat] [iRd w.toNat, iRs2 w.toNat]) :=
  ⟨⟨withSp vregsM, 0, 0, wordVM 0x26 3 1 0 2 0 0, by decide +kernel, issues_vregsM _ _⟩,
   ⟨withSp vregsM, 0, 0, wordVM 0x27 3 1 1 2 2 0, by decide +kernel, issues_vregsM _ _⟩,
   ⟨withSp vregsM, 0, 0, wordVM 0x26 3 1 0 1 0 0, by decide +kernel, issues_vregsM _ _⟩,
   ⟨withSp vregsM, 0, 0, wordVM 0x27 3 1 1 0 1 0, by decide +kernel, issues_vregsM _ _⟩,
   ⟨withSp vregsM, 0, 0, wordGS 3 1 2 1 1 0 0, by decide +kernel, issues_vregsM _ _⟩,
   ⟨withSp vregsM, 0, 0, wordGS 3 1 2 1 0 1 1, by decide +kernel, issues_vregsM _ _⟩⟩

/-! ### Tile, gleaner, stook and remote instructions -/

/-- A tile descriptor without scales (R142). -/
def desc (space fmt rows cols stride base : Nat) : V128 :=
  BitVec.ofNat 128 (space + fmt * 2 ^ 2 + rows * 2 ^ 9 + cols * 2 ^ 18 + stride * 2 ^ 32 + base * 2 ^ 64)

/-- A 64-bit word: MAJ, SUB and the fields from bit 11 on (R155). -/
def long (maj sub rest : Nat) : W64 := BitVec.ofNat 64 (maj + sub * 2 ^ 7 + rest * 2 ^ 11)

/-- Tile registers 1 and 2 at a 2 by 32 tile of INT8 and one of INT32 in the scratchpad; x1 a descriptor's address. -/
def tregs : Sp := { x := [(1, 0x400), (2, 7)], t := [(1, desc 0 4 2 32 32 0x400), (2, desc 0 6 2 32 128 0x1000)] }

/-- Tile registers 1 and 2 in a core whose stream 0 has two rows unclaimed. -/
def tcore : Core := {
  sp0 := { tregs with run := true }
  icache := lines2
  gln := { s0 := { segs := [⟨0, 4, 32, 2, [[1], [2]], 2, 0, true⟩], promised := 2 } } }

theorem issues_t (xs vs : List Nat) : Issues (withSp tregs) 0 0 xs vs :=
  ⟨by decide +kernel, fun r _ => by
    show (!false && r != 0 && List.any [] _ || List.any [] _) = false
    simp, fun r _ => by
    show (!true && r != 0 && List.any [] _ || List.any [] _) = false
    simp⟩

theorem wit_tileIssue :
    (∃ s c p, ∃ w : W64, (bits w.toNat 12 11 = 3 ∧ (s.arr c 3).queue.length < 8 ∧ isTile w 0 = true ∧ bits w.toNat 63 19 = 0 ∧
      tdFault (tdOf ((s.sp c p).tr (bits w.toNat 17 14))) true
        ((tdOf ((s.sp c p).tr (bits w.toNat 17 14))).outside s.variant true) = none) ∧ Issues s c p [] []) ∧
    (∃ (s : State) (c p : Nat) (w : W64) (t : Td), t = tdOf ((s.sp c p).tr (bits w.toNat 20 17)) ∧ (isTile w 1 = true ∧
      bits w.toNat 63 38 = 0 ∧ bitB w.toNat 16 = false ∧ bits w.toNat 37 29 = 0 ∧
      tdFault t false (t.outside s.variant false || t.space == 1 || (t.space == 2 && !t.remote)) = none) ∧ Issues s c p [] []) ∧
    (∃ (s : State) (c p : Nat) (w : W64) (x : Stream), x = (s.core c).gln.stream (bits w.toNat 18 17) ∧ (isTile w 1 = true ∧
      bits w.toNat 63 38 = 0 ∧ bitB w.toNat 16 = true ∧ bits w.toNat 20 19 = 0 ∧ bits w.toNat 37 29 = 2 ∧ x.claim? 2 = some (4, 32)) ∧ Issues s c p [] []) ∧
    (∃ s c p, ∃ w : W64, (isTile w 2 = true ∧ bits w.toNat 63 18 = 0 ∧ bits w.toNat 13 13 = 0) ∧ Issues s c p [] []) ∧
    (∃ s c p, ∃ w : W64, (isTile w 3 = true ∧ bits w.toNat 63 16 = 0 ∧ bits w.toNat 13 13 = 0) ∧ Issues s c p [] []) ∧
    (∃ s c p, ∃ w : W64, (isTile w 4 = true ∧ bits w.toNat 63 23 = 0 ∧ (s.core c).mover.length < 8 ∧
      tdFault (tdOf ((s.sp c p).tr (bits w.toNat 14 11))) false false = none ∧
      tdFault (tdOf ((s.sp c p).tr (bits w.toNat 18 15))) false false = none) ∧ Issues s c p [] []) :=
  ⟨⟨withSp tregs, 0, 0, long 0x60 0 (3 + 4 + 1 * 8 + 1 * 128), by decide +kernel, issues_t _ _⟩,
   ⟨withSp tregs, 0, 0, long 0x60 1 (1 * 8 + 1 * 64 + 5 * 1024), _, rfl, by decide +kernel, issues_t _ _⟩,
   ⟨withCore tcore, 0, 0, long 0x60 1 (1 * 32 + 2 * 2 ^ 18), _, rfl, by decide +kernel, issues_of (by decide +kernel)⟩,
   ⟨withSp tregs, 0, 0, long 0x60 2 (3 * 8 + 2 ^ 6), by decide +kernel, issues_t _ _⟩,
   ⟨withSp tregs, 0, 0, long 0x60 3 (3 * 8), by decide +kernel, issues_t _ _⟩,
   ⟨withSp tregs, 0, 0, long 0x60 4 (1 + 2 * 16 + 2 ^ 11), by decide +kernel, issues_t _ _⟩⟩

/-- A core whose mover holds a move between the given tiles. -/
def moving (d t : V128) : State :=
  { withCore { sp0 := { run := true }, mover := [⟨0, 0, d, t, 0, false, false⟩], spad := [(0x400, 1), (0x401, 2), (0x420, 3)] } with
    mem := { loft := [(0x1000, 9)] } }

theorem wit_tileMover :
    (∃ (s : State) (c : Nat) (e : MoveEntry) (r : List MoveEntry), (s.core c).mover = e :: r ∧ (s.alive = true ∧ e.moveFault = true ∧
      (s.sp c e.sp).ended = false ∧ (s.sp c e.sp).pend.length < 4)) ∧
    (∃ (s : State) (c : Nat) (e : MoveEntry) (r : List MoveEntry), (s.core c).mover = e :: r ∧ (s.alive = true ∧ s.memOk = true ∧ e.moveFault = false ∧
      s.moveWaits c e = false ∧ (tdOf e.td).space = 1 ∧ (tdOf e.ts).space = 0 ∧ (tdOf e.td).fmt = (tdOf e.ts).fmt ∧ (tdOf e.td).scaled = false ∧
      rowBytes (tdOf e.td).fmt (tdOf e.td).cols ≤ (tdOf e.td).stride) ∧
      ∀ i, i < (tdOf e.td).rows → (tdOf e.td).base + i * (tdOf e.td).stride + rowBytes (tdOf e.td).fmt (tdOf e.td).cols ≤ s.variant.lEnd ∧
        (tdOf e.ts).base + i * (tdOf e.ts).stride + rowBytes (tdOf e.td).fmt (tdOf e.td).cols ≤ accBase) :=
  ⟨⟨moving (desc 0 4 2 32 32 0x400) (desc 0 4 3 32 32 0x800), 0, _, [], rfl, by decide +kernel⟩,
   ⟨moving (desc 1 4 2 32 32 0x1000) (desc 0 4 2 32 32 0x400), 0, _, [], rfl, by decide +kernel, by decide +kernel⟩⟩

theorem wit_gleanerIssue :
    (∀ op, op < 7 → ∃ s c p, ∃ w : W64, (iMaj w.toNat = 0x61 ∧ iSub w.toNat = op ∧ bits w.toNat 63 16 = 0 ∧
      ((s.sp c p).xr (bits w.toNat 15 11)).toNat < accBase ∧ ((s.sp c p).xr (bits w.toNat 15 11)).toNat % 64 = 0 ∧
      (s.core c).gln.queue.length < 16) ∧ Issues s c p [bits w.toNat 15 11] []) ∧
    (∃ s c p, ∃ w : W64, (iMaj w.toNat = 0x61 ∧ iSub w.toNat = 15 ∧ bits w.toNat 63 11 = 0 ∧
      (s.core c).gln.queue.any (fun e => e.cmd.isNone && e.sp == p) = false) ∧ Issues s c p [] []) ∧
    (∃ s c p, ∃ w : W64, (iMaj w.toNat = 0x61 ∧ iSub w.toNat = 15 ∧ bits w.toNat 63 11 = 0 ∧
      (s.core c).gln.queue.any (fun e => e.cmd.isNone && e.sp == p) = true) ∧ Issues s c p [] []) :=
  ⟨fun op h => ⟨withSp tregs, 0, 0, long 0x61 op 1, (by decide +kernel : ∀ op, op < 7 → iMaj (long 0x61 op 1).toNat = 0x61 ∧
      iSub (long 0x61 op 1).toNat = op ∧ bits (long 0x61 op 1).toNat 63 16 = 0 ∧
      (((withSp tregs).sp 0 0).xr (bits (long 0x61 op 1).toNat 15 11)).toNat < accBase ∧
      (((withSp tregs).sp 0 0).xr (bits (long 0x61 op 1).toNat 15 11)).toNat % 64 = 0 ∧
      ((withSp tregs).core 0).gln.queue.length < 16) op h, issues_t _ _⟩,
   ⟨withSp tregs, 0, 0, long 0x61 15 0, by decide +kernel, issues_t _ _⟩,
   ⟨withCore { sp0 := { run := true }, icache := lines2, gln := { queue := [⟨0, 0, [], 0, 0x400, 0, none, 0, false, 0, none, [], none, false, false, []⟩] } }, 0, 0,
     long 0x61 15 0, by decide +kernel, issues_of (by decide +kernel)⟩⟩

/-- Core 0's stook, enabled over array 0, with key 5 bound to key entry 63 at a 32 by 32 tile of INT8. -/
def stooked (u : Sp) : State :=
  let s := (withSp u).wrs .STOOK_CTL 0 0 0 [(STOOK_CTL.EN, 1), (STOOK_CTL.ARRAYS, 1)]
  let s := s.wrs .STOOK_KEY_CFG 0 63 0 [(STOOK_KEY_CFG.VALID, 1), (STOOK_KEY_CFG.KEY, 5), (STOOK_KEY_CFG.AFMT, 4), (STOOK_KEY_CFG.OFMT, 6)]
  (s.setReg .STOOK_KEY_BLO 0 63 0 (BitVec.ofNat 64 (desc 0 4 32 32 32 0x400).toNat)).setReg .STOOK_KEY_BHI 0 63 0 0x400

/-- Window operations may be sent; x1 a window address, x2 data. -/
def windowed : State :=
  (withSp { x := [(1, 0x8000000000400000), (2, 7)], v := [(2, 9)] }).wrs .WIN_GUARD 0 0 0 [(WIN_GUARD.EN, 1)]

/-- An RSTF held behind an earlier write of its source, failed or not. -/
def rstf (st : Option Nat) : State :=
  let o : RemOp := { remOp 3 8 2 with stage := 2, entry := 5, failSt := st }
  { windowed with win := { ops := [o] } }

theorem wit_stookPutAndRemote :
    (∃ (s : State) (c p : Nat) (w : W64) (a d : Td) (n : Nat) (r : StReq),
        a = tdOf ((s.sp c p).tr (bits w.toNat 24 21)) ∧ d = tdOf ((s.sp c p).tr (bits w.toNat 28 25)) ∧
        r = ⟨a.rows, a.space, a.base, a.stride, d.space, d.base, d.stride, none, p, bits ((s.sp c p).xr (bits w.toNat 20 16)).toNat 15 0⟩ ∧
        (iMaj w.toNat = 0x62 ∧ iSub w.toNat = 0 ∧ bits w.toNat 63 29 = 0 ∧ putFault a = none ∧ putFault d = none ∧ (s.core c).stook.pending < 256 ∧
        s.keyIdx c (bits ((s.sp c p).xr (bits w.toNat 15 11)).toNat 31 0) = some n ∧
        s.rdB STOOK_CTL.EN c = true ∧ s.rd STOOK_CTL.ARRAYS c ≠ 0 ∧ s.reqBad c n r = false ∧ a.rows ≠ 0 ∧
        reqRows (s.stKey c n).batch + a.rows < 256) ∧ Issues s c p [bits w.toNat 15 11, bits w.toNat 20 16] []) ∧
    (∀ kind, kind < 4 → ∃ s c p, ∃ w : W64, ∃ a, (iMaj w.toNat = 0x63 ∧ iSub w.toNat = kind ∧ rmLegal kind w.toNat = true ∧
        a = addOff ((s.sp c p).xr (bits w.toNat 20 16)) (sext 24 (bits w.toNat 49 26)) ∧ bitB a 63 = true ∧ a % rmSize w.toNat = 0 ∧
        bits w.toNat 22 21 = 2 ∧ s.remUsed c < 128 ∧ bits a 62 46 = 0 ∧ s.rdB WIN_GUARD.EN = true ∧
        (s.wcache (srcBdie c)).find? (fun x => x.1 == winPage a) = none ∧ c < s.variant.cores ∧ s.win.ops = []) ∧
      Issues s c p [bits w.toNat 20 16] [bits w.toNat 15 11]) ∧
    (∃ (s : State) (id st : Nat) (o : RemOp), s.remOp id = some o ∧ (o.kind = 3 ∧ o.stage ≠ 3 ∧ o.failSt = some st ∧ o.cmd = none ∧ o.gln = none ∧
      (s.sp o.srcid o.sp).ended = false ∧ (s.sp o.srcid o.sp).pend.length < 4)) ∧
    (∃ (s : State) (id : Nat) (o : RemOp), s.remOp id = some o ∧ (o.kind = 3 ∧ o.stage ≠ 3 ∧ o.failSt = none ∧
      (before id o.srcid s.win.ops).any (·.writes) = false ∧ s.maySend o = true)) :=
  ⟨⟨stooked { tregs with x := [(1, 5), (2, 0x10007)] }, 0, 0, long 0x62 0 (1 + 2 * 32 + 1 * 2 ^ 10 + 2 * 2 ^ 14), _, _, 63, _, rfl, rfl, rfl, by decide +kernel,
     issues_of (by decide +kernel)⟩,
   fun kind h => ⟨windowed, 0, 0, long 0x63 kind (2 + 1 * 32 + 2 * 2 ^ 10), 0x8000000000400000,
     (by decide +kernel : ∀ kind, kind < 4 → iMaj (long 0x63 kind (2 + 1 * 32 + 2 * 2 ^ 10)).toNat = 0x63 ∧
       iSub (long 0x63 kind (2 + 1 * 32 + 2 * 2 ^ 10)).toNat = kind ∧ rmLegal kind (long 0x63 kind (2 + 1 * 32 + 2 * 2 ^ 10)).toNat = true ∧
       0x8000000000400000 = addOff ((windowed.sp 0 0).xr (bits (long 0x63 kind (2 + 1 * 32 + 2 * 2 ^ 10)).toNat 20 16))
         (sext 24 (bits (long 0x63 kind (2 + 1 * 32 + 2 * 2 ^ 10)).toNat 49 26)) ∧ bitB 0x8000000000400000 63 = true ∧
       0x8000000000400000 % rmSize (long 0x63 kind (2 + 1 * 32 + 2 * 2 ^ 10)).toNat = 0 ∧
       bits (long 0x63 kind (2 + 1 * 32 + 2 * 2 ^ 10)).toNat 22 21 = 2 ∧ windowed.remUsed 0 < 128 ∧ bits 0x8000000000400000 62 46 = 0 ∧
       windowed.rdB WIN_GUARD.EN = true ∧ (windowed.wcache (srcBdie 0)).find? (fun x => x.1 == winPage 0x8000000000400000) = none ∧
       0 < windowed.variant.cores ∧ windowed.win.ops = []) kind h,
     ⟨by decide +kernel, fun r _ => by
       show (!false && r != 0 && List.any [] _ || List.any [] _) = false
       simp, fun r _ => by
       show (!true && r != 0 && List.any [] _ || List.any [] _) = false
       simp⟩⟩,
   ⟨rstf (some 0x10), 3, 0x10, _, rfl, by decide +kernel⟩, ⟨rstf none, 3, _, rfl, by decide +kernel⟩⟩

/-! ### Matrix arrays and accumulation groups -/

/-- A pass of processor 0 into group 3 from row 254 on, of one row of two INT8 codes. -/
def req1 : PassReq := { slot := 0, grp := 3, r0 := 254, m := 1, fmt := 4, ka := 2, scaled := false, src := .tile (desc 0 4 1 2 32 0x400) false }

/-- A 2 by 2 tile of INT8. -/
def tile1 : Tile := ⟨4, 2, 2, false, [[1, 2], [3, 0xFE]], []⟩

/-- A core whose array 3 is this one, with some bytes in the scratchpad. -/
def withArr (a : Arr) : State := withCore { sp0 := { run := true }, arr3 := a, spad := [(0x400, 1), (0x401, 2), (0x420, 0xFF)], acc := [(0xF0001, 5)] }

/-- A pass of one row over. -/
def passed1 : Arr := { slot0 := some tile1, passes := [⟨0, 0, req1, [[5, 0xFF]], [[]]⟩], g3 := .int }

theorem wit_tileQueues :
    (∃ (s : State) (c a : Nat) (e : TileEntry) (r : List TileEntry), (s.arr c a).queue = e :: r ∧ (c < s.variant.cores ∧ s.alive = true ∧ a < 4 ∧
      e.checked = false ∧ tileCause (s.owned c a) (s.arr c a) e = 0)) ∧
    (∃ (s : State) (c a : Nat) (e : TileEntry) (r : List TileEntry) (k : Nat), (s.arr c a).queue = e :: r ∧ (c < s.variant.cores ∧ s.alive = true ∧ a < 4 ∧
      e.checked = false ∧ tileCause (s.owned c a) (s.arr c a) e = k ∧ k ≠ 0 ∧ s.rdB ARR_ERR.VALID c a = false ∧ e.sp < 2 ∧
      (s.sp c e.sp).ended = false ∧ (s.sp c e.sp).pend.length < 4)) ∧
    (∃ (s : State) (c a : Nat) (e : TileEntry) (r : List TileEntry) (q : PassReq), (s.arr c a).queue = e :: r ∧ (c < s.variant.cores ∧ s.alive = true ∧ a < 4 ∧
      e.op = .pass q ∧ e.checked = true ∧ s.mayStart c a e.sp e.ord q = true)) ∧
    (∃ (s : State) (c a : Nat) (x : Pass) (n st : Nat) (row : List Nat), (s.arr c a).passes.find? (fun x => !x.entered) = some x ∧
      (c < s.variant.cores ∧ s.alive = true ∧ a < 4 ∧ x.req.src = .stream n st ∧ ((s.core c).gln.stream n).row (st + x.rows.length) = some row ∧
      (s.throttled c).1 = false)) ∧
    (∃ (s : State) (c a : Nat) (x : Pass) (d : V128), (s.arr c a).passes.find? (fun x => !x.entered) = some x ∧
      (c < s.variant.cores ∧ s.alive = true ∧ a < 4 ∧ x.req.src = .tile d false ∧ (tdOf d).scaled = false ∧
      (tdOf d).base + x.rows.length * (tdOf d).stride + rowBytes (tdOf d).fmt (tdOf d).cols ≤ accBase ∧ (s.throttled c).1 = false)) ∧
    (∃ (s : State) (c a : Nat) (x : Pass), (s.arr c a).passes.find? (fun x => !x.entered) = some x ∧
      (c < s.variant.cores ∧ s.alive = true ∧ a < 4 ∧ s.rowReady c x.req x.rows.length = true) ∧ (s.throttled c).1 = true) :=
  ⟨⟨withArr { queue := [⟨0, 0, .opn 3 false false, false⟩] }, 0, 3, ⟨0, 0, .opn 3 false false, false⟩, [], rfl, by decide +kernel⟩,
   ⟨withArr { queue := [⟨1, 0, .pass req1, false⟩] }, 0, 3, ⟨1, 0, .pass req1, false⟩, [], _, rfl, by decide +kernel, rfl, by decide, rfl, rfl,
     by decide +kernel⟩,
   ⟨withArr { slot0 := some tile1, g3 := .int, queue := [⟨0, 0, .pass req1, true⟩] }, 0, 3, ⟨0, 0, .pass req1, true⟩, [], req1, rfl,
     by decide +kernel⟩,
   ⟨withCore { tcore with arr3 := { passes := [⟨0, 0, { req1 with m := 2, src := .stream 0 0 }, [[1]], [[]]⟩] } }, 0, 3,
     ⟨0, 0, { req1 with m := 2, src := .stream 0 0 }, [[1]], [[]]⟩, 0, 0, [2], rfl, by decide +kernel⟩,
   ⟨withArr { passes := [⟨0, 0, req1, [], []⟩] }, 0, 3, ⟨0, 0, req1, [], []⟩, desc 0 4 1 2 32 0x400, rfl, by decide +kernel⟩,
   ⟨slowed (withArr { passes := [⟨0, 0, req1, [], []⟩] }), 0, 3, ⟨0, 0, req1, [], []⟩, rfl, by decide +kernel, throttled_shut (by decide +kernel)⟩⟩

theorem wit_passResults : ∃ (s : State) (c a g : Nat) (x : Pass) (t0 : Tile), s.memOk = true ∧ a < 4 ∧ s.alive = true ∧ g < 4 ∧
    (s.arr c a).passes.find? (fun y => y.req.grp == g && y.sp != 2) = some x ∧ x.entered = true ∧
    (s.arr c a).slot x.req.slot = some t0 ∧ t0.n ≤ 256 ∧ x.req.r0 + x.req.m ≤ 256 :=
  ⟨withArr passed1, 0, 3, 3, ⟨0, 0, req1, [[5, 0xFF]], [[]]⟩, tile1, by decide +kernel⟩

/-- At the limits of INT32. -/
theorem wit_integerAccumulation : ∃ (t : Tile) (f : Nat) (row old : List Nat) (j : Nat), fmtInt f = true ∧ fmtInt t.fmt = true ∧
    row.length = t.rows.length ∧ j < old.length ∧
    (2 : Int) ^ 31 = sext 32 (nth old 0 j) + (List.zipWith (fun x r => intVal f x * intVal t.fmt (nth r 0 j)) row t.rows).sum :=
  ⟨tile1, 4, [1, 0], [0x7FFFFFFF, 0], 0, by decide +kernel⟩

theorem wit_slotLoads :
    (∃ (s : State) (c a : Nat) (l : LoadEntry) (r : List LoadEntry), a < 4 ∧ s.alive = true ∧ (s.arr c a).loads = l :: r ∧ l.started = false ∧
      (s.arr c a).passes.any (fun q => q.req.slot == l.slot) = false ∧
      (s.arr c a).clears.any (fun e => e.1 == l.slot && e.2 ≤ l.ord) = false) ∧
    (∃ (s : State) (c a : Nat) (l : LoadEntry) (r : List LoadEntry), (a < 4 ∧ s.alive = true ∧ (s.arr c a).loads = l :: r ∧ l.started = true ∧
      (tdOf l.desc).space = 0 ∧ (tdOf l.desc).scaled = false) ∧ ∀ i, i < (tdOf l.desc).rows →
      (tdOf l.desc).base + i * (tdOf l.desc).stride + rowBytes (tdOf l.desc).fmt (tdOf l.desc).cols ≤ accBase) :=
  ⟨⟨withArr { loads := [⟨0, 1, 0, desc 0 4 2 2 32 0x400, false, false⟩], clears := [(0, 2), (1, 0)] }, 0, 3,
     ⟨0, 1, 0, desc 0 4 2 2 32 0x400, false, false⟩, [], by decide +kernel⟩,
   ⟨withArr { loads := [⟨0, 1, 1, desc 0 4 2 2 32 0x400, false, true⟩] }, 0, 3, ⟨0, 1, 1, desc 0 4 2 2 32 0x400, false, true⟩, [],
     by decide +kernel, by decide +kernel⟩⟩

theorem wit_groupAndSlotState :
    (∃ (s : State) (c a g : Nat) (e : GroupEff), a < 4 ∧ s.alive = true ∧ g < 4 ∧ (s.arr c a).effs.find? (fun e => e.g == g) = some e ∧
      (s.arr c a).inFlight g = false ∧ e.opn = true ∧ e.zero = true) ∧
    (∃ (s : State) (c a : Nat) (v : W64), a < 4 ∧ s.live = true ∧ s.coreShut c = false ∧ bitB v.toNat 0 = true ∧ bitB v.toNat 1 = false ∧
      (s.arr c a).clearWaits 0 (s.core c).seq = true) ∧
    (∃ (s : State) (c a : Nat) (v : W64), a < 4 ∧ s.live = true ∧ s.coreShut c = false ∧ bitB v.toNat 0 = true ∧ bitB v.toNat 1 = false ∧
      (s.arr c a).clearWaits 0 (s.core c).seq = false) ∧
    (∃ (s : State) (c a n : Nat) (e : Nat × Nat), a < 4 ∧ s.alive = true ∧ (s.arr c a).clears.find? (fun e => e.1 == n) = some e ∧
      (s.arr c a).clearWaits n e.2 = false) ∧
    (∃ (s : State) (c a g : Nat), a < 4 ∧ s.live = true ∧ s.coreShut c = false ∧ g < 4 ∧ (s.arr c a).inFlight g = true) ∧
    (∃ (s : State) (c a g : Nat), a < 4 ∧ s.live = true ∧ s.coreShut c = false ∧ g < 4 ∧ (s.arr c a).inFlight g = false) :=
  ⟨⟨withArr { effs := [⟨0, 3, true, false, true⟩] }, 0, 3, 3, ⟨0, 3, true, false, true⟩, by decide +kernel⟩,
   ⟨(withArr passed1).modCore 0 (fun k => { k with seq := 1 }), 0, 3, 5, by decide +kernel⟩, ⟨withArr {}, 0, 3, 1, by decide +kernel⟩,
   ⟨withArr { clears := [(1, 0)], slot1 := some tile1 }, 0, 3, 1, (1, 0), by decide +kernel⟩,
   ⟨withArr passed1, 0, 3, 3, by decide +kernel⟩, ⟨withArr passed1, 0, 3, 2, by decide +kernel⟩⟩

/-- A processor that waits with a load from the last accumulator word, and one with an imprecise exception pending. -/
def accWaiting : State := (withSp { x := [(1, 0xBFFFFC)], accWait := some (word 0x10 4 1 2 0 0) }).modCore 0 (fun k => { k with acc := [(0xFFFFF, 9)] })

/-- See `accWaiting`. -/
def excPending : State := ((withSp { pc := 0x40, pend := [⟨6, 3, 2, 1⟩] }).wr CORE_CTL.EXC_EN 1 0).wr CORE_VEC.ADDR 0x40 0

/-- A core whose kernel is over. -/
def kernelDone : State :=
  { withCore { sp0 := { started := true, ended := true }, kernel := some ⟨7, 0, 1, none⟩ } with
    que := { cmds := [⟨7, 0, 0, [], false, [0], [], none, false⟩] } }

theorem wit_coreEvents :
    (∃ (s : State) (c p : Nat) (w : W32) (k : Nat), c < s.variant.cores ∧ s.alive = true ∧ p < 2 ∧ s.memOk = true ∧ (s.sp c p).accWait = some w ∧
      iMaj w.toNat = 0x10 ∧ mSize w.toNat = 4 ∧ mAddr (s.sp c p) w.toNat = accBase + 4 * k ∧ k < 0x100000 ∧
      s.accBusy c (some p) (accBase + 4 * k) 4 = false ∧ s.owned c (k / 0x40000) = false) ∧
    (∃ (s : State) (c p : Nat) (e : ImpExc) (r : List ImpExc), c < s.variant.cores ∧ s.alive = true ∧ p < 2 ∧ (s.sp c p).pend = e :: r ∧
      (s.sp c p).run = true ∧ (s.sp c p).super = false ∧ (s.sp c p).accWait = none ∧ s.rdB CORE_CTL.EXC_EN c = true ∧ e.cause < 256) ∧
    (∃ (s : State) (c : Nat) (k : Kernel), c < s.variant.cores ∧ s.alive = true ∧ (s.core c).kernel = some k ∧ s.kernelOver c k = true ∧
      s.rdB WNW_CFG.EN = false) ∧
    (∀ due : Bool, ∃ (s : State) (c : Nat) (k : Kernel), c < s.variant.cores ∧ s.alive = true ∧ (s.core c).kernel = some k ∧ s.kernelOver c k = true ∧
      s.rdB WNW_CFG.EN = true ∧ s.coreDue c = due ∧ (s.wnwOf c).forced = false ∧ s.wnwTaken c = false) ∧
    (∃ (s : State) (c : Nat) (k : Kernel), c < s.variant.cores ∧ s.alive = true ∧ (s.core c).kernel = some k ∧ s.kernelOver c k = true ∧
      s.rdB WNW_CFG.EN = true ∧ (s.wnwOf c).forced = true ∧ s.wnwTaken c = false) := by
  refine
    ⟨⟨accWaiting, 0, 0, word 0x10 4 1 2 0 0, 0xFFFFF, by decide +kernel⟩,
   ⟨excPending, 0, 0, ⟨6, 3, 2, 1⟩, [], by decide +kernel⟩,
   ⟨kernelDone.wr WNW_CFG.EN 0, 0, ⟨7, 0, 1, none⟩, by decide +kernel⟩, fun due => ?_,
   ⟨{ kernelDone with wnw := [(0, { forced := true })] }.wr WNW_CFG.EN 1, 0, ⟨7, 0, 1, none⟩, by decide +kernel⟩⟩
  cases due
  · exact ⟨({ kernelDone with jobNs := 49999999999 }.wr WNW_CFG.EN 1).wrs .GLB_DIEMAP 0 0 0 [(GLB_DIEMAP.PRESENT, 1), (GLB_DIEMAP.RELEASED, 1)], 0,
      ⟨7, 0, 1, none⟩, by decide +kernel⟩
  · exact ⟨({ kernelDone with jobNs := 50000000000 }.wr WNW_CFG.EN 1).wrs .GLB_DIEMAP 0 0 0 [(GLB_DIEMAP.PRESENT, 1), (GLB_DIEMAP.RELEASED, 1)], 0,
      ⟨7, 0, 1, none⟩, by decide +kernel⟩

/-! ### Stook -/

/-- A request of two rows from 0x800 on to loft 0x1000 that signals event 0xFFFF. -/
def st2 : StReq := ⟨2, 0, 0x800, 32, 1, 0x1000, 128, none, 1, 0xFFFF⟩

/-- A core whose stook is like this one, over array 0 whose slot 0 holds a tile. -/
def withStook (k : Stook) (l : List Pass) : State :=
  (stooked {}).modCore 0 (fun x => { x with stook := k, seq := 7, arr0 := { slot0 := some tile1, g0 := .int, passes := l } })

/-- A half in this stage, whose pass is in the array. -/
def half1 (st : Nat) : StHalf := ⟨6, ⟨63, [st2]⟩, 0, 0, 0, st, [1], []⟩

/-- A stook's pass, its rows entered. -/
def stPass : Pass := ⟨2, 6, ⟨0, 0, 0, 2, 4, 2, false, .stook 0⟩, [[1, 2], [3, 4]], [[], []]⟩

theorem wit_stookBatches :
    (∃ s : State, ∃ c, c < s.variant.cores ∧ s.alive = true ∧ s.timeAt (coreTime c) % 50 = 0 ∧ (s.stKey c 63).batch ≠ [] ∧
      (s.stKey c 63).expiry = s.timeAt (coreTime c)) ∧
    (∃ (s : State) (c : Nat) (b : StBatch) (r : List StBatch) (k g : Nat), c < s.variant.cores ∧ s.alive = true ∧ (s.core c).stook.sealed = b :: r ∧
      (s.core c).stook.h0 = none ∧ (s.stKey c b.key).res = some k ∧ s.pickGroup c (k / 2) = some g ∧
      (s.arr c (k / 2)).stookWaits (k % 2) g false = false ∧ k < 8 ∧ b.key < 64 ∧ ∀ x ∈ batchRows b.reqs, x.1 ≤ 1) ∧
    (∀ st, st = 1 ∨ st = 3 → ∃ (s : State) (c h : Nat) (b : StHalf) (q : Pass) (t0 : Tile), c < s.variant.cores ∧ s.alive = true ∧ h < 2 ∧
      (s.core c).stook.half h = some b ∧ (s.arr c b.arr).passes.find? (fun q => q.sp == 2 && q.req.grp == b.grp) = some q ∧
      q.entered = true ∧ (s.arr c b.arr).slot b.slot = some t0 ∧ b.stage = st) ∧
    (∃ (s : State) (c h : Nat) (b : StHalf), c < s.variant.cores ∧ s.alive = true ∧ h < 2 ∧ (s.core c).stook.half h = some b ∧ b.stage = 2 ∧
      ((s.core c).stook.half (1 - h)).any (fun x => x.batch.key == b.batch.key && x.ord < b.ord) = false ∧
      ∀ r ∈ b.batch.reqs, r.cmd = none ∧ r.event < 65536 ∧ r.dspace ≤ 1) := by
  refine ⟨⟨withStook { keys := [(63, { batch := [st2], expiry := 0 })] } [], 0, by decide +kernel⟩,
    ⟨withStook { keys := [(63, { res := some 0 })], sealed := [⟨63, [st2]⟩] } [], 0, ⟨63, [st2]⟩, [], 0, 0, by decide +kernel⟩,
    fun st h => ?_, ⟨withStook { h0 := some (half1 2), h1 := some { half1 2 with ord := 7 } } [], 0, 0, half1 2, by decide +kernel⟩⟩
  rcases h with rfl | rfl
  · exact ⟨withStook { h0 := some (half1 1) } [stPass], 0, 0, half1 1, stPass, tile1, by decide +kernel⟩
  · exact ⟨withStook { h0 := some (half1 3) } [stPass], 0, 0, half1 3, stPass, tile1, by decide +kernel⟩

/-- A stook with rows open under key entry 63, which is bound and resident. -/
def rowsOpen : State := withStook { keys := [(63, { batch := [st2], expiry := 9, res := some 0 })] } []

theorem wit_stookRegisters :
    (∃ (s : State) (c : Nat) (v : W64), c < s.variant.cores ∧ s.live = true ∧ s.coreShut c = false ∧ bitB v.toNat 5 = true ∧ bitB v.toNat 6 = false ∧
      bits v.toNat 4 1 = s.rd STOOK_CTL.ARRAYS c) ∧
    (∃ (s : State) (c : Nat) (v : W64), c < s.variant.cores ∧ s.live = true ∧ s.coreShut c = false ∧ bitB v.toNat 6 = true) ∧
    (∃ (s : State) (c : Nat) (v : W64), c < s.variant.cores ∧ s.live = true ∧ s.coreShut c = false ∧ bitB v.toNat 5 = false ∧ bitB v.toNat 6 = false ∧
      (s.core c).stook.pending = 0 ∧ bits v.toNat 0 0 = 0) ∧
    (∃ (s : State) (c : Nat) (v : W64), c < s.variant.cores ∧ s.live = true ∧ s.coreShut c = false ∧ bitB v.toNat 5 = false ∧ bitB v.toNat 6 = false ∧
      bits v.toNat 0 0 = 1 ∧ s.rd STOOK_CTL.EN c = 1 ∧ bits v.toNat 4 1 ≠ s.rd STOOK_CTL.ARRAYS c) ∧
    (∃ (s : State) (c : Nat), c < s.variant.cores ∧ s.live = true ∧ s.coreShut c = false ∧ s.rd STOOK_CTL.EN c = 0) ∧ (∃ (s : State) (c : Nat), c < s.variant.cores ∧ s.live = true ∧ s.coreShut c = false ∧ s.rd STOOK_CTL.EN c = 1) ∧
    (∃ (s : State) (c n : Nat) (v : W64), c < s.variant.cores ∧ s.live = true ∧ s.coreShut c = false ∧ n < 64 ∧ bits v.toNat 32 32 = 1 ∧ s.keyValid c n = false ∧
      (s.stKey c n).unbinding = false ∧ s.bindOk c n v = true) ∧
    (∃ (s : State) (c n : Nat) (v : W64), c < s.variant.cores ∧ s.live = true ∧ s.coreShut c = false ∧ n < 64 ∧ bits v.toNat 32 32 = 1 ∧ s.keyValid c n = false ∧
      (s.stKey c n).unbinding = false ∧ s.bindOk c n v = false) ∧
    (∃ (s : State) (c n : Nat) (v : W64), c < s.variant.cores ∧ s.live = true ∧ s.coreShut c = false ∧ n < 64 ∧ bits v.toNat 31 0 = s.rd STOOK_KEY_CFG.KEY c n ∧
      bits v.toNat 32 32 = 0 ∧ bits v.toNat 36 33 = s.rd STOOK_KEY_CFG.AFMT c n ∧ bits v.toNat 45 37 = s.rd STOOK_KEY_CFG.DEADLINE c n ∧
      bits v.toNat 49 46 = s.rd STOOK_KEY_CFG.OFMT c n ∧ s.keyValid c n = true ∧ (s.stKey c n).unbinding = false ∧ (s.stKey c n).batch ≠ []) ∧
    (∃ (s : State) (c n : Nat), c < s.variant.cores ∧ s.live = true ∧ s.coreShut c = false ∧ n < 64 ∧ s.keyValid c n = false ∧ (s.stKey c n).unbinding = false) ∧
    (∃ (s : State) (c n : Nat) (v : W64), c < s.variant.cores ∧ s.live = true ∧ s.coreShut c = false ∧ n < 64 ∧ s.keyValid c n = true ∧ v ≠ s.reg .STOOK_KEY_BLO c n 0) :=
  ⟨⟨rowsOpen, 0, 0x23, by decide +kernel⟩, ⟨rowsOpen, 0, 0x40, by decide +kernel⟩, ⟨stooked {}, 0, 0x1E, by decide +kernel⟩,
   ⟨rowsOpen, 0, 5, by decide +kernel⟩, ⟨idle, 0, by decide +kernel⟩, ⟨rowsOpen, 0, by decide +kernel⟩,
   ⟨(((stooked {}).setReg .STOOK_KEY_BLO 0 0 0 (BitVec.ofNat 64 (desc 0 4 32 32 32 0x400).toNat)).setReg .STOOK_KEY_BHI 0 0 0 0x400), 0, 0,
     BitVec.ofNat 64 (6 + 2 ^ 32 + 4 * 2 ^ 33 + 500 * 2 ^ 37 + 6 * 2 ^ 46), by decide +kernel⟩,
   ⟨(((stooked {}).setReg .STOOK_KEY_BLO 0 0 0 (BitVec.ofNat 64 (desc 0 4 32 32 32 0x400).toNat)).setReg .STOOK_KEY_BHI 0 0 0 0x400), 0, 0,
     BitVec.ofNat 64 (6 + 2 ^ 32 + 4 * 2 ^ 33 + 501 * 2 ^ 37 + 6 * 2 ^ 46), by decide +kernel⟩,
   ⟨rowsOpen, 0, 63, BitVec.ofNat 64 (5 + 4 * 2 ^ 33 + 6 * 2 ^ 46), by decide +kernel⟩,
   ⟨rowsOpen, 0, 0, by decide +kernel⟩, ⟨rowsOpen, 0, 63, 0, by decide +kernel⟩⟩

/-! ### Gleaner -/

/-- Descriptor of a GATHER of `n` rows of 32 INT8 codes out of a scratchpad table of `rows` rows; bit 18 of `x` sends it to stream 0. -/
def gath (n rows x : Nat) : List W64 :=
  [BitVec.ofNat 64 (4 * 16 + 4 * 256 + x), 0x1000, 0x400, 0, 0x2000, BitVec.ofNat 64 n,
    BitVec.ofNat 64 (32 + 32 * 2 ^ 24 + 32 * 2 ^ 33), BitVec.ofNat 64 rows]

/-- An entry of processor 1's, running or not, with some rows placed. -/
def glnE (d : List W64) (run : Bool) (k : Nat) (full : Option Nat) : GlnEntry :=
  ⟨0, 0, d, 0, 0x800, 1, none, 0, run, k, full, [], none, false, false, []⟩

/-- A SCATADD of one row of 32 INT32 words to the rack window, all sent, in which a remote add ended with status `r` and 256 × its row. -/
def scatE (r : Option Nat) : GlnEntry :=
  ⟨0, 2, [BitVec.ofNat 64 (2 + 6 * 16 + 6 * 256 + 2 * 2 ^ 12), BitVec.ofNat 64 (2 ^ 63), 0x400, 0, 0x2000, 1,
    BitVec.ofNat 64 (128 + 32 * 2 ^ 24 + 128 * 2 ^ 33), 4], 0, 0x800, 1, none, 0, true, 1, none, [], r, false, true, []⟩

/-- A core whose gleaner holds this entry, with rows of stream 0 buffered. -/
def withGln (e : GlnEntry) (rows : List (List Nat)) : State :=
  let q : Gln := {
    queue := [e]
    nextId := 1
    s0 := { segs := [⟨0, 4, 32, 40, rows, rows.length, 0, false⟩], promised := 40 }
    rc := [⟨5, false, 1⟩] }
  { (withCore { gln := q }).wrs .GLN_CFG 0 0 0 [(GLN_CFG.STALL, 3)] with now := 3001 }

theorem wit_gleanerEvents :
    (∃ (s : State) (c : Nat) (perr : List Nat) (e : GlnEntry) (u : State), u = (s.modGln c (fun g => { g with perr := g.perr ++ perr.filter (fun x => !g.perr.contains x) })).modEntry c e.id
        (fun x => { x with running := true }) ∧
      (c < s.variant.cores ∧ s.alive = true ∧ (s.core c).gln.queue.find? (fun e => !s.glnPassed c e) = some e ∧ e.running = false ∧ e.scatters = false ∧
      entryOf u c e.id = some { e with running := true } ∧
      (if e.streams then (gRowEval c { e with running := true } u).2.need else (gEval c { e with running := true } u).2.need) = [])) ∧
    (∃ (s : State) (c : Nat) (e : GlnEntry), c < s.variant.cores ∧ s.alive = true ∧ (s.core c).gln.queue.find? (fun e => s.glnDone c e) = some e ∧ e.streams = true ∧
      e.cmd = none) ∧
    (∃ (s : State) (c : Nat) (e : GlnEntry) (k : Nat), c < s.variant.cores ∧ s.alive = true ∧ (s.core c).gln.queue.find? (fun e => s.glnDone c e) = some e ∧
      e.streams = true ∧ e.cmd = some k ∧ (s.cmdOf k).isSome = true) ∧
    (∃ (s : State) (c : Nat) (e : GlnEntry), c < s.variant.cores ∧ s.alive = true ∧
      (s.core c).gln.queue.find? (fun e => s.glnDone c e) = some e ∧ e.scatters = true ∧ e.cmd = none) ∧
    (∃ (s : State) (c : Nat) (e : GlnEntry) (ups : List Upset), c < s.variant.cores ∧ s.alive = true ∧ (s.core c).gln.queue.find? (fun e => s.glnDone c e) = some e ∧
      e.streams = false ∧ e.scatters = false ∧ (gEval c e (s.mark (gTsp e.desc) c ups)).2.ue = false) ∧
    (∃ (s : State) (c : Nat) (e : GlnEntry) (k posn st : Nat), c < s.variant.cores ∧ s.alive = true ∧
      (s.core c).gln.queue.find? (fun e => (s.glnFailure c e).isSome) = some e ∧
      s.glnFailure c e = some (k, posn, st) ∧ e.scatters = true ∧ e.remStatus.isSome = true ∧ e.cmd = none ∧ e.sp < 2 ∧
      k < 16 ∧ posn < 2 ^ 40 ∧ st < 256 ∧ s.rdB GLN_ERR.VALID c = false ∧ (s.sp c e.sp).ended = false ∧ (s.sp c e.sp).pend.length < 4) ∧
    (∃ (s : State) (c : Nat) (e : GlnEntry) (k posn st : Nat), c < s.variant.cores ∧ s.alive = true ∧
      (s.core c).gln.queue.find? (fun e => (s.glnFailure c e).isSome) = some e ∧
      s.glnFailure c e = some (k, posn, st) ∧ (e.scatters = false ∨ e.remStatus = none)) ∧
    (∃ (s : State) (c : Nat) (e : GlnEntry), c < s.variant.cores ∧ s.alive = true ∧ (s.core c).gln.streaming = some e ∧ e.placed < outCount e ∧ (gRowEval c e s).2.ue = false ∧
      (gRowEval c e s).2.fail = none ∧ (gRowEval c e s).2.need = [] ∧ 32 ≤ ((s.core c).gln.stream (gStream e.desc)).buffered) ∧
    (∃ (s : State) (c : Nat) (e : GlnEntry) (n : Nat) (x : Stream) (g : GRun) (u : State) (f : GlnEntry), g = (gRowEval c e s).2 ∧ n = gStream e.desc ∧
      x = (s.core c).gln.stream n ∧ u = ((g.st.glnFlags c g).modGln c (fun k => k.setStream n { k.stream n with
        segs := mapIf (fun y => y.entry == e.id)
          (fun y => { y with rows := y.rows ++ [(gRowEval c e s).1], placed := y.placed + 1 }) (k.stream n).segs })).modEntry c e.id
        (fun y => { y with placed := y.placed + 1, fullSince := none, sat := y.sat || g.sat, corr := y.corr || g.corr }) ∧
      (c < s.variant.cores ∧ s.alive = true ∧ (s.core c).gln.streaming = some e ∧ e.placed < outCount e ∧ g.ue = false ∧ g.fail = none ∧ g.need = [] ∧
      x.buffered < 32 ∧ entryOf u c e.id = some f ∧ f.scatters = false ∧ f.streams = true ∧ (gRowEval c f u).2.need = [])) ∧
    (∃ (s : State) (c : Nat) (e : GlnEntry) (t0 : Nat), c < s.variant.cores ∧ s.alive = true ∧ (s.core c).gln.streaming = some e ∧ e.fullSince = some t0 ∧
      s.rd GLN_CFG.STALL c ≠ 0 ∧ t0 + s.rd GLN_CFG.STALL c * 1000 = s.now ∧ e.sp < 2 ∧ e.cmd = none ∧ (s.sp c e.sp).ended = false ∧
      (s.sp c e.sp).pend.length < 4 ∧ s.rdB GLN_ERR.VALID c = false ∧ e.placed < 2 ^ 40 ∧ (gRowEval c e s).2.ue = false) ∧
    (∃ (s : State) (c : Nat) (e : GlnEntry) (t0 : Nat), c < s.variant.cores ∧ s.alive = true ∧ (s.core c).gln.streaming = some e ∧ e.fullSince = some t0 ∧
      s.rd GLN_CFG.STALL c ≠ 0 ∧ s.now + 1 = t0 + s.rd GLN_CFG.STALL c * 1000) :=
  ⟨⟨withGln (glnE (gath 2 4 0) false 0 none) [], 0, [5], glnE (gath 2 4 0) false 0 none, _, rfl, by decide +kernel, by decide +kernel, by decide +kernel,
     by decide +kernel, by decide +kernel, by decide +kernel⟩,
   ⟨withGln (glnE (gath 2 4 0x40000) true 2 none) [], 0, glnE (gath 2 4 0x40000) true 2 none, by decide +kernel⟩,
   ⟨{ withGln { glnE (gath 2 4 0x40000) true 2 none with cmd := some 7 } [] with que := { cmds := [⟨7, 0, 0, [], false, [], [], none, false⟩] } },
     0, { glnE (gath 2 4 0x40000) true 2 none with cmd := some 7 }, 7, by decide +kernel⟩,
   ⟨withGln (scatE none) [], 0, scatE none, by decide +kernel⟩,
   ⟨withGln (glnE (gath 2 4 0) true 0 none) [], 0, glnE (gath 2 4 0) true 0 none, [], by decide +kernel⟩,
   ⟨withGln (scatE (some (0x10 + 256 * 5))) [], 0, scatE (some (0x10 + 256 * 5)), 6, 5, 0x10, by decide +kernel⟩,
   ⟨withGln (glnE (gath 2 0 0x40000) true 1 none) [], 0, glnE (gath 2 0 0x40000) true 1 none, 3, 1, 0, by decide +kernel⟩,
   ⟨withGln (glnE (gath 40 4 0x40000) true 32 none) (List.replicate 32 [1]), 0, glnE (gath 40 4 0x40000) true 32 none, by decide +kernel⟩,
   ⟨withGln (glnE (gath 40 4 0x40000) true 31 none) (List.replicate 31 [1]), 0, glnE (gath 40 4 0x40000) true 31 none, _, _, _, _,
     glnE (gath 40 4 0x40000) true 32 none, rfl, rfl, rfl, rfl, by decide +kernel⟩,
   ⟨withGln (glnE (gath 40 4 0x40000) true 32 (some 1)) [], 0, glnE (gath 40 4 0x40000) true 32 (some 1), 1, by decide +kernel⟩,
   ⟨withGln (glnE (gath 40 4 0x40000) true 32 (some 2)) [], 0, glnE (gath 40 4 0x40000) true 32 (some 2), 2, by decide +kernel⟩⟩

/-! ### Command queues -/

/-- Words of a command from word 0's low half and words 4 to 7. -/
def cmdW (w0 w4 w5 w6 w7 : Nat) : List W64 :=
  [BitVec.ofNat 64 (w0 + 0x1234 * 2 ^ 48 + 65535 * 2 ^ 32), 0, 0, 0, BitVec.ofNat 64 w4, BitVec.ofNat 64 w5, BitVec.ofNat 64 w6, BitVec.ofNat 64 w7]

/-- A running module whose queue 63 is this one, over a ring of four slots at 0x1000 of L-space; `mode` 1 is PUSH mode. -/
def withQueue (x : Queue) (mode : Nat) : State :=
  let s : State := { idle with pwr := { up := true } }
  let s := s.wrs .QUE_Q_CFG 0 63 0 [(QUE_Q_CFG.EN, 1), (QUE_Q_CFG.MODE, mode), (QUE_Q_CFG.SPACE, 1), (QUE_Q_CFG.SIZE, 4), (QUE_Q_CFG.PRIO, 3)]
  let s := s.wrs .QUE_Q_BASE 0 63 0 [(QUE_Q_BASE.ADDR, 0x40)]
  let s := s.wrs .GLB_DIEMAP 0 0 0 [(GLB_DIEMAP.PRESENT, 1), (GLB_DIEMAP.RELEASED, 1)]
  s.modQueue 63 (fun _ => x)

/-- The head, at the last slot, is this command, dispatched. -/
def dispatched (c : List W64) (st : Nat) : State :=
  withQueue { st := st, head := 3, tail := 3, cmd := some c, checked := true, elig := true, granted := true } 0

theorem wit_immediateCommands :
    (∀ op, op = 0 ∨ op = 0x10 → ∃ (s : State) (q : Nat) (c : List W64), LRing s q ∧ s.dispatched q op = some c) ∧
    (∃ (s : State) (q : Nat) (c : List W64), LRing s q ∧ s.dispatched q 0x12 = some c ∧ s.win.ops ≠ [] ∧
      ∀ o ∈ s.win.ops, o.queue = some q → o.writes = false ∨ o.kind = 8) ∧
    (∃ (s : State) (q : Nat) (c : List W64) (o : RemOp), LRing s q ∧ s.dispatched q 0x12 = some c ∧ o ∈ s.win.ops ∧ o.queue = some q ∧
      o.writes = true ∧ o.kind ≠ 8) ∧
    (∃ (s : State) (q : Nat) (c : List W64), LRing s q ∧ s.dispatched q 0x11 = some c) ∧
    (∃ (s : State) (q : Nat) (c : List W64), LRing s q ∧ s.dispatched q 0x18 = some c ∧ s.rdB PWR_CFG.HINT_EN = true ∧ bits (cw c 4) 5 0 = 5) ∧
    (∃ (s : State) (q : Nat) (c : List W64), LRing s q ∧ s.dispatched q 0x18 = some c ∧ s.rdB PWR_CFG.HINT_EN = true ∧ bits (cw c 4) 5 0 = 51) ∧
    (∃ (s : State) (q : Nat) (c : List W64), LRing s q ∧ s.dispatched q 0x18 = some c ∧ s.rdB PWR_CFG.HINT_EN = false) ∧
    (∃ (s : State) (q : Nat) (c : List W64), LRing s q ∧ s.dispatched q 0x19 = some c ∧ (placeOf (cw c 5)).dspace = 1) ∧
    (∃ (s : State) (q : Nat) (c : List W64), LRing s q ∧ s.dispatched q 0x19 = some c ∧ (placeOf (cw c 5)).dspace = 0 ∧
      s.coreSt (placeOf (cw c 5)).dcore = .gone ∧ cCont c = true) ∧
    (∃ (s : State) (q : Nat) (c : List W64), LRing s q ∧ s.dispatched q 0x19 = some c ∧ (placeOf (cw c 5)).dspace = 0 ∧
      s.coreSt (placeOf (cw c 5)).dcore ≠ .gone ∧ s.coreShut (placeOf (cw c 5)).dcore = true) ∧
    (∃ (s : State) (q : Nat) (c : List W64), LRing s q ∧ s.dispatched q 0x1A = some c ∧ s.rdB OBS_BASE.EN = true ∧ s.rdB OBS_BASE.EVT = true ∧
      (s.trace.get {} 256).buf.length < 4096) ∧
    (∃ (s : State) (q : Nat) (c : List W64), LRing s q ∧ s.dispatched q 0x1F = some c ∧ (s.queue q).st = 6 ∧ cw c 4 = s.epoch) ∧
    (∃ (s : State) (q : Nat) (c : List W64), LRing s q ∧ s.dispatched q 0x1F = some c ∧ (s.queue q).st = 6 ∧ cw c 4 ≠ s.epoch) ∧
    (∃ (s : State) (q : Nat) (c : List W64), LRing s q ∧ s.dispatched q 0x1F = some c ∧ (s.queue q).st ≠ 6) := by
  refine ⟨fun op h => ?_,
    ⟨{ dispatched (cmdW 0x12 0 0 0 0) 4 with win := { ops := [{ remOp 1 8 2 with queue := some 62 }, { remOp 0 8 2 with queue := some 63 }] } }, 63,
      cmdW 0x12 0 0 0 0, by decide +kernel⟩,
    ⟨{ dispatched (cmdW 0x12 0 0 0 0) 4 with win := { ops := [{ remOp 1 8 2 with queue := some 63 }] } }, 63, cmdW 0x12 0 0 0 0,
      { remOp 1 8 2 with queue := some 63 }, by decide +kernel⟩, ⟨dispatched (cmdW 0x11 (65535 + 7 * 65536) 0 0 0) 4, 63, cmdW 0x11 (65535 + 7 * 65536) 0 0 0, by decide +kernel⟩,
    ⟨(dispatched (cmdW 0x18 5 0 0 0) 4).wrs .PWR_CFG 0 0 0 [(PWR_CFG.HINT_EN, 1)], 63, cmdW 0x18 5 0 0 0, by decide +kernel⟩,
    ⟨(dispatched (cmdW 0x18 51 0 0 0) 4).wrs .PWR_CFG 0 0 0 [(PWR_CFG.HINT_EN, 1)], 63, cmdW 0x18 51 0 0 0, by decide +kernel⟩,
    ⟨(dispatched (cmdW 0x18 5 0 0 0) 4).wrs .PWR_CFG 0 0 0 [(PWR_CFG.HINT_EN, 0)], 63, cmdW 0x18 5 0 0 0, by decide +kernel⟩,
    ⟨dispatched (cmdW 0x19 0x2000 4 0 0) 4, 63, cmdW 0x19 0x2000 4 0 0, by decide +kernel⟩,
    ⟨dispatched (cmdW 0x419 0x2000 (16 * 2 ^ 12) 0 0) 4, 63, cmdW 0x419 0x2000 (16 * 2 ^ 12) 0 0, by decide +kernel⟩,
    ⟨(dispatched (cmdW 0x19 0x2000 0 0 0) 4).wrs .PWR_DOM_LP 0 0 0 [(PWR_DOM_LP.GATE, 1)], 63, cmdW 0x19 0x2000 0 0 0, by decide +kernel⟩,
    ⟨(dispatched (cmdW 0x1A 7 0 0 0) 4).wrs .OBS_BASE 0 0 0 [(OBS_BASE.EN, 1), (OBS_BASE.EVT, 1)], 63, cmdW 0x1A 7 0 0 0, by decide +kernel⟩,
    ⟨dispatched (cmdW 0x1F 0 0 0 0) 6, 63, cmdW 0x1F 0 0 0 0, by decide +kernel⟩,
    ⟨dispatched (cmdW 0x1F 1 0 0 0) 6, 63, cmdW 0x1F 1 0 0 0, by decide +kernel⟩,
    ⟨dispatched (cmdW 0x1F 1 0 0 0) 4, 63, cmdW 0x1F 1 0 0 0, by decide +kernel⟩⟩
  rcases h with rfl | rfl
  · exact ⟨dispatched (cmdW 0x900 0 0 0 0) 4, 63, cmdW 0x900 0 0 0 0, by decide +kernel⟩
  · exact ⟨dispatched (cmdW 0x10 0 0 0 0) 4, 63, cmdW 0x10 0 0 0 0, by decide +kernel⟩


/-- A copy job of command 7, 64 bytes from 0x2000 to 0x3000 of L-space, or a SOW there. -/
def copying (sow : Bool) (ah : Option (List Byte)) : State :=
  { withQueue {} 0 with
    que := { copies := [(3, [⟨7, ah, 0, [], []⟩])],
             cmds := [⟨7, 0, 0, if sow then cmdW 3 0x3004 60 0x0807060504030201 4 else cmdW 2 0x2000 0x3000 64 5, false, [], [], none, false⟩] }
    mem := { loft := [(0x2000, 1), (0x203F, 9)] } }

/-- Core 0's stook enabled and a SUBMIT dispatched. -/
def submitting : State :=
  let s := (stooked {}).wrs .GLB_DIEMAP 0 0 0 [(GLB_DIEMAP.PRESENT, 1), (GLB_DIEMAP.RELEASED, 1)]
  let q : Queue := { st := 4, granted := true, cmd := some (cmdW 5 0x2000 0x3000 (5 + 2 * 2 ^ 40) (32 + 128 * 2 ^ 24 + 2 ^ 48 + 2 ^ 50)) }
  s.modQueue 63 (fun _ => q)

theorem wit_workCommands :
    (∃ (s : State) (q : Nat) (c : List W64), s.memOk = true ∧ cAsync c = false ∧ s.dispatched q 1 = some c ∧ launchCores c ≠ [] ∧
      (launchCores c).Nodup ∧ (launchCores c).all s.coreHere = true ∧ s.namesGone c = false) ∧
    (∃ (s : State) (q : Nat) (c : List W64), s.memOk = true ∧ cAsync c = false ∧ LRing s q ∧ s.dispatched q 1 = some c ∧ launchCores c = []) ∧
    (∃ (s : State) (q : Nat) (c : List W64), s.memOk = true ∧ cAsync c = false ∧ LRing s q ∧ s.dispatched q 1 = some c ∧ launchCores c ≠ [] ∧
      s.namesGone c = true ∧ cCont c = true) ∧
    (∃ (s : State) (id : Nat) (x : Cmd), s.memOk = true ∧ s.cmdOf id = some x ∧ cOp x.words = 1 ∧ x.parts = [] ∧
      s.que.done.any (fun e => e.1 == id) = false) ∧
    (∀ op, op = 2 ∨ op = 3 → ∃ (s : State) (q : Nat) (c : List W64) (k : Nat), s.memOk = true ∧ cAsync c = false ∧ s.dispatched q op = some c ∧
      (copyArgs c).len ≠ 0 ∧ (op = 2 → (copyArgs c).p.sspace = 1) ∧ (copyArgs c).p.dspace = 1 ∧ s.copyEngine (copyArgs c).bdie = some k ∧
      s.copyJobs k ≠ [] ∧ s.mem.faults = []) ∧
    (∀ sow ah, (sow = true ∧ ah = none) ∨ (sow = false ∧ (ah = none ∨ ah = some (List.replicate 64 7))) →
      ∃ (s : State) (b e : Nat) (j : CopyJob) (x : Cmd) (a : CopyArgs), s.memOk = true ∧ s.alive = true ∧ s.copyJobs (4 * b + e) = [j] ∧ j.got = [] ∧ s.cmdOf j.cmd = some x ∧
      a = copyArgs x.words ∧ a.sow = sow ∧ j.ahead = ah ∧ (a.sow = false → a.p.sspace = 1) ∧ a.p.dspace = 1 ∧
      (∀ d, j.ahead = some d → d.length = a.len)) ∧
    (∃ (s : State) (q : Nat) (c : List W64), s.memOk = true ∧ cAsync c = false ∧ s.dispatched q 4 = some c ∧ s.namesGone c = false ∧
      (placeOf (cw c 5)).dspace = 1 ∧ s.mem.faults = []) ∧
    (∃ (s : State) (q : Nat) (c : List W64) (k n : Nat) (r : StReq), k = bits (cw c 6) 39 32 ∧
      r = ⟨bits (cw c 6) 48 40, bits (cw c 7) 49 48, cw c 4, bits (cw c 7) 23 0, bits (cw c 7) 51 50, cw c 5, bits (cw c 7) 47 24,
        some s.que.nextId, 2, 0⟩ ∧
      (s.memOk = true ∧ cAsync c = false ∧ s.dispatched q 5 = some c ∧ s.namesGone c = false ∧ s.keyIdx k (bits (cw c 6) 31 0) = some n ∧
      s.rdB STOOK_CTL.EN k = true ∧ s.rd STOOK_CTL.ARRAYS k ≠ 0 ∧ s.reqBad k n r = false ∧ r.rows ≠ 0 ∧
      reqRows (s.stKey k n).batch + r.rows < 256)) := by
  refine ⟨⟨dispatched (cmdW 1 (2 * 256 + 15 * 65536 + 3 * 2 ^ 24) 0x1000 7 0x40) 4, 63, cmdW 1 (2 * 256 + 15 * 65536 + 3 * 2 ^ 24) 0x1000 7 0x40, by decide +kernel⟩,
    ⟨dispatched (cmdW 1 (2 ^ 24) 0 0 0) 4, 63, cmdW 1 (2 ^ 24) 0 0 0, by decide +kernel⟩,
    ⟨dispatched (cmdW 0x401 (16 + 256 + 2 ^ 24) 0 0 0) 4, 63, cmdW 0x401 (16 + 256 + 2 ^ 24) 0 0 0, by decide +kernel⟩,
    ⟨{ idle with que := { cmds := [⟨7, 0, 0, cmdW 1 0 0 0 0, false, [], [1, 2], none, false⟩] } }, 7, ⟨7, 0, 0, cmdW 1 0 0 0 0, false, [], [1, 2], none, false⟩,
      by decide +kernel⟩, fun op h => ?_, fun sow ah h => ?_,
    ⟨dispatched (cmdW 4 0x2000 4 0 0) 4, 63, cmdW 4 0x2000 4 0 0, by decide +kernel⟩,
    ⟨submitting, 63, cmdW 5 0x2000 0x3000 (5 + 2 * 2 ^ 40) (32 + 128 * 2 ^ 24 + 2 ^ 48 + 2 ^ 50), 0, 63, _, rfl, rfl, by decide +kernel⟩⟩
  · rcases h with rfl | rfl
    · exact ⟨(List.range 4).foldl (fun s k => s.setJobs k [⟨0, none, 0, [], []⟩]) (dispatched (cmdW 2 0x2000 0x3000 64 5) 4), 63, cmdW 2 0x2000 0x3000 64 5, 0,
        by decide +kernel⟩
    · exact ⟨(List.range 4).foldl (fun s k => s.setJobs k [⟨0, none, 0, [], []⟩]) (dispatched (cmdW 3 0x2000 64 1 4) 4), 63, cmdW 3 0x2000 64 1 4, 0, by decide +kernel⟩
  · rcases h with ⟨rfl, rfl⟩ | ⟨rfl, rfl | rfl⟩
    · exact ⟨copying true none, 0, 3, ⟨7, none, 0, [], []⟩, _, _, by decide +kernel, by decide +kernel, rfl, rfl, rfl, rfl, rfl, rfl, by decide +kernel⟩
    · exact ⟨copying false none, 0, 3, ⟨7, none, 0, [], []⟩, _, _, by decide +kernel, by decide +kernel, rfl, rfl, rfl, rfl, rfl, rfl, by decide +kernel⟩
    · exact ⟨copying false (some (List.replicate 64 7)), 0, 3, ⟨7, some (List.replicate 64 7), 0, [], []⟩, _, _, by decide +kernel, by decide +kernel, rfl, rfl, rfl, rfl, rfl, rfl,
        by decide +kernel⟩

/-- A ring whose slot 3 holds a command with VALID = 1. -/
def ringed (x : Queue) (v : Bool) : State := { withQueue x 0 with mem := { loft := if v then [(0x10C0, 0x11), (0x10C3, 2)] else [] } }

/-- A command of queue 63 that ended with a status. -/
def ended (w : List W64) (r : Bool) (st : Nat) (x : Queue) : State :=
  let s := withQueue x 0
  { s with que := { s.que with done := [(7, st)], cmds := [⟨7, 63, 3, w, r, [], [], none, false⟩] } }

theorem wit_queueEngine :
    (∃ (s : State) (q : Nat), LRing s q ∧ s.live = true ∧ s.rdB QUE_Q_CFG.MODE 0 q = true) ∧
    (∀ b, ∃ (s : State) (q : Nat), LRing s q ∧ s.live = true ∧ s.rdB QUE_Q_CFG.MODE 0 q = false ∧ (s.queue q).cmd = none ∧ (s.queue q).st ≠ 0 ∧ (s.queue q).st ≠ 5 ∧
      s.mem.faults = [] ∧ bitB (cw (words64 8 (SMap.range s.mem.loft 0 (slotAt s q (s.queue q).head) 64)) 0) 25 = b) ∧
    (∃ (s : State) (q : Nat) (c : List W64), LRing s q ∧ s.live = true ∧ (s.queue q).cmd = some c ∧ (s.queue q).checked = false ∧ (s.queue q).st = 6 ∧ cOp c ≠ 0x1F) ∧
    (∃ (s : State) (q : Nat) (c : List W64), LRing s q ∧ s.live = true ∧ (s.queue q).cmd = some c ∧ (s.queue q).checked = false ∧ (s.queue q).st ≠ 0 ∧ (s.queue q).st ≠ 5 ∧
      (s.queue q).st ≠ 6 ∧ s.cmdBad c = true ∧ cCont c = true) ∧
    (∀ b, ∃ (s : State) (q : Nat) (c : List W64), LRing s q ∧ s.live = true ∧ (s.queue q).cmd = some c ∧ (s.queue q).checked = false ∧ (s.queue q).st ≠ 0 ∧
      (s.queue q).st ≠ 5 ∧ (s.queue q).st ≠ 6 ∧ s.cmdBad c = false ∧ (s.queue q).elig = false ∧ (s.queue q).running = none ∧
      (List.range 4).all (s.waitMet c) = b) ∧
    (∃ (s : State) (k : Nat), s.live = true ∧ s.nextQueue = some k) ∧ (∃ s : State, ∀ k, k < 64 → s.dispatchable k = false) ∧
    (∀ r st, (r = true ∧ st = 0x18) ∨ (r = false ∧ st = 15) → ∃ (s : State) (q id : Nat) (l : List (Nat × Nat)) (x : Cmd), LRing s q ∧ s.live = true ∧
      s.que.done = (id, st) :: l ∧ s.cmdOf id = some x ∧ x.queue = q ∧ x.retired = r ∧ (x.retired = true ∨ st < 16)) ∧
    (∃ (s : State) (q id : Nat) (l : List (Nat × Nat)) (x : Cmd), LRing s q ∧ s.live = true ∧
      s.que.done = (id, 16) :: l ∧ s.cmdOf id = some x ∧ x.queue = q ∧ x.retired = false ∧ cCont x.words = false ∧ (s.queue q).st ≠ 6 ∧
      x.slot < 65536 ∧ cSig x.words = false) := by
  refine ⟨⟨withQueue {} 1, 63, by decide +kernel⟩, fun b => ⟨ringed { st := 1, head := 3 } b, 63, ?_⟩,
    ⟨withQueue { st := 6, head := 3, cmd := some (cmdW 0 0 0 0 0) } 0, 63, cmdW 0 0 0 0 0, by decide +kernel⟩,
    ⟨withQueue { st := 2, head := 3, cmd := some (cmdW 0x406 0 0 0 0) } 0, 63, cmdW 0x406 0 0 0 0, by decide +kernel⟩, fun b => ?_,
    ⟨withQueue { st := 3, head := 3, cmd := some (cmdW 0 0 0 0 0), elig := true } 0, 63, by decide +kernel⟩, ⟨idle, by decide +kernel⟩, fun r st h => ?_,
    ⟨ended (cmdW 1 0 0 0 0) false 16 { st := 4, head := 3, cmd := some (cmdW 1 0 0 0 0), running := some 7 }, 63, 7, [],
      ⟨7, 63, 3, cmdW 1 0 0 0 0, false, [], [], none, false⟩, by decide +kernel⟩⟩
  · cases b <;> decide +kernel
  · cases b
    · exact ⟨withQueue { st := 2, head := 3, cmd := some (0x1234000004000000 :: 0xFFFF :: 0xFFFFFFFF :: cmdW 0 0 0 0 0) } 0, 63,
        0x1234000004000000 :: 0xFFFF :: 0xFFFFFFFF :: cmdW 0 0 0 0 0, by decide +kernel⟩
    · exact ⟨withQueue { st := 2, head := 3, cmd := some (cmdW 0 0 0 0 0) } 0, 63, cmdW 0 0 0 0 0, by decide +kernel⟩
  · rcases h with ⟨rfl, rfl⟩ | ⟨rfl, rfl⟩
    · exact ⟨ended (cmdW 0xF01 0 0 0 0) true 0x18 { st := 1 }, 63, 7, [], ⟨7, 63, 3, cmdW 0xF01 0 0 0 0, true, [], [], none, false⟩, by decide +kernel⟩
    · exact ⟨ended (cmdW 0xF01 0 0 0 0) false 15 { st := 4, head := 3, cmd := some (cmdW 0xF01 0 0 0 0), running := some 7 }, 63, 7, [],
        ⟨7, 63, 3, cmdW 0xF01 0 0 0 0, false, [], [], none, false⟩, by decide +kernel⟩


/-- Word of QUE_Q_CFG from EN, MODE, PRIO, SPACE and SIZE. -/
def qcfg (en mode prio sp n : Nat) : W64 := BitVec.ofNat 64 (en + mode * 2 + prio * 4 + sp * 16 + n * 64)

/-- A push's header for queue 63 with `n` commands and an epoch. -/
def pushHdr (n e : Nat) : V128 := BitVec.ofNat 128 (63 * 256 + n * 65536 + 9 * 2 ^ 32 + e * 2 ^ 64)

/-- A disabled queue, its ring at slot address 0x40 + … -/
def noQueue (base : Nat) : State := (idle.wrs .QUE_Q_BASE 0 63 0 [(QUE_Q_BASE.ADDR, base)])

theorem wit_queueControl :
    (∀ n, n = 1 ∨ n = 65536 → ∃ (s : State) (q : Nat) (v : W64), q < 64 ∧ s.live = true ∧ s.rdB QUE_Q_CFG.EN 0 q = false ∧ QUE_Q_CFG.EN.get v = 1 ∧
      bits v.toNat 22 6 = n ∧ bits v.toNat 5 4 = 1 ∧ s.rd QUE_Q_BASE.ADDR 0 q * 64 + 64 * bits v.toNat 22 6 = s.variant.lEnd) ∧
    (∃ (s : State) (q : Nat) (v : W64), q < 64 ∧ s.live = true ∧ s.rdB QUE_Q_CFG.EN 0 q = false ∧ QUE_Q_CFG.EN.get v = 1 ∧
      1 ≤ bits v.toNat 22 6 ∧ bits v.toNat 22 6 ≤ 65536 ∧ bits v.toNat 5 4 = 2 ∧ s.rd QUE_Q_BASE.ADDR 0 q * 64 + 64 * bits v.toNat 22 6 = s.variant.resBase) ∧
    (∃ (s : State) (q : Nat) (v : W64), q < 64 ∧ s.live = true ∧ s.rdB QUE_Q_CFG.EN 0 q = false ∧ QUE_Q_CFG.EN.get v = 1 ∧ bits v.toNat 22 6 = 0) ∧
    (∃ (s : State) (q : Nat) (v : W64), q < 64 ∧ s.live = true ∧ s.rdB QUE_Q_CFG.EN 0 q = false ∧ QUE_Q_CFG.EN.get v = 1 ∧ bits v.toNat 5 4 = 1 ∧
      s.variant.lEnd + 64 = s.rd QUE_Q_BASE.ADDR 0 q * 64 + 64 * bits v.toNat 22 6) ∧
    (∃ (s : State) (q : Nat) (v : W64), q < 64 ∧ s.live = true ∧ s.rdB QUE_Q_CFG.EN 0 q = true ∧ QUE_Q_CFG.EN.get v = 0 ∧ (s.queue q).st ≠ 1 ∧ (s.queue q).st ≠ 5) ∧
    (∀ st, st = 1 ∨ st = 5 → ∃ (s : State) (q : Nat) (v : W64), q < 64 ∧ s.live = true ∧ s.rdB QUE_Q_CFG.EN 0 q = true ∧ QUE_Q_CFG.EN.get v = 0 ∧ (s.queue q).st = st) ∧
    (∃ (s : State) (q : Nat) (v : W64), q < 64 ∧ s.live = true ∧ s.rdB QUE_Q_CFG.EN 0 q = true ∧ QUE_Q_CFG.EN.get v = 1 ∧ bits v.toNat 22 6 ≠ s.rd QUE_Q_CFG.SIZE 0 q) ∧
    (∃ (s : State) (q : Nat), q < 64 ∧ (s.queue q).st = 0) ∧
    (∃ (s : State) (q : Nat) (c : List W64), LRing s q ∧ s.live = true ∧ s.rdB QUE_Q_CFG.MODE 0 q = true ∧ (s.queue q).cmd = some c ∧ (s.queue q).running = none ∧
      (s.queue q).st = 2 ∧ (s.queue q).appended = (s.queue q).retiredN + 1 ∧ cSig c = false ∧ cNotify c = false) ∧
    (∃ (s : State) (q : Nat) (c : List W64), LRing s q ∧ s.live = true ∧ (s.queue q).cmd = some c ∧ (s.queue q).st = 5) ∧
    (∃ (s : State) (hdr : V128) (cmds : List (List W64)) (q n : Nat), q = bits hdr.toNat 13 8 ∧ n = bits hdr.toNat 20 16 ∧ (LRing s q ∧ s.linkLit = true ∧
      s.boot.stage = 12 ∧ 1 ≤ n ∧ n ≤ 16 ∧ bits hdr.toNat 127 64 = s.epoch ∧ s.rdB QUE_Q_CFG.EN 0 q = true ∧ s.rdB QUE_Q_CFG.MODE 0 q = true ∧
      cmds.length = n ∧ (s.queue q).appended + n = s.qSize q ∧ (s.queue q).tail < s.qSize q)) ∧
    (∃ (s : State) (hdr : V128) (q : Nat), q = bits hdr.toNat 13 8 ∧ (LRing s q ∧ s.linkLit = true ∧ s.boot.stage ≠ 12)) ∧
    (∃ (s : State) (hdr : V128) (q : Nat), q = bits hdr.toNat 13 8 ∧ (LRing s q ∧ s.linkLit = true ∧ s.boot.stage = 12 ∧ 16 < bits hdr.toNat 20 16)) ∧
    (∃ (s : State) (hdr : V128) (q : Nat), q = bits hdr.toNat 13 8 ∧ (LRing s q ∧ s.linkLit = true ∧ s.boot.stage = 12 ∧ bits hdr.toNat 20 16 = 16 ∧
      bits hdr.toNat 127 64 ≠ s.epoch)) ∧
    (∃ (s : State) (hdr : V128) (q : Nat), q = bits hdr.toNat 13 8 ∧ (LRing s q ∧ s.linkLit = true ∧ s.boot.stage = 12 ∧ bits hdr.toNat 20 16 = 1 ∧
      bits hdr.toNat 127 64 = s.epoch ∧ s.rdB QUE_Q_CFG.EN 0 q = true ∧ s.rdB QUE_Q_CFG.MODE 0 q = false)) ∧
    (∃ (s : State) (hdr : V128) (q : Nat), q = bits hdr.toNat 13 8 ∧ (LRing s q ∧ s.linkLit = true ∧ s.boot.stage = 12 ∧ bits hdr.toNat 20 16 = 1 ∧
      bits hdr.toNat 127 64 = s.epoch ∧ s.rdB QUE_Q_CFG.EN 0 q = false ∧ s.rd QUE_Q_STAT.STATUS 0 q = 0x17)) ∧
    (∃ (s : State) (v : W64) (c p q : Nat), q = bits v.toNat 5 0 ∧ (LRing s q ∧ s.live = true ∧ c < s.variant.cores ∧ p < 2 ∧ s.pushCode q = 0 ∧ (s.queue q).appended < s.qSize q)) ∧
    (∃ (s : State) (v : W64) (c p q : Nat), q = bits v.toNat 5 0 ∧ (LRing s q ∧ s.live = true ∧ c < s.variant.cores ∧ p < 2 ∧ s.pushCode q ≠ 0)) := by
  refine ⟨fun n h => ?_, ⟨noQueue (idle.variant.resBase / 64 - 4), 63, qcfg 1 0 0 2 4, by decide +kernel⟩, ⟨noQueue 0, 63, qcfg 1 0 0 1 0, by decide +kernel⟩,
    ⟨noQueue (idle.variant.lEnd / 64 - 3), 63, qcfg 1 0 0 1 4, by decide +kernel⟩, ⟨withQueue { st := 2 } 0, 63, 0, by decide +kernel⟩, fun st h => ?_,
    ⟨withQueue { st := 1 } 0, 63, qcfg 1 1 1 2 5, by decide +kernel⟩, ⟨idle, 63, by decide +kernel⟩,
    ⟨withQueue { st := 2, head := 3, tail := 0, appended := 1, cmd := some (cmdW 0 0 0 0 0) } 1, 63, cmdW 0 0 0 0 0, by decide +kernel⟩,
    ⟨withQueue { st := 5, head := 3, cmd := some (cmdW 0 0 0 0 0) } 0, 63, cmdW 0 0 0 0 0, by decide +kernel⟩,
    ⟨withQueue { st := 1, tail := 3, head := 3 } 1, pushHdr 4 0, List.replicate 4 (cmdW 0 0 0 0 0), 63, 4, by decide +kernel⟩,
    ⟨{ withQueue {} 1 with boot := { stage := 11 } }, pushHdr 1 0, 63, by decide +kernel⟩, ⟨withQueue {} 1, pushHdr 17 0, 63, by decide +kernel⟩,
    ⟨withQueue {} 1, pushHdr 16 1, 63, by decide +kernel⟩, ⟨withQueue {} 0, pushHdr 1 0, 63, by decide +kernel⟩,
    ⟨((withQueue {} 1).wrs .QUE_Q_CFG 0 63 0 [(QUE_Q_CFG.EN, 0)]).wrs .QUE_Q_STAT 0 63 0 [(QUE_Q_STAT.STATUS, 0x17)], pushHdr 1 0, 63, by decide +kernel⟩,
    ⟨withQueue { tail := 3, appended := 3 } 1, 63, 191, 1, 63, by decide +kernel⟩, ⟨withQueue { tail := 3 } 0, 63, 191, 1, 63, by decide +kernel⟩⟩
  · rcases h with rfl | rfl
    · exact ⟨noQueue (idle.variant.lEnd / 64 - 1), 63, qcfg 1 0 0 1 1, by decide +kernel⟩
    · exact ⟨noQueue (idle.variant.lEnd / 64 - 65536), 63, qcfg 1 0 0 1 65536, by decide +kernel⟩
  · rcases h with rfl | rfl
    · exact ⟨withQueue { st := 1 } 0, 63, 0, by decide +kernel⟩
    · exact ⟨withQueue { st := 5 } 0, 63, 0, by decide +kernel⟩

/-- A register message: tag 5, an address. -/
def regMsg (a : Nat) : V128 := BitVec.ofNat 128 (1 + 5 * 65536 + a * 2 ^ 64)

/-- A loader message for L-space: tag 5, a length, an address. -/
def loadMsg (n a : Nat) : V128 := BitVec.ofNat 128 (3 + 256 + 5 * 65536 + n * 2 ^ 32 + a * 2 ^ 64)

theorem wit_halterLink :
    (∃ s : State, s.linkLit = true ∧ s.memOk = true) ∧
    (∃ (s : State) (m : V128), s.linkLit = true ∧ s.memOk = true ∧ s.regCode m.toNat false = 0 ∧ s.regShut (bits m.toNat 103 64) = false ∧ bits m.toNat 103 64 = Reg.addr .GLB_TIME 0 0 0) ∧
    (∃ (s : State) (m : V128), s.linkLit = true ∧ s.memOk = true ∧ s.regCode m.toNat false = 0 ∧ s.regShut (bits m.toNat 103 64) = false ∧ s.regThere (bits m.toNat 103 64) = none) ∧
    (∃ (s : State) (m : V128), s.linkLit = true ∧ s.memOk = true ∧ s.regCode m.toNat false ≠ 0) ∧
    (∃ (s : State) (m : BitVec 192), s.linkLit = true ∧ s.memOk = true ∧ s.regCode m.toNat true = 0 ∧ s.regShut (bits m.toNat 103 64) = false) ∧
    (∃ (s : State) (m : BitVec 192), s.linkLit = true ∧ s.memOk = true ∧ s.regCode m.toNat true ≠ 0) ∧
    (∃ (s : State) (h : V128), s.linkLit = true ∧ s.memOk = true ∧ s.loadCode h.toNat false = 0 ∧ bits h.toNat 9 8 = 1 ∧ bits h.toNat 44 32 = 4096) ∧
    (∃ (s : State) (h : V128), s.linkLit = true ∧ s.memOk = true ∧ s.loadCode h.toNat false ≠ 0) ∧
    (∃ (s : State) (h : V128) (d : List Byte), s.linkLit = true ∧ s.memOk = true ∧ s.loadCode h.toNat true = 0 ∧ bits h.toNat 9 8 = 1 ∧
      bits h.toNat 44 32 = d.length) ∧
    (∃ (s : State) (h : V128), s.linkLit = true ∧ s.memOk = true ∧ s.loadCode h.toNat true ≠ 0) ∧
    (∃ (s : State) (f : Nat) (x : HFrame), s.linkLit = true ∧ s.memOk = true ∧ s.halter[f]? = some x ∧ x.acked = false ∧ x.sentAt + 2000 = s.now) ∧
    (∃ (s : State) (f : Nat) (x : HFrame), s.linkLit = true ∧ s.memOk = true ∧ s.halter[f]? = some x ∧ x.acked = false ∧ s.now < x.sentAt + 2000) ∧
    (∃ (s : State) (f : Nat) (x : HFrame), s.linkLit = true ∧ s.memOk = true ∧ s.halter[f]? = some x ∧ x.acked = true) ∧
    (∃ (s : State) (m : HMsg) (k : Nat) (x : HFrame), s.linkLit = true ∧ s.memOk = true ∧ (m.sent s.now)[k]? = some x ∧ 0 < k) ∧
    (∃ (s : State) (a : Nat), s.linkLit = true ∧ s.memOk = true ∧ a % 8 = 0 ∧ s.regThere a = none) :=
  ⟨⟨withQueue {} 0, by decide +kernel⟩, ⟨withQueue {} 0, regMsg (Reg.addr .GLB_TIME 0 0 0), by decide +kernel⟩,
   ⟨withQueue {} 0, regMsg 0x7FFFF8, by decide +kernel⟩, ⟨withQueue {} 0, regMsg 4, by decide +kernel⟩,
   ⟨withQueue {} 0, BitVec.ofNat 192 ((regMsg (Reg.addr .THM_CFG 0 0 0)).toNat + 3 * 2 ^ 128), by decide +kernel⟩,
   ⟨withQueue {} 0, BitVec.ofNat 192 (regMsg 1).toNat, by decide +kernel⟩,
   ⟨withQueue {} 0, loadMsg 4096 0x1000, by decide +kernel⟩, ⟨withQueue {} 0, loadMsg 4104 0x1000, by decide +kernel⟩,
   ⟨withQueue {} 0, loadMsg 8 0x1000, [1, 2, 3, 4, 5, 6, 7, 8], by decide +kernel⟩, ⟨withQueue {} 0, loadMsg 8 4, by decide +kernel⟩,
   ⟨{ withQueue {} 0 with halter := [⟨.reject 9, 0, 0, 0, false⟩], now := 2000 }, 0, ⟨.reject 9, 0, 0, 0, false⟩, by decide +kernel⟩,
   ⟨{ withQueue {} 0 with halter := [⟨.reject 9, 0, 1, 0, false⟩], now := 2000 }, 0, ⟨.reject 9, 0, 1, 0, false⟩, by decide +kernel⟩,
   ⟨{ withQueue {} 0 with halter := [⟨.reject 9, 0, 0, 0, true⟩] }, 0, ⟨.reject 9, 0, 0, 0, true⟩, by decide +kernel⟩,
   ⟨withQueue {} 0, .ldrd 0 5 1016 (List.replicate 1016 7), 1, ⟨.ldrd 0 5 1016 (List.replicate 1016 7), 1, 0, 0, false⟩, by decide +kernel⟩,
   ⟨withQueue {} 0, 0x7FFFF8, by decide +kernel⟩⟩

/-! ### Collectives -/

/-- Words of a collective command of group 5 of this opcode: INT32, a count of 16, sum, L-space to L-space. -/
def colW (op cnt : Nat) : List W64 :=
  cmdW (0x400 + op) (if op = 0x0A then 0 else 0x2000) (if op = 0x0A then 0 else 0x4000) ((if op = 0x0A then 0 else 6 * 2 ^ 44 + cnt) + 5 * 2 ^ 32)
    (if op = 0x0A then 0 else 5)

/-- A context of it. -/
def ctx5 (op pos : Nat) : Ctx :=
  ⟨7, 63, op, 5, 3, colW (op + 8) 16, pos, false, [], [], [], [], [], 9, none⟩

/-- A module that is node 0 of group 5, whose members are the nodes of this mask of word 0, with these contexts. Its fabric is quiet. -/
def grouped (mask : Nat) (l : List (Nat × Ctx)) (x : Queue) : State :=
  let s := (withQueue x 0).wrs .COL_GRP 0 80 0 [(COL_GRP.WORD, mask)]
  let s := (s.wrs .COL_GRP 0 88 0 [(COL_GRP.WORD, 1 + (3 + 2 * 4 + 16) * 2)]).wrs .FAB_CTL 0 0 0 [(FAB_CTL.QUIESCE, 1)]
  let s := (s.wrs .COL_CFG 0 0 0 [(COL_CFG.IDLE, 2)]).wrs .ROLL_NODE 0 9 0 [(ROLL_NODE.STATE, 3)]
  { s with now := 2000009, col := { ctxs := l }, que := { s.que with cmds := [⟨7, 63, 0, colW 8 16, true, [], [], none, false⟩] } }

/-- The head of queue 63 is this collective, dispatched or not. -/
def colHead (op : Nat) (gr : Bool) : Queue :=
  { st := if gr then 4 else 3, head := 3, cmd := some (colW op 16), checked := true, elig := true, granted := gr }

/-- An AG whose source is S-space of a core of a die that is not released. -/
def goneW : List W64 := cmdW 0x409 0x2000 0x4000 (16 + 5 * 2 ^ 32) (4 + 16 * 2 ^ 4)

/-- An AG with this placement that has not started, and core 0 in core gate. -/
def shut (place : Nat) : State :=
  (grouped 3 [(63, { ctx5 1 0 with words := cmdW 0x409 0x2000 0x4000 16 place })] {}).wrs .PWR_DOM_LP 0 0 0 [(PWR_DOM_LP.GATE, 1)]

/-- An RS in a stage, with node 1's sheaf of stage 3 in. -/
def reducing (pos : Nat) : Ctx := { ctx5 0 pos with started := true, sheaves := [⟨1, 3, 0, List.replicate 64 3, true, 0⟩] }

/-- An RS in its last stage, with this CHECK of the block that it has written to scratch. -/
def reduced (check : Nat) : Ctx := { ctx5 0 0 with started := true, sent := [(1, 64)], checks := [⟨1, 0, 0, check⟩] }

/-- The module with that RS, and 64 bytes of 1 where its scratch begins. -/
def scratched (mask : Nat) (x : Ctx) : State :=
  let s := grouped mask [(63, x)] {}
  { s with mem := { hbm := SMap.number 0 (List.replicate 64 1) } }

/-- A collective that fails as idle. -/
def failing (op : Nat) : Ctx := { ctx5 op 0 with ended := some (16, 5, 0) }

theorem wit_collectiveCourse :
    (∀ op, op ∈ [8, 9, 0x0A] → ∃ (s : State) (q : Nat) (c : List W64), LRing s q ∧ (s.queue q).cmd = some c ∧ (s.queue q).granted = true ∧ cOp c = op ∧
      (s.ahead q).all (fun a => !isColl a || colGroup a != colGroup c) = true ∧ s.namesGone c = false ∧
      s.groupLost (colGroup c) = true ∧ cCont c = true) ∧
    (∃ (s : State) (q : Nat) (c : List W64), LRing s q ∧ (s.queue q).cmd = some c ∧ (s.queue q).granted = true ∧ cOp c = 9 ∧
      (s.ahead q).all (fun a => !isColl a || colGroup a != colGroup c) = true ∧ s.namesGone c = true ∧ cCont c = true) ∧
    (∀ op, op ∈ [8, 9, 0x0A] → ∃ (s : State) (q : Nat) (c : List W64) (i : Nat), LRing s q ∧ (s.queue q).cmd = some c ∧ (s.queue q).granted = true ∧ cOp c = op ∧
      (s.ahead q).all (fun a => !isColl a || colGroup a != colGroup c) = true ∧ s.namesGone c = false ∧
      s.groupLost (colGroup c) = false ∧ s.ctxFor c = some i ∧
      s.col.pend.all (fun e => !pendFor (colGroup c) (s.rd COL_GSEQ.SEQ 0 (colGroup c)) e.pkt) = true) ∧
    (∃ (s : State) (q : Nat) (c : List W64), LRing s q ∧ (s.queue q).cmd = some c ∧ cOp c = 8 ∧ (s.queue q).elig = true ∧
      (s.queue q).granted = false ∧ (s.queue q).running = none ∧ (s.queue q).st = 3 ∧ s.ctxBlocked q c = true ∧
      (s.queue q).eligAt + s.remTimeout ≤ s.now ∧ cCont c = true) ∧
    (∃ (s : State) (q : Nat) (c : List W64), LRing s q ∧ (s.queue q).cmd = some c ∧ cOp c = 8 ∧ (s.queue q).elig = true ∧
      (s.queue q).granted = false ∧ (s.queue q).running = none ∧ (s.queue q).st = 3 ∧ s.ctxBlocked q c = true ∧
      s.now < (s.queue q).eligAt + s.remTimeout) ∧
    (∃ (s : State), s.unstarted 63 8 = none) ∧
    (∃ (s : State) (q i : Nat) (x : Ctx), s.unstarted q 0x0A = some i ∧ s.ctx i = some x ∧ x.ended = none ∧ x.op = 2 ∧ (s.group x.group).stages 2 = []) ∧
    (∀ op, op < 2 → ∃ (s : State) (q i : Nat) (x : Ctx), s.unstarted q (op + 8) = some i ∧ s.ctx i = some x ∧ x.ended = none ∧ x.op = op ∧ s.memOk = true ∧
      s.mem.faults = [] ∧ (s.group x.group).stages x.op = [] ∧ (s.group x.group).members = [s.node] ∧
      (placeOf (cw x.words 7)).sspace = 1 ∧ (placeOf (cw x.words 7)).dspace = 1) ∧
    (∀ op, op < 3 → ∃ (s : State) (q i : Nat) (x : Ctx), s.unstarted q (op + 8) = some i ∧ s.ctx i = some x ∧ x.ended = none ∧ x.op = op ∧ x.pos = 0 ∧
      x.grants = [] ∧ s.memOk = true ∧ s.mem.faults = [] ∧ (s.group x.group).stages op ≠ [] ∧ s.rdB FAB_CTL.QUIESCE = true ∧
      (op = 1 → (placeOf (cw x.words 7)).sspace = 1 ∧ (placeOf (cw x.words 7)).dspace = 1)) ∧
    (∀ b : Bool, ∃ (s : State) (q i : Nat) (x : Ctx), s.unstarted q 9 = some i ∧ s.ctx i = some x ∧ x.ended = none ∧ x.op = 1 ∧
      s.srcShut x.words = b ∧ s.dstShut x.words = !b) ∧
    (∀ pos, pos < 2 → ∃ (s : State) (i : Nat) (x : Ctx) (b o : Nat) (own : SheafRd), s.ctx i = some x ∧ x.op = 0 ∧ x.pos = pos ∧ x.started = true ∧ x.ended = none ∧
      (s.ctxStage x).1 < 4 ∧ x.pos < ((s.group x.group).stages 0).length ∧ b ∈ (s.group x.group).holds 0 (x.pos + 1) s.node ∧ o % sheafSize = 0 ∧
      o < x.blockBytes x.pos ∧ x.checkOf (x.pos + 1) b (x.outOff o) = none ∧ s.sheafShut x x.pos b = false ∧
      own = s.sheafRead i x x.pos b o (min sheafSize (x.blockBytes x.pos - o)) ∧ own.rd.ue = false ∧
      (∀ p ∈ (s.group x.group).line (s.ctxStage x).2 s.node, p ≠ s.node → (s.contrib x b o p).isSome = true) ∧ own.good = (pos == 0)) ∧
    (∀ op, op = 1 ∨ op = 2 → ∃ (s : State) (i : Nat) (x : Ctx), s.ctx i = some x ∧ x.started = true ∧ x.ended = none ∧ s.colPlace i = s ∧ x.op = op ∧
      ((s.group x.group).stages x.op).length = x.pos + 1 ∧ s.stageSent i x = true ∧ s.stageIn x = true) ∧
    (∀ b : Bool, ∃ (s : State) (i : Nat) (x y : Ctx) (r : SheafRd), s.ctx i = some x ∧ x.started = true ∧ x.ended = none ∧ s.colPlace i = s ∧
      s.stageSent i x = true ∧ s.stageIn x = true ∧ y = { x with pos := x.pos + 1, sent := [] } ∧ x.op = 0 ∧
      ((s.group x.group).stages 0).length = x.pos + 1 ∧ s.memOk = true ∧ (placeOf (cw x.words 7)).dspace = 1 ∧
      r = (s.setCtx i y).rsBack i y (((s.group x.group).holds 0 y.pos s.node).headD 0) ∧ r.rd.ue = false ∧ r.good = b) ∧
    (∃ (s : State) (i : Nat) (x y : Ctx), s.ctx i = some x ∧ x.started = true ∧ x.ended = none ∧ s.colPlace i = s ∧ s.stageSent i x = true ∧
      s.stageIn x = true ∧ y = { x with pos := x.pos + 1, sent := [] } ∧ x.pos + 1 < ((s.group x.group).stages x.op).length ∧
      s.rdB FAB_CTL.QUIESCE = true ∧ x.grants ≠ [] ∧ x.grants.all (fun e => e.1 != (s.ctxStage y).1) = true) ∧
    (∃ (s : State) (i : Nat) (x : Ctx) (st re pe : Nat), s.ctx i = some x ∧ x.ended = some (st, re, pe) ∧ (s.cmdOf x.cmd).isSome = true ∧ st < 16) ∧
    (∀ op, op < 3 → ∃ (s : State) (i : Nat) (x : Ctx) (st re pe : Nat), s.ctx i = some x ∧ x.op = op ∧ x.ended = some (st, re, pe) ∧
      (s.cmdOf x.cmd).isSome = true ∧ 16 ≤ st ∧ st < 256 ∧ s.memOk = true ∧ (op ≠ 2 → (placeOf (cw x.words 7)).dspace = 1) ∧
      i < 64 ∧ re < 16 ∧ s.rdB COL_ERR.VALID = false ∧ 2 ≤ endRank (st, re, pe) ∧ s.pwr.up = true) ∧
    (∃ (s : State) (i : Nat) (x : Ctx), s.ctx i = some x ∧ x.ended = none ∧ s.rd COL_CFG.IDLE ≠ 0 ∧ x.lastArrival + s.rd COL_CFG.IDLE * 1000000 = s.now) ∧
    (∃ (s : State) (i : Nat) (x : Ctx), s.ctx i = some x ∧ x.ended = none ∧ s.now + 1 = x.lastArrival + s.rd COL_CFG.IDLE * 1000000) ∧
    (∃ (s : State) (i : Nat) (x : Ctx) (v : W64), s.ctx i = some x ∧ x.ended = none ∧ s.live = true ∧ bitB v.toNat 6 = true ∧ bits v.toNat 5 0 = i) ∧
    (∃ v : W64, bitB v.toNat 6 = false) ∧ (∃ (s : State) (b : Nat), s.col.ctxs.any (fun e => s.ctxBdie e.1 == b) = true) ∧
    (∃ (s : State) (b : Nat), s.live = true ∧ s.col.ctxs.any (fun e => s.ctxBdie e.1 == b) = false) := by
  refine ⟨?_, ⟨grouped 3 [] { colHead 9 true with cmd := some goneW }, 63, goneW, by decide +kernel⟩, ?_,
    ⟨{ grouped 3 ((List.range 64).map (fun i => (i, ctx5 0 0))) (colHead 8 false) with now := 2 ^ 60 }, 63, colW 8 16, by decide +kernel⟩,
    ⟨(grouped 3 ((List.range 64).map (fun i => (i, ctx5 0 0))) { colHead 8 false with eligAt := 2000009 }).wrs .WIN_CFG 0 0 0 [(WIN_CFG.TIMEOUT, 1)], 63, colW 8 16,
      by decide +kernel⟩,
    ⟨idle, by decide +kernel⟩, ⟨grouped 1 [(63, ctx5 2 0)] {}, 63, 63, ctx5 2 0, by decide +kernel⟩, ?_, ?_, ?_, ?_, ?_, ?_,
    ⟨grouped 0x33 [(63, { ctx5 2 0 with started := true, digests := [(2, 4)], grants := [(2, 4, 9)] })] {}, 63, _, _, rfl, rfl, rfl, rfl, by decide +kernel,
      by decide +kernel, rfl, by decide +kernel⟩,
    ⟨grouped 3 [(63, { ctx5 2 0 with ended := some (0, 0, 0) })] {}, 63, _, 0, 0, 0, rfl, rfl, by decide +kernel⟩, fun op h => ?_,
    ⟨grouped 3 [(63, ctx5 2 0)] {}, 63, ctx5 2 0, by decide +kernel⟩, ⟨grouped 3 [(63, { ctx5 2 0 with lastArrival := 10 })] {}, 63, _, rfl, by decide +kernel⟩,
    ⟨grouped 3 [(63, ctx5 2 0)] {}, 63, ctx5 2 0, 0x7F, by decide +kernel⟩, ⟨0, by decide +kernel⟩, ⟨grouped 3 [(63, ctx5 2 0)] {}, 3, by decide +kernel⟩,
    ⟨grouped 3 [(63, ctx5 2 0)] {}, 0, by decide +kernel⟩⟩
  · intro op h
    exact ⟨grouped 0x201 [] (colHead op true), 63, colW op 16, (by decide +kernel : ∀ op, op ∈ [8, 9, 0x0A] → LRing (grouped 0x201 [] (colHead op true)) 63 ∧
      ((grouped 0x201 [] (colHead op true)).queue 63).cmd = some (colW op 16) ∧ ((grouped 0x201 [] (colHead op true)).queue 63).granted = true ∧
      cOp (colW op 16) = op ∧ ((grouped 0x201 [] (colHead op true)).ahead 63).all (fun a => !isColl a || colGroup a != colGroup (colW op 16)) = true ∧
      (grouped 0x201 [] (colHead op true)).namesGone (colW op 16) = false ∧
      (grouped 0x201 [] (colHead op true)).groupLost (colGroup (colW op 16)) = true ∧ cCont (colW op 16) = true) op h⟩
  · intro op h
    exact ⟨grouped 3 [] (colHead op true), 63, colW op 16, ((grouped 3 [] (colHead op true)).ctxFor (colW op 16)).getD 0,
      (by decide +kernel : ∀ op, op ∈ [8, 9, 0x0A] → LRing (grouped 3 [] (colHead op true)) 63 ∧
      ((grouped 3 [] (colHead op true)).queue 63).cmd = some (colW op 16) ∧ ((grouped 3 [] (colHead op true)).queue 63).granted = true ∧
      cOp (colW op 16) = op ∧ ((grouped 3 [] (colHead op true)).ahead 63).all (fun a => !isColl a || colGroup a != colGroup (colW op 16)) = true ∧
      (grouped 3 [] (colHead op true)).namesGone (colW op 16) = false ∧ (grouped 3 [] (colHead op true)).groupLost (colGroup (colW op 16)) = false ∧
      (grouped 3 [] (colHead op true)).ctxFor (colW op 16) = some (((grouped 3 [] (colHead op true)).ctxFor (colW op 16)).getD 0) ∧
      (grouped 3 [] (colHead op true)).col.pend.all (fun e => !pendFor (colGroup (colW op 16)) ((grouped 3 [] (colHead op true)).rd COL_GSEQ.SEQ 0 (colGroup (colW op 16))) e.pkt) = true) op h⟩
  · intro op h
    exact ⟨grouped 1 [(63, ctx5 op 0)] {}, 63, 63, ctx5 op 0, (by decide +kernel : ∀ op, op < 2 → (grouped 1 [(63, ctx5 op 0)] {}).unstarted 63 (op + 8) = some 63 ∧
      (grouped 1 [(63, ctx5 op 0)] {}).ctx 63 = some (ctx5 op 0) ∧ (ctx5 op 0).ended = none ∧ (ctx5 op 0).op = op ∧ (grouped 1 [(63, ctx5 op 0)] {}).memOk = true ∧
      (grouped 1 [(63, ctx5 op 0)] {}).mem.faults = [] ∧ ((grouped 1 [(63, ctx5 op 0)] {}).group (ctx5 op 0).group).stages (ctx5 op 0).op = [] ∧
      ((grouped 1 [(63, ctx5 op 0)] {}).group (ctx5 op 0).group).members = [(grouped 1 [(63, ctx5 op 0)] {}).node] ∧
      (placeOf (cw (ctx5 op 0).words 7)).sspace = 1 ∧ (placeOf (cw (ctx5 op 0).words 7)).dspace = 1) op h⟩
  · intro op h
    exact ⟨grouped 3 [(63, ctx5 op 0)] {}, 63, 63, ctx5 op 0, (by decide +kernel : ∀ op, op < 3 → (grouped 3 [(63, ctx5 op 0)] {}).unstarted 63 (op + 8) = some 63 ∧
      (grouped 3 [(63, ctx5 op 0)] {}).ctx 63 = some (ctx5 op 0) ∧ (ctx5 op 0).ended = none ∧ (ctx5 op 0).op = op ∧ (ctx5 op 0).pos = 0 ∧
      (ctx5 op 0).grants = [] ∧ (grouped 3 [(63, ctx5 op 0)] {}).memOk = true ∧ (grouped 3 [(63, ctx5 op 0)] {}).mem.faults = [] ∧
      ((grouped 3 [(63, ctx5 op 0)] {}).group (ctx5 op 0).group).stages op ≠ [] ∧ (grouped 3 [(63, ctx5 op 0)] {}).rdB FAB_CTL.QUIESCE = true ∧
      (op = 1 → (placeOf (cw (ctx5 op 0).words 7)).sspace = 1 ∧ (placeOf (cw (ctx5 op 0).words 7)).dspace = 1)) op h⟩
  · intro b
    cases b
    · exact ⟨shut 1, 63, 63, { ctx5 1 0 with words := cmdW 0x409 0x2000 0x4000 16 1 }, by decide +kernel⟩
    · exact ⟨shut 4, 63, 63, { ctx5 1 0 with words := cmdW 0x409 0x2000 0x4000 16 4 }, by decide +kernel⟩
  · intro pos h
    have h : pos = 0 ∨ pos = 1 := by omega
    rcases h with rfl | rfl
    · exact ⟨grouped 3 [(63, reducing 0)] {}, 63, reducing 0, 0, 0, _, by decide +kernel, rfl, rfl, rfl, rfl, by decide +kernel, by decide +kernel,
        by decide +kernel, rfl, by decide +kernel, rfl, by decide +kernel, rfl, by decide +kernel⟩
    · exact ⟨scratched 0x33 (reducing 1), 63, reducing 1, 0, 0, _, by decide +kernel, rfl, rfl, rfl, rfl, by decide +kernel, by decide +kernel,
        by decide +kernel, rfl, by decide +kernel, rfl, by decide +kernel, rfl, by decide +kernel⟩
  · intro op h
    rcases h with rfl | rfl
    · exact ⟨grouped 3 [(63, { ctx5 1 0 with started := true, sent := [(1, 64)], checks := [⟨0, 1, 0, 9⟩] })] {}, 63, _, rfl, rfl, rfl, rfl, by decide +kernel⟩
    · exact ⟨grouped 3 [(63, { ctx5 2 0 with started := true, digests := [(3, 1)] })] {}, 63, _, rfl, rfl, rfl, rfl, by decide +kernel⟩
  · intro b
    cases b
    · exact ⟨scratched 3 (reduced 9), 63, reduced 9, _, _, by decide +kernel, rfl, rfl, rfl, by decide +kernel, by decide +kernel, rfl, rfl, by decide +kernel,
        by decide +kernel, rfl, rfl, by decide +kernel⟩
    · exact ⟨scratched 3 (reduced (crc64 (List.replicate 64 1))), 63, reduced (crc64 (List.replicate 64 1)), _, _, by decide +kernel, rfl, rfl, rfl, by decide +kernel,
        by decide +kernel, rfl, rfl, by decide +kernel, by decide +kernel, rfl, rfl, by decide +kernel⟩
  · exact ⟨grouped 3 [(63, failing op)] {}, 63, failing op, 16, 5, 0, (by decide +kernel : ∀ op, op < 3 → (grouped 3 [(63, failing op)] {}).ctx 63 = some (failing op) ∧
      (failing op).op = op ∧ (failing op).ended = some (16, 5, 0) ∧ ((grouped 3 [(63, failing op)] {}).cmdOf (failing op).cmd).isSome = true ∧ 16 ≤ 16 ∧ 16 < 256 ∧
      (grouped 3 [(63, failing op)] {}).memOk = true ∧ (op ≠ 2 → (placeOf (cw (failing op).words 7)).dspace = 1) ∧ 63 < 64 ∧ 5 < 16 ∧
      (grouped 3 [(63, failing op)] {}).rdB COL_ERR.VALID = false ∧ 2 ≤ endRank (16, 5, 0) ∧ (grouped 3 [(63, failing op)] {}).pwr.up = true) op h⟩


/-- A SHEAF packet of kind `k` at stage 3 from node 1's first base die for group 5 and sequence `seq`, with an offset and a payload. -/
def sheafPkt (k seq off : Nat) (d : List Byte) : Packet :=
  (⟨9, 2, false, false, 0, false, false, false, 0, 1, 0xE0, 0, d.length, 0, 0, k * 2 ^ 38 + 3 * 2 ^ 35 + off, 5 + seq * 4096, 0, d, 0, false⟩ : Packet).sealed

/-- A collective abort of status 0x12 for group 5 and sequence `seq` in epoch `e`. -/
def abortPkt (seq e : Nat) : Packet :=
  (⟨10, 3, false, false, 0, false, false, false, 0, 1, 0xE0, 0, 0, e, 0, 5 + seq * 4096, 0x40 + 0x12 * 256, 0, [], 0, false⟩ : Packet).sealed

/-- An RS with two bytes of a sheaf in, asked for `t` times; and the sheaf's TRAILER, right or wrong. -/
def half5 (t : Nat) : Ctx := { ctx5 0 0 with started := true, sheaves := [⟨1, 3, 0, [1, 2], false, t⟩] }

/-- See `half5`. -/
def half5Trailer (b : Bool) : Packet := sheafPkt 1 3 0 (trailerBytes (if b then crc64 [1, 2] else 5) 0 2 false)

/-- An AG with node 1's block in, and its TRAILER (stage 4). -/
def placing : Ctx := { ctx5 1 0 with started := true, sheaves := [⟨1, 4, 0, List.replicate 64 5, false, 0⟩] }

/-- See `placing`. -/
def placingTrailer : Packet :=
  Packet.sealed { sheafPkt 1 3 0 (trailerBytes (crc64 (List.replicate 64 5)) 0 64 false) with addr := 2 ^ 38 + 4 * 2 ^ 35 }

theorem wit_collectivePackets :
    (∀ k, k < 4 → ∃ (s : State) (p : Packet), s.rdB FAB_CTL.QUIESCE = true ∧ p.typ = 9 ∧ p.vc = 2 ∧ shKind p = k ∧ s.rxCase p = .excluded) ∧
    (∀ k, k < 4 → ∃ (s : State) (p : Packet), s.rdB FAB_CTL.QUIESCE = true ∧ p.typ = 9 ∧ p.vc = 2 ∧ shKind p = k ∧ s.rxCase p = .duplicate) ∧
    (∀ k, k < 4 → ∃ (s : State) (p : Packet), s.rdB FAB_CTL.QUIESCE = true ∧ p.typ = 9 ∧ p.vc = 2 ∧ shKind p = k ∧ s.rxCase p = .ahead) ∧
    (∀ k, k = 1 ∨ k = 2 → ∃ (s : State) (p : Packet), s.rdB FAB_CTL.QUIESCE = true ∧ p.typ = 9 ∧ p.vc = 2 ∧ shKind p = k ∧ s.rxCase p = .next ∧
      s.ctxOf p = none ∧ s.colFuture (bits p.aux 11 0) 12 (bits p.aux 23 12) = true ∧ s.pendRoom (p.srcid % s.variant.bdies) = true) ∧
    (∀ k, k = 1 ∨ k = 2 → ∃ (s : State) (p : Packet), s.rdB FAB_CTL.QUIESCE = true ∧ p.typ = 9 ∧ p.vc = 2 ∧ shKind p = k ∧ s.rxCase p = .next ∧
      s.ctxOf p = none ∧ s.colFuture (bits p.aux 11 0) 12 (bits p.aux 23 12) = true ∧ s.pendRoom (p.srcid % s.variant.bdies) = false) ∧
    (∀ k, k = 0 ∨ k = 2 → ∃ (s : State) (p : Packet) (i : Nat) (x : Ctx), s.rdB FAB_CTL.QUIESCE = true ∧ p.typ = 9 ∧ p.vc = 2 ∧ shKind p = k ∧ s.rxCase p = .next ∧
      s.ctxOf p = some i ∧ s.ctx i = some x ∧ x.ended = none ∧ x.started = false) ∧
    (∀ b : Bool, ∃ (s : State) (p : Packet) (i : Nat) (x : Ctx), s.rdB FAB_CTL.QUIESCE = true ∧ p.typ = 9 ∧ p.vc = 2 ∧ shKind p = 1 ∧ s.rxCase p = .next ∧
      s.ctxOf p = some i ∧ s.ctx i = some x ∧ x.ended = none ∧ x.op = 2 ∧ bitB (ofLe ((p.payload.drop 20).take 1)) 0 = true ∧
      (ofLe ((p.payload.drop 8).take 8) == x.digest) = b) ∧
    (∀ t : Nat, ∀ b : Bool, t < 4 → ∃ (s : State) (p : Packet) (i : Nat) (x : Ctx) (y : SheafIn), s.rdB FAB_CTL.QUIESCE = true ∧ p.typ = 9 ∧ p.vc = 2 ∧ shKind p = 1 ∧
      s.rxCase p = .next ∧ s.ctxOf p = some i ∧ s.ctx i = some x ∧ x.ended = none ∧ x.op = 0 ∧ bitB (ofLe ((p.payload.drop 20).take 1)) 0 = false ∧
      x.sheaf p.src (shStage p) (shOff p) = some y ∧ y.ok = false ∧ y.tries = t ∧
      (y.data.length = ofLe ((p.payload.drop 16).take 4) && crc64 y.data == ofLe (p.payload.take 8)) = b) ∧
    (∃ (s : State) (p : Packet) (i : Nat) (x : Ctx) (y : SheafIn) (pos b o len : Nat), s.rdB FAB_CTL.QUIESCE = true ∧ p.typ = 9 ∧ p.vc = 2 ∧ shKind p = 1 ∧
      s.rxCase p = .next ∧ s.ctxOf p = some i ∧ s.ctx i = some x ∧ x.ended = none ∧ bitB (ofLe ((p.payload.drop 20).take 1)) 0 = false ∧ x.op = 1 ∧
      s.memOk = true ∧ (placeOf (cw x.words 7)).dspace = 1 ∧ x.sheaf p.src (shStage p) (shOff p) = some y ∧ x.sheaves = [y] ∧ y.ok = false ∧
      y.data.length = ofLe ((p.payload.drop 16).take 4) ∧ crc64 y.data = ofLe (p.payload.take 8) ∧ s.stagePos x (shStage p) = some pos ∧
      sheafAt ((s.group x.group).transfer 1 pos p.src s.node) (x.blockBytes 0) (shOff p) = some (b, o, len) ∧ x.checkOf 0 b o = none) ∧
    (∃ (s : State) (p : Packet) (i : Nat) (x : Ctx) (b o len : Nat), s.rdB FAB_CTL.QUIESCE = true ∧ p.typ = 9 ∧ p.vc = 2 ∧ shKind p = 3 ∧ s.rxCase p = .next ∧ s.resendShut p = false ∧
      s.ctxOf p = some i ∧ s.ctx i = some x ∧ x.ended = none ∧ x.op = 0 ∧ s.stagePos x (shStage p) = some 0 ∧ (placeOf (cw x.words 7)).sspace = 1 ∧
      s.mem.faults = [] ∧ sheafAt ((s.group x.group).transfer 0 0 s.node p.src) (x.blockBytes 0) (shOff p) = some (b, o, len)) ∧
    (∃ (s : State) (p : Packet) (i : Nat) (x : Ctx), s.rdB FAB_CTL.QUIESCE = true ∧ p.typ = 0xA ∧ bits p.aux 7 0 = 0x40 ∧ s.excluded p.src = false ∧
      p.crcOk = true ∧ p.epoch = s.epoch32 ∧ s.col.ctxs.find? (fun e => pendFor e.2.group e.2.seq p) = some (i, x) ∧ s.ctx i = some x ∧ x.ended = none) ∧
    (∃ (s : State) (p : Packet), s.rdB FAB_CTL.QUIESCE = true ∧ p.typ = 0xA ∧ bits p.aux 7 0 = 0x40 ∧ s.excluded p.src = false ∧
      p.crcOk = true ∧ p.epoch = s.epoch32 ∧ s.col.ctxs.find? (fun e => pendFor e.2.group e.2.seq p) = none ∧
      s.colFuture (bits p.addr 11 0) 28 (bits p.addr 39 12) = true ∧ s.pendRoom (p.srcid % s.variant.bdies) = true) ∧
    (∃ (s : State) (p : Packet), s.rdB FAB_CTL.QUIESCE = true ∧ p.typ = 0xA ∧ bits p.aux 7 0 = 0x40 ∧ s.excluded p.src = false ∧
      p.crcOk = true ∧ p.epoch ≠ s.epoch32) := by
  refine ⟨fun k h => ⟨grouped 3 [] {}, { sheafPkt k 3 0 [] with src := 9 }, (by decide +kernel : ∀ k, k < 4 → (grouped 3 [] {}).rdB FAB_CTL.QUIESCE = true ∧
      9 = 9 ∧ 2 = 2 ∧ shKind { sheafPkt k 3 0 [] with src := 9 } = k ∧ (grouped 3 [] {}).rxCase { sheafPkt k 3 0 [] with src := 9 } = .excluded) k h⟩,
    fun k h => ⟨{ grouped 3 [] {} with win := { rx := [(rxKey 1 0xE0, 1)] } }, sheafPkt k 3 0 [],
      (by decide +kernel : ∀ k, k < 4 → State.rdB { grouped 3 [] {} with win := { rx := [(rxKey 1 0xE0, 1)] } } FAB_CTL.QUIESCE = true ∧
      9 = 9 ∧ 2 = 2 ∧ shKind (sheafPkt k 3 0 []) = k ∧ State.rxCase { grouped 3 [] {} with win := { rx := [(rxKey 1 0xE0, 1)] } } (sheafPkt k 3 0 []) = .duplicate) k h⟩,
    fun k h => ⟨grouped 3 [] {}, (Packet.sealed { sheafPkt k 3 0 [] with seq := 1 }), (by decide +kernel : ∀ k, k < 4 → (grouped 3 [] {}).rdB FAB_CTL.QUIESCE = true ∧
      9 = 9 ∧ 2 = 2 ∧ shKind (Packet.sealed { sheafPkt k 3 0 [] with seq := 1 }) = k ∧ (grouped 3 [] {}).rxCase (Packet.sealed { sheafPkt k 3 0 [] with seq := 1 }) = .ahead) k h⟩,
    ?_, ?_, ?_, ?_, ?_, ⟨grouped 3 [(63, placing)] {}, placingTrailer, 63, placing, ⟨1, 4, 0, List.replicate 64 5, false, 0⟩, 0, 1, 0, 64, by decide +kernel⟩,
    ⟨grouped 3 [(63, { ctx5 0 0 with started := true })] {}, sheafPkt 3 3 0 [], 63, _, 1, 0, 64, by decide +kernel, rfl, rfl, rfl, by decide +kernel, by decide +kernel, rfl, rfl, rfl, rfl,
      by decide +kernel⟩,
    ⟨grouped 3 [(63, ctx5 2 0)] {}, abortPkt 3 0, 63, ctx5 2 0, by decide +kernel⟩, ⟨grouped 3 [(63, ctx5 2 0)] {}, abortPkt 4 0, by decide +kernel⟩,
    ⟨grouped 3 [(63, ctx5 2 0)] {}, abortPkt 3 1, by decide +kernel⟩⟩
  · intro k h
    rcases h with rfl | rfl
    · exact ⟨grouped 3 [] {}, sheafPkt 1 2047 0 [], by decide +kernel⟩
    · exact ⟨grouped 3 [] {}, sheafPkt 2 2047 0 [], by decide +kernel⟩
  · intro k h
    rcases h with rfl | rfl
    · exact ⟨{ grouped 3 [] {} with col := { pend := List.replicate 256 ⟨0, abortPkt 3 0⟩ } }, sheafPkt 1 3 0 [], by decide +kernel⟩
    · exact ⟨{ grouped 3 [] {} with col := { pend := List.replicate 256 ⟨0, abortPkt 3 0⟩ } }, sheafPkt 2 3 0 [], by decide +kernel⟩
  · intro k h
    rcases h with rfl | rfl
    · exact ⟨grouped 3 [(63, ctx5 0 0)] {}, sheafPkt 0 3 0 [1], 63, ctx5 0 0, by decide +kernel⟩
    · exact ⟨grouped 3 [(63, ctx5 0 0)] {}, sheafPkt 2 3 0 [], 63, ctx5 0 0, by decide +kernel⟩
  · intro b
    cases b
    · exact ⟨grouped 3 [(63, ctx5 2 0)] {}, sheafPkt 1 3 0 (trailerBytes 0 1 0 true), 63, ctx5 2 0, by decide +kernel⟩
    · exact ⟨grouped 3 [(63, ctx5 2 0)] {}, sheafPkt 1 3 0 (trailerBytes 0 (ctx5 2 0).digest 0 true), 63, ctx5 2 0, by decide +kernel⟩
  · intro t b h
    exact ⟨grouped 3 [(63, half5 t)] {}, half5Trailer b, 63, half5 t, ⟨1, 3, 0, [1, 2], false, t⟩, (by decide +kernel : ∀ t, t < 4 → ∀ b : Bool,
      (grouped 3 [(63, half5 t)] {}).rdB FAB_CTL.QUIESCE = true ∧ (half5Trailer b).typ = 9 ∧ (half5Trailer b).vc = 2 ∧ shKind (half5Trailer b) = 1 ∧
      (grouped 3 [(63, half5 t)] {}).rxCase (half5Trailer b) = .next ∧ (grouped 3 [(63, half5 t)] {}).ctxOf (half5Trailer b) = some 63 ∧
      (grouped 3 [(63, half5 t)] {}).ctx 63 = some (half5 t) ∧ (half5 t).ended = none ∧ (half5 t).op = 0 ∧
      bitB (ofLe (((half5Trailer b).payload.drop 20).take 1)) 0 = false ∧
      (half5 t).sheaf (half5Trailer b).src (shStage (half5Trailer b)) (shOff (half5Trailer b)) = some ⟨1, 3, 0, [1, 2], false, t⟩ ∧ false = false ∧ t = t ∧
      (([1, 2] : List Byte).length = ofLe (((half5Trailer b).payload.drop 16).take 4) && crc64 [1, 2] == ofLe ((half5Trailer b).payload.take 8)) = b) t h b⟩

/-! ### Rack window -/

/-- A running module whose fabric is quiet, with these window and fabric units. -/
def quiet (w : Win) : State :=
  { (withQueue {} 0).wrs .FAB_CTL 0 0 0 [(FAB_CTL.QUIESCE, 1)] with win := w, now := 9000 }

/-- An operation of this kind and length from processor 1 of core 0, sent to node 1 at number 9, this often again; see `remOp`. -/
def sentOp (kind len tries : Nat) : RemOp :=
  { remOp kind len 2 with sp := 1, addr := 0x8000000000400008, stage := 3, entry := 3, seq := 9, lastTx := 1000, issued := 1000, tries := tries }

/-- A window entry of node 1 that allows all. -/
def openEntry : W64 := 0x70000003

/-- A module of TRN-0304 whose core 0 waits for the entry of page 1, which is this one. -/
def walking : State :=
  let o : RemOp := { remOp 1 8 2 with addr := 0x8000000000400008, stage := 1 }
  { quiet { ops := [o], walks := [(0, 1)] } with
    variant := .trn0304, mem := { hbm := SMap.number (winEntryAt .trn0304 1) (leBytes 8 openEntry.toNat) } }

/-- An answer from node 1 to number 9 of core 0. -/
def answerPkt (typ : Nat) (d : List Byte) : Packet :=
  (⟨typ, 1, false, true, 0, false, false, false, 0, 1, 0, 0, d.length, 0, 9, 0, 0, 0, d, 0, false⟩ : Packet).sealed

theorem wit_windowSender :
    (∃ (s : State) (b page : Nat), s.rdB FAB_CTL.QUIESCE = true ∧ s.win.ops.any (fun o => o.waitsFor b page) = true ∧ s.win.walks.contains (b, page) = false ∧
      (s.win.walks.filter (fun x => x.1 == b)).length = 15) ∧
    (∃ (s : State) (b page : Nat), s.rdB FAB_CTL.QUIESCE = true ∧ s.win.ops.any (fun o => o.waitsFor b page) = false) ∧
    (∃ (s : State) (b page : Nat), s.rdB FAB_CTL.QUIESCE = true ∧ s.win.walks.contains (b, page) = true ∧ s.win.stale.contains (b, page) = true) ∧
    (∃ (s : State) (b page : Nat) (o : RemOp) (r : Rd) (e : W64), r = State.eRead { s.incSat FLT_CE_SUM.WINCACHE 0 0 with win := { s.win with
          walks := s.win.walks.filter (· != (b, page)), stale := s.win.stale.filter (· != (b, page)) } } (winEntryAt s.variant page) 8 0 false .walker ∧
      e = w64 (ofLe r.data) ∧ (s.rdB FAB_CTL.QUIESCE = true ∧ s.win.walks.contains (b, page) = true ∧ s.win.stale.contains (b, page) = false ∧ s.win.ops = [o] ∧
      o.waitsFor b page = true ∧ o.kind < 4 ∧ o.cmd = none ∧ o.gln = none ∧ r.ue = false ∧ sendReason o.kind e = 0)) ∧
    (∃ (s : State) (p : Packet), s.rdB FAB_CTL.QUIESCE = true ∧ p.typ = 4 ∧ p.vc = 1 ∧ s.excluded p.src = true) ∧
    (∃ (s : State) (p : Packet), s.rdB FAB_CTL.QUIESCE = true ∧ p.typ = 7 ∧ p.vc = 1 ∧ s.excluded p.src = false ∧ p.crcOk = false) ∧
    (∃ (s : State) (p : Packet), s.rdB FAB_CTL.QUIESCE = true ∧ p.typ = 6 ∧ p.vc = 1 ∧ s.excluded p.src = false ∧ p.crcOk = true ∧ p.epoch ≠ s.epoch32) ∧
    (∀ typ kind len, (typ, kind, len) ∈ [(5, 1, 8), (4, 0, 8), (4, 0, 128), (7, 3, 8), (6, 2, 8)] → ∃ (s : State) (p : Packet) (o : RemOp),
      s.rdB FAB_CTL.QUIESCE = true ∧ p.typ = typ ∧ p.vc = 1 ∧ s.excluded p.src = false ∧ p.crcOk = true ∧ p.epoch = s.epoch32 ∧
      s.win.ops.find? (fun o => o.srcid == p.srcid && o.stage == 3 && o.seq == p.seq && entNode o.entry == p.src) = some o ∧
      o.cmd = none ∧ o.gln = none ∧ o.kind = kind ∧ o.len = len ∧ o.tries = 2 ∧ s.now < o.issued + s.remTimeout ∧ s.rdB WIN_FAULT.VALID = false ∧
      (s.sp o.srcid o.sp).ended = false ∧ (s.sp o.srcid o.sp).pend.length < 4) ∧
    (∃ (s : State) (p : Packet), s.rdB FAB_CTL.QUIESCE = true ∧ SMap.has s.win.pairs (pairKey p.srcid p.src) = true ∧ p.ece = true ∧
      ∃ t0, (s.pair p.srcid p.src).last = some t0 ∧ t0 + s.rd FAB_ECN.HOLD = s.now) ∧
    (∃ (s : State) (p : Packet), s.rdB FAB_CTL.QUIESCE = true ∧ SMap.has s.win.pairs (pairKey p.srcid p.src) = true ∧ p.ece = false ∧
      (s.pair p.srcid p.src).w = (s.pair p.srcid p.src).inc + 1) ∧
    (∃ (s : State) (id : Nat) (o : RemOp), s.rdB FAB_CTL.QUIESCE = true ∧ s.remOp id = some o ∧ o.stage = 3 ∧ o.lastTx + 8000 = s.now ∧ o.tries = 2 ∧
      s.now < o.issued + s.remTimeout ∧ s.flt.egressOff = false ∧ s.pwr.up = true) ∧
    (∃ (s : State) (id : Nat) (o : RemOp), s.rdB FAB_CTL.QUIESCE = true ∧ s.remOp id = some o ∧ o.tries = 3 ∧ s.now < o.issued + s.remTimeout) ∧
    (∃ (s : State) (id : Nat) (o : RemOp), s.rdB FAB_CTL.QUIESCE = true ∧ s.remOp id = some o ∧ o.issued + s.remTimeout = s.now ∧ o.stage = 3 ∧ o.kind < 4 ∧
      o.cmd = none ∧ o.gln = none ∧ (s.sp o.srcid o.sp).ended = false ∧ (s.sp o.srcid o.sp).pend.length < 4 ∧ s.flt.egressOff = false ∧ s.pwr.up = true) ∧
    (∃ (s : State) (v : W64), s.live = true ∧ bitB v.toNat 1 = true) ∧ (∃ (s : State) (v : W64), s.live = true ∧ bitB v.toNat 0 = true) := by
  refine ⟨⟨{ walking with win := { walking.win with walks := (List.range 15).map (fun i => (0, i + 2)) } }, 0, 1, by decide +kernel⟩,
    ⟨walking, 0, 2, by decide +kernel⟩, ⟨{ walking with win := { walking.win with stale := [(0, 1)] } }, 0, 1, by decide +kernel⟩,
    ⟨walking, 0, 1, { remOp 1 8 2 with addr := 0x8000000000400008, stage := 1 }, _, _, rfl, rfl, by decide +kernel⟩,
    ⟨(quiet {}).wrs .ROLL_NODE 0 1 0 [(ROLL_NODE.STATE, 3)], answerPkt 4 [], by decide +kernel⟩,
    ⟨quiet {}, { answerPkt 7 [] with crc := 0 }, by decide +kernel⟩, ⟨quiet {}, Packet.sealed { answerPkt 6 [] with epoch := 1 }, by decide +kernel⟩, ?_,
    ⟨(quiet { pairs := [(pairKey 0 1, { w := 9, last := some 8900 })] }).wrs .FAB_ECN 0 0 0 [(FAB_ECN.HOLD, 100)], answerPkt 5 [], by decide +kernel⟩,
    ⟨quiet { pairs := [(pairKey 0 1, { w := 9, inc := 8 })] }, { answerPkt 5 [] with ece := false }, by decide +kernel⟩,
    ⟨quiet { ops := [sentOp 1 8 2] }, 3, sentOp 1 8 2, by decide +kernel⟩, ⟨quiet { ops := [sentOp 1 8 3] }, 3, sentOp 1 8 3, by decide +kernel⟩,
    ⟨(quiet { ops := [sentOp 1 8 3] }).wrs .WIN_CFG 0 0 0 [(WIN_CFG.TIMEOUT, 8)], 3, sentOp 1 8 3, by decide +kernel⟩,
    ⟨idle, 2, by decide +kernel⟩, ⟨idle, 1, by decide +kernel⟩⟩
  intro typ kind len h
  exact ⟨quiet { ops := [sentOp kind len 2] }, answerPkt typ (List.replicate len 7), sentOp kind len 2,
    (by decide +kernel : ∀ x ∈ ([(5, 1, 8), (4, 0, 8), (4, 0, 128), (7, 3, 8), (6, 2, 8)] : List (Nat × Nat × Nat)), (fun x : Nat × Nat × Nat =>
      (quiet { ops := [sentOp x.2.1 x.2.2 2] }).rdB FAB_CTL.QUIESCE = true ∧ (answerPkt x.1 (List.replicate x.2.2 7)).typ = x.1 ∧
      (answerPkt x.1 (List.replicate x.2.2 7)).vc = 1 ∧ (quiet { ops := [sentOp x.2.1 x.2.2 2] }).excluded (answerPkt x.1 (List.replicate x.2.2 7)).src = false ∧
      (answerPkt x.1 (List.replicate x.2.2 7)).crcOk = true ∧ (answerPkt x.1 (List.replicate x.2.2 7)).epoch = (quiet { ops := [sentOp x.2.1 x.2.2 2] }).epoch32 ∧
      (quiet { ops := [sentOp x.2.1 x.2.2 2] }).win.ops.find? (fun o => o.srcid == (answerPkt x.1 (List.replicate x.2.2 7)).srcid && o.stage == 3 &&
        o.seq == (answerPkt x.1 (List.replicate x.2.2 7)).seq && entNode o.entry == (answerPkt x.1 (List.replicate x.2.2 7)).src) = some (sentOp x.2.1 x.2.2 2) ∧
      (sentOp x.2.1 x.2.2 2).cmd = none ∧ (sentOp x.2.1 x.2.2 2).gln = none ∧ (sentOp x.2.1 x.2.2 2).kind = x.2.1 ∧ (sentOp x.2.1 x.2.2 2).len = x.2.2 ∧
      (sentOp x.2.1 x.2.2 2).tries = 2 ∧ (quiet { ops := [sentOp x.2.1 x.2.2 2] }).now < (sentOp x.2.1 x.2.2 2).issued + (quiet { ops := [sentOp x.2.1 x.2.2 2] }).remTimeout ∧
      (quiet { ops := [sentOp x.2.1 x.2.2 2] }).rdB WIN_FAULT.VALID = false ∧
      ((quiet { ops := [sentOp x.2.1 x.2.2 2] }).sp (sentOp x.2.1 x.2.2 2).srcid (sentOp x.2.1 x.2.2 2).sp).ended = false ∧
      ((quiet { ops := [sentOp x.2.1 x.2.2 2] }).sp (sentOp x.2.1 x.2.2 2).srcid (sentOp x.2.1 x.2.2 2).sp).pend.length < 4) x) (typ, kind, len) h⟩


/-- A request of node 1's core 0 at number `seq` for E-space. -/
def reqPkt (typ len addr seq : Nat) : Packet :=
  (⟨typ, 0, true, false, 0, true, false, false, 0, 1, 0, 0, len, 0, seq, addr, 0, 0, (List.range len).map (BitVec.ofNat 8), 0, false⟩ : Packet).sealed

/-- A module of TRN-0304 whose receiver expects number 9 of node 1's core 0. -/
def receiving (held : List Packet) : State :=
  { withQueue {} 0 with variant := .trn0304, win := { rx := [(rxKey 1 0, 9)], held := held }, now := 9000 }

/-- E-space is frozen. -/
def froze (s : State) : State := s.wrs .WIN_TD 0 0 0 [(WIN_TD.FROZEN, 1)]

/-- A fold entry, and a combine entry, opened then. -/
def folding (t : Nat) : State :=
  { receiving [] with win := { fold := [(3, [⟨0x40, 0, 0, t, [reqPkt 2 8 0x40 3]⟩])], comb := [(3, [⟨1, 0, 8, 0, 1, 0, 3, t, true, []⟩])] } }

theorem wit_windowReceiver :
    (∀ typ, typ ≤ 3 → ∃ (s : State) (p : Packet), p.typ = typ ∧ p.vc = 0 ∧ s.rxCase p = .excluded) ∧
    (∀ typ, typ ≤ 3 → ∃ (s : State) (p : Packet), p.typ = typ ∧ p.vc = 0 ∧ s.rxCase p = .corrupt ∧ s.flt.egressOff = false ∧ s.pwr.up = true) ∧
    (∀ typ, typ ≤ 3 → ∃ (s : State) (p : Packet), p.typ = typ ∧ p.vc = 0 ∧ s.rxCase p = .stale) ∧
    (∀ typ, typ ≤ 3 → ∃ (s : State) (p : Packet), p.typ = typ ∧ p.vc = 0 ∧ s.rxCase p = .ahead) ∧
    (∃ (s : State) (p : Packet), p.typ = 1 ∧ p.vc = 0 ∧ s.rxCase p = .next ∧ s.frozen = true ∧ s.win.held.length < 4096) ∧
    (∃ (s : State) (p : Packet), p.typ = 0 ∧ p.vc = 0 ∧ s.rxCase p = .next ∧ s.frozen = true ∧ s.win.fold = [] ∧ s.variant.resBase + 1 = p.addr + p.len ∧
      s.flt.egressOff = false ∧ s.pwr.up = true) ∧
    (∀ typ, typ = 1 ∨ typ = 3 → ∃ (s : State) (p : Packet), p.typ = typ ∧ p.vc = 0 ∧ s.rxCase p = .next ∧ s.frozen = false ∧ s.win.fold = [] ∧
      p.addr + p.len = s.variant.resBase) ∧
    (∃ (s : State) (p : Packet), p.typ = 0 ∧ p.vc = 0 ∧ s.rxCase p = .next ∧ s.frozen = true ∧ s.win.fold = [] ∧ p.addr + p.len = s.variant.resBase) ∧
    (∃ (s : State) (p : Packet), p.typ = 2 ∧ p.vc = 0 ∧ s.rxCase p = .next ∧ s.frozen = false ∧ s.win.fold = [] ∧ p.addr + p.len = s.variant.resBase ∧
      s.foldable p = false) ∧
    (∃ (s : State) (p : Packet), p.typ = 2 ∧ p.vc = 0 ∧ s.rxCase p = .next ∧ s.frozen = false ∧ s.win.fold = [] ∧ p.addr + p.len = s.variant.resBase ∧
      s.foldable p = true ∧ foldLines p = [p.addr / 64 * 64] ∧ (s.combs (foldSlice p.addr)).length < 1024) ∧
    (∃ (s : State) (p : Packet), s.win.held = [p] ∧ p.seq = s.rxNext p.src p.srcid ∧ s.frozen = false ∧ s.win.fold = [] ∧ p.addr + p.len ≤ s.variant.resBase ∧ p.typ = 1) ∧
    (∃ s : State, s.win.held = []) ∧
    (∃ (s : State) (p : Packet), p.typ = 8 ∧ s.excluded p.src = false ∧ p.crcOk = true ∧ p.epoch = s.epoch32 ∧ s.win.skips = [] ∧ p.seq = s.rxNext p.src p.srcid ∧
      p.seq < 2 ^ 32) ∧
    (∃ (s : State) (p : Packet), p.typ = 8 ∧ s.excluded p.src = false ∧ p.crcOk = true ∧ p.epoch = s.epoch32 ∧ s.win.skips = [] ∧ s.rxNext p.src p.srcid + 1 = p.seq) ∧
    (∃ (s : State) (p : Packet), p.typ = 8 ∧ s.excluded p.src = false ∧ p.crcOk = true ∧ p.epoch = s.epoch32 ∧ s.win.skips = [] ∧ p.seq + 1 = s.rxNext p.src p.srcid) ∧
    (∀ d, d < 2 → ∃ (s : State) (b i : Nat) (e : FoldEntry), (s.folds b)[i]? = some e ∧ e.openAt + 64 = s.now + d) ∧
    (∀ d n, d < 2 → n = 64 ∨ n = 8000 → ∃ (s : State) (b i : Nat) (e : CombEntry), (s.combs b)[i]? = some e ∧ e.openAt + n = s.now + d) := by
  refine ⟨fun t h => ⟨(receiving []).wrs .ROLL_NODE 0 1 0 [(ROLL_NODE.STATE, 3)], reqPkt t 8 0 9, (by decide +kernel : ∀ t, t ≤ 3 → (reqPkt t 8 0 9).typ = t ∧
      (reqPkt t 8 0 9).vc = 0 ∧ ((receiving []).wrs .ROLL_NODE 0 1 0 [(ROLL_NODE.STATE, 3)]).rxCase (reqPkt t 8 0 9) = .excluded) t h⟩,
    fun t h => ⟨receiving [], { reqPkt t 8 0 9 with crc := 0 }, (by decide +kernel : ∀ t, t ≤ 3 → (reqPkt t 8 0 9).typ = t ∧ (reqPkt t 8 0 9).vc = 0 ∧
      (receiving []).rxCase { reqPkt t 8 0 9 with crc := 0 } = .corrupt ∧ (receiving []).flt.egressOff = false ∧ (receiving []).pwr.up = true) t h⟩,
    fun t h => ⟨receiving [], (Packet.sealed { reqPkt t 8 0 9 with epoch := 1 }), (by decide +kernel : ∀ t, t ≤ 3 → (reqPkt t 8 0 9).typ = t ∧ (reqPkt t 8 0 9).vc = 0 ∧
      (receiving []).rxCase (Packet.sealed { reqPkt t 8 0 9 with epoch := 1 }) = .stale) t h⟩,
    fun t h => ⟨receiving [], reqPkt t 8 0 10, (by decide +kernel : ∀ t, t ≤ 3 → (reqPkt t 8 0 10).typ = t ∧ (reqPkt t 8 0 10).vc = 0 ∧
      (receiving []).rxCase (reqPkt t 8 0 10) = .ahead) t h⟩,
    ⟨froze (receiving []), reqPkt 1 8 0 9, by decide +kernel⟩, ⟨froze (receiving []), reqPkt 0 8 (Variant.resBase .trn0304 - 7) 9, by decide +kernel⟩, ?_,
    ⟨froze (receiving []), reqPkt 0 8 (Variant.resBase .trn0304 - 8) 9, by decide +kernel⟩,
    ⟨receiving [], reqPkt 2 8 (Variant.resBase .trn0304 - 8) 9, by decide +kernel⟩,
    ⟨(receiving []).wrs .WIN_GUARD 0 0 0 [(WIN_GUARD.FOLD, 1)], reqPkt 2 8 (Variant.resBase .trn0304 - 8) 9, by decide +kernel⟩,
    ⟨receiving [reqPkt 1 8 0x40 9], reqPkt 1 8 0x40 9, by decide +kernel⟩, ⟨idle, rfl⟩, ⟨receiving [], reqPkt 8 0 0 9, by decide +kernel⟩,
    ⟨receiving [], reqPkt 8 0 0 10, by decide +kernel⟩, ⟨receiving [], reqPkt 8 0 0 8, by decide +kernel⟩, fun d h => ⟨folding (8936 + d), 3, 0, _, rfl, ?_⟩,
    fun d n h k => ⟨folding (9000 + d - n), 3, 0, _, rfl, ?_⟩⟩
  · intro t h
    rcases h with rfl | rfl
    · exact ⟨receiving [], reqPkt 1 8 (Variant.resBase .trn0304 - 8) 9, by decide +kernel⟩
    · exact ⟨receiving [], reqPkt 3 8 (Variant.resBase .trn0304 - 8) 9, by decide +kernel⟩
  · show 8936 + d + 64 = 9000 + d
    omega
  · show 9000 + d - n + n = 9000 + d
    rcases k with rfl | rfl <;> omega

/-- A routing entry's change request: node 7 to link 3, sequence number 5. -/
def chgReq : List Byte :=
  leBytes 4 0x4C584352 ++ [4] ++ leBytes 3 0 ++ leBytes 2 0 ++ leBytes 6 0 ++ List.replicate 16 0 ++ leBytes 8 0 ++ leBytes 8 5 ++ leBytes 4 1 ++ leBytes 4 0 ++
    leBytes 4 7 ++ leBytes 4 0 ++ leBytes 8 3

/-- A manifest of the routing table with an empty image, up to its digest. -/
def chgHead : List Byte :=
  leBytes 4 0x4C584352 ++ [5] ++ leBytes 3 0 ++ leBytes 2 0 ++ leBytes 6 0 ++ List.replicate 16 0 ++ leBytes 8 0 ++ leBytes 8 5 ++ leBytes 4 0 ++ leBytes 4 0 ++
    leBytes 4 0 ++ leBytes 4 0 ++ leBytes 8 0

/-- A field of the head is read from the head, whatever digest follows. -/
theorem num_chgHead (dig : List Byte) (a n : Nat) (h : a + n ≤ 72) : num (chgHead ++ dig) a n = num chgHead a n := by
  have hl : chgHead.length = 72 := by decide +kernel
  unfold num cut
  rw [List.drop_append_of_le_length (by omega), List.take_append_of_le_length (by rw [List.length_drop]; omega)]

/-- What follows the head is the digest. -/
theorem cut_chgHead (dig : List Byte) : cut (chgHead ++ dig) 72 64 = dig.take 64 := by
  have hl : chgHead.length = 72 := by decide +kernel
  unfold cut
  rw [← hl, List.drop_left]

/-- Reading no bytes. -/
theorem read_chgHead (s : State) (dig : List Byte) : (s.eRead (num (chgHead ++ dig) 64 8) (8 * num (chgHead ++ dig) 60 4) 0 false .loader) = s.eRead 0 0 0 false .loader := by
  rw [num_chgHead _ _ _ (by omega), num_chgHead _ _ _ (by omega), (by decide +kernel : num chgHead 64 8 = 0), (by decide +kernel : num chgHead 60 4 = 0)]

/-- The module with this manifest verified. -/
def loading (dig : List Byte) : State := { idle with win := { change := some ⟨chgHead ++ dig, true, 0⟩ } }

theorem read_loading (dig : List Byte) : ((loading dig).eRead 0 0 0 false .loader).ue = false ∧ ((loading dig).eRead 0 0 0 false .loader).data = [] := ⟨rfl, rfl⟩

theorem wit_teardownAndChanges :
    (∃ (s : State) (m : V128), s.linkLit = true ∧ bits m.toNat 127 64 ≠ s.epoch) ∧ (∃ (s : State) (m : V128), s.linkLit = true ∧ bits m.toNat 127 64 = s.epoch) ∧
    (∃ (s : State) (p : Packet), p.typ = 10 ∧ p.aux % 256 = 0x10 ∧ s.excluded p.src = false ∧ p.crcOk = true ∧ p.epoch ≠ s.epoch32) ∧
    (∃ (s : State) (p : Packet), p.typ = 10 ∧ p.aux % 256 = 0x10 ∧ s.excluded p.src = false ∧ p.crcOk = true ∧ p.epoch = s.epoch32 ∧
      (∀ q, (s.queue q).st = 0) ∧ s.cores = [] ∧ s.col.ctxs = [] ∧ s.que.cmds = [] ∧ s.win.fold = []) ∧
    (∃ s : State, s.linkLit = true ∧ s.boot.stage = 12 ∧ s.win.change = none) ∧ (∃ s : State, s.linkLit = true ∧ s.boot.stage ≠ 12) ∧
    (∃ s : State, s.linkLit = true ∧ s.win.change.isSome = true) ∧
    (∃ (s : State) (d n : List Byte), s.win.change = some ⟨d, false, 0⟩ ∧ s.verify 0 d ≠ 0 ∧ s.win.attests = [n]) ∧
    (∃ (s : State) (d : List Byte), s.win.change = some ⟨d, true, 0⟩ ∧ num d 4 1 ∈ [1, 3, 5] ∧ s.frozen = false ∧
      (s.eRead (num d 64 8) (8 * num d 60 4) 0 false .loader).ue = false ∧
      Config.sha3 (s.eRead (num d 64 8) (8 * num d 60 4) 0 false .loader).data ≠ cut d 72 64) := by
  refine ⟨⟨withQueue {} 0, 1 <<< 64, by decide +kernel⟩, ⟨withQueue {} 0, 1, by decide +kernel⟩, ⟨idle, Packet.sealed ⟨10, 3, false, false, 0, false, false, false, 0, 1, 0, 0, 0, 1, 0, 0, 0x10, 0, [], 0, false⟩, by decide +kernel⟩,
    ⟨idle, Packet.sealed ⟨10, 3, false, false, 0, false, false, false, 0, 1, 0, 0, 0, 0, 0, 0, 0x10, 0, [], 0, false⟩, rfl, rfl, by decide +kernel, by decide +kernel, rfl, fun q => rfl, by decide +kernel⟩,
    ⟨withQueue {} 0, by decide +kernel⟩, ⟨{ withQueue {} 0 with boot := { stage := 11 } }, by decide +kernel⟩,
    ⟨{ withQueue {} 0 with win := { change := some ⟨[], false, 0⟩ } }, by decide +kernel⟩, ⟨{ idle with win := { change := some ⟨[], false, 0⟩, attests := [[1]] } }, [], [1], rfl, by decide +kernel, rfl⟩, ?_⟩
  have key : ∀ dig : List Byte, Config.sha3 [] ≠ dig.take 64 → ∃ (s : State) (d : List Byte), s.win.change = some ⟨d, true, 0⟩ ∧ num d 4 1 ∈ [1, 3, 5] ∧
      s.frozen = false ∧ (s.eRead (num d 64 8) (8 * num d 60 4) 0 false .loader).ue = false ∧
      Config.sha3 (s.eRead (num d 64 8) (8 * num d 60 4) 0 false .loader).data ≠ cut d 72 64 := by
    intro dig h
    refine ⟨loading dig, chgHead ++ dig, rfl, ?_, ?_, ?_, ?_⟩
    · rw [num_chgHead _ _ _ (by omega)]; decide +kernel
    · rfl
    · rw [read_chgHead]; exact (read_loading dig).1
    · rw [read_chgHead, (read_loading dig).2, cut_chgHead]; exact h
  by_cases h : Config.sha3 [] = [0]
  · exact key [1] (by rw [h]; decide)
  · exact key [0] h

/-- Where the digest of nothing has its 64 bytes, a manifest of an empty range has the right digest. -/
theorem wit_manifestDigest (h : (Config.sha3 []).length = 64) : ∃ (s : State) (d : List Byte) (r r2 : Rd), s.win.change = some ⟨d, true, 0⟩ ∧ num d 4 1 ∈ [1, 3, 5] ∧
    s.frozen = false ∧ r = s.eRead (num d 64 8) (8 * num d 60 4) 0 false .loader ∧ r.ue = false ∧ Config.sha3 r.data = cut d 72 64 ∧
    r.st.entriesOk (num d 4 1) ((List.range (num d 60 4)).map (fun i => (num d 56 4 + i, num r.data (8 * i) 8))) = true ∧
    r2 = r.st.eRead (num d 64 8) (8 * num d 60 4) 0 false .loader ∧ r2.ue = false ∧ Config.sha3 r2.data = cut d 72 64 := by
  refine ⟨loading (Config.sha3 []), chgHead ++ Config.sha3 [], _, _, rfl, ?_, ?_, rfl, ?_, ?_, ?_, rfl, ?_, ?_⟩
  · rw [num_chgHead _ _ _ (by omega)]; decide +kernel
  · rfl
  · rw [read_chgHead]; exact (read_loading _).1
  · rw [read_chgHead, (read_loading _).2, cut_chgHead, List.take_of_length_le (by omega)]
  · rw [num_chgHead _ 60 4 (by omega), (by decide +kernel : num chgHead 60 4 = 0), num_chgHead _ 4 1 (by omega)]; rfl
  · rw [read_chgHead, read_chgHead]; rfl
  · rw [read_chgHead, read_chgHead, cut_chgHead, List.take_of_length_le (by omega)]; rfl

/-- A manifest of one routing entry, of this node, whose image is the word at 0 of E-space, up to its digest. -/
def chgOne : List Byte :=
  leBytes 4 0x4C584352 ++ [5] ++ leBytes 3 0 ++ leBytes 2 0 ++ leBytes 6 0 ++ List.replicate 16 0 ++ leBytes 8 0 ++ leBytes 8 5 ++ leBytes 4 0 ++ leBytes 4 0 ++
    leBytes 4 0 ++ leBytes 4 1 ++ leBytes 8 0

/-- A field of that head is read from it, whatever digest follows. -/
theorem num_chgOne (dig : List Byte) (a n : Nat) (h : a + n ≤ 72) : num (chgOne ++ dig) a n = num chgOne a n := by
  have hl : chgOne.length = 72 := by decide +kernel
  unfold num cut
  rw [List.drop_append_of_le_length (by omega), List.take_append_of_le_length (by rw [List.length_drop]; omega)]

/-- What follows that head is the digest. -/
theorem cut_chgOne (dig : List Byte) : cut (chgOne ++ dig) 72 64 = dig.take 64 := by
  have hl : chgOne.length = 72 := by decide +kernel
  unfold cut
  rw [← hl, List.drop_left]

/-- A module without bay caches, with this manifest verified. -/
def loadingOne (dig : List Byte) : State :=
  { idle.wrs .BAY_CFG 0 0 0 [(BAY_CFG.EN, 0)] with win := { change := some ⟨chgOne ++ dig, true, 0⟩ } }

/-- Its image as it stands in a state. -/
def chgImage (s : State) : Rd := s.eRead 0 8 0 false .loader

/-- A word that was never written, where the check finds nothing, reads as the next free value. -/
theorem hbmWord_free (s : State) (g : Agent) (h : s.stackStopped 0 = false) (n : (s.incWrap MEM_RD.BYTES 8 0).hbmDefined 0 = false)
    (c : ∀ n, Config.unwrittenCheck n = 0) :
    s.hbmWord 0 g = .ok (leBytes 8 (s.incWrap MEM_RD.BYTES 8 0).free64.1.toNat) (s.incWrap MEM_RD.BYTES 8 0).free64.2 := by
  unfold State.hbmWord
  simp only [h, c, show 0 / stackSize = 0 from rfl, n]
  by_cases k : hbmKind s.variant 0 = 1 <;> simp [k]

/-- So does the image, each time anew. -/
theorem chgImage_free (s : State) (h : (s.incWrap BAY_CNT0.MISSES 1 0).stackStopped 0 = false) (en : s.rdB BAY_CFG.EN 0 = false)
    (fr : s.frozen = false)
    (n : ((s.incWrap BAY_CNT0.MISSES 1 0).incWrap MEM_RD.BYTES 8 0).hbmDefined 0 = false) (c : ∀ n, Config.unwrittenCheck n = 0) :
    chgImage s = .ok (leBytes 8 (Config.freeWord s.free).toNat) ((s.incWrap BAY_CNT0.MISSES 1 0).incWrap MEM_RD.BYTES 8 0).free64.2 := by
  have e : linePieces 0 8 = [(0, 8)] := by decide +kernel
  have l : lineOf 0 = (0, 0) := by decide +kernel
  have k : (s.lineRead 0 0 [0] 0 false .loader) = .ok (leBytes 8 (Config.freeWord s.free).toNat)
      ((s.incWrap BAY_CNT0.MISSES 1 0).incWrap MEM_RD.BYTES 8 0).free64.2 := by
    unfold State.lineRead
    simp only [en, fr]
    simp only [State.stackWords, foldRd, lineAddr, Nat.zero_mul, Nat.mul_zero, Nat.add_zero]
    rw [hbmWord_free _ _ h n c]
    simp [Rd.ok]
    rfl
  unfold chgImage State.eRead
  rw [e]
  simp only [List.foldl_cons, List.foldl_nil, l]
  simp only [Rd.ok, show (List.range ((0 % 128 + 8 - 1) / 8 - 0 % 128 / 8 + 1)).map (· + 0 % 128 / 8) = [0] from rfl]
  simp only [k, Rd.ok]
  rfl

/-- What a reading leaves behind beside the counts changes none of these. -/
theorem rdB_rest (s : State) (w : Win) (n : Nat) : ({ s with win := w, free := n } : State).rdB BAY_CFG.EN 0 = s.rdB BAY_CFG.EN 0 ∧
    ({ s with win := w, free := n } : State).frozen = s.frozen ∧ ((({ s with win := w, free := n } : State).incWrap BAY_CNT0.MISSES 1 0).incWrap MEM_RD.BYTES 8 0).hbmDefined 0 =
      ((s.incWrap BAY_CNT0.MISSES 1 0).incWrap MEM_RD.BYTES 8 0).hbmDefined 0 := ⟨rfl, rfl, rfl⟩

theorem chgImage_loadingOne (dig : List Byte) :
    (loadingOne dig).eRead (num (chgOne ++ dig) 64 8) (8 * num (chgOne ++ dig) 60 4) 0 false .loader = chgImage (loadingOne dig) ∧
    ∀ s : State, s.eRead (num (chgOne ++ dig) 64 8) (8 * num (chgOne ++ dig) 60 4) 0 false .loader = chgImage s := by
  rw [num_chgOne _ _ _ (by omega), num_chgOne _ _ _ (by omega), (by decide +kernel : num chgOne 64 8 = 0), (by decide +kernel : num chgOne 60 4 = 1)]
  exact ⟨rfl, fun _ => rfl⟩

/-- Where the check of words that were never written finds nothing, and the first two free words differ in their digests, of which the first
spells this module's routing entry, a manifest's image changes between its two readings. -/
theorem wit_manifestChanged (c : ∀ n, Config.unwrittenCheck n = 0) (v : Config.freeWord 0 = 31) (h : (Config.sha3 (leBytes 8 31)).length = 64)
    (ne : Config.sha3 (leBytes 8 (Config.freeWord 1).toNat) ≠ Config.sha3 (leBytes 8 31)) :
    ∃ (s : State) (d : List Byte) (r r2 : Rd), s.win.change = some ⟨d, true, 0⟩ ∧ num d 4 1 = 5 ∧ s.frozen = false ∧
    r = s.eRead (num d 64 8) (8 * num d 60 4) 0 false .loader ∧ r.ue = false ∧ Config.sha3 r.data = cut d 72 64 ∧
    r.st.entriesOk (num d 4 1) ((List.range (num d 60 4)).map (fun i => (num d 56 4 + i, num r.data (8 * i) 8))) = true ∧
    r2 = r.st.eRead (num d 64 8) (8 * num d 60 4) 0 false .loader ∧ r2.ue = false ∧ Config.sha3 r2.data ≠ cut d 72 64 ∧
    num d 56 4 + num d 60 4 ≤ 512 ∧ 0 < num d 60 4 := by
  let dig := Config.sha3 (leBytes 8 31)
  have en : (idle.wrs .BAY_CFG 0 0 0 [(BAY_CFG.EN, 0)]).rdB BAY_CFG.EN 0 = false := by decide +kernel
  have fr : (idle.wrs .BAY_CFG 0 0 0 [(BAY_CFG.EN, 0)]).frozen = false := by decide +kernel
  have n : (((idle.wrs .BAY_CFG 0 0 0 [(BAY_CFG.EN, 0)]).incWrap BAY_CNT0.MISSES 1 0).incWrap MEM_RD.BYTES 8 0).hbmDefined 0 = false := by decide +kernel
  have n2 : (((((idle.wrs .BAY_CFG 0 0 0 [(BAY_CFG.EN, 0)]).incWrap BAY_CNT0.MISSES 1 0).incWrap MEM_RD.BYTES 8 0).incWrap BAY_CNT0.MISSES 1 0).incWrap
    MEM_RD.BYTES 8 0).hbmDefined 0 = false := by decide +kernel
  have en2 : ((((idle.wrs .BAY_CFG 0 0 0 [(BAY_CFG.EN, 0)]).incWrap BAY_CNT0.MISSES 1 0).incWrap MEM_RD.BYTES 8 0)).rdB BAY_CFG.EN 0 = false := by
    decide +kernel
  have fr2 : ((((idle.wrs .BAY_CFG 0 0 0 [(BAY_CFG.EN, 0)]).incWrap BAY_CNT0.MISSES 1 0).incWrap MEM_RD.BYTES 8 0)).frozen = false := by decide +kernel
  have a := chgImage_free (loadingOne dig) rfl en fr n c
  have b := chgImage_free (chgImage (loadingOne dig)).st (by rw [a]; rfl) (by rw [a]; exact ((rdB_rest _ _ _).1).trans en2)
    (by rw [a]; exact ((rdB_rest _ _ _).2.1).trans fr2) (by rw [a]; exact ((rdB_rest _ _ _).2.2).trans n2) c
  have d1 : (chgImage (loadingOne dig)).data = leBytes 8 31 := by
    rw [a]
    show leBytes 8 (Config.freeWord 0).toNat = _
    rw [v]; rfl
  have d2 : (chgImage (chgImage (loadingOne dig)).st).data = leBytes 8 (Config.freeWord 1).toNat := by
    rw [b, a]; rfl
  have k : cut (chgOne ++ dig) 72 64 = dig := by rw [cut_chgOne, List.take_of_length_le (le_of_eq h)]
  refine ⟨loadingOne dig, chgOne ++ dig, _, _, rfl, ?_, rfl, rfl, ?_, ?_, ?_, rfl, ?_, ?_, ?_, ?_⟩
  · rw [num_chgOne _ _ _ (by omega)]; decide +kernel
  · rw [(chgImage_loadingOne dig).1, a]; rfl
  · rw [(chgImage_loadingOne dig).1, d1, k]
  · rw [(chgImage_loadingOne dig).1, d1, num_chgOne _ 4 1 (by omega), num_chgOne _ 56 4 (by omega), num_chgOne _ 60 4 (by omega), a]
    decide +kernel
  · rw [(chgImage_loadingOne dig).2, (chgImage_loadingOne dig).2, b]; rfl
  · rw [(chgImage_loadingOne dig).2, (chgImage_loadingOne dig).2, d2, k]; exact ne
  · rw [num_chgOne _ 56 4 (by omega), num_chgOne _ 60 4 (by omega)]; decide +kernel
  · rw [num_chgOne _ 60 4 (by omega)]; decide +kernel

/-- A change request of node 0 for epoch 0, number 5: its KIND, its entry count, and its body after the first 56 bytes. -/
def request (kind count : Nat) (body : List Byte) : List Byte :=
  leBytes 4 0x4C584352 ++ [BitVec.ofNat 8 kind] ++ leBytes 3 0 ++ leBytes 2 0 ++ leBytes 6 0 ++ List.replicate 16 0 ++ leBytes 8 0 ++ leBytes 8 5 ++
    leBytes 4 count ++ leBytes 4 0 ++ body ++ (List.replicate 8 0 ++ [1] ++ List.replicate 7 0 ++ List.replicate 2592 1 ++ List.replicate 9254 0) ++
    (List.replicate 8 0 ++ [2] ++ List.replicate 7 0 ++ List.replicate 2592 2 ++ List.replicate 9254 0)

/-- A module with a site key that has not been asked anything. -/
def sited (d : List Byte) : State :=
  { idle with boot := { idle.boot with siteKey := some [] }, win := { change := some ⟨d, false, 0⟩ } }

/-- Where the signatures verify and the identity's hash is the one named, a request is verified: a routing entry (node 7 to link 3), and a
manifest of the routing table. -/
theorem wit_verified (sig : ∀ pub dig sg, Config.mldsaVerify pub dig sg = true) (idh : idle.idHash = List.replicate 16 0) :
    (∃ (s : State) (d : List Byte) (i v : Nat), s.win.change = some ⟨d, false, 0⟩ ∧ s.verify 0 d = 0 ∧ num d 4 1 = 4 ∧ chgEntries d = [(i, v)]) ∧
    (∃ (s : State) (d : List Byte), s.win.change = some ⟨d, false, 0⟩ ∧ s.verify 0 d = 0 ∧ chgManifest (num d 4 1) = true) := by
  have h : ∀ d, (sited d).idHash = List.replicate 16 0 := fun _ => idh
  have k : ∀ d : List Byte, (sited d).verify 0 d = (if !chgForm d then 2 else
      if num d (chgBody d + 8) 1 ≠ 1 ∨ num d (chgBody d + certLen + sigLen + 8) 1 ≠ 2 ∨ certKey d (chgBody d) = certKey d (chgBody d + certLen + sigLen) then 4
      else if num d 8 2 ≠ (sited d).node ∨ cut d 16 16 ≠ List.replicate 16 0 then 7
      else if num d 32 8 ≠ 0 then 8
      else if num d 40 8 ≤ (sited d).rd WIN_CHG_SEQ.SEQ 0 (chgClass (num d 4 1)) then 9
      else if chgManifest (num d 4 1) then (if (sited d).manifestOk d then 0 else 0xA)
      else if (sited d).entriesOk (num d 4 1) (chgEntries d) then 0 else 0xA) := by
    intro d
    show State.verify _ 0 d = _
    unfold State.verify
    simp only [certOk, sig, h]
    rfl
  refine ⟨⟨sited (request 4 1 (leBytes 4 7 ++ leBytes 4 0 ++ leBytes 8 3)), request 4 1 (leBytes 4 7 ++ leBytes 4 0 ++ leBytes 8 3), 7, 3, rfl, ?_, ?_, ?_⟩,
    ⟨sited (request 5 0 (List.replicate 80 0)), request 5 0 (List.replicate 80 0), rfl, ?_, ?_⟩⟩
  · rw [k]; decide +kernel
  · decide +kernel
  · decide +kernel
  · rw [k]; decide +kernel
  · decide +kernel


/-! ### Tensor fabric -/

/-- A running module on the fabric, links 2 and 3 UP: node 0 is itself, node 1 is reached by link 3, node 2 by link 4, which is down. -/
def onFabric (links : SMap Link) : State :=
  let s : State := { withQueue {} 0 with now := 90000, fab := { links := links } }
  let s := s.wrs .FAB_NODE 0 0 0 [(FAB_NODE.ONFAB, 1)]
  let s := s.wrs .FAB_LINK 2 0 0 [(FAB_LINK.STATE, 2), (FAB_LINK.WIDTH, 4)]
  let s := s.wrs .FAB_LINK 3 0 0 [(FAB_LINK.STATE, 2), (FAB_LINK.WIDTH, 4)]
  let s := s.wrs .FAB_ECN 0 0 0 [(FAB_ECN.THRESH, 4)]
  let s := s.wrs .FAB_RT 0 0 0 [(FAB_RT.LINK, 31)]
  let s := s.wrs .FAB_RT 0 1 0 [(FAB_RT.LINK, 3)]
  s.wrs .FAB_RT 0 2 0 [(FAB_RT.LINK, 4)]

/-- A packet of this type for a node, after some hops. -/
def hopPkt (typ dst hops : Nat) : Packet :=
  (⟨typ, typeVc typ, false, true, hops, true, false, false, dst, 1, 0, 0, 8, 0, 9, 0x40, 0, 0, List.replicate 8 7, 0, false⟩ : Packet).sealed

/-- A combinable read, at a router with an entry that it matches. -/
def combRead : Packet := { hopPkt 0 0 3 with comb := true }
/-- See `combRead`. -/
def combining : State :=
  let s := (onFabric []).wrs .WIN_GUARD 0 0 0 [(WIN_GUARD.RDCOMB, 1)]
  { s with win := { s.win with comb := [(0, [⟨0, 0x40, 8, 0, 1, 1, 3, 90000 - 63, true, []⟩])] } }

/-- Link 3's queue with one packet of 1024 us ago on channel 0. -/
def waitingOn (typ t : Nat) : State := (onFabric [(3, { queue := [⟨hopPkt typ 1 1, t, 2, false⟩], credits := [0, 0, 0, 0, 0] })]).wrs .FAB_CFG 0 0 0 [(FAB_CFG.STUCK, 50)]

/-- Link 3's data fibres, with a role and positions, tuned. -/
def fibred (st wid role : Nat) : State :=
  let f := fun (i : Nat) => (24 + i, ({ txOk := true, rxOk := true, pos := if i < 4 then some i else none } : Fibre))
  let s := (onFabric [(3, { full := 4 })]).wrs .FAB_LINK 3 0 0 [(FAB_LINK.STATE, st), (FAB_LINK.WIDTH, wid)]
  let s : State := { s with pho := { s.pho with fibres := (List.range 5).map f } }
  let s := (List.range 5).foldl (fun s i => s.setRole (24 + i) role i) s
  s.wrs .FAB_CFG 0 0 0 [(FAB_CFG.DOZE, 10)]

/-- A packet that finds a slot free in a link that is up. -/
abbrev Taken (s : State) (l : Nat) (p : Packet) : Prop :=
  l < 16 ∧ s.linksRun = true ∧ s.linkUp l = true ∧ (s.link l).used.length = 5 ∧ (s.slotFor l p.vc).isSome = true

/-- A link that can train. -/
abbrev Trains (s : State) (l : Nat) : Prop :=
  l < s.variant.links ∧ s.rd FAB_LINK.STATE l ∈ [0, 1, 6] ∧ 9 ≤ s.boot.stage ∧ s.boot.stage ≤ 12 ∧ s.rd FAB_NODE.STRAPERR = 0 ∧ s.alive = true ∧
    s.stby.inStby = false

/-- Link 3's fibres, tuned and without positions; and with one that is not tuned. -/
def unplaced : State :=
  let s := fibred 6 0 2
  { s with pho := { s.pho with fibres := (List.range 5).map (fun i => (24 + i, ({ txOk := true, rxOk := true } : Fibre))) } }

/-- See `unplaced`. -/
def heldDark : State := unplaced.modFibre 27 (fun x => { x with rxOk := false })

/-- Link 15 with its fibres tuned. -/
def heldFree : State :=
  let s := unplaced
  let s : State := { s with pho := { s.pho with fibres := s.pho.fibres ++ (List.range 5).map (fun i => (120 + i, ({ txOk := true, rxOk := true } : Fibre))) } }
  s

/-- The entry of this module's own read of node 1, with a read attached. -/
def heldEntry : CombEntry := ⟨1, 0x40, 8, 0, 0, 0, 9, 0, false, [combRead]⟩

/-- A module whose slice `b` holds that entry. -/
def answered (b : Nat) : State :=
  let s := onFabric []
  { s with win := { s.win with comb := [(b, [heldEntry])] } }

theorem wit_tensorFabric :
    (∃ (s : State) (l : Nat) (p : Packet), l < 16 ∧ s.linksRun = true ∧ s.linkUp l = true ∧ (s.link l).used.length = 5 ∧ s.slotFor l p.vc = none) ∧
    (∃ (s : State) (l : Nat) (p : Packet), Taken s l p ∧ badPacket p = true) ∧
    (∃ (s : State) (l : Nat) (p : Packet), Taken s l p ∧ badPacket p = false ∧ s.excluded p.src = true ∧ p.typ ≠ 10) ∧
    (∃ (s : State) (l : Nat) (p : Packet), Taken s l p ∧ badPacket p = false ∧ s.excluded p.src = false ∧
      s.rd FAB_RT.LINK 0 p.dst = 31 ∧ p.typ ≠ 0 ∧ p.typ ≠ 4 ∧ p.typ ≠ 7) ∧
    (∀ typ b, typ = 4 ∨ typ = 7 → b = 0 ∨ b = 3 → ∃ (s : State) (l : Nat) (p : Packet) (e : CombEntry), p.typ = typ ∧ Taken s l p ∧ badPacket p = false ∧
      s.excluded p.src = false ∧ s.rd FAB_RT.LINK 0 p.dst = 31 ∧ b < s.variant.bdies ∧ e.answers p = true ∧ e.attached ≠ [] ∧
      (b = l / 4 ↔ b = 0) ∧ (b = srcBdie p.srcid ↔ b = 0) ∧ ∀ d, s.combs d = if d = b then [e] else []) ∧
    (∃ (s : State) (l : Nat) (p : Packet), Taken s l p ∧ badPacket p = false ∧ s.excluded p.src = false ∧
      s.rd FAB_RT.LINK 0 p.dst = 31 ∧ s.combinable p = true ∧ (s.combs (l / 4)).any (fun e => e.takes p s.now) = true) ∧
    (∃ (s : State) (l : Nat) (p : Packet), Taken s l p ∧ badPacket p = false ∧ s.excluded p.src = false ∧
      s.rd FAB_RT.LINK 0 p.dst < 31 ∧ s.linkUp (s.rd FAB_RT.LINK 0 p.dst) = false) ∧
    (∃ (s : State) (l : Nat) (p : Packet), Taken s l p ∧ badPacket p = false ∧ s.excluded p.src = false ∧
      s.rd FAB_RT.LINK 0 p.dst < 31 ∧ s.linkUp (s.rd FAB_RT.LINK 0 p.dst) = true ∧ p.hops = max 1 (s.rd FAB_CFG.MAXHOPS)) ∧
    (∀ b : Bool, ∃ (s : State) (l : Nat) (p : Packet), Taken s l p ∧ badPacket p = false ∧ s.excluded p.src = false ∧
      s.rd FAB_RT.LINK 0 p.dst < 31 ∧ s.linkUp (s.rd FAB_RT.LINK 0 p.dst) = true ∧ p.hops ≠ max 1 (s.rd FAB_CFG.MAXHOPS) ∧ p.typ ≠ 0 ∧ p.typ ≠ 4 ∧ p.typ ≠ 7 ∧
      (s.link (s.rd FAB_RT.LINK 0 p.dst)).queue = [] ∧ (takeCredit (s.link (s.rd FAB_RT.LINK 0 p.dst)).credits p.vc).isSome = b ∧ 1 ≤ s.rd FAB_ECN.THRESH) ∧
    (∃ (s : State) (l : Nat) (p : Packet), 16 ≤ l ∧ s.fab.local_.contains p = true ∧ s.alive = true ∧ s.excluded p.src = false ∧ badPacket p = false ∧
      p.typ ≠ 0 ∧ p.typ ≠ 4 ∧ p.typ ≠ 7 ∧ p.dst = s.node ∧ s.rd FAB_RT.LINK 0 p.dst ≠ 31) ∧
    (∃ (s : State) (l : Nat) (p : Packet), 16 ≤ l ∧ s.fab.local_.contains p = true ∧ s.alive = true ∧ s.excluded p.src = false ∧ badPacket p = false ∧
      p.typ ≠ 0 ∧ p.typ ≠ 4 ∧ p.typ ≠ 7 ∧ p.dst ≠ s.node ∧ s.rd FAB_RT.LINK 0 p.dst = 31) ∧
    (∃ (s : State) (l i : Nat) (w : Waiting), (s.link l).queue[i]? = some w ∧ w.pkt.vc ≠ 3 ∧ w.since + max 1 (s.rd FAB_CFG.STUCK) * 1000 = s.now ∧
      takeCredit (s.link l).credits w.pkt.vc = none) ∧
    (∃ (s : State) (l i : Nat) (w : Waiting), (s.link l).queue[i]? = some w ∧ w.pkt.vc = 3) ∧
    (∃ (s : State) (l i : Nat) (w : Waiting), (s.link l).queue[i]? = some w ∧ s.now + 1 = w.since + max 1 (s.rd FAB_CFG.STUCK) * 1000) ∧
    (∃ (s : State) (l : Nat), s.linkUp l = true ∧ (s.link l).queue = [] ∧ (s.link l).credits.length = 5) ∧
    (∃ (s : State) (l : Nat), s.linkUp l = true) ∧ (∃ d : List Byte, hopOk d = true) ∧ (∃ d : List Byte, 36 < d.length ∧ hopOk d = false) ∧
    (∃ (s : State) (l f : Nat), s.linkUp l = false ∧ f = 128 ∧ fibExists s.variant f = true) ∧
    (∀ b : Bool, ∃ (s : State) (l : Nat), Trains s l ∧ s.linkHeld l = true ∧ (s.link l).miswired = b) ∧
    (∃ (s : State) (l peer : Nat), Trains s l ∧ s.linkHeld l = false ∧ peer = s.node) ∧
    (∃ (s : State) (l peer pv : Nat), Trains s l ∧ s.linkHeld l = false ∧ peer ≠ s.node ∧ coordDiff peer s.node = 2 ∧ pv = s.variant.part) ∧
    (∃ (s : State) (l peer : Nat), l + 1 = s.variant.links ∧ Trains s l ∧ s.linkHeld l = false ∧ peer ≠ s.node ∧ coordDiff peer s.node = 1 ∧ s.peerTaken l peer = true) ∧
    (∃ (s : State) (l peer : Nat), Trains s l ∧ s.linkHeld l = false ∧ peer ≠ s.node ∧ coordDiff peer s.node = 1 ∧ s.peerTaken l peer = false ∧ peer < 512 ∧
      (∀ f, f < 5 → (s.fibre (8 * l + f)).pos = none ∧ (s.fibre (8 * l + f)).out = false) ∧
      ∀ f, f < 4 → s.fibWorks (8 * l + f) = true ∧ s.srcStage (fibSource s.variant (8 * l + f)) < 2) ∧
    (∀ st, st = 2 ∨ st = 3 → ∃ (s : State) (l us f : Nat) (r : List Nat), l < s.variant.links ∧ s.rd FAB_LINK.STATE l = st ∧ s.rd FAB_CFG.DOZE ≠ 0 ∧
      s.rd FAB_CFG.DOZE = us ∧ s.carrying l = f :: r ∧ r.length = 3 ∧ ∀ g ∈ s.carrying l, s.role g ≠ 4) ∧
    (∃ (s : State) (l n : Nat), l < 16 ∧ s.rd FAB_LINK.STATE l = 4 ∧ (s.link l).full = 4 ∧ (∀ f ∈ s.carrying l, s.srcStage (fibSource s.variant f) < 2 ∧ s.role f ≠ 4) ∧ n = 15 ∧
      (s.link l).queue.length < 16) ∧
    (∃ (s : State) (v : W64), s.live = true ∧ bitB v.toNat 0 = true) ∧ (∃ (s : State) (v : W64), s.live = true ∧ bitB v.toNat 0 = false ∧ s.fab.quiesceAt = none) ∧
    (∃ (s : State) (v : W64), s.live = true ∧ s.drained = true ∧ bits v.toNat 8 0 + bits v.toNat 17 9 + bits v.toNat 26 18 + bits v.toNat 35 27 = 448 ∧ bits v.toNat 35 27 = 16) ∧
    (∃ s : State, s.live = true ∧ s.drained = false) ∧
    (∃ v : W64, bits v.toNat 8 0 + bits v.toNat 17 9 + bits v.toNat 26 18 + bits v.toNat 35 27 = 449) ∧ (∃ v : W64, bits v.toNat 35 27 = 15) := by
  refine ⟨⟨onFabric [(2, { used := [512, 512, 512, 512, 512] })], 2, hopPkt 1 1 1, by decide +kernel⟩, ⟨onFabric [], 2, hopPkt 11 1 1, by decide +kernel⟩, ⟨(onFabric []).wrs .ROLL_NODE 0 1 0 [(ROLL_NODE.STATE, 3)], 2, hopPkt 1 1 1, by decide +kernel⟩,
    ⟨onFabric [], 3, hopPkt 1 0 1, by decide +kernel⟩, ?_, ⟨combining, 2, combRead, by decide +kernel⟩, ⟨onFabric [], 2, hopPkt 1 2 1, by decide +kernel⟩,
    ⟨(onFabric []).wrs .FAB_CFG 0 0 0 [(FAB_CFG.MAXHOPS, 4)], 2, hopPkt 1 1 4, by decide +kernel⟩, ?_,
    ⟨{ (onFabric []).wrs .FAB_RT 0 0 0 [(FAB_RT.LINK, 0)] with fab := { local_ := [hopPkt 1 0 0] } }, 16, hopPkt 1 0 0, by decide +kernel⟩,
    ⟨{ (onFabric []).wrs .FAB_RT 0 2 0 [(FAB_RT.LINK, 31)] with fab := { local_ := [hopPkt 1 2 0] } }, 16, hopPkt 1 2 0, by decide +kernel⟩,
    ⟨waitingOn 1 40000, 3, 0, ⟨hopPkt 1 1 1, 40000, 2, false⟩, rfl, by decide +kernel⟩, ⟨waitingOn 8 0, 3, 0, ⟨hopPkt 8 1 1, 0, 2, false⟩, rfl, by decide +kernel⟩,
    ⟨waitingOn 1 40001, 3, 0, ⟨hopPkt 1 1 1, 40001, 2, false⟩, rfl, by decide +kernel⟩, ⟨onFabric [(3, { credits := [0, 0, 0, 0, 0] })], 3, by decide +kernel⟩,
    ⟨onFabric [], 3, by decide +kernel⟩, ⟨(hopPkt 1 1 1).onHop, by decide +kernel⟩, ⟨List.replicate 40 1, by decide +kernel⟩, ⟨idle, 0, 128, by decide +kernel⟩, ?_,
    ⟨fibred 6 0 2, 3, 0, by decide +kernel⟩, ⟨fibred 6 0 2, 3, 5, State.reset.variant.part, by decide +kernel⟩,
    ⟨(heldFree).wrs .FAB_LINK 2 0 0 [(FAB_LINK.PEER, 1)], 15, 1, by decide +kernel⟩,
    ⟨unplaced, 3, 1, by decide +kernel⟩, ?_,
    ⟨fibred 4 1 2, 3, 15, by decide +kernel⟩, ⟨withQueue {} 0, 1, by decide +kernel⟩, ⟨withQueue {} 0, 0, by decide +kernel⟩,
    ⟨onFabric [(3, {})] |>.wrs .FAB_CTL 0 0 0 [(FAB_CTL.QUIESCE, 1)], BitVec.ofNat 64 (432 + 16 * 2 ^ 27), by decide +kernel⟩, ⟨onFabric [], by decide +kernel⟩,
    ⟨BitVec.ofNat 64 (433 + 16 * 2 ^ 27), by decide +kernel⟩, ⟨BitVec.ofNat 64 (15 * 2 ^ 27), by decide +kernel⟩⟩
  · intro typ b h hb
    refine ⟨answered b, 2, hopPkt typ 0 1, heldEntry, rfl, ?_⟩
    have k : ∀ typ ∈ [4, 7], ∀ b ∈ [0, 3], Taken (answered b) 2 (hopPkt typ 0 1) ∧ badPacket (hopPkt typ 0 1) = false ∧ (answered b).excluded (hopPkt typ 0 1).src = false ∧
        (answered b).rd FAB_RT.LINK 0 (hopPkt typ 0 1).dst = 31 ∧ b < (answered b).variant.bdies ∧ heldEntry.answers (hopPkt typ 0 1) = true ∧ heldEntry.attached ≠ [] ∧
        (b = 2 / 4 ↔ b = 0) ∧ (b = srcBdie (hopPkt typ 0 1).srcid ↔ b = 0) := by
      decide +kernel
    obtain ⟨h1, h2, h3, h4, h5, h6, h7, h8, h9⟩ := k typ (by simpa using h) b (by simpa using hb)
    refine ⟨h1, h2, h3, h4, h5, h6, h7, h8, h9, fun d => ?_⟩
    by_cases e : d = b
    · subst e; simp [answered, State.combs, SMap.get]
    · simp [answered, State.combs, SMap.get, e, Ne.symm e]
  · intro b
    cases b
    · exact ⟨onFabric [], 2, hopPkt 1 1 1, by decide +kernel⟩
    · exact ⟨onFabric [(3, { credits := [0, 0, 0, 0, 1] })], 2, hopPkt 1 1 1, by decide +kernel⟩
  · intro b
    cases b
    · exact ⟨heldDark, 3, by decide +kernel⟩
    · exact ⟨(heldFree).modLink 3 (fun k => { k with miswired := true }), 3, by decide +kernel⟩
  · intro st h
    rcases h with rfl | rfl
    · exact ⟨fibred 2 4 1, 3, 10, 24, [25, 26, 27], by decide +kernel⟩
    · exact ⟨fibred 3 3 1, 3, 10, 24, [25, 26, 27], by decide +kernel⟩


/-! ### Ethernet -/

/-- A queue pair 1 of port 0 that is READY for number 5, PMTU 4096, event 7, its ring of two slots at 0x1000 of E-space, slot 1 next; region
0x300 is 64 bytes at 0x4000 that may be read and written. Tables at 0x8000 (queue pairs) and 0x20000 (regions) of L-space; TRN-0304. -/
def roced (y : Qp) (hbm : List MemCell) : State :=
  let s : State := { withQueue {} 0 with variant := .trn0304, now := 9000000, fab := { qps := [(1, y)] } }
  let s := s.wrs .ETH_CFG 0 0 0 [(ETH_CFG.EN, 1), (ETH_CFG.QPTMO, 2)]
  let s := s.wrs .ETH_STAT 0 0 0 [(ETH_STAT.LINK, 1)]
  let s := s.wrs .ETH_TBL 0 0 0 [(ETH_TBL.QPT, 0x8000), (ETH_TBL.MRT, 0x20000)]
  let qp := [17 + 7 * 2 ^ 29, 5, 0, 0, 0x1000, 2 + 2 ^ 16, 0, 0].flatMap (leBytes 8)
  let mr := [0x4000, 64 + 3 * 2 ^ 40].flatMap (leBytes 8)
  { s with mem := { loft := ((SMap.number 0x8040 qp) ++ (SMap.number 0x23000 mr)).filter (fun c => c.2 != 0), hbm := hbm } }

/-- A request of queue pair 1 for these bytes of the region, in one packet. -/
def ethReq (psn addr len : Nat) : RoceReq := ⟨1, psn, true, true, false, 0x300, addr, len, (List.range len).map (BitVec.ofNat 8)⟩

/-- The entry as `roced` has it. -/
def ethQp : QpEnt := ⟨0x8040, ⟨0, false, (0, 0), 0, 0⟩, 17 + 7 * 2 ^ 29, 2 + 2 ^ 16, 1, 2, 7, 5, 0x1000, 2, 1, false⟩

/-- The pieces of a request that acts. -/
def acting (s : State) (e : Nat) (r : RoceReq) (x : QpEnt) : Prop :=
  s.memOk = true ∧ s.roceUp e = true ∧ s.qpReady e r.qp = (some x, s) ∧ r.ecn = false ∧ r.psn < 2 ^ 24 ∧ r.psn = x.epsn ∧ r.first = true ∧ r.last = true ∧
    (s.qp e r.qp).openAt = none

theorem acting_ethReq (s : State) (a n : Nat) (h : s.memOk = true ∧ s.roceUp 0 = true ∧ s.qpReady 0 1 = (some ethQp, s) ∧ (s.qp 0 1).openAt = none) :
    acting s 0 (ethReq 5 a n) ethQp :=
  ⟨h.1, h.2.1, h.2.2.1, rfl, (by decide : 5 < 2 ^ 24), rfl, rfl, rfl, h.2.2.2⟩

theorem wit_ethernetPorts :
    (∃ (s : State) (e : Nat) (v : W64), e + 1 = s.variant.ethPorts ∧ s.live = true ∧ s.rd ETH_CFG.EN e = 1 ∧ bitB v.toNat 0 = false) ∧
    (∃ (s : State) (e : Nat) (v : W64), e + 1 = s.variant.ethPorts ∧ s.live = true ∧ s.rd ETH_CFG.EN e = 0 ∧ bitB v.toNat 0 = true) ∧
    (∃ (s : State) (e : Nat) (r : RoceReq) (x : QpEnt), acting s e r x ∧ s.frozen = false ∧ x.mtu + 1 = r.data.length) ∧
    (∀ d, d = 4 ∨ d = 6 → ∃ (s : State) (e : Nat) (r : RoceReq) (x : QpEnt), s.memOk = true ∧ s.roceUp e = true ∧ s.qpReady e r.qp = (some x, s) ∧ r.ecn = false ∧
      r.psn = d ∧ x.epsn = 5) ∧
    (∃ (s : State) (e : Nat) (r : RoceReq) (x : QpEnt), acting s e r x ∧ s.frozen = false ∧ r.data.length ≤ x.mtu ∧ s.regionOk e r.rkey r.addr r.len true = (false, s)) ∧
    (∃ (s : State) (e : Nat) (r : RoceReq) (x : QpEnt), acting s e r x ∧ s.frozen = false ∧ r.data.length ≤ x.mtu ∧ s.regionOk e r.rkey r.addr r.len true = (true, s) ∧ r.data.length = r.len) ∧
    (∃ (s : State) (e : Nat) (r : RoceReq) (x : QpEnt), acting s e r x ∧ s.frozen = true) ∧
    (∃ (s : State) (e : Nat) (r : RoceReq) (x : QpEnt), acting s e r x ∧ s.regionOk e r.rkey r.addr r.len false = (true, s) ∧
      ((s.qpStep x (max 1 (ceilDiv r.len (1024 * 2 ^ x.pmtu)))).eRead r.addr r.len 0 false .outside).ue = false) ∧
    (∃ (s : State) (e : Nat) (r : RoceReq) (x : QpEnt), acting s e r x ∧ s.frozen = false ∧ r.data.length ≤ x.mtu ∧
      (s.eRead (x.ring + 4096 * x.next + 4032) 8 0 false .outside).ue = false ∧
      ofLe (s.eRead (x.ring + 4096 * x.next + 4032) 8 0 false .outside).data ≠ 0) ∧
    (∃ (s : State) (e : Nat) (r : RoceReq) (x : QpEnt), acting s e r x ∧ s.frozen = false ∧ r.data.length ≤ x.mtu ∧
      (s.eRead (x.ring + 4096 * x.next + 4032) 8 0 false .outside).ue = false ∧
      ofLe (s.eRead (x.ring + 4096 * x.next + 4032) 8 0 false .outside).data = 0 ∧ r.data.length ≤ 4032) ∧
    (∀ b : Bool, ∃ (s : State) (e q t0 : Nat) (x : QpEnt), (s.qp e q).openAt = some t0 ∧ e < s.variant.ethPorts ∧ s.alive = true ∧ s.flt.egressOff = false ∧
      s.rdB ROLL_STAT.FENCED = false ∧ s.roceUp e = b ∧ s.memOk = true ∧ t0 + max 1 (s.rd ETH_CFG.QPTMO e) * 1000000 = s.now ∧ s.qpReady e q = (some x, s)) ∧
    (∃ (s : State) (e q t0 : Nat), (s.qp e q).openAt = some t0 ∧ e < s.variant.ethPorts ∧ s.alive = true ∧ s.flt.egressOff = false ∧
      s.rdB ROLL_STAT.FENCED = false ∧ s.now + 1 = t0 + max 1 (s.rd ETH_CFG.QPTMO e) * 1000000) := by
  refine ⟨⟨roced {} [], 0, 0, by decide +kernel⟩, ⟨withQueue {} 0, (withQueue {} 0).variant.ethPorts - 1, 1, by decide +kernel⟩,
    ⟨roced {} [], 0, ethReq 5 0 4097, ethQp, acting_ethReq _ _ _ (by decide +kernel), by decide +kernel, by rw [ethReq, List.length_map, List.length_range]; rfl⟩, fun d h => ⟨roced {} [], 0, ethReq d 0x4000 64, ethQp,
      (by decide +kernel : (roced {} []).memOk = true), (by decide +kernel : (roced {} []).roceUp 0 = true),
      (by decide +kernel : (roced {} []).qpReady 0 1 = (some ethQp, roced {} [])), rfl, rfl, rfl⟩,
    ⟨roced {} [], 0, ethReq 5 0x4008 57, ethQp, acting_ethReq _ _ _ (by decide +kernel), by decide +kernel⟩,
    ⟨roced {} [], 0, ethReq 5 0x4000 64, ethQp, acting_ethReq _ _ _ (by decide +kernel), by decide +kernel⟩,
    ⟨froze (roced {} []), 0, ethReq 5 0x4000 64, ethQp, acting_ethReq _ _ _ (by decide +kernel), by decide +kernel⟩,
    ⟨roced {} [], 0, ethReq 5 0x4000 64, ethQp, acting_ethReq _ _ _ (by decide +kernel), by decide +kernel⟩,
    ⟨roced {} [(0x2000 + 4032, 1)], 0, ethReq 5 0 3, ethQp, acting_ethReq _ _ _ (by decide +kernel), by decide +kernel⟩,
    ⟨roced {} [], 0, ethReq 5 0 4032, ethQp, acting_ethReq _ _ _ (by decide +kernel), by decide +kernel,
      by rw [ethReq, List.length_map, List.length_range]; decide, by decide +kernel, by decide +kernel, le_of_eq (by simp only [ethReq, List.length_map, List.length_range])⟩,
    fun b => ⟨(roced { openAt := some 7000000 } []).wrs .ETH_STAT 0 0 0 [(ETH_STAT.LINK, if b then 1 else 0)], 0, 1, 7000000, ethQp, ?_⟩, ⟨roced { openAt := some 7000001 } [], 0, 1, 7000001, by decide +kernel⟩⟩
  revert b
  decide +kernel


/-! ### Memory controllers -/

/-- TRN-0304 with this state of memory stack 1. -/
def stacked (k : Stack) : State := { withQueue {} 0 with variant := .trn0304, mem := { stks := [(1, k)] } }

/-- A bay line with its last word dirty. -/
def bayLine : BayLine := ⟨2 ^ 29 - 1, false, 0x8000, 0x8000, BitVec.ofNat 1024 (9 * 2 ^ 960), 0⟩

theorem wit_memoryControllers :
    (∃ (s : State) (n : Nat), n < s.variant.stacks ∧ s.frozen = true ∧ s.rdB BAY_CFG.EN n = true) ∧
    (∃ s : State, s.live = false) ∧ (∃ (s : State) (n : Nat) (b : BayLine), n < s.variant.stacks ∧ s.live = true ∧ s.frozen = false ∧ s.pwr.stopped = false ∧ (s.stack n).band ≠ 3 ∧ b.undef = 0 ∧ s.memOk = true ∧ (s.stack n).bay = [b] ∧ b.line + 1 = 2 ^ 29 ∧ bitB b.dirty.toNat 15 = true) ∧
    (∃ (s : State) (n : Nat) (v : W64), n < s.variant.stacks ∧ s.live = true ∧ s.rdB BAY_CFG.EN n = false ∧ bitB v.toNat 0 = false ∧ bits v.toNat 5 1 = 17) ∧
    (∃ (s : State) (n : Nat) (v : W64), n < s.variant.stacks ∧ s.live = true ∧ s.frozen = false ∧ s.rdB BAY_CFG.EN n = true ∧ bitB v.toNat 0 = false) ∧
    (∃ (s : State) (n : Nat) (v : W64), n < s.variant.stacks ∧ s.live = true ∧ (s.stack n).band ≠ 3 ∧ bits v.toNat 2 1 = 3) ∧
    (∀ r : Int, r = -320 ∨ r = 839 → ∃ (s : State) (n : Nat), n < s.variant.stacks ∧ bandOf (s.stack n).tband r < 3 ∧ (s.stack n).tband ≠ 3 ∧
      r ≠ (s.stack n).last.getD (r + 1)) ∧
    (∃ (s : State) (n : Nat), n < s.variant.stacks ∧ bandOf (s.stack n).tband 840 = 3 ∧ (s.stack n).tband ≠ 3 ∧ 840 ≠ (s.stack n).last.getD 841 ∧
      s.rdB PWR_STAT.TRIP = false) ∧
    (∃ (s : State) (n : Nat), n < s.variant.stacks ∧ s.rdB FLT_REC0.VALID = false) ∧ (∃ (s : State) (n : Nat), n < s.variant.stacks ∧ s.rdB FLT_REC0.VALID = true) := by
  refine ⟨⟨froze ((stacked {}).wrs .BAY_CFG 1 0 0 [(BAY_CFG.EN, 1)]), 1, by decide +kernel⟩, ⟨State.reset, by decide +kernel⟩, ⟨stacked { bay := [bayLine] }, 1, bayLine, by decide +kernel⟩, ⟨(stacked {}).wrs .BAY_CFG 0 0 0 [(BAY_CFG.EN, 0)], 0, 34, by decide +kernel⟩,
    ⟨(stacked {}).wrs .BAY_CFG 1 0 0 [(BAY_CFG.EN, 1)], 1, 0, by decide +kernel⟩, ⟨stacked {}, 1, 6, by decide +kernel⟩, fun r h => ?_,
    ⟨stacked {}, 1, by decide +kernel⟩, ⟨stacked {}, 1, by decide +kernel⟩, ⟨(stacked {}).wrs .FLT_REC0 0 0 0 [(FLT_REC0.VALID, 1)], 1, by decide +kernel⟩⟩
  rcases h with rfl | rfl
  · exact ⟨stacked {}, 1, by decide +kernel⟩
  · exact ⟨stacked {}, 1, by decide +kernel⟩

/-! ### Light -/

/-- A module whose sources answer with a calibrated current of 1000, after these samples of each. -/
def shining (l : List Nat) : State :=
  let s : State := { withQueue {} 0 with pho := { sources := (List.range 8).map (fun k => (k, ({ samples := l } : Source))) } }
  (List.range 8).foldl (fun s k => (s.wrs .PHO_SRC_STAT k 0 0 [(PHO_SRC_STAT.PRESENT, 1)]).wrs .PHO_SRC_CAL k 0 0 [(PHO_SRC_CAL.CALMON, 1000)]) s

/-- Fibre 28, link 3's spare, mirrors fibre 25, whose source has switched; `ro` is fibre 25's role. -/
def mirroring (rdy : Bool) (ro : Nat) : State :=
  let s := fibred 2 4 1
  let s := (s.setRole 25 ro 1).modFibre 28 (fun x => { x with mirror := some 25, ready := rdy })
  s.wrs .PHO_SRC_STAT 4 0 0 [(PHO_SRC_STAT.STAGE, 3)]

/-- Heater powers that allow shift 2 alone. -/
def heat : List (List (Option Nat)) := (List.range 9).map (fun i => (List.range 9).map (fun k => if k = (i + 2) % 9 then some 500 else none))

/-- Base die 0 at 45 degC by two sensors of its 32 where `n` are broken, after a mean of 40; 5 uW per degC. -/
def warming (n : Nat) : State :=
  let f := fun (i : Nat) => (576 + i, ({ last := 360, broken := decide (i < n) } : Sensor))
  let s : State := { withQueue {} 0 with pho := { ff := [(0, (40, 3))] }, pwr := { up := true, sensors := (List.range 32).map f } }
  (s.wrs .PHO_CFG 0 0 0 [(PHO_CFG.FF_EN, 1)]).setReg .PHO_FF 0 0 0 5

/-- The fades that these currents give. -/
def fades (s : State) (cur : List Nat) (k : Nat) : Nat :=
  fadeOf (s.rd PHO_SRC_CAL.CALMON k) (((s.source k).samples ++ [nth cur 0 k]).drop ((s.source k).samples.length + 1 - 16))

/-- Ethernet fibre 136 mirrors its lane on its spare line, at this stage of its source. -/
def lineMirror (st : Nat) (rdy : Bool) : State :=
  (idle.modFibre 136 (fun x => { x with mirror := some 136, ready := rdy })).wrs .PHO_SRC_STAT 2 0 0 [(PHO_SRC_STAT.STAGE, st)]

/-- The module in boot step 8, which tunes the fibres of the fabric. -/
def tuning8 (s : State) : State := { s with boot := { s.boot with stage := 8 } }

theorem wit_photonics :
    (∀ l : List Nat, l = [] ∨ l = List.replicate 16 800 → ∃ (s : State) (cur : List Nat) (fade : Nat → Nat), s.stby.inStby = false ∧
      (∀ k, fade k = fadeOf (s.rd PHO_SRC_CAL.CALMON k) (((s.source k).samples ++ [nth cur 0 k]).drop ((s.source k).samples.length + 1 - 16))) ∧
      (∀ k, k < s.variant.sources → s.rdB PHO_SRC_STAT.PRESENT k = true ∧ stageFor (s.srcStage k) (fade k) ≤ 1) ∧ (s.source 0).samples = l) ∧
    (∃ (s : State) (f g : Nat), s.stby.inStby = false ∧ (s.fibre f).mirror = some g ∧ fibExists s.variant f = true ∧ (s.fibre f).ready = false ∧ (s.fibre f).cmp = {} ∧ f < 128 ∧
      s.role g ≠ 4) ∧
    (∃ (s : State) (f g : Nat), s.stby.inStby = false ∧ (s.fibre f).mirror = some g ∧ fibExists s.variant f = true ∧ (s.fibre f).ready = false ∧ (s.fibre f).cmp = {} ∧ 128 ≤ f ∧
      s.srcStage (fibSource s.variant f) ≠ 4) ∧
    (∃ (s : State) (f g q : Nat) (frames : List FrameCmp) (r : Compared × Bool), s.stby.inStby = false ∧ (s.fibre f).mirror = some g ∧ fibExists s.variant f = true ∧
      r = compareAll (max 8 (s.rd PHO_CFG.CMP)) frames ((s.fibre f).cmp, (s.fibre f).ready) ∧ f < 128 ∧ g ≠ f ∧ s.role g = 4 ∧ (s.fibre g).pos = some q ∧
      r.1.aligned = 8) ∧
    (∀ rx : Bool, ∃ (s : State) (f : Nat) (m : LaneMove), s.stby.inStby = false ∧ fibExists s.variant f = true ∧ (s.fibre f).move rx = some m ∧ m.ready = false) ∧
    (∃ (s : State) (f g : Nat), s.stby.inStby = false ∧ (s.fibre f).mirror = some g ∧ (s.fibre f).ready = true ∧ f < 128 ∧ g < 128 ∧ g ≠ f ∧
      s.srcStage (fibSource s.variant g) < 3 ∧ s.rd FAB_LINK.STATE (f / 8) = 4) ∧
    (∃ (s : State) (f g : Nat), s.stby.inStby = false ∧ (s.fibre f).mirror = some g ∧ (s.fibre f).ready = true ∧ 128 ≤ f ∧ f < 256 ∧ 3 ≤ s.srcStage (fibSource s.variant f)) ∧
    (∀ ro, ro = 1 ∨ ro = 4 → ∃ (s : State) (f g : Nat), s.stby.inStby = false ∧ (s.fibre f).mirror = some g ∧ (s.fibre f).ready = true ∧ f < 128 ∧ g < 128 ∧ g ≠ f ∧
      3 ≤ s.srcStage (fibSource s.variant g) ∧ s.role g = ro) ∧
    (∃ (s : State) (f : Nat), s.stby.inStby = false ∧ (s.fibre f).mirror = none) ∧
    (∃ (s : State) (f ring lane : Nat), s.stby.inStby = false ∧ f < 128 ∧ fibExists s.variant f = true ∧ (s.fibre f).txOk = true ∧ s.role f ≠ 4 ∧ ((s.fibre f).map f false).length = 9 ∧
      ring < 9 ∧ nth ((s.fibre f).map f false) 9 ring = lane ∧ lane < 8 ∧ ((s.fibre f).map f false).contains 8 = true ∧ (s.fibre f).txMove = none) ∧
    (∃ (s : State) (f ring : Nat), s.stby.inStby = false ∧ nth ((s.fibre f).map f false) 0 ring = 9 ∧ ring < 9 ∧ fibExists s.variant f = true ∧ f < 128) ∧
    (∃ s : State, s.stby.inStby = false ∧ s.rdB PHO_CFG.FF_EN = false) ∧
    (∃ (s : State) (b : Nat) (l : List Nat) (m c : Rat), s.stby.inStby = false ∧ b < s.variant.bdies ∧ s.rdB PHO_CFG.FF_EN = true ∧ l = (s.sensorsOf (12 + b)).filter (fun x => !(s.sensor x).broken) ∧
      l ≠ [] ∧ (s.sensorsOf (12 + b)).length = 2 * l.length ∧ SMap.has s.pho.ff b = true ∧ s.pho.ff.get (0, 0) b = (m, c)) ∧
    (∃ s : State, s.stby.inStby = false ∧ s.rdB PHO_CFG.BRK_EN = false) ∧
    (∃ s : State, s.stby.inStby = false ∧ s.rdB PHO_CFG.BRK_EN = true ∧ s.rdB PHO_STAT.TUNED = true ∧ 1 < s.variant.bdies ∧ s.chanOut 511 = true) ∧
    (∃ (s : State) (k : Nat), s.stby.inStby = false ∧ (s.chan k).moving = none) ∧ (∃ (s : State) (k q : Nat), s.stby.inStby = false ∧ (s.chan k).moving = some q) ∧
    (∃ (s : State) (f : Nat), s.stby.inStby = false ∧ f < 128 ∧ fibExists s.variant f = true ∧ (s.fibre f).lit = false ∧ s.rd FAB_LINK.STATE (f / 8) = 0 ∧ 9 ≤ s.boot.stage ∧
      s.boot.stage ≤ 12 ∧ s.rd FAB_NODE.STRAPERR = 0 ∧ (s.link (f / 8)).miswired = false ∧
      ∀ g, g < 5 → f ≠ 8 * (f / 8) + g → s.role (8 * (f / 8) + g) = 4 ∨ (s.fibre (8 * (f / 8) + g)).lit = true) ∧
    (∃ (s : State) (f : Nat) (ver : Bool) (pw : List (List (Option Nat))) (tu : Tuned), s.stby.inStby = false ∧ f < 128 ∧ fibExists s.variant f = true ∧ (s.fibre f).txOk = false ∧
      s.role f ≠ 4 ∧ s.tunesNow f false = true ∧
      s.rd PHO_SRC_STAT.FADE (fibSource s.variant f) = 300 ∧ s.tune f false ver (inReach pw) = some tu) ∧
    (∃ (s : State) (f : Nat) (ver : Bool) (pw : List (List (Option Nat))) (tu : Tuned), s.stby.inStby = false ∧ f < 128 ∧ fibExists s.variant f = true ∧ (s.fibre f).rxOk = false ∧
      s.role f ≠ 4 ∧ (s.fibre f).lit = true ∧ s.tunesNow f true = true ∧ s.tune f true ver (inReach pw) = some tu) ∧
    (∃ (s : State) (f : Nat), s.stby.inStby = false ∧ f < 128 ∧ fibExists s.variant f = true ∧ (s.fibre f).rxOk = false ∧ s.role f ≠ 4 ∧ (s.fibre f).lit = false) ∧
    (∃ (s : State) (f : Nat) (ver : Bool) (pw : List (List (Option Nat))), s.stby.inStby = false ∧ f < 128 ∧ fibExists s.variant f = true ∧ (s.fibre f).txOk = false ∧
      s.role f ≠ 4 ∧ s.tunesNow f false = true ∧ s.rd PHO_SRC_STAT.FADE (fibSource s.variant f) ≤ 300 ∧
      s.tune f false ver (inReach pw) = none ∧ s.mirrorOf (f / 8) f = none) := by
  refine ⟨fun l h => ⟨shining l, List.replicate 8 800, fades (shining l) (List.replicate 8 800), ?_, fun _ => rfl, ?_⟩,
    ⟨mirroring false 1, 28, 25, by decide +kernel⟩, ⟨lineMirror 1 false, 136, 136, by decide +kernel⟩,
    ⟨mirroring false 4, 28, 25, 1, List.replicate 8 .differs, _, by decide +kernel, rfl, by decide +kernel, rfl, by decide +kernel⟩, fun rx => ?_,
    ⟨(mirroring true 1).wrs .PHO_SRC_STAT 4 0 0 [(PHO_SRC_STAT.STAGE, 2)] |>.wrs .FAB_LINK 3 0 0 [(FAB_LINK.STATE, 4)], 28, 25, by decide +kernel⟩,
    ⟨lineMirror 3 true, 136, 136, by decide +kernel⟩, fun ro h => ?_, ⟨idle, 3, rfl, rfl⟩,
    ⟨fibred 2 4 1, 27, 7, 7, by decide +kernel⟩, ⟨(fibred 2 4 1).modFibre 27 (fun x => { x with txMap := [0, 1, 2, 3, 4, 5, 6, 9, 7] }), 27, 7, by decide +kernel⟩,
    ⟨idle.wrs .PHO_CFG 0 0 0 [(PHO_CFG.FF_EN, 0)], by decide +kernel⟩, ⟨warming 16, 0, _, 40, 3, rfl, by decide +kernel, by decide +kernel, rfl, by decide +kernel⟩,
    ⟨(shining []).wrs .PHO_CFG 0 0 0 [(PHO_CFG.BRK_EN, 0)], by decide +kernel⟩,
    ⟨((shining []).wrs .PHO_CFG 0 0 0 [(PHO_CFG.BRK_EN, 1)]).wrs .PHO_STAT 0 0 0 [(PHO_STAT.TUNED, 1)] |>.modChan 511 (fun x => { x with failed := true }), by decide +kernel⟩,
    ⟨idle, 5, rfl, rfl⟩, ⟨idle.modChan 5 (fun x => { x with pair := some 1, moving := some 4 }), 5, 4, rfl, rfl⟩,
    ⟨[120, 121, 122, 123].foldl (fun s f => s.modFibre f (fun x => { x with lit := true })) idle, 124, by decide +kernel⟩,
    ⟨tuning8 ((shining []).wrs .PHO_SRC_STAT 7 0 0 [(PHO_SRC_STAT.FADE, 300)]), 120, true, heat, ⟨2, List.replicate 9 500, false, List.range 9⟩, by decide +kernel⟩,
    ⟨(shining []).modFibre 120 (fun x => { x with lit := true }), 120, true, heat, ⟨2, List.replicate 9 500, false, List.range 9⟩, by decide +kernel⟩,
    ⟨shining [], 120, by decide +kernel⟩,
    ⟨tuning8 (shining []), 120, true, (List.range 9).map (fun _ => List.replicate 9 (some 8001)), by decide +kernel⟩⟩
  · rcases h with rfl | rfl <;> rfl
  · rcases h with rfl | rfl
    · exact ⟨(by decide +kernel : ∀ k, k < (shining []).variant.sources → (shining []).rdB PHO_SRC_STAT.PRESENT k = true ∧
        stageFor ((shining []).srcStage k) (fades (shining []) (List.replicate 8 800) k) ≤ 1), rfl⟩
    · exact ⟨(by decide +kernel : ∀ k, k < (shining (List.replicate 16 800)).variant.sources → (shining (List.replicate 16 800)).rdB PHO_SRC_STAT.PRESENT k = true ∧
        stageFor ((shining (List.replicate 16 800)).srcStage k) (fades (shining (List.replicate 16 800)) (List.replicate 8 800) k) ≤ 1), rfl⟩
  · cases rx
    · exact ⟨(fibred 2 4 1).modFibre 27 (fun x => { x with txMove := some ⟨7, {}, false⟩ }), 27, ⟨7, {}, false⟩, by decide +kernel⟩
    · exact ⟨(fibred 2 4 1).modFibre 27 (fun x => { x with rxMove := some ⟨7, {}, false⟩ }), 27, ⟨7, {}, false⟩, by decide +kernel⟩
  · rcases h with rfl | rfl
    · exact ⟨mirroring true 1, 28, 25, by decide +kernel⟩
    · exact ⟨mirroring true 4, 28, 25, by decide +kernel⟩


/-! ### Die interfaces -/

/-- A running module at this boot stage whose die 4 has this port; its base die is up. -/
def ported (x : DiePort) (st : Nat) : State :=
  let s : State := { withQueue {} 0 with boot := { stage := st }, dies := [(4, x)], now := 500000 }
  s.wrs .GLB_DIEMAP 0 0 0 [(GLB_DIEMAP.BDIE_UP, 15), (GLB_DIEMAP.PRESENT, 0x10), (GLB_DIEMAP.RELEASED, 0)]

/-- A Joenier die's block, and a guest's with every service. -/
def ownCap : CapBlock := ⟨0x4A4E, false, 1, 3, 1, true, true, true, true, 8⟩
def guestCap : CapBlock := ⟨0x1234, true, 2, 3, 1, true, true, true, true, 12⟩

/-- Die 4 released. -/
def released (x : DiePort) : State := (ported x 12).wr GLB_DIEMAP.RELEASED 0x10

theorem wit_dieInterfaces :
    (∀ k, k < 3 → ∃ (s : State) (d : Nat), d < s.variant.cdies ∧ s.canBringUp d = false ∧
      (k = 0 → (s.die d).stays = true) ∧ (k = 1 → s.rdB DPORT_CTL.HOLD d = true) ∧ (k = 2 → s.boot.stage = 3)) ∧
    (∃ (s : State) (d : Nat), d < s.variant.cdies ∧ s.canBringUp d = true ∧ (s.die d).boot = none ∧ s.boot.stage = 5) ∧
    (∃ (s : State) (d : Nat) (k k0 : CapBlock), d < s.variant.cdies ∧ s.canBringUp d = true ∧ (s.die d).boot = some k0 ∧ k ≠ k0) ∧
    (∃ (s : State) (d : Nat) (k : CapBlock), d < s.variant.cdies ∧ s.canBringUp d = true ∧ (s.die d).boot = some k ∧ s.boot.stage = 6 ∧ capHeld k = false) ∧
    (∀ b : Bool, ∃ (s : State) (d : Nat), d < s.variant.cdies ∧ (s.die d).inDrst = true ∧ (s.die d).stays = b) ∧
    (∀ st, st = 0 ∨ st = 3 ∨ st = 5 → ∃ (s : State) (d : Nat), d < s.variant.cdies ∧ (s.die d).inDrst = true ∧ s.rd DPORT_STAT.STATE d = st) ∧
    (∃ (s : State) (d : Nat), d < s.variant.cdies ∧ (s.die d).inDrst = false ∧ s.fallow d = true) ∧
    (∃ (s : State) (d : Nat), d < s.variant.cdies ∧ (s.die d).inDrst = false ∧ s.fallow d = false ∧ s.que.copies = []) ∧
    (∀ l, l = 0 ∨ l = 2 → ∃ (s : State) (d : Nat) (v : W64), d < s.variant.cdies ∧ bitB v.toNat 0 = false ∧ bits v.toNat 3 2 = 0 ∧ s.rd DPORT_CTL.LOOP d = l) ∧
    (∀ l, l = 1 ∨ l = 2 → ∃ (s : State) (d : Nat) (v : W64), d < s.variant.cdies ∧ bitB v.toNat 0 = false ∧ bits v.toNat 3 2 = l ∧ s.dieReleased d = false ∧
      s.rdB DPORT_CTL.HOLD d = true) ∧
    (∃ (s : State) (d : Nat) (v : W64), d < s.variant.cdies ∧ bitB v.toNat 0 = false ∧ bits v.toNat 3 2 = 3) ∧
    (∃ (s : State) (d : Nat) (v : W64), d < s.variant.cdies ∧ bitB v.toNat 0 = false ∧ bits v.toNat 3 2 = 1 ∧ s.dieReleased d = true) ∧
    (∃ (s : State) (d : Nat) (v : W64), d < s.variant.cdies ∧ bitB v.toNat 0 = false ∧ bits v.toNat 3 2 = 1 ∧ s.dieReleased d = false ∧
      s.rdB DPORT_CTL.HOLD d = false) ∧
    (∃ (s : State) (d : Nat), d < s.variant.cdies ∧ s.rdB FLT_REC0.VALID = false) := by
  refine ⟨fun k h => ?_, ⟨ported {} 5, 4, by decide +kernel⟩, ⟨ported { boot := some guestCap } 12, 4, ownCap, guestCap, by decide +kernel⟩,
    ⟨ported { boot := some ownCap } 6, 4, ownCap, by decide +kernel⟩, fun b => ?_, fun st h => ?_,
    ⟨(released { inDrst := false }).wrs .PWR_DOM_LP 196 0 0 [(PWR_DOM_LP.FALLOW, 1)], 4, by decide +kernel⟩, ⟨released { inDrst := false }, 4, by decide +kernel⟩,
    fun l h => ?_, fun l h => ?_, ⟨ported {} 12, 4, 12, by decide +kernel⟩, ⟨released {}, 4, 4, by decide +kernel⟩, ⟨ported {} 12, 4, 4, by decide +kernel⟩, ⟨ported {} 12, 4, by decide +kernel⟩⟩
  · have : k = 0 ∨ k = 1 ∨ k = 2 := by omega
    rcases this with rfl | rfl | rfl
    · exact ⟨ported { stays := true } 12, 4, by decide +kernel⟩
    · exact ⟨(ported {} 12).wrs .DPORT_CTL 4 0 0 [(DPORT_CTL.HOLD, 1)], 4, by decide +kernel⟩
    · exact ⟨ported {} 3, 4, by decide +kernel⟩
  · cases b
    · exact ⟨ported {} 12, 4, by decide +kernel⟩
    · exact ⟨ported { stays := true } 12, 4, by decide +kernel⟩
  · rcases h with rfl | rfl | rfl
    · exact ⟨ported {} 12, 4, by decide +kernel⟩
    · exact ⟨(ported {} 12).wrs .DPORT_STAT 4 0 0 [(DPORT_STAT.STATE, 3)], 4, by decide +kernel⟩
    · exact ⟨(ported {} 12).wrs .DPORT_STAT 4 0 0 [(DPORT_STAT.STATE, 5)], 4, by decide +kernel⟩
  · rcases h with rfl | rfl
    · exact ⟨ported {} 12, 4, 2, by decide +kernel⟩
    · exact ⟨(ported {} 12).wrs .DPORT_CTL 4 0 0 [(DPORT_CTL.LOOP, 2)], 4, 2, by decide +kernel⟩
  · rcases h with rfl | rfl
    · exact ⟨(ported {} 12).wrs .DPORT_CTL 4 0 0 [(DPORT_CTL.HOLD, 1)], 4, 6, by decide +kernel⟩
    · exact ⟨(ported {} 12).wrs .DPORT_CTL 4 0 0 [(DPORT_CTL.HOLD, 1)], 4, 10, by decide +kernel⟩


/-- Site 1 of TRN-0304 holds a guest that runs. -/
def guest1 (x : DiePort) (svc : Nat) : State :=
  let s : State := { withQueue {} 0 with variant := .trn0304, dies := [(1, x)], now := 500000 }
  let s := s.wrs .GLB_DIEMAP 0 0 0 [(GLB_DIEMAP.BDIE_UP, 1), (GLB_DIEMAP.PRESENT, 2), (GLB_DIEMAP.RELEASED, 2), (GLB_DIEMAP.GUEST, 2)]
  s.wrs .DPORT_CAP 1 0 0 [(DPORT_CAP.SVC_E, svc), (DPORT_CAP.SVC_EVT, svc)]

theorem wit_guestDies :
    (∃ (s : State) (d : Nat), s.guestRuns d = true ∧ s.rdB DPORT_CAP.SVC_E d = false ∧ s.rdB DPORT_CAP.SVC_EVT d = false) ∧
    (∀ sp at_ h, (sp, at_, h) ∈ [(1, false, 2), (2, true, 2), (2, false, 3)] → ∃ (s : State) (d a n : Nat), s.guestRuns d = true ∧
      s.rdB DPORT_CAP.SVC_E d = true ∧ a + n ≤ s.variant.resBase ∧ (sp ≠ 2 ∨ at_ = true ∨ 2 < h)) ∧
    (∃ (s : State) (d a n : Nat), s.guestRuns d = true ∧ s.rdB DPORT_CAP.SVC_E d = true ∧ s.variant.resBase + 1 = a + n) ∧
    (∃ (s : State) (d a n : Nat), s.guestRuns d = true ∧ s.rdB DPORT_CAP.SVC_E d = true ∧ a + n = s.variant.resBase ∧ n = 8 ∧ (s.eRead a n 2 false .outside).ue = false) ∧
    (∃ (s : State) (d : Nat), s.guestRuns d = true ∧ s.rdB DPORT_CAP.SVC_EVT d = true ∧ (s.die d).waits.length = 15) ∧
    (∃ (s : State) (d e : Nat) (v : W32), s.guestRuns d = true ∧ e = 65535 ∧ (s.die d).waits = [(e, v.toNat)] ∧ v.toNat = s.evt e) ∧
    (∃ (s : State) (d e : Nat) (v : W32), s.guestRuns d = true ∧ e = 65535 ∧ (s.die d).waits = [(e, v.toNat)] ∧ s.evt e + 1 = v.toNat) ∧
    (∀ b : Bool, ∀ r : Int, r ∈ [-321, -320, 919] → ∃ (s : State) (d : Nat), s.guestRuns d = true ∧ (s.sensor (48 * d)).broken = b ∧ r < 920) ∧
    (∃ (s : State) (d : Nat), s.guestRuns d = true ∧ s.fallow d = false ∧ (s.die d).inDrst = false ∧ s.que.copies = [] ∧ (s.die d).reportAt + 100000 = s.now) ∧
    (∃ (s : State) (d : Nat), s.guestRuns d = true ∧ s.now + 1 = (s.die d).reportAt + 100000) := by
  refine ⟨⟨guest1 {} 0, 1, by decide +kernel⟩, fun sp at_ h m => ⟨guest1 {} 1, 1, 0, 8, by decide +kernel, by decide +kernel, by decide +kernel, ?_⟩, ⟨guest1 {} 1, 1, Variant.resBase .trn0304 - 7, 8, by decide +kernel⟩,
    ⟨guest1 {} 1, 1, Variant.resBase .trn0304 - 8, 8, by decide +kernel⟩, ⟨guest1 { waits := List.replicate 15 (3, 4) } 1, 1, by decide +kernel⟩,
    ⟨guest1 { waits := [(65535, 0)] } 1, 1, 65535, 0, by decide +kernel⟩, ⟨guest1 { waits := [(65535, 1)] } 1, 1, 65535, 1, by decide +kernel⟩,
    fun b r h => ?_, ⟨guest1 { inDrst := false, reportAt := 400000 } 1, 1, by decide +kernel⟩, ⟨guest1 { inDrst := false, reportAt := 400001 } 1, 1, by decide +kernel⟩⟩
  · simp only [List.mem_cons, Prod.mk.injEq, List.not_mem_nil, or_false] at m
    rcases m with ⟨rfl, rfl, rfl⟩ | ⟨rfl, rfl, rfl⟩ | ⟨rfl, rfl, rfl⟩ <;> decide
  · have h : r < 920 := by
      simp only [List.mem_cons, List.not_mem_nil, or_false] at h
      rcases h with rfl | rfl | rfl <;> decide
    cases b
    · exact ⟨guest1 {} 1, 1, by decide +kernel, by decide +kernel, h⟩
    · exact ⟨{ guest1 {} 1 with pwr := { sensors := [(48, { broken := true })] } }, 1, by decide +kernel, by decide +kernel, h⟩


/-! ### Power and heat -/

/-- A running TRN-0304 whose domain 0 is this one (core 0's island), and so is domain 48 + 144 of its first die's uncore. -/
def powered (x : Dom) : State :=
  { withQueue {} 0 with variant := .trn0304, pwr := { up := true, doms := [(0, x), (192, x)] }, now := 5000000 }

theorem wit_powerAndHeat :
    (∃ (s : State) (k : Nat), k + 1 = converters s.variant ∧ bitB (s.rd PWR_STAT.CONVFAIL) k = true) ∧
    (∃ (s : State) (k : Nat), k + 1 = converters s.variant ∧ s.rd PWR_STAT.CONVFAIL = 0) ∧
    (∃ (s : State) (k j : Nat), k + 1 = converters s.variant ∧ j ≠ k ∧ j < 8 ∧ s.rd PWR_STAT.CONVFAIL = 2 ^ j ∧ s.rdB PWR_STAT.TRIP = false) ∧
    (∀ u : Int, u = -25 ∨ u = 25 ∨ u = -26 ∨ u = 26 → ∃ (s : State) (i : Nat) (v : W64), domExists s.variant i = true ∧ s.live = true ∧ sext 8 (bits v.toNat 15 8) = u) ∧
    (∀ m, m = 0 ∨ m = 63 → ∃ (s : State) (i k mv : Nat), domExists s.variant i = true ∧ k + 1 = detectors i ∧ (s.dom i).tripped.contains k = false ∧
      s.domShown i ≠ 0 ∧ s.rd PWR_CFG.DMARGIN = m ∧ mv + min 60 (max 10 m) + 1 = (s.dom i).setp) ∧
    (∃ (s : State) (i k : Nat), domExists s.variant i = true ∧ (s.dom i).tripped.contains k = true) ∧
    (∃ (s : State) (i mv : Nat), domExists s.variant i = true ∧ s.domShown i = 0 ∧ mv + min 60 (max 10 (s.rd PWR_CFG.DMARGIN)) < (s.dom i).setp) ∧
    (∃ (s : State) (i mv : Nat), domExists s.variant i = true ∧ s.domShown i ≠ 0 ∧ (s.dom i).setp = mv + min 60 (max 10 (s.rd PWR_CFG.DMARGIN))) ∧
    (∃ (s : State) (i k : Nat), domExists s.variant i = true ∧ (s.dom i).tripped = [k]) ∧
    (∀ i, i = 0 ∨ i = 192 → ∃ (s : State) (n m : Nat), domExists s.variant i = true ∧ s.rdB PWR_CFG.REACT_EN = true ∧ n + 1 = m * 100) ∧
    (∃ (s : State) (i n m : Nat), domExists s.variant i = true ∧ m * 100 = n) ∧ (∃ (s : State) (i : Nat), domExists s.variant i = true ∧ s.rdB PWR_CFG.REACT_EN = false) ∧
    (∃ (s : State) (i : Nat), domExists s.variant i = true ∧ s.domState i = 0) ∧
    (∃ (s : State) (i : Nat), domExists s.variant i = true ∧ s.domState i ≠ 0 ∧ (s.dom i).hint = none ∧ (s.dom i).level = 0 ∧ s.reactive i = false) ∧
    (∀ d, d = 0 ∨ d = 1999999 → ∃ (s : State) (i l w : Nat), domExists s.variant i = true ∧ s.domState i ≠ 0 ∧ (s.dom i).hint = some (l, w) ∧ w + d = s.now) ∧
    (∃ (s : State) (i : Nat), (s.dom i).level = 0) ∧ (∃ (s : State) (i : Nat), 0 < (s.dom i).level ∧ s.now + 1 = (s.dom i).since + 2000000) ∧
    (∃ (s : State) (i : Nat), 0 < (s.dom i).level ∧ (s.dom i).since + 2000000 = s.now) ∧
    (∀ r : Int, r = -320 ∨ r = 919 ∨ r = 920 ∨ r = 1200 → ∃ s : State, s.rd GLB_DIEMAP.GUEST = 0 ∧ s.rdB PWR_STAT.TRIP = false ∧ s.thermDies.length = 2 ∧
      ∀ k ∈ s.thermDies, ∀ x ∈ s.sensorsOf k, (s.sensor x).broken = false ∧ (s.sensor x).same < 63 ∧ -320 ≤ r ∧ r ≤ 1200) ∧
    (∃ (s : State) (x : Nat), sensorDie x ∈ s.thermDies ∧ x ∈ s.sensorsOf (sensorDie x) ∧ 12 ≤ sensorDie x ∧ (s.sensor x).broken = false) := by
  refine ⟨⟨(powered {}).wrs .PWR_STAT 0 0 0 [(PWR_STAT.CONVFAIL, 4)], 2, by decide +kernel⟩, ⟨powered {}, 2, by decide +kernel⟩,
    ⟨(powered {}).wrs .PWR_STAT 0 0 0 [(PWR_STAT.CONVFAIL, 1)], 2, 0, by decide +kernel⟩, fun u h => ?_, fun m h => ?_, ⟨powered { tripped := [3] }, 0, 3, by decide +kernel⟩, ⟨powered { setp := 700 }, 0, 100, by decide +kernel⟩,
    ⟨(powered { on := true, setp := 700 }).wrs .PWR_CFG 0 0 0 [(PWR_CFG.DMARGIN, 35)], 192, 665, by decide +kernel⟩,
    ⟨powered { tripped := [3] }, 0, 3, by decide +kernel⟩, fun i h => ⟨(powered {}).wrs .PWR_CFG 0 0 0 [(PWR_CFG.REACT_EN, 1)], 299, 3, ?_, by decide +kernel, rfl⟩,
    ⟨powered {}, 0, 300, 3, by decide +kernel⟩, ⟨(powered {}).wrs .PWR_CFG 0 0 0 [(PWR_CFG.REACT_EN, 0)], 0, by decide +kernel⟩,
    ⟨{ powered {} with pwr := { up := false } }, 0, by decide +kernel⟩, ⟨powered { reactUntil := some 5000000 }, 0, by decide +kernel⟩, fun d h => ?_, ⟨powered {}, 0, by decide +kernel⟩,
    ⟨powered { level := 3, since := 3000001 }, 0, by decide +kernel⟩, ⟨powered { level := 3, since := 3000000 }, 0, by decide +kernel⟩, fun r h => ?_,
    ⟨powered {}, 576, by decide +kernel⟩⟩
  · rcases h with rfl | rfl | rfl | rfl
    · exact ⟨powered {}, 0, 0xE700, by decide +kernel⟩
    · exact ⟨powered {}, 0, 0x1900, by decide +kernel⟩
    · exact ⟨powered {}, 0, 0xE600, by decide +kernel⟩
    · exact ⟨powered {}, 0, 0x1A00, by decide +kernel⟩
  · rcases h with rfl | rfl
    · exact ⟨(powered { tripped := [3], on := true, setp := 700 }).wrs .PWR_CFG 0 0 0 [(PWR_CFG.DMARGIN, 0)], 192, 15, 689, by decide +kernel⟩
    · exact ⟨(powered { tripped := [3], on := true, setp := 700 }).wrs .PWR_CFG 0 0 0 [(PWR_CFG.DMARGIN, 63)], 192, 15, 639, by decide +kernel⟩
  · rcases h with rfl | rfl <;> decide +kernel
  · rcases h with rfl | rfl
    · exact ⟨powered { hint := some (2, 5000000) }, 0, 2, 5000000, by decide +kernel⟩
    · exact ⟨powered { hint := some (2, 3000001) }, 0, 2, 3000001, by decide +kernel⟩
  · refine ⟨powered {}, by decide +kernel, by decide +kernel, by decide +kernel, fun k _ x _ => ⟨rfl, (by decide : 0 < 63), ?_⟩⟩
    rcases h with rfl | rfl | rfl | rfl <;> decide


/-! ### Roll call -/

/-- A module on the fabric, node 0 with strapped tray 5, whose neighbours 1, 2 and 4 are in these states. -/
def called (s1 s2 s4 : Nat) (r : Roll) : State :=
  let s : State := { onFabric [] with roll := r, now := 90000000 }
  let s := s.wrs .GLB_STRAP 0 0 0 [(GLB_STRAP.PINS, 5 * 8)]
  let s := s.wrs .ROLL_CFG 0 0 0 [(ROLL_CFG.SUSPECT, 100), (ROLL_CFG.FALLBACK, 500), (ROLL_CFG.SELF, 2500)]
  let s := s.wrs .ROLL_NODE 0 0 0 [(ROLL_NODE.STATE, 1), (ROLL_NODE.TRAY, 5)]
  let s := s.wrs .ROLL_NODE 0 1 0 [(ROLL_NODE.STATE, s1), (ROLL_NODE.TRAY, 5), (ROLL_NODE.BOOT, 7)]
  let s := s.wrs .ROLL_NODE 0 2 0 [(ROLL_NODE.STATE, s2), (ROLL_NODE.TRAY, 5)]
  s.wrs .ROLL_NODE 0 4 0 [(ROLL_NODE.STATE, s4)]

/-- A message of node 1 of this type about these. -/
def ctrlPkt (aux addr : Nat) (d : List Byte) : Packet :=
  (⟨10, 3, false, false, 1, false, false, false, 0, 1, 0, 0, d.length, 0, 0, addr, aux, 0, d, 0, false⟩ : Packet).sealed

theorem ctrlPkt_crc (aux addr : Nat) (d : List Byte) : (ctrlPkt aux addr d).crcOk = true := by
  simp [ctrlPkt, Packet.crcOk, Packet.sealed, Packet.e2e, Packet.head, Packet.fields]

/-- A JOIN's payload: this BOOT, tray 9, shelf 3, loop 6. -/
def joinPay (b : Nat) : List Byte := leBytes 8 (b + 9 * 2 ^ 24 + 3 * 2 ^ 28 + 6 * 2 ^ 32)

theorem wit_rollCall :
    (∃ s : State, s.rollRuns = true) ∧ (∃ s : State, s.rollRuns = false) ∧
    (∃ (s : State) (n : Nat), n < 512 ∧ s.rollRuns = true ∧ s.excluded n = true) ∧
    (∃ (s : State) (n : Nat), n < 512 ∧ s.rollRuns = true ∧ neighbour s.node n = true ∧ s.nodeState n = 1) ∧
    (∃ (s : State) (n : Nat), n < 512 ∧ s.rollRuns = true ∧ neighbour s.node n = true ∧ s.nodeState n = 2 ∧ (s.rnode n).coord ≠ s.node) ∧
    (∃ (s : State) (n : Nat), n = 511 ∧ s.rollRuns = true ∧ neighbour s.node n = false ∧ s.excluded n = false ∧ s.nodeState n = 0) ∧
    (∃ s : State, s.rollRuns = true ∧ s.aliveNbrs s.node = [1, 2, 4] ∧
      ∀ n ∈ s.aliveNbrs s.node, s.nodeState n = 1 ∧ s.now < (s.rnode n).last + s.rd ROLL_CFG.SUSPECT * 1000) ∧
    (∃ (s : State) (n : Nat), s.rollRuns = true ∧ n ∈ s.aliveNbrs s.node ∧ s.nodeState n = 1 ∧ (s.rnode n).last + s.rd ROLL_CFG.SUSPECT * 1000 = s.now) ∧
    (∃ (s : State) (v n : Nat), v < 512 ∧ n < 512 ∧ s.rollRuns = true ∧ s.excluded v = false ∧ s.nodeState n = 3) ∧
    (∀ old : Bool, ∃ (s : State) (v n : Nat) (r : Roll), v < 512 ∧ n < 512 ∧ s.rollRuns = true ∧ s.excluded v = false ∧ s.nodeState n ≠ 3 ∧
      r = { s.roll with votes := s.roll.votes.filter (fun x => !(x.suspect == n && x.voter == v)) ++ [⟨n, v, s.now⟩] } ∧
      { s with roll := r }.voteCount n + b2n old = (s.aliveNbrs n).length / 2 + 1) ∧
    (∀ k, k < 4 → ∃ (s : State) (p : Packet) (l : Nat), Floods s p l 4 ∧ s.excluded p.src = false ∧ bits p.addr 11 9 = k) ∧
    (∃ (s : State) (p : Packet), s.roll.seen.contains (4, p.src, payloadKey p) = true ∧ s.excluded p.src = false ∧ p.crcOk = true) ∧
    (∀ k, 1 ≤ k → k ≤ 3 → ∃ (s : State) (id : Nat) (p : Packet) (m : Nat), s.rollRuns = true ∧
      id = (if k = 1 then bits (s.rd GLB_STRAP.PINS) 6 3 else if k = 2 then bits (s.rd GLB_STRAP.PINS) 11 9 else bits (s.rd GLB_STRAP.PINS) 14 12) ∧
      p = s.ctrlPacket 5 511 (k + id * 4) [] ∧ s.roll.seen.contains (5, s.node, payloadKey p) = false ∧ m ≠ s.node ∧ (k, id, m) ∈ s.roll.domains ∧
      s.inDomain k id s.node m = true) ∧
    (∃ (s : State) (p : Packet) (l m : Nat), Floods s p l 5 ∧ s.excluded p.src = false ∧ bits p.addr 1 0 ≠ 0 ∧ m ≠ p.src ∧
      (bits p.addr 1 0, bits p.addr 5 2, m) ∈ s.roll.domains ∧ s.inDomain (bits p.addr 1 0) (bits p.addr 5 2) p.src p.src = true ∧
      s.inDomain (bits p.addr 1 0) (bits p.addr 5 2) p.src m = true) ∧
    (∀ st, st < 4 → ∃ (s : State) (p : Packet) (l : Nat), Floods s p l 6 ∧ p.src < 512 ∧ p.src ≠ s.node ∧ s.nodeState p.src = st ∧
      s.rd ROLL_NODE.BOOT 0 p.src + 1 = bits (ofLe p.payload) 23 0 ∧ neighbour s.node p.src = true) ∧
    (∃ (s : State) (p : Packet) (l : Nat), Floods s p l 6 ∧ p.src < 512 ∧ p.src ≠ s.node ∧ s.nodeState p.src ≠ 0 ∧
      bits (ofLe p.payload) 23 0 = s.rd ROLL_NODE.BOOT 0 p.src ∧ s.nodeState p.src = 3) ∧
    (∀ a : Bool, ∃ (s : State) (p : Packet), p.typ = 10 ∧ p.aux % 256 = 7 ∧ p.crcOk = true ∧ s.rollRuns = true ∧ s.roll.joinAt.isSome = true ∧ s.roll.admitted = a) ∧
    (∀ d, d < 2 → ∃ (s : State) (t0 : Nat), s.roll.joinAt = some t0 ∧ s.roll.admitted = false ∧ t0 + 10000000 = s.now + d) := by
  have flo : ∀ (s : State) (aux addr : Nat) (d : List Byte), aux < 256 → s.rollRuns = true ∧ (s.slotFor 3 3).isSome = true ∧
      badPacket (ctrlPkt aux addr d) = false → s.linkUp 3 = true →
      s.roll.seen.contains (aux, 1, payloadKey (ctrlPkt aux addr d)) = false → Floods s (ctrlPkt aux addr d) 3 aux :=
    fun _ aux addr d ha hr hl hs => ⟨⟨rfl, Nat.mod_eq_of_lt ha, hr.1, hl, hr.2.1⟩, hr.2.2, ctrlPkt_crc aux addr d, hs⟩
  refine ⟨⟨called 1 1 1 {}, by decide +kernel⟩, ⟨idle, by decide +kernel⟩, ⟨called 3 1 1 {}, 1, by decide +kernel⟩, ⟨called 1 1 1 {}, 1, by decide +kernel⟩,
    ⟨called 2 1 1 { nodes := [(1, { coord := 2 })] }, 1, by decide +kernel⟩, ⟨called 1 1 1 {}, 511, by decide +kernel⟩,
    ⟨called 1 1 1 { nodes := [(1, { last := 89900001 }), (2, { last := 89900001 }), (4, { last := 89900001 })] }, by decide +kernel⟩,
    ⟨called 1 1 1 { nodes := [(1, { last := 89900000 })] }, 1, by decide +kernel⟩, ⟨called 1 3 1 {}, 1, 2, by decide +kernel⟩, fun old => ?_, fun k h => ?_,
    ⟨called 1 1 1 { seen := [(4, 1, payloadKey (ctrlPkt 4 2 []))] }, ctrlPkt 4 2 [], by decide +kernel⟩, fun k h1 h3 => ?_,
    ⟨called 1 1 1 { domains := [(1, 5, 2)] }, ctrlPkt 5 (1 + 5 * 4) [], 3, 2, flo _ _ _ _ (by decide) (by decide +kernel) (by decide +kernel) (by decide +kernel), by decide +kernel⟩,
    fun st h => ?_, ⟨called 3 1 1 {}, ctrlPkt 6 0 (joinPay 7), 3, flo _ _ _ _ (by decide) (by decide +kernel) (by decide +kernel) (by decide +kernel), by decide +kernel⟩,
    fun a => ⟨called 1 1 1 { joinAt := some 80000000, admitted := a }, ctrlPkt 7 0 (List.replicate 128 0), rfl, rfl, ctrlPkt_crc _ _ _, ?_, rfl, rfl⟩,
    fun d h => ⟨called 1 1 1 { joinAt := some (80000000 + d) }, 80000000 + d, rfl, rfl, ?_⟩⟩
  · cases old
    · exact ⟨called 1 2 1 { votes := [⟨2, 4, 89000000⟩] }, 3, 2, _, by decide, by decide, by decide +kernel, by decide +kernel, by decide +kernel, rfl, by decide +kernel⟩
    · exact ⟨called 1 1 1 { votes := [⟨2, 4, 89000000⟩] }, 1, 2, _, by decide, by decide, by decide +kernel, by decide +kernel, by decide +kernel, rfl, by decide +kernel⟩
  · refine ⟨called 1 1 1 {}, ctrlPkt 4 (2 + k * 512) [], 3, flo _ _ _ _ (by decide) ⟨by decide +kernel, by decide +kernel, (by decide +kernel : ∀ k, k < 4 → badPacket (ctrlPkt 4 (2 + k * 512) []) = false) k h⟩ (by decide +kernel) rfl, (by decide +kernel : (called 1 1 1 {}).excluded 1 = false),
      (by decide +kernel : ∀ k, k < 4 → bits (2 + k * 512) 11 9 = k) k h⟩
  · have : k = 1 ∨ k = 2 ∨ k = 3 := by omega
    rcases this with rfl | rfl | rfl
    · exact ⟨called 1 1 1 { domains := [(1, 5, 2)] }, 5, _, 2, by decide +kernel, by decide +kernel, rfl, by decide +kernel⟩
    · exact ⟨called 1 1 1 { domains := [(2, 0, 2)] }, 0, _, 2, by decide +kernel, by decide +kernel, rfl, by decide +kernel⟩
    · exact ⟨called 1 1 1 { domains := [(3, 0, 2)] }, 0, _, 2, by decide +kernel, by decide +kernel, rfl, by decide +kernel⟩
  · have : st = 0 ∨ st = 1 ∨ st = 2 ∨ st = 3 := by omega
    rcases this with rfl | rfl | rfl | rfl
    · exact ⟨called 0 1 1 {}, ctrlPkt 6 0 (joinPay 8), 3, flo _ _ _ _ (by decide) (by decide +kernel) (by decide +kernel) (by decide +kernel), by decide +kernel⟩
    · exact ⟨called 1 1 1 {}, ctrlPkt 6 0 (joinPay 8), 3, flo _ _ _ _ (by decide) (by decide +kernel) (by decide +kernel) (by decide +kernel), by decide +kernel⟩
    · exact ⟨called 2 1 1 {}, ctrlPkt 6 0 (joinPay 8), 3, flo _ _ _ _ (by decide) (by decide +kernel) (by decide +kernel) (by decide +kernel), by decide +kernel⟩
    · exact ⟨called 3 1 1 {}, ctrlPkt 6 0 (joinPay 8), 3, flo _ _ _ _ (by decide) (by decide +kernel) (by decide +kernel) (by decide +kernel), by decide +kernel⟩
  · show (called 1 1 1 {}).rollRuns = true
    decide +kernel
  · show 80000000 + d + 10000000 = 90000000 + d
    omega


/-! ### Winnow and trace -/

/-- TRN-0304 with one die released, winnow on, job time 60 s, and these winnow states of its cores. -/
def winnowing (w : SMap Wnw) : State :=
  let s : State := { withQueue {} 0 with variant := .trn0304, wnw := w, now := 90000000, jobNs := 60000000000 }
  s.wrs .WNW_CFG 0 0 0 [(WNW_CFG.EN, 1), (WNW_CFG.STEPEN, 0), (WNW_CFG.IDLEMIN, 1000)]

/-- Core 7's winnow state, with the answer 9 for its kernel. -/
def testing (w : Wnw) : State :=
  let s := winnowing [(7, w)]
  { s with boot := { s.boot with flash := { s.boot.flash with answers := [(w.next, 9)] } } }

/-- Core 3's trace unit, and base die 0's, set to record all, with these buffers; datagrams leave by port 0. -/
def tracing (b c : TraceUnit) : State :=
  let s : State := { withQueue {} 0 with trace := [(3, b), (256, c)], now := 90000000 }
  let s := s.wrs .OBS_CORE 3 0 0 [(OBS_CORE.EN, 1), (OBS_CORE.KERN, 1), (OBS_CORE.EXC, 1), (OBS_CORE.SAMPLE, 1), (OBS_CORE.FIRST, 62)]
  let s := s.wrs .OBS_BASE 0 0 0 [(OBS_BASE.EN, 1), (OBS_BASE.EVT, 1), (OBS_BASE.SAMPLE, 1)]
  let s := s.wrs .OBS_CFG 0 0 0 [(OBS_CFG.EN, 1), (OBS_CFG.FLUSH, 50)]
  s.wrs .ETH_STAT 0 0 0 [(ETH_STAT.LINK, 1)]

/-- A buffer of `n` records, the oldest of 50 us ago. -/
def recs (n d : Nat) : TraceUnit := { buf := (List.range n).map (fun k => (w64 k, 1)), dropped := d, seqNo := 4294967295, oldest := 90000000 - 50000 }

theorem wit_winnowAndTrace :
    (∃ s : State, s.rdB WNW_CFG.EN = false) ∧ (∃ (s : State) (d : Nat), d = s.variant.cdies) ∧ (∃ (s : State) (d : Nat), ∃ c ∈ dieCores d, (s.wnwOf c).running = true) ∧
    (∃ (s : State) (d c : Nat), d < s.variant.cdies ∧ s.rdB WNW_CFG.EN = true ∧ s.alive = true ∧ s.stby.inStby = false ∧ 8 ≤ s.boot.stage ∧ s.boot.stage ≤ 12 ∧
      (∀ c ∈ dieCores d, (s.wnwOf c).running = false) ∧ (dieCores d).find? (fun c => (s.wnwOf c).forced && s.coreFree c) = some c) ∧
    (∃ (s : State) (d : Nat), d < s.variant.cdies ∧ s.rdB WNW_CFG.EN = true ∧ s.alive = true ∧ s.stby.inStby = false ∧ 8 ≤ s.boot.stage ∧ s.boot.stage ≤ 12 ∧
      (∀ c ∈ dieCores d, (s.wnwOf c).running = false) ∧ (dieCores d).find? (fun c => (s.wnwOf c).forced && s.coreFree c) = none ∧
      s.oldestPass ((dieCores d).filter s.idleLong) ≠ []) ∧
    (∃ (s : State) (d : Nat), d < s.variant.cdies ∧ s.rdB WNW_CFG.EN = true ∧ s.alive = true ∧ s.stby.inStby = false ∧ 8 ≤ s.boot.stage ∧ s.boot.stage ≤ 12 ∧
      (∀ c ∈ dieCores d, (s.wnwOf c).running = false) ∧ (dieCores d).find? (fun c => (s.wnwOf c).forced && s.coreFree c) = none ∧
      s.oldestPass ((dieCores d).filter s.idleLong) = [] ∧ ∃ c ∈ dieCores d, (s.wnwOf c).forced = true ∧ s.coreSt c = .ready) ∧
    (∃ (s : State) (d : Nat), d < s.variant.cdies ∧ s.rdB WNW_CFG.EN = true ∧ s.alive = true ∧ s.stby.inStby = false ∧ 8 ≤ s.boot.stage ∧ s.boot.stage ≤ 12 ∧
      (∀ c ∈ dieCores d, (s.wnwOf c).running = false) ∧ (dieCores d).find? (fun c => (s.wnwOf c).forced && s.coreFree c) = none ∧
      s.oldestPass ((dieCores d).filter s.idleLong) = [] ∧ (∀ c ∈ dieCores d, (s.wnwOf c).forced = false ∨ s.coreSt c ≠ .ready) ∧
      (∃ c ∈ dieCores d, (s.wnwOf c).forced = true) ∧ s.oldestPass ((dieCores d).filter s.coreDue) ≠ []) ∧
    (∃ (s : State) (c : Nat) (crc : W64), c < 192 ∧ s.alive = true ∧ (s.wnwOf c).running = false ∧ s.boot.flash.answers.get 0 (s.wnwOf c).next = crc) ∧
    (∀ (ok ret : Bool) (n r bad : Nat), n < 48 → r < 3 → bad < 2 → ∃ (s : State) (c : Nat) (crc : W64), c < 192 ∧ s.alive = true ∧
      ok = decide (s.boot.flash.answers.get 0 (s.wnwOf c).next = crc) ∧ (s.wnwOf c).running = true ∧ (s.wnwOf c).next = n ∧ (s.wnwOf c).reruns = r ∧
      (s.wnwOf c).bad = bad ∧ (s.wnwOf c).ret = ret ∧ (s.wnwOf c).forced = false ∧ s.rdB WNW_LOG.VALID = false) ∧
    (∃ (s : State) (u typ : Nat), traceUnit s.variant u = false ∨ s.traceOn u typ = false) ∧
    (∀ u, u = 3 ∨ u = 256 → ∃ s : State, traceUnit s.variant u = true ∧ s.traceOn u 6 = true ∧ (s.trace.get {} u).buf.length + 8 = traceRoom u) ∧
    (∃ (s : State) (u typ : Nat), traceUnit s.variant u = true ∧ s.traceOn u typ = true ∧ traceRoom u = (s.trace.get {} u).buf.length) ∧
    (∃ (s : State) (u : Nat), s.traceDue u = false ∨ s.traceOpen = false) ∧
    (∀ d, d < 2 → ∃ (s : State) (u : Nat), traceUnit s.variant u = true ∧ s.traceDue u = true ∧ s.traceOpen = true ∧ (s.trace.get {} u).dropped = d ∧
      (s.trace.get {} u).seqNo = 4294967295 ∧ (s.trace.get {} u).buf.length ≤ traceRoom u) ∧
    (∃ s : State, s.skew ≠ [] ∧ ∀ e ∈ s.skew, e.1 < 16 → -5 ≤ e.2 ∧ e.2 ≤ 5) := by
  refine ⟨⟨(winnowing []).wrs .WNW_CFG 0 0 0 [(WNW_CFG.EN, 0)], by decide +kernel⟩, ⟨idle, _, rfl⟩, ⟨winnowing [(7, { running := true })], 0, by decide +kernel⟩,
    ⟨winnowing [(7, { forced := true })], 0, 7, by decide +kernel⟩, ⟨winnowing [(7, { freeSince := 5 })], 0, by decide +kernel⟩,
    ⟨{ winnowing ((List.range 16).map (fun c => (c, { freeSince := 89000001, forced := decide (c = 4) }))) with cores := [(4, { kernel := some ⟨1, 0, 2, none⟩ })] }, 0, by decide +kernel⟩,
    ⟨(winnowing ((List.range 16).map (fun c => (c, { freeSince := 89000001, lastPass := 10000000000, passNo := c + 1, forced := decide (c = 4) })))).wrs .PWR_DOM_LP 4 0 0
      [(PWR_DOM_LP.GATE, 1)], 0, by decide +kernel⟩, ⟨testing {}, 7, 9, by decide +kernel⟩,
    fun ok ret n r bad hn hr hb => ⟨testing { next := n, reruns := r, bad := bad, ret := ret, running := true }, 7, if ok then 9 else 8, (by decide : 7 < 192), rfl, ?_, rfl, rfl, rfl, rfl, rfl, rfl, ?_⟩,
    ⟨idle, 200, 1, by decide +kernel⟩, fun u h => ?_, ⟨tracing (recs 1024 0) {}, 3, 1, by decide +kernel⟩, ⟨tracing {} {}, 3, by decide +kernel⟩,
    fun d h => ⟨tracing (recs 3 d) {}, 3, rfl, ?_, ?_, rfl, rfl, ?_⟩, ⟨{ idle with skew := [(2, -5), (3, 5), (17, 8)] }, by decide +kernel⟩⟩
  · have key : (testing { next := n, reruns := r, bad := bad, ret := ret, running := true }).boot.flash.answers.get 0
        ((testing { next := n, reruns := r, bad := bad, ret := ret, running := true }).wnwOf 7).next = 9 := by
      show (if n = n then (9 : W64) else _) = 9
      rw [if_pos rfl]
    rw [key]
    cases ok <;> rfl
  · show (testing { running := true }).rdB WNW_LOG.VALID = false
    decide +kernel
  · rcases h with rfl | rfl
    · exact ⟨tracing (recs 1016 0) {}, by decide +kernel⟩
    · exact ⟨tracing {} (recs 4088 0), by decide +kernel⟩
  · show (tracing (recs 3 0) {}).traceDue 3 = true
    decide +kernel
  · show (tracing (recs 3 0) {}).traceOpen = true
    decide +kernel
  · show 3 ≤ 1024
    decide


/-! ### Resets and fencing -/

/-- A running READY module with this fault unit. -/
def faulty (f : Flt) : State := { withQueue {} 0 with flt := f, now := 90000000 }

theorem wit_resetsAndFencing :
    (∃ s : State, s.flt.mrstCause = none) ∧ (∃ s : State, s.flt.mrstCause.isSome = true ∧ s.alive = true ∧ s.rdB FLT_REC0.VALID = true) ∧
    (∃ (s : State) (v : W64), s.linkLit = false ∨ v.getLsbD 0 = false) ∧
    (∀ b : Bool, ∃ (s : State) (v : W64), s.linkLit = true ∧ v.getLsbD 0 = true ∧ s.flt.mrstCause = none ∧ s.rdB FLT_REC0.VALID = b) ∧
    (∃ s : State, s.linkLit = true ∧ s.boot.stage ≠ 12) ∧
    (∃ (s : State) (v : W64), s.linkLit = true ∧ s.boot.stage = 12 ∧ v.getLsbD 17 = false ∧ v.getLsbD 0 = true ∧ s.rdB FLT_WDOG.EN = false) ∧
    (∃ (s : State) (v : W64), s.linkLit = true ∧ s.boot.stage = 12 ∧ bits v.toNat 63 40 = bits s.epoch 63 40 ∧ s.epoch + 1 = v.toNat ∧ s.anyKernel = false ∧ s.col.ctxs = []) ∧
    (∃ (s : State) (v : W64), s.linkLit = true ∧ s.boot.stage = 12 ∧ bits v.toNat 63 40 = bits s.epoch 63 40 ∧ v.toNat = s.epoch) ∧
    (∃ (s : State) (v : W64), s.linkLit = true ∧ s.boot.stage = 12 ∧ bits v.toNat 63 40 ≠ bits s.epoch 63 40) ∧
    (∃ s : State, s.rdB FLT_WDOG.EN = true ∧ s.alive = true ∧ s.flt.mrstCause = none ∧ s.now + 1 = s.flt.kickAt + max 1 (s.rd FLT_WDOG.PERIOD) * 1000000) ∧
    (∃ s : State, s.rdB FLT_WDOG.EN = true ∧ s.alive = true ∧ s.flt.mrstCause = none ∧ s.flt.kickAt + max 1 (s.rd FLT_WDOG.PERIOD) * 1000000 = s.now) ∧
    (∃ s : State, s.rollRuns = true ∧ s.roll.named = true ∧ (∀ q, (s.queue q).st = 0) ∧ s.cores = [] ∧ s.col.ctxs = [] ∧ s.que.cmds = [] ∧ s.win.fold = []) ∧
    (∃ s : State, s.roll.named = false ∨ s.rollRuns = false) ∧
    (∃ s : State, s.rollRuns = true ∧ s.aliveNbrs s.node ≠ [] ∧ s.heardIn (s.rollCfg ROLL_CFG.SELF) + 1 = (s.aliveNbrs s.node).length / 2 + 1) ∧
    (∃ s : State, s.rollRuns = true ∧ (s.aliveNbrs s.node).length / 2 + 1 = s.heardIn (s.rollCfg ROLL_CFG.SELF)) ∧
    (∀ d, d < 2 → ∃ (s : State) (t0 : Nat), s.roll.fencedAt = some t0 ∧ s.flt.mrstCause = none ∧ s.rdB ROLL_CTL.EXRST = true ∧ t0 + 10000000 = s.now + d) ∧
    (∃ (s : State) (t0 : Nat), s.roll.fencedAt = some t0 ∧ s.flt.mrstCause = none ∧ s.rdB ROLL_CTL.EXRST = false) := by
  refine ⟨⟨idle, rfl⟩, ⟨(faulty { mrstCause := some 2 }).wrs .FLT_REC0 0 0 0 [(FLT_REC0.VALID, 1)], by decide +kernel⟩, ⟨idle, 0, by decide +kernel⟩, fun b => ?_,
    ⟨{ faulty {} with boot := { stage := 11 } }, by decide +kernel⟩, ⟨faulty {}, 1, by decide +kernel⟩, ⟨faulty {}, 1, by decide +kernel⟩, ⟨faulty {}, 0, by decide +kernel⟩,
    ⟨faulty {}, 1 <<< 40, by decide +kernel⟩, ⟨(faulty { kickAt := 89000001 }).wrs .FLT_WDOG 0 0 0 [(FLT_WDOG.EN, 1), (FLT_WDOG.PERIOD, 0)], by decide +kernel⟩,
    ⟨(faulty { kickAt := 89000000 }).wrs .FLT_WDOG 0 0 0 [(FLT_WDOG.EN, 1), (FLT_WDOG.PERIOD, 1)], by decide +kernel⟩,
    ⟨{ called 1 1 1 { named := true } with que := {} }, by decide +kernel, rfl, fun q => rfl, rfl, rfl, rfl, rfl⟩, ⟨idle, by decide +kernel⟩,
    ⟨called 1 1 1 { nodes := [(1, { last := 89999999 })] }, by decide +kernel⟩, ⟨called 1 1 1 { nodes := [(1, { last := 89999999 }), (4, { last := 87500001 }), (2, { last := 87500000 })] }, by decide +kernel⟩,
    fun d h => ⟨called 1 1 1 { fencedAt := some (80000000 + d) }, 80000000 + d, rfl, rfl, ?_, ?_⟩,
    ⟨(called 1 1 1 { fencedAt := some 80000000 }).wrs .ROLL_CTL 0 0 0 [(ROLL_CTL.EXRST, 0)], 80000000, rfl, rfl, by decide +kernel⟩⟩
  · cases b
    · exact ⟨faulty {}, 1, by decide +kernel⟩
    · exact ⟨(faulty {}).wrs .FLT_REC0 0 0 0 [(FLT_REC0.VALID, 1)], 1, by decide +kernel⟩
  · show (called 1 1 1 {}).rdB ROLL_CTL.EXRST = true
    decide +kernel
  · show 80000000 + d + 10000000 = 90000000 + d
    omega

theorem wit_stepRunsCommand : (∃ (s : State) (c : Instr) (r : List Instr), s.pending = c :: r) ∧ ∃ s : State, s.pending = [] :=
  ⟨⟨{ idle with pending := [.wake] }, .wake, [], rfl⟩, idle, rfl⟩


/-! ### Boot -/

/-- TRN-0304 at this boot step, begun at 5 ms. -/
def booting (st now : Nat) : State := { State.reset with variant := .trn0304, boot := { stage := st, stepAt := 5000000 }, now := now }

/-- Firmware of `n` zero bytes, with signatures of zeros. -/
def image (n : Nat) : List Byte := leBytes 4 0x4A465731 ++ [2, 1, 0, 0] ++ leBytes 4 n ++ leBytes 4 0 ++ List.replicate (n + 4627) 0

/-- A READY module with that image in HBM at 0x4000. -/
def flashing (m : List MemCell) : State := { withQueue {} 0 with variant := .trn0304, mem := { hbm := m } }
/-- BOOT_FLUPD's value: GO, slot 1, 0x4000. -/
def flupd : W64 := BitVec.ofNat 64 (2 ^ 41 + 2 ^ 40 + 0x4000)

theorem wit_boot :
    (∀ k, k < 12 → ∃ s : State, s.alive = true ∧ s.boot.stage = k) ∧ (∃ s : State, s.alive = true ∧ s.boot.stage = 2 ∧ s.bootSlot = none) ∧
    (∀ p, p < 2 → ∃ s : State, s.alive = true ∧ s.boot.stage = 8 ∧ s.rd FAB_NODE.STRAPERR = p) ∧
    (∀ p, p < 2 → ∃ s : State, s.alive = true ∧ s.boot.stage = 9 ∧ s.rd FAB_NODE.STRAPERR = p) ∧
    (∃ s : State, s.alive = true ∧ s.boot.stage = 10 ∧ s.roll.joinAt = none) ∧
    (∀ a : Bool, ∃ s : State, s.alive = true ∧ s.boot.stage = 10 ∧ s.roll.joinAt.isSome = true ∧ s.roll.admitted = a) ∧
    (∃ s : State, s.alive = true ∧ s.linkLit = true ∧ s.win.change = none) ∧ (∃ s : State, s.alive = true ∧ s.linkLit = true ∧ s.win.change.isSome = true) ∧
    (∃ (s : State) (d : Nat), s.alive = true ∧ s.boot.stage = 5 ∧ d < s.variant.cdies ∧ s.dieGoes d = true) ∧
    (∃ (s : State) (c : Nat), s.alive = true ∧ s.boot.stage = 7 ∧ c < s.variant.cores ∧ s.coreHere c = true ∧ s.dieReleased (c / 16) = true ∧ s.gated c = false ∧
      s.coreFenced c = false) ∧
    (∀ k, 1 ≤ k → k ≤ 11 → ∃ s : State, s.alive = true ∧ s.boot.stage = k ∧ s.now + 1 = s.boot.stepAt + bootLimit k * 1000000) ∧
    (∀ k, 1 ≤ k → k ≤ 11 → ∃ s : State, s.alive = true ∧ s.boot.stage = k ∧ s.boot.stepAt + bootLimit k * 1000000 = s.now) ∧
    (∃ s : State, s.alive = true ∧ s.boot.stage = 11 ∧ s.passesOver = true) ∧ (∃ s : State, s.alive = true ∧ s.boot.stage = 11 ∧ s.passesOver = false) ∧
    (∃ (s : State) (c : Nat), s.alive = true ∧ (s.wnwOf c).ret = true ∧ (s.wnwOf c).running = false ∧ (s.wnwOf c).next = 48) ∧
    (∃ (s : State) (c : Nat), s.alive = true ∧ (s.wnwOf c).ret = true ∧ (s.wnwOf c).running = false ∧ (s.wnwOf c).next = 47) ∧
    (∃ (s : State) (v : W64), s.live = true ∧ v.getLsbD 41 = true ∧ bits v.toNat 40 40 = s.boot.slot) ∧
    (∃ (s : State) (v : W64), s.live = true ∧ v.getLsbD 41 = true ∧ bits v.toNat 40 40 ≠ s.boot.slot ∧
      ((s.wrs .BOOT_FLUPD 0 0 0 [(BOOT_FLUPD.ADDR, bits v.toNat 39 0), (BOOT_FLUPD.SLOT, bits v.toNat 40 40)]).readImage (bits v.toNat 39 0)).1 = none) ∧
    (∃ (s : State) (v : W64), s.live = true ∧ v.getLsbD 41 = false ∧ v.getLsbD 0 = false) ∧ (∃ (s : State) (v : W64), s.live = true ∧ v.getLsbD 0 = true ∧ s.boot.ucalNew = none) ∧
    (∃ s : State, s.alive = true ∧ s.linkLit = true) ∧ (∃ s : State, s.alive = true ∧ s.linkLit = false) := by
  refine ⟨fun k h => ⟨booting k 0, rfl, rfl⟩, ⟨booting 2 0, by decide +kernel⟩, fun p h => ?_, fun p h => ?_, ⟨booting 10 0, by decide +kernel⟩,
    fun a => ⟨{ booting 10 0 with roll := { joinAt := some 0, admitted := a } }, rfl, rfl, rfl, rfl⟩, ⟨(booting 2 0).wr PHO_FIB_STAT.ROLE 1 0 128, by decide +kernel⟩,
    ⟨{ idle with win := { change := some ⟨[], false, 0⟩ } }, by decide +kernel⟩,
    ⟨(ported { boot := some ownCap } 5).wrs .DPORT_STAT 4 0 0 [(DPORT_STAT.STATE, 3)], 4, by decide +kernel⟩,
    ⟨{ withQueue {} 0 with boot := { stage := 7 } }, 15, by decide +kernel⟩, fun k h1 h2 => ⟨booting k (4999999 + bootLimit k * 1000000), rfl, rfl, ?_⟩,
    fun k h1 h2 => ⟨booting k (5000000 + bootLimit k * 1000000), rfl, rfl, rfl⟩, ⟨booting 11 0, by decide +kernel⟩, ⟨{ booting 11 0 with wnw := [(3, { ret := true })] }, by decide +kernel⟩,
    ⟨{ booting 11 0 with wnw := [(3, { ret := true, next := 48 })] }, 3, by decide +kernel⟩, ⟨{ booting 11 0 with wnw := [(3, { ret := true, next := 47 })] }, 3, by decide +kernel⟩,
    ⟨booting 12 0, 1 <<< 41, by decide +kernel⟩, ⟨flashing [], flupd, by decide +kernel⟩, ⟨idle, 0, by decide +kernel⟩, ⟨idle, 1, by decide +kernel⟩,
    ⟨(booting 2 0).wr PHO_FIB_STAT.ROLE 1 0 128, by decide +kernel⟩, ⟨booting 2 0, by decide +kernel⟩⟩
  · have : p = 0 ∨ p = 1 := by omega
    rcases this with rfl | rfl
    · exact ⟨booting 8 0, by decide +kernel⟩
    · exact ⟨(booting 8 0).wrs .FAB_NODE 0 0 0 [(FAB_NODE.STRAPERR, 1)], by decide +kernel⟩
  · have : p = 0 ∨ p = 1 := by omega
    rcases this with rfl | rfl
    · exact ⟨booting 9 0, by decide +kernel⟩
    · exact ⟨(booting 9 0).wrs .FAB_NODE 0 0 0 [(FAB_NODE.STRAPERR, 1)], by decide +kernel⟩
  · show 4999999 + bootLimit k * 1000000 + 1 = 5000000 + bootLimit k * 1000000
    omega

/-- The module with firmware in HBM, and what it reads of it. -/
def flashed : State := flashing ((SMap.number 0x4000 ((image 0).take 16)).filter (fun c => c.2 != 0))
/-- See `flashed`. -/
def readBack : Option (List Byte) :=
  ((flashed.wrs .BOOT_FLUPD 0 0 0 [(BOOT_FLUPD.ADDR, bits flupd.toNat 39 0), (BOOT_FLUPD.SLOT, bits flupd.toNat 40 40)]).readImage (bits flupd.toNat 39 0)).1

theorem readBack_some : readBack = some (readBack.getD []) := by
  have h : readBack.isSome = true := by decide +kernel
  cases k : readBack with
  | none => rw [k] at h; cases h
  | some d => rfl

/-- TRN-0304 at boot step 2 with an image in slot 1 and this user calibration. -/
def loaded (x : Copies Ucal) : State := { booting 2 0 with boot := { stage := 2, flash := { slot1 := image 8, ucal := x } } }

theorem loaded_slot (h : ∀ pub dig sg, Config.mldsaVerify pub dig sg = true) (x : Copies Ucal) : (loaded x).bootSlot = some (1, image 8) := by
  have a : (loaded x).imgOk [] = false := by
    show (loaded {}).imgOk [] = false
    decide +kernel
  have b : (loaded x).imgOk (image 8) = true := by
    show (loaded {}).imgOk (image 8) = true
    unfold State.imgOk
    simp only [h, Bool.and_true]
    decide +kernel
  show (if (loaded x).imgOk [] then some (0, []) else if (loaded x).imgOk (image 8) then some (1, image 8) else none) = _
  rw [a, b]
  rfl

/-- Where signatures verify, an image boots from slot 1, and one in HBM is stored; where none does, that one is refused. -/
theorem wit_bootImages :
    ((∀ pub dig sg, Config.mldsaVerify pub dig sg = true) →
      (∃ (s : State) (img : List Byte), s.alive = true ∧ s.boot.stage = 2 ∧ s.bootSlot = some (1, img) ∧ s.boot.flash.userCal = none) ∧
      (∀ k, k = 231 ∨ k = 230 → ∃ (s : State) (img : List Byte) (u : Ucal), s.alive = true ∧ s.boot.stage = 2 ∧ s.bootSlot = some (1, img) ∧
        s.boot.flash.userCal = some u ∧ u.uofs = [(3, k)] ∧ k < 256 ∧ domExists s.variant 3 = true) ∧
      (∃ (s : State) (v : W64) (d : List Byte), s.live = true ∧ v.getLsbD 41 = true ∧ bits v.toNat 40 40 ≠ s.boot.slot ∧
        ((s.wrs .BOOT_FLUPD 0 0 0 [(BOOT_FLUPD.ADDR, bits v.toNat 39 0), (BOOT_FLUPD.SLOT, bits v.toNat 40 40)]).readImage (bits v.toNat 39 0)).1 = some d ∧
        s.imgOk d = true)) ∧
    ((∀ pub dig sg, Config.mldsaVerify pub dig sg = false) → ∃ (s : State) (v : W64) (d : List Byte), s.live = true ∧ v.getLsbD 41 = true ∧
      bits v.toNat 40 40 ≠ s.boot.slot ∧
        ((s.wrs .BOOT_FLUPD 0 0 0 [(BOOT_FLUPD.ADDR, bits v.toNat 39 0), (BOOT_FLUPD.SLOT, bits v.toNat 40 40)]).readImage (bits v.toNat 39 0)).1 = some d ∧
        s.imgOk d = false) := by
  refine ⟨fun h => ⟨⟨loaded {}, image 8, rfl, rfl, loaded_slot h _, rfl⟩,
    fun k hk => ⟨loaded { b := ⟨9, some { uofs := [(3, k)] }⟩ }, image 8, { uofs := [(3, k)] }, rfl, rfl, loaded_slot h _, rfl, rfl, by omega, rfl⟩,
    ⟨flashed, flupd, readBack.getD [], rfl, by decide, (by decide : (1 : Nat) ≠ 0), readBack_some, ?_⟩⟩,
    fun h => ⟨flashed, flupd, readBack.getD [], rfl, by decide, (by decide : (1 : Nat) ≠ 0), readBack_some, ?_⟩⟩
  · unfold State.imgOk
    simp only [h, Bool.and_true]
    decide +kernel
  · unfold State.imgOk
    simp only [h, Bool.and_false, Bool.false_and]


/-! ### Low-power states and the board's bus -/

/-- A READY module of TRN-0304 with die 0 released and these core registers of power; nothing copies, the fabric is quiesced. -/
def dozing (g f : Nat) : State :=
  let s : State := { withQueue {} 0 with variant := .trn0304 }
  let s := s.wrs .FAB_CTL 0 0 0 [(FAB_CTL.QUIESCE, 1)]
  let s := s.wrs .PWR_DOM_LP 5 0 0 [(PWR_DOM_LP.GATE, g)]
  s.wrs .PWR_DOM_LP 192 0 0 [(PWR_DOM_LP.FALLOW, f)]

/-- The same with core 5 at work. -/
def working (g : Nat) : State := { dozing g 0 with cores := [(5, { kernel := some ⟨1, 0, 2, none⟩ })] }

/-- Queue 63's head is a SOW to core 5's scratchpad. -/
def sowing (g : Nat) (x : Queue) : State := (dozing g 0).modQueue 63 (fun _ => { x with cmd := some (cmdW 3 0 60 0 (5 * 2 ^ 12)) })

theorem wit_lowPowerAndBoard :
    (∃ (s : State) (i : Nat), domExists s.variant i = false) ∧ (∃ s : State, s.live = false) ∧ (∃ i, i = 204) ∧
    (∀ on : Bool, ∃ (s : State) (i : Nat) (v : W64), s.live = true ∧ i < 192 ∧ domExists s.variant i = true ∧ v.getLsbD 3 = false ∧ v.getLsbD 2 = false ∧ v.getLsbD 0 = on ∧ s.gated i = on) ∧
    (∀ ok : Bool, ∃ (s : State) (i : Nat) (v : W64), s.live = true ∧ i < 192 ∧ domExists s.variant i = true ∧ v.getLsbD 3 = false ∧ v.getLsbD 2 = false ∧ v.getLsbD 0 = true ∧
      s.gated i = false ∧ s.canGate i = ok) ∧
    (∃ (s : State) (i : Nat) (v : W64), s.live = true ∧ i < 192 ∧ domExists s.variant i = true ∧ v.getLsbD 3 = false ∧ v.getLsbD 2 = false ∧ v.getLsbD 0 = false ∧
      s.gated i = true ∧ s.coreHere i = true ∧ s.dieReleased (i / 16) = true ∧ s.corePend i = false) ∧
    (∃ (s : State) (i : Nat) (v : W64), s.live = true ∧ i < 192 ∧ domExists s.variant i = true ∧ v.getLsbD 3 = false ∧ v.getLsbD 2 = false ∧ v.getLsbD 0 = false ∧
      s.gated i = true ∧ s.coreHere i = true ∧ s.dieReleased (i / 16) = true ∧ s.corePend i = true ∧ s.que.copies = [] ∧ s.rdB FAB_CTL.QUIESCE = true) ∧
    (∃ (s : State) (i : Nat) (v : W64), s.live = true ∧ i < 192 ∧ domExists s.variant i = true ∧ v.getLsbD 3 = false ∧ v.getLsbD 2 = true ∧ v.getLsbD 0 = true ∧ s.gated i = true) ∧
    (∃ (s : State) (i : Nat) (v : W64), s.live = true ∧ i < 192 ∧ domExists s.variant i = true ∧ v.getLsbD 3 = false ∧ v.getLsbD 2 = true ∧ v.getLsbD 0 = false ∧ s.gated i = false ∧
      s.fallow (i / 16) = true) ∧
    (∃ (s : State) (i : Nat) (v : W64), s.live = true ∧ i < 192 ∧ domExists s.variant i = true ∧ v.getLsbD 3 = false ∧ v.getLsbD 2 = true ∧ v.getLsbD 0 = false ∧ s.gated i = false ∧
      s.fallow (i / 16) = false ∧ s.coreHere i = true ∧ s.dieReleased (i / 16) = true ∧ s.que.copies = [] ∧ s.rdB FAB_CTL.QUIESCE = true) ∧
    (∀ on : Bool, ∃ (s : State) (d : Nat) (v : W64), s.live = true ∧ d < s.variant.cdies ∧ v.getLsbD 3 = false ∧ s.fallow d = on ∧ v.getLsbD 1 = on) ∧
    (∀ ok : Bool, ∃ (s : State) (d : Nat) (v : W64), s.live = true ∧ d < s.variant.cdies ∧ v.getLsbD 3 = false ∧ s.fallow d = false ∧ v.getLsbD 1 = true ∧ s.canFallow d = ok) ∧
    (∃ (s : State) (d : Nat) (v : W64), s.live = true ∧ d < s.variant.cdies ∧ v.getLsbD 3 = false ∧ s.fallow d = true ∧ v.getLsbD 1 = false ∧ (s.die d).drstPend = false ∧
      ∀ c ∈ dieCores d, s.gated c = false → s.corePend c = false) ∧
    (∀ on : Bool, ∃ (s : State) (q k : Nat) (c : List W64), s.live = true ∧ (s.queue q).cmd = some c ∧ (s.queue q).elig = true ∧ (s.queue q).granted = false ∧ (s.queue q).running = none ∧
      (s.queue q).st ≠ 5 ∧ (s.queue q).st ≠ 0 ∧ cmdCores c = [k] ∧ s.coreHere k = true ∧ decide (s.coreSt k = .asleep) = on ∧ s.fallow (k / 16) = false ∧ s.corePend k = false) ∧
    (∃ (s : State) (q : Nat), (s.queue q).cmd = none) ∧
    (∃ (s : State) (v : W64), s.alive = true ∧ v.getLsbD 0 = true ∧ s.stby.inStby = false ∧ s.boot.stage ≠ 12 ∧ s.standbyRefusal ≠ 0) ∧
    (∃ (s : State) (v : W64), s.alive = true ∧ v.getLsbD 0 = true ∧ s.stby.inStby = false ∧ s.standbyRefusal = 0) ∧
    (∃ (s : State) (v : W64), v.getLsbD 0 = true ∧ s.stby.inStby = true) ∧ (∃ s : State, s.stby.inStby = false) ∧
    (∃ (s : State) (c : Nat), s.alive = true ∧ s.stby.inStby = true ∧ c < s.variant.cores ∧ s.coreHere c = true ∧ s.dieReleased (c / 16) = true ∧ s.gated c = false ∧
      s.coreFenced c = false) ∧
    (∃ s : State, s.pwr.up = true ∧ s.boot.stage < 16) ∧ (∃ s : State, s.pwr.up = false) ∧ (∃ b : Byte, b ≠ 1 ∧ b ≠ 2) := by
  refine ⟨⟨idle, 236, by decide +kernel⟩, ⟨State.reset, by decide +kernel⟩, ⟨204, rfl⟩, fun on => ?_, fun ok => ?_, ⟨dozing 1 0, 5, 0, by decide +kernel⟩,
    ⟨{ dozing 1 0 with pwr := { up := true, cores := [(5, { crstPend := true })] } }, 5, 0, by decide +kernel⟩, ⟨dozing 1 0, 5, 5, by decide +kernel⟩,
    ⟨dozing 0 1, 5, 4, by decide +kernel⟩, ⟨dozing 0 0, 5, 4, by decide +kernel⟩, fun on => ?_, fun ok => ?_, ⟨dozing 0 1, 0, 0, by decide +kernel⟩, fun on => ?_,
    ⟨idle, 0, rfl⟩, ⟨booting 11 0, 1, by decide +kernel⟩, ⟨withQueue {} 0, 1, by decide +kernel⟩, ⟨{ idle with stby := { inStby := true } }, 1, by decide +kernel⟩, ⟨idle, rfl⟩,
    ⟨{ withQueue {} 0 with stby := { inStby := true } }, 15, by decide +kernel⟩, ⟨withQueue {} 0, by decide +kernel⟩, ⟨{ idle with pwr := { up := false } }, rfl⟩, ⟨0, by decide⟩⟩
  · cases on
    · exact ⟨dozing 0 0, 5, 0, by decide +kernel⟩
    · exact ⟨dozing 1 0, 5, 1, by decide +kernel⟩
  · cases ok
    · exact ⟨working 0, 5, 1, by decide +kernel⟩
    · exact ⟨dozing 0 0, 5, 1, by decide +kernel⟩
  · cases on
    · exact ⟨dozing 0 0, 0, 0, by decide +kernel⟩
    · exact ⟨dozing 0 1, 0, 2, by decide +kernel⟩
  · cases ok
    · exact ⟨working 0, 0, 2, by decide +kernel⟩
    · exact ⟨dozing 0 0, 0, 2, by decide +kernel⟩
  · cases on
    · exact ⟨sowing 0 { st := 3, elig := true }, 63, 5, cmdW 3 0 60 0 (5 * 2 ^ 12), by decide +kernel⟩
    · exact ⟨sowing 1 { st := 3, elig := true }, 63, 5, cmdW 3 0 60 0 (5 * 2 ^ 12), by decide +kernel⟩

/-! ### Clauses that stand beside the results -/

/-- A processor whose x1 is `a`, with x2 = 7, of a core whose mover carries 32 bytes of scratchpad, L-space or E-space at 0x400, and whose
group 0 of array 0 has a pass in flight. -/
def guarded (a : Nat) : State :=
  { withCore {
      sp0 := { x := [(1, BitVec.ofNat 64 a), (2, 7)], run := true }, icache := lines2
      mover := [⟨0, 0, desc 0 4 1 32 32 0x400, desc 1 4 1 32 32 0x400, 0, false, false⟩, ⟨0, 1, desc 2 4 1 32 32 0x400, desc 1 4 1 32 32 0x400, 0, false, false⟩]
      arr0 := { passes := [⟨0, 0, { req1 with grp := 0 }, [], []⟩] } } with variant := .trn0304 }

/-- MemoryGuards of ScalarMemory: just beyond the space, at the first accumulator word and narrower, misaligned across its bound, under a
move, and behind a pass. -/
theorem wit_scalarMemoryGuards : ∀ m ∈ [0x10, 0x11, 0x12, 0x13],
    (∃ s c p, ∃ w : W32, (s.memOk = true ∧ iMaj w.toNat = m ∧ mAddr (s.sp c p) w.toNat + 4 = (if m < 0x12 then sEnd else s.variant.lEnd) ∧ mSize w.toNat = 8) ∧
      Issues s c p [iRd w.toNat, iRs1 w.toNat] []) ∧
    (∃ s c p, ∃ w : W32, (s.memOk = true ∧ iMaj w.toNat = m ∧ mAddr (s.sp c p) w.toNat = accBase ∧ mSize w.toNat = 2) ∧ Issues s c p [iRd w.toNat, iRs1 w.toNat] []) ∧
    (∃ s c p, ∃ w : W32, (s.memOk = true ∧ iMaj w.toNat = m ∧ mAddr (s.sp c p) w.toNat + 1 = accBase ∧ mSize w.toNat = 2) ∧ Issues s c p [iRd w.toNat, iRs1 w.toNat] []) ∧
    (∃ s c p, ∃ w : W32, (s.memOk = true ∧ iMaj w.toNat = m ∧ mAddr (s.sp c p) w.toNat = 0x41F ∧ mSize w.toNat = 1 ∧
      s.moveBusy c p (if m < 0x12 then 0 else 1) 0x41F 1 = true) ∧ Issues s c p [iRd w.toNat, iRs1 w.toNat] []) ∧
    (∃ s c p, ∃ w : W32, (s.memOk = true ∧ iMaj w.toNat = m ∧ mAddr (s.sp c p) w.toNat = accBase ∧ mSize w.toNat = 4 ∧
      s.moveBusy c p 0 accBase 4 = false ∧ s.accBusy c (some p) accBase 4 = true) ∧ Issues s c p [iRd w.toNat, iRs1 w.toNat] []) := by
  intro m h
  refine ⟨⟨guarded ((if m < 0x12 then sEnd else Variant.lEnd .trn0304) - 4), 0, 0, word m 2 1 3 0 0, ?_, issues_of ?_⟩,
    ⟨guarded accBase, 0, 0, word m 2 1 1 0 0, ?_, issues_of ?_⟩, ⟨guarded (accBase - 1), 0, 0, word m 2 1 1 0 0, ?_, issues_of ?_⟩,
    ⟨guarded 0x41F, 0, 0, word m 2 1 0 0 0, ?_, issues_of ?_⟩, ⟨guarded accBase, 0, 0, word m 2 1 2 0 0, ?_, issues_of ?_⟩⟩ <;> (revert m; decide +kernel)

/-- MemoryGuards of ScalarAtomics, in each space. -/
theorem wit_scalarAtomicsGuards : ∀ m ∈ [0x18, 0x19, 0x1A],
    (∃ s c p, ∃ w : W32, (s.memOk = true ∧ iMaj w.toNat = m ∧ aLegal w.toNat = true ∧ aSize w.toNat = 8 ∧
      ((s.sp c p).xr (iRs1 w.toNat)).toNat + 4 = (if m = 0x18 then accBase else if m = 0x19 then s.variant.lEnd else s.variant.resBase)) ∧
      Issues s c p [iRd w.toNat, iRs1 w.toNat, iRs2 w.toNat, iRs3 w.toNat] []) ∧
    (∃ s c p, ∃ w : W32, (s.memOk = true ∧ iMaj w.toNat = m ∧ aLegal w.toNat = true ∧ aSize w.toNat = 8 ∧ ((s.sp c p).xr (iRs1 w.toNat)).toNat = 0x1004) ∧
      Issues s c p [iRd w.toNat, iRs1 w.toNat, iRs2 w.toNat, iRs3 w.toNat] []) ∧
    (∃ s c p, ∃ w : W32, (s.memOk = true ∧ iMaj w.toNat = m ∧ aLegal w.toNat = true ∧ aSize w.toNat = 8 ∧ ((s.sp c p).xr (iRs1 w.toNat)).toNat = 0x418 ∧
      s.moveBusy c p (m - 0x18) 0x418 8 = true) ∧ Issues s c p [iRd w.toNat, iRs1 w.toNat, iRs2 w.toNat, iRs3 w.toNat] []) := by
  intro m h
  refine ⟨⟨guarded ((if m = 0x18 then accBase else if m = 0x19 then Variant.lEnd .trn0304 else Variant.resBase .trn0304) - 4), 0, 0, atom m 4 1 2 0 1 0, ?_,
      issues_of ?_⟩,
    ⟨guarded 0x1004, 0, 0, atom m 4 1 2 0 1 0, ?_, issues_of ?_⟩, ⟨guarded 0x418, 0, 0, atom m 4 1 2 0 1 0, ?_, issues_of ?_⟩⟩ <;> (revert m; decide +kernel)

/-- The vector registers of `vregsM` with x1 at `a`, in a core as `guarded` has it. -/
def guardedV (a : Nat) : State :=
  (guarded a).modCore 0 (fun k => { k with sp0 := { vregsM with x := [(1, BitVec.ofNat 64 a)], run := true } })

theorem cycle_guardedV (a : Nat) (xs vs : List Nat) (h : (guardedV a).canIssue 0 0 = true) : Cycle (guardedV a) 0 0 xs vs :=
  ⟨⟨h, fun r _ => by
    show (!false && r != 0 && List.any [] _ || List.any [] _) = false
    simp, fun r _ => by
    show (!true && r != 0 && List.any [] _ || List.any [] _) = false
    simp⟩, throttled_open (show 64 ≤ (guarded 0).issueCycles 0 by decide +kernel)⟩

/-- MemoryGuards of VectorMemory: beyond the space, misaligned, under a move, behind a pass, by loads and by stores. -/
theorem wit_vectorMemoryGuards : ∀ m ∈ [0x26, 0x27], ∀ st ∈ [0, 1], ∀ a ∈ [(if m = 0x26 then sEnd else Variant.lEnd .trn0304) - 64, 0x1001, 0x400, accBase],
    ∃ s c p, ∃ w : W32, (s.memOk = true ∧ iMaj w.toNat = m ∧ vmLegal w.toNat = true ∧ bits w.toNat 17 17 = st ∧ vmW w.toNat = 32 ∧
      vmAddr (s.sp c p) w.toNat = a ∧ (∃ k, k < 1024 / 32 ∧ laneOn ((s.sp c p).pr (vmPg w.toNat)) k = true) ∧
      s.moveBusy c p (vmSpace w.toNat) 0x400 128 = true ∧ s.moveBusy c p (vmSpace w.toNat) accBase 128 = false ∧ s.accBusy c (some p) accBase 128 = true) ∧
      Cycle s c p [iRs1 w.toNat] [iRd w.toNat] := by
  intro m h st g a k
  refine ⟨guardedV a, 0, 0, wordVM m 3 1 st 1 2 0, ?_, cycle_guardedV _ _ _ ?_⟩ <;> (revert m st a; decide +kernel)

/-- A gather and a scatter of words of which the last active one lies beyond scratchpad and accumulators, and of which all are misaligned. -/
theorem wit_gatherGuards : ∀ st ∈ [0, 1], ∀ a ∈ [sEnd - 28, 0x1001], ∃ s c p, ∃ w : W32, ∃ e : Nat × Nat, (s.memOk = true ∧ iMaj w.toNat = 0x28 ∧ gsLegal w.toNat = true ∧
      bits w.toNat 27 27 = st ∧ (gsElems (s.sp c p) w.toNat).find? (fun e => vBarred s.variant (gsSpace w.toNat) e.2 4 4 || e.2 % 4 != 0) = some e ∧
      gsBytes w.toNat = 4) ∧ Cycle s c p [iRs1 w.toNat] [iRd w.toNat, iRs2 w.toNat] := by
  intro st g a k
  refine ⟨guardedV a, 0, 0, wordGS 3 1 2 1 1 st 0, if a = 0x1001 then (0, 0x1001) else (7, sEnd), ?_, cycle_guardedV _ _ _ ?_⟩ <;> (revert st a; decide +kernel)

/-- A register of a core that is held in reset, and the same core's released. -/
theorem wit_specialRegisterGuards : ∀ f ∈ [4, 5], ∀ b : Bool, ∃ s c p, ∃ w : W32, (iMaj w.toNat = 0x1F ∧ iF w.toNat = f ∧ iRs3 w.toNat = 0 ∧
      (if f = 4 then iRs2 w.toNat else iRd w.toNat) = 0 ∧ (s.sp c p).super = true ∧ ((s.sp c p).xr (iRs1 w.toNat)).toNat % 8 = 0 ∧
      ((s.sp c p).xr (iRs1 w.toNat)).toNat < 2 ^ 40 ∧ s.regShut ((s.sp c p).xr (iRs1 w.toNat)).toNat = b) ∧
      Issues s c p [iRd w.toNat, iRs1 w.toNat, iRs2 w.toNat] [] := by
  intro f h b
  refine ⟨(inSuper (Reg.addr .CORE_CTL 16 0 0)).wrs .GLB_DIEMAP 0 0 0 [(GLB_DIEMAP.PRESENT, 3), (GLB_DIEMAP.RELEASED, if b then 1 else 3)], 0, 0,
    if f = 4 then word 0x1F 4 3 0 0 4 else word 0x1F 0 3 2 0 5, ?_, issues_of ?_⟩ <;> (revert f b; decide +kernel)

/-- VectorArithmetic: finite numbers, and an exact finite value in each format and rounding mode. -/
theorem wit_exactNumbers : (∃ (rm : Nat) (a b d : Val) (x y z : ℚ), numOf a = some x ∧ numOf b = some y ∧ numOf d = some z ∧ rm < 4) ∧
    (∀ f rm, 12 ≤ f → f ≤ 14 → rm < 4 → ∃ (v : Val × Bool) (x : ℚ), numOf v.1 = some x ∧ v.2 = false) :=
  ⟨⟨3, .fin false 1 0, .fin true 3 (-1), .fin true 0 0, _, _, _, rfl, rfl, rfl, by decide⟩,
   fun _ _ _ _ _ => ⟨(.fin true 0xFFFFFF 200, false), _, rfl, rfl⟩⟩

/-- A floating reduction, and an integer one. -/
theorem wit_floatReductions : ∀ tt, tt < 6 → ∀ op, op < 3 → ∃ s c p, ∃ w : W32, (iMaj w.toNat = 0x23 ∧ iF4 w.toNat = op ∧ iT w.toNat = tt ∧ iRs2 w.toNat = 0) ∧
    Cycle s c p [] [iRd w.toNat, iRs1 w.toNat] := fun tt h op g =>
  ⟨withSp vregs, 0, 0, wordV 0x23 31 1 0 1 tt op, (by decide +kernel : ∀ tt, tt < 6 → ∀ op, op < 3 → iMaj (wordV 0x23 31 1 0 1 tt op).toNat = 0x23 ∧
    iF4 (wordV 0x23 31 1 0 1 tt op).toNat = op ∧ iT (wordV 0x23 31 1 0 1 tt op).toNat = tt ∧ iRs2 (wordV 0x23 31 1 0 1 tt op).toNat = 0) tt h op g,
    issues_vregs _ _⟩

/-- VectorConversion: a finite source of an integer and of each floating format, NaN, and the infinities. -/
theorem wit_convertedNumbers :
    (∀ src, 1 ≤ src → src ≤ 14 → ∃ (x : Nat) (v : Val) (q : ℚ), v = anyVal src x ∧ numOf v = some q) ∧ (∃ x, anyVal 15 x = .fin false 1 127) ∧
    (∃ src x, 1 ≤ src ∧ src ≤ 15 ∧ anyVal src x = .nan) ∧ (∀ n : Bool, ∃ src x, 1 ≤ src ∧ src ≤ 15 ∧ anyVal src x = .inf n) := by
  refine ⟨fun src h g => ?_, ⟨254, by decide +kernel⟩, ⟨15, 255, by decide +kernel⟩, fun n => ⟨14, if n then 0xFF800000 else 0x7F800000, by revert n; decide +kernel⟩⟩
  have k : ∀ src, src < 15 → 1 ≤ src → (match anyVal src 1 with | .fin _ _ _ => true | _ => false) = true := by decide +kernel
  have a := k src (by omega) h
  cases e : anyVal src 1 with
  | nan => rw [e] at a; cases a
  | inf _ => rw [e] at a; cases a
  | fin n m x => exact ⟨1, .fin n m x, _, e.symm, rfl⟩

/-- PassResults: a floating pass word of FP16 codes 1.0 and −2.0, and one whose A row is zeros. -/
theorem wit_floatPass :
    (∃ (t : Tile) (f : Nat) (row sc old : List Nat) (j : Nat) (A B : Nat → Bool × Nat × ℤ) (g : ℚ) (ea eb : ℤ),
      (f = 13 ∧ t.fmt = 13 ∧ row.length ≤ 32 ∧ t.rows.length = row.length ∧ j < old.length ∧
      aRow f row sc = (List.range row.length).map (fun k => Val.fin (A k).1 (A k).2.1 (A k).2.2) ∧
      t.column j = (List.range row.length).map (fun k => Val.fin (B k).1 (B k).2.1 (B k).2.2)) ∧
      numOf (fpVal 14 (nth old 0 j)) = some g ∧ BlockTop (fmtP f) row.length A ea ∧ BlockTop (fmtP t.fmt) row.length B eb) ∧
    (∃ (t : Tile) (f : Nat) (row sc old : List Nat) (j : Nat) (A B : Nat → Bool × Nat × ℤ) (g : ℚ),
      (f = 12 ∧ t.fmt = 13 ∧ row.length ≤ 32 ∧ t.rows.length = row.length ∧ j < old.length ∧
      aRow f row sc = (List.range row.length).map (fun k => Val.fin (A k).1 (A k).2.1 (A k).2.2) ∧
      t.column j = (List.range row.length).map (fun k => Val.fin (B k).1 (B k).2.1 (B k).2.2)) ∧
      numOf (fpVal 14 (nth old 0 j)) = some g ∧ ∀ k < row.length, (A k).2.1 = 0) := by
  refine ⟨⟨⟨13, 2, 1, false, [[0x3C00], [0xC000]], []⟩, 13, [0x3C00, 0x3C00], [], [0x3F800000], 0, fun _ => (false, 1024, -10),
      fun k => (k == 1, 1024, if k = 1 then -9 else -10), _, 0, 1, by decide +kernel, rfl, ⟨⟨0, by decide +kernel⟩, by decide +kernel⟩, ⟨⟨1, by decide +kernel⟩, by decide +kernel⟩⟩,
    ⟨⟨13, 2, 1, false, [[0x3C00], [0xC000]], []⟩, 12, [0, 0], [], [0x3F800000], 0, fun _ => (false, 0, -133), fun k => (k == 1, 1024, if k = 1 then -9 else -10), _, ?_, rfl, ?_⟩⟩
  · decide +kernel
  · decide +kernel

/-- A core whose mover holds a move between these tiles, in a TRN-0304 module. -/
def moving3 (d t : V128) : State := { moving d t with variant := .trn0304 }

/-- TileMover: a tile that ends 4 bytes beyond the accumulators, as destination and as source. -/
theorem wit_tileMoverOutside : ∀ b : Bool, ∃ (s : State) (c : Nat) (e : MoveEntry) (r : List MoveEntry), (s.core c).mover = e :: r ∧ (s.alive = true ∧
    e.moveFault = false ∧ (if b then (tdOf e.td).outside s.variant false = true else (tdOf e.ts).outside s.variant false = true) ∧ (s.sp c e.sp).ended = false ∧
    (s.sp c e.sp).pend.length < 4) := by
  intro b
  cases b
  · exact ⟨moving3 (desc 0 6 1 32 128 0x400) (desc 0 6 1 32 128 (sEnd - 124)), 0, _, [], rfl, by decide +kernel⟩
  · exact ⟨moving3 (desc 0 6 1 32 128 (sEnd - 124)) (desc 0 6 1 32 128 0x400), 0, _, [], rfl, by decide +kernel⟩

/-- A move between these tiles as TileMover has it in general. -/
def GeneralMove (x y : V128) (d t0 : Td) : Prop :=
  ∃ (s : State) (c : Nat) (e : MoveEntry) (r : List MoveEntry), (s.core c).mover = e :: r ∧ d = tdOf e.td ∧ t0 = tdOf e.ts ∧ e.td = x ∧ e.ts = y ∧
    (s.alive = true ∧ s.memOk = true ∧ e.moveFault = false ∧ d.outside s.variant false = false ∧ t0.outside s.variant false = false ∧
    tdFault d false false = none ∧ tdFault t0 false false = none ∧ s.moveWaits c e = false ∧
    (∀ y ∈ d.ranges false, ∀ g ∈ groupsOf y.1 y.2, s.owned c g.1 = false)) ∧
    ((s.modCore c (fun k => { k with mover := r })).readRanges t0.space c t0.hint e.last .mover (some e.sp) (t0.ranges false)).ue = false

/-- See `GeneralMove`. -/
theorem generalMove {x y : V128} {d t0 : Td} (hd : d = tdOf x) (ht : t0 = tdOf y)
    (h : (⟨0, 0, x, y, 0, false, false⟩ : MoveEntry).moveFault = false ∧ d.outside .trn0304 false = false ∧ t0.outside .trn0304 false = false ∧
      tdFault d false false = none ∧ tdFault t0 false false = none ∧ (moving3 x y).moveWaits 0 ⟨0, 0, x, y, 0, false, false⟩ = false ∧
      ∀ z ∈ d.ranges false, ∀ g ∈ groupsOf z.1 z.2, (moving3 x y).owned 0 g.1 = false)
    (k : (((moving3 0 0).modCore 0 (fun k => { k with mover := [] })).readRanges t0.space 0 t0.hint false .mover (some 0) (t0.ranges false)).ue = false) :
    GeneralMove x y d t0 :=
  ⟨moving3 x y, 0, ⟨0, 0, x, y, 0, false, false⟩, [], rfl, hd, ht, rfl, rfl, ⟨rfl, rfl, h⟩, k⟩

/-- A converting move, one of scaled tiles, ones to E-space and from it, to accumulators and from them. -/
theorem wit_tileMoverGeneral :
    GeneralMove (desc 1 6 2 32 128 0x2000) (desc 0 4 2 32 32 0x400) ⟨1, 6, 0, false, 2, 32, 128, 0x2000, 0⟩ ⟨0, 4, 0, false, 2, 32, 32, 0x400, 0⟩ ∧
    GeneralMove (desc 0 10 2 32 32 0x2000 ||| 256) (desc 1 10 2 32 32 0x1000 ||| 256) ⟨0, 10, 0, true, 2, 32, 32, 0x2000, 0⟩ ⟨1, 10, 0, true, 2, 32, 32, 0x1000, 0⟩ ∧
    GeneralMove (desc 2 4 2 32 32 0x4000) (desc 0 4 2 32 32 0x400) ⟨2, 4, 0, false, 2, 32, 32, 0x4000, 0⟩ ⟨0, 4, 0, false, 2, 32, 32, 0x400, 0⟩ ∧
    GeneralMove (desc 0 4 1 8 32 0x400) (desc 2 4 1 8 32 0x4000 ||| 128) ⟨0, 4, 0, false, 1, 8, 32, 0x400, 0⟩ ⟨2, 4, 2, false, 1, 8, 32, 0x4000, 0⟩ ∧
    GeneralMove (desc 0 6 2 32 1024 accBase) (desc 1 6 2 32 128 0x1000) ⟨0, 6, 0, false, 2, 32, 1024, accBase, 0⟩ ⟨1, 6, 0, false, 2, 32, 128, 0x1000, 0⟩ ∧
    GeneralMove (desc 1 6 2 32 128 0x1000) (desc 0 6 2 32 128 (sEnd - 256)) ⟨1, 6, 0, false, 2, 32, 128, 0x1000, 0⟩ ⟨0, 6, 0, false, 2, 32, 128, sEnd - 256, 0⟩ :=
  ⟨generalMove (by decide +kernel) (by decide +kernel) (by decide +kernel) (by decide +kernel),
   generalMove (by decide +kernel) (by decide +kernel) (by decide +kernel) (by decide +kernel),
   generalMove (by decide +kernel) (by decide +kernel) (by decide +kernel) (by decide +kernel),
   generalMove (by decide +kernel) (by decide +kernel) (by decide +kernel) (by decide +kernel),
   generalMove (by decide +kernel) (by decide +kernel) (by decide +kernel) (by decide +kernel),
   generalMove (by decide +kernel) (by decide +kernel) (by decide +kernel) (by decide +kernel)⟩

/-- SlotLoads: a scaled tile of L-space, and a tile of E-space. -/
theorem wit_slotLoadsGeneral : ∀ b : Bool, ∃ (s : State) (c a : Nat) (l : LoadEntry) (r : List LoadEntry) (d : Td), (a < 4 ∧ s.alive = true ∧
    (s.arr c a).loads = l :: r ∧ l.started = true) ∧ d = tdOf l.desc ∧ (if b then d.scaled = true else d.space = 2) ∧
    (s.readRanges d.space c d.hint l.last (if l.sp = 2 then .stook else .array) (if l.sp = 2 then none else some l.sp) (d.ranges true)).ue = false := by
  intro b
  cases b
  · exact ⟨{ withArr { loads := [⟨0, 1, 1, desc 2 4 1 8 32 0x4000 ||| 128, false, true⟩] } with variant := .trn0304 }, 0, 3,
      ⟨0, 1, 1, desc 2 4 1 8 32 0x4000 ||| 128, false, true⟩, [], ⟨2, 4, 2, false, 1, 8, 32, 0x4000, 0⟩, by decide +kernel, by decide +kernel, rfl, by decide +kernel⟩
  · exact ⟨{ withArr { loads := [⟨0, 1, 1, desc 1 10 2 32 32 0x1000 ||| 256, false, true⟩] } with variant := .trn0304 }, 0, 3,
      ⟨0, 1, 1, desc 1 10 2 32 32 0x1000 ||| 256, false, true⟩, [], ⟨1, 10, 0, true, 2, 32, 32, 0x1000, 0⟩, by decide +kernel, by decide +kernel, rfl, by decide +kernel⟩

/-- GroupAndSlotState, StookRegisters and GleanerEvents: the core is held in reset. -/
theorem wit_shutCore : ∃ (s : State) (c : Nat), s.live = true ∧ c < s.variant.cores ∧ s.coreShut c = true :=
  ⟨idle.wrs .GLB_DIEMAP 0 0 0 [(GLB_DIEMAP.PRESENT, 1), (GLB_DIEMAP.RELEASED, 0)], 15, by decide +kernel⟩

/-- A gleaner descriptor: word 0, the four bases, N, N2, one stride for rows of 32 columns on both sides, and TROWS. -/
def glnD (w0 tb ib ob db n n2 stride rows : Nat) : List W64 :=
  [BitVec.ofNat 64 w0, BitVec.ofNat 64 tb, BitVec.ofNat 64 ib, BitVec.ofNat 64 ob, BitVec.ofNat 64 db, BitVec.ofNat 64 (n + n2 * 2 ^ 32),
    BitVec.ofNat 64 (stride + (if stride = 0 then 0 else 32 * 2 ^ 24) + stride * 2 ^ 33), BitVec.ofNat 64 rows]

/-- Operation `op` of this descriptor at the end of L-space, running, in a core with a few bytes in scratchpad and L-space. -/
def glnRun (op : Nat) (d : List W64) : State :=
  { withGln ⟨0, op, d, 1, Variant.lEnd .trn1216 - 64, 1, none, 0, true, 0, none, [], none, false, false, []⟩ [] with
    mem := { loft := [(0x1000, 1), (0x1004, 3), (0x2000, 1), (0x2004, 4), (0x3004, 2)] } }

/-- GleanerResults, for a descriptor that also has `p`. -/
def Gleans (op : Nat) (d : List W64) (p : List W64 → GlnEntry → Bool) : Prop :=
  ∃ (s : State) (c : Nat) (e : GlnEntry) (ups : List Upset), (c < s.variant.cores ∧ (gEval c e (s.mark (gTsp e.desc) c ups)).2.ue = false) ∧
    Through s c op e d ∧ p d e = true

theorem gleans {op : Nat} {d : List W64} {p : List W64 → GlnEntry → Bool}
    (h : ((glnRun op d).memOk && (glnRun op d).alive) = true)
    (g : ((glnRun op d).core 0).gln.queue.find? (fun e => (glnRun op d).glnDone 0 e) = some ⟨0, op, d, 1, Variant.lEnd .trn1216 - 64, 1, none, 0, true, 0, none, [], none, false, false, []⟩)
    (k : (op ≤ 1 → gDstk d = false) ∧ gTsp d = (if op = 5 then 0 else 1) ∧
      (gEval 0 ⟨0, op, d, 1, Variant.lEnd .trn1216 - 64, 1, none, 0, true, 0, none, [], none, false, false, []⟩ ((glnRun op d).mark (gTsp d) 0 [])).2.ue = false ∧
      p d ⟨0, op, d, 1, Variant.lEnd .trn1216 - 64, 1, none, 0, true, 0, none, [], none, false, false, []⟩ = true) : Gleans op d p := by
  simp only [Bool.and_eq_true] at h
  exact ⟨glnRun op d, 0, _, [], ⟨(by decide : 0 < Variant.cores .trn1216), k.2.2.1⟩, ⟨h.1, h.2, g, rfl, rfl, k.1, k.2.1⟩, k.2.2.2⟩

/-- A GATHER whose second index is out of range, one that converts, a SEGRED, a SCATADD, MERGE and ISECT, SORT by one byte, and PROBE. -/
theorem wit_gleanerResults :
    Gleans 0 (glnD (4 * 16 + 4 * 256 + 4096 + 16384 + 2 ^ 25) 0x1000 0x2000 0 0x2000 2 0 32 4) (fun d _ => gIsp d == 1 && gEfmt d == gOfmt d) ∧
    Gleans 0 (glnD (14 * 16 + 13 * 256 + 4096 + 16384 + 2 ^ 25) 0x1000 0x2000 0 0x2000 2 0 128 4) (fun d _ => gIsp d == 1 && gEfmt d != gOfmt d) ∧
    Gleans 1 (glnD (1 + 6 * 16 + 6 * 256 + 4096 + 16384 + 65536 + 2 ^ 25) 0x1000 0x2000 0x3000 0x2000 2 1 128 4)
      (fun d _ => gIsp d == 1 && gOsp d == 1 && !gDirect d && gRedop d == 0 && gEfmt d == 6 && gOfmt d == 6) ∧
    Gleans 2 (glnD (2 + 6 * 16 + 6 * 256 + 4096 + 2 ^ 25) 0x1000 0x400 0 0x2000 2 0 128 4) (fun d _ => gIsp d == 0 && gEfmt d == 6) ∧
    Gleans 3 (glnD (3 + 4096 + 16384) 0x1000 0x2000 0 0x2000 2 2 0 0) (fun d e => gIsp d == 1 && !gPos d && e.space == 1 && decide (e.addr + 64 ≤ Variant.lEnd .trn1216)) ∧
    Gleans 4 (glnD (4 + 4096 + 16384) 0x1000 0x2000 0 0x2000 2 2 0 0) (fun d e => gIsp d == 1 && !gPos d && e.space == 1 && decide (e.addr + 64 ≤ Variant.lEnd .trn1216)) ∧
    Gleans 5 (glnD (5 + 2 ^ 49) 0x1000 0 0 0x2000 2 0 0 0) (fun d _ => gAux d == 1) ∧
    Gleans 6 (glnD (6 + 4096 + 16384) 0x1000 0x2000 0 0x2000 2 0 0 2) (fun d _ => gIsp d == 1) ∧
    (∃ A B : List Nat, A = (List.range 2).map (listElem (glnRun 4 []) 0 1 [] 0x1000) ∧ B = (List.range 2).map (listElem (glnRun 4 []) 0 1 [] 0x2000) ∧
      A.Pairwise (· ≤ ·) ∧ B.Pairwise (· ≤ ·)) :=
  ⟨gleans (by decide +kernel) (by decide +kernel) (by decide +kernel), gleans (by decide +kernel) (by decide +kernel) (by decide +kernel),
   gleans (by decide +kernel) (by decide +kernel) (by decide +kernel), gleans (by decide +kernel) (by decide +kernel) (by decide +kernel),
   gleans (by decide +kernel) (by decide +kernel) (by decide +kernel), gleans (by decide +kernel) (by decide +kernel) (by decide +kernel),
   gleans (by decide +kernel) (by decide +kernel) (by decide +kernel), gleans (by decide +kernel) (by decide +kernel) (by decide +kernel),
   [1, 3], [1, 4], by decide +kernel⟩

/-- StookBatches: a batch goes into the second half while the first is at work, into the slot where its tile lies and into one that it is
loaded to. -/
theorem wit_stookDispatchMore : ∀ loaded : Bool, ∃ (s : State) (c : Nat) (b : StBatch) (r : List StBatch) (k g h : Nat) (d : Td), (c < s.variant.cores ∧
    s.alive = true ∧ s.memOk = true ∧ (s.core c).stook.sealed = b :: r ∧ (s.core c).stook.half h = none ∧ h = 1 ∧ (s.core c).stook.half 0 ≠ none ∧
    (s.stKey c b.key).res = (if loaded then some k else none) ∧ s.pickGroup c (k / 2) = some g ∧
    (s.arr c (k / 2)).stookWaits (k % 2) g (s.stKey c b.key).res.isNone = false ∧ k < 8 ∧ b.key < 64 ∧ ∀ x ∈ batchRows b.reqs, x.1 ≤ 1) ∧
    (d = tdOf (s.keyDesc c b.key) ∧ (loaded = false → s.pickSlot c = some k) ∧ d.space ≤ 1 ∧ (∀ y ∈ d.ranges true, y.1 + y.2 ≤ accBase) ∧
      rowBytes (s.rd STOOK_KEY_CFG.AFMT c b.key) d.rows ≤ 512 ∧ s.bufRow c h 256 ≤ accBase ∧ (batchRows b.reqs).length ≤ 256) := by
  intro loaded
  cases loaded
  · exact ⟨withStook { keys := [(63, {})], sealed := [⟨63, [st2]⟩], h0 := some (half1 2) } [], 0, ⟨63, [st2]⟩, [], 1, 1, 1, _, by decide +kernel, rfl, by decide +kernel⟩
  · exact ⟨withStook { keys := [(63, { res := some 0 })], sealed := [⟨63, [st2]⟩], h0 := some (half1 2) } [], 0, ⟨63, [st2]⟩, [], 0, 1, 1, _, by decide +kernel, rfl, by decide +kernel⟩

/-- StookBatches: the rows of a scatter lie in L-space, apart from each other. -/
theorem wit_stookScatter : ∃ (s : State) (c h : Nat) (b : StHalf) (ofmt n : Nat), (c < s.variant.cores ∧ s.alive = true ∧ h < 2 ∧ s.memOk = true ∧
    (s.core c).stook.half h = some b ∧ b.stage = 2 ∧ ofmt = s.rd STOOK_KEY_CFG.OFMT c b.batch.key ∧ n = (tdOf (s.keyDesc c b.batch.key)).cols ∧
    (∀ r ∈ b.batch.reqs, r.cmd = none ∧ r.dspace ≤ 1) ∧ (∀ x ∈ destRows b.batch.reqs, x.1 = 1 ∧ x.2 + rowBytes ofmt n ≤ s.variant.lEnd) ∧
    (destRows b.batch.reqs).length = 2) ∧
    (destRows b.batch.reqs).Pairwise (fun x y => x.1 = y.1 → x.2 + rowBytes ofmt n ≤ y.2 ∨ y.2 + rowBytes ofmt n ≤ x.2) :=
  ⟨withStook { h0 := some (half1 2) } [], 0, 0, half1 2, 6, 32, by decide +kernel, by decide +kernel⟩

/-- GleanerEvents: a flush of the row cache. -/
theorem wit_rcFlush : ∃ (s : State) (c : Nat) (v : W64), c < s.variant.cores ∧ s.live = true ∧ s.coreShut c = false ∧ bitB v.toNat 17 = true :=
  ⟨withGln (glnE (gath 2 4 0) false 0 none) [], 0, 0x20000, by decide +kernel⟩

/-- QueueEngine and QueueControl: a module that has tripped. -/
theorem wit_queueAtRest : ∃ (s : State) (q : Nat), LRing s q ∧ q < 64 ∧ s.live = false :=
  ⟨{ withQueue {} 0 with pwr := { up := false } }, 63, by decide +kernel⟩

/-- The module of `withQueue` with a command record, and ends reported. -/
def recorded (x : Queue) (mode : Nat) (d : List (Nat × Nat)) (c : Cmd) : State :=
  let s := withQueue x mode
  { s with que := { s.que with done := d, cmds := [c] } }

/-- QueueEngine: a stopped command whose work ended well, taken from the ring and not. -/
theorem wit_stoppedCommand : ∀ r : Bool, ∃ (s : State) (q id : Nat) (l : List (Nat × Nat)) (x : Cmd), LRing s q ∧ s.que.done = (id, 0) :: l ∧ s.cmdOf id = some x ∧
    x.queue = q ∧ x.bad = some 0x18 ∧ x.retired = r ∧ cCont x.words = false ∧ (s.queue q).st ≠ 6 ∧ x.slot < 65536 ∧ cSig x.words = false := by
  intro r
  cases r
  · exact ⟨recorded { st := 4, head := 3, cmd := some (cmdW 4 0 0 0 0), running := some 7 } 0 [(7, 0)] ⟨7, 63, 3, cmdW 4 0 0 0 0, false, [], [], some 0x18, false⟩,
      63, 7, [], ⟨7, 63, 3, cmdW 4 0 0 0 0, false, [], [], some 0x18, false⟩, by decide +kernel⟩
  · exact ⟨recorded {} 0 [(7, 0)] ⟨7, 63, 3, cmdW 4 0 0 0 0, true, [], [], some 0x18, false⟩,
      63, 7, [], ⟨7, 63, 3, cmdW 4 0 0 0 0, true, [], [], some 0x18, false⟩, by decide +kernel⟩

/-- QueueControl: a running GLEAN, and a running SUBMIT, that ABORT stops. -/
theorem wit_abortRunning : ∀ op ∈ [4, 5], ∃ (s : State) (q id : Nat) (y : Cmd), LRing s q ∧ q < 64 ∧ s.live = true ∧ s.rdB QUE_Q_CFG.MODE 0 q = true ∧
    (s.queue q).running = some id ∧ (s.queue q).cmd.isSome = true ∧ (s.queue q).st ≠ 0 ∧ s.cmdOf id = some y ∧ cOp y.words = op ∧
    (s.queue q).appended = (s.queue q).retiredN + 1 := by
  intro op h
  refine ⟨recorded { st := 4, head := 3, tail := 0, appended := 1, cmd := some (cmdW op 0 0 0 0), running := some 7 } 1 [] ⟨7, 63, 3, cmdW op 0 0 0 0, false, [], [], none, false⟩,
      63, 7, ⟨7, 63, 3, cmdW op 0 0 0 0, false, [], [], none, false⟩, ?_⟩
  revert op
  decide +kernel

/-- HalterLink: a register of a core that is held in reset, by message and by the control node's write; and a write before READY. -/
theorem wit_shutRegister :
    (∀ wr : Bool, ∃ (s : State) (m : BitVec 192), s.linkLit = true ∧ s.memOk = true ∧ s.regCode m.toNat wr = 0 ∧ s.regShut (bits m.toNat 103 64) = true) ∧
    (∃ (s : State) (a : Nat), s.linkLit = true ∧ s.memOk = true ∧ a % 8 = 0 ∧ (s.regThere a).isSome = true ∧ s.regShut a = true) ∧
    (∃ (s : State) (a : Nat), s.linkLit = true ∧ s.memOk = true ∧ a = Reg.addr .THM_CFG 0 0 0 ∧ s.boot.stage ≠ 12 ∧ a ≠ Reg.addr .FLT_CTL 0 0 0) ∧
    (∃ (s : State) (a : Nat), s.linkLit = true ∧ s.memOk = true ∧ a = Reg.addr .THM_CFG 0 0 0 ∧ s.boot.stage = 12) := by
  refine ⟨fun wr => ⟨(withQueue {} 0).wrs .GLB_DIEMAP 0 0 0 [(GLB_DIEMAP.PRESENT, 3), (GLB_DIEMAP.RELEASED, 1)],
      BitVec.ofNat 192 (regMsg (Reg.addr .CORE_CTL 16 0 0)).toNat, ?_⟩,
    ⟨(withQueue {} 0).wrs .GLB_DIEMAP 0 0 0 [(GLB_DIEMAP.PRESENT, 3), (GLB_DIEMAP.RELEASED, 1)], Reg.addr .CORE_CTL 16 0 0, by decide +kernel⟩,
    ⟨{ withQueue {} 0 with boot := { stage := 11 } }, _, by decide +kernel, by decide +kernel, rfl, by decide +kernel, by decide +kernel⟩,
    ⟨withQueue {} 0, _, by decide +kernel, by decide +kernel, rfl, rfl⟩⟩
  cases wr <;> decide +kernel

/-- CollectivePackets: a sheaf with a wrong CHECK is asked for again, with the fabric quiet and not. -/
theorem wit_reasks : ∀ b : Bool, ∃ (s : State) (p : Packet) (i : Nat) (x : Ctx) (y : SheafIn), s.rdB FAB_CTL.QUIESCE = b ∧ p.typ = 9 ∧ p.vc = 2 ∧ shKind p = 1 ∧
    s.rxCase p = .next ∧ s.ctxOf p = some i ∧ s.ctx i = some x ∧ x.ended = none ∧ x.op = 0 ∧ bitB (ofLe ((p.payload.drop 20).take 1)) 0 = false ∧
    x.sheaf p.src (shStage p) (shOff p) = some y ∧ y.ok = false ∧ y.tries < 3 ∧ crc64 y.data ≠ ofLe (p.payload.take 8) ∧ s.win.ops = [] ∧ s.flt.egressOff = false ∧
    s.pwr.up = true ∧ p.src < 512 ∧ 0 < (s.pair (0xE0 + s.ctxBdie i) p.src).w := by
  intro b
  refine ⟨(grouped 3 [(63, half5 2)] {}).wrs .FAB_CTL 0 0 0 [(FAB_CTL.QUIESCE, if b then 1 else 0)], half5Trailer false, 63, half5 2, ⟨1, 3, 0, [1, 2], false, 2⟩, ?_⟩
  revert b
  decide +kernel

/-- CollectivePackets: a RESEND of what stands in S-space of a core in core gate. -/
theorem wit_resendShut : ∃ (s : State) (p : Packet), p.typ = 9 ∧ p.vc = 2 ∧ shKind p = 3 ∧ s.rxCase p = .next ∧ s.resendShut p = true :=
  ⟨(grouped 3 [(63, { ctx5 0 0 with started := true, words := cmdW 0x408 0x2000 0x4000 (16 + 6 * 2 ^ 44 + 5 * 2 ^ 32) 4 })] {}).wrs .PWR_DOM_LP 0 0 0 [(PWR_DOM_LP.GATE, 1)],
    sheafPkt 3 3 0 [], by decide +kernel⟩

/-- The module of `walking`, for an operation of this kind, this entry, and QUIESCE. -/
def walkingFor (kind e q : Nat) : State :=
  let o : RemOp := { remOp kind 8 2 with addr := 0x8000000000400008, stage := 1 }
  ({ quiet { ops := [o], walks := [(0, 1)] } with
    variant := .trn0304, mem := { hbm := SMap.number (winEntryAt .trn0304 1) (leBytes 8 e) } } : State).wrs .FAB_CTL 0 0 0 [(FAB_CTL.QUIESCE, q)]

/-- What a completed walk of page 1 reads there. -/
def walkRd (s : State) : Rd :=
  State.eRead { s.incSat FLT_CE_SUM.WINCACHE 0 0 with win := { s.win with
    walks := s.win.walks.filter (· != (0, 1)), stale := s.win.stale.filter (· != (0, 1)) } } (winEntryAt s.variant 1) 8 0 false .walker

/-- WindowSender while the fabric is open: operations of each kind whose entry lets them out, an RSTF under either QUIESCE, and each refusal. -/
theorem wit_windowWalks :
    (∀ kind, kind < 3 → ∃ (s : State) (o : RemOp) (r : Rd) (e : W64), (s.rdB FAB_CTL.QUIESCE = false ∧ s.win.walks.contains (0, 1) = true ∧
      s.win.stale.contains (0, 1) = false ∧ s.win.ops = [o] ∧ o.waitsFor 0 1 = true ∧ o.kind = kind ∧ o.cmd = none ∧ o.gln = none ∧ s.flt.egressOff = false ∧
      s.pwr.up = true) ∧ r = walkRd s ∧ e = w64 (ofLe r.data) ∧ r.ue = false ∧ sendReason o.kind e = 0 ∧ 0 < (s.pair o.srcid (entNode e)).w) ∧
    (∃ (s : State) (o : RemOp) (r : Rd) (e : W64), (s.rdB FAB_CTL.QUIESCE = false ∧ s.win.walks.contains (0, 1) = true ∧
      s.win.stale.contains (0, 1) = false ∧ s.win.ops = [o] ∧ o.waitsFor 0 1 = true ∧ o.kind = 3 ∧ o.cmd = none ∧ o.gln = none) ∧ r = walkRd s ∧
      e = w64 (ofLe r.data) ∧ r.ue = false ∧ sendReason o.kind e = 0) ∧
    (∀ x ∈ [(0, 0, 3), (0, 0x60000003, 4), (1, 0x50000003, 5), (3, 0x50000003, 5), (2, 0x30000003, 6)], ∃ (s : State) (o : RemOp) (r : Rd) (e : W64),
      (s.win.walks.contains (0, 1) = true ∧ s.win.stale.contains (0, 1) = false ∧ s.win.ops = [o] ∧ o.waitsFor 0 1 = true ∧ o.kind = x.1 ∧ o.cmd = none ∧ o.gln = none ∧
      s.rdB WIN_FAULT.VALID = false ∧ (s.sp o.srcid o.sp).ended = false ∧ (s.sp o.srcid o.sp).pend.length < 4) ∧ r = walkRd s ∧ e = w64 (ofLe r.data) ∧ r.ue = false ∧
      (x.2.2 = 3 → bitB e.toNat 0 = false) ∧ (x.2.2 ≠ 3 → bitB e.toNat 0 = true ∧ bits e.toNat 63 33 = 0 ∧ bitB e.toNat (24 + x.2.2) = false)) := by
  refine ⟨fun kind h => ⟨walkingFor kind openEntry.toNat 0, { remOp kind 8 2 with addr := 0x8000000000400008, stage := 1 }, _, _, ?_, rfl, rfl, ?_⟩,
    ⟨walkingFor 3 openEntry.toNat 0, { remOp 3 8 2 with addr := 0x8000000000400008, stage := 1 }, _, _, by decide +kernel, rfl, rfl, by decide +kernel⟩,
    fun x h => ⟨walkingFor x.1 x.2.1 0, { remOp x.1 8 2 with addr := 0x8000000000400008, stage := 1 }, _, _, ?_, rfl, rfl, ?_⟩⟩
  · revert kind; decide +kernel
  · revert kind; decide +kernel
  · revert x; decide +kernel
  · revert x; decide +kernel

/-- WindowSender: an answer opens the window for the operation behind it, and an operation that was never sent times out. -/
theorem wit_windowOpens :
    (∃ (s : State) (p : Packet) (o o2 : RemOp), s.rdB FAB_CTL.QUIESCE = false ∧ p.typ = 5 ∧ p.vc = 1 ∧ s.excluded p.src = false ∧ p.crcOk = true ∧
      p.epoch = s.epoch32 ∧ s.win.ops.find? (fun o => o.srcid == p.srcid && o.stage == 3 && o.seq == p.seq && entNode o.entry == p.src) = some o ∧
      o.cmd = none ∧ o.gln = none ∧ o.kind = 1 ∧ s.flt.egressOff = false ∧ s.pwr.up = true ∧ s.win.ops = [o, o2] ∧ o2.id ≠ o.id ∧ o2.kind < 3 ∧ o2.stage = 2 ∧
      0 < (s.pair o2.srcid (entNode o2.entry)).w) ∧
    (∃ (s : State) (id : Nat) (o : RemOp), s.remOp id = some o ∧ o.issued + s.remTimeout = s.now ∧ o.stage = 2 ∧ s.rdB FAB_CTL.QUIESCE = false ∧ o.kind < 4 ∧
      o.cmd = none ∧ o.gln = none ∧ o.nak = false ∧ (s.sp o.srcid o.sp).ended = false ∧ (s.sp o.srcid o.sp).pend.length < 4 ∧ s.win.ops = [o]) ∧
    (∃ (s : State) (id : Nat) (o : RemOp), s.remOp id = some o ∧ o.issued + s.remTimeout = s.now ∧ o.stage = 2 ∧ s.rdB FAB_CTL.QUIESCE = true) ∧
    (∃ s : State, s.live = false) :=
  ⟨⟨(quiet { ops := [sentOp 1 8 2, { sentOp 1 8 0 with id := 4, stage := 2 }] }).wrs .FAB_CTL 0 0 0 [(FAB_CTL.QUIESCE, 0)], answerPkt 5 [], sentOp 1 8 2,
      { sentOp 1 8 0 with id := 4, stage := 2 }, by decide +kernel⟩,
    ⟨((quiet { ops := [{ sentOp 1 8 0 with stage := 2 }] }).wrs .WIN_CFG 0 0 0 [(WIN_CFG.TIMEOUT, 8)]).wrs .FAB_CTL 0 0 0 [(FAB_CTL.QUIESCE, 0)], 3,
      { sentOp 1 8 0 with stage := 2 }, by decide +kernel⟩,
    ⟨(quiet { ops := [{ sentOp 1 8 0 with stage := 2 }] }).wrs .WIN_CFG 0 0 0 [(WIN_CFG.TIMEOUT, 8)], 3, { sentOp 1 8 0 with stage := 2 }, by decide +kernel⟩,
    ⟨booting 11 0, by decide +kernel⟩⟩

/-- TeardownAndChanges: where the first free word spells no routing entry, and its digest stands in the manifest, the entry is refused. -/
theorem wit_manifestRefused (c : ∀ n, Config.unwrittenCheck n = 0) (v : Config.freeWord 0 = 0x8000000000000000) (h : (Config.sha3 (leBytes 8 (0x8000000000000000))).length = 64) :
    ∃ (s : State) (d : List Byte) (r : Rd), s.win.change = some ⟨d, true, 0⟩ ∧ num d 4 1 = 5 ∧ s.frozen = false ∧
    r = s.eRead (num d 64 8) (8 * num d 60 4) 0 false .loader ∧ r.ue = false ∧ Config.sha3 r.data = cut d 72 64 ∧
    r.st.entriesOk (num d 4 1) ((List.range (num d 60 4)).map (fun i => (num d 56 4 + i, num r.data (8 * i) 8))) = false := by
  let dig := Config.sha3 (leBytes 8 (0x8000000000000000))
  have en : (idle.wrs .BAY_CFG 0 0 0 [(BAY_CFG.EN, 0)]).rdB BAY_CFG.EN 0 = false := by decide +kernel
  have fr : (idle.wrs .BAY_CFG 0 0 0 [(BAY_CFG.EN, 0)]).frozen = false := by decide +kernel
  have n : (((idle.wrs .BAY_CFG 0 0 0 [(BAY_CFG.EN, 0)]).incWrap BAY_CNT0.MISSES 1 0).incWrap MEM_RD.BYTES 8 0).hbmDefined 0 = false := by decide +kernel
  have a := chgImage_free (loadingOne dig) rfl en fr n c
  have d1 : (chgImage (loadingOne dig)).data = leBytes 8 (0x8000000000000000) := by
    rw [a]
    show leBytes 8 (Config.freeWord 0).toNat = _
    rw [v]; rfl
  have k : cut (chgOne ++ dig) 72 64 = dig := by rw [cut_chgOne, List.take_of_length_le (le_of_eq h)]
  refine ⟨loadingOne dig, chgOne ++ dig, _, rfl, ?_, rfl, rfl, ?_, ?_, ?_⟩
  · rw [num_chgOne _ _ _ (by omega)]; decide +kernel
  · rw [(chgImage_loadingOne dig).1, a]; rfl
  · rw [(chgImage_loadingOne dig).1, d1, k]
  · rw [(chgImage_loadingOne dig).1, d1, num_chgOne _ 4 1 (by omega), num_chgOne _ 56 4 (by omega), num_chgOne _ 60 4 (by omega), a]
    decide +kernel

/-- TensorFabric: codewords that are good, that are lost and that have not all come in. -/
theorem wit_codewords :
    (∀ b : Bool, ∃ (s : State) (l : Nat), s.linkUp l = true ∧ (s.link l).rxLost = b) ∧
    (∃ (s : State) (l : Nat) (errs : List Nat) (lead : Nat) (d : List Byte), s.linkUp l = true ∧ (s.link l).rxLost = false ∧ 8 * d.length - lead ≤ 5140 * errs.length ∧
      errs = [15] ∧ hopOk d = false ∧ 36 < d.length) ∧
    (∀ e, e = 15 ∨ e = 16 → ∃ (s : State) (l : Nat) (errs : List Nat) (lead : Nat) (d : List Byte), s.linkUp l = true ∧ (s.link l).rxLost = false ∧ hopOk d = true ∧
      8 * d.length - lead ≤ 5140 * errs.length ∧ (∀ k x, errs[k]? = some x → 5140 * k < 8 * d.length - lead → x ≤ 15) ∧ errs = [15, e]) ∧
    (∃ (s : State) (l k e : Nat) (errs : List Nat) (lead : Nat) (d : List Byte), s.linkUp l = true ∧ errs[k]? = some e ∧ e = 16 ∧ 5140 * k + 4 = 8 * d.length - lead) ∧
    (∃ (s : State) (l : Nat) (errs : List Nat) (lead : Nat) (d : List Byte), s.linkUp l = true ∧ 5140 * errs.length + 4 = 8 * d.length - lead) ∧
    (∃ s : State, s.live = false) := by
  have n : (hopPkt 1 1 1).onHop.length = 44 := by decide +kernel
  obtain ⟨d, hd, bad⟩ : ∃ d : List Byte, d.length = 40 ∧ hopOk d = false := ⟨List.replicate 40 1, rfl, by decide +kernel⟩
  obtain ⟨e, he⟩ : ∃ e : List Byte, e.length = 643 := ⟨List.replicate 643 1, List.length_replicate⟩
  have one : [15].length = 1 := rfl
  have up : ∀ b, (onFabric [(3, { rxLost := b })]).linkUp 3 = true ∧ ((onFabric [(3, { rxLost := b })]).link 3).rxLost = b := by decide +kernel
  refine ⟨fun b => ⟨onFabric [(3, { rxLost := b })], 3, (up b).1, (up b).2⟩, ⟨onFabric [(3, { rxLost := false })], 3, [15], 4, d, (up _).1, (up _).2, by rw [hd, one]; decide, rfl, bad, by rw [hd]; decide⟩,
    fun e h => ⟨onFabric [(3, { rxLost := false })], 3, [15, e], 0, (hopPkt 1 1 1).onHop, (up _).1, (up _).2, by decide +kernel, by rw [n, List.length_cons]; omega, fun k x hx hk => ?_, rfl⟩,
    ⟨onFabric [(3, { rxLost := false })], 3, 1, 16, [0, 16], 0, e, (up _).1, rfl, rfl, by rw [he]⟩,
    ⟨onFabric [(3, { rxLost := false })], 3, [15], 0, e, (up _).1, by rw [he, one]⟩, ⟨State.reset, by decide +kernel⟩⟩
  rw [n] at hk
  have z : k = 0 := by omega
  subst z
  simp only [List.getElem?_cons_zero, Option.some.injEq] at hx
  omega

/-- MemoryControllers: the last block that has errors, and the first that has none. -/
theorem wit_errorBlocks : ∀ blk : Nat, blk = 7 ∨ blk = 8 → ∃ (s : State) (n ag u sy a : Nat), n < s.variant.stacks ∧ s.rdB FLT_REC0.VALID = false ∧ ag = 15 ∧ u = 65535 ∧
    sy = 255 ∧ a = 2 ^ 64 - 1 :=
  fun _ _ => ⟨stacked {}, 1, 15, 65535, 255, 2 ^ 64 - 1, by decide +kernel⟩

/-- Link 3's fibres tuned, fibre 27 the receive end of a move. -/
def moving27 (m : PeerMove) : State := (fibred 2 4 1).modFibre 27 (fun x => { x with peer := some m })

/-- Photonics: the receive end of a move that the peer starts, spare rings and rings past 15 GHz. -/
theorem wit_peerMoves :
    (∀ n, n = 7 ∨ n = 8 → ∃ (s : State) (f old : Nat) (frames : List FrameCmp) (r : Compared × Bool), s.stby.inStby = false ∧ f < 128 ∧ old < 128 ∧ old ≠ f ∧ old / 8 = f / 8 ∧
      fibExists s.variant f = true ∧ (s.fibre f).rxOk = true ∧ s.role f ≠ 4 ∧ r = compareAll (max 8 (s.rd PHO_CFG.CMP)) frames ({}, false) ∧ r.1.aligned = n) ∧
    (∀ rdy : Bool, ∃ (s : State) (f : Nat) (m : PeerMove), s.stby.inStby = false ∧ f < 256 ∧ (s.fibre f).peer = some m ∧ m.ready = rdy ∧ m.old ≠ f) ∧
    (∃ (s : State) (f : Nat) (m : PeerMove), s.stby.inStby = false ∧ f < 256 ∧ (s.fibre f).peer = some m ∧ m.ready = true ∧ m.old = f ∧ m.lane = 7 ∧
      ((s.fibre f).map f true).contains m.lane = true ∧ ((s.fibre f).map f true).contains 8 = true) ∧
    (∃ (s : State) (f ring : Nat), s.stby.inStby = false ∧ f < 128 ∧ fibExists s.variant f = true ∧ (s.fibre f).txOk = true ∧ s.role f ≠ 4 ∧ ((s.fibre f).map f false).length = 9 ∧
      ring < 9 ∧ nth ((s.fibre f).map f false) 9 ring = 8 ∧ (s.fibre f).txMove = none) := by
  refine ⟨fun n h => ?_, fun rdy => ⟨moving27 ⟨26, 0, {}, rdy⟩, 27, ⟨26, 0, {}, rdy⟩, ?_⟩, ⟨moving27 ⟨27, 7, {}, true⟩, 27, ⟨27, 7, {}, true⟩, by decide +kernel⟩, ⟨fibred 2 4 1, 27, 8, by decide +kernel⟩⟩
  · rcases h with rfl | rfl
    · exact ⟨fibred 2 4 1, 27, 26, List.replicate 7 .differs, _, by decide +kernel, by decide, by decide, by decide, by decide, by decide +kernel, by decide +kernel, by decide +kernel, rfl, by decide +kernel⟩
    · exact ⟨fibred 2 4 1, 27, 26, List.replicate 8 .differs, _, by decide +kernel, by decide, by decide, by decide, by decide, by decide +kernel, by decide +kernel, by decide +kernel, rfl, by decide +kernel⟩
  · revert rdy; decide +kernel

/-- A module whose die 4 stays in DRST or not, with this LOOP and HOLD. -/
def holding (x : DiePort) (loop hold : Nat) : State := (ported x 12).wrs .DPORT_CTL 4 0 0 [(DPORT_CTL.LOOP, loop), (DPORT_CTL.HOLD, hold)]

/-- DieInterfaces: the limit of 2 ms, DRST and lock loss of a die in DRST, and HOLD cleared with and without a loopback. -/
theorem wit_siteLimits :
    (∀ o, o < 2 → ∃ (s : State) (d : Nat), d < s.variant.cdies ∧ s.canBringUp d = true ∧ (s.die d).boot = none ∧ s.boot.stage = 5 ∧ s.now = (s.die d).upAt + 2000000 + o) ∧
    (∀ b : Bool, ∃ (s : State) (d : Nat), d < s.variant.cdies ∧ (s.die d).inDrst = true ∧ (s.die d).stays = b ∧ s.live = true) ∧
    (∀ l, l < 3 → ∃ (s : State) (d : Nat), d < s.variant.cdies ∧ (s.die d).inDrst = true ∧ s.rd DPORT_CTL.LOOP d = l) ∧
    (∃ (s : State) (d : Nat), d < s.variant.cdies ∧ s.live = false) ∧
    (∃ (s : State) (d : Nat), d < s.variant.cdies ∧ (s.die d).inDrst = false ∧ s.fallow d = true ∧ s.live = true) ∧
    (∃ (s : State) (d : Nat), d < s.variant.cdies ∧ (s.die d).inDrst = false ∧ s.fallow d = false ∧ s.que.copies = [] ∧ s.live = true) ∧
    (∀ l, l < 3 → ∃ (s : State) (d : Nat) (v : W64), d < s.variant.cdies ∧ bitB v.toNat 0 = false ∧ bitB v.toNat 1 = false ∧ s.live = true ∧ bits v.toNat 3 2 = 0 ∧
      s.rd DPORT_CTL.LOOP d = l ∧ s.rd DPORT_CTL.HOLD d = 1 ∧ (s.die d).inDrst = true) ∧
    (∀ l, l = 1 ∨ l = 2 → ∃ (s : State) (d : Nat) (v : W64), d < s.variant.cdies ∧ bitB v.toNat 0 = false ∧ s.live = true ∧ bits v.toNat 3 2 = l ∧ s.dieReleased d = false ∧
      s.rdB DPORT_CTL.HOLD d = true) := by
  refine ⟨fun o h => ?_, fun b => ?_, fun l h => ?_, ⟨ported {} 5, 4, by decide +kernel⟩, ⟨(released { inDrst := false }).wrs .PWR_DOM_LP 196 0 0 [(PWR_DOM_LP.FALLOW, 1)], 4, by decide +kernel⟩,
    ⟨released { inDrst := false }, 4, by decide +kernel⟩, fun l h => ?_, fun l h => ?_⟩
  · have : o = 0 ∨ o = 1 := by omega
    rcases this with rfl | rfl
    · exact ⟨{ ported {} 5 with now := 2000000 }, 4, by decide +kernel⟩
    · exact ⟨{ ported {} 5 with now := 2000001 }, 4, by decide +kernel⟩
  · refine ⟨ported { stays := b } 12, 4, ?_⟩; revert b; decide +kernel
  · refine ⟨holding {} l 0, 4, ?_⟩; revert l; decide +kernel
  · refine ⟨holding {} l 1, 4, 0, ?_⟩; revert l; decide +kernel
  · rcases h with rfl | rfl
    · exact ⟨holding {} 0 1, 4, 6, by decide +kernel⟩
    · exact ⟨holding {} 0 1, 4, 10, by decide +kernel⟩

/-- GuestDies: no trip before the report, and a domain of a guest's core. -/
theorem wit_guestSensors :
    (∀ b : Bool, ∃ (s : State) (d : Nat) (r : Int), s.guestRuns d = true ∧ r = -321 ∧ (s.sensor (48 * d)).broken = b ∧ s.rdB PWR_STAT.TRIP = false) ∧
    (∃ (s : State) (d c : Nat), s.guestRuns d = true ∧ c / 16 = d ∧ domExists s.variant c = true ∧ s.pwr.up = true ∧ s.stby.inStby = false) ∧
    (∃ (s : State) (d : Nat), s.guestRuns d = true ∧ s.fallow d = false ∧ (s.die d).inDrst = false ∧ s.que.copies = [] ∧ (s.die d).reportAt + 100000 = s.now ∧
      (s.sensor (48 * d)).broken = true) := by
  refine ⟨fun b => ⟨{ guest1 {} 1 with pwr := { up := true, sensors := [(48, { broken := b })] } }, 1, -321, ?_⟩, ⟨guest1 {} 1, 1, 31, by decide +kernel⟩,
    ⟨{ guest1 { inDrst := false, reportAt := 400000 } 1 with pwr := { up := true, sensors := [(48, { broken := true })] } }, 1, by decide +kernel⟩⟩
  revert b; decide +kernel

/-- A message of node 1 about 0, whose end-to-end CRC holds or not. -/
def ctrlCrc (aux : Nat) (good : Bool) : Packet := { ctrlPkt aux 0 [] with crc := (ctrlPkt aux 0 []).crc + if good then 0 else 1 }

/-- RollCall: each reason why a message that comes in on a link is not acted on, one that has been seen, and one that is the last of its hops. -/
theorem wit_rollMessages :
    (∃ (s : State) (p : Packet) (l : Nat), s.slotFor l p.vc = none) ∧
    (∀ aux, aux = 4 ∨ aux = 5 ∨ aux = 6 → ∃ (s : State) (p : Packet) (l : Nat), Comes s p l aux ∧ (s.link l).used.length = 5 ∧ p.vc < 4 ∧ badPacket p = true) ∧
    (∀ aux, aux = 4 ∨ aux = 5 ∨ aux = 6 → ∃ (s : State) (p : Packet) (l : Nat), Comes s p l aux ∧ (s.link l).used.length = 5 ∧ p.vc < 4 ∧ badPacket p = false ∧
      s.excluded p.src = false ∧ p.crcOk = false) ∧
    (∀ aux, aux = 4 ∨ aux = 5 → ∃ (s : State) (p : Packet) (l : Nat), Comes s p l aux ∧ (s.link l).used.length = 5 ∧ p.vc < 4 ∧ badPacket p = false ∧
      s.excluded p.src = true) ∧
    (∀ aux, aux = 4 ∨ aux = 5 ∨ aux = 6 → ∃ (s : State) (p : Packet) (l : Nat), Comes s p l aux ∧ (s.link l).used.length = 5 ∧ p.vc < 4 ∧ badPacket p = false ∧
      s.excluded p.src = false ∧ p.crcOk = true ∧ s.roll.seen.contains (aux, p.src, payloadKey p) = true) ∧
    (∃ (s : State) (p : Packet) (l : Nat), Floods s p l 4 ∧ s.excluded p.src = false ∧ p.hops = max 1 (s.rd FAB_CFG.MAXHOPS) ∧ s.roll.votes = [] ∧ s.roll.domains = []) ∧
    (∀ good : Bool, ∀ aux, 1 ≤ aux → aux ≤ 3 → ∃ (s : State) (n addr : Nat) (p : Packet), n = 1 ∧ s.rollRuns = true ∧ s.excluded n = false ∧
      s.fab.rx.find? (ctrlFrom n aux addr) = some p ∧ p.crcOk = good) ∧
    (∃ (s : State) (p : Packet), p.typ = 10 ∧ p.aux % 256 = 7 ∧ s.rollRuns = true ∧ s.excluded p.src = true) ∧
    (∃ (s : State) (p : Packet), p.typ = 10 ∧ p.aux % 256 = 7 ∧ p.crcOk = true ∧ s.excluded p.src = false ∧ s.rollRuns = true ∧ s.roll.joinAt.isSome = true ∧
      s.roll.admitted = false ∧ s.roll.votes = [] ∧ s.roll.domains = [] ∧ ∀ n, n < 512 → lane 2 (ofLe p.payload) n ≠ 2) := by
  have cm : ∀ (s : State) (aux : Nat) (p : Packet), p.typ = 10 ∧ p.aux % 256 = aux → s.rollRuns = true ∧ s.linkUp 3 = true ∧ (s.slotFor 3 p.vc).isSome = true → Comes s p 3 aux :=
    fun _ _ _ h k => ⟨h.1, h.2, k.1, k.2.1, k.2.2⟩
  refine ⟨⟨onFabric [(2, { used := [512, 512, 512, 512, 512] })], hopPkt 10 0 1, 2, by decide +kernel⟩, fun aux h => ⟨called 1 1 1 {}, { ctrlPkt aux 0 [] with resv := 1 }, 3, cm _ _ _ ?_ ?_, ?_⟩,
    fun aux h => ⟨called 1 1 1 {}, ctrlCrc aux false, 3, cm _ _ _ ?_ ?_, ?_⟩, fun aux h => ⟨called 3 1 1 {}, ctrlPkt aux 0 [], 3, cm _ _ _ ?_ ?_, ?_⟩,
    fun aux h => ⟨called 1 1 1 { seen := [(aux, 1, payloadKey (ctrlPkt aux 0 []))] }, ctrlPkt aux 0 [], 3, cm _ _ _ ?_ ?_, ?_⟩,
    ⟨called 1 1 1 {}, { ctrlPkt 4 2 [] with hops := 4 }, 3, ⟨cm _ _ _ ⟨rfl, rfl⟩ (by decide +kernel), by decide +kernel, by decide +kernel, by decide +kernel⟩, by decide +kernel, by decide +kernel, rfl, rfl⟩, fun good aux h1 h3 => ?_,
    ⟨called 3 1 1 {}, ctrlPkt 7 0 [], rfl, rfl, by decide +kernel⟩,
    ⟨called 1 1 1 { joinAt := some 80000000 }, ctrlPkt 7 0 [], rfl, rfl, by decide +kernel, by decide +kernel, by decide +kernel, rfl, rfl, rfl, rfl, fun n _ => ?_⟩⟩
  · rcases h with rfl | rfl | rfl <;> exact ⟨rfl, rfl⟩
  · rcases h with rfl | rfl | rfl <;> decide +kernel
  · rcases h with rfl | rfl | rfl <;> decide +kernel
  · rcases h with rfl | rfl | rfl <;> exact ⟨rfl, rfl⟩
  · rcases h with rfl | rfl | rfl <;> decide +kernel
  · rcases h with rfl | rfl | rfl <;> decide +kernel
  · rcases h with rfl | rfl <;> exact ⟨rfl, rfl⟩
  · rcases h with rfl | rfl <;> decide +kernel
  · rcases h with rfl | rfl <;> decide +kernel
  · rcases h with rfl | rfl | rfl <;> exact ⟨rfl, rfl⟩
  · rcases h with rfl | rfl | rfl <;> decide +kernel
  · rcases h with rfl | rfl | rfl <;> decide +kernel
  · have : aux = 1 ∨ aux = 2 ∨ aux = 3 := by omega
    refine ⟨{ called 1 1 1 {} with fab := { (called 1 1 1 {}).fab with rx := [ctrlCrc aux good] } }, 1, 0, ctrlCrc aux good, rfl, ?_⟩
    rcases this with rfl | rfl | rfl <;> cases good <;> exact ⟨by decide +kernel, by decide +kernel, rfl, by decide +kernel⟩
  · show lane 2 0 n ≠ 2
    simp [lane]

/-- WinnowAndTrace: a counter sample that is due, and one that is not yet. -/
theorem wit_traceSamples : ∀ o, o < 2 → ∀ u, u = 3 ∨ u = 256 → ∃ (s : State) (t0 : Nat), (s.trace.get {} u).sampledAt = some t0 ∧ traceUnit s.variant u = true ∧ s.traceOn u 6 = true ∧
    (s.trace.get {} u).buf.length + 8 ≤ traceRoom u ∧ t0 + (if u < 256 then s.rd OBS_CORE.SAMPLE u else s.rd OBS_BASE.SAMPLE (u - 256)) * 1000 = s.now + o := by
  intro o ho u h
  have : o = 0 ∨ o = 1 := by omega
  rcases h with rfl | rfl <;> rcases this with rfl | rfl
  · exact ⟨tracing { sampledAt := some 89999000 } {}, 89999000, by decide +kernel⟩
  · exact ⟨tracing { sampledAt := some 89999001 } {}, 89999001, by decide +kernel⟩
  · exact ⟨tracing {} { sampledAt := some 89999000 }, 89999000, by decide +kernel⟩
  · exact ⟨tracing {} { sampledAt := some 89999001 }, 89999001, by decide +kernel⟩

/-- The module on the fabric with a kernel at work, a command, a copy and a context; a verdict names it, or it hears too few. -/
def fencedBusy (named : Bool) : State :=
  { called 1 1 1 { named := named } with
    cores := [(5, { kernel := some ⟨1, 0, 2, none⟩ })]
    que := { qs := [(63, { st := 4 })], cmds := [⟨3, 63, 0, cmdW 1 0 0 0 0, false, [5], [], none, false⟩] }
    col := { ctxs := [(63, half5 2)] } }

/-- ResetsAndFencing: a busy module that fences itself, a POR after sources were fitted without power, an epoch that may not be set. -/
theorem wit_fencing :
    (∃ s : State, s.rollRuns = true ∧ s.roll.named = true ∧ (s.queue 63).st = 4 ∧ s.cores ≠ [] ∧ s.que.cmds ≠ [] ∧ s.col.ctxs ≠ []) ∧
    (∃ s : State, s.rollRuns = true ∧ s.aliveNbrs s.node ≠ [] ∧ s.heardIn (s.rollCfg ROLL_CFG.SELF) < (s.aliveNbrs s.node).length / 2 + 1 ∧ s.cores ≠ []) ∧
    (∀ b : Bool, ∃ (s : State) (x : PowerOn) (k : Nat) (d : Option (List Byte)), s.pwr.up = b ∧ x.sources = [(k, d)] ∧ d.isSome = true) ∧
    (∃ (s : State) (v : W64), s.linkLit = true ∧ s.boot.stage = 12 ∧ bits v.toNat 63 40 = bits s.epoch 63 40 ∧ s.epoch < v.toNat ∧ s.anyKernel = true) ∧
    (∃ (s : State) (v : W64), s.linkLit = true ∧ s.boot.stage = 12 ∧ bits v.toNat 63 40 = bits s.epoch 63 40 ∧ s.epoch < v.toNat ∧ s.anyKernel = false ∧ s.col.ctxs ≠ []) :=
  ⟨⟨fencedBusy true, by decide +kernel⟩, ⟨fencedBusy false, by decide +kernel⟩,
    fun b => ⟨{ idle with pwr := { up := b } }, ⟨0, [(3, some [])]⟩, 3, some [], rfl, rfl, rfl⟩, ⟨fencedBusy true, 1, by decide +kernel⟩,
    ⟨{ faulty {} with col := { ctxs := [(63, half5 2)] } }, 1, by decide +kernel⟩⟩

/-- A module whose error record holds a fault of cause 3, an MRST of this cause being due or not. -/
def recordedFault (m : Option Nat) : State :=
  let s := (faulty { mrstCause := m, kickAt := 89000000 }).wrs .FLT_REC0 0 0 0 [(FLT_REC0.VALID, 1), (FLT_REC0.CAUSE, 3)]
  (s.wrs .FLT_WDOG 0 0 0 [(FLT_WDOG.EN, 1), (FLT_WDOG.PERIOD, 1)]).wrs .PWR_STAT 0 0 0 [(PWR_STAT.CONVFAIL, 1)]

/-- ErrorRecord: a later fault of each row, with an MRST due and with none. -/
theorem wit_laterFaults : ∀ m : Option Nat, m = none ∨ m = some 3 →
    (∃ (s : State) (v : W64), s.flt.mrstCause = m ∧ s.rdB FLT_REC0.VALID = true ∧ s.rd FLT_REC0.CAUSE = 3 ∧ s.linkLit = true ∧ v.getLsbD 0 = true) ∧
    (∃ s : State, s.flt.mrstCause = m ∧ s.rdB FLT_REC0.VALID = true ∧ s.rdB FLT_WDOG.EN = true ∧ s.alive = true ∧
      s.flt.kickAt + max 1 (s.rd FLT_WDOG.PERIOD) * 1000000 = s.now) ∧
    (∃ (s : State) (t0 : Nat), s.flt.mrstCause = m ∧ s.rdB FLT_REC0.VALID = true ∧ s.roll.fencedAt = some t0 ∧ s.rdB ROLL_CTL.EXRST = true ∧ t0 + 10000000 = s.now) ∧
    (∃ (s : State) (blk d n k j : Nat), s.flt.mrstCause = m ∧ s.rdB FLT_REC0.VALID = true ∧ blk = 7 ∧ d + 1 = s.variant.cdies ∧ n + 1 = s.variant.stacks ∧
      s.rdB PWR_STAT.TRIP = false ∧ k + 1 = converters s.variant ∧ j ≠ k ∧ j < 8 ∧ s.rd PWR_STAT.CONVFAIL = 2 ^ j) := by
  intro m h
  rcases h with rfl | rfl
  · exact ⟨⟨recordedFault none, 1, by decide +kernel⟩, ⟨recordedFault none, by decide +kernel⟩,
      ⟨{ recordedFault none with roll := { fencedAt := some 80000000 } }, 80000000, by decide +kernel⟩,
      ⟨recordedFault none, 7, Variant.cdies (recordedFault none).variant - 1, Variant.stacks (recordedFault none).variant - 1, converters (recordedFault none).variant - 1, 0, by decide +kernel⟩⟩
  · exact ⟨⟨recordedFault (some 3), 1, by decide +kernel⟩, ⟨recordedFault (some 3), by decide +kernel⟩,
      ⟨{ recordedFault (some 3) with roll := { fencedAt := some 80000000 } }, 80000000, by decide +kernel⟩,
      ⟨recordedFault (some 3), 7, Variant.cdies (recordedFault (some 3)).variant - 1, Variant.stacks (recordedFault (some 3)).variant - 1, converters (recordedFault (some 3)).variant - 1, 0,
        by decide +kernel⟩⟩

/-- StepRunsCommand: writes of flash that end at this tick, and later. -/
theorem wit_flashWrites : ∀ o, o < 2 →
    (∃ (s : State) (e : Nat × Ucal), s.pending = [] ∧ s.boot.ucalNew = some e ∧ e.1 = s.now + 1 + o ∧ s.boot.update = none) ∧
    (∃ (s : State) (u : Update), s.pending = [] ∧ s.boot.update = some u ∧ u.doneAt = s.now + 1 + o ∧ u.image = some (1, [])) :=
  fun o _ => ⟨⟨{ idle with boot := { ucalNew := some (1 + o, {}) } }, (1 + o, {}), rfl, rfl, (by show 1 + o = 0 + 1 + o; omega), rfl⟩,
    ⟨{ idle with boot := { update := some ⟨1 + o, some (1, []), 1⟩ } }, ⟨1 + o, some (1, []), 1⟩, rfl, rfl, (by show 1 + o = 0 + 1 + o; omega), rfl⟩⟩

/-- Boot: a site without a block in step 4 and one with it, calibration swept in step 1 or not, memory in step 7, and GO while an update runs or not. -/
theorem wit_bootSites :
    (∃ (s : State) (d : Nat), s.alive = true ∧ s.boot.stage = 4 ∧ d + 1 = s.variant.cdies ∧ SiteFails s d) ∧
    (∃ s : State, s.alive = true ∧ s.boot.stage = 4 ∧ ∀ d, d < s.variant.cdies → ¬ SiteFails s d) ∧
    (∃ s : State, s.alive = true ∧ s.boot.stage = 7 ∧ s.memOk = true ∧ s.boot.items ≠ []) ∧
    (∃ (s : State) (c : Nat), s.alive = true ∧ (s.wnwOf c).ret = true ∧ (s.wnwOf c).running = false ∧ (s.wnwOf c).next = 48) ∧
    (∃ s : State, s.alive = true ∧ s.live = false) ∧
    (∀ b : Bool, ∃ (s : State) (v : W64), s.live = true ∧ v.getLsbD 0 = true ∧ s.boot.ucalNew.isSome = b) ∧
    (∀ k, k < 12 → ∃ s : State, s.alive = true ∧ s.boot.stage = k ∧ (s.boot.stage = 2 → s.boot.swept ≠ [])) := by
  refine ⟨⟨booting 4 0, 2, by decide +kernel, rfl, by decide, by unfold SiteFails; decide +kernel⟩,
    ⟨{ booting 4 0 with dies := [(0, { boot := some ownCap }), (1, { stays := true }), (2, { boot := some guestCap })] }, by decide +kernel, rfl, by unfold SiteFails; decide +kernel⟩,
    ⟨{ booting 7 0 with boot := { stage := 7, items := [[1, 2], [3]] } }, by decide +kernel⟩, ⟨{ booting 11 0 with wnw := [(3, { ret := true, next := 48 })] }, 3, by decide +kernel⟩,
    ⟨booting 11 0, by decide +kernel⟩, fun b => ?_, fun k _ => ⟨{ booting k 0 with boot := { stage := k, swept := [(128, false, 2, [])] } }, rfl, rfl, fun _ => List.cons_ne_nil _ _⟩⟩
  cases b
  · exact ⟨idle, 1, by decide +kernel⟩
  · exact ⟨{ idle with boot := { stage := 12, ucalNew := some (9, {}) } }, 1, by decide +kernel⟩

/-! ### Results written out from the spec -/

/-- The state a command leaves. -/
def after (o : Host.Outcome State Fault Refusal) (s : State) : State :=
  match o with
  | .next t => t
  | _ => s

/-- Scalar register 3 after an instruction of processor 0. -/
def x3 (o : Host.Outcome State Fault Refusal) : W64 := ((after o idle).sp 0 0).xr 3

/-- Lane 0 of vector register 3 after an instruction of processor 0. -/
def v3 (o : Host.Outcome State Fault Refusal) : Nat := (((after o idle).sp 0 0).vr 3).toNat % 2 ^ 32

/-- Vector registers whose lane 0 is as given. -/
def lane0 (a b : Nat) : State := withSp { v := [(1, BitVec.ofNat 1024 a), (2, BitVec.ofNat 1024 b)], p := [(1, 0xFF)] }

/-- R149: ADD wraps. -/
theorem test_add_wraps : x3 (exec (.scalarRegOp 0 0 (word 1 3 1 2 0 0)) (withSp (at1 0xFFFFFFFFFFFFFFFF))) = 6 := by decide +kernel
/-- R149: MULH of -1 and 7 is the high half of -7. -/
theorem test_mulh_signed :
    x3 (exec (.scalarRegOp 0 0 (word 1 3 1 2 0 11)) (withSp (at1 0xFFFFFFFFFFFFFFFF))) = 0xFFFFFFFFFFFFFFFF := by decide +kernel
/-- R149: a division by zero gives all ones, and REM the dividend. -/
theorem test_div_zero : x3 (exec (.scalarRegOp 0 0 (word 1 3 2 9 0 13)) (withSp (at1 1))) = 0xFFFFFFFFFFFFFFFF ∧
    x3 (exec (.scalarRegOp 0 0 (word 1 3 2 9 0 15)) (withSp (at1 1))) = 7 := by decide +kernel
/-- R149: SRA keeps the sign. -/
theorem test_sra : x3 (exec (.shiftImm 0 0 (BitVec.ofNat 32 (6 + 3 * 2 ^ 7 + 2 ^ 12 + 4 * 2 ^ 17 + 2 * 2 ^ 23)))
    (withSp (at1 0x8000000000000000))) = 0xF800000000000000 := by decide +kernel
/-- R149: LUI extends the sign of its 20 bits. -/
theorem test_lui : x3 (exec (.lui 0 0 (BitVec.ofNat 32 (8 + 3 * 2 ^ 7 + 0x80000 * 2 ^ 12))) (withSp regs3)) = 0xFFFFFFFF80000000 := by decide +kernel
/-- R149: JAL back by one instruction. -/
theorem test_jal_back : x3 (exec (.jal 0 0 (BitVec.ofNat 32 (0xB + 3 * 2 ^ 7 + 0xFFFFF * 2 ^ 12))) (withSp { regs3 with pc := 0x40 })) = 0x44 ∧
    ((after (exec (.jal 0 0 (BitVec.ofNat 32 (0xB + 3 * 2 ^ 7 + 0xFFFFF * 2 ^ 12))) (withSp { regs3 with pc := 0x40 })) idle).sp 0 0).pc = 0x3C := by
  decide +kernel
/-- R164: a 32-bit ADD answers the old value with its sign, and wraps in memory. -/
theorem test_atom_add : ∀ s, s = (withSp (at1 0x40)).modCore 0 (fun k => { k with spad := [(0x40, 255), (0x41, 255), (0x42, 255), (0x43, 255)] }) →
    x3 (exec (.atomS 0 0 (word 0x18 3 1 2 0 4)) s) = 0xFFFFFFFFFFFFFFFF ∧
    ((after (exec (.atomS 0 0 (word 0x18 3 1 2 0 4)) s) idle).core 0).spad = [(0x40, 6)] := by
  rintro s rfl
  decide +kernel
/-- R151: 1.0 + 2.0 and 1.0 / 3.0 in FP32. -/
theorem test_vadd_vdiv : v3 (exec (.vadd 0 0 (wordVF 0x20 3 1 2 1 0 0 0)) (lane0 0x3F800000 0x40000000)) = 0x40400000 ∧
    v3 (exec (.vdiv 0 0 (wordVF 0x20 3 1 2 1 0 0 4)) (lane0 0x3F800000 0x40400000)) = 0x3EAAAAAB := by decide +kernel
/-- R151: the root of 2, and the base-2 logarithm of 8. -/
theorem test_vsqrt_vlog2 : v3 (exec (.vsqrt 0 0 (wordVF 0x20 3 1 0 1 0 0 5)) (lane0 0x40000000 0)) = 0x3FB504F3 ∧
    v3 (exec (.vlog2 0 0 (wordVF 0x20 3 1 0 1 0 0 7)) (lane0 0x41000000 0)) = 0x40400000 := by decide +kernel
/-- R151: 2 to the power 0.5. -/
theorem test_vexp2 : v3 (exec (.vexp2 0 0 (wordVF 0x20 3 1 0 1 0 0 6)) (lane0 0x3F000000 0)) = 0x3FB504F3 := by decide +kernel
/-- R151: VADDS of INT8 saturates each lane. -/
theorem test_vadds : v3 (exec (.vadds 0 0 (wordV 0x21 3 1 2 1 3 4)) (lane0 0x7F80017F 0x01FF0202)) = 0x7F80037F := by decide +kernel
/-- R151: PCOUNT counts the bits of a predicate. -/
theorem test_pcount : x3 (exec (.pcount 0 0 (word 0x2A 3 1 0 0 5)) (lane0 0 0)) = 8 := by decide +kernel
/-- R67, R120, R124: a pass of the row 5, -1 over the tile 1 2 / 3 -2 gives 2 and 12 in words 0 and 1 of row 254 of group 3 of array 3. -/
theorem test_pass : ∀ s, s = withArr passed1 →
    ((after (exec (.passComplete 0 3 3 []) s) idle).core 0).acc.get 0 0xFFE00 = 2 ∧
    ((after (exec (.passComplete 0 3 3 []) s) idle).core 0).acc.get 0 0xFFE01 = 12 := by
  rintro s rfl
  decide +kernel
/-- R445: the check value of the CRC-64 of ECMA-182 over the digits 1 to 9. -/
theorem test_crc64 : crc64 [0x31, 0x32, 0x33, 0x34, 0x35, 0x36, 0x37, 0x38, 0x39] = 0x6C40DF5F0B497347 := by decide +kernel

/-- A memory in canonical form that lists something, with a command waiting. -/
theorem wit_stepKeepsTheModule : ∃ s : State, s.memOk = true ∧ s.pending ≠ [] ∧ (s.core 0).spad ≠ [] :=
  ⟨{ withArr passed1 with pending := [.wake] }, by decide +kernel, List.cons_ne_nil _ _, by decide +kernel⟩

end Sys2Proof.Tests
end

/-! PROOF of StateAtReset: the module at power-on reset (R20, R39, R571, R579). -/

namespace Sys2Proof.Proofs.Scope

open Sys2Proof Sys2Proof.Machine Sys2Proof.Laws

/-! ### The module at power-on reset -/

/-- At power-on reset no register is listed, so each holds its reset word. -/
theorem reset_reg (g : Reg) (n i j : Nat) : State.reset.reg g n i j = g.rst := rfl

/-- A field of a register at power-on reset does not depend on the unit. -/
theorem reset_rd (f : Fld) (n i j : Nat) : State.reset.rd f n i j = f.get f.reg.rst := rfl

/-- A field that is reset to 0 beside nothing but zeros reads 0 at power-on reset. -/
theorem reset_rd_eq_zero {f : Fld} (h : f.get f.reg.rst = 0) (n i j : Nat) : State.reset.rd f n i j = 0 := h

/-- At power-on reset a core is as its declaration leaves it: its memories list nothing and no kernel runs. -/
theorem reset_core (c : Nat) : State.reset.core c = {} := rfl

theorem reset_queue (q : Nat) : State.reset.queue q = {} := rfl

/-- Settles O58: nothing is listed in the state at reset, so units read as declared and registers as their fields' reset values. -/
theorem stateAtReset : Obligations.StateAtReset := by
  refine ⟨rfl, rfl, rfl, rfl, rfl, fun c a => ?_, fun q => ?_, fun n => ?_, fun e => ?_, reset_reg, ?_⟩
  · rw [reset_core]
    exact ⟨rfl, rfl, rfl, rfl⟩
  · rw [reset_queue]
    exact ⟨rfl, rfl⟩
  · exact reset_rd_eq_zero (f := ROLL_NODE.STATE) (by decide) 0 n 0
  · exact reset_rd_eq_zero (f := QUE_EVT.VALUE) (by decide) 0 e 0
  · simp only [reset_rd]
    decide

end Sys2Proof.Proofs.Scope

/-! PROOFS of ControlSpaceGuards and SpecialRegisters: control space as a processor sees it (R17 to R22, R38, R166, R167). -/

namespace Sys2Proof.Proofs.Scope

open Sys2Proof Sys2Proof.Machine Sys2Proof.Laws

/-! ### Guards of a control-space access -/

theorem isSys_of {i f : Nat} (hm : iMaj i = 0x1F) (hf : iF i = f) : isSys i f = true := by
  simp [isSys, hm, hf]

/-- A code that records an instruction word records all of it. -/
theorem word_mod (w : W32) : w.toNat % 2 ^ 32 = w.toNat := Nat.mod_eq_of_lt w.isLt

section Guard

variable {s : State} {c p i : Nat} {a : W64} (eff : State → State)

/-- User mode takes PRIV (R167). -/
theorem csrGuard_user (h : (s.sp c p).super = false) : s.csrGuard c p i a eff = s.precise c p 2 (i % 2 ^ 32) := by
  simp [State.csrGuard, h]

/-- Supervisor mode takes CSPACE at an address that control space does not have (R21). -/
theorem csrGuard_badAddress (h : (s.sp c p).super = true) (ha : a.toNat % 8 ≠ 0 ∨ 2 ^ 40 ≤ a.toNat) :
    s.csrGuard c p i a eff = s.precise c p 5 a.toNat := by
  simp only [State.csrGuard, h, Bool.not_true, Bool.false_eq_true, if_false, if_pos ha]

/-- Where an address is one of control space, the access waits while its register's core is shut (R38), and else takes effect. -/
theorem csrGuard_address (h : (s.sp c p).super = true) (h8 : a.toNat % 8 = 0) (h40 : a.toNat < 2 ^ 40) :
    s.csrGuard c p i a eff = if s.regShut a.toNat then s else eff s := by
  have ha : ¬ (a.toNat % 8 ≠ 0 ∨ 2 ^ 40 ≤ a.toNat) := by omega
  simp only [State.csrGuard, h, Bool.not_true, Bool.false_eq_true, if_false, if_neg ha]

end Guard

/-! ### What a read or a write of a register touches -/

/-- A register stands at the address at which it is found. -/
theorem regThere_addr {s : State} {a : Nat} {r : RegAt} (h : s.regThere a = some r) : r.reg.addr r.n r.i r.j = a := by
  have hat : regAt s.variant a = some r := by
    unfold State.regThere at h
    cases hr : regAt s.variant a with
    | none => simp [hr] at h
    | some q =>
      simp only [hr, Option.ite_none_right_eq_some] at h
      exact h.2
  obtain ⟨g, -, hg⟩ := List.exists_of_findSome?_eq_some hat
  simp only [Reg.at?, Option.ite_none_right_eq_some, Option.some.injEq] at hg
  obtain ⟨⟨-, haddr⟩, rfl⟩ := hg
  exact haddr

/-- Where registers are depends on the variant and on the map of dies alone (R22, R34). -/
theorem regThere_congr {s t : State} (hv : t.variant = s.variant) (hm : t.reg .GLB_DIEMAP 0 0 0 = s.reg .GLB_DIEMAP 0 0 0) (a : Nat) :
    t.regThere a = s.regThere a := by
  have hmap : ∀ f : Fld, f.reg = .GLB_DIEMAP → t.rd f 0 0 0 = s.rd f 0 0 0 := fun f hf => rd_of_reg (by rw [hf]; exact hm)
  have hmapped : ∀ r, t.mapped r = s.mapped r := by
    intro r
    unfold State.mapped State.diePresent State.dieGuest
    rw [hv, hmap GLB_DIEMAP.PRESENT rfl, hmap GLB_DIEMAP.GUEST rfl]
  unfold State.regThere
  simp only [hv, hmapped]

/-- Counting up a loopback's bit errors changes their register, and may use a free value (R505). -/
theorem onlyRegs_loopErrs_free (s : State) (d : Nat) :
    OnlyRegs { s with free := (s.loopErrs d none).free } (s.loopErrs d none) [Reg.addr .DPORT_ERR d 0 0] := by
  unfold State.loopErrs
  split
  · exact OnlyRegs.refl s _
  · exact onlyRegs_wr { s with free := s.free + 1 } DPORT_ERR.LBERR _ d 0 0

/-- What is counted before a read changes at most the register to be read, and may use a free value. -/
theorem onlyRegs_beforeRead (s : State) (r : RegAt) :
    OnlyRegs { s with free := (s.beforeRead r).free } (s.beforeRead r) [r.reg.addr r.n r.i r.j] := by
  unfold State.beforeRead
  split
  · next hr =>
    have haddr : Reg.addr .DPORT_ERR r.n r.i r.j = Reg.addr .DPORT_ERR r.n 0 0 := by simp [Reg.addr, Reg.place]
    rw [hr, haddr]
    exact onlyRegs_loopErrs_free s r.n
  · exact OnlyRegs.refl s _

theorem readReg_unmapped {s : State} {who : Who} {a : Nat} (h : s.regThere a = none) : s.readReg who a = (0, s) := by
  simp [State.readReg, h]

theorem readReg_closed {s : State} {who : Who} {a : Nat} {r : RegAt} (h : s.regThere a = some r) (hr : who.reaches r = false) :
    s.readReg who a = (0, s) := by
  simp [State.readReg, h, hr]

/-- A read of a register delivers its view, and clears its read-clear fields where one of them is set (R18). -/
theorem readReg_open {s : State} {who : Who} {a : Nat} {r : RegAt} (h : s.regThere a = some r) (hr : who.reaches r = true) :
    s.readReg who a = ((s.beforeRead r).view r ((s.beforeRead r).reg r.reg r.n r.i r.j),
      if r.reg.cleared ((s.beforeRead r).reg r.reg r.n r.i r.j) = (s.beforeRead r).reg r.reg r.n r.i r.j then s.beforeRead r
      else (s.beforeRead r).setReg r.reg r.n r.i r.j (r.reg.cleared ((s.beforeRead r).reg r.reg r.n r.i r.j))) := by
  simp [State.readReg, h, hr]

/-- A read changes at most the register read, and may use a free value. -/
theorem onlyRegs_readReg (s : State) (who : Who) (a : Nat) :
    OnlyRegs { s with free := (s.readReg who a).2.free } (s.readReg who a).2 [a] := by
  cases h : s.regThere a with
  | none =>
    rw [readReg_unmapped h]
    exact OnlyRegs.refl s _
  | some r =>
    cases hr : who.reaches r with
    | false =>
      rw [readReg_closed h hr]
      exact OnlyRegs.refl s _
    | true =>
      have hb := onlyRegs_beforeRead s r
      rw [regThere_addr h] at hb
      rw [readReg_open h hr]
      dsimp only
      split
      · exact hb
      · have hset := onlyRegs_setReg (s.beforeRead r) r.reg r.n r.i r.j (r.reg.cleared ((s.beforeRead r).reg r.reg r.n r.i r.j))
        rw [regThere_addr h] at hset
        exact hb.trans hset

theorem writeReg_unmapped {s : State} {a : Nat} (who : Who) (v : W64) (h : s.regThere a = none) : s.writeReg who a v = s := by
  unfold State.writeReg
  rw [h]

/-- A write of a register that is there has that register's effect, where it is open to the one who writes. -/
theorem writeReg_at {s : State} {a : Nat} {r : RegAt} (who : Who) (v : W64) (h : s.regThere a = some r) :
    s.writeReg who a v = if who.reaches r then s.writeAt who r v else s := by
  unfold State.writeReg
  rw [h]

/-! ### Retirement, and registers beside the counters -/

/-- Performance counters and their selects lie from offset 0x20100 of their core's block on. -/
theorem le_of_mem_cntRegs {c a : Nat} (h : a ∈ cntRegs c) : UnitKind.base .core c + 0x20100 ≤ a := by
  obtain ⟨m, -, hm⟩ := List.mem_flatMap.1 h
  simp only [Reg.addr, Reg.place, List.mem_cons, List.not_mem_nil, or_false] at hm
  omega

theorem dieMap_not_mem_cntRegs (c : Nat) : Reg.addr .GLB_DIEMAP 0 0 0 ∉ cntRegs c := by
  intro h
  have := le_of_mem_cntRegs h
  simp only [Reg.addr, Reg.place, UnitKind.base] at this
  omega

theorem fpStat_not_mem_cntRegs (c : Nat) : Reg.addr .CORE_FPSTAT c 0 0 ∉ cntRegs c := by
  intro h
  have := le_of_mem_cntRegs h
  simp only [Reg.addr, Reg.place] at this
  omega

/-- An instruction that delivers a value to a scalar register, and no more, retires with it. -/
theorem retires_of_retireX {k : Instr} {s : State} {c p rd : Nat} {v : W64} (h : exec k s = .next (s.retireX c p rd v)) :
    Retires k s c p ((s.sp c p).setX rd v) :=
  ⟨_, h, sp_retireX s c p rd v, onlySp_retireX s c p rd v⟩

/-- A change of a processor and of registers uses no free value. -/
theorem free_of_onlySp {s t : State} {c p : Nat} {l : List Nat} (h : OnlySp s t c p l) : t.free = s.free := by
  rw [h.rest]

theorem variant_of_onlySp {s t : State} {c p : Nat} {l : List Nat} (h : OnlySp s t c p l) : t.variant = s.variant := by
  rw [h.rest]

/-- An access counted at the base-die port, then retired. -/
theorem onlySp_count_retire (s : State) (c p ev k n : Nat) : OnlySp s ((s.count c ev (some p) k).retire c p n) c p (cntRegs c) :=
  ((onlyRegs_count s c ev (some p) k).onlySp c p).trans (onlySp_retire _ c p n)

theorem sp_count_retire (s : State) (c p ev k n : Nat) : ((s.count c ev (some p) k).retire c p n).sp c p = (s.sp c p).past n := by
  rw [sp_retire, (onlyRegs_count s c ev (some p) k).sp]

theorem onlySp_count_retireX (s : State) (c p ev k rd : Nat) (v : W64) :
    OnlySp s ((s.count c ev (some p) k).retireX c p rd v) c p (cntRegs c) :=
  ((onlyRegs_count s c ev (some p) k).onlySp c p).trans (onlySp_retireX _ c p rd v)

theorem sp_count_retireX (s : State) (c p ev k rd : Nat) (v : W64) :
    ((s.count c ev (some p) k).retireX c p rd v).sp c p = ((s.sp c p).setX rd v).past 4 := by
  rw [sp_retireX, (onlyRegs_count s c ev (some p) k).sp]

/-- A 64-bit field that fills its word reads as the word. -/
theorem w64_rd_cntVal (s : State) (c n : Nat) : w64 (s.rd CNT_VAL.VALUE c n) = s.reg .CNT_VAL c n 0 := by
  have h := (s.reg .CNT_VAL c n 0).isLt
  apply BitVec.eq_of_toNat_eq
  simp only [State.rd, Fld.get, bits, CNT_VAL.VALUE, BitVec.toNat_ofNat, Nat.shiftRight_zero]
  omega

/-- Flags named by the low 4 bits of a word, as the mask that clears them. -/
theorem flagMask (y : W64) : w64 (0xF - bits y.toNat 3 0) = ~~~(y &&& 0xF) &&& 0xF := by
  have hy : y &&& 0xF = w64 (bits y.toNat 3 0) := by
    apply BitVec.eq_of_toNat_eq
    have : y.toNat &&& 15 = y.toNat % 16 := Nat.and_two_pow_sub_one_eq_mod y.toNat 4
    simp [bits, this]
    omega
  have hall : ∀ m, m < 16 → w64 (0xF - m) = ~~~(w64 m) &&& 0xF := by decide
  rw [hy]
  exact hall _ (Nat.mod_lt _ (by norm_num))

/-! ### The instructions -/

section Rows

variable {s : State} {c p : Nat} {w : W32}

/-- CSR.RD where its fields are legal: the guarded read, counted at the base-die port and retired. -/
theorem exec_csrRd (hm : iMaj w.toNat = 0x1F) (hf : iF w.toNat = 4) (h2 : iRs2 w.toNat = 0) (h3 : iRs3 w.toNat = 0)
    (hi : Issues s c p [iRd w.toNat, iRs1 w.toNat] []) :
    exec (.csrRd c p w) s = .next (s.csrGuard c p w.toNat ((s.sp c p).xr (iRs1 w.toNat)) (fun t =>
      ((t.readReg (.proc (2 * c + p)) ((s.sp c p).xr (iRs1 w.toNat)).toNat).2.count c 0x42 (some p) 8).retireX c p (iRd w.toNat)
        (t.readReg (.proc (2 * c + p)) ((s.sp c p).xr (iRs1 w.toNat)).toNat).1)) :=
  congrArg Host.Outcome.next (issue_eff hi (isSys_of hm hf) (by simp [h2, h3]) _)

/-- CSR.WR where its fields are legal: the instruction retires, and its guarded write follows. -/
theorem exec_csrWr (hm : iMaj w.toNat = 0x1F) (hf : iF w.toNat = 5) (hd : iRd w.toNat = 0) (h3 : iRs3 w.toNat = 0)
    (hi : Issues s c p [iRs1 w.toNat, iRs2 w.toNat] []) :
    exec (.csrWr c p w) s = .next (s.csrGuard c p w.toNat ((s.sp c p).xr (iRs1 w.toNat)) (fun t =>
      ((t.count c 0x43 (some p) 8).retire c p 4).writeReg (.proc (2 * c + p)) ((s.sp c p).xr (iRs1 w.toNat)).toNat
        ((s.sp c p).xr (iRs2 w.toNat)))) :=
  congrArg Host.Outcome.next (issue_eff hi (isSys_of hm hf) (by simp [hd, h3]) _)

/-- ERET in user mode takes PRIV (R167). -/
theorem exec_eret_user (hm : iMaj w.toNat = 0x1F) (hf : iF w.toNat = 1) (h0 : bits w.toNat 26 7 = 0) (hi : Issues s c p [] [])
    (hu : (s.sp c p).super = false) : exec (.eret c p w) s = .next (s.precise c p 2 w.toNat) := by
  refine congrArg Host.Outcome.next ((issue_eff hi (isSys_of hm hf) (by simp [h0]) _).trans ?_)
  simp [hu]

/-- A CSR.RD that nothing stands against: what the register reads as goes to rd, and the register, counters and free values alone change. -/
theorem completes_csrRd {a : Nat} (hm : iMaj w.toNat = 0x1F) (hf : iF w.toNat = 4) (h2 : iRs2 w.toNat = 0) (h3 : iRs3 w.toNat = 0)
    (hi : Issues s c p [iRd w.toNat, iRs1 w.toNat] []) (hs : (s.sp c p).super = true)
    (ha : a = ((s.sp c p).xr (iRs1 w.toNat)).toNat) (h8 : a % 8 = 0) (h40 : a < 2 ^ 40) (hopen : s.regShut a = false) :
    Completes (.csrRd c p w) s (fun t =>
      t.sp c p = ((s.sp c p).setX (iRd w.toNat) (s.readReg (.proc (2 * c + p)) a).1).past 4 ∧
      OnlySp { s with free := t.free } t c p (a :: cntRegs c)) := by
  subst ha
  refine ⟨_, exec_csrRd hm hf h2 h3 hi, ?_⟩
  rw [csrGuard_address _ hs h8 h40, hopen]
  set a := ((s.sp c p).xr (iRs1 w.toNat)).toNat
  set x := s.readReg (.proc (2 * c + p)) a
  have hread : OnlyRegs { s with free := x.2.free } x.2 [a] := onlyRegs_readReg s _ a
  have hret := onlySp_count_retireX x.2 c p 0x42 8 (iRd w.toNat) x.1
  rw [if_neg Bool.false_ne_true, sp_count_retireX, hread.sp, free_of_onlySp hret]
  exact ⟨rfl, ((hread.onlySp c p).mono (by simp)).trans (hret.mono (fun b hb => List.mem_cons_of_mem _ hb))⟩

/-- A CSR.WR that nothing stands against: the instruction retires, and then the register is written. -/
theorem completes_csrWr {a : Nat} (hm : iMaj w.toNat = 0x1F) (hf : iF w.toNat = 5) (hd : iRd w.toNat = 0) (h3 : iRs3 w.toNat = 0)
    (hi : Issues s c p [iRs1 w.toNat, iRs2 w.toNat] []) (hs : (s.sp c p).super = true)
    (ha : a = ((s.sp c p).xr (iRs1 w.toNat)).toNat) (h8 : a % 8 = 0) (h40 : a < 2 ^ 40) (hopen : s.regShut a = false) :
    Completes (.csrWr c p w) s (fun t => ∃ u, OnlySp s u c p (cntRegs c) ∧ u.sp c p = (s.sp c p).past 4 ∧
      u.regThere a = s.regThere a ∧ t = u.writeReg (.proc (2 * c + p)) a ((s.sp c p).xr (iRs2 w.toNat))) := by
  subst ha
  refine ⟨_, exec_csrWr hm hf hd h3 hi, ?_⟩
  rw [csrGuard_address _ hs h8 h40, hopen]
  have hret := onlySp_count_retire s c p 0x43 8 4
  exact ⟨_, hret, sp_count_retire s c p 0x43 8 4,
    regThere_congr (variant_of_onlySp hret) (hret.regs _ _ _ _ (dieMap_not_mem_cntRegs c)) _, rfl⟩

/-- FPS delivers the flags, and clears those it names. -/
theorem completes_fps (hm : iMaj w.toNat = 0x1F) (hf : iF w.toNat = 9) (h2 : iRs2 w.toNat = 0) (h3 : iRs3 w.toNat = 0)
    (hi : Issues s c p [iRd w.toNat, iRs1 w.toNat] []) :
    Completes (.fps c p w) s (fun t =>
      t.sp c p = ((s.sp c p).setX (iRd w.toNat) (s.reg .CORE_FPSTAT c 0 0)).past 4 ∧
      t.reg .CORE_FPSTAT c 0 0 = s.reg .CORE_FPSTAT c 0 0 &&& w64 (0xF - bits ((s.sp c p).xr (iRs1 w.toNat)).toNat 3 0) ∧
      OnlySp s t c p (Reg.addr .CORE_FPSTAT c 0 0 :: cntRegs c)) := by
  refine ⟨_, congrArg Host.Outcome.next (issue_eff hi (isSys_of hm hf) (by simp [h2, h3]) _), ?_⟩
  dsimp only
  set v := s.reg .CORE_FPSTAT c 0 0 &&& w64 (0xF - bits ((s.sp c p).xr (iRs1 w.toNat)).toNat 3 0)
  have hset := onlyRegs_setReg s .CORE_FPSTAT c 0 0 v
  have hret := onlySp_retireX (s.setReg .CORE_FPSTAT c 0 0 v) c p (iRd w.toNat) (s.reg .CORE_FPSTAT c 0 0)
  refine ⟨?_, ?_, ?_⟩
  · rw [sp_retireX, hset.sp]
  · rw [hret.regs _ _ _ _ (fpStat_not_mem_cntRegs c), reg_setReg_self]
  · exact ((hset.onlySp c p).mono (by simp)).trans (hret.mono (fun b hb => List.mem_cons_of_mem _ hb))

end Rows

/-- Settles O11: each of the three rows goes through its guard, which answers the exception before the access. -/
theorem controlSpaceGuards : Obligations.ControlSpaceGuards := by
  intro s c p w hm
  refine ⟨fun hi h0 hf hu => ?_, fun hi hf h2 h3 => ⟨fun hu => ?_, fun hs ha => ?_⟩,
    fun hi hf hd h3 => ⟨fun hu => ?_, fun hs ha => ?_⟩⟩
  · exact ⟨_, exec_eret_user hm hf h0 hi hu, rfl⟩
  · refine ⟨_, exec_csrRd hm hf h2 h3 hi, ?_⟩
    rw [csrGuard_user _ hu, word_mod]
  · exact ⟨_, exec_csrRd hm hf h2 h3 hi, csrGuard_badAddress _ hs ha⟩
  · refine ⟨_, exec_csrWr hm hf hd h3 hi, ?_⟩
    rw [csrGuard_user _ hu, word_mod]
  · exact ⟨_, exec_csrWr hm hf hd h3 hi, csrGuard_badAddress _ hs ha⟩

/-- Settles O12: CSR.RD and CSR.WR by what a read and a write of control space do behind the guard, the other rows by what they retire with. -/
theorem specialRegisters : Obligations.SpecialRegisters := by
  intro s c p w hm h3
  refine ⟨fun a hf h2 hi hs ha h8 h40 => ⟨fun hshut => ?_, fun hopen => ?_⟩,
    fun a hf hd hi hs ha h8 h40 => ⟨fun hshut => ?_, fun hopen => ?_⟩,
    fun hf h2 hi => ?_, fun hf h0 hi => ?_, fun hf h2 hi => ?_, fun hf h0 hi => ?_⟩
  · subst ha
    refine ⟨_, exec_csrRd hm hf h2 h3 hi, ?_⟩
    rw [csrGuard_address _ hs h8 h40, if_pos hshut]
  · obtain ⟨t, ht, hsp, hrest⟩ := completes_csrRd hm hf h2 h3 hi hs ha h8 h40 hopen
    refine ⟨t, ht, hsp.trans ?_, hrest⟩
    cases hr : s.regThere a with
    | none => rw [readReg_unmapped hr]
    | some r => cases ho : (Who.proc (2 * c + p)).reaches r with
      | false => simp [readReg_closed hr ho, ho]
      | true => simp [readReg_open hr ho, ho]
  · subst ha
    refine ⟨_, exec_csrWr hm hf hd h3 hi, ?_⟩
    rw [csrGuard_address _ hs h8 h40, if_pos hshut]
  · obtain ⟨t, ht, u, hu, hsp, hthere, rfl⟩ := completes_csrWr hm hf hd h3 hi hs ha h8 h40 hopen
    refine ⟨_, ht, u, hu, hsp, ?_⟩
    cases hr : s.regThere a with
    | none => exact writeReg_unmapped _ _ (hthere.trans hr)
    | some r => exact writeReg_at _ _ (hthere.trans hr)
  · apply retires_of_retireX
    rw [← w64_rd_cntVal]
    exact congrArg Host.Outcome.next (issue_eff hi (isSys_of hm hf) (by simp [h2, h3]) _)
  · exact retires_of_retireX (congrArg Host.Outcome.next (issue_eff hi (isSys_of hm hf) (by simp [h0]) _))
  · obtain ⟨t, ht, hsp, hreg, hrest⟩ := completes_fps hm hf h2 h3 hi
    refine ⟨t, ht, hsp, ?_, hrest⟩
    rw [hreg, flagMask, BitVec.and_assoc]
  · exact retires_of_retireX (congrArg Host.Outcome.next (issue_eff hi (isSys_of hm hf) (by simp [h0]) _))

end Sys2Proof.Proofs.Scope

/-! PROOF of HalterLink: messages of the halter link and register writes of the control node (R17, R18, R264 to R267, R583). -/

namespace Sys2Proof.Proofs.Scope

open Sys2Proof Sys2Proof.Machine Sys2Proof.Laws

/-! ### What leaves on the link -/

/-- A message to a module that hears is answered: whatever can reach it lets it send. -/
theorem say_of_linkLit {s : State} (h : s.linkLit = true) (m : HMsg) : s.say m = { s with halter := s.halter ++ m.sent s.now } := by
  simp only [State.linkLit, State.alive, Bool.and_eq_true, Bool.not_eq_true'] at h
  obtain ⟨⟨⟨⟨⟨hup, -⟩, hoff⟩, -⟩, hstby⟩, hlink⟩ := h
  simp [State.say, hup, hoff, hstby, hlink]

/-- `t` comes of `s` by counting and logging: messages may have left on the halter link, whose fibre is as it was. -/
structure Logged (s t : State) : Prop where
  logs : OnlyLogs s t
  sent : ∃ l, t.halter = s.halter ++ l
  fibre : t.reg .PHO_FIB_STAT 0 128 0 = s.reg .PHO_FIB_STAT 0 128 0

section Logged

variable {s t u : State}

theorem Logged.refl (s : State) : Logged s s := ⟨OnlyLogs.refl s, ⟨[], (List.append_nil _).symm⟩, rfl⟩

theorem Logged.trans (h : Logged s t) (g : Logged t u) : Logged s u := by
  obtain ⟨l, hl⟩ := h.sent
  obtain ⟨m, hm⟩ := g.sent
  exact ⟨h.logs.trans g.logs, ⟨l ++ m, by rw [hm, hl, List.append_assoc]⟩, g.fibre.trans h.fibre⟩

theorem Logged.ite {c : Prop} [Decidable c] (h : Logged s t) (g : Logged s u) : Logged s (if c then t else u) := by
  split <;> assumption

/-- Logging leaves the link as it was: a message can still reach the module, and its answer leave. -/
theorem Logged.linkLit (h : Logged s t) : t.linkLit = s.linkLit := by
  have hup : t.halterUp = s.halterUp := by
    unfold State.halterUp
    rw [rd_of_reg (f := PHO_FIB_STAT.ROLE) h.fibre]
  have hrest := h.logs
  unfold OnlyLogs at hrest
  unfold State.linkLit State.alive
  rw [hup, hrest]

theorem Logged.now (h : Logged s t) : t.now = s.now := by
  have hrest := h.logs
  unfold OnlyLogs at hrest
  rw [hrest]

end Logged

/-! ### A read of L-space logs -/

theorem logged_setReg (s : State) {g : Reg} {n i j : Nat} (h : Reg.addr .PHO_FIB_STAT 0 128 0 ≠ g.addr n i j) (w : W64) :
    Logged s (s.setReg g n i j w) :=
  ⟨rfl, ⟨[], (List.append_nil _).symm⟩, reg_setReg_ne s h w⟩

theorem Logged.incWrap {s t : State} (h : Logged s t) (f : Fld) (k : Nat) {n i j : Nat}
    (hne : Reg.addr .PHO_FIB_STAT 0 128 0 ≠ f.reg.addr n i j) : Logged s (t.incWrap f k n i j) :=
  h.trans (logged_setReg t hne _)

/-- A register of a base die's loft is not that of the halter link's fibre. -/
theorem fibre_ne_loft {g : Reg} {b i : Nat} (hu : g.place.unit = .bdie) (ho : 0x200000 ≤ g.place.off + i * g.place.si)
    (hlt : g.place.off + i * g.place.si < 0x1000000) : Reg.addr .PHO_FIB_STAT 0 128 0 ≠ g.addr b i 0 := by
  have hfibre : Reg.addr .PHO_FIB_STAT 0 128 0 = 0x400011000 := rfl
  rw [hfibre]
  simp only [Reg.addr, hu, UnitKind.base, Nat.zero_mul]
  omega

theorem logged_trace (s : State) (x : SMap TraceUnit) : Logged s { s with trace := x } := ⟨rfl, ⟨[], (List.append_nil _).symm⟩, rfl⟩

theorem logged_traceAdd (s : State) (n typ sub : Nat) (w : W64) : Logged s (s.traceAdd n typ sub w) := by
  unfold State.traceAdd
  dsimp only
  split
  · exact logged_trace s _
  · have hne : Reg.addr .PHO_FIB_STAT 0 128 0 ≠ Reg.addr .OBS_STAT 0 0 0 := by decide
    exact (logged_trace s _).incWrap OBS_STAT.LOST 1 hne

theorem logged_say (s : State) (m : HMsg) : Logged s (s.say m) := by
  unfold State.say
  split
  · exact Logged.refl s
  · exact ⟨rfl, ⟨_, rfl⟩, rfl⟩

theorem logged_faultNote (s : State) (cls : Nat) (r : Reg) (n i : Nat) : Logged s (s.faultNote cls r n i) := by
  have hsay := (logged_say s (.fault cls (bits (r.addr n i 0) 39 16) (bits (s.reg r n i 0).toNat 31 0) s.time32)).ite
    (c := s.rdB FLT_CFG.NOTIFY = true) (Logged.refl s)
  unfold State.faultNote State.noteWith
  exact (hsay.trans (logged_traceAdd _ _ _ _ _)).ite hsay

/-- Counting a correctable error of the loft. -/
theorem logged_ceCount_loft (s : State) (b : Nat) :
    Logged s (s.ceCount ⟨LOFT_ECC.CE_COUNT, LOFT_ECC.THRESH, LOFT_ECC.THR_HIT, LOFT_ECC.IRQ_EN, b, 0⟩) := by
  have hecc : Reg.addr .PHO_FIB_STAT 0 128 0 ≠ Reg.addr .LOFT_ECC b 0 0 := fibre_ne_loft rfl (by decide) (by decide)
  have hcount : Logged s (s.incSat LOFT_ECC.CE_COUNT 1 b 0) := logged_setReg s hecc _
  have hhit : Logged (s.incSat LOFT_ECC.CE_COUNT 1 b 0) ((s.incSat LOFT_ECC.CE_COUNT 1 b 0).wr LOFT_ECC.THR_HIT 1 b 0) :=
    logged_setReg _ hecc _
  unfold State.ceCount
  exact hcount.ite (((hcount.trans hhit).trans (logged_faultNote _ 1 .LOFT_ECC b 0)).ite (hcount.trans hhit))

theorem logged_agentCode (s : State) (g : Agent) : Logged s (s.agentCode g).2 := by
  unfold State.agentCode
  split
  · exact ⟨rfl, ⟨[], (List.append_nil _).symm⟩, rfl⟩
  · exact Logged.refl s

/-- Counting an error of one of the loft's 64 banks. -/
theorem logged_bankCount (s : State) (b : Nat) {k : Nat} (hk : k < 64) : Logged s (s.incSat
    (bankFld [LOFT_BANKCNT.COUNT0, LOFT_BANKCNT.COUNT1, LOFT_BANKCNT.COUNT2, LOFT_BANKCNT.COUNT3,
      LOFT_BANKCNT.COUNT4, LOFT_BANKCNT.COUNT5, LOFT_BANKCNT.COUNT6, LOFT_BANKCNT.COUNT7] LOFT_BANKCNT.COUNT0 (k % 8)) 1 b (k / 8)) := by
  have hreg : ∀ m, m < 8 → (bankFld [LOFT_BANKCNT.COUNT0, LOFT_BANKCNT.COUNT1, LOFT_BANKCNT.COUNT2, LOFT_BANKCNT.COUNT3,
      LOFT_BANKCNT.COUNT4, LOFT_BANKCNT.COUNT5, LOFT_BANKCNT.COUNT6, LOFT_BANKCNT.COUNT7] LOFT_BANKCNT.COUNT0 m).reg = .LOFT_BANKCNT := by
    decide
  have hk8 : k / 8 < 8 := by omega
  refine logged_setReg s ?_ _
  rw [hreg _ (Nat.mod_lt _ (by norm_num))]
  exact fibre_ne_loft rfl (by simp only [Reg.place]; omega) (by simp only [Reg.place]; omega)

theorem logged_ceLoft (s : State) (a syn : Nat) (g : Agent) : Logged s (s.ceLoft a syn g) := by
  have hbank := logged_bankCount s (a / 0x8000000) (k := bits a 13 8) (Nat.mod_lt _ (by norm_num))
  have hlog : Reg.addr .PHO_FIB_STAT 0 128 0 ≠ Reg.addr .LOFT_ECCLOG (a / 0x8000000) 0 0 :=
    fibre_ne_loft rfl (by decide) (by decide)
  unfold State.ceLoft
  exact ((hbank.trans (logged_agentCode _ g)).trans ((Logged.refl _).ite (logged_setReg _ hlog _))).trans (logged_ceCount_loft _ _)

theorem logged_lRead (s : State) (a n : Nat) (g : Agent) : Logged s (s.lRead a n g).st :=
  List.foldlRecOn _ _ (Logged.refl s) (fun _ ht m _ => ht.trans (logged_ceLoft _ (m.1 - markKey 1 0) m.2 g))

/-! ### Loader messages (R266, R267) -/

/-- Upsets in L-space words leave fault marks, and nothing else. -/
theorem mark_loft (s : State) (ups : List Upset) :
    ∃ f, s.mark 1 0 ups = { s with mem := { s.mem with faults := f } } := by
  unfold State.mark
  split
  · exact ⟨s.mem.faults, rfl⟩
  · exact ⟨_, rfl⟩

/-- An LDRD of L-space that passes its checks answers the bytes that stand there; correctable errors met are logged before. -/
theorem completes_ldrd_loft {s : State} {h : V128} (ups : List Upset) (hlit : s.linkLit = true)
    (hcode : s.loadCode h.toNat false = 0) (hspace : bits h.toNat 9 8 = 1) :
    Completes (.ldrd h ups) s (fun t => ∃ l, t.halter = s.halter ++ l ++
        HMsg.sent (.ldrd 0 (bits h.toNat 31 16) (bits h.toNat 44 32)
          (SMap.range s.mem.loft 0 (bits h.toNat 127 64) (bits h.toNat 44 32))) s.now ∧
      t.mem = { s.mem with faults := t.mem.faults } ∧ t.cores = s.cores) := by
  obtain ⟨f, hf⟩ := mark_loft s ups
  have hread := logged_lRead (s.mark 1 0 ups) (bits h.toNat 127 64) (bits h.toNat 44 32) .loader
  have hexec : exec (.ldrd h ups) s = .next (((s.mark 1 0 ups).lRead (bits h.toNat 127 64) (bits h.toNat 44 32) .loader).st.say
      (.ldrd 0 (bits h.toNat 31 16) (bits h.toNat 44 32)
        (SMap.range (s.mark 1 0 ups).mem.loft 0 (bits h.toNat 127 64) (bits h.toNat 44 32)))) := by
    show execLdrd h ups s = _
    simp [execLdrd, hlit, hcode, hspace, State.memRead, lRead_data, lRead_ue]
  refine ⟨_, hexec, ?_⟩
  rw [hf] at hread ⊢
  set s' : State := { s with mem := { s.mem with faults := f } }
  obtain ⟨l, hl⟩ := hread.sent
  rw [say_of_linkLit (hread.linkLit.trans hlit)]
  set t := (s'.lRead (bits h.toNat 127 64) (bits h.toNat 44 32) .loader).st
  have hmem : t.mem = { s.mem with faults := t.mem.faults } := by rw [hread.logs.mem]
  refine ⟨l, ?_, hmem, hread.logs.cores⟩
  show t.halter ++ _ = _
  rw [hl, hread.now]

/-- An LDWR of L-space that passes its checks puts its data there, and is answered. -/
theorem completes_ldwr_loft {s : State} {h : V128} {d : List Byte} {a n : Nat} (hlit : s.linkLit = true) (hmem : s.memOk = true)
    (ha : a = bits h.toNat 127 64) (hn : n = bits h.toNat 44 32)
    (hcode : s.loadCode h.toNat true = 0) (hspace : bits h.toNat 9 8 = 1) (hlen : n ≤ d.length) :
    Completes (.ldwr h d) s (fun t =>
      t.halter = s.halter ++ HMsg.sent (.ldwr 0 (bits h.toNat 31 16)) s.now ∧ t.mem.hbm = s.mem.hbm ∧ t.csr = s.csr ∧ t.cores = s.cores ∧
      ∀ b, SMap.get t.mem.loft 0 b = if a ≤ b ∧ b < a + n then d.getD (b - a) 0 else SMap.get s.mem.loft 0 b) := by
  have hexec : exec (.ldwr h d) s = .next ((s.lWrite a (d.take n)).say (.ldwr 0 (bits h.toNat 31 16))) := by
    show execLdwr h d s = _
    subst ha hn
    simp [execLdwr, hlit, hcode, hspace, Nat.not_lt.2 hlen, State.memWrite, State.memWriteRd, Rd.ok]
  have hlit' : (s.lWrite a (d.take n)).linkLit = true := hlit
  refine ⟨_, hexec, ?_⟩
  rw [say_of_linkLit hlit']
  refine ⟨rfl, rfl, rfl, rfl, fun b => ?_⟩
  show SMap.get (s.lWrite a (d.take n)).mem.loft 0 b = _
  rw [lWrite_loft hmem, List.length_take_of_le hlen]
  split
  · next hb => rw [nth, List.getElem?_take_of_lt (by omega), List.getD_eq_getElem?_getD]
  · rfl

/-- A loader message that fails a check is answered with its code, and changes nothing. -/
theorem exec_ldrd_refused {s : State} {h : V128} (ups : List Upset) (hlit : s.linkLit = true) (hcode : s.loadCode h.toNat false ≠ 0) :
    exec (.ldrd h ups) s = .next (s.say (.ldrd (s.loadCode h.toNat false) (bits h.toNat 31 16) (bits h.toNat 44 32) [])) := by
  show execLdrd h ups s = _
  simp [execLdrd, hlit, hcode]

theorem exec_ldwr_refused {s : State} {h : V128} {d : List Byte} (hlit : s.linkLit = true)
    (hcode : d.length < bits h.toNat 44 32 ∨ s.loadCode h.toNat true ≠ 0) :
    ∃ k, k ≠ 0 ∧ exec (.ldwr h d) s = .next (s.say (.ldwr k (bits h.toNat 31 16))) := by
  refine ⟨if d.length < bits h.toNat 44 32 then 4 else s.loadCode h.toNat true, ?_, ?_⟩
  · split
    · decide
    · next hlen => exact hcode.resolve_left hlen
  · show execLdwr h d s = _
    by_cases hlen : d.length < bits h.toNat 44 32
    · simp [execLdwr, hlit, hlen]
    · simp [execLdwr, hlit, hlen, hcode.resolve_left hlen]

/-! ### Register messages (R265, R267) -/

section Registers

variable {s : State} (hlit : s.linkLit = true)

include hlit

/-- A REGRD by its code and by whether its register's core is shut. -/
theorem exec_regrd (m : V128) : exec (.regrd m) s = .next (
    if s.regCode m.toNat false ≠ 0 then s.say (.regrd (s.regCode m.toNat false) (bits m.toNat 31 16) 0)
    else if s.regShut (bits m.toNat 103 64) then s
    else ((s.readReg .halter (bits m.toNat 103 64)).2).say (.regrd 0 (bits m.toNat 31 16) (s.readReg .halter (bits m.toNat 103 64)).1)) := by
  show execRegrd m s = _
  simp only [execRegrd, hlit, Bool.not_true, Bool.false_eq_true, if_false]
  split
  · rfl
  · split <;> rfl

/-- A REGWR by its code and by whether its register's core is shut. -/
theorem exec_regwr (m : BitVec 192) : exec (.regwr m) s = .next (
    if s.regCode m.toNat true ≠ 0 then s.say (.regwr (s.regCode m.toNat true) (bits m.toNat 31 16))
    else if s.regShut (bits m.toNat 103 64) then s
    else (s.writeReg .halter (bits m.toNat 103 64) (w64 (bits m.toNat 191 128))).say (.regwr 0 (bits m.toNat 31 16))) := by
  show execRegwr m s = _
  simp only [execRegwr, hlit, Bool.not_true, Bool.false_eq_true, if_false]
  split
  · rfl
  · split <;> rfl

end Registers

/-- A register of no unit that every variant decodes at its address is there. -/
theorem regThere_of_regAt {g : Reg} (s : State) (hat : ∀ v, regAt v (g.addr 0 0 0) = some ⟨g, 0, 0, 0⟩)
    (hmap : s.mapped ⟨g, 0, 0, 0⟩ = true) : s.regThere (g.addr 0 0 0) = some ⟨g, 0, 0, 0⟩ := by
  simp only [State.regThere, hat, hmap, if_true]

theorem regThere_glbTime (s : State) : s.regThere (Reg.addr .GLB_TIME 0 0 0) = some ⟨.GLB_TIME, 0, 0, 0⟩ :=
  regThere_of_regAt s (fun v => by cases v <;> decide +kernel) rfl

theorem regThere_thmCfg (s : State) : s.regThere (Reg.addr .THM_CFG 0 0 0) = some ⟨.THM_CFG, 0, 0, 0⟩ :=
  regThere_of_regAt s (fun v => by cases v <;> decide +kernel) rfl

/-- A read of GLB_TIME delivers the timebase, and changes nothing (R39). -/
theorem readReg_glbTime (s : State) (who : Who) : s.readReg who (Reg.addr .GLB_TIME 0 0 0) = (w64 s.now, s) := by
  rw [readReg_open (regThere_glbTime s) rfl]
  exact congrArg (Prod.mk _) (if_pos rfl)

/-! ### Register writes of the control node (R583) -/

/-- A register that no core holds is never shut. -/
theorem regShut_of_not_core {s : State} {a : Nat} {r : RegAt} (h : s.regThere a = some r) (hr : r.reg.place.unit ≠ .core) :
    s.regShut a = false := by
  simp [State.regShut, h, hr]

/-- A write of the control node that nothing stands against is a write of its register. -/
theorem exec_registerWrite_ready {s : State} {a : Nat} (v : W64) (hlit : s.linkLit = true) (hready : s.boot.stage = 12) (h8 : a % 8 = 0)
    (hopen : s.regShut a = false) : exec (.registerWrite a v) s = .next (s.writeReg .halter a v) := by
  show execRegisterWrite a v s = _
  simp [execRegisterWrite, State.regOpen, State.isReady, hlit, hready, h8, hopen]

/-- A write that is misaligned, that finds no register, whose register's core is shut, or that comes too early has no effect. -/
theorem exec_registerWrite_ignored {s : State} {a : Nat} (v : W64)
    (h : a % 8 ≠ 0 ∨ s.regThere a = none ∨ s.regShut a = true ∨ (s.boot.stage ≠ 12 ∧ a ≠ Reg.addr .FLT_CTL 0 0 0)) :
    exec (.registerWrite a v) s = .next s := by
  refine congrArg Host.Outcome.next (ite_eq_right_iff.2 fun hgo => ?_)
  simp only [State.regOpen, State.isReady, if_true, Bool.and_eq_true, Bool.or_eq_true, beq_iff_eq, Bool.not_eq_true'] at hgo
  obtain ⟨⟨⟨-, h8⟩, hready⟩, hopen⟩ := hgo
  rcases h with h | h | h | ⟨h, hflt⟩
  · exact absurd h8 h
  · exact writeReg_unmapped _ _ h
  · exact absurd h (by simp [hopen])
  · exact absurd hready (by simp [h, hflt])

/-- A write of THM_CFG is a write of its one field. -/
theorem writeReg_thmCfg (s : State) (v : W64) : s.writeReg .halter (Reg.addr .THM_CFG 0 0 0) v = s.wr THM_CFG.T0 (THM_CFG.T0.get v) := by
  exact (writeReg_at _ v (regThere_thmCfg s)).trans rfl

/-- GLB_TIME is read-only: a write leaves its word (R18). -/
theorem writeReg_glbTime (s : State) (who : Who) (v : W64) :
    s.writeReg who (Reg.addr .GLB_TIME 0 0 0) v = s.setReg .GLB_TIME 0 0 0 (s.reg .GLB_TIME 0 0 0) := by
  exact (writeReg_at _ v (regThere_glbTime s)).trans rfl

theorem completes_write_thmCfg {s : State} (v : W64) (hlit : s.linkLit = true) (hready : s.boot.stage = 12) :
    Completes (.registerWrite (Reg.addr .THM_CFG 0 0 0) v) s (fun t =>
      t.rd THM_CFG.T0 = bits v.toNat 10 0 ∧ OnlyRegs s t [Reg.addr .THM_CFG 0 0 0]) := by
  refine ⟨_, exec_registerWrite_ready v hlit hready rfl (regShut_of_not_core (regThere_thmCfg s) (by decide)), ?_⟩
  rw [writeReg_thmCfg]
  exact ⟨(rd_wr_self s THM_CFG.T0 _ 0 0 0 (by decide) (by decide)).trans (Nat.mod_mod _ _), onlyRegs_wr s THM_CFG.T0 _ 0 0 0⟩

theorem completes_write_glbTime {s : State} (v : W64) (hlit : s.linkLit = true) (hready : s.boot.stage = 12) :
    Completes (.registerWrite (Reg.addr .GLB_TIME 0 0 0) v) s (fun t =>
      t.reg .GLB_TIME 0 0 0 = s.reg .GLB_TIME 0 0 0 ∧ OnlyRegs s t [Reg.addr .GLB_TIME 0 0 0]) := by
  refine ⟨_, exec_registerWrite_ready v hlit hready rfl (regShut_of_not_core (regThere_glbTime s) (by decide)), ?_⟩
  rw [writeReg_glbTime]
  exact ⟨reg_setReg_self s _ _ _ _ _, onlyRegs_setReg s _ _ _ _ _⟩

/-! ### Frames of the link (R264) -/

/-- Each frame of a message carries its part of the message, 1,024 bytes at most, and the CRC-32C over it. -/
theorem sent_frame {m : HMsg} {now k : Nat} {x : HFrame} (h : (m.sent now)[k]? = some x) :
    x.part = k ∧ x.msg = m ∧
      x.bytes = (m.bytes.drop (1024 * k)).take 1024 ++ leBytes 4 (crc32c ((m.bytes.drop (1024 * k)).take 1024)) := by
  rw [HMsg.sent, List.getElem?_map, Option.map_eq_some_iff] at h
  obtain ⟨i, hi, rfl⟩ := h
  obtain ⟨hk, rfl⟩ := List.getElem?_eq_some_iff.1 hi
  rw [List.getElem_range]
  exact ⟨rfl, rfl, rfl⟩

/-- A frame that has left and stands unacknowledged: the other end acknowledges it, or after 2 us it is sent again. -/
theorem exec_resend {s : State} {f : Nat} {x : HFrame} (hlit : s.linkLit = true) (hx : s.halter[f]? = some x) (acked : Bool) :
    exec (.halterFrameResend ⟨f, acked, none⟩) s = .next (
      if x.acked then s
      else if acked then { s with halter := s.halter.set f { x with acked := true } }
      else if x.sentAt + 2000 ≤ s.now then { s with halter := s.halter.set f { x with sentAt := s.now, resends := x.resends + 1 } }
      else s) := by
  show execHalterFrameResend ⟨f, acked, none⟩ s = _
  simp only [execHalterFrameResend, hx, hlit, Bool.not_true, Bool.false_or]
  cases x.acked <;> cases acked <;> simp only [if_true, if_false, Bool.false_eq_true]
  split <;> rfl

/-- A frame that comes in is taken where it is whole. -/
theorem exec_frameCame {s : State} (hlit : s.linkLit = true) (f : Nat) (acked : Bool) (d : List Byte) (crc : W32) :
    exec (.halterFrameResend ⟨f, acked, some (d, crc)⟩) s = .next (s.frameIn d crc) := by
  show execHalterFrameResend ⟨f, acked, some (d, crc)⟩ s = _
  simp only [execHalterFrameResend, hlit, if_true]

/-- A message of a kind that the module does not know is answered with REJECT. -/
theorem exec_reject {s : State} (hlit : s.linkLit = true) (m : Byte) :
    exec (.reject m) s = .next (if msgKnown m.toNat then s else s.say (.reject m.toNat)) := by
  show execReject m s = _
  cases hk : msgKnown m.toNat <;> simp [execReject, hlit, hk]

theorem msgKnown_iff (m : Nat) : msgKnown m = true ↔ m ∈ [0x01, 0x02, 0x03, 0x04, 0x21, 0x30, 0x40, 0x50, 0x51] :=
  List.contains_iff_mem

/-- Settles O39: each kind of message by its row's equation, an answer leaving because the link that brought the message is up. -/
theorem halterLink : Obligations.HalterLink := by
  intro s hlit hmem
  have hsay := say_of_linkLit hlit
  refine ⟨fun m => ?regrd, fun m => ?regwr, fun h ups => ?ldrd, fun h d a n ha hn => ?ldwr, fun m => ?reject,
    fun f x hx hack => ?resend, fun f x acked hx hack => ?acked, fun f acked d crc => ?came, fun m k x hx => ?sent, fun a v => ?write⟩
  case regrd =>
    refine ⟨fun hc hshut => ⟨_, exec_regrd hlit m, ?_⟩, fun hc hopen => ⟨_, exec_regrd hlit m, ?_⟩, fun hc => ⟨_, exec_regrd hlit m, ?_⟩⟩
    · simp [hc, hshut]
    · simp only [hc, hopen, ne_eq, not_true_eq_false, if_false, Bool.false_eq_true, true_and]
      refine ⟨fun ha => ?_, fun hnone => ?_⟩
      · rw [ha, readReg_glbTime, hsay]
      · rw [readReg_unmapped hnone, hsay]
    · simp [hc, hsay]
  case regwr =>
    refine ⟨fun hc hshut => ⟨_, exec_regwr hlit m, ?_⟩, fun hc hopen => ⟨_, exec_regwr hlit m, ?_⟩, fun hc => ⟨_, exec_regwr hlit m, ?_⟩⟩
    · simp [hc, hshut]
    · simp [hc, hopen]
    · simp [hc, hsay]
  case ldrd => exact ⟨completes_ldrd_loft ups hlit, fun hc => ⟨_, exec_ldrd_refused ups hlit hc, hsay _⟩⟩
  case ldwr =>
    refine ⟨completes_ldwr_loft hlit hmem ha hn, fun hc => ?_⟩
    obtain ⟨k, hk, hexec⟩ := exec_ldwr_refused (d := d) hlit (hn ▸ hc)
    exact ⟨_, hexec, k, hk, hsay _⟩
  case reject =>
    refine ⟨fun hm => ⟨_, exec_reject hlit m, ?_⟩, fun hm => ⟨_, exec_reject hlit m, ?_⟩⟩
    · rw [if_neg (fun h => hm ((msgKnown_iff _).1 h)), hsay]
    · rw [if_pos ((msgKnown_iff _).2 hm)]
  case resend =>
    refine ⟨⟨_, exec_resend hlit hx true, ?_⟩, fun hdue => ⟨_, exec_resend hlit hx false, ?_⟩,
      fun hnot => ⟨_, exec_resend hlit hx false, ?_⟩⟩
    · simp [hack]
    · simp [hack, hdue]
    · simp [hack, Nat.not_le.2 hnot]
  case acked => exact ⟨_, exec_resend hlit hx acked, if_pos hack⟩
  case came => exact ⟨_, exec_frameCame hlit f acked d crc, rfl⟩
  case sent => exact sent_frame hx
  case write =>
    refine ⟨fun h => ⟨s, exec_registerWrite_ignored v h, rfl⟩, ?_, ?_⟩
    · rintro hready rfl
      exact completes_write_thmCfg v hlit hready
    · rintro hready rfl
      exact completes_write_glbTime v hlit hready

end Sys2Proof.Proofs.Scope

/-! PROOF of StepRunsCommand: one step, and the writes of flash that end at a tick (R39, R589, R594, R603). -/

namespace Sys2Proof.Proofs.Module

open Sys2Proof Sys2Proof.Machine Sys2Proof.Laws

/-! ### A tick, part by part -/

/-- The part of a tick that counts time. -/
def clockTick (s : State) : State :=
  { s with now := s.now + 1, jobNs := if s.que.qs.any (fun e => e.2.st != 0) then s.jobNs + 1 else s.jobNs }

/-- The part of a tick that ends a write of user calibration. -/
def ucalTick (s : State) : State :=
  match s.boot.ucalNew with
  | some e => if e.1 ≤ s.now then s.ucalEnd else s
  | none => s

/-- The part of a tick that ends an image update. -/
def updateTick (s : State) : State :=
  match s.boot.update with
  | some u => if u.doneAt ≤ s.now then s.updateEnd else s
  | none => s

theorem tick_eq (s : State) : s.tick = (clockTick s).flashTick := rfl

theorem flashTick_eq (s : State) : s.flashTick = updateTick (ucalTick s) := rfl

/-- Flash once an update with this image has ended: the image stands in its slot. -/
def withImage (f : Flash) (image : Option (Nat × List Byte)) : Flash :=
  match image with
  | some (0, d) => { f with slot0 := d }
  | some (_ + 1, d) => { f with slot1 := d }
  | none => f

theorem withImage_slots (f : Flash) (image : Option (Nat × List Byte)) :
    withImage f image = { f with
      slot0 := (match image with
        | some (0, d) => d
        | _ => f.slot0)
      slot1 := (match image with
        | some (_ + 1, d) => d
        | _ => f.slot1) } := by
  match image with
  | none => rfl
  | some (0, d) => rfl
  | some (_ + 1, d) => rfl

/-! ### What each part does -/

section Parts

variable {s : State}

theorem ucalTick_later (h : ∀ e, s.boot.ucalNew = some e → s.now < e.1) : ucalTick s = s := by
  unfold ucalTick
  split
  · next e he => exact if_neg (Nat.not_le.2 (h e he))
  · rfl

theorem ucalTick_over {e : Nat × Ucal} (he : s.boot.ucalNew = some e) (h : e.1 ≤ s.now) :
    ucalTick s = State.showBusy { s with boot := { s.boot with
      ucalNew := none, flash := { s.boot.flash with ucal := s.boot.flash.ucal.write e.2 } } } := by
  simp only [ucalTick, State.ucalEnd, he, if_pos h]

theorem updateTick_later (h : ∀ u, s.boot.update = some u → s.now < u.doneAt) : updateTick s = s := by
  unfold updateTick
  split
  · next u hu => exact if_neg (Nat.not_le.2 (h u hu))
  · rfl

theorem updateTick_over {u : Update} (hu : s.boot.update = some u) (h : u.doneAt ≤ s.now) :
    updateTick s = (State.showBusy { s with boot := { s.boot with
      update := none, flash := withImage s.boot.flash u.image } }).wr BOOT_FLUPD.RESULT u.result := by
  have hend : s.updateEnd = (State.showBusy { s with boot := { s.boot with
      update := none, flash := withImage s.boot.flash u.image } }).wr BOOT_FLUPD.RESULT u.result := by
    simp only [State.updateEnd, hu]
    match u.image with
    | none => rfl
    | some (0, d) => rfl
    | some (_ + 1, d) => rfl
  rw [← hend]
  simp only [updateTick, hu, if_pos h]

theorem onlyRegs_showBusy (s : State) : OnlyRegs s s.showBusy [Reg.addr .BOOT_UCAL 0 0 0] := onlyRegs_wr s BOOT_UCAL.BUSY _ 0 0 0

end Parts

/-! ### The frame of a tick -/

/-- Only what a write of flash that ends may change differs: flash, the writes that run, and what BOOT_UCAL and BOOT_FLUPD show. -/
structure FlashMoves (s t : State) : Prop where
  regs : OnlyRegs { s with boot := t.boot } t [Reg.addr .BOOT_UCAL 0 0 0, Reg.addr .BOOT_FLUPD 0 0 0]
  boot : t.boot = { s.boot with ucalNew := t.boot.ucalNew, update := t.boot.update, flash := t.boot.flash }

section Frame

variable {s t u : State}

theorem FlashMoves.refl (s : State) : FlashMoves s s := ⟨OnlyRegs.refl s _, rfl⟩

theorem FlashMoves.trans (h : FlashMoves s t) (g : FlashMoves t u) : FlashMoves s u := by
  refine ⟨⟨?_, fun r n i j hr => (g.regs.regs r n i j hr).trans (h.regs.regs r n i j hr)⟩, ?_⟩
  · rw [g.regs.rest, h.regs.rest]
  · rw [g.boot, h.boot]

theorem FlashMoves.now (h : FlashMoves s t) : t.now = s.now := by rw [h.regs.rest]

/-- A write of flash that ends moves the frame of a tick only. -/
theorem flashMoves_showBusy (x : Option (Nat × Ucal)) (y : Option Update) (f : Flash) :
    FlashMoves s (State.showBusy { s with boot := { s.boot with ucalNew := x, update := y, flash := f } }) :=
  ⟨(onlyRegs_showBusy { s with boot := { s.boot with ucalNew := x, update := y, flash := f } }).mono (by simp), rfl⟩

theorem flashMoves_ucalTick (s : State) : FlashMoves s (ucalTick s) := by
  by_cases h : ∀ e, s.boot.ucalNew = some e → s.now < e.1
  · rw [ucalTick_later h]
    exact FlashMoves.refl s
  · push Not at h
    obtain ⟨e, he, hover⟩ := h
    rw [ucalTick_over he hover]
    exact flashMoves_showBusy none s.boot.update _

theorem flashMoves_updateTick (s : State) : FlashMoves s (updateTick s) := by
  by_cases h : ∀ u, s.boot.update = some u → s.now < u.doneAt
  · rw [updateTick_later h]
    exact FlashMoves.refl s
  · push Not at h
    obtain ⟨u, hu, hover⟩ := h
    rw [updateTick_over hu hover]
    refine (flashMoves_showBusy s.boot.ucalNew none (withImage s.boot.flash u.image)).trans ⟨?_, rfl⟩
    exact (onlyRegs_wr _ BOOT_FLUPD.RESULT u.result 0 0 0).mono (by simp [BOOT_FLUPD.RESULT])

end Frame

/-! ### What each part leaves to the other -/

/-- The end of a write of user calibration leaves an update that runs, and the slots. -/
theorem ucalTick_keeps (s : State) : (ucalTick s).boot.update = s.boot.update ∧
    (ucalTick s).boot.flash.slot0 = s.boot.flash.slot0 ∧ (ucalTick s).boot.flash.slot1 = s.boot.flash.slot1 := by
  unfold ucalTick
  split
  · next e he =>
    split
    · simp only [State.ucalEnd, he]
      exact ⟨rfl, rfl, rfl⟩
    · exact ⟨rfl, rfl, rfl⟩
  · exact ⟨rfl, rfl, rfl⟩

/-- The end of an update leaves user calibration. -/
theorem updateTick_keeps (s : State) : (updateTick s).boot.ucalNew = s.boot.ucalNew ∧
    (updateTick s).boot.flash.ucal = s.boot.flash.ucal := by
  by_cases h : ∀ u, s.boot.update = some u → s.now < u.doneAt
  · rw [updateTick_later h]
    exact ⟨rfl, rfl⟩
  · push Not at h
    obtain ⟨u, hu, hover⟩ := h
    rw [updateTick_over hu hover, withImage_slots]
    exact ⟨rfl, rfl⟩

/-- BUSY reads 0 where nothing is being written. -/
theorem rd_showBusy_idle {s : State} (hu : s.boot.ucalNew = none) (hi : s.boot.update = none) : s.showBusy.rd BOOT_UCAL.BUSY = 0 := by
  simp only [State.showBusy, hu, hi]
  exact rd_wr_self s BOOT_UCAL.BUSY 0 0 0 0 (by decide) (by decide)

/-! ### Writes of flash that end at a tick -/

section Ends

variable {s : State}

theorem flashTick_later (hu : ∀ e, s.boot.ucalNew = some e → s.now < e.1) (hi : ∀ u, s.boot.update = some u → s.now < u.doneAt) :
    s.flashTick = s := by
  rw [flashTick_eq, ucalTick_later hu, updateTick_later hi]

/-- A write of user calibration that is over: flash holds it, and BUSY falls unless an update runs. -/
theorem flashTick_ucal {e : Nat × Ucal} (he : s.boot.ucalNew = some e) (h : e.1 ≤ s.now) :
    s.flashTick.boot.ucalNew = none ∧ s.flashTick.boot.flash.ucal = s.boot.flash.ucal.write e.2 ∧
      (s.boot.update = none → s.flashTick.rd BOOT_UCAL.BUSY = 0) := by
  obtain ⟨hnew, hcal⟩ := updateTick_keeps (ucalTick s)
  have hover := ucalTick_over he h
  rw [flashTick_eq, hnew, hcal]
  refine ⟨by rw [hover]; rfl, by rw [hover]; rfl, fun hi => ?_⟩
  rw [updateTick_later (by simp [ucalTick_keeps, hi]), hover]
  exact rd_showBusy_idle rfl hi

/-- An update that is over: its slot holds the image, and RESULT shows how it went. -/
theorem flashTick_update {u : Update} (hu : s.boot.update = some u) (h : u.doneAt ≤ s.now) :
    s.flashTick.boot.update = none ∧ s.flashTick.rd BOOT_FLUPD.RESULT = u.result % 4 ∧
      s.flashTick.boot.flash.slot0 = (withImage s.boot.flash u.image).slot0 ∧
      s.flashTick.boot.flash.slot1 = (withImage s.boot.flash u.image).slot1 := by
  obtain ⟨hrun, h0, h1⟩ := ucalTick_keeps s
  have hover := updateTick_over (hrun.trans hu) (h.trans_eq (flashMoves_ucalTick s).now.symm)
  rw [flashTick_eq, hover]
  refine ⟨rfl, rd_wr_self _ BOOT_FLUPD.RESULT u.result 0 0 0 (by decide) (by decide), ?_, ?_⟩
  · show (withImage _ _).slot0 = _
    simp only [withImage_slots, h0]
  · show (withImage _ _).slot1 = _
    simp only [withImage_slots, h1]

end Ends

/-- Settles O57: a step on an empty queue counts time, and then each of the two parts of a tick of flash ends what is over. -/
theorem stepRunsCommand : Obligations.StepRunsCommand := by
  intro s
  refine ⟨fun c r h => by simp only [step, h], fun hempty => ⟨s.tick, by simp only [step, hempty], ?_⟩⟩
  rw [tick_eq]
  have hmoves : FlashMoves (clockTick s) (clockTick s).flashTick := (flashMoves_ucalTick _).trans (flashMoves_updateTick _)
  obtain ⟨⟨hrest, hregs⟩, hboot⟩ := hmoves
  refine ⟨?_, ⟨?_, hregs⟩, hboot, ?_, fun hu hi => ?_, fun e he h => flashTick_ucal (s := clockTick s) he h, fun u hu h => ?_⟩
  · rw [hrest]
    rfl
  · rw [hrest]
    rfl
  · rw [hrest]
    rfl
  · rw [flashTick_later (s := clockTick s) hu hi]
    exact ⟨rfl, rfl⟩
  · obtain ⟨hend, hresult, h0, h1⟩ := flashTick_update (s := clockTick s) hu h
    rw [withImage_slots] at h0 h1
    exact ⟨hend, hresult, h0, h1⟩

end Sys2Proof.Proofs.Module

/-! PROOF of WinnowAndTrace, first part: fields that stand apart in a register, and winnow (R558 to R562). -/

namespace Sys2Proof.Proofs.Module

open Sys2Proof Sys2Proof.Machine Sys2Proof.Laws

/-! ### Fields that stand apart in one register -/

theorem testBit_bits (x hi lo k : Nat) : (bits x hi lo).testBit k = (decide (k < hi + 1 - lo) && x.testBit (lo + k)) := by
  rw [bits, Nat.testBit_mod_two_pow, Nat.testBit_shiftRight]

theorem testBit_setBits {x hi lo v : Nat} (h : lo ≤ hi) (k : Nat) :
    (setBits x hi lo v).testBit k = if lo ≤ k ∧ k ≤ hi then v.testBit (k - lo) else x.testBit k := by
  have hsum : setBits x hi lo v = 2 ^ lo * (2 ^ (hi + 1 - lo) * (x >>> (hi + 1)) + v % 2 ^ (hi + 1 - lo)) + x % 2 ^ lo := by
    have hpow : (2 : Nat) ^ (hi + 1) = 2 ^ lo * 2 ^ (hi + 1 - lo) := by rw [← Nat.pow_add]; congr 1; omega
    simp only [setBits, Nat.shiftLeft_eq, hpow]
    ring
  rw [hsum, Nat.testBit_two_pow_mul_add _ (Nat.mod_lt _ (by positivity)), Nat.testBit_two_pow_mul_add _ (Nat.mod_lt _ (by positivity)),
    Nat.testBit_mod_two_pow, Nat.testBit_mod_two_pow, Nat.testBit_shiftRight]
  by_cases h1 : k < lo
  · simp [h1, Nat.not_le.2 h1]
  · by_cases h2 : k ≤ hi
    · have hlt : k - lo < hi + 1 - lo := by omega
      simp [h1, h2, hlt, Nat.not_lt.1 h1]
    · have hge : ¬ k - lo < hi + 1 - lo := by omega
      simp only [h1, h2, hge, if_false, and_false]
      congr 1
      omega

/-- Two fields have no bit in common. -/
abbrev Apart (f g : Fld) : Prop := f.hi < g.lo ∨ g.hi < f.lo

/-- A field keeps its value where one that stands apart from it is written. -/
theorem get_put_apart {f g : Fld} (w : W64) (v : Nat) (h : Apart f g) (hg : g.lo ≤ g.hi) (hf : f.hi < 64) :
    f.get (g.put w v) = f.get w := by
  apply Nat.eq_of_testBit_eq
  intro k
  simp only [Fld.get, Fld.put, testBit_bits, BitVec.toNat_ofNat, Nat.testBit_mod_two_pow, testBit_setBits hg]
  by_cases hk : k < f.hi + 1 - f.lo
  · have h64 : f.lo + k < 64 := by omega
    have hout : ¬ (g.lo ≤ f.lo + k ∧ f.lo + k ≤ g.hi) := by
      unfold Apart at h
      omega
    simp only [h64, hout, if_false, decide_true, Bool.true_and]
  · simp only [hk, decide_false, Bool.false_and]

section Registers

variable {s t : State}

/-- A register that may not differ reads the same by each of its fields. -/
theorem rd_of_regsBut {l : List Nat} (h : RegsBut s t l) {f : Fld} {n i j : Nat} (hf : f.reg.addr n i j ∉ l) :
    t.rd f n i j = s.rd f n i j := rd_of_reg (h _ _ _ _ hf)

/-- Registers are as they were where control space is. -/
theorem reg_of_csr (h : t.csr = s.csr) (g : Reg) (n i j : Nat) : t.reg g n i j = s.reg g n i j := by
  unfold State.reg
  rw [h]

theorem rd_wr_apart {f g : Fld} (hr : g.reg = f.reg) (v n i j : Nat) (h : Apart f g) (hg : g.lo ≤ g.hi) (hf : f.hi < 64) :
    (s.wr g v n i j).rd f n i j = s.rd f n i j := by
  unfold State.rd State.wr
  rw [hr, reg_setReg_self, get_put_apart _ _ h hg hf]

/-- A counter that stops at its greatest value, counted up. -/
theorem rd_incSat_self (f : Fld) (k n i j : Nat) (h : f.lo ≤ f.hi) (h64 : f.hi < 64) :
    (s.incSat f k n i j).rd f n i j = min f.top (s.rd f n i j + k) := by
  refine (rd_wr_self s f _ n i j h h64).trans (Nat.mod_eq_of_lt ?_)
  have hpos : 0 < 2 ^ (f.hi + 1 - f.lo) := by positivity
  unfold Fld.top
  omega

/-- A counter that wraps, counted up. -/
theorem rd_incWrap_self (f : Fld) (k n i j : Nat) (h : f.lo ≤ f.hi) (h64 : f.hi < 64) :
    (s.incWrap f k n i j).rd f n i j = (s.rd f n i j + k) % 2 ^ (f.hi + 1 - f.lo) := rd_wr_self s f _ n i j h h64

end Registers

/-! ### Winnow states of cores -/

section Winnow

variable {s : State} {c : Nat}

@[simp] theorem wnwOf_modWnw_self (s : State) (c : Nat) (f : Wnw → Wnw) : (s.modWnw c f).wnwOf c = f (s.wnwOf c) :=
  smap_get_upd_self _ _ _ _

theorem wnwOf_modWnw_ne (s : State) {c k : Nat} (h : k ≠ c) (f : Wnw → Wnw) : (s.modWnw c f).wnwOf k = s.wnwOf k :=
  smap_get_upd_ne _ _ _ h

/-- A core that is free does not run a kernel of winnow's. -/
theorem running_of_coreFree (h : s.coreFree c = true) : (s.wnwOf c).running = false := by
  simp only [State.coreFree, Bool.and_eq_true, Bool.not_eq_true'] at h
  exact h.2

/-- Being free does not depend on being marked forced. -/
theorem coreFree_mark (s : State) (c : Nat) : (s.modWnw c (fun w => { w with forced := true })).coreFree c = s.coreFree c := by
  simp only [State.coreFree, State.coreSt, wnwOf_modWnw_self]
  rfl

/-- Marking a core forced starts its pass at once where the core is free. -/
theorem markForced (hen : s.rdB WNW_CFG.EN = true) (hidle : (s.wnwOf c).running = false) :
    let t := (s.modWnw c (fun w => { w with forced := true })).wnwKick c
    t.wnwOf c = { s.wnwOf c with forced := true, running := s.coreFree c } ∧ (∀ k, k ≠ c → t.wnwOf k = s.wnwOf k) ∧
      t = { s with wnw := t.wnw } := by
  have hen' : (s.modWnw c (fun w => { w with forced := true })).rdB WNW_CFG.EN = true := hen
  simp only [State.wnwKick, wnwOf_modWnw_self, hen', coreFree_mark, Bool.true_and]
  cases hfree : s.coreFree c
  · refine ⟨?_, fun k hk => wnwOf_modWnw_ne s hk _, rfl⟩
    simp [hidle]
  · refine ⟨?_, fun k hk => ?_, rfl⟩
    · simp
    · simp [wnwOf_modWnw_ne _ hk]

/-! ### The scheduler (R560, R561) -/

theorem mem_of_mem_oldestPass {l : List Nat} (h : c ∈ s.oldestPass l) : c ∈ l := List.mem_of_mem_filter h

/-- Where there is a core to choose, one is chosen; a free value may be used. -/
theorem anyOf_of_ne_nil (s : State) {l : List Nat} (h : l ≠ []) : ∃ c ∈ l, ∃ n, s.anyOf l = (some c, { s with free := n }) := by
  match l with
  | [] => exact absurd rfl h
  | [c] => exact ⟨c, List.mem_singleton_self c, s.free, rfl⟩
  | c :: d :: r =>
    have hlt : s.free64.1.toNat % ((d :: r).length + 1) < (c :: d :: r).length := Nat.mod_lt _ (Nat.succ_pos _)
    refine ⟨nth (c :: d :: r) c (s.free64.1.toNat % ((d :: r).length + 1)), ?_, s.free + 1, rfl⟩
    rw [nth, List.getElem?_eq_getElem hlt]
    exact List.getElem_mem hlt

theorem exec_winnowSchedule {d : Nat} (hd : d < s.variant.cdies) (hen : s.rdB WNW_CFG.EN = true) (ha : s.alive = true)
    (hs : s.stby.inStby = false) (h8 : 8 ≤ s.boot.stage) (h12 : s.boot.stage ≤ 12) :
    exec (.winnowSchedule d) s = .next (s.wnwDie d) := by
  show execWinnowSchedule d s = _
  simp [execWinnowSchedule, hd, hen, ha, hs, h8, h12]

/-- Winnow off, a die that the variant lacks, or one of whose cores runs a kernel already: nothing is done. -/
theorem exec_winnowSchedule_idle {d : Nat}
    (h : s.rdB WNW_CFG.EN = false ∨ s.variant.cdies ≤ d ∨ ∃ c ∈ dieCores d, (s.wnwOf c).running = true) :
    exec (.winnowSchedule d) s = .next s := by
  refine congrArg Host.Outcome.next (ite_eq_right_iff.2 fun hgo => ?_)
  simp only [Bool.and_eq_true, decide_eq_true_eq] at hgo
  obtain ⟨⟨⟨⟨⟨hd, hen⟩, -⟩, -⟩, -⟩, -⟩ := hgo
  rcases h with h | h | ⟨c, hc, hrun⟩
  · exact absurd hen (by simp [h])
  · exact absurd hd (Nat.not_lt.2 h)
  · exact if_pos (List.any_eq_true.2 ⟨c, hc, hrun⟩)

section Die

variable {d : Nat} (hquiet : ∀ c ∈ dieCores d, (s.wnwOf c).running = false)

include hquiet

theorem none_running : (dieCores d).any (fun c => (s.wnwOf c).running) = false := by simpa using hquiet

/-- A forced core that has become free goes first. -/
theorem wnwDie_forced {c : Nat} (h : (dieCores d).find? (fun c => (s.wnwOf c).forced && s.coreFree c) = some c) :
    s.wnwDie d = s.wnwRun c := by
  simp only [State.wnwDie, none_running hquiet, h, Bool.false_eq_true, if_false]

variable (hnone : (dieCores d).find? (fun c => (s.wnwOf c).forced && s.coreFree c) = none)

include hnone

/-- Then the core for which an idle slot is chosen. -/
theorem wnwDie_idle {c n : Nat}
    (h : s.anyOf (s.oldestPass ((dieCores d).filter s.idleLong)) = (some c, { s with free := n })) :
    s.wnwDie d = State.wnwRun { s with free := n } c := by
  simp only [State.wnwDie, none_running hquiet, hnone, h, Bool.false_eq_true, if_false]

variable (hbusy : s.oldestPass ((dieCores d).filter s.idleLong) = [])

include hbusy

/-- While another core of the die is forced, no due core is marked. -/
theorem wnwDie_taken (h : ∃ c ∈ dieCores d, (s.wnwOf c).forced = true ∧ s.coreSt c = .ready) : s.wnwDie d = s := by
  have hforced : (dieCores d).any s.wnwForced = true := by simpa [State.wnwForced] using h
  simp only [State.wnwDie, none_running hquiet, hnone, hbusy, State.anyOf, hforced, Bool.false_eq_true, if_false, if_true]

/-- Last, the due core that is chosen is marked. -/
theorem wnwDie_due {c n : Nat} (hfree : ∀ c ∈ dieCores d, (s.wnwOf c).forced = false ∨ s.coreSt c ≠ .ready)
    (h : s.anyOf (s.oldestPass ((dieCores d).filter s.coreDue)) = (some c, { s with free := n })) :
    s.wnwDie d = (State.modWnw { s with free := n } c (fun w => { w with forced := true })).wnwKick c := by
  have hforced : (dieCores d).any s.wnwForced = false := by
    rw [List.any_eq_false]
    intro c hc
    rcases hfree c hc with hc | hc <;> simp [State.wnwForced, hc]
  have hnil : s.anyOf [] = (none, s) := rfl
  simp only [State.wnwDie, none_running hquiet, hnone, hbusy, hnil, hforced, h, Bool.false_eq_true, if_false]

end Die

/-- A core chosen for a slot, and nothing else of winnow, runs a kernel. -/
theorem wnwRun_slot (s : State) (n c : Nat) :
    let t := State.wnwRun { s with free := n } c
    t.wnwOf c = { s.wnwOf c with running := true } ∧ (∀ k, k ≠ c → t.wnwOf k = s.wnwOf k) ∧ t = { s with wnw := t.wnw, free := t.free } :=
  ⟨wnwOf_modWnw_self { s with free := n } c _, fun _ hk => wnwOf_modWnw_ne { s with free := n } hk _, rfl⟩

section Schedule

variable {d : Nat} (hgo : exec (.winnowSchedule d) s = .next (s.wnwDie d)) (hquiet : ∀ c ∈ dieCores d, (s.wnwOf c).running = false)

include hgo hquiet

theorem completes_forced (h : (dieCores d).find? (fun c => (s.wnwOf c).forced && s.coreFree c) = some c) :
    Completes (.winnowSchedule d) s (fun t => t.wnwOf c = { s.wnwOf c with running := true } ∧
      (∀ k, k ≠ c → t.wnwOf k = s.wnwOf k) ∧ t = { s with wnw := t.wnw }) := by
  refine ⟨_, hgo, ?_⟩
  rw [wnwDie_forced hquiet h]
  exact ⟨wnwOf_modWnw_self s c _, fun _ hk => wnwOf_modWnw_ne s hk _, rfl⟩

variable (hnone : (dieCores d).find? (fun c => (s.wnwOf c).forced && s.coreFree c) = none)

include hnone

theorem completes_idleSlot (h : s.oldestPass ((dieCores d).filter s.idleLong) ≠ []) :
    Completes (.winnowSchedule d) s (fun t => ∃ c ∈ s.oldestPass ((dieCores d).filter s.idleLong),
      t.wnwOf c = { s.wnwOf c with running := true } ∧ (∀ k, k ≠ c → t.wnwOf k = s.wnwOf k) ∧
        t = { s with wnw := t.wnw, free := t.free }) := by
  obtain ⟨c, hc, n, hany⟩ := anyOf_of_ne_nil s h
  refine ⟨_, hgo, c, hc, ?_⟩
  rw [wnwDie_idle hquiet hnone hany]
  exact wnwRun_slot s n c

variable (hbusy : s.oldestPass ((dieCores d).filter s.idleLong) = [])

include hbusy

theorem completes_dueMarked (hen : s.rdB WNW_CFG.EN = true)
    (hfree : ∀ c ∈ dieCores d, (s.wnwOf c).forced = false ∨ s.coreSt c ≠ .ready)
    (h : s.oldestPass ((dieCores d).filter s.coreDue) ≠ []) :
    Completes (.winnowSchedule d) s (fun t => ∃ c ∈ s.oldestPass ((dieCores d).filter s.coreDue),
      t.wnwOf c = { s.wnwOf c with forced := true, running := s.coreFree c } ∧ (∀ k, k ≠ c → t.wnwOf k = s.wnwOf k) ∧
        t = { s with wnw := t.wnw, free := t.free }) := by
  obtain ⟨c, hc, n, hany⟩ := anyOf_of_ne_nil s h
  refine ⟨_, hgo, c, hc, ?_⟩
  rw [wnwDie_due hquiet hnone hbusy hfree hany]
  have hidle : (s.wnwOf c).running = false := hquiet c (List.mem_of_mem_filter (mem_of_mem_oldestPass hc))
  obtain ⟨hself, hother, hrest⟩ := markForced (s := { s with free := n }) (c := c) hen hidle
  refine ⟨hself, hother, ?_⟩
  rw [hrest]

end Schedule
end Winnow

/-! ### What the end of a kernel counts, logs and empties -/

section Parts

variable {s t : State} {c : Nat}

/-- Only winnow states and cores differ. -/
def OnlyWinnow (s t : State) : Prop := t = { s with wnw := t.wnw, cores := t.cores }

theorem OnlyWinnow.trans {s t u : State} (h : OnlyWinnow s t) (g : OnlyWinnow t u) : OnlyWinnow s u := by
  unfold OnlyWinnow at *
  rw [g, h]

theorem onlyWinnow_modWnw (s : State) (c : Nat) (f : Wnw → Wnw) : OnlyWinnow s (s.modWnw c f) := rfl

theorem onlyWinnow_wnwRestore (s : State) (c : Nat) : OnlyWinnow s (s.wnwRestore c) := rfl

@[simp] theorem wnwRestore_csr (s : State) (c : Nat) : (s.wnwRestore c).csr = s.csr := rfl

@[simp] theorem wnwRestore_mem (s : State) (c : Nat) : (s.wnwRestore c).mem = s.mem := rfl

@[simp] theorem wnwOf_wnwRestore (s : State) (c k : Nat) : (s.wnwRestore c).wnwOf k = s.wnwOf k := rfl

/-- A core given back has its caches empty and its slots free, and its memories as they were (R559). -/
theorem wnwRestore_core (s : State) (c : Nat) : ((s.wnwRestore c).core c).icache = [] ∧
    ((s.wnwRestore c).core c).spad = (s.core c).spad ∧ ((s.wnwRestore c).core c).acc = (s.core c).acc ∧
    ∀ k, k ≠ c → (s.wnwRestore c).core k = s.core k := by
  unfold State.wnwRestore
  refine ⟨?_, ?_, ?_, fun k hk => core_modCore_ne s hk _⟩ <;> rw [core_modCore_self]

theorem core_of_cores (h : t.cores = s.cores) (k : Nat) : t.core k = s.core k := by
  unfold State.core
  rw [h]

/-- A trace record changes its unit's buffer, or counts in OBS_STAT one that was dropped. -/
theorem onlyRegs_traceAdd (s : State) (u typ sub : Nat) (x : W64) :
    OnlyRegs { s with trace := (s.traceAdd u typ sub x).trace } (s.traceAdd u typ sub x) [Reg.addr .OBS_STAT 0 0 0] := by
  unfold State.traceAdd
  dsimp only
  split
  · exact OnlyRegs.refl _ _
  · exact onlyRegs_wr { s with trace := _ } OBS_STAT.LOST _ 0 0 0

/-- A fault notification may have its trace record dropped, and changes no other register. -/
theorem regsBut_faultNote (s : State) (cls : Nat) (r : Reg) (n i : Nat) :
    RegsBut s (s.faultNote cls r n i) [Reg.addr .OBS_STAT 0 0 0] := by
  have hsay : ∀ m, RegsBut s (if s.rdB FLT_CFG.NOTIFY then s.say m else s) [Reg.addr .OBS_STAT 0 0 0] := by
    intro m
    unfold State.say
    split
    · split <;> exact fun _ _ _ _ _ => rfl
    · exact RegsBut.refl s _
  unfold State.faultNote State.noteWith
  dsimp only
  split
  · exact (hsay _).trans (onlyRegs_traceAdd _ _ _ _ _).regs
  · exact hsay _

theorem wnwOf_of_onlyLogs (h : OnlyLogs s t) (k : Nat) : t.wnwOf k = s.wnwOf k := by
  unfold OnlyLogs at h
  rw [h]
  rfl

theorem onlyRegs_wnwLog (s : State) (c k : Nat) (b : Bool) : OnlyRegs s (s.wnwLog c k b) [Reg.addr .WNW_LOG 0 0 0] := by
  unfold State.wnwLog
  split
  · exact OnlyRegs.refl s _
  · exact onlyRegs_wrs s .WNW_LOG 0 0 0 _

theorem wnwLog_valid (h : s.rdB WNW_LOG.VALID = true) (k : Nat) (b : Bool) : s.wnwLog c k b = s := if_pos h

/-- The log of the first mismatch, as its fields read (R576). -/
theorem rd_wnwLog (h : s.rdB WNW_LOG.VALID = false) (hc : c < 192) {k : Nat} (hk : k < 48) (b : Bool) :
    (s.wnwLog c k b).rd WNW_LOG.VALID = 1 ∧ (s.wnwLog c k b).rd WNW_LOG.CORE = c ∧ (s.wnwLog c k b).rd WNW_LOG.KERNEL = k ∧
      (s.wnwLog c k b).rd WNW_LOG.FENCED = b2n b ∧ (s.wnwLog c k b).rd WNW_LOG.TIME = s.time32 := by
  have hreg : (s.wnwLog c k b).reg .WNW_LOG 0 0 0 = WNW_LOG.TIME.put (WNW_LOG.FENCED.put (WNW_LOG.KERNEL.put (WNW_LOG.CORE.put
      (WNW_LOG.VALID.put (s.reg .WNW_LOG 0 0 0) 1) c) k) (b2n b)) s.time32 := by
    unfold State.wnwLog
    rw [h, if_neg Bool.false_ne_true, reg_wrs_self]
    rfl
  have hrd : ∀ f : Fld, f.reg = .WNW_LOG → (s.wnwLog c k b).rd f = f.get ((s.wnwLog c k b).reg .WNW_LOG 0 0 0) := by
    rintro f hf
    rw [State.rd, hf]
  have hb : b2n b < 2 := by cases b <;> decide
  have htime : s.time32 < 2 ^ 32 := Nat.mod_lt _ (by norm_num)
  refine ⟨?_, ?_, ?_, ?_, ?_⟩ <;> rw [hrd _ rfl, hreg] <;> simp (disch := decide) only [get_put_apart, get_put]
  · rfl
  · exact Nat.mod_eq_of_lt (lt_trans hc (by decide))
  · exact Nat.mod_eq_of_lt (lt_trans hk (by decide))
  · exact Nat.mod_eq_of_lt hb
  · exact Nat.mod_eq_of_lt htime

/-! ### Fences -/

/-- The registers that say which cores are fenced are none of those that a kernel's end counts and logs in. -/
theorem fence_addr_notMem (hc : c < 192) :
    Reg.addr .WNW_FENCE 0 (c / 64) 0 ∉ [Reg.addr .WNW_STAT 0 0 0, Reg.addr .WNW_LOG 0 0 0, Reg.addr .OBS_STAT 0 0 0] := by
  have haddr : ∀ i, Reg.addr .WNW_FENCE 0 i 0 = 0x2010 + i * 8 := fun i => rfl
  have hlist : [Reg.addr .WNW_STAT 0 0 0, Reg.addr .WNW_LOG 0 0 0, Reg.addr .OBS_STAT 0 0 0] = [0x2008, 0x2028, 0x800000020] := rfl
  rw [haddr, hlist]
  simp only [List.mem_cons, List.not_mem_nil, or_false]
  omega

theorem coreFenced_of_regsBut (h : RegsBut s t [Reg.addr .WNW_STAT 0 0 0, Reg.addr .WNW_LOG 0 0 0, Reg.addr .OBS_STAT 0 0 0])
    (hc : c < 192) : t.coreFenced c = s.coreFenced c := by
  unfold State.coreFenced
  rw [rd_of_regsBut (f := WNW_FENCE.CORES) h (fence_addr_notMem hc)]

theorem coreFenced_wrBit (s : State) (c : Nat) : (s.wrBit WNW_FENCE.CORES (c % 64) true 0 (c / 64)).coreFenced c = true := by
  have h64 : c % 64 < 64 := Nat.mod_lt _ (by norm_num)
  have hbit : bitB ((s.wrBit WNW_FENCE.CORES (c % 64) true 0 (c / 64)).rd WNW_FENCE.CORES 0 (c / 64)) (c % 64) =
      (setBits (s.rd WNW_FENCE.CORES 0 (c / 64)) (c % 64) (c % 64) 1 % 2 ^ 64).testBit (c % 64) := by
    unfold State.wrBit
    rw [rd_wr_self s WNW_FENCE.CORES _ 0 (c / 64) 0 (by decide) (by decide), bitB, bitN, Nat.testBit_eq_decide_div_mod_eq,
      Nat.shiftRight_eq_div_pow]
    rfl
  unfold State.coreFenced
  rw [hbit, Nat.testBit_mod_two_pow, testBit_setBits le_rfl]
  simp [h64]

end Parts

/-! ### The end of a kernel (R558, R559, R562) -/

section KernelEnd

variable {s : State} {c : Nat}

/-- The kernel's answer holds, and the next of a forced or a return pass runs. -/
theorem wnwAdvance_next (hn : (s.wnwOf c).next + 1 < 48)
    (hon : ((s.wnwOf c).ret || ((s.wnwOf c).forced && s.rdB WNW_CFG.EN)) = true) :
    s.wnwAdvance c = s.modWnw c (fun w => { w with next := w.next + 1, reruns := 0, bad := 0 }) := by
  simp only [State.wnwAdvance, wnwKernels, if_pos hn, hon, if_true]

/-- An idle slot ends: the core is given back. -/
theorem wnwAdvance_slot (hn : (s.wnwOf c).next + 1 < 48)
    (hoff : ((s.wnwOf c).ret || ((s.wnwOf c).forced && s.rdB WNW_CFG.EN)) = false) :
    s.wnwAdvance c = (((s.modWnw c (fun w => { w with next := w.next + 1, reruns := 0, bad := 0 })).modWnw c
      (fun w => { w with running := false })).touched c).wnwRestore c := by
  simp only [State.wnwAdvance, wnwKernels, if_pos hn, hoff, Bool.false_eq_true, if_false]

/-- The last kernel of a return pass. -/
theorem wnwAdvance_returned (hn : 48 ≤ (s.wnwOf c).next + 1) (hret : (s.wnwOf c).ret = true) :
    s.wnwAdvance c = (s.modWnw c (fun w => { w with next := w.next + 1, reruns := 0, bad := 0 })).modWnw c
      (fun w => { w with running := false }) := by
  simp only [State.wnwAdvance, wnwKernels, if_neg (Nat.not_lt.2 hn), hret, if_true]

/-- The last kernel of any other pass: the pass has ended. -/
theorem wnwAdvance_passed (hn : 48 ≤ (s.wnwOf c).next + 1) (hret : (s.wnwOf c).ret = false) :
    s.wnwAdvance c =
      ((s.modWnw c (fun w => { w with next := w.next + 1, reruns := 0, bad := 0 })).passEnded c).wnwRestore c := by
  simp only [State.wnwAdvance, wnwKernels, if_neg (Nat.not_lt.2 hn), hret, Bool.false_eq_true, if_false]

theorem passEnded_csr (s : State) (c : Nat) : (s.passEnded c).csr = (s.incWrap WNW_STAT.PASSES 1 0).csr := rfl

@[simp] theorem passEnded_cores (s : State) (c : Nat) : (s.passEnded c).cores = s.cores := rfl

@[simp] theorem passEnded_mem (s : State) (c : Nat) : (s.passEnded c).mem = s.mem := rfl

theorem wnwOf_passEnded (s : State) (c : Nat) : (s.passEnded c).wnwOf c = { s.wnwOf c with
    ret := false, running := false, forced := false, next := 0, lastPass := s.jobNs, stepsAt := s.steps, freeSince := s.now
    passNo := s.nextPass } := by
  unfold State.passEnded
  rw [wnwOf_modWnw_self]
  rfl

/-- However a kernel with a good answer moves a pass on, no rerun is left. -/
theorem reruns_wnwAdvance (s : State) (c : Nat) : ((s.wnwAdvance c).wnwOf c).reruns = 0 := by
  by_cases hn : (s.wnwOf c).next + 1 < 48
  · cases hon : (s.wnwOf c).ret || ((s.wnwOf c).forced && s.rdB WNW_CFG.EN)
    · simp [wnwAdvance_slot hn hon, State.touched]
    · simp [wnwAdvance_next hn hon]
  · have hn := Nat.not_lt.1 hn
    cases hret : (s.wnwOf c).ret
    · rw [wnwAdvance_passed hn hret, wnwOf_wnwRestore, wnwOf_passEnded, wnwOf_modWnw_self]
    · simp [wnwAdvance_returned hn hret]

/-- It changes no register, or counts a pass. -/
theorem csr_wnwAdvance (s : State) (c : Nat) :
    (s.wnwAdvance c).csr = s.csr ∨ (s.wnwAdvance c).csr = (s.incWrap WNW_STAT.PASSES 1 0).csr := by
  by_cases hn : (s.wnwOf c).next + 1 < 48
  · cases hon : (s.wnwOf c).ret || ((s.wnwOf c).forced && s.rdB WNW_CFG.EN)
    · exact .inl (by simp [wnwAdvance_slot hn hon])
    · exact .inl (by simp [wnwAdvance_next hn hon])
  · have hn := Nat.not_lt.1 hn
    cases hret : (s.wnwOf c).ret
    · right
      rw [wnwAdvance_passed hn hret, wnwRestore_csr, passEnded_csr]
      rfl
    · exact .inl (by simp [wnwAdvance_returned hn hret])

theorem regsBut_wnwAdvance (s : State) (c : Nat) : RegsBut s (s.wnwAdvance c) [Reg.addr .WNW_STAT 0 0 0] := by
  intro g n i j h
  rcases csr_wnwAdvance s c with hcsr | hcsr
  · exact reg_of_csr hcsr g n i j
  · exact (reg_of_csr hcsr g n i j).trans ((onlyRegs_wr s WNW_STAT.PASSES _ 0 0 0).regs g n i j h)

theorem transient_wnwAdvance (s : State) (c : Nat) : (s.wnwAdvance c).rd WNW_STAT.TRANSIENT = s.rd WNW_STAT.TRANSIENT := by
  rcases csr_wnwAdvance s c with hcsr | hcsr
  · exact rd_of_reg (reg_of_csr hcsr _ 0 0 0)
  · exact (rd_of_reg (reg_of_csr hcsr _ 0 0 0)).trans
      (rd_wr_apart (f := WNW_STAT.TRANSIENT) (g := WNW_STAT.PASSES) rfl _ 0 0 0 (by decide) (by decide) (by decide))

/-! ### Passes are numbered in the order in which they end (R560) -/

theorem le_foldl_passNo (m : SMap Wnw) (a : Nat) : a ≤ m.foldl (fun n e => max n e.2.passNo) a := by
  induction m generalizing a with
  | nil => exact le_rfl
  | cons e m ih => exact (le_max_left a _).trans (ih _)

theorem passNo_le_foldl (m : SMap Wnw) (k a : Nat) : (SMap.get m {} k).passNo ≤ m.foldl (fun n e => max n e.2.passNo) a := by
  induction m generalizing a with
  | nil => exact Nat.zero_le a
  | cons e m ih =>
    rw [smap_get_cons, List.foldl_cons]
    split
    · exact (le_max_right a _).trans (le_foldl_passNo m _)
    · exact ih _

theorem passNo_lt_nextPass (s : State) (k : Nat) : (s.wnwOf k).passNo < s.nextPass :=
  Nat.lt_succ_of_le (passNo_le_foldl s.wnw k 0)

/-- Moving a pass on leaves the numbers of the passes that have ended. -/
theorem passNo_modWnw (s : State) (c k : Nat) (f : Wnw → Wnw) (hf : ∀ w, (f w).passNo = w.passNo) :
    ((s.modWnw c f).wnwOf k).passNo = (s.wnwOf k).passNo := by
  by_cases h : k = c
  · rw [h, wnwOf_modWnw_self, hf]
  · rw [wnwOf_modWnw_ne s h]

/-! ### A core that is fenced (R562) -/

/-- The module once core `c` is fenced, before the mismatch is logged. -/
def fencedQuiet (s : State) (c : Nat) : State :=
  (s.wrBit WNW_FENCE.CORES (c % 64) true 0 (c / 64)).modWnw c (fun w =>
    { w with running := false, forced := false, ret := false, next := 0, reruns := 0, bad := 0 })

theorem wnwFence_eq (s : State) (c k : Nat) :
    s.wnwFence c k = (((fencedQuiet s c).wnwLog c k true).faultNote 9 .WNW_LOG).wnwRestore c := rfl

/-- Registers of the log read as the log left them. -/
theorem rd_wnwFence (s : State) (c k : Nat) {f : Fld} (hf : f.reg = .WNW_LOG) :
    (s.wnwFence c k).rd f = ((fencedQuiet s c).wnwLog c k true).rd f := by
  rw [wnwFence_eq]
  refine (rd_of_reg (reg_of_csr (wnwRestore_csr _ c) _ 0 0 0)).trans (rd_of_regsBut (regsBut_faultNote _ 9 .WNW_LOG 0 0) ?_)
  rw [hf]
  decide

theorem rd_fencedQuiet (s : State) {c : Nat} (hc : c < 192) {f : Fld} (hf : f.reg = .WNW_LOG) : (fencedQuiet s c).rd f = s.rd f := by
  have hne : Reg.addr .WNW_LOG 0 0 0 ≠ Reg.addr .WNW_FENCE 0 (c / 64) 0 :=
    fun h => fence_addr_notMem hc (by rw [← h]; simp)
  refine rd_of_reg ?_
  rw [hf]
  exact reg_setReg_ne s hne _

theorem onlyLogs_fenced (s : State) (c k : Nat) :
    OnlyLogs (fencedQuiet s c) (((fencedQuiet s c).wnwLog c k true).faultNote 9 .WNW_LOG) :=
  (onlyRegs_wnwLog _ c k true).logs.trans (onlyLogs_faultNote _ 9 .WNW_LOG 0 0)

theorem wnwOf_wnwFence (s : State) (c k : Nat) : (s.wnwFence c k).wnwOf c =
    { s.wnwOf c with running := false, forced := false, ret := false, next := 0, reruns := 0, bad := 0 } := by
  rw [wnwFence_eq, wnwOf_wnwRestore, wnwOf_of_onlyLogs (onlyLogs_fenced s c k), fencedQuiet, wnwOf_modWnw_self]
  rfl

theorem mem_wnwFence (s : State) (c k : Nat) : (s.wnwFence c k).mem = s.mem := by
  rw [wnwFence_eq, wnwRestore_mem, (onlyLogs_fenced s c k).mem]
  rfl

theorem coreFenced_wnwFence (s : State) {c : Nat} (hc : c < 192) (k : Nat) : (s.wnwFence c k).coreFenced c = true := by
  have hlog := (onlyRegs_wnwLog (fencedQuiet s c) c k true).regs
  have hnote := regsBut_faultNote ((fencedQuiet s c).wnwLog c k true) 9 .WNW_LOG 0 0
  have hregs : RegsBut (fencedQuiet s c) (s.wnwFence c k)
      [Reg.addr .WNW_STAT 0 0 0, Reg.addr .WNW_LOG 0 0 0, Reg.addr .OBS_STAT 0 0 0] := by
    rw [wnwFence_eq]
    intro g n i j h
    rw [reg_of_csr (wnwRestore_csr _ c), ← ((hlog.mono (by simp)).trans (hnote.mono (by simp))) g n i j h]
  rw [coreFenced_of_regsBut hregs hc]
  exact coreFenced_wrBit s c

/-! ### The row's effect, by the reruns that are left -/

theorem exec_kernelEnd_stopped (hrun : (s.wnwOf c).running = false) (crc : W64) : exec (.winnowKernelEnd c crc) s = .next s := by
  show execWinnowKernelEnd c crc s = _
  simp [execWinnowKernelEnd, hrun]

section Verdict

variable {crc : W64} {ok : Bool} (ha : s.alive = true) (hrun : (s.wnwOf c).running = true) (hn : (s.wnwOf c).next < 48)
  (hok : ok = decide (s.boot.flash.answers.get 0 (s.wnwOf c).next = crc))

include ha hrun hn hok

theorem exec_kernelEnd (r : Nat) (hr : (s.wnwOf c).reruns = r) : exec (.winnowKernelEnd c crc) s = .next (
    match r with
    | 0 => if ok then s.wnwAdvance c else s.modWnw c (fun w => { w with reruns := 2, bad := 0 })
    | 1 => if ok && (s.wnwOf c).bad == 0 then
        ((s.incSat WNW_STAT.TRANSIENT 1 0).wnwLog c (s.wnwOf c).next false).wnwAdvance c
      else s.wnwFence c (s.wnwOf c).next
    | r + 2 => s.modWnw c (fun w => { w with reruns := r + 1, bad := w.bad + b2n (!ok) })) := by
  have hgo : ¬ (!(s.wnwOf c).running ∨ wnwKernels ≤ (s.wnwOf c).next ∨ !s.alive) := by
    simp [ha, hrun, wnwKernels, hn]
  show execWinnowKernelEnd c crc s = _
  simp only [execWinnowKernelEnd, if_neg hgo, hr, ← hok]
  match r with
  | 0 => rfl
  | 1 => rfl
  | r + 2 => rfl

/-- An answer that holds at once moves the pass on. -/
theorem exec_kernelEnd_holds (hr : (s.wnwOf c).reruns = 0) (h : ok = true) :
    exec (.winnowKernelEnd c crc) s = .next (s.wnwAdvance c) := by
  rw [exec_kernelEnd ha hrun hn hok 0 hr, h, if_pos rfl]

theorem completes_kernel_next (hr : (s.wnwOf c).reruns = 0) (h : ok = true) (hlast : (s.wnwOf c).next < 47)
    (hon : ((s.wnwOf c).ret || ((s.wnwOf c).forced && s.rdB WNW_CFG.EN)) = true) :
    Completes (.winnowKernelEnd c crc) s (fun t => t.wnwOf c = { s.wnwOf c with next := (s.wnwOf c).next + 1, bad := 0 } ∧
      t = { s with wnw := t.wnw }) := by
  have hexec := exec_kernelEnd_holds ha hrun hn hok hr h
  rw [wnwAdvance_next (Nat.succ_lt_succ hlast) hon] at hexec
  refine ⟨_, hexec, ?_, rfl⟩
  rw [wnwOf_modWnw_self, ← hr]

theorem completes_kernel_slot (hr : (s.wnwOf c).reruns = 0) (h : ok = true) (hlast : (s.wnwOf c).next < 47)
    (hoff : ((s.wnwOf c).ret || ((s.wnwOf c).forced && s.rdB WNW_CFG.EN)) = false) :
    Completes (.winnowKernelEnd c crc) s (fun t =>
      t.wnwOf c = { s.wnwOf c with next := (s.wnwOf c).next + 1, bad := 0, running := false, freeSince := s.now } ∧
      (t.core c).icache = [] ∧ (t.core c).spad = (s.core c).spad ∧ (t.core c).acc = (s.core c).acc ∧
      (∀ k, k ≠ c → t.core k = s.core k) ∧ t = { s with wnw := t.wnw, cores := t.cores }) := by
  have hexec := exec_kernelEnd_holds ha hrun hn hok hr h
  rw [wnwAdvance_slot (Nat.succ_lt_succ hlast) hoff] at hexec
  set u := (s.modWnw c (fun w => { w with next := w.next + 1, reruns := 0, bad := 0 })).modWnw c
    (fun w => { w with running := false }) with hu
  have hcore : ∀ k, (u.touched c).core k = s.core k := core_of_cores (by rw [touched_cores, hu, modWnw_cores, modWnw_cores])
  have hrest : OnlyWinnow s ((u.touched c).wnwRestore c) :=
    (((onlyWinnow_modWnw s c _).trans (onlyWinnow_modWnw _ c _)).trans (onlyWinnow_modWnw _ c _)).trans (onlyWinnow_wnwRestore _ c)
  obtain ⟨hcache, hspad, hacc, hother⟩ := wnwRestore_core (u.touched c) c
  refine ⟨_, hexec, ?_, hcache, hspad.trans (by rw [hcore]), hacc.trans (by rw [hcore]),
    fun k hk => (hother k hk).trans (hcore k), hrest⟩
  rw [wnwOf_wnwRestore, State.touched, wnwOf_modWnw_self, hu, wnwOf_modWnw_self, wnwOf_modWnw_self, ← hr]
  rfl

theorem completes_kernel_returned (hr : (s.wnwOf c).reruns = 0) (h : ok = true) (hlast : (s.wnwOf c).next = 47)
    (hret : (s.wnwOf c).ret = true) :
    Completes (.winnowKernelEnd c crc) s (fun t => t.wnwOf c = { s.wnwOf c with next := 48, bad := 0, running := false } ∧
      t = { s with wnw := t.wnw }) := by
  have hexec := exec_kernelEnd_holds ha hrun hn hok hr h
  rw [wnwAdvance_returned (by rw [hlast]) hret] at hexec
  refine ⟨_, hexec, ?_, rfl⟩
  rw [wnwOf_modWnw_self, wnwOf_modWnw_self, hlast, ← hr]

theorem completes_kernel_passed (hr : (s.wnwOf c).reruns = 0) (h : ok = true) (hlast : (s.wnwOf c).next = 47)
    (hret : (s.wnwOf c).ret = false) :
    Completes (.winnowKernelEnd c crc) s (fun t =>
      (∃ n, (∀ k, (s.wnwOf k).passNo < n) ∧ t.wnwOf c = { s.wnwOf c with
        next := 0, bad := 0, running := false, forced := false
        lastPass := s.jobNs, stepsAt := s.steps, freeSince := s.now, passNo := n }) ∧
      t.rd WNW_STAT.PASSES = (s.rd WNW_STAT.PASSES + 1) % 2 ^ 32 ∧ (t.core c).spad = (s.core c).spad ∧ t.mem = s.mem) := by
  have hexec := exec_kernelEnd_holds ha hrun hn hok hr h
  rw [wnwAdvance_passed (by rw [hlast]) hret] at hexec
  refine ⟨_, hexec, ?_⟩
  set u := s.modWnw c (fun w => { w with next := w.next + 1, reruns := 0, bad := 0 }) with hu
  have hcores : (u.passEnded c).cores = s.cores := by rw [passEnded_cores, hu, modWnw_cores]
  have hmem : (u.passEnded c).mem = s.mem := by rw [passEnded_mem, hu, modWnw_mem]
  obtain ⟨-, hspad, -, -⟩ := wnwRestore_core (u.passEnded c) c
  refine ⟨⟨u.nextPass, fun k => ?_, ?_⟩, ?_, hspad.trans (congrArg Core.spad (core_of_cores hcores c)), ?_⟩
  · rw [← passNo_modWnw s c k (fun w => { w with next := w.next + 1, reruns := 0, bad := 0 }) (fun _ => rfl)]
    exact passNo_lt_nextPass u k
  · rw [wnwOf_wnwRestore, wnwOf_passEnded, hu, wnwOf_modWnw_self, ← hr, ← hret]
    rfl
  · have hcsr : ((u.passEnded c).wnwRestore c).csr = (u.incWrap WNW_STAT.PASSES 1 0).csr := passEnded_csr u c
    rw [rd_of_reg (f := WNW_STAT.PASSES) (reg_of_csr hcsr _ 0 0 0), rd_incWrap_self _ _ _ _ _ (by decide) (by decide)]
    rfl
  · rw [wnwRestore_mem, hmem]

/-- Both reruns of a kernel matched: the mismatch was transient. -/
theorem completes_kernel_transient (hc : c < 192) (hr : (s.wnwOf c).reruns = 1) (h : ok = true) (hbad : (s.wnwOf c).bad = 0) :
    Completes (.winnowKernelEnd c crc) s (fun t =>
      t.rd WNW_STAT.TRANSIENT = min 65535 (s.rd WNW_STAT.TRANSIENT + 1) ∧ (t.wnwOf c).reruns = 0 ∧ t.coreFenced c = s.coreFenced c ∧
      (s.rdB WNW_LOG.VALID = false → t.rd WNW_LOG.VALID = 1 ∧ t.rd WNW_LOG.CORE = c ∧ t.rd WNW_LOG.KERNEL = (s.wnwOf c).next ∧
        t.rd WNW_LOG.FENCED = 0 ∧ t.rd WNW_LOG.TIME = s.time32)) := by
  have hexec := exec_kernelEnd ha hrun hn hok 1 hr
  simp only [h, hbad, beq_self_eq_true, Bool.and_self, if_true] at hexec
  refine ⟨_, hexec, ?_⟩
  set u := s.incSat WNW_STAT.TRANSIENT 1 0 with hu
  set v := u.wnwLog c (s.wnwOf c).next false
  have hcount : RegsBut s u [Reg.addr .WNW_STAT 0 0 0] := (onlyRegs_wr s WNW_STAT.TRANSIENT _ 0 0 0).regs
  have hlog : RegsBut u v [Reg.addr .WNW_LOG 0 0 0] := (onlyRegs_wnwLog u c (s.wnwOf c).next false).regs
  have hpass := regsBut_wnwAdvance v c
  refine ⟨?_, reruns_wnwAdvance v c, ?_, fun hvalid => ?_⟩
  · rw [transient_wnwAdvance, rd_of_regsBut hlog (by decide)]
    exact rd_incSat_self (s := s) WNW_STAT.TRANSIENT 1 0 0 0 (by decide) (by decide)
  · exact coreFenced_of_regsBut (((hcount.mono (by simp)).trans (hlog.mono (by simp))).trans (hpass.mono (by simp))) hc
  · have hvalid' : u.rdB WNW_LOG.VALID = false := by
      rw [← hvalid, State.rdB, State.rdB, rd_of_regsBut hcount (by decide)]
    have hread := rd_wnwLog hvalid' hc hn false
    have hkeep : ∀ f : Fld, f.reg = .WNW_LOG → (v.wnwAdvance c).rd f = v.rd f :=
      fun f hf => rd_of_regsBut hpass (by rw [hf]; decide)
    rw [hkeep _ rfl, hkeep _ rfl, hkeep _ rfl, hkeep _ rfl, hkeep _ rfl]
    exact hread

/-- A rerun of a kernel did not match: the core is fenced. -/
theorem completes_kernel_fenced (hc : c < 192) (hr : (s.wnwOf c).reruns = 1) (h : ok = false ∨ (s.wnwOf c).bad ≠ 0) :
    Completes (.winnowKernelEnd c crc) s (fun t => t.coreFenced c = true ∧
      t.wnwOf c = { s.wnwOf c with running := false, forced := false, ret := false, next := 0, reruns := 0, bad := 0 } ∧
      (s.rdB WNW_LOG.VALID = false → t.rd WNW_LOG.VALID = 1 ∧ t.rd WNW_LOG.CORE = c ∧ t.rd WNW_LOG.KERNEL = (s.wnwOf c).next ∧
        t.rd WNW_LOG.FENCED = 1 ∧ t.rd WNW_LOG.TIME = s.time32) ∧
      (s.rdB WNW_LOG.VALID = true → t.rd WNW_LOG.CORE = s.rd WNW_LOG.CORE) ∧ t.mem = s.mem) := by
  have hmiss : (ok && (s.wnwOf c).bad == 0) = false := by
    rcases h with h | h <;> simp [h]
  have hexec := exec_kernelEnd ha hrun hn hok 1 hr
  simp only [hmiss, Bool.false_eq_true, if_false] at hexec
  refine ⟨_, hexec, coreFenced_wnwFence s hc _, wnwOf_wnwFence s c _, fun hvalid => ?_, fun hvalid => ?_, mem_wnwFence s c _⟩
  · have hvalid' : (fencedQuiet s c).rdB WNW_LOG.VALID = false := by
      rw [← hvalid, State.rdB, State.rdB, rd_fencedQuiet s hc rfl]
    rw [rd_wnwFence s c _ rfl, rd_wnwFence s c _ rfl, rd_wnwFence s c _ rfl, rd_wnwFence s c _ rfl, rd_wnwFence s c _ rfl]
    exact rd_wnwLog hvalid' hc hn true
  · have hvalid' : (fencedQuiet s c).rdB WNW_LOG.VALID = true := by
      rw [← hvalid, State.rdB, State.rdB, rd_fencedQuiet s hc rfl]
    rw [rd_wnwFence s c _ rfl, wnwLog_valid hvalid', rd_fencedQuiet s hc rfl]

end Verdict
end KernelEnd

end Sys2Proof.Proofs.Module

/-! PROOF of WinnowAndTrace, second part: trace units and the timebase check (R39, R564 to R566). -/

namespace Sys2Proof.Proofs.Module

open Sys2Proof Sys2Proof.Machine Sys2Proof.Laws

/-! ### Records (R564, R566) -/

/-- A record that unit `u` takes now. -/
def traceRec (s : State) (u typ sub : Nat) (x : W64) : W64 × W64 :=
  (w64 (typ % 256 + (sub % 256) * 256 + (s.timeAt (unitTime u) % 2 ^ 48) * 65536), x)

section Records

variable {s : State} {u : Nat}

theorem traceRec_eq (s : State) (u typ sub : Nat) (x : W64) :
    (w64 (typ % 256 + (sub % 256) <<< 8 + (bits (s.timeAt (unitTime u)) 47 0) <<< 16), x) = traceRec s u typ sub x := by
  simp only [traceRec, bits, Nat.shiftLeft_eq, Nat.shiftRight_zero]

/-- A unit with room takes a record. -/
theorem traceAdd_room (h : (s.trace.get {} u).buf.length < traceRoom u) (typ sub : Nat) (x : W64) :
    s.traceAdd u typ sub x = { s with trace := s.trace.set {} u { s.trace.get {} u with
      buf := (s.trace.get {} u).buf ++ [traceRec s u typ sub x]
      oldest := if (s.trace.get {} u).buf.isEmpty then s.now else (s.trace.get {} u).oldest } } := by
  simp only [State.traceAdd, if_pos h, traceRec_eq]

/-- A unit without room counts a record that it drops. -/
theorem traceAdd_full (h : traceRoom u ≤ (s.trace.get {} u).buf.length) (typ sub : Nat) (x : W64) :
    s.traceAdd u typ sub x = State.incWrap { s with trace := s.trace.set {} u { s.trace.get {} u with
      dropped := (s.trace.get {} u).dropped + 1 } } OBS_STAT.LOST 1 0 := by
  simp only [State.traceAdd, if_neg (Nat.not_lt.2 h)]

theorem exec_traceRecord_idle {typ : Nat} (h : traceUnit s.variant u = false ∨ s.traceOn u typ = false) (sub : Nat) (x : W64) :
    exec (.traceRecord u typ sub x) s = .next s := by
  show execTraceRecord u typ sub x s = _
  rcases h with h | h <;> simp [execTraceRecord, h]

theorem exec_traceRecord {typ : Nat} (hu : traceUnit s.variant u = true) (hon : s.traceOn u typ = true) (sub : Nat) (x : W64) :
    exec (.traceRecord u typ sub x) s = .next (s.traceAdd u typ sub x) := by
  show execTraceRecord u typ sub x s = _
  simp [execTraceRecord, hu, hon]

theorem completes_record_taken {typ : Nat} (hu : traceUnit s.variant u = true) (hon : s.traceOn u typ = true) (sub : Nat) (x : W64)
    (h : (s.trace.get {} u).buf.length < traceRoom u) :
    Completes (.traceRecord u typ sub x) s (fun t => t = { s with trace := t.trace } ∧
      (t.trace.get {} u).buf = (s.trace.get {} u).buf ++ [traceRec s u typ sub x] ∧
      ∀ k, k ≠ u → t.trace.get {} k = s.trace.get {} k) := by
  have hexec := exec_traceRecord hu hon sub x
  rw [traceAdd_room h] at hexec
  refine ⟨_, hexec, rfl, ?_, fun k hk => smap_get_set_ne _ _ _ hk⟩
  rw [smap_get_set_self]

theorem completes_record_dropped {typ : Nat} (hu : traceUnit s.variant u = true) (hon : s.traceOn u typ = true) (sub : Nat) (x : W64)
    (h : traceRoom u ≤ (s.trace.get {} u).buf.length) :
    Completes (.traceRecord u typ sub x) s (fun t =>
      t.trace.get {} u = { s.trace.get {} u with dropped := (s.trace.get {} u).dropped + 1 } ∧
      t.rd OBS_STAT.LOST = (s.rd OBS_STAT.LOST + 1) % 2 ^ 32 ∧ t.rd OBS_STAT.SENT = s.rd OBS_STAT.SENT ∧
      OnlyRegs { s with trace := t.trace } t [Reg.addr .OBS_STAT 0 0 0]) := by
  have hexec := exec_traceRecord hu hon sub x
  rw [traceAdd_full h] at hexec
  set v : State := { s with trace := s.trace.set {} u { s.trace.get {} u with dropped := (s.trace.get {} u).dropped + 1 } }
  refine ⟨_, hexec, smap_get_set_self _ _ _ _, ?_, ?_, onlyRegs_wr v OBS_STAT.LOST _ 0 0 0⟩
  · exact rd_incWrap_self (s := v) OBS_STAT.LOST 1 0 0 0 (by decide) (by decide)
  · exact rd_wr_apart (s := v) (f := OBS_STAT.SENT) (g := OBS_STAT.LOST) rfl _ 0 0 0 (by decide) (by decide) (by decide)

/-! ### Counter samples (R564, R578) -/

theorem exec_traceSample (s : State) (u : Nat) : exec (.traceSample u) s = .next (
    if traceUnit s.variant u && s.sampleDue u then (s.samples u).foldl (fun s e => s.traceAdd u 6 e.1 e.2)
      { s with trace := s.trace.upd {} u (fun t => { t with sampledAt := some s.now }) }
    else s) := rfl

theorem sampleDue_early {t0 : Nat} (hat : (s.trace.get {} u).sampledAt = some t0) (h : s.now < t0 + s.samplePeriod u * 1000) :
    s.sampleDue u = false := by
  simp [State.sampleDue, hat, h]

theorem sampleDue_over (hon : s.traceOn u 6 = true)
    (h : ∀ t0, (s.trace.get {} u).sampledAt = some t0 → t0 + s.samplePeriod u * 1000 ≤ s.now) : s.sampleDue u = true := by
  unfold State.sampleDue
  rw [hon, Bool.true_and]
  split
  · next t0 hat => exact decide_eq_true (h t0 hat)
  · rfl

theorem length_samples_le (s : State) (u : Nat) : (s.samples u).length ≤ 8 := by
  unfold State.samples
  split <;> simp

/-- Records that a unit with room for all of them takes one after another. -/
theorem foldl_traceAdd (typ : Nat) (l : List (Nat × W64)) (s : State) (h : (s.trace.get {} u).buf.length + l.length ≤ traceRoom u) :
    let t := l.foldl (fun s e => s.traceAdd u typ e.1 e.2) s
    t = { s with trace := t.trace } ∧ (t.trace.get {} u).sampledAt = (s.trace.get {} u).sampledAt ∧
      (t.trace.get {} u).buf = (s.trace.get {} u).buf ++ l.map (fun e => traceRec s u typ e.1 e.2) := by
  induction l generalizing s with
  | nil => exact ⟨rfl, rfl, (List.append_nil _).symm⟩
  | cons e l ih =>
    rw [List.length_cons] at h
    have hroom : (s.trace.get {} u).buf.length < traceRoom u := by omega
    rw [List.foldl_cons, traceAdd_room hroom]
    set v : State := { s with trace := s.trace.set {} u { s.trace.get {} u with
      buf := (s.trace.get {} u).buf ++ [traceRec s u typ e.1 e.2]
      oldest := if (s.trace.get {} u).buf.isEmpty then s.now else (s.trace.get {} u).oldest } }
    have hunit : v.trace.get {} u = { s.trace.get {} u with
      buf := (s.trace.get {} u).buf ++ [traceRec s u typ e.1 e.2]
      oldest := if (s.trace.get {} u).buf.isEmpty then s.now else (s.trace.get {} u).oldest } := smap_get_set_self _ _ _ _
    have hbuf : (v.trace.get {} u).buf = (s.trace.get {} u).buf ++ [traceRec s u typ e.1 e.2] := by rw [hunit]
    obtain ⟨hrest, hat, hlist⟩ := ih v (by rw [hbuf, List.length_append, List.length_singleton]; omega)
    refine ⟨?_, ?_, ?_⟩
    · rw [hrest]
    · rw [hat, hunit]
    · rw [hlist, hbuf, List.append_assoc]
      rfl

theorem completes_sampled (hu : traceUnit s.variant u = true) (hdue : s.sampleDue u = true)
    (h : (s.trace.get {} u).buf.length + 8 ≤ traceRoom u) :
    Completes (.traceSample u) s (fun t => t = { s with trace := t.trace } ∧ (t.trace.get {} u).sampledAt = some s.now ∧
      (t.trace.get {} u).buf = (s.trace.get {} u).buf ++ (s.samples u).map (fun e => traceRec s u 6 e.1 e.2)) := by
  have hexec := exec_traceSample s u
  rw [hu, hdue, Bool.true_and, if_pos rfl] at hexec
  set v : State := { s with trace := s.trace.upd {} u (fun t => { t with sampledAt := some s.now }) }
  have hunit : v.trace.get {} u = { s.trace.get {} u with sampledAt := some s.now } :=
    smap_get_upd_self s.trace {} u (fun t => { t with sampledAt := some s.now })
  have hroom : (v.trace.get {} u).buf.length + (s.samples u).length ≤ traceRoom u := by
    rw [hunit]
    exact (Nat.add_le_add_left (length_samples_le s u) _).trans h
  obtain ⟨hrest, hat, hbuf⟩ := foldl_traceAdd 6 (s.samples u) v hroom
  refine ⟨_, hexec, ?_, ?_, ?_⟩
  · rw [hrest]
  · rw [hat, hunit]
  · rw [hbuf, hunit]
    rfl

end Records

/-! ### The bytes of a datagram (R565) -/

/-- The bytes of records: 16 a record. -/
theorem recordBytes_cons (e : W64 × W64) (l : List (W64 × W64)) :
    bytes64 ((e :: l).map (fun e => [e.1, e.2])).flatten =
      leBytes 8 e.1.toNat ++ (leBytes 8 e.2.toNat ++ bytes64 (l.map (fun e => [e.1, e.2])).flatten) := by
  simp [bytes64]

theorem length_recordBytes (l : List (W64 × W64)) : (bytes64 (l.map (fun e => [e.1, e.2])).flatten).length = 16 * l.length := by
  induction l with
  | nil => rfl
  | cons e l ih =>
    rw [recordBytes_cons, List.length_append, List.length_append, leBytes_length, leBytes_length, ih, List.length_cons]
    omega

theorem ofLe_leBytes_word (w : W64) : ofLe (leBytes 8 w.toNat) = w.toNat := by
  rw [ofLe_leBytes]
  exact Nat.mod_eq_of_lt w.isLt

/-- The two words of each record, where they stand. -/
theorem words_of_recordBytes (l : List (W64 × W64)) (k : Nat) (hk : k < l.length) :
    ofLe (((bytes64 (l.map (fun e => [e.1, e.2])).flatten).drop (16 * k)).take 8) = (nth l (0, 0) k).1.toNat ∧
      ofLe (((bytes64 (l.map (fun e => [e.1, e.2])).flatten).drop (16 * k + 8)).take 8) = (nth l (0, 0) k).2.toNat := by
  induction l generalizing k with
  | nil => exact absurd hk (Nat.not_lt_zero k)
  | cons e l ih =>
    rw [recordBytes_cons]
    cases k with
    | zero =>
      rw [Nat.mul_zero, List.drop_zero, List.take_left' (leBytes_length 8 _), Nat.zero_add,
        List.drop_left' (leBytes_length 8 _), List.take_left' (leBytes_length 8 _)]
      exact ⟨ofLe_leBytes_word e.1, ofLe_leBytes_word e.2⟩
    | succ k =>
      have hskip : ∀ n, (leBytes 8 e.1.toNat ++ (leBytes 8 e.2.toNat ++ bytes64 (l.map (fun e => [e.1, e.2])).flatten)).drop (16 + n) =
          (bytes64 (l.map (fun e => [e.1, e.2])).flatten).drop n := by
        intro n
        rw [← List.append_assoc, ← List.drop_drop, List.drop_left' (by simp)]
      rw [show 16 * (k + 1) = 16 + 16 * k by omega, Nat.add_assoc, hskip, hskip]
      exact ih k (Nat.lt_of_succ_lt_succ hk)

section Datagram

variable {s : State} {u : Nat}

/-- A field's value is below the power of two of its width. -/
theorem rd_lt (s : State) (f : Fld) (n i j : Nat) : s.rd f n i j < 2 ^ (f.hi + 1 - f.lo) := Nat.mod_lt _ (by positivity)

theorem traceUnit_lt {v : Variant} (h : traceUnit v u = true) : u < 512 := by
  have hcores : v.cores ≤ 192 := by cases v <;> decide
  have hbdies : v.bdies ≤ 16 := by cases v <;> decide
  simp only [traceUnit, Bool.or_eq_true, Bool.and_eq_true, decide_eq_true_eq] at h
  omega

theorem sum_fields_cons (i v : Nat) (l : List (Nat × Nat)) :
    (((i, v) :: l).map (fun e => e.2 * 2 ^ e.1)).sum = v * 2 ^ i + (l.map (fun e => e.2 * 2 ^ e.1)).sum := by
  rw [List.map_cons, List.sum_cons]

/-- The header of a datagram spells its fields, which lie side by side. -/
theorem ofLe_header {node unit seq n epoch : Nat} (hnode : node < 2 ^ 9) (hunit : unit < 2 ^ 16) (hseq : seq < 2 ^ 32) (hn : n < 2 ^ 32)
    (hepoch : epoch < 2 ^ 64) :
    ofLe (fieldBytes 32 [(0, 0x4A545243), (32, node), (48, unit), (64, seq), (96, n), (128, epoch)]) =
      0x4A545243 + node * 2 ^ 32 + unit * 2 ^ 48 + seq * 2 ^ 64 + n * 2 ^ 96 + epoch * 2 ^ 128 := by
  have hsum : ([(0, 0x4A545243), (32, node), (48, unit), (64, seq), (96, n), (128, epoch)].map (fun e => e.2 * 2 ^ e.1)).sum =
      0x4A545243 + node * 2 ^ 32 + unit * 2 ^ 48 + seq * 2 ^ 64 + n * 2 ^ 96 + epoch * 2 ^ 128 := by
    simp only [sum_fields_cons]
    rw [List.map_nil, List.sum_nil]
    ring
  rw [fieldBytes, hsum, ofLe_leBytes]
  apply Nat.mod_eq_of_lt
  omega

/-- The bytes that a unit sends are a trace datagram of its records. -/
theorem datagramOf_traceBytes (hu : traceUnit s.variant u = true) (hseq : (s.trace.get {} u).seqNo < 2 ^ 32) {l : List (W64 × W64)}
    (hl : l.length ≤ 512) : DatagramOf s u l (s.traceBytes u l) := by
  have hnode : s.rd FAB_NODE.NODE < 2 ^ 9 := rd_lt s FAB_NODE.NODE 0 0 0
  have hepoch : s.epoch < 2 ^ 64 := rd_lt s GLB_EPOCH.EPOCH 0 0 0
  have hunit : u < 2 ^ 16 := lt_trans (traceUnit_lt hu) (by norm_num)
  have hlen : l.length < 2 ^ 32 := lt_of_le_of_lt hl (by norm_num)
  set head := fieldBytes 32 [(0, 0x4A545243), (32, s.rd FAB_NODE.NODE), (48, u), (64, (s.trace.get {} u).seqNo), (96, l.length),
    (128, s.epoch)] with hhead
  have h32 : head.length = 32 := leBytes_length 32 _
  have hdata : s.traceBytes u l = head ++ bytes64 (l.map (fun e => [e.1, e.2])).flatten := rfl
  have hbody : ∀ k, (s.traceBytes u l).drop (32 + k) = (bytes64 (l.map (fun e => [e.1, e.2])).flatten).drop k := by
    intro k
    rw [hdata, ← List.drop_drop, List.drop_left' h32]
  refine ⟨?_, ?_, fun k hk => ?_⟩
  · rw [hdata, List.length_append, h32, length_recordBytes]
  · rw [hdata, List.take_left' h32, hhead]
    exact ofLe_header hnode hunit hseq hlen hepoch
  · have h40 : 40 + 16 * k = 32 + (16 * k + 8) := by omega
    rw [h40, hbody, hbody]
    exact words_of_recordBytes l k hk

/-! ### A datagram leaves (R565, R566) -/

/-- Unit `u` once its oldest records have left. -/
def sentUnit (s : State) (u : Nat) : TraceUnit :=
  { s.trace.get {} u with
    buf := (s.trace.get {} u).buf.drop traceMax
    seqNo := ((s.trace.get {} u).seqNo + 1) % 2 ^ 32
    oldest := match (s.trace.get {} u).buf.drop traceMax with
      | [] => 0
      | e :: _ => s.tracedAt u (bits e.1.toNat 63 16) }

/-- The module once unit `u` has sent its oldest records, before those that were dropped are reported. -/
def sentState (s : State) (u : Nat) : State :=
  let data := s.traceBytes u ((s.trace.get {} u).buf.take traceMax)
  let t := (State.ethSay { s with trace := s.trace.set {} u (sentUnit s u) } (s.rd OBS_CFG.PORT)
    (.trace (s.rd OBS_DEST2.UDP) (s.rdB OBS_DEST2.IPV6) (s.reg .OBS_DEST 0 0 0) (s.reg .OBS_DEST 0 1 0) data)).incWrap OBS_STAT.SENT 1 0
  { t with fab := { t.fab with traceAt := s.now + s.traceNs data.length } }

theorem exec_datagram_idle (h : s.traceDue u = false ∨ s.traceOpen = false) : exec (.traceDatagramSend u) s = .next s := by
  show execTraceDatagramSend u s = _
  rcases h with h | h <;> simp [execTraceDatagramSend, h]

theorem exec_datagram (hu : traceUnit s.variant u = true) (hdue : s.traceDue u = true) (hopen : s.traceOpen = true) :
    exec (.traceDatagramSend u) s = .next ((sentState s u).traceLost u) := by
  have hgo : ¬ (!traceUnit s.variant u ∨ !s.traceDue u ∨ !s.traceOpen) := by simp [hu, hdue, hopen]
  exact if_neg hgo

theorem trace_sentState (s : State) (u : Nat) : (sentState s u).trace.get {} u = sentUnit s u := smap_get_set_self _ _ _ _

theorem traceLost_none (h : (s.trace.get {} u).dropped = 0) : s.traceLost u = s := if_pos h

theorem completes_datagram (hu : traceUnit s.variant u = true) (hdue : s.traceDue u = true) (hopen : s.traceOpen = true)
    (hdrop : (s.trace.get {} u).dropped = 0) (hseq : (s.trace.get {} u).seqNo < 2 ^ 32) :
    Completes (.traceDatagramSend u) s (fun t => (t.trace.get {} u).buf = (s.trace.get {} u).buf.drop 512 ∧
      (t.trace.get {} u).seqNo = ((s.trace.get {} u).seqNo + 1) % 2 ^ 32 ∧
      (∃ d, t.fab.ethOut = s.fab.ethOut ++ [(s.rd OBS_CFG.PORT, .trace (s.rd OBS_DEST2.UDP) (s.rdB OBS_DEST2.IPV6)
          (s.reg .OBS_DEST 0 0 0) (s.reg .OBS_DEST 0 1 0) d)] ∧ DatagramOf s u ((s.trace.get {} u).buf.take 512) d ∧
        t.fab.traceAt = s.now + (8 * d.length + max 1 (s.rd OBS_CFG.RATE) - 1) / max 1 (s.rd OBS_CFG.RATE)) ∧
      t.rd OBS_STAT.SENT = (s.rd OBS_STAT.SENT + 1) % 2 ^ 32 ∧
      OnlyRegs { s with trace := t.trace, fab := t.fab } t [Reg.addr .OBS_STAT 0 0 0]) := by
  have hexec := exec_datagram hu hdue hopen
  rw [traceLost_none (by rw [trace_sentState]; exact hdrop)] at hexec
  refine ⟨_, hexec, ?_, ?_, ⟨s.traceBytes u ((s.trace.get {} u).buf.take 512), rfl, ?_, rfl⟩, ?_, ?_⟩
  · rw [trace_sentState]
    rfl
  · rw [trace_sentState]
    rfl
  · exact datagramOf_traceBytes hu hseq (List.length_take_le 512 _)
  · exact rd_incWrap_self (s := s) OBS_STAT.SENT 1 0 0 0 (by decide) (by decide)
  · exact onlyRegs_wr { s with trace := _, fab := _ } OBS_STAT.SENT _ 0 0 0

/-- The records that were dropped are reported where there is space. -/
theorem traceLost_room (hdrop : (s.trace.get {} u).dropped ≠ 0) (h : (s.trace.get {} u).buf.length < traceRoom u) :
    ((s.traceLost u).trace.get {} u).dropped = 0 ∧
      ((s.traceLost u).trace.get {} u).buf = (s.trace.get {} u).buf ++ [traceRec s u 9 0 (w64 (s.trace.get {} u).dropped)] := by
  simp only [State.traceLost, if_neg hdrop]
  set v : State := { s with trace := s.trace.set {} u { s.trace.get {} u with dropped := 0 } }
  have hunit : v.trace.get {} u = { s.trace.get {} u with dropped := 0 } := smap_get_set_self _ _ _ _
  rw [traceAdd_room (s := v) (by rw [hunit]; exact h)]
  rw [smap_get_set_self, hunit]
  exact ⟨rfl, rfl⟩

theorem completes_datagram_lost (hu : traceUnit s.variant u = true) (hdue : s.traceDue u = true) (hopen : s.traceOpen = true)
    (hdrop : (s.trace.get {} u).dropped ≠ 0) (hroom : (s.trace.get {} u).buf.length ≤ traceRoom u) :
    Completes (.traceDatagramSend u) s (fun t => (t.trace.get {} u).dropped = 0 ∧
      (t.trace.get {} u).buf = (s.trace.get {} u).buf.drop 512 ++ [traceRec s u 9 0 (w64 (s.trace.get {} u).dropped)]) := by
  have hne : (s.trace.get {} u).buf ≠ [] := by
    intro hnil
    simp [State.traceDue, hnil] at hdue
  have hspace : ((sentState s u).trace.get {} u).buf.length < traceRoom u := by
    have hpos := List.length_pos_iff.2 hne
    rw [trace_sentState]
    show ((s.trace.get {} u).buf.drop 512).length < traceRoom u
    rw [List.length_drop]
    omega
  have hlost := traceLost_room (s := sentState s u) (by rw [trace_sentState]; exact hdrop) hspace
  rw [trace_sentState] at hlost
  exact ⟨_, exec_datagram hu hdue hopen, hlost⟩

end Datagram

/-! ### Copies of the timebase (R39) -/

/-- What a key of a map reads as, once only the entries that a test accepts are kept: a value that the test accepts, or as unlisted. -/
theorem smap_get_keep {α : Type} (m : SMap α) (d : α) (f : Nat → α → Bool) (k : Nat) :
    f k (SMap.get (m.keep f) d k) = true ∨ SMap.get (m.keep f) d k = d := by
  induction m with
  | nil => exact .inr rfl
  | cons e m ih =>
    simp only [SMap.keep, List.filter_cons] at ih ⊢
    split
    · next he =>
      rw [smap_get_cons]
      split
      · next hk => exact .inl (hk ▸ he)
      · exact ih
    · exact ih

/-- A key all of whose values the test accepts reads as before. -/
theorem smap_get_keep_all {α : Type} (m : SMap α) (d : α) {f : Nat → α → Bool} {k : Nat} (h : ∀ v, f k v = true) :
    SMap.get (m.keep f) d k = SMap.get m d k := by
  induction m with
  | nil => rfl
  | cons e m ih =>
    simp only [SMap.keep, List.filter_cons] at ih ⊢
    split
    · rw [smap_get_cons, smap_get_cons, ih]
    · next he =>
      have hk : e.1 ≠ k := fun hk => he (hk ▸ h e.2)
      rw [ih, smap_get_cons, if_neg hk]

/-- A copy that base die 0 leaves as it is: one of a compute die, or one that is off by 5 ns at most. -/
def copyStays (k : Nat) (d : Int) : Bool := decide (16 ≤ k) || (decide (-5 ≤ d) && decide (d ≤ 5))

theorem copyStays_iff (k : Nat) (d : Int) : copyStays k d = true ↔ 16 ≤ k ∨ (-5 ≤ d ∧ d ≤ 5) := by
  simp [copyStays]

theorem exec_timebaseCheck (s : State) : exec .timebaseCheck s = .next { s with skew := s.skew.keep copyStays } := rfl

theorem completes_timebaseCheck (s : State) :
    Completes .timebaseCheck s (fun t => (∀ b, b < 16 → -5 ≤ t.skew.get 0 b ∧ t.skew.get 0 b ≤ 5) ∧
      (∀ k, 16 ≤ k → t.skew.get 0 k = s.skew.get 0 k) ∧ t = { s with skew := t.skew } ∧
      ((∀ e ∈ s.skew, e.1 < 16 → -5 ≤ e.2 ∧ e.2 ≤ 5) → t = s)) := by
  refine ⟨_, exec_timebaseCheck s, fun b hb => ?_, fun k hk => ?_, rfl, fun hnear => ?_⟩
  · rcases smap_get_keep s.skew 0 copyStays b with h | h
    · exact ((copyStays_iff _ _).1 h).resolve_left (Nat.not_le.2 hb)
    · rw [h]
      decide
  · exact smap_get_keep_all s.skew 0 (fun d => (copyStays_iff k d).2 (.inl hk))
  · have hkeep : s.skew.keep copyStays = s.skew := by
      refine List.filter_eq_self.2 (fun e he => (copyStays_iff _ _).2 ?_)
      rcases Nat.lt_or_ge e.1 16 with hlt | hge
      · exact .inr (hnear e he hlt)
      · exact .inl hge
    rw [hkeep]

/-- Settles O53: clause by clause, each from the equation of its row. -/
theorem winnowAndTrace : Obligations.WinnowAndTrace := by
  intro s
  refine ⟨fun d => ⟨fun h => ⟨s, exec_winnowSchedule_idle h, rfl⟩, fun hd hen ha hs h8 h12 hquiet => ?schedule⟩,
    fun c crc ok w hc hw ha hok => ?kernel, fun u typ sub x => ?record, fun u t0 per (hper : per = s.samplePeriod u) hat hearly => ?early,
    fun u per hu hon hroom (hper : per = s.samplePeriod u) hover => ?sample, fun u => ?datagram, completes_timebaseCheck s⟩
  case schedule =>
    have hgo := exec_winnowSchedule hd hen ha hs h8 h12
    refine ⟨fun c => completes_forced hgo hquiet, fun hnone => ⟨completes_idleSlot hgo hquiet hnone, fun hbusy htaken => ?_,
      fun hbusy hfree => completes_dueMarked hgo hquiet hnone hbusy hen hfree⟩⟩
    exact ⟨_, hgo, wnwDie_taken hquiet hnone hbusy htaken⟩
  case kernel =>
    subst hw
    refine ⟨fun hstop => ⟨s, exec_kernelEnd_stopped hstop crc, rfl⟩, fun hrun hn => ⟨completes_kernel_next ha hrun hn hok,
      completes_kernel_slot ha hrun hn hok, completes_kernel_returned ha hrun hn hok, completes_kernel_passed ha hrun hn hok,
      fun hr hmiss => ?_, fun hr => ?_, completes_kernel_transient ha hrun hn hok hc, completes_kernel_fenced ha hrun hn hok hc⟩⟩
    · exact ⟨_, exec_kernelEnd ha hrun hn hok 0 hr, by rw [hmiss]; exact wnwOf_modWnw_self s c _, by rw [hmiss]; rfl⟩
    · exact ⟨_, exec_kernelEnd ha hrun hn hok 2 hr, wnwOf_modWnw_self s c _, rfl⟩
  case record =>
    exact ⟨fun h => ⟨s, exec_traceRecord_idle h sub x, rfl⟩, fun hu hon =>
      ⟨completes_record_taken hu hon sub x, completes_record_dropped hu hon sub x⟩⟩
  case early =>
    refine ⟨_, exec_traceSample s u, ?_⟩
    rw [sampleDue_early hat (by rwa [← hper]), Bool.and_false]
    rfl
  case sample =>
    exact completes_sampled hu (sampleDue_over hon (by rwa [← hper])) hroom
  case datagram =>
    exact ⟨fun h => ⟨s, exec_datagram_idle h, rfl⟩, completes_datagram, completes_datagram_lost⟩

end Sys2Proof.Proofs.Module

/-! PROOF of VectorArithmetic, first part: the number of a finite value, and the integer that a rounding makes of it (R51). -/

namespace Sys2Proof.Proofs.Formats

open Sys2Proof Sys2Proof.Machine Sys2Proof.Laws

/-! ### The number of a sign, a significand and an exponent -/

/-- The number (−1)^neg · m · 2^e. -/
def num (neg : Bool) (m : Nat) (e : ℤ) : ℚ := (if neg then -1 else 1) * m * (2 : ℚ) ^ e

theorem numOf_fin (neg : Bool) (m : Nat) (e : ℤ) : numOf (.fin neg m e) = some (num neg m e) := rfl

/-- The values that stand for a number are the finite ones. -/
theorem exists_of_numOf {v : Val} {x : ℚ} (h : numOf v = some x) : ∃ n m e, v = .fin n m e ∧ x = num n m e := by
  cases v with
  | fin n m e => exact ⟨n, m, e, rfl, (Option.some.inj h).symm⟩
  | nan => cases h
  | inf n => cases h

theorem num_true (m : Nat) (e : ℤ) : num true m e = -num false m e := by simp [num]

theorem num_false (m : Nat) (e : ℤ) : num false m e = m * (2 : ℚ) ^ e := by simp [num]

@[simp] theorem num_int (m : Nat) : num false m 0 = m := by simp [num]

theorem num_false_nonneg (m : Nat) (e : ℤ) : 0 ≤ num false m e := by
  rw [num_false]
  positivity

theorem num_eq_zero_iff {neg : Bool} {m : Nat} {e : ℤ} : num neg m e = 0 ↔ m = 0 := by
  have he : (2 : ℚ) ^ e ≠ 0 := zpow_ne_zero e two_ne_zero
  cases neg <;> simp [num, he]

theorem num_false_pos {m : Nat} (hm : m ≠ 0) (e : ℤ) : 0 < num false m e :=
  lt_of_le_of_ne (num_false_nonneg m e) (Ne.symm (mt num_eq_zero_iff.1 hm))

theorem abs_num (neg : Bool) (m : Nat) (e : ℤ) : |num neg m e| = num false m e := by
  cases neg
  · exact abs_of_nonneg (num_false_nonneg m e)
  · rw [num_true, abs_neg, abs_of_nonneg (num_false_nonneg m e)]

/-- Numbers of one sign are equal where their magnitudes are. -/
theorem num_inj {neg : Bool} {m n : Nat} {e d : ℤ} : num neg m e = num neg n d ↔ num false m e = num false n d := by
  cases neg
  · rfl
  · rw [num_true, num_true, neg_inj]

theorem num_div (neg : Bool) (m : Nat) (e q : ℤ) : num neg m e / (2 : ℚ) ^ q = num neg m (e - q) := by
  simp only [num, zpow_sub₀ (two_ne_zero' ℚ)]
  ring

/-- A number's leading bit is that of its significand, moved by its exponent. -/
theorem log_num {m : Nat} (hm : m ≠ 0) (e : ℤ) : Int.log 2 (num false m e) = e + Nat.log2 m := by
  have hpos := num_false_pos hm e
  have hlow : (2 : ℚ) ^ Nat.log2 m ≤ m := by exact_mod_cast Nat.log2_self_le hm
  have hhigh : (m : ℚ) < 2 ^ (Nat.log2 m + 1) := by exact_mod_cast Nat.lt_log2_self
  have he : (0 : ℚ) < 2 ^ e := by positivity
  apply le_antisymm
  · refine Int.lt_add_one_iff.1 ((Int.lt_zpow_iff_log_lt Nat.one_lt_two hpos).1 ?_)
    calc num false m e = m * 2 ^ e := num_false m e
      _ < 2 ^ (Nat.log2 m + 1) * 2 ^ e := mul_lt_mul_of_pos_right hhigh he
      _ = ((2 : ℕ) : ℚ) ^ (e + Nat.log2 m + 1) := by
        rw [Nat.cast_ofNat, ← zpow_natCast, ← zpow_add₀ two_ne_zero]
        congr 1
        push_cast
        ring
  · refine (Int.zpow_le_iff_le_log Nat.one_lt_two hpos).1 ?_
    calc ((2 : ℕ) : ℚ) ^ (e + (Nat.log2 m : ℤ)) = 2 ^ Nat.log2 m * 2 ^ e := by
          rw [Nat.cast_ofNat, zpow_add₀ two_ne_zero, zpow_natCast, mul_comm]
      _ ≤ m * 2 ^ e := mul_le_mul_of_nonneg_right hlow he.le
      _ = num false m e := (num_false m e).symm

/-! ### The integer that a rounding mode makes of a number (R51) -/

/-- The rounding mode that acts on a number as `rm` does on its opposite. -/
def mirror (rm : Nat) : Nat :=
  match rm with
  | 0 => 0 | 1 => 1 | 2 => 3 | _ => 2

theorem mirror_lt (rm : Nat) : mirror rm < 4 := by
  unfold mirror
  split <;> decide

/-- An integer is its own rounding. -/
theorem rounded_intCast (rm : Nat) (n : ℤ) : rounded rm n = n := by
  unfold rounded
  split <;> simp

/-- Rounding to nearest does not depend on the sign. -/
theorem rounded_nearest_neg (x : ℚ) : rounded 0 (-x) = -rounded 0 x := by
  by_cases hx : x = ⌊x⌋
  · rw [hx, ← Int.cast_neg, rounded_intCast, rounded_intCast]
  · have hlt : (⌊x⌋ : ℚ) < x := lt_of_le_of_ne (Int.floor_le x) (Ne.symm hx)
    have hfloor : ⌊-x⌋ = -⌊x⌋ - 1 := by
      rw [Int.floor_eq_iff]
      have := Int.lt_floor_add_one x
      push_cast
      constructor <;> linarith
    have hfrac : -x - (⌊-x⌋ : ℚ) = 1 - (x - ⌊x⌋) := by
      rw [hfloor]
      push_cast
      ring
    simp only [rounded, hfrac]
    rw [hfloor]
    rcases lt_trichotomy (x - ⌊x⌋) (1 / 2) with h | h | h
    · rw [if_neg (by rintro (g | ⟨g, -⟩) <;> linarith), if_pos (.inl h)]
      ring
    · rw [h]
      norm_num
      split_ifs <;> omega
    · rw [if_pos (.inl (by linarith)), if_neg (by rintro (g | ⟨g, -⟩) <;> linarith)]
      ring

/-- Rounding a number's opposite is rounding the number in the mirrored mode. -/
theorem rounded_neg {rm : Nat} (hrm : rm < 4) (x : ℚ) : rounded rm (-x) = -rounded (mirror rm) x := by
  match rm with
  | 0 => exact rounded_nearest_neg x
  | 1 =>
    simp only [rounded, mirror]
    rcases lt_trichotomy x 0 with h | h | h
    · rw [if_pos (by linarith), if_neg (by linarith), Int.floor_neg]
    · simp [h]
    · rw [if_neg (by linarith), if_pos h.le, Int.ceil_neg]
  | 2 => exact Int.floor_neg
  | 3 => exact Int.ceil_neg

/-- A negative magnitude is rounded as a positive one in the mirrored mode. -/
theorem roundAt_true {rm : Nat} (hrm : rm < 4) (m : Nat) (e q : ℤ) : roundAt rm true m e q = roundAt (mirror rm) false m e q := by
  match rm with
  | 0 => rfl
  | 1 => rfl
  | 2 => rfl
  | 3 => rfl

/-- A multiple of the last bit is not rounded. -/
theorem roundAt_of_le {e q : ℤ} (h : q ≤ e) (rm : Nat) (neg : Bool) (m : Nat) :
    roundAt rm neg m e q = (m <<< (e - q).toNat, false) := if_pos h

/-- What lies above the last bit, and what lies below it, as a fraction of the last bit. -/
theorem num_split {e q : ℤ} (h : e < q) (m : Nat) :
    num false m (e - q) = (m >>> (q - e).toNat : ℕ) + (m % 2 ^ (q - e).toNat : ℕ) / 2 ^ (q - e).toNat := by
  have hk : e - q = -((q - e).toNat : ℤ) := by omega
  have hm : ((2 ^ (q - e).toNat * (m >>> (q - e).toNat) + m % 2 ^ (q - e).toNat : ℕ) : ℚ) = m := by
    rw [Nat.shiftRight_eq_div_pow, Nat.div_add_mod]
  push_cast at hm
  rw [hk, num_false, zpow_neg, zpow_natCast, ← hm]
  field_simp

theorem num_shift {e q : ℤ} (h : q ≤ e) (neg : Bool) (m : Nat) : num neg m e = num neg (m <<< (e - q).toNat) q := by
  have he : e = q + ((e - q).toNat : ℤ) := by omega
  conv_lhs => rw [he]
  simp only [num, Nat.shiftLeft_eq, zpow_add₀ (two_ne_zero' ℚ), zpow_natCast]
  push_cast
  ring

section Fraction

variable {n r k : Nat} (hr : r < 2 ^ k)
include hr

theorem frac_lt_one : (r : ℚ) / 2 ^ k < 1 := (div_lt_one (by positivity)).2 (by exact_mod_cast hr)

theorem floor_frac : ⌊(n : ℚ) + r / 2 ^ k⌋ = n := by
  have h0 : (0 : ℚ) ≤ r / 2 ^ k := by positivity
  have h1 := frac_lt_one hr
  rw [Int.floor_eq_iff]
  push_cast
  constructor <;> linarith

theorem ceil_frac : ⌈(n : ℚ) + r / 2 ^ k⌉ = if r = 0 then (n : ℤ) else n + 1 := by
  by_cases hz : r = 0
  · simp [hz]
  · have h0 : (0 : ℚ) < r / 2 ^ k := div_pos (by exact_mod_cast Nat.pos_of_ne_zero hz) (by positivity)
    have h1 := frac_lt_one hr
    rw [if_neg hz, Int.ceil_eq_iff]
    push_cast
    constructor <;> linarith

/-- Rounding to nearest goes up past half of the last bit, and at half of it from an odd multiple. -/
theorem rounded_nearest_frac :
    rounded 0 ((n : ℚ) + r / 2 ^ k) = if 2 ^ k < 2 * r ∨ 2 * r = 2 ^ k ∧ n % 2 = 1 then (n : ℤ) + 1 else n := by
  have hk : (0 : ℚ) < 2 ^ k := by positivity
  have hbelow : (r : ℚ) / 2 ^ k < 1 / 2 ↔ 2 * r < 2 ^ k := by
    rw [div_lt_div_iff₀ hk two_pos]
    norm_cast
    omega
  have htie : (r : ℚ) / 2 ^ k = 1 / 2 ↔ 2 * r = 2 ^ k := by
    rw [div_eq_div_iff hk.ne' two_ne_zero]
    norm_cast
    omega
  simp only [rounded, floor_frac hr, Int.cast_natCast, add_sub_cancel_left, hbelow, htie]
  split_ifs <;> omega

end Fraction

/-- `roundAt` rounds a positive number as R51 has it. -/
theorem roundAt_false {rm : Nat} (hrm : rm < 4) (m : Nat) (e q : ℤ) :
    rounded rm (num false m (e - q)) = (roundAt rm false m e q).1 := by
  by_cases hq : q ≤ e
  · rw [roundAt_of_le hq, num_shift (q := 0) (by omega), Int.sub_zero]
    have hint : num false (m <<< (e - q).toNat) 0 = (((m <<< (e - q).toNat : ℕ) : ℤ) : ℚ) := num_int _
    rw [hint, rounded_intCast]
  · rw [num_split (lt_of_not_ge hq), roundAt, if_neg hq]
    dsimp only
    have hr := Nat.mod_lt m (Nat.two_pow_pos (q - e).toNat)
    match rm with
    | 0 =>
      rw [rounded_nearest_frac hr]
      simp only [bitB, bitN, Nat.shiftRight_zero, Bool.or_eq_true, Bool.and_eq_true, decide_eq_true_eq, beq_iff_eq]
      split_ifs <;> simp
    | 1 =>
      have h0 : (0 : ℚ) ≤ (m >>> (q - e).toNat : ℕ) + (m % 2 ^ (q - e).toNat : ℕ) / 2 ^ (q - e).toNat := by positivity
      simp only [rounded, if_pos h0, floor_frac hr, Bool.false_eq_true, if_false]
    | 2 => simp only [rounded, floor_frac hr, Bool.false_and, Bool.false_eq_true, if_false]
    | 3 =>
      simp only [rounded, ceil_frac hr, Bool.not_false, Bool.true_and, decide_eq_true_eq, ne_eq, ite_not]
      split_ifs <;> simp

/-- `roundAt` rounds the magnitude of a number as R51 has it. -/
theorem rounded_num {rm : Nat} (hrm : rm < 4) (neg : Bool) (m : Nat) (e q : ℤ) :
    (rounded rm (num neg m (e - q)) : ℚ) = num neg (roundAt rm neg m e q).1 0 := by
  cases neg with
  | false => simp [roundAt_false hrm]
  | true => simp [num_true, rounded_neg hrm, roundAt_false (mirror_lt rm), roundAt_true hrm]

/-- Every mode rounds to one of the two integers beside a number. -/
theorem rounded_near (rm : Nat) (x : ℚ) : |(rounded rm x : ℚ) - x| < 1 := by
  have h1 := Int.floor_le x
  have h2 := Int.lt_floor_add_one x
  have h3 := Int.le_ceil x
  have h4 := Int.ceil_lt_add_one x
  rw [abs_lt]
  unfold rounded
  split
  · split_ifs with h
    · constructor <;> linarith
    · have : ¬ x - ⌊x⌋ < 1 / 2 := fun g => h (.inl g)
      push_cast
      constructor <;> linarith
  · split_ifs
    · constructor <;> linarith
    · constructor <;> linarith
  · constructor <;> linarith
  · constructor <;> linarith

/-- A magnitude is rounded by less than one last bit. -/
theorem roundAt_near {rm : Nat} (hrm : rm < 4) (neg : Bool) (m : Nat) (e q : ℤ) :
    |((roundAt rm neg m e q).1 : ℚ) - num false m (e - q)| < 1 := by
  cases neg with
  | false => simpa [roundAt_false hrm] using rounded_near rm (num false m (e - q))
  | true => simpa [roundAt_true hrm, roundAt_false (mirror_lt rm)] using rounded_near (mirror rm) (num false m (e - q))

/-- A rounding is noted as inexact where it changes the number. -/
theorem roundAt_inexact (rm : Nat) (neg : Bool) (m : Nat) (e q : ℤ) :
    (roundAt rm neg m e q).2 = true ↔ ((roundAt rm neg m e q).1 : ℚ) ≠ num false m (e - q) := by
  by_cases hq : q ≤ e
  · rw [roundAt_of_le hq, num_shift (q := 0) (by omega), Int.sub_zero]
    simp
  · have hinx : (roundAt rm neg m e q).2 = decide (m % 2 ^ (q - e).toNat ≠ 0) := by
      unfold roundAt
      rw [if_neg hq]
    have hr := Nat.mod_lt m (Nat.two_pow_pos (q - e).toNat)
    rw [num_split (lt_of_not_ge hq), hinx, decide_eq_true_iff]
    constructor
    · intro hz heq
      have hfloor := floor_frac (n := m >>> (q - e).toNat) hr
      have hceil := ceil_frac (n := m >>> (q - e).toNat) hr
      rw [← heq, Int.floor_natCast] at hfloor
      rw [← heq, Int.ceil_natCast, if_neg hz] at hceil
      omega
    · intro hne hz
      apply hne
      unfold roundAt
      rw [if_neg hq]
      split <;> simp [hz, (Nat.two_pow_pos _).ne]

end Sys2Proof.Proofs.Formats

/-! PROOF of VectorArithmetic, second part: one rounding into a floating format (R45, R46, R51 to R53, R57). -/

namespace Sys2Proof.Proofs.Formats

open Sys2Proof Sys2Proof.Machine Sys2Proof.Laws

/-! ### Floating codes (R45, R46) -/

/-- The exponent of the last bit of a format's subnormal values. -/
def subBit (t : FFmt) : ℤ := 1 - (t.bias : ℤ) - t.mw

/-- Significand of a code without sign. -/
def codeSig (t : FFmt) (c : Nat) : Nat := if c / 2 ^ t.mw = 0 then c % 2 ^ t.mw else c % 2 ^ t.mw + 2 ^ t.mw

/-- Exponent of the last bit of a code without sign: that of the subnormals, or of the code's binade. -/
def codeExp (t : FFmt) (c : Nat) : ℤ := if c / 2 ^ t.mw = 0 then subBit t else (c / 2 ^ t.mw : ℕ) - t.bias - t.mw

/-- A floating format has normal values, its finite codes fit its bits, and the last of them is its largest finite value. -/
structure Floating (f : Nat) : Prop where
  normal : 2 ^ (fpFmt f).mw ≤ (fpFmt f).maxc
  fits : (fpFmt f).maxc < 2 ^ ((fpFmt f).ew + (fpFmt f).mw)
  width : fmtBits f = (fpFmt f).ew + (fpFmt f).mw + 1
  top : maxNum f = num false (codeSig (fpFmt f) (fpFmt f).maxc) (codeExp (fpFmt f) (fpFmt f).maxc)

theorem floating {f : Nat} (h7 : 7 ≤ f) (h14 : f ≤ 14) : Floating f := by
  interval_cases f
  all_goals
    refine ⟨by decide, by decide, by decide, ?_⟩
    norm_num [maxNum, num, codeSig, codeExp, subBit, fpFmt]

section Codes

variable {f c : Nat} (hf : Floating f) (hc : c ≤ (fpFmt f).maxc) (neg : Bool)
include hf hc

theorem withSign_lt : (fpFmt f).withSign neg c < 2 ^ fmtBits f := by
  have := hf.fits
  rw [hf.width, Nat.pow_succ]
  unfold FFmt.withSign
  split <;> omega

theorem bitB_withSign : bitB ((fpFmt f).withSign neg c) ((fpFmt f).ew + (fpFmt f).mw) = neg := by
  have hlt := lt_of_le_of_lt hc hf.fits
  have hpos := Nat.two_pow_pos ((fpFmt f).ew + (fpFmt f).mw)
  cases neg with
  | false => simp [bitB, bitN, FFmt.withSign, Nat.shiftRight_eq_div_pow, Nat.div_eq_of_lt hlt]
  | true => simp [bitB, bitN, FFmt.withSign, Nat.shiftRight_eq_div_pow, Nat.add_div_right _ hpos, Nat.div_eq_of_lt hlt]

theorem withSign_mod : (fpFmt f).withSign neg c % 2 ^ ((fpFmt f).ew + (fpFmt f).mw) = c := by
  have hlt := lt_of_le_of_lt hc hf.fits
  cases neg with
  | false => simp [FFmt.withSign, Nat.mod_eq_of_lt hlt]
  | true => simp [FFmt.withSign, Nat.mod_eq_of_lt hlt]

/-- A finite code with its sign encodes a number. -/
theorem fpVal_withSign : fpVal f ((fpFmt f).withSign neg c) = .fin neg (codeSig (fpFmt f) c) (codeExp (fpFmt f) c) := by
  have hfin : ¬ ((fpFmt f).maxc < c ∧ (fpFmt f).nan.isSome) := fun h => by omega
  simp only [fpVal, withSign_mod hf hc, bitB_withSign hf hc, if_neg hfin, codeSig, codeExp, Nat.shiftRight_eq_div_pow]
  split <;> rfl

end Codes

/-- The code `d` binades above the subnormals with significand `a`, which may have reached the next binade. -/
theorem num_code (t : FFmt) {d a : Nat} (ha : a ≤ 2 ^ (t.mw + 1)) (hd : d = 0 ∨ 2 ^ t.mw ≤ a) :
    num false (codeSig t (d * 2 ^ t.mw + a)) (codeExp t (d * 2 ^ t.mw + a)) = num false a (d + subBit t) := by
  have hpos := Nat.two_pow_pos t.mw
  rw [Nat.pow_succ] at ha
  have hdiv : (d * 2 ^ t.mw + a) / 2 ^ t.mw = d + a / 2 ^ t.mw := by rw [Nat.add_comm, Nat.add_mul_div_right _ _ hpos, Nat.add_comm]
  have hmod : (d * 2 ^ t.mw + a) % 2 ^ t.mw = a % 2 ^ t.mw := by rw [Nat.add_comm, Nat.add_mul_mod_self_right]
  unfold codeSig codeExp
  rw [hdiv, hmod]
  rcases Nat.lt_or_ge a (2 ^ t.mw) with hsub | hnorm
  · obtain rfl : d = 0 := hd.resolve_right (Nat.not_le.2 hsub)
    simp [Nat.div_eq_of_lt hsub, Nat.mod_eq_of_lt hsub]
  · have hne : d + a / 2 ^ t.mw ≠ 0 := by
      have := Nat.div_pos hnorm hpos
      omega
    rw [if_neg hne, if_neg hne]
    rcases Nat.lt_or_ge a (2 ^ t.mw * 2) with hlt | hge
    · have hone : a / 2 ^ t.mw = 1 := Nat.div_eq_of_lt_le (by omega) (by omega)
      have hsig : a % 2 ^ t.mw + 2 ^ t.mw = a := by
        have := Nat.div_add_mod a (2 ^ t.mw)
        rw [hone] at this
        omega
      rw [hone, hsig]
      congr 1
      unfold subBit
      push_cast
      ring
    · obtain rfl : a = 2 ^ t.mw * 2 := le_antisymm ha hge
      have hexp : ((d + 2 ^ t.mw * 2 / 2 ^ t.mw : ℕ) : ℤ) - t.bias - t.mw = d + subBit t + 1 := by
        rw [Nat.mul_div_cancel_left _ hpos]
        unfold subBit
        push_cast
        ring
      rw [hexp, Nat.mul_mod_right, num_false, num_false, zpow_add_one₀ two_ne_zero]
      push_cast
      ring

/-- Codes with their significands stand in the order of their numbers: the significand `A` of the binade `D` is a normal one. -/
theorem code_lt_iff {w D A d a : Nat} (hA : 2 ^ w ≤ A) (hA' : A < 2 ^ (w + 1)) (ha : a ≤ 2 ^ (w + 1)) (hd : d = 0 ∨ 2 ^ w ≤ a) :
    D * 2 ^ w + A < d * 2 ^ w + a ↔ A * 2 ^ D < a * 2 ^ d := by
  rw [Nat.pow_succ] at hA' ha
  rcases lt_trichotomy d D with h | rfl | h
  · obtain ⟨k, rfl⟩ := Nat.exists_eq_add_of_lt h
    have hcode : d * 2 ^ w + a ≤ (d + k + 1) * 2 ^ w + A := by nlinarith
    have hnum : a * 2 ^ d ≤ A * 2 ^ (d + k + 1) :=
      calc a * 2 ^ d ≤ A * 2 * 2 ^ d := Nat.mul_le_mul_right _ (by omega)
        _ = A * 2 ^ (d + 1) := by ring
        _ ≤ A * 2 ^ (d + k + 1) := Nat.mul_le_mul_left _ (Nat.pow_le_pow_right two_pos (by omega))
    exact iff_of_false (Nat.not_lt.2 hcode) (Nat.not_lt.2 hnum)
  · rw [Nat.add_lt_add_iff_left, Nat.mul_lt_mul_right (Nat.two_pow_pos d)]
  · obtain ⟨k, rfl⟩ := Nat.exists_eq_add_of_lt h
    have hnorm : 2 ^ w ≤ a := hd.resolve_left (by omega)
    have hcode : D * 2 ^ w + A < (D + k + 1) * 2 ^ w + a := by nlinarith
    have hnum : A * 2 ^ D < a * 2 ^ (D + k + 1) :=
      calc A * 2 ^ D < a * 2 * 2 ^ D := Nat.mul_lt_mul_of_pos_right (by omega) (Nat.two_pow_pos D)
        _ = a * 2 ^ (D + 1) := by ring
        _ ≤ a * 2 ^ (D + k + 1) := Nat.mul_le_mul_left _ (Nat.pow_le_pow_right two_pos (by omega))
    exact iff_of_true hcode hnum

/-- A code lies past the last finite one where its number lies past the largest finite number. -/
theorem maxc_lt_iff {f d a : Nat} (hf : Floating f) (ha : a ≤ 2 ^ ((fpFmt f).mw + 1)) (hd : d = 0 ∨ 2 ^ (fpFmt f).mw ≤ a) :
    (fpFmt f).maxc < d * 2 ^ (fpFmt f).mw + a ↔ maxNum f < num false a (d + subBit (fpFmt f)) := by
  set t := fpFmt f
  have hpos := Nat.two_pow_pos t.mw
  obtain ⟨D, hD⟩ : ∃ D, t.maxc / 2 ^ t.mw = D + 1 := Nat.exists_eq_add_one.2 (Nat.div_pos hf.normal hpos)
  set A := t.maxc % 2 ^ t.mw + 2 ^ t.mw
  have hA : A < 2 ^ (t.mw + 1) := by
    have := Nat.mod_lt t.maxc hpos
    rw [Nat.pow_succ]
    omega
  have hmax : t.maxc = D * 2 ^ t.mw + A := by
    have := Nat.div_add_mod t.maxc (2 ^ t.mw)
    rw [hD] at this
    show t.maxc = D * 2 ^ t.mw + (t.maxc % 2 ^ t.mw + 2 ^ t.mw)
    linarith
  have hbit : (0 : ℚ) < 2 ^ subBit t := by positivity
  have hscale : ∀ n k : Nat, num false n (k + subBit t) = ((n * 2 ^ k : ℕ) : ℚ) * 2 ^ subBit t := by
    intro n k
    rw [num_false, zpow_add₀ two_ne_zero, zpow_natCast]
    push_cast
    ring
  rw [hf.top]
  change _ ↔ num false (codeSig t t.maxc) (codeExp t t.maxc) < _
  rw [hmax, code_lt_iff (Nat.le_add_left _ _) hA ha hd, num_code t hA.le (.inr (Nat.le_add_left _ _)), hscale, hscale,
    mul_lt_mul_iff_of_pos_right hbit, Nat.cast_lt]

/-! ### One rounding into a floating format (R51 to R53, R57) -/

section Rounding

variable {f rm m : Nat} {sat neg : Bool} {e : ℤ}

theorem lastBit_num (hm : m ≠ 0) : lastBit f (num neg m e) = max (e + Nat.log2 m - (fpFmt f).mw) (subBit (fpFmt f)) := by
  rw [lastBit, abs_num, log_num hm, subBit, max_sub_sub_right]

/-- The magnitude, in units of the last bit, that a number is rounded to in a floating format. -/
def mag (f rm : Nat) (neg : Bool) (m : Nat) (e : ℤ) : Nat := (roundAt rm neg m e (lastBit f (num neg m e))).1

/-- The binade of a rounded number, counted from the subnormals. -/
def binade (f : Nat) (x : ℚ) : Nat := (lastBit f x - subBit (fpFmt f)).toNat

/-- The code of a rounded number, without sign and without an upper limit. -/
def magCode (f rm : Nat) (neg : Bool) (m : Nat) (e : ℤ) : Nat := binade f (num neg m e) * 2 ^ (fpFmt f).mw + mag f rm neg m e

theorem binade_add (hm : m ≠ 0) : (binade f (num neg m e) : ℤ) + subBit (fpFmt f) = lastBit f (num neg m e) := by
  have : subBit (fpFmt f) ≤ lastBit f (num neg m e) := by rw [lastBit_num hm]; exact le_max_right _ _
  unfold binade
  omega

theorem roundNum_num (hrm : rm < 4) : roundNum f rm (num neg m e) = num neg (mag f rm neg m e) (lastBit f (num neg m e)) := by
  rw [roundNum, num_div, rounded_num hrm]
  simp [num, mag]

/-- A number has at most the format's significand bits above its last bit. -/
theorem mag_le (hrm : rm < 4) (hm : m ≠ 0) : mag f rm neg m e ≤ 2 ^ ((fpFmt f).mw + 1) := by
  have hnear := (abs_lt.1 (roundAt_near hrm neg m e (lastBit f (num neg m e)))).2
  have hbound : num false m (e - lastBit f (num neg m e)) < 2 ^ ((fpFmt f).mw + 1) := by
    have hlog := Int.lt_zpow_succ_log_self Nat.one_lt_two (num false m e)
    rw [log_num hm, Nat.cast_ofNat] at hlog
    have hle : e + Nat.log2 m - (fpFmt f).mw ≤ lastBit f (num neg m e) := by rw [lastBit_num hm]; exact le_max_left _ _
    rw [← num_div, div_lt_iff₀ (by positivity), ← zpow_natCast, ← zpow_add₀ two_ne_zero]
    refine hlog.trans_le (zpow_le_zpow_right₀ one_le_two ?_)
    push_cast
    linarith
  have : (mag f rm neg m e : ℚ) < 2 ^ ((fpFmt f).mw + 1) + 1 := by
    unfold mag
    linarith
  exact Nat.lt_succ_iff.1 (by exact_mod_cast this)

/-- Above the subnormals a number has all of the format's significand bits. -/
theorem le_mag (hrm : rm < 4) (hm : m ≠ 0) : binade f (num neg m e) = 0 ∨ 2 ^ (fpFmt f).mw ≤ mag f rm neg m e := by
  rcases Nat.eq_zero_or_pos (binade f (num neg m e)) with h | h
  · exact .inl h
  · have hnear := (abs_lt.1 (roundAt_near hrm neg m e (lastBit f (num neg m e)))).1
    have hbound : 2 ^ (fpFmt f).mw ≤ num false m (e - lastBit f (num neg m e)) := by
      have hpos := num_false_pos hm e
      have hlog := Int.zpow_log_le_self Nat.one_lt_two hpos
      rw [log_num hm, Nat.cast_ofNat] at hlog
      have hle : lastBit f (num neg m e) = e + Nat.log2 m - (fpFmt f).mw := by
        have := binade_add (f := f) (neg := neg) (e := e) hm
        rw [lastBit_num hm] at this ⊢
        omega
      rw [← num_div, le_div_iff₀ (by positivity), ← zpow_natCast, ← zpow_add₀ two_ne_zero, hle]
      refine le_of_eq_of_le (congrArg _ ?_) hlog
      ring
    have : (2 : ℚ) ^ (fpFmt f).mw < mag f rm neg m e + 1 := by
      unfold mag
      linarith
    exact .inr (Nat.lt_succ_iff.1 (by exact_mod_cast this))

/-- `roundFp` delivers the code of the rounded number, or past the last finite code what R53 has for an overflow. -/
theorem roundFp_of_ne_zero (hm : m ≠ 0) :
    roundFp f rm sat neg m e = if (fpFmt f).maxc < magCode f rm neg m e then
      (if sat || (fpFmt f).nan.isNone || !ovfInf rm neg then (fpFmt f).withSign neg (fpFmt f).maxc
        else if (fpFmt f).hasInf then (fpFmt f).withSign neg (fpFmt f).infCode else (fpFmt f).nan.getD 0, fOF + fNX)
      else ((fpFmt f).withSign neg (magCode f rm neg m e),
        (if (roundAt rm neg m e (lastBit f (num neg m e))).2 then fNX else 0) +
          (if (roundAt rm neg m e (lastBit f (num neg m e))).2 && decide (e + Nat.log2 m < 1 - ((fpFmt f).bias : ℤ)) then fUF else 0)) := by
  unfold roundFp magCode binade mag
  rw [if_neg hm, lastBit_num hm]
  rfl

/-- A code is finite where the rounded number does not lie past the largest finite one. -/
theorem maxc_lt_magCode_iff (hf : Floating f) (hrm : rm < 4) (hm : m ≠ 0) :
    (fpFmt f).maxc < magCode f rm neg m e ↔ maxNum f < |roundNum f rm (num neg m e)| := by
  rw [roundNum_num hrm, abs_num, ← binade_add hm]
  exact maxc_lt_iff hf (mag_le hrm hm) (le_mag hrm hm)

/-- A finite code of a rounded number encodes it. -/
theorem numOf_magCode (hf : Floating f) (hrm : rm < 4) (hm : m ≠ 0) (hc : magCode f rm neg m e ≤ (fpFmt f).maxc) :
    numOf (fpVal f ((fpFmt f).withSign neg (magCode f rm neg m e))) = some (roundNum f rm (num neg m e)) := by
  rw [fpVal_withSign hf hc, numOf_fin, roundNum_num hrm, ← binade_add hm]
  exact congrArg some (num_inj.2 (num_code (fpFmt f) (mag_le hrm hm) (le_mag hrm hm)))

/-- A rounding into a floating format is exact where it leaves the number as it is. -/
theorem roundNum_eq_iff (hrm : rm < 4) :
    roundNum f rm (num neg m e) = num neg m e ↔ (roundAt rm neg m e (lastBit f (num neg m e))).2 = false := by
  have hbit : (2 : ℚ) ^ lastBit f (num neg m e) ≠ 0 := zpow_ne_zero _ two_ne_zero
  rw [← Bool.not_eq_true, roundAt_inexact, not_not, roundNum_num hrm, num_inj, ← num_div, eq_div_iff hbit, num_false]
  rfl

/-- A number lies below a power of two where its leading bit does. -/
theorem abs_num_lt_iff (hm : m ≠ 0) (k : ℤ) : |num neg m e| < (2 : ℚ) ^ k ↔ e + Nat.log2 m < k := by
  have hpos := num_false_pos hm e
  rw [abs_num, ← log_num hm]
  exact Int.lt_zpow_iff_log_lt Nat.one_lt_two hpos

/-- The overflow of R53 by format number: formats 7 to 9 have neither infinity nor NaN, and format 10 has no infinity. -/
theorem overflow_code (h7 : 7 ≤ f) (h14 : f ≤ 14) (hrm : rm < 4) (sat neg : Bool) :
    (if sat || (fpFmt f).nan.isNone || !ovfInf rm neg then (fpFmt f).withSign neg (fpFmt f).maxc
      else if (fpFmt f).hasInf then (fpFmt f).withSign neg (fpFmt f).infCode else (fpFmt f).nan.getD 0) =
    if toMax f rm sat neg then (fpFmt f).withSign neg (fpFmt f).maxc
      else if f = 10 then 0x7F else (fpFmt f).withSign neg (fpFmt f).infCode := by
  have hnan : (fpFmt f).nan.isNone = decide (f ≤ 9) := by interval_cases f <;> rfl
  have hmode : (!ovfInf rm neg) = (rm == 1 || (rm == 2 && !neg) || (rm == 3 && neg)) := by
    interval_cases rm <;> cases neg <;> rfl
  have hmax : (sat || (fpFmt f).nan.isNone || !ovfInf rm neg) = toMax f rm sat neg := by
    rw [hnan, hmode, toMax]
    simp only [Bool.or_assoc]
  rw [hmax]
  by_cases h9 : f ≤ 9
  · have htop : toMax f rm sat neg = true := by simp [toMax, h9]
    rw [if_pos htop, if_pos htop]
  · refine if_congr Iff.rfl rfl ?_
    have h10 : 10 ≤ f := Nat.lt_of_not_le h9
    clear h9 h7
    interval_cases f <;> rfl

end Rounding

/-- Every number is rounded into every floating format as R51 to R53 and R57 have it. -/
theorem roundFp_roundsTo {f rm : Nat} (h7 : 7 ≤ f) (h14 : f ≤ 14) (hrm : rm < 4) (sat neg : Bool) (m : Nat) (e : ℤ) :
    RoundsTo f rm sat neg (num neg m e) (roundFp f rm sat neg m e) := by
  have hf := floating h7 h14
  refine ⟨fun hx => ?zero, fun hx hle => ?within, fun hx hlt => ?beyond⟩
  case zero => exact if_pos (num_eq_zero_iff.1 hx)
  case within =>
    have hm := mt num_eq_zero_iff.2 hx
    have hc : ¬ (fpFmt f).maxc < magCode f rm neg m e := by rw [maxc_lt_magCode_iff hf hrm hm]; exact not_lt.2 hle
    have hc' := Nat.le_of_not_lt hc
    rw [roundFp_of_ne_zero hm, if_neg hc]
    refine ⟨withSign_lt hf hc' neg, ?_, numOf_magCode hf hrm hm hc', ?_⟩
    · rw [hf.width, Nat.add_sub_cancel]
      exact bitB_withSign hf hc' neg
    · simp only [roundNum_eq_iff hrm, abs_num_lt_iff hm]
      cases (roundAt rm neg m e (lastBit f (num neg m e))).2 <;> simp
  case beyond =>
    have hm := mt num_eq_zero_iff.2 hx
    rw [roundFp_of_ne_zero hm, if_pos ((maxc_lt_magCode_iff hf hrm hm).2 hlt)]
    exact ⟨rfl, overflow_code h7 h14 hrm sat neg⟩

/-- A finite value is encoded, with no flag beside those of its rounding. -/
theorem frOf_roundsTo {f rm : Nat} (h7 : 7 ≤ f) (h14 : f ≤ 14) (hrm : rm < 4) {v : Val × Bool} {x : ℚ} (hv : numOf v.1 = some x)
    (hok : v.2 = false) : RoundsTo f rm false (signVal v.1) x (frOf f rm v) := by
  obtain ⟨val, inv⟩ := v
  obtain ⟨n, m, e, rfl, rfl⟩ := exists_of_numOf hv
  obtain rfl : inv = false := hok
  have henc : frOf f rm (.fin n m e, false) = roundFp f rm false n m e := by simp [frOf, encFp]
  rw [henc]
  exact roundFp_roundsTo h7 h14 hrm false n m e

end Sys2Proof.Proofs.Formats

/-! PROOF of VectorArithmetic, third part: exact sums, products and sums of a product (R58). -/

namespace Sys2Proof.Proofs.Formats

open Sys2Proof Sys2Proof.Machine Sys2Proof.Laws

/-! ### Exact arithmetic (R58) -/

/-- An integer as the sign and the magnitude of a number. -/
theorem num_natAbs (t : ℤ) (e : ℤ) : num (decide (t < 0)) t.natAbs e = t * (2 : ℚ) ^ e := by
  have habs : ((t.natAbs : ℕ) : ℚ) = |(t : ℚ)| := by rw [Nat.cast_natAbs, Int.cast_abs]
  rcases lt_or_ge t 0 with h | h
  · rw [decide_eq_true h, num_true, num_false, habs, abs_of_neg (by exact_mod_cast h)]
    ring
  · rw [decide_eq_false (not_lt.2 h), num_false, habs, abs_of_nonneg (by exact_mod_cast h)]

/-- A finite value in units of the bit 2^d, at or below its last one. -/
def units (d : ℤ) (neg : Bool) (m : Nat) (e : ℤ) : ℤ := if neg then -((m <<< (e - d).toNat : ℕ) : ℤ) else (m <<< (e - d).toNat : ℕ)

theorem num_units {d e : ℤ} (h : d ≤ e) (neg : Bool) (m : Nat) : num neg m e = units d neg m e * 2 ^ d := by
  rw [num_shift h, units]
  generalize m <<< (e - d).toNat = n
  cases neg <;> simp [num]

section Sum

variable {rm m1 m2 : Nat} {n1 n2 : Bool} {e1 e2 : ℤ}

/-- `addFin` adds in units of the lower of the two last bits. -/
theorem addFin_units (t : ℤ) (ht : t = units (min e1 e2) n1 m1 e1 + units (min e1 e2) n2 m2 e2) :
    addFin rm n1 m1 e1 n2 m2 e2 = if t = 0 then .fin (if n1 = n2 then n1 else decide (rm = 2)) 0 (min e1 e2)
      else .fin (decide (t < 0)) t.natAbs (min e1 e2) := by
  rw [ht]
  rfl

theorem num_add_units : num n1 m1 e1 + num n2 m2 e2 =
    ((units (min e1 e2) n1 m1 e1 + units (min e1 e2) n2 m2 e2 : ℤ) : ℚ) * 2 ^ min e1 e2 := by
  rw [num_units (min_le_left e1 e2), num_units (min_le_right e1 e2), Int.cast_add, add_mul]

/-- The sum of two finite values stands for the sum of their numbers. -/
theorem numOf_addFin : numOf (addFin rm n1 m1 e1 n2 m2 e2) = some (num n1 m1 e1 + num n2 m2 e2) := by
  rw [addFin_units _ rfl, num_add_units]
  split
  · next h => simp [h, numOf_fin, num]
  · rw [numOf_fin, num_natAbs]

/-- The sum of two finite values has the sign of the sum of their numbers; a zero's is that of both, or of the rounding mode. -/
theorem signVal_addFin : signVal (addFin rm n1 m1 e1 n2 m2 e2) =
    if num n1 m1 e1 + num n2 m2 e2 = 0 then (if n1 = n2 then n1 else decide (rm = 2)) else decide (num n1 m1 e1 + num n2 m2 e2 < 0) := by
  have hpos : (0 : ℚ) < 2 ^ min e1 e2 := by positivity
  rw [addFin_units _ rfl, num_add_units]
  simp only [mul_eq_zero, hpos.ne', or_false, Int.cast_eq_zero, mul_neg_iff, not_lt_of_gt hpos, and_false, hpos, and_true, false_or,
    Int.cast_lt_zero]
  split <;> rfl

end Sum

/-- Numbers multiply sign by sign, significand by significand and exponent by exponent. -/
theorem num_mul (n1 n2 : Bool) (m1 m2 : Nat) (e1 e2 : ℤ) : num (n1 != n2) (m1 * m2) (e1 + e2) = num n1 m1 e1 * num n2 m2 e2 := by
  have hsign : (if (n1 != n2) = true then (-1 : ℚ) else 1) = (if n1 = true then -1 else 1) * (if n2 = true then -1 else 1) := by
    cases n1 <;> cases n2 <;> norm_num
  simp only [num, hsign, zpow_add₀ (two_ne_zero' ℚ), Nat.cast_mul]
  ring

theorem numOf_negVal {a : Val} {x : ℚ} (ha : numOf a = some x) : numOf (negVal a) = some (-x) := by
  obtain ⟨n, m, e, rfl, rfl⟩ := exists_of_numOf ha
  rw [negVal, numOf_fin]
  cases n <;> simp [num]

section Exact

variable {rm : Nat} {a b d : Val} {x y z : ℚ} (ha : numOf a = some x) (hb : numOf b = some y)
include ha hb

theorem addVal_exact : numOf (addVal rm a b).1 = some (x + y) ∧ (addVal rm a b).2 = false := by
  obtain ⟨n1, m1, e1, rfl, rfl⟩ := exists_of_numOf ha
  obtain ⟨n2, m2, e2, rfl, rfl⟩ := exists_of_numOf hb
  exact ⟨numOf_addFin, rfl⟩

/-- An exact sum has its own sign; that of a zero is of IEEE 754-2019. -/
theorem signVal_addVal : signVal (addVal rm a b).1 =
    if x + y = 0 then (if signVal a = signVal b then signVal a else decide (rm = 2)) else decide (x + y < 0) := by
  obtain ⟨n1, m1, e1, rfl, rfl⟩ := exists_of_numOf ha
  obtain ⟨n2, m2, e2, rfl, rfl⟩ := exists_of_numOf hb
  exact signVal_addFin

theorem mulVal_exact : numOf (mulVal a b).1 = some (x * y) ∧ (mulVal a b).2 = false := by
  obtain ⟨n1, m1, e1, rfl, rfl⟩ := exists_of_numOf ha
  obtain ⟨n2, m2, e2, rfl, rfl⟩ := exists_of_numOf hb
  refine ⟨?_, rfl⟩
  rw [mulVal, numOf_fin, num_mul]

theorem fmaVal_exact (hd : numOf d = some z) : numOf (fmaVal rm a b d).1 = some (x * y + z) ∧ (fmaVal rm a b d).2 = false := by
  obtain ⟨hnum, hok⟩ := mulVal_exact ha hb
  have hfma : fmaVal rm a b d = addVal rm (mulVal a b).1 d := by
    unfold fmaVal
    generalize mulVal a b = r at hok
    obtain ⟨p, iv⟩ := r
    obtain rfl : iv = false := hok
    rfl
  rw [hfma]
  exact addVal_exact hnum hd

end Exact

end Sys2Proof.Proofs.Formats

/-! PROOF of VectorArithmetic, fourth part: instructions of the vector unit, lane by lane (R141, R151, R523). -/

namespace Sys2Proof.Proofs.Formats

open Sys2Proof Sys2Proof.Machine Sys2Proof.Laws Sys2Proof.Proofs.Scope

/-! ### Lanes of a vector (R44, R141) -/

theorem lane_lt (w x i : Nat) : lane w x i < 2 ^ w := Nat.mod_lt _ (Nat.two_pow_pos w)

theorem packLanes_lt (w : Nat) (l : List Nat) : packLanes w l < 2 ^ (w * l.length) := by
  induction l with
  | nil => simp [packLanes]
  | cons v l ih =>
    have hv := Nat.mod_lt v (Nat.two_pow_pos w)
    calc packLanes w (v :: l) = v % 2 ^ w + packLanes w l * 2 ^ w := by rw [packLanes, Nat.shiftLeft_eq]
      _ < (packLanes w l + 1) * 2 ^ w := by rw [Nat.succ_mul]; omega
      _ ≤ 2 ^ (w * l.length) * 2 ^ w := Nat.mul_le_mul_right _ ih
      _ = 2 ^ (w * (v :: l).length) := by rw [← Nat.pow_add, List.length_cons, Nat.mul_succ]

/-- A lane of a packed list is that entry of the list. -/
theorem lane_packLanes (w : Nat) (l : List Nat) {k : Nat} (hk : k < l.length) : lane w (packLanes w l) k = l[k] % 2 ^ w := by
  induction l generalizing k with
  | nil => exact absurd hk (Nat.not_lt_zero k)
  | cons v l ih =>
    have hv := Nat.mod_lt v (Nat.two_pow_pos w)
    have hpos := Nat.two_pow_pos w
    cases k with
    | zero => simp [lane, packLanes, Nat.shiftLeft_eq]
    | succ k =>
      have htail : packLanes w (v :: l) >>> w = packLanes w l := by
        rw [packLanes, Nat.shiftLeft_eq, Nat.shiftRight_eq_div_pow, Nat.add_mul_div_right _ _ hpos, Nat.div_eq_of_lt hv, Nat.zero_add]
      have hnext : lane w (packLanes w (v :: l)) (k + 1) = lane w (packLanes w l) k := by
        rw [lane, Nat.mul_succ, Nat.add_comm, Nat.shiftRight_add, htail, lane]
      rw [hnext, List.getElem_cons_succ]
      exact ih (Nat.lt_of_succ_lt_succ hk)

/-- Lanes that fit a word of `n` bits are not cut. -/
theorem lane_word {n w : Nat} {l : List Nat} (hw : w * l.length ≤ n) {k : Nat} (hk : k < l.length) :
    lane w (BitVec.ofNat n (packLanes w l)).toNat k = l[k] % 2 ^ w := by
  have hlt : packLanes w l < 2 ^ n := (packLanes_lt w l).trans_le (Nat.pow_le_pow_right two_pos hw)
  rw [BitVec.toNat_ofNat, Nat.mod_eq_of_lt hlt, lane_packLanes w l hk]

section Lanewise

variable (w n : Nat) (pg : V128) (old : V1024) (f : Nat → Fr)

theorem lane_lanewise (hw : w * n ≤ 1024) {k : Nat} (hk : k < n) :
    lane w (lanewise w n pg old f).1.toNat k = if bitB pg.toNat k then (f k).1 % 2 ^ w else lane w old.toNat k := by
  unfold lanewise vPack
  dsimp only
  rw [lane_word (by simpa using hw) (by simpa using hk)]
  simp only [List.getElem_map, List.getElem_range]
  split
  · rfl
  · exact Nat.mod_eq_of_lt (lane_lt w _ k)

/-- A lane that keeps its value sets no flag. -/
theorem flags_lanewise : (lanewise w n pg old f).2 =
    ((List.range n).filter (fun k => bitB pg.toNat k)).foldl (fun a k => a ||| (f k).2) 0 := by
  unfold lanewise orFlags
  dsimp only
  rw [List.foldl_map, List.foldl_filter]
  congr 1
  funext a k
  split <;> simp

end Lanewise

/-! ### A cycle of the vector unit, and what an instruction leaves (R57, R185, R523) -/

section Unit

variable (s : State) (c p : Nat)

@[simp] theorem sp_throttled : (s.throttled c).2.sp c p = s.sp c p := by
  unfold State.throttled
  split <;> rfl

@[simp] theorem reg_throttled (g : Reg) (n i j : Nat) : (s.throttled c).2.reg g n i j = s.reg g n i j := by
  unfold State.throttled
  split <;> rfl

theorem onlyRegs_fpFlags (f : FpFlags) : OnlyRegs s (s.fpFlags c f) [Reg.addr .CORE_FPSTAT c 0 0] := by
  unfold State.fpFlags
  split
  · exact OnlyRegs.refl s _
  · exact onlyRegs_setReg s _ _ _ _ _

theorem reg_fpFlags (f : FpFlags) : (s.fpFlags c f).reg .CORE_FPSTAT c 0 0 = s.reg .CORE_FPSTAT c 0 0 ||| w64 f := by
  unfold State.fpFlags
  split
  · next h => simp [h]
  · exact reg_setReg_self s _ _ _ _ _

variable (vd : Nat) (r : V1024 × FpFlags)

theorem sp_putV : (s.putV c p vd r).sp c p = ((s.sp c p).setV vd r.1).past 4 := by
  unfold State.putV State.retireV
  rw [sp_count_retire, (onlyRegs_fpFlags _ c r.2).sp, sp_modSp_self]

theorem reg_putV : (s.putV c p vd r).reg .CORE_FPSTAT c 0 0 = s.reg .CORE_FPSTAT c 0 0 ||| w64 r.2 := by
  unfold State.putV State.retireV
  rw [(onlySp_count_retire _ c p 0x06 1 4).regs _ _ _ _ (fpStat_not_mem_cntRegs c), reg_fpFlags, reg_modSp]

theorem onlySp_putV : OnlySp s (s.putV c p vd r) c p (Reg.addr .CORE_FPSTAT c 0 0 :: cntRegs c) :=
  ((onlySp_modSp s c p _ _).trans (((onlyRegs_fpFlags _ c r.2).onlySp c p).mono (by simp))).trans
    ((onlySp_count_retire _ c p 0x06 1 4).mono (fun _ => List.mem_cons_of_mem _))

end Unit

section Rows

variable {i : Instr} {s : State} {c p : Nat}

/-- A row of the vector unit that goes ahead has its effect on the state of its cycle. -/
theorem vectorRow_of_issueV {w : Nat} {row legal : Bool} {xs vs : List Nat} {eff : State → State} {effect : Prop}
    (hexec : exec i s = .next (s.issueV c p w row legal xs vs eff)) (hrow : row = true) (hlegal : legal = true)
    (heff : exec i s = .next (eff (s.throttled c).2) → effect) : VectorRow i s c p xs vs effect := by
  intro hi
  unfold State.issueV at hexec
  rw [issue_eff hi hrow hlegal] at hexec
  refine ⟨fun hopen => heff ?_, fun hshut => ⟨_, hexec, if_pos hshut⟩⟩
  rwa [hopen, if_neg Bool.false_ne_true] at hexec

variable {vd w n : Nat} {pg : V128} {old : V1024} {f g : Nat → Fr}

theorem writesLanes_of_putV (hw : w * n ≤ 1024)
    (hexec : exec i s = .next ((s.throttled c).2.putV c p vd (lanewise w n pg old f))) : WritesLanes i s c p vd w n pg old f := by
  refine ⟨_, hexec, (lanewise w n pg old f).1, ?_, fun k hk => lane_lanewise w n pg old f hw hk, ?_, onlySp_putV _ c p vd _⟩
  · rw [sp_putV, sp_throttled]
  · rw [reg_putV, reg_throttled, flags_lanewise]

/-- Lanes take what is given modulo their width. -/
theorem writesLanes_congr (h : WritesLanes i s c p vd w n pg old f)
    (hfg : ∀ k, (f k).1 % 2 ^ w = (g k).1 % 2 ^ w ∧ (f k).2 = (g k).2) : WritesLanes i s c p vd w n pg old g := by
  obtain ⟨t, hexec, v, hsp, hlanes, hflags, honly⟩ := h
  refine ⟨t, hexec, v, hsp, fun k hk => ?_, ?_, honly⟩
  · rw [hlanes k hk, (hfg k).1]
  · simpa only [(hfg _).2] using hflags

end Rows

theorem vW_mul_vN (t : Nat) : vW t * vN t ≤ 1024 := Nat.mul_div_le 1024 (vW t)

/-- The integer types have lanes of 8, 16 and 32 bits (R150). -/
theorem vW_integer {t : Nat} (h3 : 3 ≤ t) (h5 : t ≤ 5) : vW t ∈ [8, 16, 32] := by
  interval_cases t <;> decide

/-- A row that computes by `vfOp` computes in its floating format. -/
theorem floatLanes_of_vfOp {row : Nat → Nat → W32 → Instr} {sel : Nat} {unary : Bool} {op : Nat → Val → Val → Val → Val × Bool}
    (hrow : ∀ c p w s, iMaj w.toNat = 0x20 → exec (row c p w) s = .next (vfOp sel unary op c p w s)) : FloatLanes row sel unary op := by
  intro s c p w hmaj hsel ht hun
  have hlegal : (decide (iTf w.toNat ≤ 2) && (!unary || iRs2 w.toNat == 0)) = true := by
    cases unary with
    | false => simp [ht]
    | true => simp [ht, hun rfl]
  have hissue := hrow c p w s hmaj
  unfold vfOp at hissue
  refine vectorRow_of_issueV hissue (by simp [hmaj, hsel]) hlegal (fun hexec => ?_)
  simp only [sp_throttled] at hexec
  exact writesLanes_of_putV (vW_mul_vN _) hexec

/-- A row that computes by `viOp` computes on signed integers modulo its lane width, where its operation on codes does. -/
theorem integerLanes_of_viOp {row : Nat → Nat → W32 → Instr} {sel : Nat} {unary : Bool} {code : Nat → Nat → Nat → Nat → Nat}
    {op : Nat → Int → Int → Int → Int}
    (hrow : ∀ c p w s, iMaj w.toNat = 0x21 → exec (row c p w) s = .next (viOp sel unary code c p w s))
    (hop : ∀ n ∈ [8, 16, 32], ∀ a b d, a < 2 ^ n → b < 2 ^ n → d < 2 ^ n →
      code n a b d % 2 ^ n = wrapN n (op n (sext n a) (sext n b) (sext n d)) % 2 ^ n) : IntegerLanes row sel unary op := by
  intro s c p w hmaj hsel h3 h5 hun
  have hlegal : (decide (3 ≤ iT w.toNat) && decide (iT w.toNat ≤ 5) && (!unary || iRs2 w.toNat == 0)) = true := by
    cases unary with
    | false => simp [h3, h5]
    | true => simp [h3, h5, hun rfl]
  have hissue := hrow c p w s hmaj
  unfold viOp at hissue
  refine vectorRow_of_issueV hissue (by simp [hmaj, hsel]) hlegal (fun hexec => ?_)
  simp only [sp_throttled] at hexec
  exact writesLanes_congr (writesLanes_of_putV (vW_mul_vN _) hexec)
    (fun k => ⟨hop _ (vW_integer h3 h5) _ _ _ (lane_lt _ _ k) (lane_lt _ _ k) (lane_lt _ _ k), rfl⟩)

/-! ### Integer arithmetic modulo the lane width (R151) -/

/-- A code and its signed value differ by a multiple of the lane's range. -/
theorem sext_modEq (n x : Nat) : sext n x ≡ x [ZMOD (2 ^ n : ℕ)] := by
  unfold sext
  split
  · rw [Int.natCast_mod]
    exact Int.mod_modEq _ _
  · rw [Int.natCast_mod]
    exact (Int.sub_modulus_modEq_iff).2 (Int.mod_modEq _ _)

/-- Two's complement depends on an integer modulo the lane's range alone. -/
theorem wrapN_of_modEq {n x : Nat} {i : ℤ} (h : (x : ℤ) ≡ i [ZMOD (2 ^ n : ℕ)]) : x % 2 ^ n = wrapN n i := by
  rw [wrapN, ← h.eq, ← Int.natCast_mod, Int.toNat_natCast]

/-- Codes that are congruent to an integer leave its two's complement in their lane. -/
theorem code_mod {n x : Nat} {i : ℤ} (h : (x : ℤ) ≡ i [ZMOD (2 ^ n : ℕ)]) : x % 2 ^ n % 2 ^ n = wrapN n i % 2 ^ n := by
  rw [wrapN_of_modEq h]

theorem integerLanes_vadd : IntegerLanes .vadd 0 false (fun _ a b _ => a + b) := by
  refine integerLanes_of_viOp (fun c p w s h => congrArg Host.Outcome.next (if_neg (by omega))) (fun n _ a b _ _ _ _ => code_mod ?_)
  push_cast
  exact ((sext_modEq n a).add (sext_modEq n b)).symm

theorem integerLanes_vsub : IntegerLanes .vsub 1 false (fun _ a b _ => a - b) := by
  refine integerLanes_of_viOp (fun c p w s h => congrArg Host.Outcome.next (if_neg (by omega))) (fun n _ a b _ _ hb _ => code_mod ?_)
  have hcast : ((a + 2 ^ n - b : ℕ) : ℤ) = a - b + (2 ^ n : ℕ) := by
    rw [Nat.cast_sub (by omega)]
    push_cast
    ring
  rw [hcast]
  exact Int.add_modulus_modEq_iff.2 ((sext_modEq n a).sub (sext_modEq n b)).symm

theorem integerLanes_vmul : IntegerLanes .vmul 2 false (fun _ a b _ => a * b) := by
  refine integerLanes_of_viOp (fun c p w s h => congrArg Host.Outcome.next (if_neg (by omega))) (fun n _ a b _ _ _ _ => code_mod ?_)
  rw [Nat.cast_mul]
  exact ((sext_modEq n a).mul (sext_modEq n b)).symm

theorem integerLanes_vmac : IntegerLanes .vmac 3 false (fun _ a b d => d + a * b) := by
  refine integerLanes_of_viOp (fun c p w s _ => rfl) (fun n _ a b d _ _ _ => code_mod ?_)
  rw [Nat.cast_add, Nat.cast_mul]
  exact ((sext_modEq n d).add ((sext_modEq n a).mul (sext_modEq n b))).symm

/-- Settles O14: the exact operations on numbers, their one rounding, and each row as `vfOp` or `viOp` computes it. -/
theorem vectorArithmetic : Obligations.VectorArithmetic := by
  refine ⟨fun rm a b d x y z ha hb hd => ?exact, fun f rm v x h12 h14 hrm hv hok => frOf_roundsTo (by omega) h14 hrm hv hok,
    floatLanes_of_vfOp (fun _ _ _ _ h => congrArg Host.Outcome.next (if_pos h)), integerLanes_vadd,
    floatLanes_of_vfOp (fun _ _ _ _ h => congrArg Host.Outcome.next (if_pos h)), integerLanes_vsub,
    floatLanes_of_vfOp (fun _ _ _ _ h => congrArg Host.Outcome.next (if_pos h)), integerLanes_vmul,
    floatLanes_of_vfOp (fun _ _ _ _ _ => rfl), integerLanes_vmac,
    floatLanes_of_vfOp (fun _ _ _ _ _ => rfl), floatLanes_of_vfOp (fun _ _ _ _ _ => rfl),
    floatLanes_of_vfOp (fun _ _ _ _ _ => rfl), floatLanes_of_vfOp (fun _ _ _ _ _ => rfl)⟩
  case exact =>
    obtain ⟨hsum, hsum'⟩ := addVal_exact (rm := rm) ha hb
    obtain ⟨hmul, hmul'⟩ := mulVal_exact ha hb
    obtain ⟨hfma, hfma'⟩ := fmaVal_exact (rm := rm) ha hb hd
    have hsign := signVal_addVal (rm := rm) ha hb
    exact ⟨hsum, hsum', hmul, hmul', hfma, hfma', numOf_negVal ha, fun h => hsign.trans (if_neg h), fun h => hsign.trans (if_pos h)⟩

end Sys2Proof.Proofs.Formats

/-! PROOFS of TileQueues and TileIssue: tile instructions enter their queues, and the queues check their heads (R80 to R91, R155 to R157, R208). -/

namespace Sys2Proof.Proofs.Array

open Sys2Proof Sys2Proof.Machine Sys2Proof.Laws

/-! ### A row of a stream that is there but not next (R208) -/

/-- A pass of one row, claimed from stream 0 at row `st`. -/
def oneRow (st : Nat) : PassReq := ⟨0, 0, 0, 1, 4, 1, false, .stream 0 st⟩

/-- Two rows of stream 0 are placed: row 1 is claimed by a pass in array 0, and row 0 by one that still waits in array 1's queue. -/
def rowOutOfTurn : State :=
  { State.reset with
    pwr := { State.reset.pwr with up := true }
    cores := [(0, {
      gln := { s0 := { segs := [⟨0, 4, 1, 2, [[1], [2]], 2, 0, false⟩], promised := 2, claimed := 2 } }
      arr0 := { passes := [⟨0, 0, oneRow 1, [], []⟩] }
      arr1 := { queue := [⟨0, 0, .pass (oneRow 0), false⟩] } })] }

theorem exec_passRowEntry_waits {s : State} {c a : Nat} {x : Pass} (hx : (s.arr c a).passes.find? (fun x => !x.entered) = some x)
    (hready : s.rowReady c x.req x.rows.length = false) : exec (.passRowEntry c a) s = .next s := by
  show execPassRowEntry c a s = _
  simp [execPassRowEntry, hx, hready]

/-- Refutes O26: the row of a stream that a pass takes next may be there while an earlier row that another pass has claimed has not left,
and then it waits (R208); the clause on stream rows does not ask that it be next. -/
theorem not_tileQueues : ¬ Obligations.TileQueues := by
  intro h
  obtain ⟨-, -, -, -, hentry⟩ := h rowOutOfTurn 0 0 (by decide) (by decide) (by decide)
  have hx : (rowOutOfTurn.arr 0 0).passes.find? (fun x => !x.entered) = some ⟨0, 0, oneRow 1, [], []⟩ := by decide
  obtain ⟨hstream, -⟩ := hentry _ hx (by decide +kernel)
  obtain ⟨t, ht, hpasses, -⟩ := hstream 0 1 [2] rfl (by decide)
  rw [exec_passRowEntry_waits hx (by decide), Host.Outcome.next.injEq] at ht
  subst ht
  exact absurd hpasses (by decide)

/-! ### Parts of a core -/

@[simp] theorem arr_setSp (k : Core) (p a : Nat) (u : Sp) : (k.setSp p u).arr a = k.arr a := by
  unfold Core.setSp
  split <;> rfl

/-! ### Entry into a tile queue (R82) -/

/-- The core with `op` of processor `p` at the tail of the tile queue of array `a`, under the next order number. -/
def queued (k : Core) (p a : Nat) (op : TileOp) : Core :=
  { k.setArr a { k.arr a with queue := (k.arr a).queue ++ [⟨p, k.seq, op, false⟩] } with seq := k.seq + 1 }

theorem sp_queued (k : Core) (p a q : Nat) (op : TileOp) : (queued k p a op).sp q = k.sp q := by
  match a with
  | 0 | 1 | 2 | _ + 3 => rfl

theorem setSp_queued (k : Core) (p a : Nat) (op : TileOp) (u : Sp) :
    (queued k p a op).setSp p u = { (k.setSp p u).setArr a
      { k.arr a with queue := (k.arr a).queue ++ [⟨p, k.seq, op, false⟩] } with seq := k.seq + 1 } := by
  unfold Core.setSp
  match a with
  | 0 | 1 | 2 | _ + 3 => split <;> rfl

theorem arr_queued (k : Core) (p a : Nat) (op : TileOp) :
    (queued k p a op).arr a = { k.arr a with queue := (k.arr a).queue ++ [⟨p, k.seq, op, false⟩] } := by
  match a with
  | 0 | 1 | 2 | _ + 3 => rfl

theorem enqTile_room {s : State} {c a : Nat} (h : (s.arr c a).queue.length < 8) (p : Nat) (op : TileOp) :
    s.enqTile c p a op = (s.modCore c (fun k => queued k p a op)).retire c p 8 :=
  if_neg (Nat.not_le.2 h)

/-- A 64-bit instruction that retires after a change of its core. -/
theorem core_modCore_retire (s : State) (c p : Nat) (f : Core → Core) :
    ((s.modCore c f).retire c p 8).core c = (f (s.core c)).setSp p (((f (s.core c)).sp p).past 8) := by
  rw [(onlySp_retire (s.modCore c f) c p 8).core, sp_retire, State.sp, core_modCore_self]

theorem onlyCore_modCore_retire (s : State) (c p : Nat) (f : Core → Core) :
    OnlyCore s ((s.modCore c f).retire c p 8) c (cntRegs c) :=
  (onlyCore_modCore s c f _).trans (onlySp_retire _ c p 8).toOnlyCore

theorem core_enqTile {s : State} {c a : Nat} (h : (s.arr c a).queue.length < 8) (p : Nat) (op : TileOp) :
    (s.enqTile c p a op).core c = (queued (s.core c) p a op).setSp p ((s.sp c p).past 8) := by
  rw [enqTile_room h, core_modCore_retire, sp_queued]
  rfl

theorem onlyCore_enqTile {s : State} {c a : Nat} (h : (s.arr c a).queue.length < 8) (p : Nat) (op : TileOp) :
    OnlyCore s (s.enqTile c p a op) c (cntRegs c) := by
  rw [enqTile_room h]
  exact onlyCore_modCore_retire s c p _

theorem enqueues_of_exec {i : Instr} {s : State} {c p a : Nat} {op : TileOp} (h : exec i s = .next (s.enqTile c p a op))
    (hroom : (s.arr c a).queue.length < 8) : Enqueues i s c p a op :=
  ⟨_, h, onlyCore_enqTile hroom p op, (core_enqTile hroom p op).trans (setSp_queued ..)⟩

/-! ### The tile instructions (R155 to R157, R608) -/

section Issue

variable {s : State} {c p a : Nat} {w : W64} (hi : Issues s c p [] [])

include hi

theorem exec_matLoadb (ht : isTile w 0 = true) (hz : bits w.toNat 63 19 = 0)
    (hok : tdFault (tdOf ((s.sp c p).tr (bits w.toNat 17 14))) true
      ((tdOf ((s.sp c p).tr (bits w.toNat 17 14))).outside s.variant true) = none) :
    exec (.matLoadb c p w) s = .next (s.enqTile c p (bits w.toNat 12 11)
      (.loadb (bits w.toNat 13 13) ((s.sp c p).tr (bits w.toNat 17 14)) (bitB w.toNat 18))) := by
  refine congrArg Host.Outcome.next ((issue_eff hi ht (by simp [hz]) _).trans ?_)
  dsimp only
  rw [hok]

theorem exec_matPass_tile (ht : isTile w 1 = true) (hz : bits w.toNat 63 38 = 0) (hsrc : bitB w.toNat 16 = false)
    (hm : bits w.toNat 37 29 = 0) : exec (.matPass c p w) s = .next (s.passTile c p w.toNat) := by
  refine congrArg Host.Outcome.next ((issue_eff hi ht (by simp [hz, hsrc, hm]) _).trans ?_)
  simp [hsrc]

theorem exec_matPass_stream (ht : isTile w 1 = true) (hz : bits w.toNat 63 38 = 0) (hsrc : bitB w.toNat 16 = true)
    (hm : bits w.toNat 20 19 = 0) : exec (.matPass c p w) s = .next (s.passStream c p w.toNat) := by
  refine congrArg Host.Outcome.next ((issue_eff hi ht (by simp [hz, hsrc, hm]) _).trans ?_)
  simp [hsrc]

theorem exec_matOpen (ht : isTile w 2 = true) (hz : bits w.toNat 63 18 = 0) (hs : bits w.toNat 13 13 = 0) :
    exec (.matOpen c p w) s = .next (s.enqTile c p (bits w.toNat 12 11)
      (.opn (bits w.toNat 15 14) (bitB w.toNat 16) (bitB w.toNat 17))) :=
  congrArg Host.Outcome.next (issue_eff hi ht (by simp [hz, hs]) _)

theorem exec_matClose (ht : isTile w 3 = true) (hz : bits w.toNat 63 16 = 0) (hs : bits w.toNat 13 13 = 0) :
    exec (.matClose c p w) s = .next (s.enqTile c p (bits w.toNat 12 11) (.cls (bits w.toNat 15 14))) :=
  congrArg Host.Outcome.next (issue_eff hi ht (by simp [hz, hs]) _)

/-- A move whose descriptors pass their checks enters the mover's queue (R157). -/
theorem exec_tileMove (ht : isTile w 4 = true) (hz : bits w.toNat 63 23 = 0) (hroom : (s.core c).mover.length < 8)
    (hd : tdFault (tdOf ((s.sp c p).tr (bits w.toNat 14 11))) false false = none)
    (hs : tdFault (tdOf ((s.sp c p).tr (bits w.toNat 18 15))) false false = none) :
    exec (.tileMove c p w) s = .next ((s.modCore c (fun k => { k with
      mover := k.mover ++ [⟨p, k.seq, (s.sp c p).tr (bits w.toNat 14 11), (s.sp c p).tr (bits w.toNat 18 15), bits w.toNat 20 19,
        bitB w.toNat 21, bitB w.toNat 22⟩]
      seq := k.seq + 1 })).retire c p 8) := by
  refine congrArg Host.Outcome.next ((issue_eff hi ht (by simp [hz]) _).trans ?_)
  simp [List.find?, hd, hs, queueRoom, Nat.not_le.2 hroom]

end Issue

theorem passTile_ok {s : State} {c p i : Nat} {t : Td} (ht : t = tdOf ((s.sp c p).tr (bits i 20 17)))
    (hok : tdFault t false (t.outside s.variant false || t.space == 1 || (t.space == 2 && !t.remote)) = none) :
    s.passTile c p i = s.enqTile c p (bits i 12 11) (.pass ⟨bits i 13 13, bits i 15 14, bits i 28 21, t.rows, t.fmt, t.cols, t.scaled,
      .tile ((s.sp c p).tr (bits i 20 17)) false⟩) := by
  subst ht
  unfold State.passTile
  dsimp only
  rw [hok]

/-- The core whose stream `n` has `m` more of its rows claimed (R209). -/
def claiming (k : Core) (n m : Nat) : Core :=
  { k with gln := k.gln.setStream n { k.gln.stream n with claimed := (k.gln.stream n).claimed + m } }

theorem passStream_claims {s : State} {c p i m f k : Nat} {x : Stream} (hroom : (s.arr c (bits i 12 11)).queue.length < 8)
    (hx : x = (s.core c).gln.stream (bits i 18 17)) (hm : m = bits i 37 29) (h0 : m ≠ 0) (hclaim : x.claim? m = some (f, k)) :
    s.passStream c p i = (s.modCore c (fun k => claiming k (bits i 18 17) m)).enqTile c p (bits i 12 11)
      (.pass ⟨bits i 13 13, bits i 15 14, bits i 28 21, m, f, k, false, .stream (bits i 18 17) x.claimed⟩) := by
  subst hx hm
  simp [State.passStream, h0, queueRoom, Nat.not_le.2 hroom, hclaim]
  rfl

/-- A tile instruction that enters a queue keeps gleaner and memories, and moves its own processor on. -/
theorem parts_queued (k : Core) (p a : Nat) (op : TileOp) (u : Sp) :
    ((queued k p a op).setSp p u).gln = k.gln ∧ ((queued k p a op).setSp p u).spad = k.spad ∧ ((queued k p a op).setSp p u).acc = k.acc := by
  rw [setSp_spad, setSp_acc]
  unfold Core.setSp
  match a with
  | 0 | 1 | 2 | _ + 3 => split <;> exact ⟨rfl, rfl, rfl⟩

/-- Settles O22: each instruction that passes its checks by what entry into its queue does. -/
theorem tileIssue : Obligations.TileIssue := by
  intro s c p w hi
  refine ⟨fun a ha hroom => ?tile, fun ht hz hroom hd hs => ?move⟩
  case tile =>
    subst ha
    refine ⟨fun ht hz hok => enqueues_of_exec (exec_matLoadb hi ht hz hok) hroom,
      fun t ht hz hsrc hm htd hok => enqueues_of_exec ((exec_matPass_tile hi ht hz hsrc hm).trans (congrArg _ (passTile_ok htd hok))) hroom,
      fun x m f k ht hz hsrc hr hx hm h0 hclaim => ?stream,
      fun ht hz hs => enqueues_of_exec (exec_matOpen hi ht hz hs) hroom,
      fun ht hz hs => enqueues_of_exec (exec_matClose hi ht hz hs) hroom⟩
    case stream =>
      refine ⟨_, (exec_matPass_stream hi ht hz hsrc hr).trans (congrArg _ (passStream_claims hroom hx hm h0 hclaim)), ?_⟩
      subst hx
      set op := TileOp.pass _
      set f := fun k => claiming k (bits w.toNat 18 17) m
      set k := f (s.core c) with hk
      have hcore : (s.modCore c f).core c = k := core_modCore_self s c f
      have hroom' : ((s.modCore c f).arr c (bits w.toNat 12 11)).queue.length < 8 := by
        rw [State.arr, hcore]
        exact hroom
      have hafter := core_enqTile hroom' p op
      rw [hcore, State.sp, hcore] at hafter
      obtain ⟨hgln, hspad, hacc⟩ := parts_queued k p (bits w.toNat 12 11) op ((k.sp p).past 8)
      refine ⟨(onlyCore_modCore s c f _).trans (onlyCore_enqTile hroom' p op), ?_, ?_, ?_, ?_, ?_⟩
      · rw [hafter, hgln]
        rfl
      · rw [State.arr, hafter, arr_setSp, arr_queued]
        rfl
      · rw [State.sp, hafter, sp_setSp_self]
        rfl
      · rw [hafter, hspad]
        rfl
      · rw [hafter, hacc]
        rfl
  case move =>
    refine ⟨_, exec_tileMove hi ht hz hroom hd hs, onlyCore_modCore_retire s c p _, ?_⟩
    rw [core_modCore_retire]
    unfold Core.setSp
    split <;> rfl

end Sys2Proof.Proofs.Array

/-! RULES of the parts of a core and of register writes that the statements on the arrays and the stook need (R18, R38, R89, R116). -/

namespace Sys2Proof.Proofs.Array

open Sys2Proof Sys2Proof.Machine Sys2Proof.Laws

/-! ### A write of a register, field by field (R18) -/

/-- The fields lie apart in a word, and none of them is cleared by writing 1. -/
abbrev PlainFields (l : List Fld) : Prop :=
  l.Pairwise Module.Apart ∧ ∀ f ∈ l, f.lo ≤ f.hi ∧ f.hi < 64 ∧ f.acc ≠ .w1c

/-- A write keeps a field that stands apart from every field written. -/
theorem get_written_apart (l : List Fld) (f : Fld) (old w : W64) (hf : f.hi < 64)
    (h : ∀ g ∈ l, Module.Apart f g ∧ g.lo ≤ g.hi ∧ g.acc ≠ .w1c) :
    f.get (l.foldl (fun o g => g.written o w) old) = f.get old := by
  induction l generalizing old with
  | nil => rfl
  | cons g l ih =>
    obtain ⟨⟨ha, hg, hw⟩, hl⟩ := List.forall_mem_cons.1 h
    rw [List.foldl_cons, ih _ hl]
    unfold Fld.written
    split
    · exact Module.get_put_apart _ _ ha hg hf
    · contradiction
    · rfl

/-- A field takes the value written where it is read and written, and otherwise keeps its own. -/
theorem get_written (l : List Fld) (hl : PlainFields l) {f : Fld} (hf : f ∈ l) (old w : W64) :
    f.get (l.foldl (fun o g => g.written o w) old) = if f.acc = .rw then f.get w else f.get old := by
  induction l generalizing old with
  | nil => exact absurd hf List.not_mem_nil
  | cons g l ih =>
    obtain ⟨hap, hall⟩ := hl
    obtain ⟨hg, htail⟩ := List.forall_mem_cons.1 hall
    obtain ⟨happ, hrest⟩ := List.pairwise_cons.1 hap
    obtain ⟨hlo, hhi, hw⟩ := hg
    rw [List.foldl_cons]
    rcases List.mem_cons.1 hf with rfl | hmem
    · rw [get_written_apart l f _ w hhi fun g hg => ⟨happ g hg, (htail g hg).1, (htail g hg).2.2⟩]
      unfold Fld.written
      split
      · next hrw => rw [if_pos hrw, get_put f _ _ hlo hhi]; exact Nat.mod_mod _ _
      · contradiction
      · next hrw _ => rw [if_neg hrw]
    · rw [ih ⟨hrest, htail⟩ hmem]
      have hkeep : f.get (g.written old w) = f.get old :=
        get_written_apart [g] f old w (htail f hmem).2.1 fun g' hg' => by
          rw [List.mem_singleton.1 hg']
          exact ⟨(happ f hmem).symm, hlo, hw⟩
      rw [hkeep]

/-- What a field of a register reads as after a write of the register. -/
theorem rd_writeFields (s : State) {f : Fld} {g : Reg} (hg : f.reg = g) (hl : PlainFields g.fields) (hf : f ∈ g.fields) (n i j : Nat) (w : W64) :
    (s.writeFields g n i j w).rd f n i j = if f.acc = .rw then f.get w else s.rd f n i j := by
  subst hg
  unfold State.rd State.writeFields
  rw [reg_setReg_self]
  exact get_written _ hl hf _ w

theorem onlyRegs_writeFields (s : State) (g : Reg) (n i j : Nat) (w : W64) : OnlyRegs s (s.writeFields g n i j w) [g.addr n i j] :=
  onlyRegs_setReg s g n i j _

/-! ### Writes of a core's registers (R38) -/

theorem onCoreWrite_open {s : State} {c : Nat} (hl : s.live = true) (hc : s.coreShut c = false) (f : State → State) :
    s.onCoreWrite c f = f s :=
  if_pos (by rw [hl, hc]; rfl)

theorem onCoreWrite_shut {s : State} {c : Nat} (hc : s.coreShut c = true) (f : State → State) : s.onCoreWrite c f = s :=
  if_neg (by rw [hc]; simp)

/-! ### Parts of a core -/

section Parts

variable (k : Core) (a : Nat) (x : Arr)

@[simp] theorem spad_setArr : (k.setArr a x).spad = k.spad := by
  match a with
  | 0 | 1 | 2 | _ + 3 => rfl

@[simp] theorem acc_setArr : (k.setArr a x).acc = k.acc := by
  match a with
  | 0 | 1 | 2 | _ + 3 => rfl

@[simp] theorem stook_setArr : (k.setArr a x).stook = k.stook := by
  match a with
  | 0 | 1 | 2 | _ + 3 => rfl

end Parts

section Arrays

variable (s : State) (c a : Nat) (f : Arr → Arr)

theorem core_modArr : (s.modArr c a f).core c = (s.core c).setArr a (f (s.arr c a)) := core_modCore_self ..

theorem onlyCore_modArr (l : List Nat) : OnlyCore s (s.modArr c a f) c l := onlyCore_modCore s c _ l

theorem onlyArr_modArr (l : List Nat) : OnlyArr s (s.modArr c a f) c a l :=
  ⟨onlyCore_modArr s c a f l, by rw [core_modArr, arr_modArr_self]⟩

@[simp] theorem acc_modArr : ((s.modArr c a f).core c).acc = (s.core c).acc := by rw [core_modArr, acc_setArr]

@[simp] theorem spad_modArr : ((s.modArr c a f).core c).spad = (s.core c).spad := by rw [core_modArr, spad_setArr]

@[simp] theorem stook_modArr : ((s.modArr c a f).core c).stook = (s.core c).stook := by rw [core_modArr, stook_setArr]

end Arrays

section Stooks

variable (s : State) (c : Nat) (f : Stook → Stook)

theorem onlyCore_modStook (l : List Nat) : OnlyCore s (s.modStook c f) c l := onlyCore_modCore s c _ l

theorem core_modStook : (s.modStook c f).core c = { s.core c with stook := f (s.core c).stook } := core_modCore_self ..

@[simp] theorem arr_modStook (a : Nat) : (s.modStook c f).arr c a = s.arr c a := by
  unfold State.arr
  rw [core_modStook]
  rfl

@[simp] theorem acc_modStook : ((s.modStook c f).core c).acc = (s.core c).acc := by rw [core_modStook]

@[simp] theorem spad_modStook : ((s.modStook c f).core c).spad = (s.core c).spad := by rw [core_modStook]

end Stooks

/-! ### Slots (R89) -/

@[simp] theorem slot_setSlot (x : Arr) (n : Nat) (y : Option Tile) : (x.setSlot n y).slot n = y := by
  unfold Arr.slot Arr.setSlot
  split <;> rfl

@[simp] theorem clears_setSlot (x : Arr) (n : Nat) (y : Option Tile) : (x.setSlot n y).clears = x.clears := by
  unfold Arr.setSlot
  split <;> rfl

section Slots

variable (s : State) (c a n : Nat)

/-- An emptied slot holds no tile, and everything of its array but the slot is as it was. -/
theorem arr_emptySlot : (s.emptySlot c a n).arr c a = (s.arr c a).setSlot n none := by
  unfold State.emptySlot State.unreside
  rw [arr_modStook, arr_modArr_self]

theorem onlyCore_emptySlot (l : List Nat) : OnlyCore s (s.emptySlot c a n) c l := by
  unfold State.emptySlot State.unreside
  exact (onlyCore_modArr s c a _ l).trans (onlyCore_modStook _ c _ l)

theorem acc_emptySlot : ((s.emptySlot c a n).core c).acc = (s.core c).acc := by
  unfold State.emptySlot State.unreside
  rw [acc_modStook, acc_modArr]

theorem spad_emptySlot : ((s.emptySlot c a n).core c).spad = (s.core c).spad := by
  unfold State.emptySlot State.unreside
  rw [spad_modStook, spad_modArr]

/-- A clear of a slot that something before it still uses is noted, and the slot keeps its tile until then. -/
theorem arr_slotClear : (s.slotClear c a n).arr c a =
    if (s.arr c a).clearWaits n (s.core c).seq = true then { s.arr c a with clears := (s.arr c a).clears ++ [(n, (s.core c).seq)] }
    else (s.arr c a).setSlot n none := by
  unfold State.slotClear
  dsimp only
  split
  · unfold State.unreside
    rw [arr_modStook, arr_modArr_self]
  · exact arr_emptySlot s c a n

theorem onlyCore_slotClear (l : List Nat) : OnlyCore s (s.slotClear c a n) c l := by
  unfold State.slotClear State.unreside
  dsimp only
  split
  · exact (onlyCore_modArr s c a _ l).trans (onlyCore_modStook _ c _ l)
  · exact onlyCore_emptySlot s c a n l

theorem acc_slotClear : ((s.slotClear c a n).core c).acc = (s.core c).acc := by
  unfold State.slotClear State.unreside
  dsimp only
  split
  · rw [acc_modStook, acc_modArr]
  · exact acc_emptySlot s c a n

theorem spad_slotClear : ((s.slotClear c a n).core c).spad = (s.core c).spad := by
  unfold State.slotClear State.unreside
  dsimp only
  split
  · rw [spad_modStook, spad_modArr]
  · exact spad_emptySlot s c a n

end Slots

/-! ### Groups (R116) -/

/-- Keys dropped read as unlisted ones do. -/
theorem smap_get_dropRange {α : Type} (m : SMap α) (d : α) (a n k : Nat) :
    SMap.get (m.dropRange a n) d k = if a ≤ k ∧ k < a + n then d else SMap.get m d k := by
  induction m with
  | nil => simp [SMap.dropRange, SMap.get]
  | cons e r ih =>
    obtain ⟨k', v⟩ := e
    have hr : SMap.get (SMap.dropRange ((k', v) :: r) a n) d k =
        if k' < a ∨ a + n ≤ k' then (if k' = k then v else SMap.get (SMap.dropRange r a n) d k) else SMap.get (SMap.dropRange r a n) d k := by
      unfold SMap.dropRange
      rw [List.filter_cons]
      by_cases hk : k' < a ∨ a + n ≤ k'
      · rw [if_pos (by simpa using hk), if_pos hk]
        rfl
      · rw [if_neg (by simpa using hk), if_neg hk]
    rw [hr, ih]
    simp only [SMap.get]
    grind

end Sys2Proof.Proofs.Array

/-! PROOF of GroupAndSlotState: opens and closes, slot clears and saturation records (R38, R89, R115 to R117, R132). -/

namespace Sys2Proof.Proofs.Array

open Sys2Proof Sys2Proof.Machine Sys2Proof.Laws

/-! ### A group made zero (R116, R130, R134) -/

section ZeroGroup

variable (s : State) (c a g : Nat)

theorem core_zeroGroup : (s.zeroGroup c a g).core c = { s.core c with
    acc := (s.core c).acc.dropRange (accWord a g 0 0) 65536
    faults := (s.core c).faults.dropRange (accBase + 4 * accWord a g 0 0) 262144 } := by
  unfold State.zeroGroup
  exact ((onlyRegs_setReg ..).core c).trans (core_modCore_self ..)

theorem arr_zeroGroup (b : Nat) : (s.zeroGroup c a g).arr c b = s.arr c b := by
  unfold State.arr
  rw [core_zeroGroup]
  rfl

theorem get_acc_zeroGroup (w : Nat) : SMap.get ((s.zeroGroup c a g).core c).acc 0 w =
    if w / 65536 = 4 * a + g then 0 else SMap.get (s.core c).acc 0 w := by
  have hin : (accWord a g 0 0 ≤ w ∧ w < accWord a g 0 0 + 65536) ↔ w / 65536 = 4 * a + g := by
    unfold accWord
    omega
  simp only [core_zeroGroup, smap_get_dropRange, hin]

theorem spad_zeroGroup : ((s.zeroGroup c a g).core c).spad = (s.core c).spad := by rw [core_zeroGroup]

theorem reg_zeroGroup : (s.zeroGroup c a g).reg .ACC_SAT c a g = 0 := by
  unfold State.zeroGroup
  exact reg_setReg_self ..

theorem onlyCore_zeroGroup : OnlyCore s (s.zeroGroup c a g) c [Reg.addr .ACC_SAT c a g] := by
  unfold State.zeroGroup
  exact (onlyCore_modCore s c _ _).trans ((onlyRegs_setReg _ _ _ _ _ _).onlyCore c)

end ZeroGroup

/-! ### What each row answers -/

section Rows

variable {s : State} {c a : Nat}

theorem exec_groupStateEffect {g : Nat} {e : GroupEff} (hal : s.alive = true) (he : (s.arr c a).effs.find? (fun e => e.g == g) = some e)
    (hq : (s.arr c a).inFlight g = false) :
    exec (.groupStateEffect c a g) s = .next
      (if e.opn && e.zero then (s.modArr c a (fun x => { x with effs := dropFirst (fun y => y.g == g) x.effs })).zeroGroup c a g
      else s.modArr c a (fun x => { x with effs := dropFirst (fun y => y.g == g) x.effs })) := by
  show execGroupStateEffect c a g s = _
  simp [execGroupStateEffect, hal, he, hq]

theorem exec_slotClearEffect {n : Nat} {e : Nat × Nat} (hal : s.alive = true)
    (he : (s.arr c a).clears.find? (fun e => e.1 == n) = some e) (hw : (s.arr c a).clearWaits n e.2 = false) :
    exec (.slotClearEffect c a n) s =
      .next ((s.modArr c a (fun x => { x with clears := dropFirst (fun y => y == e) x.clears })).emptySlot c a n) := by
  show execSlotClearEffect c a n s = _
  simp [execSlotClearEffect, hal, he, hw]

end Rows

/-- A write that asks for slot 0 alone to be cleared. -/
theorem writeArrCtl_slot0 {s : State} {c a : Nat} {v : W64} (h0 : bitB v.toNat 0 = true) (h1 : bitB v.toNat 1 = false) :
    s.writeArrCtl c a v = (s.writeFields .ARR_CTL c a 0 v).slotClear c a 0 := by
  simp [State.writeArrCtl, h0, h1]

/-- Settles O30: row by row, by what zeroing a group, emptying a slot and writing a register do. -/
theorem groupAndSlotState : Obligations.GroupAndSlotState := by
  intro s c a ha hal
  refine ⟨fun g e hg he hq => ?effect, fun v g hl hc => ⟨⟨_, rfl, onCoreWrite_shut hc _⟩, ⟨_, rfl, onCoreWrite_shut hc _⟩⟩,
    fun v h0 h1 hl hc => ?clr, fun n e he hw => ?cleared, fun g v hg hl hc => ?sat⟩
  case effect =>
    refine ⟨_, exec_groupStateEffect hal he hq, ?_⟩
    set u := s.modArr c a _ with hu
    have harr : u.arr c a = { s.arr c a with effs := dropFirst (fun y => y.g == g) (s.arr c a).effs } := arr_modArr_self ..
    have hacc : (u.core c).acc = (s.core c).acc := acc_modArr ..
    have hspad : (u.core c).spad = (s.core c).spad := spad_modArr ..
    have honly : OnlyCore s u c [Reg.addr .ACC_SAT c a g] := onlyCore_modArr ..
    by_cases hz : e.opn = true ∧ e.zero = true
    · rw [if_pos (by simp [hz])]
      refine ⟨(arr_zeroGroup ..).trans harr, fun w => ?_, fun _ _ => reg_zeroGroup .., (spad_zeroGroup ..).trans hspad,
        honly.trans (onlyCore_zeroGroup ..)⟩
      simp only [get_acc_zeroGroup, hacc, hz, and_self, and_true]
    · rw [if_neg (by simpa using hz)]
      exact ⟨harr, fun w => by rw [hacc, if_neg fun h => hz h.2], fun h1 h2 => absurd ⟨h1, h2⟩ hz, hspad, honly⟩
  case clr =>
    refine ⟨_, congrArg Host.Outcome.next ((onCoreWrite_open hl hc _).trans (writeArrCtl_slot0 h0 h1)), ?_⟩
    set u := s.writeFields .ARR_CTL c a 0 v with hu
    have hus : OnlyRegs s u [Reg.addr .ARR_CTL c a 0] := onlyRegs_writeFields ..
    have harr : u.arr c a = s.arr c a := congrArg (·.arr a) (hus.core c)
    have hclear := arr_slotClear u c a 0
    rw [harr, hus.core c] at hclear
    have honly := onlyCore_slotClear u c a 0 [Reg.addr .ARR_CTL c a 0]
    refine ⟨?_, ?_, fun hw => ?_, fun hw => ?_, (acc_slotClear ..).trans (by rw [hus.core]), (spad_slotClear ..).trans (by rw [hus.core]),
      (hus.onlyCore c).trans honly⟩
    · have hkeep : (u.slotClear c a 0).rd ARR_CTL.CKGATE c a = u.rd ARR_CTL.CKGATE c a :=
        Module.rd_of_regsBut (onlyCore_slotClear u c a 0 []).regs (by simp)
      rw [hkeep]
      exact rd_writeFields s rfl (by decide) (by decide) c a 0 v
    · rw [hclear]
      split <;> rfl
    · rw [hclear, if_pos hw]
      exact ⟨rfl, rfl⟩
    · rw [hclear, if_neg (by simp [hw])]
      exact ⟨rfl, rfl⟩
  case cleared =>
    refine ⟨_, exec_slotClearEffect hal he hw, ?_⟩
    have harr := arr_emptySlot (s.modArr c a fun x => { x with clears := dropFirst (fun y => y == e) x.clears }) c a n
    rw [arr_modArr_self] at harr
    exact ⟨by rw [harr, slot_setSlot], by rw [harr, clears_setSlot], (acc_emptySlot ..).trans (acc_modArr ..),
      (spad_emptySlot ..).trans (spad_modArr ..), (onlyCore_modArr ..).trans (onlyCore_emptySlot ..)⟩
  case sat =>
    refine ⟨_, congrArg Host.Outcome.next (onCoreWrite_open hl hc _), fun hq => ?_, fun hq => ?_⟩
    · rw [State.writeAccSat, if_pos hq]
      exact ⟨onlyArr_modArr .., arr_modArr_self ..⟩
    · rw [State.writeAccSat, if_neg (by simp [hq])]
      exact ⟨onlyRegs_writeFields .., rd_writeFields s rfl (by decide) (by decide) c a g v,
        rd_writeFields s rfl (by decide) (by decide) c a g v, rd_writeFields s rfl (by decide) (by decide) c a g v,
        rd_writeFields s rfl (by decide) (by decide) c a g v⟩

end Sys2Proof.Proofs.Array

/-! RULES of reads of the memories of the bays (R284, R289 to R303): they leave the cores and L-space as they are. -/

namespace Sys2Proof.Proofs.Array

open Sys2Proof Sys2Proof.Machine Sys2Proof.Laws

/-- The cores and the bytes of L-space are the same. -/
def Aside (s t : State) : Prop := t.cores = s.cores ∧ t.mem.loft = s.mem.loft

theorem Aside.refl (s : State) : Aside s s := ⟨rfl, rfl⟩

theorem Aside.trans {s t u : State} (h : Aside s t) (g : Aside t u) : Aside s u := ⟨g.1.trans h.1, g.2.trans h.2⟩

theorem Aside.core {s t : State} (h : Aside s t) (c : Nat) : t.core c = s.core c := by
  unfold State.core
  rw [h.1]

theorem aside_of_onlyLogs {s t : State} (h : OnlyLogs s t) : Aside s t := ⟨h.cores, by rw [h.mem]⟩

theorem aside_ite {s a b : State} {p : Prop} [Decidable p] (ha : Aside s a) (hb : Aside s b) : Aside s (if p then a else b) := by
  split <;> assumption

/-- A read that goes one of two ways. -/
theorem aside_iteRd {s : State} {a b : Rd} {p : Prop} [Decidable p] (ha : Aside s a.st) (hb : Aside s b.st) :
    Aside s (if p then a else b).st := by
  split <;> assumption

theorem aside_incWrap (s : State) (f : Fld) (k n i j : Nat) : Aside s (s.incWrap f k n i j) := ⟨rfl, rfl⟩

theorem aside_free64 (s : State) : Aside s s.free64.2 := ⟨rfl, rfl⟩

theorem aside_foldl {α : Type} {g : State → α → State} (hg : ∀ s x, Aside s (g s x)) (l : List α) (s : State) : Aside s (l.foldl g s) := by
  induction l generalizing s with
  | nil => exact .refl s
  | cons x l ih => exact (hg s x).trans (ih _)

theorem aside_foldRd {f : State → Nat → Rd} (hf : ∀ s k, Aside s (f s k).st) (l : List Nat) (s : State) : Aside s (foldRd f l s).st := by
  induction l generalizing s with
  | nil => exact .refl s
  | cons k l ih => exact (hf s k).trans (ih _)

/-! ### The stacks (R284, R298, R299) -/

theorem onlyLogs_ceHbm (s : State) (a syn : Nat) (g : Agent) : OnlyLogs s (s.ceHbm a syn g) := by
  unfold State.ceHbm
  dsimp only
  exact ((OnlyLogs.trans (onlyLogs_incSat s _ _ _ _ _) (onlyLogs_agentCode _ g)).trans
    (onlyLogs_ite (OnlyLogs.refl _) (onlyLogs_wrs _ _ _ _ _ _))).trans (onlyLogs_ceCount _ _)

theorem onlyLogs_ceBay (s : State) (a syn : Nat) (g : Agent) : OnlyLogs s (s.ceBay a syn g) := by
  unfold State.ceBay
  dsimp only
  exact ((OnlyLogs.trans (t := s.free64.2) rfl (onlyLogs_agentCode _ g)).trans
    (onlyLogs_ite (OnlyLogs.refl _) (onlyLogs_wrs _ _ _ _ _ _))).trans (onlyLogs_ceCount _ _)

theorem aside_ceHbms (l : List (Nat × Nat)) (f : Nat × Nat → Nat) (g : Agent) (s : State) :
    Aside s (l.foldl (fun s m => s.ceHbm (f m) m.2 g) s) :=
  aside_of_onlyLogs (onlyLogs_foldl (fun _ _ => onlyLogs_ceHbm _ _ _ _) l s)

theorem aside_ceBays (l : List (Nat × Nat)) (f : Nat × Nat → Nat) (g : Agent) (s : State) :
    Aside s (l.foldl (fun s m => s.ceBay (f m) m.2 g) s) :=
  aside_of_onlyLogs (onlyLogs_foldl (fun _ _ => onlyLogs_ceBay _ _ _ _) l s)

theorem aside_fltRecord (s : State) (cause agent block syn unit addr : Nat) : Aside s (s.fltRecord cause agent block syn unit addr) := by
  unfold State.fltRecord
  split
  · exact aside_of_onlyLogs (onlyLogs_wr ..)
  · exact aside_of_onlyLogs (OnlyLogs.trans (onlyLogs_wrs ..) (onlyLogs_wr ..))

theorem aside_ueFound (s : State) (agent block syn unit addr : Nat) : Aside s (s.ueFound agent block syn unit addr) := by
  unfold State.ueFound State.ueCause State.mrstDue
  dsimp only
  have hrec := aside_fltRecord s 1 agent block syn unit addr
  set u := s.fltRecord 1 agent block syn unit addr
  have hdue : Aside u { u with flt := { u.flt with mrstCause := some 1 } } := ⟨rfl, rfl⟩
  set w : State := { u with flt := { u.flt with mrstCause := some 1 } }
  have hnote := aside_of_onlyLogs (onlyLogs_faultNote w 2 .FLT_REC0 0 0)
  exact (hrec.trans hdue).trans ⟨hnote.1, hnote.2⟩

theorem aside_hbmWord (s : State) (a : Nat) (g : Agent) : Aside s (s.hbmWord a g).st := by
  unfold State.hbmWord
  refine aside_iteRd (.refl s) ?_
  simp -iota only []
  have hcnt := aside_incWrap s MEM_RD.BYTES 8 (a / stackSize) 0 0
  generalize s.incWrap MEM_RD.BYTES 8 (a / stackSize) = u at hcnt ⊢
  refine hcnt.trans (aside_iteRd (aside_ceHbms ..) ?_)
  generalize (if hbmKind u.variant a = 1 then Config.unwrittenCheck u.free else 0) = chk
  refine aside_iteRd (aside_free64 u) (((aside_free64 u).trans (aside_free64 _)).trans (aside_iteRd ?_ ?_))
  · exact aside_of_onlyLogs (onlyLogs_ceHbm ..)
  · exact (aside_of_onlyLogs (onlyLogs_agentCode ..)).trans (aside_ueFound ..)

theorem aside_hbmPut (s : State) (a : Nat) (d : List Byte) : Aside s (s.hbmPut a d) := by
  unfold State.hbmPut
  split
  · exact .refl s
  · exact ⟨rfl, rfl⟩

theorem aside_hbmPutUndef (s : State) (a : Nat) : Aside s (s.hbmPutUndef a) := by
  unfold State.hbmPutUndef
  split
  · exact .refl s
  · exact ⟨rfl, rfl⟩

theorem aside_stackWords (s : State) (t ln : Nat) (ws : List Nat) (g : Agent) : Aside s (s.stackWords t ln ws g).st :=
  aside_foldRd (fun _ _ => aside_hbmWord _ _ _) ws s

/-! ### The bay caches (R289 to R295) -/

theorem aside_bayPut (s : State) (t : Nat) (b : BayLine) : Aside s (s.bayPut t b) := ⟨rfl, rfl⟩

theorem aside_bayDrop (s : State) (t ln : Nat) : Aside s (s.bayDrop t ln) := ⟨rfl, rfl⟩

theorem aside_bayWriteBack (s : State) (t : Nat) (b : BayLine) : Aside s (s.bayWriteBack t b) := by
  unfold State.bayWriteBack
  exact aside_ite (.refl s) ((aside_foldl (fun s w => (aside_ceBays _ _ _ s).trans
    (aside_ite (aside_hbmPutUndef ..) (aside_hbmPut ..))) _ s).trans (aside_incWrap ..))

theorem aside_bayEvict (s : State) (t : Nat) (b : BayLine) : Aside s (s.bayEvict t b) :=
  (aside_bayWriteBack s t b).trans (aside_bayDrop ..)

theorem aside_bayAlloc (s : State) (t ln : Nat) (keep : Bool) (valid dirty : BitVec 16) (data : V1024) (undef : BitVec 16) :
    Aside s (s.bayAlloc t ln keep valid dirty data undef) := by
  unfold State.bayAlloc
  obtain ⟨v, k⟩ := s.bayVictim t ln keep
  cases v with
  | some b => exact (aside_bayEvict s t b).trans (aside_bayPut ..)
  | none => exact aside_bayPut ..

theorem aside_bayServe (s : State) (t : Nat) (b : BayLine) (w : Nat) (g : Agent) : Aside s (s.bayServe t b w g).st := by
  unfold State.bayServe
  exact aside_iteRd (aside_free64 s) (aside_ceBays ..)

theorem aside_fillWord (s : State) (t : Nat) (b : BayLine) (w : Nat) (g : Agent) : Aside s (s.fillWord t b w g).st := by
  unfold State.fillWord
  exact aside_iteRd (aside_incWrap ..) (aside_hbmWord ..)

/-- Words of a line served one by one. -/
theorem aside_bayServes (s : State) (t : Nat) (b : BayLine) (ws : List Nat) (g : Agent) :
    Aside s (foldRd (fun s w => s.bayServe t b w g) ws s).st :=
  aside_foldRd (fun _ _ => aside_bayServe ..) ws s

/-- The line that a read drops after its last use (R290). -/
theorem aside_lastUse {s : State} {r : Rd} (h : Aside s r.st) (p : Prop) [Decidable p] (t ln : Nat) :
    Aside s (if p then (match r.st.bayLine t ln with
      | some b =>
        let s := if b.dirty = 0 then r.st else r.st.incWrap BAY_CNT1.DROPS 1 t
        { r with st := s.bayDrop t ln }
      | none => r) else r).st := by
  refine aside_iteRd ?_ h
  cases r.st.bayLine t ln with
  | some b => exact (h.trans (aside_ite (.refl _) (aside_incWrap ..))).trans (aside_bayDrop ..)
  | none => exact h

theorem aside_lineRead (s : State) (t ln : Nat) (ws : List Nat) (hint : Nat) (last : Bool) (g : Agent) :
    Aside s (s.lineRead t ln ws hint last g).st := by
  unfold State.lineRead
  refine aside_iteRd ((aside_incWrap ..).trans (aside_stackWords ..)) (aside_lastUse ?_ _ t ln)
  cases s.bayLine t ln with
  | some b =>
    refine aside_iteRd (((aside_incWrap ..).trans (aside_bayPut ..)).trans (aside_bayServes ..)) (aside_iteRd ?_ ?_)
    · exact ((aside_incWrap ..).trans (aside_bayPut ..)).trans
        (aside_foldRd (fun _ _ => aside_iteRd (aside_bayServe ..) (aside_hbmWord ..)) ws _)
    · exact (((aside_incWrap ..).trans (aside_foldRd (fun _ _ => aside_fillWord ..) _ _)).trans (aside_bayPut ..)).trans (aside_bayServes ..)
  | none =>
    refine (aside_incWrap s BAY_CNT0.MISSES 1 t 0 0).trans (aside_iteRd (aside_stackWords ..) ?_)
    exact (aside_stackWords ..).trans (aside_bayAlloc ..)

/-! ### E-space (R290, R302) -/

theorem aside_eRead (s : State) (a n hint : Nat) (last : Bool) (g : Agent) : Aside s (s.eRead a n hint last g).st := by
  unfold State.eRead
  suffices h : ∀ (l : List (Nat × Nat)) (r : Rd), Aside s r.st → Aside s (l.foldl (fun r pc =>
      let (t, ln) := lineOf pc.1
      let w0 := pc.1 % 128 / 8
      let w1 := (pc.1 % 128 + pc.2 - 1) / 8
      let x := r.st.lineRead t ln ((List.range (w1 - w0 + 1)).map (· + w0)) hint last g
      (⟨r.data ++ ((x.data.drop (pc.1 % 8)).take pc.2), r.corr || x.corr, r.ue || x.ue, x.st⟩ : Rd)) r).st from h _ _ (.refl s)
  intro l
  induction l with
  | nil => exact fun r hr => hr
  | cons pc l ih => exact fun r hr => ih _ (hr.trans (aside_lineRead _ _ _ _ _ _ _))

/-! ### Reads by a core (R285) -/

theorem aside_coreRead (s : State) (space c a n hint : Nat) (last : Bool) (g : Agent) (p : Option Nat) :
    Aside s (s.coreRead space c a n hint last g p).st := by
  have hread : Aside s (s.memRead space c a n hint last g p).st := by
    unfold State.memRead
    split
    · exact aside_of_onlyLogs (onlyLogs_sRead ..)
    · exact aside_of_onlyLogs (onlyLogs_lRead ..)
    · exact aside_eRead ..
  exact aside_iteRd hread (hread.trans (aside_of_onlyLogs (onlyRegs_count _ c 0x42 p n).logs))

theorem aside_readRanges (s : State) (space c hint : Nat) (last : Bool) (g : Agent) (p : Option Nat) (l : List (Nat × Nat)) :
    Aside s (s.readRanges space c hint last g p l).st := by
  induction l generalizing s with
  | nil => exact .refl s
  | cons r l ih => exact (aside_coreRead ..).trans (ih _)

end Sys2Proof.Proofs.Array

/-! PROOF of SlotLoads: loads into slots (R75 to R77, R606), and what a read of several ranges delivers. -/

namespace Sys2Proof.Proofs.Array

open Sys2Proof Sys2Proof.Machine Sys2Proof.Laws

/-! ### Reads of the scratchpad and of L-space (R282, R283) -/

theorem range_length {α : Type} (m : SMap α) (d : α) (a n : Nat) : (SMap.range m d a n).length = n := run_length ..

theorem flatRange_length (s : State) (c space a n : Nat) : (flatRange s c space a n).length = n := by
  unfold flatRange
  split <;> exact range_length ..

theorem flatRange_of_onlyLogs {s t : State} (h : OnlyLogs s t) (c space a n : Nat) : flatRange t c space a n = flatRange s c space a n := by
  unfold flatRange
  rw [h.core, h.mem]

theorem flatIn_of_onlyLogs {s t : State} (h : OnlyLogs s t) {space a n : Nat} (hin : flatIn s space a n) : flatIn t space a n := by
  unfold flatIn at *
  rw [h]
  exact hin

/-- A read that stays in the scratchpad meets no accumulator word. -/
theorem sRead_data_spad (s : State) (c a n : Nat) (g : Agent) (p : Option Nat) (h : a + n ≤ accBase) :
    (s.sRead c a n g p).data = SMap.range (s.core c).spad 0 a n := by
  have hk : spadPart a n = n := by
    unfold spadPart
    omega
  unfold State.sRead
  dsimp only
  rw [hk, Nat.sub_self, Nat.zero_div]
  exact List.append_nil _

/-- A read of a range of the scratchpad or of L-space delivers its bytes, and leaves only logs behind. -/
theorem coreRead_flat (s : State) (space c a n hint : Nat) (last : Bool) (g : Agent) (p : Option Nat) (hs : space ≤ 1)
    (hin : flatIn s space a n) :
    (s.coreRead space c a n hint last g p).data = flatRange s c space a n ∧ (s.coreRead space c a n hint last g p).ue = false ∧
      OnlyLogs s (s.coreRead space c a n hint last g p).st := by
  match space with
  | 0 => exact ⟨sRead_data_spad s c a n g p hin, sRead_ue .., onlyLogs_sRead ..⟩
  | 1 => exact ⟨lRead_data s a n g, lRead_ue s a n g, (onlyLogs_lRead s a n g).trans (onlyRegs_count _ c 0x42 p n).logs⟩

/-- So does a read of several ranges, one after the other. -/
theorem readRanges_flat (space c hint : Nat) (last : Bool) (g : Agent) (p : Option Nat) (hs : space ≤ 1) (l : List (Nat × Nat)) (s : State)
    (hin : ∀ y ∈ l, flatIn s space y.1 y.2) :
    (s.readRanges space c hint last g p l).data = (l.map (fun y => flatRange s c space y.1 y.2)).flatten ∧
      (s.readRanges space c hint last g p l).ue = false ∧ OnlyLogs s (s.readRanges space c hint last g p l).st := by
  induction l generalizing s with
  | nil => exact ⟨rfl, rfl, .refl s⟩
  | cons r l ih =>
    obtain ⟨hr, hl⟩ := List.forall_mem_cons.1 hin
    obtain ⟨hdata, hue, hlogs⟩ := coreRead_flat s space c r.1 r.2 hint last g p hs hr
    obtain ⟨hdata', hue', hlogs'⟩ := ih _ fun y hy => flatIn_of_onlyLogs hlogs (hl y hy)
    refine ⟨?_, ?_, hlogs.trans hlogs'⟩
    · simp only [State.readRanges, hdata, hdata', flatRange_of_onlyLogs hlogs, List.map_cons, List.flatten_cons]
    · simp only [State.readRanges, hue, hue', Bool.or_false]

/-! ### The tile that the bytes spell (R75) -/

/-- A piece of `n` bytes, out of pieces of `n` bytes joined. -/
theorem take_drop_flatten {α : Type} (l : List (List α)) (n : Nat) (r : List α) (h : ∀ x ∈ l, x.length = n) (i : Nat) (hi : i < l.length) :
    ((l.flatten ++ r).drop (i * n)).take n = l[i] := by
  induction l generalizing i with
  | nil => exact absurd hi (by simp)
  | cons x l ih =>
    obtain ⟨hx, hl⟩ := List.forall_mem_cons.1 h
    cases i with
    | zero => simp [← hx]
    | succ i =>
      rw [List.flatten_cons, List.append_assoc, Nat.succ_mul, Nat.add_comm, ← List.drop_drop, ← hx, List.drop_left, hx]
      exact ih hl i (by simpa using hi)

theorem length_flatten_const {α : Type} (l : List (List α)) (n : Nat) (h : ∀ x ∈ l, x.length = n) : l.flatten.length = l.length * n := by
  rw [List.length_flatten, List.eq_replicate_of_mem (l := l.map List.length) (a := n) (by simpa using h)]
  simp

/-- The bytes of a tile's rows and of its scales spell these rows and scales. -/
theorem tileOf_rows {t : Td} {rows : List (List Byte)} (sc : List Byte) (hr : rows.length = t.rows)
    (hlen : ∀ x ∈ rows, x.length = rowBytes t.fmt t.cols) :
    tileOf t (rows.flatten ++ sc) = ⟨t.fmt, t.rows, t.cols, t.scaled, rows.map (unpackRow t.fmt t.cols),
      if t.scaled then sc.map (·.toNat) else []⟩ := by
  unfold tileOf
  dsimp only
  congr 1
  · apply List.ext_getElem
    · simp [hr]
    · intro i hi hi'
      have hlt : i < rows.length := by simpa using hi'
      simp only [List.getElem_map, List.getElem_range, take_drop_flatten rows _ sc hlen i hlt]
  · have hdrop : (rows.flatten ++ sc).drop (t.rows * rowBytes t.fmt t.cols) = sc := by
      rw [← hr, ← length_flatten_const rows _ hlen, List.drop_left]
    rw [hdrop]

/-- The bytes of a descriptor's rows, in the scratchpad or in L-space. -/
def flatRows (s : State) (c : Nat) (d : Td) : List (List Byte) :=
  (List.range d.rows).map (fun i => flatRange s c d.space (d.base + i * d.stride) (rowBytes d.fmt d.cols))

/-- The bytes of a descriptor's ranges are its rows, and after them its scales. -/
theorem flatten_ranges (s : State) (c : Nat) (d : Td) : ((d.ranges true).map (fun y => flatRange s c d.space y.1 y.2)).flatten =
    (flatRows s c d).flatten ++ flatRange s c d.space d.scaleBase (d.scaleBytes true) := by
  unfold Td.ranges flatRows
  rw [List.map_append, List.flatten_append, List.map_map]
  congr 1
  split
  · next h => rw [List.eq_nil_of_length_eq_zero ((flatRange_length ..).trans h)]; rfl
  · simp

theorem tileOf_flat (s : State) (c : Nat) (d : Td) :
    tileOf d ((d.ranges true).map (fun y => flatRange s c d.space y.1 y.2)).flatten = ⟨d.fmt, d.rows, d.cols, d.scaled,
      (List.range d.rows).map (fun i => unpackRow d.fmt d.cols (flatRange s c d.space (d.base + i * d.stride) (rowBytes d.fmt d.cols))),
      if d.scaled then (flatRange s c d.space d.scaleBase (d.scaleBytes true)).map (·.toNat) else []⟩ := by
  rw [flatten_ranges, tileOf_rows _ (by simp [flatRows]) (by simp [flatRows, flatRange_length])]
  simp [flatRows]

/-- Without scales a tile's ranges are its rows. -/
theorem ranges_unscaled {d : Td} (h : d.scaled = false) :
    d.ranges true = (List.range d.rows).map (fun i => (d.base + i * d.stride, rowBytes d.fmt d.cols)) := by
  simp [Td.ranges, Td.scaleBytes, h]

/-! ### The two rows -/

theorem exec_loadbStart {s : State} {c a : Nat} {l : LoadEntry} {r : List LoadEntry} (hal : s.alive = true) (hl : (s.arr c a).loads = l :: r)
    (hst : l.started = false) (hp : (s.arr c a).passes.any (fun q => q.req.slot == l.slot) = false)
    (hc : (s.arr c a).clears.any (fun e => e.1 == l.slot && e.2 ≤ l.ord) = false) :
    exec (.loadbStart c a) s = .next (s.modArr c a (fun x => { x with loads := { l with started := true } :: r })) := by
  show execLoadbStart c a s = _
  simp only [execLoadbStart, hal, hl, hst, hp, hc]
  rfl

/-- What the load of an entry reads. -/
def loadRead (s : State) (c : Nat) (l : LoadEntry) : Rd :=
  s.readRanges (tdOf l.desc).space c (tdOf l.desc).hint l.last (if l.sp = 2 then .stook else .array)
    (if l.sp = 2 then none else some l.sp) ((tdOf l.desc).ranges true)

theorem exec_loadbComplete {s : State} {c a : Nat} {l : LoadEntry} {r : List LoadEntry} (hal : s.alive = true)
    (hl : (s.arr c a).loads = l :: r) (hst : l.started = true) (hue : (loadRead s c l).ue = false) :
    exec (.loadbComplete c a) s = .next ((loadRead s c l).st.modArr c a (fun k =>
      { k.setSlot l.slot (some (tileOf (tdOf l.desc) (loadRead s c l).data)) with loads := r })) := by
  show execLoadbComplete c a s = _
  unfold execLoadbComplete
  rw [hl]
  simp only [hal, hst, loadRead] at hue ⊢
  simp [hue]

theorem exec_loadbComplete_flat {s : State} {c a : Nat} {l : LoadEntry} {r : List LoadEntry} (hal : s.alive = true)
    (hl : (s.arr c a).loads = l :: r) (hst : l.started = true) (hs : (tdOf l.desc).space ≤ 1)
    (hin : ∀ y ∈ (tdOf l.desc).ranges true, flatIn s (tdOf l.desc).space y.1 y.2) :
    ∃ u, OnlyLogs s u ∧ exec (.loadbComplete c a) s = .next (u.modArr c a (fun k =>
      { k.setSlot l.slot (some (tileOf (tdOf l.desc)
        (((tdOf l.desc).ranges true).map (fun y => flatRange s c (tdOf l.desc).space y.1 y.2)).flatten)) with loads := r })) := by
  obtain ⟨hdata, hue, hlogs⟩ := readRanges_flat (tdOf l.desc).space c (tdOf l.desc).hint l.last (if l.sp = 2 then .stook else .array)
    (if l.sp = 2 then none else some l.sp) hs ((tdOf l.desc).ranges true) s hin
  refine ⟨_, hlogs, ?_⟩
  rw [← hdata]
  exact exec_loadbComplete hal hl hst hue

/-- Settles O29: a load reads the ranges of its descriptor, in whichever space they lie, and fills its slot with what they spell. -/
theorem slotLoads : Obligations.SlotLoads := by
  intro s c a l r d ha hal hl hd
  subst hd
  refine ⟨fun hst hp hc => ⟨_, exec_loadbStart hal hl hst hp hc, onlyArr_modArr .., arr_modArr_self ..⟩,
    fun hst hs hsc hin => ?flat, fun x n hst hn hx hue => ⟨fun hs hin => ?data, ?any⟩⟩
  case flat =>
    obtain ⟨u, hlogs, hexec⟩ := exec_loadbComplete_flat hal hl hst hs (by
      rw [ranges_unscaled hsc]
      intro y hy
      obtain ⟨i, hi, rfl⟩ := List.mem_map.1 hy
      exact hin i (List.mem_range.1 hi))
    have harr : u.arr c a = s.arr c a := congrArg (·.arr a) (hlogs.core c)
    refine ⟨_, hexec, ?_, ?_, hlogs.mem, fun e he => (core_modCore_ne u he _).trans (hlogs.core e)⟩
    · rw [arr_modArr_self, tileOf_flat, harr, hsc]
      rfl
    · rw [core_modArr, arr_modArr_self, hlogs.core]
  case data =>
    rw [hx]
    exact (readRanges_flat _ c _ _ _ _ hs _ s hin).1
  case any =>
    have haside : Aside s x.st := hx ▸ aside_readRanges ..
    have harr : x.st.arr c a = s.arr c a := congrArg (·.arr a) (haside.core c)
    have hexec := exec_loadbComplete (c := c) (a := a) hal hl hst (by rw [← hue, hx]; rfl)
    have hread : loadRead s c l = x := hx.symm
    rw [hread] at hexec
    refine ⟨_, hexec, ?_, haside.2, ?_, ?_, fun e he => (core_modCore_ne x.st he _).trans (haside.core e)⟩
    · rw [arr_modArr_self, harr, hn]
      rfl
    · rw [spad_modArr, haside.core]
    · rw [acc_modArr, haside.core]

end Sys2Proof.Proofs.Array

/-! RULES of the stook's own state: what sealing, slot clears and the retirement of keys change and keep (R89, R94, R99). -/

namespace Sys2Proof.Proofs.Array

open Sys2Proof Sys2Proof.Machine Sys2Proof.Laws

/-! ### Key entries -/

section Keys

variable (s : State) (c : Nat)

theorem stKey_of_core {s t : State} {c : Nat} (h : (t.core c).stook.keys = (s.core c).stook.keys) (n : Nat) : t.stKey c n = s.stKey c n := by
  unfold State.stKey
  rw [h]

theorem stKey_modStook (f : Stook → Stook) (n : Nat) : (s.modStook c f).stKey c n = (f (s.core c).stook).keys.get {} n := by
  unfold State.stKey
  rw [stook_modStook_self]

theorem stKey_modKey (n m : Nat) (f : StKey → StKey) :
    (s.modKey c n f).stKey c m = if m = n then f (s.stKey c n) else s.stKey c m := by
  unfold State.modKey
  rw [stKey_modStook]
  split
  · next h => subst h; exact smap_get_upd_self ..
  · next h => exact smap_get_upd_ne _ _ _ h

end Keys

/-! ### Sealing (R99) -/

section Sealing

variable (s : State) (c n : Nat)

theorem onlyCore_sealKey (l : List Nat) : OnlyCore s (s.sealKey c n) c l := onlyCore_modStook ..

theorem stKey_sealKey (m : Nat) : (s.sealKey c n).stKey c m = if m = n then { s.stKey c n with batch := [] } else s.stKey c m := by
  unfold State.sealKey
  rw [stKey_modStook]
  dsimp only [State.stKey]
  generalize hy : SMap.get (s.core c).stook.keys {} n = y
  by_cases hb : y.batch = []
  · rw [if_pos (by simp [hb])]
    split
    · next h => subst h; rw [hy, ← hb]
    · rfl
  · rw [if_neg (by simp [hb])]
    split
    · next h => subst h; exact smap_get_set_self ..
    · next h => exact smap_get_set_ne _ _ _ h

theorem sealed_sealKey : ((s.sealKey c n).core c).stook.sealed =
    (s.core c).stook.sealed ++ if (s.stKey c n).batch.isEmpty then [] else [⟨n, (s.stKey c n).batch⟩] := by
  unfold State.sealKey
  rw [stook_modStook_self]
  change Stook.sealed (if (s.stKey c n).batch.isEmpty = true then _ else _) = _
  split
  · exact (List.append_nil _).symm
  · rfl

/-- Key `n` seals where a test accepts its entry. -/
def sealStep (q : StKey → Bool) : State := if q (s.stKey c n) then s.sealKey c n else s

end Sealing

/-- The keys of a list that a test on their entries accepts seal, one after the other. -/
def sealWhere (s : State) (c : Nat) (q : StKey → Bool) (l : List Nat) : State := l.foldl (fun s n => sealStep s c n q) s

section SealWhere

variable (c : Nat) (q : StKey → Bool)

theorem onlyCore_sealStep (s : State) (n : Nat) (l : List Nat) : OnlyCore s (sealStep s c n q) c l := by
  unfold sealStep
  split
  · exact onlyCore_sealKey ..
  · exact .refl ..

theorem stKey_sealStep (s : State) (n m : Nat) : (sealStep s c n q).stKey c m =
    if m = n ∧ q (s.stKey c n) = true then { s.stKey c n with batch := [] } else s.stKey c m := by
  unfold sealStep
  by_cases hq : q (s.stKey c n) = true
  · simp only [hq, if_true, and_true, stKey_sealKey]
  · simp only [hq, if_false, and_false, Bool.false_eq_true]

theorem sealed_sealStep (s : State) (n : Nat) : ((sealStep s c n q).core c).stook.sealed = (s.core c).stook.sealed ++
    if !(s.stKey c n).batch.isEmpty && q (s.stKey c n) then [⟨n, (s.stKey c n).batch⟩] else [] := by
  unfold sealStep
  by_cases hq : q (s.stKey c n) = true
  · rw [if_pos hq, sealed_sealKey]
    cases (s.stKey c n).batch.isEmpty <;> simp [hq]
  · simp [hq]

theorem onlyCore_sealWhere (l : List Nat) (s : State) (a : List Nat) : OnlyCore s (sealWhere s c q l) c a := by
  induction l generalizing s with
  | nil => exact .refl ..
  | cons n l ih => exact (onlyCore_sealStep ..).trans (ih _)

/-- Each key of the list seals by what its own entry was at the start. -/
theorem stKey_sealWhere (l : List Nat) (hl : l.Nodup) (s : State) (m : Nat) : (sealWhere s c q l).stKey c m =
    if m ∈ l ∧ q (s.stKey c m) = true then { s.stKey c m with batch := [] } else s.stKey c m := by
  induction l generalizing s with
  | nil => simp [sealWhere]
  | cons n l ih =>
    obtain ⟨hn, hl⟩ := List.nodup_cons.1 hl
    refine (ih hl _).trans ?_
    rw [stKey_sealStep]
    by_cases hm : m = n
    · subst hm
      simp [hn]
    · simp [hm]

theorem sealed_sealWhere (l : List Nat) (hl : l.Nodup) (s : State) : ((sealWhere s c q l).core c).stook.sealed =
    (s.core c).stook.sealed ++
      (l.filter (fun n => !(s.stKey c n).batch.isEmpty && q (s.stKey c n))).map (fun n => ⟨n, (s.stKey c n).batch⟩) := by
  induction l generalizing s with
  | nil => simp [sealWhere]
  | cons n l ih =>
    obtain ⟨hn, hl⟩ := List.nodup_cons.1 hl
    have hkey : ∀ m ∈ l, (sealStep s c n q).stKey c m = s.stKey c m := fun m hm => by
      rw [stKey_sealStep, if_neg]
      exact fun h => hn (h.1 ▸ hm)
    have htail : (l.filter (fun m => !((sealStep s c n q).stKey c m).batch.isEmpty && q ((sealStep s c n q).stKey c m))).map
          (fun m => (⟨m, ((sealStep s c n q).stKey c m).batch⟩ : StBatch)) =
        (l.filter (fun m => !(s.stKey c m).batch.isEmpty && q (s.stKey c m))).map (fun m => ⟨m, (s.stKey c m).batch⟩) := by
      rw [List.filter_congr fun m hm => by rw [hkey m hm]]
      exact List.map_congr_left fun m hm => by rw [hkey m (List.mem_of_mem_filter hm)]
    refine (ih hl _).trans ?_
    rw [htail, List.filter_cons, sealed_sealStep, List.append_assoc]
    split <;> rfl

end SealWhere

/-! ### Slots and keys that retire (R89, R94) -/

/-- What emptying slots and retiring keys keep: batches, sealed batches and buffer halves; and a key whose tile is nowhere stays so. -/
structure Retires (s t : State) (c : Nat) : Prop where
  only : OnlyCore s t c []
  sealed : (t.core c).stook.sealed = (s.core c).stook.sealed
  half : ∀ h, (t.core c).stook.half h = (s.core c).stook.half h
  batch : ∀ n, (t.stKey c n).batch = (s.stKey c n).batch
  res : ∀ n, (s.stKey c n).res = none → (t.stKey c n).res = none

theorem Retires.refl (s : State) (c : Nat) : Retires s s c :=
  ⟨.refl .., rfl, fun _ => rfl, fun _ => rfl, fun _ h => h⟩

theorem Retires.trans {s t u : State} {c : Nat} (h : Retires s t c) (g : Retires t u c) : Retires s u c :=
  ⟨h.only.trans g.only, g.sealed.trans h.sealed, fun k => (g.half k).trans (h.half k),
    fun n => (g.batch n).trans (h.batch n), fun n hn => g.res n (h.res n hn)⟩

theorem stKey_modArr (s : State) (c a : Nat) (f : Arr → Arr) (n : Nat) : (s.modArr c a f).stKey c n = s.stKey c n :=
  stKey_of_core (by rw [stook_modArr]) n

theorem retires_modArr (s : State) (c a : Nat) (f : Arr → Arr) : Retires s (s.modArr c a f) c where
  only := onlyCore_modArr ..
  sealed := by rw [stook_modArr]
  half h := by rw [stook_modArr]
  batch n := by rw [stKey_modArr]
  res n h := by rw [stKey_modArr, h]

/-- A change of key entries alone, which leaves each its batch and gives none a slot. -/
theorem retires_modStook (s : State) (c : Nat) (f : Stook → Stook) (hs : (f (s.core c).stook).sealed = (s.core c).stook.sealed)
    (hh : ∀ h, (f (s.core c).stook).half h = (s.core c).stook.half h)
    (hk : ∀ n, ((f (s.core c).stook).keys.get {} n).batch = (s.stKey c n).batch ∧
      ((s.stKey c n).res = none → ((f (s.core c).stook).keys.get {} n).res = none)) : Retires s (s.modStook c f) c where
  only := onlyCore_modStook ..
  sealed := by rw [stook_modStook_self, hs]
  half h := by rw [stook_modStook_self, hh]
  batch n := by rw [stKey_modStook, (hk n).1]
  res n h := by rw [stKey_modStook, (hk n).2 h]

theorem retires_modKey (s : State) (c n : Nat) (f : StKey → StKey) (hb : ∀ y, (f y).batch = y.batch)
    (hr : ∀ y : StKey, y.res = none → (f y).res = none) : Retires s (s.modKey c n f) c := by
  refine retires_modStook s c _ rfl (fun _ => rfl) fun m => ?_
  have hkey := stKey_modKey s c n m f
  unfold State.modKey at hkey
  rw [stKey_modStook] at hkey
  rw [hkey]
  split
  · next h => subst h; exact ⟨hb _, hr _⟩
  · exact ⟨rfl, fun h => h⟩

/-- The key entries after slot `t` of array `a` emptied. -/
theorem stKey_unreside (s : State) (c a t n : Nat) : (s.unreside c a t).stKey c n =
    if (s.stKey c n).res = some (a * 2 + t) then { s.stKey c n with res := none } else s.stKey c n := by
  unfold State.unreside
  rw [stKey_modStook]
  exact smap_get_mapDrop (s.core c).stook.keys (fun _ => ({} : StKey))
    (fun _ y => if y.res = some (a * 2 + t) then { y with res := none } else y) n (if_neg (by simp))

theorem retires_unreside (s : State) (c a t : Nat) : Retires s (s.unreside c a t) c := by
  refine retires_modStook s c _ rfl (fun _ => rfl) fun n => ?_
  have hkey := stKey_unreside s c a t n
  unfold State.unreside at hkey
  rw [stKey_modStook] at hkey
  rw [hkey]
  split
  · exact ⟨rfl, fun _ => rfl⟩
  · exact ⟨rfl, fun h => h⟩

theorem retires_slotClear (s : State) (c a t : Nat) : Retires s (s.slotClear c a t) c := by
  unfold State.slotClear State.emptySlot
  dsimp only
  split
  · refine Retires.trans ?_ (retires_unreside ..)
    exact retires_modArr ..
  · refine Retires.trans ?_ (retires_unreside ..)
    exact retires_modArr ..

theorem retires_dropTile (s : State) (c n : Nat) : Retires s (s.dropTile c n) c := by
  unfold State.dropTile
  split
  · refine Retires.trans ?_ (retires_slotClear ..)
    exact retires_modKey _ _ _ _ (fun _ => rfl) fun _ _ => rfl
  · exact .refl ..

theorem res_dropTile (s : State) (c n : Nat) : ((s.dropTile c n).stKey c n).res = none := by
  unfold State.dropTile
  split
  · exact (retires_slotClear ..).res n (by rw [stKey_modKey, if_pos rfl])
  · assumption

theorem retires_keyRetire (s : State) (c n : Nat) : Retires s (s.keyRetire c n) c := by
  unfold State.keyRetire
  split
  · exact .refl ..
  · refine Retires.trans ?_ (retires_dropTile ..)
    exact retires_modKey _ _ _ _ (fun _ => rfl) fun _ h => h

end Sys2Proof.Proofs.Array

/-! PROOF of StookRegisters: the stook's control registers and its key entries (R93, R94, R105, R107, R108). -/

namespace Sys2Proof.Proofs.Array

open Sys2Proof Sys2Proof.Machine Sys2Proof.Laws

/-! ### Words and fields -/

theorem get_mod (f : Fld) (w : W64) : f.get w % 2 ^ (f.hi + 1 - f.lo) = f.get w := Nat.mod_mod ..

/-- A field that is given the value it holds leaves the word as it is. -/
theorem put_get_self (f : Fld) (h : f.lo ≤ f.hi) (w : W64) : f.put w (f.get w) = w := by
  apply BitVec.eq_of_toNat_eq
  unfold Fld.put Fld.get
  rw [BitVec.toNat_ofNat]
  apply Nat.eq_of_testBit_eq
  intro k
  rw [Nat.testBit_mod_two_pow, Module.testBit_setBits h, Module.testBit_bits]
  by_cases hk : k < 64
  · split
    · next hin =>
      have hw : k - f.lo < f.hi + 1 - f.lo := by omega
      have hsum : f.lo + (k - f.lo) = k := by omega
      simp [hk, hw, hsum]
    · simp [hk]
  · rw [Nat.testBit_lt_two_pow (i := k) (lt_of_lt_of_le w.isLt (Nat.pow_le_pow_right two_pos (not_lt.1 hk)))]
    simp [hk]

theorem put_of_get {f : Fld} (h : f.lo ≤ f.hi) {w : W64} {v : Nat} (hv : v = f.get w) : f.put w v = w := by
  rw [hv, put_get_self f h]

/-- A field as wide as the word takes all of it. -/
theorem put_full (f : Fld) (hlo : f.lo = 0) (hhi : f.hi = 63) (w v : W64) : f.put w (f.get v) = v := by
  apply BitVec.eq_of_toNat_eq
  unfold Fld.put Fld.get
  rw [BitVec.toNat_ofNat]
  apply Nat.eq_of_testBit_eq
  intro k
  rw [Nat.testBit_mod_two_pow, Module.testBit_setBits (by omega), Module.testBit_bits, hlo, hhi]
  by_cases hk : k < 64
  · rw [if_pos (by omega)]
    simp [hk]
  · rw [Nat.testBit_lt_two_pow (i := k) (lt_of_lt_of_le v.isLt (Nat.pow_le_pow_right two_pos (not_lt.1 hk)))]
    simp [hk]

/-- A field written from a word takes the word's bits. -/
theorem rd_wr_get (s : State) (f : Fld) (h : f.lo ≤ f.hi) (h64 : f.hi < 64) (w : W64) (n i j : Nat) :
    (s.wr f (f.get w) n i j).rd f n i j = f.get w := (rd_wr_self s f _ n i j h h64).trans (get_mod f w)

/-! ### Addresses -/

theorem stookStat_ne_ctl (c : Nat) : Reg.addr .STOOK_STAT c 0 0 ≠ Reg.addr .STOOK_CTL c 0 0 := by
  simp only [Reg.addr, Reg.place]
  omega

theorem stookStat_ne_buf (c : Nat) : Reg.addr .STOOK_STAT c 0 0 ≠ Reg.addr .STOOK_BUF c 0 0 := by
  simp only [Reg.addr, Reg.place]
  omega

theorem stookStat_ne_key (c n : Nat) : Reg.addr .STOOK_STAT c 0 0 ≠ Reg.addr .STOOK_KEY_CFG c n 0 := by
  simp only [Reg.addr, Reg.place]
  omega

theorem stookStat_ne_desc (c n : Nat) {g : Reg} (hg : g = .STOOK_KEY_BLO ∨ g = .STOOK_KEY_BHI) : g.addr c n 0 ≠ Reg.addr .STOOK_STAT c 0 0 := by
  rcases hg with rfl | rfl
  all_goals
    simp only [Reg.addr, Reg.place]
    omega

/-! ### STOOK_CTL (R107) -/

/-- ARRAYS and EN after a write of STOOK_CTL, before FLUSH and ABORT act. -/
def ctlSet (s : State) (c : Nat) (v : W64) : State :=
  State.wr (if !(STOOK_CTL.ARRAYS.get v != s.rd STOOK_CTL.ARRAYS c) then s
    else if (s.core c).stook.pending == 0 && (!s.rdB STOOK_CTL.EN c || STOOK_CTL.EN.get v == 0) then
      (s.wr STOOK_CTL.ARRAYS (STOOK_CTL.ARRAYS.get v) c).dropUnowned c
    else s.wr STOOK_STAT.CFGERR 1 c) STOOK_CTL.EN (STOOK_CTL.EN.get v) c

theorem writeStookCtl_eq (s : State) (c : Nat) (v : W64) : s.writeStookCtl c v =
    (if bitB v.toNat 6 then
      (if bitB v.toNat 5 then sealWhere (ctlSet s c v) c (fun _ => true) (List.range 64) else ctlSet s c v).stookAbortAll c
    else if bitB v.toNat 5 then sealWhere (ctlSet s c v) c (fun _ => true) (List.range 64) else ctlSet s c v) := rfl

section Ctl

variable (s : State) (c : Nat) (v : W64)

theorem onlyCore_ctlSet : OnlyCore s (ctlSet s c v) c [Reg.addr .STOOK_CTL c 0 0, Reg.addr .STOOK_STAT c 0 0] := by
  unfold ctlSet
  refine OnlyCore.trans ?_ (((onlyRegs_wr ..).onlyCore c).mono (by simp [STOOK_CTL.EN]))
  split
  · exact .refl ..
  split
  · exact (((onlyRegs_wr ..).onlyCore c).mono (by simp [STOOK_CTL.ARRAYS])).trans (onlyCore_modStook ..)
  · exact ((onlyRegs_wr ..).onlyCore c).mono (by simp [STOOK_STAT.CFGERR])

theorem en_ctlSet : (ctlSet s c v).rd STOOK_CTL.EN c = bits v.toNat 0 0 :=
  rd_wr_get _ STOOK_CTL.EN (by decide) (by decide) v c 0 0

theorem arrays_wr_en (e : Nat) : (s.wr STOOK_CTL.EN e c).rd STOOK_CTL.ARRAYS c = s.rd STOOK_CTL.ARRAYS c :=
  Module.rd_wr_apart (f := STOOK_CTL.ARRAYS) (g := STOOK_CTL.EN) rfl _ _ _ _ (by decide) (by decide) (by decide)

theorem reg_dropUnowned (g : Reg) (n i j : Nat) : (s.dropUnowned c).reg g n i j = s.reg g n i j := reg_modStook ..

theorem stat_wr_en (e : Nat) : (s.wr STOOK_CTL.EN e c).reg .STOOK_STAT c 0 0 = s.reg .STOOK_STAT c 0 0 := reg_wr_ne _ (stookStat_ne_ctl c) _

variable {s c v}

/-- A write that leaves ARRAYS as it is writes EN alone. -/
theorem ctlSet_same (h : bits v.toNat 4 1 = s.rd STOOK_CTL.ARRAYS c) : ctlSet s c v = s.wr STOOK_CTL.EN (STOOK_CTL.EN.get v) c := by
  have hsame : STOOK_CTL.ARRAYS.get v = s.rd STOOK_CTL.ARRAYS c := h
  simp [ctlSet, hsame]

theorem arrays_ctlSet_done (hp : (s.core c).stook.pending = 0) (he : bits v.toNat 0 0 = 0 ∨ s.rd STOOK_CTL.EN c = 0) :
    (ctlSet s c v).rd STOOK_CTL.ARRAYS c = bits v.toNat 4 1 ∧ (ctlSet s c v).reg .STOOK_STAT c 0 0 = s.reg .STOOK_STAT c 0 0 := by
  by_cases h : bits v.toNat 4 1 = s.rd STOOK_CTL.ARRAYS c
  · rw [ctlSet_same h, arrays_wr_en, h]
    exact ⟨rfl, stat_wr_en ..⟩
  · have hok : ((s.core c).stook.pending == 0 && (!s.rdB STOOK_CTL.EN c || STOOK_CTL.EN.get v == 0)) = true := by
      rcases he with he | he
      · have hv : STOOK_CTL.EN.get v = 0 := he
        simp [hp, hv]
      · simp [hp, State.rdB, he]
    have hne : ¬ STOOK_CTL.ARRAYS.get v = s.rd STOOK_CTL.ARRAYS c := h
    unfold ctlSet
    rw [if_neg (by simp [hne]), if_pos hok, arrays_wr_en, stat_wr_en]
    exact ⟨(rd_of_reg (reg_dropUnowned ..)).trans (rd_wr_get s STOOK_CTL.ARRAYS (by decide) (by decide) v c 0 0),
      (reg_dropUnowned ..).trans (reg_wr_ne s (f := STOOK_CTL.ARRAYS) (stookStat_ne_ctl c) _)⟩

theorem arrays_ctlSet_refused (hp : (s.core c).stook.pending ≠ 0 ∨ bits v.toNat 0 0 = 1 ∧ s.rd STOOK_CTL.EN c = 1)
    (h : bits v.toNat 4 1 ≠ s.rd STOOK_CTL.ARRAYS c) :
    (ctlSet s c v).rd STOOK_CTL.ARRAYS c = s.rd STOOK_CTL.ARRAYS c ∧ (ctlSet s c v).rd STOOK_STAT.CFGERR c = 1 := by
  have hok : ¬ ((s.core c).stook.pending == 0 && (!s.rdB STOOK_CTL.EN c || STOOK_CTL.EN.get v == 0)) = true := by
    rcases hp with hp | ⟨he, hen⟩
    · simp [hp]
    · have hv : STOOK_CTL.EN.get v = 1 := he
      simp [State.rdB, hen, hv]
  have hne : ¬ STOOK_CTL.ARRAYS.get v = s.rd STOOK_CTL.ARRAYS c := h
  unfold ctlSet
  rw [if_neg (by simp [hne]), if_neg hok, arrays_wr_en]
  refine ⟨rd_of_reg (reg_wr_ne _ (stookStat_ne_ctl c).symm _), (rd_of_reg (f := STOOK_STAT.CFGERR) (stat_wr_en ..)).trans ?_⟩
  exact rd_wr_self s STOOK_STAT.CFGERR 1 c 0 0 (by decide) (by decide)

end Ctl

/-! ### Requests that end early (R103, R105) -/

/-- Cores and memories are the same: what the end of a request leaves. -/
def SameStore (s t : State) : Prop := t.cores = s.cores ∧ t.mem = s.mem

theorem SameStore.refl (s : State) : SameStore s s := ⟨rfl, rfl⟩

theorem SameStore.trans {s t u : State} (h : SameStore s t) (g : SameStore t u) : SameStore s u := ⟨g.1.trans h.1, g.2.trans h.2⟩

theorem SameStore.core {s t : State} (h : SameStore s t) (c : Nat) : t.core c = s.core c := Module.core_of_cores h.1 c

theorem SameStore.stKey {s t : State} (h : SameStore s t) (c n : Nat) : t.stKey c n = s.stKey c n := stKey_of_core (by rw [h.core]) n

theorem mem_of_onlyCore {s t : State} {c : Nat} {l : List Nat} (h : OnlyCore s t c l) : t.mem = s.mem := by rw [h.rest]

theorem sameStore_of_onlyRegs {s t : State} {l : List Nat} (h : OnlyRegs s t l) : SameStore s t := by
  rw [h.rest]
  exact ⟨rfl, rfl⟩

theorem sameStore_addEvt (s : State) (e k : Nat) : SameStore s (s.addEvt e k) := by
  unfold State.addEvt
  dsimp only
  split
  · exact ⟨rfl, rfl⟩
  · exact ⟨rfl, rfl⟩

theorem sameStore_portEvent (s : State) (c : Nat) (p : Option Nat) : SameStore s (s.portEvent c p) :=
  (sameStore_of_onlyRegs (onlyRegs_count ..)).trans (sameStore_of_onlyRegs (onlyRegs_count ..))

theorem sameStore_stookLog (s : State) (c idx : Nat) (r : StReq) (status : Nat) : SameStore s (s.stookLog c idx r status) := by
  unfold State.stookLog
  dsimp only
  split
  · exact ⟨rfl, rfl⟩
  · exact ⟨rfl, rfl⟩

theorem sameStore_report (s : State) (id status : Nat) : SameStore s (s.report id status) := by
  unfold State.report
  split
  · exact ⟨rfl, rfl⟩
  · exact .refl s

theorem sameStore_touched (s : State) (c : Nat) : SameStore s (s.touched c) := ⟨rfl, rfl⟩

theorem sameStore_stookDone (s : State) (c idx : Nat) (r : StReq) (status : Nat) : SameStore s (s.stookDone c idx r status) := by
  unfold State.stookDone
  dsimp only
  split
  · exact (sameStore_touched s c).trans (sameStore_report ..)
  · have hevt := ((sameStore_touched s c).trans (sameStore_addEvt _ r.event 1)).trans (sameStore_portEvent _ c none)
    split
    · exact hevt
    · exact hevt.trans (sameStore_stookLog ..)

theorem sameStore_foldl {α : Type} {g : State → α → State} (hg : ∀ s x, SameStore s (g s x)) (l : List α) (s : State) :
    SameStore s (l.foldl g s) := by
  induction l generalizing s with
  | nil => exact .refl s
  | cons x l ih => exact (hg s x).trans (ih _)

theorem retires_foldl {α : Type} {c : Nat} {g : State → α → State} (hg : ∀ s x, Retires s (g s x) c) (l : List α) (s : State) :
    Retires s (l.foldl g s) c := by
  induction l generalizing s with
  | nil => exact .refl s c
  | cons x l ih => exact (hg s x).trans (ih _)

/-- The group of a half that was scattering closes (R105). -/
def closeHalf (s : State) (c : Nat) (x : Option StHalf) : State :=
  match x with
  | some h => if h.stage = 2 then s.modArr c h.arr (fun a => a.setGst h.grp .closed) else s
  | none => s

/-- A half whose pass is in flight goes on without its requests; any other is free (R105). -/
def stopHalf (x : Option StHalf) : Option StHalf :=
  match x with
  | some h => if h.stage = 1 then some { h with stage := 3, batch := { h.batch with reqs := [] } } else
      if h.stage = 3 then some h else none
  | none => none

/-- The stook once every batch that has no pass in flight is discarded. -/
def dropped (s : State) (c : Nat) : State :=
  (closeHalf (closeHalf s c (s.core c).stook.h0) c (s.core c).stook.h1).modStook c (fun k => { k with
    keys := k.keys.mapDrop (fun _ => {}) (fun _ y => { y with batch := [] })
    sealed := []
    h0 := stopHalf k.h0
    h1 := stopHalf k.h1 })

theorem stookAbortAll_eq (s : State) (c : Nat) : ∃ l : List (Nat × StReq), s.stookAbortAll c =
    l.foldl (fun s e => s.stookDone c e.1 e.2 0x18) ((List.range 64).foldl (fun s n => s.keyRetire c n) (dropped s c)) :=
  ⟨_, rfl⟩

theorem mem_closeHalf (s : State) (c : Nat) (x : Option StHalf) : (closeHalf s c x).mem = s.mem := by
  unfold closeHalf
  split
  · split <;> rfl
  · rfl

theorem stage_stopHalf {x : Option StHalf} {b : StHalf} (h : stopHalf x = some b) : b.stage = 3 := by
  unfold stopHalf at h
  split at h
  · split at h
    · cases h; rfl
    · split at h
      · next h3 => cases h; exact h3
      · cases h
  · cases h

theorem dropped_batch (s : State) (c n : Nat) : ((dropped s c).stKey c n).batch = [] := by
  unfold dropped
  rw [stKey_modStook]
  dsimp only
  generalize ((closeHalf (closeHalf s c (s.core c).stook.h0) c (s.core c).stook.h1).core c).stook.keys = m
  rw [smap_get_mapDrop m (fun _ => ({} : StKey)) (fun _ y => { y with batch := [] }) n rfl]

/-- After an abort no request waits, and what still runs is a pass whose requests are gone (R105). -/
theorem abort_dropped (s : State) (c : Nat) : (∀ n, ((s.stookAbortAll c).stKey c n).batch = []) ∧
    ((s.stookAbortAll c).core c).stook.sealed = [] ∧
    (∀ h b, ((s.stookAbortAll c).core c).stook.half h = some b → b.stage = 3) ∧ (s.stookAbortAll c).mem = s.mem := by
  obtain ⟨l, hl⟩ := stookAbortAll_eq s c
  rw [hl]
  have hret : Retires (dropped s c) _ c := retires_foldl (fun s n => retires_keyRetire s c n) (List.range 64) (dropped s c)
  set u := (List.range 64).foldl (fun s n => s.keyRetire c n) (dropped s c)
  have hdone : SameStore u (l.foldl (fun s e => s.stookDone c e.1 e.2 0x18) u) :=
    sameStore_foldl (fun s e => sameStore_stookDone s c e.1 e.2 0x18) l u
  have hstook : (dropped s c |>.core c).stook.sealed = [] ∧ ∀ h b, (dropped s c |>.core c).stook.half h = some b → b.stage = 3 := by
    unfold dropped
    rw [stook_modStook_self]
    refine ⟨rfl, fun h b hb => ?_⟩
    unfold Stook.half at hb
    split at hb <;> exact stage_stopHalf hb
  refine ⟨fun n => ?_, ?_, fun h b hb => ?_, ?_⟩
  · rw [hdone.stKey, hret.batch, dropped_batch]
  · rw [hdone.core, hret.sealed, hstook.1]
  · rw [hdone.core, hret.half] at hb
    exact hstook.2 h b hb
  · exact hdone.2.trans ((mem_of_onlyCore hret.only).trans ((mem_closeHalf ..).trans (mem_closeHalf ..)))

/-! ### Key entries (R93, R94) -/

/-- The word of STOOK_KEY_CFG that a write of its fields makes. -/
def keyWord (old v : W64) : W64 := Reg.STOOK_KEY_CFG.fields.foldl (fun w f => f.put w (f.get v)) old

theorem get_keyWord {f : Fld} (hf : f ∈ Reg.fields .STOOK_KEY_CFG) (hrw : f.acc = .rw) (old v : W64) : f.get (keyWord old v) = f.get v :=
  (get_written (Reg.fields .STOOK_KEY_CFG) (by decide) hf old v).trans (if_pos hrw)

/-- A write that changes VALID alone, and clears it. -/
theorem keyWord_unbind {old v : W64} (hk : STOOK_KEY_CFG.KEY.get v = STOOK_KEY_CFG.KEY.get old) (hv : STOOK_KEY_CFG.VALID.get v = 0)
    (ha : STOOK_KEY_CFG.AFMT.get v = STOOK_KEY_CFG.AFMT.get old) (hd : STOOK_KEY_CFG.DEADLINE.get v = STOOK_KEY_CFG.DEADLINE.get old)
    (ho : STOOK_KEY_CFG.OFMT.get v = STOOK_KEY_CFG.OFMT.get old) : keyWord old v = STOOK_KEY_CFG.VALID.put old 0 := by
  have hkeep : ∀ f : Fld, Module.Apart f STOOK_KEY_CFG.VALID → f.hi < 64 → f.get old = f.get (STOOK_KEY_CFG.VALID.put old 0) :=
    fun f hap hhi => (Module.get_put_apart old 0 hap (by decide) hhi).symm
  show STOOK_KEY_CFG.OFMT.put (STOOK_KEY_CFG.DEADLINE.put (STOOK_KEY_CFG.AFMT.put (STOOK_KEY_CFG.VALID.put (STOOK_KEY_CFG.KEY.put old _) _) _) _) _ = _
  rw [put_of_get (f := STOOK_KEY_CFG.KEY) (by decide) hk, hv,
    put_of_get (f := STOOK_KEY_CFG.AFMT) (by decide) (ha.trans (hkeep _ (by decide) (by decide))),
    put_of_get (f := STOOK_KEY_CFG.DEADLINE) (by decide) (hd.trans (hkeep _ (by decide) (by decide))),
    put_of_get (f := STOOK_KEY_CFG.OFMT) (by decide) (ho.trans (hkeep _ (by decide) (by decide)))]

theorem keyValid_iff (s : State) (c n : Nat) : s.keyValid c n = true ↔ s.rd STOOK_KEY_CFG.VALID c n = 1 := beq_iff_eq

section KeyWrites

variable {s : State} {c n : Nat} {v : W64}

theorem writeKeyCfg_free (hu : (s.stKey c n).unbinding = false) (hk : s.keyValid c n = false) (hv : STOOK_KEY_CFG.VALID.get v = 1) :
    s.writeKeyCfg c n v = if s.bindOk c n v then s.setReg .STOOK_KEY_CFG c n 0 (keyWord (s.reg .STOOK_KEY_CFG c n 0) v)
      else (s.setReg .STOOK_KEY_CFG c n 0 (STOOK_KEY_CFG.VALID.put (keyWord (s.reg .STOOK_KEY_CFG c n 0) v) 0)).bindErr c := by
  simp [State.writeKeyCfg, hu, hk, hv, keyWord]

theorem writeKeyCfg_unbinds (hu : (s.stKey c n).unbinding = false) (hk : s.keyValid c n = true) (hv : STOOK_KEY_CFG.VALID.get v = 0)
    (hw : keyWord (s.reg .STOOK_KEY_CFG c n 0) v = STOOK_KEY_CFG.VALID.put (s.reg .STOOK_KEY_CFG c n 0) 0) :
    s.writeKeyCfg c n v = s.unbind c n := by
  have hne : keyWord (s.reg .STOOK_KEY_CFG c n 0) v ≠ s.reg .STOOK_KEY_CFG c n 0 := fun h => by
    have hget := get_keyWord (f := STOOK_KEY_CFG.VALID) (by decide) rfl (s.reg .STOOK_KEY_CFG c n 0) v
    have hone : STOOK_KEY_CFG.VALID.get (s.reg .STOOK_KEY_CFG c n 0) = 1 := (keyValid_iff s c n).1 hk
    rw [h, hone, hv] at hget
    exact one_ne_zero hget
  unfold State.writeKeyCfg
  rw [if_neg (by simp [hu]), if_pos hk]
  change (if keyWord (s.reg .STOOK_KEY_CFG c n 0) v = _ then _ else if keyWord (s.reg .STOOK_KEY_CFG c n 0) v = _ then _ else _) = _
  rw [if_neg hne, if_pos hw]

end KeyWrites

/-- What unbinding leaves of a key (R94). -/
theorem unbind_laws (s : State) (c n : Nat) : (s.unbind c n).keyValid c n = false ∧ ((s.unbind c n).stKey c n).batch = [] ∧
    ((s.unbind c n).core c).stook.sealed = (s.core c).stook.sealed ++ (if (s.stKey c n).batch.isEmpty then [] else [⟨n, (s.stKey c n).batch⟩]) ∧
    ((s.unbind c n).stKey c n).res = none ∧ OnlyCore s (s.unbind c n) c [Reg.addr .STOOK_KEY_CFG c n 0] := by
  unfold State.unbind
  dsimp only
  set u := s.wr STOOK_KEY_CFG.VALID 0 c n with hu
  have hus : OnlyRegs s u [Reg.addr .STOOK_KEY_CFG c n 0] := onlyRegs_wr s STOOK_KEY_CFG.VALID 0 c n 0
  have hkey : u.stKey c n = s.stKey c n := stKey_of_core (by rw [hus.core]) n
  have hvalid : u.keyValid c n = false := by
    have h0 : u.rd STOOK_KEY_CFG.VALID c n = 0 := rd_wr_self s STOOK_KEY_CFG.VALID 0 c n 0 (by decide) (by decide)
    simp [State.keyValid, State.rdB, h0]
  have hmod : Retires (u.sealKey c n) ((u.sealKey c n).modKey c n (fun y => { y with unbinding := true })) c :=
    retires_modKey _ _ _ _ (fun _ => rfl) fun _ h => h
  set w := (u.sealKey c n).modKey c n (fun y => { y with unbinding := true })
  have hdrop := retires_dropTile w c n
  have hend := retires_keyRetire (w.dropTile c n) c n
  have hall := (hmod.trans hdrop).trans hend
  have hseal := onlyCore_sealKey u c n []
  refine ⟨?_, ?_, ?_, hend.res n (res_dropTile w c n), ?_⟩
  · rw [← hvalid]
    unfold State.keyValid State.rdB
    rw [Module.rd_of_regsBut hall.only.regs (by simp), Module.rd_of_regsBut hseal.regs (by simp)]
  · rw [hall.batch, stKey_sealKey, if_pos rfl]
  · rw [hall.sealed, sealed_sealKey, hkey, hus.core]
  · exact (hus.onlyCore c).trans ((hseal.trans hall.only).mono (by simp))

/-- A bind whose checks pass sets the entry, and one whose checks fail leaves it unbound and says so (R93). -/
theorem bind_laws (s : State) (c n : Nat) (v : W64) (hv : STOOK_KEY_CFG.VALID.get v = 1) (hk : s.keyValid c n = false)
    (hu : (s.stKey c n).unbinding = false) :
    OnlyRegs s (s.writeKeyCfg c n v) [Reg.addr .STOOK_KEY_CFG c n 0, Reg.addr .STOOK_STAT c 0 0] ∧
      (s.writeKeyCfg c n v).keyValid c n = s.bindOk c n v ∧
      (∀ f ∈ Reg.fields .STOOK_KEY_CFG, f ≠ STOOK_KEY_CFG.VALID → f.acc = .rw →
        f.reg = .STOOK_KEY_CFG → (s.writeKeyCfg c n v).rd f c n = f.get v) ∧
      (s.writeKeyCfg c n v).rd STOOK_STAT.BINDERR c = if s.bindOk c n v then s.rd STOOK_STAT.BINDERR c else 1 := by
  rw [writeKeyCfg_free hu hk hv]
  have hapart : ∀ f ∈ Reg.fields .STOOK_KEY_CFG, f ≠ STOOK_KEY_CFG.VALID → Module.Apart f STOOK_KEY_CFG.VALID ∧ f.hi < 64 := by decide
  set w := keyWord (s.reg .STOOK_KEY_CFG c n 0) v with hw
  by_cases hok : s.bindOk c n v = true
  · rw [if_pos hok]
    have hreg : (s.setReg .STOOK_KEY_CFG c n 0 w).reg .STOOK_KEY_CFG c n 0 = w := reg_setReg_self ..
    refine ⟨(onlyRegs_setReg ..).mono (by simp), ?_, fun f hf _ hrw hr => ?_, ?_⟩
    · rw [hok, keyValid_iff]
      exact (congrArg STOOK_KEY_CFG.VALID.get hreg).trans ((get_keyWord (by decide) rfl ..).trans hv)
    · unfold State.rd
      rw [hr, hreg]
      exact get_keyWord hf hrw ..
    · rw [if_pos hok]
      exact rd_of_reg (reg_setReg_ne s (stookStat_ne_key c n) w)
  · rw [if_neg hok]
    set u := s.setReg .STOOK_KEY_CFG c n 0 (STOOK_KEY_CFG.VALID.put w 0) with hus
    have hreg : (u.bindErr c).reg .STOOK_KEY_CFG c n 0 = STOOK_KEY_CFG.VALID.put w 0 :=
      (reg_wr_ne u (stookStat_ne_key c n).symm 1).trans (reg_setReg_self ..)
    refine ⟨((onlyRegs_setReg s _ _ _ _ _).mono (by simp)).trans ((onlyRegs_wr u STOOK_STAT.BINDERR 1 c 0 0).mono (by simp [STOOK_STAT.BINDERR])), ?_,
      fun f hf hne hrw hr => ?_, ?_⟩
    · have h0 : (u.bindErr c).rd STOOK_KEY_CFG.VALID c n = 0 :=
        (congrArg STOOK_KEY_CFG.VALID.get hreg).trans (get_put STOOK_KEY_CFG.VALID w 0 (by decide) (by decide))
      simp [State.keyValid, State.rdB, h0, hok]
    · unfold State.rd
      rw [hr, hreg, Module.get_put_apart w 0 (hapart f hf hne).1 (by decide) (hapart f hf hne).2]
      exact get_keyWord hf hrw ..
    · rw [if_neg hok]
      exact rd_wr_self u STOOK_STAT.BINDERR 1 c 0 0 (by decide) (by decide)

/-- A descriptor word of a bound or unbinding key stays, and a write that would change it is an error (R93). -/
theorem writeKeyDesc_laws (s : State) (c n : Nat) (g : Reg) (v : W64) (hg : g = .STOOK_KEY_BLO ∨ g = .STOOK_KEY_BHI) :
    OnlyRegs s (s.writeKeyDesc c n g v) [g.addr c n 0, Reg.addr .STOOK_STAT c 0 0] ∧
      (s.keyValid c n = false → (s.stKey c n).unbinding = false → (s.writeKeyDesc c n g v).reg g c n 0 = v) ∧
      (s.keyValid c n = true → (s.writeKeyDesc c n g v).reg g c n 0 = s.reg g c n 0 ∧
        (v ≠ s.reg g c n 0 → (s.writeKeyDesc c n g v).rd STOOK_STAT.BINDERR c = 1)) := by
  have herr : OnlyRegs s (s.bindErr c) [Reg.addr .STOOK_STAT c 0 0] := onlyRegs_wr s STOOK_STAT.BINDERR 1 c 0 0
  unfold State.writeKeyDesc
  refine ⟨?_, fun hk hu => ?_, fun hk => ?_⟩
  · split
    · split
      · exact .refl ..
      · exact herr.mono (by simp)
    · exact (onlyRegs_writeFields ..).mono (by simp)
  · rw [if_neg (by simp [hk, hu])]
    refine (reg_setReg_self ..).trans ?_
    rcases hg with rfl | rfl
    · exact put_full STOOK_KEY_BLO.DESC_LO rfl rfl _ v
    · exact put_full STOOK_KEY_BHI.DESC_HI rfl rfl _ v
  · rw [if_pos (by simp [hk])]
    split
    · next h => exact ⟨rfl, fun hne => absurd h hne⟩
    · exact ⟨reg_wr_ne s (stookStat_ne_desc c n hg) 1, fun _ => rd_wr_self s STOOK_STAT.BINDERR 1 c 0 0 (by decide) (by decide)⟩

/-- A write of STOOK_BUF takes effect while the stook is disabled, and is an error while it is enabled (R108). -/
theorem writeStookBuf_laws (s : State) (c : Nat) (v : W64) :
    OnlyRegs s (s.writeStookBuf c v) [Reg.addr .STOOK_BUF c 0 0, Reg.addr .STOOK_STAT c 0 0] ∧
      (s.rd STOOK_CTL.EN c = 0 → (s.writeStookBuf c v).rd STOOK_BUF.BASE c = bits v.toNat 22 18 ∧
        (s.writeStookBuf c v).reg .STOOK_STAT c 0 0 = s.reg .STOOK_STAT c 0 0) ∧
      (s.rd STOOK_CTL.EN c = 1 → (s.writeStookBuf c v).rd STOOK_BUF.BASE c = s.rd STOOK_BUF.BASE c ∧
        (s.writeStookBuf c v).rd STOOK_STAT.CFGERR c = 1) := by
  unfold State.writeStookBuf
  refine ⟨?_, fun hen => ?_, fun hen => ?_⟩
  · split
    · exact (onlyRegs_wr s STOOK_STAT.CFGERR 1 c 0 0).mono (by simp [STOOK_STAT.CFGERR])
    · exact (onlyRegs_writeFields ..).mono (by simp)
  · rw [if_neg (by simp [State.rdB, hen])]
    exact ⟨rd_writeFields s rfl (by decide) (by decide) c 0 0 v, reg_setReg_ne s (stookStat_ne_buf c) _⟩
  · rw [if_pos (by simp [State.rdB, hen])]
    exact ⟨rd_of_reg (reg_wr_ne s (f := STOOK_STAT.CFGERR) (stookStat_ne_buf c).symm 1),
      rd_wr_self s STOOK_STAT.CFGERR 1 c 0 0 (by decide) (by decide)⟩

/-- Settles O33: each write by what it makes of ARRAYS, EN, the keys and their words. -/
theorem stookRegisters : Obligations.StookRegisters := by
  intro s c v hc hl
  refine ⟨fun hs i n k hi => ?shut, fun hs => ⟨fun h5 h6 harr => ?flush, fun h6 => ?abort, fun h5 h6 => ?ctl,
    ⟨_, congrArg Host.Outcome.next (onCoreWrite_open hl hs _), writeStookBuf_laws s c v⟩, fun n hn => ⟨fun hv hk hu => ?bind,
      fun hkey hv ha hd ho hk hu => ?unbind, fun k g hkg => ?desc⟩⟩⟩
  case shut =>
    simp only [List.mem_cons, List.not_mem_nil, or_false] at hi
    rcases hi with rfl | rfl | rfl | rfl | rfl | rfl | rfl <;> exact ⟨_, rfl, onCoreWrite_shut hs _⟩
  case flush =>
    refine ⟨_, congrArg Host.Outcome.next ((onCoreWrite_open hl hs _).trans ((if_pos h5).trans (writeStookCtl_eq s c v))), ?_⟩
    simp only [h5, h6, if_true, if_false, Bool.false_eq_true]
    rw [ctlSet_same harr]
    set u := s.wr STOOK_CTL.EN (STOOK_CTL.EN.get v) c with hu
    have hus : OnlyRegs s u [Reg.addr .STOOK_CTL c 0 0] := onlyRegs_wr s STOOK_CTL.EN _ c 0 0
    have hkey : ∀ n, u.stKey c n = s.stKey c n := fun n => stKey_of_core (by rw [hus.core]) n
    refine ⟨fun n hn => ?_, ?_, ?_, (hus.onlyCore c).trans (onlyCore_sealWhere ..)⟩
    · rw [stKey_sealWhere c _ _ List.nodup_range, if_pos ⟨List.mem_range.2 hn, rfl⟩]
    · rw [sealed_sealWhere c _ _ List.nodup_range, hus.core]
      simp only [hkey, Bool.and_true]
    · rw [Module.rd_of_regsBut (onlyCore_sealWhere c _ _ u []).regs (by simp)]
      exact rd_wr_get s STOOK_CTL.EN (by decide) (by decide) v c 0 0
  case abort =>
    refine ⟨_, congrArg Host.Outcome.next ((onCoreWrite_open hl hs _).trans ((if_pos h6).trans (writeStookCtl_eq s c v))), ?_⟩
    rw [if_pos h6]
    set u := if bitB v.toNat 5 = true then sealWhere (ctlSet s c v) c (fun _ => true) (List.range 64) else ctlSet s c v with hu
    have hmem : u.mem = s.mem := by
      rw [hu]
      split
      · exact (mem_of_onlyCore (onlyCore_sealWhere c _ _ _ [])).trans (mem_of_onlyCore (onlyCore_ctlSet ..))
      · exact mem_of_onlyCore (onlyCore_ctlSet ..)
    obtain ⟨hbatch, hsealed, hhalf, hkeep⟩ := abort_dropped u c
    exact ⟨hbatch, hsealed, hhalf, hkeep.trans hmem⟩
  case ctl =>
    refine ⟨_, congrArg Host.Outcome.next ((onCoreWrite_open hl hs _).trans (writeStookCtl_eq s c v)), ?_⟩
    simp only [h5, h6, if_false, Bool.false_eq_true]
    exact ⟨en_ctlSet .., arrays_ctlSet_done, arrays_ctlSet_refused, onlyCore_ctlSet ..⟩
  case bind =>
    have hv' : STOOK_KEY_CFG.VALID.get v = 1 := hv
    obtain ⟨honly, hvalid, hrd, herr⟩ := bind_laws s c n v hv' hk hu
    exact ⟨_, congrArg Host.Outcome.next ((onCoreWrite_open hl hs _).trans (if_pos hv')), honly, hvalid,
      hrd STOOK_KEY_CFG.KEY (by decide) (by decide) rfl rfl, hrd STOOK_KEY_CFG.AFMT (by decide) (by decide) rfl rfl,
      hrd STOOK_KEY_CFG.DEADLINE (by decide) (by decide) rfl rfl, hrd STOOK_KEY_CFG.OFMT (by decide) (by decide) rfl rfl, herr⟩
  case unbind =>
    have hv' : STOOK_KEY_CFG.VALID.get v = 0 := hv
    exact ⟨_, congrArg Host.Outcome.next ((onCoreWrite_open hl hs _).trans ((if_pos (by simp [hv', hk])).trans
      (writeKeyCfg_unbinds hu hk hv' (keyWord_unbind hkey hv' ha hd ho)))), unbind_laws s c n⟩
  case desc =>
    simp only [List.mem_cons, List.not_mem_nil, or_false, Prod.mk.injEq] at hkg
    rcases hkg with ⟨rfl, rfl⟩ | ⟨rfl, rfl⟩
    · exact ⟨_, congrArg Host.Outcome.next (onCoreWrite_open hl hs _), writeKeyDesc_laws s c n _ v (.inl rfl)⟩
    · exact ⟨_, congrArg Host.Outcome.next (onCoreWrite_open hl hs _), writeKeyDesc_laws s c n _ v (.inr rfl)⟩

end Sys2Proof.Proofs.Array

/-! PROOF about StookPutAndRemote: a held RSTF that fails frees an entry, and the gleaner that waited for one goes on (R218, R335). -/

namespace Sys2Proof.Proofs.Array

open Sys2Proof Sys2Proof.Machine Sys2Proof.Laws

/-- A remote SCATADD of one FP32 row: table in the rack window, index list at byte 128 of E-space, source row at byte 0 of the scratchpad. -/
def scatDesc : List W64 := [w64 (2 + 14 * 2 ^ 4 + 14 * 2 ^ 8 + 2 * 2 ^ 12 + 2 * 2 ^ 14), w64 (2 ^ 63), 128, 0, 0, 1, w64 (32 + 2 ^ 24 + 32 * 2 ^ 33), 1]

/-- Its entry, which runs and has sent no row yet. -/
def scatEntry : GlnEntry := ⟨0, 2, scatDesc, 0, 0, 0, none, 0, true, 0, none, [], none, false, false, []⟩

/-- An RSTF of core 0 that is to fail with the status of an earlier write. -/
def failedRstf : RemOp := ⟨7, 0, 3, 0, 0, w64 (2 ^ 63), 8, List.replicate 8 0, 0, false, none, none, none, 0, 1, 0, false, 0, 0, 0, 0, false, some 0x13, 0⟩

/-- A written line of stack 0's bay cache. -/
def writtenLine (ln : Nat) : BayLine := ⟨ln, false, BitVec.ofNat 16 0xFFFF, BitVec.ofNat 16 0xFFFF, 0, 0⟩

/-- The RSTF stands in the window, the scatter in the gleaner, and the line of its index list in the bay cache, where another line was used
after it. -/
def scatWaits : State :=
  { State.reset with
    pwr := { State.reset.pwr with up := true }
    cores := [(0, { gln := { queue := [scatEntry], nextId := 1 } })]
    mem := { State.reset.mem with stks := [(0, { bay := [writtenLine 0, writtenLine 1] })] }
    win := { State.reset.win with ops := [failedRstf], nextId := 8 } }

/-- The lines of stack 0's bay cache, the last used first. -/
def bayOrder (m : Mem) : List Nat := (SMap.get m.stks {} 0).bay.map (·.line)

theorem bayOrder_rstfSend : bayOrder ((scatWaits.remFail failedRstf 0x13 false).remNext failedRstf).mem = [1, 0] := by decide +kernel

theorem exec_rstfSend_fails {s : State} {id st : Nat} {o : RemOp} (ho : s.remOp id = some o) (hk : o.kind = 3) (h3 : o.stage ≠ 3)
    (hf : o.failSt = some st) : exec (.rstfSend id) s = .next ((s.remFail o st false).remNext o) := by
  show execRstfSend id s = _
  simp [execRstfSend, ho, hk, h3, hf]

/-- Refutes O25: the RSTF that fails leaves its entry free, the scatter that runs in the gleaner sends its next row, and the read of its
index makes a line of the bay cache the last used one (R218, R290, R292), so the memory's state is not the same. -/
theorem not_stookPutAndRemote : ¬ Obligations.StookPutAndRemote := by
  intro h
  obtain ⟨-, -, hsend⟩ := h scatWaits 0 0 0
  obtain ⟨hfail, -⟩ := hsend 7 failedRstf (by decide) rfl (by decide)
  obtain ⟨t, ht, -, hmem, -⟩ := hfail 0x13 rfl rfl rfl (by decide) (by decide)
  rw [exec_rstfSend_fails (o := failedRstf) (by decide) rfl (by decide) rfl, Host.Outcome.next.injEq] at ht
  have horder := congrArg bayOrder hmem
  rw [← ht, bayOrder_rstfSend] at horder
  exact absurd horder (by decide)

end Sys2Proof.Proofs.Array

/-! PROOF about StookBatches: a batch whose A rows lie beyond S-space (R100, R101, R130). -/

namespace Sys2Proof.Proofs.Array

open Sys2Proof Sys2Proof.Machine Sys2Proof.Laws

/-- Accumulator word 0 of an array 129 that no core has, as an S-space address. -/
def beyondAcc : Nat := accBase + 4 * accWord 129 0 0 0

/-- One request of one row, which lies there. -/
def strayBatch : StBatch := ⟨3, [⟨1, 0, beyondAcc, 0, 0, 0, 0, none, 0, 0⟩]⟩

/-- The batch waits, its key's tile is resident, the low ten bits of the key's descriptor are set, and the word of its row is marked as
faulty. -/
def strayDispatch : State :=
  { State.reset with
    pwr := { State.reset.pwr with up := true }
    csr := [(Reg.addr .STOOK_KEY_CFG 0 3 0, STOOK_KEY_CFG.AFMT.put 0 6), (Reg.addr .STOOK_KEY_BLO 0 3 0, 0x3FF)]
    cores := [(0, { stook := { keys := [(3, { res := some 0 })], sealed := [strayBatch] }, faults := [(beyondAcc, 1)] })] }

theorem exec_stookDispatch_first {s : State} {c : Nat} {b : StBatch} {r : List StBatch} (hal : s.alive = true)
    (hb : (s.core c).stook.sealed = b :: r) (hh : (s.core c).stook.h0 = none) :
    exec (.stookDispatch c) s = .next (s.dispatchBatch c 0 b r) := by
  show execStookDispatch c s = _
  simp [execStookDispatch, hal, hb, hh]

/-- Lengths of the A rows of the passes of array 0. -/
def passLengths (s : State) : List Nat := (s.arr 0 0).passes.map (fun x => x.req.ka)

theorem passLengths_strayDispatch : passLengths (strayDispatch.dispatchBatch 0 0 strayBatch []) = [2] := by decide +kernel

/-- Refutes O32: the clause on dispatch does not ask that the batch's A rows lie in S-space. The read of a marked word beyond it counts the
corrected error at the address of the key's descriptor (R130, R136), and the pass takes the row length that stands there then. -/
theorem not_stookBatches : ¬ Obligations.StookBatches := by
  intro h
  obtain ⟨-, hdispatch, -⟩ := h strayDispatch 0 (by decide) (by decide)
  obtain ⟨t, ht, -, -, -, hpasses, -⟩ := hdispatch strayBatch [] 0 0 0 _ rfl ⟨by decide, .inl rfl⟩ rfl (.inl (by decide)) (by decide +kernel)
    (by decide +kernel) (by decide) (by decide) (by decide)
  rw [exec_stookDispatch_first (by decide) rfl rfl, Host.Outcome.next.injEq] at ht
  have hlen : passLengths t = [(tdOf (strayDispatch.keyDesc 0 3)).rows] := congrArg (List.map (fun x : Pass => x.req.ka)) hpasses
  rw [← ht, passLengths_strayDispatch] at hlen
  exact absurd hlen (by decide +kernel)

end Sys2Proof.Proofs.Array

/-! RULES of a pass that completes: which words it writes, and what they take (R83, R124). -/

namespace Sys2Proof.Proofs.Array

open Sys2Proof Sys2Proof.Machine Sys2Proof.Laws

/-! ### Lists with consecutive keys -/

theorem number_map_snd {α : Type} (a : Nat) (l : List α) : (SMap.number a l).map (·.2) = l := by
  induction l generalizing a with
  | nil => rfl
  | cons x l ih => simp [SMap.number, ih]

theorem number_length {α : Type} (a : Nat) (l : List α) : (SMap.number a l).length = l.length := by
  rw [← List.length_map (·.2), number_map_snd]

theorem number_getElem? {α : Type} (a : Nat) (l : List α) (i : Nat) : (SMap.number a l)[i]? = l[i]?.map (fun x => (a + i, x)) := by
  induction l generalizing a i with
  | nil => rfl
  | cons x l ih =>
    cases i with
    | zero => rfl
    | succ i =>
      rw [SMap.number, List.getElem?_cons_succ, List.getElem?_cons_succ, ih]
      simp [Nat.add_assoc, Nat.add_comm 1 i]

/-- Maps that read the same in a stretch of keys hold the same values there. -/
theorem range_congr {m m' : SMap W32} (h : SMap.wf m (fun _ => some 0) = true) (h' : SMap.wf m' (fun _ => some 0) = true) {a n : Nat}
    (hget : ∀ i < n, SMap.get m 0 (a + i) = SMap.get m' 0 (a + i)) : SMap.range m 0 a n = SMap.range m' 0 a n := by
  apply List.ext_getElem?
  intro i
  by_cases hi : i < n
  · have hnth : ∀ {x : SMap W32}, SMap.wf x (fun _ => some 0) = true → (SMap.range x 0 a n)[i]? = some (SMap.get x 0 (a + i)) := fun hx => by
      rw [← range_get hx a n i hi, nth, List.getElem?_eq_getElem (by rw [range_length]; exact hi), Option.getD_some]
    rw [hnth h, hnth h', hget i hi]
  · rw [List.getElem?_eq_none (by rw [range_length]; omega), List.getElem?_eq_none (by rw [range_length]; omega)]

/-! ### Accumulator words read and written by a pass (R124, R128) -/

section Words

variable (s : State) (c w n : Nat)

/-- A pass reaches every word. -/
theorem accBarred_pass (k : Nat) : s.accBarred c k .pass = false := by simp [State.accBarred]

theorem words32_flatten (l : List W32) : words32 ((l.map (fun v => leBytes 4 v.toNat)).flatten) = l := by
  induction l with
  | nil => rfl
  | cons v l ih =>
    rw [List.map_cons, List.flatten_cons, words32_cons, ih, BitVec.ofNat_toNat]
    simp

theorem accRead_pass_words : words32 (s.accRead c w n .pass).data = SMap.range (s.core c).acc 0 w n := by
  have hvs : (SMap.number w ((s.core c).acc.range 0 w n)).map (fun e => if s.accBarred c e.1 .pass then 0 else e.2) =
      (s.core c).acc.range 0 w n := by
    simp only [accBarred_pass, Bool.false_eq_true, if_false]
    exact number_map_snd w _
  show words32 ((((SMap.number w ((s.core c).acc.range 0 w n)).map _).map _).flatten) = _
  rw [hvs, words32_flatten]

theorem accWrite_pass (vs : List W32) : s.accWrite c w vs .pass = s.modCore c (fun k => { k with
    acc := k.acc.putRange (fun _ => some 0) w vs
    faults := k.faults.keep (fun a _ => a < accBase + 4 * w || accBase + 4 * (w + vs.length) ≤ a ||
      s.accBarred c ((a - accBase) / 4) .pass) }) := by
  have hnew : (SMap.number w (vs.zip ((s.core c).acc.range 0 w vs.length))).map (fun e => if s.accBarred c e.1 .pass then e.2.2 else e.2.1) = vs := by
    simp only [accBarred_pass, Bool.false_eq_true, if_false]
    have hmap : (fun e : Nat × W32 × W32 => e.2.1) = Prod.fst ∘ Prod.snd := rfl
    rw [hmap, ← List.map_map, number_map_snd, List.map_fst_zip (by rw [range_length])]
  have hbar : (List.range vs.length).any (fun i => s.accBarred c (w + i) .pass) = false := by simp [accBarred_pass]
  unfold State.accWrite
  dsimp only
  rw [hnew, hbar]
  rfl

end Words

/-! ### One row of a pass -/

/-- Nothing but accumulator words and fault marks of core `c`, and logs, may differ. -/
structure WordsOnly (s t : State) (c : Nat) : Prop where
  others : ∀ d, d ≠ c → t.core d = s.core d
  arr : ∀ b, t.arr c b = s.arr c b
  spad : (t.core c).spad = (s.core c).spad
  mem : t.mem = s.mem

theorem WordsOnly.refl (s : State) (c : Nat) : WordsOnly s s c := ⟨fun _ _ => rfl, fun _ => rfl, rfl, rfl⟩

theorem WordsOnly.trans {s t u : State} {c : Nat} (h : WordsOnly s t c) (g : WordsOnly t u c) : WordsOnly s u c :=
  ⟨fun d hd => (g.others d hd).trans (h.others d hd), fun b => (g.arr b).trans (h.arr b), g.spad.trans h.spad, g.mem.trans h.mem⟩

theorem wordsOnly_of_onlyLogs {s t : State} (h : OnlyLogs s t) (c : Nat) : WordsOnly s t c :=
  ⟨fun d _ => h.core d, fun b => congrArg (·.arr b) (h.core c), by rw [h.core], h.mem⟩

theorem wordsOnly_accWrite (s : State) (c w : Nat) (vs : List W32) : WordsOnly s (s.accWrite c w vs .pass) c := by
  rw [accWrite_pass]
  refine ⟨fun d hd => core_modCore_ne s hd _, fun b => ?_, ?_, rfl⟩
  · unfold State.arr
    rw [core_modCore_self]
    rfl
  · rw [core_modCore_self]

/-- What row `i` of a pass makes of the words before it. -/
def rowWords (acc : SMap W32) (a : Nat) (x : Pass) (t : Tile) (i : Nat) : List (Nat × Nat) :=
  passRow t x.req.fmt (nth x.rows [] i) (nth x.scales [] i)
    ((SMap.range acc 0 (accWord a x.req.grp (x.req.r0 + i) 0) t.n).map (·.toNat))

theorem passRow_length (t : Tile) (f : Nat) (row sc old : List Nat) : (passRow t f row sc old).length = old.length := by
  unfold passRow
  rw [List.length_map, number_length]

theorem rowWords_length (acc : SMap W32) (a : Nat) (x : Pass) (t : Tile) (i : Nat) : (rowWords acc a x t i).length = t.n := by
  unfold rowWords
  rw [passRow_length, List.length_map, range_length]

theorem memOk_of_onlyLogs {s t : State} (h : OnlyLogs s t) (hs : s.memOk = true) : t.memOk = true := by
  unfold OnlyLogs at h
  rw [h]
  exact hs

theorem nth_map {α β : Type} (f : α → β) (l : List α) (d : α) (i : Nat) : nth (l.map f) (f d) i = f (nth l d i) := by
  simp only [nth, List.getElem?_map, Option.getD_map]

section Row

variable (s : State) (c a : Nat) (t : Tile) (x : Pass) (i : Nat)

theorem addPassRow_eq : ∃ u, OnlyLogs s u ∧ (s.addPassRow c a t x i).1 = u.accWrite c (accWord a x.req.grp (x.req.r0 + i) 0)
    ((rowWords (s.core c).acc a x t i).map (fun e => BitVec.ofNat 32 e.1)) .pass := by
  refine ⟨_, onlyLogs_accRead s c (accWord a x.req.grp (x.req.r0 + i) 0) t.n .pass, ?_⟩
  unfold rowWords
  rw [← accRead_pass_words]
  rfl

theorem wordsOnly_addPassRow : WordsOnly s (s.addPassRow c a t x i).1 c := by
  obtain ⟨u, hu, heq⟩ := addPassRow_eq s c a t x i
  rw [heq]
  exact (wordsOnly_of_onlyLogs hu c).trans (wordsOnly_accWrite ..)

/-- The row's words take what the pass makes of them, and no other word changes. -/
theorem get_addPassRow (h : s.memOk = true) (k : Nat) : SMap.get ((s.addPassRow c a t x i).1.core c).acc 0 k =
    if accWord a x.req.grp (x.req.r0 + i) 0 ≤ k ∧ k < accWord a x.req.grp (x.req.r0 + i) 0 + t.n then
      BitVec.ofNat 32 (nth (rowWords (s.core c).acc a x t i) (0, 0) (k - accWord a x.req.grp (x.req.r0 + i) 0)).1
    else SMap.get (s.core c).acc 0 k := by
  obtain ⟨u, hu, heq⟩ := addPassRow_eq s c a t x i
  rw [heq, accWrite_acc (memOk_of_onlyLogs hu h), hu.core, List.length_map, rowWords_length]
  simp only [accBarred_pass, and_true]
  congr 1
  exact nth_map (fun e : Nat × Nat => BitVec.ofNat 32 e.1) _ (0, 0) _

theorem memOk_addPassRow (h : s.memOk = true) : (s.addPassRow c a t x i).1.memOk = true :=
  (kept_addPassRow (Kept.refl s) c a t x i).kept.mem h

end Row

/-! ### All rows of a pass -/

/-- Words of different rows, or of different columns, are different. -/
theorem accWord_inj {a g r r' j j' : Nat} (hj : j < 256) (hj' : j' < 256) (h : accWord a g r j = accWord a g r' j') : r = r' ∧ j = j' := by
  unfold accWord at h
  omega

theorem accWord_zero_add (a g r j : Nat) : accWord a g r 0 + j = accWord a g r j := by
  unfold accWord
  omega

section Rows

variable {c a : Nat} {t : Tile} {x : Pass}

theorem get_addPassRow_other {s : State} {i : Nat} (h : s.memOk = true) {k : Nat}
    (hk : ∀ j < t.n, k ≠ accWord a x.req.grp (x.req.r0 + i) j) :
    SMap.get ((s.addPassRow c a t x i).1.core c).acc 0 k = SMap.get (s.core c).acc 0 k := by
  rw [get_addPassRow s c a t x i h, if_neg]
  rintro ⟨hlo, hhi⟩
  refine hk (k - accWord a x.req.grp (x.req.r0 + i) 0) (by omega) ?_
  unfold accWord at *
  omega

theorem get_addPassRow_own {s : State} {i j : Nat} (h : s.memOk = true) (hj : j < t.n) :
    SMap.get ((s.addPassRow c a t x i).1.core c).acc 0 (accWord a x.req.grp (x.req.r0 + i) j) =
      BitVec.ofNat 32 (nth (rowWords (s.core c).acc a x t i) (0, 0) j).1 := by
  have hsub : accWord a x.req.grp (x.req.r0 + i) j - accWord a x.req.grp (x.req.r0 + i) 0 = j := by
    unfold accWord
    omega
  rw [get_addPassRow s c a t x i h, if_pos, hsub]
  unfold accWord
  omega

theorem rowWords_addPassRow {s : State} (hn : t.n ≤ 256) {i i' : Nat} (h : s.memOk = true) (hne : i' ≠ i) :
    rowWords ((s.addPassRow c a t x i).1.core c).acc a x t i' = rowWords (s.core c).acc a x t i' := by
  have hwf : ∀ {u : State}, u.memOk = true → SMap.wf (u.core c).acc (fun _ => some 0) = true := fun hu =>
    ((wf_core _).1 (core_wf_of_memOk hu c)).2
  unfold rowWords
  rw [range_congr (hwf (memOk_addPassRow s c a t x i h)) (hwf h)]
  intro j hj
  rw [accWord_zero_add]
  refine get_addPassRow_other h fun j' hj' heq => hne ?_
  have hrow := (accWord_inj (lt_of_lt_of_le hj hn) (lt_of_lt_of_le hj' hn) heq).1
  exact Nat.add_left_cancel hrow

theorem addPassRows_cons (s : State) (i : Nat) (l : List Nat) :
    (s.addPassRows c a t x (i :: l)).1 = ((s.addPassRow c a t x i).1.addPassRows c a t x l).1 := rfl

theorem wordsOnly_addPassRows (l : List Nat) (s : State) : WordsOnly s (s.addPassRows c a t x l).1 c := by
  induction l generalizing s with
  | nil => exact .refl s c
  | cons i l ih =>
    rw [addPassRows_cons]
    exact (wordsOnly_addPassRow s c a t x i).trans (ih _)

/-- Every row of a pass takes its words from what stood there before the pass, for no two rows share a word. -/
theorem get_addPassRows (hn : t.n ≤ 256) (l : List Nat) (hl : l.Nodup) (s : State) (h : s.memOk = true) :
    (∀ i ∈ l, ∀ j < t.n, SMap.get ((s.addPassRows c a t x l).1.core c).acc 0 (accWord a x.req.grp (x.req.r0 + i) j) =
      BitVec.ofNat 32 (nth (rowWords (s.core c).acc a x t i) (0, 0) j).1) ∧
    ∀ w, (∀ i ∈ l, ∀ j < t.n, w ≠ accWord a x.req.grp (x.req.r0 + i) j) →
      SMap.get ((s.addPassRows c a t x l).1.core c).acc 0 w = SMap.get (s.core c).acc 0 w := by
  induction l generalizing s with
  | nil => exact ⟨fun i hi => absurd hi List.not_mem_nil, fun _ _ => rfl⟩
  | cons i l ih =>
    obtain ⟨hi, hl⟩ := List.nodup_cons.1 hl
    obtain ⟨hown, hother⟩ := ih hl _ (memOk_addPassRow s c a t x i h)
    rw [addPassRows_cons]
    refine ⟨fun i' hi' j hj => ?_, fun w hw => ?_⟩
    · rcases List.mem_cons.1 hi' with rfl | hmem
      · refine (hother _ fun k hk j' hj' heq => hi ?_).trans (get_addPassRow_own h hj)
        have hrow := (accWord_inj (lt_of_lt_of_le hj hn) (lt_of_lt_of_le hj' hn) heq).1
        rwa [Nat.add_left_cancel hrow]
      · rw [hown i' hmem j hj, rowWords_addPassRow hn h (ne_of_mem_of_not_mem hmem hi)]
    · rw [hother w fun k hk => hw k (List.mem_cons_of_mem _ hk), get_addPassRow_other h (hw i List.mem_cons_self)]

end Rows

/-! ### The end of a pass (R83, R121, R132) -/

theorem sameStore_ite {s u v : State} {p : Prop} [Decidable p] (hu : SameStore s u) (hv : SameStore s v) : SameStore s (if p then u else v) := by
  split <;> assumption

theorem sameStore_wr (s : State) (f : Fld) (v n i j : Nat) : SameStore s (s.wr f v n i j) := ⟨rfl, rfl⟩

theorem sameStore_wrs (s : State) (g : Reg) (n i j : Nat) (l : List (Fld × Nat)) : SameStore s (s.wrs g n i j l) := ⟨rfl, rfl⟩

/-- The record of a pass is in registers alone. -/
theorem sameStore_satRecord (s : State) (c a g : Nat) (l : List (Nat × List Nat)) : SameStore s (s.satRecord c a g l) := by
  unfold State.satRecord
  have hevents : ∀ ev : List (Nat × Nat), SameStore s (match ev with
      | [] => s
      | e :: _ => ((if s.rdB ACC_SAT.SAT c a g then s
          else s.wrs .ACC_SAT c a g [(ACC_SAT.SAT, 1), (ACC_SAT.ROW, e.1), (ACC_SAT.COL, e.2)]).incSat ACC_SAT.COUNT ev.length c a g).wr
            ACC_CORE_STAT.SAT 1 c) := by
    intro ev
    cases ev with
    | nil => exact .refl s
    | cons e r => exact ((sameStore_ite (.refl s) (sameStore_wrs ..)).trans (sameStore_wr ..)).trans (sameStore_wr ..)
  have hinf := (hevents (satEvents l)).trans (sameStore_ite (p := (l.map (·.2)).flatten.contains 2 = true) (sameStore_wr _ ACC_SAT.INF 1 c a g) (.refl _))
  exact hinf.trans (sameStore_ite (sameStore_wr _ ACC_SAT.NAN 1 c a g) (.refl _))

/-- The state in which the results of pass `x` are written: the pass is in flight no longer. -/
def withoutPass (s : State) (c a : Nat) (x : Pass) : State :=
  s.modArr c a (fun k => { k with passes := dropFirst (fun y => y == x) k.passes })

/-- The end of a pass whose slot holds tile `t`, up to the ACC_SAT writes that waited for it. -/
theorem finishPass_eq {s : State} {c a : Nat} {x : Pass} {t : Tile} (ht : (s.arr c a).slot x.req.slot = some t) :
    ∃ u w, SameStore ((withoutPass s c a x).addPassRows c a t x (List.range x.req.m)).1 u ∧
      w = u.modArr c a (fun k => { k with satWrites := k.satWrites.filter (fun e => e.1 != x.req.grp) }) ∧
      SameStore w (s.finishPass c a x) := by
  have hslot : ((withoutPass s c a x).arr c a).slot x.req.slot = some t := by
    unfold withoutPass
    rw [arr_modArr_self]
    exact ht
  unfold State.finishPass
  dsimp only
  unfold withoutPass at *
  rw [hslot]
  exact ⟨_, _, (sameStore_satRecord ..).trans (sameStore_of_onlyRegs (onlyRegs_count ..)), rfl,
    sameStore_foldl (g := fun s (e : Nat × W64) => s.writeFields .ACC_SAT c a x.req.grp e.2) (fun _ _ => ⟨rfl, rfl⟩) _ _⟩

theorem acc_withoutPass (s : State) (c a : Nat) (x : Pass) : ((withoutPass s c a x).core c).acc = (s.core c).acc := acc_modArr ..

theorem memOk_withoutPass {s : State} (h : s.memOk = true) (c a : Nat) (x : Pass) : (withoutPass s c a x).memOk = true :=
  (kept_modArr (Kept.refl s) c a _).mem h

/-- What the end of a pass leaves in its core and around it. -/
theorem finishPass_laws {s : State} {c a : Nat} {x : Pass} {t0 : Tile} (h : s.memOk = true) (hn : t0.n ≤ 256)
    (ht : (s.arr c a).slot x.req.slot = some t0) :
    (∀ i j, i < x.req.m → j < t0.n → SMap.get ((s.finishPass c a x).core c).acc 0 (accWord a x.req.grp (x.req.r0 + i) j) =
      BitVec.ofNat 32 (passWord s c a x t0 i j)) ∧
    (∀ w, (∀ i j, i < x.req.m → j < t0.n → w ≠ accWord a x.req.grp (x.req.r0 + i) j) →
      SMap.get ((s.finishPass c a x).core c).acc 0 w = SMap.get (s.core c).acc 0 w) ∧
    ((s.finishPass c a x).arr c a).passes = dropFirst (fun y => y == x) (s.arr c a).passes ∧
    ((s.finishPass c a x).core c).spad = (s.core c).spad ∧ (s.finishPass c a x).mem = s.mem ∧
    ∀ d, d ≠ c → (s.finishPass c a x).core d = s.core d := by
  obtain ⟨u, w, hu, hw, hend⟩ := finishPass_eq ht
  have hrows := wordsOnly_addPassRows (c := c) (a := a) (t := t0) (x := x) (List.range x.req.m) (withoutPass s c a x)
  obtain ⟨hown, hother⟩ := get_addPassRows (c := c) (a := a) (x := x) hn (List.range x.req.m) List.nodup_range (withoutPass s c a x)
    (memOk_withoutPass h c a x)
  set v := ((withoutPass s c a x).addPassRows c a t0 x (List.range x.req.m)).1
  have hacc : ((s.finishPass c a x).core c).acc = (v.core c).acc := by rw [hend.core, hw, acc_modArr, hu.core]
  have harr : v.arr c a = { s.arr c a with passes := dropFirst (fun y => y == x) (s.arr c a).passes } := by
    rw [hrows.arr, withoutPass, arr_modArr_self]
  have harr' : u.arr c a = v.arr c a := congrArg (·.arr a) (hu.core c)
  have hfin : (s.finishPass c a x).arr c a = w.arr c a := congrArg (·.arr a) (hend.core c)
  refine ⟨fun i j hi hj => ?_, fun k hk => ?_, ?_, ?_, ?_, fun d hd => ?_⟩
  · rw [hacc, hown i (List.mem_range.2 hi) j hj, acc_withoutPass]
    rfl
  · rw [hacc, hother k fun i hi j hj => hk i j (List.mem_range.1 hi) hj, acc_withoutPass]
  · rw [hfin, hw, arr_modArr_self, harr', harr]
  · rw [hend.core, hw, spad_modArr, hu.core, hrows.spad, withoutPass, spad_modArr]
  · rw [hend.2, hw]
    exact hu.2.trans hrows.mem
  · rw [hend.core, hw, State.modArr, core_modCore_ne u hd, hu.core, hrows.others d hd, withoutPass, State.modArr, core_modCore_ne s hd]

theorem exec_passComplete {s : State} {c a g : Nat} {x : Pass} (hal : s.alive = true)
    (hx : (s.arr c a).passes.find? (fun y => y.req.grp == g && y.sp != 2) = some x) (he : x.entered = true) :
    exec (.passComplete c a g []) s = .next (s.finishPass c a x) := by
  show execPassComplete c a g [] s = _
  simp [execPassComplete, hal, hx, he, State.mark]

end Sys2Proof.Proofs.Array

/-! PROOF of PassResults: what a pass writes, and what a segment adds to a word (R62 to R65, R83, R124). -/

namespace Sys2Proof.Proofs.Array

open Sys2Proof Sys2Proof.Machine Sys2Proof.Laws Sys2Proof.Proofs.Formats

/-! ### Rounding to an integer (R62, R64) -/

theorem rneInt_eq_rounded (neg : Bool) (m : Nat) (e : ℤ) : rneInt neg m e = rounded 0 (num neg m e) := by
  have h := rounded_num (rm := 0) (by decide) neg m e 0
  rw [sub_zero] at h
  have hnum : num neg (roundAt 0 neg m e 0).1 0 = ((rneInt neg m e : ℤ) : ℚ) := by
    unfold rneInt
    cases neg <;> simp [Formats.num]
  exact_mod_cast (h.trans hnum).symm

/-- A number nearer to 0 than 1/2 rounds to it. -/
theorem rounded_small {x : ℚ} (h : |x| < 1 / 2) : rounded 0 x = 0 := by
  obtain ⟨hlo, hhi⟩ := abs_lt.1 h
  unfold rounded
  rcases le_or_gt 0 x with h0 | h0
  · have hfl : ⌊x⌋ = 0 := Int.floor_eq_iff.2 ⟨by simpa using h0, by norm_num; linarith⟩
    rw [hfl, if_pos (.inl (by simpa using hhi))]
    rfl
  · have hfl : ⌊x⌋ = -1 := Int.floor_eq_iff.2 ⟨by norm_num; linarith, by simpa using h0⟩
    rw [hfl, if_neg]
    · rfl
    · rintro (hf | ⟨hf, -⟩) <;> norm_num at hf <;> linarith

/-! ### The exponent of a block (R62, R63) -/

/-- Elements with these signs, significands and exponents. -/
def fins (n : Nat) (A : Nat → Bool × Nat × ℤ) : List Val := (List.range n).map (fun k => Val.fin (A k).1 (A k).2.1 (A k).2.2)

theorem fins_length (n : Nat) (A : Nat → Bool × Nat × ℤ) : (fins n A).length = n := by simp [fins]

/-- The larger of a number and the one held, if any. -/
def maxOpt (a : Option ℤ) (e : ℤ) : Option ℤ :=
  match a with
  | none => some e
  | some b => some (max b e)

theorem foldl_maxOpt_some (l : List ℤ) (b : ℤ) : ∃ t, l.foldl maxOpt (some b) = some t ∧ (t = b ∨ t ∈ l) ∧ b ≤ t ∧ ∀ e ∈ l, e ≤ t := by
  induction l generalizing b with
  | nil => exact ⟨b, rfl, .inl rfl, le_rfl, fun e he => absurd he List.not_mem_nil⟩
  | cons x l ih =>
    obtain ⟨t, ht, hmem, hb, hl⟩ := ih (max b x)
    refine ⟨t, ht, ?_, (le_max_left b x).trans hb, List.forall_mem_cons.2 ⟨(le_max_right b x).trans hb, hl⟩⟩
    rcases hmem with rfl | hmem
    · rcases max_choice b x with h | h
      · exact .inl h
      · exact .inr (by rw [h]; exact List.mem_cons_self)
    · exact .inr (List.mem_cons_of_mem _ hmem)

theorem foldl_maxOpt {l : List ℤ} {top : ℤ} (hmem : top ∈ l) (hmax : ∀ e ∈ l, e ≤ top) : l.foldl maxOpt none = some top := by
  cases l with
  | nil => exact absurd hmem List.not_mem_nil
  | cons x l =>
    obtain ⟨t, ht, hin, hx, hl⟩ := foldl_maxOpt_some l x
    have hle : top ≤ t := (List.mem_cons.1 hmem).elim (fun h => h ▸ hx) (hl top)
    have hge : t ≤ top := hmax t (List.mem_cons.2 hin)
    exact ht.trans (congrArg some (le_antisymm hge hle))

theorem blockExp_eq (p : Nat) (l : List Val) : blockExp p l = (l.filterMap (unbiased p)).foldl maxOpt none := rfl

theorem mem_unbiased_fins {p n : Nat} {A : Nat → Bool × Nat × ℤ} {e : ℤ} :
    e ∈ (fins n A).filterMap (unbiased p) ↔ ∃ k < n, (A k).2.1 ≠ 0 ∧ (A k).2.2 + p - 1 = e := by
  simp only [fins, List.mem_filterMap, List.mem_map, List.mem_range]
  constructor
  · rintro ⟨_, ⟨k, hk, rfl⟩, hu⟩
    unfold unbiased at hu
    dsimp only at hu
    split at hu
    · cases hu
    · next h0 => exact ⟨k, hk, h0, Option.some.inj hu⟩
  · rintro ⟨k, hk, h0, he⟩
    exact ⟨_, ⟨k, hk, rfl⟩, by simp only [unbiased, if_neg h0, he]⟩

theorem blockExp_of_top {p n : Nat} {A : Nat → Bool × Nat × ℤ} {top : ℤ} (h : BlockTop p n A top) : blockExp p (fins n A) = some top := by
  obtain ⟨hex, hmax⟩ := h
  rw [blockExp_eq]
  refine foldl_maxOpt (mem_unbiased_fins.2 hex) fun e he => ?_
  obtain ⟨k, hk, h0, rfl⟩ := mem_unbiased_fins.1 he
  exact hmax k hk h0

theorem blockExp_of_zero {p n : Nat} {A : Nat → Bool × Nat × ℤ} (h : ∀ k < n, (A k).2.1 = 0) : blockExp p (fins n A) = none := by
  have hnil : (fins n A).filterMap (unbiased p) = [] := by
    rw [List.eq_nil_iff_forall_not_mem]
    intro e he
    obtain ⟨k, hk, h0, -⟩ := mem_unbiased_fins.1 he
    exact h0 (h k hk)
  rw [blockExp_eq, hnil]
  rfl

/-! ### Cell terms (R62 to R64) -/

/-- A signed significand. -/
def signed (neg : Bool) (m : Nat) : ℚ := (if neg then -1 else 1) * m

theorem num_eq_signed (neg : Bool) (m : Nat) (e : ℤ) : num neg m e = signed neg m * (2 : ℚ) ^ e := rfl

theorem alignA_fin {p : Nat} (hp : 1 ≤ p) (g : Nat) (ea : ℤ) (n : Bool) (m : Nat) (e : ℤ) :
    alignA p g ea (.fin n m e) = rounded 0 (signed n m * (2 : ℚ) ^ (e + (p - 1 + g - ea))) := by
  have hexp : e + (p - 1 + g : ℕ) - ea = e + ((p : ℤ) - 1 + g - ea) := by
    push_cast [Nat.cast_sub hp]
    ring
  show rneInt n m (e + (p - 1 + g : ℕ) - ea) = _
  rw [rneInt_eq_rounded, hexp, num_eq_signed]

/-- An aligned element has at most `p + g` bits. -/
theorem abs_alignA_le {p : Nat} (hp : 1 ≤ p) (g : Nat) {ea : ℤ} {n : Bool} {m : Nat} {e : ℤ} (hm : m < 2 ^ p)
    (htop : m ≠ 0 → e + p - 1 ≤ ea) : |(alignA p g ea (.fin n m e) : ℚ)| ≤ 2 ^ (p + g) + 1 := by
  have hnear := rounded_near 0 (num n m (e + (p - 1 + g - ea)))
  have hal : alignA p g ea (.fin n m e) = rounded 0 (num n m (e + (p - 1 + g - ea))) := alignA_fin hp g ea n m e
  rw [← hal] at hnear
  have habs : |num n m (e + (p - 1 + g - ea))| ≤ 2 ^ (p + g) := by
    rw [abs_num, num_false]
    rcases eq_or_ne m 0 with rfl | h0
    · simp
    · have hpow : (2 : ℚ) ^ (e + ((p : ℤ) - 1 + g - ea)) ≤ 2 ^ (g : ℤ) := zpow_le_zpow_right₀ (by norm_num) (by linarith [htop h0])
      have hmq : (m : ℚ) ≤ 2 ^ p := by exact_mod_cast hm.le
      rw [zpow_natCast] at hpow
      rw [pow_add]
      exact mul_le_mul hmq hpow (by positivity) (by positivity)
  calc |(alignA p g ea (.fin n m e) : ℚ)|
      = |num n m (e + (p - 1 + g - ea)) + (alignA p g ea (.fin n m e) - num n m (e + (p - 1 + g - ea)))| := by congr 1; ring
    _ ≤ |num n m (e + (p - 1 + g - ea))| + |(alignA p g ea (.fin n m e) : ℚ) - num n m (e + (p - 1 + g - ea))| := abs_add_le _ _
    _ ≤ 2 ^ (p + g) + 1 := add_le_add habs hnear.le

/-- The cell term is the rounded product: the bound on B's distance from the top of its block drops only what rounds to 0. -/
theorem cellTerm_fin {p : Nat} (eb al : ℤ) (n : Bool) {m : Nat} (e : ℤ) (hal : |(al : ℚ)| ≤ 2 ^ 17) (hm : m < 2 ^ 11) :
    cellTerm p eb al (.fin n m e) = rounded 0 (al * signed n m * (2 : ℚ) ^ (8 - (eb - (p - 1) - e))) := by
  unfold cellTerm
  dsimp only
  split
  · next h0 =>
    subst h0
    have hz : (al : ℚ) * signed n 0 * (2 : ℚ) ^ (8 - (eb - (p - 1) - e)) = ((0 : ℤ) : ℚ) := by simp [signed]
    rw [hz, rounded_intCast]
  · have hd : eb - (e + p - 1) = eb - (p - 1) - e := by ring
    rw [hd]
    set d := eb - ((p : ℤ) - 1) - e
    have hprod : ∀ k : ℤ, rneInt (decide (al < 0) != n) (al.natAbs * m) (8 - k) = rounded 0 (al * signed n m * (2 : ℚ) ^ (8 - k)) := fun k => by
      have hmul := num_mul (decide (al < 0)) n al.natAbs m 0 (8 - k)
      rw [zero_add] at hmul
      rw [rneInt_eq_rounded, hmul, num_natAbs, num_eq_signed, zpow_zero, mul_one, mul_assoc]
    have hsmall : ∀ k : ℤ, 63 ≤ k → rounded 0 (al * signed n m * (2 : ℚ) ^ (8 - k)) = 0 := fun k hk => by
      apply rounded_small
      have hs : |signed n m| = m := by unfold signed; cases n <;> simp
      have hmq : (m : ℚ) ≤ 2 ^ 11 := by exact_mod_cast hm.le
      have hpow : (2 : ℚ) ^ (8 - k) ≤ 2 ^ (-55 : ℤ) := zpow_le_zpow_right₀ (by norm_num) (by linarith)
      rw [abs_mul, abs_mul, hs, abs_of_pos (by positivity : (0 : ℚ) < 2 ^ (8 - k))]
      calc |(al : ℚ)| * m * 2 ^ (8 - k) ≤ 2 ^ 17 * 2 ^ 11 * 2 ^ (-55 : ℤ) := by gcongr
        _ < 1 / 2 := by norm_num
    rw [hprod]
    rcases le_total d 63 with h | h
    · rw [min_eq_right h]
    · rw [min_eq_left h, hsmall 63 le_rfl, hsmall d h]

/-! ### Segments (R65) -/

/-- Sums of cell terms, from the left or as a sum. -/
theorem foldl_add (l : List ℤ) (a : ℤ) : l.foldl (· + ·) a = a + l.sum := by
  induction l generalizing a with
  | nil => simp
  | cons x l ih => rw [List.foldl_cons, ih, List.sum_cons, add_assoc]

theorem zip_fins (n : Nat) (A B : Nat → Bool × Nat × ℤ) : (fins n A).zip (fins n B) =
    (List.range n).map (fun k => (Val.fin (A k).1 (A k).2.1 (A k).2.2, Val.fin (B k).1 (B k).2.1 (B k).2.2)) := List.zip_map' ..

/-- The value that a segment of finite elements delivers: none where A's block or B's column is all zeros. -/
theorem segment_fins (fa fb n : Nat) (A B : Nat → Bool × Nat × ℤ) : segment fa fb (fins n A) (fins n B) =
    match blockExp (fmtP fa) (fins n A), blockExp (fmtP fb) (fins n B) with
    | some ea, some eb =>
      let s := ((List.range n).map (fun k => cellTerm (fmtP fb) eb (alignA (fmtP fa) (guardBits fa) ea (.fin (A k).1 (A k).2.1 (A k).2.2))
        (.fin (B k).1 (B k).2.1 (B k).2.2))).sum
      some (.fin (decide (s < 0)) s.natAbs (ea + eb - fmtP fa - guardBits fa - fmtP fb - 6))
    | _, _ => none := by
  unfold Machine.segment
  rw [zip_fins]
  have hspecial : ∀ f : Val × Val → Bool, (∀ a b c d e g, f (.fin a b c, .fin d e g) = false) → ((List.range n).map (fun k =>
      (Val.fin (A k).1 (A k).2.1 (A k).2.2, Val.fin (B k).1 (B k).2.1 (B k).2.2))).any f = false := fun f hf => by
    simp [List.any_map, List.any_eq_false, hf]
  dsimp only
  rw [if_neg]
  · simp only [foldl_add, zero_add, List.map_map]
    rfl
  · rw [hspecial _ fun _ _ _ _ _ _ => rfl]
    exact Bool.false_ne_true

theorem segment_zero {fa fb n : Nat} {A B : Nat → Bool × Nat × ℤ} (h : (∀ k < n, (A k).2.1 = 0) ∨ ∀ k < n, (B k).2.1 = 0) :
    segment fa fb (fins n A) (fins n B) = none := by
  rw [segment_fins]
  rcases h with h | h
  · rw [blockExp_of_zero h]
  · rw [blockExp_of_zero h]
    cases blockExp (fmtP fa) (fins n A) <;> rfl

/-- The formats of a floating pass: bits of an aligned element, and of a significand. -/
theorem fmtP_bounds {f : Nat} (h7 : 7 ≤ f) (h13 : f ≤ 13) : 1 ≤ fmtP f ∧ fmtP f ≤ 11 ∧ fmtP f + guardBits f ≤ 16 := by
  interval_cases f <;> decide

/-- A segment delivers the sum of its cell terms at its weight (R62 to R65). -/
theorem segment_value {fa fb n : Nat} {A B : Nat → Bool × Nat × ℤ} {ea eb : ℤ} (ha7 : 7 ≤ fa) (ha13 : fa ≤ 13) (hb7 : 7 ≤ fb) (hb13 : fb ≤ 13)
    (hea : BlockTop (fmtP fa) n A ea) (heb : BlockTop (fmtP fb) n B eb) (hA : ∀ k < n, (A k).2.1 < 2 ^ fmtP fa)
    (hB : ∀ k < n, (B k).2.1 < 2 ^ fmtP fb) :
    ∃ s : ℤ, s = segmentSum (fmtP fa - 1 + guardBits fa - ea) (eb - (fmtP fb - 1)) n A B ∧ segment fa fb (fins n A) (fins n B) =
      some (.fin (decide (s < 0)) s.natAbs (ea + eb - fmtP fa - guardBits fa - fmtP fb - 6)) := by
  obtain ⟨hpa, hpa11, hpg⟩ := fmtP_bounds ha7 ha13
  obtain ⟨hpb, hpb11, -⟩ := fmtP_bounds hb7 hb13
  refine ⟨_, rfl, ?_⟩
  have hsum : ((List.range n).map (fun k => cellTerm (fmtP fb) eb (alignA (fmtP fa) (guardBits fa) ea (.fin (A k).1 (A k).2.1 (A k).2.2))
      (.fin (B k).1 (B k).2.1 (B k).2.2))).sum = segmentSum (fmtP fa - 1 + guardBits fa - ea) (eb - (fmtP fb - 1)) n A B := by
    unfold segmentSum
    congr 1
    refine List.map_congr_left fun k hk => ?_
    have hk := List.mem_range.1 hk
    have hal : |(alignA (fmtP fa) (guardBits fa) ea (.fin (A k).1 (A k).2.1 (A k).2.2) : ℚ)| ≤ 2 ^ 17 := by
      refine (abs_alignA_le hpa (guardBits fa) (hA k hk) (hea.2 k hk)).trans ?_
      have hpow : (2 : ℚ) ^ (fmtP fa + guardBits fa) ≤ 2 ^ 16 := pow_le_pow_right₀ (by norm_num) hpg
      linarith
    have hm : (B k).2.1 < 2 ^ 11 := lt_of_lt_of_le (hB k hk) (Nat.pow_le_pow_right (by norm_num) hpb11)
    rw [cellTerm_fin eb _ _ _ hal hm, alignA_fin hpa]
    rfl
  rw [segment_fins, blockExp_of_top hea, blockExp_of_top heb]
  dsimp only
  rw [hsum]

/-! ### One element of the result (R65) -/

theorem seg32_zero {l : List Val} (h : l.length ≤ 32) : seg32 l 0 = l := by
  unfold seg32
  simp [List.take_of_length_le h]

theorem seg32_succ {l : List Val} (h : l.length ≤ 32) (q : Nat) : seg32 l (q + 1) = [] := by
  unfold seg32
  rw [List.drop_eq_nil_of_le (by omega), List.take_nil]

/-- Operands of at most 32 elements lie in one segment. -/
theorem floatElem_one {fa fb : Nat} {a b : List Val} (ha : a.length ≤ 32) (hb : b.length ≤ 32) (w : Nat) :
    (floatElem fa fb a b w).1 = addSegment w (segment fa fb a b) := by
  have hempty : segment fa fb [] [] = none := rfl
  have htail : ∀ (l : List Nat) (acc : Nat × Bool), l.foldl (fun acc q =>
      let v := segment fa fb (seg32 a (q + 1)) (seg32 b (q + 1))
      (addSegment acc.1 v, acc.2 || v.isSome)) acc = acc := fun l => by
    induction l with
    | nil => exact fun _ => rfl
    | cons q l ih =>
      intro acc
      rw [List.foldl_cons, ih, seg32_succ ha, seg32_succ hb, hempty]
      exact Prod.ext rfl (Bool.or_false _)
  unfold floatElem
  rw [show 8 = 7 + 1 from rfl, List.range_succ_eq_map, List.foldl_cons, List.foldl_map]
  refine (congrArg Prod.fst (htail _ _)).trans ?_
  rw [seg32_zero ha, seg32_zero hb]

/-! ### The elements of the operands (R45, R49) -/

theorem fpVal_lt {f x : Nat} {n : Bool} {m : Nat} {e : ℤ} (h : fpVal f x = .fin n m e) : m < 2 ^ fmtP f := by
  have hM : x % 2 ^ ((fpFmt f).ew + (fpFmt f).mw) % 2 ^ (fpFmt f).mw < 2 ^ (fpFmt f).mw := Nat.mod_lt _ (by positivity)
  unfold fmtP
  rw [pow_succ]
  unfold fpVal at h
  dsimp only at h
  split at h
  · split at h <;> cases h
  · split at h
    · cases h; omega
    · cases h; omega

theorem scaledVal_lt {f x sc : Nat} {n : Bool} {m : Nat} {e : ℤ} (h : scaledVal f x sc = .fin n m e) : m < 2 ^ fmtP f := by
  unfold scaledVal at h
  split at h
  · cases h
  · split at h
    · next hv => cases h; exact fpVal_lt hv
    · exact fpVal_lt h

/-- The significands of an operand that is finite throughout have at most p bits. -/
theorem fins_lt {f n : Nat} {A : Nat → Bool × Nat × ℤ} {l : List Val} (h : l = fins n A) (hl : ∀ v ∈ l, ∃ x sc, v = scaledVal f x sc) :
    ∀ k < n, (A k).2.1 < 2 ^ fmtP f := fun k hk => by
  obtain ⟨x, sc, hv⟩ := hl (.fin (A k).1 (A k).2.1 (A k).2.2) (h ▸ List.mem_map.2 ⟨k, List.mem_range.2 hk, rfl⟩)
  exact scaledVal_lt hv.symm

theorem aRow_scaled (f : Nat) (row sc : List Nat) : ∀ v ∈ aRow f row sc, ∃ x s, v = scaledVal f x s := by
  intro v hv
  obtain ⟨e, -, rfl⟩ := List.mem_map.1 hv
  exact ⟨_, _, rfl⟩

theorem column_scaled (t : Tile) (j : Nat) : ∀ v ∈ t.column j, ∃ x s, v = scaledVal t.fmt x s := by
  intro v hv
  obtain ⟨e, -, rfl⟩ := List.mem_map.1 hv
  exact ⟨_, _, rfl⟩

/-! ### The word (R65, R123) -/

/-- An element of a floating pass whose operands lie in one segment. -/
theorem passRow_float {t : Tile} {f : Nat} {row sc old : List Nat} {j : Nat} (h7 : 7 ≤ f) (ha : (aRow f row sc).length ≤ 32)
    (hb : (t.column j).length ≤ 32) (hj : j < old.length) :
    (nth (passRow t f row sc old) (0, 0) j).1 = addSegment (nth old 0 j) (segment f t.fmt (aRow f row sc) (t.column j)) := by
  have hint : fmtInt f = false := by
    unfold fmtInt
    simp only [Bool.and_eq_false_iff, decide_eq_false_iff_not]
    omega
  have hold : old[j]? = some (nth old 0 j) := by rw [nth, List.getElem?_eq_getElem hj, Option.getD_some]
  rw [← floatElem_one ha hb]
  unfold passRow
  rw [nth, List.getElem?_map, number_getElem?, hold, hint]
  simp

/-- A finite value added to a word is rounded once, to nearest (R65). -/
theorem addSegment_roundsTo {w : Nat} {g : ℚ} (hg : numOf (fpVal 14 w) = some g) (s e : ℤ) :
    ∃ fl, RoundsTo 14 0 false (decide (g + s * (2 : ℚ) ^ e < 0)) (g + s * (2 : ℚ) ^ e)
      (addSegment w (some (.fin (decide (s < 0)) s.natAbs e)), fl) := by
  have hs : numOf (.fin (decide (s < 0)) s.natAbs e) = some ((s : ℚ) * 2 ^ e) := by rw [numOf_fin, num_natAbs]
  obtain ⟨hsum, hok⟩ := addVal_exact (rm := 0) hg hs
  have hround := frOf_roundsTo (f := 14) (rm := 0) (by decide) (by decide) (by decide) hsum hok
  have hsign : signVal (addVal 0 (fpVal 14 w) (.fin (decide (s < 0)) s.natAbs e)).1 = decide (g + (s : ℚ) * 2 ^ e < 0) := by
    rw [signVal_addVal hg hs]
    split
    · next h0 =>
      obtain ⟨n, m, k, hv, rfl⟩ := exists_of_numOf hg
      rw [h0, hv]
      show (if n = decide (s < 0) then n else false) = false
      split
      · next hn =>
        rcases Bool.eq_false_or_eq_true n with rfl | rfl
        · have hneg : (s : ℚ) * 2 ^ e < 0 := mul_neg_of_neg_of_pos (by exact_mod_cast of_decide_eq_true hn.symm) (by positivity)
          rw [num_true] at h0
          linarith [num_false_nonneg m k]
        · rfl
      · rfl
    · rfl
  rw [hsign] at hround
  exact ⟨_, hround⟩

/-- Settles O27: the words by what each row of the pass does, and the value of a word by the sum of its segment. -/
theorem passResults : Obligations.PassResults := by
  refine ⟨fun s c a g x t0 hm hal ha hg hx he ht hn hr => ?words,
    fun t f row sc old j A B g hf7 hf13 ht7 ht13 hrow hrows hj hA hB hold => ?value⟩
  case words =>
    have hgrp : x.req.grp = g := by
      have hp := List.find?_some hx
      simp only [Bool.and_eq_true, beq_iff_eq] at hp
      exact hp.1
    subst hgrp
    exact ⟨_, exec_passComplete hal hx he, finishPass_laws hm hn ht⟩
  case value =>
    have hAf : aRow f row sc = fins row.length A := hA
    have hBf : t.column j = fins row.length B := hB
    have hword := passRow_float (t := t) (sc := sc) hf7 (by rw [hAf, fins_length]; exact hrow) (by rw [hBf, fins_length]; exact hrow) hj
    rw [hAf, hBf] at hword
    refine ⟨fun hz => ?_, fun ea eb gb x hea heb hgb hx => ?_⟩
    · rw [hword, segment_zero hz]
      rfl
    · obtain ⟨s, hs, hseg⟩ := segment_value hf7 hf13 ht7 ht13 hea heb (fins_lt hAf (aRow_scaled f row sc)) (fins_lt hBf (column_scaled t j))
      have hgb' : gb = (guardBits f : ℤ) := by
        rw [hgb]
        unfold guardBits
        split <;> rfl
      subst hgb'
      rw [hword, hseg, hx, ← hs]
      exact addSegment_roundsTo hold s _

end Sys2Proof.Proofs.Array

/-! PROOF of IntegerAccumulation: a row of an integer pass, column by column (R67, R120). -/

namespace Sys2Proof.Proofs.Array

open Sys2Proof Sys2Proof.Machine Sys2Proof.Laws

theorem clampI_of_lt {lo hi z : Int} (h : z < lo) : clampI lo hi z = lo := if_pos h

theorem clampI_of_gt {lo hi z : Int} (hlo : lo ≤ z) (h : hi < z) : clampI lo hi z = hi := by
  unfold clampI
  rw [if_neg (by omega), if_pos h]

theorem clampI_of_mem {lo hi z : Int} (hlo : lo ≤ z) (hhi : z ≤ hi) : clampI lo hi z = z := by
  unfold clampI
  rw [if_neg (by omega), if_neg (by omega)]

/-- An exact sum is kept whole where INT32 holds it, and becomes the limit on its side, with saturation, where not. -/
theorem satWord_eq (z : Int) : (intElem.satWord z, if decide (z < iMin 32 ∨ iMax 32 < z) then 1 else 0) =
    if (2 : Int) ^ 31 ≤ z then (2 ^ 31 - 1, 1) else if z < -(2 : Int) ^ 31 then (2 ^ 31, 1) else ((z % (2 : Int) ^ 32).toNat, 0) := by
  have hmin : iMin 32 = -2 ^ 31 := rfl
  have hmax : iMax 32 = 2 ^ 31 - 1 := rfl
  unfold intElem.satWord
  rw [hmin, hmax]
  by_cases hhi : (2 : Int) ^ 31 ≤ z
  · rw [if_pos hhi, clampI_of_gt (by omega) (by omega), if_pos (decide_eq_true (by omega))]
    rfl
  · by_cases hlo : z < -(2 : Int) ^ 31
    · rw [if_neg hhi, if_pos hlo, clampI_of_lt hlo, if_pos (decide_eq_true (by omega))]
      rfl
    · rw [if_neg hhi, if_neg hlo, clampI_of_mem (by omega) (by omega), if_neg (by simpa using ⟨by omega, by omega⟩)]
      rfl

/-- An element of an integer pass adds the products of the row and the column to its word, once and exactly (R67). -/
theorem intElem_saturates (a b : List Int) (w : Nat) {z : Int} (hz : z = sext 32 w + (List.zipWith (· * ·) a b).sum) :
    ((intElem a b w).1, if (intElem a b w).2 then 1 else 0) =
      if (2 : Int) ^ 31 ≤ z then (2 ^ 31 - 1, 1) else if z < -(2 : Int) ^ 31 then (2 ^ 31, 1) else ((z % (2 : Int) ^ 32).toNat, 0) := by
  have hsum : z = sext 32 w + ((a.zip b).map (fun e => e.1 * e.2)).foldl (· + ·) 0 := by
    rw [hz, List.map_zip_eq_zipWith, List.sum_eq_foldl]
    rfl
  rw [← satWord_eq, hsum]
  rfl

/-- An element of an integer pass: its column's element of the row, with what is recorded of it. -/
theorem passRow_int {t : Tile} {f : Nat} (row sc : List Nat) {old : List Nat} {j : Nat} (hf : fmtInt f = true) (hj : j < old.length) :
    nth (passRow t f row sc old) (0, 0) j =
      ((intElem (row.map (intVal f)) (t.intColumn j) (nth old 0 j)).1,
        if (intElem (row.map (intVal f)) (t.intColumn j) (nth old 0 j)).2 then 1 else 0) := by
  have hold : old[j]? = some (nth old 0 j) := by rw [nth, List.getElem?_eq_getElem hj, Option.getD_some]
  unfold passRow
  rw [nth, List.getElem?_map, number_getElem?, hold, hf]
  simp

/-- Settles O28: an element of the pass adds the exact dot product of the row and the column, and saturates. -/
theorem integerAccumulation : Obligations.IntegerAccumulation := by
  intro t f row sc old j z hf ht hlen hj hz
  have hprod : List.zipWith (· * ·) (row.map (intVal f)) (t.intColumn j) =
      List.zipWith (fun x r => intVal f x * intVal t.fmt (nth r 0 j)) row t.rows := by
    unfold Tile.intColumn
    rw [List.zipWith_map]
  rw [passRow_int row sc hf hj]
  exact intElem_saturates _ _ _ (by rw [hz, hprod])

end Sys2Proof.Proofs.Array

/-! PROOF of CoreEvents, first part: a load of an accumulator word that is released (R124, R127). -/

namespace Sys2Proof.Proofs.Array

open Sys2Proof Sys2Proof.Machine Sys2Proof.Laws

/-! ### Accumulator words read through S-space (R124) -/

/-- A read of one accumulator word that its agent reaches delivers the word's bytes. -/
theorem sRead_data_word {s : State} (h : s.memOk = true) {c k : Nat} {g : Agent} (hreach : s.accBarred c k g = false) (p : Option Nat) :
    (s.sRead c (accBase + 4 * k) 4 g p).data = leBytes 4 (SMap.get (s.core c).acc 0 k).toNat := by
  have hspad : spadPart (accBase + 4 * k) 4 = 0 := by
    unfold spadPart
    omega
  have hidx : (accBase + 4 * k + 0 - accBase) / 4 = k := by omega
  have hrange : (s.core c).acc.range 0 k 1 = [SMap.get (s.core c).acc 0 k] := by
    obtain ⟨v, hv⟩ := List.length_eq_one_iff.1 (range_length (s.core c).acc 0 k 1)
    have hget := range_get ((wf_core _).1 (core_wf_of_memOk h c)).2 k 1 0 Nat.one_pos
    rw [hv] at hget ⊢
    exact congrArg (fun v => [v]) hget
  unfold State.sRead
  dsimp only
  rw [hspad, hidx]
  show [] ++ (s.accRead c k 1 g).data = _
  unfold State.accRead
  dsimp only
  rw [hrange]
  simp [SMap.number, hreach]

/-! ### The waiting load (R127) -/

@[simp] theorem pc_setX (u : Sp) (r : Nat) (v : W64) : (u.setX r v).pc = u.pc := by
  unfold Sp.setX
  split <;> rfl

@[simp] theorem accWait_setX (u : Sp) (r : Nat) (v : W64) : (u.setX r v).accWait = u.accWait := by
  unfold Sp.setX
  split <;> rfl

/-- A result written is the same beside another pending access. -/
theorem x_setX_accWait (u : Sp) (w : Option W32) (r : Nat) (v : W64) : (Sp.setX { u with accWait := w } r v).x = (u.setX r v).x := by
  unfold Sp.setX
  split <;> rfl

/-- The bytes that the access reads once it is pending no longer. -/
theorem sRead_data_released {s : State} {c p k : Nat} (hm : s.memOk = true) (howned : s.owned c (k / 0x40000) = false) :
    ((s.modSp c p (fun u => { u with accWait := none })).sRead c (accBase + 4 * k) 4 .scalar (some p)).data =
      leBytes 4 (SMap.get (s.core c).acc 0 k).toNat := by
  have hreach : (s.modSp c p (fun u => { u with accWait := none })).accBarred c k .scalar = false := by
    have howned' : (s.modSp c p (fun u => { u with accWait := none })).owned c (k / 0x40000) = false := howned
    unfold State.accBarred
    rw [howned', Bool.false_and, Bool.false_and]
  rw [sRead_data_word ((kept_modSp (Kept.refl s) c p _).mem hm) hreach, State.modSp, core_modCore_self, setSp_acc]

section Release

variable {s : State} {c p k : Nat} {w : W32} (hw : (s.sp c p).accWait = some w) (hmaj : iMaj w.toNat = 0x10)

include hw hmaj

/-- A load that waits for no pass any more takes effect, and is pending no longer. -/
theorem exec_accAccessRelease_load (hal : s.alive = true)
    (hfree : s.accBusy c (some p) (mAddr (s.sp c p) w.toNat) (mSize w.toNat) = false) :
    exec (.accAccessRelease c p) s = .next (ldSEff c p w.toNat (s.modSp c p (fun u => { u with accWait := none }))) := by
  show execAccAccessRelease c p s = _
  simp [execAccAccessRelease, hal, hw, waitRanges, waitEff, hmaj, hfree]

/-- A released load of a word that the stook does not own: its register takes the word, and its instruction retires. -/
theorem completes_release_word (hal : s.alive = true) (hm : s.memOk = true) (hsize : mSize w.toNat = 4)
    (haddr : mAddr (s.sp c p) w.toNat = accBase + 4 * k) (hfree : s.accBusy c (some p) (accBase + 4 * k) 4 = false)
    (howned : s.owned c (k / 0x40000) = false) :
    Completes (.accAccessRelease c p) s (fun t => (t.sp c p).accWait = none ∧ (t.sp c p).pc = (s.sp c p).pc + 4 ∧
      (t.sp c p).x = ((s.sp c p).setX (iRd w.toNat) (loadValue (leBytes 4 (SMap.get (s.core c).acc 0 k).toNat) (iSx w.toNat))).x ∧
      t.core c = (s.core c).setSp p (t.sp c p) ∧ t.mem = s.mem ∧ ∀ d, d ≠ c → t.core d = s.core d) := by
  have hexec := exec_accAccessRelease_load hw hmaj hal (by rw [haddr, hsize]; exact hfree)
  have hdata := sRead_data_released hm howned (p := p)
  set u := s.modSp c p (fun u => { u with accWait := none }) with hu
  have hsp : u.sp c p = { s.sp c p with accWait := none } := sp_modSp_self s c p _
  have haddr' : mAddr (u.sp c p) w.toNat = accBase + 4 * k := by
    rw [hsp]
    exact haddr
  unfold ldSEff at hexec
  dsimp only at hexec
  rw [haddr', hsize, hdata] at hexec
  have hread := onlyLogs_sRead u c (accBase + 4 * k) 4 .scalar (some p)
  set v := (u.sRead c (accBase + 4 * k) 4 .scalar (some p)).st
  have hret := onlySp_retireX v c p (iRd w.toNat) (loadValue (leBytes 4 (SMap.get (s.core c).acc 0 k).toNat) (iSx w.toNat))
  have hret_sp := sp_retireX v c p (iRd w.toNat) (loadValue (leBytes 4 (SMap.get (s.core c).acc 0 k).toNat) (iSx w.toNat))
  rw [hread.sp, hsp] at hret_sp
  refine ⟨_, hexec, ?_, ?_, ?_, ?_, ?_, fun d hd => ?_⟩
  · rw [hret_sp]
    exact accWait_setX ..
  · rw [hret_sp]
    exact congrArg (· + 4) (pc_setX ..)
  · rw [hret_sp]
    exact x_setX_accWait ..
  · rw [hret.core, hread.core, hu, State.modSp, core_modCore_self, setSp_setSp]
  · rw [mem_of_onlyCore hret.toOnlyCore, hread.mem, hu]
    rfl
  · rw [hret.cores d hd, hread.core, hu, State.modSp, core_modCore_ne s hd]

end Release

end Sys2Proof.Proofs.Array

/-! PROOF of CoreEvents, second part: an exception that enters its handler (R173, R174, R179, R180). -/

namespace Sys2Proof.Proofs.Array

open Sys2Proof Sys2Proof.Machine Sys2Proof.Laws

/-! ### What a record leaves alone -/

/-- Only control registers and trace buffers may differ. -/
def OnlyTraced (s t : State) : Prop := t = { s with csr := t.csr, trace := t.trace }

theorem OnlyTraced.trans {s t u : State} (h : OnlyTraced s t) (g : OnlyTraced t u) : OnlyTraced s u := by
  unfold OnlyTraced at *
  rw [g, h]

theorem onlyTraced_of_onlyRegs {s t : State} {l : List Nat} (h : OnlyRegs s t l) : OnlyTraced s t := by
  unfold OnlyTraced
  rw [h.rest]

theorem onlyTraced_traceAdd (s : State) (u typ sub : Nat) (x : W64) : OnlyTraced s (s.traceAdd u typ sub x) := by
  unfold State.traceAdd
  dsimp only
  split
  · rfl
  · rfl

theorem regsBut_traceAdd (s : State) (u typ sub : Nat) (x : W64) : RegsBut s (s.traceAdd u typ sub x) [Reg.addr .OBS_STAT 0 0 0] :=
  (Module.onlyRegs_traceAdd s u typ sub x).regs

theorem OnlyTraced.cores {s t : State} (h : OnlyTraced s t) : t.cores = s.cores := by
  unfold OnlyTraced at h
  rw [h]

/-! ### The registers of an exception (R174, R179, R180) -/

section Record

variable (s : State) (c p : Nat) (e : Exc)

theorem onlyRegs_fillExc (nested halted : Bool) : OnlyRegs s (s.fillExc c p e nested halted) (excRegs c p) := by
  have hexc : OnlyRegs s _ [Reg.addr .CORE_EXC c p 0] := onlyRegs_wrs s .CORE_EXC c p 0 [(CORE_EXC.CAUSE, e.cause),
    (CORE_EXC.PRECISE, b2n e.precise), (CORE_EXC.NESTED, b2n nested), (CORE_EXC.ARRAY, e.arr), (CORE_EXC.STATUS, e.status),
    (CORE_EXC.HALTED, b2n halted)]
  have hepc := fun t : State => onlyRegs_wr t CORE_EPC.PC e.epc c p 0
  have hinfo := fun t : State => onlyRegs_wr t CORE_EINFO.INFO e.info c p 0
  exact ((hexc.mono (by simp [excRegs])).trans ((hepc _).mono (by simp [excRegs, CORE_EPC.PC]))).trans
    ((hinfo _).mono (by simp [excRegs, CORE_EINFO.INFO]))

theorem rd_fillExc_epc (nested halted : Bool) : (s.fillExc c p e nested halted).rd CORE_EPC.PC c p = e.epc % 2 ^ 64 := by
  have hne : Reg.addr .CORE_EPC c p 0 ≠ Reg.addr .CORE_EINFO c p 0 := by
    simp only [Reg.addr, Reg.place]
    omega
  exact (rd_of_reg (f := CORE_EPC.PC) (reg_wr_ne _ hne e.info)).trans (rd_wr_self _ CORE_EPC.PC _ c p 0 (by decide) (by decide))

theorem rd_fillExc_info (nested halted : Bool) : (s.fillExc c p e nested halted).rd CORE_EINFO.INFO c p = e.info % 2 ^ 64 :=
  rd_wr_self _ CORE_EINFO.INFO _ c p 0 (by decide) (by decide)

/-- CORE_EXC, as its fields read (R179). -/
theorem rd_fillExc_exc (nested halted : Bool) :
    (s.fillExc c p e nested halted).rd CORE_EXC.CAUSE c p = e.cause % 256 ∧
    (s.fillExc c p e nested halted).rd CORE_EXC.PRECISE c p = b2n e.precise ∧
    (s.fillExc c p e nested halted).rd CORE_EXC.NESTED c p = b2n nested ∧
    (s.fillExc c p e nested halted).rd CORE_EXC.ARRAY c p = e.arr % 4 ∧
    (s.fillExc c p e nested halted).rd CORE_EXC.STATUS c p = e.status % 256 ∧
    (s.fillExc c p e nested halted).rd CORE_EXC.HALTED c p = b2n halted := by
  have hinfo : Reg.addr .CORE_EXC c p 0 ≠ Reg.addr .CORE_EINFO c p 0 := by
    simp only [Reg.addr, Reg.place]
    omega
  have hepc : Reg.addr .CORE_EXC c p 0 ≠ Reg.addr .CORE_EPC c p 0 := by
    simp only [Reg.addr, Reg.place]
    omega
  have hreg : (s.fillExc c p e nested halted).reg .CORE_EXC c p 0 =
      CORE_EXC.HALTED.put (CORE_EXC.STATUS.put (CORE_EXC.ARRAY.put (CORE_EXC.NESTED.put (CORE_EXC.PRECISE.put (CORE_EXC.CAUSE.put
        (s.reg .CORE_EXC c p 0) e.cause) (b2n e.precise)) (b2n nested)) e.arr) e.status) (b2n halted) := by
    refine (reg_wr_ne (f := CORE_EINFO.INFO) _ hinfo e.info).trans ((reg_wr_ne (f := CORE_EPC.PC) _ hepc e.epc).trans ?_)
    exact (reg_wrs_self s .CORE_EXC c p 0 _).trans rfl
  have hrd : ∀ f : Fld, f.reg = .CORE_EXC → (s.fillExc c p e nested halted).rd f c p =
      f.get ((s.fillExc c p e nested halted).reg .CORE_EXC c p 0) := by
    rintro f hf
    rw [State.rd, hf]
  have hbit : ∀ b, b2n b % 2 ^ 1 = b2n b := by decide
  refine ⟨?_, ?_, ?_, ?_, ?_, ?_⟩ <;> rw [hrd _ rfl, hreg] <;> simp (disch := decide) only [Module.get_put_apart, get_put]
  · rfl
  · exact hbit _
  · exact hbit _
  · rfl
  · rfl
  · exact hbit _

/-! ### An exception that is handled -/

/-- The module once an exception that is handled is recorded and counted, before its processor enters the handler. -/
def excNoted : State :=
  let t := (s.fillExc c p e false false).count c 0x70 (some p) 1
  if t.rdB OBS_CORE.EXC c then t.traceAdd c 5 e.cause (w64 e.epc) else t

theorem onlyTraced_excNoted : OnlyTraced s (excNoted s c p e) := by
  have hcount : OnlyTraced s ((s.fillExc c p e false false).count c 0x70 (some p) 1) :=
    (onlyTraced_of_onlyRegs (onlyRegs_fillExc s c p e false false)).trans (onlyTraced_of_onlyRegs (onlyRegs_count ..))
  unfold excNoted
  dsimp only
  split
  · exact hcount.trans (onlyTraced_traceAdd ..)
  · exact hcount

/-- What follows the record changes only counters and, where a trace record is dropped, its count. -/
theorem regsBut_counted : RegsBut (s.fillExc c p e false false) (excNoted s c p e) (Reg.addr .OBS_STAT 0 0 0 :: cntRegs c) := by
  have hcount := (onlyRegs_count (s.fillExc c p e false false) c 0x70 (some p) 1).regs.mono (m := Reg.addr .OBS_STAT 0 0 0 :: cntRegs c)
    fun _ ha => List.mem_cons_of_mem _ ha
  unfold excNoted
  dsimp only
  split
  · exact hcount.trans ((regsBut_traceAdd _ c 5 e.cause (w64 e.epc)).mono (by simp))
  · exact hcount

theorem regsBut_excNoted : RegsBut s (excNoted s c p e) (excRegs c p ++ cntRegs c) := by
  refine ((onlyRegs_fillExc s c p e false false).regs.mono fun _ ha => List.mem_append_left _ ha).trans
    ((regsBut_counted s c p e).mono fun a ha => ?_)
  rcases List.mem_cons.1 ha with rfl | ha
  · simp [excRegs]
  · exact List.mem_append_right _ ha

end Record

section Handler

variable {s : State} {c p : Nat} {e : Exc}

/-- Registers of a core that stand before its performance counters are none that counting and tracing change. -/
theorem addr_notMem_counted (hc : c < 192) {g : Reg} {i : Nat} (hunit : g.place.unit = .core)
    (hoff : g.place.off + i * g.place.si < 0x20100) : g.addr c i 0 ∉ Reg.addr .OBS_STAT 0 0 0 :: cntRegs c := by
  have haddr : g.addr c i 0 = UnitKind.base .core c + (g.place.off + i * g.place.si) := by
    unfold Reg.addr
    rw [hunit]
    omega
  intro h
  rcases List.mem_cons.1 h with h | h
  · have hobs : Reg.addr .OBS_STAT 0 0 0 = 0x800000020 := rfl
    rw [haddr, hobs] at h
    simp only [UnitKind.base] at h
    omega
  · have := Scope.le_of_mem_cntRegs h
    omega

theorem rd_excNoted (hc : c < 192) {f : Fld} {i : Nat} (hunit : f.reg.place.unit = .core)
    (hoff : f.reg.place.off + i * f.reg.place.si < 0x20100) :
    (excNoted s c p e).rd f c i = (s.fillExc c p e false false).rd f c i :=
  Module.rd_of_regsBut (regsBut_counted s c p e) (addr_notMem_counted hc hunit hoff)

theorem takeExc_handled (hen : s.rdB CORE_CTL.EXC_EN c = true) (huser : (s.sp c p).super = false) : s.takeExc c p e =
    (excNoted s c p e).modSp c p (fun u => { u with super := true, pc := w64 ((excNoted s c p e).rd CORE_VEC.ADDR c * 64) }) := by
  unfold State.takeExc
  simp only [hen, huser, Bool.not_true, Bool.or_false, Bool.false_eq_true, if_false]
  rfl

/-- An exception in user mode, where exceptions are enabled, enters the handler (R174). -/
theorem enters_takeExc (hc : c < 192) (hp : p < 2) (hen : s.rdB CORE_CTL.EXC_EN c = true) (huser : (s.sp c p).super = false)
    (hcause : e.cause < 256) (hepc : e.epc < 2 ^ 64) (hinfo : e.info < 2 ^ 64) :
    Enters s (s.takeExc c p e) c p e.cause e.epc e.info e.precise ∧ (s.takeExc c p e).rd CORE_EXC.ARRAY c p = e.arr % 4 ∧
      (s.takeExc c p e).rd CORE_EXC.STATUS c p = e.status % 256 := by
  rw [takeExc_handled hen huser]
  have hrest := onlyTraced_excNoted s c p e
  have hcore : ∀ d, (excNoted s c p e).core d = s.core d := Module.core_of_cores hrest.cores
  obtain ⟨hcau, hpre, hnest, harr, hstat, hhalt⟩ := rd_fillExc_exc s c p e false false
  have hexc : ∀ f : Fld, f.reg = .CORE_EXC → (excNoted s c p e).rd f c p = (s.fillExc c p e false false).rd f c p := fun f hf =>
    rd_excNoted hc (by rw [hf]; rfl) (by rw [hf]; simp only [Reg.place]; omega)
  have hpc : (excNoted s c p e).rd CORE_EPC.PC c p = e.epc := by
    rw [rd_excNoted hc rfl (by simp only [CORE_EPC.PC, Reg.place]; omega), rd_fillExc_epc, Nat.mod_eq_of_lt hepc]
  have hinf : (excNoted s c p e).rd CORE_EINFO.INFO c p = e.info := by
    rw [rd_excNoted hc rfl (by simp only [CORE_EINFO.INFO, Reg.place]; omega), rd_fillExc_info, Nat.mod_eq_of_lt hinfo]
  have hvec : (excNoted s c p e).rd CORE_VEC.ADDR c = s.rd CORE_VEC.ADDR c := by
    have hnot : CORE_VEC.ADDR.reg.addr c 0 0 ∉ excRegs c p := by
      simp only [excRegs, List.mem_cons, List.not_mem_nil, or_false, CORE_VEC.ADDR, Reg.addr, Reg.place, UnitKind.base]
      omega
    exact (rd_excNoted hc rfl (by decide)).trans (Module.rd_of_regsBut (onlyRegs_fillExc s c p e false false).regs hnot)
  refine ⟨⟨?_, ?_, ?_, ?_, ?_, ?_, ?_, ?_, fun d hd => ?_, ?_, ?_⟩, ?_, ?_⟩
  · rw [sp_modSp_self, hvec, State.sp, hcore]
    rfl
  · exact (hexc _ rfl).trans (hcau.trans (Nat.mod_eq_of_lt hcause))
  · exact (hexc _ rfl).trans hpre
  · exact (hexc _ rfl).trans hnest
  · exact (hexc _ rfl).trans hhalt
  · exact hpc
  · exact hinf
  · rw [(onlySp_modSp (excNoted s c p e) c p _ []).core, hcore]
  · rw [State.modSp, core_modCore_ne _ hd, hcore]
  · exact regsBut_excNoted s c p e
  · rw [hrest]
    rfl
  · exact (hexc _ rfl).trans harr
  · exact (hexc _ rfl).trans hstat

end Handler

/-- The oldest imprecise exception that is pending is taken, and its processor enters the handler (R173). -/
theorem completes_imprecise {s : State} {c p : Nat} {e : ImpExc} {r : List ImpExc} (hc : c < 192) (hp : p < 2) (hal : s.alive = true)
    (hpend : (s.sp c p).pend = e :: r) (hrun : (s.sp c p).run = true) (huser : (s.sp c p).super = false)
    (hwait : (s.sp c p).accWait = none) (hen : s.rdB CORE_CTL.EXC_EN c = true) (hcause : e.cause < 256) :
    Completes (.impreciseExceptionTaken c p) s (fun t =>
      Enters (s.modSp c p (fun u => { u with pend := r, fetch := none })) t c p e.cause (s.sp c p).pc.toNat e.info.toNat false ∧
      t.rd CORE_EXC.ARRAY c p = e.arr % 4 ∧ t.rd CORE_EXC.STATUS c p = e.status % 256) := by
  have hexec : exec (.impreciseExceptionTaken c p) s = .next ((s.modSp c p (fun u => { u with pend := r, fetch := none })).takeExc c p
      ⟨e.cause, false, e.arr, e.status, (s.sp c p).pc.toNat, e.info.toNat⟩) := by
    show execImpreciseExceptionTaken c p s = _
    simp [execImpreciseExceptionTaken, hal, hpend, hrun, huser, hwait]
  have huser' : ((s.modSp c p (fun u => { u with pend := r, fetch := none })).sp c p).super = false := by
    rw [sp_modSp_self]
    exact huser
  exact ⟨_, hexec, enters_takeExc hc hp hen huser' hcause (BitVec.isLt _) (BitVec.isLt _)⟩

end Sys2Proof.Proofs.Array

/-! PROOF of CoreEvents, third part: the end of a kernel, and the test that it delayed (R171, R213, R242, R560, R561). -/

namespace Sys2Proof.Proofs.Array

open Sys2Proof Sys2Proof.Machine Sys2Proof.Laws

/-! ### The registers that the end of a kernel changes -/

/-- What the end of a kernel on core `c` notes: rows dropped, a trace record dropped, a test delayed. -/
def endRegs (c : Nat) : List Nat := [Reg.addr .GLN_STAT c 0 0, Reg.addr .OBS_STAT 0 0 0, Reg.addr .WNW_STAT 0 0 0]

/-- Registers before those of the cores but WNW_STAT, and those of the power domains, are none of them. -/
theorem notMem_endRegs {c a : Nat} (hc : c < 192) (h : a < 0x100000000 ∧ a ≠ 0x2008 ∨ 0x500000000 ≤ a ∧ a < 0x800000000) :
    a ∉ endRegs c := by
  simp only [endRegs, List.mem_cons, List.not_mem_nil, or_false, Reg.addr, Reg.place, UnitKind.base]
  omega

/-- Winnow's view of the cores is as it was, but for the time since which a core is free. -/
structure WinnowKept (s t : State) (c : Nat) : Prop where
  regs : RegsBut s t (endRegs c)
  variant : t.variant = s.variant
  jobNs : t.jobNs = s.jobNs
  steps : t.steps = s.steps
  wnw : ∀ k, t.wnwOf k = { s.wnwOf k with freeSince := (t.wnwOf k).freeSince }

section Winnow

variable {s t : State} {c : Nat} (h : WinnowKept s t c)

include h

theorem WinnowKept.forced (k : Nat) : (t.wnwOf k).forced = (s.wnwOf k).forced := by rw [h.wnw]

theorem WinnowKept.ret (k : Nat) : (t.wnwOf k).ret = (s.wnwOf k).ret := by rw [h.wnw]

variable (hc : c < 192)

include hc

theorem WinnowKept.dieMap {f : Fld} (hf : f.reg = .GLB_DIEMAP) : t.rd f 0 = s.rd f 0 :=
  Module.rd_of_regsBut h.regs (by rw [hf]; exact notMem_endRegs hc (by decide))

theorem WinnowKept.config {f : Fld} (hf : f.reg = .WNW_CFG) : t.rd f 0 = s.rd f 0 :=
  Module.rd_of_regsBut h.regs (by rw [hf]; exact notMem_endRegs hc (by decide))

theorem WinnowKept.domain {f : Fld} (hf : f.reg = .PWR_DOM_LP) {n : Nat} (hn : n < 0x1000) : t.rd f n = s.rd f n :=
  Module.rd_of_regsBut h.regs (by
    rw [hf]
    exact notMem_endRegs hc (by simp only [Reg.addr, Reg.place, UnitKind.base]; omega))

theorem WinnowKept.fenced {k : Nat} (hk : k < 192) : t.coreFenced k = s.coreFenced k := by
  unfold State.coreFenced
  rw [Module.rd_of_regsBut (f := WNW_FENCE.CORES) h.regs (notMem_endRegs hc (by
    simp only [WNW_FENCE.CORES, Reg.addr, Reg.place, UnitKind.base]; omega))]

/-- A core is ready, asleep, waking or gone as it was. -/
theorem WinnowKept.coreSt {k : Nat} (hk : k < 192) : t.coreSt k = s.coreSt k := by
  have hreleased : t.dieReleased (k / 16) = s.dieReleased (k / 16) := by
    unfold State.dieReleased
    rw [h.dieMap hc (f := GLB_DIEMAP.RELEASED) rfl]
  have hfallow : t.fallow (k / 16) = s.fallow (k / 16) :=
    congrArg (· == 1) (h.domain hc (f := PWR_DOM_LP.FALLOW) rfl (by omega))
  have hgated : t.gated k = s.gated k := congrArg (· == 1) (h.domain hc (f := PWR_DOM_LP.GATE) rfl (by omega))
  simp only [State.coreSt, h.fenced hc hk, hreleased, hfallow, hgated, h.ret]

/-- A core is due where it was. -/
theorem WinnowKept.coreDue : t.coreDue c = s.coreDue c := by
  have hhere : t.coreHere c = s.coreHere c := by
    unfold State.coreHere State.diePresent State.dieGuest
    rw [h.variant, h.dieMap hc (f := GLB_DIEMAP.PRESENT) rfl, h.dieMap hc (f := GLB_DIEMAP.GUEST) rfl]
  have hstep : t.rdB WNW_CFG.STEPEN = s.rdB WNW_CFG.STEPEN := congrArg (· == 1) (h.config hc rfl)
  have hlast : (t.wnwOf c).lastPass = (s.wnwOf c).lastPass := by rw [h.wnw]
  have hat : (t.wnwOf c).stepsAt = (s.wnwOf c).stepsAt := by rw [h.wnw]
  simp only [State.coreDue, hhere, h.coreSt hc hc, hstep, hlast, hat, h.jobNs, h.steps]

/-- Another core of the die is forced where one was. -/
theorem WinnowKept.wnwTaken : t.wnwTaken c = s.wnwTaken c := by
  unfold State.wnwTaken
  rw [Bool.eq_iff_iff, List.any_eq_true, List.any_eq_true]
  refine exists_congr fun i => and_congr_right fun hi => ?_
  have hk : c / 16 * 16 + i < 192 := by
    have := List.mem_range.1 hi
    omega
  simp only [State.wnwForced, h.forced, h.coreSt hc hk]

theorem WinnowKept.enabled : t.rdB WNW_CFG.EN = s.rdB WNW_CFG.EN := congrArg (· == 1) (h.config hc rfl)

end Winnow

/-! ### Winnow after the end of a kernel (R561) -/

section After

variable {s : State} {c : Nat}

theorem wnwKick_rest (s : State) (c : Nat) : s.wnwKick c = { s with wnw := (s.wnwKick c).wnw } := by
  unfold State.wnwKick
  split <;> rfl

theorem forced_wnwKick (s : State) (c : Nat) : ((s.wnwKick c).wnwOf c).forced = (s.wnwOf c).forced := by
  unfold State.wnwKick
  split
  · rw [Module.wnwOf_modWnw_self]
  · rfl

/-- What winnow does at the end of a kernel changes a count and its own states. -/
theorem wnwAfter_rest (s : State) (c : Nat) : s.wnwAfter c = { s with csr := (s.wnwAfter c).csr, wnw := (s.wnwAfter c).wnw } := by
  unfold State.wnwAfter
  dsimp only
  split
  · split <;> rw [wnwKick_rest] <;> rfl
  · rfl

/-- A kernel that delayed no test: winnow does nothing. -/
theorem wnwAfter_idle (h : s.rdB WNW_CFG.EN = false ∨ (s.wnwOf c).forced = false ∧ s.coreDue c = false) : s.wnwAfter c = s := by
  refine if_neg ?_
  rcases h with h | ⟨hf, hd⟩
  · simp [h]
  · simp [hf, hd]

/-- Counting a delayed test leaves winnow's view. -/
theorem winnowKept_overdue (s : State) (c : Nat) : WinnowKept s (s.incSat WNW_STAT.OVERDUE 1 0) c :=
  ⟨(onlyRegs_wr s WNW_STAT.OVERDUE _ 0 0 0).regs.mono (by simp [endRegs, WNW_STAT.OVERDUE]), rfl, rfl, rfl, fun _ => rfl⟩

/-- A kernel that delayed its core's test: that is counted, and the core is forced, unless another one of its die is. -/
theorem wnwAfter_late (hc : c < 192) (hen : s.rdB WNW_CFG.EN = true) (h : (s.wnwOf c).forced = true ∨ s.coreDue c = true) :
    (s.wnwAfter c).rd WNW_STAT.OVERDUE = min 65535 (s.rd WNW_STAT.OVERDUE + 1) ∧
      (s.wnwTaken c = false → ((s.wnwAfter c).wnwOf c).forced = true) := by
  have hcount : (s.incSat WNW_STAT.OVERDUE 1 0).rd WNW_STAT.OVERDUE = min 65535 (s.rd WNW_STAT.OVERDUE + 1) :=
    Module.rd_incSat_self WNW_STAT.OVERDUE 1 0 0 0 (by decide) (by decide)
  have htaken := (winnowKept_overdue s c).wnwTaken hc
  set u := s.incSat WNW_STAT.OVERDUE 1 0
  have hafter : s.wnwAfter c = if u.wnwTaken c then u.wnwKick c else (u.modWnw c (fun w => { w with forced := true })).wnwKick c :=
    if_pos (by simpa [hen] using h)
  have hkick : ∀ v : State, (v.wnwKick c).rd WNW_STAT.OVERDUE = v.rd WNW_STAT.OVERDUE := fun v => by
    rw [wnwKick_rest v c]
    rfl
  rw [hafter, htaken]
  refine ⟨?_, fun hfree => ?_⟩
  · split
    · rw [hkick, hcount]
    · rw [hkick]
      exact hcount
  · rw [if_neg (by simp [hfree]), forced_wnwKick, Module.wnwOf_modWnw_self]

end After

/-! ### The core's part ends (R171, R213, R242) -/

section PartEnds

variable (s : State) (c : Nat) (k : Kernel)

/-- The module once the core's part is reported and the core holds no kernel, before winnow follows. -/
def partEnded : State := (((s.streamsEnd c).freeCore c).touched c).partEnd c k (s.partStatus c k)

/-- Ending the streams changes the gleaner alone, and notes rows that are dropped. -/
theorem onlyCore_streamsEnd : OnlyCore s (s.streamsEnd c) c [Reg.addr .GLN_STAT c 0 0] := by
  unfold State.streamsEnd
  dsimp only
  split
  · exact (onlyCore_modCore s c _ _).trans ((onlyRegs_wr _ GLN_STAT.DROPPED 1 c 0 0).onlyCore c)
  · exact onlyCore_modCore s c _ _

theorem core_streamsEnd : (s.streamsEnd c).core c =
    { s.core c with gln := { (s.core c).gln with s0 := {}, s1 := {}, s2 := {}, s3 := {} } } := by
  have hempty : (s.modGln c (fun g => { g with s0 := {}, s1 := {}, s2 := {}, s3 := {} })).core c =
      { s.core c with gln := { (s.core c).gln with s0 := {}, s1 := {}, s2 := {}, s3 := {} } } := core_modCore_self s c _
  unfold State.streamsEnd
  dsimp only
  split
  · exact (onlyLogs_wr _ GLN_STAT.DROPPED 1 c 0 0).core c |>.trans hempty
  · exact hempty

theorem onlyCore_freeCore (l : List Nat) : OnlyCore s (s.freeCore c) c l := by
  unfold State.freeCore
  exact onlyCore_modCore s c _ l

/-- A core that stops holding a kernel stops both processors, and keeps its memories. -/
theorem freeCore_core : ((s.freeCore c).core c).kernel = none ∧ ((s.freeCore c).core c).spad = (s.core c).spad ∧
    ((s.freeCore c).core c).acc = (s.core c).acc ∧ ∀ q, (s.freeCore c).sp c q =
      { s.sp c q with run := false, started := false, ended := false, super := false, pend := [] } := by
  have hcore : (s.freeCore c).core c = { s.core c with
      kernel := none
      sp0 := { (s.core c).sp0 with run := false, started := false, ended := false, super := false, pend := [] }
      sp1 := { (s.core c).sp1 with run := false, started := false, ended := false, super := false, pend := [] } } :=
    core_modCore_self s c _
  refine ⟨by rw [hcore], by rw [hcore], by rw [hcore], fun q => ?_⟩
  unfold State.sp
  rw [hcore]
  unfold Core.sp
  split <;> rfl

/-- A command in flight that is changed under the same number. -/
theorem cmdOf_modCmd (id : Nat) {f : Cmd → Cmd} (hf : ∀ x, (f x).id = x.id) : (s.modCmd id f).cmdOf id = (s.cmdOf id).map f := by
  have hfind : ∀ l : List Cmd, (mapIf (fun x => x.id == id) f l).find? (fun x => x.id == id) =
      (l.find? (fun x => x.id == id)).map f := by
    intro l
    induction l with
    | nil => rfl
    | cons x l ih =>
      show List.find? _ ((if x.id == id then f x else x) :: mapIf (fun x => x.id == id) f l) = _
      cases hx : x.id == id with
      | true => simp [hf, hx]
      | false => simpa [hx] using ih
  exact hfind s.que.cmds

/-- A part that ends may be traced, and is then reported to its command. -/
theorem partEnd_eq (st : Nat) : ∃ t, OnlyTraced s t ∧ RegsBut s t [Reg.addr .OBS_STAT 0 0 0] ∧
    s.partEnd c k st = t.modCmd k.cmd (fun x => { x with parts := x.parts.filter (· != c), partSts := x.partSts ++ [st] }) := by
  unfold State.partEnd
  dsimp only
  split
  · exact ⟨_, onlyTraced_traceAdd .., regsBut_traceAdd _ _ _ _ _, rfl⟩
  · exact ⟨s, rfl, .refl s _, rfl⟩

theorem partEnded_eq : ∃ t, OnlyTraced (((s.streamsEnd c).freeCore c).touched c) t ∧
    RegsBut ((s.streamsEnd c).freeCore c) t [Reg.addr .OBS_STAT 0 0 0] ∧ partEnded s c k = t.modCmd k.cmd
      (fun x => { x with parts := x.parts.filter (· != c), partSts := x.partSts ++ [s.partStatus c k] }) :=
  partEnd_eq (((s.streamsEnd c).freeCore c).touched c) c k (s.partStatus c k)

theorem onlyCore_freed : OnlyCore s ((s.streamsEnd c).freeCore c) c [Reg.addr .GLN_STAT c 0 0] :=
  (onlyCore_streamsEnd s c).trans (onlyCore_freeCore _ c _)

theorem core_partEnded (d : Nat) : (partEnded s c k).core d = ((s.streamsEnd c).freeCore c).core d := by
  obtain ⟨t, ht, -, heq⟩ := partEnded_eq s c k
  rw [heq]
  exact Module.core_of_cores ht.cores d

theorem regsBut_partEnded : RegsBut s (partEnded s c k) [Reg.addr .GLN_STAT c 0 0, Reg.addr .OBS_STAT 0 0 0] := by
  obtain ⟨t, -, hregs, heq⟩ := partEnded_eq s c k
  have hall : RegsBut s t [Reg.addr .GLN_STAT c 0 0, Reg.addr .OBS_STAT 0 0 0] :=
    ((onlyCore_freed s c).regs.mono (by simp)).trans (hregs.mono (by simp))
  rw [heq]
  exact hall

/-- Beside registers, cores and trace buffers, the core's idle time and its command change. -/
theorem partEnded_rest : ∃ t : State, partEnded s c k = (State.modCmd { s with cores := t.cores, csr := t.csr, trace := t.trace } k.cmd
    (fun x => { x with parts := x.parts.filter (· != c), partSts := x.partSts ++ [s.partStatus c k] })).touched c := by
  obtain ⟨t, ht, -, heq⟩ := partEnded_eq s c k
  refine ⟨t, ?_⟩
  rw [heq, ht, (onlyCore_freed s c).rest]
  rfl

/-- What the end of a part leaves in the core, in its command, and around them. -/
structure PartEnds (s t : State) (c : Nat) (k : Kernel) : Prop where
  winnow : WinnowKept s t c
  since : t.wnwOf c = { s.wnwOf c with freeSince := s.now }
  kernel : (t.core c).kernel = none
  spad : (t.core c).spad = (s.core c).spad
  acc : (t.core c).acc = (s.core c).acc
  sps : ∀ q, t.sp c q = { s.sp c q with run := false, started := false, ended := false, super := false, pend := [] }
  others : ∀ d, d ≠ c → t.core d = s.core d
  cmd : t.cmdOf k.cmd = (s.cmdOf k.cmd).map
    (fun x => { x with parts := x.parts.filter (· != c), partSts := x.partSts ++ [s.partStatus c k] })
  overdue : t.rd WNW_STAT.OVERDUE = s.rd WNW_STAT.OVERDUE
  mem : t.mem = s.mem

theorem winnowKept_partEnded : WinnowKept s (partEnded s c k) c := by
  have hregs := regsBut_partEnded s c k
  obtain ⟨t, ht⟩ := partEnded_rest s c k
  refine ⟨hregs.mono (by simp [endRegs]), ?_, ?_, ?_, fun j => ?_⟩
  · rw [ht]
    rfl
  · rw [ht]
    rfl
  · rw [ht]
    rfl
  · by_cases hj : j = c
    · rw [ht, hj, State.touched, Module.wnwOf_modWnw_self]
      rfl
    · rw [ht, State.touched, Module.wnwOf_modWnw_ne _ hj]
      rfl

theorem partEnds_partEnded : PartEnds s (partEnded s c k) c k := by
  obtain ⟨t, ht⟩ := partEnded_rest s c k
  obtain ⟨hkernel, hspad, hacc, hsps⟩ := freeCore_core (s.streamsEnd c) c
  have hcore := core_partEnded s c k
  refine ⟨winnowKept_partEnded s c k, ?_, ?_, ?_, ?_, fun q => ?_, fun d hd => ?_, ?_,
    Module.rd_of_regsBut (regsBut_partEnded s c k) ?_, ?_⟩
  · rw [ht, State.touched, Module.wnwOf_modWnw_self]
    rfl
  · rw [hcore, hkernel]
  · rw [hcore, hspad, core_streamsEnd]
  · rw [hcore, hacc, core_streamsEnd]
  · have hsp : (partEnded s c k).sp c q = ((s.streamsEnd c).freeCore c).sp c q := congrArg (·.sp q) (hcore c)
    rw [hsp, hsps, State.sp, core_streamsEnd]
    rfl
  · rw [hcore, (onlyCore_freed s c).cores d hd]
  · rw [ht]
    exact cmdOf_modCmd _ k.cmd fun _ => rfl
  · simp only [WNW_STAT.OVERDUE, List.mem_cons, List.not_mem_nil, or_false, Reg.addr, Reg.place, UnitKind.base]
    omega
  · rw [ht]
    rfl

end PartEnds

/-! ### The end of a kernel -/

section KernelEnd

variable {s : State} {c : Nat} {k : Kernel}

theorem exec_kernelEnd (hal : s.alive = true) (hk : (s.core c).kernel = some k) (hover : s.kernelOver c k = true) :
    exec (.kernelEnd c) s = .next ((partEnded s c k).wnwAfter c) := by
  show execKernelEnd c s = _
  simp only [execKernelEnd, hal, hk, hover, Bool.not_true, Bool.false_eq_true, if_false]
  rfl

/-- A core whose kernel is over reports its part, holds no kernel any more, and is forced where the kernel delayed its test. -/
theorem completes_kernelEnd (hc : c < 192) (hal : s.alive = true) (hk : (s.core c).kernel = some k) (hover : s.kernelOver c k = true) :
    Completes (.kernelEnd c) s (fun t => (t.core c).kernel = none ∧
      (∀ q, (t.sp c q).run = false ∧ (t.sp c q).started = false ∧ (t.sp c q).super = false ∧ (t.sp c q).pend = []) ∧
      (∀ x, s.cmdOf k.cmd = some x → t.cmdOf k.cmd =
        some { x with parts := x.parts.filter (· != c), partSts := x.partSts ++ [s.partStatus c k] }) ∧
      (s.rdB WNW_CFG.EN = true → (s.wnwOf c).forced = true ∨ s.coreDue c = true →
        t.rd WNW_STAT.OVERDUE = min 65535 (s.rd WNW_STAT.OVERDUE + 1) ∧ (s.wnwTaken c = false → (t.wnwOf c).forced = true)) ∧
      (s.rdB WNW_CFG.EN = false ∨ (s.wnwOf c).forced = false ∧ s.coreDue c = false →
        t.rd WNW_STAT.OVERDUE = s.rd WNW_STAT.OVERDUE ∧ t.wnwOf c = { s.wnwOf c with freeSince := s.now }) ∧
      (t.core c).spad = (s.core c).spad ∧ (t.core c).acc = (s.core c).acc ∧ t.mem = s.mem ∧ ∀ d, d ≠ c → t.core d = s.core d) := by
  refine ⟨_, exec_kernelEnd hal hk hover, ?_⟩
  have hend := partEnds_partEnded s c k
  have hen := hend.winnow.enabled hc
  have hforced := hend.winnow.forced c
  have hdue := hend.winnow.coreDue hc
  have htaken := hend.winnow.wnwTaken hc
  set u := partEnded s c k
  have hrest := wnwAfter_rest u c
  have hcore : ∀ d, (u.wnwAfter c).core d = u.core d := fun d => by
    rw [hrest]
    rfl
  have hsp : ∀ q, (u.wnwAfter c).sp c q = u.sp c q := fun q => congrArg (·.sp q) (hcore c)
  refine ⟨by rw [hcore, hend.kernel], fun q => ?_, fun x hx => ?_, fun hon hlate => ?_, fun hidle => ?_,
    by rw [hcore, hend.spad], by rw [hcore, hend.acc], ?_, fun d hd => by rw [hcore, hend.others d hd]⟩
  · rw [hsp, hend.sps]
    exact ⟨rfl, rfl, rfl, rfl⟩
  · have hcmd : (u.wnwAfter c).cmdOf k.cmd = u.cmdOf k.cmd := by
      rw [hrest]
      rfl
    rw [hcmd, hend.cmd, hx]
    rfl
  · rw [← hend.overdue, ← htaken]
    exact wnwAfter_late hc (hen.trans hon) (by rwa [hforced, hdue])
  · rw [wnwAfter_idle (by rwa [hen, hforced, hdue])]
    exact ⟨hend.overdue, hend.since⟩
  · rw [hrest]
    exact hend.mem

end KernelEnd

/-- Settles O31: the released load by what it reads, the exception by how it enters its handler, the end of a kernel by what the end of its
part and winnow leave. -/
theorem coreEvents : Obligations.CoreEvents := by
  intro s c p hcores hp hal
  have hc : c < 192 := lt_of_lt_of_le hcores (Unit.cores_le s.variant)
  refine ⟨fun w k hm hw hmaj hsize haddr _ hfree howned => ?_, fun e r hpend hrun huser hwait hen hcause => ?_, fun k hk hover => ?_⟩
  · exact completes_release_word hw hmaj hal hm hsize haddr hfree howned
  · exact completes_imprecise hc hp hal hpend hrun huser hwait hen hcause
  · exact completes_kernelEnd hc hal hk hover

end Sys2Proof.Proofs.Array


/-! PROOFS of ScalarArithmetic, ScalarResults, ScalarControl and TileDescriptorMoves (R149, R150). -/

namespace Sys2Proof.Proofs.Dexica

open Sys2Proof Sys2Proof.Machine Sys2Proof.Laws Sys2Proof.Proofs.Scope

/-! ### An instruction that goes ahead -/

section Rows

variable {i : Instr} {s : State} {c p : Nat}

/-- A row whose effect is to retire changes its processor's pc alone, and counters. -/
theorem retires_of_retire (h : exec i s = .next (s.retire c p 4)) : Retires i s c p (s.sp c p) :=
  ⟨_, h, sp_retire s c p 4, onlySp_retire s c p 4⟩

/-- A row that changes its processor by `f` and retires. -/
theorem retires_of_modSp {f : Sp → Sp} (h : exec i s = .next ((s.modSp c p f).retire c p 4)) : Retires i s c p (f (s.sp c p)) :=
  ⟨_, h, by rw [sp_retire, sp_modSp_self], (onlySp_modSp s c p f _).trans (onlySp_retire _ c p 4)⟩

/-- A row that changes its processor by `f` and goes to `a`. -/
theorem completes_of_retireTo {f : Sp → Sp} {a : W64} (h : exec i s = .next ((s.modSp c p f).retireTo c p a)) :
    Completes i s (fun t => OnlySp s t c p (cntRegs c) ∧ t.sp c p = { f (s.sp c p) with pc := a }) :=
  ⟨_, h, (onlySp_modSp s c p f _).trans (onlySp_retireTo _ c p a), by rw [sp_retireTo, sp_modSp_self]⟩

end Rows

/-! ### Arithmetic (R149) -/

section Arithmetic

variable {s : State} {c p : Nat} {w : W32}

theorem exec_scalarRegOp (hm : iMaj w.toNat = 0x01) (hf : iF w.toNat ≤ 24) (h3 : iRs3 w.toNat = 0)
    (hun : 21 ≤ iF w.toNat → iF w.toNat ≤ 23 → iRs2 w.toNat = 0) (hi : Issues s c p [iRd w.toNat, iRs1 w.toNat, iRs2 w.toNat] []) :
    exec (.scalarRegOp c p w) s = .next (s.retireX c p (iRd w.toNat)
      (aluOp (iF w.toNat) ((s.sp c p).xr (iRs1 w.toNat)) ((s.sp c p).xr (iRs2 w.toNat)))) := by
  have hlegal : (decide (iF w.toNat ≤ 24) && iRs3 w.toNat == 0 &&
      (!decide (21 ≤ iF w.toNat ∧ iF w.toNat ≤ 23) || iRs2 w.toNat == 0)) = true := by
    by_cases hu : 21 ≤ iF w.toNat ∧ iF w.toNat ≤ 23
    · simp [hf, h3, hun hu.1 hu.2]
    · simp [hf, h3, hu]
  exact congrArg Host.Outcome.next (issue_eff hi (by simp [hm]) hlegal _)

theorem exec_scalarImmOp (hm : iMaj w.toNat ∈ [2, 3, 4, 5, 7]) (hi : Issues s c p [iRd w.toNat, iRs1 w.toNat] []) :
    exec (.scalarImmOp c p w) s = .next (s.retireX c p (iRd w.toNat)
      (immOp (iMaj w.toNat) ((s.sp c p).xr (iRs1 w.toNat)) (BitVec.ofInt 64 (iImm15 w.toNat)))) := by
  have hrow : (decide (2 ≤ iMaj w.toNat) && decide (iMaj w.toNat ≤ 5) || iMaj w.toNat == 7) = true := by
    simp only [List.mem_cons, List.not_mem_nil, or_false] at hm
    simp
    omega
  rw [← w64_wrapN]
  exact congrArg Host.Outcome.next (issue_eff hi hrow rfl _)

theorem exec_shiftImm (hm : iMaj w.toNat = 0x06) (hkind : bits w.toNat 24 23 ≠ 3) (hz : bits w.toNat 31 25 = 0)
    (hi : Issues s c p [iRd w.toNat, iRs1 w.toNat] []) :
    exec (.shiftImm c p w) s = .next (s.retireX c p (iRd w.toNat)
      (if bits w.toNat 24 23 = 0 then (s.sp c p).xr (iRs1 w.toNat) <<< bits w.toNat 22 17
       else if bits w.toNat 24 23 = 1 then (s.sp c p).xr (iRs1 w.toNat) >>> bits w.toNat 22 17
       else ((s.sp c p).xr (iRs1 w.toNat)).sshiftRight (bits w.toNat 22 17))) := by
  refine congrArg Host.Outcome.next ((issue_eff hi (by simp [hm]) (by simp [hkind, hz]) _).trans ?_)
  generalize bits w.toNat 24 23 = kind
  match kind with
  | 0 => rfl
  | 1 => rfl
  | _ + 2 => rfl

theorem exec_lui (hm : iMaj w.toNat = 0x08) (hi : Issues s c p [iRd w.toNat] []) :
    exec (.lui c p w) s = .next (s.retireX c p (iRd w.toNat) (BitVec.ofInt 64 (iImm20 w.toNat * 4096))) := by
  rw [← w64_wrapN]
  exact congrArg Host.Outcome.next (issue_eff hi (by simp [hm]) rfl _)

end Arithmetic

/-- Settles O1: each row delivers one value to rd and retires. -/
theorem scalarArithmetic : Obligations.ScalarArithmetic := fun _ _ _ _ =>
  ⟨fun hm hf h3 hun hi => retires_of_retireX (exec_scalarRegOp hm hf h3 hun hi), fun hm hi => retires_of_retireX (exec_scalarImmOp hm hi),
    fun hm hkind hz hi => retires_of_retireX (exec_shiftImm hm hkind hz hi), fun hm hi => retires_of_retireX (exec_lui hm hi)⟩

/-! ### Results in the terms of bit vectors (R149) -/

/-- A bit of a number is the bit of its binary expansion. -/
theorem bitB_eq_testBit (x k : Nat) : bitB x k = x.testBit k := by
  rw [Nat.testBit_eq_decide_div_mod_eq, bitB, bitN, Nat.shiftRight_eq_div_pow]
  rfl

theorem bitB_toNat {n : Nat} (v : BitVec n) (k : Nat) : bitB v.toNat k = v.getLsbD k := bitB_eq_testBit v.toNat k

/-- The signed value of the low bits of a number is that of the bit vector which holds them. -/
theorem sext_eq_toInt (n x : Nat) : sext n x = (BitVec.ofNat n x).toInt := by
  simp only [sext, BitVec.toInt, BitVec.toNat_ofNat, Nat.mul_comm 2]

section Results

variable (x y : W64)

theorem mulHigh_signed : w64 (wrapN 64 (x.toInt * y.toInt / (2 ^ 64 : Nat))) =
    (x.signExtend 128 * y.signExtend 128).extractLsb' 64 64 := by
  apply BitVec.eq_of_toNat_eq
  have hprod : x.signExtend 128 * y.signExtend 128 = BitVec.ofInt 128 (x.toInt * y.toInt) := by
    apply BitVec.eq_of_toInt_eq
    rw [BitVec.toInt_mul, BitVec.toInt_signExtend_of_le (by norm_num), BitVec.toInt_signExtend_of_le (by norm_num), BitVec.toInt_ofInt]
  rw [hprod, w64_wrapN, BitVec.extractLsb'_toNat, BitVec.toNat_ofInt, BitVec.toNat_ofInt, Nat.shiftRight_eq_div_pow]
  norm_num
  omega

theorem mulHigh_unsigned : w64 (x.toNat * y.toNat / 2 ^ 64) = (x.zeroExtend 128 * y.zeroExtend 128).extractLsb' 64 64 := by
  apply BitVec.eq_of_toNat_eq
  have hx := x.isLt
  have hy := y.isLt
  have hlt : x.toNat * y.toNat < 2 ^ 128 := by nlinarith
  have hx' : x.toNat % 2 ^ 128 = x.toNat := by omega
  have hy' : y.toNat % 2 ^ 128 = y.toNat := by omega
  simp only [BitVec.extractLsb'_toNat, BitVec.toNat_mul, BitVec.truncate_eq_setWidth, BitVec.toNat_setWidth, hx', hy',
    Nat.mod_eq_of_lt hlt, BitVec.toNat_ofNat, Nat.shiftRight_eq_div_pow]

theorem divS_eq : divS x y = if y = 0 then BitVec.allOnes 64 else x.sdiv y := by
  unfold divS
  refine if_congr Iff.rfl rfl (BitVec.eq_of_toInt_eq ?_)
  rw [w64_wrapN, BitVec.toInt_ofInt, BitVec.toInt_sdiv]

theorem remS_eq : remS x y = if y = 0 then x else x.srem y := by
  unfold remS
  refine if_congr Iff.rfl rfl (BitVec.eq_of_toInt_eq ?_)
  rw [w64_wrapN, ← BitVec.toInt_srem, BitVec.ofInt_toInt]

theorem divU_eq : w64 (x.toNat / y.toNat) = x / y := BitVec.eq_of_toNat_eq (Nat.mod_eq_of_lt (x / y).isLt)

theorem remU_eq : w64 (x.toNat % y.toNat) = x % y := BitVec.eq_of_toNat_eq (Nat.mod_eq_of_lt (x % y).isLt)

theorem lt_eq_slt {α : Type} (a b : α) : (if x.toInt < y.toInt then a else b) = if x.slt y then a else b := by
  simp [BitVec.slt]

theorem lt_eq_ult {α : Type} (a b : α) : (if x.toNat < y.toNat then a else b) = if x.ult y then a else b := by
  simp [BitVec.ult]

theorem popN_eq_countP (n m : Nat) (v : BitVec m) : popN n v.toNat = (List.range n).countP (fun k => v.getLsbD k) := by
  unfold popN
  induction n with
  | zero => rfl
  | succ n ih =>
    have hbit : bitN v.toNat n = if v.getLsbD n then 1 else 0 := by
      rw [← bitB_toNat]
      rcases Nat.mod_two_eq_zero_or_one (v.toNat >>> n) with h | h <;> simp [bitB, bitN, h]
    rw [List.range_succ, List.map_append, List.sum_append, List.countP_append, ih]
    simp [hbit]

theorem clz64_eq : w64 (clz64 x.toNat) = x.clz := by
  by_cases hx : x = 0
  · subst hx
    decide
  have hlow := BitVec.two_pow_sub_clz_le_toNat_of_ne_zero (by norm_num) hx
  have hhigh := BitVec.toNat_lt_two_pow_sub_clz (x := x)
  have hne : x.toNat ≠ 0 := fun h => hx (BitVec.eq_of_toNat_eq h)
  have hlt : x.clz.toNat < 64 := BitVec.lt_def.1 (BitVec.clz_lt_iff_ne_zero.2 hx)
  have hlog : Nat.log2 x.toNat = 63 - x.clz.toNat := by
    refine (Nat.log2_eq_iff hne).2 ⟨hlow, ?_⟩
    rwa [show 63 - x.clz.toNat + 1 = 64 - x.clz.toNat by omega]
  apply BitVec.eq_of_toNat_eq
  rw [clz64, if_neg hne, hlog, BitVec.toNat_ofNat]
  omega

theorem ctz64_eq : w64 (ctz64 x.toNat) = x.ctz := by
  by_cases hx : x = 0
  · subst hx
    decide +kernel
  have hlt : x.ctz.toNat < 64 := BitVec.lt_def.1 (BitVec.ctz_lt_iff_ne_zero.2 hx)
  have hlow : lowBit 64 x.toNat = some x.ctz.toNat := by
    refine List.find?_range_eq_some.2 ⟨?_, List.mem_range.2 hlt, fun j hj => ?_⟩
    · rw [bitB_toNat]
      exact BitVec.getLsbD_true_ctz_of_ne_zero hx
    · rw [bitB_toNat, BitVec.getLsbD_false_of_lt_ctz hj]
      rfl
  rw [ctz64, hlow]
  exact BitVec.ofNat_toNat ..

theorem addWord_eq : w64 (wrapN 64 (sext 32 (x.toNat + y.toNat))) = ((x + y).truncate 32).signExtend 64 := by
  have hsum : BitVec.ofNat 32 (x.toNat + y.toNat) = (x + y).truncate 32 := by
    apply BitVec.eq_of_toNat_eq
    simp only [BitVec.toNat_ofNat, BitVec.truncate_eq_setWidth, BitVec.toNat_setWidth, BitVec.toNat_add]
    omega
  rw [w64_wrapN, sext_eq_toInt, hsum]
  rfl

end Results

/-- Settles O2. -/
theorem scalarResults : Obligations.ScalarResults := fun x y =>
  ⟨rfl, rfl, rfl, rfl, rfl, rfl, rfl, rfl, lt_eq_slt x y 1 0, lt_eq_ult x y 1 0, rfl, mulHigh_signed x y, mulHigh_unsigned x y,
    divS_eq x y, if_congr Iff.rfl rfl (divU_eq x y), remS_eq x y, if_congr Iff.rfl rfl (remU_eq x y),
    lt_eq_slt x y x y, lt_eq_slt x y y x, lt_eq_ult x y x y, lt_eq_ult x y y x, congrArg w64 (popN_eq_countP 64 64 x), clz64_eq x, ctz64_eq x,
    addWord_eq x y⟩

/-! ### Control transfer (R149) -/

section Control

variable {s : State} {c p : Nat} {w : W32}

/-- A retirement as a transfer to the next instruction. -/
theorem retire_eq_retireTo (s : State) (c p : Nat) : s.retire c p 4 = s.retireTo c p ((s.sp c p).pc + 4) := rfl

theorem exec_branch (hm : iMaj w.toNat = 0x0A) (hcond : iCond w.toNat ≤ 5) (hi : Issues s c p [iRd w.toNat, iRs1 w.toNat] []) :
    exec (.branch c p w) s = .next (s.retireTo c p ((s.sp c p).pc +
      (if condHolds (iCond w.toNat) ((s.sp c p).xr (iRd w.toNat)) ((s.sp c p).xr (iRs1 w.toNat))
       then BitVec.ofInt 64 (iImm12 w.toNat * 4) else 4))) := by
  refine congrArg Host.Outcome.next ((issue_eff hi (by simp [hm]) (by simp [hcond]) _).trans ?_)
  dsimp only
  rw [w64_addOff, retire_eq_retireTo]
  split <;> rfl

theorem exec_jal (hm : iMaj w.toNat = 0x0B) (hi : Issues s c p [iRd w.toNat] []) :
    exec (.jal c p w) s = .next ((s.modSp c p (fun u => u.setX (iRd w.toNat) (u.pc + 4))).retireTo c p
      ((s.sp c p).pc + BitVec.ofInt 64 (iImm20 w.toNat * 4))) := by
  rw [← w64_addOff]
  exact congrArg Host.Outcome.next (issue_eff hi (by simp [hm]) rfl _)

theorem exec_jalr (hm : iMaj w.toNat = 0x0C) (hi : Issues s c p [iRd w.toNat, iRs1 w.toNat] []) :
    exec (.jalr c p w) s = .next ((s.modSp c p (fun u => u.setX (iRd w.toNat) (u.pc + 4))).retireTo c p
      (BitVec.ofNat 64 (((s.sp c p).xr (iRs1 w.toNat) + BitVec.ofInt 64 (iImm15 w.toNat)).toNat / 4 * 4))) := by
  rw [← toNat_addOff]
  exact congrArg Host.Outcome.next (issue_eff hi (by simp [hm]) rfl _)

/-- A row that goes to `a` and changes nothing else. -/
theorem completes_retireTo {i : Instr} {a : W64} (h : exec i s = .next (s.retireTo c p a)) :
    Completes i s (fun t => OnlySp s t c p (cntRegs c) ∧ t.sp c p = { s.sp c p with pc := a }) :=
  ⟨_, h, onlySp_retireTo s c p a, sp_retireTo s c p a⟩

end Control

/-- Settles O3: a branch goes to its target or on, and the jumps write rd before they go. -/
theorem scalarControl : Obligations.ScalarControl := fun _ _ _ _ =>
  ⟨fun hm hcond hi => completes_retireTo (exec_branch hm hcond hi), fun hm hi => completes_of_retireTo (exec_jal hm hi),
    fun hm hi => completes_of_retireTo (exec_jalr hm hi)⟩

/-! ### Tile descriptor registers (R149) -/

section Descriptors

variable {s : State} {c p f lo : Nat} {w : W32} (hm : iMaj w.toNat = 0x0D) (hf : iF w.toNat = f) (h2 : iRs2 w.toNat = 0)
  (h3 : iRs3 w.toNat = 0)

include hm hf h2 h3

theorem retires_tdWrite {i : Instr} (hexec : exec i s = .next (tdWrite f lo c p w s)) (hd : iRd w.toNat < 16)
    (hi : Issues s c p [iRs1 w.toNat] []) : Retires i s c p ((s.sp c p).setT (iRd w.toNat)
      (BitVec.ofNat 128 (setBits ((s.sp c p).tr (iRd w.toNat)).toNat (lo + 63) lo ((s.sp c p).xr (iRs1 w.toNat)).toNat))) := by
  unfold tdWrite at hexec
  rw [issue_eff hi (by simp [hm, hf]) (by simp [hd, h2, h3])] at hexec
  exact retires_of_modSp hexec

theorem retires_tdRead {i : Instr} (hexec : exec i s = .next (tdRead f lo c p w s)) (hs : iRs1 w.toNat < 16)
    (hi : Issues s c p [iRd w.toNat] []) : Retires i s c p ((s.sp c p).setX (iRd w.toNat)
      (w64 (bits ((s.sp c p).tr (iRs1 w.toNat)).toNat (lo + 63) lo))) := by
  unfold tdRead at hexec
  rw [issue_eff hi (by simp [hm, hf]) (by simp [hs, h2, h3])] at hexec
  exact retires_of_retireX hexec

end Descriptors

/-- Settles O4: a write replaces one half of the register's word, a read delivers one half. -/
theorem tileDescriptorMoves : Obligations.TileDescriptorMoves := by
  intro s c p w hm h2 h3
  refine ⟨fun hf hd hi => ?wlo, fun hf hd hi => ?whi, fun hf hs hi => ?rlo, fun hf hs hi => ?rhi⟩
  case wlo =>
    rw [← lo_half]
    exact retires_tdWrite hm hf h2 h3 rfl hd hi
  case whi =>
    rw [← hi_half]
    exact retires_tdWrite hm hf h2 h3 rfl hd hi
  case rlo =>
    rw [← lo_read]
    exact retires_tdRead hm hf h2 h3 rfl hs hi
  case rhi =>
    rw [← hi_read]
    exact retires_tdRead hm hf h2 h3 rfl hs hi

end Sys2Proof.Proofs.Dexica


/-! PROOFS of ExceptionEntry and UnhandledException (R173, R174). -/

namespace Sys2Proof.Proofs.Dexica

open Sys2Proof Sys2Proof.Machine Sys2Proof.Laws Sys2Proof.Proofs.Scope Sys2Proof.Proofs.Array

/-- Settles O8: a precise exception is taken with the pc of its instruction saved. -/
theorem exceptionEntry : Obligations.ExceptionEntry := fun s c p cause _ hc hp hcause hinfo hen huser =>
  (enters_takeExc (e := ⟨cause, true, 0, 0, (s.sp c p).pc.toNat, _⟩) (lt_of_lt_of_le hc (Unit.cores_le s.variant)) hp hen huser
    (lt_of_lt_of_le hcause (by norm_num)) (s.sp c p).pc.isLt hinfo).1

/-! ### Event counters, and what is discarded of the gleaner's queue (R191, R221) -/

/-- The event counters lie past every register of a core. -/
def evtBase : Nat := 0x700100000

section Events

variable (s : State) (c : Nat) {g : Reg} {n i j : Nat}

theorem reg_addEvt (e k : Nat) (h : g.addr n i j < evtBase) : (s.addEvt e k).reg g n i j = s.reg g n i j := by
  have hne : g.addr n i j ≠ QUE_EVT.VALUE.reg.addr 0 e 0 := by
    simp only [QUE_EVT.VALUE, Reg.addr, Reg.place, UnitKind.base, evtBase] at h ⊢
    omega
  unfold State.addEvt
  dsimp only
  split
  · exact reg_wr_ne (f := QUE_EVT.VALUE) { s with steps := _ } hne _
  · exact reg_wr_ne (f := QUE_EVT.VALUE) s hne _

theorem regsBut_portEvent (p : Option Nat) : RegsBut s (s.portEvent c p) (cntRegs c) :=
  ((onlyRegs_count s c 0x42 p _).trans (onlyRegs_count _ c 0x43 p _)).regs

/-- A signal of an instruction's gleaner operation changes its event counter and the core's counters. -/
theorem sameStore_glnSignal (e : GlnEntry) : SameStore s (s.glnSignal c e) := by
  unfold State.glnSignal
  split
  · exact (sameStore_addEvt s _ 1).trans (sameStore_portEvent _ c _)
  · exact SameStore.refl s

theorem reg_glnSignal (e : GlnEntry) (h : g.addr n i j < evtBase) (hcnt : g.addr n i j ∉ cntRegs c) :
    (s.glnSignal c e).reg g n i j = s.reg g n i j := by
  unfold State.glnSignal
  split
  · rw [regsBut_portEvent _ c _ g n i j hcnt, reg_addEvt s _ 1 h]
  · rfl

/-- The entries that a test accepts are out of the core's queue, and have not signalled yet. -/
def glnDropped (f : GlnEntry → Bool) : State :=
  let out := (s.core c).gln.queue.filter f
  let t := s.modGln c (fun g => out.foldl (fun g e => g.owe e.id) { g with queue := g.queue.filter (fun e => !f e) })
  if out.isEmpty then t else t.touched c

theorem sameStore_glnDropped (f : GlnEntry → Bool) : ∃ x, SameStore (s.modGln c (fun _ => x)) (glnDropped s c f) := by
  unfold glnDropped
  dsimp only
  refine ⟨((s.core c).gln.queue.filter f).foldl (fun g e => g.owe e.id)
    { (s.core c).gln with queue := (s.core c).gln.queue.filter (fun e => !f e) }, ?_⟩
  split
  · exact ⟨rfl, rfl⟩
  · exact ⟨rfl, rfl⟩

theorem reg_glnDropped (f : GlnEntry → Bool) : (glnDropped s c f).reg g n i j = s.reg g n i j := by
  unfold glnDropped
  dsimp only
  split
  · rfl
  · rfl

/-- Entries that instructions made signal as they are discarded (R221). -/
theorem glnDiscard_eq {f : GlnEntry → Bool} (hf : ∀ e, f e = true → e.cmd = none) :
    s.glnDiscard c f = ((s.core c).gln.queue.filter f).foldl (fun s e => s.glnSignal c e) (glnDropped s c f) := by
  refine List.foldl_ext _ _ _ fun t e he => ?_
  rw [hf e (List.mem_filter.1 he).2]

/-- Discarding entries of instructions changes the core's gleaner alone, beside event counters and performance counters. -/
theorem sameStore_glnDiscard {f : GlnEntry → Bool} (hf : ∀ e, f e = true → e.cmd = none) :
    ∃ x, SameStore (s.modGln c (fun _ => x)) (s.glnDiscard c f) := by
  obtain ⟨x, hx⟩ := sameStore_glnDropped s c f
  rw [glnDiscard_eq s c hf]
  exact ⟨x, hx.trans (sameStore_foldl (fun t e => sameStore_glnSignal t c e) _ _)⟩

theorem reg_glnDiscard {f : GlnEntry → Bool} (hf : ∀ e, f e = true → e.cmd = none) (h : g.addr n i j < evtBase)
    (hcnt : g.addr n i j ∉ cntRegs c) : (s.glnDiscard c f).reg g n i j = s.reg g n i j := by
  have hsignals : ∀ (l : List GlnEntry) (t : State), (l.foldl (fun s e => s.glnSignal c e) t).reg g n i j = t.reg g n i j := by
    intro l
    induction l with
    | nil => exact fun t => rfl
    | cons e l ih => exact fun t => (ih _).trans (reg_glnSignal t c e h hcnt)
  rw [glnDiscard_eq s c hf, hsignals, reg_glnDropped]

end Events

/-! ### A core that halts (R174) -/

/-- A processor that stops, with the data of its outstanding loads delivered. -/
def haltedSp (u : Sp) : Sp :=
  { u.loads.foldl (fun u l => u.setX l.rd l.val) u with run := false, fetch := none, accWait := none, loads := [] }

/-- An array without the tile instructions and the loads that have not started. -/
def haltedArr (a : Arr) : Arr := { a with queue := [], loads := a.loads.filter (fun l => l.started || l.sp == 2) }

/-- A core that halts, before its gleaner's entries are discarded. -/
def haltedCore (k : Core) : Core :=
  { k with
    sp0 := haltedSp k.sp0
    sp1 := haltedSp k.sp1
    arr0 := haltedArr k.arr0
    arr1 := haltedArr k.arr1
    arr2 := haltedArr k.arr2
    arr3 := haltedArr k.arr3
    mover := k.mover.take 1 }

theorem sp_haltedCore (k : Core) (q : Nat) : (haltedCore k).sp q = haltedSp (k.sp q) := by
  unfold Core.sp
  split <;> rfl

theorem arr_haltedCore (k : Core) (a : Nat) : (haltedCore k).arr a = haltedArr (k.arr a) := by
  match a with
  | 0 => rfl
  | 1 => rfl
  | 2 => rfl
  | _ + 3 => rfl

section Halt

variable (s : State) (c : Nat) {g : Reg} {n i j : Nat}

theorem haltCore_eq : s.haltCore c = (s.modCore c haltedCore).glnDiscard c (fun e => e.cmd.isNone && !e.running) := rfl

theorem instruction_of_discarded (e : GlnEntry) (h : (e.cmd.isNone && !e.running) = true) : e.cmd = none :=
  Option.isNone_iff_eq_none.1 (Bool.and_eq_true_iff.1 h).1

/-- The core that halts, its gleaner apart, and memory. -/
theorem haltCore_store : (∃ x, (s.haltCore c).core c = { haltedCore (s.core c) with gln := x }) ∧ (s.haltCore c).mem = s.mem := by
  obtain ⟨x, hcores, hmem⟩ := sameStore_glnDiscard (s.modCore c haltedCore) c instruction_of_discarded
  rw [haltCore_eq]
  refine ⟨⟨x, ?_⟩, hmem⟩
  rw [Module.core_of_cores hcores, State.modGln, core_modCore_self, core_modCore_self]

theorem reg_haltCore (h : g.addr n i j < evtBase) (hcnt : g.addr n i j ∉ cntRegs c) : (s.haltCore c).reg g n i j = s.reg g n i j := by
  rw [haltCore_eq, reg_glnDiscard _ c instruction_of_discarded h hcnt, reg_modCore]

end Halt

/-! ### An exception that nothing handles -/

theorem mem_modCore (s : State) (c : Nat) (f : Core → Core) : (s.modCore c f).mem = s.mem := rfl

theorem mem_of_onlyTraced {s t : State} (h : OnlyTraced s t) : t.mem = s.mem := by
  rw [h]

section Unhandled

variable (s : State) (c p : Nat) (e : Exc)

/-- The module once an exception that is not handled is recorded, counted and traced, and its counters are frozen where they are to be. -/
def excRecorded : State :=
  let t := (s.fillExc c p e (s.sp c p).super true).count c 0x70 (some p) 1
  let t := if t.rdB OBS_CORE.EXC c then t.traceAdd c 5 e.cause (w64 e.epc) else t
  if t.rdB CNT_CTL.FREEZE c then t.wr CNT_CTL.EN 0 c else t

/-- The kernel's status becomes that of the exception, unless an earlier one stands. -/
def kernelAborted (k : Kernel) : Kernel := { k with bad := some (k.bad.getD (if e.cause = 9 then e.status else 0x18)) }

theorem takeExc_unhandled (h : s.rdB CORE_CTL.EXC_EN c = false ∨ (s.sp c p).super = true) :
    s.takeExc c p e = ((excRecorded s c p e).modCore c (fun k => { k with kernel := k.kernel.map (kernelAborted e) })).haltCore c := by
  have hun : (false || (s.sp c p).super || !s.rdB CORE_CTL.EXC_EN c) = true := by
    rcases h with h | h <;> simp [h]
  unfold State.takeExc
  simp only [hun, if_true]
  rfl

theorem onlyTraced_excRecorded : OnlyTraced s (excRecorded s c p e) := by
  have hcount : OnlyTraced s ((s.fillExc c p e (s.sp c p).super true).count c 0x70 (some p) 1) :=
    (onlyTraced_of_onlyRegs (onlyRegs_fillExc ..)).trans (onlyTraced_of_onlyRegs (onlyRegs_count ..))
  have htrace := fun t : State => onlyTraced_traceAdd t c 5 e.cause (w64 e.epc)
  have hfreeze := fun t : State => onlyTraced_of_onlyRegs (onlyRegs_wr t CNT_CTL.EN 0 c 0 0)
  unfold excRecorded
  dsimp only
  split <;> split
  · exact (hcount.trans (htrace _)).trans (hfreeze _)
  · exact hcount.trans (htrace _)
  · exact hcount.trans (hfreeze _)
  · exact hcount

theorem regsBut_excRecorded : RegsBut (s.fillExc c p e (s.sp c p).super true) (excRecorded s c p e)
    (Reg.addr .CNT_CTL c 0 0 :: Reg.addr .OBS_STAT 0 0 0 :: cntRegs c) := by
  have hcount := (onlyRegs_count (s.fillExc c p e (s.sp c p).super true) c 0x70 (some p) 1).regs.mono
    (m := Reg.addr .CNT_CTL c 0 0 :: Reg.addr .OBS_STAT 0 0 0 :: cntRegs c) fun _ ha => List.mem_cons_of_mem _ (List.mem_cons_of_mem _ ha)
  have htrace := fun t : State => (regsBut_traceAdd t c 5 e.cause (w64 e.epc)).mono
    (m := Reg.addr .CNT_CTL c 0 0 :: Reg.addr .OBS_STAT 0 0 0 :: cntRegs c) (by simp)
  have hfreeze := fun t : State => (onlyRegs_wr t CNT_CTL.EN 0 c 0 0).regs.mono
    (m := Reg.addr .CNT_CTL c 0 0 :: Reg.addr .OBS_STAT 0 0 0 :: cntRegs c) (by simp [CNT_CTL.EN])
  unfold excRecorded
  dsimp only
  split <;> split
  · exact (hcount.trans (htrace _)).trans (hfreeze _)
  · exact hcount.trans (htrace _)
  · exact hcount.trans (hfreeze _)
  · exact hcount

variable {s c p e}

theorem addr_of_core {g : Reg} {i : Nat} (hunit : g.place.unit = .core) :
    g.addr c i 0 = UnitKind.base .core c + (g.place.off + i * g.place.si) := by
  unfold Reg.addr
  rw [hunit]
  omega

theorem addr_cntCtl : Reg.addr .CNT_CTL c 0 0 = UnitKind.base .core c + 0x20000 := by
  simp only [Reg.addr, Reg.place, Nat.zero_mul, Nat.add_zero]

/-- A register of a core below its counters. -/
theorem addr_low {g : Reg} {i : Nat} (hc : c < 192) (hunit : g.place.unit = .core) (hoff : g.place.off + i * g.place.si < 0x20000) :
    g.addr c i 0 < evtBase ∧ g.addr c i 0 ∉ Reg.addr .CNT_CTL c 0 0 :: Reg.addr .OBS_STAT 0 0 0 :: cntRegs c := by
  have hcounted := addr_notMem_counted hc hunit (i := i) (by omega)
  have hctl : g.addr c i 0 ≠ Reg.addr .CNT_CTL c 0 0 := by
    rw [addr_of_core hunit, addr_cntCtl]
    omega
  refine ⟨?_, fun hm => (List.mem_cons.1 hm).elim hctl hcounted⟩
  rw [addr_of_core hunit, UnitKind.base, evtBase]
  omega

/-- What the exception's registers of the core take stands as the core halts. -/
theorem rd_takeExc_unhandled (hc : c < 192) (h : s.rdB CORE_CTL.EXC_EN c = false ∨ (s.sp c p).super = true) {f : Fld} {i : Nat}
    (hunit : f.reg.place.unit = .core) (hoff : f.reg.place.off + i * f.reg.place.si < 0x20000) :
    (s.takeExc c p e).rd f c i = (s.fillExc c p e (s.sp c p).super true).rd f c i := by
  obtain ⟨hlow, hother⟩ := addr_low hc hunit hoff
  have hcnt : f.reg.addr c i 0 ∉ cntRegs c := fun hm => hother (List.mem_cons_of_mem _ (List.mem_cons_of_mem _ hm))
  rw [takeExc_unhandled s c p e h, rd_of_reg ((reg_haltCore _ c hlow hcnt).trans (reg_modCore ..))]
  exact Module.rd_of_regsBut (regsBut_excRecorded s c p e) hother

/-- The core that halts is the core as it was, stopped, its kernel ended early, and memory is as it was. -/
theorem takeExc_unhandled_store (h : s.rdB CORE_CTL.EXC_EN c = false ∨ (s.sp c p).super = true) :
    (∃ x, (s.takeExc c p e).core c = { haltedCore (s.core c) with gln := x, kernel := (s.core c).kernel.map (kernelAborted e) }) ∧
      (s.takeExc c p e).mem = s.mem := by
  have hrec := onlyTraced_excRecorded s c p e
  obtain ⟨⟨x, hx⟩, hmem⟩ := haltCore_store
    ((excRecorded s c p e).modCore c (fun k => { k with kernel := k.kernel.map (kernelAborted e) })) c
  rw [takeExc_unhandled s c p e h]
  refine ⟨⟨x, ?_⟩, ?_⟩
  · rw [hx, core_modCore_self, Module.core_of_cores hrec.cores]
    rfl
  · exact hmem.trans ((mem_modCore _ c _).trans (mem_of_onlyTraced hrec))

end Unhandled

/-- Settles O9: the record stands in the exception's registers, and the core is as it was but for what halting it changes. -/
theorem unhandledException : Obligations.UnhandledException := by
  intro s c p cause info hcores hp hcause hne h
  have hc : c < 192 := lt_of_lt_of_le hcores (Unit.cores_le s.variant)
  set e : Exc := ⟨cause, true, 0, 0, (s.sp c p).pc.toNat, info⟩
  obtain ⟨⟨x, hcore⟩, hmem⟩ := takeExc_unhandled_store (e := e) h
  obtain ⟨hcau, -, -, -, -, hhalt⟩ := rd_fillExc_exc s c p e (s.sp c p).super true
  have hsp : ∀ q, (s.takeExc c p e).sp c q = haltedSp (s.sp c q) := fun q =>
    (congrArg (·.sp q) hcore).trans (sp_haltedCore (s.core c) q)
  have hrd : ∀ f : Fld, f.reg = .CORE_EXC ∨ f.reg = .CORE_EPC →
      (s.takeExc c p e).rd f c p = (s.fillExc c p e (s.sp c p).super true).rd f c p := fun f hf =>
    rd_takeExc_unhandled hc h (by rcases hf with hf | hf <;> rw [hf] <;> rfl)
      (by rcases hf with hf | hf <;> rw [hf] <;> simp only [Reg.place] <;> omega)
  refine ⟨fun q => ?_, fun a => ?_, ?_, ?_, ?_, ?_, ?_, hmem⟩
  · rw [State.precise, hsp]
    exact ⟨rfl, rfl, rfl⟩
  · exact (congrArg (fun k : Core => (k.arr a).queue) hcore).trans (congrArg Arr.queue (arr_haltedCore (s.core c) a))
  · rw [State.precise, hcore]
    rfl
  · rw [State.precise, hcore]
    unfold kernelAborted
    rw [if_neg hne]
  · exact (hrd _ (.inl rfl)).trans (hcau.trans (Nat.mod_eq_of_lt (lt_of_lt_of_le hcause (by norm_num))))
  · exact (hrd _ (.inl rfl)).trans hhalt
  · exact (hrd _ (.inr rfl)).trans ((rd_fillExc_epc ..).trans (Nat.mod_eq_of_lt (s.sp c p).pc.isLt))

end Sys2Proof.Proofs.Dexica


/-! PROOFS of SystemInstructions and FetchAndMarks (R140, R147, R148, R165, R166, R171, R173, R564). -/

namespace Sys2Proof.Proofs.Dexica

open Sys2Proof Sys2Proof.Machine Sys2Proof.Laws Sys2Proof.Proofs.Scope Sys2Proof.Proofs.Array

section System

variable {s : State} {c p : Nat} {w : W32}

/-! ### END and ERET (R166, R171) -/

theorem exec_endInstr (hm : iMaj w.toNat = 0x1F) (hf : iF w.toNat = 0) (h0 : bits w.toNat 26 7 = 0) (hi : Issues s c p [] [])
    (hpend : (s.sp c p).pend = []) :
    exec (.endInstr c p w) s = .next ((s.retire c p 4).modSp c p (fun u => { u with run := false, ended := true, pend := [] })) := by
  refine congrArg Host.Outcome.next ((issue_eff hi (isSys_of hm hf) (by simp [h0]) _).trans ?_)
  simp only [hpend]

theorem exec_eret (hm : iMaj w.toNat = 0x1F) (hf : iF w.toNat = 1) (h0 : bits w.toNat 26 7 = 0) (hi : Issues s c p [] [])
    (hsuper : (s.sp c p).super = true) :
    exec (.eret c p w) s =
      .next ((s.modSp c p (fun u => { u with super := false })).retireTo c p (w64 (s.rd CORE_EPC.PC c p))) := by
  refine congrArg Host.Outcome.next ((issue_eff hi (isSys_of hm hf) (by simp [h0]) _).trans ?_)
  simp only [hsuper, if_true]

/-- END leaves a processor that no exception waits for as it is, but ended. -/
theorem completes_endInstr (hpend : (s.sp c p).pend = [])
    (h : exec (.endInstr c p w) s = .next ((s.retire c p 4).modSp c p (fun u => { u with run := false, ended := true, pend := [] }))) :
    Completes (.endInstr c p w) s (fun t => OnlySp s t c p (cntRegs c) ∧
      t.sp c p = Sp.past { s.sp c p with run := false, ended := true } 4) := by
  refine ⟨_, h, (onlySp_retire s c p 4).trans (onlySp_modSp _ c p _ _), ?_⟩
  rw [sp_modSp_self, sp_retire]
  simp only [Sp.past, hpend]

/-! ### SUPCALL and BRK (R173) -/

/-- A system call or a breakpoint enters its handler, with the address of the next instruction saved. -/
theorem completes_call {i : Instr} {cause : Nat} (hc : c < s.variant.cores) (hp : p < 2) (hcause : cause < 256)
    (hen : s.rdB CORE_CTL.EXC_EN c = true) (huser : (s.sp c p).super = false)
    (h : exec i s = .next (s.takeExc c p ⟨cause, true, 0, 0, ((s.sp c p).pc + 4).toNat, 0⟩)) :
    Completes i s (fun t => Enters s t c p cause ((s.sp c p).pc + 4).toNat 0 true) :=
  ⟨_, h, (enters_takeExc (e := ⟨cause, true, 0, 0, ((s.sp c p).pc + 4).toNat, 0⟩) (lt_of_lt_of_le hc (Unit.cores_le s.variant)) hp hen
    huser hcause (BitVec.isLt _) (by norm_num)).1⟩

/-! ### PHASE (R165) -/

theorem dom_modDom_ne {i d : Nat} (h : d ≠ i) (f : Dom → Dom) : (s.modDom i f).dom d = s.dom d :=
  smap_get_upd_ne _ _ _ h

theorem exec_phase (hm : iMaj w.toNat = 0x1E) (hd : bits w.toNat 11 7 = 0) (hz : bits w.toNat 31 20 = 0) (hi : Issues s c p [] []) :
    exec (.phase c p w) s = .next ((if !s.rdB PWR_CFG.HINT_EN then s
      else if leadOk (bits w.toNat 17 12) then s.hintPend c (bits w.toNat 17 12) (bits w.toNat 19 18)
      else s.count c 0x61 (some p) 1).retire c p 4) :=
  congrArg Host.Outcome.next (issue_eff hi (by simp [hm]) (by simp [hd, hz]) _)

/-- A hint that the island takes. -/
theorem completes_phase_hint (hen : s.rdB PWR_CFG.HINT_EN = true) {lead level : Nat} (hlead : leadOk lead = true)
    (h : exec (.phase c p w) s = .next ((if !s.rdB PWR_CFG.HINT_EN then s
      else if leadOk lead then s.hintPend c lead level else s.count c 0x61 (some p) 1).retire c p 4)) :
    Completes (.phase c p w) s (fun t => t.sp c p = (s.sp c p).past 4 ∧
      t.dom c = { s.dom c with hint := some (level, s.now + lead * 1000), ramp := false } ∧
      (∀ i, i ≠ c → t.dom i = s.dom i) ∧ OnlySp { s with pwr := t.pwr } t c p (cntRegs c) ∧
      t.pwr = { s.pwr with doms := t.pwr.doms }) := by
  simp only [hen, hlead, Bool.not_true, Bool.false_eq_true, if_false, if_true] at h
  have honly := onlySp_retire (s.hintPend c lead level) c p 4
  have hpwr : ((s.hintPend c lead level).retire c p 4).pwr = (s.hintPend c lead level).pwr := by
    rw [honly.rest]
  have hdom : ∀ i, ((s.hintPend c lead level).retire c p 4).dom i = (s.hintPend c lead level).dom i := fun i =>
    congrArg (fun x : Pwr => x.doms.get {} i) hpwr
  refine ⟨_, h, sp_retire .., ?_, fun i hi => ?_, ?_, ?_⟩
  · rw [hdom]
    exact dom_modDom_self s c _
  · rw [hdom]
    exact dom_modDom_ne hi _
  · rw [hpwr]
    exact honly
  · rw [hpwr]
    rfl

/-- A hint that no island takes. -/
theorem retires_phase_void {lead level : Nat} (hno : s.rdB PWR_CFG.HINT_EN = false ∨ leadOk lead = false)
    (h : exec (.phase c p w) s = .next ((if !s.rdB PWR_CFG.HINT_EN then s
      else if leadOk lead then s.hintPend c lead level else s.count c 0x61 (some p) 1).retire c p 4)) :
    Retires (.phase c p w) s c p (s.sp c p) := by
  cases hen : s.rdB PWR_CFG.HINT_EN with
  | false => exact retires_of_retire (by simpa [hen] using h)
  | true =>
    have hlead : leadOk lead = false := hno.resolve_left (by simp [hen])
    simp only [hen, hlead, Bool.not_true, Bool.false_eq_true, if_false] at h
    exact ⟨_, h, sp_count_retire .., onlySp_count_retire ..⟩

end System

/-- Settles O10: each system instruction by its row. -/
theorem systemInstructions : Obligations.SystemInstructions := by
  intro s c p w hc hp hi
  refine ⟨fun hm h0 => ⟨fun hf hpend => ?_, fun hf hsuper => ?_, fun hf hen huser => ?_, fun hf hen huser => ?_⟩,
    fun hm hd hz => ⟨fun hen hlo hhi => ?_, fun hno => ?_⟩⟩
  · exact completes_endInstr hpend (exec_endInstr hm hf h0 hi hpend)
  · exact completes_of_retireTo (exec_eret hm hf h0 hi hsuper)
  · exact completes_call hc hp (by norm_num) hen huser
      (congrArg Host.Outcome.next (issue_eff hi (isSys_of hm hf) (by simp [h0]) _))
  · exact completes_call hc hp (by norm_num) hen huser
      (congrArg Host.Outcome.next (issue_eff hi (isSys_of hm hf) (by simp [h0]) _))
  · exact completes_phase_hint hen (by simp [leadOk, hlo, hhi]) (exec_phase hm hd hz hi)
  · exact retires_phase_void hno (exec_phase hm hd hz hi)

/-! ### Bytes as a number (R44) -/

/-- A byte of a number that bytes spell. -/
theorem lane_ofLe (d : List Byte) (k : Nat) : lane 8 (ofLe d) k = (nth d 0 k).toNat := by
  induction d generalizing k with
  | nil => simp [lane, ofLe, nth]
  | cons b d ih =>
    have hb := b.isLt
    cases k with
    | zero =>
      simp only [lane, ofLe, nth, Nat.shiftLeft_eq, Nat.mul_zero, Nat.shiftRight_zero, List.getElem?_cons_zero, Option.getD_some]
      omega
    | succ k =>
      rw [show nth (b :: d) 0 (k + 1) = nth d 0 k from rfl, ← ih k]
      simp only [lane, ofLe, Nat.shiftLeft_eq, Nat.shiftRight_eq_div_pow, show 8 * (k + 1) = 8 + 8 * k by ring, pow_add,
        ← Nat.div_div_eq_div_mul]
      rw [Nat.add_mul_div_right _ _ (by norm_num), Nat.div_eq_of_lt hb, Nat.zero_add]

/-- A byte of a line. -/
theorem extract_ofLe {n : Nat} (d : List Byte) {k : Nat} (h : 8 * k + 8 ≤ n) :
    (BitVec.ofNat n (ofLe d)).extractLsb' (8 * k) 8 = nth d 0 k := by
  have hmod : ofLe d % 2 ^ n / 2 ^ (8 * k) % 2 ^ 8 = ofLe d / 2 ^ (8 * k) % 2 ^ 8 := by
    rw [show n = 8 * k + (n - 8 * k) by omega, pow_add, Nat.mod_mul_right_div_self]
    exact Nat.mod_mod_of_dvd _ (pow_dvd_pow 2 (by omega))
  refine BitVec.eq_of_toNat_eq ((?_ : _ = lane 8 (ofLe d) k).trans (lane_ofLe d k))
  simp only [BitVec.extractLsb'_toNat, BitVec.toNat_ofNat, lane, Nat.shiftRight_eq_div_pow, hmod]

section Fetch

variable {s : State} {c p : Nat} {w : W32}

/-! ### ICI and TRACE.MARK (R166, R564) -/

/-- An instruction that changes its core beside its processor, then retires. -/
theorem core_modCore_past (s : State) (c p : Nat) (f : Core → Core) (n : Nat) :
    ((s.modCore c f).retire c p n).core c = (f (s.core c)).setSp p (((f (s.core c)).sp p).past n) := by
  rw [(onlySp_retire (s.modCore c f) c p n).core, sp_retire, State.sp, core_modCore_self]

theorem setSp_icache (k : Core) (p : Nat) (u : Sp) (l : List IcLine) : { k with icache := l }.setSp p u = { k.setSp p u with icache := l } := by
  unfold Core.setSp
  split <;> rfl

theorem sp_icache (k : Core) (p : Nat) (l : List IcLine) : { k with icache := l }.sp p = k.sp p := by
  unfold Core.sp
  split <;> rfl

theorem completes_ici (hm : iMaj w.toNat = 0x1F) (hf : iF w.toNat = 10) (h0 : bits w.toNat 26 7 = 0) (hi : Issues s c p [] []) :
    Completes (.ici c p w) s (fun t => t.core c = { (s.core c).setSp p (t.sp c p) with icache := [] } ∧
      t.sp c p = (s.sp c p).past 4 ∧ OnlyCore s t c (cntRegs c)) := by
  have hsp : ((s.modCore c (fun k => { k with icache := [] })).retire c p 4).sp c p = (s.sp c p).past 4 := by
    rw [sp_retire]
    exact congrArg (fun u => Sp.past u 4) ((congrArg (·.sp p) (core_modCore_self s c _)).trans (sp_icache _ p []))
  refine ⟨_, congrArg Host.Outcome.next (issue_eff hi (isSys_of hm hf) (by simp [h0]) _), ?_, hsp,
    (onlyCore_modCore s c _ _).trans (onlySp_retire _ c p 4).toOnlyCore⟩
  rw [hsp, core_modCore_past, setSp_icache, sp_icache]
  rfl

theorem exec_traceMark (hm : iMaj w.toNat = 0x1F) (hf : iF w.toNat = 8) (hd : iRd w.toNat = 0) (h2 : iRs2 w.toNat = 0)
    (h3 : iRs3 w.toNat = 0) (hi : Issues s c p [iRs1 w.toNat] []) :
    exec (.traceMarkInstr c p w) s = .next ((if s.rdB OBS_CORE.EN c
      then s.traceAdd c 1 p (w64 (bits ((s.sp c p).xr (iRs1 w.toNat)).toNat 31 0)) else s).retire c p 4) :=
  congrArg Host.Outcome.next (issue_eff hi (isSys_of hm hf) (by simp [hd, h2, h3]) _)

/-- The first word of a record: its type in the low byte, the time from bit 16 on (R564). -/
theorem traceRec_word (s : State) (u sub : Nat) (x : W64) : bits (Module.traceRec s u 1 sub x).1.toNat 7 0 = 1 ∧
    bits (Module.traceRec s u 1 sub x).1.toNat 63 16 = bits (s.timeAt (unitTime u)) 47 0 := by
  simp only [Module.traceRec, bits, BitVec.toNat_ofNat, Nat.shiftRight_eq_div_pow]
  omega

theorem completes_traceMark {x : W64} (hroom : (s.trace.get {} c).buf.length < traceRoom c)
    (h : exec (.traceMarkInstr c p w) s = .next ((if s.rdB OBS_CORE.EN c then s.traceAdd c 1 p x else s).retire c p 4)) :
    Completes (.traceMarkInstr c p w) s (fun t => t.sp c p = (s.sp c p).past 4 ∧
      t.core c = (s.core c).setSp p (t.sp c p) ∧ RegsBut s t (cntRegs c) ∧
      t = { s with csr := t.csr, cores := t.cores, trace := t.trace } ∧
      (s.rdB OBS_CORE.EN c = false → t.trace = s.trace) ∧
      (s.rdB OBS_CORE.EN c = true → ∃ r, (t.trace.get {} c).buf = (s.trace.get {} c).buf ++ [(r, x)] ∧
        bits r.toNat 7 0 = 1 ∧ bits r.toNat 63 16 = bits (s.timeAt (unitTime c)) 47 0)) := by
  cases hen : s.rdB OBS_CORE.EN c with
  | false =>
    simp only [hen, Bool.false_eq_true, if_false] at h
    have honly := onlySp_retire s c p 4
    refine ⟨_, h, sp_retire .., honly.core, honly.regs, ?_, fun _ => ?_, fun hno => absurd hno (by simp)⟩
    · rw [honly.rest]
    · rw [honly.rest]
  | true =>
    simp only [hen, if_true, Module.traceAdd_room hroom] at h
    set t : State := { s with trace := s.trace.set {} c { s.trace.get {} c with
      buf := (s.trace.get {} c).buf ++ [Module.traceRec s c 1 p x]
      oldest := if (s.trace.get {} c).buf.isEmpty then s.now else (s.trace.get {} c).oldest } } with ht
    have honly := onlySp_retire t c p 4
    have htrace : (t.retire c p 4).trace = t.trace := by
      rw [honly.rest]
    refine ⟨_, h, sp_retire .., honly.core, honly.regs, ?_, fun hno => absurd hno (by simp), fun _ => ⟨(Module.traceRec s c 1 p x).1, ?_, traceRec_word s c p x⟩⟩
    · rw [htrace]
      exact honly.rest
    · rw [htrace, ht, smap_get_set_self]
      rfl

/-! ### The instruction cache (R140) -/

theorem completes_fetchMiss {l : Nat} (hal : s.alive = true) (hrun : (s.sp c p).run = true) (hno : (s.sp c p).fetch = none)
    (hl : s.missLine c p = some l) :
    Completes (.instructionFetchMiss c p) s (fun t => t.sp c p = { s.sp c p with fetch := some l } ∧
      t.canIssue c p = false ∧ OnlySp s t c p (cntRegs c)) := by
  have hcount := onlyRegs_count (s.modSp c p (fun u => { u with fetch := some l })) c 0x07 (some p) 1
  have hsp : ((s.modSp c p (fun u => { u with fetch := some l })).count c 0x07 (some p) 1).sp c p = { s.sp c p with fetch := some l } :=
    (hcount.sp c p).trans (sp_modSp_self ..)
  refine ⟨_, ?_, hsp, ?_, (onlySp_modSp s c p _ _).trans (hcount.onlySp c p)⟩
  · show execInstructionFetchMiss c p s = _
    simp only [execInstructionFetchMiss, hal, hl, hrun, hno, Option.isNone_none, Bool.not_true, Bool.and_true, Bool.false_eq_true,
      if_false, if_true]
  · simp [State.canIssue, hsp]

/-- A line that fills stands in the instruction cache, whatever it displaces. -/
theorem icLine_of_icFill {k : Core} {ic : List IcLine} {x : IcLine} (h : k.icache = icFill ic x) : k.icLine x.line = some x := by
  simp [Core.icLine, icFill, h]

/-- The line that arrives fills the instruction cache, and its processor goes on. -/
def icArrive (s : State) (c p l : Nat) (d : BitVec 512) : State :=
  (s.modCore c (fun k => { k with icache := icFill k.icache ⟨l, d⟩ })).modSp c p (fun u => { u with fetch := none })

theorem icArrive_sp (s : State) (c p l : Nat) (d : BitVec 512) : (icArrive s c p l d).sp c p = { s.sp c p with fetch := none } := by
  rw [icArrive, sp_modSp_self, State.sp, core_modCore_self, sp_icache]
  rfl

theorem icArrive_core (s : State) (c p l : Nat) (d : BitVec 512) : (icArrive s c p l d).core c =
    { (s.core c).setSp p { s.sp c p with fetch := none } with icache := icFill (s.core c).icache ⟨l, d⟩ } := by
  rw [icArrive, (onlySp_modSp _ c p _ []).core, sp_modSp_self, core_modCore_self, setSp_icache, State.sp, core_modCore_self, sp_icache]
  rfl

theorem icArrive_ne (s : State) (c p l : Nat) (d : BitVec 512) {e : Nat} (h : e ≠ c) : (icArrive s c p l d).core e = s.core e :=
  (core_modCore_ne _ h _).trans (core_modCore_ne s h _)

theorem exec_lineArrival {l : Nat} (hal : s.alive = true) (hl : (s.sp c p).fetch = some l) :
    exec (.instructionLineArrival c p) s = .next (if inL s.variant (64 * l) 64 then
      icArrive (s.coreRead 1 c (64 * l) 64 0 false .scalar (some p)).st c p l
        (BitVec.ofNat 512 (ofLe (s.coreRead 1 c (64 * l) 64 0 false .scalar (some p)).data))
      else icArrive (s.freeWords 8).2 c p l (BitVec.ofNat 512 (packLanes 64 ((s.freeWords 8).1.map (·.toNat))))) := by
  show execInstructionLineArrival c p s = _
  simp only [execInstructionLineArrival, hal, hl, Bool.not_true, Bool.false_eq_true, if_false]
  split
  · rfl
  · rfl

theorem onlyLogs_freeWords (s : State) (n : Nat) : OnlyLogs s (s.freeWords n).2 := by
  induction n generalizing s with
  | zero => exact .refl s
  | succ n ih => exact OnlyLogs.trans (t := { s with free := s.free + 1 }) rfl (ih _)

/-- What is said of a line's arrival, of a state that differs from the one before in logs alone. -/
theorem icArrive_of_onlyLogs {t : State} (h : OnlyLogs s t) (l : Nat) (d : BitVec 512) :
    (icArrive t c p l d).sp c p = { s.sp c p with fetch := none } ∧ ((icArrive t c p l d).core c).icLine l = some ⟨l, d⟩ ∧
      (icArrive t c p l d).core c =
        { (s.core c).setSp p ((icArrive t c p l d).sp c p) with icache := ((icArrive t c p l d).core c).icache } ∧
      (icArrive t c p l d).mem = s.mem ∧ ∀ e, e ≠ c → (icArrive t c p l d).core e = s.core e := by
  have hsp : (icArrive t c p l d).sp c p = { s.sp c p with fetch := none } := by rw [icArrive_sp, h.sp]
  refine ⟨hsp, ?_, ?_, h.mem, fun e he => ?_⟩
  · rw [icArrive_core]
    exact icLine_of_icFill (ic := (t.core c).icache) (x := ⟨l, d⟩) (by rw [h.core])
  · rw [hsp, icArrive_core, h.core, h.sp]
  · rw [icArrive_ne t c p l d he, h.core]

theorem completes_lineArrival {l : Nat} (hal : s.alive = true) (hl : (s.sp c p).fetch = some l) :
    Completes (.instructionLineArrival c p) s (fun t => t.sp c p = { s.sp c p with fetch := none } ∧
      (∃ d, (t.core c).icLine l = some ⟨l, d⟩ ∧ (inL s.variant (64 * l) 64 = true →
        ∀ k, k < 64 → nth (SMap.range s.mem.loft 0 (64 * l) 64) 0 k = d.extractLsb' (8 * k) 8)) ∧
      t.core c = { (s.core c).setSp p (t.sp c p) with icache := (t.core c).icache } ∧ t.mem = s.mem ∧
      ∀ d, d ≠ c → t.core d = s.core d) := by
  have hexec := exec_lineArrival hal hl
  cases hin : inL s.variant (64 * l) 64 with
  | true =>
    rw [hin, if_pos rfl] at hexec
    have hlogs : OnlyLogs s (s.coreRead 1 c (64 * l) 64 0 false .scalar (some p)).st :=
      (onlyLogs_lRead s (64 * l) 64 .scalar).trans (onlyRegs_count _ c 0x42 (some p) 64).logs
    obtain ⟨hsp, hline, hcore, hmem, hother⟩ := icArrive_of_onlyLogs (c := c) (p := p) hlogs l
      (BitVec.ofNat 512 (ofLe (s.coreRead 1 c (64 * l) 64 0 false .scalar (some p)).data))
    refine ⟨_, hexec, hsp, ⟨_, hline, fun _ k hk => ?_⟩, hcore, hmem, hother⟩
    rw [extract_ofLe _ (by omega)]
    rfl
  | false =>
    rw [hin, if_neg Bool.false_ne_true] at hexec
    obtain ⟨hsp, hline, hcore, hmem, hother⟩ := icArrive_of_onlyLogs (c := c) (p := p) (onlyLogs_freeWords s 8) l
      (BitVec.ofNat 512 (packLanes 64 ((s.freeWords 8).1.map (·.toNat))))
    exact ⟨_, hexec, hsp, ⟨_, hline, fun h => absurd h (by simp)⟩, hcore, hmem, hother⟩

/-- A word that is no instruction takes ILLEGAL (R147, R148). -/
theorem exec_illegalInstruction (hun : majKnown (iMaj w.toNat) = false ∨ selUnknown w.toNat = true) (hcan : s.canIssue c p = true) :
    exec (.illegalInstruction c p w) s = .next (s.precise c p 1 w.toNat) := by
  have hrow : (!majKnown (iMaj w.toNat) || selUnknown w.toNat) = true := by
    rcases hun with h | h <;> simp [h]
  refine congrArg Host.Outcome.next ((issue_illegal hcan hrow rfl id).trans ?_)
  rw [word_mod]

end Fetch

/-- Settles O13: each row by its case. -/
theorem fetchAndMarks : Obligations.FetchAndMarks := fun _ _ _ _ =>
  ⟨completes_ici, fun hm hf hd h2 h3 hi hroom => completes_traceMark hroom (exec_traceMark hm hf hd h2 h3 hi),
    fun _ => completes_fetchMiss, fun _ => completes_lineArrival, fun hun hcan => ⟨_, exec_illegalInstruction hun hcan, rfl⟩⟩

end Sys2Proof.Proofs.Dexica


/-! PROOF of ScalarSynchronisation (R163, R250, R324 to R327). -/

namespace Sys2Proof.Proofs.Dexica

open Sys2Proof Sys2Proof.Machine Sys2Proof.Laws Sys2Proof.Proofs.Scope Sys2Proof.Proofs.Array

/-! ### Event counters (R250, R279) -/

section Events

variable {s : State} {c p e f : Nat}

theorem lt_of_mem_cntRegs {a : Nat} (hc : c < 192) (h : a ∈ cntRegs c) : a < evtBase := by
  obtain ⟨m, hm, ha⟩ := List.mem_flatMap.1 h
  have hm64 := List.mem_range.1 hm
  simp only [Reg.addr, Reg.place, UnitKind.base, List.mem_cons, List.not_mem_nil, or_false] at ha
  unfold evtBase
  omega

theorem addr_evt (e : Nat) : Reg.addr .QUE_EVT 0 e 0 = evtBase + 8 * e := by
  simp only [Reg.addr, Reg.place, UnitKind.base, evtBase]
  omega

/-- Counters of instructions are no event counters. -/
theorem evt_of_regsBut {t : State} (hc : c < 192) (h : RegsBut s t (cntRegs c)) (e : Nat) : t.evt e = s.evt e := by
  refine Module.rd_of_regsBut h fun hm => absurd (lt_of_mem_cntRegs hc hm) ?_
  rw [QUE_EVT.VALUE, addr_evt]
  omega

theorem evt_setEvt_self (s : State) (e v : Nat) : (s.setEvt e v).evt e = v % 2 ^ 32 :=
  rd_wr_self s QUE_EVT.VALUE v 0 e 0 (by decide) (by decide)

theorem evt_setEvt_ne (s : State) (v : Nat) (h : f ≠ e) : (s.setEvt e v).evt f = s.evt f := by
  refine rd_of_reg (reg_wr_ne s (f := QUE_EVT.VALUE) ?_ v)
  rw [QUE_EVT.VALUE, addr_evt, addr_evt]
  omega

/-- A counter takes what is added to it, and the others keep their values. -/
theorem evt_addEvt (s : State) (e k f : Nat) : (s.addEvt e k).evt f = if f = e then (s.evt e + k) % 2 ^ 32 else s.evt f := by
  have hsteps : ∀ u : State, u.csr = s.csr → (u.setEvt e ((u.evt e + k) % 2 ^ 32)).evt f =
      if f = e then (s.evt e + k) % 2 ^ 32 else s.evt f := by
    intro u hu
    have hevt : ∀ x, u.evt x = s.evt x := fun x => rd_of_reg (Module.reg_of_csr hu ..)
    split
    · next h => rw [h, evt_setEvt_self, hevt, Nat.mod_mod]
    · next h => rw [evt_setEvt_ne u _ h, hevt]
  unfold State.addEvt
  dsimp only
  split
  · exact hsteps _ rfl
  · exact hsteps s rfl

/-- Only control space, cores, the heads of queues and the count of steps may differ. -/
def OnlyEvts (s t : State) : Prop :=
  t = { s with csr := t.csr, cores := t.cores, steps := t.steps, que := { s.que with qs := t.que.qs } }

theorem OnlyEvts.trans {t u : State} (h : OnlyEvts s t) (g : OnlyEvts t u) : OnlyEvts s u := by
  unfold OnlyEvts at *
  rw [g, h]

theorem onlyEvts_of_onlySp {t : State} {l : List Nat} (h : OnlySp s t c p l) : OnlyEvts s t := by
  unfold OnlyEvts
  rw [h.rest]

theorem onlyEvts_addEvt (s : State) (e k : Nat) : OnlyEvts s (s.addEvt e k) := by
  unfold State.addEvt
  dsimp only
  split
  · rfl
  · rfl

/-- Event traffic, then the end of the instruction. -/
theorem onlySp_portEvent_retire (s : State) (c p : Nat) : OnlySp s ((s.portEvent c (some p)).retire c p 4) c p (cntRegs c) :=
  (((onlyRegs_count s c 0x42 (some p) _).trans (onlyRegs_count _ c 0x43 (some p) _)).onlySp c p).trans (onlySp_retire _ c p 4)

theorem sp_portEvent_retire (s : State) (c p : Nat) : ((s.portEvent c (some p)).retire c p 4).sp c p = (s.sp c p).past 4 := by
  rw [sp_retire, State.portEvent, (onlyRegs_count _ c 0x43 (some p) _).sp, (onlyRegs_count s c 0x42 (some p) _).sp]

end Events

/-! ### ACQ (R322, R327) -/

section Acquire

variable {s : State} {c p : Nat}

theorem gln_setSp (k : Core) (p : Nat) (u : Sp) : (k.setSp p u).gln = k.gln := by
  unfold Core.setSp
  split <;> rfl

/-- What the copy engines of base die `b` hold once they drop what they read ahead in a space. -/
def aheadDropped (s : State) (b space k : Nat) (js : List CopyJob) : List CopyJob :=
  if k / 4 = b then js.map (fun j => if copySpace s j.cmd = some space then { j with ahead := none } else j) else js

theorem copies_dropAhead (s : State) (b space k : Nat) :
    (s.dropAhead b space).que.copies.get [] k = aheadDropped s b space k (s.que.copies.get [] k) :=
  smap_get_mapDrop s.que.copies (fun _ => []) (aheadDropped s b space) k (by simp [aheadDropped])

/-- Of a space that is dropped, no copy on that base die has bytes read ahead. -/
theorem ahead_dropAhead (s : State) {b space k : Nat} (hk : k / 4 = b) {j : CopyJob}
    (hj : j ∈ (s.dropAhead b space).que.copies.get [] k) (hspace : copySpace s j.cmd = some space) : j.ahead = none := by
  rw [copies_dropAhead, aheadDropped, if_pos hk] at hj
  obtain ⟨i, -, hi⟩ := List.mem_map.1 hj
  split at hi
  · rw [← hi]
  · next hne => exact absurd (hi ▸ hspace) hne

/-- The copies that a core holds of a space are dropped. -/
def coreAcquired (p space : Nat) (k : Core) : Core :=
  if space = 2 then { k with gln := { k.gln with rc := [] } }
  else k.setSp p { k.sp p with vbuf := (k.sp p).vbuf.filter (fun e => e.1 / 0x10000000000 != space) }

theorem acquire_eq (s : State) (c p space : Nat) :
    s.acquire c p space = (s.modCore c (coreAcquired p space)).dropAhead (coreBdie c) space := by
  unfold State.acquire coreAcquired
  split
  · rfl
  · rfl

theorem sp_coreAcquired (p space : Nat) (k : Core) : (coreAcquired p space k).sp p =
    { k.sp p with vbuf := (k.sp p).vbuf.filter (fun e => space == 2 || e.1 / 0x10000000000 != space) } := by
  unfold coreAcquired
  split
  · next h =>
    have hsp : { k with gln := { k.gln with rc := [] } }.sp p = k.sp p := by
      unfold Core.sp
      split <;> rfl
    rw [hsp, h]
    simp
  · next h =>
    rw [sp_setSp_self, beq_false_of_ne h]
    rfl

theorem gln_coreAcquired (p space : Nat) (k : Core) : (coreAcquired p space k).gln =
    { k.gln with rc := if space = 2 then [] else k.gln.rc } := by
  unfold coreAcquired
  split
  · rfl
  · exact gln_setSp ..

theorem spad_coreAcquired (p space : Nat) (k : Core) : (coreAcquired p space k).spad = k.spad := by
  unfold coreAcquired
  split
  · rfl
  · exact setSp_spad ..

theorem acc_coreAcquired (p space : Nat) (k : Core) : (coreAcquired p space k).acc = k.acc := by
  unfold coreAcquired
  split
  · rfl
  · exact setSp_acc ..

/-- ACQ: the copies of its space are dropped, and the instruction retires. -/
theorem completes_acq {i : Instr} {space : Nat} (h : exec i s = .next ((s.acquire c p space).retire c p 4)) :
    Completes i s (fun t =>
      t.sp c p = Sp.past { s.sp c p with
        vbuf := (s.sp c p).vbuf.filter (fun e => space == 2 || e.1 / 0x10000000000 != space) } 4 ∧
      (t.core c).gln = { (s.core c).gln with rc := if space = 2 then [] else (s.core c).gln.rc } ∧
      (t.core c).spad = (s.core c).spad ∧ (t.core c).acc = (s.core c).acc ∧
      (∀ k j, k / 4 = coreBdie c → j ∈ t.que.copies.get [] k → copySpace s j.cmd = some space → j.ahead = none) ∧
      (∀ d, d ≠ c → t.core d = s.core d) ∧ RegsBut s t (cntRegs c) ∧
      t = { s with csr := t.csr, cores := t.cores, que := { s.que with copies := t.que.copies } }) := by
  rw [acquire_eq] at h
  set u := s.modCore c (coreAcquired p space) with hu
  have hcore : (u.dropAhead (coreBdie c) space).core c = coreAcquired p space (s.core c) := core_modCore_self s c _
  have honly := onlySp_retire (u.dropAhead (coreBdie c) space) c p 4
  have hret := honly.core
  rw [hcore] at hret
  have hque : ((u.dropAhead (coreBdie c) space).retire c p 4).que = (u.dropAhead (coreBdie c) space).que := by
    rw [honly.rest]
  refine ⟨_, h, ?_, ?_, ?_, ?_, fun k j hk hj hspace => ?_, fun d hd => ?_, honly.regs, ?_⟩
  · rw [sp_retire]
    exact congrArg (fun x => Sp.past x 4) ((congrArg (·.sp p) hcore).trans (sp_coreAcquired ..))
  · rw [hret, gln_setSp, gln_coreAcquired]
  · rw [hret, setSp_spad, spad_coreAcquired]
  · rw [hret, setSp_acc, acc_coreAcquired]
  · rw [hque] at hj
    exact ahead_dropAhead u hk hj hspace
  · exact (honly.cores d hd).trans (core_modCore_ne s hd _)
  · rw [hque]
    exact honly.rest

end Acquire

/-! ### The rows -/

section Rows

variable {s : State} {c p : Nat} {w : W32}

theorem exec_fenceL (hm : iMaj w.toNat = 0x1C) (hf : iF w.toNat = 0) (h0 : bits w.toNat 26 7 = 0) (hi : Issues s c p [] []) :
    exec (.fenceL c p w) s = .next (if s.fenced c p then s.retire c p 4 else s) :=
  congrArg Host.Outcome.next (issue_eff hi (by simp [hm, hf]) (by simp [h0]) _)

theorem exec_acq (hm : iMaj w.toNat = 0x1C) (hf : iF w.toNat = 1) (hd : iRd w.toNat ≤ 2) (h0 : bits w.toNat 26 12 = 0)
    (hi : Issues s c p [] []) : exec (.acq c p w) s = .next ((s.acquire c p (iRd w.toNat)).retire c p 4) :=
  congrArg Host.Outcome.next (issue_eff hi (by simp [hm, hf]) (by simp [hd, h0]) _)

theorem exec_evtWait (hm : iMaj w.toNat = 0x1C) (hf : iF w.toNat = 2) (hd : iRd w.toNat = 0) (h3 : iRs3 w.toNat = 0)
    (hi : Issues s c p [iRs1 w.toNat, iRs2 w.toNat] []) : exec (.evtWait c p w) s = .next
      (if bits ((s.sp c p).xr (iRs2 w.toNat)).toNat 31 0 ≤ s.evt (bits ((s.sp c p).xr (iRs1 w.toNat)).toNat 15 0)
        then (s.portEvent c (some p)).retire c p 4 else s) :=
  congrArg Host.Outcome.next (issue_eff hi (by simp [hm, hf]) (by simp [hd, h3]) _)

theorem exec_evtSig (hm : iMaj w.toNat = 0x1C) (hf : iF w.toNat = 3) (hd : iRd w.toNat = 0) (h3 : iRs3 w.toNat = 0)
    (hi : Issues s c p [iRs1 w.toNat, iRs2 w.toNat] []) (hfenced : s.fenced c p = true) : exec (.evtSig c p w) s = .next
      (((s.addEvt (bits ((s.sp c p).xr (iRs1 w.toNat)).toNat 15 0) (bits ((s.sp c p).xr (iRs2 w.toNat)).toNat 31 0)).portEvent c
        (some p)).retire c p 4) :=
  congrArg Host.Outcome.next ((issue_eff hi (by simp [hm, hf]) (by simp [hd, h3]) _).trans (if_pos hfenced))

theorem exec_fenceR (hm : iMaj w.toNat = 0x1C) (hf : iF w.toNat = 4) (h0 : bits w.toNat 26 7 = 0) (hi : Issues s c p [] []) :
    exec (.fenceR c p w) s = .next
      (if s.win.ops.any (fun o => o.srcid == c && o.sp == p && o.kind ≤ 3 && o.gln.isNone) then s else s.retire c p 4) :=
  congrArg Host.Outcome.next (issue_eff hi (by simp [hm, hf]) (by simp [h0]) _)

/-- EVT.SIG: its counter takes the sum, and its processor moves on. -/
theorem completes_evtSig {i : Instr} {e k : Nat} (hc : c < 192)
    (h : exec i s = .next (((s.addEvt e k).portEvent c (some p)).retire c p 4)) :
    Completes i s (fun t => t.sp c p = (s.sp c p).past 4 ∧
      (∀ f, f < 65536 → t.evt f = if f = e then (s.evt f + k) % 2 ^ 32 else s.evt f) ∧
      (t.core c) = (s.core c).setSp p (t.sp c p) ∧ (∀ d, d ≠ c → t.core d = s.core d) ∧
      t = { s with csr := t.csr, cores := t.cores, steps := t.steps, que := { s.que with qs := t.que.qs } }) := by
  have honly := onlySp_portEvent_retire (s.addEvt e k) c p
  have hcore : ∀ d, (s.addEvt e k).core d = s.core d := Module.core_of_cores (sameStore_addEvt s e k).1
  have hsp : (s.addEvt e k).sp c p = s.sp c p := congrArg (·.sp p) (hcore c)
  refine ⟨_, h, ?_, fun f _ => ?_, ?_, fun d hd => (honly.cores d hd).trans (hcore d), ?_⟩
  · rw [sp_portEvent_retire, hsp]
  · rw [evt_of_regsBut hc honly.regs, evt_addEvt]
    split
    · next hf => rw [hf]
    · rfl
  · rw [honly.core, hcore]
  · exact (onlyEvts_addEvt s e k).trans (onlyEvts_of_onlySp honly)

end Rows

/-- Settles O7: each instruction acts and retires, or waits, as its condition stands. -/
theorem scalarSynchronisation : Obligations.ScalarSynchronisation := by
  intro s c p w hm
  refine ⟨fun hf h0 hi => ?_, fun hf hd h0 hi => completes_acq (exec_acq hm hf hd h0 hi), fun hf hd h3 hi => ?_,
    fun hf hd h3 hi hc hfenced => completes_evtSig (lt_of_lt_of_le hc (Unit.cores_le s.variant)) (exec_evtSig hm hf hd h3 hi hfenced),
    fun hf h0 hi => ?_⟩
  · have hexec := exec_fenceL hm hf h0 hi
    constructor
    · intro h
      rw [if_pos h] at hexec
      exact retires_of_retire hexec
    · intro h
      rw [if_neg (Bool.eq_false_iff.1 h)] at hexec
      exact ⟨_, hexec, rfl⟩
  · have hexec := exec_evtWait hm hf hd h3 hi
    constructor
    · intro h
      rw [if_pos h] at hexec
      exact ⟨_, hexec, sp_portEvent_retire .., onlySp_portEvent_retire ..⟩
    · intro h
      rw [if_neg (Nat.not_le.2 h)] at hexec
      exact ⟨_, hexec, rfl⟩
  · have hexec := exec_fenceR hm hf h0 hi
    constructor
    · intro h
      rw [if_neg (Bool.eq_false_iff.1 h)] at hexec
      exact retires_of_retire hexec
    · intro h
      rw [if_pos h] at hexec
      exact ⟨_, hexec, rfl⟩

end Sys2Proof.Proofs.Dexica


/-! PROOFS of VectorLanewise, VectorMoves and PredicateInstructions (R139, R151). -/

namespace Sys2Proof.Proofs.Dexica

open Sys2Proof Sys2Proof.Machine Sys2Proof.Laws Sys2Proof.Proofs.Scope Sys2Proof.Proofs.Formats

/-! ### Rows by lane -/

/-- A row that computes by `vmOp` gives the codes of its operation. -/
theorem floatCodes_of_vmOp {row : Nat → Nat → W32 → Instr} {sel : Nat} {unary : Bool} {op : Nat → Nat → Nat → Nat}
    (hrow : ∀ c p w s, iMaj w.toNat = 0x2B → exec (row c p w) s = .next (vmOp sel unary op c p w s)) : FloatCodes row sel unary op := by
  intro s c p w hmaj hsel ht hun
  have hlegal : (decide (iT w.toNat ≤ 2) && (!unary || iRs2 w.toNat == 0)) = true := by
    cases unary with
    | false => simp [ht]
    | true => simp [ht, hun rfl]
  have hissue := hrow c p w s hmaj
  unfold vmOp at hissue
  refine vectorRow_of_issueV hissue (by simp [hmaj, hsel]) hlegal (fun hexec => ?_)
  simp only [sp_throttled] at hexec
  exact writesLanes_of_putV (vW_mul_vN _) hexec

/-- A row that computes by `viOp` gives the codes of its operation, where they agree modulo the lane's range. -/
theorem integerCodes_of_viOp {row : Nat → Nat → W32 → Instr} {sel : Nat} {code : Nat → Nat → Nat → Nat → Nat}
    {op : Nat → Nat → Nat → Nat} (hrow : ∀ c p w s, exec (row c p w) s = .next (viOp sel false code c p w s))
    (hop : ∀ n a b d, code n a b d % 2 ^ n = op n a b % 2 ^ n) : IntegerCodes row sel op := by
  intro s c p w hmaj hsel h3 h5
  have hissue := hrow c p w s
  unfold viOp at hissue
  refine vectorRow_of_issueV hissue (by simp [hmaj, hsel]) (by simp [h3, h5]) (fun hexec => ?_)
  simp only [sp_throttled] at hexec
  exact writesLanes_congr (writesLanes_of_putV (vW_mul_vN _) hexec) (fun k => ⟨hop _ _ _ _, rfl⟩)

/-! ### Signed lanes -/

theorem wrapN_lt (n : Nat) (x : ℤ) : wrapN n x < 2 ^ n := by
  have hpos : (0 : ℤ) < (2 ^ n : ℕ) := by positivity
  have hlt := Int.emod_lt_of_pos x hpos
  have hnn := Int.emod_nonneg x hpos.ne'
  unfold wrapN
  omega

/-- A code is the two's complement of its signed value. -/
theorem wrapN_sext {n x : Nat} (h : x < 2 ^ n) : wrapN n (sext n x) = x := by
  rw [← wrapN_of_modEq (sext_modEq n x).symm, Nat.mod_eq_of_lt h]

theorem iMin_nonpos (n : Nat) : iMin n ≤ 0 := neg_nonpos.2 (Int.natCast_nonneg _)

theorem iMax_nonneg (n : Nat) : 0 ≤ iMax n := by
  have hpos := Nat.two_pow_pos (n - 1)
  unfold iMax
  omega

theorem clampI_eq {lo hi : ℤ} (h : lo ≤ hi) (x : ℤ) : clampI lo hi x = max lo (min hi x) := by
  unfold clampI
  split
  · next hlo => rw [min_eq_right (hlo.le.trans h), max_eq_left hlo.le]
  · split
    · next hhi => rw [min_eq_left hhi.le, max_eq_right h]
    · next hlo hhi => rw [min_eq_right (not_lt.1 hhi), max_eq_right (not_lt.1 hlo)]

theorem code_max {n a b : Nat} (ha : a < 2 ^ n) (hb : b < 2 ^ n) :
    (if sext n a < sext n b then b else a) = wrapN n (max (sext n a) (sext n b)) := by
  split
  · next h => rw [max_eq_right h.le, wrapN_sext hb]
  · next h => rw [max_eq_left (not_lt.1 h), wrapN_sext ha]

theorem code_min {n a b : Nat} (ha : a < 2 ^ n) (hb : b < 2 ^ n) :
    (if sext n b < sext n a then b else a) = wrapN n (min (sext n a) (sext n b)) := by
  split
  · next h => rw [min_eq_right h.le, wrapN_sext hb]
  · next h => rw [min_eq_left (not_lt.1 h), wrapN_sext ha]

theorem satN_eq (n : Nat) (x : ℤ) : satN n x = wrapN n (max (iMin n) (min (iMax n) x)) :=
  congrArg (wrapN n) (clampI_eq ((iMin_nonpos n).trans (iMax_nonneg n)) x)

/-- A magnitude saturates at the upper end alone. -/
theorem satN_natAbs (n : Nat) (x : ℤ) : satN n x.natAbs = wrapN n (min |x| (iMax n)) := by
  have hlo : iMin n ≤ min (iMax n) |x| := (iMin_nonpos n).trans (le_min (iMax_nonneg n) (abs_nonneg x))
  rw [satN_eq, Int.natCast_natAbs, max_eq_right hlo, min_comm]

/-- A shift count read as a signed lane counts the same modulo a lane width that divides the lane's range. -/
theorem sext_emod {n : Nat} (hn : n ∈ [8, 16, 32]) (x : Nat) : (sext n x % (n : ℤ)).toNat = x % n := by
  have hdvd : (n : ℤ) ∣ (2 ^ n : ℕ) := by
    simp only [List.mem_cons, List.not_mem_nil, or_false] at hn
    rcases hn with rfl | rfl | rfl <;> norm_num
  have hmod : sext n x % (n : ℤ) = (x : ℤ) % n := (sext_modEq n x).of_dvd hdvd
  rw [hmod]
  exact Int.toNat_natCast (x % n)

/-- Settles O15: each row computes by `vmOp` or `viOp`, and its operation on codes is the one on signed lanes. -/
theorem vectorLanewise : Obligations.VectorLanewise := by
  refine ⟨floatCodes_of_vmOp fun _ _ _ _ h => congrArg Host.Outcome.next (if_pos h),
    integerLanes_of_viOp (fun _ _ _ _ h => congrArg Host.Outcome.next (if_neg (by omega)))
      fun n _ a b d ha hb _ => congrArg (· % 2 ^ n) (code_max ha hb),
    floatCodes_of_vmOp fun _ _ _ _ h => congrArg Host.Outcome.next (if_pos h),
    integerLanes_of_viOp (fun _ _ _ _ h => congrArg Host.Outcome.next (if_neg (by omega)))
      fun n _ a b d ha hb _ => congrArg (· % 2 ^ n) (code_min ha hb),
    floatCodes_of_vmOp fun _ _ _ _ h => congrArg Host.Outcome.next (if_pos h),
    integerLanes_of_viOp (fun _ _ _ _ h => congrArg Host.Outcome.next (if_neg (by omega)))
      fun n _ a b d _ _ _ => congrArg (· % 2 ^ n) (satN_natAbs n _),
    floatCodes_of_vmOp fun _ _ _ _ _ => rfl,
    integerLanes_of_viOp (fun _ _ _ _ _ => rfl) fun n _ a b d _ _ _ => congrArg (· % 2 ^ n) (satN_eq n _),
    integerLanes_of_viOp (fun _ _ _ _ _ => rfl) fun n _ a b d _ _ _ => congrArg (· % 2 ^ n) (satN_eq n _),
    integerCodes_of_viOp (fun _ _ _ _ => rfl) fun _ _ _ _ => rfl,
    integerCodes_of_viOp (fun _ _ _ _ => rfl) fun _ _ _ _ => rfl,
    integerCodes_of_viOp (fun _ _ _ _ => rfl) fun _ _ _ _ => rfl,
    integerCodes_of_viOp (fun _ _ _ _ => rfl) fun n a b d => ?shl,
    integerLanes_of_viOp (fun _ _ _ _ _ => rfl) fun n hn a b d _ _ _ => ?shra,
    integerCodes_of_viOp (fun _ _ _ _ => rfl) fun n a b d => ?shr⟩
  case shl => rw [Nat.mod_mod, Nat.shiftLeft_eq]
  case shra => rw [sext_emod hn, Nat.cast_pow, Nat.cast_ofNat]
  case shr => rw [Nat.shiftRight_eq_div_pow]

/-! ### Moves (R151) -/

section Rows

variable {i : Instr} {s : State} {c p : Nat}

/-- A row of the vector unit that changes its processor alone retires. -/
theorem retiresV_of_retireV {f : Sp → Sp} (h : exec i s = .next (((s.throttled c).2.modSp c p f).retireV c p)) :
    RetiresV i s c p (f (s.sp c p)) := by
  refine ⟨_, h, ?_, (onlySp_modSp _ c p f _).trans (onlySp_count_retire _ c p 0x06 1 4)⟩
  rw [State.retireV, sp_count_retire, sp_modSp_self, sp_throttled]

/-- A lane of a register of which one lane is replaced. -/
theorem lane_setBits {w j k : Nat} (x v : Nat) (hw : 0 < w) :
    lane w (setBits x (w * j + w - 1) (w * j) v) k = if k = j then v % 2 ^ w else lane w x k := by
  refine Nat.eq_of_testBit_eq fun b => ?_
  have hk : ∀ y, (lane w y k).testBit b = (decide (b < w) && y.testBit (w * k + b)) := fun y => by
    rw [lane, Nat.testBit_mod_two_pow, Nat.testBit_shiftRight]
  by_cases hb : b < w
  · have hin : w * j ≤ w * k + b ∧ w * k + b ≤ w * j + w - 1 ↔ k = j := by
      constructor
      · rintro ⟨h1, h2⟩
        have hlo : j < k + 1 := Nat.lt_of_mul_lt_mul_left (a := w) (by rw [Nat.mul_succ]; omega)
        have hhi : k < j + 1 := Nat.lt_of_mul_lt_mul_left (a := w) (by rw [Nat.mul_succ]; omega)
        omega
      · rintro rfl
        omega
    rw [hk, Module.testBit_setBits (by omega), if_congr hin rfl rfl]
    split
    · next hkj => simp [hkj, hb, Nat.testBit_mod_two_pow]
    · rw [hk]
  · split
    · rw [hk, Nat.testBit_mod_two_pow]
      simp [hb]
    · rw [hk, hk]
      simp [hb]

/-- A lane below bit `n` of a number cut to `n` bits. -/
theorem lane_mod {n w k : Nat} (x : Nat) (h : w * k + w ≤ n) : lane w (x % 2 ^ n) k = lane w x k := by
  refine Nat.eq_of_testBit_eq fun b => ?_
  simp only [lane, Nat.testBit_mod_two_pow, Nat.testBit_shiftRight]
  by_cases hb : b < w
  · rw [decide_eq_true (show w * k + b < n by omega), Bool.true_and]
  · simp [hb]

theorem lane_ofNat {n w k : Nat} (x : Nat) (h : w * k + w ≤ n) : lane w (BitVec.ofNat n x).toNat k = lane w x k := by
  rw [BitVec.toNat_ofNat, lane_mod x h]

/-- Every lane is active under a predicate of ones. -/
theorem bitB_allOnes {n k : Nat} (h : k < n) : bitB (BitVec.allOnes n).toNat k = true := by
  rw [bitB_toNat, BitVec.getLsbD_allOnes, decide_eq_true h]

theorem foldl_or_zero {α : Type} (l : List α) : l.foldl (fun (a : Nat) _ => a ||| 0) 0 = 0 := by
  induction l with
  | nil => rfl
  | cons _ l ih => rw [List.foldl_cons, Nat.or_zero, ih]

variable {vd w n : Nat} {f : Nat → Nat}

/-- A row that writes a register as a whole, with each lane given. -/
theorem writesLanes_all {old v : V1024} (hn : n ≤ 128) (h : exec i s = .next ((s.throttled c).2.putV c p vd (v, 0)))
    (hlane : ∀ k, k < n → lane w v.toNat k = f k % 2 ^ w) :
    WritesLanes i s c p vd w n (BitVec.allOnes 128) old (fun k => (f k, 0)) := by
  refine ⟨_, h, v, ?_, fun k hk => ?_, ?_, onlySp_putV _ c p vd _⟩
  · rw [sp_putV, sp_throttled]
  · rw [if_pos (bitB_allOnes (hk.trans_le hn)), hlane k hk]
  · rw [reg_putV, reg_throttled, foldl_or_zero]

end Rows

theorem vW_pos (t : Nat) : 0 < vW t := by
  unfold vW vFmt
  split <;> decide

theorem vN_le (t : Nat) : vN t ≤ 128 := by
  unfold vN vW vFmt
  split <;> decide

/-- A lane of a type lies in its register. -/
theorem lane_bound {t k : Nat} (h : k < vN t) : vW t * k + vW t ≤ 1024 :=
  (Nat.mul_succ _ _ ▸ Nat.mul_le_mul_left (vW t) h).trans (vW_mul_vN t)

section Moves

variable {s : State} {c p : Nat} {w : W32}

theorem vectorRow_vperm (ht : iT w.toNat ≤ 5) (hm : iMaj w.toNat = 0x24) (hf : iF4 w.toNat = 0) :
    VectorRow (.vperm c p w) s c p [] [iRd w.toNat, iRs1 w.toNat, iRs2 w.toNat] (WritesLanes (.vperm c p w) s c p (iRd w.toNat)
      (vW (iT w.toNat)) (vN (iT w.toNat)) ((s.sp c p).pr (iPg w.toNat)) ((s.sp c p).vr (iRd w.toNat)) (fun k =>
        (vLane (iT w.toNat) ((s.sp c p).vr (iRs1 w.toNat)) (vLane (iT w.toNat) ((s.sp c p).vr (iRs2 w.toNat)) k % vN (iT w.toNat)), 0))) := by
  refine vectorRow_of_issueV rfl (by simp [hm, hf]) (by simp [ht]) (fun hexec => ?_)
  simp only [sp_throttled] at hexec
  exact writesLanes_of_putV (vW_mul_vN _) hexec

theorem vectorRow_vsel (ht : iT w.toNat ≤ 5) (hm : iMaj w.toNat = 0x24) (hf : iF4 w.toNat = 1) :
    VectorRow (.vsel c p w) s c p [] [iRd w.toNat, iRs1 w.toNat, iRs2 w.toNat] (WritesLanes (.vsel c p w) s c p (iRd w.toNat)
      (vW (iT w.toNat)) (vN (iT w.toNat)) ((s.sp c p).pr (iPg w.toNat)) ((s.sp c p).vr (iRs2 w.toNat)) (fun k =>
        (vLane (iT w.toNat) ((s.sp c p).vr (iRs1 w.toNat)) k, 0))) := by
  refine vectorRow_of_issueV rfl (by simp [hm, hf]) (by simp [ht]) (fun hexec => ?_)
  simp only [sp_throttled] at hexec
  exact writesLanes_of_putV (vW_mul_vN _) hexec

theorem vectorRow_vbcast (ht : iT w.toNat ≤ 5) (hm : iMaj w.toNat = 0x29) (hf : iF4 w.toNat = 0) (h2 : iRs2 w.toNat = 0) :
    VectorRow (.vbcast c p w) s c p [iRs1 w.toNat] [iRd w.toNat] (WritesLanes (.vbcast c p w) s c p (iRd w.toNat) (vW (iT w.toNat))
      (vN (iT w.toNat)) ((s.sp c p).pr (iPg w.toNat)) ((s.sp c p).vr (iRd w.toNat))
      (fun _ => (((s.sp c p).xr (iRs1 w.toNat)).toNat, 0))) := by
  refine vectorRow_of_issueV rfl (by simp [hm, hf]) (by simp [ht, h2]) (fun hexec => ?_)
  simp only [sp_throttled] at hexec
  exact writesLanes_congr (writesLanes_of_putV (vW_mul_vN _) hexec) (fun _ => ⟨Nat.mod_mod _ _, rfl⟩)

theorem vectorRow_vext (ht : iT w.toNat ≤ 5) (hm : iMaj w.toNat = 0x29) (hf : iF4 w.toNat = 1) (hpg : iPg w.toNat = 0) :
    VectorRow (.vext c p w) s c p [iRd w.toNat, iRs2 w.toNat] [iRs1 w.toNat] (RetiresV (.vext c p w) s c p ((s.sp c p).setX (iRd w.toNat)
      (w64 (vLane (iT w.toNat) ((s.sp c p).vr (iRs1 w.toNat)) (((s.sp c p).xr (iRs2 w.toNat)).toNat % vN (iT w.toNat)))))) := by
  refine vectorRow_of_issueV rfl (by simp [hm, hf]) (by simp [ht, hpg]) (fun hexec => ?_)
  simp only [sp_throttled] at hexec
  exact (retiresV_of_retireV hexec :)

theorem vectorRow_vins (ht : iT w.toNat ≤ 5) (hm : iMaj w.toNat = 0x29) (hf : iF4 w.toNat = 2) (hpg : iPg w.toNat = 0) :
    VectorRow (.vins c p w) s c p [iRs1 w.toNat, iRs2 w.toNat] [iRd w.toNat] (WritesLanes (.vins c p w) s c p (iRd w.toNat)
      (vW (iT w.toNat)) (vN (iT w.toNat)) (BitVec.allOnes 128) ((s.sp c p).vr (iRd w.toNat)) (fun k =>
        (if k = ((s.sp c p).xr (iRs2 w.toNat)).toNat % vN (iT w.toNat) then ((s.sp c p).xr (iRs1 w.toNat)).toNat
          else vLane (iT w.toNat) ((s.sp c p).vr (iRd w.toNat)) k, 0))) := by
  refine vectorRow_of_issueV rfl (by simp [hm, hf]) (by simp [ht, hpg]) (fun hexec => ?_)
  simp only [sp_throttled] at hexec
  refine writesLanes_all (vN_le _) hexec fun k hk => ?_
  rw [lane_ofNat _ (lane_bound hk), lane_setBits _ _ (vW_pos _)]
  split
  · rfl
  · exact (Nat.mod_eq_of_lt (lane_lt ..)).symm

end Moves

/-- Settles O18: each move by its row. -/
theorem vectorMoves : Obligations.VectorMoves := fun _ _ _ _ ht =>
  ⟨fun hm => ⟨vectorRow_vperm ht hm, vectorRow_vsel ht hm⟩,
    fun hm => ⟨vectorRow_vbcast ht hm, vectorRow_vext ht hm, vectorRow_vins ht hm⟩⟩

/-! ### Predicates (R139, R151) -/

section Predicates

variable {s : State} {c p : Nat} {w : W32}

/-- A row that computes by `pOp` on two predicates. -/
theorem vectorRow_pOp {i : Instr} {sel : Nat} {unary : Bool} {op : V128 → V128 → V128} (hexec : exec i s = .next (pOp sel unary op c p w s))
    (hm : iMaj w.toNat = 0x2A) (h3 : iRs3 w.toNat = 0) (hd : iRd w.toNat < 8) (h1 : iRs1 w.toNat < 8) (hf : iF w.toNat = sel)
    (h2 : if unary then iRs2 w.toNat = 0 else iRs2 w.toNat < 8) : VectorRow i s c p [] []
      (RetiresV i s c p ((s.sp c p).setP (iRd w.toNat) (op ((s.sp c p).pr (iRs1 w.toNat)) ((s.sp c p).pr (iRs2 w.toNat))))) := by
  have hlegal : (decide (iRd w.toNat < 8) && decide (iRs1 w.toNat < 8) &&
      (if unary then iRs2 w.toNat == 0 else decide (iRs2 w.toNat < 8)) && iRs3 w.toNat == 0) = true := by
    cases unary with
    | false => simp_all
    | true => simp_all
  unfold pOp at hexec
  exact vectorRow_of_issueV hexec (by simp [hm, hf]) hlegal (fun h => (retiresV_of_retireV h :))

/-- The predicate with the lowest `k` bits set. -/
def firstBits (k : Nat) : V128 := BitVec.ofNat 128 (2 ^ min k 128 - 1)

theorem getLsbD_firstBits (k : Nat) {j : Nat} (hj : j < 128) : (firstBits k).getLsbD j = decide (j < k) := by
  have hlt : j < min k 128 ↔ j < k := by omega
  rw [firstBits, BitVec.getLsbD_ofNat, Nat.testBit_two_pow_sub_one, decide_eq_true hj, Bool.true_and]
  exact decide_eq_decide.2 hlt

theorem vectorRow_pfirst (hm : iMaj w.toNat = 0x2A) (h3 : iRs3 w.toNat = 0) (hf : iF w.toNat = 4) (hd : iRd w.toNat < 8)
    (h2 : iRs2 w.toNat = 0) : VectorRow (.pfirst c p w) s c p [iRs1 w.toNat] [] (RetiresV (.pfirst c p w) s c p
      ((s.sp c p).setP (iRd w.toNat) (firstBits ((s.sp c p).xr (iRs1 w.toNat)).toNat))) := by
  refine vectorRow_of_issueV rfl (by simp [hm, hf]) (by simp [hd, h2, h3]) (fun hexec => ?_)
  simp only [sp_throttled] at hexec
  exact (retiresV_of_retireV hexec :)

theorem vectorRow_pcount (hm : iMaj w.toNat = 0x2A) (h3 : iRs3 w.toNat = 0) (hf : iF w.toNat = 5) (h1 : iRs1 w.toNat < 8)
    (h2 : iRs2 w.toNat = 0) : VectorRow (.pcount c p w) s c p [iRd w.toNat] [] (RetiresV (.pcount c p w) s c p
      ((s.sp c p).setX (iRd w.toNat) (w64 ((List.range 128).countP (fun k => ((s.sp c p).pr (iRs1 w.toNat)).getLsbD k))))) := by
  refine vectorRow_of_issueV rfl (by simp [hm, hf]) (by simp [h1, h2, h3]) (fun hexec => ?_)
  have hret := retiresV_of_retireV hexec
  rwa [popN_eq_countP] at hret

end Predicates

/-- Settles O19: each predicate instruction by its row; `setP` is what ignores a write of p0. -/
theorem predicateInstructions : Obligations.PredicateInstructions := fun _ _ _ _ hm h3 =>
  ⟨fun hd h1 => ⟨fun hf h2 => vectorRow_pOp (unary := false) (op := fun a b => a &&& b) rfl hm h3 hd h1 hf h2,
      fun hf h2 => vectorRow_pOp (unary := false) (op := fun a b => a ||| b) rfl hm h3 hd h1 hf h2,
      fun hf h2 => vectorRow_pOp (unary := false) (op := fun a b => a ^^^ b) rfl hm h3 hd h1 hf h2,
      fun hf h2 => vectorRow_pOp (unary := true) (op := fun a _ => ~~~a) rfl hm h3 hd h1 hf h2⟩,
    fun hf hd h2 => ⟨_, fun _ => getLsbD_firstBits _, vectorRow_pfirst hm h3 hf hd h2⟩,
    fun hf h1 h2 => vectorRow_pcount hm h3 hf h1 h2⟩

end Sys2Proof.Proofs.Dexica


/-! PROOF of VectorReductions (R151, R152). -/

namespace Sys2Proof.Proofs.Dexica

open Sys2Proof Sys2Proof.Machine Sys2Proof.Laws Sys2Proof.Proofs.Scope Sys2Proof.Proofs.Formats

/-! ### Codes of the vector unit's floating formats fit their lanes -/

/-- FP32, BF16 and FP16, by their numbers. -/
def Vectored (f : Nat) : Prop := 12 ≤ f ∧ f ≤ 14

theorem vectored_vFmt {t : Nat} (h : t ≤ 2) : Vectored (vFmt t) := by
  unfold Vectored
  interval_cases t <;> decide

section Codes

variable {f : Nat} (hf : Vectored f)
include hf

theorem nanCode_lt : nanCode f < 2 ^ fmtBits f := by
  obtain ⟨h12, h14⟩ := hf
  interval_cases f <;> decide

theorem floating_of_vectored : Floating f := floating (le_trans (by norm_num) hf.1) hf.2

theorem withSign_inf_lt (neg : Bool) : (fpFmt f).withSign neg (fpFmt f).infCode < 2 ^ fmtBits f := by
  obtain ⟨h12, h14⟩ := hf
  interval_cases f <;> cases neg <;> decide

/-- A rounded number's code fits its format. -/
theorem roundsTo_lt {rm : Nat} {sat neg : Bool} {x : ℚ} {r : Fr} (h : RoundsTo f rm sat neg x r) : r.1 < 2 ^ fmtBits f := by
  by_cases hx : x = 0
  · rw [h.zero hx]
    exact withSign_lt (floating_of_vectored hf) (Nat.zero_le _) neg
  · rcases le_or_gt |roundNum f rm x| (maxNum f) with hle | hlt
    · exact (h.within hx hle).1
    · have hcode := (h.beyond hx hlt).2
      obtain ⟨h12, -⟩ := id hf
      rw [if_neg (show f ≠ 10 by omega)] at hcode
      rw [hcode]
      split
      · exact withSign_lt (floating_of_vectored hf) le_rfl neg
      · exact withSign_inf_lt hf neg

theorem encFp_lt (v : Val) : (encFp f 0 v).1 < 2 ^ fmtBits f := by
  obtain ⟨h12, h14⟩ := id hf
  cases v with
  | nan => exact nanCode_lt hf
  | inf n => exact withSign_inf_lt hf n
  | fin n m e => exact roundsTo_lt hf (roundFp_roundsTo (rm := 0) (by omega) h14 (by norm_num) false n m e)

theorem fpMax_lt {a b : Nat} (ha : a < 2 ^ fmtBits f) (hb : b < 2 ^ fmtBits f) : fpMax f a b < 2 ^ fmtBits f := by
  unfold fpMax
  split
  · exact nanCode_lt hf
  · exact nanCode_lt hf
  · split
    · exact hb
    · exact ha

theorem fpMin_lt {a b : Nat} (ha : a < 2 ^ fmtBits f) (hb : b < 2 ^ fmtBits f) : fpMin f a b < 2 ^ fmtBits f := by
  unfold fpMin
  split
  · exact nanCode_lt hf
  · exact nanCode_lt hf
  · split
    · exact hb
    · exact ha

end Codes

/-! ### The adding tree (R152) -/

section Tree

variable (f : Nat)

/-- Two codes added, and rounded to nearest. -/
def pairSum (a b : Nat) : Nat := (encFp f 0 (addVal 0 (fpVal f a) (fpVal f b)).1).1

theorem pairTree_succ (x : Nat → Nat) (l i : Nat) :
    pairTree f x (l + 1) i = pairSum f (pairTree f x l (2 * i)) (pairTree f x l (2 * i + 1)) := rfl

/-- The tree begins with the pairs of its leaves. -/
theorem pairTree_pairs (x : Nat → Nat) (l i : Nat) : pairTree f x (l + 1) i = pairTree f (pairTree f x 1) l i := by
  induction l generalizing i with
  | zero => rfl
  | succ l ih => rw [pairTree_succ, ih, ih, pairTree_succ]

/-- A tree depends on its leaves alone. -/
theorem pairTree_congr {x y : Nat → Nat} (l i : Nat) (h : ∀ k, k < 2 ^ l * (i + 1) → x k = y k) : pairTree f x l i = pairTree f y l i := by
  induction l generalizing i with
  | zero => exact h i (by omega)
  | succ l ih =>
    have hpow : 2 ^ (l + 1) * (i + 1) = 2 ^ l * (2 * i + 1 + 1) := by ring
    rw [hpow] at h
    rw [pairTree_succ, pairTree_succ, ih _ h, ih _ fun k hk => h k (hk.trans_le (Nat.mul_le_mul_left _ (by omega)))]

theorem pairSums_codes_length (l : List Nat) (n : Nat) (h : l.length = 2 * n) : (pairSums f l).length = n := by
  induction n generalizing l with
  | zero =>
    obtain rfl : l = [] := List.eq_nil_of_length_eq_zero h
    rfl
  | succ n ih =>
    match l, h with
    | a :: b :: r, h => exact congrArg (· + 1) (ih r (by simpa [Nat.mul_succ] using h))

theorem nth_pairSums (l : List Nat) (n k : Nat) (h : l.length = 2 * n) (hk : k < n) :
    nth ((pairSums f l).map (·.1)) 0 k = pairSum f (nth l 0 (2 * k)) (nth l 0 (2 * k + 1)) := by
  induction n generalizing l k with
  | zero => exact absurd hk (Nat.not_lt_zero k)
  | succ n ih =>
    match l, h with
    | a :: b :: r, h =>
      cases k with
      | zero => rfl
      | succ k => exact ih r k (by simpa [Nat.mul_succ] using h) (Nat.lt_of_succ_lt_succ hk)

/-- The adding tree over a list of 2^d codes. -/
theorem treeSum_eq (d : Nat) (l : List Nat) (h : l.length = 2 ^ d) : (treeSum f d l).1 = pairTree f (nth l 0) d 0 := by
  induction d generalizing l with
  | zero => rfl
  | succ d ih =>
    have hlen : l.length = 2 * 2 ^ d := by rw [h, pow_succ, Nat.mul_comm]
    have hpairs : ((pairSums f l).map (·.1)).length = 2 ^ d := by rw [List.length_map, pairSums_codes_length f l _ hlen]
    rw [pairTree_pairs]
    refine (ih _ hpairs).trans (pairTree_congr f d 0 fun k hk => ?_)
    exact nth_pairSums f l _ k hlen (by simpa using hk)

/-- A level over one code hands it on. -/
theorem treeSum_succ_of_length (d : Nat) (l : List Nat) (h : l.length = 2 ^ d) : (treeSum f (d + 1) l).1 = (treeSum f d l).1 := by
  induction d generalizing l with
  | zero =>
    match l, h with
    | [a], _ => rfl
  | succ d ih =>
    have hlen : l.length = 2 * 2 ^ d := by rw [h, pow_succ, Nat.mul_comm]
    exact ih _ (by rw [List.length_map, pairSums_codes_length f l _ hlen])

theorem pairTree_lt (hf : Vectored f) {x : Nat → Nat} (hx : ∀ k, x k < 2 ^ fmtBits f) (l i : Nat) : pairTree f x l i < 2 ^ fmtBits f := by
  cases l with
  | zero => exact hx i
  | succ l => exact encFp_lt hf _

end Tree

/-! ### A reduction's value -/

section Reduce

variable (t : Nat) (pg : V128) (v : V1024)

/-- The active lanes of a register, in order. -/
def actives : List Nat := (List.range (vN t)).filter (fun k => bitB pg.toNat k)

/-- A lane, or +0 where it is inactive. -/
def summand (k : Nat) : Nat := if bitB pg.toNat k then vLane t v k else 0

theorem summand_lt (k : Nat) : summand t pg v k < 2 ^ fmtBits (vFmt t) := by
  unfold summand
  split
  · exact lane_lt ..
  · exact Nat.two_pow_pos _

theorem nth_map_range (g : Nat → Nat) {n k : Nat} (h : k < n) : nth ((List.range n).map g) 0 k = g k := by
  simp [nth, h]

/-- The levels of the adding tree: 32 lanes of FP32, 64 of the other formats. -/
theorem vReduce_sum {t : Nat} (ht : t ≤ 2) : (vReduce t 0 pg v).1 = pairTree (vFmt t) (summand t pg v) (if t = 0 then 5 else 6) 0 := by
  have hred : (vReduce t 0 pg v).1 = (treeSum (vFmt t) 6 ((List.range (vN t)).map (summand t pg v))).1 := by
    unfold vReduce
    rw [if_pos ht]
    rfl
  have hlen : ((List.range (vN t)).map (summand t pg v)).length = 2 ^ (if t = 0 then 5 else 6) := by
    rw [List.length_map, List.length_range]
    interval_cases t <;> rfl
  have hleaf : ∀ d, vN t = 2 ^ d → pairTree (vFmt t) (nth ((List.range (vN t)).map (summand t pg v)) 0) d 0 =
      pairTree (vFmt t) (summand t pg v) d 0 := fun d hd =>
    pairTree_congr _ d 0 fun k hk => nth_map_range _ (by rw [hd]; simpa using hk)
  have hn : vN t = 2 ^ (if t = 0 then 5 else 6) := by simpa using hlen
  rw [hred]
  by_cases h0 : t = 0
  · simp only [h0, if_true] at hlen hn hleaf ⊢
    rw [treeSum_succ_of_length _ 5 _ hlen, treeSum_eq _ 5 _ hlen, hleaf 5 hn]
  · simp only [h0, if_false] at hlen hn hleaf ⊢
    rw [treeSum_eq _ 6 _ hlen, hleaf 6 hn]


theorem vReduce_max {t : Nat} (ht : t ≤ 2) : (vReduce t 1 pg v).1 =
    ((actives t pg).map (vLane t v)).foldl (fpMax (vFmt t)) ((fpFmt (vFmt t)).withSign true (fpFmt (vFmt t)).infCode) := by
  unfold vReduce
  rw [if_pos ht, List.foldl_map]
  rfl

theorem vReduce_min {t : Nat} (ht : t ≤ 2) : (vReduce t 2 pg v).1 =
    ((actives t pg).map (vLane t v)).foldl (fpMin (vFmt t)) ((fpFmt (vFmt t)).withSign false (fpFmt (vFmt t)).infCode) := by
  unfold vReduce
  rw [if_pos ht, List.foldl_map]
  rfl

/-- Codes that an operation keeps within a bound stay in it. -/
theorem foldl_lt {op : Nat → Nat → Nat} {b : Nat} (hop : ∀ x y, x < b → y < b → op x y < b) {l : List Nat} (hl : ∀ y ∈ l, y < b) {x : Nat}
    (hx : x < b) : l.foldl op x < b := by
  induction l generalizing x with
  | nil => exact hx
  | cons y l ih =>
    obtain ⟨hy, hl⟩ := List.forall_mem_cons.1 hl
    exact ih hl (hop x y hx hy)

/-- A floating reduction's code fits a lane. -/
theorem vReduce_lt {t op : Nat} (ht : t ≤ 2) (hop : op ≤ 2) : (vReduce t op pg v).1 < 2 ^ vW t := by
  have hf := vectored_vFmt ht
  have hlanes : ∀ y ∈ (actives t pg).map (vLane t v), y < 2 ^ vW t := by
    intro y hy
    obtain ⟨k, -, rfl⟩ := List.mem_map.1 hy
    exact lane_lt ..
  match op, hop with
  | 0, _ =>
    rw [vReduce_sum pg v ht]
    exact pairTree_lt _ hf (summand_lt t pg v) _ _
  | 1, _ =>
    rw [vReduce_max pg v ht]
    exact foldl_lt (fun x y => fpMax_lt hf) hlanes (withSign_inf_lt hf true)
  | 2, _ =>
    rw [vReduce_min pg v ht]
    exact foldl_lt (fun x y => fpMin_lt hf) hlanes (withSign_inf_lt hf false)

/-- An integer reduction begins at 0, or at the end of INT32 away from its result. -/
theorem vReduce_int {t op : Nat} (ht : 3 ≤ t) (hop : op ≤ 2) : (vReduce t op pg v).1 =
    wrapN 32 (((actives t pg).map (fun k => sext (vW t) (vLane t v k))).foldl
      (if op = 0 then (· + ·) else if op = 1 then max else min) (if op = 0 then 0 else if op = 1 then iMin 32 else iMax 32)) := by
  unfold vReduce
  rw [if_neg (by omega)]
  match op, hop with
  | 0, _ => rfl
  | 1, _ => rfl
  | 2, _ => rfl

theorem lane_of_lt {w k x : Nat} (h : x < 2 ^ (w * k)) : lane w x k = 0 := by
  rw [lane, Nat.shiftRight_eq_div_pow, Nat.div_eq_of_lt h, Nat.zero_mod]

theorem lane_zero_of_lt {w x : Nat} (h : x < 2 ^ w) : lane w x 0 = x := by
  rw [lane, Nat.mul_zero, Nat.shiftRight_zero, Nat.mod_eq_of_lt h]

end Reduce

section Rows

variable {s : State} {c p : Nat} {w : W32}

/-! ### VDOT (R151) -/

theorem dotSum_eq (n k : Nat) (a b : V1024) (i : Nat) :
    dotSum n k a b i = ((List.range k).map (fun j => sext n (lane n a.toNat (i * k + j)) * sext n (lane n b.toNat (i * k + j)))).sum := by
  rw [dotSum, List.sum_eq_foldl]

/-- A code and its signed value leave the same sum in a lane. -/
theorem wrapN_sext_add (n x : Nat) (y : ℤ) : wrapN n ((x : ℤ) + y) = wrapN n (sext n x + y) := by
  unfold wrapN
  rw [((sext_modEq n x).add_right y).eq]

theorem vectorRow_vdot (hm : iMaj w.toNat = 0x21) (hf : iF4 w.toNat = 15) (ht : iT w.toNat = 3 ∨ iT w.toNat = 4) {n : Nat}
    (hn : 32 / vW (iT w.toNat) = n) :
    VectorRow (.vdot c p w) s c p [] [iRd w.toNat, iRs1 w.toNat, iRs2 w.toNat]
      (WritesLanes (.vdot c p w) s c p (iRd w.toNat) 32 32 ((s.sp c p).pr (iPg w.toNat)) ((s.sp c p).vr (iRd w.toNat)) (fun k =>
        (wrapN 32 (sext 32 (lane 32 ((s.sp c p).vr (iRd w.toNat)).toNat k) + ((List.range n).map (fun j =>
          sext (vW (iT w.toNat)) (vLane (iT w.toNat) ((s.sp c p).vr (iRs1 w.toNat)) (k * n + j)) *
          sext (vW (iT w.toNat)) (vLane (iT w.toNat) ((s.sp c p).vr (iRs2 w.toNat)) (k * n + j)))).sum), 0))) := by
  have hlegal : (iT w.toNat == 3 || iT w.toNat == 4) = true := by
    rcases ht with h | h <;> simp [h]
  refine vectorRow_of_issueV rfl (by simp [hm, hf]) hlegal (fun hexec => ?_)
  simp only [sp_throttled] at hexec
  refine writesLanes_congr (writesLanes_of_putV (by norm_num) hexec) fun k => ⟨?_, rfl⟩
  rw [dotSum_eq, wrapN_sext_add, hn]
  rfl

/-! ### VCMP (R151) -/

/-- The number whose bits below `n` are those that hold. -/
def bitSum (g : Nat → Bool) (n : Nat) : Nat := ((List.range n).map (fun k => if g k then 2 ^ k else 0)).foldl (· + ·) 0

theorem bitSum_succ (g : Nat → Bool) (n : Nat) : bitSum g (n + 1) = (if g n then 2 ^ n else 0) + bitSum g n := by
  rw [bitSum, List.range_succ, List.map_append, List.foldl_append, Nat.add_comm]
  rfl

theorem bitSum_lt (g : Nat → Bool) (n : Nat) : bitSum g n < 2 ^ n := by
  induction n with
  | zero => exact Nat.one_pos
  | succ n ih =>
    rw [bitSum_succ, pow_succ]
    split <;> omega

theorem testBit_bitSum (g : Nat → Bool) {n k : Nat} (h : k < n) : (bitSum g n).testBit k = g k := by
  induction n with
  | zero => exact absurd h (Nat.not_lt_zero k)
  | succ n ih =>
    rw [bitSum_succ]
    rcases Nat.lt_succ_iff_lt_or_eq.1 h with hk | rfl
    · rw [← ih hk]
      split
      · exact Nat.testBit_two_pow_add_gt hk _
      · rw [Nat.zero_add]
    · split
      · next hg => rw [Nat.testBit_two_pow_add_eq, Nat.testBit_lt_two_pow (bitSum_lt g k), hg]; rfl
      · next hg => rw [Nat.zero_add, Nat.testBit_lt_two_pow (bitSum_lt g k), Bool.eq_false_iff.2 hg]

/-- The low bits of a predicate, whatever stands above them. -/
theorem bitB_low (g : Nat → Bool) (h : Nat) {n k : Nat} (hn : n ≤ 128) (hk : k < n) :
    bitB (BitVec.ofNat 128 (bitSum g n + h >>> n <<< n)).toNat k = g k := by
  rw [bitB_toNat, BitVec.getLsbD_ofNat, decide_eq_true (hk.trans_le hn), Bool.true_and, Nat.add_comm, Nat.shiftLeft_eq, Nat.mul_comm,
    Nat.testBit_two_pow_mul_add _ (bitSum_lt g n), if_pos hk, testBit_bitSum g hk]

theorem throttled_eq (s : State) (c : Nat) : (s.throttled c).2 = { s with free := (s.throttled c).2.free } := by
  unfold State.throttled
  split <;> rfl

/-- What retiring leaves where only the count of free values used has changed before. -/
theorem retireV_frame {u : State} (hu : u = { s with free := u.free }) (f : Sp → Sp) :
    ((u.modSp c p f).retireV c p).sp c p = (f (s.sp c p)).past 4 ∧
    ((u.modSp c p f).retireV c p).core c = (s.core c).setSp p (((u.modSp c p f).retireV c p).sp c p) ∧
    RegsBut s ((u.modSp c p f).retireV c p) (cntRegs c) ∧
    ((u.modSp c p f).retireV c p) = { s with
      csr := ((u.modSp c p f).retireV c p).csr, cores := ((u.modSp c p f).retireV c p).cores, free := ((u.modSp c p f).retireV c p).free } := by
  have honly : OnlySp u ((u.modSp c p f).retireV c p) c p (cntRegs c) :=
    (onlySp_modSp u c p f _).trans (onlySp_count_retire _ c p 0x06 1 4)
  have hcsr : u.csr = s.csr := by rw [hu]
  have hcores : u.cores = s.cores := by rw [hu]
  have hcore := Module.core_of_cores hcores
  refine ⟨?_, ?_, fun g n i j h => (honly.regs g n i j h).trans (Module.reg_of_csr hcsr g n i j), ?_⟩
  · refine (sp_count_retire _ c p 0x06 1 4).trans ?_
    rw [sp_modSp_self, State.sp, hcore]
    rfl
  · rw [honly.core, hcore]
  · generalize (u.modSp c p f).retireV c p = t at honly
    have hrest := honly.rest
    rw [hu] at hrest
    rw [hrest]

/-- VCMP as its lanes compare; what stands above them is free. -/
theorem completes_vcmp (g : Nat → Bool) (hg : g = fun k => bitB ((s.sp c p).pr (iPg w.toNat)).toNat k &&
      vCompare (iT w.toNat) (iF4 w.toNat) (vLane (iT w.toNat) ((s.sp c p).vr (iRs1 w.toNat)) k)
        (vLane (iT w.toNat) ((s.sp c p).vr (iRs2 w.toNat)) k)) {u : State} {h : Nat}
    (hexec : exec (.vcmp c p w) s = .next ((u.modSp c p (fun x =>
      x.setP (iRd w.toNat) (BitVec.ofNat 128 (bitSum g (vN (iT w.toNat)) + h >>> vN (iT w.toNat) <<< vN (iT w.toNat))))).retireV c p))
    (hu : u = { s with free := u.free }) :
    Completes (.vcmp c p w) s (fun t => ∃ q : V128,
      t.sp c p = ((s.sp c p).setP (iRd w.toNat) q).past 4 ∧
      (∀ k, k < vN (iT w.toNat) → bitB q.toNat k = (bitB ((s.sp c p).pr (iPg w.toNat)).toNat k &&
        vCompare (iT w.toNat) (iF4 w.toNat) (vLane (iT w.toNat) ((s.sp c p).vr (iRs1 w.toNat)) k)
          (vLane (iT w.toNat) ((s.sp c p).vr (iRs2 w.toNat)) k))) ∧
      t.core c = (s.core c).setSp p (t.sp c p) ∧ RegsBut s t (cntRegs c) ∧
      t = { s with csr := t.csr, cores := t.cores, free := t.free }) := by
  obtain ⟨hsp, hframe⟩ := retireV_frame (c := c) (p := p) hu (fun x =>
    x.setP (iRd w.toNat) (BitVec.ofNat 128 (bitSum g (vN (iT w.toNat)) + h >>> vN (iT w.toNat) <<< vN (iT w.toNat))))
  refine ⟨_, hexec, _, hsp, fun k hk => ?_, hframe⟩
  rw [bitB_low g h (vN_le _) hk, hg]

theorem vectorRow_vcmp (hm : iMaj w.toNat = 0x22) (hf : iF4 w.toNat ≤ 5) (ht : iT w.toNat ≤ 5) (hd : iRd w.toNat < 8) :
    VectorRow (.vcmp c p w) s c p [] [iRs1 w.toNat, iRs2 w.toNat] (Completes (.vcmp c p w) s (fun t => ∃ q : V128,
      t.sp c p = ((s.sp c p).setP (iRd w.toNat) q).past 4 ∧
      (∀ k, k < vN (iT w.toNat) → bitB q.toNat k = (bitB ((s.sp c p).pr (iPg w.toNat)).toNat k &&
        vCompare (iT w.toNat) (iF4 w.toNat) (vLane (iT w.toNat) ((s.sp c p).vr (iRs1 w.toNat)) k)
          (vLane (iT w.toNat) ((s.sp c p).vr (iRs2 w.toNat)) k))) ∧
      t.core c = (s.core c).setSp p (t.sp c p) ∧ RegsBut s t (cntRegs c) ∧
      t = { s with csr := t.csr, cores := t.cores, free := t.free })) := by
  refine vectorRow_of_issueV rfl (by simp [hm, hf]) (by simp [ht, hd]) (fun hexec => ?_)
  simp only [sp_throttled] at hexec
  refine completes_vcmp _ rfl hexec ?_
  rw [State.free64, State.free64, throttled_eq s c]

/-! ### The reductions (R152) -/

/-- A reduction that goes ahead: its value stands in lane 0, and lanes past its width are zero. -/
theorem vectorRow_vrOp {i : Instr} {op : Nat} (hexec : exec i s = .next (vrOp op c p w s)) (hm : iMaj w.toNat = 0x23)
    (hf : iF4 w.toNat = op) (ht : iT w.toNat ≤ 5) (h2 : iRs2 w.toNat = 0) {x : Nat}
    (hx : (vReduce (iT w.toNat) op ((s.sp c p).pr (iPg w.toNat)) ((s.sp c p).vr (iRs1 w.toNat))).1 = x) {n : Nat} (hlt : x < 2 ^ n)
    (hn : n ≤ 32) :
    VectorRow i s c p [] [iRd w.toNat, iRs1 w.toNat] (Completes i s (fun t =>
      t.sp c p = ((s.sp c p).setV (iRd w.toNat) (BitVec.ofNat 1024 x)).past 4 ∧
      lane n ((t.sp c p).vr (iRd w.toNat)).toNat 0 = x ∧
      (∀ k, n ≤ vW (iT w.toNat) * k → lane (vW (iT w.toNat)) ((t.sp c p).vr (iRd w.toNat)).toNat k = 0) ∧
      OnlySp (s.throttled c).2 t c p (Reg.addr .CORE_FPSTAT c 0 0 :: cntRegs c))) := by
  unfold vrOp at hexec
  refine vectorRow_of_issueV hexec (by simp [hm, hf]) (by simp [ht, h2]) (fun hexec => ?_)
  simp only [sp_throttled] at hexec
  have hput := sp_putV (s.throttled c).2 c p (iRd w.toNat) (BitVec.ofNat 1024 x,
    (vReduce (iT w.toNat) op ((s.sp c p).pr (iPg w.toNat)) ((s.sp c p).vr (iRs1 w.toNat))).2)
  rw [hx] at hexec
  rw [sp_throttled] at hput
  have hbig : x < 2 ^ 1024 := hlt.trans_le (Nat.pow_le_pow_right two_pos (hn.trans (by norm_num)))
  have hnat : (BitVec.ofNat 1024 x).toNat = x := (BitVec.toNat_ofNat x 1024).trans (Nat.mod_eq_of_lt hbig)
  have hvr : ((((s.sp c p).setV (iRd w.toNat) (BitVec.ofNat 1024 x)).past 4).vr (iRd w.toNat)).toNat = x :=
    (congrArg BitVec.toNat (smap_get_set_self ..)).trans hnat
  refine ⟨_, hexec, hput, ?_, fun k hk => ?_, onlySp_putV ..⟩
  · rw [hput, hvr, lane_zero_of_lt hlt]
  · rw [hput, hvr, lane_of_lt (hlt.trans_le (Nat.pow_le_pow_right two_pos hk))]

/-- A floating reduction delivers a code of its type. -/
theorem vectorRow_vrOp_float {i : Instr} {op : Nat} (hop : op ≤ 2) (hexec : exec i s = .next (vrOp op c p w s)) (hm : iMaj w.toNat = 0x23)
    (hf : iF4 w.toNat = op) (ht : iT w.toNat ≤ 2) (h2 : iRs2 w.toNat = 0) :
    VectorRow i s c p [] [iRd w.toNat, iRs1 w.toNat] (Completes i s (fun t =>
      t.sp c p = ((s.sp c p).setV (iRd w.toNat)
        (BitVec.ofNat 1024 (vReduce (iT w.toNat) op ((s.sp c p).pr (iPg w.toNat)) ((s.sp c p).vr (iRs1 w.toNat))).1)).past 4 ∧
      lane (vW (iT w.toNat)) ((t.sp c p).vr (iRd w.toNat)).toNat 0 =
        (vReduce (iT w.toNat) op ((s.sp c p).pr (iPg w.toNat)) ((s.sp c p).vr (iRs1 w.toNat))).1 ∧
      (∀ k, vW (iT w.toNat) ≤ vW (iT w.toNat) * k → lane (vW (iT w.toNat)) ((t.sp c p).vr (iRd w.toNat)).toNat k = 0) ∧
      OnlySp (s.throttled c).2 t c p (Reg.addr .CORE_FPSTAT c 0 0 :: cntRegs c))) :=
  vectorRow_vrOp hexec hm hf (by omega) h2 rfl (vReduce_lt _ _ ht hop) (by interval_cases iT w.toNat <;> decide)

/-- An integer reduction delivers an INT32. -/
theorem vectorRow_vrOp_int {i : Instr} {op : Nat} (hop : op ≤ 2) (hexec : exec i s = .next (vrOp op c p w s)) (hm : iMaj w.toNat = 0x23)
    (hf : iF4 w.toNat = op) (h3 : 3 ≤ iT w.toNat) (ht : iT w.toNat ≤ 5) (h2 : iRs2 w.toNat = 0) :
    VectorRow i s c p [] [iRd w.toNat, iRs1 w.toNat] (Completes i s (fun t =>
      t.sp c p = ((s.sp c p).setV (iRd w.toNat)
        (BitVec.ofNat 1024 (vReduce (iT w.toNat) op ((s.sp c p).pr (iPg w.toNat)) ((s.sp c p).vr (iRs1 w.toNat))).1)).past 4 ∧
      lane 32 ((t.sp c p).vr (iRd w.toNat)).toNat 0 =
        (vReduce (iT w.toNat) op ((s.sp c p).pr (iPg w.toNat)) ((s.sp c p).vr (iRs1 w.toNat))).1 ∧
      (∀ k, 32 ≤ vW (iT w.toNat) * k → lane (vW (iT w.toNat)) ((t.sp c p).vr (iRd w.toNat)).toNat k = 0) ∧
      OnlySp (s.throttled c).2 t c p (Reg.addr .CORE_FPSTAT c 0 0 :: cntRegs c))) :=
  vectorRow_vrOp hexec hm hf ht h2 rfl (by rw [vReduce_int _ _ h3 hop]; exact wrapN_lt ..) le_rfl

/-- The value of a floating reduction, operation by operation. -/
theorem vReduce_float {t op : Nat} (pg : V128) (v : V1024) (ht : t ≤ 2) (hop : op ≤ 2) : (vReduce t op pg v).1 =
    if op = 0 then pairTree (vFmt t) (summand t pg v) (if t = 0 then 5 else 6) 0
    else ((actives t pg).map (vLane t v)).foldl (if op = 1 then fpMax (vFmt t) else fpMin (vFmt t))
      ((fpFmt (vFmt t)).withSign (decide (op = 1)) (fpFmt (vFmt t)).infCode) := by
  match op, hop with
  | 0, _ => exact vReduce_sum pg v ht
  | 1, _ => exact vReduce_max pg v ht
  | 2, _ => exact vReduce_min pg v ht

theorem vectorRow_reduction {i : Instr} {op : Nat} (hop : op ≤ 2) (hexec : exec i s = .next (vrOp op c p w s)) (hm : iMaj w.toNat = 0x23)
    (hf : iF4 w.toNat = op) (ht : iT w.toNat ≤ 5) (h2 : iRs2 w.toNat = 0) :
    VectorRow i s c p [] [iRd w.toNat, iRs1 w.toNat] (Completes i s (fun t =>
      t.sp c p = ((s.sp c p).setV (iRd w.toNat)
        (BitVec.ofNat 1024 (vReduce (iT w.toNat) op ((s.sp c p).pr (iPg w.toNat)) ((s.sp c p).vr (iRs1 w.toNat))).1)).past 4 ∧
      (3 ≤ iT w.toNat → lane 32 ((t.sp c p).vr (iRd w.toNat)).toNat 0 =
        wrapN 32 (((actives (iT w.toNat) ((s.sp c p).pr (iPg w.toNat))).map (fun k =>
            sext (vW (iT w.toNat)) (vLane (iT w.toNat) ((s.sp c p).vr (iRs1 w.toNat)) k))).foldl
          (if op = 0 then (· + ·) else if op = 1 then max else min) (if op = 0 then 0 else if op = 1 then iMin 32 else iMax 32))) ∧
      (iT w.toNat ≤ 2 → lane (vW (iT w.toNat)) ((t.sp c p).vr (iRd w.toNat)).toNat 0 =
        if op = 0 then pairTree (vFmt (iT w.toNat)) (summand (iT w.toNat) ((s.sp c p).pr (iPg w.toNat)) ((s.sp c p).vr (iRs1 w.toNat)))
          (if iT w.toNat = 0 then 5 else 6) 0
        else ((actives (iT w.toNat) ((s.sp c p).pr (iPg w.toNat))).map (vLane (iT w.toNat) ((s.sp c p).vr (iRs1 w.toNat)))).foldl
          (if op = 1 then fpMax (vFmt (iT w.toNat)) else fpMin (vFmt (iT w.toNat)))
          ((fpFmt (vFmt (iT w.toNat))).withSign (decide (op = 1)) (fpFmt (vFmt (iT w.toNat))).infCode)) ∧
      (∀ k, 0 < k → k < vN (iT w.toNat) →
        lane (vW (iT w.toNat)) ((t.sp c p).vr (iRd w.toNat)).toNat k = 0 ∨ 3 ≤ iT w.toNat ∧ k * vW (iT w.toNat) < 32) ∧
      OnlySp (s.throttled c).2 t c p (Reg.addr .CORE_FPSTAT c 0 0 :: cntRegs c))) := by
  intro hi
  rcases Nat.lt_or_ge 2 (iT w.toNat) with h3 | hle
  · obtain ⟨hopen, hshut⟩ := vectorRow_vrOp_int hop hexec hm hf h3 ht h2 hi
    refine ⟨fun h => ?_, hshut⟩
    obtain ⟨t, ht', hsp, hlane, hzero, honly⟩ := hopen h
    refine ⟨t, ht', hsp, fun _ => hlane.trans (vReduce_int _ _ h3 hop), fun h2 => absurd h2 (by omega), fun k _ _ => ?_, honly⟩
    rcases Nat.lt_or_ge (k * vW (iT w.toNat)) 32 with hk | hk
    · exact .inr ⟨h3, hk⟩
    · exact .inl (hzero k (by rwa [Nat.mul_comm] at hk))
  · obtain ⟨hopen, hshut⟩ := vectorRow_vrOp_float hop hexec hm hf hle h2 hi
    refine ⟨fun h => ?_, hshut⟩
    obtain ⟨t, ht', hsp, hlane, hzero, honly⟩ := hopen h
    exact ⟨t, ht', hsp, fun h3 => absurd h3 (by omega), fun _ => hlane.trans (vReduce_float _ _ hle hop),
      fun k hk _ => .inl (hzero k (Nat.le_mul_of_pos_right _ hk)), honly⟩

end Rows

/-- Settles O17: dot products and comparisons lane by lane, and a reduction as its value's lane. -/
theorem vectorReductions : Obligations.VectorReductions := by
  intro s c p w
  refine ⟨fun hm hf ht => ?_, vectorRow_vcmp, fun op row hrow hm hf ht h2 => ?_⟩
  · refine vectorRow_vdot hm hf ht ?_
    rcases ht with h | h <;> rw [h] <;> rfl
  · simp only [List.mem_cons, List.not_mem_nil, or_false, Prod.mk.injEq] at hrow
    obtain ⟨rfl, rfl⟩ | ⟨rfl, rfl⟩ | ⟨rfl, rfl⟩ := hrow
    · exact vectorRow_reduction (by norm_num) rfl hm hf ht h2
    · exact vectorRow_reduction (by norm_num) rfl hm hf ht h2
    · exact vectorRow_reduction (by norm_num) rfl hm hf ht h2

end Sys2Proof.Proofs.Dexica


/-! PROOF of ScalarMemory (R125, R127, R149, R157, R173, R287, R323). -/

namespace Sys2Proof.Proofs.Dexica

open Sys2Proof Sys2Proof.Machine Sys2Proof.Laws Sys2Proof.Proofs.Scope Sys2Proof.Proofs.Array

/-! ### Upsets that an access meets (R302) -/

/-- Only fault marks of core `c` and of the memories may differ. -/
structure Marked (s t : State) (c : Nat) : Prop where
  rest : t = { s with cores := t.cores, mem := { s.mem with faults := t.mem.faults } }
  core : t.core c = { s.core c with faults := (t.core c).faults }
  cores : ∀ d, d ≠ c → t.core d = s.core d

theorem marked_mark (s : State) (space c : Nat) (ups : List Upset) : Marked s (s.mark space c ups) c := by
  unfold State.mark
  split
  · exact ⟨rfl, rfl, fun _ _ => rfl⟩
  · split
    · refine ⟨rfl, ?_, fun d hd => core_modCore_ne s hd _⟩
      unfold State.markSpad
      rw [core_modCore_self]
    · exact ⟨rfl, rfl, fun _ _ => rfl⟩
    · exact ⟨rfl, rfl, fun _ _ => rfl⟩

/-- Upsets in S-space are marked in the core. -/
theorem mem_mark_spad (s : State) (c : Nat) (ups : List Upset) : (s.mark 0 c ups).mem = s.mem := by
  unfold State.mark
  split <;> rfl

/-- Upsets in L-space are marked beside it. -/
theorem mark_loft_eq (s : State) (c : Nat) (ups : List Upset) :
    s.mark 1 c ups = { s with mem := { s.mem with faults := (s.mark 1 c ups).mem.faults } } := by
  unfold State.mark
  split <;> rfl

theorem memOk_mark {s : State} (h : s.memOk = true) (space c : Nat) (ups : List Upset) : (s.mark space c ups).memOk = true :=
  (kept_mark (Kept.refl s) space c ups).mem h

section Marked

variable {s t : State} {c : Nat} (h : Marked s t c)
include h

theorem Marked.sp (p : Nat) : t.sp c p = s.sp c p := by
  unfold State.sp
  rw [h.core]
  rfl

theorem Marked.spad : (t.core c).spad = (s.core c).spad := by rw [h.core]

theorem Marked.acc : (t.core c).acc = (s.core c).acc := by rw [h.core]

theorem Marked.moveBusy (p space a n : Nat) : t.moveBusy c p space a n = s.moveBusy c p space a n := by
  unfold State.moveBusy
  rw [h.core]

theorem Marked.csr : t.csr = s.csr := by rw [h.rest]

theorem Marked.variant : t.variant = s.variant := by rw [h.rest]

theorem Marked.accBusy (p : Option Nat) (a n : Nat) : t.accBusy c p a n = s.accBusy c p a n := by
  have harr : ∀ k, t.arr c k = s.arr c k := fun k => by
    unfold State.arr
    rw [h.core]
    rfl
  have howned : ∀ k, t.owned c k = s.owned c k := fun k => by
    unfold State.owned
    rw [rd_of_reg (Module.reg_of_csr h.csr ..)]
  unfold State.accBusy
  simp only [harr, howned]

end Marked

/-! ### An access that may not go ahead (R125, R127, R157, R173) -/

section Access

variable {u : State} {c p i space a n al : Nat} {bad : Bool} {eff : State → State}

theorem access_bad (h : bad = true) : u.access c p i space a n bad al eff = u.precise c p 4 a := if_pos h

theorem access_misaligned (h : bad = false) (hal : a % al ≠ 0) : u.access c p i space a n bad al eff = u.precise c p 3 a := by
  simp only [State.access, h, Bool.false_eq_true, if_false, if_pos hal]

theorem access_moving (h : bad = false) (hal : a % al = 0) (hmove : u.moveBusy c p space a n = true) :
    u.access c p i space a n bad al eff = u := by
  simp only [State.access, h, hal, hmove, Bool.false_eq_true, if_false, if_true, ne_eq, not_true]

theorem access_pending (h : bad = false) (hal : a % al = 0) (hmove : u.moveBusy c p space a n = false) (hspace : space = 0)
    (hbusy : u.accBusy c (some p) a n = true) :
    u.access c p i space a n bad al eff = u.modSp c p (fun u => { u with accWait := some (BitVec.ofNat 32 i) }) := by
  subst hspace
  simp [State.access, h, hal, hmove, hbusy]

theorem access_goes (h : bad = false) (hal : a % al = 0) (hmove : u.moveBusy c p space a n = false)
    (hidle : space = 0 → u.accBusy c (some p) a n = false) : u.access c p i space a n bad al eff = eff u := by
  have hwait : (space = 0 && u.accBusy c (some p) a n : Bool) = false := by
    by_cases hs : space = 0
    · simp [hs, hidle hs]
    · simp [hs]
  simp only [State.access, h, hal, hmove, hwait, Bool.false_eq_true, if_false, ne_eq, not_true]

/-- A row that makes an access takes no effect where the access may not go ahead. -/
theorem memoryGuards_of_access {r : Instr} {s : State} {w : W32} {Bad : Prop}
    (hexec : exec r s = .next (u.access c p w.toNat space a n bad al eff)) (hbad : bad = true ↔ Bad) :
    MemoryGuards r u c p w space a n al Bad s := by
  have hok : ¬Bad → bad = false := fun h => Bool.eq_false_iff.2 fun hb => h (hbad.1 hb)
  refine ⟨fun h => ⟨_, hexec, access_bad (hbad.2 h)⟩, fun h hal => ⟨_, hexec, access_misaligned (hok h) hal⟩,
    fun h hal hmove => ⟨_, hexec, access_moving (hok h) hal hmove⟩, fun h hal hmove hspace hbusy => ⟨_, hexec, ?_⟩⟩
  rw [access_pending (hok h) hal hmove hspace hbusy, BitVec.ofNat_toNat, BitVec.setWidth_eq]

end Access

theorem sBarred_iff {a n : Nat} : sBarred a n = true ↔ sEnd < a + n ∨ (accBase ≤ a ∧ (n < 4 ∨ a % n ≠ 0)) := by
  simp [sBarred, inS]

theorem not_inL_iff {v : Variant} {a n : Nat} : (!inL v a n) = true ↔ v.lEnd < a + n := by
  simp [inL]

/-! ### What accesses to S-space and L-space leave alone -/

/-- Only what the scratchpad and the accumulators of core `c` and L-space hold, fault marks, and logs may differ. -/
structure Stored (s t : State) (c : Nat) : Prop where
  rest : t = { s with
    csr := t.csr, cores := t.cores, trace := t.trace, halter := t.halter, free := t.free
    mem := { s.mem with loft := t.mem.loft, faults := t.mem.faults } }
  core : t.core c = { s.core c with spad := (t.core c).spad, acc := (t.core c).acc, faults := (t.core c).faults }
  cores : ∀ d, d ≠ c → t.core d = s.core d

section Stored

variable {s t v : State} {c : Nat}

theorem Stored.refl (s : State) (c : Nat) : Stored s s c := ⟨rfl, rfl, fun _ _ => rfl⟩

theorem Stored.trans (h : Stored s t c) (g : Stored t v c) : Stored s v c := by
  refine ⟨?_, ?_, fun d hd => (g.cores d hd).trans (h.cores d hd)⟩
  · rw [g.rest, h.rest]
  · rw [g.core, h.core]

theorem stored_of_onlyLogs (h : OnlyLogs s t) (c : Nat) : Stored s t c := by
  refine ⟨?_, ?_, fun d _ => h.core d⟩
  · rw [h.mem, h.cores]
    exact h
  · rw [h.core]

theorem Stored.sp (h : Stored s t c) (p : Nat) : t.sp c p = s.sp c p := by
  unfold State.sp
  rw [h.core]
  rfl

theorem Stored.hbm (h : Stored s t c) : t.mem.hbm = s.mem.hbm := by rw [h.rest]

theorem stored_spadWrite (s : State) (c a : Nat) (d : List Byte) : Stored s (s.spadWrite c a d) c := by
  refine ⟨rfl, ?_, fun d hd => core_modCore_ne s hd _⟩
  unfold State.spadWrite
  rw [core_modCore_self]

theorem stored_accWrite (s : State) (c w : Nat) (vs : List W32) (g : Agent) : Stored s (s.accWrite c w vs g) c := by
  have hmod : ∀ f : Core → Core, (∀ k, f k = { k with acc := (f k).acc, faults := (f k).faults }) → Stored s (s.modCore c f) c := by
    intro f hf
    refine ⟨rfl, ?_, fun d hd => core_modCore_ne s hd _⟩
    rw [core_modCore_self, hf]
  unfold State.accWrite
  dsimp only
  split
  · exact (hmod _ fun _ => rfl).trans (stored_of_onlyLogs (onlyLogs_wr ..) c)
  · exact hmod _ fun _ => rfl

/-- A write of S-space, before it is counted. -/
def sWriteCore (s : State) (c a : Nat) (d : List Byte) (g : Agent) : State :=
  let k := spadPart a d.length
  let s := if k = 0 then s else s.spadWrite c a (d.take k)
  if d.length ≤ k then s else s.accWrite c ((a + k - accBase) / 4) (words32 (d.drop k)) g

theorem sWrite_eq (s : State) (c a : Nat) (d : List Byte) (g : Agent) (p : Option Nat) :
    s.sWrite c a d g p = (sWriteCore s c a d g).count c 0x41 p d.length := rfl

theorem stored_sWriteCore (s : State) (c a : Nat) (d : List Byte) (g : Agent) : Stored s (sWriteCore s c a d g) c := by
  have hspad : Stored s (if spadPart a d.length = 0 then s else s.spadWrite c a (d.take (spadPart a d.length))) c := by
    split
    · exact .refl s c
    · exact stored_spadWrite ..
  unfold sWriteCore
  dsimp only
  split
  · exact hspad
  · exact hspad.trans (stored_accWrite ..)

theorem stored_sWrite (s : State) (c a : Nat) (d : List Byte) (g : Agent) (p : Option Nat) : Stored s (s.sWrite c a d g p) c :=
  (stored_sWriteCore ..).trans (stored_of_onlyLogs (onlyRegs_count ..).logs c)

theorem mem_sWrite (s : State) (c a : Nat) (d : List Byte) (g : Agent) (p : Option Nat) : (s.sWrite c a d g p).mem = s.mem := by
  have hcore : (sWriteCore s c a d g).mem = s.mem := by
    have hacc : ∀ (t : State) (w : Nat) (vs : List W32), (t.accWrite c w vs g).mem = t.mem := fun t w vs => by
      unfold State.accWrite
      dsimp only
      split <;> rfl
    unfold sWriteCore
    dsimp only
    split
    · split <;> rfl
    · rw [hacc]
      split <;> rfl
  rw [sWrite_eq, (onlyRegs_count ..).logs.mem, hcore]

/-- A write of S-space replaces the scratchpad bytes that it names, and no other. -/
theorem sWrite_spad (h : s.memOk = true) (a : Nat) (d : List Byte) (g : Agent) (p : Option Nat) (b : Nat) :
    SMap.get ((s.sWrite c a d g p).core c).spad 0 b =
      if a ≤ b ∧ b < a + d.length ∧ b < accBase then nth d 0 (b - a) else SMap.get (s.core c).spad 0 b := by
  have hpart : SMap.get ((if spadPart a d.length = 0 then s else s.spadWrite c a (d.take (spadPart a d.length))).core c).spad 0 b =
      if a ≤ b ∧ b < a + d.length ∧ b < accBase then nth d 0 (b - a) else SMap.get (s.core c).spad 0 b := by
    have hk : spadPart a d.length = min d.length (accBase - a) := rfl
    split
    · rw [if_neg (by omega)]
    · rw [spadWrite_spad h, List.length_take_of_le (by omega)]
      refine if_ctx_congr (by omega) (fun hb => ?_) (fun _ => rfl)
      rw [nth, nth, List.getElem?_take_of_lt (by omega)]
  rw [sWrite_eq, (onlyRegs_count ..).logs.core, sWriteCore]
  split
  · exact hpart
  · rw [accWrite_spad]
    exact hpart

/-- A write that stays below the accumulator range writes no accumulator word. -/
theorem sWrite_acc_of_spad (s : State) {a : Nat} {d : List Byte} (h : a + d.length ≤ accBase) (g : Agent) (p : Option Nat) :
    ((s.sWrite c a d g p).core c).acc = (s.core c).acc := by
  have hk : d.length ≤ spadPart a d.length := by
    unfold spadPart
    omega
  rw [sWrite_eq, (onlyRegs_count ..).logs.core, sWriteCore]
  rw [if_pos hk]
  split
  · rfl
  · exact spadWrite_acc ..

/-- A write of accumulator words replaces them, but for those of an array that the stook owns. -/
theorem sWrite_acc (h : s.memOk = true) {a : Nat} {d : List Byte} (ha : accBase ≤ a) (hd : 0 < d.length) (g : Agent) (p : Option Nat) (k : Nat) :
    SMap.get ((s.sWrite c a d g p).core c).acc 0 k =
      if (a - accBase) / 4 ≤ k ∧ k < (a - accBase) / 4 + (words32 d).length ∧ s.accBarred c k g = false
      then nth (words32 d) 0 (k - (a - accBase) / 4) else SMap.get (s.core c).acc 0 k := by
  have hk : spadPart a d.length = 0 := by
    unfold spadPart
    omega
  rw [sWrite_eq, (onlyRegs_count ..).logs.core, sWriteCore]
  rw [hk, if_pos rfl, if_neg (by omega), accWrite_acc h]
  rfl

end Stored


/-! ### Bytes and words of a register -/

/-- A byte of a register's bytes. -/
theorem nth_leBytes {n k : Nat} (v : W64) (hk : k < n) : nth (leBytes n v.toNat) 0 k = byteOf v k := by
  have hlen : k < (leBytes n v.toNat).length := by rwa [leBytes_length]
  rw [nth, List.getElem?_eq_getElem hlen, Option.getD_some, leBytes_get]
  rfl

/-- A word of a register's bytes. -/
theorem nth_words32_leBytes {n j : Nat} (v : W64) (hn : n = 4 ∨ n = 8) (hj : 4 * j < n) :
    nth (words32 (leBytes n v.toNat)) 0 j = v.extractLsb' (32 * j) 32 := by
  rcases hn with rfl | rfl
  · obtain rfl : j = 0 := by omega
    rw [words32_leBytes4]
    rfl
  · rw [words32_leBytes8]
    match j, hj with
    | 0, _ => rfl
    | 1, _ => rfl

theorem words32_leBytes_length {n : Nat} (x : Nat) (hn : n = 4 ∨ n = 8) : (words32 (leBytes n x)).length = n / 4 := by
  rcases hn with rfl | rfl
  · rw [words32_leBytes4]
    rfl
  · rw [words32_leBytes8]
    rfl

/-- A scalar access has 1, 2, 4 or 8 bytes. -/
theorem mSize_mem (i : Nat) : mSize i ∈ [1, 2, 4, 8] := by
  have hw : iW i < 4 := Nat.mod_lt _ (by norm_num)
  unfold mSize
  interval_cases iW i <;> decide

/-- An aligned access that R125 allows lies on one side of the start of the accumulator range, and on the far side has whole words. -/
theorem side_of_allowed {a n : Nat} (hn : n ∈ [1, 2, 4, 8]) (hbar : sBarred a n = false) (hal : a % n = 0) :
    a + n ≤ accBase ∨ accBase ≤ a ∧ (n = 4 ∨ n = 8) ∧ a % 4 = 0 := by
  have hbar : ¬(sEnd < a + n ∨ (accBase ≤ a ∧ (n < 4 ∨ a % n ≠ 0))) := fun h => Bool.eq_false_iff.1 hbar (sBarred_iff.2 h)
  simp only [List.mem_cons, List.not_mem_nil, or_false] at hn
  unfold accBase at hbar ⊢
  rcases hn with rfl | rfl | rfl | rfl <;> omega

section Rows

variable {s : State} {c p : Nat} {w : W32}

/-! ### LD.S -/

theorem exec_ldS (ups : List Upset) (hm : iMaj w.toNat = 0x10) (hi : Issues s c p [iRd w.toNat, iRs1 w.toNat] []) :
    exec (.ldS c p w ups) s = .next ((s.mark 0 c ups).access c p w.toNat 0 (mAddr (s.sp c p) w.toNat) (mSize w.toNat)
      (sBarred (mAddr (s.sp c p) w.toNat) (mSize w.toNat)) (mSize w.toNat) (ldSEff c p w.toNat)) :=
  congrArg Host.Outcome.next (issue_eff hi (by simp [hm]) rfl _)

/-- What `Goes` says of the state that a row finds, upsets marked, holds of the state it finds them in. -/
theorem access_of_goes {u : State} {space a n : Nat} {bad : Bool} {eff : State → State} (hu : Marked s u c) (hg : Goes s c p space a n)
    (hbad : bad = false) {i : Nat} : u.access c p i space a n bad n eff = eff u :=
  access_goes hbad hg.aligned ((hu.moveBusy ..).trans hg.free) (fun hs => (hu.accBusy ..).trans (hg.idle hs))

theorem completes_ldS {i : Instr} {u : State} {a n rd : Nat} {sx : Bool} (hu : Marked s u c) (hmem : u.mem = s.mem)
    (hexec : exec i s = .next ((u.sRead c a n .scalar (some p)).st.retireX c p rd
      (loadValue (u.sRead c a n .scalar (some p)).data sx))) :
    Completes i s (fun t =>
      (∃ d, t.sp c p = ((s.sp c p).setX rd (loadValue d sx)).past 4 ∧ d = (u.sRead c a n .scalar (some p)).data ∧
        (a + n ≤ accBase → d = SMap.range (s.core c).spad 0 a n)) ∧
      t.mem = s.mem ∧ (t.core c).spad = (s.core c).spad ∧ (t.core c).acc = (s.core c).acc ∧ ∀ d, d ≠ c → t.core d = s.core d) := by
  have hlogs := onlyLogs_sRead u c a n .scalar (some p)
  have hret := onlySp_retireX (u.sRead c a n .scalar (some p)).st c p rd (loadValue (u.sRead c a n .scalar (some p)).data sx)
  refine ⟨_, hexec, ⟨_, ?_, rfl, fun h => ?_⟩, ?_, ?_, ?_, fun d hd => ?_⟩
  · rw [sp_retireX, hlogs.sp, hu.sp]
  · rw [sRead_data_spad u c a n .scalar (some p) h, hu.spad]
  · rw [mem_of_onlyCore hret.toOnlyCore, hlogs.mem, hmem]
  · rw [hret.core, setSp_spad, hlogs.core, hu.spad]
  · rw [hret.core, setSp_acc, hlogs.core, hu.acc]
  · rw [hret.cores d hd, hlogs.core, hu.cores d hd]

/-! ### ST.S -/

theorem exec_stS (hm : iMaj w.toNat = 0x11) (hi : Issues s c p [iRd w.toNat, iRs1 w.toNat] []) :
    exec (.stS c p w) s = .next (s.access c p w.toNat 0 (mAddr (s.sp c p) w.toNat) (mSize w.toNat)
      (sBarred (mAddr (s.sp c p) w.toNat) (mSize w.toNat)) (mSize w.toNat) (stSEff c p w.toNat)) :=
  congrArg Host.Outcome.next (issue_eff hi (by simp [hm]) rfl _)

/-- An array of the stook's is out of a scalar processor's reach (R128). -/
theorem accBarred_scalar (k : Nat) : s.accBarred c k .scalar = s.owned c (k / 0x40000) := by
  have hagents : (Agent.scalar != Agent.stook) = true ∧ (Agent.scalar != Agent.pass) = true := ⟨rfl, rfl⟩
  rw [State.accBarred, hagents.1, hagents.2, Bool.and_true, Bool.and_true]

theorem completes_stS {i : Instr} {a n : Nat} {v : W64} (hm : s.memOk = true) (hn : n ∈ [1, 2, 4, 8]) (hbar : sBarred a n = false)
    (hal : a % n = 0) (hexec : exec i s = .next ((s.spStore c p 0 a (leBytes n v.toNat) .scalar).retire c p 4)) :
    Completes i s (fun t =>
      t.sp c p = ((s.sp c p).vbStore 0 a (leBytes n v.toNat)).past 4 ∧
      (∀ b, SMap.get (t.core c).spad 0 b =
        if a ≤ b ∧ b < a + n ∧ b < accBase then byteOf v (b - a) else SMap.get (s.core c).spad 0 b) ∧
      (∀ k, SMap.get (t.core c).acc 0 k =
        if a ≤ accBase + 4 * k ∧ accBase + 4 * k < a + n ∧ s.owned c (k / 0x40000) = false
        then v.extractLsb' (8 * (accBase + 4 * k - a)) 32 else SMap.get (s.core c).acc 0 k) ∧
      t.mem = s.mem ∧ ∀ d, d ≠ c → t.core d = s.core d) := by
  have hlen := leBytes_length n v.toNat
  have hst := stored_sWrite s c a (leBytes n v.toNat) .scalar (some p)
  have hmod := onlySp_modSp (s.sWrite c a (leBytes n v.toNat) .scalar (some p)) c p (fun u => u.vbStore 0 a (leBytes n v.toNat)) (cntRegs c)
  have hret := hmod.trans (onlySp_retire _ c p 4)
  refine ⟨_, hexec, ?_, fun b => ?_, fun k => ?_, ?_, fun d hd => ?_⟩
  · rw [sp_retire, State.spStore, sp_modSp_self]
    exact congrArg (fun u => Sp.past (Sp.vbStore u _ _ _) 4) (hst.sp p)
  · refine (congrArg (fun k : Core => SMap.get k.spad 0 b) hret.core).trans ?_
    rw [setSp_spad, sWrite_spad hm, hlen]
    refine if_ctx_congr Iff.rfl (fun hb => nth_leBytes v (by omega)) (fun _ => rfl)
  · refine (congrArg (fun x : Core => SMap.get x.acc 0 k) hret.core).trans ?_
    rw [setSp_acc]
    rcases side_of_allowed hn hbar hal with hlow | ⟨hhigh, hwords, h4⟩
    · rw [sWrite_acc_of_spad s (by rw [hlen]; exact hlow), if_neg (by omega)]
    · rw [sWrite_acc hm hhigh (by rw [hlen]; omega), words32_leBytes_length _ hwords]
      have hbase : accBase % 4 = 0 := rfl
      rw [accBarred_scalar]
      have hin : (a - accBase) / 4 ≤ k ∧ k < (a - accBase) / 4 + n / 4 ↔ a ≤ accBase + 4 * k ∧ accBase + 4 * k < a + n := by omega
      refine if_ctx_congr (by rw [← and_assoc, hin, and_assoc]) (fun hk => ?_) (fun _ => rfl)
      rw [nth_words32_leBytes v hwords (by omega)]
      congr 1
      omega
  · exact (mem_of_onlyCore hret.toOnlyCore).trans (mem_sWrite ..)
  · exact (hret.cores d hd).trans (hst.cores d hd)

/-! ### LD.L and ST.L -/

theorem exec_ldL (ups : List Upset) (hm : iMaj w.toNat = 0x12) (hi : Issues s c p [iRd w.toNat, iRs1 w.toNat] []) :
    exec (.ldL c p w ups) s = .next ((s.mark 1 c ups).access c p w.toNat 1 (mAddr (s.sp c p) w.toNat) (mSize w.toNat)
      (!inL s.variant (mAddr (s.sp c p) w.toNat) (mSize w.toNat)) (mSize w.toNat) (fun t =>
        ((t.coreRead 1 c (mAddr (s.sp c p) w.toNat) (mSize w.toNat) 0 false .scalar (some p)).st.modSp c p (fun u =>
          { u with loads := u.loads ++ [⟨iRd w.toNat, loadValue (t.coreRead 1 c (mAddr (s.sp c p) w.toNat) (mSize w.toNat) 0 false
            .scalar (some p)).data (iSx w.toNat)⟩] })).retire c p 4)) :=
  congrArg Host.Outcome.next (issue_eff hi (by simp [hm]) rfl _)

/-- A load of L-space becomes outstanding, with what its bytes read as. -/
theorem completes_ldL {i : Instr} {u : State} {a n rd : Nat} {sx : Bool} (hu : u = { s with mem := { s.mem with faults := u.mem.faults } })
    (hexec : exec i s = .next (((u.coreRead 1 c a n 0 false .scalar (some p)).st.modSp c p (fun x => { x with
      loads := x.loads ++ [⟨rd, loadValue (u.coreRead 1 c a n 0 false .scalar (some p)).data sx⟩] })).retire c p 4)) :
    Completes i s (fun t =>
      t.sp c p = Sp.past { s.sp c p with loads := (s.sp c p).loads ++ [⟨rd, loadValue (SMap.range s.mem.loft 0 a n) sx⟩] } 4 ∧
      t.mem.loft = s.mem.loft ∧ t.mem.hbm = s.mem.hbm ∧ t.core c = (s.core c).setSp p (t.sp c p) ∧
      ∀ d, d ≠ c → t.core d = s.core d) := by
  have hlogs : OnlyLogs u (u.coreRead 1 c a n 0 false .scalar (some p)).st :=
    (onlyLogs_lRead u a n .scalar).trans (onlyRegs_count _ c 0x42 (some p) n).logs
  have hcore : ∀ d, u.core d = s.core d := fun d => by rw [hu]; rfl
  have hdata : (u.coreRead 1 c a n 0 false .scalar (some p)).data = SMap.range s.mem.loft 0 a n := by
    show SMap.range u.mem.loft 0 a n = _
    rw [hu]
  rw [hdata] at hexec
  have hret := (onlySp_modSp (u.coreRead 1 c a n 0 false .scalar (some p)).st c p (fun x => { x with
    loads := x.loads ++ [⟨rd, loadValue (SMap.range s.mem.loft 0 a n) sx⟩] }) (cntRegs c)).trans (onlySp_retire _ c p 4)
  have hmem := (mem_of_onlyCore hret.toOnlyCore).trans hlogs.mem
  refine ⟨_, hexec, ?_, ?_, ?_, ?_, fun d hd => ?_⟩
  · rw [sp_retire, sp_modSp_self, hlogs.sp, State.sp, hcore]
    rfl
  · rw [hmem, hu]
  · rw [hmem, hu]
  · rw [hret.core, hlogs.core, hcore]
  · rw [hret.cores d hd, hlogs.core, hcore]

theorem exec_stL (hm : iMaj w.toNat = 0x13) (hi : Issues s c p [iRd w.toNat, iRs1 w.toNat] []) :
    exec (.stL c p w) s = .next (s.access c p w.toNat 1 (mAddr (s.sp c p) w.toNat) (mSize w.toNat)
      (!inL s.variant (mAddr (s.sp c p) w.toNat) (mSize w.toNat)) (mSize w.toNat) (fun t =>
        (t.spStore c p 1 (mAddr (s.sp c p) w.toNat) (leBytes (mSize w.toNat) ((s.sp c p).xr (iRd w.toNat)).toNat) .scalar).retire c p 4)) :=
  congrArg Host.Outcome.next (issue_eff hi (by simp [hm]) rfl _)

/-- A store by a processor to L-space puts its bytes there and in the processor's load buffers. -/
theorem spStore_loft (hm : s.memOk = true) (a : Nat) (d : List Byte) (g : Agent) :
    (∀ b, SMap.get (s.spStore c p 1 a d g).mem.loft 0 b =
      if a ≤ b ∧ b < a + d.length then nth d 0 (b - a) else SMap.get s.mem.loft 0 b) ∧
    (s.spStore c p 1 a d g).sp c p = (s.sp c p).vbStore 1 a d ∧ (s.spStore c p 1 a d g).mem.hbm = s.mem.hbm ∧
    (s.spStore c p 1 a d g).core c = (s.core c).setSp p ((s.sp c p).vbStore 1 a d) ∧
    (∀ e, e ≠ c → (s.spStore c p 1 a d g).core e = s.core e) := by
  have hcount := onlyRegs_count (s.lWrite a d) c 0x43 (some p) d.length
  have hwrite : s.coreWrite 1 c a d 0 g (some p) = (s.lWrite a d).count c 0x43 (some p) d.length := rfl
  have hmem : (s.spStore c p 1 a d g).mem = (s.lWrite a d).mem := by
    show (s.coreWrite 1 c a d 0 g (some p)).mem = _
    rw [hwrite, hcount.logs.mem]
  have hsp : (s.spStore c p 1 a d g).sp c p = (s.sp c p).vbStore 1 a d := by
    rw [State.spStore, sp_modSp_self, hwrite, hcount.sp]
    rfl
  refine ⟨fun b => ?_, hsp, ?_, ?_, fun e he => ?_⟩
  · rw [hmem, lWrite_loft hm]
  · rw [hmem]
    rfl
  · have hcore := (onlySp_modSp (s.coreWrite 1 c a d 0 g (some p)) c p (fun u => u.vbStore 1 a d) []).core
    have hsame : (s.coreWrite 1 c a d 0 g (some p)).core c = s.core c := by
      rw [hwrite, hcount.logs.core]
      rfl
    rw [hsame] at hcore
    rw [← hsp]
    exact hcore
  · refine (core_modCore_ne _ he _).trans ?_
    rw [hwrite, hcount.logs.core]
    rfl

theorem completes_stL {i : Instr} {a n : Nat} {v : W64} (hm : s.memOk = true)
    (hexec : exec i s = .next ((s.spStore c p 1 a (leBytes n v.toNat) .scalar).retire c p 4)) :
    Completes i s (fun t =>
      (∀ b, SMap.get t.mem.loft 0 b = if a ≤ b ∧ b < a + n then byteOf v (b - a) else SMap.get s.mem.loft 0 b) ∧
      (t.sp c p).pc = (s.sp c p).pc + 4 ∧ (t.sp c p).x = (s.sp c p).x ∧ (t.sp c p).v = (s.sp c p).v ∧
      (t.sp c p).p = (s.sp c p).p ∧ (t.sp c p).t = (s.sp c p).t ∧
      t.core c = (s.core c).setSp p (t.sp c p) ∧ t.mem.hbm = s.mem.hbm ∧ ∀ d, d ≠ c → t.core d = s.core d) := by
  obtain ⟨hloft, hsp, hhbm, hcore, hother⟩ := spStore_loft (c := c) (p := p) hm a (leBytes n v.toNat) .scalar
  have hret := onlySp_retire (s.spStore c p 1 a (leBytes n v.toNat) .scalar) c p 4
  have hmem := mem_of_onlyCore hret.toOnlyCore
  have hsp' : ((s.spStore c p 1 a (leBytes n v.toNat) .scalar).retire c p 4).sp c p = ((s.sp c p).vbStore 1 a (leBytes n v.toNat)).past 4 := by
    rw [sp_retire, hsp]
  refine ⟨_, hexec, fun b => ?_, ?_, ?_, ?_, ?_, ?_, ?_, ?_, fun d hd => ?_⟩
  · rw [hmem, hloft, leBytes_length]
    exact if_ctx_congr Iff.rfl (fun hb => nth_leBytes v (by omega)) (fun _ => rfl)
  · rw [hsp']
    rfl
  · rw [hsp']
    rfl
  · rw [hsp']
    rfl
  · rw [hsp']
    rfl
  · rw [hsp']
    rfl
  · rw [hret.core, hcore, setSp_setSp]
  · rw [hmem, hhbm]
  · rw [hret.cores d hd, hother d hd]

/-! ### The data of a load (R287) -/

theorem exec_loadDataReturn {l : PendLoad} {r : List PendLoad} (hal : s.alive = true) (hl : (s.sp c p).loads = l :: r) :
    exec (.loadDataReturn c p) s = .next (s.modSp c p (fun u => { u with loads := r }.setX l.rd l.val)) := by
  show execLoadDataReturn c p s = _
  simp only [execLoadDataReturn, hal, hl, Bool.not_true, Bool.false_eq_true, if_false]

end Rows

/-- Settles O5: each access where it goes ahead, and where it does not. -/
theorem scalarMemory : Obligations.ScalarMemory := by
  intro s c p w hm
  refine ⟨fun ups hmaj hi hbar hg => ?_, fun hmaj hi hbar hg => ?_, fun ups hmaj hi hin hg => ?_, fun hmaj hi hin hg => ?_,
    fun l r hal hl => ⟨_, exec_loadDataReturn hal hl, sp_modSp_self .., onlySp_modSp ..⟩, fun a n ups hi ha hn => ?_⟩
  · have hu := marked_mark s 0 c ups
    refine completes_ldS hu (mem_mark_spad s c ups) ((exec_ldS ups hmaj hi).trans ?_)
    rw [access_of_goes hu hg hbar, ldSEff, hu.sp]
  · refine completes_stS hm (mSize_mem _) hbar hg.aligned ((exec_stS hmaj hi).trans ?_)
    rw [access_goes hbar hg.aligned hg.free hg.idle, stSEff]
  · refine completes_ldL (mark_loft_eq s c ups) ((exec_ldL ups hmaj hi).trans ?_)
    rw [access_of_goes (marked_mark s 1 c ups) hg (by simp [hin])]
  · refine completes_stL hm ((exec_stL hmaj hi).trans ?_)
    rw [access_goes (by simp [hin]) hg.aligned hg.free hg.idle]
  · subst ha hn
    exact ⟨fun hmaj => memoryGuards_of_access (exec_ldS ups hmaj hi) sBarred_iff,
      fun hmaj => memoryGuards_of_access (exec_stS hmaj hi) sBarred_iff,
      fun hmaj => memoryGuards_of_access (exec_ldL ups hmaj hi) not_inL_iff,
      fun hmaj => memoryGuards_of_access (exec_stL hmaj hi) not_inL_iff⟩

end Sys2Proof.Proofs.Dexica


/-! RULES of a word of E-space: what its reads and writes leave of the bay caches' configuration, what a write makes of memory, and what reads
after it deliver (R290 to R299, R365). -/

namespace Sys2Proof.Proofs.Dexica

open Sys2Proof Sys2Proof.Machine Sys2Proof.Laws Sys2Proof.Proofs.Scope Sys2Proof.Proofs.Array

/-! ### The configuration that an access of E-space goes by -/

/-- An address of control space at which neither a bay cache's configuration nor the freeze of E-space stands. -/
def Apart (a : Nat) : Prop := a % 0x10000 ≠ 0 ∧ a ≠ 0x300000018

/-- The bay caches' configuration, the freeze of E-space and what stops a stack are the same. -/
structure BayKept (s t : State) : Prop where
  cfg : ∀ n, t.reg .BAY_CFG n 0 0 = s.reg .BAY_CFG n 0 0
  td : t.reg .WIN_TD 0 0 0 = s.reg .WIN_TD 0 0 0
  pwr : t.pwr = s.pwr
  variant : t.variant = s.variant
  band : ∀ n, (t.stack n).band = (s.stack n).band

section Kept

variable {s t u : State}

theorem BayKept.refl (s : State) : BayKept s s := ⟨fun _ => rfl, rfl, rfl, rfl, fun _ => rfl⟩

theorem BayKept.trans (h : BayKept s t) (g : BayKept t u) : BayKept s u :=
  ⟨fun n => (g.cfg n).trans (h.cfg n), g.td.trans h.td, g.pwr.trans h.pwr, g.variant.trans h.variant, fun n => (g.band n).trans (h.band n)⟩

theorem BayKept.enabled (h : BayKept s t) (n : Nat) : t.rdB BAY_CFG.EN n = s.rdB BAY_CFG.EN n := by
  unfold State.rdB
  rw [rd_of_reg (f := BAY_CFG.EN) (h.cfg n)]

theorem BayKept.keepWays (h : BayKept s t) (n : Nat) : t.rd BAY_CFG.KEEPWAYS n = s.rd BAY_CFG.KEEPWAYS n :=
  rd_of_reg (f := BAY_CFG.KEEPWAYS) (h.cfg n)

theorem BayKept.frozen (h : BayKept s t) : t.frozen = s.frozen := by
  unfold State.frozen State.rdB
  rw [rd_of_reg (f := WIN_TD.FROZEN) h.td]

theorem BayKept.stopped (h : BayKept s t) (a : Nat) : t.stackStopped a = s.stackStopped a := by
  unfold State.stackStopped
  rw [h.pwr, h.band]

/-- A change that leaves registers, power and the stacks alone. -/
theorem bayKept_of_same (hcsr : t.csr = s.csr) (hpwr : t.pwr = s.pwr) (hv : t.variant = s.variant) (hstks : t.mem.stks = s.mem.stks) :
    BayKept s t :=
  ⟨fun n => Module.reg_of_csr hcsr .., Module.reg_of_csr hcsr .., hpwr, hv, fun n => by unfold State.stack; rw [hstks]⟩

theorem bayKept_ite {p : Prop} [Decidable p] (h : BayKept s t) (g : BayKept s u) : BayKept s (if p then t else u) := by
  split <;> assumption

theorem bayKept_iteRd {p : Prop} [Decidable p] {a b : Rd} (h : BayKept s a.st) (g : BayKept s b.st) : BayKept s (if p then a else b).st := by
  split <;> assumption

theorem bayKept_foldl {α : Type} {g : State → α → State} {l : List α} (hg : ∀ s, ∀ x ∈ l, BayKept s (g s x)) (s : State) :
    BayKept s (l.foldl g s) := by
  induction l generalizing s with
  | nil => exact .refl s
  | cons x l ih => exact (hg s x List.mem_cons_self).trans (ih (fun s y hy => hg s y (List.mem_cons_of_mem _ hy)) _)

theorem bayKept_foldRd {f : State → Nat → Rd} {l : List Nat} (hf : ∀ s, ∀ k ∈ l, BayKept s (f s k).st) (s : State) :
    BayKept s (foldRd f l s).st := by
  induction l generalizing s with
  | nil => exact .refl s
  | cons k l ih => exact (hf s k List.mem_cons_self).trans (ih (fun s y hy => hf s y (List.mem_cons_of_mem _ hy)) _)

/-! ### Registers that accesses count and log in -/

theorem addr_bayCfg (n : Nat) : Reg.addr .BAY_CFG n 0 0 % 0x10000 = 0 := by
  simp only [Reg.addr, Reg.place, UnitKind.base]
  omega

theorem addr_winTd : Reg.addr .WIN_TD 0 0 0 = 0x300000018 := by
  simp only [Reg.addr, Reg.place, UnitKind.base]

theorem bayKept_of_onlyRegs {l : List Nat} (h : OnlyRegs s t l) (hl : ∀ a ∈ l, Apart a) : BayKept s t := by
  have hrest := h.rest
  refine ⟨fun n => h.regs _ _ _ _ fun hm => (hl _ hm).1 (addr_bayCfg n), h.regs _ _ _ _ fun hm => (hl _ hm).2 addr_winTd, ?_, ?_, fun n => ?_⟩
  · rw [hrest]
  · rw [hrest]
  · unfold State.stack
    rw [hrest]

theorem bayKept_wr (s : State) (f : Fld) (v n i : Nat) (h : Apart (f.reg.addr n i 0)) : BayKept s (s.wr f v n i) :=
  bayKept_of_onlyRegs (onlyRegs_wr s f v n i 0) (by simpa using h)

theorem bayKept_wrs (s : State) (g : Reg) (n i : Nat) (l : List (Fld × Nat)) (h : Apart (g.addr n i 0)) : BayKept s (s.wrs g n i 0 l) :=
  bayKept_of_onlyRegs (onlyRegs_wrs s g n i 0 l) (by simpa using h)

theorem bayKept_incWrap (s : State) (f : Fld) (k n : Nat) (h : Apart (f.reg.addr n 0 0)) : BayKept s (s.incWrap f k n) :=
  bayKept_wr s f _ n 0 h

theorem apart_cntRegs (c : Nat) : ∀ a ∈ cntRegs c, Apart a := by
  intro a ha
  obtain ⟨m, hm, ha⟩ := List.mem_flatMap.1 ha
  have hm64 := List.mem_range.1 hm
  simp only [Reg.addr, Reg.place, UnitKind.base, List.mem_cons, List.not_mem_nil, or_false] at ha
  unfold Apart
  omega

theorem bayKept_traceAdd (s : State) (u typ sub : Nat) (w : W64) : BayKept s (s.traceAdd u typ sub w) := by
  have hstat : Apart (Reg.addr .OBS_STAT 0 0 0) := by
    simp only [Apart, Reg.addr, Reg.place, UnitKind.base]
    omega
  have htrace : ∀ x, BayKept s { s with trace := x } := fun _ => bayKept_of_same rfl rfl rfl rfl
  unfold State.traceAdd
  dsimp only
  split
  · exact htrace _
  · exact (htrace _).trans (bayKept_incWrap _ OBS_STAT.LOST 1 0 hstat)

theorem bayKept_say (s : State) (m : HMsg) : BayKept s (s.say m) := by
  unfold State.say
  split
  · exact .refl s
  · exact bayKept_of_same rfl rfl rfl rfl

theorem bayKept_faultNote (s : State) (cls : Nat) (r : Reg) (n i : Nat) : BayKept s (s.faultNote cls r n i) := by
  have hsay := bayKept_ite (p := s.rdB FLT_CFG.NOTIFY = true)
    (bayKept_say s (.fault cls (bits (r.addr n i 0) 39 16) (bits (s.reg r n i 0).toNat 31 0) s.time32)) (.refl s)
  unfold State.faultNote State.noteWith
  exact bayKept_ite (hsay.trans (bayKept_traceAdd ..)) hsay

theorem bayKept_ceCount (s : State) (e : EccRegs) (hcnt : Apart (e.cnt.reg.addr e.n e.i 0)) (hhit : Apart (e.hit.reg.addr e.n e.i 0)) :
    BayKept s (s.ceCount e) := by
  have hc : BayKept s (s.incSat e.cnt 1 e.n e.i) := bayKept_wr s e.cnt _ e.n e.i hcnt
  have hh := bayKept_wr (s.incSat e.cnt 1 e.n e.i) e.hit 1 e.n e.i hhit
  unfold State.ceCount
  exact bayKept_ite hc (bayKept_ite ((hc.trans hh).trans (bayKept_faultNote ..)) (hc.trans hh))

theorem bayKept_agentCode (s : State) (g : Agent) : BayKept s (s.agentCode g).2 := by
  unfold State.agentCode
  split
  · exact bayKept_of_same rfl rfl rfl rfl
  · exact .refl s

theorem bayKept_free64 (s : State) : BayKept s s.free64.2 := bayKept_of_same rfl rfl rfl rfl

/-! ### Errors that a read meets (R302, R303) -/

theorem bayKept_ceBay (s : State) (a syn : Nat) (g : Agent) : BayKept s (s.ceBay a syn g) := by
  have hecc : Apart (Reg.addr .BAY_ECC (a / 0x1000000000) 0 0) := by
    simp only [Apart, Reg.addr, Reg.place, UnitKind.base]
    omega
  have hlog : Apart (Reg.addr .BAY_ECCLOG (a / 0x1000000000) 0 0) := by
    simp only [Apart, Reg.addr, Reg.place, UnitKind.base]
    omega
  unfold State.ceBay
  exact (((bayKept_free64 s).trans (bayKept_agentCode _ g)).trans (bayKept_ite (.refl _) (bayKept_wrs _ _ _ _ _ hlog))).trans
    (bayKept_ceCount _ _ hecc hecc)

theorem reg_chCnt (k : Nat) : (bankFld [MEM_CHCNT.COUNT0, MEM_CHCNT.COUNT1, MEM_CHCNT.COUNT2, MEM_CHCNT.COUNT3,
    MEM_CHCNT.COUNT4, MEM_CHCNT.COUNT5, MEM_CHCNT.COUNT6, MEM_CHCNT.COUNT7] MEM_CHCNT.COUNT0 (k % 8)).reg = .MEM_CHCNT := by
  have hk := Nat.mod_lt k (show 0 < 8 by norm_num)
  interval_cases k % 8 <;> rfl

/-- An error in one of the stacks that a module has (the log of stack 1024 would stand where the freeze does). -/
theorem bayKept_ceHbm (s : State) {a : Nat} (ha : a < 0x400000000000) (syn : Nat) (g : Agent) : BayKept s (s.ceHbm a syn g) := by
  have hecc : Apart (Reg.addr .MEM_ECC (a / 0x1000000000) 0 0) := by
    simp only [Apart, Reg.addr, Reg.place, UnitKind.base]
    omega
  have hlog : Apart (Reg.addr .MEM_ECCLOG (a / 0x1000000000) 0 0) := by
    simp only [Apart, Reg.addr, Reg.place, UnitKind.base]
    omega
  have hbank : bits a 13 9 / 8 < 4 := by
    have := Nat.mod_lt (a >>> 9) (show 0 < 2 ^ (13 + 1 - 9) by norm_num)
    unfold bits
    omega
  have hcnt : Apart (Reg.addr .MEM_CHCNT (a / 0x1000000000) (bits a 13 9 / 8) 0) := by
    simp only [Apart, Reg.addr, Reg.place, UnitKind.base]
    omega
  unfold State.ceHbm
  refine (((bayKept_wr s _ _ _ _ ?_).trans (bayKept_agentCode _ g)).trans (bayKept_ite (.refl _) (bayKept_wrs _ _ _ _ _ hlog))).trans
    (bayKept_ceCount _ _ hecc hecc)
  rw [reg_chCnt]
  exact hcnt

theorem bayKept_ueFound (s : State) (agent block syn unit addr : Nat) : BayKept s (s.ueFound agent block syn unit addr) := by
  have h0 : Apart (Reg.addr .FLT_REC0 0 0 0) := by
    simp only [Apart, Reg.addr, Reg.place, UnitKind.base]
    omega
  have h1 : Apart (Reg.addr .FLT_REC1 0 0 0) := by
    simp only [Apart, Reg.addr, Reg.place, UnitKind.base]
    omega
  have hrec : BayKept s (s.fltRecord 1 agent block syn unit addr) := by
    unfold State.fltRecord
    exact bayKept_ite (bayKept_wr s FLT_REC0.OVF 1 0 0 h0) ((bayKept_wrs s _ 0 0 _ h0).trans (bayKept_wr _ FLT_REC1.ADDR _ 0 0 h1))
  set v := s.fltRecord 1 agent block syn unit addr with hv
  have hdue : BayKept v { v with flt := { v.flt with mrstCause := some 1 } } := bayKept_of_same rfl rfl rfl rfl
  have hnote := bayKept_faultNote { v with flt := { v.flt with mrstCause := some 1 } } 2 .FLT_REC0 0 0
  exact ((hrec.trans hdue).trans hnote).trans (bayKept_of_same rfl rfl rfl rfl)

/-! ### The stacks and the bay caches -/

theorem bayKept_memRd (s : State) (n : Nat) : BayKept s (s.incWrap MEM_RD.BYTES 8 n) :=
  bayKept_incWrap s MEM_RD.BYTES 8 n (by simp only [Apart, MEM_RD.BYTES, Reg.addr, Reg.place, UnitKind.base]; omega)

theorem bayKept_memWr (s : State) (k n : Nat) : BayKept s (s.incWrap MEM_WR.BYTES k n) :=
  bayKept_incWrap s MEM_WR.BYTES k n (by simp only [Apart, MEM_WR.BYTES, Reg.addr, Reg.place, UnitKind.base]; omega)

theorem bayKept_bayCount (s : State) (f : Fld) (hf : f.reg = .BAY_CNT0 ∨ f.reg = .BAY_CNT1) (n : Nat) : BayKept s (s.incWrap f 1 n) := by
  refine bayKept_incWrap s f 1 n ?_
  rcases hf with hf | hf <;> rw [hf] <;> simp only [Apart, Reg.addr, Reg.place, UnitKind.base] <;> omega

theorem bayKept_hbmWord (s : State) {a : Nat} (ha : a + 8 ≤ 0x400000000000) (g : Agent) : BayKept s (s.hbmWord a g).st := by
  unfold State.hbmWord
  refine bayKept_iteRd (.refl s) ?_
  simp -iota only []
  have hcnt := bayKept_memRd s (a / stackSize)
  generalize s.incWrap MEM_RD.BYTES 8 (a / stackSize) = v at hcnt ⊢
  refine hcnt.trans (bayKept_iteRd (bayKept_foldl (fun w m hm => bayKept_ceHbm w ?_ _ g) v) ?_)
  · obtain ⟨e, he, rfl⟩ := List.mem_map.1 hm
    have hlt := of_decide_eq_true (Bool.and_eq_true_iff.1 (List.mem_filter.1 he).2).2
    unfold markKey at hlt ⊢
    omega
  · generalize (if hbmKind v.variant a = 1 then Config.unwrittenCheck v.free else 0) = chk
    refine bayKept_iteRd (bayKept_free64 v) (((bayKept_free64 v).trans (bayKept_free64 _)).trans (bayKept_iteRd ?_ ?_))
    · exact bayKept_ceHbm _ (by omega) _ _
    · exact (bayKept_agentCode ..).trans (bayKept_ueFound ..)

theorem bayKept_hbmPut (s : State) (a : Nat) (d : List Byte) : BayKept s (s.hbmPut a d) := by
  unfold State.hbmPut
  exact bayKept_ite (.refl s) ((bayKept_memWr s d.length (a / stackSize)).trans (bayKept_of_same rfl rfl rfl rfl))

theorem bayKept_hbmPutUndef (s : State) (a : Nat) : BayKept s (s.hbmPutUndef a) := by
  unfold State.hbmPutUndef
  exact bayKept_ite (.refl s) ((bayKept_memWr s 8 (a / stackSize)).trans (bayKept_of_same rfl rfl rfl rfl))

/-- What a bay cache holds does not tell whether its stack is stopped. -/
theorem bayKept_modBay (s : State) (n : Nat) (f : Stack → Stack) (hf : ∀ k, (f k).band = k.band) : BayKept s (s.modStack n f) := by
  refine ⟨fun _ => rfl, rfl, rfl, rfl, fun m => ?_⟩
  unfold State.stack State.modStack
  by_cases hm : m = n
  · rw [hm, smap_get_upd_self, hf]
  · rw [smap_get_upd_ne _ _ _ hm]

theorem bayKept_bayPut (s : State) (n : Nat) (b : BayLine) : BayKept s (s.bayPut n b) := bayKept_modBay s n _ fun _ => rfl

theorem bayKept_bayDrop (s : State) (n ln : Nat) : BayKept s (s.bayDrop n ln) :=
  (bayKept_modBay s n (fun k => { k with bay := k.bay.filter (fun x => x.line != ln) }) fun _ => rfl).trans
    (bayKept_of_same rfl rfl rfl rfl)

theorem bayKept_ceBays (s : State) (l : List (Nat × Nat)) (g : Agent) :
    BayKept s (l.foldl (fun s m => s.ceBay (m.1 - markKey 3 0) m.2 g) s) := bayKept_foldl (fun s _ _ => bayKept_ceBay s _ _ g) s

theorem bayKept_bayWriteBack (s : State) (n : Nat) (b : BayLine) : BayKept s (s.bayWriteBack n b) := by
  unfold State.bayWriteBack
  exact bayKept_ite (.refl s) ((bayKept_foldl (fun s _ _ => (bayKept_ceBays s _ .evict).trans
    (bayKept_ite (bayKept_hbmPutUndef ..) (bayKept_hbmPut ..))) s).trans (bayKept_bayCount _ BAY_CNT1.WBACKS (.inr rfl) n))

theorem bayKept_bayAlloc (s : State) (n ln : Nat) (keep : Bool) (valid dirty : BitVec 16) (data : V1024) (undef : BitVec 16) :
    BayKept s (s.bayAlloc n ln keep valid dirty data undef) := by
  unfold State.bayAlloc
  obtain ⟨v, k⟩ := s.bayVictim n ln keep
  cases v with
  | some b => exact ((bayKept_bayWriteBack s n b).trans (bayKept_bayDrop ..)).trans (bayKept_bayPut ..)
  | none => exact bayKept_bayPut ..

theorem bayKept_bayServe (s : State) (n : Nat) (b : BayLine) (w : Nat) (g : Agent) : BayKept s (s.bayServe n b w g).st := by
  unfold State.bayServe
  exact bayKept_iteRd (bayKept_free64 s) (bayKept_ceBays s _ g)


theorem bayKept_fillWord (s : State) (n : Nat) {b : BayLine} {w : Nat} (hb : lineAddr n b.line + 8 * w + 8 ≤ 0x400000000000) (g : Agent) :
    BayKept s (s.fillWord n b w g).st := by
  unfold State.fillWord
  exact bayKept_iteRd (bayKept_memRd s n) (bayKept_hbmWord s hb g)

theorem bayKept_stackWords (s : State) {n ln : Nat} {ws : List Nat} (hln : lineAddr n ln + 128 ≤ 0x400000000000) (hws : ∀ w ∈ ws, w < 16)
    (g : Agent) : BayKept s (s.stackWords n ln ws g).st :=
  bayKept_foldRd (fun s w hw => bayKept_hbmWord s (by have := hws w hw; omega) g) s

/-- A line that a bay cache holds is the one that was looked for. -/
theorem line_of_bayLine {n ln : Nat} {b : BayLine} (h : s.bayLine n ln = some b) : b.line = ln := by
  have hb := List.find?_some h
  simpa using hb

theorem bayKept_lineRead (s : State) {n ln : Nat} {ws : List Nat} (hln : lineAddr n ln + 128 ≤ 0x400000000000) (hws : ∀ w ∈ ws, w < 16)
    (hint : Nat) (g : Agent) : BayKept s (s.lineRead n ln ws hint false g).st := by
  have hmiss := bayKept_bayCount s BAY_CNT0.MISSES (.inl rfl) n
  have hhit := bayKept_bayCount s BAY_CNT0.HITS (.inl rfl) n
  unfold State.lineRead
  refine bayKept_iteRd (hmiss.trans (bayKept_stackWords _ hln hws g)) ?_
  simp only [Bool.false_and, Bool.false_eq_true, if_false]
  cases hb : s.bayLine n ln with
  | some b =>
    have hline := line_of_bayLine hb
    have hserves := fun (t : State) (b : BayLine) => bayKept_foldRd (f := fun s w => s.bayServe n b w g) (l := ws)
      (fun s w _ => bayKept_bayServe s n b w g) t
    refine bayKept_iteRd ((hhit.trans (bayKept_bayPut ..)).trans (hserves ..)) (bayKept_iteRd ?_ ?_)
    · refine (hmiss.trans (bayKept_bayPut ..)).trans (bayKept_foldRd (fun s w hw => ?_) _)
      exact bayKept_iteRd (bayKept_bayServe ..) (bayKept_hbmWord _ (by have := hws w hw; omega) g)
    · refine ((hmiss.trans (bayKept_foldRd (fun s w hw => bayKept_fillWord s n ?_ g) _)).trans (bayKept_bayPut ..)).trans (hserves ..)
      have := List.mem_range.1 hw
      rw [hline]
      omega
  | none =>
    refine hmiss.trans (bayKept_iteRd (bayKept_stackWords _ hln hws g) ?_)
    exact (bayKept_stackWords _ hln (fun w hw => List.mem_range.1 hw) g).trans (bayKept_bayAlloc ..)

end Kept

/-! ### A word of E-space -/

/-- The stack, the line in it and the word in that of an E-space address. -/
def stackOf (a : Nat) : Nat := a / stackSize
/-- See `stackOf`. -/
def lineNo (a : Nat) : Nat := a % stackSize / 128
/-- See `stackOf`. -/
def wordNo (a : Nat) : Nat := a % 128 / 8

theorem wordNo_lt (a : Nat) : wordNo a < 16 := by
  unfold wordNo
  omega

theorem lineAddr_word {a : Nat} (h : a % 8 = 0) : lineAddr (stackOf a) (lineNo a) + 8 * wordNo a = a := by
  unfold lineAddr stackOf lineNo wordNo stackSize
  omega

/-- An aligned word lies in one line. -/
theorem linePieces_word {a : Nat} (h : a % 8 = 0) : linePieces a 8 = [(a, 8)] := by
  have hlen : (a + 8 - 1) / 128 - a / 128 + 1 = 1 := by omega
  have hlo : max a ((a / 128 + 0) * 128) = a := by omega
  have hhi : min (a + 8) ((a / 128 + 0 + 1) * 128) - a = 8 := by omega
  simp only [linePieces, show ¬(8 = 0) by norm_num, if_false, hlen, List.range_one, List.map_cons, List.map_nil, hlo, hhi]

/-- A read of an aligned word reads it in its line. -/
theorem eRead_word {a : Nat} (h : a % 8 = 0) (s : State) (hint : Nat) (g : Agent) :
    s.eRead a 8 hint false g = { s.lineRead (stackOf a) (lineNo a) [wordNo a] hint false g with
      data := (s.lineRead (stackOf a) (lineNo a) [wordNo a] hint false g).data.take 8 } := by
  have hlast : (a % 128 + 8 - 1) / 8 = a % 128 / 8 := by omega
  unfold State.eRead
  rw [linePieces_word h]
  simp only [List.foldl_cons, List.foldl_nil, lineOf, hlast, Nat.sub_self, Nat.zero_add, List.range_one, List.map_cons, List.map_nil, h,
    List.drop_zero, Rd.ok, List.nil_append, Bool.false_or]
  rfl

/-- A write of an aligned word writes it in its line, unless E-space is frozen. -/
theorem eWrite_word {a : Nat} (h : a % 8 = 0) {d : List Byte} (hd : d.length = 8) (s : State) (hint : Nat) (g : Agent) :
    s.eWrite a d hint g = if s.frozen then s else s.lineWrite (stackOf a) (lineNo a) (wordNo a) d hint 0 := by
  have hlo : a / 8 * 8 = a := by omega
  have hhi : ceilDiv (a + 8) 8 * 8 = a + 8 := by
    unfold ceilDiv
    omega
  have hpiece : s.pieceWrite a d hint g = ⟨[], false, false, s.lineWrite (stackOf a) (lineNo a) (wordNo a) d hint 0⟩ := by
    unfold State.pieceWrite
    simp only [hd, hlo, hhi, lineOf, if_true, ne_eq, not_true, decide_false, Bool.false_eq_true, if_false, List.append_nil, List.dedup_nil,
      List.filter_nil, Rd.ok, Bool.not_false, Bool.or_false, Nat.sub_self, List.take_zero, List.nil_append, List.drop_nil]
    rfl
  unfold State.eWrite State.eWriteRd
  split
  · rfl
  · simp only [hd, linePieces_word h, List.foldl_cons, List.foldl_nil, Rd.ok, Bool.false_eq_true, if_false, Nat.sub_self, List.drop_zero,
      List.take_of_length_le hd.le, hpiece]

/-! ### Congruence: what logs hold makes no difference to memory -/

theorem onlyLogs_symm {s t : State} (h : OnlyLogs s t) : OnlyLogs t s := by
  unfold OnlyLogs at *
  rw [h]

section Congruence

variable {s t : State} (h : OnlyLogs s t)
include h

theorem stack_of_onlyLogs (n : Nat) : t.stack n = s.stack n := by
  unfold State.stack
  rw [h.mem]

theorem stopped_of_onlyLogs (a : Nat) : t.stackStopped a = s.stackStopped a := by
  have hpwr : t.pwr = s.pwr := by
    unfold OnlyLogs at h
    rw [h]
  unfold State.stackStopped
  rw [hpwr, stack_of_onlyLogs h]

/-- A change of memory alone leaves a difference in logs alone. -/
theorem onlyLogs_mem (m : Mem) : OnlyLogs { s with mem := m } { t with mem := m } := by
  unfold OnlyLogs at *
  rw [h]

theorem onlyLogs_incWraps (f : Fld) (k n : Nat) : OnlyLogs (s.incWrap f k n) (t.incWrap f k n) :=
  ((onlyLogs_symm (onlyLogs_incWrap s f k n 0 0)).trans h).trans (onlyLogs_incWrap t f k n 0 0)

theorem onlyLogs_unmark (place a n : Nat) : OnlyLogs (s.unmark place a n) (t.unmark place a n) := by
  unfold State.unmark
  rw [h.mem]
  exact onlyLogs_mem h _

theorem onlyLogs_modStack (n : Nat) (f : Stack → Stack) : OnlyLogs (s.modStack n f) (t.modStack n f) := by
  unfold State.modStack
  rw [h.mem]
  exact onlyLogs_mem h _

theorem onlyLogs_hbmPut (a : Nat) (d : List Byte) : OnlyLogs (s.hbmPut a d) (t.hbmPut a d) := by
  unfold State.hbmPut
  rw [stopped_of_onlyLogs h]
  split
  · exact h
  · unfold OnlyLogs at h
    rw [h]
    rfl

theorem onlyLogs_hbmPutUndef (a : Nat) : OnlyLogs (s.hbmPutUndef a) (t.hbmPutUndef a) := by
  unfold State.hbmPutUndef
  rw [stopped_of_onlyLogs h]
  split
  · exact h
  · exact onlyLogs_unmark (onlyLogs_incWraps h ..) 2 a 8

theorem onlyLogs_bayDrop (n ln : Nat) : OnlyLogs (s.bayDrop n ln) (t.bayDrop n ln) := onlyLogs_unmark (onlyLogs_modStack h n _) ..

/-- One dirty word of a line is written back, with the errors that it meets logged. -/
theorem onlyLogs_writeBackWord (n : Nat) (b : BayLine) (w : Nat) :
    OnlyLogs
      (let u := (marksIn s.mem.faults (markKey 3 (lineAddr n b.line + 8 * w)) 8).foldl
          (fun s m => s.ceBay (m.1 - markKey 3 0) m.2 .evict) s
        if bitB b.undef.toNat w then u.hbmPutUndef (lineAddr n b.line + 8 * w) else u.hbmPut (lineAddr n b.line + 8 * w) (b.word w))
      (let u := (marksIn t.mem.faults (markKey 3 (lineAddr n b.line + 8 * w)) 8).foldl
          (fun s m => s.ceBay (m.1 - markKey 3 0) m.2 .evict) t
        if bitB b.undef.toNat w then u.hbmPutUndef (lineAddr n b.line + 8 * w) else u.hbmPut (lineAddr n b.line + 8 * w) (b.word w)) := by
  have hlogs := fun (l : List (Nat × Nat)) (u : State) =>
    onlyLogs_foldl (g := fun s m => s.ceBay (m.1 - markKey 3 0) m.2 .evict) (fun _ _ => onlyLogs_ceBay _ _ _ _) l u
  have hmarks := fun l => ((onlyLogs_symm (hlogs l s)).trans h).trans (hlogs l t)
  rw [h.mem]
  dsimp only
  split
  · exact onlyLogs_hbmPutUndef (hmarks _) _
  · exact onlyLogs_hbmPut (hmarks _) _ _

end Congruence

/-- Steps that keep a difference in logs, one after the other. -/
theorem onlyLogs_foldls {α : Type} {g : State → α → State} (hg : ∀ s t x, OnlyLogs s t → OnlyLogs (g s x) (g t x)) (l : List α) {s t : State}
    (h : OnlyLogs s t) : OnlyLogs (l.foldl g s) (l.foldl g t) := by
  induction l generalizing s t with
  | nil => exact h
  | cons x l ih => exact ih (hg s t x h)

section Congruence

variable {s t : State} (h : OnlyLogs s t)
include h

theorem onlyLogs_bayEvict (n : Nat) (b : BayLine) : OnlyLogs (s.bayEvict n b) (t.bayEvict n b) := by
  have hback : OnlyLogs (s.bayWriteBack n b) (t.bayWriteBack n b) := by
    unfold State.bayWriteBack
    split
    · exact h
    · exact onlyLogs_incWraps (onlyLogs_foldls (fun _ _ w h => onlyLogs_writeBackWord h n b w) _ h) ..
  exact onlyLogs_bayDrop hback n b.line

theorem bayVictim_of_onlyLogs (hb : BayKept s t) (n ln : Nat) (keep : Bool) : t.bayVictim n ln keep = s.bayVictim n ln keep := by
  unfold State.bayVictim
  rw [stack_of_onlyLogs h, hb.keepWays]

theorem onlyLogs_bayAlloc (hb : BayKept s t) (n ln : Nat) (keep : Bool) (valid dirty : BitVec 16) (data : V1024) (undef : BitVec 16) :
    OnlyLogs (s.bayAlloc n ln keep valid dirty data undef) (t.bayAlloc n ln keep valid dirty data undef) := by
  unfold State.bayAlloc
  rw [bayVictim_of_onlyLogs h hb]
  obtain ⟨v, k⟩ := s.bayVictim n ln keep
  cases v with
  | some b => exact onlyLogs_modStack (onlyLogs_bayEvict h n b) n _
  | none => exact onlyLogs_modStack h n _

/-- A write of a line makes the same of memory, whatever stands in logs. -/
theorem onlyLogs_lineWrite (hb : BayKept s t) (n ln w0 : Nat) (d : List Byte) (hint : Nat) (und : BitVec 16) :
    OnlyLogs (s.lineWrite n ln w0 d hint und) (t.lineWrite n ln w0 d hint und) := by
  have hline : t.bayLine n ln = s.bayLine n ln := by
    unfold State.bayLine
    rw [stack_of_onlyLogs h]
  have hstack : ∀ u v : State, OnlyLogs u v → OnlyLogs
      (((List.range (d.length / 8)).map (· + w0)).foldl (fun s w => if bitB und.toNat w then s.hbmPutUndef (lineAddr n ln + 8 * w)
        else s.hbmPut (lineAddr n ln + 8 * w) ((d.drop (8 * (w - w0))).take 8)) u)
      (((List.range (d.length / 8)).map (· + w0)).foldl (fun s w => if bitB und.toNat w then s.hbmPutUndef (lineAddr n ln + 8 * w)
        else s.hbmPut (lineAddr n ln + 8 * w) ((d.drop (8 * (w - w0))).take 8)) v) := fun u v huv => by
    refine onlyLogs_foldls (fun x y w hxy => ?_) _ huv
    split
    · exact onlyLogs_hbmPutUndef hxy _
    · exact onlyLogs_hbmPut hxy _ _
  have hmiss := onlyLogs_incWraps h BAY_CNT0.MISSES 1 n
  have hkept : BayKept (s.incWrap BAY_CNT0.MISSES 1 n) (t.incWrap BAY_CNT0.MISSES 1 n) := by
    have hs := bayKept_bayCount s BAY_CNT0.MISSES (.inl rfl) n
    have ht := hb.trans (bayKept_bayCount t BAY_CNT0.MISSES (.inl rfl) n)
    exact ⟨fun m => (ht.cfg m).trans (hs.cfg m).symm, ht.td.trans hs.td.symm, ht.pwr.trans hs.pwr.symm, ht.variant.trans hs.variant.symm,
      fun m => (ht.band m).trans (hs.band m).symm⟩
  unfold State.lineWrite
  dsimp only
  rw [hb.enabled, hline]
  split
  · exact hstack _ _ hmiss
  · cases s.bayLine n ln with
    | some b => exact onlyLogs_unmark (onlyLogs_modStack (onlyLogs_incWraps h ..) n _) ..
    | none =>
      dsimp only
      split
      · exact hstack _ _ hmiss
      · exact onlyLogs_bayAlloc hmiss hkept ..

/-- So does a write of an aligned word of E-space. -/
theorem onlyLogs_eWrite (hb : BayKept s t) {a : Nat} (ha : a % 8 = 0) {d : List Byte} (hd : d.length = 8) (hint : Nat) (g : Agent) :
    OnlyLogs (s.eWrite a d hint g) (t.eWrite a d hint g) := by
  rw [eWrite_word ha hd, eWrite_word ha hd, hb.frozen]
  split
  · exact h
  · exact onlyLogs_lineWrite h hb ..

end Congruence

/-! ### What a written word reads as (R290, R298) -/

/-- The only word of a mask. -/
theorem getLsbD_wordMask {w : Nat} (h : w < 16) : (wordMask [w]).getLsbD w = true := by
  have hsum : ([w].map (fun w => 2 ^ w)).sum = 2 ^ w := by simp
  rw [wordMask, hsum, BitVec.getLsbD_ofNat, Nat.testBit_two_pow_self, decide_eq_true h, Bool.and_true]

theorem leBytes_ofLe (d : List Byte) : leBytes d.length (ofLe d) = d := by
  refine List.ext_getElem (leBytes_length ..) fun k hk hk' => ?_
  rw [leBytes_get hk]
  refine BitVec.eq_of_toNat_eq ((BitVec.toNat_ofNat ..).trans ((lane_ofLe d k).trans ?_))
  rw [nth, List.getElem?_eq_getElem hk', Option.getD_some]

/-- A word of a line reads as what was put there. -/
theorem word_setWord (b : BayLine) {w : Nat} (hw : w < 16) {d : List Byte} (hd : d.length = 8) : (b.setWord w d).word w = d := by
  have hlt : ofLe d % 2 ^ 64 = ofLe d := by
    have h := ofLe_leBytes d.length (ofLe d)
    rw [leBytes_ofLe, hd] at h
    exact h.symm
  have hhi : 64 * w + 63 = 64 * w + 64 - 1 := rfl
  rw [BayLine.word, BayLine.setWord, lane_ofNat _ (by omega), hhi, lane_setBits (w := 64) _ _ (by norm_num), if_pos rfl, hlt, ← hd,
    leBytes_ofLe]

section Read

variable {s : State} {n ln w : Nat}

/-- A line put into a bay cache is found there. -/
theorem bayLine_bayPut (s : State) (n : Nat) (b : BayLine) : (s.bayPut n b).bayLine n b.line = some b := by
  have hstack : (s.bayPut n b).stack n = { s.stack n with bay := b :: (s.stack n).bay.filter (fun x => x.line != b.line) } :=
    smap_get_upd_self s.mem.stks ({} : Stack) n fun k : Stack => { k with bay := b :: k.bay.filter (fun x => x.line != b.line) }
  simp [State.bayLine, hstack]

/-- A word that was written and stands in its line is read there. -/
theorem lineRead_line {b : BayLine} (hen : s.rdB BAY_CFG.EN n = true) (hb : s.bayLine n ln = some b) (hvalid : b.valid.getLsbD w = true)
    (hdirty : b.dirty.getLsbD w = true) (hundef : b.undef.getLsbD w = false) (g : Agent) :
    (s.lineRead n ln [w] 0 false g).data = b.word w := by
  have hall : [w].all (fun w => bitB b.valid.toNat w) = true := by simp [bitB_toNat, hvalid]
  have hserve : ∀ t : State, (t.bayServe n b w g).data = b.word w := fun t => by
    have hdef : t.lineUndef n b w = false := by
      rw [State.lineUndef, bitB_toNat, hdirty, if_pos rfl, bitB_toNat, hundef]
    rw [State.bayServe, hdef, if_neg Bool.false_ne_true]
  unfold State.lineRead
  simp only [hen, hb, hall, Bool.not_true, Bool.false_eq_true, if_false, if_true, Bool.false_and, foldRd, hserve, Rd.ok, List.append_nil]

/-- Without a bay cache a word is read in its stack. -/
theorem lineRead_stack (hen : s.rdB BAY_CFG.EN n = false) (hstop : s.stackStopped (lineAddr n ln + 8 * w) = false)
    (hdef : s.hbmDefined (lineAddr n ln + 8 * w) = true) (hint : Nat) (g : Agent) :
    (s.lineRead n ln [w] hint false g).data = SMap.range s.mem.hbm 0 (lineAddr n ln + 8 * w) 8 := by
  have hword : ∀ t : State, t.stackStopped (lineAddr n ln + 8 * w) = false → t.hbmDefined (lineAddr n ln + 8 * w) = true →
      (t.hbmWord (lineAddr n ln + 8 * w) g).data = SMap.range t.mem.hbm 0 (lineAddr n ln + 8 * w) 8 := fun t hs hd => by
    have hd' : (t.incWrap MEM_RD.BYTES 8 ((lineAddr n ln + 8 * w) / stackSize)).hbmDefined (lineAddr n ln + 8 * w) = true := hd
    simp only [State.hbmWord, hs, hd', Bool.false_eq_true, if_false, if_true]
    rfl
  unfold State.lineRead
  simp only [hen, Bool.not_false, if_true, State.stackWords, foldRd, Rd.ok, List.append_nil]
  exact hword (s.incWrap BAY_CNT0.MISSES 1 n) hstop hdef

end Read

/-! ### Bytes of a stack after a write -/

theorem smap_get_number_keep {α : Type} {f : Nat → α → Bool} {x : α} {a i : Nat} {vs : List α} (hi : i < vs.length)
    (hf : f (a + i) vs[i] = true ∨ vs[i] = x) : SMap.get ((SMap.number a vs).filter (fun e => f e.1 e.2)) x (a + i) = vs[i] := by
  induction vs generalizing a i with
  | nil => exact absurd hi (Nat.not_lt_zero i)
  | cons v r ih =>
    rw [SMap.number, List.filter_cons]
    cases i with
    | zero =>
      have hout : ∀ e ∈ (SMap.number (a + 1) r).filter (fun e => f e.1 e.2), e.1 ≠ a := fun e he => by
        have := (smap_number_mem (List.mem_of_mem_filter he)).1
        omega
      split
      · simp [smap_get_cons]
      · next hno =>
        simp only [Nat.add_zero] at hf ⊢
        rw [smap_get_of_notMem hout]
        exact (hf.resolve_left (by simpa using hno)).symm
    | succ i =>
      have hnext : a + (i + 1) = a + 1 + i := by omega
      have hrest : SMap.get ((SMap.number (a + 1) r).filter (fun e => f e.1 e.2)) x (a + (i + 1)) = r[i]'(Nat.lt_of_succ_lt_succ hi) := by
        rw [hnext]
        exact ih (Nat.lt_of_succ_lt_succ hi) (by rwa [← hnext])
      split
      · rw [smap_get_cons, if_neg (by omega), hrest]
        rfl
      · rw [hrest]
        rfl

/-- A key of a run that is written reads as what was written, where an unlisted one reads as `x` or is always listed. -/
theorem smap_get_putRange_keep {α : Type} [DecidableEq α] {m : SMap α} {d : Nat → Option α} (h : SMap.wf m d = true) {x : α} {a i : Nat}
    {vs : List α} (hi : i < vs.length) (hd : d (a + i) = some x ∨ d (a + i) = none) :
    SMap.get (m.putRange d a vs) x (a + i) = vs[i] := by
  have hp := ((smap_wf_iff m).1 h).1
  unfold SMap.putRange
  rw [List.append_assoc, smap_get_append, smap_get_append_left,
    smap_get_number_keep (f := fun k v => decide (some v ≠ d k)) hi]
  · rcases hd with hd | hd
    · by_cases hv : vs[i] = x
      · exact .inr hv
      · exact .inl (by simpa [hd] using hv)
    · exact .inl (by simp [hd])
  · intro e he
    have := mem_dropWhile_ge hp he
    omega
  · intro e he
    have := mem_takeWhile_lt he
    omega

theorem smap_has_putRange {α : Type} [DecidableEq α] {m : SMap α} {d : Nat → Option α} {a : Nat} (v : α) (vs : List α) (hd : d a = none) :
    SMap.has (m.putRange d a (v :: vs)) a = true := by
  refine List.any_eq_true.2 ⟨(a, v), ?_, by simp⟩
  refine List.mem_append_left _ (List.mem_append_right _ (List.mem_filter.2 ⟨List.mem_cons_self, ?_⟩))
  simp [hd]

theorem hbmDefault_eq (v : Variant) (a : Nat) : hbmDefault v a = some 0 ∨ hbmDefault v a = none := by
  unfold hbmDefault
  split
  · exact .inl rfl
  · exact .inr rfl

section Stack

variable {s : State} {a : Nat} {d : List Byte}

/-- A word put into a stack reads as written. -/
theorem range_hbmPut (hm : s.memOk = true) (hstop : s.stackStopped a = false) (hd : d.length = 8) :
    SMap.range (s.hbmPut a d).mem.hbm 0 a 8 = d ∧ (s.hbmPut a d).hbmDefined a = true := by
  have hmem : (s.hbmPut a d).mem.hbm = SMap.putRange s.mem.hbm (hbmDefault s.variant) a d := by
    rw [State.hbmPut, hstop, if_neg Bool.false_ne_true]
    rfl
  have hv : (s.hbmPut a d).variant = s.variant := (bayKept_hbmPut s a d).variant
  have hwf : SMap.wf s.mem.hbm (hbmDefault s.variant) = true := by
    have hmem := ((memOk_iff s).1 hm).1
    rw [Memory.wf, Bool.and_eq_true] at hmem
    exact hmem.2
  constructor
  · rw [hmem]
    have hlen : (SMap.range (SMap.putRange s.mem.hbm (hbmDefault s.variant) a d) 0 a 8).length = d.length := by
      rw [range_length, hd]
    have hp := ((smap_wf_iff _).1 (smap_wf_putRange hwf a d)).1
    refine List.ext_getElem hlen fun k hk hk' => ?_
    have hnth : nth (SMap.range (SMap.putRange s.mem.hbm (hbmDefault s.variant) a d) 0 a 8) 0 k =
        SMap.get (SMap.putRange s.mem.hbm (hbmDefault s.variant) a d) 0 (a + k) :=
      (run_get 8 _ a k (hp.sublist (List.dropWhile_sublist _)) (fun e he => mem_dropWhile_ge hp he) (by omega)).trans
        (smap_get_dropWhile (by omega))
    rw [smap_get_putRange_keep hwf hk' (hbmDefault_eq ..), nth, List.getElem?_eq_getElem hk, Option.getD_some] at hnth
    exact hnth
  · unfold State.hbmDefined
    rw [hmem, hv]
    by_cases hkind : hbmKind s.variant a = 0
    · simp [hkind]
    · obtain ⟨v, vs, rfl⟩ := List.exists_cons_of_length_pos (l := d) (by omega)
      rw [smap_has_putRange v vs (if_neg hkind), Bool.or_true]

end Stack

/-! ### Read after write -/

theorem bayKept_unmark (s : State) (place a n : Nat) : BayKept s (s.unmark place a n) := bayKept_of_same rfl rfl rfl rfl

theorem bayKept_lineWrite (s : State) (n ln w : Nat) (d : List Byte) (hint : Nat) (und : BitVec 16) :
    BayKept s (s.lineWrite n ln w d hint und) := by
  have hmiss := bayKept_bayCount s BAY_CNT0.MISSES (.inl rfl) n
  have hhit := bayKept_bayCount s BAY_CNT0.HITS (.inl rfl) n
  unfold State.lineWrite
  dsimp only
  refine bayKept_ite (hmiss.trans (bayKept_foldl (fun s w _ => bayKept_ite (bayKept_hbmPutUndef ..) (bayKept_hbmPut ..)) _)) ?_
  cases s.bayLine n ln with
  | some b => exact (hhit.trans (bayKept_bayPut ..)).trans (bayKept_unmark ..)
  | none =>
    exact bayKept_ite (hmiss.trans (bayKept_foldl (fun s w _ => bayKept_ite (bayKept_hbmPutUndef ..) (bayKept_hbmPut ..)) _))
      (hmiss.trans (bayKept_bayAlloc ..))

theorem bayKept_eWrite (s : State) {a : Nat} (ha : a % 8 = 0) {d : List Byte} (hd : d.length = 8) (hint : Nat) (g : Agent) :
    BayKept s (s.eWrite a d hint g) := by
  rw [eWrite_word ha hd]
  exact bayKept_ite (.refl s) (bayKept_lineWrite ..)

section ReadBack

variable {u : State} {n ln w hint : Nat} {d : List Byte}

/-- Without a bay cache a word goes to its stack. -/
theorem lineWrite_stack (hen : u.rdB BAY_CFG.EN n = false) (hd : d.length = 8) :
    u.lineWrite n ln w d hint 0 = (u.incWrap BAY_CNT0.MISSES 1 n).hbmPut (lineAddr n ln + 8 * w) d := by
  have hone : (List.range (d.length / 8)).map (· + w) = [w] := by
    rw [hd]
    simp
  have hundef : bitB (0 : BitVec 16).toNat w = false := by
    rw [bitB_toNat]
    exact BitVec.getLsbD_zero
  unfold State.lineWrite
  simp only [hen, hone, hundef, Bool.not_false, Bool.false_eq_true, if_true, if_false, List.foldl_cons, List.foldl_nil, Nat.sub_self, Nat.mul_zero,
    List.drop_zero, List.take_of_length_le hd.le]

/-- A line that is held, with word `w` written. -/
def wroteLine (b : BayLine) (w : Nat) (d : List Byte) : BayLine :=
  { b.setWord w d with
    valid := b.valid ||| wordMask [w]
    dirty := b.dirty ||| wordMask [w]
    undef := (b.undef &&& ~~~(wordMask [w])) ||| 0 }

/-- A word written under a hint that keeps stands in its line. -/
theorem bayLine_lineWrite (hen : u.rdB BAY_CFG.EN n = true) (hhint : hint ≠ 0) (hw : w < 16) (hd : d.length = 8) :
    ∃ b, (u.lineWrite n ln w d hint 0).bayLine n ln = some b ∧ b.valid.getLsbD w = true ∧ b.dirty.getLsbD w = true ∧
      b.undef.getLsbD w = false ∧ b.word w = d := by
  have hone : (List.range (d.length / 8)).map (· + w) = [w] := by
    rw [hd]
    simp
  have hmask := getLsbD_wordMask hw
  have hput : ∀ b : BayLine, [w].foldl (fun b w' => b.setWord w' ((d.drop (8 * (w' - w))).take 8)) b = b.setWord w d := fun b => by
    simp only [List.foldl_cons, List.foldl_nil, Nat.sub_self, Nat.mul_zero, List.drop_zero, List.take_of_length_le hd.le]
  unfold State.lineWrite
  simp only [hen, hone, hput, Bool.not_true, Bool.false_eq_true, if_false]
  cases hb : u.bayLine n ln with
  | some b =>
    obtain rfl : b.line = ln := line_of_bayLine hb
    refine ⟨wroteLine b w d, bayLine_bayPut (u.incWrap BAY_CNT0.HITS 1 n) n (wroteLine b w d), ?_, ?_, ?_, word_setWord b hw hd⟩
    all_goals simp [wroteLine, hmask]
  | none =>
    simp only [hhint, if_false]
    exact ⟨_, bayLine_bayPut _ n ⟨ln, _, wordMask [w], wordMask [w], (BayLine.setWord ⟨ln, false, 0, 0, 0, 0⟩ w d).data, 0⟩, hmask, hmask,
      by simp, word_setWord ⟨ln, false, 0, 0, 0, 0⟩ hw hd⟩

end ReadBack

/-! ### What a read of a word delivers -/

/-- A read that delivers a word. -/
def OneWord (x : Rd) : Prop := x.data.length = 8

theorem oneWord_ite {p : Prop} [Decidable p] {a b : Rd} (ha : OneWord a) (hb : OneWord b) : OneWord (if p then a else b) := by
  split <;> assumption

theorem oneWord_hbmWord (s : State) (a : Nat) (g : Agent) : OneWord (s.hbmWord a g) := by
  unfold State.hbmWord
  refine oneWord_ite List.length_replicate ?_
  simp -iota only []
  generalize s.incWrap MEM_RD.BYTES 8 (a / stackSize) = v
  refine oneWord_ite (range_length ..) ?_
  generalize (if hbmKind v.variant a = 1 then Config.unwrittenCheck v.free else 0) = chk
  exact oneWord_ite (leBytes_length ..) (oneWord_ite (leBytes_length ..) (leBytes_length ..))

theorem oneWord_bayServe (s : State) (n : Nat) (b : BayLine) (w : Nat) (g : Agent) : OneWord (s.bayServe n b w g) := by
  unfold State.bayServe
  exact oneWord_ite (leBytes_length ..) (leBytes_length ..)

theorem oneWord_foldRd {f : State → Nat → Rd} {w : Nat} (h : ∀ s, OneWord (f s w)) (s : State) : OneWord (foldRd f [w] s) := by
  unfold OneWord at *
  simp only [foldRd, Rd.ok, List.append_nil, h]

/-- A read of one word of a line delivers 8 bytes. -/
theorem oneWord_lineRead (s : State) (n ln w hint : Nat) (g : Agent) : OneWord (s.lineRead n ln [w] hint false g) := by
  have hstack := oneWord_foldRd (f := fun s w => s.hbmWord (lineAddr n ln + 8 * w) g) (w := w) (fun s => oneWord_hbmWord s _ g)
  unfold State.lineRead
  refine oneWord_ite (hstack _) ?_
  simp only [Bool.false_and, Bool.false_eq_true, if_false]
  cases s.bayLine n ln with
  | some b =>
    refine oneWord_ite (oneWord_foldRd (fun s => oneWord_bayServe s n b w g) _) (oneWord_ite (oneWord_foldRd (fun s => ?_) _) ?_)
    · exact oneWord_ite (oneWord_bayServe ..) (oneWord_hbmWord ..)
    · exact oneWord_foldRd (f := fun s w => s.bayServe n _ w g) (fun s => oneWord_bayServe ..) _
  | none =>
    refine oneWord_ite (hstack _) ?_
    simp only [OneWord, List.map_cons, List.map_nil, List.flatten_cons, List.flatten_nil, List.append_nil, leBytes_length]

theorem length_eRead {a : Nat} (ha : a % 8 = 0) (s : State) (hint : Nat) (g : Agent) : (s.eRead a 8 hint false g).data.length = 8 := by
  rw [eRead_word ha]
  exact (List.length_take ..).trans (by rw [oneWord_lineRead, min_self])

/-- Without a bay cache a word is delivered by a stack that runs. -/
theorem running_of_eRead {s : State} {a hint : Nat} {g : Agent} (ha : a % 8 = 0) (hen : s.rdB BAY_CFG.EN (stackOf a) = false)
    (hue : (s.eRead a 8 hint false g).ue = false) : s.stackStopped a = false := by
  refine Bool.eq_false_iff.2 fun hstop => ?_
  have hstop' : (s.incWrap BAY_CNT0.MISSES 1 (stackOf a)).stackStopped (lineAddr (stackOf a) (lineNo a) + 8 * wordNo a) = true := by
    rw [lineAddr_word ha]
    exact hstop
  rw [eRead_word ha] at hue
  unfold State.lineRead at hue
  simp [hen, State.stackWords, foldRd, State.hbmWord, hstop'] at hue

/-- A read of a word of a module's stacks leaves the configuration alone. -/
theorem bayKept_eRead {a : Nat} (ha : a % 8 = 0) (hlow : a + 128 ≤ 0x400000000000) (s : State) (hint : Nat) (g : Agent) :
    BayKept s (s.eRead a 8 hint false g).st := by
  rw [eRead_word ha]
  refine bayKept_lineRead s ?_ (fun w hw => ?_) hint g
  · have := lineAddr_word ha
    omega
  · rw [List.mem_singleton.1 hw]
    exact wordNo_lt a

theorem aside_unmark (s : State) (place a n : Nat) : Aside s (s.unmark place a n) := ⟨rfl, rfl⟩

/-- A write of a word reaches neither a core nor L-space. -/
theorem aside_eWrite (s : State) {a : Nat} (ha : a % 8 = 0) {d : List Byte} (hd : d.length = 8) (hint : Nat) (g : Agent) :
    Aside s (s.eWrite a d hint g) := by
  rw [eWrite_word ha hd]
  refine aside_ite (.refl s) ?_
  unfold State.lineWrite
  dsimp only
  have hmiss := aside_incWrap s BAY_CNT0.MISSES 1 (stackOf a) 0 0
  refine aside_ite (hmiss.trans (aside_foldl (fun s w => aside_ite (aside_hbmPutUndef ..) (aside_hbmPut ..)) _ _)) ?_
  cases s.bayLine (stackOf a) (lineNo a) with
  | some b => exact ((aside_incWrap ..).trans (aside_bayPut ..)).trans (aside_unmark ..)
  | none =>
    exact aside_ite (hmiss.trans (aside_foldl (fun s w => aside_ite (aside_hbmPutUndef ..) (aside_hbmPut ..)) _ _))
      (hmiss.trans (aside_bayAlloc ..))

/-- A word of E-space that was written reads as written, in any state whose memory is that of the write. -/
theorem eRead_of_eWrite {u t : State} {a hint : Nat} {d : List Byte} {g : Agent} (hmem : u.memOk = true) (hfrozen : u.frozen = false)
    (ha : a % 8 = 0) (hd : d.length = 8) (hhint : hint ≠ 0) (hstop : u.rdB BAY_CFG.EN (stackOf a) = false → u.stackStopped a = false)
    (ht : t.mem = (u.eWrite a d hint g).mem) (hk : BayKept (u.eWrite a d hint g) t) (g' : Agent) : (t.eRead a 8 0 false g').data = d := by
  have hw : u.eWrite a d hint g = u.lineWrite (stackOf a) (lineNo a) (wordNo a) d hint 0 := by
    rw [eWrite_word ha hd, hfrozen, if_neg Bool.false_ne_true]
  have hkept : BayKept u t := (bayKept_eWrite u ha hd hint g).trans hk
  rw [eRead_word ha]
  cases hen : u.rdB BAY_CFG.EN (stackOf a) with
  | true =>
    obtain ⟨b, hb, hvalid, hdirty, hundef, hword⟩ := bayLine_lineWrite (ln := lineNo a) hen hhint (wordNo_lt a) hd
    have hbt : t.bayLine (stackOf a) (lineNo a) = some b := by
      rw [← hb, ← hw]
      unfold State.bayLine State.stack
      rw [ht]
    simp only [lineRead_line ((hkept.enabled _).trans hen) hbt hvalid hdirty hundef, hword, List.take_of_length_le hd.le]
  | false =>
    rw [lineWrite_stack hen hd, lineAddr_word ha] at hw
    set v := u.incWrap BAY_CNT0.MISSES 1 (stackOf a) with hv
    obtain ⟨hrange, hdef⟩ := range_hbmPut (s := v) (memOk_of_onlyLogs (onlyLogs_incWrap u BAY_CNT0.MISSES 1 (stackOf a) 0 0) hmem) (hstop hen) hd
    have htdef : t.hbmDefined a = true := by
      rw [← hdef, ← hw]
      unfold State.hbmDefined
      rw [ht, hk.variant]
    simp only [lineRead_stack ((hkept.enabled _).trans hen) (ln := lineNo a) (w := wordNo a)
      (by rw [lineAddr_word ha, hkept.stopped, hstop hen]) (by rw [lineAddr_word ha, htdef]), lineAddr_word ha, ht, hw, hrange,
      List.take_of_length_le hd.le]

end Sys2Proof.Proofs.Dexica


/-! PROOF of ScalarAtomics (R157, R164, R173, R287, R293, R323, R365). -/

namespace Sys2Proof.Proofs.Dexica

open Sys2Proof Sys2Proof.Machine Sys2Proof.Laws Sys2Proof.Proofs.Scope Sys2Proof.Proofs.Array

section Rows

variable {s : State} {c p : Nat} {w : W32}

/-- What processor `p` of core `c` reads from its registers is the same. -/
def SameX (s t : State) (c p : Nat) : Prop := (t.sp c p).x = (s.sp c p).x ∧ (t.sp c p).pc = (s.sp c p).pc

/-- A byte after an atomic at [a, a + n) that stores, or does not. -/
def afterAtomic (o : Option Nat) (m : SMap Byte) (a n b : Nat) : Byte :=
  match o with
  | some v => if a ≤ b ∧ b < a + n then nth (leBytes n v) 0 (b - a) else SMap.get m 0 b
  | none => SMap.get m 0 b

theorem aSize_mem (i : Nat) : aSize i = 4 ∨ aSize i = 8 := by
  unfold aSize
  split
  · exact .inr rfl
  · exact .inl rfl

/-! ### ATOM.S -/

/-- The store of an atomic to the scratchpad, if there is one. -/
def atomSStore (s : State) (c p a n : Nat) (o : Option Nat) : State :=
  match o with
  | some v => s.spStore c p 0 a (leBytes n v) .scalar
  | none => s

theorem exec_atomS (hl : aLegal w.toNat = true) (hm : iMaj w.toNat = 0x18)
    (hi : Issues s c p [iRd w.toNat, iRs1 w.toNat, iRs2 w.toNat, iRs3 w.toNat] []) :
    exec (.atomS c p w) s = .next (s.access c p w.toNat 0 ((s.sp c p).xr (iRs1 w.toNat)).toNat (aSize w.toNat)
      (!inSpad ((s.sp c p).xr (iRs1 w.toNat)).toNat (aSize w.toNat)) (aSize w.toNat) (fun t =>
        let r := t.sRead c ((s.sp c p).xr (iRs1 w.toNat)).toNat (aSize w.toNat) .scalar (some p)
        (atomSStore r.st c p ((s.sp c p).xr (iRs1 w.toNat)).toNat (aSize w.toNat)
          (aNew (aOp w.toNat) (aSize w.toNat) (ofLe r.data) ((s.sp c p).xr (iRs2 w.toNat)).toNat
            ((s.sp c p).xr (iRs3 w.toNat)).toNat)).retireX c p (iRd w.toNat) (aResult (aSize w.toNat) (ofLe r.data)))) :=
  congrArg Host.Outcome.next (issue_eff hi (by simp [hm]) hl _)

/-- A store by a processor to the scratchpad puts its bytes there and in the processor's load buffers. -/
theorem spStore_spad (hm : s.memOk = true) {a : Nat} {d : List Byte} (hin : a + d.length ≤ accBase) (g : Agent) :
    (∀ b, SMap.get ((s.spStore c p 0 a d g).core c).spad 0 b =
      if a ≤ b ∧ b < a + d.length then nth d 0 (b - a) else SMap.get (s.core c).spad 0 b) ∧
    (s.spStore c p 0 a d g).sp c p = (s.sp c p).vbStore 0 a d ∧ ((s.spStore c p 0 a d g).core c).acc = (s.core c).acc ∧
    (s.spStore c p 0 a d g).mem = s.mem ∧ ∀ e, e ≠ c → (s.spStore c p 0 a d g).core e = s.core e := by
  have hst := stored_sWrite s c a d g (some p)
  have hmod := onlySp_modSp (s.sWrite c a d g (some p)) c p (fun u => u.vbStore 0 a d) []
  have hsp : (s.spStore c p 0 a d g).sp c p = (s.sp c p).vbStore 0 a d := by
    rw [State.spStore, sp_modSp_self]
    exact congrArg (fun u => Sp.vbStore u _ _ _) (hst.sp p)
  refine ⟨fun b => ?_, hsp, ?_, ?_, fun e he => ?_⟩
  · refine (congrArg (fun k : Core => SMap.get k.spad 0 b) hmod.core).trans ?_
    rw [setSp_spad, sWrite_spad hm]
    exact if_congr (by omega) rfl rfl
  · refine (congrArg Core.acc hmod.core).trans ?_
    rw [setSp_acc, sWrite_acc_of_spad s hin]
  · exact (mem_of_onlyCore hmod.toOnlyCore).trans (mem_sWrite ..)
  · exact (hmod.cores e he).trans (hst.cores e he)

/-- The store of an atomic replaces the bytes of the scratchpad that it names, and no other. -/
theorem atomSStore_spec (hm : s.memOk = true) {a n : Nat} (hin : a + n ≤ accBase) (o : Option Nat) :
    SameX s (atomSStore s c p a n o) c p ∧
    (∀ b, SMap.get ((atomSStore s c p a n o).core c).spad 0 b = afterAtomic o (s.core c).spad a n b) ∧
    ((atomSStore s c p a n o).core c).acc = (s.core c).acc ∧ (atomSStore s c p a n o).mem = s.mem ∧
    ∀ d, d ≠ c → (atomSStore s c p a n o).core d = s.core d := by
  cases o with
  | none => exact ⟨⟨rfl, rfl⟩, fun _ => rfl, rfl, rfl, fun _ _ => rfl⟩
  | some v =>
    have hlen := leBytes_length n v
    obtain ⟨hspad, hsp, hacc, hmem, hother⟩ := spStore_spad (c := c) (p := p) hm (d := leBytes n v) (by rwa [hlen]) .scalar
    refine ⟨⟨(congrArg Sp.x hsp :), (congrArg Sp.pc hsp :)⟩, fun b => ?_, hacc, hmem, hother⟩
    exact (hspad b).trans (by rw [hlen]; rfl)

/-- A register that is written differs by the values of the others alone. -/
theorem x_setX {u v : Sp} (h : u.x = v.x) (r : Nat) (y : W64) : (u.setX r y).x = (v.setX r y).x := by
  unfold Sp.setX
  split
  · exact h
  · simp only [h]

theorem completes_atomS {i : Instr} {r : State} {a n rd : Nat} {y : W64} {o : Option Nat} (hm : s.memOk = true) (hlogs : OnlyLogs s r)
    (hin : a + n ≤ accBase) (hexec : exec i s = .next ((atomSStore r c p a n o).retireX c p rd y)) :
    Completes i s (fun t =>
      (t.sp c p).x = ((s.sp c p).setX rd y).x ∧ (t.sp c p).pc = (s.sp c p).pc + 4 ∧
      (∀ b, SMap.get (t.core c).spad 0 b = afterAtomic o (s.core c).spad a n b) ∧
      (t.core c).acc = (s.core c).acc ∧ t.mem = s.mem ∧ ∀ d, d ≠ c → t.core d = s.core d) := by
  obtain ⟨⟨hx, hpc⟩, hspad, hacc, hmem, hother⟩ := atomSStore_spec (c := c) (p := p) (memOk_of_onlyLogs hlogs hm) hin o
  have hret := onlySp_retireX (atomSStore r c p a n o) c p rd y
  rw [hlogs.sp] at hx hpc
  refine ⟨_, hexec, ?_, ?_, fun b => ?_, ?_, ?_, fun d hd => ?_⟩
  · rw [sp_retireX]
    exact x_setX hx rd y
  · rw [sp_retireX, ← hpc]
    exact congrArg (· + 4) (pc_setX ..)
  · rw [hret.core, setSp_spad, hspad, hlogs.core]
  · rw [hret.core, setSp_acc, hacc, hlogs.core]
  · rw [mem_of_onlyCore hret.toOnlyCore, hmem, hlogs.mem]
  · rw [hret.cores d hd, hother d hd, hlogs.core]

/-! ### The old value becomes outstanding (R287) -/

/-- The load of an atomic's old value becomes outstanding, and the instruction retires. -/
def pends (s : State) (c p rd : Nat) (y : W64) : State :=
  (s.modSp c p (fun u => { u with loads := u.loads ++ [⟨rd, y⟩] })).retire c p 4

theorem onlySp_pends (s : State) (c p rd : Nat) (y : W64) : OnlySp s (pends s c p rd y) c p (cntRegs c) :=
  (onlySp_modSp s c p _ (cntRegs c)).trans (onlySp_retire _ c p 4)

theorem sp_pends (s : State) (c p rd : Nat) (y : W64) :
    (pends s c p rd y).sp c p = Sp.past { s.sp c p with loads := (s.sp c p).loads ++ [⟨rd, y⟩] } 4 := by
  unfold pends
  rw [sp_retire, sp_modSp_self]

/-! ### ATOM.L -/

/-- The store of an atomic to L-space, if there is one. -/
def atomLStore (s : State) (c p a n : Nat) (o : Option Nat) : State :=
  match o with
  | some v => s.spStore c p 1 a (leBytes n v) .scalar
  | none => s

theorem exec_atomL (hl : aLegal w.toNat = true) (hm : iMaj w.toNat = 0x19)
    (hi : Issues s c p [iRd w.toNat, iRs1 w.toNat, iRs2 w.toNat, iRs3 w.toNat] []) :
    exec (.atomL c p w) s = .next (s.access c p w.toNat 1 ((s.sp c p).xr (iRs1 w.toNat)).toNat (aSize w.toNat)
      (!inL s.variant ((s.sp c p).xr (iRs1 w.toNat)).toNat (aSize w.toNat)) (aSize w.toNat) (fun t =>
        let r := t.coreRead 1 c ((s.sp c p).xr (iRs1 w.toNat)).toNat (aSize w.toNat) 0 false .scalar (some p)
        pends (atomLStore r.st c p ((s.sp c p).xr (iRs1 w.toNat)).toNat (aSize w.toNat)
          (aNew (aOp w.toNat) (aSize w.toNat) (ofLe r.data) ((s.sp c p).xr (iRs2 w.toNat)).toNat
            ((s.sp c p).xr (iRs3 w.toNat)).toNat)) c p (iRd w.toNat) (aResult (aSize w.toNat) (ofLe r.data)))) :=
  congrArg Host.Outcome.next (issue_eff hi (by simp [hm]) hl _)

/-- The store of an atomic replaces the bytes of L-space that it names, and no other. -/
theorem atomLStore_spec (hm : s.memOk = true) (a n : Nat) (o : Option Nat) :
    SameX s (atomLStore s c p a n o) c p ∧ ((atomLStore s c p a n o).sp c p).loads = (s.sp c p).loads ∧
    (∀ b, SMap.get (atomLStore s c p a n o).mem.loft 0 b = afterAtomic o s.mem.loft a n b) ∧
    (atomLStore s c p a n o).mem.hbm = s.mem.hbm ∧ (∃ u, (atomLStore s c p a n o).core c = (s.core c).setSp p u) ∧
    ∀ d, d ≠ c → (atomLStore s c p a n o).core d = s.core d := by
  cases o with
  | none => exact ⟨⟨rfl, rfl⟩, rfl, fun _ => rfl, rfl, ⟨_, (setSp_sp ..).symm⟩, fun _ _ => rfl⟩
  | some v =>
    obtain ⟨hloft, hsp, hhbm, hcore, hother⟩ := spStore_loft (c := c) (p := p) hm a (leBytes n v) .scalar
    refine ⟨⟨(congrArg Sp.x hsp :), (congrArg Sp.pc hsp :)⟩, (congrArg Sp.loads hsp :), fun b => ?_, hhbm, ⟨_, hcore⟩, hother⟩
    exact (hloft b).trans (by rw [leBytes_length]; rfl)

theorem completes_atomL {i : Instr} {r : State} {a n rd : Nat} {y : W64} {o : Option Nat} (hm : s.memOk = true) (hlogs : OnlyLogs s r)
    (hexec : exec i s = .next (pends (atomLStore r c p a n o) c p rd y)) :
    Completes i s (fun t =>
      (t.sp c p).loads = (s.sp c p).loads ++ [⟨rd, y⟩] ∧ (t.sp c p).x = (s.sp c p).x ∧ (t.sp c p).pc = (s.sp c p).pc + 4 ∧
      (∀ b, SMap.get t.mem.loft 0 b = afterAtomic o s.mem.loft a n b) ∧
      t.mem.hbm = s.mem.hbm ∧ t.core c = (s.core c).setSp p (t.sp c p) ∧ ∀ d, d ≠ c → t.core d = s.core d) := by
  obtain ⟨⟨hx, hpc⟩, hloads, hloft, hhbm, ⟨u, hcore⟩, hother⟩ := atomLStore_spec (c := c) (p := p) (memOk_of_onlyLogs hlogs hm) a n o
  have hret := onlySp_pends (atomLStore r c p a n o) c p rd y
  have hsp := sp_pends (atomLStore r c p a n o) c p rd y
  have hmem := mem_of_onlyCore hret.toOnlyCore
  rw [hlogs.sp] at hx hpc hloads
  refine ⟨_, hexec, ?_, ?_, ?_, fun b => ?_, ?_, ?_, fun d hd => ?_⟩
  · rw [hsp, ← hloads]
    rfl
  · rw [hsp, ← hx]
    rfl
  · rw [hsp, ← hpc]
    rfl
  · rw [hmem, hloft, hlogs.mem]
  · rw [hmem, hhbm, hlogs.mem]
  · rw [hret.core, hcore, hlogs.core, setSp_setSp]
  · rw [hret.cores d hd, hother d hd, hlogs.core]

/-! ### ATOM.E -/

/-- The store of an atomic to its word of E-space, if there is one. -/
def atomEStore (s : State) (c p a off n : Nat) (old : List Byte) (o : Option Nat) : State :=
  match o with
  | some v => s.coreWrite 2 c a (spliceWord old off (leBytes n v)) 2 .scalar (some p)
  | none => s

theorem exec_atomE (ups : List Upset) (hl : aLegal w.toNat = true) (hm : iMaj w.toNat = 0x1A)
    (hi : Issues s c p [iRd w.toNat, iRs1 w.toNat, iRs2 w.toNat, iRs3 w.toNat] []) :
    exec (.atomE c p w ups) s = .next ((s.mark 2 c ups).access c p w.toNat 2 ((s.sp c p).xr (iRs1 w.toNat)).toNat (aSize w.toNat)
      (!inE s.variant ((s.sp c p).xr (iRs1 w.toNat)).toNat (aSize w.toNat)) (aSize w.toNat) (fun t =>
        let a := ((s.sp c p).xr (iRs1 w.toNat)).toNat
        let r := t.coreRead 2 c (a / 8 * 8) 8 2 false .scalar (some p)
        let old := ofLe ((r.data.drop (a % 8)).take (aSize w.toNat))
        if r.ue then r.st
        else pends (atomEStore r.st c p (a / 8 * 8) (a % 8) (aSize w.toNat) r.data (aNew (aOp w.toNat) (aSize w.toNat) old
          ((s.sp c p).xr (iRs2 w.toNat)).toNat ((s.sp c p).xr (iRs3 w.toNat)).toNat)) c p (iRd w.toNat) (aResult (aSize w.toNat) old))) :=
  congrArg Host.Outcome.next (issue_eff hi (by simp [hm]) hl _)

theorem length_spliceWord {old d : List Byte} {off : Nat} (hold : old.length = 8) (h : off + d.length ≤ 8) :
    (spliceWord old off d).length = 8 := by
  simp only [spliceWord, List.length_append, List.length_take, List.length_drop, hold]
  omega

theorem inE_low {v : Variant} {a n : Nat} (h : inE v a n = true) : a + n + 128 ≤ 0x400000000000 := by
  have hle := of_decide_eq_true h
  have hbase : v.resBase + 128 ≤ 0x400000000000 := by cases v <;> decide
  omega

theorem bayKept_mark (s : State) (space c : Nat) (ups : List Upset) : BayKept s (s.mark space c ups) := by
  have h := (marked_mark s space c ups).rest
  exact bayKept_of_same (by rw [h]) (by rw [h]) (by rw [h]) (by rw [h])

theorem bayKept_of_onlyCore {s t : State} {c : Nat} (h : OnlyCore s t c (cntRegs c)) : BayKept s t := by
  have hrest := h.rest
  refine ⟨fun n => h.regs _ _ _ _ fun hm => (apart_cntRegs c _ hm).1 (addr_bayCfg n),
    h.regs _ _ _ _ fun hm => (apart_cntRegs c _ hm).2 addr_winTd, ?_, ?_, fun n => ?_⟩
  · rw [hrest]
  · rw [hrest]
  · unfold State.stack
    rw [hrest]

/-- Memory after an atomic in a word of E-space, in terms of the state `u` that its read leaves. -/
def AtomStored (frozen : Bool) (u t : State) (a off n : Nat) (old : List Byte) (o : Option Nat) : Prop :=
  match o with
  | some v =>
    t.mem = (u.eWrite a (spliceWord old off (leBytes n v)) 2 .scalar).mem ∧
    (frozen = false → (t.eRead a 8 0 false .scalar).data = spliceWord old off (leBytes n v))
  | none => t.mem = u.mem

/-- The word that an atomic stores is the one that a write makes of it, and reads as written. -/
theorem atomEStore_spec {u : State} {a off n : Nat} {old : List Byte} (hm : u.memOk = true) (ha : a % 8 = 0) (hold : old.length = 8)
    (hoff : off + n ≤ 8) (hstop : u.rdB BAY_CFG.EN (stackOf a) = false → u.stackStopped a = false) (k : Nat) (o : Option Nat) (rd : Nat)
    (y : W64) :
    AtomStored u.frozen u (pends (atomEStore (u.count c 0x42 (some p) k) c p a off n old o) c p rd y) a off n old o ∧
    Aside u (atomEStore (u.count c 0x42 (some p) k) c p a off n old o) := by
  have hcount := onlyRegs_count u c 0x42 (some p) k
  have hret := onlySp_pends (atomEStore (u.count c 0x42 (some p) k) c p a off n old o) c p rd y
  have hmem := mem_of_onlyCore hret.toOnlyCore
  cases o with
  | none => exact ⟨hmem.trans hcount.logs.mem, aside_of_onlyLogs hcount.logs⟩
  | some v =>
    have hlen := length_spliceWord hold (d := leBytes n v) (off := off) (by rw [leBytes_length]; exact hoff)
    have hback := onlyRegs_count (((u.count c 0x42 (some p) k).eWrite a (spliceWord old off (leBytes n v)) 2 .scalar)) c 0x43 (some p)
      (spliceWord old off (leBytes n v)).length
    have hkept := bayKept_of_onlyRegs hcount (apart_cntRegs c)
    have hsame := onlyLogs_eWrite hcount.logs hkept ha hlen 2 .scalar
    refine ⟨⟨(hmem.trans hback.logs.mem).trans hsame.mem, fun hfrozen => ?_⟩,
      ((aside_of_onlyLogs hcount.logs).trans (aside_eWrite _ ha hlen 2 .scalar)).trans (aside_of_onlyLogs hback.logs)⟩
    refine eRead_of_eWrite (memOk_of_onlyLogs hcount.logs hm) (hkept.frozen.trans hfrozen) ha hlen (by norm_num) (fun hen => ?_)
      (hmem.trans hback.logs.mem) ((bayKept_of_onlyRegs hback (apart_cntRegs c)).trans (bayKept_of_onlyCore hret.toOnlyCore)) _
    exact (hkept.stopped a).trans (hstop ((hkept.enabled _).symm.trans hen))

/-- Upsets in E-space are marked beside cores and L-space. -/
theorem aside_markE (s : State) (c : Nat) (ups : List Upset) : Aside s (s.mark 2 c ups) := by
  unfold State.mark
  split
  · exact .refl s
  · exact ⟨rfl, rfl⟩

theorem completes_atomE {i : Instr} {u : State} {r : Rd} {a n rd : Nat} {y : W64} {o : Option Nat} (hu : u.memOk = true) (hside : Aside s u)
    (hkept : BayKept s u) (hn : n = 4 ∨ n = 8) (hal : a % n = 0) (hlow : a + n + 128 ≤ 0x400000000000)
    (hr : r = u.eRead (a / 8 * 8) 8 2 false .scalar) (hue : r.ue = false)
    (hexec : exec i s = .next (pends (atomEStore (r.st.count c 0x42 (some p) 8) c p (a / 8 * 8) (a % 8) n r.data o) c p rd y)) :
    Completes i s (fun t =>
      (t.sp c p).loads = (s.sp c p).loads ++ [⟨rd, y⟩] ∧
      AtomStored s.frozen r.st t (a / 8 * 8) (a % 8) n r.data o ∧
      (t.sp c p).x = (s.sp c p).x ∧ (t.sp c p).pc = (s.sp c p).pc + 4 ∧
      t.core c = (s.core c).setSp p (t.sp c p) ∧ t.mem.loft = s.mem.loft ∧ ∀ d, d ≠ c → t.core d = s.core d) := by
  have ha8 : a / 8 * 8 % 8 = 0 := Nat.mul_mod_left ..
  have hread : BayKept u r.st := hr ▸ bayKept_eRead ha8 (by omega) u 2 .scalar
  have hold : r.data.length = 8 := hr ▸ length_eRead ha8 u 2 .scalar
  have hok : r.st.memOk = true := hr ▸ (kept_eRead (Kept.refl u) _ _ _ _ _).kept.mem hu
  have hrun : r.st.rdB BAY_CFG.EN (stackOf (a / 8 * 8)) = false → r.st.stackStopped (a / 8 * 8) = false := fun hen => by
    rw [hread.stopped]
    exact running_of_eRead ha8 ((hread.enabled _).symm.trans hen) (hr ▸ hue)
  have hoff : a % 8 + n ≤ 8 := by
    rcases hn with rfl | rfl <;> omega
  obtain ⟨hstore, haside⟩ := atomEStore_spec (c := c) (p := p) (off := a % 8) (n := n) hok ha8 hold hoff hrun 8 o rd y
  have hcores := (hside.trans (hr ▸ aside_eRead ..)).trans haside
  have hret := onlySp_pends (atomEStore (r.st.count c 0x42 (some p) 8) c p (a / 8 * 8) (a % 8) n r.data o) c p rd y
  have hsp := sp_pends (atomEStore (r.st.count c 0x42 (some p) 8) c p (a / 8 * 8) (a % 8) n r.data o) c p rd y
  rw [State.sp, State.sp, hcores.core] at hsp
  refine ⟨_, hexec, (congrArg Sp.loads hsp :), ?_, (congrArg Sp.x hsp :), (congrArg Sp.pc hsp :), ?_, ?_, fun d hd => ?_⟩
  · rwa [hread.frozen, hkept.frozen] at hstore
  · rw [hret.core, hcores.core]
  · rw [mem_of_onlyCore hret.toOnlyCore, hcores.2]
  · rw [hret.cores d hd, hcores.core]

end Rows

/-- Settles O6: each atomic where it goes ahead, and where it does not. -/
theorem scalarAtomics : Obligations.ScalarAtomics := by
  intro s c p w a n hm hlegal ha hn hi
  subst ha hn
  refine ⟨fun hmaj hin hg => ?_, fun hmaj hin hg => ?_, fun ups r hmaj hin hg hr hue => ?_,
    fun hmaj => memoryGuards_of_access (exec_atomS hlegal hmaj hi) (by simp [inSpad]),
    fun hmaj => memoryGuards_of_access (exec_atomL hlegal hmaj hi) not_inL_iff,
    fun ups hmaj => memoryGuards_of_access (exec_atomE ups hlegal hmaj hi) (by simp [inE])⟩
  · have hexec := exec_atomS hlegal hmaj hi
    rw [access_goes (by simp [hin]) hg.aligned hg.free hg.idle] at hexec
    have hdata := sRead_data_spad s c _ _ .scalar (some p) (of_decide_eq_true hin)
    simp only [hdata] at hexec
    exact completes_atomS hm (onlyLogs_sRead ..) (of_decide_eq_true hin) hexec
  · have hexec := exec_atomL hlegal hmaj hi
    rw [access_goes (by simp [hin]) hg.aligned hg.free hg.idle] at hexec
    exact completes_atomL hm ((onlyLogs_lRead ..).trans (onlyRegs_count ..).logs) hexec
  · have hexec := exec_atomE ups hlegal hmaj hi
    rw [access_of_goes (marked_mark s 2 c ups) hg (by simp [hin])] at hexec
    have hread : (s.mark 2 c ups).coreRead 2 c (((s.sp c p).xr (iRs1 w.toNat)).toNat / 8 * 8) 8 2 false .scalar (some p) =
        { r with st := r.st.count c 0x42 (some p) 8 } := by
      rw [hr]
      rfl
    simp only [hread, hue, Bool.false_eq_true, if_false] at hexec
    exact completes_atomE (memOk_mark hm ..) (aside_markE ..) (bayKept_mark ..) (aSize_mem _) hg.aligned (inE_low hin) hr hue hexec

end Sys2Proof.Proofs.Dexica


/-! PROOF of VectorConversion (R44 to R47, R51 to R57, R153). -/

namespace Sys2Proof.Proofs.Dexica

open Sys2Proof Sys2Proof.Machine Sys2Proof.Laws Sys2Proof.Proofs.Scope Sys2Proof.Proofs.Formats

/-! ### The destination of a conversion -/

section Destination

variable {src dst rm x : Nat} {sat : Bool}

theorem convert_intN (h2 : 2 ≤ dst) (h6 : dst ≤ 6) : convert src dst rm sat x = toIntN (fmtBits dst) rm (anyVal src x) := by
  have hint : fmtInt dst = true := by simp [fmtInt, h6, (by omega : 1 ≤ dst)]
  rw [convert, if_neg (by omega), if_neg (by omega), if_pos hint]

theorem convert_fp (h7 : 7 ≤ dst) (h14 : dst ≤ 14) : convert src dst rm sat x = toFp dst rm sat (anyVal src x) := by
  have hint : fmtInt dst = false := by simp [fmtInt, (by omega : 6 < dst)]
  rw [convert, if_neg (by omega), if_neg (by omega), hint, if_neg Bool.false_ne_true]

theorem convert_int1 : convert src 1 rm sat x = toInt1 (anyVal src x) := rfl

theorem convert_e8m0 : convert src 15 rm sat x = toE8M0 (anyVal src x) := rfl

end Destination

/-! ### The source of a conversion (R44 to R47) -/

theorem numOf_int (i : ℤ) : numOf (.fin (decide (i < 0)) i.natAbs 0) = some (i : ℚ) := by
  have hq : (i.natAbs : ℚ) = |(i : ℚ)| := by rw [Nat.cast_natAbs, Int.cast_abs]
  rw [numOf_fin]
  rcases Int.lt_or_le i 0 with h | h
  · rw [decide_eq_true h, num_true, num_int, hq, abs_of_neg (Int.cast_lt_zero.2 h), neg_neg]
  · rw [decide_eq_false (not_lt.2 h), num_int, hq, abs_of_nonneg (Int.cast_nonneg h)]

theorem numOf_anyVal_int {src : Nat} (h1 : 1 ≤ src) (h6 : src ≤ 6) (x : Nat) : numOf (anyVal src x) = some (intVal src x : ℚ) := by
  have hint : fmtInt src = true := by simp [fmtInt, h1, h6]
  rw [anyVal, if_neg (by omega), if_pos hint, numOf_int]

/-! ### A number in an integer format (R51, R54, R55, R57) -/

section Number

variable {rm : Nat} {neg : Bool} {m : Nat} {e : ℤ}

/-- The integer that a number is rounded to, and whether it differs. -/
theorem rounded_roundAt (hrm : rm < 4) :
    rounded rm (num neg m e) = (if neg then -((roundAt rm neg m e 0).1 : ℤ) else (roundAt rm neg m e 0).1) ∧
    ((roundAt rm neg m e 0).2 = false ↔ (rounded rm (num neg m e) : ℚ) = num neg m e) := by
  have hr := rounded_num hrm neg m e 0
  have hinx := roundAt_inexact rm neg m e 0
  rw [Int.sub_zero] at hr hinx
  constructor
  · have hcast : num neg (roundAt rm neg m e 0).1 0 =
        ((if neg then -((roundAt rm neg m e 0).1 : ℤ) else (roundAt rm neg m e 0).1 : ℤ) : ℚ) := by
      cases neg <;> simp [num_true]
    rw [hcast] at hr
    exact_mod_cast hr
  · rw [hr, num_inj, num_int, ← Bool.not_eq_true, hinx, not_not]

theorem toIntN_num {n : Nat} (hrm : rm < 4) : toIntN n rm (.fin neg m e) =
    (wrapN n (max (iMin n) (min (iMax n) (rounded rm (num neg m e)))),
      if rounded rm (num neg m e) < iMin n ∨ iMax n < rounded rm (num neg m e) then fOF + fNX
      else if (rounded rm (num neg m e) : ℚ) = num neg m e then 0 else fNX) := by
  obtain ⟨hint, hexact⟩ := rounded_roundAt (neg := neg) (m := m) (e := e) hrm
  have hmin := iMin_nonpos n
  have hmax := iMax_nonneg n
  rw [toIntN]
  simp only [← hint]
  generalize rounded rm (num neg m e) = i at hexact ⊢
  rcases lt_or_ge i (iMin n) with hlow | hlow
  · rw [if_pos hlow, if_pos (.inl hlow), max_eq_left ((min_le_right _ _).trans hlow.le)]
  · rw [if_neg (not_lt.2 hlow), max_eq_right (le_min (hmin.trans hmax) hlow)]
    rcases lt_or_ge (iMax n) i with hhigh | hhigh
    · rw [if_pos hhigh, if_pos (.inr hhigh), min_eq_left hhigh.le]
    · rw [if_neg (not_lt.2 hhigh), if_neg (not_or.2 ⟨not_lt.2 hlow, not_lt.2 hhigh⟩), min_eq_right hhigh]
      congr 1
      by_cases hq : (i : ℚ) = num neg m e
      · rw [if_pos hq, hexact.2 hq, if_neg Bool.false_ne_true]
      · rw [if_neg hq, if_pos (Bool.of_not_eq_false (mt hexact.1 hq))]

/-! ### A number in INT1 (R54) -/

theorem num_neg_iff : num neg m e < 0 ↔ neg = true ∧ m ≠ 0 := by
  cases neg with
  | false => simpa using num_false_nonneg m e
  | true =>
    rw [num_true, neg_lt_zero]
    refine ⟨fun h => ⟨rfl, fun hm => ?_⟩, fun h => num_false_pos h.2 e⟩
    rw [num_eq_zero_iff.2 hm] at h
    exact lt_irrefl _ h

theorem num_eq_one_iff : num false m e = 1 ↔ if 0 ≤ e then m <<< e.toNat = 1 else m = 2 ^ (-e).toNat := by
  split
  · next he =>
    rw [num_shift (q := 0) he, Int.sub_zero, num_int, Nat.cast_eq_one]
  · next he =>
    obtain ⟨k, rfl⟩ : ∃ k : ℕ, e = -k := ⟨(-e).toNat, by omega⟩
    rw [num_false, zpow_neg, zpow_natCast, neg_neg, Int.toNat_natCast, mul_inv_eq_one₀ (by positivity)]
    exact_mod_cast Iff.rfl

theorem toInt1_num : toInt1 (.fin neg m e) = (if num neg m e < 0 then 0 else 1, if |num neg m e| = 1 then 0 else fNX) := by
  have hone : (if 0 ≤ e then decide (m <<< e.toNat = 1) else decide (m = 2 ^ (-e).toNat)) = true ↔ |num neg m e| = 1 := by
    rw [abs_num, num_eq_one_iff]
    split <;> exact decide_eq_true_iff
  simp only [toInt1, num_neg_iff, hone, Bool.and_eq_true, decide_eq_true_eq]

/-! ### A number in E8M0 (R56) -/

theorem power_iff (hm : m ≠ 0) : (2 : ℚ) ^ (e + (Nat.log2 m : ℤ)) = num neg m e ↔ neg = false ∧ m = 2 ^ Nat.log2 m := by
  have hpow : (0 : ℚ) < 2 ^ e := by positivity
  cases neg with
  | true =>
    have hlt := (num_neg_iff (neg := true) (m := m) (e := e)).2 ⟨rfl, hm⟩
    refine ⟨fun h => absurd (h ▸ hlt) (not_lt.2 (zpow_nonneg zero_le_two _)), fun h => absurd h.1 (by decide)⟩
  | false =>
    rw [num_false, zpow_add₀ two_ne_zero, zpow_natCast, mul_comm, mul_left_inj' hpow.ne', eq_comm]
    simp only [true_and]
    exact_mod_cast Iff.rfl

theorem toE8M0_num : toE8M0 (.fin neg m e) =
    (if num neg m e = 0 then 0 else (max 0 (min 254 (Int.log 2 |num neg m e| + 127))).toNat,
      if num neg m e = 0 then fNX else if Int.log 2 |num neg m e| < -127 then fUF + fNX
      else if 127 < Int.log 2 |num neg m e| then fOF + fNX
      else if (2 : ℚ) ^ Int.log 2 |num neg m e| = num neg m e then 0 else fNX) := by
  simp only [toE8M0, num_eq_zero_iff]
  by_cases hm : m = 0
  · simp only [if_pos hm]
  · simp only [if_neg hm, abs_num, log_num hm, power_iff hm]
    have hinexact : (neg || decide (m ≠ 2 ^ Nat.log2 m)) = true ↔ ¬(neg = false ∧ m = 2 ^ Nat.log2 m) := by
      cases neg <;> simp
    simp only [hinexact, ite_not]
    generalize e + (Nat.log2 m : ℤ) = k
    rcases lt_or_ge k (-127) with hlow | hlow
    · rw [if_pos (show k + 127 < 0 by omega), if_pos hlow, max_eq_left (show min 254 (k + 127) ≤ 0 by omega)]
      rfl
    · rw [if_neg (show ¬k + 127 < 0 by omega), if_neg (not_lt.2 hlow)]
      rcases lt_or_ge 127 k with hhigh | hhigh
      · rw [if_pos (show 254 < k + 127 by omega), if_pos hhigh, min_eq_left (show 254 ≤ k + 127 by omega)]
        rfl
      · rw [if_neg (show ¬254 < k + 127 by omega), if_neg (not_lt.2 hhigh), min_eq_right (show k + 127 ≤ 254 by omega),
          max_eq_right (show 0 ≤ k + 127 by omega)]

end Number

/-! ### NaN and the infinities (R53, R54, R56) -/

section Special

variable {src dst rm x : Nat} {sat : Bool}

theorem toFp_nan (f rm : Nat) (sat : Bool) : toFp f rm sat .nan = (nanCode f, if (fpFmt f).nan.isNone then fNV else 0) := rfl

/-- A floating format with infinities takes an infinity as one, or saturated. -/
theorem toFp_inf_of_hasInf {f : Nat} (h : (fpFmt f).hasInf = true) (rm : Nat) (sat n : Bool) :
    toFp f rm sat (.inf n) = ((fpFmt f).withSign n (if sat then (fpFmt f).maxc else (fpFmt f).infCode), 0) := by
  simp only [toFp, h, if_true]

/-- A floating format without NaN has no infinities either, and takes its largest value. -/
theorem toFp_inf_of_finite {f : Nat} (h : (fpFmt f).hasInf = false) (hnan : (fpFmt f).nan = none) (rm : Nat) (sat n : Bool) :
    toFp f rm sat (.inf n) = ((fpFmt f).withSign n (fpFmt f).maxc, fNV) := by
  simp only [toFp, h, hnan, Option.isSome_none, Bool.false_and, Bool.false_eq_true, if_false]

theorem convert_nan (hv : anyVal src x = .nan) : convert src dst rm sat x = match dst with
    | 1 => (1, fNV)
    | 7 | 8 | 9 => (0, fNV)
    | 10 => (0x7F, 0)
    | 11 => (0x7E, 0)
    | 12 => (0x7FC0, 0)
    | 13 => (0x7E00, 0)
    | 14 => (0x7FC00000, 0)
    | 15 => (0xFF, 0)
    | d => if 2 ≤ d ∧ d ≤ 6 then (0, fNV) else convert src dst rm sat x := by
  have hfp := fun (h7 : 7 ≤ dst) (h14 : dst ≤ 14) => (convert_fp (src := src) (rm := rm) (sat := sat) (x := x) h7 h14).trans
    ((congrArg _ hv).trans (toFp_nan dst rm sat))
  split
  case h_11 =>
    split
    · next h => rw [convert_intN h.1 h.2, hv, toIntN]
    · rfl
  case h_1 => rw [convert_int1, hv, toInt1]
  case h_10 => rw [convert_e8m0, hv, toE8M0]
  all_goals exact hfp (by decide) (by decide)

theorem convert_inf {n : Bool} (hv : anyVal src x = .inf n) :
    (11 ≤ dst → dst ≤ 14 → convert src dst rm sat x =
      ((fpFmt dst).withSign n (if sat then (fpFmt dst).maxc else (fpFmt dst).infCode), 0)) ∧
    (dst = 10 → convert src dst rm sat x = (if sat then (if n then 0xFE else 0x7E) else 0x7F, fNV)) ∧
    (7 ≤ dst → dst ≤ 9 → convert src dst rm sat x = ((fpFmt dst).withSign n (fpFmt dst).maxc, fNV)) ∧
    (2 ≤ dst → dst ≤ 6 → convert src dst rm sat x = (wrapN (fmtBits dst) (if n then iMin (fmtBits dst) else iMax (fmtBits dst)), fNV)) ∧
    (dst = 1 → convert src dst rm sat x = (if n then 0 else 1, fNV)) ∧ (dst = 15 → convert src dst rm sat x = (0xFF, fNV)) := by
  refine ⟨fun h11 h14 => ?_, fun h => ?_, fun h7 h9 => ?_, fun h2 h6 => ?_, fun h => ?_, fun h => ?_⟩
  · have hinf : (fpFmt dst).hasInf = true := by interval_cases dst <;> rfl
    rw [convert_fp (by omega) h14, hv, toFp_inf_of_hasInf hinf]
  · subst h
    rw [convert_fp (by decide) (by decide), hv]
    cases sat <;> cases n <;> rfl
  · have hinf : (fpFmt dst).hasInf = false ∧ (fpFmt dst).nan = none := by interval_cases dst <;> exact ⟨rfl, rfl⟩
    rw [convert_fp h7 (by omega), hv, toFp_inf_of_finite hinf.1 hinf.2]
  · rw [convert_intN h2 h6, hv, toIntN]
  · rw [h, convert_int1, hv, toInt1]
  · rw [h, convert_e8m0, hv, toE8M0]

end Special

/-! ### VCVT (R153) -/

theorem lane_shift (w x j k : Nat) : lane w (x >>> (j * w)) k = lane w x (j + k) := by
  rw [lane, lane, ← Nat.shiftRight_add, Nat.mul_add, Nat.mul_comm j]

theorem packAt_toNat {N w j : Nat} {l : List Nat} (hfit : (j + l.length) * w ≤ N) :
    (BitVec.ofNat N (packLanes w l <<< (j * w))).toNat = packLanes w l <<< (j * w) := by
  rw [BitVec.toNat_ofNat, Nat.mod_eq_of_lt]
  calc packLanes w l <<< (j * w) = packLanes w l * 2 ^ (j * w) := Nat.shiftLeft_eq ..
    _ < 2 ^ (w * l.length) * 2 ^ (j * w) := Nat.mul_lt_mul_of_pos_right (packLanes_lt w l) (Nat.two_pow_pos _)
    _ = 2 ^ ((j + l.length) * w) := by rw [← Nat.pow_add]; ring_nf
    _ ≤ 2 ^ N := Nat.pow_le_pow_right two_pos hfit

/-- Lanes packed at a place of a register read as packed. -/
theorem lane_packAt {N w j k : Nat} {l : List Nat} (hfit : (j + l.length) * w ≤ N) (hk : k < l.length) :
    lane w (BitVec.ofNat N (packLanes w l <<< (j * w))).toNat (j + k) = l[k] % 2 ^ w := by
  rw [packAt_toNat hfit, ← lane_shift, Nat.shiftLeft_shiftRight, lane_packLanes]

/-- The bits beside them are 0. -/
theorem getLsbD_packAt {N w j b : Nat} (l : List Nat) (hb : b < j * w ∨ (j + l.length) * w ≤ b) :
    (BitVec.ofNat N (packLanes w l <<< (j * w))).getLsbD b = false := by
  rw [BitVec.getLsbD_ofNat, Nat.testBit_shiftLeft]
  rcases hb with hlow | hhigh
  · simp [not_le.2 hlow]
  · have hlen : w * l.length ≤ b - j * w := by
      rw [Nat.add_mul, Nat.mul_comm l.length] at hhigh
      omega
    have hlt := (packLanes_lt w l).trans_le (Nat.pow_le_pow_right two_pos hlen)
    simp [Nat.testBit_lt_two_pow hlt]

/-- The first lane of a VCVT's chunk in a register of `here`-bit lanes, where the other side has `there`-bit lanes. -/
def cvtAt (here there i : Nat) : Nat := if here < there then cvtH i * cvtN i else 0

/-- A VCVT's chunk fits the register that it is written to. -/
theorem cvtAt_fits {i : Nat} (h : cvtLegal i = true) :
    (cvtAt (fmtBits (cvtDst i)) (fmtBits (cvtSrc i)) i + cvtN i) * fmtBits (cvtDst i) ≤ 1024 := by
  unfold cvtAt
  split
  · next hlt =>
    rw [cvtLegal, if_neg (by omega)] at h
    have hfit := of_decide_eq_true (Bool.and_eq_true_iff.1 h).2
    rwa [cvtNarrow, min_eq_right hlt.le, Nat.succ_mul] at hfit
  · rw [Nat.zero_add]
    refine (Nat.mul_le_mul_left _ ?_).trans (Nat.div_mul_le_self 1024 (max (max (fmtBits (cvtSrc i)) (fmtBits (cvtDst i))) 8))
    omega

/-- The elements of a VCVT, each with its flags. -/
def cvtElems (i x : Nat) : List Fr :=
  ((List.range (cvtN i)).map (fun k => lane (fmtBits (cvtSrc i)) x (cvtAt (fmtBits (cvtSrc i)) (fmtBits (cvtDst i)) i + k))).map
    (convert (cvtSrc i) (cvtDst i) (bits i 26 25) (bitB i 27))

/-- What a VCVT leaves in its destination. -/
def cvtResult (i x : Nat) : V1024 :=
  BitVec.ofNat 1024 (packLanes (fmtBits (cvtDst i)) ((cvtElems i x).map (·.1)) <<<
    (cvtAt (fmtBits (cvtDst i)) (fmtBits (cvtSrc i)) i * fmtBits (cvtDst i)))

theorem length_cvtElems (i x : Nat) : (cvtElems i x).length = cvtN i := by simp [cvtElems]

/-- The lanes of a VCVT's chunk, as its source side is shifted. -/
theorem lanes_cvtAt (here there i x : Nat) : lanes here (cvtN i) (if here < there then x >>> (cvtH i * cvtN i * here) else x) =
    (List.range (cvtN i)).map (fun k => lane here x (cvtAt here there i + k)) := by
  refine List.map_congr_left fun k _ => ?_
  unfold cvtAt
  split
  · exact lane_shift ..
  · rw [Nat.zero_add]

/-- A VCVT's result, as its destination side is shifted. -/
theorem shift_cvtAt (here there i y : Nat) : (if here < there then y <<< (cvtH i * cvtN i * here) else y) = y <<< (cvtAt here there i * here) := by
  unfold cvtAt
  split
  · rfl
  · rw [Nat.zero_mul, Nat.shiftLeft_zero]

/-- Settles O20: the conversion of one element by its destination, and the elements of an instruction. -/
theorem vectorConversion : Obligations.VectorConversion := by
  refine ⟨fun src dst rm x sat v h1 h15 hrm hv => ⟨fun h6 => hv ▸ numOf_anyVal_int h1 h6 x, fun h => ?_, fun q hq => ?_,
    fun hnan => convert_nan (hv.symm.trans hnan), fun n hinf => convert_inf (hv.symm.trans hinf)⟩, ?_⟩
  · rw [hv, h, anyVal, if_pos rfl]
  · obtain ⟨n, m, e, rfl, rfl⟩ := exists_of_numOf hq
    refine ⟨fun h7 h14 => ?_, fun h2 h6 => ?_, fun h => ?_, fun h => ?_⟩
    · rw [convert_fp h7 h14, ← hv]
      exact roundFp_roundsTo h7 h14 hrm sat n m e
    · rw [convert_intN h2 h6, ← hv, toIntN_num hrm]
    · rw [h, convert_int1, ← hv, toInt1_num]
    · rw [h, convert_e8m0, ← hv, toE8M0_num]
  · intro s c p w hmaj hlegal ws wd n h x hws hwd hn hh hx
    subst hws hwd hn hh hx
    refine vectorRow_of_issueV rfl (by simp [hmaj]) hlegal (fun hexec => ?_)
    simp only [sp_throttled, lanes_cvtAt, shift_cvtAt] at hexec
    have hlen : ((cvtElems w.toNat ((s.sp c p).vr (iRs1 w.toNat)).toNat).map (·.1)).length = cvtN w.toNat := by
      rw [List.length_map, length_cvtElems]
    have hput : exec (.vcvt c p w) s = .next ((s.throttled c).2.putV c p (iRd w.toNat)
      (cvtResult w.toNat ((s.sp c p).vr (iRs1 w.toNat)).toNat, orFlags (cvtElems w.toNat ((s.sp c p).vr (iRs1 w.toNat)).toNat))) := hexec
    refine ⟨_, hput, cvtResult w.toNat ((s.sp c p).vr (iRs1 w.toNat)).toNat, ?_, fun k hk => ?_, fun b _ hb => ?_, ?_, onlySp_putV _ c p _ _⟩
    · rw [sp_putV, sp_throttled]
    · refine (lane_packAt (by rw [hlen]; exact cvtAt_fits hlegal) (by rwa [hlen])).trans ?_
      simp only [cvtElems, List.getElem_map, List.getElem_range]
      rfl
    · exact getLsbD_packAt _ (by rw [hlen]; exact hb)
    · rw [reg_putV, reg_throttled, orFlags, cvtElems, List.foldl_map, List.foldl_map]
      rfl

end Sys2Proof.Proofs.Dexica


/-! PROOF of VectorMemory (R125, R127, R141, R154, R157, R173, R322, R523): rules of the accesses of the vector unit to the scratchpad and to
L-space. -/

namespace Sys2Proof.Proofs.Dexica

open Sys2Proof Sys2Proof.Machine Sys2Proof.Laws Sys2Proof.Proofs.Scope Sys2Proof.Proofs.Array Sys2Proof.Proofs.Formats

theorem onlyLogs_throttled (s : State) (c : Nat) : OnlyLogs s (s.throttled c).2 := by
  unfold State.throttled
  split
  · exact .refl s
  · exact rfl

theorem variant_of_onlyLogs {s t : State} (h : OnlyLogs s t) : t.variant = s.variant := by
  unfold OnlyLogs at h
  rw [h]

/-- Bytes spell a number of their size. -/
theorem ofLe_lt (d : List Byte) : ofLe d < 2 ^ (8 * d.length) := by
  have h := ofLe_leBytes d.length (ofLe d)
  rw [leBytes_ofLe] at h
  rw [h]
  exact Nat.mod_lt _ (Nat.two_pow_pos _)

/-! ### Accesses that stay in the scratchpad or in L-space -/

section Flat

variable {s : State} {c p space a n : Nat}

theorem not_touchesAcc (h : a + n ≤ accBase) : touchesAcc a n = false := by
  simp [touchesAcc, h]

/-- The scratchpad is in no pass's way. -/
theorem accBusy_spad (h : a + n ≤ accBase) (q : Option Nat) : s.accBusy c q a n = false := by
  rw [State.accBusy, groupsOf, not_touchesAcc h, if_neg Bool.false_ne_true, List.any_nil]

theorem vBarred_flat (hs : space ≤ 1) (h : flatIn s space a n) (e : Nat) : vBarred s.variant space a n e = false := by
  match space, hs with
  | 0, _ =>
    have hin : a + n ≤ accBase := h
    have hs : inS a n = true := decide_eq_true (hin.trans (by decide))
    rw [vBarred, if_pos rfl, hs, not_touchesAcc hin]
    rfl
  | 1, _ =>
    have hin : inL s.variant a n = true := decide_eq_true h
    rw [vBarred, if_neg (by decide), hin]
    rfl

/-- So is what lies below the end of such an access. -/
theorem flatIn_below (h : flatIn s space a n) {b m : Nat} (hb : b + m ≤ a + n) : flatIn s space b m := by
  unfold flatIn at *
  split
  · next hs => exact hb.trans (by rwa [if_pos hs] at h)
  · next hs => exact hb.trans (by rwa [if_neg hs] at h)

/-- An access that R125 bars lies beyond its space, or is not of whole words of the accumulators. -/
theorem vBarred_iff {v : Variant} {e : Nat} (hn : 0 < n) : vBarred v space a n e = true ↔
    if space = 0 then sEnd < a + n ∨ (accBase < a + n ∧ (e ≠ 4 ∨ a % 4 ≠ 0)) else v.lEnd < a + n := by
  unfold vBarred
  split
  · have hiff : sEnd < a + n ∨ ((a < sEnd ∧ accBase < a + n) ∧ (e ≠ 4 ∨ a % 4 ≠ 0)) ↔
        sEnd < a + n ∨ (accBase < a + n ∧ (e ≠ 4 ∨ a % 4 ≠ 0)) := by
      omega
    simpa [inS, touchesAcc] using hiff
  · exact not_inL_iff

/-- A range of the scratchpad or of L-space, byte by byte. -/
theorem flatRange_eq (hm : s.memOk = true) (c space a n : Nat) :
    flatRange s c space a n = (List.range n).map (fun k => flatByte s c space (a + k)) := by
  have hwf : SMap.wf s.mem.loft (fun _ => some 0) = true := by
    have hmem := ((memOk_iff s).1 hm).1
    rw [Memory.wf, Bool.and_eq_true] at hmem
    exact hmem.1
  refine List.ext_getElem (by rw [flatRange_length, List.length_map, List.length_range]) fun k hk _ => ?_
  have hkn : k < n := by rwa [flatRange_length] at hk
  have hnth : nth (flatRange s c space a n) 0 k = flatByte s c space (a + k) := by
    unfold flatRange flatByte
    split
    · exact range_get ((wf_core _).1 (core_wf_of_memOk hm c)).1 a n k hkn
    · exact range_get hwf a n k hkn
  rw [nth, List.getElem?_eq_getElem hk, Option.getD_some] at hnth
  rw [hnth, List.getElem_map, List.getElem_range]

/-- A part of a range. -/
theorem take_drop_flatRange (hm : s.memOk = true) {k N : Nat} (h : k + n ≤ N) :
    ((flatRange s c space a N).drop k).take n = flatRange s c space (a + k) n := by
  rw [flatRange_eq hm, flatRange_eq hm]
  refine List.ext_getElem ?_ fun j hj hj' => ?_
  · simp only [List.length_take, List.length_drop, List.length_map, List.length_range]
    omega
  · simp only [List.getElem_take, List.getElem_drop, List.getElem_map, List.getElem_range, Nat.add_assoc]

end Flat

/-! ### Stores -/

section Store

variable {s t v : State} {c p space : Nat}

/-- A store of the vector unit changes bytes of its space, its processor's load buffers, and logs. -/
structure Puts (s t : State) (c p space : Nat) : Prop where
  sp : t.sp c p = { s.sp c p with vbuf := (t.sp c p).vbuf }
  other : ∀ b, flatByte t c (1 - space) b = flatByte s c (1 - space) b
  hbm : t.mem.hbm = s.mem.hbm
  acc : (t.core c).acc = (s.core c).acc
  cores : ∀ d, d ≠ c → t.core d = s.core d
  variant : t.variant = s.variant

theorem Puts.refl (s : State) (c p space : Nat) : Puts s s c p space := ⟨rfl, fun _ => rfl, rfl, rfl, fun _ _ => rfl, rfl⟩

theorem Puts.trans (h : Puts s t c p space) (g : Puts t v c p space) : Puts s v c p space := by
  refine ⟨?_, fun b => (g.other b).trans (h.other b), g.hbm.trans h.hbm, g.acc.trans h.acc, fun d hd => (g.cores d hd).trans (h.cores d hd),
    g.variant.trans h.variant⟩
  rw [g.sp, h.sp]

theorem flatByte_of_onlyLogs (h : OnlyLogs s t) (c space b : Nat) : flatByte t c space b = flatByte s c space b := by
  unfold flatByte
  rw [h.core, h.mem]

/-- A store replaces the bytes that it names in its space, and no other. -/
theorem spStore_flat (hm : s.memOk = true) (hs : space ≤ 1) {a : Nat} {d : List Byte} (hin : flatIn s space a d.length) (g : Agent) :
    Puts s (s.spStore c p space a d g) c p space ∧
    ∀ b, flatByte (s.spStore c p space a d g) c space b =
      if a ≤ b ∧ b < a + d.length then nth d 0 (b - a) else flatByte s c space b := by
  have hvariant : (s.spStore c p space a d g).variant = s.variant := (kept_spStore (Kept.refl s) ..).variant
  match space, hs with
  | 0, _ =>
    obtain ⟨hspad, hsp, hacc, hmem, hother⟩ := spStore_spad (c := c) (p := p) hm hin g
    refine ⟨⟨by rw [hsp]; rfl, fun b => ?_, congrArg Mem.hbm hmem, hacc, hother, hvariant⟩, hspad⟩
    exact congrArg (fun m => SMap.get m.loft 0 b) hmem
  | 1, _ =>
    obtain ⟨hloft, hsp, hhbm, hcore, hother⟩ := spStore_loft (c := c) (p := p) hm a d g
    refine ⟨⟨by rw [hsp]; rfl, fun b => ?_, hhbm, ?_, hother, hvariant⟩, hloft⟩
    · refine (congrArg (fun k : Core => SMap.get k.spad 0 b) hcore).trans ?_
      rw [setSp_spad]
      rfl
    · rw [hcore, setSp_acc]

theorem memOk_spStore (hm : s.memOk = true) (c p space a : Nat) (d : List Byte) (g : Agent) : (s.spStore c p space a d g).memOk = true :=
  (kept_spStore (Kept.refl s) ..).mem hm

/-- The stores of a list of elements of `n` bytes, each an address and a value, in turn. -/
def stores (c p space n : Nat) (l : List (Nat × Nat)) (s : State) : State :=
  l.foldl (fun s e => s.spStore c p space e.1 (leBytes n e.2) .vector) s

/-- Of the stores that cover a byte, the last one stays. -/
theorem stores_flat {n : Nat} (hs : space ≤ 1) (l : List (Nat × Nat)) {s : State} (hm : s.memOk = true) (hin : ∀ e ∈ l, flatIn s space e.1 n) :
    Puts s (stores c p space n l s) c p space ∧
    ∀ b, flatByte (stores c p space n l s) c space b = match l.reverse.find? (fun e => decide (e.1 ≤ b) && decide (b < e.1 + n)) with
      | some e => BitVec.ofNat 8 (lane 8 e.2 (b - e.1))
      | none => flatByte s c space b := by
  induction l generalizing s with
  | nil => exact ⟨.refl .., fun _ => rfl⟩
  | cons e l ih =>
    obtain ⟨he, hl⟩ := List.forall_mem_cons.1 hin
    have hlen := leBytes_length n e.2
    obtain ⟨hputs, hbytes⟩ := spStore_flat (c := c) (p := p) hm hs (d := leBytes n e.2) (by rwa [hlen]) .vector
    obtain ⟨hrest, hall⟩ := ih (memOk_spStore hm c p space e.1 (leBytes n e.2) .vector) fun x hx => by
      have := hl x hx
      unfold flatIn at *
      rwa [hputs.variant]
    refine ⟨hputs.trans hrest, fun b => (hall b).trans ?_⟩
    rw [List.reverse_cons, List.find?_append, hbytes, hlen]
    cases l.reverse.find? (fun e => decide (e.1 ≤ b) && decide (b < e.1 + n)) with
    | some x => rfl
    | none =>
      by_cases hb : e.1 ≤ b ∧ b < e.1 + n
      · have hk : b - e.1 < (leBytes n e.2).length := by omega
        have hlane : BitVec.ofNat 8 (e.2 >>> (8 * (b - e.1))) = BitVec.ofNat 8 (lane 8 e.2 (b - e.1)) :=
          BitVec.eq_of_toNat_eq (by simp [lane])
        simp [hb, nth, List.getElem?_eq_getElem hk, leBytes_get, hlane]
      · have hno : (decide (e.1 ≤ b) && decide (b < e.1 + n)) = false := by simpa using hb
        simp [hb, hno]

end Store

/-- A row of the vector unit that stores completes with its stores alone. -/
theorem completes_stores {i : Instr} {s v : State} {c p space n : Nat} {l : List (Nat × Nat)} (hm : s.memOk = true) (hs : space ≤ 1)
    (hlogs : OnlyLogs s v) (hin : ∀ e ∈ l, flatIn s space e.1 n) (hexec : exec i s = .next ((stores c p space n l v).retireV c p)) :
    Completes i s (fun t => (t.sp c p).v = (s.sp c p).v ∧ (t.sp c p).x = (s.sp c p).x ∧ (t.sp c p).pc = (s.sp c p).pc + 4 ∧
      (∀ b, flatByte t c space b = match l.reverse.find? (fun e => decide (e.1 ≤ b) && decide (b < e.1 + n)) with
        | some e => BitVec.ofNat 8 (lane 8 e.2 (b - e.1))
        | none => flatByte s c space b) ∧
      (∀ b, flatByte t c (1 - space) b = flatByte s c (1 - space) b) ∧
      t.mem.hbm = s.mem.hbm ∧ (t.core c).acc = (s.core c).acc ∧ ∀ d, d ≠ c → t.core d = s.core d) := by
  obtain ⟨hputs, hbytes⟩ := stores_flat (c := c) (p := p) hs l (memOk_of_onlyLogs hlogs hm) fun e he => flatIn_of_onlyLogs hlogs (hin e he)
  have hret : OnlySp (stores c p space n l v) ((stores c p space n l v).retireV c p) c p (cntRegs c) :=
    onlySp_count_retire _ c p 0x06 1 4
  have hsp : ((stores c p space n l v).retireV c p).sp c p = Sp.past { s.sp c p with vbuf := ((stores c p space n l v).sp c p).vbuf } 4 := by
    rw [State.retireV, sp_count_retire, hputs.sp, hlogs.sp]
  have hmem := mem_of_onlyCore hret.toOnlyCore
  have hflat : ∀ y b, flatByte ((stores c p space n l v).retireV c p) c y b = flatByte (stores c p space n l v) c y b := fun y b => by
    unfold flatByte
    rw [hmem, hret.core, setSp_spad]
  refine ⟨_, hexec, ?_, ?_, ?_, fun b => ?_, fun b => ?_, ?_, ?_, fun d hd => ?_⟩
  · rw [hsp]
    rfl
  · rw [hsp]
    rfl
  · rw [hsp]
    rfl
  · rw [hflat, hbytes, flatByte_of_onlyLogs hlogs]
  · rw [hflat, hputs.other, flatByte_of_onlyLogs hlogs]
  · rw [hmem, hputs.hbm, hlogs.mem]
  · rw [hret.core, setSp_acc, hputs.acc, hlogs.core]
  · rw [hret.cores d hd, hputs.cores d hd, hlogs.core]

/-! ### Loads -/

/-- A load of the vector unit changes its processor's load buffers, and logs. -/
structure Peeked (s t : State) (c p : Nat) : Prop where
  sp : t.sp c p = { s.sp c p with vbuf := (t.sp c p).vbuf }
  core : t.core c = (s.core c).setSp p (t.sp c p)
  cores : ∀ d, d ≠ c → t.core d = s.core d
  mem : t.mem = s.mem

section Load

variable {s t v : State} {c p space : Nat}

theorem Peeked.trans (h : Peeked s t c p) (g : Peeked t v c p) : Peeked s v c p := by
  refine ⟨?_, ?_, fun d hd => (g.cores d hd).trans (h.cores d hd), g.mem.trans h.mem⟩
  · rw [g.sp, h.sp]
  · rw [g.core, h.core, setSp_setSp]

theorem peeked_of_onlyLogs (h : OnlyLogs s t) (c p : Nat) : Peeked s t c p :=
  ⟨by rw [h.sp], by rw [h.core, h.sp]; exact (setSp_sp _ _).symm, fun d _ => h.core d, h.mem⟩

theorem Peeked.flat (h : Peeked s t c p) (space a n : Nat) : flatRange t c space a n = flatRange s c space a n := by
  unfold flatRange
  rw [h.core, h.mem, setSp_spad]

/-- A row of the vector unit that loads completes with its result alone. -/
theorem completes_load {i : Instr} {u w : State} {rd : Nat} {r : V1024 × FpFlags} (h : Peeked u w c p) (hexec : exec i s = .next (w.putV c p rd r)) :
    Completes i s (fun t => (t.sp c p).v = ((u.sp c p).setV rd r.1).v ∧ (t.sp c p).pc = (u.sp c p).pc + 4 ∧ (t.sp c p).x = (u.sp c p).x ∧
      t.mem = u.mem ∧ (t.core c).spad = (u.core c).spad ∧ (t.core c).acc = (u.core c).acc ∧ ∀ d, d ≠ c → t.core d = u.core d) := by
  have hput := onlySp_putV w c p rd r
  have hsp := sp_putV w c p rd r
  rw [h.sp] at hsp
  refine ⟨_, hexec, ?_, ?_, ?_, ?_, ?_, ?_, fun d hd => ?_⟩
  · rw [hsp]
    rfl
  · rw [hsp]
    rfl
  · rw [hsp]
    rfl
  · rw [mem_of_onlyCore hput.toOnlyCore, h.mem]
  · rw [hput.core, setSp_spad, h.core, setSp_spad]
  · rw [hput.core, setSp_acc, h.core, setSp_acc]
  · rw [hput.cores d hd, h.cores d hd]

theorem onlyLogs_foldRd {f : State → Nat → Rd} (hf : ∀ s k, OnlyLogs s (f s k).st) (l : List Nat) (s : State) : OnlyLogs s (foldRd f l s).st := by
  induction l generalizing s with
  | nil => exact .refl s
  | cons k l ih => exact (hf s k).trans (ih _)

theorem onlyLogs_readWords (s : State) (c p space a : Nat) (act : Nat → Bool) : OnlyLogs s (s.readWords c p space a act) := by
  refine (onlyLogs_foldRd (fun s k => ?_) _ s).trans (onlyRegs_count _ c _ (some p) _).logs
  split
  · exact onlyLogs_accRead ..
  · split
    · exact onlyLogs_spadRead ..
    · exact onlyLogs_lRead ..

/-- A line as memory holds it. -/
def lineVal (s : State) (c space a : Nat) : V1024 := BitVec.ofNat 1024 (ofLe (flatRange s c space a 128))

theorem peekLine_flat {a : Nat} (hs : space ≤ 1) (hin : space = 0 → a + 128 ≤ accBase) : s.peekLine space c a = flatRange s c space a 128 := by
  match space, hs with
  | 0, _ => exact sRead_data_spad s c a 128 .vector none (hin rfl)
  | 1, _ => exact lRead_data s a 128 .vector

/-- A line of which the load buffers hold no other copy is read in memory, and held from then on. -/
theorem vLine_fresh {a : Nat} (hs : space ≤ 1) (hin : space = 0 → a + 128 ≤ accBase)
    (hbuf : (s.sp c p).vbuf.get (lineVal s c space a) (vbKey space a) = lineVal s c space a) (act : Nat → Bool) :
    s.vLine c p space a act = (flatRange s c space a 128, (s.readWords c p space a act).modSp c p (fun u =>
      { u with vbuf := u.vbuf.ins (vbKey space a) (lineVal s c space a) })) := by
  have hcur := peekLine_flat (s := s) (c := c) hs hin
  have hacc : (decide (space = 0) && decide (accBase ≤ a)) = false := by
    by_cases h : space = 0
    · have := hin h
      simp only [h, decide_true, Bool.true_and, decide_eq_false_iff_not]
      omega
    · simp [h]
  unfold State.vLine
  rw [lineVal] at hbuf
  simp only [hcur, hacc, hbuf, beq_self_eq_true, Bool.or_true, if_true, Bool.false_eq_true, if_false]
  rfl

theorem peeked_vLine {a : Nat} (hs : space ≤ 1) (hin : space = 0 → a + 128 ≤ accBase)
    (hbuf : (s.sp c p).vbuf.get (lineVal s c space a) (vbKey space a) = lineVal s c space a) (act : Nat → Bool) :
    Peeked s (s.vLine c p space a act).2 c p ∧ (s.vLine c p space a act).1 = flatRange s c space a 128 ∧
    ((s.vLine c p space a act).2.sp c p).vbuf = (s.sp c p).vbuf.ins (vbKey space a) (lineVal s c space a) := by
  have hlogs := onlyLogs_readWords s c p space a act
  have hmod := onlySp_modSp (s.readWords c p space a act) c p (fun u => { u with vbuf := u.vbuf.ins (vbKey space a) (lineVal s c space a) }) []
  rw [vLine_fresh hs hin hbuf]
  refine ⟨(peeked_of_onlyLogs hlogs c p).trans ⟨?_, hmod.core, hmod.cores, mem_of_onlyCore hmod.toOnlyCore⟩, rfl, ?_⟩
  · rw [sp_modSp_self]
  · rw [sp_modSp_self, hlogs.sp]

end Load

end Sys2Proof.Proofs.Dexica


/-! PROOF of VectorMemory, second part: VLD, VST, VGATHER and VSCATTER (R141, R154, R322). -/

namespace Sys2Proof.Proofs.Dexica

open Sys2Proof Sys2Proof.Machine Sys2Proof.Laws Sys2Proof.Proofs.Scope Sys2Proof.Proofs.Array Sys2Proof.Proofs.Formats

section Rows

variable {s u : State} {c p : Nat} {w : W32}

/-! ### The shape of VLD and VST -/

theorem vmSpace_le (i : Nat) : vmSpace i ≤ 1 := by
  unfold vmSpace
  split <;> decide

/-- Lanes of VLD and VST have 8, 16 or 32 bits. -/
theorem vmW_mem {i : Nat} (h : vmLegal i = true) : vmW i = 8 ∨ vmW i = 16 ∨ vmW i = 32 := by
  have hlt : bits i 22 21 < 4 := Nat.mod_lt _ (by norm_num)
  have hne : bits i 22 21 ≠ 3 := by simpa [vmLegal] using h
  unfold vmW
  interval_cases bits i 22 21
  · exact .inl rfl
  · exact .inr (.inl rfl)
  · exact .inr (.inr rfl)
  · exact absurd rfl hne

theorem any_lanes_iff {n : Nat} {pg : V128} : (List.range n).any (laneOn pg) = true ↔ ∃ k, k < n ∧ laneOn pg k = true := by
  simp [List.any_eq_true]

/-- With no active lane an access only moves on. -/
theorem vmAccess_idle {i : Nat} {eff : State → State} (h : ∀ k, k < 1024 / vmW i → laneOn ((u.sp c p).pr (vmPg i)) k = false) :
    u.vmAccess c p i eff = u.retireV c p := by
  have hno : (List.range (1024 / vmW i)).any (laneOn ((u.sp c p).pr (vmPg i))) = false :=
    Bool.eq_false_iff.2 fun hany => by
      obtain ⟨k, hk, hon⟩ := any_lanes_iff.1 hany
      rw [h k hk] at hon
      exact Bool.false_ne_true hon
  rw [State.vmAccess, hno, if_neg Bool.false_ne_true]

theorem vmAccess_active {i : Nat} {eff : State → State} (h : ∃ k, k < 1024 / vmW i ∧ laneOn ((u.sp c p).pr (vmPg i)) k = true) :
    u.vmAccess c p i eff = u.access c p i (vmSpace i) (vmAddr (u.sp c p) i) 128
      (vBarred u.variant (vmSpace i) (vmAddr (u.sp c p) i) 128 (vmW i / 8)) 128 eff := by
  rw [State.vmAccess, any_lanes_iff.2 h, if_pos rfl]

theorem moveBusy_of_onlyLogs {s t : State} (h : OnlyLogs s t) (c p space a n : Nat) : t.moveBusy c p space a n = s.moveBusy c p space a n := by
  unfold State.moveBusy
  rw [h.core]

/-- An access that may go ahead does so. -/
theorem vmAccess_goes {i a : Nat} {eff : State → State} (h : ∃ k, k < 1024 / vmW i ∧ laneOn ((u.sp c p).pr (vmPg i)) k = true)
    (ha : a = vmAddr (u.sp c p) i) (hin : flatIn u (vmSpace i) a 128) (hal : a % 128 = 0) (hmove : u.moveBusy c p (vmSpace i) a 128 = false) :
    u.vmAccess c p i eff = eff u := by
  rw [vmAccess_active h, ← ha]
  refine access_goes (vBarred_flat (vmSpace_le i) hin _) hal hmove fun hspace => accBusy_spad ?_ _
  rw [hspace] at hin
  exact hin

theorem retiresV_of_idle {i : Instr} (h : exec i s = .next ((s.throttled c).2.retireV c p)) : RetiresV i s c p (s.sp c p) :=
  ⟨_, h, by rw [State.retireV, sp_count_retire, sp_throttled], onlySp_count_retire _ c p 0x06 1 4⟩

theorem vbarred_word {i : Nat} (h : vmLegal i = true) : vmW i / 8 = 4 ↔ vmW i = 32 := by
  rcases vmW_mem h with h | h | h <;> rw [h] <;> decide

/-! ### VLD -/

theorem vld_row {ups : List Upset} {xs vs : List Nat} {effect : Prop} (hmaj : iMaj w.toNat = 0x26 ∨ iMaj w.toNat = 0x27)
    (hbit : bitB w.toNat 17 = false) (hlegal : vmLegal w.toNat = true) (hxs : xs = [iRs1 w.toNat]) (hvs : vs = [iRd w.toNat])
    (heff : exec (.vld c p w ups) s = .next (((s.throttled c).2.mark (vmSpace w.toNat) c ups).vmAccess c p w.toNat (vldEff c p w.toNat)) →
      effect) : VectorRow (.vld c p w ups) s c p xs vs effect := by
  subst hxs hvs
  exact vectorRow_of_issueV rfl (by rcases hmaj with h | h <;> simp [h, hbit]) hlegal heff

theorem vst_row {xs vs : List Nat} {effect : Prop} (hmaj : iMaj w.toNat = 0x26 ∨ iMaj w.toNat = 0x27)
    (hbit : bitB w.toNat 17 = true) (hlegal : vmLegal w.toNat = true) (hxs : xs = [iRs1 w.toNat]) (hvs : vs = [iRd w.toNat])
    (heff : exec (.vst c p w) s = .next ((s.throttled c).2.vmAccess c p w.toNat (vstEff c p w.toNat)) → effect) :
    VectorRow (.vst c p w) s c p xs vs effect := by
  subst hxs hvs
  exact vectorRow_of_issueV rfl (by rcases hmaj with h | h <;> simp [h, hbit]) hlegal heff

/-- Where upsets are marked, what stands in the scratchpad and in L-space does not change. -/
theorem flatRange_of_marked {s t : State} (h : Marked s t c) (space a n : Nat) : flatRange t c space a n = flatRange s c space a n := by
  unfold flatRange
  rw [h.spad, h.rest]

theorem smap_get_of_has_false {α : Type} {m : SMap α} {k : Nat} (h : SMap.has m k = false) (d : α) : SMap.get m d k = d :=
  smap_get_of_notMem fun e he hk => by
    have := List.any_eq_false.1 h e he
    simp [hk] at this

theorem completes_vld {ups : List Upset} {a : Nat} (ha : a = vmAddr (s.sp c p) w.toNat)
    (hin : flatIn s (vmSpace w.toNat) a 128) (hbuf : SMap.has (s.sp c p).vbuf (vbKey (vmSpace w.toNat) a) = false)
    (hu : u = (s.throttled c).2.mark (vmSpace w.toNat) c ups) (hexec : exec (.vld c p w ups) s = .next (vldEff c p w.toNat u)) :
    Completes (.vld c p w ups) s (fun t => ∃ v : V1024,
      (t.sp c p).v = ((s.sp c p).setV (iRd w.toNat) v).v ∧ (t.sp c p).pc = (s.sp c p).pc + 4 ∧ (t.sp c p).x = (s.sp c p).x ∧
      (∀ k, k < 1024 / vmW w.toNat → lane (vmW w.toNat) v.toNat k = if laneOn ((s.sp c p).pr (vmPg w.toNat)) k
        then lane (vmW w.toNat) (ofLe (flatRange s c (vmSpace w.toNat) a 128)) k else lane (vmW w.toNat) ((s.sp c p).vr (iRd w.toNat)).toNat k) ∧
      t.mem.loft = s.mem.loft ∧ t.mem.hbm = s.mem.hbm ∧ (t.core c).spad = (s.core c).spad ∧
      (t.core c).acc = (s.core c).acc ∧ ∀ d, d ≠ c → t.core d = s.core d) := by
  have hlogs := onlyLogs_throttled s c
  have hmark : Marked (s.throttled c).2 u c := hu ▸ marked_mark ..
  have hsp : u.sp c p = s.sp c p := (hmark.sp p).trans (sp_throttled ..)
  have hflat : flatRange u c (vmSpace w.toNat) a 128 = flatRange s c (vmSpace w.toNat) a 128 :=
    (flatRange_of_marked hmark ..).trans (flatRange_of_onlyLogs hlogs ..)
  have hspad : vmSpace w.toNat = 0 → a + 128 ≤ accBase := fun h => by
    rw [h] at hin
    exact hin
  obtain ⟨hpeek, hdata, -⟩ := peeked_vLine (p := p) (act := fun b => laneOn ((s.sp c p).pr (vmPg w.toNat)) (8 * b / vmW w.toNat))
    (vmSpace_le w.toNat) hspad (by rw [hsp]; exact smap_get_of_has_false hbuf _)
  simp only [vldEff, hsp, ← ha] at hexec
  have hload := completes_load hpeek hexec
  rw [hdata, hflat] at hload
  obtain ⟨t, hexec', hv, hpc, hx, hmem, hspad', hacc, hcores⟩ := hload
  rw [hsp] at hv hpc hx
  refine ⟨t, hexec', _, hv, hpc, hx, fun k hk => ?_, ?_, ?_, ?_, ?_, fun d hd => ?_⟩
  · rw [lane_lanewise _ _ _ _ _ (Nat.mul_div_le 1024 (vmW w.toNat)) hk]
    exact if_congr Iff.rfl (Nat.mod_eq_of_lt (lane_lt ..)) rfl
  · rw [hmem, hmark.rest, hlogs.mem]
  · rw [hmem, hmark.rest, hlogs.mem]
  · rw [hspad', hmark.spad, hlogs.core]
  · rw [hacc, hmark.acc, hlogs.core]
  · rw [hcores d hd, hmark.cores d hd, hlogs.core]

/-! ### VST -/

/-- The elements that a VST stores: each active lane at its address. -/
def vstElems (s : State) (c p i a : Nat) : List (Nat × Nat) :=
  ((List.range (1024 / vmW i)).filter (laneOn ((s.sp c p).pr (vmPg i)))).map (fun k =>
    (a + k * (vmW i / 8), lane (vmW i) ((s.sp c p).vr (iRd i)).toNat k))

theorem vstEff_eq {i : Nat} (hsp : u.sp c p = s.sp c p) :
    vstEff c p i u = (stores c p (vmSpace i) (vmW i / 8) (vstElems s c p i (vmAddr (s.sp c p) i)) u).retireV c p := by
  unfold vstEff stores vstElems
  rw [hsp, List.foldl_map]

/-- A byte of a lane. -/
theorem lane_byte {e k j : Nat} (x : Nat) (h8 : e % 8 = 0) (hj : j < e / 8) : lane 8 (lane e x k) j = lane 8 x (k * (e / 8) + j) := by
  refine Nat.eq_of_testBit_eq fun b => ?_
  have hpos : e * k + (8 * j + b) = 8 * (k * (e / 8) + j) + b := by
    have : e = 8 * (e / 8) := by omega
    rw [this]
    simp only [Nat.mul_div_cancel_left _ (show 0 < 8 by norm_num)]
    ring
  simp only [lane, Nat.testBit_mod_two_pow, Nat.testBit_shiftRight]
  by_cases hb : b < 8
  · have hlt : 8 * j + b < e := by omega
    simp only [hb, hlt, decide_true, Bool.true_and, hpos]
  · simp [hb]

/-- What the stores of a VST make of a byte. -/
theorem find_vstElems {i a b : Nat} (hlegal : vmLegal i = true) :
    (match (vstElems s c p i a).reverse.find? (fun e => decide (e.1 ≤ b) && decide (b < e.1 + vmW i / 8)) with
      | some e => BitVec.ofNat 8 (lane 8 e.2 (b - e.1))
      | none => flatByte s c (vmSpace i) b) =
    if a ≤ b ∧ b < a + 128 ∧ laneOn ((s.sp c p).pr (vmPg i)) ((b - a) * 8 / vmW i) = true
    then BitVec.ofNat 8 (lane 8 ((s.sp c p).vr (iRd i)).toNat (b - a)) else flatByte s c (vmSpace i) b := by
  have hw := vmW_mem hlegal
  have h8 : vmW i % 8 = 0 := by rcases hw with h | h | h <;> rw [h]
  unfold vstElems
  set m := vmW i / 8 with hm
  have hm0 : 0 < m := by rcases hw with h | h | h <;> rw [hm, h] <;> decide
  have hlanes : 1024 / vmW i * m = 128 := by rcases hw with h | h | h <;> rw [hm, h]
  have hlane : (b - a) * 8 / vmW i = (b - a) / m := by
    rw [show vmW i = m * 8 by omega, Nat.mul_div_mul_right _ _ (by norm_num)]
  rw [hlane]
  cases hfind : (((List.range (1024 / vmW i)).filter (laneOn ((s.sp c p).pr (vmPg i)))).map (fun k =>
      (a + k * m, lane (vmW i) ((s.sp c p).vr (iRd i)).toNat k))).reverse.find? (fun e => decide (e.1 ≤ b) && decide (b < e.1 + m)) with
  | some e =>
    have hmem := List.mem_reverse.1 (List.mem_of_find?_eq_some hfind)
    have hcov := List.find?_some hfind
    obtain ⟨k, hk, rfl⟩ := List.mem_map.1 hmem
    obtain ⟨hk, hon⟩ := List.mem_filter.1 hk
    simp only [Bool.and_eq_true, decide_eq_true_eq] at hcov
    have hkm : (k + 1) * m ≤ 128 := hlanes ▸ Nat.mul_le_mul_right m (List.mem_range.1 hk)
    rw [Nat.succ_mul] at hkm
    have hdiv : (b - a) / m = k := Nat.div_eq_of_lt_le (by omega) (by rw [Nat.succ_mul]; omega)
    rw [if_pos ⟨by omega, by omega, hdiv ▸ hon⟩]
    dsimp only
    rw [lane_byte _ h8 (by omega), ← hm]
    congr 2
    omega
  | none =>
    refine (if_neg fun hb => ?_).symm
    obtain ⟨hab, hba, hon⟩ := hb
    have hmod := Nat.div_add_mod (b - a) m
    have hlt := Nat.mod_lt (b - a) hm0
    rw [Nat.mul_comm] at hmod
    have hk : (b - a) / m < 1024 / vmW i := Nat.lt_of_mul_lt_mul_right (a := m) (by omega)
    have hno := List.find?_eq_none.1 hfind _ (List.mem_reverse.2 (List.mem_map.2 ⟨_, List.mem_filter.2 ⟨List.mem_range.2 hk, hon⟩, rfl⟩))
    simp only [Bool.and_eq_true, decide_eq_true_eq, not_and, not_lt] at hno
    have := hno (by omega)
    omega

theorem completes_vst {a : Nat} (hm : s.memOk = true) (hlegal : vmLegal w.toNat = true) (ha : a = vmAddr (s.sp c p) w.toNat)
    (hin : flatIn s (vmSpace w.toNat) a 128) (hexec : exec (.vst c p w) s = .next (vstEff c p w.toNat (s.throttled c).2)) :
    Completes (.vst c p w) s (fun t => (t.sp c p).v = (s.sp c p).v ∧ (t.sp c p).x = (s.sp c p).x ∧ (t.sp c p).pc = (s.sp c p).pc + 4 ∧
      (∀ b, flatByte t c (vmSpace w.toNat) b = if a ≤ b ∧ b < a + 128 ∧ laneOn ((s.sp c p).pr (vmPg w.toNat)) ((b - a) * 8 / vmW w.toNat) = true
        then BitVec.ofNat 8 (lane 8 ((s.sp c p).vr (iRd w.toNat)).toNat (b - a)) else flatByte s c (vmSpace w.toNat) b) ∧
      (∀ b, flatByte t c (1 - vmSpace w.toNat) b = flatByte s c (1 - vmSpace w.toNat) b) ∧
      t.mem.hbm = s.mem.hbm ∧ (t.core c).acc = (s.core c).acc ∧ ∀ d, d ≠ c → t.core d = s.core d) := by
  subst ha
  rw [vstEff_eq (sp_throttled ..)] at hexec
  have hlanes : 1024 / vmW w.toNat * (vmW w.toNat / 8) = 128 := by rcases vmW_mem hlegal with h | h | h <;> rw [h]
  have hinside : ∀ e ∈ vstElems s c p w.toNat (vmAddr (s.sp c p) w.toNat), flatIn s (vmSpace w.toNat) e.1 (vmW w.toNat / 8) := by
    intro e he
    obtain ⟨k, hk, rfl⟩ := List.mem_map.1 he
    have hkm := Nat.mul_le_mul_right (vmW w.toNat / 8) (List.mem_range.1 (List.mem_filter.1 hk).1)
    rw [hlanes, Nat.succ_mul] at hkm
    exact flatIn_below hin (by dsimp only; omega)
  obtain ⟨t, hexec', hv, hx, hpc, hbytes, hrest⟩ := completes_stores hm (vmSpace_le _) (onlyLogs_throttled s c) hinside hexec
  exact ⟨t, hexec', hv, hx, hpc, fun b => (hbytes b).trans (find_vstElems hlegal), hrest⟩

/-! ### The shape of a gather or scatter -/

theorem gsSpace_le (i : Nat) : gsSpace i ≤ 1 := Nat.le_of_lt_succ (Nat.mod_lt _ (by norm_num))

theorem gsBytes_mem (i : Nat) : gsBytes i = 2 ∨ gsBytes i = 4 := by
  unfold gsBytes
  split
  · exact .inl rfl
  · exact .inr rfl

/-- A gather or scatter whose elements may all be accessed goes ahead. -/
theorem gsAccess_goes {i : Nat} {eff : State → State} (h : ∀ e ∈ gsElems (u.sp c p) i, flatIn u (gsSpace i) e.2 (gsBytes i) ∧
    e.2 % gsBytes i = 0 ∧ u.moveBusy c p (gsSpace i) e.2 (gsBytes i) = false) : u.gsAccess c p i eff = eff u := by
  have hfail : (gsElems (u.sp c p) i).find? (fun e => vBarred u.variant (gsSpace i) e.2 (gsBytes i) (gsBytes i) || e.2 % gsBytes i != 0) = none :=
    List.find?_eq_none.2 fun e he => by
      obtain ⟨hin, hal, -⟩ := h e he
      simp [vBarred_flat (gsSpace_le i) hin, hal]
  have hmove : (gsElems (u.sp c p) i).any (fun e => u.moveBusy c p (gsSpace i) e.2 (gsBytes i)) = false :=
    List.any_eq_false.2 fun e he => by simp [(h e he).2.2]
  have hbusy : (gsSpace i == 0 && (gsElems (u.sp c p) i).any (fun e => u.accBusy c (some p) e.2 (gsBytes i))) = false := by
    by_cases hs : gsSpace i = 0
    · rw [List.any_eq_false.2 fun e he => ?_, Bool.and_false]
      have hin := (h e he).1
      rw [hs] at hin
      simp [accBusy_spad (s := u) (c := c) hin]
    · simp [hs]
  simp only [State.gsAccess, hfail, hmove, hbusy, Bool.false_eq_true, if_false]

/-! ### VSCATTER -/

theorem vscatterEff_eq {i : Nat} (hsp : u.sp c p = s.sp c p) : vscatterEff c p i u =
    (stores c p (gsSpace i) (gsBytes i) ((gsElems (s.sp c p) i).map (fun e => (e.2, lane (8 * gsBytes i) ((s.sp c p).vr (iRd i)).toNat e.1))) u).retireV
      c p := by
  unfold vscatterEff stores
  rw [hsp, List.foldl_map]

theorem completes_vscatter (hm : s.memOk = true)
    (hin : ∀ e ∈ gsElems (s.sp c p) w.toNat, flatIn s (gsSpace w.toNat) e.2 (gsBytes w.toNat))
    (hexec : exec (.vscatter c p w) s = .next (vscatterEff c p w.toNat (s.throttled c).2)) :
    Completes (.vscatter c p w) s (fun t => (t.sp c p).v = (s.sp c p).v ∧ (t.sp c p).x = (s.sp c p).x ∧ (t.sp c p).pc = (s.sp c p).pc + 4 ∧
      (∀ b, flatByte t c (gsSpace w.toNat) b =
        match (gsElems (s.sp c p) w.toNat).reverse.find? (fun e => e.2 ≤ b && b < e.2 + gsBytes w.toNat) with
        | some e => BitVec.ofNat 8 (lane 8 (lane (8 * gsBytes w.toNat) ((s.sp c p).vr (iRd w.toNat)).toNat e.1) (b - e.2))
        | none => flatByte s c (gsSpace w.toNat) b) ∧
      (∀ b, flatByte t c (1 - gsSpace w.toNat) b = flatByte s c (1 - gsSpace w.toNat) b) ∧
      t.mem.hbm = s.mem.hbm ∧ (t.core c).acc = (s.core c).acc ∧ ∀ d, d ≠ c → t.core d = s.core d) := by
  rw [vscatterEff_eq (sp_throttled ..)] at hexec
  obtain ⟨t, hexec', hv, hx, hpc, hbytes, hrest⟩ := completes_stores hm (gsSpace_le _) (onlyLogs_throttled s c)
    (List.forall_mem_map.2 hin) hexec
  refine ⟨t, hexec', hv, hx, hpc, fun b => (hbytes b).trans ?_, hrest⟩
  rw [← List.map_reverse, List.find?_map]
  simp only [Function.comp_def]
  cases (gsElems (s.sp c p) w.toNat).reverse.find? (fun e => decide (e.2 ≤ b) && decide (b < e.2 + gsBytes w.toNat)) <;> rfl

/-! ### VGATHER -/

/-- Every line that the load buffers of processor `p` hold of a space is as memory has it. -/
def Current (s t : State) (c p space : Nat) : Prop :=
  ∀ a, a % 128 = 0 → (t.sp c p).vbuf.get (lineVal s c space a) (vbKey space a) = lineVal s c space a

theorem vbKey_inj {space a b : Nat} (ha : a % 128 = 0) (hb : b % 128 = 0) (h : vbKey space a = vbKey space b) : a = b := by
  unfold vbKey at h
  omega

/-- A line that is read from memory into the load buffers is as memory has it. -/
theorem current_vLine {t : State} {space a : Nat} (hs : space ≤ 1) (hpeek : Peeked s t c p) (hcur : Current s t c p space) (ha : a % 128 = 0)
    (hin : space = 0 → a + 128 ≤ accBase) (act : Nat → Bool) :
    Peeked s (t.vLine c p space a act).2 c p ∧ (t.vLine c p space a act).1 = flatRange s c space a 128 ∧
    Current s (t.vLine c p space a act).2 c p space := by
  have hval : ∀ b, lineVal t c space b = lineVal s c space b := fun b => congrArg (fun d => BitVec.ofNat 1024 (ofLe d)) (hpeek.flat ..)
  obtain ⟨hnext, hdata, hbuf⟩ := peeked_vLine (p := p) (act := act) hs hin (by rw [hval]; exact hcur a ha)
  refine ⟨hpeek.trans hnext, hdata.trans (hpeek.flat ..), fun b hb => ?_⟩
  rw [hbuf, hval]
  by_cases hab : b = a
  · rw [hab, smap_get_ins_self]
  · rw [smap_get_ins_ne _ _ _ (fun h => hab (vbKey_inj hb ha h))]
    exact hcur b hb

/-- One element of a gather is read. -/
def gatherStep (c p space n : Nat) (acc : SMap Nat × State) (e : Nat × Nat) : SMap Nat × State :=
  (acc.1 ++ [(e.1, ofLe (((acc.2.vLine c p space (e.2 - e.2 % 128) (fun b => decide (e.2 % 128 ≤ b ∧ b < e.2 % 128 + n))).1.drop (e.2 % 128)).take n))],
    (acc.2.vLine c p space (e.2 - e.2 % 128) (fun b => decide (e.2 % 128 ≤ b ∧ b < e.2 % 128 + n))).2)

/-- The elements of a gather read as memory has them. -/
theorem gather_elems {space n : Nat} (hm : s.memOk = true) (hs : space ≤ 1) (hn : n = 2 ∨ n = 4) (l : List (Nat × Nat))
    (hin : ∀ e ∈ l, flatIn s space e.2 n ∧ e.2 % n = 0) {acc : SMap Nat × State} (hpeek : Peeked s acc.2 c p) (hcur : Current s acc.2 c p space) :
    (l.foldl (gatherStep c p space n) acc).1 = acc.1 ++ l.map (fun e => (e.1, ofLe (flatRange s c space e.2 n))) ∧
    Peeked s (l.foldl (gatherStep c p space n) acc).2 c p := by
  induction l generalizing acc with
  | nil => exact ⟨(List.append_nil _).symm, hpeek⟩
  | cons e l ih =>
    obtain ⟨⟨he, hal⟩, hl⟩ := List.forall_mem_cons.1 hin
    have hfits : e.2 % 128 + n ≤ 128 := by rcases hn with rfl | rfl <;> omega
    have hspad : space = 0 → e.2 - e.2 % 128 + 128 ≤ accBase := fun h => by
      have hlow : e.2 + n ≤ accBase := by
        rw [h] at he
        exact he
      unfold accBase at *
      omega
    obtain ⟨hnext, hdata, hcur'⟩ := current_vLine hs hpeek hcur (a := e.2 - e.2 % 128) (by omega) hspad
      (fun b => decide (e.2 % 128 ≤ b ∧ b < e.2 % 128 + n))
    obtain ⟨hall, hlast⟩ := ih hl (acc := gatherStep c p space n acc e) hnext hcur'
    refine ⟨hall.trans ?_, hlast⟩
    rw [gatherStep, hdata, take_drop_flatRange hm hfits, Nat.sub_add_cancel (Nat.mod_le ..), List.map_cons, List.append_assoc, List.singleton_append]

theorem get_map_elems (l : List (Nat × Nat)) (f : Nat × Nat → Nat) (x k : Nat) :
    SMap.get (l.map (fun e => (e.1, f e))) x k = match l.find? (fun e => e.1 == k) with
      | some e => f e
      | none => x := by
  induction l with
  | nil => rfl
  | cons e l ih =>
    rw [List.map_cons, smap_get_cons, List.find?_cons]
    by_cases h : e.1 = k
    · simp [h]
    · have hno : (e.1 == k) = false := by simpa using h
      rw [if_neg h, ih, hno]

/-- Lanes below what is added from bit `N` on. -/
theorem lane_add_high {w N x y k : Nat} (h : w * k + w ≤ N) : lane w (x + y * 2 ^ N) k = lane w x k := by
  have hlow : ∀ z, lane w (z % 2 ^ N) k = lane w z k := fun z => lane_mod z h
  rw [← hlow, Nat.add_mul_mod_self_right, hlow]

/-- The lanes of a register that a gather fills: 32 of `8 n` bits, below whatever else it puts there. -/
theorem lane_gather {n k y : Nat} (hn : n = 2 ∨ n = 4) (f : Nat → Nat) (hk : k < 32) (hy : n = 4 → y = 0) :
    lane (8 * n) (BitVec.ofNat 1024 (packLanes (8 * n) ((List.range 32).map f) + y * 2 ^ 512)).toNat k = f k % 2 ^ (8 * n) := by
  have hlane : lane (8 * n) (packLanes (8 * n) ((List.range 32).map f) + y * 2 ^ 512) k = lane (8 * n) (packLanes (8 * n) ((List.range 32).map f)) k := by
    rcases hn with rfl | rfl
    · exact lane_add_high (by omega)
    · rw [hy rfl, Nat.zero_mul, Nat.add_zero]
  rw [lane_ofNat _ (by rcases hn with rfl | rfl <;> omega), hlane, lane_packLanes _ _ (by simpa using hk), List.getElem_map, List.getElem_range]

/-- What a gather leaves a free value of. -/
def gatherHigh (n : Nat) (s : State) : Nat × State :=
  if n = 4 then (0, s)
  else
    let r := (List.range 8).foldl (fun (acc : List Nat × State) _ => (acc.1 ++ [acc.2.free64.1.toNat], acc.2.free64.2)) (([] : List Nat), s)
    (packLanes 64 r.1, r.2)

theorem onlyLogs_gatherHigh (n : Nat) (s : State) : OnlyLogs s (gatherHigh n s).2 := by
  have hfold : ∀ (l : List Nat) (acc : List Nat × State), OnlyLogs acc.2
      (l.foldl (fun (acc : List Nat × State) _ => (acc.1 ++ [acc.2.free64.1.toNat], acc.2.free64.2)) acc).2 := fun l => by
    induction l with
    | nil => exact fun acc => .refl _
    | cons x l ih => exact fun acc => (show OnlyLogs acc.2 acc.2.free64.2 from rfl).trans (ih _)
  unfold gatherHigh
  split
  · exact .refl s
  · exact hfold _ _

theorem vgatherEff_eq {i : Nat} {r : SMap Nat × State} (hr : r = (gsElems (u.sp c p) i).foldl (gatherStep c p (gsSpace i) (gsBytes i)) ([], u)) :
    vgatherEff c p i u = (gatherHigh (gsBytes i) r.2).2.putV c p (iRd i) (BitVec.ofNat 1024 (packLanes (8 * gsBytes i) ((List.range 32).map (fun k =>
      SMap.get r.1 (lane (8 * gsBytes i) ((u.sp c p).vr (iRd i)).toNat k) k)) + (gatherHigh (gsBytes i) r.2).1 * 2 ^ 512), 0) := by
  subst hr
  by_cases h : gsBytes i = 4
  · simp only [vgatherEff, gatherHigh, if_pos h, Nat.zero_mul, Nat.add_zero]
    rfl
  · simp only [vgatherEff, gatherHigh, if_neg h]
    rfl

theorem completes_vgather (hm : s.memOk = true)
    (hin : ∀ e ∈ gsElems (s.sp c p) w.toNat, flatIn s (gsSpace w.toNat) e.2 (gsBytes w.toNat) ∧ e.2 % gsBytes w.toNat = 0)
    (hbuf : (s.sp c p).vbuf = []) (hexec : exec (.vgather c p w) s = .next (vgatherEff c p w.toNat (s.throttled c).2)) :
    Completes (.vgather c p w) s (fun t => ∃ v : V1024,
      (t.sp c p).v = ((s.sp c p).setV (iRd w.toNat) v).v ∧ (t.sp c p).pc = (s.sp c p).pc + 4 ∧ (t.sp c p).x = (s.sp c p).x ∧
      (∀ k, k < 32 → lane (8 * gsBytes w.toNat) v.toNat k = match (gsElems (s.sp c p) w.toNat).find? (fun e => e.1 == k) with
        | some e => ofLe (flatRange s c (gsSpace w.toNat) e.2 (gsBytes w.toNat))
        | none => lane (8 * gsBytes w.toNat) ((s.sp c p).vr (iRd w.toNat)).toNat k) ∧
      t.mem = s.mem ∧ (t.core c).spad = (s.core c).spad ∧ (t.core c).acc = (s.core c).acc ∧ ∀ d, d ≠ c → t.core d = s.core d) := by
  have hlogs := onlyLogs_throttled s c
  have hsp := sp_throttled s c p
  obtain ⟨helems, hpeek⟩ := gather_elems (c := c) (p := p) (acc := ([], (s.throttled c).2)) hm (gsSpace_le w.toNat) (gsBytes_mem w.toNat)
    (gsElems (s.sp c p) w.toNat) hin (peeked_of_onlyLogs hlogs c p) (fun a _ => by rw [hsp, hbuf]; rfl)
  rw [vgatherEff_eq rfl, hsp] at hexec
  obtain ⟨t, hexec', hv, hpc, hx, hrest⟩ := completes_load (hpeek.trans (peeked_of_onlyLogs (onlyLogs_gatherHigh _ _) c p)) hexec
  refine ⟨t, hexec', _, hv, hpc, hx, fun k hk => ?_, hrest⟩
  rw [lane_gather (gsBytes_mem _) _ hk (fun h => by rw [gatherHigh, if_pos h]), helems, List.nil_append, get_map_elems]
  have hofLe : ∀ a, ofLe (flatRange s c (gsSpace w.toNat) a (gsBytes w.toNat)) < 2 ^ (8 * gsBytes w.toNat) := fun a => by
    have := ofLe_lt (flatRange s c (gsSpace w.toNat) a (gsBytes w.toNat))
    rwa [flatRange_length] at this
  cases (gsElems (s.sp c p) w.toNat).find? (fun e => e.1 == k) with
  | some e => exact Nat.mod_eq_of_lt (hofLe e.2)
  | none => exact Nat.mod_eq_of_lt (lane_lt ..)

/-! ### When the rows go ahead -/

theorem flatIn_of_marked {s t : State} (h : Marked s t c) {space a n : Nat} (hin : flatIn s space a n) : flatIn t space a n := by
  unfold flatIn at *
  rwa [h.variant]

/-- The bar of R125 as a VLD or VST meets it. -/
theorem vmBarred_iff {v : Variant} {i a : Nat} {bad : Prop} (hmaj : iMaj i = 0x26 ∨ iMaj i = 0x27) (hlegal : vmLegal i = true)
    (hbad : bad ↔ if iMaj i = 0x26 then sEnd < a + 128 ∨ (accBase < a + 128 ∧ (vmW i ≠ 32 ∨ a % 4 ≠ 0)) else v.lEnd < a + 128) :
    vBarred v (vmSpace i) a 128 (vmW i / 8) = true ↔ bad := by
  rw [hbad, vBarred_iff (by norm_num), ne_eq, vbarred_word hlegal]
  unfold vmSpace
  rcases hmaj with h | h
  · simp only [h, if_true]
  · simp [h]

theorem gsAccess_throttled {i : Nat} {eff : State → State} (h : ∀ e ∈ gsElems (s.sp c p) i, flatIn s (gsSpace i) e.2 (gsBytes i) ∧
    e.2 % gsBytes i = 0 ∧ s.moveBusy c p (gsSpace i) e.2 (gsBytes i) = false) :
    (s.throttled c).2.gsAccess c p i eff = eff (s.throttled c).2 := by
  have hlogs := onlyLogs_throttled s c
  refine gsAccess_goes fun e he => ?_
  rw [sp_throttled] at he
  obtain ⟨hin, hal, hmove⟩ := h e he
  exact ⟨flatIn_of_onlyLogs hlogs hin, hal, (moveBusy_of_onlyLogs hlogs ..).trans hmove⟩

end Rows

/-- Settles O21. The clause on a gather or scatter that fails stands in the statement as a hypothesis of those that go ahead, since `→` binds
less tightly than `∧`; it is not needed. -/
theorem vectorMemory : Obligations.VectorMemory := by
  intro s c p w hm
  have hlogs := onlyLogs_throttled s c
  have hsp := sp_throttled s c p
  refine ⟨fun hmaj hlegal a e ha he => ?_, fun hmaj hlegal n es hn hes hgo => ⟨fun hbit hbuf => ?_, fun hbit => ?_⟩⟩
  · subst he
    have hmark := fun ups => marked_mark (s.throttled c).2 (vmSpace w.toNat) c ups
    have hspm := fun ups => ((hmark ups).sp p).trans hsp
    refine ⟨fun hidle => ⟨fun hbit => ?_, fun hbit => ?_⟩, fun hactive hin hal hmove => ⟨fun ups hbit hbuf => ?_, fun hbit => ?_⟩,
      fun bad hbad hactive => ⟨fun ups hbit => ?_, fun hbit => ?_⟩⟩
    · refine vld_row hmaj hbit hlegal rfl rfl fun hexec => retiresV_of_idle (hexec.trans ?_)
      rw [vmAccess_idle (by rwa [hspm])]
      rfl
    · refine vst_row hmaj hbit hlegal rfl rfl fun hexec => retiresV_of_idle (hexec.trans ?_)
      rw [vmAccess_idle (by rwa [hsp])]
    · refine vld_row hmaj hbit hlegal rfl rfl fun hexec => completes_vld ha hin hbuf rfl (hexec.trans ?_)
      rw [vmAccess_goes (by rwa [hspm]) (by rw [hspm, ha]) (flatIn_of_marked (hmark ups) (flatIn_of_onlyLogs hlogs hin)) hal
        (((hmark ups).moveBusy ..).trans ((moveBusy_of_onlyLogs hlogs ..).trans hmove))]
    · refine vst_row hmaj hbit hlegal rfl rfl fun hexec => completes_vst hm hlegal ha hin (hexec.trans ?_)
      rw [vmAccess_goes (by rwa [hsp]) (by rw [hsp, ha]) (flatIn_of_onlyLogs hlogs hin) hal ((moveBusy_of_onlyLogs hlogs ..).trans hmove)]
    · refine vld_row hmaj hbit hlegal rfl rfl fun hexec => ?_
      rw [vmAccess_active (by rwa [hspm]), hspm, ← ha, (hmark ups).variant, variant_of_onlyLogs hlogs] at hexec
      exact memoryGuards_of_access hexec (vmBarred_iff hmaj hlegal hbad)
    · refine vst_row hmaj hbit hlegal rfl rfl fun hexec => ?_
      rw [vmAccess_active (by rwa [hsp]), hsp, ← ha, variant_of_onlyLogs hlogs] at hexec
      exact memoryGuards_of_access hexec (vmBarred_iff hmaj hlegal hbad)
  · subst hn hes
    refine vectorRow_of_issueV rfl (by simp [hmaj, hbit]) hlegal fun hexec => completes_vgather hm (fun e he => ?_) hbuf (hexec.trans ?_)
    · exact ⟨(hgo.2 e he).1, (hgo.2 e he).2.1⟩
    · rw [gsAccess_throttled hgo.2]
  · subst hn hes
    refine vectorRow_of_issueV rfl (by simp [hmaj, hbit]) hlegal fun hexec => completes_vscatter hm (fun e he => (hgo.2 e he).1) (hexec.trans ?_)
    rw [gsAccess_throttled hgo.2]

end Sys2Proof.Proofs.Dexica


/-! PROOF about TileMover: a core of a number that no module has (R157, R177, R310). -/

namespace Sys2Proof.Proofs.Dexica

open Sys2Proof Sys2Proof.Machine Sys2Proof.Laws

/-- A tile of one row of 8 bytes at the start of the scratchpad (0) or of E-space (2). -/
def rowTile (space : Nat) : V128 := BitVec.ofNat 128 (space + 4 * 2 ^ 2 + 1 * 2 ^ 9 + 8 * 2 ^ 18 + 32 * 2 ^ 32)

/-- A move of such a row from E-space to the scratchpad. -/
def strayMove : MoveEntry := ⟨0, 0, rowTile 0, rowTile 2, 0, false, false⟩

/-- A core whose floating-point status stands at the address of stack 0's error counter. -/
def strayCore : Nat := 4096

/-- The move is the oldest of that core's mover, and the word that it reads is marked as faulty. -/
def strayMover : State :=
  { State.reset with
    variant := .trn0304
    pwr := { State.reset.pwr with up := true }
    cores := [(strayCore, { mover := [strayMove] })]
    mem := { State.reset.mem with faults := [(markKey 2 0, 1)] } }

/-- The floating-point status of that core in the next state. -/
def strayStatus (o : Host.Outcome State Fault Refusal) : W64 :=
  match o with
  | .next t => t.reg .CORE_FPSTAT strayCore 0 0
  | _ => 0

theorem strayStatus_before : strayMover.reg .CORE_FPSTAT strayCore 0 0 = 0 := by decide

theorem strayStatus_after : strayStatus (execTileMoveComplete strayCore strayMover) ≠ 0 := by decide +kernel

/-- Refutes O23: the clause on a move that converts nothing does not ask that the core be one of the module's. The read of a marked word of
E-space counts the corrected error at the address of core 4096's floating-point status (R177, R310), which thereby changes. -/
theorem not_tileMover : ¬ Obligations.TileMover := by
  intro h
  obtain ⟨-, -, -, hmove⟩ := h strayMover strayCore strayMove [] _ _ _ rfl (by decide) rfl rfl rfl
  obtain ⟨-, t, ht, -, -, -, hsame, -⟩ := hmove _ (by decide) (by decide) (by decide) (by decide) (by decide) (by decide) (by decide) rfl
    (by decide +kernel)
  have hkept : strayStatus (.next t) = 0 := (hsame rfl).trans strayStatus_before
  rw [← ht] at hkept
  exact strayStatus_after hkept

end Sys2Proof.Proofs.Dexica


/-! PROOF of GleanerIssue (R187, R189, R191, R209). -/

namespace Sys2Proof.Proofs.Gleaner

open Sys2Proof Sys2Proof.Machine Sys2Proof.Laws Sys2Proof.Proofs.Array

/-! ### Streams of a gleaner -/

@[simp] theorem queue_setStream (g : Gln) (n : Nat) (x : Machine.Stream) : (g.setStream n x).queue = g.queue := by
  unfold Gln.setStream
  split <;> rfl

/-- The streams are four, and each is apart from the others. -/
theorem stream_setStream (g : Gln) {n k : Nat} (x : Machine.Stream) (hn : n < 4) (hk : k < 4) :
    (g.setStream n x).stream k = if k = n then x else g.stream k := by
  match n, hn, k, hk with
  | 0, _, 0, _ | 0, _, 1, _ | 0, _, 2, _ | 0, _, 3, _ => rfl
  | 1, _, 0, _ | 1, _, 1, _ | 1, _, 2, _ | 1, _, 3, _ => rfl
  | 2, _, 0, _ | 2, _, 1, _ | 2, _, 2, _ | 2, _, 3, _ => rfl
  | 3, _, 0, _ | 3, _, 1, _ | 3, _, 2, _ | 3, _, 3, _ => rfl

theorem gStream_lt (d : List W64) : gStream d < 4 := Nat.mod_lt _ (by norm_num)

/-! ### Entry into the queue (R189, R209) -/

section Enter

variable (s : State) (c op : Nat) (d : List W64) (space addr sp : Nat) (cmd : Option Nat) (q : Nat)

theorem queue_glnEnter : ((s.glnEnter c op d space addr sp cmd q).core c).gln.queue = (s.core c).gln.queue ++
    [⟨(s.core c).gln.nextId, op, d, space, addr, sp, cmd, q, false, 0, none, [], none, false, false, []⟩] := by
  unfold State.glnEnter
  rw [gln_modGln_self]
  dsimp only
  split
  · rfl
  · rw [queue_setStream]

/-- A stream operation promises its rows in its stream, and no other operation promises any. -/
theorem promised_glnEnter {k : Nat} (hk : k < 4) : (((s.glnEnter c op d space addr sp cmd q).core c).gln.stream k).promised =
    ((s.core c).gln.stream k).promised + if k = gStream d then gPromise op d else 0 := by
  have hsame : ∀ (g : Gln) (l : List GlnEntry) (i : Nat), ({ g with queue := l, nextId := i } : Gln).stream k = g.stream k := by
    intro g l i
    unfold Gln.stream
    split <;> rfl
  unfold State.glnEnter
  rw [gln_modGln_self]
  dsimp only
  split
  · next h0 => rw [hsame, h0, ite_self, Nat.add_zero]
  · rw [stream_setStream _ _ (gStream_lt d) hk]
    split
    · next h => subst h; rw [← hsame]
    · rw [hsame, Nat.add_zero]

theorem core_glnEnter : ∃ g, (s.glnEnter c op d space addr sp cmd q).core c = { s.core c with gln := g } := ⟨_, core_modCore_self ..⟩

end Enter

/-! ### The instructions that enter an operation (R187, R189) -/

/-- The instruction of each operation. -/
theorem exec_glnRow {s : State} {c p op : Nat} {w : W64} {row : Instr} (h : (op, row) ∈ [(0, Instr.glnGather c p w), (1, .glnSegred c p w),
    (2, .glnScatadd c p w), (3, .glnMerge c p w), (4, .glnIsect c p w), (5, .glnSort c p w), (6, .glnProbe c p w)]) :
    exec row s = .next (glnIssue op c p w s) := by
  simp only [List.mem_cons, List.not_mem_nil, or_false, Prod.mk.injEq] at h
  rcases h with ⟨rfl, rfl⟩ | ⟨rfl, rfl⟩ | ⟨rfl, rfl⟩ | ⟨rfl, rfl⟩ | ⟨rfl, rfl⟩ | ⟨rfl, rfl⟩ | ⟨rfl, rfl⟩ <;> rfl

/-- A descriptor's place: 64 aligned bytes that begin in the scratchpad lie in it. -/
theorem descriptor_in {a : Nat} (ha : a < accBase) (h64 : a % 64 = 0) : a + 64 ≤ accBase := by
  unfold accBase at *
  omega

/-- With room in the queue, an instruction that goes ahead reads its descriptor, enters its operation and retires. -/
theorem glnIssue_enters {s : State} {c p op a : Nat} {w : W64} (hi : Issues s c p [bits w.toNat 15 11] []) (hmaj : iMaj w.toNat = 0x61)
    (hsub : iSub w.toNat = op) (hz : bits w.toNat 63 16 = 0) (ha : a = ((s.sp c p).xr (bits w.toNat 15 11)).toNat) (hin : a < accBase)
    (h64 : a % 64 = 0) (hroom : (s.core c).gln.queue.length < 16) :
    glnIssue op c p w s = ((s.sRead c a 64 .scalar (some p)).st.glnEnter c op (words64 8 (SMap.range (s.core c).spad 0 a 64)) 0 a p none 0).retire
      c p 8 := by
  have hspad : inSpad a 1 = true := decide_eq_true hin
  have hrow : (iMaj w.toNat == 0x61 && iSub w.toNat == op) = true := by simp [hmaj, hsub]
  unfold glnIssue
  dsimp only
  rw [issue_eff hi hrow (beq_iff_eq.2 hz), ← ha, if_neg (by simp [hspad]), if_neg (by simp [h64]),
    if_neg (Nat.not_le.2 (show _ < glnRoom from hroom)), sRead_data_spad s c a 64 .scalar (some p) (descriptor_in hin h64)]

/-! ### GLN.DRAIN (R191) -/

theorem exec_glnDrain {s : State} {c p : Nat} {w : W64} (hi : Issues s c p [] []) (hmaj : iMaj w.toNat = 0x61) (hsub : iSub w.toNat = 15)
    (hz : bits w.toNat 63 11 = 0) : exec (.glnDrain c p w) s = .next
      (if (s.core c).gln.queue.any (fun e => e.cmd.isNone && e.sp == p) then s else (s.modSp c p Sp.drained).retire c p 8) :=
  congrArg Host.Outcome.next (issue_eff hi (by simp [hmaj, hsub]) (by simp [hz]) _)

/-- Settles O24: entry into the queue by what it makes of the core's gleaner, and GLN.DRAIN by whether its processor has operations there. -/
theorem gleanerIssue : Obligations.GleanerIssue := by
  intro s c p w a op hmaj
  refine ⟨fun hi hsub hz ha hin h64 hroom row hrow => ?enter, fun hi hsub hz => ⟨fun hnone => ?retires, fun hsome => ?waits⟩⟩
  case enter =>
    have hlogs := onlyLogs_sRead s c a 64 .scalar (some p)
    set r := (s.sRead c a 64 .scalar (some p)).st
    set d := words64 8 (SMap.range (s.core c).spad 0 a 64)
    set u := r.glnEnter c op d 0 a p none 0 with hu
    obtain ⟨g, hcore⟩ := core_glnEnter r c op d 0 a p none 0
    rw [hlogs.core] at hcore
    have hret := onlySp_retire u c p 8
    have hgln : ((u.retire c p 8).core c).gln = (u.core c).gln := by
      rw [hret.core]
      unfold Core.setSp
      split <;> rfl
    refine ⟨u.retire c p 8, (exec_glnRow hrow).trans (congrArg _ (glnIssue_enters hi hmaj hsub hz ha hin h64 hroom)), ?_, ?_, fun k hk => ?_,
      ?_, ?_, ?_, fun e he => ?_⟩
    · rw [sp_retire, State.sp, hcore, State.sp]
      unfold Core.sp
      split <;> rfl
    · rw [hgln, queue_glnEnter, hlogs.core]
    · rw [hgln, promised_glnEnter r c op d 0 a p none 0 hk, hlogs.core]
    · rw [hret.core, setSp_spad, hcore]
    · rw [hret.core, setSp_acc, hcore]
    · rw [hret.rest]
      exact hlogs.mem
    · rw [hret.cores e he, hu, State.glnEnter, State.modGln, core_modCore_ne _ he, hlogs.core]
  case retires =>
    refine ⟨_, (exec_glnDrain hi hmaj hsub hz).trans (congrArg _ (if_neg (by rw [hnone]; exact Bool.false_ne_true))), ?_, ?_⟩
    · rw [sp_retire, sp_modSp_self]
      rfl
    · exact (onlySp_modSp s c p _ _).trans (onlySp_retire _ c p 8)
  case waits =>
    exact ⟨s, (exec_glnDrain hi hmaj hsub hz).trans (congrArg _ (if_pos hsome)), rfl⟩

end Sys2Proof.Proofs.Gleaner


/-! PROOF of GleanerEvents, first part: how operations leave the queue and fail (R191, R193, R211, R221, R222, R227). -/

namespace Sys2Proof.Proofs.Gleaner

open Sys2Proof Sys2Proof.Machine Sys2Proof.Laws Sys2Proof.Proofs.Array Sys2Proof.Proofs.Dexica

theorem op_of_streams {e : GlnEntry} (h : e.streams = true) : e.op < 3 := by
  have hop : e.op ≤ 1 := of_decide_eq_true (Bool.and_eq_true_iff.1 h).1
  omega

theorem op_of_scatters {e : GlnEntry} (h : e.scatters = true) : e.op < 3 := by
  have hop : e.op = 2 := beq_iff_eq.1 (Bool.and_eq_true_iff.1 (Bool.and_eq_true_iff.1 h).1).1
  omega

/-! ### Registers of a gleaner (R225 to R230) -/

/-- A register of the gleaner is neither an event counter nor a performance counter. -/
theorem addr_gln {c : Nat} (hc : c < 192) {g : Reg} (hg : g ∈ [Reg.GLN_CFG, .GLN_STAT, .GLN_ERR, .GLN_CNT, .GLN_RC]) :
    g.addr c 0 0 < evtBase ∧ g.addr c 0 0 ∉ cntRegs c := by
  have hunit : g.place.unit = .core ∧ g.place.off + 0 * g.place.si < 0x20000 := by
    simp only [List.mem_cons, List.not_mem_nil, or_false] at hg
    rcases hg with rfl | rfl | rfl | rfl | rfl <;> decide
  obtain ⟨hlow, hother⟩ := addr_low hc hunit.1 hunit.2
  exact ⟨hlow, fun hm => hother (List.mem_cons_of_mem _ (List.mem_cons_of_mem _ hm))⟩

section Leaving

variable (s : State) (c : Nat) (e : GlnEntry)

/-! ### An operation leaves the queue (R191, R222) -/

/-- The operation is out of its core's queue, and its command is not answered or its event not signalled yet. -/
def glnLeft : State := (s.modGln c (fun g => { g with queue := g.queue.filter (fun x => x.id != e.id) })).touched c

/-- The gleaner without the operation. -/
theorem core_glnLeft : (glnLeft s c e).core c =
    { s.core c with gln := { (s.core c).gln with queue := (s.core c).gln.queue.filter (fun x => x.id != e.id) } } :=
  ((sameStore_touched _ c).core c).trans (core_modCore_self ..)

theorem core_glnLeft_ne {d : Nat} (hd : d ≠ c) : (glnLeft s c e).core d = s.core d :=
  ((sameStore_touched _ c).core d).trans (core_modCore_ne s hd _)

theorem mem_glnLeft : (glnLeft s c e).mem = s.mem := rfl

theorem csr_glnLeft : (glnLeft s c e).csr = s.csr := rfl

variable {s c e}

/-- An operation of a command that leaves a stream or a table answers its command. -/
theorem glnLeave_command {k : Nat} (hop : e.op < 3) (hcmd : e.cmd = some k) (result status : Nat) :
    s.glnLeave c e result status = (glnLeft s c e).report k status := by
  have hlist : ¬(e.op = 3 ∨ e.op = 4) := by omega
  unfold State.glnLeave
  simp only [if_neg hlist, hcmd]
  rfl

/-- One of an instruction signals. -/
theorem glnLeave_instruction (hop : e.op < 3) (hcmd : e.cmd = none) (result status : Nat) :
    s.glnLeave c e result status = (glnLeft s c e).glnSignal c e := by
  have hlist : ¬(e.op = 3 ∨ e.op = 4) := by omega
  unfold State.glnLeave
  simp only [if_neg hlist, hcmd]
  rfl

theorem sameStore_glnLeave (hop : e.op < 3) (result status : Nat) : SameStore (glnLeft s c e) (s.glnLeave c e result status) := by
  cases hcmd : e.cmd with
  | some k => rw [glnLeave_command hop hcmd]; exact sameStore_report ..
  | none => rw [glnLeave_instruction hop hcmd]; exact sameStore_glnSignal ..

/-- The event that a descriptor names counts up where it asks for that (R193), and no other does. -/
theorem evt_glnSignal (hc : c < 192) (hcmd : e.cmd = none) (v : Nat) :
    (s.glnSignal c e).evt v = if v = glnEvent e.desc ∧ glnSig e.desc = true then (s.evt v + 1) % 2 ^ 32 else s.evt v := by
  unfold State.glnSignal
  rw [hcmd]
  cases hsig : glnSig e.desc with
  | false => simp
  | true =>
    have hport := evt_of_regsBut hc (regsBut_portEvent (s.addEvt (glnEvent e.desc) 1) c e.issuer) v
    rw [if_pos (show ((none : Option Nat).isNone && true) = true from rfl), hport, evt_addEvt]
    by_cases hv : v = glnEvent e.desc <;> simp [hv]

/-! ### Entries behind a failed one (R221) -/

theorem queue_owe (g : Gln) (id : Nat) : (g.owe id).queue = g.queue := rfl

/-- Entries of instructions that are discarded leave the queue. -/
theorem queue_glnDiscard {f : GlnEntry → Bool} (hf : ∀ x, f x = true → x.cmd = none) :
    ((s.glnDiscard c f).core c).gln.queue = (s.core c).gln.queue.filter (fun x => !f x) := by
  have howe : ∀ (l : List GlnEntry) (g : Gln), (l.foldl (fun g e => g.owe e.id) g).queue = g.queue := by
    intro l
    induction l with
    | nil => exact fun _ => rfl
    | cons x l ih => exact fun g => ih (g.owe x.id)
  have hsignals := sameStore_foldl (fun t e => sameStore_glnSignal t c e) ((s.core c).gln.queue.filter f) (glnDropped s c f)
  rw [glnDiscard_eq s c hf, hsignals.core]
  have hdropped : (glnDropped s c f).core c = (s.modGln c (fun g => ((s.core c).gln.queue.filter f).foldl (fun g e => g.owe e.id)
      { g with queue := g.queue.filter (fun x => !f x) })).core c := by
    unfold glnDropped
    dsimp only
    split <;> rfl
  rw [hdropped, gln_modGln_self, howe]

/-- Is an entry behind `e`, and of the same processor's instructions? -/
def behind (e x : GlnEntry) : Bool := decide (e.id < x.id) && (x.cmd.isNone && x.sp == e.sp)

theorem instruction_of_behind (x : GlnEntry) (h : behind e x = true) : x.cmd = none :=
  Option.isNone_iff_eq_none.1 (Bool.and_eq_true_iff.1 (Bool.and_eq_true_iff.1 h).2).1

/-! ### A failure (R211, R221, R227) -/

/-- GLN_ERR takes a failure of an instruction's operation, the first one since VALID was 0. -/
def glnErrs (s : State) (c : Nat) (e : GlnEntry) (cause posn status : Nat) : State :=
  (s.wrs .GLN_ERR c 0 0 [(GLN_ERR.VALID, 1), (GLN_ERR.CAUSE, cause), (GLN_ERR.SP, e.sp), (GLN_ERR.CMD, 0), (GLN_ERR.STATUS, status),
    (GLN_ERR.POSN, posn), (GLN_ERR.COUNT, 0)]).incSat GLN_ERR.COUNT 1 c

theorem onlyRegs_glnErrs (cause posn status : Nat) : OnlyRegs s (glnErrs s c e cause posn status) [Reg.addr .GLN_ERR c 0 0] :=
  (onlyRegs_wrs s .GLN_ERR c 0 0 _).trans (onlyRegs_wr _ GLN_ERR.COUNT _ c 0 0)

/-- What GLN_ERR reads as, field by field. -/
theorem rd_glnErrs {cause posn status : Nat} (hcause : cause < 16) (hsp : e.sp < 2) (hposn : posn < 2 ^ 40) (hstatus : status < 256) :
    (glnErrs s c e cause posn status).rdB GLN_ERR.VALID c = true ∧ (glnErrs s c e cause posn status).rd GLN_ERR.CAUSE c = cause ∧
    (glnErrs s c e cause posn status).rd GLN_ERR.SP c = e.sp ∧ (glnErrs s c e cause posn status).rd GLN_ERR.CMD c = 0 ∧
    (glnErrs s c e cause posn status).rd GLN_ERR.STATUS c = status ∧ (glnErrs s c e cause posn status).rd GLN_ERR.COUNT c = 1 ∧
    (glnErrs s c e cause posn status).rd GLN_ERR.POSN c = posn := by
  set l := [(GLN_ERR.VALID, 1), (GLN_ERR.CAUSE, cause), (GLN_ERR.SP, e.sp), (GLN_ERR.CMD, 0), (GLN_ERR.STATUS, status),
    (GLN_ERR.POSN, posn), (GLN_ERR.COUNT, 0)] with hl
  have hwritten : ∀ f : Fld, f.reg = .GLN_ERR → (s.wrs .GLN_ERR c 0 0 l).rd f c = f.get (l.foldl (fun w e => e.1.put w e.2)
      (s.reg .GLN_ERR c 0 0)) := by
    intro f hf
    rw [State.rd, hf, reg_wrs_self]
  have hother : ∀ f : Fld, f.reg = .GLN_ERR → Module.Apart f GLN_ERR.COUNT → f.hi < 64 →
      (glnErrs s c e cause posn status).rd f c = f.get (l.foldl (fun w e => e.1.put w e.2) (s.reg .GLN_ERR c 0 0)) := fun f hf ha h64 =>
    (Module.rd_wr_apart (f := f) (g := GLN_ERR.COUNT) hf.symm _ c 0 0 ha (by decide) h64).trans (hwritten f hf)
  refine ⟨beq_iff_eq.2 ?_, ?_, ?_, ?_, ?_, ?_, ?_⟩
  case refine_6 =>
    refine (Module.rd_incSat_self GLN_ERR.COUNT 1 c 0 0 (by decide) (by decide)).trans ?_
    rw [hwritten _ rfl, hl]
    simp (disch := decide) only [List.foldl_cons, List.foldl_nil, get_put]
    rfl
  all_goals
    rw [hother _ rfl (by decide) (by decide), hl]
    simp (disch := decide) only [List.foldl_cons, List.foldl_nil, Module.get_put_apart, get_put]
  · rfl
  · exact Nat.mod_eq_of_lt hcause
  · exact Nat.mod_eq_of_lt hsp
  · rfl
  · exact Nat.mod_eq_of_lt hstatus
  · exact Nat.mod_eq_of_lt hposn

/-- The module once a failed operation of an instruction is recorded, its rows are owed and it has left, with the entries behind it
discarded. -/
def glnFailed (s : State) (c : Nat) (e : GlnEntry) (cause posn status : Nat) : State :=
  ((glnLeft ((glnErrs s c e cause posn status).modGln c (fun g => g.owe e.id)) c e).glnSignal c e).glnDiscard c (behind e)

theorem glnFail_instruction (hop : e.op < 3) (hcmd : e.cmd = none) (hvalid : s.rdB GLN_ERR.VALID c = false)
    (cause posn status result : Nat) :
    s.glnFail c e cause posn status result = (glnFailed s c e cause posn status).imprecise c e.sp 8 0 0 0 := by
  have hbehind : (fun x : GlnEntry => decide (e.id < x.id) && match (none : Option Nat), x.cmd with
      | none, none => x.sp == e.sp
      | some _, some _ => x.queue == e.queue
      | _, _ => false) = behind e := by
    funext x
    unfold behind
    cases x.cmd <;> rfl
  unfold State.glnFail
  simp only [hvalid, glnLeave_instruction hop hcmd, hcmd]
  exact congrArg (fun f => ((((glnLeft ((glnErrs s c e cause posn status).modGln c (fun g => g.owe e.id)) c e).glnSignal c e).glnDiscard c f).imprecise
    c e.sp 8 0 0 0)) hbehind

/-- The core, its gleaner apart, stands as the operation fails, and so do the other cores and memory. -/
theorem glnFailed_store (cause posn status : Nat) :
    (∃ x, (glnFailed s c e cause posn status).core c = { s.core c with gln := x }) ∧
      (∀ d, d ≠ c → (glnFailed s c e cause posn status).core d = s.core d) ∧ (glnFailed s c e cause posn status).mem = s.mem := by
  have herr := onlyRegs_glnErrs (s := s) (c := c) (e := e) cause posn status
  set v := (glnErrs s c e cause posn status).modGln c (fun g => g.owe e.id) with hv
  have hsig := sameStore_glnSignal (glnLeft v c e) c e
  obtain ⟨x, hcores, hmem⟩ := sameStore_glnDiscard ((glnLeft v c e).glnSignal c e) c (f := behind e) instruction_of_behind
  refine ⟨⟨x, ?_⟩, fun d hd => ?_, ?_⟩
  · rw [glnFailed, Module.core_of_cores hcores, State.modGln, core_modCore_self, hsig.core, core_glnLeft, hv, State.modGln, core_modCore_self,
      herr.core]
  · rw [glnFailed, Module.core_of_cores hcores, State.modGln, core_modCore_ne _ hd, hsig.core, core_glnLeft_ne _ _ _ hd, hv, State.modGln,
      core_modCore_ne _ hd, herr.core]
  · refine hmem.trans (hsig.2.trans ?_)
    rw [mem_glnLeft, hv, State.modGln, mem_modCore, herr.rest]

/-- The failed operation is in the queue no longer. -/
theorem entryOf_glnFailed (cause posn status : Nat) : entryOf (glnFailed s c e cause posn status) c e.id = none := by
  unfold entryOf glnFailed
  rw [queue_glnDiscard instruction_of_behind, (sameStore_glnSignal _ c e).core, core_glnLeft]
  refine List.find?_eq_none.2 fun x hx => ?_
  have hne := (List.mem_filter.1 (List.mem_filter.1 hx).1).2
  simpa using hne

/-- A failure changes no register of the core's gleaner beside GLN_ERR. -/
theorem reg_glnFailed {g : Reg} (hlow : g.addr c 0 0 < evtBase) (hcnt : g.addr c 0 0 ∉ cntRegs c) (cause posn status : Nat) :
    (glnFailed s c e cause posn status).reg g c 0 0 = (glnErrs s c e cause posn status).reg g c 0 0 := by
  unfold glnFailed
  rw [reg_glnDiscard _ c instruction_of_behind hlow hcnt, reg_glnSignal _ c e hlow hcnt, Module.reg_of_csr (csr_glnLeft ..), reg_modGln]

/-- An imprecise exception of a processor whose kernel is not over and that has room waits its turn (R173). -/
theorem imprecise_waits {p : Nat} (hend : (s.sp c p).ended = false) (hroom : (s.sp c p).pend.length < 4) (cause arr status info : Nat) :
    s.imprecise c p cause arr status info = s.modSp c p (fun u => { u with pend := u.pend ++ [⟨cause, arr, status, w64 info⟩] }) := by
  unfold State.imprecise
  dsimp only
  rw [hend, if_neg Bool.false_ne_true, if_neg (Nat.not_le.2 hroom)]

/-- A failed operation of an instruction: GLN_ERR and the registers beside it, the queue, the exception that is to come, and what stands. -/
theorem glnFail_spec (hc : c < 192) (hop : e.op < 3) (hcmd : e.cmd = none) (hvalid : s.rdB GLN_ERR.VALID c = false)
    (hend : (s.sp c e.sp).ended = false) (hroom : (s.sp c e.sp).pend.length < 4) (cause posn status result : Nat) {t : State}
    (ht : t = s.glnFail c e cause posn status result) :
    (∀ f : Fld, f.reg = .GLN_ERR → t.rd f c = (glnErrs s c e cause posn status).rd f c) ∧
      (∀ g ∈ [Reg.GLN_STAT, .GLN_CNT, .GLN_RC], t.reg g c 0 0 = s.reg g c 0 0) ∧ entryOf t c e.id = none ∧
      (t.sp c e.sp).pend = (s.sp c e.sp).pend ++ [⟨8, 0, 0, 0⟩] ∧ t.mem = s.mem ∧ (t.core c).spad = (s.core c).spad ∧
      (t.core c).acc = (s.core c).acc ∧ ∀ d, d ≠ c → t.core d = s.core d := by
  obtain ⟨⟨x, hcore⟩, hcores, hmem⟩ := glnFailed_store (s := s) (c := c) (e := e) cause posn status
  have hreg := fun g hlow hcnt => reg_glnFailed (s := s) (c := c) (e := e) (g := g) hlow hcnt cause posn status
  have hentry := entryOf_glnFailed (s := s) (c := c) (e := e) cause posn status
  have hfail := glnFail_instruction hop hcmd hvalid cause posn status result
  set v := glnFailed s c e cause posn status
  have hspv : v.sp c e.sp = s.sp c e.sp := by
    unfold State.sp
    rw [hcore]
    unfold Core.sp
    split <;> rfl
  rw [ht, hfail, imprecise_waits (by rw [hspv, hend]) (by rw [hspv]; exact hroom)]
  have htcore : ∀ f : Sp → Sp, (v.modSp c e.sp f).core c = (v.core c).setSp e.sp (f ((v.core c).sp e.sp)) := fun f => core_modCore_self ..
  refine ⟨fun f hf => ?_, fun g hg => ?_, ?_, ?_, hmem, ?_, ?_, fun d hd => (core_modCore_ne v hd _).trans (hcores d hd)⟩
  · obtain ⟨hlow, hcnt⟩ := addr_gln hc (g := .GLN_ERR) (by simp)
    refine rd_of_reg ?_
    rw [hf]
    exact hreg _ hlow hcnt
  · have hsub : g ∈ [Reg.GLN_CFG, .GLN_STAT, .GLN_ERR, .GLN_CNT, .GLN_RC] := by
      simp only [List.mem_cons, List.not_mem_nil, or_false] at hg
      rcases hg with rfl | rfl | rfl <;> simp
    have hne : g.addr c 0 0 ∉ [Reg.addr .GLN_ERR c 0 0] := by
      simp only [List.mem_cons, List.not_mem_nil, or_false] at hg
      rcases hg with rfl | rfl | rfl <;> simp [Reg.addr, Reg.place]
    obtain ⟨hlow, hcnt⟩ := addr_gln hc hsub
    exact (hreg g hlow hcnt).trans ((onlyRegs_glnErrs cause posn status).regs g c 0 0 hne)
  · unfold entryOf at hentry ⊢
    rw [htcore]
    unfold Core.setSp
    split <;> exact hentry
  · rw [sp_modSp_self, hspv]
    rfl
  · rw [htcore, setSp_spad, hcore]
  · rw [htcore, setSp_acc, hcore]

end Leaving

end Sys2Proof.Proofs.Gleaner


/-! PROOF of GleanerEvents, second part: the evaluation of a row only reads. It changes of its core the gleaner's row cache alone, and leaves
GLN_ERR as it is (R214 to R218, R227, R302). -/

namespace Sys2Proof.Proofs.Gleaner

open Sys2Proof Sys2Proof.Machine Sys2Proof.Laws Sys2Proof.Proofs.Array Sys2Proof.Proofs.Dexica

/-! ### A register that stands -/

/-- The register at address `a` keeps its word. -/
structure RegKept (a : Nat) (s t : State) : Prop where
  keeps : ∀ g n i j, Reg.addr g n i j = a → t.reg g n i j = s.reg g n i j

section Kept

variable {a : Nat} {s t u : State}

theorem RegKept.refl (a : Nat) (s : State) : RegKept a s s := ⟨fun _ _ _ _ _ => rfl⟩

theorem RegKept.trans (h : RegKept a s t) (g : RegKept a t u) : RegKept a s u :=
  ⟨fun r n i j hr => (g.keeps r n i j hr).trans (h.keeps r n i j hr)⟩

theorem regKept_of_csr (h : t.csr = s.csr) : RegKept a s t := ⟨fun _ _ _ _ _ => Module.reg_of_csr h ..⟩

theorem regKept_of_regsBut {l : List Nat} (h : RegsBut s t l) (ha : a ∉ l) : RegKept a s t :=
  ⟨fun g n i j hg => h g n i j (by rwa [hg])⟩

theorem regKept_ite {p : Prop} [Decidable p] (h : RegKept a s t) (g : RegKept a s u) : RegKept a s (if p then t else u) := by
  split <;> assumption

theorem regKept_iteRd {p : Prop} [Decidable p] {x y : Rd} (h : RegKept a s x.st) (g : RegKept a s y.st) :
    RegKept a s (if p then x else y).st := by
  split <;> assumption

theorem regKept_foldl {α : Type} {f : State → α → State} (hf : ∀ s x, RegKept a s (f s x)) (l : List α) (s : State) :
    RegKept a s (l.foldl f s) := by
  induction l generalizing s with
  | nil => exact .refl a s
  | cons x l ih => exact (hf s x).trans (ih _)

theorem regKept_foldRd {f : State → Nat → Rd} (hf : ∀ s k, RegKept a s (f s k).st) (l : List Nat) (s : State) :
    RegKept a s (foldRd f l s).st := by
  induction l generalizing s with
  | nil => exact .refl a s
  | cons k l ih => exact (hf s k).trans (ih _)

theorem regKept_setReg (s : State) {g : Reg} {n i j : Nat} (h : g.addr n i j ≠ a) (w : W64) : RegKept a s (s.setReg g n i j w) :=
  ⟨fun _ _ _ _ hr => reg_setReg_ne s (by rw [hr]; exact Ne.symm h) w⟩

theorem regKept_wr (s : State) {f : Fld} {n i : Nat} (h : f.reg.addr n i 0 ≠ a) (v : Nat) : RegKept a s (s.wr f v n i) :=
  regKept_setReg s h _

theorem regKept_wrs (s : State) {g : Reg} {n i : Nat} (h : g.addr n i 0 ≠ a) (l : List (Fld × Nat)) : RegKept a s (s.wrs g n i 0 l) :=
  regKept_setReg s h _

theorem regKept_incWrap (s : State) {f : Fld} {n : Nat} (h : f.reg.addr n 0 0 ≠ a) (k : Nat) : RegKept a s (s.incWrap f k n) :=
  regKept_setReg s h _

end Kept

/-! ### Registers of the cores, as the memories outside them are read -/

/-- An address in the blocks of the cores. -/
def InCores (a : Nat) : Prop := 0x100000000 ≤ a ∧ a < 0x200000000

/-- A register of a stack, a bay cache or a base die, of whatever number, lies past the cores' blocks. -/
theorem addr_past_cores {a : Nat} (ha : InCores a) {g : Reg}
    (hg : g ∈ [Reg.MEM_RD, .MEM_WR, .MEM_ECC, .MEM_ECCLOG, .MEM_CHCNT, .BAY_ECC, .BAY_ECCLOG, .BAY_CNT0, .BAY_CNT1, .LOFT_ECC, .LOFT_ECCLOG,
      .LOFT_BANKCNT]) (n i : Nat) : g.addr n i 0 ≠ a := by
  obtain ⟨-, hlt⟩ := ha
  have hpast : 0x200000000 ≤ g.addr n i 0 := by
    simp only [List.mem_cons, List.not_mem_nil, or_false] at hg
    rcases hg with rfl | rfl | rfl | rfl | rfl | rfl | rfl | rfl | rfl | rfl | rfl | rfl <;>
      simp only [Reg.addr, Reg.place, UnitKind.base] <;> omega
  omega

/-- A register of the module's fault record or its trace lies outside them. -/
theorem addr_outside_cores {a : Nat} (ha : InCores a) {g : Reg} (hg : g ∈ [Reg.OBS_STAT, .FLT_REC0, .FLT_REC1]) : g.addr 0 0 0 ≠ a := by
  obtain ⟨hge, hlt⟩ := ha
  simp only [List.mem_cons, List.not_mem_nil, or_false] at hg
  rcases hg with rfl | rfl | rfl <;> simp only [Reg.addr, Reg.place, UnitKind.base] <;> omega

section Outside

variable {a : Nat} (ha : InCores a) (s : State)

include ha

theorem regKept_faultNote (cls : Nat) (r : Reg) (n i : Nat) : RegKept a s (s.faultNote cls r n i) :=
  regKept_of_regsBut (Module.regsBut_faultNote s cls r n i) fun h =>
    addr_outside_cores ha (g := .OBS_STAT) (by simp) (List.mem_singleton.1 h).symm

theorem regKept_ceCount (e : EccRegs) (hcnt : e.cnt.reg.addr e.n e.i 0 ≠ a) (hhit : e.hit.reg.addr e.n e.i 0 ≠ a) : RegKept a s (s.ceCount e) := by
  have hc : RegKept a s (s.incSat e.cnt 1 e.n e.i) := regKept_setReg s hcnt _
  have hh : RegKept a s ((s.incSat e.cnt 1 e.n e.i).wr e.hit 1 e.n e.i) := hc.trans (regKept_setReg _ hhit _)
  unfold State.ceCount
  exact regKept_ite hc (regKept_ite (hh.trans (regKept_faultNote ha ..)) hh)

omit ha in
theorem regKept_agentCode (g : Agent) : RegKept a s (s.agentCode g).2 := by
  unfold State.agentCode
  split <;> exact regKept_of_csr rfl

omit ha in
theorem regKept_free64 : RegKept a s s.free64.2 := regKept_of_csr rfl

theorem regKept_ceHbm (b syn : Nat) (g : Agent) : RegKept a s (s.ceHbm b syn g) := by
  unfold State.ceHbm
  refine (((regKept_setReg s ?_ _).trans (regKept_agentCode _ g)).trans (regKept_ite (.refl a _)
    (regKept_wrs _ (addr_past_cores ha (by simp) _ _) _))).trans
    (regKept_ceCount ha _ _ (addr_past_cores ha (by simp [MEM_ECC.CE_COUNT]) _ _) (addr_past_cores ha (by simp [MEM_ECC.THR_HIT]) _ _))
  rw [reg_chCnt]
  exact addr_past_cores ha (by simp) _ _

theorem regKept_ceBay (b syn : Nat) (g : Agent) : RegKept a s (s.ceBay b syn g) := by
  unfold State.ceBay
  exact (((regKept_free64 s).trans (regKept_agentCode _ g)).trans (regKept_ite (.refl a _)
    (regKept_wrs _ (addr_past_cores ha (by simp) _ _) _))).trans
    (regKept_ceCount ha _ _ (addr_past_cores ha (by simp [BAY_ECC.CE_COUNT]) _ _) (addr_past_cores ha (by simp [BAY_ECC.THR_HIT]) _ _))

omit ha in
theorem reg_bankCnt (k : Nat) : (bankFld [LOFT_BANKCNT.COUNT0, LOFT_BANKCNT.COUNT1, LOFT_BANKCNT.COUNT2, LOFT_BANKCNT.COUNT3,
    LOFT_BANKCNT.COUNT4, LOFT_BANKCNT.COUNT5, LOFT_BANKCNT.COUNT6, LOFT_BANKCNT.COUNT7] LOFT_BANKCNT.COUNT0 (k % 8)).reg = .LOFT_BANKCNT := by
  have hk := Nat.mod_lt k (show 0 < 8 by norm_num)
  interval_cases k % 8 <;> rfl

theorem regKept_ceLoft (b syn : Nat) (g : Agent) : RegKept a s (s.ceLoft b syn g) := by
  unfold State.ceLoft
  refine (((regKept_setReg s ?_ _).trans (regKept_agentCode _ g)).trans (regKept_ite (.refl a _)
    (regKept_wrs _ (addr_past_cores ha (by simp) _ _) _))).trans
    (regKept_ceCount ha _ _ (addr_past_cores ha (by simp [LOFT_ECC.CE_COUNT]) _ _) (addr_past_cores ha (by simp [LOFT_ECC.THR_HIT]) _ _))
  rw [reg_bankCnt]
  exact addr_past_cores ha (by simp) _ _

theorem regKept_ueFound (agent block syn unit addr : Nat) : RegKept a s (s.ueFound agent block syn unit addr) := by
  have h0 : Reg.addr .FLT_REC0 0 0 0 ≠ a := addr_outside_cores ha (by simp)
  have h1 : Reg.addr .FLT_REC1 0 0 0 ≠ a := addr_outside_cores ha (by simp)
  have hrec : RegKept a s (s.fltRecord 1 agent block syn unit addr) := by
    unfold State.fltRecord
    exact regKept_ite (regKept_wr s (f := FLT_REC0.OVF) h0 _)
      ((regKept_wrs s (n := 0) (i := 0) h0 _).trans (regKept_wr _ (f := FLT_REC1.ADDR) h1 _))
  set v := s.fltRecord 1 agent block syn unit addr
  have hdue : RegKept a v { v with flt := { v.flt with mrstCause := some 1 } } := regKept_of_csr rfl
  have hnote := regKept_faultNote ha { v with flt := { v.flt with mrstCause := some 1 } } 2 .FLT_REC0 0 0
  exact ((hrec.trans hdue).trans hnote).trans (regKept_of_csr rfl)

/-! ### The stacks and the bay caches (R284, R289 to R299) -/

theorem regKept_hbmWord (b : Nat) (g : Agent) : RegKept a s (s.hbmWord b g).st := by
  unfold State.hbmWord
  refine regKept_iteRd (.refl a s) ?_
  simp -iota only []
  have hcnt := regKept_incWrap (a := a) s (f := MEM_RD.BYTES) (n := b / stackSize) (addr_past_cores ha (by simp [MEM_RD.BYTES]) _ _) 8
  generalize s.incWrap MEM_RD.BYTES 8 (b / stackSize) = u at hcnt ⊢
  refine hcnt.trans (regKept_iteRd (regKept_foldl (fun _ _ => regKept_ceHbm ha ..) _ _) ?_)
  generalize (if hbmKind u.variant b = 1 then Config.unwrittenCheck u.free else 0) = chk
  refine regKept_iteRd (regKept_free64 u) (((regKept_free64 u).trans (regKept_free64 _)).trans (regKept_iteRd (regKept_ceHbm ha ..) ?_))
  exact (regKept_agentCode ..).trans (regKept_ueFound ha ..)

theorem regKept_hbmPut (b : Nat) (d : List Byte) : RegKept a s (s.hbmPut b d) := by
  unfold State.hbmPut
  exact regKept_ite (.refl a s) ((regKept_incWrap s (f := MEM_WR.BYTES) (addr_past_cores ha (by simp [MEM_WR.BYTES]) _ _) _).trans
    (regKept_of_csr rfl))

theorem regKept_hbmPutUndef (b : Nat) : RegKept a s (s.hbmPutUndef b) := by
  unfold State.hbmPutUndef
  exact regKept_ite (.refl a s) ((regKept_incWrap s (f := MEM_WR.BYTES) (addr_past_cores ha (by simp [MEM_WR.BYTES]) _ _) _).trans
    (regKept_of_csr rfl))

theorem regKept_stackWords (t ln : Nat) (ws : List Nat) (g : Agent) : RegKept a s (s.stackWords t ln ws g).st :=
  regKept_foldRd (fun _ _ => regKept_hbmWord ha _ _ _) ws s

omit ha in
theorem regKept_bayPut (t : Nat) (b : BayLine) : RegKept a s (s.bayPut t b) := regKept_of_csr rfl

omit ha in
theorem regKept_bayDrop (t ln : Nat) : RegKept a s (s.bayDrop t ln) := regKept_of_csr rfl

theorem regKept_bayCnt0 {f : Fld} (hf : f.reg = .BAY_CNT0) (t : Nat) : RegKept a s (s.incWrap f 1 t) :=
  regKept_incWrap s (by rw [hf]; exact addr_past_cores ha (by simp) _ _) _

theorem regKept_bayCnt1 {f : Fld} (hf : f.reg = .BAY_CNT1) (t : Nat) : RegKept a s (s.incWrap f 1 t) :=
  regKept_incWrap s (by rw [hf]; exact addr_past_cores ha (by simp) _ _) _

theorem regKept_bayEvict (t : Nat) (b : BayLine) : RegKept a s (s.bayEvict t b) := by
  unfold State.bayEvict State.bayWriteBack
  refine (regKept_ite (.refl a s) ((regKept_foldl (fun s w => ?_) _ s).trans (regKept_bayCnt1 ha _ rfl t))).trans (regKept_bayDrop ..)
  exact (regKept_foldl (fun _ _ => regKept_ceBay ha ..) _ _).trans (regKept_ite (regKept_hbmPutUndef ha ..) (regKept_hbmPut ha ..))

theorem regKept_bayAlloc (t ln : Nat) (keep : Bool) (valid dirty : BitVec 16) (data : V1024) (undef : BitVec 16) :
    RegKept a s (s.bayAlloc t ln keep valid dirty data undef) := by
  unfold State.bayAlloc
  obtain ⟨v, k⟩ := s.bayVictim t ln keep
  cases v with
  | some b => exact (regKept_bayEvict ha s t b).trans (regKept_bayPut ..)
  | none => exact regKept_bayPut ..

theorem regKept_bayServe (t : Nat) (b : BayLine) (w : Nat) (g : Agent) : RegKept a s (s.bayServe t b w g).st := by
  unfold State.bayServe
  exact regKept_iteRd (regKept_free64 s) (regKept_foldl (fun _ _ => regKept_ceBay ha ..) _ _)

theorem regKept_fillWord (t : Nat) (b : BayLine) (w : Nat) (g : Agent) : RegKept a s (s.fillWord t b w g).st := by
  unfold State.fillWord
  exact regKept_iteRd (regKept_incWrap s (f := MEM_RD.BYTES) (addr_past_cores ha (by simp [MEM_RD.BYTES]) _ _) _) (regKept_hbmWord ha ..)

theorem regKept_lineRead (t ln : Nat) (ws : List Nat) (hint : Nat) (last : Bool) (g : Agent) :
    RegKept a s (s.lineRead t ln ws hint last g).st := by
  have hmiss : RegKept a s (s.incWrap BAY_CNT0.MISSES 1 t) := regKept_bayCnt0 ha s rfl t
  have hhit : RegKept a s (s.incWrap BAY_CNT0.HITS 1 t) := regKept_bayCnt0 ha s rfl t
  have hserves : ∀ b ws u, RegKept a u (foldRd (fun s w => s.bayServe t b w g) ws u).st := fun b ws u =>
    regKept_foldRd (fun _ _ => regKept_bayServe ha ..) ws u
  have hlast : ∀ (r : Rd) (p : Prop) [Decidable p], RegKept a s r.st → RegKept a s (if p then (match r.st.bayLine t ln with
      | some b =>
        let s := if b.dirty = 0 then r.st else r.st.incWrap BAY_CNT1.DROPS 1 t
        { r with st := s.bayDrop t ln }
      | none => r) else r).st := by
    intro r p _ h
    refine regKept_iteRd ?_ h
    cases r.st.bayLine t ln with
    | some b => exact (h.trans (regKept_ite (.refl a _) (regKept_bayCnt1 ha _ rfl t))).trans (regKept_bayDrop ..)
    | none => exact h
  unfold State.lineRead
  refine regKept_iteRd (hmiss.trans (regKept_stackWords ha ..)) (hlast _ _ ?_)
  cases s.bayLine t ln with
  | some b =>
    refine regKept_iteRd ((hhit.trans (regKept_bayPut ..)).trans (hserves ..)) (regKept_iteRd ?_ ?_)
    · exact (hmiss.trans (regKept_bayPut ..)).trans
        (regKept_foldRd (fun _ _ => regKept_iteRd (regKept_bayServe ha ..) (regKept_hbmWord ha ..)) ws _)
    · exact ((hmiss.trans (regKept_foldRd (fun _ _ => regKept_fillWord ha ..) _ _)).trans (regKept_bayPut ..)).trans (hserves ..)
  | none =>
    exact hmiss.trans (regKept_iteRd (regKept_stackWords ha ..) ((regKept_stackWords ha ..).trans (regKept_bayAlloc ha ..)))

theorem regKept_eRead (b n hint : Nat) (last : Bool) (g : Agent) : RegKept a s (s.eRead b n hint last g).st := by
  unfold State.eRead
  exact List.foldlRecOn (motive := fun r : Rd => RegKept a s r.st) _ _ (RegKept.refl a s) fun r hr pc _ =>
    hr.trans (regKept_lineRead ha ..)

theorem regKept_lRead (b n : Nat) (g : Agent) : RegKept a s (s.lRead b n g).st := regKept_foldl (fun _ _ => regKept_ceLoft ha ..) _ _

end Outside

/-! ### What the reads of a row leave (R214 to R218) -/

/-- Of core `c` only the gleaner may differ, and GLN_ERR stands. -/
structure RowReads (c : Nat) (s t : State) : Prop where
  core : ∃ x, t.core c = { s.core c with gln := x }
  err : RegKept (Reg.addr .GLN_ERR c 0 0) s t

section Reads

variable {c : Nat} {s t u : State}

theorem RowReads.refl (c : Nat) (s : State) : RowReads c s s := ⟨⟨(s.core c).gln, rfl⟩, .refl _ s⟩

theorem RowReads.trans (h : RowReads c s t) (g : RowReads c t u) : RowReads c s u := by
  obtain ⟨x, hx⟩ := h.core
  obtain ⟨y, hy⟩ := g.core
  exact ⟨⟨y, by rw [hy, hx]⟩, h.err.trans g.err⟩

theorem rowReads_aside (h : Aside s t) (g : RegKept (Reg.addr .GLN_ERR c 0 0) s t) : RowReads c s t :=
  ⟨⟨(s.core c).gln, by rw [h.core]⟩, g⟩

theorem rowReads_modGln (s : State) (c : Nat) (f : Gln → Gln) : RowReads c s (s.modGln c f) :=
  ⟨⟨_, core_modCore_self ..⟩, regKept_of_csr rfl⟩

theorem rowReads_ite {p : Prop} [Decidable p] (h : RowReads c s t) (g : RowReads c s u) : RowReads c s (if p then t else u) := by
  split <;> assumption

/-- Counters of the gleaner beside GLN_ERR. -/
theorem rowReads_incSat (s : State) {f : Fld} (hf : f.reg = .GLN_CNT ∨ f.reg = .GLN_RC) (k : Nat) : RowReads c s (s.incSat f k c) := by
  refine rowReads_aside ⟨rfl, rfl⟩ (regKept_setReg s ?_ _)
  rcases hf with hf | hf <;> rw [hf] <;> simp [Reg.addr, Reg.place]

variable (hc : c < 192)

include hc

theorem inCores_glnErr : InCores (Reg.addr .GLN_ERR c 0 0) := by
  simp only [InCores, Reg.addr, Reg.place, UnitKind.base]
  omega

theorem rowReads_count (s : State) (ev : Nat) (p : Option Nat) (k : Nat) : RowReads c s (s.count c ev p k) :=
  rowReads_aside (aside_of_onlyLogs (onlyRegs_count s c ev p k).logs)
    (regKept_of_regsBut (onlyRegs_count s c ev p k).regs (addr_gln hc (g := .GLN_ERR) (by simp)).2)

/-- A correctable error in the scratchpad is counted and logged in registers of the core that stand past the gleaner's. -/
theorem regKept_ceSpad (s : State) (a syn : Nat) (g : Agent) : RegKept (Reg.addr .GLN_ERR c 0 0) s (s.ceSpad c a syn g) := by
  have hreg : ∀ k, (bankFld [SPAD_BANKCNT.COUNT0, SPAD_BANKCNT.COUNT1, SPAD_BANKCNT.COUNT2, SPAD_BANKCNT.COUNT3, SPAD_BANKCNT.COUNT4,
      SPAD_BANKCNT.COUNT5, SPAD_BANKCNT.COUNT6, SPAD_BANKCNT.COUNT7] SPAD_BANKCNT.COUNT0 (k % 8)).reg = .SPAD_BANKCNT := by
    intro k
    have hk := Nat.mod_lt k (show 0 < 8 by norm_num)
    interval_cases k % 8 <;> rfl
  have hne : ∀ r ∈ [Reg.SPAD_ECC, .SPAD_ECCLOG, .SPAD_BANKCNT], ∀ i, Reg.addr r c i 0 ≠ Reg.addr .GLN_ERR c 0 0 := by
    intro r hr i
    simp only [List.mem_cons, List.not_mem_nil, or_false] at hr
    rcases hr with rfl | rfl | rfl <;> simp only [Reg.addr, Reg.place] <;> omega
  unfold State.ceSpad
  refine ((regKept_setReg s ?_ _).trans (regKept_ite (.refl _ _) (regKept_wrs _ (hne _ (by simp) 0) _))).trans
    (regKept_ceCount (inCores_glnErr hc) _ _ (hne _ (by simp [SPAD_ECC.CE_COUNT]) _) (hne _ (by simp [SPAD_ECC.THR_HIT]) _))
  rw [hreg]
  exact hne _ (by simp) _

omit hc in
/-- A read of no accumulator word meets no error and bars nothing. -/
theorem accRead_zero (s : State) (w : Nat) (g : Agent) : (s.accRead c w 0 g).st = s := by
  have hmarks : marksIn (s.core c).faults (accBase + 4 * w) (4 * 0) = [] := by
    unfold marksIn
    rw [List.filter_eq_nil_iff.2 (fun e _ => by simp), List.map_nil]
  unfold State.accRead
  dsimp only
  rw [hmarks]
  rfl

/-- A read of the gleaner that stays in its space. -/
theorem rowReads_coreRead (s : State) {space a n : Nat} (hin : gIn s.variant space a n = true) (hint : Nat) (last : Bool) (g : Agent)
    (p : Option Nat) : RowReads c s (s.coreRead space c a n hint last g p).st := by
  refine rowReads_aside (aside_coreRead ..) ?_
  match space, hin with
  | 0, hin =>
    have hk : spadPart a n = n := by
      have hle : a + n ≤ accBase := of_decide_eq_true hin
      unfold spadPart
      omega
    have hread : RegKept (Reg.addr .GLN_ERR c 0 0) s (s.spadRead c a n g).st := regKept_foldl (fun _ _ => regKept_ceSpad hc ..) _ _
    show RegKept _ s (s.sRead c a n g p).st
    unfold State.sRead
    dsimp only
    rw [hk, Nat.sub_self, Nat.zero_div, accRead_zero]
    exact hread.trans (rowReads_count hc ..).err
  | 1, _ => exact (regKept_lRead (inCores_glnErr hc) s a n g).trans (rowReads_count hc ..).err
  | _ + 2, _ => exact (regKept_eRead (inCores_glnErr hc) s a n hint last g).trans (rowReads_count hc ..).err

/-- A read through the row cache. -/
theorem rowReads_rcRead (s : State) (p : Option Nat) (a n hint : Nat) (last : Bool) : RowReads c s (s.rcRead c p a n hint last).st := by
  have hE : ∀ (u : State) b m, RowReads c u (u.eRead b m hint last .gleaner).st := fun u b m =>
    rowReads_aside (aside_eRead ..) (regKept_eRead (inCores_glnErr hc) u b m hint last .gleaner)
  have hdrop := fun f => (rowReads_modGln s c f).trans (rowReads_incSat (c := c) _ (f := GLN_RC.PERR) (.inr rfl) 1)
  unfold State.rcRead
  extract_lets ln en bad v
  have hv : RowReads c s v := rowReads_ite (hdrop _) (.refl c s)
  clear_value v
  cases (v.core c).gln.rc.find? (fun x => x.line == ln && en) with
  | some x =>
    have hhit := hv.trans (rowReads_count hc v 0x21 p 1)
    dsimp only [Rd.ok]
    exact hhit.trans (rowReads_modGln ..)
  | none =>
    have hmiss := hv.trans (rowReads_count hc v 0x22 p 1)
    dsimp only
    split
    · exact (hmiss.trans (hE ..)).trans (rowReads_count hc _ 0x42 p n)
    · exact ((hmiss.trans (hE ..)).trans (rowReads_count hc _ 0x42 p 128)).trans (rowReads_ite (.refl c _) (rowReads_modGln ..))

end Reads

/-! ### The evaluation of a row (R197 to R200) -/

section Row

variable {c : Nat} (hc : c < 192) (e : GlnEntry) {s : State} {g : GRun}

include hc

theorem rowReads_list (h : RowReads c s g.st) (space a n posn : Nat) : RowReads c s (g.list c e space a n posn).2.st := by
  unfold GRun.list
  split
  · exact h
  · next hin => exact h.trans (rowReads_coreRead hc _ (by simpa using hin) ..)

omit hc in
theorem rowReads_oor (h : RowReads c s g.st) (d : List W64) (i : Nat) : RowReads c s (g.oor c d i).st := by
  unfold GRun.oor
  split
  · exact h.trans (rowReads_incSat _ (.inl rfl) 1)
  · exact h

theorem rowReads_table (h : RowReads c s g.st) (a n posn : Nat) : RowReads c s (g.table c e a n posn).2.st := by
  unfold GRun.table
  dsimp only
  split
  · exact h
  split
  · split
    · exact h
    · split <;> exact h
  split
  · exact h
  · next hin =>
    split
    · exact List.foldlRecOn (motive := fun r : List Byte × GRun => RowReads c s r.2.st) _ _ h fun r hr pc _ =>
        hr.trans (rowReads_rcRead hc ..)
    · exact h.trans (rowReads_coreRead hc _ (by simpa using hin) ..)

theorem rowReads_gatherRow (h : RowReads c s g.st) (i : Nat) : RowReads c s (gatherRow c e i g).2.st := by
  have hindex : RowReads c s (g.index c e i).2.st := rowReads_list hc e h ..
  unfold gatherRow
  dsimp only
  split
  · exact hindex
  split
  · exact rowReads_oor hindex ..
  · exact rowReads_table hc e hindex ..

theorem rowReads_segPos (h : RowReads c s g.st) (i : Nat) (acc : SegAcc) : RowReads c s (segPos c e i acc g).2.st := by
  have hindex : RowReads c s (if gDirect e.desc then (i, g) else g.index c e i).2.st := by
    split
    · exact h
    · exact rowReads_list hc e h ..
  unfold segPos
  simp -iota only []
  generalize (if gDirect e.desc then (i, g) else g.index c e i) = y at hindex ⊢
  dsimp only
  split
  · exact hindex
  split
  · exact rowReads_oor hindex ..
  split
  · exact hindex
  · exact rowReads_table hc e hindex ..

theorem rowReads_segLoop (n : Nat) (h : RowReads c s g.st) (i : Nat) (acc : SegAcc) : RowReads c s (segLoop c e n i acc g).2.st := by
  induction n generalizing g i acc with
  | zero => exact h
  | succ n ih =>
    unfold segLoop
    split
    · exact ih (rowReads_segPos hc e h i acc) ..
    · exact h

theorem rowReads_segRow (h : RowReads c s g.st) (k : Nat) : RowReads c s (segRow c e k g).2.st := by
  have h0 := rowReads_list hc e h (gOsp e.desc) (cw e.desc 3 + k * gW e.desc) (gW e.desc) k
  have h1 := rowReads_list hc e h0 (gOsp e.desc) (cw e.desc 3 + (k + 1) * gW e.desc) (gW e.desc) k
  unfold segRow
  dsimp only
  split
  · exact h1
  split
  · exact h1
  have hloop := fun n i acc => rowReads_segLoop hc e n h1 i acc
  split
  · exact hloop ..
  · exact (hloop ..).trans (rowReads_ite (rowReads_incSat _ (.inl rfl) 1) (.refl c _))

/-- The evaluation of a stream's next row. -/
theorem rowReads_gRowEval (s : State) : RowReads c s (gRowEval c e s).2.st := by
  unfold gRowEval outRow
  dsimp only
  split
  · exact .refl c s
  split
  · exact rowReads_gatherRow hc e (g := { st := s }) (.refl c s) _
  · exact rowReads_segRow hc e (g := { st := s }) (.refl c s) _

end Row

end Sys2Proof.Proofs.Gleaner


/-! PROOF of GleanerEvents, third part: the rows of the gleaner's events (R189 to R193, R208 to R217, R221). -/

namespace Sys2Proof.Proofs.Gleaner

open Sys2Proof Sys2Proof.Machine Sys2Proof.Laws Sys2Proof.Proofs.Array Sys2Proof.Proofs.Dexica

section Rows

variable {s : State} {c : Nat} {e : GlnEntry} (hal : s.alive = true)

/-- An entry that needs no remote row, and adds to none, sends nothing. -/
theorem glnPump_still {id : Nat} (h : entryOf s c id = some e) (hscat : e.scatters = false)
    (hneed : (if e.streams then (gRowEval c e s).2.need else (gEval c e s).2.need) = []) : s.glnPump c id = s := by
  unfold entryOf at h
  unfold State.glnPump
  rw [h]
  dsimp only
  rw [hscat, State.glnFetch, hneed]
  split <;> rfl

include hal

/-! ### Start and completion (R190, R191) -/

theorem exec_gleanOpStart (perr : List Nat) (h : (s.core c).gln.queue.find? (fun e => !s.glnPassed c e) = some e) (hrun : e.running = false) :
    exec (.gleanOpStart c perr) s = .next (((s.modGln c (fun g => { g with
      perr := g.perr ++ perr.filter (fun x => !g.perr.contains x) })).modEntry c e.id (fun x => { x with running := true })).glnPump c e.id) := by
  show execGleanOpStart c perr s = _
  unfold execGleanOpStart
  simp only [hal, h, hrun]
  rfl

/-- A stream operation, or one that adds through the rack window, only leaves. -/
theorem exec_gleanOpComplete_placed (ups : List Upset) (h : (s.core c).gln.queue.find? (fun e => s.glnDone c e) = some e)
    (hkind : e.streams = true ∨ e.scatters = true) :
    exec (.gleanOpComplete c ups) s = .next (s.glnLeave c e 0 (glnStatus e.sat e.corr)) := by
  have hk : (e.streams || e.scatters) = true := Bool.or_eq_true_iff.2 hkind
  show execGleanOpComplete c ups s = _
  unfold execGleanOpComplete
  simp only [hal, h, hk]
  rfl

/-- Every other operation ends with what its evaluation leaves. -/
theorem exec_gleanOpComplete_evaluated (ups : List Upset) (h : (s.core c).gln.queue.find? (fun e => s.glnDone c e) = some e)
    (hstream : e.streams = false) (hscat : e.scatters = false) {u : Nat × GRun} (hu : u = gEval c e (s.mark (gTsp e.desc) c ups))
    (hue : u.2.ue = false) :
    exec (.gleanOpComplete c ups) s = .next ((u.2.st.glnFlags c u.2).glnLeave c e u.1 (glnStatus u.2.sat u.2.corr)) := by
  subst hu
  show execGleanOpComplete c ups s = _
  unfold execGleanOpComplete
  simp only [hal, h, hstream, hscat, hue]
  rfl

/-! ### Failure (R221) -/

section Fail

variable {k posn st : Nat} (h : (s.core c).gln.queue.find? (fun e => (s.glnFailure c e).isSome) = some e)
  (hf : s.glnFailure c e = some (k, posn, st))

include h hf

theorem exec_gleanOpFail_add (hkind : e.scatters = true ∧ e.remStatus.isSome = true) :
    exec (.gleanOpFail c) s = .next (s.glnFail c e k posn st 0) := by
  obtain ⟨hscat, hrem⟩ := hkind
  show execGleanOpFail c s = _
  unfold execGleanOpFail
  simp only [hal, h, hf, hscat, hrem]
  rfl

theorem exec_gleanOpFail_evaluated (hkind : e.scatters = false ∨ e.remStatus = none) {u : Nat × GRun} (hu : u = s.glnFailRun c e) :
    exec (.gleanOpFail c) s = .next ((u.2.st.glnFlags c u.2).glnFail c e k posn st u.1) := by
  subst hu
  have hk : (e.scatters && e.remStatus.isSome) = false := by rcases hkind with hk | hk <;> simp [hk]
  show execGleanOpFail c s = _
  unfold execGleanOpFail
  simp only [hal, h, hf, hk]
  rfl

end Fail

/-! ### Streams (R208, R212) -/

section Streaming

variable {g : GRun} (h : (s.core c).gln.streaming = some e) (hg : g = (gRowEval c e s).2) (hue : g.ue = false)

include h

include hg hue in
/-- A row that meets a full buffer waits, from now on where it did not wait before. -/
theorem exec_streamRowPlace_full (hplaced : e.placed < outCount e) (hfail : g.fail = none) (hneed : g.need = [])
    (hfull : 32 ≤ ((s.core c).gln.stream (gStream e.desc)).buffered) : exec (.gleanStreamRowPlace c) s =
      .next (s.modEntry c e.id (fun x => { x with fullSince := some (x.fullSince.getD s.now) })) := by
  subst hg
  show execGleanStreamRowPlace c s = _
  unfold execGleanStreamRowPlace
  simp only [hal, h, Nat.not_le.2 hplaced, hue, hfail, hneed, hfull, if_true, if_false]
  rfl

include hg hue in
/-- A row that finds room is placed. -/
theorem exec_streamRowPlace_room (hplaced : e.placed < outCount e) (hfail : g.fail = none) (hneed : g.need = []) {n : Nat}
    (hn : n = gStream e.desc) (hroom : ((s.core c).gln.stream n).buffered < 32) : exec (.gleanStreamRowPlace c) s =
      .next ((((g.st.glnFlags c g).modGln c (fun k => k.setStream n { k.stream n with
        segs := mapIf (fun y => y.entry == e.id)
          (fun y => { y with rows := y.rows ++ [(gRowEval c e s).1], placed := y.placed + 1 }) (k.stream n).segs })).modEntry c e.id
        (fun y => { y with placed := y.placed + 1, fullSince := none, sat := y.sat || g.sat, corr := y.corr || g.corr })).glnPump c e.id) := by
  subst hg hn
  show execGleanStreamRowPlace c s = _
  unfold execGleanStreamRowPlace
  simp only [hal, h, Nat.not_le.2 hplaced, hue, hfail, hneed, Nat.not_le.2 hroom, if_false]
  rfl

variable {t0 : Nat} (hsince : e.fullSince = some t0)

include hsince

include hg hue in
/-- A buffer that has stayed full for the stall time fails its operation. -/
theorem exec_stallTimeout_due (hlim : s.rd GLN_CFG.STALL c ≠ 0) (hdue : t0 + s.rd GLN_CFG.STALL c * 1000 ≤ s.now) :
    exec (.gleanStallTimeout c) s = .next ((g.st.glnFlags c g).glnFail c e 7 e.placed 0 0) := by
  subst hg
  have hd : (s.rd GLN_CFG.STALL c != 0 && decide (t0 + s.rd GLN_CFG.STALL c * 1000 ≤ s.now)) = true := by simp [hlim, hdue]
  show execGleanStallTimeout c s = _
  unfold execGleanStallTimeout
  simp only [hal, h, hsince, hd, hue]
  rfl

theorem exec_stallTimeout_early (hearly : s.now < t0 + s.rd GLN_CFG.STALL c * 1000) : exec (.gleanStallTimeout c) s = .next s := by
  have hd : (s.rd GLN_CFG.STALL c != 0 && decide (t0 + s.rd GLN_CFG.STALL c * 1000 ≤ s.now)) = false := by
    simp [Nat.not_le.2 hearly]
  show execGleanStallTimeout c s = _
  unfold execGleanStallTimeout
  simp only [hal, h, hsince, hd]
  rfl

end Streaming

end Rows

/-! ### Flags of an evaluation (R226) -/

section Flags

variable (s : State) (c : Nat) (g : GRun)

theorem onlyRegs_glnFlags : OnlyRegs s (s.glnFlags c g) [Reg.addr .GLN_STAT c 0 0] := by
  have hset : ∀ (b : Bool) (f : Fld) (u : State), f.reg = .GLN_STAT → OnlyRegs u (if b then u.wr f 1 c else u) [Reg.addr .GLN_STAT c 0 0] := by
    intro b f u hf
    split
    · rw [← hf]
      exact onlyRegs_wr u f 1 c 0 0
    · exact .refl u _
  exact (hset g.sat GLN_STAT.SAT s rfl).trans (hset g.corr GLN_STAT.CORR _ rfl)

theorem rd_corr_glnFlags (h : g.corr = true) : (s.glnFlags c g).rd GLN_STAT.CORR c = 1 := by
  unfold State.glnFlags
  dsimp only
  rw [h]
  exact rd_wr_self _ GLN_STAT.CORR 1 c 0 0 (by decide) (by decide)

end Flags

/-! ### A write of GLN_CFG (R216, R225) -/

theorem plainFields_glnCfg : PlainFields (Reg.fields .GLN_CFG) := by decide

/-- A write that flushes, or turns the row cache off, takes its fields and drops every line. -/
theorem writeGlnCfg_flushes {s : State} {c : Nat} {v : W64} (h : bitB v.toNat 17 = true ∨ bitB v.toNat 16 = false) :
    s.writeGlnCfg c v = (s.writeFields .GLN_CFG c 0 0 v).modGln c (fun g => { g with rc := [] }) := by
  have hen : (s.writeFields .GLN_CFG c 0 0 v).rd GLN_CFG.RC_EN c = bits v.toNat 16 16 :=
    rd_writeFields s (f := GLN_CFG.RC_EN) rfl plainFields_glnCfg (by decide) c 0 0 v
  unfold State.writeGlnCfg
  refine if_pos ?_
  rcases h with h | h
  · rw [h]
    rfl
  · have hoff : (s.writeFields .GLN_CFG c 0 0 v).rdB GLN_CFG.RC_EN c = false := (congrArg (· == 1) hen).trans h
    rw [hoff]
    exact Bool.or_true _

/-! ### What completion and a stall leave -/

/-- An operation whose rows are all placed or sent leaves its core's queue, answers its command or signals, and leaves the rest. -/
theorem glnLeave_placed {s : State} {c : Nat} {e : GlnEntry} (hc : c < 192) (hop : e.op < 3) (result status : Nat) {t : State}
    (ht : t = s.glnLeave c e result status) :
    (t.core c).gln = { (s.core c).gln with queue := (s.core c).gln.queue.filter (fun x => x.id != e.id) } ∧
      (∀ k, e.cmd = some k → (s.cmdOf k).isSome = true → t.que.done = s.que.done ++ [(k, status)] ∧ t.csr = s.csr) ∧
      (e.cmd = none → ∀ v, v < 65536 → t.evt v = if v = glnEvent e.desc ∧ glnSig e.desc = true then (s.evt v + 1) % 2 ^ 32 else s.evt v) ∧
      t.mem = s.mem ∧ (t.core c).spad = (s.core c).spad ∧ (t.core c).acc = (s.core c).acc ∧ ∀ d, d ≠ c → t.core d = s.core d := by
  have hsame := sameStore_glnLeave (s := s) (c := c) hop result status
  have hcore := (hsame.core c).trans (core_glnLeft s c e)
  subst ht
  refine ⟨by rw [hcore], fun k hk hsome => ?_, fun hnone v _ => ?_, hsame.2.trans (mem_glnLeft s c e), by rw [hcore], by rw [hcore],
    fun d hd => (hsame.core d).trans (core_glnLeft_ne s c e hd)⟩
  · obtain ⟨x, hx⟩ := Option.isSome_iff_exists.1 hsome
    have hcmd : (glnLeft s c e).cmdOf k = some x := hx
    rw [glnLeave_command hop hk, State.report, hcmd]
    exact ⟨rfl, csr_glnLeft s c e⟩
  · have hevt : ∀ v, (glnLeft s c e).evt v = s.evt v := fun v => rd_of_reg (Module.reg_of_csr (csr_glnLeft s c e) ..)
    rw [glnLeave_instruction hop hnone, evt_glnSignal hc hnone, hevt]

/-- What the evaluation of the row that a stalled stream could not place counts and meets stands beside its failure. -/
theorem stalled_spec {s : State} {c : Nat} {e : GlnEntry} (hc : c < 192) (hop : e.op < 3) (hsp : e.sp < 2) (hcmd : e.cmd = none)
    (hend : (s.sp c e.sp).ended = false) (hroom : (s.sp c e.sp).pend.length < 4) (hvalid : s.rdB GLN_ERR.VALID c = false)
    (hposn : e.placed < 2 ^ 40) {g : GRun} (hreads : RowReads c s g.st) {t : State}
    (ht : t = (g.st.glnFlags c g).glnFail c e 7 e.placed 0 0) :
    t.rd GLN_ERR.CAUSE c = 7 ∧ t.rd GLN_ERR.POSN c = e.placed ∧ entryOf t c e.id = none ∧
      (t.sp c e.sp).pend = (s.sp c e.sp).pend ++ [⟨8, 0, 0, 0⟩] ∧ t.mem = g.st.mem ∧ (g.corr = true → t.rd GLN_STAT.CORR c = 1) ∧
      t.reg .GLN_CNT c 0 0 = g.st.reg .GLN_CNT c 0 0 ∧ t.reg .GLN_RC c 0 0 = g.st.reg .GLN_RC c 0 0 := by
  have hflags := onlyRegs_glnFlags g.st c g
  have happart : ∀ r ∈ [Reg.GLN_ERR, .GLN_CNT, .GLN_RC], (g.st.glnFlags c g).reg r c 0 0 = g.st.reg r c 0 0 := by
    intro r hr
    refine hflags.regs r c 0 0 ?_
    simp only [List.mem_cons, List.not_mem_nil, or_false] at hr
    rcases hr with rfl | rfl | rfl <;> simp [Reg.addr, Reg.place]
  obtain ⟨x, hx⟩ := hreads.core
  have hspg : (g.st.glnFlags c g).sp c e.sp = s.sp c e.sp := by
    rw [hflags.sp, State.sp, hx]
    unfold State.sp Core.sp
    split <;> rfl
  have hvalidg : (g.st.glnFlags c g).rdB GLN_ERR.VALID c = false := by
    have hreg := (happart .GLN_ERR (by simp)).trans (hreads.err.keeps .GLN_ERR c 0 0 rfl)
    unfold State.rdB at hvalid ⊢
    rw [rd_of_reg (f := GLN_ERR.VALID) hreg, hvalid]
  obtain ⟨herr, hstand, hentry, hpend, hmem, -⟩ := glnFail_spec hc hop hcmd hvalidg (by rw [hspg, hend]) (by rw [hspg]; exact hroom) 7 e.placed
    0 0 ht
  obtain ⟨-, hcause, -, -, -, -, hplace⟩ := rd_glnErrs (s := g.st.glnFlags c g) (c := c) (e := e) (cause := 7) (status := 0) (by norm_num) hsp
    hposn (by norm_num)
  refine ⟨(herr _ rfl).trans hcause, (herr _ rfl).trans hplace, hentry, hpend.trans (by rw [hspg]), ?_, fun hcorr => ?_, ?_, ?_⟩
  · rw [hmem, hflags.rest]
  · exact (rd_of_reg (f := GLN_STAT.CORR) (hstand .GLN_STAT (by simp))).trans (rd_corr_glnFlags g.st c g hcorr)
  · exact (hstand .GLN_CNT (by simp)).trans (happart .GLN_CNT (by simp))
  · exact (hstand .GLN_RC (by simp)).trans (happart .GLN_RC (by simp))

/-- An operation that a core's streams wait for writes a stream. -/
theorem streams_of_streaming {g : Gln} {e : GlnEntry} (h : g.streaming = some e) : e.streams = true := by
  have hkind := List.find?_some h
  simp only [Bool.and_eq_true] at hkind
  exact hkind.1.2

/-- Settles O34, row by row: what the gleaner's operations do at each event. -/
theorem gleanerEvents : Obligations.GleanerEvents := by
  intro s c hcores hal
  have hc : c < 192 := lt_of_lt_of_le hcores (Unit.cores_le s.variant)
  refine ⟨fun perr e u hnext hrun hscat hu hentry hneed => ?start, fun e ups hnext hkind => ?placed, fun e ups u hnext hstream hscat hu hue =>
    ⟨_, exec_gleanOpComplete_evaluated hal ups hnext hstream hscat hu hue, rfl⟩,
    fun e k posn st hnext hf hscat hrem hcmd hsp hk hposn hst hvalid hend hroom => ?failsAdd,
    fun e k posn st u hnext hf hkind hu => ⟨_, exec_gleanOpFail_evaluated hal hnext hf hkind hu, rfl⟩,
    fun e hnext hplaced hue hfail hneed hfull => ⟨_, exec_streamRowPlace_full hal hnext rfl hue hplaced hfail hneed hfull, rfl⟩,
    fun e n x g u f hnext hplaced hg hue hfail hneed hn hx hroom hu hentry hscat hstream hmore => ?places,
    fun e t0 hnext hsince hlim => ⟨fun hdue hsp hcmd hend hroom hvalid hposn hue => ?stalls,
      fun hearly => ⟨s, exec_stallTimeout_early hal hnext hsince hearly, rfl⟩⟩,
    fun v _ hshut => ⟨s, congrArg Host.Outcome.next (onCoreWrite_shut hshut _), rfl⟩, fun v hoff hlive hopen => ?flush⟩
  case start =>
    have hstill : u.glnPump c e.id = u := glnPump_still hentry hscat hneed
    exact ⟨u, (exec_gleanOpStart hal perr hnext hrun).trans (by rw [← hu, hstill]), rfl⟩
  case placed =>
    exact ⟨_, exec_gleanOpComplete_placed hal ups hnext hkind, glnLeave_placed hc (hkind.elim op_of_streams op_of_scatters) _ _ rfl⟩
  case failsAdd =>
    obtain ⟨herr, -, hentry, hpend, hmem, hspad, hacc, hother⟩ := glnFail_spec hc (op_of_scatters hscat) hcmd hvalid hend hroom k posn st 0 rfl
    obtain ⟨hv, hcause, hp, hm, hstatus, hcount, hplace⟩ := rd_glnErrs (s := s) (c := c) (e := e) hk hsp hposn hst
    refine ⟨_, exec_gleanOpFail_add hal hnext hf ⟨hscat, hrem⟩, ?_, (herr _ rfl).trans hcause, (herr _ rfl).trans hp, (herr _ rfl).trans hm,
      (herr _ rfl).trans hstatus, (herr _ rfl).trans hcount, (herr _ rfl).trans hplace, hentry, hpend, hmem, hspad, hacc, hother⟩
    unfold State.rdB at hv ⊢
    rw [herr _ rfl, hv]
  case places =>
    subst hx
    have hstill : u.glnPump c e.id = u := glnPump_still hentry hscat (by rw [hstream]; exact hmore)
    exact ⟨u, (exec_streamRowPlace_room hal hnext hg hue hplaced hfail hneed hn hroom).trans (by rw [← hu, hstill]), rfl⟩
  case stalls =>
    exact ⟨_, exec_stallTimeout_due hal hnext rfl hue hsince hlim hdue, stalled_spec hc (op_of_streams (streams_of_streaming hnext)) hsp hcmd hend
      hroom hvalid hposn (rowReads_gRowEval hc e s) rfl⟩
  case flush =>
    have hrd : ∀ f, f.reg = .GLN_CFG → f ∈ Reg.fields .GLN_CFG → f.acc = .rw → (s.writeFields .GLN_CFG c 0 0 v).rd f c = f.get v :=
      fun f hr hmem hrw => (rd_writeFields s hr plainFields_glnCfg hmem c 0 0 v).trans (if_pos hrw)
    have hexec : exec (.rcFlush c v) s = .next ((s.writeFields .GLN_CFG c 0 0 v).modGln c (fun g => { g with rc := [] })) :=
      congrArg Host.Outcome.next ((onCoreWrite_open hlive hopen _).trans (writeGlnCfg_flushes hoff))
    refine ⟨_, hexec, ?_, hrd GLN_CFG.STALL rfl (by decide) rfl, hrd GLN_CFG.RC_EN rfl (by decide) rfl,
      ((onlyRegs_writeFields s .GLN_CFG c 0 0 v).onlyCore c).trans (onlyCore_modCore _ c _ _)⟩
    exact core_modCore_self ..

end Sys2Proof.Proofs.Gleaner


/-! PROOF of GleanerResults, first part: what an evaluation reads and writes in the scratchpad and in L-space (R191, R195, R282, R283). Each
read delivers the bytes that stand there, and each write replaces the bytes that it names. -/

namespace Sys2Proof.Proofs.Gleaner

open Sys2Proof Sys2Proof.Machine Sys2Proof.Laws Sys2Proof.Proofs.Array Sys2Proof.Proofs.Dexica

/-! ### What evaluations see of a state -/

/-- `t` is of the variant of `s`, with the same bytes in the scratchpad of core `c` and in L-space. -/
structure Still (c : Nat) (s t : State) : Prop where
  variant : t.variant = s.variant
  spad : (t.core c).spad = (s.core c).spad
  loft : t.mem.loft = s.mem.loft

section Still

variable {c : Nat} {s t u : State}

theorem Still.refl (c : Nat) (s : State) : Still c s s := ⟨rfl, rfl, rfl⟩

theorem Still.symm (h : Still c s t) : Still c t s := ⟨h.variant.symm, h.spad.symm, h.loft.symm⟩

theorem Still.trans (h : Still c s t) (g : Still c t u) : Still c s u :=
  ⟨g.variant.trans h.variant, g.spad.trans h.spad, g.loft.trans h.loft⟩

theorem still_of_onlyLogs (h : OnlyLogs s t) (c : Nat) : Still c s t := ⟨variant_of_onlyLogs h, by rw [h.core], by rw [h.mem]⟩

theorem still_of_sameStore (h : SameStore s t) (hv : t.variant = s.variant) (c : Nat) : Still c s t := ⟨hv, by rw [h.core], by rw [h.2]⟩

theorem flatRange_of_still (h : Still c s t) (space a n : Nat) : flatRange t c space a n = flatRange s c space a n := by
  unfold flatRange
  rw [h.spad, h.loft]

theorem flatByte_of_still (h : Still c s t) (space b : Nat) : flatByte t c space b = flatByte s c space b := by
  unfold flatByte
  rw [h.spad, h.loft]

end Still

theorem flatByte_spad (s : State) (c b : Nat) : flatByte s c 0 b = SMap.get (s.core c).spad 0 b := if_pos rfl

theorem flatByte_loft (s : State) (c b : Nat) : flatByte s c 1 b = SMap.get s.mem.loft 0 b := if_neg (by decide)

/-- An evaluation that has met no uncorrectable error and needs no remote row. -/
structure Calm (g : GRun) : Prop where
  kept : g.st.memOk = true
  ue : g.ue = false
  need : g.need = []

/-- One whose memory is still that of `s`. -/
structure Fine (c : Nat) (s : State) (g : GRun) : Prop extends Calm g where
  still : Still c s g.st

/-- Two evaluations that see the same and have come equally far. -/
structure Alike (c : Nat) (g h : GRun) : Prop where
  left : Calm g
  right : Calm h
  still : Still c g.st h.st
  fail : h.fail = g.fail

/-- Two that have delivered the same as well. -/
structure AlikeV {α : Type} (c : Nat) (x y : α × GRun) : Prop where
  value : y.1 = x.1
  run : Alike c x.2 y.2

section Runs

variable {c : Nat} {s : State} {g h : GRun}

theorem Calm.ok_iff (hg : Calm g) : g.ok = true ↔ g.fail = none := by
  simp [GRun.ok, hg.ue, hg.need]

theorem Calm.ok_of (hg : Calm g) (hf : g.fail = none) : g.ok = true := hg.ok_iff.2 hf

theorem not_ok (hf : g.fail ≠ none) : g.ok = false := by
  unfold GRun.ok
  rw [Option.isNone_eq_false_iff.2 (Option.isSome_iff_ne_none.2 hf)]
  rfl

theorem Calm.failAt (hg : Calm g) (cause posn : Nat) : Calm (g.failAt cause posn) := ⟨hg.kept, hg.ue, hg.need⟩

theorem failAt_fail (g : GRun) (cause posn : Nat) : (g.failAt cause posn).fail ≠ none := Option.some_ne_none _

theorem Calm.fine (hg : Calm g) (c : Nat) : Fine c g.st g := ⟨hg, .refl c _⟩

theorem Alike.ok (hgh : Alike c g h) : h.ok = g.ok := by
  simp [GRun.ok, hgh.left.ue, hgh.left.need, hgh.right.ue, hgh.right.need, hgh.fail]

theorem Alike.failAt (hgh : Alike c g h) (cause posn : Nat) : Alike c (g.failAt cause posn) (h.failAt cause posn) :=
  ⟨hgh.left.failAt .., hgh.right.failAt .., hgh.still, by simp only [GRun.failAt, hgh.fail]⟩

theorem alike_ite {p : Prop} [Decidable p] {g' h' : GRun} (ht : Alike c g h) (hf : Alike c g' h') :
    Alike c (if p then g else g') (if p then h else h') := by
  split <;> assumption

theorem alikeV_ite {α : Type} {p : Prop} [Decidable p] {x y x' y' : α × GRun} (ht : AlikeV c x y) (hf : AlikeV c x' y') :
    AlikeV c (if p then x else x') (if p then y else y') := by
  split <;> assumption

end Runs

/-! ### Reads (R195, R283) -/

theorem flatIn_of_gIn {s : State} {space a n : Nat} (hs : space ≤ 1) (h : gIn s.variant space a n = true) : flatIn s space a n := by
  match space, hs with
  | 0, _ =>
    have hle : a + n ≤ accBase := of_decide_eq_true h
    exact hle
  | 1, _ =>
    have hle : a + n ≤ s.variant.lEnd := of_decide_eq_true h
    exact hle

/-- From `g`, a read delivers `v` and changes nothing that evaluations see. -/
structure Delivers {α : Type} (c : Nat) (g : GRun) (v : α) (x : α × GRun) : Prop where
  value : x.1 = v
  calm : Calm x.2
  still : Still c g.st x.2.st
  fail : x.2.fail = g.fail

section Reads

variable {c : Nat} {s : State} {g h : GRun} (e : GlnEntry)

theorem Delivers.refl {α : Type} (hg : Calm g) (v : α) : Delivers c g v (v, g) := ⟨rfl, hg, .refl c _, rfl⟩

theorem Delivers.fine {α : Type} {v : α} {x : α × GRun} (hx : Delivers c g v x) (hg : Fine c s g) : Fine c s x.2 :=
  ⟨hx.calm, hg.still.trans hx.still⟩

theorem Delivers.alike {α : Type} {v : α} {x y : α × GRun} (hgh : Alike c g h) (hx : Delivers c g v x) (hy : Delivers c h v y) :
    AlikeV c x y :=
  ⟨hy.value.trans hx.value.symm, hx.calm, hy.calm, (hx.still.symm.trans hgh.still).trans hy.still,
    (hy.fail.trans hgh.fail).trans hx.fail.symm⟩

theorem delivers_take (hg : Calm g) {space a n : Nat} (hs : space ≤ 1) (hin : gIn g.st.variant space a n = true) (hint : Nat)
    (p : Option Nat) : Delivers c g (flatRange g.st c space a n) (g.take (g.st.coreRead space c a n hint false .gleaner p)) := by
  obtain ⟨hdata, hue, hlogs⟩ := coreRead_flat g.st space c a n hint false .gleaner p hs (flatIn_of_gIn hs hin)
  exact ⟨hdata, ⟨memOk_of_onlyLogs hlogs hg.kept, by rw [GRun.take, hue, hg.ue]; rfl, hg.need⟩, still_of_onlyLogs hlogs c, rfl⟩

theorem delivers_list (hg : Calm g) {space a n : Nat} (hs : space ≤ 1) (hin : gIn g.st.variant space a n = true) (posn : Nat) :
    Delivers c g (ofLe (flatRange g.st c space a n)) (g.list c e space a n posn) := by
  have ht := delivers_take (c := c) hg hs hin 0 e.issuer
  unfold GRun.list
  rw [if_neg (by simp [hin])]
  exact ⟨congrArg ofLe ht.value, ht.calm, ht.still, ht.fail⟩

theorem list_out {space a n : Nat} (hin : gIn g.st.variant space a n = false) (posn : Nat) :
    g.list c e space a n posn = (0, g.failAt 2 posn) := by
  unfold GRun.list
  rw [if_pos (by simp [hin])]

/-- Where a table in the scratchpad or in L-space may be read: its rows of no byte may lie anywhere. -/
def tableIn (v : Variant) (e : GlnEntry) (a n : Nat) : Bool := n == 0 || gIn v (gTsp e.desc) a n

theorem delivers_table (hg : Calm g) {a n : Nat} (hs : gTsp e.desc ≤ 1) (hin : tableIn g.st.variant e a n = true) (posn : Nat) :
    Delivers c g (flatRange g.st c (gTsp e.desc) a n) (g.table c e a n posn) := by
  have hrem : gTsp e.desc ≠ 2 := by omega
  unfold GRun.table
  by_cases hn : n = 0
  · subst hn
    rw [List.eq_nil_of_length_eq_zero (flatRange_length g.st c (gTsp e.desc) a 0)]
    exact .refl hg _
  · have hg' : gIn g.st.variant (gTsp e.desc) a n = true := by simpa [tableIn, hn] using hin
    simpa [hn, hrem, hg'] using delivers_take (c := c) hg hs hg' 0 e.issuer

theorem table_out {a n : Nat} (hs : gTsp e.desc ≤ 1) (hin : tableIn g.st.variant e a n = false) (posn : Nat) :
    g.table c e a n posn = (List.replicate n 0, g.failAt 2 posn) := by
  have hrem : gTsp e.desc ≠ 2 := by omega
  obtain ⟨hn, hg'⟩ : n ≠ 0 ∧ gIn g.st.variant (gTsp e.desc) a n = false := by simpa [tableIn] using hin
  unfold GRun.table
  simp [hn, hrem, hg']

/-! A read that an evaluation without failure makes, and one that two alike make. -/

theorem fine_list (hg : Fine c s g) {space a n posn : Nat} (hs : space ≤ 1) (hf : (g.list c e space a n posn).2.fail = none) :
    g.fail = none ∧ (g.list c e space a n posn).1 = ofLe (flatRange s c space a n) ∧ Fine c s (g.list c e space a n posn).2 := by
  cases hin : gIn g.st.variant space a n with
  | false => exact absurd hf (by rw [list_out e hin]; exact failAt_fail g 2 posn)
  | true =>
    have hx := delivers_list (c := c) e hg.toCalm hs hin posn
    exact ⟨hx.fail.symm.trans hf, by rw [hx.value, flatRange_of_still hg.still], hx.fine hg⟩

/-- A read of a list changes nothing, whether it fails or not. -/
theorem fine_after_list (hg : Fine c s g) {space : Nat} (hs : space ≤ 1) (a n posn : Nat) : Fine c s (g.list c e space a n posn).2 := by
  cases hin : gIn g.st.variant space a n with
  | false =>
    rw [list_out e hin]
    exact ⟨hg.toCalm.failAt .., hg.still⟩
  | true => exact (delivers_list (c := c) e hg.toCalm hs hin posn).fine hg

theorem fine_table (hg : Fine c s g) {a n posn : Nat} (hs : gTsp e.desc ≤ 1) (hf : (g.table c e a n posn).2.fail = none) :
    g.fail = none ∧ (g.table c e a n posn).1 = flatRange s c (gTsp e.desc) a n ∧ Fine c s (g.table c e a n posn).2 := by
  cases hin : tableIn g.st.variant e a n with
  | false => exact absurd hf (by rw [table_out e hs hin]; exact failAt_fail g 2 posn)
  | true =>
    have hx := delivers_table (c := c) e hg.toCalm hs hin posn
    exact ⟨hx.fail.symm.trans hf, by rw [hx.value, flatRange_of_still hg.still], hx.fine hg⟩

theorem alike_take (hgh : Alike c g h) {space a n : Nat} (hs : space ≤ 1) (hin : gIn g.st.variant space a n = true) (hint : Nat)
    (p : Option Nat) : AlikeV c (g.take (g.st.coreRead space c a n hint false .gleaner p))
      (h.take (h.st.coreRead space c a n hint false .gleaner p)) := by
  have hy := delivers_take (c := c) hgh.right hs (by rw [hgh.still.variant]; exact hin) hint p
  rw [flatRange_of_still hgh.still] at hy
  exact Delivers.alike hgh (delivers_take hgh.left hs hin hint p) hy

theorem alike_list (hgh : Alike c g h) {space : Nat} (hs : space ≤ 1) (a n posn : Nat) :
    AlikeV c (g.list c e space a n posn) (h.list c e space a n posn) := by
  have hv := hgh.still.variant
  cases hin : gIn g.st.variant space a n with
  | false =>
    rw [list_out e hin, list_out e (by rw [hv]; exact hin)]
    exact ⟨rfl, hgh.failAt ..⟩
  | true =>
    have hy := delivers_list (c := c) e hgh.right hs (by rw [hv]; exact hin) posn
    rw [flatRange_of_still hgh.still] at hy
    exact Delivers.alike hgh (delivers_list e hgh.left hs hin posn) hy

theorem alike_table (hgh : Alike c g h) (hs : gTsp e.desc ≤ 1) (a n posn : Nat) : AlikeV c (g.table c e a n posn) (h.table c e a n posn) := by
  have hv := hgh.still.variant
  cases hin : tableIn g.st.variant e a n with
  | false =>
    rw [table_out e hs hin, table_out e hs (by rw [hv]; exact hin)]
    exact ⟨rfl, hgh.failAt ..⟩
  | true =>
    have hy := delivers_table (c := c) e hgh.right hs (by rw [hv]; exact hin) posn
    rw [flatRange_of_still hgh.still] at hy
    exact Delivers.alike hgh (delivers_table e hgh.left hs hin posn) hy

end Reads

/-! ### Writes (R191, R195) -/

section Writes

variable {c : Nat} {s : State} {g h : GRun} (e : GlnEntry)

/-- The scratchpad with bytes replaced, as far as they lie below the accumulators. -/
def spadAfter (m : SMap Byte) (a : Nat) (d : List Byte) : SMap Byte :=
  if spadPart a d.length = 0 then m else m.putRange (fun _ => some 0) a (d.take (spadPart a d.length))

theorem spad_sWrite (s : State) (c a : Nat) (d : List Byte) (g : Agent) (p : Option Nat) :
    ((s.sWrite c a d g p).core c).spad = spadAfter (s.core c).spad a d := by
  have hpart : ((if spadPart a d.length = 0 then s else s.spadWrite c a (d.take (spadPart a d.length))).core c).spad =
      spadAfter (s.core c).spad a d := by
    unfold spadAfter
    split
    · rfl
    · exact congrArg Core.spad (core_modCore_self ..)
  rw [sWrite_eq, (onlyRegs_count ..).logs.core, sWriteCore]
  split
  · exact hpart
  · rw [accWrite_spad]
    exact hpart

/-- The lines that a store names for its processor's next GLN.DRAIN change no byte. -/
theorem still_glnStore (s : State) (c space a : Nat) (d : List Byte) (hint : Nat) :
    Still c (s.coreWriteRd space c a d hint .gleaner e.issuer).st (s.glnStore c e space a d hint).st ∧
      (s.glnStore c e space a d hint).ue = (s.coreWriteRd space c a d hint .gleaner e.issuer).ue := by
  unfold State.glnStore
  cases e.issuer with
  | none => exact ⟨.refl c _, rfl⟩
  | some p =>
    dsimp only
    split
    · exact ⟨.refl c _, rfl⟩
    · refine ⟨⟨rfl, ?_, rfl⟩, rfl⟩
      rw [(onlySp_modSp _ c p _ []).core, setSp_spad]

theorem glnStore_spad (s : State) (c a : Nat) (d : List Byte) :
    (s.glnStore c e 0 a d 0).ue = false ∧ (s.glnStore c e 0 a d 0).st.variant = s.variant ∧
      ((s.glnStore c e 0 a d 0).st.core c).spad = spadAfter (s.core c).spad a d ∧ (s.glnStore c e 0 a d 0).st.mem.loft = s.mem.loft := by
  obtain ⟨hstill, hue⟩ := still_glnStore e s c 0 a d 0
  refine ⟨hue, hstill.variant.trans ?_, hstill.spad.trans (spad_sWrite ..), hstill.loft.trans (congrArg Mem.loft (mem_sWrite ..))⟩
  have hv : (s.sWrite c a d .gleaner e.issuer).variant = s.variant := by rw [(stored_sWrite s c a d .gleaner e.issuer).rest]
  exact hv

theorem glnStore_loft (s : State) (c a : Nat) (d : List Byte) :
    (s.glnStore c e 1 a d 0).ue = false ∧ (s.glnStore c e 1 a d 0).st.variant = s.variant ∧
      ((s.glnStore c e 1 a d 0).st.core c).spad = (s.core c).spad ∧
      (s.glnStore c e 1 a d 0).st.mem.loft = (s.lWrite a d).mem.loft := by
  obtain ⟨hstill, hue⟩ := still_glnStore e s c 1 a d 0
  have hlogs := (onlyRegs_count (s.lWrite a d) c 0x43 e.issuer d.length).logs
  have hv : ((s.lWrite a d).count c 0x43 e.issuer d.length).variant = s.variant := (variant_of_onlyLogs hlogs :)
  exact ⟨hue, hstill.variant.trans hv, hstill.spad.trans (congrArg Core.spad (hlogs.core c)),
    hstill.loft.trans (congrArg Mem.loft hlogs.mem)⟩

theorem memOk_glnStore (hm : s.memOk = true) (c space a : Nat) (d : List Byte) (hint : Nat) : (s.glnStore c e space a d hint).st.memOk = true :=
  (kept_glnStore (Kept.refl s) c e space a d hint).kept.mem hm

/-- From `s` to `t`, the bytes `d` have come to stand at `a` in the scratchpad of core `c`. -/
structure Put (c a : Nat) (d : List Byte) (s t : State) : Prop where
  variant : t.variant = s.variant
  loft : t.mem.loft = s.mem.loft
  bytes : ∀ b, flatByte t c 0 b = if a ≤ b ∧ b < a + d.length then nth d 0 (b - a) else flatByte s c 0 b

/-- A write of an evaluation that does not fail. -/
theorem fine_put (hg : Calm g) {a posn : Nat} {d : List Byte} (hf : (g.put c e 0 a posn d).fail = none) :
    g.fail = none ∧ Calm (g.put c e 0 a posn d) ∧ Put c a d g.st (g.put c e 0 a posn d).st := by
  obtain ⟨hue, hv, hs, hl⟩ := glnStore_spad e g.st c a d
  unfold GRun.put at *
  cases hin : gIn g.st.variant 0 a d.length with
  | false => exact absurd (by simpa [hin] using hf) (failAt_fail g 2 posn)
  | true =>
    have hle : a + d.length ≤ accBase := of_decide_eq_true hin
    rw [hin] at hf
    rw [if_neg (by simp)] at hf ⊢
    refine ⟨hf, ⟨memOk_glnStore e hg.kept c 0 a d 0, by simp [GRun.take, hue, hg.ue], hg.need⟩, hv, hl, fun b => ?_⟩
    have hb := sWrite_spad (c := c) hg.kept a d .gleaner e.issuer b
    rw [spad_sWrite] at hb
    rw [flatByte_spad, flatByte_spad]
    dsimp only [GRun.take]
    rw [hs, hb]
    exact if_congr (by omega) rfl rfl

/-- A store in two alike. -/
theorem alike_store (hgh : Alike c g h) {space : Nat} (hs : space ≤ 1) (a : Nat) (d : List Byte) :
    Alike c (g.take (g.st.glnStore c e space a d 0)).2 (h.take (h.st.glnStore c e space a d 0)).2 := by
  have hkept := fun {s : State} (hm : s.memOk = true) => memOk_glnStore e hm c space a d 0
  match space, hs with
  | 0, _ =>
    obtain ⟨hue, hv, hs, hl⟩ := glnStore_spad e g.st c a d
    obtain ⟨hue', hv', hs', hl'⟩ := glnStore_spad e h.st c a d
    refine ⟨⟨hkept hgh.left.kept, by simp [GRun.take, hue, hgh.left.ue], hgh.left.need⟩,
      ⟨hkept hgh.right.kept, by simp [GRun.take, hue', hgh.right.ue], hgh.right.need⟩,
      ⟨hv'.trans (hgh.still.variant.trans hv.symm), ?_, hl'.trans (hgh.still.loft.trans hl.symm)⟩, hgh.fail⟩
    exact hs'.trans ((congrArg (spadAfter · a d) hgh.still.spad).trans hs.symm)
  | 1, _ =>
    obtain ⟨hue, hv, hs, hl⟩ := glnStore_loft e g.st c a d
    obtain ⟨hue', hv', hs', hl'⟩ := glnStore_loft e h.st c a d
    refine ⟨⟨hkept hgh.left.kept, by simp [GRun.take, hue, hgh.left.ue], hgh.left.need⟩,
      ⟨hkept hgh.right.kept, by simp [GRun.take, hue', hgh.right.ue], hgh.right.need⟩,
      ⟨hv'.trans (hgh.still.variant.trans hv.symm), hs'.trans (hgh.still.spad.trans hs.symm), ?_⟩, hgh.fail⟩
    exact hl'.trans ((congrArg (SMap.putRange · (fun _ => some 0) a d) hgh.still.loft).trans hl.symm)

theorem alike_put (hgh : Alike c g h) (a posn : Nat) (d : List Byte) : Alike c (g.put c e 0 a posn d) (h.put c e 0 a posn d) := by
  unfold GRun.put
  rw [hgh.still.variant]
  exact alike_ite (hgh.failAt ..) (alike_store e hgh (Nat.zero_le 1) a d)

/-- A count of the gleaner changes nothing that evaluations see. -/
theorem alike_incSat (hgh : Alike c g h) (f : Fld) (k : Nat) :
    Alike c { g with st := g.st.incSat f 1 k } { h with st := h.st.incSat f 1 k } := by
  have hlogs := fun s : State => onlyLogs_incSat s f 1 k 0 0
  exact ⟨⟨memOk_of_onlyLogs (hlogs _) hgh.left.kept, hgh.left.ue, hgh.left.need⟩,
    ⟨memOk_of_onlyLogs (hlogs _) hgh.right.kept, hgh.right.ue, hgh.right.need⟩,
    ((still_of_onlyLogs (hlogs _) c).symm.trans hgh.still).trans (still_of_onlyLogs (hlogs _) c), hgh.fail⟩

end Writes

end Sys2Proof.Proofs.Gleaner


/-! PROOF of GleanerResults, second part: an evaluation's course depends on what its reads deliver alone. Two that see the same bytes go the
same way, whatever fault marks their memories bear (R191, R302). -/

namespace Sys2Proof.Proofs.Gleaner

open Sys2Proof Sys2Proof.Machine Sys2Proof.Laws Sys2Proof.Proofs.Array Sys2Proof.Proofs.Dexica

section Alike

variable {c : Nat} {g h : GRun} (e : GlnEntry)

theorem Calm.noNeed (hg : Calm g) : g.need.isEmpty = true := List.isEmpty_iff.2 hg.need

theorem Calm.more (hg : Calm g) (b : Bool) : Calm { g with more := b } := ⟨hg.kept, hg.ue, hg.need⟩

theorem Alike.more (hgh : Alike c g h) (a b : Bool) : Alike c { g with more := a } { h with more := b } :=
  ⟨hgh.left.more a, hgh.right.more b, hgh.still, hgh.fail⟩

theorem Alike.pair {α : Type} (hgh : Alike c g h) (v : α) : AlikeV c (v, g) (v, h) := ⟨rfl, hgh⟩

/-- Two that have delivered the same, taken apart. -/
theorem AlikeV.parts {α : Type} {x y : α × GRun} (hxy : AlikeV c x y) : ∃ v g h, x = (v, g) ∧ y = (v, h) ∧ Alike c g h :=
  ⟨x.1, x.2, y.2, rfl, Prod.ext hxy.value rfl, hxy.run⟩

theorem alike_gLoop {f : Nat → GRun → GRun} (hf : ∀ i g h, Alike c g h → Alike c (f i g) (f i h)) (n : Nat) (hgh : Alike c g h) (a : Nat) :
    Alike c (gLoop f n a g) (gLoop f n a h) := by
  induction n generalizing g h a with
  | zero => exact hgh
  | succ n ih =>
    unfold gLoop
    rw [hgh.ok]
    exact alike_ite (ih (hf a g h hgh) _) (hgh.more ..)

theorem alike_foldl {α : Type} {f : GRun → α → GRun} (hf : ∀ x g h, Alike c g h → Alike c (f g x) (f h x)) (l : List α)
    (hgh : Alike c g h) : Alike c (l.foldl f g) (l.foldl f h) := by
  induction l generalizing g h with
  | nil => exact hgh
  | cons x l ih => exact ih (hf x g h hgh)

theorem alike_oor (hgh : Alike c g h) (d : List W64) (i : Nat) : Alike c (g.oor c d i) (h.oor c d i) := by
  unfold GRun.oor
  exact alike_ite (alike_incSat hgh ..) (hgh.failAt ..)

theorem alike_index (hgh : Alike c g h) (hi : gIsp e.desc ≤ 1) (i : Nat) : AlikeV c (g.index c e i) (h.index c e i) := alike_list e hgh hi ..

/-! ### GATHER and SEGRED -/

theorem alike_gatherRow (ht : gTsp e.desc ≤ 1) (hi : gIsp e.desc ≤ 1) (i : Nat) (hgh : Alike c g h) :
    AlikeV c (gatherRow c e i g) (gatherRow c e i h) := by
  obtain ⟨x, g, h, hg, hh, hgh⟩ := (alike_index e hgh hi i).parts
  obtain ⟨b, g', h', hg', hh', hgh'⟩ := (alike_table e hgh ht (cw e.desc 1 + x * gTst e.desc) (gTrow e.desc) i).parts
  unfold gatherRow
  simp only [hg, hh, hg', hh', hgh.ok]
  exact alikeV_ite (hgh.pair _) (alikeV_ite ((alike_oor hgh ..).pair _) (hgh'.pair _))

theorem alike_segPos (ht : gTsp e.desc ≤ 1) (hi : gIsp e.desc ≤ 1) (i : Nat) (acc : SegAcc) (hgh : Alike c g h) :
    AlikeV c (segPos c e i acc g) (segPos c e i acc h) := by
  obtain ⟨x, g, h, hg, hh, hgh⟩ := (alikeV_ite (p := gDirect e.desc = true) (hgh.pair i) (alike_index e hgh hi i)).parts
  obtain ⟨b, g', h', hg', hh', hgh'⟩ := (alike_table e hgh ht (cw e.desc 1 + x * gTst e.desc) (gTrow e.desc) i).parts
  unfold segPos
  simp only [hg, hh, hg', hh', hgh.ok]
  exact alikeV_ite (hgh.pair _) (alikeV_ite ((alike_oor hgh ..).pair _) (alikeV_ite (hgh.pair _) (hgh'.pair _)))

theorem alike_segLoop (ht : gTsp e.desc ≤ 1) (hi : gIsp e.desc ≤ 1) (n i : Nat) (acc : SegAcc) (hgh : Alike c g h) :
    AlikeV c (segLoop c e n i acc g) (segLoop c e n i acc h) := by
  induction n generalizing g h i acc with
  | zero => exact hgh.pair _
  | succ n ih =>
    obtain ⟨acc', g', h', hg', hh', hgh'⟩ := (alike_segPos e ht hi i acc hgh).parts
    unfold segLoop
    rw [hgh.ok, hg', hh']
    exact alikeV_ite (ih _ acc' hgh') ((hgh.more ..).pair _)

/-- A segment's row is done: an empty segment counts, and a saturation is remembered. -/
theorem alike_segDone (hgh : Alike c g h) (p : Prop) [Decidable p] (sat : Bool) :
    Alike c { g with st := if p then g.st.incSat GLN_CNT.EMPTY 1 c else g.st, sat := g.sat || sat }
      { h with st := if p then h.st.incSat GLN_CNT.EMPTY 1 c else h.st, sat := h.sat || sat } := by
  obtain ⟨hleft, hright, hstill, -⟩ := alike_incSat hgh GLN_CNT.EMPTY c
  split
  · exact ⟨⟨hleft.kept, hgh.left.ue, hgh.left.need⟩, ⟨hright.kept, hgh.right.ue, hgh.right.need⟩, hstill, hgh.fail⟩
  · exact ⟨⟨hgh.left.kept, hgh.left.ue, hgh.left.need⟩, ⟨hgh.right.kept, hgh.right.ue, hgh.right.need⟩, hgh.still, hgh.fail⟩

theorem alike_segRow (ht : gTsp e.desc ≤ 1) (hi : gIsp e.desc ≤ 1) (ho : gOsp e.desc ≤ 1) (k : Nat) (hgh : Alike c g h) :
    AlikeV c (segRow c e k g) (segRow c e k h) := by
  obtain ⟨o0, g0, h0, hg0, hh0, hgh0⟩ := (alike_list e hgh ho (cw e.desc 3 + k * gW e.desc) (gW e.desc) k).parts
  obtain ⟨o1, g, h, hg1, hh1, hgh⟩ := (alike_list e hgh0 ho (cw e.desc 3 + (k + 1) * gW e.desc) (gW e.desc) k).parts
  obtain ⟨acc, g', h', hg', hh', hgh'⟩ := (alike_segLoop e ht hi (o1 - o0) o0 ⟨0, [], []⟩ hgh).parts
  unfold segRow
  simp only [hg0, hh0, hg1, hh1, hg', hh', hgh.ok, hgh'.ok]
  exact alikeV_ite (hgh.pair _) (alikeV_ite ((hgh.failAt ..).pair _) (alikeV_ite (hgh'.pair _) ((alike_segDone hgh' ..).pair _)))

theorem alike_putRow (ht : gTsp e.desc ≤ 1) (hi : gIsp e.desc ≤ 1) (ho : e.op = 0 ∨ gOsp e.desc ≤ 1) (k : Nat) (hgh : Alike c g h) :
    Alike c (putRow c e k g) (putRow c e k h) := by
  have hrow : AlikeV c (outRow c e k g) (outRow c e k h) := by
    unfold outRow
    by_cases hop : e.op = 0
    · rw [if_pos hop, if_pos hop]
      exact alike_gatherRow e ht hi k hgh
    · rw [if_neg hop, if_neg hop]
      exact alike_segRow e ht hi (ho.resolve_left hop) k hgh
  obtain ⟨row, g, h, hg, hh, hgh⟩ := hrow.parts
  unfold putRow
  simp only [hg, hh, hgh.ok, hgh.left.need, hgh.right.need]
  exact alike_ite hgh (alike_put e hgh ..)

/-! ### SCATADD -/

theorem alike_addLocal {space : Nat} (hs : space ≤ 1) (f a y posn : Nat) (hgh : Alike c g h) :
    Alike c (addLocal c e space f a y posn g) (addLocal c e space f a y posn h) := by
  have hE : space ≠ 2 := by omega
  unfold addLocal
  rw [hgh.still.variant]
  by_cases hin : gIn g.st.variant space a 4 = true
  · obtain ⟨d, g', h', hg', hh', hgh'⟩ := (alike_take hgh hs hin 0 e.issuer).parts
    simp only [hin, hE, hg', hh', Bool.not_true, Bool.false_eq_true, if_false]
    exact alike_store e hgh' hs a _
  · simp only [hin]
    exact hgh.failAt ..

theorem alike_scatSource (i : Nat) (hgh : Alike c g h) : AlikeV c (scatSource c e i g) (scatSource c e i h) := by
  unfold scatSource
  dsimp only
  rw [hgh.still.variant]
  by_cases hin : gIn g.st.variant 0 (cw e.desc 4 + i * gDst e.desc) (gTrow e.desc) = true
  · simpa only [hin, Bool.not_true, Bool.false_eq_true, if_false] using alike_take hgh (Nat.zero_le 1) hin 0 e.issuer
  · rw [if_pos (by simpa using hin), if_pos (by simpa using hin)]
    exact (hgh.failAt 2 i).pair _

theorem alike_scatRow (ht : gTsp e.desc ≤ 1) (hi : gIsp e.desc ≤ 1) (i : Nat) (hgh : Alike c g h) :
    Alike c (scatRow c e i g) (scatRow c e i h) := by
  obtain ⟨x, g, h, hg, hh, hgh⟩ := (alike_index e hgh hi i).parts
  obtain ⟨b, g', h', hg', hh', hgh'⟩ := (alike_scatSource e i hgh).parts
  unfold scatRow
  simp only [hg, hh, hg', hh', hgh.ok, hgh'.ok, hgh'.still.variant]
  refine alike_ite hgh (alike_ite (alike_oor hgh ..) (alike_ite (hgh'.failAt ..) (alike_foldl (fun w g h hgh => ?_) _ hgh')))
  rw [hgh.ok]
  exact alike_ite (alike_addLocal e ht _ _ _ _ hgh) hgh

/-! ### MERGE and ISECT -/

theorem alike_load (l : Lst) (hl : l.space ≤ 1) (hgh : Alike c g h) : AlikeV c (l.load c e g) (l.load c e h) := by
  obtain ⟨x, g', h', hg', hh', hgh'⟩ := (alike_list e hgh hl (l.base + l.at_ * gW e.desc) (gW e.desc) l.at_).parts
  unfold Lst.load
  simp only [hg', hh', hgh'.ok]
  exact alikeV_ite (hgh.pair _) (alikeV_ite ((hgh'.failAt ..).pair _) (hgh'.pair _))

theorem space_load (l : Lst) (c : Nat) (g : GRun) : (l.load c e g).1.space = l.space := by
  unfold Lst.load
  split
  · rfl
  · dsimp only
    split <;> rfl

theorem alike_listOut (hp : gPos e.desc = false) (k x : Nat) (pos : List Nat) (hgh : Alike c g h) :
    Alike c (listOut c e k x pos g) (listOut c e k x pos h) := by
  unfold listOut
  simp only [hp, Bool.and_false, Bool.false_eq_true, if_false]
  exact alike_put e hgh ..

/-- Both lists are loaded, as long as nothing fails. -/
def loadBoth (c : Nat) (e : GlnEntry) (a b : Lst) (g : GRun) : (Lst × Lst) × GRun :=
  let x := a.load c e g
  let y := if x.2.ok then b.load c e x.2 else (b, x.2)
  ((x.1, y.1), y.2)

theorem alike_loadBoth {a b : Lst} (ha : a.space ≤ 1) (hb : b.space ≤ 1) (hgh : Alike c g h) :
    AlikeV c (loadBoth c e a b g) (loadBoth c e a b h) := by
  have hx := alike_load e a ha hgh
  have hy : AlikeV c (if (a.load c e g).2.ok then b.load c e (a.load c e g).2 else (b, (a.load c e g).2))
      (if (a.load c e h).2.ok then b.load c e (a.load c e h).2 else (b, (a.load c e h).2)) := by
    rw [hx.run.ok]
    exact alikeV_ite (alike_load e b hb hx.run) (hx.run.pair b)
  exact ⟨congrArg₂ Prod.mk hx.value hy.value, hy.run⟩

theorem space_loadBoth (a b : Lst) (c : Nat) (g : GRun) :
    (loadBoth c e a b g).1.1.space = a.space ∧ (loadBoth c e a b g).1.2.space = b.space := by
  refine ⟨space_load e a c g, ?_⟩
  unfold loadBoth
  dsimp only
  split
  · exact space_load e b c _
  · rfl

/-- What MERGE puts out next, from two lists that are loaded: an element with its position, and the lists behind it. -/
def mergeNext (a b : Lst) : Option ((Nat × List Nat) × Lst × Lst) :=
  match a.cur, b.cur with
  | none, none => none
  | some x, none => some ((x, [a.at_]), a.next, b)
  | none, some y => some ((y, [b.at_ % 2 ^ 31 + 2 ^ 31]), a, b.next)
  | some x, some y => if x ≤ y then some ((x, [a.at_]), a.next, b) else some ((y, [b.at_ % 2 ^ 31 + 2 ^ 31]), a, b.next)

/-- One round of MERGE. -/
theorem mergeLoop_succ (c : Nat) (e : GlnEntry) (f : Nat) (a b : Lst) (k : Nat) (g : GRun) :
    mergeLoop c e (f + 1) a b k g =
      if !(loadBoth c e a b g).2.ok then (k, (loadBoth c e a b g).2)
      else match mergeNext (loadBoth c e a b g).1.1 (loadBoth c e a b g).1.2 with
        | none => (k, (loadBoth c e a b g).2)
        | some (x, a', b') =>
          if (listOut c e k x.1 x.2 (loadBoth c e a b g).2).ok then
            mergeLoop c e f a' b' (k + 1) (listOut c e k x.1 x.2 (loadBoth c e a b g).2)
          else (k, listOut c e k x.1 x.2 (loadBoth c e a b g).2) := by
  obtain ⟨x, hx⟩ : ∃ x, a.load c e g = x := ⟨_, rfl⟩
  obtain ⟨y, hy⟩ : ∃ y, (if x.2.ok then b.load c e x.2 else (b, x.2)) = y := ⟨_, rfl⟩
  simp only [mergeLoop, loadBoth, hx, hy]
  unfold mergeNext
  cases x.1.cur <;> cases y.1.cur
  case some.some v w => by_cases hvw : v ≤ w <;> simp only [hvw, if_true, if_false]
  all_goals rfl

theorem space_mergeNext {a b a' b' : Lst} {x : Nat × List Nat} (h : mergeNext a b = some (x, a', b')) :
    a'.space = a.space ∧ b'.space = b.space := by
  unfold mergeNext at h
  split at h
  · cases h
  · cases h; exact ⟨rfl, rfl⟩
  · cases h; exact ⟨rfl, rfl⟩
  · split at h <;> cases h <;> exact ⟨rfl, rfl⟩

theorem alike_mergeLoop (hp : gPos e.desc = false) (f : Nat) {a b : Lst} (ha : a.space ≤ 1) (hb : b.space ≤ 1) (k : Nat) (hgh : Alike c g h) :
    AlikeV c (mergeLoop c e f a b k g) (mergeLoop c e f a b k h) := by
  induction f generalizing g h a b k with
  | zero => exact hgh.pair k
  | succ f ih =>
    rw [mergeLoop_succ, mergeLoop_succ]
    obtain ⟨hsa, hsb⟩ := space_loadBoth e a b c g
    obtain ⟨⟨a', b'⟩, g', h', hg', hh', hgh'⟩ := (alike_loadBoth e ha hb hgh).parts
    rw [hg'] at hsa hsb
    rw [hg', hh', hgh'.ok]
    refine alikeV_ite (hgh'.pair k) ?_
    cases hnext : mergeNext a' b' with
    | none => exact hgh'.pair k
    | some y =>
      obtain ⟨x, a2, b2⟩ := y
      obtain ⟨h1, h2⟩ := space_mergeNext hnext
      have hout := alike_listOut e hp k x.1 x.2 hgh'
      dsimp only at hsa hsb ⊢
      rw [hout.ok]
      exact alikeV_ite (ih (by omega) (by omega) _ hout) (hout.pair k)

/-- What ISECT does next with two lists that are loaded: a common element with its positions, if one is found, and the lists behind. -/
def isectNext (a b : Lst) : Option (Option (Nat × List Nat) × Lst × Lst) :=
  match a.cur, b.cur with
  | some x, some y =>
    if x < y then some (none, a.next, b)
    else if y < x then some (none, a, b.next)
    else some (some (x, [a.at_, b.at_]), a.next, b.next)
  | _, _ => none

/-- One round of ISECT. -/
theorem isectLoop_succ (c : Nat) (e : GlnEntry) (f : Nat) (a b : Lst) (k : Nat) (g : GRun) :
    isectLoop c e (f + 1) a b k g =
      if !(loadBoth c e a b g).2.ok then (k, (loadBoth c e a b g).2)
      else match isectNext (loadBoth c e a b g).1.1 (loadBoth c e a b g).1.2 with
        | none => (k, (loadBoth c e a b g).2)
        | some (none, a', b') => isectLoop c e f a' b' k (loadBoth c e a b g).2
        | some (some x, a', b') =>
          if (listOut c e k x.1 x.2 (loadBoth c e a b g).2).ok then
            isectLoop c e f a' b' (k + 1) (listOut c e k x.1 x.2 (loadBoth c e a b g).2)
          else (k, listOut c e k x.1 x.2 (loadBoth c e a b g).2) := by
  obtain ⟨x, hx⟩ : ∃ x, a.load c e g = x := ⟨_, rfl⟩
  obtain ⟨y, hy⟩ : ∃ y, (if x.2.ok then b.load c e x.2 else (b, x.2)) = y := ⟨_, rfl⟩
  simp only [isectLoop, loadBoth, hx, hy]
  unfold isectNext
  cases x.1.cur <;> cases y.1.cur
  case some.some v w =>
    by_cases hvw : v < w
    · simp only [hvw, if_true]
    · by_cases hwv : w < v <;> simp only [hvw, hwv, if_true, if_false]
  all_goals rfl

theorem space_isectNext {a b a' b' : Lst} {x : Option (Nat × List Nat)} (h : isectNext a b = some (x, a', b')) :
    a'.space = a.space ∧ b'.space = b.space := by
  unfold isectNext at h
  split at h
  · split at h
    · cases h; exact ⟨rfl, rfl⟩
    · split at h <;> cases h <;> exact ⟨rfl, rfl⟩
  · cases h

theorem alike_isectLoop (hp : gPos e.desc = false) (f : Nat) {a b : Lst} (ha : a.space ≤ 1) (hb : b.space ≤ 1) (k : Nat) (hgh : Alike c g h) :
    AlikeV c (isectLoop c e f a b k g) (isectLoop c e f a b k h) := by
  induction f generalizing g h a b k with
  | zero => exact hgh.pair k
  | succ f ih =>
    rw [isectLoop_succ, isectLoop_succ]
    obtain ⟨hsa, hsb⟩ := space_loadBoth e a b c g
    obtain ⟨⟨a', b'⟩, g', h', hg', hh', hgh'⟩ := (alike_loadBoth e ha hb hgh).parts
    rw [hg'] at hsa hsb
    rw [hg', hh', hgh'.ok]
    refine alikeV_ite (hgh'.pair k) ?_
    cases hnext : isectNext a' b' with
    | none => exact hgh'.pair k
    | some y =>
      obtain ⟨x, a2, b2⟩ := y
      obtain ⟨h1, h2⟩ := space_isectNext hnext
      dsimp only at hsa hsb ⊢
      cases x with
      | none => exact ih (by omega) (by omega) k hgh'
      | some x =>
        have hout := alike_listOut e hp k x.1 x.2 hgh'
        dsimp only
        rw [hout.ok]
        exact alikeV_ite (ih (by omega) (by omega) _ hout) (hout.pair k)

theorem alike_listOp (ht : gTsp e.desc ≤ 1) (hi : gIsp e.desc ≤ 1) (hp : gPos e.desc = false) (hgh : Alike c g h) :
    AlikeV c (listOp c e g) (listOp c e h) :=
  alikeV_ite (alike_mergeLoop e hp _ ht hi 0 hgh) (alike_isectLoop e hp _ ht hi 0 hgh)

/-! ### SORT -/

theorem alike_sortRead (n i : Nat) (hgh : Alike c g h) : AlikeV c (sortRead c e n i g) (sortRead c e n i h) := by
  induction n generalizing g h i with
  | zero => exact hgh.pair _
  | succ n ih =>
    unfold sortRead
    dsimp only
    rw [hgh.still.variant]
    by_cases hin : gIn g.st.variant 0 (cw e.desc 1 + i * gPair e.desc) (gPair e.desc) = true
    · obtain ⟨b, g', h', hg', hh', hgh'⟩ := (alike_take hgh (Nat.zero_le 1) hin 0 e.issuer).parts
      obtain ⟨r, g2, h2, hg2, hh2, hgh2⟩ := (ih (i + 1) hgh').parts
      simp only [hin, hg', hh', hg2, hh2, Bool.not_true, Bool.false_eq_true, if_false]
      exact hgh2.pair _
    · rw [if_pos (by simpa using hin), if_pos (by simpa using hin)]
      exact (hgh.failAt 2 i).pair _

theorem alike_sortWrite (base : Nat) (l : List (Nat × Nat)) (hgh : Alike c g h) :
    Alike c (sortWrite c e base l g) (sortWrite c e base l h) := by
  refine alike_foldl (fun x g h hgh => ?_) _ hgh
  rw [hgh.ok]
  exact alike_ite (alike_put e hgh ..) hgh

theorem alike_sortPasses (n k : Nat) (l : List (Nat × Nat)) (hgh : Alike c g h) :
    Alike c (sortPasses c e n k l g) (sortPasses c e n k l h) := by
  induction n generalizing g h k l with
  | zero => exact hgh
  | succ n ih =>
    unfold sortPasses
    rw [hgh.ok]
    exact alike_ite (ih _ _ (alike_sortWrite e _ _ hgh)) hgh

/-! ### PROBE -/

theorem alike_probeLoop (ht : gTsp e.desc ≤ 1) (key posn n slot : Nat) (hgh : Alike c g h) :
    AlikeV c (probeLoop c e key posn n slot g) (probeLoop c e key posn n slot h) := by
  induction n generalizing g h slot with
  | zero => exact (alike_incSat hgh GLN_CNT.LONG c).pair _
  | succ n ih =>
    obtain ⟨b, g', h', hg', hh', hgh'⟩ := (alike_table e hgh ht (cw e.desc 1 + slot * gPair e.desc) (gPair e.desc) posn).parts
    unfold probeLoop
    simp only [hg', hh', hgh'.ok, hgh'.left.noNeed, hgh'.right.noNeed]
    exact alikeV_ite ((hgh'.more ..).pair _) (alikeV_ite (hgh'.pair _) (alikeV_ite (hgh'.pair _) (ih _ hgh')))

theorem alike_probeKey (ht : gTsp e.desc ≤ 1) (hi : gIsp e.desc ≤ 1) (i : Nat) (hgh : Alike c g h) :
    Alike c (probeKey c e i g) (probeKey c e i h) := by
  obtain ⟨k, g', h', hg', hh', hgh'⟩ := (alike_index e hgh hi i).parts
  have hprobe := fun n slot => alike_probeLoop e ht k i n slot hgh'
  obtain ⟨v, g2, h2, hg2, hh2, hgh2⟩ := (alikeV_ite (p := k = 2 ^ (8 * gW e.desc) - 1) (hgh'.pair 0xFFFFFFFF)
    (hprobe (if gAux e.desc = 0 then 256 else gAux e.desc) (homeSlot k (cw e.desc 7)))).parts
  unfold probeKey
  simp only [hgh.left.noNeed, hgh.right.noNeed, hg', hh', hgh'.ok, hg2, hh2, hgh2.ok, hgh2.left.noNeed, hgh2.right.noNeed]
  exact alike_ite (hgh.more ..) (alike_ite hgh' (alike_ite hgh2 (alike_put e hgh2 ..)))

/-! ### Whole operations -/

/-- Where an operation's lists and tables are in the scratchpad or in L-space, and it puts out no positions. -/
structure Near (e : GlnEntry) : Prop where
  table : gTsp e.desc ≤ 1
  index : e.op ≠ 5 → gIsp e.desc ≤ 1
  offsets : e.op = 1 → gOsp e.desc ≤ 1
  noPos : e.op = 3 ∨ e.op = 4 → gPos e.desc = false

theorem alike_gEval {s t : State} (hs : s.memOk = true) (ht : t.memOk = true) (hst : Still c s t) (hn : Near e) :
    AlikeV c (gEval c e s) (gEval c e t) := by
  have hgh : Alike c { st := s } { st := t } := ⟨⟨hs, rfl, rfl⟩, ⟨ht, rfl, rfl⟩, hst, rfl⟩
  obtain ⟨htab, hidx, hoff, hpos⟩ := hn
  unfold gEval
  dsimp only
  refine alikeV_ite ((hgh.failAt ..).pair 0) ?_
  match hop : e.op with
  | 0 => exact (alike_gLoop (fun i g h hgh => alike_putRow e htab (hidx (by omega)) (.inl hop) i hgh) _ hgh 0).pair 0
  | 1 => exact (alike_gLoop (fun i g h hgh => alike_putRow e htab (hidx (by omega)) (.inr (hoff hop)) i hgh) _ hgh 0).pair 0
  | 2 => exact (alike_ite hgh (alike_gLoop (fun i g h hgh => alike_scatRow e htab (hidx (by omega)) i hgh) _ hgh 0)).pair 0
  | 3 => exact alike_listOp e htab (hidx (by omega)) (hpos (.inl hop)) hgh
  | 4 => exact alike_listOp e htab (hidx (by omega)) (hpos (.inr hop)) hgh
  | 5 =>
    obtain ⟨l, g, h, hg, hh, hgh'⟩ := (alike_sortRead e (gN e.desc) 0 hgh).parts
    simp only [hg, hh]
    exact (alike_sortPasses e _ 0 l hgh').pair 0
  | _ + 6 => exact (alike_gLoop (fun i g h hgh => alike_probeKey e htab (hidx (by omega)) i hgh) _ hgh 0).pair 0

end Alike

end Sys2Proof.Proofs.Gleaner


/-! PROOF of GleanerResults, third part: rows of bytes that an evaluation writes one after the other, a stride apart (R195, R197). -/

namespace Sys2Proof.Proofs.Gleaner

open Sys2Proof Sys2Proof.Machine Sys2Proof.Laws Sys2Proof.Proofs.Array Sys2Proof.Proofs.Dexica

/-! ### What two states share of L-space -/

/-- `t` is of the variant of `s`, with the same bytes in L-space. -/
structure SameLoft (s t : State) : Prop where
  variant : t.variant = s.variant
  loft : t.mem.loft = s.mem.loft

section Loft

variable {c : Nat} {s t u : State}

theorem SameLoft.refl (s : State) : SameLoft s s := ⟨rfl, rfl⟩

theorem SameLoft.trans (h : SameLoft s t) (g : SameLoft t u) : SameLoft s u := ⟨g.variant.trans h.variant, g.loft.trans h.loft⟩

theorem Still.toLoft (h : Still c s t) : SameLoft s t := ⟨h.variant, h.loft⟩

theorem flatRange_of_loft (h : SameLoft s t) (c a n : Nat) : flatRange t c 1 a n = flatRange s c 1 a n := by
  unfold flatRange
  rw [if_neg (by decide), if_neg (by decide), h.loft]

theorem listElem_of_loft (h : SameLoft s t) (c : Nat) (d : List W64) (base i : Nat) : listElem t c 1 d base i = listElem s c 1 d base i :=
  congrArg ofLe (flatRange_of_loft h ..)

end Loft

/-! ### Bytes at a place -/

/-- Bytes that stand in a space one by one stand there as a range. -/
theorem flatRange_of_bytes {s : State} (hm : s.memOk = true) {c space a : Nat} {d : List Byte}
    (h : ∀ k, k < d.length → flatByte s c space (a + k) = nth d 0 k) : flatRange s c space a d.length = d := by
  rw [flatRange_eq hm]
  refine List.ext_getElem (by simp) fun k _ hk => ?_
  rw [List.getElem_map, List.getElem_range, h k hk, nth, List.getElem?_eq_getElem hk, Option.getD_some]

/-- From `s` to `t`, rows of bytes have come to stand in the scratchpad of core `c`: row `a + i` of those from `base` on, a stride apart, is
row `i` of `ds`. -/
structure Rows (c base stride a : Nat) (ds : List (List Byte)) (s t : State) : Prop extends SameLoft s t where
  fits : ∀ d ∈ ds, d.length ≤ stride
  row : ∀ i d, ds[i]? = some d → ∀ k, k < d.length → flatByte t c 0 (base + (a + i) * stride + k) = nth d 0 k
  rest : ∀ b, (∀ i d, ds[i]? = some d → b < base + (a + i) * stride ∨ base + (a + i) * stride + d.length ≤ b) →
    flatByte t c 0 b = flatByte s c 0 b

section Rows

variable {c base stride a : Nat} {d : List Byte} {ds : List (List Byte)} {s t u : State}

theorem Rows.nil (h : Still c s t) : Rows c base stride a [] s t :=
  ⟨h.toLoft, by simp, by simp, fun b _ => flatByte_of_still h 0 b⟩

/-- Reads before the rows are written change nothing. -/
theorem Rows.of_still (h : Still c s t) (hr : Rows c base stride a ds t u) : Rows c base stride a ds s u :=
  ⟨h.toLoft.trans hr.toSameLoft, hr.fits, hr.row, fun b hb => (hr.rest b hb).trans (flatByte_of_still h 0 b)⟩

/-- So do reads behind them. -/
theorem Rows.then_still (hr : Rows c base stride a ds s t) (h : Still c t u) : Rows c base stride a ds s u :=
  ⟨hr.toSameLoft.trans h.toLoft, hr.fits, fun i d hd k hk => (flatByte_of_still h ..).trans (hr.row i d hd k hk),
    fun b hb => (flatByte_of_still h 0 b).trans (hr.rest b hb)⟩

theorem Put.of_still {x : Nat} (h : Still c s t) (hp : Put c x d t u) : Put c x d s u :=
  ⟨hp.variant.trans h.variant, hp.loft.trans h.loft, fun b => by rw [hp.bytes, flatByte_of_still h]⟩

/-- One row is written, and the rows behind it. -/
theorem Rows.cons (hp : Put c (base + a * stride) d s t) (hd : d.length ≤ stride) (hr : Rows c base stride (a + 1) ds t u) :
    Rows c base stride a (d :: ds) s u := by
  have hplace : ∀ i, a + 1 + i = a + (i + 1) := fun i => by omega
  refine ⟨⟨hr.variant.trans hp.variant, hr.loft.trans hp.loft⟩, List.forall_mem_cons.2 ⟨hd, hr.fits⟩, fun i x hx k hk => ?_,
    fun b hb => ?_⟩
  · cases i with
    | zero =>
      obtain rfl : d = x := by simpa using hx
      have hbehind : ∀ j y, ds[j]? = some y →
          base + (a + 0) * stride + k < base + (a + 1 + j) * stride ∨ base + (a + 1 + j) * stride + y.length ≤ base + (a + 0) * stride + k := by
        intro j y _
        have hrows : a * stride + stride ≤ (a + 1 + j) * stride := by
          rw [← Nat.succ_mul]
          exact Nat.mul_le_mul_right _ (by omega)
        rw [Nat.add_zero]
        omega
      rw [hr.rest _ hbehind, hp.bytes, Nat.add_zero, if_pos (by omega), Nat.add_sub_cancel_left]
    | succ i =>
      rw [← hplace]
      exact hr.row i x (by simpa using hx) k hk
  · have hfirst := hb 0 d rfl
    rw [Nat.add_zero] at hfirst
    rw [hr.rest b fun i x hx => by rw [hplace]; exact hb (i + 1) x (by simpa using hx), hp.bytes, if_neg (by omega)]

/-- A row reads as what was written. -/
theorem Rows.range (hr : Rows c base stride a ds s t) (hm : t.memOk = true) {i : Nat} (hd : ds[i]? = some d) :
    flatRange t c 0 (base + (a + i) * stride) d.length = d :=
  flatRange_of_bytes hm fun k hk => hr.row i d hd k hk

/-- Bytes that lie before the first row or behind the last stand. -/
theorem Rows.outside (hr : Rows c base stride a ds s t) {b : Nat} (hb : b < base + a * stride ∨ base + (a + ds.length) * stride ≤ b) :
    flatByte t c 0 b = flatByte s c 0 b := by
  refine hr.rest b fun i d hd => ?_
  have hfit := hr.fits d (List.mem_of_getElem? hd)
  have hi : i < ds.length := (List.getElem?_eq_some_iff.1 hd).1
  have hlow : a * stride ≤ (a + i) * stride := Nat.mul_le_mul_right _ (by omega)
  have hhigh : (a + i) * stride + stride ≤ (a + ds.length) * stride := by
    rw [← Nat.succ_mul]
    exact Nat.mul_le_mul_right _ (by omega)
  omega

end Rows

/-! ### A loop that writes a row a round -/

/-- Each round of `f` that does not fail writes row `i`, made of L-space alone. -/
structure Writer (c base stride n : Nat) (row : Nat → List Byte) (s : State) (f : Nat → GRun → GRun) : Prop where
  round : ∀ i g, i < n → Calm g → SameLoft s g.st → (f i g).fail = none →
    Calm (f i g) ∧ Put c (base + i * stride) (row i) g.st (f i g).st
  fits : ∀ i, i < n → (row i).length ≤ stride

theorem fail_gLoop {f : Nat → GRun → GRun} {n a : Nat} {g : GRun} (hf : (gLoop f n a g).fail = none) : g.fail = none := by
  cases n with
  | zero => exact hf
  | succ n =>
    by_contra hg
    unfold gLoop at hf
    rw [not_ok hg] at hf
    exact hg hf

theorem rows_gLoop {c base stride N : Nat} {row : Nat → List Byte} {s : State} {f : Nat → GRun → GRun} (hw : Writer c base stride N row s f)
    {n a : Nat} {g : GRun} (hn : a + n ≤ N) (hg : Calm g) (hs : SameLoft s g.st) (hf : (gLoop f n a g).fail = none) :
    Calm (gLoop f n a g) ∧ Rows c base stride a ((List.range' a n).map row) g.st (gLoop f n a g).st := by
  induction n generalizing a g with
  | zero => exact ⟨hg, .nil (.refl c _)⟩
  | succ n ih =>
    have hok := hg.ok_of (fail_gLoop hf)
    unfold gLoop at hf ⊢
    rw [hok, if_pos rfl] at hf ⊢
    obtain ⟨hg', hput⟩ := hw.round a g (by omega) hg hs (fail_gLoop hf)
    obtain ⟨hcalm, hrows⟩ := ih (by omega) hg' (hs.trans ⟨hput.variant, hput.loft⟩) hf
    exact ⟨hcalm, .cons hput (hw.fits a (by omega)) hrows⟩

end Sys2Proof.Proofs.Gleaner


/-! PROOF of GleanerResults, fourth part: an operation that is through ends with what its evaluation leaves (R191, R195, R222). -/

namespace Sys2Proof.Proofs.Gleaner

open Sys2Proof Sys2Proof.Machine Sys2Proof.Laws Sys2Proof.Proofs.Array Sys2Proof.Proofs.Dexica

/-! ### Upsets change no byte (R302) -/

theorem still_mark (s : State) {space : Nat} (hs : space ≤ 1) (c : Nat) (ups : List Upset) : Still c s (s.mark space c ups) := by
  unfold State.mark
  split
  · exact .refl c s
  · match space, hs with
    | 0, _ =>
      have hspad : ((s.markSpad c ups).core c).spad = (s.core c).spad := by
        unfold State.markSpad
        rw [core_modCore_self]
      exact ⟨rfl, hspad, rfl⟩
    | 1, _ => exact ⟨rfl, rfl, rfl⟩

/-! ### How an operation leaves (R191, R222) -/

section Leave

variable (s : State) (c : Nat) (e : GlnEntry)

/-- The operation is out of its core's queue, and its count is written where it has one. -/
def glnCounted (result : Nat) : State :=
  if e.op = 3 ∨ e.op = 4 then ((glnLeft s c e).glnStore c e e.space (e.addr + 56) (leBytes 8 result) 0).st else glnLeft s c e

theorem sameStore_glnCounted (result status : Nat) : SameStore (glnCounted s c e result) (s.glnLeave c e result status) := by
  have hanswer : s.glnLeave c e result status = match e.cmd with
      | some id => (glnCounted s c e result).report id status
      | none => (glnCounted s c e result).glnSignal c e := rfl
  rw [hanswer]
  cases e.cmd with
  | some id => exact sameStore_report ..
  | none => exact sameStore_glnSignal ..

theorem still_glnLeft : Still c s (glnLeft s c e) := ⟨rfl, by rw [core_glnLeft], by rw [mem_glnLeft]⟩

variable {s c e}

theorem memOk_glnLeave (hm : s.memOk = true) (result status : Nat) : (s.glnLeave c e result status).memOk = true :=
  (kept_glnLeave (Kept.refl s) c e result status).mem hm

/-- An operation other than MERGE and ISECT leaves memory as it is. -/
theorem still_glnLeave (hop : ¬(e.op = 3 ∨ e.op = 4)) (result status : Nat) : Still c s (s.glnLeave c e result status) := by
  have hstore := sameStore_glnCounted s c e result status
  rw [glnCounted, if_neg hop] at hstore
  have hleft := still_glnLeft s c e
  exact hleft.trans (still_of_sameStore hstore ((kept_glnLeave (Kept.refl s) c e result status).variant.trans hleft.variant.symm) c)

/-- MERGE and ISECT write their count into their descriptor in L-space, and leave the rest of memory as it is. -/
theorem loft_glnLeave (hm : s.memOk = true) (hop : e.op = 3 ∨ e.op = 4) (hspace : e.space = 1) (result status : Nat) :
    ((s.glnLeave c e result status).core c).spad = (s.core c).spad ∧
      ∀ b, flatByte (s.glnLeave c e result status) c 1 b =
        if e.addr + 56 ≤ b ∧ b < e.addr + 64 then nth (leBytes 8 result) 0 (b - (e.addr + 56)) else flatByte s c 1 b := by
  have hstore := sameStore_glnCounted s c e result status
  rw [glnCounted, if_pos hop, hspace] at hstore
  obtain ⟨-, -, hspad, hloft⟩ := glnStore_loft e (glnLeft s c e) c (e.addr + 56) (leBytes 8 result)
  have hleft := still_glnLeft s c e
  have hml : (glnLeft s c e).memOk = true := by
    have hkept : Kept s (glnLeft s c e) :=
      (kept_modGln (Kept.refl s) c (fun g => { g with queue := g.queue.filter (fun x => x.id != e.id) })).same rfl rfl rfl rfl rfl rfl
    exact hkept.mem hm
  refine ⟨by rw [hstore.core, hspad, hleft.spad], fun b => ?_⟩
  rw [flatByte_loft, flatByte_loft, hstore.2, hloft, lWrite_loft hml, leBytes_length, hleft.loft]

end Leave

/-! ### Facts of an operation that starts (R195, R205, R610) -/

theorem fails_start {op : Nat} {d : List W64} (h : gStartCause op d = 0) : gForbidden op d = false ∧ gMisplaced op d = false := by
  unfold gStartCause at h
  split at h
  · omega
  · next hbad =>
    split at h
    · omega
    · next hplace =>
      simp only [Bool.or_eq_true, not_or, Bool.not_eq_true] at hbad hplace
      exact ⟨hbad.2, hplace⟩

theorem start_of_fine {c : Nat} {e : GlnEntry} {s : State} (h : (gEval c e s).2.fail = none) : gStartCause e.op e.desc = 0 := by
  by_contra hne
  refine absurd h ?_
  unfold gEval
  rw [if_pos hne]
  exact failAt_fail { st := s } _ 0

/-! ### The evaluation of each operation that starts well -/

section Eval

variable {c : Nat} {e : GlnEntry} (s : State) (hs : gStartCause e.op e.desc = 0)

include hs

theorem gEval_gather (hop : e.op = 0) : (gEval c e s).2 = gLoop (putRow c e) (gN e.desc) 0 { st := s } := by
  unfold gEval
  rw [if_neg (by simpa using hs), hop]
  rfl

theorem gEval_segred (hop : e.op = 1) : (gEval c e s).2 = gLoop (putRow c e) (gN2 e.desc) 0 { st := s } := by
  unfold gEval
  rw [if_neg (by simpa using hs), hop]
  rfl

theorem gEval_scatadd (hop : e.op = 2) (hrem : scatRemote e = false) :
    (gEval c e s).2 = gLoop (scatRow c e) (gN e.desc) 0 { st := s } := by
  unfold gEval
  rw [if_neg (by simpa using hs), hop, hrem]
  rfl

theorem gEval_list (hop : e.op = 3 ∨ e.op = 4) : gEval c e s = listOp c e { st := s } := by
  unfold gEval
  rw [if_neg (by simpa using hs)]
  rcases hop with hop | hop <;> rw [hop] <;> rfl

theorem gEval_sort (hop : e.op = 5) : (gEval c e s).2 =
    sortPasses c e (gAux e.desc) 0 (sortRead c e (gN e.desc) 0 { st := s }).1 (sortRead c e (gN e.desc) 0 { st := s }).2 := by
  unfold gEval
  rw [if_neg (by simpa using hs), hop]
  rfl

theorem gEval_probe (hop : e.op = 6) : (gEval c e s).2 = gLoop (probeKey c e) (gN e.desc) 0 { st := s } := by
  unfold gEval
  rw [if_neg (by simpa using hs), hop]
  rfl

end Eval

/-! ### An operation that is through -/

/-- The evaluation with which an operation ends, and the state after it. -/
structure Ends (s : State) (c : Nat) (e : GlnEntry) (m : State) (u : Nat × GRun) (t : State) : Prop where
  marked : Still c s m
  kept : m.memOk = true
  run : u = gEval c e m
  calm : Calm u.2
  fine : u.2.fail = none
  start : gStartCause e.op e.desc = 0
  leaves : ∃ v status, Still c u.2.st v ∧ v.memOk = true ∧ t = v.glnLeave c e u.1 status

theorem through_ends {s : State} {c op : Nat} {e : GlnEntry} {d : List W64} {ups : List Upset} (h : Through s c op e d) (hn : Near e)
    (hue : (gEval c e (s.mark (gTsp e.desc) c ups)).2.ue = false) :
    ∃ m u t, exec (.gleanOpComplete c ups) s = .next t ∧ Ends s c e m u t := by
  obtain ⟨hm, hal, hnext, rfl, rfl, hrows, -⟩ := h
  have hstream : e.streams = false := by
    unfold GlnEntry.streams
    by_cases hop : e.op ≤ 1 <;> simp [hop, hrows]
  have hscat : e.scatters = false := by
    have ht := hn.table
    have hrem : scatRemote e = false := by simp [scatRemote, show gTsp e.desc ≠ 2 by omega]
    simp [GlnEntry.scatters, hrem]
  have hfail : (gEval c e s).2.fail = none := by
    have hdone := List.find?_some hnext
    unfold State.glnDone at hdone
    simp only [hstream, hscat] at hdone
    simp at hdone
    exact hdone.2.2
  have hstill := still_mark s hn.table c ups
  have hmk : (s.mark (gTsp e.desc) c ups).memOk = true := (kept_mark (Kept.refl s) (gTsp e.desc) c ups).mem hm
  have halike := alike_gEval e hm hmk hstill hn
  refine ⟨s.mark (gTsp e.desc) c ups, _, _, exec_gleanOpComplete_evaluated hal ups hnext hstream hscat rfl hue, hstill, hmk, rfl,
    halike.run.right, halike.run.fail.trans hfail, start_of_fine hfail, _, _, still_of_onlyLogs (onlyRegs_glnFlags _ c _).logs c,
    memOk_of_onlyLogs (onlyRegs_glnFlags _ c _).logs halike.run.right.kept, rfl⟩

section Ends

variable {s m t : State} {c : Nat} {e : GlnEntry} {u : Nat × GRun}

theorem Ends.memOk (h : Ends s c e m u t) : t.memOk = true := by
  obtain ⟨v, status, -, hv, rfl⟩ := h.leaves
  exact memOk_glnLeave hv u.1 status

theorem Ends.still (h : Ends s c e m u t) (hop : ¬(e.op = 3 ∨ e.op = 4)) : Still c u.2.st t := by
  obtain ⟨v, status, hv, -, rfl⟩ := h.leaves
  exact hv.trans (still_glnLeave hop u.1 status)

end Ends

end Sys2Proof.Proofs.Gleaner


/-! PROOF of GleanerResults, fifth part: GATHER (R48, R195, R197). -/

namespace Sys2Proof.Proofs.Gleaner

open Sys2Proof Sys2Proof.Machine Sys2Proof.Laws Sys2Proof.Proofs.Array Sys2Proof.Proofs.Dexica

/-! ### Packed rows (R48) -/

theorem packRow_length (f : Nat) (l : List Nat) : (packRow f l).length = rowBytes f l.length := leBytes_length ..

theorem leBytes_zero (n : Nat) : leBytes n 0 = List.replicate n 0 := by
  induction n with
  | zero => rfl
  | succ n ih => exact congrArg (0 :: ·) (by simpa using ih)

/-- A row of zeros is of zero bytes. -/
theorem packRow_zeros (f n : Nat) : packRow f (List.replicate n 0) = List.replicate (rowBytes f n) 0 := by
  have hpack : ∀ w, packLanes w (List.replicate n 0) = 0 := by
    intro w
    induction n with
    | zero => rfl
    | succ n ih => simp [List.replicate_succ, packLanes, ih]
  unfold packRow
  rw [hpack, leBytes_zero, List.length_replicate]

/-- Elements of 8 bits are the bytes of their row. -/
theorem packRow_bytes (b : List Byte) : packRow 4 (b.map (·.toNat)) = b := by
  have hpack : packLanes 8 (b.map (·.toNat)) = ofLe b := by
    induction b with
    | nil => rfl
    | cons x b ih => simp only [List.map_cons, packLanes, ofLe, ih, Nat.mod_eq_of_lt x.isLt]
  have hlen : rowBytes 4 b.length = b.length := by
    simp only [rowBytes, fmtBits, ceilDiv]
    omega
  unfold packRow
  rw [List.length_map, hlen, show fmtBits 4 = 8 from rfl, hpack, leBytes_ofLe]

/-! ### A row of a GATHER or SEGRED is written -/

section PutRow

variable {c k : Nat} {e : GlnEntry} {g : GRun}

/-- Bytes of row `k`, as its element codes have it. -/
def rowOut (c : Nat) (e : GlnEntry) (k : Nat) (g : GRun) : List Byte :=
  packRow (if e.op = 0 && gRaw e.desc then 4 else gOfmt e.desc) (outRow c e k g).1

theorem fine_putRow (hg : Calm (outRow c e k g).2) (hf : (putRow c e k g).fail = none) :
    (outRow c e k g).2.fail = none ∧ Calm (putRow c e k g) ∧
      Put c (cw e.desc 4 + k * gDst e.desc) (rowOut c e k g) (outRow c e k g).2.st (putRow c e k g).st := by
  have hput : putRow c e k g = if !(outRow c e k g).2.ok || !(outRow c e k g).2.need.isEmpty then (outRow c e k g).2
      else (outRow c e k g).2.put c e 0 (cw e.desc 4 + k * gDst e.desc) k (rowOut c e k g) := rfl
  rw [hput] at hf ⊢
  by_cases hrow : (outRow c e k g).2.fail = none
  · simp only [hg.ok_of hrow, hg.noNeed] at hf ⊢
    exact ⟨hrow, (fine_put e hg hf).2⟩
  · simp only [not_ok hrow] at hf
    exact absurd hf hrow

/-- Rounds that make rows of L-space alone write them. -/
theorem writer_putRow {s : State} {row : Nat → List Byte} {n : Nat} (hop : e.op ≤ 1) (hdst : gDstk e.desc = false)
    (hstart : gStartCause e.op e.desc = 0) (hlen : ∀ i, (row i).length = gOrow e.desc)
    (hcalm : ∀ i g, Calm g → Calm (outRow c e i g).2)
    (hrow : ∀ i g, Calm g → SameLoft s g.st → (outRow c e i g).2.fail = none → Fine c g.st (outRow c e i g).2 ∧ rowOut c e i g = row i) :
    Writer c (cw e.desc 4) (gDst e.desc) n row s (putRow c e) := by
  refine ⟨fun i g _ hg hs hf => ?_, fun i _ => ?_⟩
  · obtain ⟨hout, hcalm', hput⟩ := fine_putRow (hcalm i g hg) hf
    obtain ⟨hfine, hbytes⟩ := hrow i g hg hs hout
    rw [hbytes] at hput
    exact ⟨hcalm', hput.of_still hfine.still⟩
  · have hmis := (fails_start hstart).2
    have hne : e.op ≠ 2 := by omega
    simp [gMisplaced, hop, hne, hdst] at hmis
    rw [hlen]
    omega

end PutRow

theorem Calm.alike {g : GRun} (hg : Calm g) (c : Nat) : Alike c g g := ⟨hg, hg, .refl c _, rfl⟩

/-- An index out of range that fails nothing is only counted. -/
theorem fine_oor {c : Nat} {s : State} {g : GRun} (hg : Fine c s g) {d : List W64} {i : Nat} (hf : (g.oor c d i).fail = none) :
    Fine c s (g.oor c d i) := by
  unfold GRun.oor at *
  split
  · have hlogs := onlyLogs_incSat g.st GLN_CNT.OOR 1 c 0 0
    exact ⟨⟨memOk_of_onlyLogs hlogs hg.kept, hg.ue, hg.need⟩, hg.still.trans (still_of_onlyLogs hlogs c)⟩
  · next hoor =>
    rw [if_neg hoor] at hf
    exact absurd hf (failAt_fail g 3 i)

/-- An index in L-space. -/
theorem fine_index {c : Nat} {s : State} {g : GRun} (e : GlnEntry) (hg : Fine c s g) (hi : gIsp e.desc ≤ 1) {i : Nat}
    (hf : (g.index c e i).2.fail = none) :
    g.fail = none ∧ (g.index c e i).1 = listElem s c (gIsp e.desc) e.desc (cw e.desc 2) i ∧ Fine c s (g.index c e i).2 :=
  fine_list e hg hi hf

/-! ### GATHER (R197) -/

/-- Bytes of row `i` that a GATHER leaves, its table and its indices in L-space. -/
def gathered (s : State) (c : Nat) (d : List W64) (i : Nat) : List Byte :=
  if cw d 7 ≤ listElem s c 1 d (cw d 2) i then List.replicate (gOrow d) 0
  else if gEfmt d = gOfmt d then flatRange s c 1 (cw d 1 + listElem s c 1 d (cw d 2) i * gTst d) (gTrow d)
  else packRow (gOfmt d) ((unpackRow (gEfmt d) (gCols d) (flatRange s c 1 (cw d 1 + listElem s c 1 d (cw d 2) i * gTst d) (gTrow d))).map
    (fun y => (convert (gEfmt d) (gOfmt d) 0 (gOfmt d == 10) y).1))

theorem gathered_of_loft {s t : State} (h : SameLoft s t) (c : Nat) (d : List W64) (i : Nat) : gathered t c d i = gathered s c d i := by
  unfold gathered
  simp only [listElem_of_loft h, flatRange_of_loft h]

theorem gathered_length (s : State) (c : Nat) (d : List W64) (i : Nat) : (gathered s c d i).length = gOrow d := by
  unfold gathered
  split
  · exact List.length_replicate
  · split
    · next hfmt => rw [flatRange_length, gTrow, gOrow, hfmt]
    · rw [packRow_length, List.length_map, unpackRow, lanes, List.length_map, List.length_range, gOrow]

section Gather

variable {s : State} {c : Nat} {e : GlnEntry}

/-- What a GATHER makes of an index out of range, and of a row of its table. -/
theorem pack_gathered (hdst : gDstk e.desc = false) (zero : Bool) (b : List Byte) :
    packRow (if gRaw e.desc then 4 else gOfmt e.desc)
      (if zero then List.replicate (if gRaw e.desc then gTrow e.desc else gCols e.desc) 0
      else if gRaw e.desc then b.map (·.toNat)
      else (unpackRow (gEfmt e.desc) (gCols e.desc) b).map (gConv (gEfmt e.desc) (gOfmt e.desc))) =
    if zero then List.replicate (gOrow e.desc) 0
    else if gEfmt e.desc = gOfmt e.desc then b
    else packRow (gOfmt e.desc) ((unpackRow (gEfmt e.desc) (gCols e.desc) b).map (fun y =>
      (convert (gEfmt e.desc) (gOfmt e.desc) 0 (gOfmt e.desc == 10) y).1)) := by
  by_cases hfmt : gEfmt e.desc = gOfmt e.desc
  · have hraw : gRaw e.desc = true := by simp [gRaw, hfmt, hdst]
    have hrow : gTrow e.desc = gOrow e.desc := by rw [gTrow, gOrow, hfmt]
    have hzeros := packRow_bytes (List.replicate (gOrow e.desc) 0)
    rw [List.map_replicate] at hzeros
    cases zero
    · simpa [hraw, hfmt] using packRow_bytes b
    · simpa [hraw, hrow] using hzeros
  · have hraw : gRaw e.desc = false := by simp [gRaw, hfmt]
    have hconv : gConv (gEfmt e.desc) (gOfmt e.desc) = fun y => (convert (gEfmt e.desc) (gOfmt e.desc) 0 (gOfmt e.desc == 10) y).1 :=
      funext fun y => if_neg hfmt
    cases zero
    · simp [hraw, hfmt, hconv]
    · simpa [hraw, gOrow] using packRow_zeros (gOfmt e.desc) (gCols e.desc)

/-- A row of a GATHER. -/
theorem fine_gatherRow {g : GRun} {i : Nat} (ht : gTsp e.desc = 1) (hi : gIsp e.desc = 1) (hdst : gDstk e.desc = false) (hg : Fine c s g)
    (hf : (gatherRow c e i g).2.fail = none) : Fine c s (gatherRow c e i g).2 ∧
      packRow (if gRaw e.desc then 4 else gOfmt e.desc) (gatherRow c e i g).1 = gathered s c e.desc i := by
  have hx := fun hf => fine_index e hg (i := i) (by omega) hf
  have hcalm := (alike_index e (hg.toCalm.alike c) (by omega) i).run.left
  unfold gatherRow at *
  dsimp only at *
  generalize g.index c e i = x at *
  by_cases hxf : x.2.fail = none
  · obtain ⟨-, hval, hfine⟩ := hx hxf
    have htab := fun a n (hf : (x.2.table c e a n i).2.fail = none) => fine_table e hfine (by omega) hf
    rw [hi] at hval
    simp only [hcalm.ok_of hxf, hval, Bool.not_true, Bool.false_eq_true, if_false] at hf ⊢
    unfold gathered
    by_cases hout : cw e.desc 7 ≤ listElem s c 1 e.desc (cw e.desc 2) i
    · rw [if_pos hout] at hf ⊢
      exact ⟨fine_oor hfine hf, by simpa [hout] using pack_gathered hdst true []⟩
    · rw [if_neg hout] at hf ⊢
      obtain ⟨-, hrow, hrest⟩ := htab _ _ hf
      refine ⟨hrest, ?_⟩
      rw [ht] at hrow
      rw [hrow, if_neg hout]
      simpa using pack_gathered hdst false _
  · simp only [not_ok hxf] at hf
    exact absurd hf hxf

/-- A GATHER's rounds. -/
theorem writer_gather (hop : e.op = 0) (ht : gTsp e.desc = 1) (hi : gIsp e.desc = 1) (hdst : gDstk e.desc = false)
    (hstart : gStartCause e.op e.desc = 0) :
    Writer c (cw e.desc 4) (gDst e.desc) (gN e.desc) (gathered s c e.desc) s (putRow c e) := by
  have hout : ∀ i g, outRow c e i g = gatherRow c e i g := fun i g => if_pos hop
  refine writer_putRow (by omega) hdst hstart (gathered_length s c e.desc) (fun i g hg => ?_) fun i g hg hs hf => ?_
  · rw [hout]
    exact (alike_gatherRow e (by omega) (by omega) i (hg.alike c)).run.left
  · rw [hout] at hf ⊢
    obtain ⟨hfine, hbytes⟩ := fine_gatherRow ht hi hdst (hg.fine c) hf
    refine ⟨hfine, ?_⟩
    unfold rowOut
    rw [hout, ← gathered_of_loft hs, ← hbytes]
    simp [hop]

end Gather

end Sys2Proof.Proofs.Gleaner


/-! PROOF of GleanerResults, sixth part: SEGRED of INT32 by SUM (R198 to R200). -/

namespace Sys2Proof.Proofs.Gleaner

open Sys2Proof Sys2Proof.Machine Sys2Proof.Laws Sys2Proof.Proofs.Array Sys2Proof.Proofs.Dexica

/-! ### Words of 32 bits as bytes (R44) -/

theorem leBytes_mod (n x : Nat) : leBytes n (x % 2 ^ (8 * n)) = leBytes n x := by
  have h := leBytes_ofLe (leBytes n x)
  rwa [leBytes_length, ofLe_leBytes] at h

theorem ofLe_drop (d : List Byte) (k : Nat) : ofLe (d.drop k) = ofLe d >>> (8 * k) := by
  induction k generalizing d with
  | zero => rfl
  | succ k ih =>
    cases d with
    | nil => simp [ofLe]
    | cons b d =>
      have hb := b.isLt
      rw [List.drop_succ_cons, ih, ofLe, Nat.mul_succ, Nat.add_comm (8 * k), Nat.shiftRight_add, Nat.shiftLeft_eq,
        show (b.toNat + ofLe d * 2 ^ 8) >>> 8 = ofLe d by rw [Nat.shiftRight_eq_div_pow]; omega]

theorem ofLe_take (d : List Byte) (n : Nat) : ofLe (d.take n) = ofLe d % 2 ^ (8 * n) := by
  induction n generalizing d with
  | zero => simp [ofLe, Nat.mod_one]
  | succ n ih =>
    cases d with
    | nil => simp [ofLe]
    | cons b d =>
      have hb : b.toNat % 2 ^ 8 = b.toNat := Nat.mod_eq_of_lt b.isLt
      have hpow : (2 : Nat) ^ (8 * (n + 1)) = 2 ^ 8 * 2 ^ (8 * n) := by rw [← Nat.pow_add]; congr 1; omega
      rw [List.take_succ_cons, ofLe, ih, ofLe, hpow, Nat.mod_mul, Nat.shiftLeft_eq, Nat.shiftLeft_eq,
        Nat.add_mul_mod_self_right, hb, show (b.toNat + ofLe d * 2 ^ 8) / 2 ^ 8 = ofLe d by omega, Nat.mul_comm (2 ^ 8)]

/-- A 32-bit lane of a number that bytes spell is the word of four of them. -/
theorem lane32_ofLe (d : List Byte) (j : Nat) : lane 32 (ofLe d) j = ofLe ((d.drop (4 * j)).take 4) := by
  rw [ofLe_take, ofLe_drop, lane, ← Nat.mul_assoc]

/-- A row of 32-bit words is the bytes of each in turn. -/
theorem packRow_words (l : List Nat) : packRow 6 l = (l.map (leBytes 4)).flatten := by
  have hlen : ∀ n, rowBytes 6 n = 4 * n := fun n => by
    simp only [rowBytes, fmtBits, ceilDiv]
    omega
  have hbits : fmtBits 6 = 32 := rfl
  unfold packRow
  rw [hlen, hbits]
  induction l with
  | nil => rfl
  | cons v l ih =>
    have hlow : (v % 2 ^ 32 + packLanes 32 l <<< 32) % 2 ^ (8 * 4) = v % 2 ^ (8 * 4) := by
      rw [Nat.shiftLeft_eq]
      omega
    have hhigh : (v % 2 ^ 32 + packLanes 32 l <<< 32) >>> (8 * 4) = packLanes 32 l := by
      rw [Nat.shiftLeft_eq, Nat.shiftRight_eq_div_pow]
      omega
    rw [List.length_cons, Nat.mul_succ, Nat.add_comm (4 * l.length), packLanes, leBytes_append, hhigh, ih, ← leBytes_mod 4, hlow, leBytes_mod]
    rfl

/-- Word `j` of such a row. -/
theorem word_packRow {l : List Nat} {j : Nat} (hj : j < l.length) : ((packRow 6 l).drop (4 * j)).take 4 = leBytes 4 l[j] := by
  have h := take_drop_flatten (l.map (leBytes 4)) 4 [] (by simp) j (by simpa using hj)
  rw [List.append_nil, List.getElem_map] at h
  rw [packRow_words, Nat.mul_comm, h]

/-! ### What a segment gathers (R199) -/

/-- What position `i` of the index list adds to column `j` of its segment. -/
def segAdds (s : State) (c : Nat) (d : List W64) (i j : Nat) : Int :=
  if cw d 7 ≤ listElem s c 1 d (cw d 2) i then 0
  else sext 32 (ofLe (flatRange s c 1 (cw d 1 + listElem s c 1 d (cw d 2) i * gTst d + 4 * j) 4))

/-- A segment has gathered the sums `z`, column by column. -/
structure Gathers (n : Nat) (z : Nat → Int) (a : SegAcc) : Prop where
  empty : a.n = 0 → ∀ j, j < n → z j = 0
  full : a.n ≠ 0 → a.ints = (List.range n).map z

theorem Gathers.of_eq {n : Nat} {z w : Nat → Int} {a : SegAcc} (h : Gathers n z a) (hw : ∀ j, j < n → w j = z j) : Gathers n w a :=
  ⟨fun ha j hj => (hw j hj).trans (h.empty ha j hj), fun ha => (h.full ha).trans
    (List.map_congr_left fun j hj => (hw j (List.mem_range.1 hj)).symm)⟩

/-- A row of INT32 joins a segment that is summed. -/
theorem gathers_segJoin {d : List W64} {z : Nat → Int} {a : SegAcc} (he : gEfmt d = 6) (hop : gRedop d = 0) (h : Gathers (gCols d) z a)
    (b : List Byte) : Gathers (gCols d) (fun j => z j + sext 32 (ofLe ((b.drop (4 * j)).take 4)))
      (segJoin d a (unpackRow (gEfmt d) (gCols d) b)) := by
  have hrow : (unpackRow 6 (gCols d) b).map (intVal 6) = (List.range (gCols d)).map (fun j => sext 32 (ofLe ((b.drop (4 * j)).take 4))) := by
    unfold unpackRow lanes
    rw [List.map_map]
    refine List.map_congr_left fun j _ => ?_
    rw [Function.comp_apply, show fmtBits 6 = 32 from rfl, lane32_ofLe]
    rfl
  unfold segJoin
  rw [he, hop]
  simp only [show fmtInt 6 = true from rfl, if_true, hrow]
  refine ⟨fun ha => absurd ha (by simp), fun _ => ?_⟩
  by_cases hn : a.n = 0
  · rw [if_pos hn]
    exact List.map_congr_left fun j hj => by rw [h.empty hn j (List.mem_range.1 hj), zero_add]
  · simp only [hn, if_false, h.full hn]
    rw [List.zip_map', List.map_map]
    rfl

/-- A segment's sums, saturated, are its output row. -/
theorem segOut_gathers {d : List W64} {z : Nat → Int} {a : SegAcc} (he : gEfmt d = 6) (ho : gOfmt d = 6) (hop : gRedop d = 0)
    (h : Gathers (gCols d) z a) : (segOut d a).1 = (List.range (gCols d)).map (fun j => wrapN 32 (clampI (iMin 32) (iMax 32) (z j))) := by
  unfold segOut
  by_cases hn : a.n = 0
  · have hz : ∀ j ∈ List.range (gCols d), wrapN 32 (clampI (iMin 32) (iMax 32) (z j)) = 0 := fun j hj => by
      rw [h.empty hn j (List.mem_range.1 hj)]
      decide
    rw [List.map_congr_left hz]
    simp [hn]
  · simp only [hn, hop, he, ho, h.full hn, if_false]
    simp only [show fmtInt 6 = true from rfl, if_true, List.map_map]
    rfl

section Segred

variable {s : State} {c : Nat} {e : GlnEntry} {g : GRun}

/-- What SEGRED of INT32 by SUM asks of its descriptor, its lists in L-space. -/
structure SumsInt (d : List W64) : Prop where
  table : gTsp d = 1
  index : gIsp d = 1
  offsets : gOsp d = 1
  indexed : gDirect d = false
  sum : gRedop d = 0
  elems : gEfmt d = 6
  out : gOfmt d = 6

theorem fine_segPos (hm : s.memOk = true) (hd : SumsInt e.desc) (hg : Fine c s g) {i : Nat} {z : Nat → Int} {acc : SegAcc}
    (hacc : Gathers (gCols e.desc) z acc) (hf : (segPos c e i acc g).2.fail = none) :
    Fine c s (segPos c e i acc g).2 ∧ Gathers (gCols e.desc) (fun j => z j + segAdds s c e.desc i j) (segPos c e i acc g).1 := by
  obtain ⟨htab, hidx, -, hdir, hop, hel, -⟩ := hd
  have hx := fun hf => fine_index e hg (i := i) (by omega) hf
  unfold segPos at *
  simp only [hdir, Bool.false_eq_true, if_false] at *
  generalize g.index c e i = x at *
  by_cases hxf : x.2.fail = none
  · obtain ⟨-, hval, hfine⟩ := hx hxf
    have ht := fun a n (hf : (x.2.table c e a n i).2.fail = none) => fine_table e hfine (by omega) hf
    rw [hidx] at hval
    simp only [hfine.ok_of hxf, hval, hop, Bool.not_true, Bool.false_eq_true, if_false] at hf ⊢
    unfold segAdds
    by_cases hout : cw e.desc 7 ≤ listElem s c 1 e.desc (cw e.desc 2) i
    · rw [if_pos hout] at hf ⊢
      exact ⟨fine_oor hfine hf, hacc.of_eq fun j _ => by rw [if_pos hout, add_zero]⟩
    · simp only [hout, if_false, show ¬(0 = 4) by decide] at hf ⊢
      obtain ⟨-, hrow, hrest⟩ := ht _ _ hf
      rw [htab] at hrow
      refine ⟨hrest, (gathers_segJoin hel hop hacc _).of_eq fun j hj => ?_⟩
      have hfit : 4 * j + 4 ≤ gTrow e.desc := by
        simp only [gTrow, rowBytes, hel, fmtBits, ceilDiv]
        omega
      rw [hrow, take_drop_flatRange hm hfit]
  · simp only [not_ok hxf] at hf
    exact absurd hf hxf

theorem fail_segLoop {n i : Nat} {acc : SegAcc} (hf : (segLoop c e n i acc g).2.fail = none) : g.fail = none := by
  cases n with
  | zero => exact hf
  | succ n =>
    by_contra hg
    unfold segLoop at hf
    rw [not_ok hg] at hf
    exact hg hf

theorem fine_segLoop (hm : s.memOk = true) (hd : SumsInt e.desc) {n i : Nat} {z : Nat → Int} {acc : SegAcc} (hg : Fine c s g)
    (hacc : Gathers (gCols e.desc) z acc) (hf : (segLoop c e n i acc g).2.fail = none) :
    Fine c s (segLoop c e n i acc g).2 ∧
      Gathers (gCols e.desc) (fun j => z j + ((List.range n).map (fun k => segAdds s c e.desc (i + k) j)).sum) (segLoop c e n i acc g).1 := by
  induction n generalizing g i z acc with
  | zero => exact ⟨hg, hacc.of_eq fun j _ => by simp⟩
  | succ n ih =>
    have hok := hg.ok_of (fail_segLoop hf)
    unfold segLoop at hf ⊢
    rw [hok] at hf ⊢
    obtain ⟨hpos, hacc'⟩ := fine_segPos hm hd hg hacc (fail_segLoop hf)
    obtain ⟨hrest, hsum⟩ := ih hpos hacc' hf
    refine ⟨hrest, hsum.of_eq fun j _ => ?_⟩
    have hnext : (fun k => segAdds s c e.desc (i + k) j) ∘ Nat.succ = fun k => segAdds s c e.desc (i + 1 + k) j :=
      funext fun k => congrArg (segAdds s c e.desc · j) (by omega)
    rw [List.range_succ_eq_map, List.map_cons, List.sum_cons, List.map_map, hnext, Nat.add_zero, add_assoc]

/-- The saturated sum of segment `k`, column by column. -/
def segSum (s : State) (c : Nat) (d : List W64) (k j : Nat) : Nat :=
  wrapN 32 (clampI (iMin 32) (iMax 32) (((List.range (listElem s c 1 d (cw d 3) (k + 1) - listElem s c 1 d (cw d 3) k)).map (fun i =>
    segAdds s c d (listElem s c 1 d (cw d 3) k + i) j)).sum))

theorem segSum_of_loft {t : State} (h : SameLoft s t) (d : List W64) : segSum t c d = segSum s c d := by
  funext k j
  unfold segSum segAdds
  simp only [listElem_of_loft h, flatRange_of_loft h]

theorem fine_segRow (hm : s.memOk = true) (hd : SumsInt e.desc) (hg : Fine c s g) {k : Nat} (hf : (segRow c e k g).2.fail = none) :
    Fine c s (segRow c e k g).2 ∧ (segRow c e k g).1 = (List.range (gCols e.desc)).map (segSum s c e.desc k) := by
  have hosp : gOsp e.desc ≤ 1 := by rw [hd.offsets]
  obtain ⟨x, hx⟩ : ∃ x, g.list c e (gOsp e.desc) (cw e.desc 3 + k * gW e.desc) (gW e.desc) k = x := ⟨_, rfl⟩
  obtain ⟨y, hy⟩ : ∃ y, x.2.list c e (gOsp e.desc) (cw e.desc 3 + (k + 1) * gW e.desc) (gW e.desc) k = y := ⟨_, rfl⟩
  obtain ⟨z, hz⟩ : ∃ z, segLoop c e (y.1 - x.1) x.1 ⟨0, [], []⟩ y.2 = z := ⟨_, rfl⟩
  have hfx : Fine c s x.2 := hx ▸ fine_after_list e hg hosp ..
  have hfy : Fine c s y.2 := hy ▸ fine_after_list e hfx hosp ..
  simp only [segRow, hx, hy, hz] at hf ⊢
  by_cases hyf : y.2.fail = none
  · obtain ⟨hxf, hhi, -⟩ := fine_list e hfx hosp (hy ▸ hyf)
    obtain ⟨-, hlo, -⟩ := fine_list e hg hosp (hx ▸ hxf)
    rw [hx, hd.offsets] at hlo
    rw [hy, hd.offsets] at hhi
    simp only [hfy.ok_of hyf, Bool.not_true, Bool.false_eq_true, if_false] at hf ⊢
    split at hf
    · exact absurd hf (failAt_fail y.2 4 k)
    · next hrange =>
      rw [if_neg hrange]
      by_cases hzf : z.2.fail = none
      · obtain ⟨hfz, hsum⟩ := fine_segLoop hm hd hfy (z := fun _ => 0) (acc := ⟨0, [], []⟩)
          ⟨fun _ _ _ => rfl, fun h => absurd rfl h⟩ (hz ▸ hzf)
        rw [hz] at hfz hsum
        simp only [hfz.ok_of hzf, Bool.not_true, Bool.false_eq_true, if_false] at hf ⊢
        refine ⟨⟨(alike_segDone (hfz.toCalm.alike c) (z.1.n = 0) _).left, ?_⟩, ?_⟩
        · dsimp only
          split
          · exact hfz.still.trans (still_of_onlyLogs (onlyLogs_incSat z.2.st GLN_CNT.EMPTY 1 c 0 0) c)
          · exact hfz.still
        · rw [segOut_gathers hd.elems hd.out hd.sum hsum, hlo, hhi]
          simp only [zero_add]
          rfl
      · simp only [not_ok hzf] at hf
        exact absurd hf hzf
  · simp only [not_ok hyf] at hf
    exact absurd hf hyf

/-- Bytes of row `k` that SEGRED of INT32 by SUM leaves. -/
def reduced (s : State) (c : Nat) (d : List W64) (k : Nat) : List Byte := packRow 6 ((List.range (gCols d)).map (segSum s c d k))

theorem reduced_length (s : State) (c : Nat) {d : List W64} (ho : gOfmt d = 6) (k : Nat) : (reduced s c d k).length = gOrow d := by
  rw [reduced, packRow_length, List.length_map, List.length_range, gOrow, ho]

/-- A SEGRED's rounds. -/
theorem writer_segred (hop : e.op = 1) (hd : SumsInt e.desc) (hdst : gDstk e.desc = false) (hstart : gStartCause e.op e.desc = 0) :
    Writer c (cw e.desc 4) (gDst e.desc) (gN2 e.desc) (reduced s c e.desc) s (putRow c e) := by
  have hout : ∀ i g, outRow c e i g = segRow c e i g := fun i g => if_neg (by omega)
  refine writer_putRow (by omega) hdst hstart (reduced_length s c hd.out) (fun i g hg => ?_) fun i g hg hs hf => ?_
  · rw [hout]
    exact (alike_segRow e hd.table.le hd.index.le hd.offsets.le i (hg.alike c)).run.left
  · rw [hout] at hf ⊢
    obtain ⟨hfine, hsum⟩ := fine_segRow hg.kept hd (hg.fine c) hf
    refine ⟨hfine, ?_⟩
    unfold rowOut reduced
    rw [hout, hsum, segSum_of_loft hs, hd.out]
    simp [hop]

end Segred

end Sys2Proof.Proofs.Gleaner


/-! PROOF of GleanerResults, seventh part: PROBE (R206, R207). -/

namespace Sys2Proof.Proofs.Gleaner

open Sys2Proof Sys2Proof.Machine Sys2Proof.Laws Sys2Proof.Proofs.Array Sys2Proof.Proofs.Dexica

/-- Slot `j` behind the home slot of key `k`. -/
def probeSlot (s : State) (c : Nat) (d : List W64) (k j : Nat) : List Byte :=
  flatRange s c 1 (cw d 1 + (homeSlot k (cw d 7) + j) % cw d 7 * gPair d) (gPair d)

/-- The key in it. -/
def probeKeyAt (s : State) (c : Nat) (d : List W64) (k j : Nat) : Nat := ofLe ((probeSlot s c d k j).take (gW d))

/-- Does a probe for key `k` end at slot `j`? -/
def probeEnds (s : State) (c : Nat) (d : List W64) (k j : Nat) : Bool :=
  probeKeyAt s c d k j == k || probeKeyAt s c d k j == 2 ^ (8 * gW d) - 1

/-- What a probe delivers that ends at a slot, or at none. -/
def probeFinds (s : State) (c : Nat) (d : List W64) (k : Nat) : Option Nat → Nat
  | some j => if probeKeyAt s c d k j = k then ofLe (((probeSlot s c d k j).drop (gW d)).take 4) else 0xFFFFFFFF
  | none => 0xFFFFFFFF

theorem probeValue_eq (s : State) (c : Nat) (d : List W64) (k : Nat) : probeValue s c d k =
    if k = 2 ^ (8 * gW d) - 1 then 0xFFFFFFFF
    else probeFinds s c d k ((List.range' 0 (if gAux d = 0 then 256 else gAux d)).find? (probeEnds s c d k)) := by
  have hslot : ∀ j, flatRange s c 1 (cw d 1 + ((k * 0x9E3779B97F4A7C15 % 2 ^ 64) / 2 ^ (64 - Nat.log2 (cw d 7)) + j) % cw d 7 * (2 * gW d))
      (2 * gW d) = probeSlot s c d k j := fun j => by
    unfold probeSlot homeSlot
    rw [Nat.shiftRight_eq_div_pow, gPair]
  unfold probeValue
  simp only [hslot, ← List.range_eq_range']
  rfl

theorem probeValue_of_loft {s t : State} (h : SameLoft s t) (c : Nat) (d : List W64) (k : Nat) : probeValue t c d k = probeValue s c d k := by
  unfold probeValue
  simp only [flatRange_of_loft h]

/-- A table of a power of two slots holds each key's home slot. -/
theorem homeSlot_lt {d : List W64} (h : gForbidden 6 d = false) (k : Nat) : homeSlot k (cw d 7) < cw d 7 := by
  simp [gForbidden] at h
  obtain ⟨⟨hlow, hhigh⟩, hpow⟩ := h
  have hlog : Nat.log2 (cw d 7) ≤ 64 := by
    by_contra hlog
    have hbig : 2 ^ 64 ≤ 2 ^ Nat.log2 (cw d 7) := Nat.pow_le_pow_right (by norm_num) (by omega)
    omega
  unfold homeSlot
  rw [Nat.shiftRight_eq_div_pow, Nat.div_lt_iff_lt_mul (Nat.two_pow_pos _)]
  have hall : cw d 7 * 2 ^ (64 - Nat.log2 (cw d 7)) = 2 ^ 64 := by
    conv_lhs => rw [hpow, Nat.log2_two_pow]
    rw [← Nat.pow_add]
    congr 1
    omega
  rw [hall]
  exact Nat.mod_lt _ (by norm_num)

section Probe

variable {s : State} {c : Nat} {e : GlnEntry} {g : GRun}

theorem fine_probeLoop (ht : gTsp e.desc = 1) {k posn n j : Nat} (hg : Fine c s g)
    (hf : (probeLoop c e k posn n ((homeSlot k (cw e.desc 7) + j) % cw e.desc 7) g).2.fail = none) :
    Fine c s (probeLoop c e k posn n ((homeSlot k (cw e.desc 7) + j) % cw e.desc 7) g).2 ∧
      (probeLoop c e k posn n ((homeSlot k (cw e.desc 7) + j) % cw e.desc 7) g).1 =
        probeFinds s c e.desc k ((List.range' j n).find? (probeEnds s c e.desc k)) := by
  induction n generalizing g j with
  | zero =>
    have hlogs := onlyLogs_incSat g.st GLN_CNT.LONG 1 c 0 0
    exact ⟨⟨⟨memOk_of_onlyLogs hlogs hg.kept, hg.ue, hg.need⟩, hg.still.trans (still_of_onlyLogs hlogs c)⟩, rfl⟩
  | succ n ih =>
    obtain ⟨x, hx⟩ : ∃ x, g.table c e (cw e.desc 1 + (homeSlot k (cw e.desc 7) + j) % cw e.desc 7 * gPair e.desc) (gPair e.desc) posn = x :=
      ⟨_, rfl⟩
    unfold probeLoop at hf ⊢
    simp only [hx, Nat.mod_add_mod] at hf ⊢
    by_cases hxf : x.2.fail = none
    · obtain ⟨-, hval, hfine⟩ := fine_table e hg (by omega) (hx ▸ hxf)
      rw [hx] at hfine
      rw [hx, ht, show flatRange s c 1 _ _ = probeSlot s c e.desc k j from rfl] at hval
      have hkey : (pairOf (gW e.desc) x.1).1 = probeKeyAt s c e.desc k j := by rw [hval]; rfl
      simp only [hfine.ok_of hxf, hfine.noNeed, hkey, Bool.not_true, Bool.or_self, Bool.false_eq_true, if_false] at hf ⊢
      rw [List.range'_succ, List.find?_cons]
      unfold probeEnds
      by_cases hk : probeKeyAt s c e.desc k j = k
      · simp only [hk, if_true, beq_self_eq_true, Bool.true_or, probeFinds]
        exact ⟨hfine, by rw [hval]; rfl⟩
      · by_cases hmax : probeKeyAt s c e.desc k j = 2 ^ (8 * gW e.desc) - 1
        · rw [if_neg hk, if_pos hmax]
          rw [beq_false_of_ne hk, hmax, beq_self_eq_true, Bool.or_true]
          exact ⟨hfine, (if_neg hk).symm⟩
        · rw [if_neg hk, if_neg hmax] at hf ⊢
          rw [beq_false_of_ne hk, beq_false_of_ne hmax]
          exact ih (j := j + 1) hfine hf
    · simp only [not_ok hxf] at hf
      exact absurd hf hxf

theorem fine_probeKey (ht : gTsp e.desc = 1) (hi : gIsp e.desc = 1) (hhome : ∀ k, homeSlot k (cw e.desc 7) < cw e.desc 7) {i : Nat}
    (hg : Fine c s g) (hf : (probeKey c e i g).fail = none) : Calm (probeKey c e i g) ∧
      Put c (cw e.desc 4 + i * 4) (leBytes 4 (probeValue s c e.desc (listElem s c 1 e.desc (cw e.desc 2) i))) s (probeKey c e i g).st := by
  obtain ⟨x, hx⟩ : ∃ x, g.index c e i = x := ⟨_, rfl⟩
  obtain ⟨y, hy⟩ : ∃ y, (if x.1 = 2 ^ (8 * gW e.desc) - 1 then (0xFFFFFFFF, x.2)
    else probeLoop c e x.1 i (if gAux e.desc = 0 then 256 else gAux e.desc) (homeSlot x.1 (cw e.desc 7)) x.2) = y := ⟨_, rfl⟩
  unfold probeKey at hf ⊢
  simp only [hg.noNeed, hx, hy] at hf ⊢
  by_cases hxf : x.2.fail = none
  · obtain ⟨-, hval, hfx⟩ := fine_index e hg (by omega) (hx ▸ hxf)
    rw [hx] at hfx
    rw [hx, hi] at hval
    simp only [hfx.ok_of hxf, Bool.not_true, Bool.false_eq_true, if_false] at hf ⊢
    by_cases hyf : y.2.fail = none
    · have hfound : Fine c s y.2 ∧ y.1 = probeValue s c e.desc x.1 := by
        rw [probeValue_eq]
        by_cases hmax : x.1 = 2 ^ (8 * gW e.desc) - 1
        · rw [if_pos hmax] at hy ⊢
          subst hy
          exact ⟨hfx, rfl⟩
        · rw [if_neg hmax] at hy ⊢
          have hstart : homeSlot x.1 (cw e.desc 7) = (homeSlot x.1 (cw e.desc 7) + 0) % cw e.desc 7 := (Nat.mod_eq_of_lt (hhome x.1)).symm
          rw [hstart] at hy
          have hloop := fine_probeLoop ht hfx (hy ▸ hyf)
          rwa [hy] at hloop
      obtain ⟨hfy, hprobe⟩ := hfound
      simp only [hfy.ok_of hyf, hfy.noNeed, Bool.not_true, Bool.or_self, Bool.false_eq_true, if_false] at hf ⊢
      rw [hprobe, hval, Nat.mul_comm 4 i] at hf ⊢
      obtain ⟨-, hcalm, hput⟩ := fine_put e hfy.toCalm hf
      exact ⟨hcalm, hput.of_still hfy.still⟩
    · simp only [not_ok hyf] at hf
      exact absurd hf hyf
  · simp only [not_ok hxf] at hf
    exact absurd hf hxf

/-- Bytes of value `i` that a PROBE leaves. -/
def probed (s : State) (c : Nat) (d : List W64) (i : Nat) : List Byte := leBytes 4 (probeValue s c d (listElem s c 1 d (cw d 2) i))

/-- A PROBE's rounds. -/
theorem writer_probe (hop : e.op = 6) (ht : gTsp e.desc = 1) (hi : gIsp e.desc = 1) (hstart : gStartCause e.op e.desc = 0) :
    Writer c (cw e.desc 4) 4 (gN e.desc) (probed s c e.desc) s (probeKey c e) := by
  rw [hop] at hstart
  refine ⟨fun i g _ hg hs hf => ?_, fun i _ => (leBytes_length 4 _).le⟩
  have hput := fine_probeKey ht hi (homeSlot_lt (fails_start hstart).1) (hg.fine c) hf
  rwa [probeValue_of_loft hs, listElem_of_loft hs] at hput

end Probe

end Sys2Proof.Proofs.Gleaner


/-! PROOF of GleanerResults, eighth part: SORT (R205). A pass on a digit keeps the order of the digits below it, so that the passes in turn
sort by all of them. -/

namespace Sys2Proof.Proofs.Gleaner

open Sys2Proof Sys2Proof.Machine Sys2Proof.Laws Sys2Proof.Proofs.Array Sys2Proof.Proofs.Dexica

/-! ### Radix passes -/

/-- `Q` is `P` in the order of the keys' low `k` digits, equal ones in their old order. -/
structure RadixSorted (k : Nat) (P Q : List (Nat × Nat)) : Prop where
  order : Q.Pairwise (fun x y => x.1 % 2 ^ (8 * k) ≤ y.1 % 2 ^ (8 * k))
  stable : ∀ v, Q.filter (fun x => x.1 % 2 ^ (8 * k) == v) = P.filter (fun x => x.1 % 2 ^ (8 * k) == v)

theorem radixSorted_zero (P : List (Nat × Nat)) : RadixSorted 0 P P :=
  ⟨List.pairwise_of_forall fun x y => by simp [Nat.mod_one], fun _ => rfl⟩

theorem RadixSorted.perm {k : Nat} {P Q : List (Nat × Nat)} (h : RadixSorted k P Q) : Q.Perm P := by
  refine List.perm_iff_count.2 fun x => ?_
  have hself := fun l => List.count_filter (p := fun y : Nat × Nat => y.1 % 2 ^ (8 * k) == x.1 % 2 ^ (8 * k)) (a := x) (l := l)
    (beq_self_eq_true _)
  rw [← hself Q, ← hself P, h.stable]

/-- One more digit. -/
theorem mod_digits (x k : Nat) : x % 2 ^ (8 * (k + 1)) = x % 2 ^ (8 * k) + 2 ^ (8 * k) * lane 8 x k := by
  rw [Nat.mul_succ, Nat.pow_add, Nat.mod_mul, lane, Nat.shiftRight_eq_div_pow]

/-- The keys of a bucket stand in it alone. -/
theorem flatten_bucket {α : Type} (l : List α) (b n : Nat) :
    ((List.range n).map (fun i => if i = b then l else [])).flatten = if b < n then l else [] := by
  induction n with
  | zero => simp
  | succ n ih =>
    rw [List.range_succ, List.map_append, List.flatten_append, ih]
    rcases Nat.lt_trichotomy b n with h | rfl | h
    · simp [h, show ¬n = b by omega, show b < n + 1 by omega]
    · simp
    · simp [show ¬n = b by omega, show ¬b < n by omega, show ¬b < n + 1 by omega]

/-- A pass changes nothing among keys of one digit. -/
theorem radixPass_bucket {k b : Nat} {l : List (Nat × Nat)} (hb : b < 256) (h : ∀ x ∈ l, lane 8 x.1 k = b) : radixPass k l = l := by
  have hbuckets : ∀ i, l.filter (fun p => lane 8 p.1 k == i) = if i = b then l else [] := by
    intro i
    split
    · next hi => exact List.filter_eq_self.2 fun x hx => by simp [h x hx, hi]
    · next hi => exact List.filter_eq_nil_iff.2 fun x hx => by simp [h x hx, Ne.symm hi]
  unfold radixPass
  rw [List.map_congr_left fun i _ => hbuckets i, flatten_bucket, if_pos hb]

theorem filter_radixPass (k : Nat) (p : Nat × Nat → Bool) (l : List (Nat × Nat)) : (radixPass k l).filter p = radixPass k (l.filter p) := by
  unfold radixPass
  rw [List.filter_flatten, List.map_map]
  refine congrArg List.flatten (List.map_congr_left fun b _ => ?_)
  rw [Function.comp_apply, List.filter_filter, List.filter_filter]
  exact List.filter_congr fun x _ => Bool.and_comm ..

/-- A pass on the next digit sorts by it too. -/
theorem RadixSorted.pass {k : Nat} {P Q : List (Nat × Nat)} (h : RadixSorted k P Q) : RadixSorted (k + 1) P (radixPass k Q) := by
  refine ⟨?_, fun v => ?_⟩
  · have hlow := fun x => Nat.mod_lt x (Nat.two_pow_pos (8 * k))
    unfold radixPass
    refine List.pairwise_flatten.2 ⟨fun l hl => ?_, List.pairwise_map.2 (List.pairwise_lt_range.imp fun {b b'} hb x hx y hy => ?_)⟩
    · obtain ⟨b, -, rfl⟩ := List.mem_map.1 hl
      refine (List.Pairwise.filter _ h.order).imp_of_mem fun {x y} hx hy hxy => ?_
      have hxb : lane 8 x.1 k = b := by simpa using (List.mem_filter.1 hx).2
      have hyb : lane 8 y.1 k = b := by simpa using (List.mem_filter.1 hy).2
      rw [mod_digits, mod_digits, hxb, hyb]
      omega
    · have hxb : lane 8 x.1 k = b := by simpa using (List.mem_filter.1 hx).2
      have hyb : lane 8 y.1 k = b' := by simpa using (List.mem_filter.1 hy).2
      have hstep : 2 ^ (8 * k) * b + 2 ^ (8 * k) ≤ 2 ^ (8 * k) * b' := by
        rw [← Nat.mul_succ]
        exact Nat.mul_le_mul_left _ hb
      have hx0 := hlow x.1
      rw [mod_digits, mod_digits, hxb, hyb]
      omega
  · have hdigit : ∀ x : Nat × Nat, (x.1 % 2 ^ (8 * (k + 1)) == v) = true →
        x.1 % 2 ^ (8 * k) = v % 2 ^ (8 * k) ∧ lane 8 x.1 k = v / 2 ^ (8 * k) % 256 := by
      intro x hx
      have hv : x.1 % 2 ^ (8 * (k + 1)) = v := by simpa using hx
      have hlane : lane 8 x.1 k < 256 := Nat.mod_lt _ (by norm_num)
      rw [mod_digits] at hv
      rw [← hv, Nat.add_mul_mod_self_left, Nat.mod_mod, Nat.add_mul_div_left _ _ (Nat.two_pow_pos _),
        Nat.div_eq_of_lt (Nat.mod_lt _ (Nat.two_pow_pos _)), zero_add, Nat.mod_eq_of_lt hlane]
      exact ⟨rfl, rfl⟩
    have hrefine : ∀ l : List (Nat × Nat), l.filter (fun x => x.1 % 2 ^ (8 * (k + 1)) == v) =
        (l.filter (fun x => x.1 % 2 ^ (8 * k) == v % 2 ^ (8 * k))).filter (fun x => x.1 % 2 ^ (8 * (k + 1)) == v) := by
      intro l
      rw [List.filter_filter]
      refine List.filter_congr fun x _ => ?_
      cases hx : (x.1 % 2 ^ (8 * (k + 1)) == v) with
      | false => rfl
      | true => rw [(hdigit x hx).1, beq_self_eq_true]; rfl
    rw [filter_radixPass, radixPass_bucket (b := v / 2 ^ (8 * k) % 256) (Nat.mod_lt _ (by norm_num)) fun x hx =>
      (hdigit x (List.mem_filter.1 hx).2).2, hrefine Q, h.stable, ← hrefine P]

/-! ### Pairs as bytes (R205) -/

theorem gW_cases (d : List W64) : gW d = 4 ∨ gW d = 8 := by
  unfold gW
  split
  · exact .inr rfl
  · exact .inl rfl

theorem pairBytes_length (d : List W64) (x : Nat × Nat) : (pairBytes (gW d) x).length = gPair d := by
  unfold pairBytes gPair
  rcases gW_cases d with hw | hw <;> simp [hw]

theorem pairBytes_eq (d : List W64) {x : Nat × Nat} (hx : x.2 < 2 ^ 32) : pairBytes (gW d) x = leBytes (gW d) x.1 ++ leBytes (gW d) x.2 := by
  unfold pairBytes
  rcases gW_cases d with hw | hw
  · rw [hw, if_pos rfl]
  · have hhigh : x.2 >>> (8 * 4) = 0 := by
      rw [Nat.shiftRight_eq_div_pow]
      exact Nat.div_eq_of_lt hx
    rw [hw, if_neg (by decide), leBytes_append 4 4 x.2, hhigh, List.append_assoc]

/-- Pair `i` of a SORT, as its buffer in the scratchpad has it. -/
def pairAt (s : State) (c : Nat) (d : List W64) (i : Nat) : Nat × Nat :=
  (ofLe (flatRange s c 0 (cw d 1 + i * (2 * gW d)) (gW d)), ofLe (flatRange s c 0 (cw d 1 + i * (2 * gW d) + gW d) 4))

theorem pairAt_snd_lt (s : State) (c : Nat) (d : List W64) (i : Nat) : (pairAt s c d i).2 < 2 ^ 32 := by
  have h := ofLe_lt (flatRange s c 0 (cw d 1 + i * (2 * gW d) + gW d) 4)
  rwa [flatRange_length] at h

theorem pairOf_flatRange {s : State} (hm : s.memOk = true) (c : Nat) (d : List W64) (i : Nat) :
    pairOf (gW d) (flatRange s c 0 (cw d 1 + i * gPair d) (gPair d)) = pairAt s c d i := by
  have hfit : gW d + 4 ≤ gPair d ∧ 0 + gW d ≤ gPair d := by
    unfold gPair
    rcases gW_cases d with hw | hw <;> omega
  have hlow := take_drop_flatRange (c := c) (space := 0) (a := cw d 1 + i * gPair d) hm hfit.2
  unfold pairOf pairAt
  rw [take_drop_flatRange hm hfit.1, ← gPair]
  exact Prod.ext (congrArg ofLe hlow) rfl

section Pairs

variable {s : State} {c : Nat} {e : GlnEntry} {g : GRun}

theorem fine_sortRead (hm : s.memOk = true) {n i : Nat} (hg : Fine c s g) (hf : (sortRead c e n i g).2.fail = none) :
    g.fail = none ∧ Fine c s (sortRead c e n i g).2 ∧ (sortRead c e n i g).1 = (List.range' i n).map (pairAt s c e.desc) := by
  induction n generalizing g i with
  | zero => exact ⟨hf, hg, rfl⟩
  | succ n ih =>
    unfold sortRead at hf ⊢
    by_cases hin : gIn g.st.variant 0 (cw e.desc 1 + i * gPair e.desc) (gPair e.desc) = true
    · have hread := delivers_take (c := c) hg.toCalm (Nat.zero_le 1) hin 0 e.issuer
      simp only [hin, Bool.not_true, Bool.false_eq_true, if_false] at hf ⊢
      obtain ⟨hfirst, hfine, hrest⟩ := ih (hread.fine hg) hf
      refine ⟨hread.fail.symm.trans hfirst, hfine, ?_⟩
      rw [hread.value, flatRange_of_still hg.still, pairOf_flatRange hm, hrest]
      rfl
    · simp only [hin] at hf
      exact absurd hf (failAt_fail g 2 i)

theorem foldl_failed {α : Type} {f : GRun → α → GRun} (l : List α) (hg : g.fail ≠ none) :
    l.foldl (fun g x => if g.ok then f g x else g) g = g := by
  induction l with
  | nil => rfl
  | cons x l ih => rw [List.foldl_cons, not_ok hg, if_neg Bool.false_ne_true, ih]

/-- Pairs are written from place `a` of a buffer on. -/
def pairsFrom (c : Nat) (e : GlnEntry) (base a : Nat) (l : List (Nat × Nat)) (g : GRun) : GRun :=
  (SMap.number a l).foldl (fun g x =>
    if g.ok then g.put c e 0 (base + x.1 * gPair e.desc) x.1 (pairBytes (gW e.desc) x.2) else g) g

theorem fail_pairsFrom {base a : Nat} {l : List (Nat × Nat)} (hf : (pairsFrom c e base a l g).fail = none) : g.fail = none := by
  by_contra hne
  unfold pairsFrom at hf
  rw [foldl_failed _ hne] at hf
  exact hne hf

theorem fine_pairsFrom {base : Nat} (l : List (Nat × Nat)) {a : Nat} (hg : Calm g) (hf : (pairsFrom c e base a l g).fail = none) :
    Calm (pairsFrom c e base a l g) ∧ Rows c base (gPair e.desc) a (l.map (pairBytes (gW e.desc))) g.st (pairsFrom c e base a l g).st := by
  induction l generalizing a g with
  | nil => exact ⟨hg, .nil (.refl c _)⟩
  | cons x l ih =>
    have hcons : pairsFrom c e base a (x :: l) g =
        pairsFrom c e base (a + 1) l (g.put c e 0 (base + a * gPair e.desc) a (pairBytes (gW e.desc) x)) := by
      unfold pairsFrom
      rw [SMap.number, List.foldl_cons, hg.ok_of (fail_pairsFrom hf), if_pos rfl]
    rw [hcons] at hf ⊢
    obtain ⟨-, hcalm, hput⟩ := fine_put e hg (fail_pairsFrom hf)
    obtain ⟨hcalm', hrows⟩ := ih hcalm hf
    exact ⟨hcalm', .cons hput (pairBytes_length ..).le hrows⟩

/-! ### The passes (R205) -/

/-- The buffer that pass `k` writes. -/
def sortBuf (d : List W64) (k : Nat) : Nat := if k % 2 = 0 then cw d 4 else cw d 1

/-- Passes have left `Q` in the buffer of the last one, and changed nothing beside the two buffers. -/
structure Passed (c : Nat) (d : List W64) (N k : Nat) (Q : List (Nat × Nat)) (s t : State) : Prop extends SameLoft s t where
  last : 0 < k → ∃ v, Rows c (sortBuf d (k - 1)) (gPair d) 0 (Q.map (pairBytes (gW d))) v t
  rest : ∀ b, (b < cw d 1 ∨ cw d 1 + N * gPair d ≤ b) → (b < cw d 4 ∨ cw d 4 + N * gPair d ≤ b) → flatByte t c 0 b = flatByte s c 0 b

theorem Passed.pass {d : List W64} {N k : Nat} {Q R : List (Nat × Nat)} {s t u : State} (h : Passed c d N k Q s t) (hR : R.length = N)
    (hr : Rows c (sortBuf d k) (gPair d) 0 (R.map (pairBytes (gW d))) t u) : Passed c d N (k + 1) R s u := by
  refine ⟨h.toSameLoft.trans hr.toSameLoft, fun _ => ⟨t, hr⟩, fun b h1 h4 => ?_⟩
  rw [hr.outside ?_, h.rest b h1 h4]
  rw [List.length_map, hR, Nat.zero_mul, Nat.zero_add, Nat.add_zero]
  unfold sortBuf
  split <;> assumption

theorem fail_sortPasses {n k : Nat} {Q : List (Nat × Nat)} (hf : (sortPasses c e n k Q g).fail = none) : g.fail = none := by
  cases n with
  | zero => exact hf
  | succ n =>
    by_contra hne
    unfold sortPasses at hf
    rw [not_ok hne] at hf
    exact hne hf

theorem fine_sortPasses {P : List (Nat × Nat)} {n k : Nat} {Q : List (Nat × Nat)} (hg : Calm g) (hsort : RadixSorted k P Q)
    (hpass : Passed c e.desc P.length k Q s g.st) (hf : (sortPasses c e n k Q g).fail = none) :
    ∃ R, RadixSorted (k + n) P R ∧ Passed c e.desc P.length (k + n) R s (sortPasses c e n k Q g).st := by
  induction n generalizing k Q g with
  | zero => exact ⟨Q, hsort, hpass⟩
  | succ n ih =>
    have hg0 := fail_sortPasses hf
    have hnext : sortPasses c e (n + 1) k Q g = sortPasses c e n (k + 1) (radixPass k Q) (pairsFrom c e (sortBuf e.desc k) 0 (radixPass k Q) g) := by
      conv_lhs => unfold sortPasses
      rw [hg.ok_of hg0, if_pos rfl]
      rfl
    rw [hnext] at hf ⊢
    obtain ⟨hcalm, hrows⟩ := fine_pairsFrom _ hg (fail_sortPasses hf)
    have hsort' := hsort.pass
    rw [← Nat.add_assoc, Nat.add_right_comm]
    exact ih hcalm hsort' (hpass.pass hsort'.perm.length_eq hrows) hf

end Pairs

/-- A SORT leaves its pairs in the order of their keys' low digits, in the buffer of its last pass. -/
theorem sort_spec {s : State} {c : Nat} {e : GlnEntry} (hm : s.memOk = true) (hop : e.op = 5) (hf : (gEval c e s).2.fail = none) :
    ∃ Q, RadixSorted (gAux e.desc) ((List.range (gN e.desc)).map (pairAt s c e.desc)) Q ∧
      Passed c e.desc (gN e.desc) (gAux e.desc) Q s (gEval c e s).2.st := by
  have heval := gEval_sort (c := c) s (start_of_fine hf) hop
  obtain ⟨r, hr⟩ : ∃ r, sortRead c e (gN e.desc) 0 { st := s } = r := ⟨_, rfl⟩
  rw [hr] at heval
  rw [heval] at hf ⊢
  obtain ⟨-, hfine, hpairs⟩ := fine_sortRead (i := 0) (n := gN e.desc) hm ((⟨hm, rfl, rfl⟩ : Calm { st := s }).fine c)
    (hr ▸ fail_sortPasses hf)
  rw [hr] at hfine hpairs
  rw [← List.range_eq_range'] at hpairs
  rw [hpairs] at hf ⊢
  have hpass : Passed c e.desc ((List.range (gN e.desc)).map (pairAt s c e.desc)).length 0
      ((List.range (gN e.desc)).map (pairAt s c e.desc)) s r.2.st :=
    ⟨hfine.still.toLoft, fun h => absurd h (Nat.lt_irrefl 0), fun b _ _ => flatByte_of_still hfine.still 0 b⟩
  obtain ⟨Q, hsort, hlast⟩ := fine_sortPasses hfine.toCalm (radixSorted_zero _) hpass hf
  rw [zero_add] at hsort hlast
  rw [List.length_map, List.length_range] at hlast
  exact ⟨Q, hsort, hlast⟩

end Sys2Proof.Proofs.Gleaner


/-! PROOF of GleanerResults, ninth part: MERGE and ISECT (R203, R204). -/

namespace Sys2Proof.Proofs.Gleaner

open Sys2Proof Sys2Proof.Machine Sys2Proof.Laws Sys2Proof.Proofs.Array Sys2Proof.Proofs.Dexica

/-! ### What sorted lists have in common -/

/-- The elements that two sorted lists both hold, each as often as both do. -/
def meet : List Nat → List Nat → List Nat
  | x :: A, y :: B => if x < y then meet A (y :: B) else if y < x then meet (x :: A) B else x :: meet A B
  | [], _ => []
  | _ :: _, [] => []
termination_by A B => A.length + B.length

theorem meet_nil_right (A : List Nat) : meet A [] = [] := by
  cases A <;> rw [meet]

theorem meet_sublist (A B : List Nat) : (meet A B).Sublist A := by
  induction A, B using meet.induct with
  | case1 x A y B hxy ih => rw [meet, if_pos hxy]; exact ih.trans (List.sublist_cons_self ..)
  | case2 x A y B hxy hyx ih => rw [meet, if_neg hxy, if_pos hyx]; exact ih
  | case3 x A y B hxy hyx ih => rw [meet, if_neg hxy, if_neg hyx]; exact ih.cons_cons x
  | case4 B => rw [meet]
  | case5 x A => rw [meet]; exact List.nil_sublist _

theorem count_meet {A B : List Nat} (hA : A.Pairwise (· ≤ ·)) (hB : B.Pairwise (· ≤ ·)) (v : Nat) :
    (meet A B).count v = min (A.count v) (B.count v) := by
  have habsent : ∀ {x y : Nat} {l : List Nat}, x < y → (y :: l).Pairwise (· ≤ ·) → (y :: l).count x = 0 := by
    intro x y l hxy hl
    refine List.count_eq_zero.2 fun hx => ?_
    rcases List.mem_cons.1 hx with rfl | hx
    · exact Nat.lt_irrefl _ hxy
    · have hle := List.rel_of_pairwise_cons hl hx
      omega
  induction A, B using meet.induct with
  | case1 x A y B hxy ih =>
    rw [meet, if_pos hxy, ih hA.of_cons hB, List.count_cons (l := A)]
    by_cases hv : x = v
    · subst hv
      rw [habsent hxy hB]
      simp
    · rw [beq_false_of_ne hv]
      simp
  | case2 x A y B hxy hyx ih =>
    rw [meet, if_neg hxy, if_pos hyx, ih hA hB.of_cons, List.count_cons (l := B)]
    by_cases hv : y = v
    · subst hv
      rw [habsent hyx hA]
      simp
    · rw [beq_false_of_ne hv]
      simp
  | case3 x A y B hxy hyx ih =>
    obtain rfl : x = y := by omega
    rw [meet, if_neg hxy, if_neg hyx, List.count_cons, List.count_cons, List.count_cons, ih hA.of_cons hB.of_cons]
    omega
  | case4 B => rw [meet]; simp
  | case5 x A => rw [meet]; simp

/-! ### A list as it is read (R203) -/

/-- The list at `l` still holds `L`, in L-space, and what has been read of it is its first. -/
structure Holds (s : State) (c : Nat) (d : List W64) (l : Lst) (L : List Nat) : Prop where
  space : l.space = 1
  rest : L = (List.range' l.at_ (l.len - l.at_)).map (listElem s c 1 d l.base)
  cur : ∀ x, l.cur = some x → L.head? = some x

/-- And its first has been read, if it has one. -/
structure Loaded (s : State) (c : Nat) (d : List W64) (l : Lst) (L : List Nat) : Prop extends Holds s c d l L where
  first : l.cur = L.head?

section Lists

variable {s : State} {c : Nat} {e : GlnEntry} {g : GRun} {l a b : Lst} {L A B : List Nat}

theorem Loaded.next {d : List W64} {x : Nat} (h : Loaded s c d l (x :: L)) : Holds s c d l.next L := by
  obtain ⟨⟨hspace, hrest, -⟩, -⟩ := h
  obtain ⟨n, hn⟩ : ∃ n, l.len - l.at_ = n + 1 := by
    cases hn : l.len - l.at_ with
    | zero => rw [hn] at hrest; simp at hrest
    | succ n => exact ⟨n, rfl⟩
  rw [hn, List.range'_succ, List.map_cons] at hrest
  refine ⟨hspace, ?_, fun y hy => absurd hy (by simp [Lst.next])⟩
  have hlen : l.next.len - l.next.at_ = n := by
    simp only [Lst.next]
    omega
  rw [hlen]
  exact (List.cons.inj hrest).2

theorem fine_load (hs : SameLoft s g.st) (hg : Calm g) (hl : Holds s c e.desc l L) (hf : (l.load c e g).2.fail = none) :
    Fine c g.st (l.load c e g).2 ∧ Loaded s c e.desc (l.load c e g).1 L := by
  obtain ⟨hspace, hrest, hcur⟩ := hl
  obtain ⟨x, hx⟩ : ∃ x, g.list c e l.space (l.base + l.at_ * gW e.desc) (gW e.desc) l.at_ = x := ⟨_, rfl⟩
  simp only [Lst.load, hx] at hf ⊢
  by_cases hdone : (l.cur.isSome || decide (l.len ≤ l.at_)) = true
  · rw [if_pos hdone] at hf ⊢
    refine ⟨hg.fine c, ⟨hspace, hrest, hcur⟩, ?_⟩
    cases hlc : l.cur with
    | some v => exact (hcur v hlc).symm
    | none =>
      have hle : l.len - l.at_ = 0 := by
        rw [hlc] at hdone
        have hlen : l.len ≤ l.at_ := by simpa using hdone
        omega
      rw [hle] at hrest
      rw [hrest]
      rfl
  · rw [if_neg hdone] at hf ⊢
    have hfx : Fine c g.st x.2 := hx ▸ fine_after_list e (hg.fine c) (by omega) ..
    have hlt : l.at_ < l.len := by
      simp only [Bool.or_eq_true, decide_eq_true_eq, not_or] at hdone
      omega
    obtain ⟨n, hn⟩ : ∃ n, l.len - l.at_ = n + 1 := ⟨l.len - l.at_ - 1, by omega⟩
    split at hf
    · exact absurd hf (failAt_fail x.2 5 l.at_)
    · next hasc =>
      rw [if_neg hasc]
      obtain ⟨-, hval, -⟩ := fine_list e (hg.fine c) (by omega) (hx ▸ hf)
      rw [hx, hspace, flatRange_of_loft hs] at hval
      have hhead : L.head? = some x.1 := by
        rw [hrest, hn, List.range'_succ, hval]
        rfl
      exact ⟨hfx, ⟨hspace, hrest, fun y hy => hhead.trans hy⟩, hhead.symm⟩

theorem fine_loadBoth (hs : SameLoft s g.st) (hg : Calm g) (ha : Holds s c e.desc a A) (hb : Holds s c e.desc b B)
    (hf : (loadBoth c e a b g).2.fail = none) : Fine c g.st (loadBoth c e a b g).2 ∧ Loaded s c e.desc (loadBoth c e a b g).1.1 A ∧
      Loaded s c e.desc (loadBoth c e a b g).1.2 B := by
  unfold loadBoth at hf ⊢
  dsimp only at hf ⊢
  by_cases hx : (a.load c e g).2.fail = none
  · obtain ⟨hfine, hla⟩ := fine_load hs hg ha hx
    rw [hfine.ok_of hx, if_pos rfl] at hf ⊢
    obtain ⟨hfine', hlb⟩ := fine_load (hs.trans hfine.still.toLoft) hfine.toCalm hb hf
    exact ⟨⟨hfine'.toCalm, hfine.still.trans hfine'.still⟩, hla, hlb⟩
  · rw [not_ok hx] at hf
    exact absurd hf hx

/-- Element `k` of an output list is written. -/
theorem fine_listOut (hp : gPos e.desc = false) (hg : Calm g) {k x : Nat} {pos : List Nat} (hf : (listOut c e k x pos g).fail = none) :
    Calm (listOut c e k x pos g) ∧ Put c (cw e.desc 4 + k * gW e.desc) (leBytes (gW e.desc) x) g.st (listOut c e k x pos g).st := by
  have hout : listOut c e k x pos g = g.put c e 0 (cw e.desc 4 + k * gW e.desc) k (leBytes (gW e.desc) x) := by
    unfold listOut
    simp [hp]
  rw [hout] at hf ⊢
  exact (fine_put e hg hf).2

/-- From `s` on, `out` has been written from place `k` of an output list on, and the next place is `x.1`. -/
structure Listed (c : Nat) (d : List W64) (k : Nat) (out : List Nat) (s : State) (x : Nat × GRun) : Prop where
  calm : Calm x.2
  count : x.1 = k + out.length
  rows : Rows c (cw d 4) (gW d) k (out.map (leBytes (gW d))) s x.2.st

theorem Listed.cons {d : List W64} {k v : Nat} {out : List Nat} {s t u : State} {x : Nat × GRun} (hst : Still c s t)
    (hp : Put c (cw d 4 + k * gW d) (leBytes (gW d) v) t u) (h : Listed c d (k + 1) out u x) : Listed c d k (v :: out) s x :=
  ⟨h.calm, by rw [h.count, List.length_cons]; omega, .of_still hst (.cons hp (leBytes_length ..).le h.rows)⟩

/-! ### MERGE -/

theorem mergeNext_spec {d : List W64} (ha : Loaded s c d a A) (hb : Loaded s c d b B) :
    match mergeNext a b with
    | none => A = [] ∧ B = []
    | some (x, a', b') => ∃ A' B', Holds s c d a' A' ∧ Holds s c d b' B' ∧ A.length + B.length = A'.length + B'.length + 1 ∧
        List.merge A B (fun x y => decide (x ≤ y)) = x.1 :: List.merge A' B' (fun x y => decide (x ≤ y)) := by
  unfold mergeNext
  rw [ha.first, hb.first]
  match A, B with
  | [], [] => exact ⟨rfl, rfl⟩
  | x :: A, [] => exact ⟨A, [], ha.next, hb.toHolds, by simp, by simp⟩
  | [], y :: B => exact ⟨[], B, ha.toHolds, hb.next, by simp, by simp⟩
  | x :: A, y :: B =>
    by_cases hxy : x ≤ y
    · simp only [List.head?_cons, hxy, if_true]
      exact ⟨A, y :: B, ha.next, hb.toHolds, by simp only [List.length_cons]; omega, by simp [hxy]⟩
    · simp only [List.head?_cons, hxy, if_false]
      exact ⟨x :: A, B, ha.toHolds, hb.next, by simp only [List.length_cons]; omega, by simp [hxy]⟩

theorem fine_mergeLoop (hp : gPos e.desc = false) {f k : Nat} (hlen : A.length + B.length ≤ f) (hs : SameLoft s g.st) (hg : Calm g)
    (ha : Holds s c e.desc a A) (hb : Holds s c e.desc b B) (hf : (mergeLoop c e f a b k g).2.fail = none) :
    Listed c e.desc k (List.merge A B (fun x y => decide (x ≤ y))) g.st (mergeLoop c e f a b k g) := by
  induction f generalizing g a b A B k with
  | zero =>
    obtain rfl : A = [] := List.eq_nil_of_length_eq_zero (by omega)
    obtain rfl : B = [] := List.eq_nil_of_length_eq_zero (by omega)
    rw [List.nil_merge]
    exact ⟨hg, rfl, .nil (.refl c _)⟩
  | succ f ih =>
    rw [mergeLoop_succ] at hf ⊢
    have hload := fine_loadBoth hs hg ha hb
    generalize loadBoth c e a b g = x at *
    by_cases hx : x.2.fail = none
    · obtain ⟨hfine, hla, hlb⟩ := hload hx
      have hnext := mergeNext_spec hla hlb
      rw [hfine.ok_of hx, Bool.not_true, if_neg Bool.false_ne_true] at hf ⊢
      cases hm : mergeNext x.1.1 x.1.2 with
      | none =>
        rw [hm] at hnext
        obtain ⟨rfl, rfl⟩ := hnext
        rw [List.nil_merge]
        exact ⟨hfine.toCalm, rfl, .nil hfine.still⟩
      | some y =>
        obtain ⟨v, a', b'⟩ := y
        rw [hm] at hnext hf
        obtain ⟨A', B', ha', hb', hcount, hmerge⟩ := hnext
        dsimp only at hf ⊢
        by_cases hout : (listOut c e k v.1 v.2 x.2).fail = none
        · obtain ⟨hcalm, hput⟩ := fine_listOut hp hfine.toCalm hout
          rw [hcalm.ok_of hout, if_pos rfl] at hf ⊢
          rw [hmerge]
          exact .cons hfine.still hput
            (ih (by omega) ((hs.trans hfine.still.toLoft).trans ⟨hput.variant, hput.loft⟩) hcalm ha' hb' hf)
        · rw [not_ok hout] at hf
          exact absurd hf hout
    · rw [not_ok hx] at hf
      exact absurd hf hx

/-! ### ISECT -/

theorem isectNext_spec {d : List W64} (ha : Loaded s c d a A) (hb : Loaded s c d b B) :
    match isectNext a b with
    | none => meet A B = []
    | some (x, a', b') => ∃ A' B', Holds s c d a' A' ∧ Holds s c d b' B' ∧ A'.length + B'.length < A.length + B.length ∧
        meet A B = match x with
          | none => meet A' B'
          | some v => v.1 :: meet A' B' := by
  unfold isectNext
  rw [ha.first, hb.first]
  match A, B with
  | [], B =>
    show meet [] B = []
    rw [meet]
  | x :: A, [] => exact meet_nil_right (x :: A)
  | x :: A, y :: B =>
    simp only [List.head?_cons]
    by_cases hxy : x < y
    · rw [if_pos hxy]
      exact ⟨A, y :: B, ha.next, hb.toHolds, by simp only [List.length_cons]; omega, by rw [meet, if_pos hxy]⟩
    · by_cases hyx : y < x
      · rw [if_neg hxy, if_pos hyx]
        exact ⟨x :: A, B, ha.toHolds, hb.next, by simp only [List.length_cons]; omega, by rw [meet, if_neg hxy, if_pos hyx]⟩
      · rw [if_neg hxy, if_neg hyx]
        exact ⟨A, B, ha.next, hb.next, by simp only [List.length_cons]; omega, by rw [meet, if_neg hxy, if_neg hyx]⟩

theorem fine_isectLoop (hp : gPos e.desc = false) {f k : Nat} (hlen : A.length + B.length ≤ f) (hs : SameLoft s g.st) (hg : Calm g)
    (ha : Holds s c e.desc a A) (hb : Holds s c e.desc b B) (hf : (isectLoop c e f a b k g).2.fail = none) :
    Listed c e.desc k (meet A B) g.st (isectLoop c e f a b k g) := by
  induction f generalizing g a b A B k with
  | zero =>
    obtain rfl : A = [] := List.eq_nil_of_length_eq_zero (by omega)
    rw [meet]
    exact ⟨hg, rfl, .nil (.refl c _)⟩
  | succ f ih =>
    rw [isectLoop_succ] at hf ⊢
    have hload := fine_loadBoth hs hg ha hb
    generalize loadBoth c e a b g = x at *
    by_cases hx : x.2.fail = none
    · obtain ⟨hfine, hla, hlb⟩ := hload hx
      have hnext := isectNext_spec hla hlb
      rw [hfine.ok_of hx, Bool.not_true, if_neg Bool.false_ne_true] at hf ⊢
      cases hm : isectNext x.1.1 x.1.2 with
      | none =>
        rw [hm] at hnext
        rw [hnext]
        exact ⟨hfine.toCalm, rfl, .nil hfine.still⟩
      | some y =>
        obtain ⟨v, a', b'⟩ := y
        rw [hm] at hnext hf
        obtain ⟨A', B', ha', hb', hless, hmeet⟩ := hnext
        have hloft := hs.trans hfine.still.toLoft
        cases v with
        | none =>
          rw [hmeet]
          obtain ⟨hcalm, hcount, hrows⟩ := ih (by omega) hloft hfine.toCalm ha' hb' hf
          exact ⟨hcalm, hcount, .of_still hfine.still hrows⟩
        | some v =>
          dsimp only at hf ⊢
          by_cases hout : (listOut c e k v.1 v.2 x.2).fail = none
          · obtain ⟨hcalm, hput⟩ := fine_listOut hp hfine.toCalm hout
            rw [hcalm.ok_of hout, if_pos rfl] at hf ⊢
            rw [hmeet]
            exact .cons hfine.still hput (ih (by omega) (hloft.trans ⟨hput.variant, hput.loft⟩) hcalm ha' hb' hf)
          · rw [not_ok hout] at hf
            exact absurd hf hout
    · rw [not_ok hx] at hf
      exact absurd hf hx

end Lists

/-! ### Both operations -/

/-- The list that MERGE or ISECT puts out. -/
def listed (op : Nat) (A B : List Nat) : List Nat := if op = 3 then List.merge A B (fun x y => decide (x ≤ y)) else meet A B

theorem list_spec {s : State} {c : Nat} {e : GlnEntry} (hm : s.memOk = true) (hop : e.op = 3 ∨ e.op = 4) (ht : gTsp e.desc = 1)
    (hi : gIsp e.desc = 1) (hp : gPos e.desc = false) (hf : (gEval c e s).2.fail = none) :
    Listed c e.desc 0 (listed e.op ((List.range (gN e.desc)).map (listElem s c 1 e.desc (cw e.desc 1)))
      ((List.range (gN2 e.desc)).map (listElem s c 1 e.desc (cw e.desc 2)))) s (gEval c e s) := by
  have heval := gEval_list (c := c) s (start_of_fine hf) hop
  have hcalm : Calm { st := s } := ⟨hm, rfl, rfl⟩
  have hlist : ∀ n base space, space = 1 → Holds s c e.desc ⟨space, base, n, 0, none, 0⟩ ((List.range n).map (listElem s c 1 e.desc base)) :=
    fun n base space hs => ⟨hs, by rw [List.range_eq_range']; rfl, fun x hx => by simp at hx⟩
  have ha := hlist (gN e.desc) (cw e.desc 1) (gTsp e.desc) ht
  have hb := hlist (gN2 e.desc) (cw e.desc 2) (gIsp e.desc) hi
  rw [heval] at hf ⊢
  unfold listOp listed at *
  dsimp only at hf ⊢
  rcases hop with hop | hop
  · rw [if_pos hop] at hf ⊢
    rw [if_pos hop]
    exact fine_mergeLoop hp (by simp) (.refl s) hcalm ha hb hf
  · have hne : ¬e.op = 3 := by omega
    rw [if_neg hne] at hf ⊢
    rw [if_neg hne]
    exact fine_isectLoop hp (by simp) (.refl s) hcalm ha hb hf

end Sys2Proof.Proofs.Gleaner


/-! PROOF of GleanerResults, tenth part: SCATADD of INT32 (R201). Each row adds its words to those of the row that its index names, and so the
rows in turn add their sum. -/

namespace Sys2Proof.Proofs.Gleaner

open Sys2Proof Sys2Proof.Machine Sys2Proof.Laws Sys2Proof.Proofs.Array Sys2Proof.Proofs.Dexica

/-! ### What two states share of the scratchpad -/

/-- `t` is of the variant of `s`, with the same bytes in the scratchpad of core `c`. -/
structure SameSpad (c : Nat) (s t : State) : Prop where
  variant : t.variant = s.variant
  spad : (t.core c).spad = (s.core c).spad

theorem SameSpad.refl (c : Nat) (s : State) : SameSpad c s s := ⟨rfl, rfl⟩

theorem SameSpad.trans {c : Nat} {s t u : State} (h : SameSpad c s t) (g : SameSpad c t u) : SameSpad c s u :=
  ⟨g.variant.trans h.variant, g.spad.trans h.spad⟩

theorem Still.toSpad {c : Nat} {s t : State} (h : Still c s t) : SameSpad c s t := ⟨h.variant, h.spad⟩

theorem flatRange_of_spad {c : Nat} {s t : State} (h : SameSpad c s t) (a n : Nat) : flatRange t c 0 a n = flatRange s c 0 a n := by
  unfold flatRange
  rw [if_pos rfl, if_pos rfl, h.spad]

/-- A range whose bytes stand reads as before. -/
theorem flatRange_congr {s t : State} (hs : s.memOk = true) (ht : t.memOk = true) {c space a n : Nat}
    (h : ∀ b, a ≤ b → b < a + n → flatByte t c space b = flatByte s c space b) : flatRange t c space a n = flatRange s c space a n := by
  rw [flatRange_eq hs, flatRange_eq ht]
  exact List.map_congr_left fun k hk => h (a + k) (by omega) (by have := List.mem_range.1 hk; omega)

/-! ### Words that are added to (R201) -/

/-- The words of a row of 4 B elements. -/
theorem words32_eq (n : Nat) {d : List Byte} (h : d.length = 4 * n) :
    words32 d = (List.range n).map (fun j => BitVec.ofNat 32 (ofLe ((d.drop (4 * j)).take 4))) := by
  induction n generalizing d with
  | zero =>
    obtain rfl : d = [] := List.eq_nil_of_length_eq_zero h
    rfl
  | succ n ih =>
    have hhead : (d.take 4).length = 4 := by
      rw [List.length_take]
      omega
    have htail : (d.drop 4).length = 4 * n := by
      rw [List.length_drop]
      omega
    conv_lhs => rw [← List.take_append_drop 4 d, words32_four _ _ hhead, ih htail]
    rw [List.range_succ_eq_map, List.map_cons, List.map_map]
    refine congrArg₂ List.cons rfl (List.map_congr_left fun j _ => ?_)
    rw [List.drop_drop, Function.comp_apply, Nat.succ_eq_add_one, show 4 + 4 * j = 4 * (j + 1) by omega]

section Words

variable {c : Nat} {e : GlnEntry} {g : GRun}

/-- The word at `a` in L-space, as a number. -/
def wordAt (s : State) (c a : Nat) : Nat := ofLe (flatRange s c 1 a 4)

theorem leBytes_wordAt (s : State) (c a : Nat) : leBytes 4 (wordAt s c a) = flatRange s c 1 a 4 := by
  have h := leBytes_ofLe (flatRange s c 1 a 4)
  rwa [flatRange_length] at h

/-- One word is added to, where the addition does not fail. -/
theorem fine_addLocal (hg : Calm g) {a y posn : Nat} (hf : (addLocal c e 1 6 a y posn g).fail = none) :
    g.fail = none ∧ Calm (addLocal c e 1 6 a y posn g) ∧ SameSpad c g.st (addLocal c e 1 6 a y posn g).st ∧
      flatRange (addLocal c e 1 6 a y posn g).st c 1 a 4 = leBytes 4 (wordAt g.st c a + y) ∧
      ∀ b, (b < a ∨ a + 4 ≤ b) → flatByte (addLocal c e 1 6 a y posn g).st c 1 b = flatByte g.st c 1 b := by
  have hcalm := (alike_addLocal e (space := 1) (by omega) 6 a y posn (hg.alike c)).left
  by_cases hin : gIn g.st.variant 1 a 4 = true
  · have hread := delivers_take (c := c) hg (Nat.le_refl 1) hin 0 e.issuer
    obtain ⟨x, hx⟩ : ∃ x, g.take (g.st.coreRead 1 c a 4 0 false .gleaner e.issuer) = x := ⟨_, rfl⟩
    rw [hx] at hread
    have hadd : addLocal c e 1 6 a y posn g = (x.2.take (x.2.st.glnStore c e 1 a (leBytes 4 (addWord 6 (ofLe x.1) y)) 0)).2 := by
      unfold addLocal
      simp [hin, hx]
    have hsum : leBytes 4 (addWord 6 (ofLe x.1) y) = leBytes 4 (wordAt g.st c a + y) := by
      rw [hread.value]
      exact leBytes_mod 4 _
    obtain ⟨-, hv, hs, hl⟩ := glnStore_loft e x.2.st c a (leBytes 4 (addWord 6 (ofLe x.1) y))
    have hbyte : ∀ b, flatByte (addLocal c e 1 6 a y posn g).st c 1 b =
        if a ≤ b ∧ b < a + 4 then nth (leBytes 4 (wordAt g.st c a + y)) 0 (b - a) else flatByte g.st c 1 b := by
      intro b
      rw [hadd, flatByte_loft, ← flatByte_of_still hread.still, flatByte_loft]
      dsimp only [GRun.take]
      rw [hl, lWrite_loft hread.calm.kept, leBytes_length, hsum]
    refine ⟨hread.fail.symm.trans (by rw [hadd] at hf; exact hf), hcalm, ?_, ?_, fun b hb => ?_⟩
    · rw [hadd]
      exact hread.still.toSpad.trans ⟨hv, hs⟩
    · have hrange := flatRange_of_bytes (a := a) (d := leBytes 4 (wordAt g.st c a + y)) hcalm.kept (c := c) (space := 1) fun k hk => by
        rw [leBytes_length] at hk
        rw [hbyte, if_pos (by omega), Nat.add_sub_cancel_left]
      rwa [leBytes_length] at hrange
    · rw [hbyte, if_neg (by omega)]
  · refine absurd hf ?_
    unfold addLocal
    rw [if_pos (by simpa using hin)]
    exact failAt_fail g 2 posn

/-- Words are added from place `k` of a row on. -/
def addFrom (c : Nat) (e : GlnEntry) (a posn k : Nat) (l : List W32) (g : GRun) : GRun :=
  (SMap.number k l).foldl (fun g w => if g.ok then addLocal c e 1 6 (a + 4 * w.1) w.2.toNat posn g else g) g

theorem fail_addFrom {a posn k : Nat} {l : List W32} (hf : (addFrom c e a posn k l g).fail = none) : g.fail = none := by
  by_contra hne
  unfold addFrom at hf
  rw [foldl_failed _ hne] at hf
  exact hne hf

theorem fine_addFrom {a posn : Nat} (l : List W32) {k : Nat} (hg : Calm g) (hf : (addFrom c e a posn k l g).fail = none) :
    Calm (addFrom c e a posn k l g) ∧ SameSpad c g.st (addFrom c e a posn k l g).st ∧
      (∀ j v, l[j]? = some v → flatRange (addFrom c e a posn k l g).st c 1 (a + 4 * (k + j)) 4 =
        leBytes 4 (wordAt g.st c (a + 4 * (k + j)) + v.toNat)) ∧
      ∀ b, (b < a + 4 * k ∨ a + 4 * (k + l.length) ≤ b) → flatByte (addFrom c e a posn k l g).st c 1 b = flatByte g.st c 1 b := by
  induction l generalizing k g with
  | nil => exact ⟨hg, .refl c _, by simp, fun b _ => rfl⟩
  | cons v l ih =>
    have hcons : addFrom c e a posn k (v :: l) g = addFrom c e a posn (k + 1) l (addLocal c e 1 6 (a + 4 * k) v.toNat posn g) := by
      unfold addFrom
      rw [SMap.number, List.foldl_cons, hg.ok_of (fail_addFrom hf), if_pos rfl]
    rw [hcons] at hf ⊢
    obtain ⟨-, hcalm, hspad, hword, hrest⟩ := fine_addLocal hg (fail_addFrom hf)
    obtain ⟨hcalm', hspad', hwords, hrest'⟩ := ih hcalm hf
    refine ⟨hcalm', hspad.trans hspad', fun j x hx => ?_, fun b hb => ?_⟩
    · cases j with
      | zero =>
        obtain rfl : v = x := by simpa using hx
        rw [Nat.add_zero, flatRange_congr hcalm.kept hcalm'.kept fun b _ hb => hrest' b (by omega)]
        exact hword
      | succ j =>
        have hplace : k + (j + 1) = k + 1 + j := by omega
        have hsame : wordAt (addLocal c e 1 6 (a + 4 * k) v.toNat posn g).st c (a + 4 * (k + 1 + j)) = wordAt g.st c (a + 4 * (k + 1 + j)) :=
          congrArg ofLe (flatRange_congr hg.kept hcalm.kept fun b hb _ => hrest b (by omega))
        rw [hplace, hwords j x (by simpa using hx), hsame]
    · rw [List.length_cons] at hb
      rw [hrest' b (by omega), hrest b (by omega)]

end Words

/-! ### Rows (R201) -/

/-- The row that index `i` of a SCATADD names. -/
def scatIdx (s : State) (c : Nat) (d : List W64) (i : Nat) : Nat := listElem s c 0 d (cw d 2) i

/-- Word `j` of source row `i`. -/
def scatWord (s : State) (c : Nat) (d : List W64) (i j : Nat) : Nat := ofLe (flatRange s c 0 (cw d 4 + i * gDst d + 4 * j) 4)

/-- What source row `i` adds to word `j` of row `x`. -/
def scatAdd (s : State) (c : Nat) (d : List W64) (x j i : Nat) : Nat := if scatIdx s c d i = x then scatWord s c d i j else 0

/-- From `u` to `t`, the source rows of the list have been added to the table. -/
structure Scattered (s : State) (c : Nat) (d : List W64) (l : List Nat) (u t : State) : Prop extends SameSpad c u t where
  kept : t.memOk = true
  word : ∀ x j, x < cw d 7 → j < gCols d → flatRange t c 1 (cw d 1 + x * gTst d + 4 * j) 4 =
    leBytes 4 (wordAt u c (cw d 1 + x * gTst d + 4 * j) + (l.map (scatAdd s c d x j)).sum)
  rest : ∀ b, (∀ x, x < cw d 7 → b < cw d 1 + x * gTst d ∨ cw d 1 + x * gTst d + gTrow d ≤ b) → flatByte t c 1 b = flatByte u c 1 b

section Scatter

variable {s u v t : State} {c : Nat} {d : List W64} {l l' : List Nat}

/-- Nothing is added. -/
theorem scattered_still (h : Still c u t) (hk : t.memOk = true) (hl : ∀ x j, x < cw d 7 → (l.map (scatAdd s c d x j)).sum = 0) :
    Scattered s c d l u t := by
  refine ⟨h.toSpad, hk, fun x j hx _ => ?_, fun b _ => flatByte_of_still h 1 b⟩
  rw [hl x j hx, Nat.add_zero, leBytes_wordAt, flatRange_of_still h]

theorem Scattered.trans (h : Scattered s c d l u v) (g : Scattered s c d l' v t) : Scattered s c d (l ++ l') u t := by
  refine ⟨h.toSameSpad.trans g.toSameSpad, g.kept, fun x j hx hj => ?_, fun b hb => (g.rest b hb).trans (h.rest b hb)⟩
  have hmid : wordAt v c (cw d 1 + x * gTst d + 4 * j) =
      (wordAt u c (cw d 1 + x * gTst d + 4 * j) + (l.map (scatAdd s c d x j)).sum) % 2 ^ (8 * 4) := by
    rw [wordAt, h.word x j hx hj, ofLe_leBytes]
  rw [g.word x j hx hj, hmid, List.map_append, List.sum_append, ← leBytes_mod 4, Nat.mod_add_mod, leBytes_mod, Nat.add_assoc]

/-- A source row is added to the row that its index names. -/
theorem scattered_row {i : Nat} (hu : u.memOk = true) (ht : t.memOk = true) (hspad : SameSpad c u t) (hstride : gTrow d ≤ gTst d)
    (hcols : gTrow d = 4 * gCols d)
    (hword : ∀ j, j < gCols d → flatRange t c 1 (cw d 1 + scatIdx s c d i * gTst d + 4 * j) 4 =
      leBytes 4 (wordAt u c (cw d 1 + scatIdx s c d i * gTst d + 4 * j) + scatWord s c d i j))
    (hrest : ∀ b, (b < cw d 1 + scatIdx s c d i * gTst d ∨ cw d 1 + scatIdx s c d i * gTst d + 4 * gCols d ≤ b) →
      flatByte t c 1 b = flatByte u c 1 b) (hi : scatIdx s c d i < cw d 7) : Scattered s c d [i] u t := by
  refine ⟨hspad, ht, fun x j hx hj => ?_, fun b hb => hrest b (by have := hb _ hi; omega)⟩
  simp only [List.map_cons, List.map_nil, List.sum_cons, List.sum_nil, Nat.add_zero, scatAdd]
  by_cases hxi : scatIdx s c d i = x
  · rw [if_pos hxi, ← hxi]
    exact hword j hj
  · have hapart : scatIdx s c d i * gTst d + gTst d ≤ x * gTst d ∨ x * gTst d + gTst d ≤ scatIdx s c d i * gTst d := by
      rw [← Nat.succ_mul, ← Nat.succ_mul]
      exact (Nat.lt_or_gt_of_ne hxi).imp (fun h => Nat.mul_le_mul_right _ h) (fun h => Nat.mul_le_mul_right _ h)
    rw [if_neg hxi, Nat.add_zero, leBytes_wordAt]
    exact flatRange_congr hu ht fun b hlo hhi => hrest b (by omega)

theorem scatIdx_of_spad (h : SameSpad c s t) (d : List W64) (i : Nat) : scatIdx t c d i = scatIdx s c d i := congrArg ofLe (flatRange_of_spad h ..)

end Scatter

section ScatRow

variable {s : State} {c : Nat} {e : GlnEntry} {g : GRun}

theorem fine_scatSource {i : Nat} (hg : Calm g) (hf : (scatSource c e i g).2.fail = none) :
    g.fail = none ∧ Delivers c g (flatRange g.st c 0 (cw e.desc 4 + i * gDst e.desc) (gTrow e.desc)) (scatSource c e i g) := by
  unfold scatSource at hf ⊢
  by_cases hin : gIn g.st.variant 0 (cw e.desc 4 + i * gDst e.desc) (gTrow e.desc) = true
  · have hread := delivers_take (c := c) hg (Nat.zero_le 1) hin 0 e.issuer
    simp only [hin, Bool.not_true, Bool.false_eq_true, if_false] at hf ⊢
    exact ⟨hread.fail.symm.trans hf, hread⟩
  · simp only [hin] at hf
    exact absurd hf (failAt_fail g 2 i)

/-- Elements of INT32 are words. -/
theorem gTrow_words {d : List W64} (hfmt : gEfmt d = 6) : gTrow d = 4 * gCols d := by
  simp only [gTrow, rowBytes, hfmt, fmtBits, ceilDiv]
  omega

/-- The words of a source row. -/
theorem words32_source {d : List W64} (hm : s.memOk = true) (hfmt : gEfmt d = 6) (c i : Nat) :
    words32 (flatRange s c 0 (cw d 4 + i * gDst d) (gTrow d)) = (List.range (gCols d)).map (fun j => BitVec.ofNat 32 (scatWord s c d i j)) := by
  rw [words32_eq (gCols d) (by rw [flatRange_length, gTrow_words hfmt])]
  refine List.map_congr_left fun j hj => ?_
  have hlt := List.mem_range.1 hj
  rw [take_drop_flatRange hm (by rw [gTrow_words hfmt]; omega), scatWord]

theorem scatWord_lt (s : State) (c : Nat) (d : List W64) (i j : Nat) : scatWord s c d i j < 2 ^ 32 := by
  have hlt := ofLe_lt (flatRange s c 0 (cw d 4 + i * gDst d + 4 * j) 4)
  rwa [flatRange_length] at hlt

/-- A source row is added, word by word, to the row that its index names. -/
theorem scattered_addFrom {i : Nat} (hfmt : gEfmt e.desc = 6) (hstride : gTrow e.desc ≤ gTst e.desc) (hg : Calm g)
    (hidx : scatIdx s c e.desc i < cw e.desc 7) {l : List W32}
    (hl : l = (List.range (gCols e.desc)).map (fun j => BitVec.ofNat 32 (scatWord s c e.desc i j))) {t : GRun}
    (ht : t = addFrom c e (cw e.desc 1 + scatIdx s c e.desc i * gTst e.desc) i 0 l g) (hf : t.fail = none) :
    Calm t ∧ Scattered s c e.desc [i] g.st t.st := by
  subst ht
  obtain ⟨hcalm, hspad, hwords, hrest⟩ := fine_addFrom l hg hf
  have hcount : l.length = gCols e.desc := by rw [hl, List.length_map, List.length_range]
  rw [Nat.mul_zero, Nat.add_zero, Nat.zero_add, hcount] at hrest
  refine ⟨hcalm, scattered_row hg.kept hcalm.kept hspad hstride (gTrow_words hfmt) (fun j hj => ?_) hrest hidx⟩
  have hadd := hwords j (BitVec.ofNat 32 (scatWord s c e.desc i j)) (by rw [hl, List.getElem?_map, List.getElem?_range hj]; rfl)
  rwa [BitVec.toNat_ofNat, Nat.mod_eq_of_lt (scatWord_lt ..), Nat.zero_add] at hadd

/-- A row of a SCATADD of INT32. -/
theorem fine_scatRow {i : Nat} (ht : gTsp e.desc = 1) (hi : gIsp e.desc = 0) (hfmt : gEfmt e.desc = 6) (hstride : gTrow e.desc ≤ gTst e.desc)
    (hm : s.memOk = true) (hs : SameSpad c s g.st) (hg : Calm g) (hf : (scatRow c e i g).fail = none) :
    Calm (scatRow c e i g) ∧ Scattered s c e.desc [i] g.st (scatRow c e i g).st := by
  obtain ⟨x, hx⟩ : ∃ x, g.index c e i = x := ⟨_, rfl⟩
  obtain ⟨y, hy⟩ : ∃ y, scatSource c e i x.2 = y := ⟨_, rfl⟩
  unfold scatRow at hf ⊢
  simp only [hx, hy] at hf ⊢
  by_cases hxf : x.2.fail = none
  · obtain ⟨-, hval, hfx⟩ := fine_index e (hg.fine c) (by omega) (hx ▸ hxf)
    have hidx : x.1 = scatIdx s c e.desc i := by
      rw [← hx, hval, hi, ← scatIdx_of_spad hs]
      rfl
    rw [hx] at hfx
    simp only [hfx.ok_of hxf, Bool.not_true, Bool.false_eq_true, if_false] at hf ⊢
    by_cases hout : cw e.desc 7 ≤ x.1
    · rw [if_pos hout] at hf ⊢
      have hfine := fine_oor hfx hf
      refine ⟨hfine.toCalm, scattered_still hfine.still hfine.kept fun x' j hx' => ?_⟩
      simp only [List.map_cons, List.map_nil, List.sum_cons, List.sum_nil, Nat.add_zero, scatAdd]
      exact if_neg (by omega)
    · rw [if_neg hout] at hf ⊢
      by_cases hbad : (y.2.ok && !y.1.isEmpty && !gIn y.2.st.variant (gTsp e.desc) (cw e.desc 1 + x.1 * gTst e.desc) y.1.length) = true
      · rw [if_pos hbad] at hf
        exact absurd hf (failAt_fail y.2 2 i)
      · rw [if_neg hbad, ht, hfmt, hidx] at hf ⊢
        obtain ⟨-, hsource⟩ := fine_scatSource hfx.toCalm (hy ▸ fail_addFrom hf)
        rw [hy, flatRange_of_spad (hs.trans hfx.still.toSpad)] at hsource
        obtain ⟨hcalm, hadds⟩ := scattered_addFrom hfmt hstride hsource.calm (by omega)
          ((congrArg words32 hsource.value).trans (words32_source hm hfmt c i)) rfl hf
        exact ⟨hcalm, .trans (scattered_still (l := []) (hfx.still.trans hsource.still) hsource.calm.kept fun _ _ _ => rfl) hadds⟩
  · simp only [not_ok hxf] at hf
    exact absurd hf hxf

theorem scattered_gLoop (ht : gTsp e.desc = 1) (hi : gIsp e.desc = 0) (hfmt : gEfmt e.desc = 6) (hstride : gTrow e.desc ≤ gTst e.desc)
    (hm : s.memOk = true) {n a : Nat} (hs : SameSpad c s g.st) (hg : Calm g) (hf : (gLoop (scatRow c e) n a g).fail = none) :
    Scattered s c e.desc (List.range' a n) g.st (gLoop (scatRow c e) n a g).st := by
  induction n generalizing a g with
  | zero => exact scattered_still (.refl c _) hg.kept fun _ _ _ => rfl
  | succ n ih =>
    have hok := hg.ok_of (fail_gLoop hf)
    unfold gLoop at hf ⊢
    rw [hok, if_pos rfl] at hf ⊢
    obtain ⟨hcalm, hrow⟩ := fine_scatRow ht hi hfmt hstride hm hs hg (fail_gLoop hf)
    exact hrow.trans (ih (hs.trans hrow.toSameSpad) hcalm hf)

end ScatRow

/-- A sum over the places that an index list has for a row. -/
theorem sum_filter {f : Nat → Nat} {p : Nat → Bool} (l : List Nat) :
    (l.map (fun i => if p i then f i else 0)).sum = ((l.filter p).map f).sum := by
  rw [List.sum_map_ite]
  simp

/-- A SCATADD of INT32 adds every source row to the row that its index names. -/
theorem scatadd_spec {s : State} {c : Nat} {e : GlnEntry} (hm : s.memOk = true) (hop : e.op = 2) (ht : gTsp e.desc = 1) (hi : gIsp e.desc = 0)
    (hfmt : gEfmt e.desc = 6) (hf : (gEval c e s).2.fail = none) :
    Scattered s c e.desc (List.range (gN e.desc)) s (gEval c e s).2.st := by
  have hstart := start_of_fine hf
  have hmis := (fails_start hstart).2
  have hstride : gTrow e.desc ≤ gTst e.desc := by
    simp [gMisplaced, hop, gCounts] at hmis
    omega
  rw [gEval_scatadd s hstart hop (by simp [scatRemote, ht])] at hf ⊢
  rw [List.range_eq_range']
  exact scattered_gLoop ht hi hfmt hstride hm (.refl c s) ⟨hm, rfl, rfl⟩ hf

end Sys2Proof.Proofs.Gleaner


/-! PROOF of GleanerResults: what GATHER, SEGRED, SCATADD, MERGE, ISECT, SORT and PROBE leave (R195 to R207), clause by clause. -/

namespace Sys2Proof.Proofs.Gleaner

open Sys2Proof Sys2Proof.Machine Sys2Proof.Laws Sys2Proof.Proofs.Array Sys2Proof.Proofs.Dexica

/-! ### Rows read back -/

section ReadBack

variable {c base stride n : Nat} {row : Nat → List Byte} {s m t : State}

theorem Rows.read (h : Rows c base stride 0 ((List.range n).map row) s t) (hm : t.memOk = true) {i : Nat} (hi : i < n) :
    flatRange t c 0 (base + i * stride) (row i).length = row i := by
  have hrow := h.range hm (i := i) (d := row i) (by rw [List.getElem?_map, List.getElem?_range hi]; rfl)
  rwa [Nat.zero_add] at hrow

theorem Rows.spad_rest (h : Rows c base stride 0 ((List.range n).map row) s t) {a : Nat}
    (ha : ∀ i, i < n → a < base + i * stride ∨ base + i * stride + (row i).length ≤ a) :
    SMap.get (t.core c).spad 0 a = SMap.get (s.core c).spad 0 a := by
  have hrest := h.rest a fun i d hd => by
    obtain ⟨hi, hget⟩ := List.getElem?_eq_some_iff.1 hd
    rw [List.length_map, List.length_range] at hi
    rw [List.getElem_map, List.getElem_range] at hget
    rw [Nat.zero_add, ← hget]
    exact ha i hi
  rwa [flatByte_spad, flatByte_spad] at hrest

/-- An operation whose rounds each write a row leaves those rows. -/
theorem Ends.rows {e : GlnEntry} {u : Nat × GRun} {f : Nat → GRun → GRun} (h : Ends s c e m u t) (hop : ¬(e.op = 3 ∨ e.op = 4))
    (heval : gStartCause e.op e.desc = 0 → (gEval c e m).2 = gLoop f n 0 { st := m }) (hw : Writer c base stride n row m f) :
    Rows c base stride 0 ((List.range n).map row) s t := by
  have hf := h.fine
  have hstill := h.still hop
  rw [h.run, heval h.start] at hf hstill
  have hrows := (rows_gLoop hw (by omega) ⟨h.kept, rfl, rfl⟩ (.refl m) hf).2
  rw [List.range_eq_range']
  exact .of_still h.marked (hrows.then_still hstill)

end ReadBack

section Through

variable {s : State} {c : Nat} {e : GlnEntry} {ups : List Upset} {op : Nat}

theorem near_of_through (h : Through s c op e e.desc) (hi : op ≠ 5 → gIsp e.desc ≤ 1) (ho : op = 1 → gOsp e.desc ≤ 1)
    (hp : op = 3 ∨ op = 4 → gPos e.desc = false) : Near e := by
  obtain ⟨-, -, -, rfl, -, -, ht⟩ := h
  refine ⟨?_, hi, ho, hp⟩
  rw [ht]
  split <;> omega

/-- The run of an operation that is through, without an uncorrectable error. -/
abbrev MeetsNoUe (s : State) (c : Nat) (e : GlnEntry) (ups : List Upset) : Prop := (gEval c e (s.mark (gTsp e.desc) c ups)).2.ue = false

/-! ### GATHER, SEGRED and PROBE -/

theorem gather_results (h : Through s c 0 e e.desc) (hi : gIsp e.desc = 1) (hue : MeetsNoUe s c e ups) :
    ∃ t, exec (.gleanOpComplete c ups) s = .next t ∧ t.memOk = true ∧
      Rows c (cw e.desc 4) (gDst e.desc) 0 ((List.range (gN e.desc)).map (gathered s c e.desc)) s t := by
  obtain ⟨m, u, t, hexec, hends⟩ := through_ends h (near_of_through h (fun _ => hi.le) (by omega) (by omega)) hue
  have hop := h.kind
  have hrows := hends.rows (by omega) (fun hs => gEval_gather m hs hop)
    (writer_gather hop (h.table.trans (if_neg (by decide))) hi (h.rows (by omega)) hends.start)
  rw [funext fun i => gathered_of_loft hends.marked.toLoft c e.desc i] at hrows
  exact ⟨t, hexec, hends.memOk, hrows⟩

theorem segred_results (h : Through s c 1 e e.desc) (hd : SumsInt e.desc) (hue : MeetsNoUe s c e ups) :
    ∃ t, exec (.gleanOpComplete c ups) s = .next t ∧ t.memOk = true ∧
      Rows c (cw e.desc 4) (gDst e.desc) 0 ((List.range (gN2 e.desc)).map (reduced s c e.desc)) s t := by
  obtain ⟨m, u, t, hexec, hends⟩ := through_ends h (near_of_through h (fun _ => hd.index.le) (fun _ => hd.offsets.le) (by omega)) hue
  have hop := h.kind
  have hrows := hends.rows (by omega) (fun hs => gEval_segred m hs hop)
    (writer_segred hop hd (h.rows (by omega)) hends.start)
  have hsame : reduced m c e.desc = reduced s c e.desc := by
    unfold reduced
    rw [segSum_of_loft hends.marked.toLoft]
  rw [hsame] at hrows
  exact ⟨t, hexec, hends.memOk, hrows⟩

theorem probe_results (h : Through s c 6 e e.desc) (hi : gIsp e.desc = 1) (hue : MeetsNoUe s c e ups) :
    ∃ t, exec (.gleanOpComplete c ups) s = .next t ∧ t.memOk = true ∧
      Rows c (cw e.desc 4) 4 0 ((List.range (gN e.desc)).map (probed s c e.desc)) s t := by
  obtain ⟨m, u, t, hexec, hends⟩ := through_ends h (near_of_through h (fun _ => hi.le) (by omega) (by omega)) hue
  have hop := h.kind
  have hrows := hends.rows (by omega) (fun hs => gEval_probe m hs hop)
    (writer_probe hop (h.table.trans (if_neg (by decide))) hi hends.start)
  have hsame : probed m c e.desc = probed s c e.desc := by
    funext i
    unfold probed
    rw [probeValue_of_loft hends.marked.toLoft, listElem_of_loft hends.marked.toLoft]
  rw [hsame] at hrows
  exact ⟨t, hexec, hends.memOk, hrows⟩

/-- A column of a segment's row, in the words of R199. -/
theorem segred_word {t : State} (ho : gOfmt e.desc = 6) (hm : t.memOk = true)
    (hrows : Rows c (cw e.desc 4) (gDst e.desc) 0 ((List.range (gN2 e.desc)).map (reduced s c e.desc)) s t) {k j : Nat}
    (hk : k < gN2 e.desc) (hj : j < gCols e.desc) :
    flatRange t c 0 (cw e.desc 4 + k * gDst e.desc + 4 * j) 4 = leBytes 4 (segSum s c e.desc k j) := by
  have hrow := hrows.read hm hk
  rw [reduced_length s c ho] at hrow
  have hfit : 4 * j + 4 ≤ gOrow e.desc := by
    simp only [gOrow, rowBytes, ho, fmtBits, ceilDiv]
    omega
  rw [← take_drop_flatRange hm hfit, hrow, reduced, word_packRow (by simpa using hj), List.getElem_map, List.getElem_range]

/-! ### SCATADD -/

theorem scatadd_results (h : Through s c 2 e e.desc) (hi : gIsp e.desc = 0) (hfmt : gEfmt e.desc = 6) (hue : MeetsNoUe s c e ups) :
    ∃ t, exec (.gleanOpComplete c ups) s = .next t ∧ Scattered s c e.desc (List.range (gN e.desc)) s t := by
  obtain ⟨m, u, t, hexec, hends⟩ := through_ends h (near_of_through h (fun _ => by omega) (by omega) (by omega)) hue
  have hop := h.kind
  have hf := hends.fine
  have hstill := hends.still (by omega)
  rw [hends.run] at hf hstill
  have hadds := scatadd_spec hends.kept hop (h.table.trans (if_neg (by decide))) hi hfmt hf
  have hsame : ∀ x j, scatAdd m c e.desc x j = scatAdd s c e.desc x j := by
    intro x j
    funext i
    unfold scatAdd scatWord
    rw [scatIdx_of_spad hends.marked.toSpad, flatRange_of_spad hends.marked.toSpad]
  refine ⟨t, hexec, (hends.marked.toSpad.trans hadds.toSameSpad).trans hstill.toSpad, hends.memOk, fun x j hx hj => ?_, fun b hb => ?_⟩
  · have hword := hadds.word x j hx hj
    rwa [← flatRange_of_still hstill, wordAt, flatRange_of_still hends.marked, hsame] at hword
  · rw [flatByte_of_still hstill, hadds.rest b hb, flatByte_of_still hends.marked]

/-! ### SORT -/

theorem sort_results (h : Through s c 5 e e.desc) (hue : MeetsNoUe s c e ups) :
    ∃ Q t, RadixSorted (gAux e.desc) ((List.range (gN e.desc)).map (pairAt s c e.desc)) Q ∧
      exec (.gleanOpComplete c ups) s = .next t ∧ t.memOk = true ∧ 0 < gAux e.desc ∧ Passed c e.desc (gN e.desc) (gAux e.desc) Q s t := by
  obtain ⟨m, u, t, hexec, hends⟩ := through_ends h (near_of_through h (by omega) (by omega) (by omega)) hue
  have hop := h.kind
  have hf := hends.fine
  have hstill := hends.still (by omega)
  rw [hends.run] at hf hstill
  obtain ⟨Q, hsort, hpass⟩ := sort_spec hends.kept hop hf
  have haux : 0 < gAux e.desc := by
    have hforb := (fails_start hends.start).1
    simp [gForbidden, hop] at hforb
    omega
  have hsame : pairAt m c e.desc = pairAt s c e.desc := by
    funext i
    unfold pairAt
    rw [flatRange_of_still hends.marked, flatRange_of_still hends.marked]
  rw [hsame] at hsort
  obtain ⟨v, hrows⟩ := hpass.last haux
  exact ⟨Q, t, hsort, hexec, hends.memOk, haux, (hends.marked.toLoft.trans hpass.toSameLoft).trans hstill.toLoft,
    fun _ => ⟨v, hrows.then_still hstill⟩,
    fun b h1 h4 => by rw [flatByte_of_still hstill, hpass.rest b h1 h4, flatByte_of_still hends.marked]⟩

/-- A pair of a sorted buffer, as bytes. -/
theorem sort_pair {t : State} {Q : List (Nat × Nat)} (hsort : RadixSorted (gAux e.desc) ((List.range (gN e.desc)).map (pairAt s c e.desc)) Q)
    (hm : t.memOk = true) (haux : 0 < gAux e.desc) (hpass : Passed c e.desc (gN e.desc) (gAux e.desc) Q s t) {i : Nat} {x : Nat × Nat}
    (hx : Q[i]? = some x) :
    flatRange t c 0 ((if gAux e.desc % 2 = 0 then cw e.desc 1 else cw e.desc 4) + i * (2 * gW e.desc)) (2 * gW e.desc) =
      leBytes (gW e.desc) x.1 ++ leBytes (gW e.desc) x.2 := by
  have hbuf : sortBuf e.desc (gAux e.desc - 1) = if gAux e.desc % 2 = 0 then cw e.desc 1 else cw e.desc 4 := by
    unfold sortBuf
    rcases Nat.mod_two_eq_zero_or_one (gAux e.desc) with h2 | h2
    · rw [if_neg (by omega), if_pos h2]
    · rw [if_pos (by omega), if_neg (by omega)]
  have hlow : x.2 < 2 ^ 32 := by
    obtain ⟨k, -, rfl⟩ := List.mem_map.1 (hsort.perm.subset (List.mem_of_getElem? hx))
    exact pairAt_snd_lt ..
  obtain ⟨v, hrows⟩ := hpass.last haux
  have hrow := hrows.range hm (i := i) (d := pairBytes (gW e.desc) x) (by rw [List.getElem?_map, hx]; rfl)
  rw [pairBytes_length, hbuf, Nat.zero_add, pairBytes_eq _ hlow] at hrow
  exact hrow

/-! ### MERGE and ISECT -/

/-- What MERGE or ISECT leaves: its list, the list's length in its descriptor, and the rest of memory. -/
theorem list_results (hop : op = 3 ∨ op = 4) (h : Through s c op e e.desc) (hi : gIsp e.desc = 1) (hp : gPos e.desc = false) (hspace : e.space = 1)
    (hue : MeetsNoUe s c e ups) {out : List Nat}
    (hout : out = listed op ((List.range (gN e.desc)).map (listElem s c 1 e.desc (cw e.desc 1)))
      ((List.range (gN2 e.desc)).map (listElem s c 1 e.desc (cw e.desc 2)))) :
    Completes (.gleanOpComplete c ups) s (fun t =>
      (∀ k v, out[k]? = some v → flatRange t c 0 (cw e.desc 4 + k * gW e.desc) (gW e.desc) = leBytes (gW e.desc) v) ∧
      flatRange t c 1 (e.addr + 56) 8 = leBytes 8 out.length ∧
      (∀ a, a < cw e.desc 4 ∨ cw e.desc 4 + out.length * gW e.desc ≤ a → SMap.get (t.core c).spad 0 a = SMap.get (s.core c).spad 0 a) ∧
      ∀ a, a < e.addr + 56 ∨ e.addr + 64 ≤ a → SMap.get t.mem.loft 0 a = SMap.get s.mem.loft 0 a) := by
  obtain ⟨m, u, t, hexec, hends⟩ := through_ends h (near_of_through h (fun _ => hi.le) (by omega) (fun _ => hp)) hue
  have hkind := h.kind
  have htab : gTsp e.desc = 1 := h.table.trans (if_neg (by omega))
  have hm := hends.memOk
  obtain ⟨hmark, hk, rfl, -, hf, -, v, status, hv, hkv, rfl⟩ := hends
  have hlist := list_spec hk (hkind ▸ hop) htab hi hp hf
  have helems : ∀ base, listElem m c 1 e.desc base = listElem s c 1 e.desc base := fun base =>
    funext fun i => listElem_of_loft hmark.toLoft c e.desc base i
  rw [helems, helems, hkind, ← hout] at hlist
  obtain ⟨-, hcount, hrows⟩ := hlist
  rw [Nat.zero_add] at hcount
  rw [hcount] at hexec hm
  have hrows' := (Rows.of_still hmark hrows).then_still hv
  obtain ⟨hspad, hloft⟩ := loft_glnLeave (c := c) (e := e) hkv (hkind ▸ hop) hspace out.length status
  have hvar := (kept_glnLeave (Kept.refl v) c e out.length status).variant
  generalize v.glnLeave c e out.length status = t at hexec hm hspad hloft hvar
  refine ⟨t, hexec, fun k x hx => ?_, ?_, fun a ha => ?_, fun a ha => ?_⟩
  · have hrow := hrows'.range hkv (i := k) (d := leBytes (gW e.desc) x) (by rw [List.getElem?_map, hx]; rfl)
    rwa [leBytes_length, Nat.zero_add, ← flatRange_of_spad ⟨hvar, hspad⟩] at hrow
  · have hrange := flatRange_of_bytes (c := c) (space := 1) (a := e.addr + 56) (d := leBytes 8 out.length) hm fun k hk => by
      rw [leBytes_length] at hk
      rw [hloft, if_pos (by omega), Nat.add_sub_cancel_left]
    rwa [leBytes_length] at hrange
  · rw [hspad, ← flatByte_spad, ← flatByte_spad]
    refine hrows'.outside ?_
    rwa [List.length_map, Nat.zero_mul, Nat.zero_add, Nat.add_zero]
  · rw [← flatByte_loft t c, hloft, if_neg (by omega), flatByte_loft, hrows'.loft]

end Through

/-- Settles O16, operation by operation: what each leaves of its list, its rows or its table. -/
theorem gleanerResults : Obligations.GleanerResults := by
  intro s c e d ups _ hue
  refine ⟨fun h hi => ?gather, fun h hi ho hdir hop hel hout => ?segred, fun h hi hfmt => ?scatadd,
    fun A B op hop h hi hp hspace _ hA hB hsorted => ?lists, fun P h hP => ?sort, fun h hi => ?probe⟩
  case gather =>
    obtain rfl := h.desc
    obtain ⟨t, hexec, hm, hrows⟩ := gather_results h hi hue
    refine ⟨t, hexec, hrows.loft, fun i x hlt hx => ?_, fun a ha => hrows.spad_rest fun i hlt => ?_⟩
    · have hrow := hrows.read hm hlt
      rw [gathered_length] at hrow
      rw [hrow, hx, gathered]
    · rw [gathered_length]
      exact ha i hlt
  case segred =>
    obtain rfl := h.desc
    obtain ⟨t, hexec, hm, hrows⟩ := segred_results h ⟨h.table.trans (if_neg (by decide)), hi, ho, hdir, hop, hel, hout⟩ hue
    refine ⟨t, hexec, hrows.loft, fun k j lo hi hk hj hlo hhi => ?_, fun a ha => hrows.spad_rest fun i hlt => ?_⟩
    · rw [segred_word hout hm hrows hk hj, segSum, clampI_eq (by decide), hlo, hhi]
      rfl
    · rw [reduced_length s c hout]
      exact ha i hlt
  case scatadd =>
    obtain rfl := h.desc
    obtain ⟨t, hexec, hadds⟩ := scatadd_results h hi hfmt hue
    refine ⟨t, hexec, hadds.spad, fun x j hx hj => ?_, fun a ha => ?_⟩
    · have hsum := sum_filter (f := fun i => scatWord s c e.desc i j) (p := fun i => scatIdx s c e.desc i == x) (List.range (gN e.desc))
      rw [hadds.word x j hx hj, wordAt]
      simp only [beq_iff_eq] at hsum
      exact congrArg (fun n => leBytes 4 (_ + n)) hsum
    · rw [← flatByte_loft t c, ← flatByte_loft s c, hadds.rest a ha]
  case lists =>
    obtain rfl := h.desc
    subst hA hB
    refine ⟨_, fun h3 => if_pos h3, fun h4 => ?_, list_results hop h hi hp hspace hue rfl⟩
    obtain ⟨hsA, hsB⟩ := hsorted.resolve_left (by omega)
    rw [if_neg (by omega)]
    exact ⟨hsA.sublist (meet_sublist ..), count_meet hsA hsB⟩
  case sort =>
    obtain rfl := h.desc
    obtain rfl : P = (List.range (gN e.desc)).map (pairAt s c e.desc) := hP
    obtain ⟨Q, t, hsort, hexec, hm, haux, hpass⟩ := sort_results h hue
    refine ⟨Q, hsort.order, hsort.stable, t, hexec, hpass.loft, fun a h1 h4 => ?_, fun i x hx => sort_pair hsort hm haux hpass hx⟩
    rw [← flatByte_spad, ← flatByte_spad, hpass.rest a h1 h4]
  case probe =>
    obtain rfl := h.desc
    obtain ⟨t, hexec, hm, hrows⟩ := probe_results h hi hue
    have hlen : ∀ i, (probed s c e.desc i).length = 4 := fun i => leBytes_length ..
    refine ⟨t, hexec, hrows.loft, fun i hlt => ?_, fun a ha => hrows.spad_rest fun i hlt => ?_⟩
    · have hrow := hrows.read hm hlt
      rwa [hlen, Nat.mul_comm i 4] at hrow
    · rw [hlen]
      omega

end Sys2Proof.Proofs.Gleaner
